-- ==== Sys2Proof/Word.lean ====
section
/-! DEFINITION. The words the module's registers and formats are made of (00_scope R3, R8). -/

namespace Sys2Proof

/-- One byte of any memory or format. -/
abbrev Byte := BitVec 8

/-- A 32-bit register word (R6). -/
abbrev W32 := BitVec 32

/-- A 64-bit value: two consecutive register words (R6). -/
abbrev W64 := BitVec 64

/-- Sparse data by number: entries in strictly rising key order. -/
abbrev KMap (α : Type) := List (Nat × α)

end Sys2Proof
end

