-- ==== Sys2Proof/Syntax.lean ====
section
/-! DEFINITION. The commands of the ZS-704-WA: one constructor of `Instr` per row of opcode_table.json, with the
operands each row carries. The table gives no bits; an operand is what the named event, register access or host
command brings from outside the module (a value written, a descriptor, a message body, a measured value, the
outcome of a check the spec makes outside the model, such as an LMS verification). `writes` gives the outcome of each
program of the settings store the command makes over the internal path, in order; a missing entry is a success. -/

namespace Sys2Proof

/-- A command of an NVMe queue: the submission queue it came from (0 the admin queue) and its identifier. -/
structure CmdId where
  sq  : Nat
  cid : Nat
  deriving DecidableEq, Repr

/-- NSID and command dwords 10 to 15 of an NVMe command. -/
structure Dwords where
  nsid : Nat := 0
  d10  : W32 := 0
  d11  : W32 := 0
  d12  : W32 := 0
  d13  : W32 := 0
  d14  : W32 := 0
  d15  : W32 := 0
  deriving DecidableEq, Repr

/-- What JOB_SUBMIT carries (R320): PRP1, CDW10 and the 256 descriptor bytes QE reads once. -/
structure Submit where
  prp1 : Nat
  d10  : W32
  desc : List Byte
  deriving DecidableEq, Repr

/-- What the fuse map holds (R380, R75, R105, R207, R441). -/
structure FuseMap where
  ok       : Bool                -- the map's check passes
  phys     : List Nat            -- physical position of tile id n at place n (R75)
  spare    : KMap (BitVec 20)    -- TILE_SPARE of tile n (R105)
  readOff  : KMap Int            -- factory read offset F of threshold t, by 16 * (32 * channel + die) + t (R207)
  seeds    : KMap Int            -- DRAM training seed of stack s, parameter p, by 32 * s + p (R386)
  trims    : KMap Int            -- factory thermal trim of sensor n, 0.1 degree (R441)
  vGain    : Int                 -- factory power monitor gains, units of 2^-16, and offsets, mV and mA (R441)
  iGain    : Int
  vOff     : Int
  iOff     : Int
  deriving DecidableEq, Repr

/-- Which converter left regulation (R472). -/
inductive RailKind where
  | hostDie | flash | tile | dram
  deriving DecidableEq, Repr

/-- A class of work that asks the Pacer for a grant (R367). -/
inductive WorkClass where
  | search | serve | scanEmbed | train | media | index
  deriving DecidableEq, Repr

/-- One request to start in the coming beat (R366): its class, squad, identity, estimate in W, how many boundaries
it has waited, and for media work the share of channel time it takes in percent. `work` is the class number of R369 of
media and index work: 0 fold, 1 garbage collection, 2 side-list merge, 3 compaction, 4 scrub and refresh. -/
structure WorkReq where
  cls    : WorkClass
  work   : Nat := 0
  squad  : Nat
  key    : Nat
  estW   : Nat
  waited : Nat
  pct    : Nat
  deriving DecidableEq, Repr

/-- What the Pacer measures and is asked at a boundary (R366, R374): the mean input power and duration of the beat
that ends, idle draw, urgent media work, measured draw of each lap in flight (squad, W), the requests, and the filler
work that exists (class number of R369, key, W). -/
structure BoundaryInfo where
  meanW    : Nat
  durNs    : Nat
  idleW    : Nat
  urgentW  : Nat
  inFlight : List (Nat × Nat)
  reqs     : List WorkReq
  filler   : List (Nat × Nat × Nat)
  deriving DecidableEq, Repr

/-- A fault message a source sends FL (R398, R405) with what it touched: the tile it halted (R406), the squad it
fences, the jobs it touched by tag, the object and near-tier granule concerned. -/
structure FaultMsg where
  source : Nat
  kind   : Nat
  cls    : Nat
  addr   : W64
  d0     : W32
  d1     : W32
  d2     : W32
  d3     : W32
  squad  : Option Nat
  tile   : Option Nat
  jobs   : List Nat
  object : Option Nat
  deriving DecidableEq, Repr

/-- How a copy by RL ends (R163, R169): complete, its source read failed, or it met a damaged far-tier unit (R159). -/
inductive CopyResult where
  | ok | readFail | damaged (channel addr : Nat)
  deriving DecidableEq, Repr

/-- How a latch fill ends (R162): every granule and unit was readable, or what the relay met. The model makes the CRC
and field checks itself. -/
inductive FillResult where
  | readable
  | nearUncorr (addr : Nat)
  | farDamaged (channel addr : Nat)
  | nsUncorr (channel nsid lba : Nat)
  deriving DecidableEq, Repr

/-- What the tiles of a squad bring to a lap hurdle (R63, R173, R289, R297, R309): the largest TILE_STALL increase, the
logits of the sequences that produce a token, the waits at layer fences that let the filler chunk pass its next layer, and
the mean loss of a TRAIN step. -/
structure HurdleInfo where
  stallCycles : Nat
  logits      : List (Nat × List W32)
  fillerWaits : Nat
  loss        : W32
  deriving DecidableEq, Repr

/-- One embedded record of an EMBED extent (R235, R236, R237): the record's place among the extent's matching records,
its FP32 output vector and its code-projection vector. -/
structure EmbedOut where
  record : Nat
  vec    : List W32
  proj   : List W32
  cut    : Bool
  deriving DecidableEq, Repr

/-- A layer of a TRAIN job as its op lists lay it out (R128, R129): layer number, weight tensor_id, its first baton of
run_object, how many batons it takes, and how many consecutive ones of them share their 64 output channels. -/
structure LayerSpan where
  layer  : Nat
  tensor : Nat
  first  : Nat
  count  : Nat
  depth  : Nat
  deriving DecidableEq, Repr

/-- One write to the BAR2 window (R435): offset, length in bytes and the word. -/
structure SwCycle where
  off  : Nat
  len  : Nat
  word : W32
  deriving DecidableEq, Repr

/-- How one codeword of a read decodes (R208): its block's place in the command, the step of the ladder, and the bit
errors found. A codeword not named decodes at its block's hint with no error. -/
structure CodewordRead where
  block : Nat
  step  : Nat
  bits  : Nat
  deriving DecidableEq, Repr

/-- What a read takes: how many blocks, and how their codewords decode (R208). -/
structure ReadLen where
  nlb   : Nat
  reads : List CodewordRead
  deriving DecidableEq, Repr

/-- What a Get Features asks for (R313): the feature, and the dword that selects a threshold or a vector. -/
structure FeatureAsk where
  fid : Nat
  sel : W32
  deriving DecidableEq, Repr

/-- What an NVMe-MI request carries beside its opcode (R475): the namespace, the opcode's argument, and the part of the answer it
asks for. -/
structure MiAsk where
  nsid : Nat
  arg  : Nat
  off  : Nat
  len  : Nat
  deriving DecidableEq, Repr

/-- The outcome of re-checking one standing cause (R415): its source, kind and whether it persists. -/
structure Recheck where
  source   : Nat
  kind     : Nat
  persists : Bool
  deriving DecidableEq, Repr

/-- A write of FL_CLEAR (R422): the word, and how the causes it covers re-check. -/
structure FlClearWrite where
  word   : W32
  checks : List Recheck
  deriving DecidableEq, Repr

/-- A function, BAR and byte offset of the module's address space (R9). -/
structure BarAddr where
  fn  : Nat
  bar : Nat
  off : Nat
  deriving DecidableEq, Repr

/-- A command of the module: one constructor per row of opcode_table.json. -/
inductive Instr where
  -- power, pins and bring-up (14, 18)
  | vinAccepted (v10mV : Nat)
  | holdUpBankCharged
  | inputOutOfRange (v10mV : Nat)
  | powerFail (v10mV : Nat)
  | powerFailRailsOff
  | modEnAssert
  | modEnDeassert
  | railFault (rail : Nat) (kind : RailKind) (v10mV : Nat)
  | perstAssert
  | perstDeassert
  | fuseReadDone (map : FuseMap)
  | panelPowerDone
  | settingsStoreReadDone (fwSigOk bootSigOk : Bool)
  | enterBlocks (ms : Nat)
  | dramTrainingDone (stack : Nat) (ok : Bool)
  | ntSweepDone (stack : Nat)
  | bootImageApply
  | mapReplayDone (ms : Nat)
  | directoryRebuildDone
  | fcPathPrimed
  | enterGo (ms : Nat)
  | ps4Exit
  -- the Pacer (13)
  | beatEdge (highNs sinceBoundary sinceEdge : Nat)
  | missedBeat
  | freerunEntry
  | freerunBoundary
  | beatBoundary (b : BoundaryInfo)
  | setpoint (endpoint : Nat) (body : List Byte)
  | period (endpoint : Nat) (body : List Byte)
  | setpointTakeEffect
  | reportTimer
  | thermalTrigger (sensor temp : Nat)
  | thermalCeilingEnd (temps : List (Nat × Nat))
  | thermalShutdown (sensor temp : Nat)
  | outletAlert (temp : Nat)
  | dramHotRefresh (stack temp : Nat)
  | flashThrottle (board temp : Nat)
  | flashThrottleEnd (tempA tempB : Nat)
  | flashBandChange (tempA tempB : Nat)
  -- host queues and administration (11)
  | sqTailDoorbell (sq tail : Nat)
  | cqHeadDoorbell (cq head : Nat)
  | controllerEnable
  | controllerReset
  | flrFunction0
  | flrFunction1
  | hlPcieError (fn bit : Nat)
  | dataTransferError (c : CmdId) (addr : W64)
  | createIoSq (c : CmdId) (sqid size prio cqid : Nat) (pc : Bool)
  | createIoCq (c : CmdId) (cqid size vector : Nat) (ien pc : Bool)
  | deleteIoSq (c : CmdId) (sqid : Nat)
  | deleteIoCq (c : CmdId) (cqid : Nat)
  | identify (c : CmdId) (cns nsid : Nat)
  | getLogPage (c : CmdId) (page lsf : Nat) (rae : Bool) (offset len : Nat)
  | abort (c : CmdId) (sqid cid : Nat)
  | setFeatures (c : CmdId) (fid : Nat) (value : W32) (data : List Byte)
  | setFeaturesPowerManagement (c : CmdId) (ps : Nat)
  | getFeatures (c : CmdId) (ask : FeatureAsk)
  | asyncEventRequest (c : CmdId)
  | namespaceCreate (c : CmdId) (nsze ncap : Nat)
  | namespaceDelete (c : CmdId) (nsid : Nat)
  | namespaceAttachment (c : CmdId) (nsid : Nat) (attach : Bool) (ctrl : Nat)
  | formatNvm (c : CmdId) (nsid : Nat)
  | formatNvmCryptoErase (c : CmdId) (nsid ses : Nat)
  | firmwareImageDownload (c : CmdId) (offset : Nat) (data : List Byte)
  | firmwareCommit (c : CmdId) (slot action : Nat) (sigOk : Bool) (writes : List Bool)
  | firmwareCommitDone (ok : Bool) (writes : List Bool)
  -- storage (07, 11)
  | read (c : CmdId) (nsid slba : Nat) (len : ReadLen)
  | write (c : CmdId) (nsid slba nlb : Nat) (data : List (List Byte))
  | writeZeroes (c : CmdId) (nsid slba nlb : Nat) (deac : Bool)
  | datasetManagementDeallocate (c : CmdId) (nsid : Nat) (ranges : List (Nat × Nat))
  | verify (c : CmdId) (nsid slba : Nat) (len : ReadLen)
  | flush (c : CmdId) (nsid : Nat)
  | rangeLockGranted
  | overlapWaitEnd (c : CmdId)
  | landingStripeClose
  | landingStripeVerified (stripe : Nat)
  | writeResumeLanding (c : CmdId)
  | writeResumeSnapshot (c : CmdId)
  | foldRow (group block : Nat) (units : List Nat)
  | landingAgeLimit
  | garbageCollection (group victim dest : Nat)
  | wearLevelMove (group src dest : Nat)
  | scrubRead (channel die block step bits : Nat)
  | refresh (channel die block dest : Nat)
  | mapCheckpoint
  | progFail (channel die block dest : Nat)
  | eraseFail (channel die block : Nat)
  | retryExhausted (channel : Nat) (addr : W64)
  | rebuildDone (channel nsid lba : Nat) (ok : Bool)
  | ntPatrolScrub (addr : Nat)
  -- jobs (08, 09, 10)
  | jobCancel (c : CmdId) (sqid cid : Nat)
  | scan (c : CmdId) (s : Submit)
  | embed (c : CmdId) (s : Submit)
  | search (c : CmdId) (s : Submit) (queries : List (List Byte))
  | insert (c : CmdId) (s : Submit) (data : List Byte)
  | delete (c : CmdId) (s : Submit) (data : List Byte)
  | commit (c : CmdId) (s : Submit)
  -- each source: its 16-byte entry of source_list, then its blocks when they are in host memory (R279)
  | merge (c : CmdId) (s : Submit) (sources : List (List Byte))
  | serveOpen (c : CmdId) (s : Submit)
  | serveAppend (c : CmdId) (s : Submit) (tokens : List Nat)
  | serveClose (c : CmdId) (s : Submit)
  | train (c : CmdId) (s : Submit)
  | jobAdmit (tag : Nat)
  | commitTakeEffect (nsid : Nat)
  | jobRestart (tag : Nat)
  | extentDone (tag extent : Nat) (embeds : List EmbedOut)
  | heapCollect (tag query : Nat)
  | lapHurdle (squad : Nat) (h : HurdleInfo)
  | decodeCapRise (slot : Nat)
  | updateRatioCheck (tag : Nat) (layers : List LayerSpan)
  -- tile ops (03, 04, 05)
  | matmul (tile : Nat) (desc : List Byte)
  | xorpop (tile : Nat) (desc : List Byte)
  | reduce (tile : Nat) (desc : List Byte)
  | eltwise (tile : Nat) (desc : List Byte)
  | eltwiseQuant (tile : Nat) (desc : List Byte)
  | gather (tile : Nat) (desc : List Byte)
  | scatter (tile : Nat) (desc : List Byte)
  | filter (tile : Nat) (desc : List Byte)
  | topk (tile : Nat) (desc : List Byte)
  | loadBaton (tile : Nat) (desc : List Byte)
  | hurdleFence (tile : Nat) (desc : List Byte)
  | stats (tile : Nat) (desc : List Byte)
  | statsReport (tile : Nat) (desc : List Byte)
  | calRendezvousDone (squad tensor : Nat)
  | opComplete (tile unit : Nat)
  | batonFillDone (tile latch : Nat) (r : FillResult)
  | tileSweepDone (tile : Nat)
  -- objects (06)
  | objPlaceHost (c : CmdId) (d : Dwords) (data : List Byte)
  | objPlaceLba (c : CmdId) (d : Dwords)
  | objPlaceFar (c : CmdId) (d : Dwords)
  | objPlaceNear (c : CmdId) (d : Dwords)
  | placeCopyDone (object : Nat) (r : CopyResult)
  | objEvict (c : CmdId) (d : Dwords)
  | objEvictDiscard (c : CmdId) (d : Dwords)
  | objPublishHost (c : CmdId) (d : Dwords) (data : List Byte)
  | objPublishNear (c : CmdId) (d : Dwords)
  | publishDone (object : Nat)
  | pinsReachZero (object version : Nat)
  -- structure images (02)
  | structureLoadStage (c : CmdId) (d : Dwords) (data : List Byte)
  | structureLoadApply (c : CmdId) (d : Dwords)
  | structureLoadDiscard (c : CmdId) (d : Dwords)
  | applyVerifyDone (sigOk : Bool)
  | applyConfigure
  | persistDone (ok : Bool)
  | squadRetire (c : CmdId) (d : Dwords)
  | squadRetireForce (c : CmdId) (d : Dwords)
  | drainComplete (squad : Nat)
  | drainSlow
  -- versions and fault clearing (11, 15)
  | versionNegotiateOffer (c : CmdId) (d : Dwords) (offer : List Byte) (writes : List Bool)
  | versionNegotiateCommit (c : CmdId) (d : Dwords) (writes : List Bool)
  | versionNegotiateQuery (c : CmdId) (d : Dwords)
  | faultClearFatal (c : CmdId) (d : Dwords) (checks : List Recheck)
  | faultClearSquad (c : CmdId) (d : Dwords) (checks : List Recheck)
  | faultClearAllContained (c : CmdId) (d : Dwords) (checks : List Recheck)
  | flClearFatal (w : FlClearWrite)
  | flClearSquad (v : W32) (checks : List Recheck)
  | flClearAllContained (w : FlClearWrite)
  | fenceClearApply
  | faultMessage (m : FaultMsg)
  | mgWatchdogExpiry (core : Nat)
  | powerStateChange
  | apstIdleExpiry (ps : Nat)
  -- the peer inbound window (11)
  | peerWindowWrite (off : Nat) (data : List Byte)
  | qeP2pFlush
  | qeP2pCfgWrite (v : W32)
  | qeP2pBaseWrite (hi : Bool) (v : W32)
  -- function 1 (12)
  | lpReqProdWrite (v : W32)
  | lpRplConsWrite (v : W32)
  | lpCtlReset (v : W32 := 2)
  | lpVolMapWrite (volume : Nat) (v : W32) (writes : List Bool)
  | lpRead
  | lpWrite
  | lpFlush
  | lpTrim
  | lpInquire
  | lpUnsupported
  | lpData
  | lpAbort
  | lpPad
  | lpWindowLanded (tag : Nat)
  | lpXferTimeout (tag : Nat)
  -- the settings store window (16)
  | swWindowRead (off len : Nat)
  | wordProgram (cycles : List SwCycle)
  | pageProgram (cycles : List SwCycle)
  | sectorErase (cycles : List SwCycle)
  | identifyMode (cycles : List SwCycle)
  | swAbort (off : Nat)
  | swOpDone (pulses : Nat) (ok : Bool)
  | swQueuedStart
  | swProtectSet (word : Nat) (v : W32)
  | maintenanceGrant (grant : List Byte) (sigOk : Bool) (writes : List Bool)
  -- trust (17)
  | keyRequest (request : List Byte) (sigOk : Bool) (writes : List Bool)
  | attestation
  | topTreeDone
  | attestDone (slotWrites : List Bool) (transferOk : Bool)
  -- registers with an action of their own
  | rlProbeWrite
  | rlProbeRead
  | rlLookup (v : W32)
  | nsLookup (v : W32)
  | resetSquad (squad : Nat)
  | resetAll
  | nsClrCnt
  | modelRegister (v : W32) (record : List Byte)
  | modelUnregister (v : W32)
  | jdSplitSel (v : W32)
  | tileClrCnt (tile : Nat)
  | tileLmWdata (tile : Nat) (v : W32)
  | tileLmRdata (tile : Nat)
  | mmFlashTempRead
  | reg64LowRead (a : BarAddr)
  | registerWrite (a : BarAddr) (data : List Byte)
  -- background work on the index, shutdown and the sideband
  | sideListMerge (nsid : Nat) (segments : List Nat)
  | indexCompaction (nsid : Nat)
  | nvmeShutdown
  | nvmeMiMessage (msgType : Nat) (admin : Bool) (opcode : Nat) (ask : MiAsk)
  | setEndpointId (eid : Nat)
  | setdasa (addr : Nat)
  | inputInRange (v10mV : Nat)
  | outletAlertEnd (temp : Nat)
  deriving DecidableEq, Repr

end Sys2Proof
end

