-- ==== Sys2Proof/Decode.lean ====
section
/-! DEFINITION. The command a word spells by the table's bits. The module is a block: opcode_table.json gives no row
any bits, so no word spells a command. -/

namespace Sys2Proof

/-- No row of opcode_table.json gives bits: no word spells a command. -/
def decodeTableWord (_nbits _w : Nat) : Option Instr := none

end Sys2Proof
end

