-- ==== Sys2Proof/Config.lean ====
section
/-! DEFINITION. What the spec leaves to the part or leaves open: opaque constants, of which nothing can be evaluated.
A free value is one of these functions applied to the model's own counter `State.tick` (assumption entry 1). -/

namespace Sys2Proof

/-- Boot ROM version, MC_ID.ROM (R397: "From ROM"). -/
opaque Config.romVersion : BitVec 8

/-- A free 64-bit value for draw `n` (entry 1). -/
opaque Config.freeBits : Nat → BitVec 64

/-- A free number for draw `n` (entry 1). -/
opaque Config.freeNat : Nat → Nat

/-- Word `i` of a free array for draw `n` (entry 1). -/
opaque Config.freeWord : Nat → Nat → BitVec 32

/-- Which of the possible assignments of check columns the tile's code uses (R68 fixes the column weights only). -/
opaque Config.eccSeed : Nat

/-- The JEDEC identity bytes of the fitted settings store device, by byte number (R437). -/
opaque Config.jedec : Nat → Byte

/-- Byte `i` of the VPD of this part: ordering code, panel serial, panel revision and date of manufacture (R475). -/
opaque Config.vpdByte : Nat → Byte

/-- Byte `i` of a field of an NVMe data structure or log page whose value no rule gives: page, byte. -/
opaque Config.nvmeByte : Nat → Nat → Byte

/-- An LMS public key, signature or random byte SE produces for draw `n` at place `i` (R447, R452, R461). -/
opaque Config.seByte : Nat → Nat → Byte

/-- The LDPC parity FC adds to a codeword's data and metadata; the code is not given (R179). -/
opaque Config.ldpcParity : List Byte → List Byte

/-- The verify loops of a program less one, before the die mode's limit bounds them (R176, R211): by how much the module had
written. -/
opaque Config.programLoops : Nat → Nat

/-- FP32 power of R305, and cosine of pi times its argument: neither's precision is given. -/
opaque Config.pow32 : BitVec 32 → Nat → BitVec 32
opaque Config.cosPi : BitVec 32 → BitVec 32

/-- Sign and payload of the FP32 NaN that QUANT with factor `q` makes of an input pattern (R132: equal inputs give equal
bytes; the payload is not given). -/
opaque Config.nanWord : BitVec 32 → Nat → BitVec 32

/-- How many of the sorted logits SAMPLE keeps for a top_p, less one (R289): no precision is given for the
probabilities. -/
opaque Config.topP : List (BitVec 32) → BitVec 32 → Nat

end Sys2Proof
end

