-- ==== Sys2Proof/Machine/KMap.lean ====
section
/-! DEFINITION. Sparse data by number: a list of entries in strictly rising key order, and bytes by address in the same
form with no entry equal to what an unlisted address reads as. -/

namespace Sys2Proof

/-- The entry of key `n`, if it is listed. -/
def KMap.find {α : Type} : KMap α → Nat → Option α
  | [], _ => none
  | (k, v) :: m, n => if k = n then some v else KMap.find m n

/-- The entry of key `n`, or `d`. -/
def KMap.findD {α : Type} (m : KMap α) (n : Nat) (d : α) : α := (m.find n).getD d

/-- Set the entry of key `n`, keeping the order. -/
def KMap.put {α : Type} : KMap α → Nat → α → KMap α
  | [], n, v => [(n, v)]
  | (k, w) :: m, n, v =>
    if n < k then (n, v) :: (k, w) :: m
    else if n = k then (n, v) :: m
    else (k, w) :: KMap.put m n v

/-- Remove the entry of key `n`. -/
def KMap.del {α : Type} (m : KMap α) (n : Nat) : KMap α := m.filter (fun e => !(e.1 == n))

/-- Change the entry of key `n` if it is listed. -/
def KMap.adjust {α : Type} (m : KMap α) (n : Nat) (f : α → α) : KMap α :=
  m.map (fun e => if e.1 = n then (e.1, f e.2) else e)

/-- The keys listed. -/
def KMap.keys {α : Type} (m : KMap α) : List Nat := m.map Prod.fst

/-- The values listed. -/
def KMap.vals {α : Type} (m : KMap α) : List α := m.map Prod.snd

/-- Change every value. -/
def KMap.mapVals {α : Type} (m : KMap α) (f : Nat → α → α) : KMap α := m.map (fun e => (e.1, f e.1 e.2))

/-- Keys strictly rising. -/
def KMap.sorted {α : Type} : KMap α → Bool
  | [] => true
  | [_] => true
  | a :: b :: m => decide (a.1 < b.1) && KMap.sorted (b :: m)

/-- The byte at address `a`; an unlisted address reads `d`. -/
def readCell (d : Byte) (m : List Host.Cell) (a : Nat) : Byte := KMap.findD m a d

/-- Write one byte: a byte equal to what an unlisted address reads as is not listed. -/
def writeCell (d : Byte) (m : List Host.Cell) (a : Nat) (b : Byte) : List Host.Cell :=
  if b = d then KMap.del m a else KMap.put m a b

/-- Read `n` bytes from address `a` upward. -/
def readCells (d : Byte) (m : List Host.Cell) (a n : Nat) : List Byte :=
  (List.range n).map (fun i => readCell d m (a + i))

/-- The listed cells of bytes from address `a` upward. -/
def cellsOf (d : Byte) (a : Nat) : List Byte → List Host.Cell
  | [] => []
  | b :: bs => if b = d then cellsOf d (a + 1) bs else (a, b) :: cellsOf d (a + 1) bs

/-- Write bytes from address `a` upward. -/
def writeCells (d : Byte) (m : List Host.Cell) (a : Nat) (l : List Byte) : List Host.Cell :=
  m.filter (fun e => e.1 < a) ++ cellsOf d a l ++ m.filter (fun e => a + l.length ≤ e.1)

/-- Drop every listed byte of `[a, a + n)`: they read `d` again. -/
def eraseCells (m : List Host.Cell) (a n : Nat) : List Host.Cell :=
  m.filter (fun e => e.1 < a || a + n ≤ e.1)

/-- The canonical form of a byte memory: addresses strictly rising, no entry equal to `d`. -/
def cellsWf (d : Byte) (m : List Host.Cell) : Bool := KMap.sorted m && m.all (fun e => !(e.2 == d))

end Sys2Proof
end

