-- ==== Sys2Proof/Machine/Operands.lean ====
section
/-! DEFINITION. Fields of the module's formats: bytes little-endian (R8), bit ranges [high:low] (R3). -/

namespace Sys2Proof.Machine

/-- Byte `i` of a format as a number; bytes past its end are 0. -/
def byteAt (l : List Byte) (i : Nat) : Nat := (l.getD i 0).toNat

/-- The `n`-byte little-endian field at offset `o` (R8). -/
def leAt (l : List Byte) (o : Nat) : Nat → Nat
  | 0 => 0
  | n + 1 => byteAt l o + 256 * leAt l (o + 1) n

def u16At (l : List Byte) (o : Nat) : Nat := leAt l o 2
def u32At (l : List Byte) (o : Nat) : Nat := leAt l o 4
def u64At (l : List Byte) (o : Nat) : Nat := leAt l o 8

/-- `v` as `n` little-endian bytes (R8). -/
def leBytes (v : Nat) : Nat → List Byte
  | 0 => []
  | n + 1 => BitVec.ofNat 8 v :: leBytes (v / 256) n

/-- Bits [hi:lo] of a number. -/
def bitsN (v hi lo : Nat) : Nat := v / 2 ^ lo % 2 ^ (hi + 1 - lo)

/-- Bit `i` of a number. -/
def bitN (v i : Nat) : Bool := v / 2 ^ i % 2 == 1

/-- Bits [hi:lo] of a register word. -/
def bitsW (v : W32) (hi lo : Nat) : Nat := bitsN v.toNat hi lo

/-- Bit `i` of a register word. -/
def bitW (v : W32) (i : Nat) : Bool := v.getLsbD i

/-- A list cut or filled with zeros to `n` bytes. -/
def padTo (n : Nat) (l : List Byte) : List Byte := (l ++ List.replicate (n - l.length) 0).take n

/-- Bytes [o, o + n), zeros past the end. -/
def sliceZ (l : List Byte) (o n : Nat) : List Byte := padTo n (l.drop o)

/-- Drop trailing zero bytes: the form blocks are kept in. -/
def trimZ : List Byte → List Byte
  | [] => []
  | b :: bs =>
    match trimZ bs with
    | [] => if b = 0 then [] else [b]
    | r => b :: r

/-- Replace bytes from offset `o` of a zero-filled byte string. -/
def spliceZ (l : List Byte) (o : Nat) (d : List Byte) : List Byte :=
  padTo o l ++ d ++ l.drop (o + d.length)

/-- Every byte of [o, o + n) is 0. -/
def zerosAt (l : List Byte) (o n : Nat) : Bool := (sliceZ l o n).all (fun b => b == 0)

/-- A number held to at most `m`. -/
def satTo (m v : Nat) : Nat := min m v

/-- 32-bit saturating counter. -/
def sat32 (v : Nat) : Nat := satTo 0xFFFFFFFF v

/-- 16-bit saturating counter. -/
def sat16 (v : Nat) : Nat := satTo 0xFFFF v

/-- 0 or 1. -/
def b2n (b : Bool) : Nat := if b then 1 else 0

/-- Two's complement of `v` in `w` bits as an integer. -/
def signedN (w v : Nat) : Int := if v % 2 ^ w < 2 ^ (w - 1) then (v % 2 ^ w : Nat) else (v % 2 ^ w : Nat) - (2 ^ w : Nat)

/-- Low `w` bits of an integer. -/
def wrapZ (w : Nat) (v : Int) : Nat := (v % (2 ^ w : Nat)).toNat

/-- Hold an integer to [lo, hi]. -/
def clampZ (lo hi v : Int) : Int := max lo (min hi v)

/-- Divide, rounding up. -/
def ceilDiv (a b : Nat) : Nat := (a + b - 1) / b

end Sys2Proof.Machine
end

