-- ==== Sys2Proof/Machine/Flags.lean ====
section
/-! DEFINITION. Event bits and status bits: the RW1C rule of R4, and setting a bit of an event register. -/

namespace Sys2Proof.Machine

/-- A write of `v` to a register whose RW1C bits are `m` (R4): a 1 clears that bit, a 0 leaves it. -/
def rw1c (old m v : W32) : W32 := old &&& ~~~(v &&& m)

/-- A write of `v` to a register whose RW bits are `m`: the others keep their value. -/
def rwBits (old m v : W32) : W32 := (old &&& ~~~m) ||| (v &&& m)

/-- Set bit `i` of an event register. -/
def setEv (old : W32) (i : Nat) : W32 := old ||| (1 <<< i)

/-- A word from a list of (bit position, value) fields. -/
def packW : List (Nat × Nat) → W32
  | [] => 0
  | (i, v) :: fs => BitVec.ofNat 32 (v * 2 ^ i) ||| packW fs

/-- The low word of a 64-bit value. -/
def loW (v : W64) : W32 := v.setWidth 32

/-- The high word of a 64-bit value. -/
def hiW (v : W64) : W32 := (v >>> 32).setWidth 32

/-- A 64-bit value with its low word replaced. -/
def putLo (v : W64) (w : W32) : W64 := (v &&& 0xFFFFFFFF00000000) ||| w.setWidth 64

/-- A 64-bit value with its high word replaced. -/
def putHi (v : W64) (w : W32) : W64 := (v &&& 0xFFFFFFFF) ||| (w.setWidth 64 <<< 32)

end Sys2Proof.Machine
end

