-- ==== Sys2Proof/Machine/State.lean ====
section
/-! DEFINITION. Everything the spec gives the module to hold, as plain data, and the state right after reset: the
entry to MARKS after the 50 V input is applied (00_scope R5). -/

namespace Sys2Proof.Machine

/-! ## Records and logs -/

/-- A fault record (R398); `seq` and `beat` hold their 16 and 26 bits. -/
structure Record where
  source : Nat
  kind   : Nat
  cls    : Nat
  seq    : Nat
  beat   : Nat
  addr   : W64
  d0     : W32
  d1     : W32
  d2     : W32
  d3     : W32
  deriving DecidableEq, Repr

/-- A standing cause (R420): the record, the squad it fences, and whether it holds one of the 256 entries. -/
structure Standing where
  record : Record
  squad  : Option Nat
  entry  : Bool
  deriving DecidableEq, Repr

/-- Who asked for a clear (R414): a FAULT_CLEAR command, or a write of FL_CLEAR. -/
inductive ClearBy where
  | command (c : CmdId) | register
  deriving DecidableEq, Repr

/-- A squad clear between its checks and the boundary that ends it (R414, R415). -/
structure ClearOp where
  by_      : ClearBy
  squads   : List Nat          -- the squads whose fences it checks
  persists : List Nat          -- those with a cause that persisted
  deriving DecidableEq, Repr

/-- A completion posted to a completion queue (R323: `sct` 7 is the vendor type). `data` is what the command
transferred to the host, as byte strings (one for each block of a Read). -/
structure Completion where
  c    : CmdId
  sct  : Nat
  sc   : Nat
  dnr  : Bool
  dw0  : Nat
  dw1  : Nat
  data : List (List Byte)
  deriving DecidableEq, Repr

/-- Bytes the module writes to host memory. -/
structure HostWrite where
  addr : Nat
  data : List Byte
  deriving DecidableEq, Repr

/-! ## Power, pins and sideband (18) -/

/-- How a command over the sideband completes (R475, R391); `failed`: an admin command ends with the status of its own that it
ends with on the admin queue. -/
inductive MiStatus where
  | success | invalidOpcode | notReady | sequence | failed
  deriving DecidableEq, Repr

/-- An NVMe-MI response: the opcode it answers, its status and its data. -/
structure MiReply where
  opcode : Nat
  status : MiStatus
  data   : List Byte
  deriving DecidableEq, Repr

/-- Pins, rails, sensors and the sideband target (R465 to R483). -/
structure Power where
  vin10mV     : Nat            -- last sampled input voltage, units of 10 mV
  vinAccepted : Bool           -- R468
  bankCharged : Bool           -- R469: pre-charge over, main path closed
  failing     : Bool           -- R470: a power fail runs
  modEn       : Bool           -- R471
  pwrGood     : Bool           -- R472: true when released
  perst       : Bool           -- PERST# asserted
  hostRail    : Bool
  flashRail   : Bool
  tileSupply  : Bool
  dramRail    : Bool
  badRails    : List Nat       -- rails whose converters report a fault
  outOfRange  : Bool           -- R477: input outside 40 V to 60 V for more than 1 ms
  outletHot   : Bool           -- R477: outlet at or above 78 degrees
  temps       : KMap Nat       -- sensor -> 0.1 degree (R482)
  refresh2x   : List Nat       -- stacks with doubled refresh (R483)
  alertSeen   : Byte           -- causes of ALERT# already signalled (R477)
  ibis        : List Byte      -- in-band interrupts raised, newest first (R477)
  dynAddr     : Option Nat     -- I3C dynamic address (R474)
  eid         : Option Nat     -- MCTP endpoint id (R475)
  miReplies   : List MiReply   -- NVMe-MI responses sent, newest first (R475)
  deriving DecidableEq, Repr

/-! ## Bring-up (14) -/

/-- MC_PHASE.PHASE (R377); `off` is none of the five: standby, power fail, or PERST# held (R378). -/
inductive Phase where
  | marks | blocks | go | halted | recovery | off
  deriving DecidableEq, Repr

/-- Which way the module came into BLOCKS (R396). -/
inductive BlocksPath where
  | cold | fatalKept | fatalSwept | ps4
  deriving DecidableEq, Repr

/-- The MC block and the steps of bring-up (R377 to R397). -/
structure Mc where
  phase        : Phase
  entry        : Nat           -- MC_PHASE.ENTRY
  entries      : Nat           -- MC_BOOT.ENTRIES
  dropped      : Nat           -- records dropped since entry to MARKS (R384, R421); MC_BOOT.DROPPED reads at most 0xFF
  marksMs      : Nat
  blocksMs     : Nat
  event        : W32           -- MC_EVENT
  cause        : Nat           -- MC_RECOVERY.CAUSE
  recoveryNext : Bool          -- MC_CTL, sticky
  deferred     : Option Nat    -- an entry event held off by PERST# (R378)
  fuseDone     : Bool          -- MARKS step 2
  panelDone    : Bool          -- MARKS step 3
  storeDone    : Bool          -- MARKS steps 4 and 5
  path         : BlocksPath
  noImage      : Bool
  imageDone    : Bool          -- step B4
  fcPath       : Bool
  bootImage    : List Byte     -- the verified boot image awaiting step B4
  fuse         : FuseMap
  trained      : List Nat      -- stacks trained and not yet swept
  attempts     : KMap Nat      -- failed training attempts of each stack (R386)
  retrain      : List Nat      -- stacks to train on a fatal clear (R394)
  fwMajor      : Nat
  fwMinor      : Nat
  fwRevision   : List Byte
  fwHash       : List Byte     -- SHA-256 of the running firmware image (R452)
  fatalClear   : Option ClearBy  -- a FATAL clear that passed and completes at entry to BLOCKS (R414)
  userDram     : KMap Int      -- user calibration in force (R440, R441)
  userTrim     : KMap Int
  userRead     : KMap Int
  userVGain    : Int
  userIGain    : Int
  userVOff     : Int
  userIOff     : Int
  deriving DecidableEq, Repr

/-! ## The Pacer (13) -/

inductive PacerMode where
  | acquire | locked | freerun
  deriving DecidableEq, Repr

/-- Content of an accepted SETPOINT or PERIOD that waits for its beat (R363). -/
inductive CadenceContent where
  | setpoint (bandOn lowDemand : Bool) (target tol : Nat)
  | period (us : Nat)
  deriving DecidableEq, Repr

/-- A cadence REPORT sent (R362, R365). -/
structure Report where
  endpoint : Nat
  version  : Nat
  seq      : Nat
  beat     : W64
  target   : Nat
  tol      : Nat
  flags    : Nat
  outlet   : Nat
  deriving DecidableEq, Repr

/-- The PC block and the Pacer's own state (R357 to R376, R488). -/
structure Pacer where
  mode        : PacerMode
  event       : W32
  beat        : Nat            -- PC_BEAT
  facOffset   : W64
  energyMJ    : Nat            -- PC_ENERGY
  energyFrac  : Nat            -- energy below 1 mJ, in nJ (W ns)
  periodNs    : Nat            -- PC_PERIOD: measured T
  nominalNs   : Nat            -- PC_NOMINAL as written, sticky
  freeNs      : Nat            -- free-run period
  bandCtl     : W32
  targetW     : Nat
  tolW        : Nat
  fillerEn    : W32
  beatW       : Nat
  ceilingW    : Nat
  cntFalse    : Nat
  cntMiss     : Nat
  deferCnt    : Nat
  slots       : List W32       -- PC_SLOT[0..15]
  acquired    : List Nat       -- edge intervals seen since acquisition began, newest first
  meanOf      : List Nat       -- the last intervals between boundaries that edges made, newest first
  missRun     : Nat            -- consecutive missed beats
  lastByEdge  : Bool           -- an edge made the previous boundary
  scheduled   : List (Nat × CadenceContent)  -- PC beat at which each content takes effect
  endpoint    : Option Nat     -- endpoint of the last accepted SETPOINT
  msgVersion  : Nat            -- version of the last accepted message; 0 for none
  lowDemand   : Bool
  reportCount : Nat            -- beats since the last periodic REPORT
  reportSeq   : Nat
  reports     : List Report    -- REPORTs sent, newest first
  window      : List (Nat × Nat)  -- (mean W, duration ns) of the latest beats, newest first
  settle      : Nat            -- boundaries until judging begins (R371)
  held        : Nat            -- consecutive judged boundaries at which the band held
  armed       : Bool           -- a POWER_BAND record may be posted
  bandLost    : Bool
  bandState   : Nat            -- REPORT flags [1:0]
  bandLostCnt : Nat            -- POWER_BAND records since MARKS (0xC3 band_lost)
  ratios      : KMap (List (Nat × Nat))  -- per squad, (measured, forecast) of its last 16 beats, newest first
  forecasts   : KMap Nat       -- per squad, forecast of the work granted or in flight in the last beat
  forecastW   : Nat            -- forecast of the coming beat after all grants
  granted     : List (Nat × Nat)  -- (squad, key) granted at the last boundary
  fillerRun   : List (Nat × Nat)  -- (class, key) of filler granted at the last boundary
  bgRun       : List (Nat × Nat)  -- (work, key) of media and index work granted and not finished
  thermalCeil : Option Nat     -- R373
  triggers    : List Nat       -- sensors that stand at a trigger (R373)
  rising      : Bool           -- the ceiling rises
  deriving DecidableEq, Repr

/-! ## The fault collector (15) -/

/-- The FL block, the ring, the early buffer and the standing table (R398 to R422). -/
structure Fl where
  event       : W32
  clearSquad  : Nat            -- FL_CLEAR.SQUAD_ID
  result      : Nat            -- FL_CLEAR_RESULT
  done        : Bool
  posted      : Nat
  corr        : Nat
  cont        : Nat
  fatal       : Nat
  seqSel      : Nat
  seqs        : KMap (Nat × Nat)      -- source -> (next sequence, suppressed)
  ring        : KMap Record           -- slot -> record (R419)
  buffer      : List Record           -- the 256-record buffer of R384, oldest first
  standing    : List Standing
  standingFull : Bool
  clear       : Option ClearOp
  beatPosts   : List (Nat × Nat × Nat)  -- (source, kind, code) posted in this beat (R402)
  critFatal   : Bool                  -- SMART Critical Warning bit 2 (R411)
  deriving DecidableEq, Repr

/-! ## Host queues (11) -/

structure Sq where
  size    : Nat
  prio    : Nat               -- QPRIO: 0 urgent, 1 high, 2 medium, 3 low
  cq      : Nat
  tail    : Nat
  head    : Nat
  blocked : Option CmdId      -- the command at its head that stops further fetches (R318, R329)
  deriving DecidableEq, Repr

structure Cq where
  size   : Nat
  vector : Nat
  ien    : Bool
  head   : Nat
  tail   : Nat
  deriving DecidableEq, Repr

/-- A storage operation in QE (R327 to R333). -/
inductive StoreOp where
  | read | verify | write | zeroes | dealloc | flush | objRead | format
  deriving DecidableEq, Repr

/-- Where a storage command stands. -/
inductive StoreStage where
  | preReplay                 -- fetched and held before REPLAYED (R388)
  | holding                   -- in QE's holding list (R329)
  | overlap                   -- waits for earlier overlapping commands (R328)
  | landing                   -- waits for landing space or an index entry (R185)
  | snapshot                  -- waits for a snapshot pool copy (R199)
  | running                   -- a read in progress, or a write whose pieces are in stripes
  deriving DecidableEq, Repr

/-- One 256 KiB piece of a write (R183): its number in the write, its stripe once placed, and whether it is on the
medium. -/
structure Piece where
  num      : Nat
  slba     : Nat
  blocks   : List (List Byte)   -- empty for zeroes and deallocation
  zeros    : Nat                -- blocks of zeros or deallocated
  stripe   : Option Nat        -- landing stripe slot
  off      : Nat               -- first block of the stripe it uses
  onMedium : Bool
  deriving DecidableEq, Repr

/-- A storage command fetched and not completed. -/
structure StoreCmd where
  c      : CmdId               -- sq 0xFFFE: function 1, cid the tag (R352)
  op     : StoreOp
  nsid   : Nat
  ranges : List (Nat × Nat)    -- (first LBA, blocks)
  stage  : StoreStage
  locks  : Nat                 -- range-lock entries held
  pieces : List Piece
  reads  : List CodewordRead   -- a read: how its codewords decode (R208)
  before : List Nat            -- fetch order of the commands it waits on
  silent : Bool                -- runs to the medium with no completion (R332)
  order  : Nat                 -- fetch order
  deriving DecidableEq, Repr

/-- An entry of log page 0xC1 (R333). -/
structure WpEntry where
  nsid   : Nat
  sqid   : Nat
  cid    : Nat
  slba   : Nat
  nlb    : Nat
  pieces : Nat
  onMed  : Nat
  cause  : Nat
  opcode : Nat
  deriving DecidableEq, Repr

/-- The four negotiated versions in force and agreed, in the encoding of R340. -/
structure Versions where
  cmdset  : Nat
  image   : Nat
  result  : Nat
  index   : Nat
  agCmdset : Nat
  agImage : Nat
  agResult : Nat
  agIndex  : Nat
  deriving DecidableEq, Repr

/-- A partly written granule of the peer window (R339): its near-tier address and the bytes that have arrived. -/
structure OpenGranule where
  addr  : Nat
  bytes : KMap Byte
  deriving DecidableEq, Repr

/-- The NVMe controller, its queues and the QE block (R312 to R344). -/
structure Qe where
  cc         : W32             -- CC as written, EN kept in `enabled`
  aqa        : W32             -- AQA, ASQ, ACQ
  asq        : W64
  acq        : W64
  intMask    : W32             -- INTMS / INTMC
  enabled    : Bool            -- CC.EN
  ready      : Bool            -- CSTS.RDY
  shst       : Nat             -- CSTS.SHST
  sqs        : KMap Sq
  cqs        : KMap Cq
  fetchOrder : Nat
  fetched    : List CmdId      -- every command fetched and not completed (R318)
  store      : List StoreCmd   -- in fetch order
  held       : List CmdId      -- the holding list, in order (R329)
  locksUsed  : Nat
  posted     : List Completion -- completions posted, newest first
  cqWait     : List Completion -- completions waiting for a free completion entry, oldest first
  aers       : List CmdId      -- pending Asynchronous Event Requests
  masked     : List Nat        -- log page ids masked after a report (R326)
  events     : List Nat        -- events not yet reported
  features   : KMap W32        -- feature values set, by identifier
  apst       : KMap (Nat × Nat)  -- APST: from state -> (target state, idle ms)
  apstOn     : Bool
  timestamp  : List Byte
  wp         : List WpEntry    -- log page 0xC1, oldest first
  wpOverflow : Bool
  ps         : Nat             -- power state in force
  psWant     : Option Nat      -- a change that takes effect at the next boundary
  psAuto     : Bool            -- entered autonomously
  psLastOp   : Nat             -- last operational state
  psAtGo     : Nat             -- state recorded for entry to GO (R388)
  event      : W32             -- QE_EVENT
  rlWait     : Nat             -- QE_RL_WAIT_CNT
  p2pDiscard : Nat
  p2pCfg     : W32
  p2pBase    : W64
  p2pOpen    : List OpenGranule  -- oldest first
  versions   : Versions
  psEvents   : Nat             -- power-state changes since reset, for REPORTs
  turn       : Option (Nat × Nat)  -- the queue whose turn it is and the commands it took in it (R317)
  urgentAt   : Nat             -- the urgent queue served last (R317)
  quota      : KMap Nat        -- commands each weighted queue took in this round (R317)
  irqs       : List Nat        -- MSI-X vectors signalled, newest first (R312)
  deriving DecidableEq, Repr

/-! ## Structure images and squads (02) -/

/-- A NUMERICS entry (R31). -/
structure Numerics where
  index    : Nat
  wfmt     : Nat
  afmt     : Nat
  accum    : Nat
  history  : Nat
  margin   : Nat
  satLimit : Nat
  uwrHi    : W32
  uwrAct   : Nat
  deriving DecidableEq, Repr

inductive SquadState where
  | starting | active | draining | fenced
  deriving DecidableEq, Repr

/-- A squad of the active set (R25), with what SL keeps with it (R487). -/
structure Squad where
  func      : Nat
  flags     : Nat
  lapMin    : Nat
  lapMax    : Nat
  overrun   : Nat
  jobRetry  : Nat
  maxJobs   : Nat
  numerics  : Numerics
  tiles     : List Nat
  programIx : Nat
  templates : List (List Byte)  -- PROGRAMS templates from program_index on, 64-byte descriptors joined
  layouts   : List Byte         -- the LAYOUTS section that serves it
  state     : SquadState
  deriving DecidableEq, Repr

structure Route where
  id : Nat
  squad : Nat
  destKind : Nat
  dest : Nat
  vc : Nat
  express : Nat
  credits : Nat
  deriving DecidableEq, Repr

structure Region where
  id : Nat
  tier : Nat
  kind : Nat
  owner : Nat
  access : Nat
  base : Nat
  size : Nat
  deriving DecidableEq, Repr

structure Binding where
  first : Nat
  last : Nat
  scan : Nat
  search : Nat
  serve : Nat
  train : Nat
  deriving DecidableEq, Repr

/-- A squad set: what an image defines (R22 to R31). -/
structure SquadSet where
  squads   : KMap Squad
  routes   : List Route
  regions  : List Region
  bindings : List Binding
  deriving DecidableEq, Repr

/-- Where an APPLY stands (R41, R53). -/
inductive LoadStep where
  | verify | drain | sweep
  deriving DecidableEq, Repr

/-- A running SQUAD_RETIRE (R46): its commands, and how many jobs it made end with SQUAD_DRAINING and with
JOB_ABORTED_FAULT. -/
structure Retire where
  cs      : List CmdId
  squad   : Nat
  force   : Bool
  drained : Nat
  aborted : Nat
  deriving DecidableEq, Repr

/-- A running APPLY (R41): the command, the image, its options and the resulting set with its classes. -/
structure Load where
  c        : CmdId
  image    : List Byte
  force    : Bool
  persist  : Bool
  step     : LoadStep
  next     : SquadSet
  fresh    : List Nat          -- new squads
  changed  : List Nat
  removed  : List Nat
  retires  : List Retire       -- forced SQUAD_RETIREs that turned drains of the APPLY forced (R51)
  deriving DecidableEq, Repr

/-- The SL block and the active squad set (R22 to R53). -/
structure Sl where
  stage      : List Host.Cell  -- the staging buffer
  stageLen   : Nat
  gen        : Nat
  imageId    : W64
  format     : Nat
  set_       : SquadSet
  lastResult : Nat             -- SL_STATUS.LAST_RESULT
  loadCode   : Nat             -- SL_LOAD_RESULT
  loadSect   : Nat
  loadEntry  : Nat
  event      : W32
  timeout    : Nat             -- SL_DRAIN_TIMEOUT
  drainBeats : Nat
  drainSlow  : Bool
  quiet      : KMap Bool       -- squads last seen with nothing in flight, true when at a beat boundary (R20, R47)
  load       : Option Load
  retire     : Option Retire
  persist    : Option (List Byte)   -- image being persisted
  deriving DecidableEq, Repr

/-! ## Tiers, objects and the directory (06) -/

inductive DirState where
  | home | promoting | resident | evicting
  deriving DecidableEq, Repr

/-- Where a version's home is (R162, R257). -/
inductive Home where
  | none | far (addr : Nat) | ns (nsid lba : Nat)
  deriving DecidableEq, Repr

/-- One version of an object. -/
structure Version where
  num     : Nat
  batons  : Nat
  region  : Nat                -- near region, meaningful while `near` is some
  near    : Option Nat         -- near-tier address of its base
  home    : Home
  pinsNear : Nat               -- pins that read the near copy
  pinsHome : Nat               -- pins that read the home
  deriving DecidableEq, Repr

/-- A command that waits on a directory entry (R169, R171). -/
inductive DirWait where
  | place (c : CmdId) (joined : Bool)
  | evict (c : CmdId) (fromPending : Bool)
  | publishNear (c : CmdId) (d : Dwords)
  deriving DecidableEq, Repr

/-- An OBJ_PLACE or OBJ_PUBLISH as it arrived: SRC, its dwords and, from a host source, the object's bytes (R160). -/
structure ObjCmd where
  c       : CmdId
  publish : Bool
  src     : Nat
  d       : Dwords
  data    : List Byte
  deriving DecidableEq, Repr

/-- A directory entry (R166, R167). -/
structure DirEntry where
  cur      : Version
  old      : Option Version
  state    : DirState
  evictPending   : Bool
  discardPending : Bool
  damaged  : Bool
  mark     : Nat               -- promotion watermark
  waits    : List DirWait
  segment  : Bool              -- a sealed side segment entered by JD (R269)
  condemned : Bool             -- its near copy goes when its pins reach 0 (R408)
  deriving DecidableEq, Repr

/-- A pin a job holds (R168): object, version and which copy it reads (R162). -/
structure Pin where
  object  : Nat
  version : Nat
  near    : Bool
  deriving DecidableEq, Repr

/-- A copy that creates a new version (R163, R165). -/
structure Copy where
  object  : Nat
  cmd     : Option ObjCmd      -- none: a copy JD makes for a TRAIN job (R307)
  publish : Bool
  region  : Nat
  base    : Nat                -- near-tier or far-tier address allocated
  batons  : Nat
  version : Nat                -- OBJ_PUBLISH SRC NEAR: the version read
  snap    : Option Nat         -- snapshot epoch of a copy from LBAs (R197)
  tag     : Nat                -- OBJ_PUBLISH: JD's tag for the job (R325); TRAIN: the job's tag
  begun   : Nat                -- beat number at which it began
  pins    : List Pin := []     -- TRAIN: the version of run_object it reads
  deriving DecidableEq, Repr

/-- A granule of the probe area with its stored damage (R149, R154): data as stored, symbol errors, address flip. -/
structure ProbeGranule where
  data : List Byte
  errs : KMap Byte             -- symbol -> nonzero error
  flip : Bool
  deriving DecidableEq, Repr

/-- The RL block, the near tier, the far tier and the directory (R134 to R175). -/
structure Rl where
  ntReady   : List Nat         -- stacks trained and swept
  ftReady   : Bool
  ftShare   : Nat
  event     : W32
  lateCnt   : Nat
  overCnt   : Nat
  ftBytes   : Nat
  lookup    : W32
  lookupWords : List W32       -- STATE, VERSION, BATONS, WMARK, NEAR lo/hi, FAR lo/hi
  corr      : KMap Nat         -- RL_NT_CORR_CNT
  uncorr    : KMap Nat
  probeAddr : Nat
  probeData : List W32
  probeDone : Bool
  probeBits : W32              -- CORR, UNCORR, ADDR in bits 1 to 3
  flipMask  : KMap W32         -- EM_FLIP_MASK_S
  flipLast  : KMap W32         -- EM_FLIP_LAST_S
  probe     : KMap ProbeGranule  -- probe-area offset -> granule; unlisted granules are zero and clean
  near      : List Host.Cell   -- near-tier bytes by address; unlisted bytes are zero (R152)
  dir       : KMap DirEntry
  copies    : List Copy        -- copies in progress
  far       : List Host.Cell   -- far-tier bytes by address; unlisted bytes are zero
  waiting   : List ObjCmd      -- commands that wait their turn at an object (R163, R166), oldest first
  deriving DecidableEq, Repr

/-! ## Flash media (07) -/

/-- Where a unit lies (R190). -/
inductive UnitLoc where
  | unmapped
  | bulk (loc : Nat)                         -- encoded LOCATION of R190
  | landing (addr : Nat)                     -- landing data address of the first block
  | merged (index : Nat)
  deriving DecidableEq, Repr

/-- A landing index entry (R191): the previous location and each block's landing address, or none for "previous". -/
structure IdxEntry where
  prev   : UnitLoc
  blocks : List (Option Nat)
  deriving DecidableEq, Repr

/-- A map page (R189, R198): its stamp, its mapped units by global unit number, and whether it changed since its
checkpoint. -/
structure MapPage where
  stamp : Nat
  units : KMap UnitLoc
  dirty : Bool
  deriving DecidableEq, Repr

/-- A snapshot pool copy (R198). -/
structure PoolCopy where
  page  : Nat
  lo    : Nat
  hi    : Nat
  units : KMap UnitLoc
  deriving DecidableEq, Repr

/-- What a change makes of a unit (R191, R192): a whole new location, or landing addresses for some of its blocks. -/
inductive UnitChange where
  | whole (l : UnitLoc)
  | part (blocks : List (Nat × Nat))
  deriving DecidableEq, Repr

/-- What the medium tells replay beside the map at the last checkpoint (R195): a change committed at an epoch, which the
accepted landing stripes show, and the journal's records of a unit folded to a bulk place and of a bulk place moved. -/
inductive MapChange where
  | commit (unit epoch : Nat) (change : UnitChange)
  | folded (unit loc : Nat)
  | moved (src dst : Nat)
  deriving DecidableEq, Repr

/-- A landing stripe (R178, R183), kept by slot: slot k holds landing data addresses 64 k to 64 k + 63. Blocks used,
closed, verified; its parity unit as sixteen 4 KiB blocks; and whether a refresh asks for its fold (R205). -/
structure Stripe where
  used     : Nat
  seq      : Nat               -- age order
  pages    : List Nat          -- map pages that point, or pointed, into it
  closed   : Bool
  verified : Bool
  parity   : List (List Byte)
  due      : Bool
  deriving DecidableEq, Repr

/-- A flash block's telemetry (R193, R200, R209). -/
structure FlashBlock where
  erases    : Nat
  hint      : Nat
  retired   : Bool
  rows      : Nat              -- rows programmed since its last erase
  loops     : Nat              -- program-verify loops of all its programs, and how many programs (R193)
  programs  : Nat
  refreshes : Nat              -- times it was refreshed (R211)
  deriving DecidableEq, Repr

/-- A telemetry sample (R216): MM's clock in ns, the pool it concerns, the value. -/
structure Sample where
  at_   : Nat
  pool  : Nat
  value : Nat
  deriving DecidableEq, Repr

/-- A namespace (R315, R461): its granules, whether it is attached, read-only, and the identity of its key pair. -/
structure Namespace where
  granules : List Nat          -- 1 GiB granules: granule g holds global units 32768 g to 32768 g + 32767
  blocks   : Nat
  attached : Bool
  readOnly : Bool
  key      : Nat
  deriving DecidableEq, Repr

/-- The metadata of a codeword (R179). -/
structure BlockMeta where
  unit  : Nat                  -- global unit number
  index : Nat                  -- 4 KiB block within the unit
  seq   : Nat                  -- landing stripe or row sequence number
  epoch : Nat                  -- commit epoch
  piece : Nat                  -- write piece number
  deriving DecidableEq, Repr

def BlockMeta.none : BlockMeta := { unit := 0, index := 0, seq := 0, epoch := 0, piece := 0 }

/-- One codeword's data on the medium: its plaintext, the key pair it is enciphered under (R462), and its metadata. -/
structure MediumBlock where
  data : List Byte             -- trailing zero bytes left out
  key  : Nat
  info : BlockMeta := BlockMeta.none
  deriving DecidableEq, Repr

/-- The MM block, the map and the medium (R176 to R216). -/
structure Mm where
  replayed   : Bool
  agedTo     : Nat             -- stripes numbered below it have reached their age limit (R188, R204)
  paced      : Bool
  throttle   : Nat             -- 0 none, 1 at most 30 GB/s, 2 at most 10 GB/s (R206)
  band       : Nat
  event      : W32
  epoch      : Nat             -- MM_EPOCH
  mediumEpoch : Nat            -- highest commit epoch on the medium (R195)
  landingCfg : W32
  tempA      : Nat             -- MM_FLASH_TEMP fields, degrees
  tempB      : Nat
  peak       : Nat
  scrubCfg   : W32
  gcCfg      : W32
  wlCfg      : W32
  retryCnt   : Nat
  exhaustCnt : Nat
  rebuildCnt : Nat
  uncorrCnt  : Nat
  hostWritten : Nat
  mediaWritten : Nat
  replayMs   : Nat
  clean      : Bool
  lossDirty  : Bool            -- input power was lost without a completed shutdown since the last replay (R215)
  namespaces : KMap Namespace
  nextKey    : Nat
  pages      : KMap MapPage    -- map page -> page; unlisted pages are unmapped with stamp 0
  pool       : List PoolCopy
  beatOld    : KMap MapPage    -- pages changed in this beat, as they stood before (R197)
  index      : KMap IdxEntry   -- landing index
  ckpt       : KMap MapPage    -- newest checkpointed copy of each page (R195)
  ckptOld    : KMap MapPage    -- the generation before
  ckptIndex  : KMap IdxEntry   -- landing index as at the checkpoint
  since      : List MapChange  -- changes committed since it, oldest first
  landing    : KMap MediumBlock  -- landing data address -> block
  bulk       : KMap (List MediumBlock)  -- bulk LOCATION -> its eight blocks, parity members among them
  stripes    : KMap Stripe
  openStripe : Option Nat
  nextStripe : Nat
  nextRow    : Nat             -- row sequence number
  lostWrites : List WpEntry    -- multi-piece writes a power loss cut, for the next replay (R333)
  blocks     : KMap FlashBlock -- (channel * 32 + die) * 2^15 + block
  eraseQ     : List Nat        -- block keys whose data moved away and which wait for their erase (R194)
  remap      : KMap Nat        -- key of a block's place -> the spare block that serves it (R181)
  spares     : KMap Nat        -- free spares of group g at g, of landing set m at 256 + m, of far die at 512 + die; unlisted: full
  retiredCnt : KMap Nat        -- blocks retired, same keys
  spareSaid  : List Nat        -- groups and 256 + sets whose SPARE_LOW was posted
  roGroups   : List Nat
  outSets    : List Nat
  badBlocks  : List (Nat × Nat)  -- (namespace, LBA) that fail every read (R417)
  refreshQ   : List Nat        -- blocks marked for refresh (R205)
  clockNs    : Nat             -- time by which R216's telemetry is aged
  retries    : List Sample     -- retry step of each codeword read in the last 24 h
  loops      : List Sample     -- verify loops of each program in the last 30 days
  retireLog  : List Sample     -- retirements in the last 30 days
  deriving DecidableEq, Repr

/-! ## Jobs (08, 09, 10, 11) -/

inductive JobState where
  | queued | admitted | restart | stopping | commitWait | finishing
  deriving DecidableEq, Repr

/-- Progress counters of a SCAN or EMBED job (R248). -/
structure ScanProg where
  issued     : List Nat        -- extents in flight
  nextExt    : Nat
  delivered  : List Nat        -- delivered extents, ascending
  bytesOut   : Nat
  seen       : Nat
  matched    : Nat
  malformed  : Nat
  parseErr   : Nat
  skipped    : Nat
  truncated  : Nat
  outFull    : Bool
  badLba     : Option Nat
  aggs       : List (W64 × W64)  -- value and input count of each aggregate
  floats     : List (List W64)   -- FLOAT inputs of each SUM, whose order is open (R241)
  staged     : List (Nat × List (W64 × W64 × List Byte))  -- SIDE_LIST batches waiting for extent order
  deriving DecidableEq, Repr

/-- Progress of a search-family job (R282): contexts (query, tile, context), blocks written, commit fields. -/
structure SearchProg where
  ctxs      : List (Nat × Nat × Nat)
  done      : Nat
  epoch     : Option Nat
  notFound  : Nat
  started   : Bool             -- SEARCH: the Pacer granted its batch (R367)
  base      : List Byte        -- SEARCH: the superblock of the base it uses, trailing zeros left out
  lists     : List (Nat × Nat × Nat)  -- SEARCH: the list table of that base
  fmt      : Nat               -- SEARCH: result format in force at its admission (R342)
  tab      : Nat × Nat := (0, 0)  -- SEARCH: where the tables of that base lie in the region, and their bytes
  dead     : Option (List (Nat × Nat)) := none  -- SEARCH: the dead entries of that base, once a REBASE replaced it (R275)
  deriving DecidableEq, Repr

/-- Progress of a SERVE_APPEND (R309) and of a TRAIN job (R304, R309). -/
structure LapProg where
  accepted  : Nat
  tokensOut : Nat
  reason    : Nat
  recalls   : Nat
  step      : Nat              -- TRAIN: t of the step in progress
  lapInStep : Nat              -- accumulation laps done in this step
  pass1     : Bool             -- the update lap's pass 1 is over (R128)
  layers    : List LayerSpan   -- layers of the update lap, as pass 1 met them
  stepsDone : Nat
  lastStep  : Option Nat
  loss      : W32
  cursor    : Nat
  held      : Nat
  holds     : List Nat         -- layers HOLD keeps in this step
  serveVer  : Nat
  pend      : Nat              -- TRAIN: data position after the laps of the step in progress
  pubStep   : Nat              -- TRAIN: steps done when the last publish began
  pubDue    : Bool             -- TRAIN: a publish fell due while another ran
  final     : Nat              -- TRAIN: status it completes with once its last publish is done
  seqLen    : Nat              -- SERVE_APPEND: tokens in the record of a sequence that closed
  deriving DecidableEq, Repr

/-- A job: a JOB_SUBMIT or OBJ_PUBLISH that QE fetched and that has not completed. -/
structure Job where
  tag      : Nat
  c        : CmdId
  opcode   : Nat
  kind     : Nat
  squad    : Nat               -- 0xFF for none
  cmdset   : Nat
  desc     : List Byte
  data     : List Byte         -- host data the job reads, as bytes
  lists    : List (List Byte)  -- queries of a SEARCH, sources of a MERGE
  state    : JobState
  snapshot : Nat
  attempt  : Nat
  admitBeat : Nat
  pins     : List Pin
  stop     : Option Nat        -- stop reason under way (R248, R282, R309)
  scan     : ScanProg
  search   : SearchProg
  lap      : LapProg
  notices  : List (Nat × Nat) := []  -- completions that ops with NOTIFY reported: tile, seq (R64)
  deriving DecidableEq, Repr

/-- A job-progress record (R325): `part` is the kind part. -/
structure Progress where
  seq     : Nat
  c       : CmdId
  opcode  : Nat
  kind    : Nat
  squad   : Nat
  cmdset  : Nat
  status  : Nat
  tag     : Nat
  hostTag : W64
  begun   : Nat
  fin     : Nat
  nsid    : Nat
  part    : List Byte
  deriving DecidableEq, Repr

/-- A lap in flight or last run of a squad (R173, R310). -/
structure Lap where
  num      : Nat
  start    : Nat
  planned  : Nat
  invoc    : Nat               -- model slot, or 0xFF for TRAIN
  decode   : List Nat          -- sequences in the decode set
  prefill  : List (Nat × Nat)  -- sequence and tokens of each chunk
  examples : Nat
  filler   : Option (Nat × Nat)  -- sequence and tokens of the filler chunk
  recalls  : Nat
  joins    : Nat
  swap     : Bool
  preempt  : Bool
  relayB   : Bool
  kvFree   : Nat
  jobTag   : Nat               -- the lap's first job
  update   : Bool              -- TRAIN: the update lap of a step
  deriving DecidableEq, Repr

/-- What JD keeps of a squad's laps. -/
structure LapState where
  flight  : Option Lap
  planned : Option Lap         -- planned at the last hurdle, waiting for its boundary
  passed  : Bool               -- its tiles passed a lap hurdle, and wait for the next start (R63)
  next    : Nat                -- number of the next lap
  last    : Option Nat         -- invocation of the last lap
  lastTag : Nat                -- TRAIN job of the last lap
  split   : List (List W32)    -- split records, newest first, at most 256
  deriving DecidableEq, Repr

/-- A registered model (R283, R300). -/
structure Model where
  squad    : Nat
  record   : List Byte
  cap      : Nat
  bound    : Bool
  clean    : Nat               -- consecutive laps without RELAY_LATE
  lastJoin : Nat               -- join number of the last sequence that decoded
  filler   : Option (Nat × Nat × Nat)  -- filler chunk in progress: sequence, tokens, layers passed
  nextJoin : Nat
  queue    : List Nat          -- join queue
  deriving DecidableEq, Repr

/-- A serving sequence (R288). -/
structure Sequence where
  model    : Nat
  tokens   : List Nat
  tkv      : Nat
  pages    : List Nat          -- the pages of its pool that it holds, in the order of its tokens
  sample   : List Byte         -- sampling settings and seed: descriptor bytes 65 to 87
  rand     : Nat               -- draws made by its random state
  join     : Nat
  ready    : Bool              -- its prefill is done (R293)
  append   : Option Nat        -- tag of its pending SERVE_APPEND
  closing  : List Nat          -- tags of SERVE_CLOSEs that wait for the hurdle
  recalled : Bool              -- recalled and not joined again
  deriving DecidableEq, Repr

/-- A KV page pool (R285). -/
structure KvPool where
  total  : Nat
  free   : List Nat            -- pages no sequence holds
  atPlan : Nat                 -- how many of them were free after the latest plan (R311)
  deriving DecidableEq, Repr

/-- The JD block, the jobs, models and sequences (R283 to R325). -/
structure Jd where
  jobs      : List Job
  nextTag   : Nat
  nextSeq   : Nat              -- next job-progress sequence number
  progress  : List Progress    -- newest first, at most 4,096
  event     : W32
  recallCnt : Nat
  preemptCnt : Nat
  modelAddr : W64
  modelSlot : Nat
  modelOp   : Bool
  modelCode : Nat
  splitSel  : W32
  splitData : List W32
  laps      : KMap LapState
  models    : KMap Model
  seqs      : KMap Sequence
  nextSeqId : Nat
  pools     : KMap KvPool      -- by region id
  turn      : KMap Nat         -- squad -> slot of the last model lap (R293)
  banks     : List Nat         -- master regions whose second bank is in force (R306)
  deriving DecidableEq, Repr

/-! ## The search index (09) -/

/-- An item of the side list (R269). -/
structure SideItem where
  id     : W64
  attr   : W64
  code   : List Byte
  commit : Option Nat          -- none: all ones
  death  : Option Nat
  deriving DecidableEq, Repr

/-- A pending change (R270): an item or a tombstone. -/
inductive Change where
  | item (i : SideItem) | tomb (id : W64)
  deriving DecidableEq, Repr

/-- A COMMIT whose record is on its way to, or on, the medium (R271). -/
structure PendingCommit where
  tag     : Nat
  items   : List SideItem
  tombs   : List (W64 × Bool)  -- id, and whether it cancelled a pending item
  taken   : Nat                -- pending changes it resolves
  pieces  : List Piece         -- the landing pieces of the record and of a superblock it writes
  medium  : Option Nat         -- MM_EPOCH when all of them were on the medium
  newSuper : Option (List Byte × Nat)  -- a superblock it writes and its slot (R256, R275)
  rebase  : Bool
  logEnd  : Nat                -- side log blocks in use after it
  ready   : Option Nat := none -- the epoch it takes effect at, from the boundary that begins it on (R271)
  tab     : Nat × Nat := (0, 0)  -- REBASE: where the tables of the new base go, and their bytes
  need    : Nat := 0           -- REBASE: segments its kept items may take
  deriving DecidableEq, Repr

/-- A sealed segment (R269): its items, its near-tier address and the object JD entered for it. -/
structure Segment where
  items  : List SideItem
  addr   : Nat
  object : Nat
  gone   : Bool                -- replaced: kept for the jobs that pinned it (R274)
  deriving DecidableEq, Repr

/-- An attached index (R255). -/
structure Index where
  squad    : Nat
  region   : Nat
  super    : List Byte         -- the governing superblock, 4096 bytes with trailing zeros left out
  slot     : Nat               -- LBA that holds it
  lists    : List (Nat × Nat × Nat)  -- list table: first_baton, batons, items
  segments : KMap Segment            -- sealed segments by number
  nextSeg  : Nat
  open_    : List Change       -- the pending changes, in append order
  dead     : List (Nat × Nat)  -- dead table: locator, tombstone epoch
  deadMask : List Nat          -- base locators whose live-mask bit is 0
  tombs    : List (Nat × Nat)  -- committed tombstones: id, epoch
  logUsed  : Nat               -- side log blocks in use
  commit   : Option PendingCommit
  waiting  : List Nat          -- COMMIT jobs that wait their turn
  bound    : Bool := false     -- relay-bound (R174)
  tab      : Nat := 0          -- near-tier address of its list table and live mask
  deriving DecidableEq, Repr

/-! ## The tile (03, 04, 05) -/

/-- An op issued and not completed (R57, R60). -/
structure OpInFlight where
  unit   : Nat                 -- 0 array, 1 vector, 2 fabric, 3 relay
  idx    : Nat                 -- its queue index
  desc   : List Byte           -- its descriptor
  reads  : List (Nat × Nat × Nat)  -- lane ranges it reads: tile, address, bytes
  writes : List (Nat × Nat × Nat)
  gives  : Option (List Byte)  -- a squad REDUCE that has not met: what this tile contributes (R66)
  counts : Option (Nat × Nat × Nat × Nat × Nat)  -- QUANT: tensor, format, elements, saturated, flushed (R115)
  deriving DecidableEq, Repr

/-- The job an op serves. -/
def OpInFlight.jobTag (f : OpInFlight) : Nat :=
  (f.desc.drop 4).take 4 |>.foldr (fun b n => b.toNat + 256 * n) 0

inductive LatchState where
  | empty | filling | full
  deriving DecidableEq, Repr

/-- A baton latch and its scale shadow (R71, R110). -/
structure Latch where
  state   : LatchState
  data    : List Byte          -- payload, trailing zeros left out
  shadow  : Option (List W32)
  index   : W64                -- index_word of the baton held
  units   : Nat
  object  : Nat
  baton   : Nat
  credit  : Bool               -- the relay credit is free
  failed  : Bool
  deriving DecidableEq, Repr

/-- A heap entry of a search context (R254, R265). -/
structure HeapEntry where
  loc  : Nat
  dist : Nat
  list : Nat
  side : Bool
  deriving DecidableEq, Repr

/-- A search context (R73). `state` uses the codes of R73. -/
structure Ctx where
  state     : Nat
  exhausted : Bool             -- the plan ended with fewer than k entries
  k         : Nat
  tag       : Nat
  epoch     : Nat
  queryAddr : Nat
  bits      : Nat
  qindex    : Nat
  probeAddr : Nat
  count     : Nat              -- probe_count
  next      : Nat              -- probe_next
  heapAddr  : Nat
  held      : Nat              -- heap_count
  worst     : Nat
  seen      : Nat              -- codes_seen
  pred      : Nat              -- predicate slot, or 0xFFFF
  maxDist   : Nat              -- of its job
  left      : KMap Nat         -- blocks still to compare (R266): code baton, or 2^24 + segment -> codes
  wants     : Option Nat       -- the block a WAITING context waits for
  deriving DecidableEq, Repr

/-- One tile (R54, R77). -/
structure Tile where
  swept    : Bool
  squad    : Option Nat
  halted   : Bool
  queue    : List (List Byte)  -- descriptors written and not issued
  held     : List (List Byte)  -- descriptors JD holds back while the queue is full (R59)
  nextIdx  : Nat               -- TILE_OPQ.NEXT
  flight   : List OpInFlight
  hurdle   : Bool              -- it stands at a LAP hurdle (R63)
  sems     : List Nat          -- 16 counters
  latches  : List Latch        -- latch 0 and latch 1
  ctxs     : KMap Ctx          -- contexts that are not FREE
  ran      : Nat               -- the context that went RUNNING last (R74)
  amax     : List W32          -- 64
  scale    : List W32          -- 64
  lane     : List Host.Cell    -- unlisted bytes are zero (R70)
  bad      : KMap (BitVec 5)   -- address -> stored syndrome that is not zero (R68)
  credits  : KMap Nat          -- route -> credits in use (R141)
  tensor   : Option Nat        -- current tensor (R112)
  corrCnt  : Nat
  uncorrCnt : Nat
  eccLast  : W32
  stall    : Nat
  lmAddr   : Nat
  lmStatus : W32
  flip     : W32               -- EM_FLIP_MASK_T
  deriving DecidableEq, Repr

/-! ## Numerics (05) -/

/-- A scale keeper entry (R113, R117). -/
structure Keeper where
  aRef    : Option W32         -- none: UNIT
  hist    : List W32           -- newest first
  step    : Option W32         -- max of the step's reports
  elems   : Nat
  sat     : Nat
  under   : Nat
  lastMax : W32
  lastEl  : Nat
  lastSat : Nat
  lastUn  : Nat
  steps   : Nat
  event   : Nat                -- LAST_EVENT
  zeroRun : Bool
  waiting : List Nat           -- tiles waiting at the calibration rendezvous
  met     : Bool               -- this step's rendezvous is over
  outType : Nat                -- format of the latest QUANT counts
  deriving DecidableEq, Repr

/-- NS values of a squad (R133): written and in force. -/
structure NsSquad where
  cfg     : W32
  cfgNext : Option W32
  uwrHi   : W32
  uwrNext : Option W32
  ctl     : W32
  ctlNext : Option W32
  cnt     : Nat
  resetDue : Bool              -- RESET_SQUAD waits for the step close
  deriving DecidableEq, Repr

structure Ns where
  table   : KMap Keeper        -- squad * 65536 + tensor_id
  full    : Bool
  event   : W32
  satCnt  : Nat
  underCnt : Nat
  zeroCnt : Nat
  calCnt  : Nat
  lookup  : W32
  lookupWords : List W32       -- STATE, REF, AMAX, ELEMS, SAT, UNDER, STEPS
  squads  : KMap NsSquad       -- unlisted: the reset values
  deriving DecidableEq, Repr

/-! ## Trust (17) and the settings store (16) -/

/-- A Firmware Commit in progress (R458). -/
structure FwCommit where
  c      : CmdId
  action : Nat
  image  : List Byte
  deriving DecidableEq, Repr

structure Se where
  identity  : List Byte        -- device identity, 32 bytes (R451)
  nonce     : List W32
  evAddr    : W64
  keyAddr   : W64
  event     : W32
  topReady  : Bool
  attesting : Bool
  attCode   : Nat
  keyCode   : Nat
  block     : Option (Nat × Nat)  -- current block and next leaf in it (R454)
  measure   : List Byte
  failCnt   : Nat
  lowSaid   : Bool
  fwBuf     : List Host.Cell   -- firmware update buffer
  fwLen     : Nat              -- highest byte downloaded plus 1
  commit    : Option FwCommit
  evidence  : Option (List Byte)  -- the evidence last written, up to its signature (R452)
  deriving DecidableEq, Repr

/-- Where a window sequence stands (R435). -/
inductive SeqState where
  | idle | arm1 | armed
  | word                       -- 0x31 seen
  | page (words : List (Nat × W32))   -- 0x3B seen, data so far
  | erase0 | eraseArm1 | eraseArmed
  deriving DecidableEq, Repr

/-- A program or erase of the store (R438). -/
inductive SwOp where
  | program (addr : Nat) (words : List (Nat × W32))
  | erase (addr : Nat)
  deriving DecidableEq, Repr

structure Sw where
  store     : List Host.Cell   -- unlisted bytes are erased, 0xFF
  opened    : List Nat         -- sectors whose protect bit is 0 (R431); every other sector's bit is set
  seq       : SeqState
  ident     : Bool
  busyBoot  : Bool             -- the boot ROM reads the store
  run       : Option (SwOp × Bool)  -- the operation that runs; true for the internal path
  internal  : Bool             -- an internal-path operation is in progress
  queued    : Option SwOp
  bits      : W32              -- NOTERASED, PFAIL, EFAIL, PROTECTED, SEQERR in bits 1 to 5
  pulses    : Nat
  event     : W32
  last      : W32
  pulseCnt  : Nat
  pfailCnt  : Nat
  efailCnt  : Nat
  pulseMax  : Nat
  pulseSect : Nat
  grantAddr : W64
  grantCode : Nat
  deriving DecidableEq, Repr

/-! ## Function 1 (12) -/

/-- A Ronnel command that holds its tag (R348). -/
structure LpCmd where
  opcode  : Nat
  nsid    : Nat
  lba     : Nat
  blocks  : Nat
  window  : Nat                -- WRITE: current window
  granted : Bool               -- its XFER_RDY was sent
  got     : KMap Byte          -- bytes of the window that have arrived, by offset in the window
  data    : List (List Byte)   -- blocks of the windows that have landed
  falses  : Nat
  deriving DecidableEq, Repr

structure Lp where
  enable   : Bool
  reqProd  : Nat
  reqCons  : Nat
  rplProd  : Nat
  rplCons  : Nat
  timeout  : Nat
  event    : W32
  protoCnt : Nat
  falseCnt : Nat
  volMap   : List W32          -- volumes 1 to 16
  ring     : List Host.Cell    -- function 1 BAR0 ring bytes by offset
  cmds     : KMap LpCmd        -- by tag
  outq     : List (List Byte)  -- reply frames that wait for ring space, oldest first
  irqs     : List Nat          -- MSI-X vectors of function 1 signalled, newest first (R345)
  deriving DecidableEq, Repr

/-! ## The whole module -/

/-- The state of the module: every register, buffer, queue and mode of the spec, the queue of waiting commands, and the
model's own counter of free values drawn. -/
structure State where
  pending : List Instr
  tick    : Nat                -- the model's own: free values drawn so far
  latchHi : KMap W32           -- high words latched by low-word reads (R6), by function, BAR and offset
  busRead : List Byte          -- the bytes the last register or window read returned
  hostOut : List HostWrite     -- writes to host memory, newest first
  power   : Power
  mc      : Mc
  pc      : Pacer
  fl      : Fl
  qe      : Qe
  sl      : Sl
  rl      : Rl
  mm      : Mm
  jd      : Jd
  idx     : KMap Index         -- attached indexes by namespace
  tiles   : KMap Tile          -- tiles that differ from the reset tile, by id
  ns      : Ns
  se      : Se
  sw      : Sw
  lp      : Lp
  deriving DecidableEq, Repr

/-! ## Reset

Each register's value is the Reset column of its block's table (R5); where the spec gives none, the value is the
model's and NOTES.md and the assumption log say so (entry 2). -/

def Power.reset : Power :=
  { vin10mV := 5000, vinAccepted := true, bankCharged := true, failing := false, modEn := true, pwrGood := true,
    perst := false, hostRail := true, flashRail := true, tileSupply := false, dramRail := true, badRails := [],
    outOfRange := false, outletHot := false, temps := [], refresh2x := [], alertSeen := 0, ibis := [],
    dynAddr := none, eid := none, miReplies := [] }

/-- No fuse read yet. -/
def FuseMap.blank : FuseMap :=
  { ok := false, phys := [], spare := [], readOff := [], seeds := [], trims := [], vGain := 0, iGain := 0,
    vOff := 0, iOff := 0 }

def Mc.reset : Mc :=
  { phase := .marks, entry := 0, entries := 1, dropped := 0, marksMs := 0, blocksMs := 0, event := 0, cause := 0,
    recoveryNext := false, deferred := none, fuseDone := false, panelDone := false, storeDone := false,
    path := .cold, noImage := false, imageDone := false, fcPath := false, bootImage := [], fuse := FuseMap.blank,
    trained := [], attempts := [], retrain := [], fwMajor := 0, fwMinor := 0, fwRevision := [], fwHash := [],
    fatalClear := none, userDram := [], userTrim := [], userRead := [], userVGain := 0, userIGain := 0,
    userVOff := 0, userIOff := 0 }

def Pacer.reset : Pacer :=
  { mode := .freerun, event := 0, beat := 0, facOffset := 0, energyMJ := 0, energyFrac := 0, periodNs := 1000000,
    nominalNs := 1000000, freeNs := 1000000, bandCtl := 0x03E84000, targetW := 0, tolW := 100, fillerEn := 0x3F,
    beatW := 0, ceilingW := 0, cntFalse := 0, cntMiss := 0, deferCnt := 0, slots := List.replicate 16 0x99,
    acquired := [], meanOf := [], missRun := 0, lastByEdge := false, scheduled := [], endpoint := none,
    msgVersion := 0, lowDemand := false, reportCount := 0, reportSeq := 0, reports := [], window := [], settle := 0,
    held := 0, armed := true, bandLost := false, bandState := 0, bandLostCnt := 0, ratios := [], forecasts := [],
    forecastW := 0, granted := [], fillerRun := [], bgRun := [], thermalCeil := none, triggers := [], rising := false }

def Fl.reset : Fl :=
  { event := 0, clearSquad := 0, result := 0, done := false, posted := 0, corr := 0, cont := 0, fatal := 0,
    seqSel := 0, seqs := [], ring := [], buffer := [], standing := [], standingFull := false, clear := none,
    beatPosts := [], critFatal := false }

/-- Every interface at its native version, as the module leaves the factory (R342). -/
def Versions.native : Versions :=
  { cmdset := 0x31, image := 5, result := 2, index := 4, agCmdset := 0x31, agImage := 5, agResult := 2, agIndex := 4 }

def Qe.reset : Qe :=
  { cc := 0, aqa := 0, asq := 0, acq := 0, intMask := 0, enabled := false, ready := false, shst := 0, sqs := [], cqs := [], fetchOrder := 0, fetched := [], store := [],
    held := [], locksUsed := 0, posted := [], cqWait := [], aers := [], masked := [], events := [], features := [],
    apst := [], apstOn := false, timestamp := [], wp := [], wpOverflow := false, ps := 0, psWant := none,
    psAuto := false, psLastOp := 0, psAtGo := 0, event := 0, rlWait := 0, p2pDiscard := 0, p2pCfg := 0, p2pBase := 0,
    p2pOpen := [], versions := Versions.native, psEvents := 0,
    turn := none, urgentAt := 0, quota := [], irqs := [] }

/-- No squads: generation 0 (R45). -/
def SquadSet.empty : SquadSet := { squads := [], routes := [], regions := [], bindings := [] }

def Sl.reset : Sl :=
  { stage := [], stageLen := 0, gen := 0, imageId := 0, format := 0, set_ := SquadSet.empty, lastResult := 0,
    loadCode := 0, loadSect := 0, loadEntry := 0, event := 0, timeout := 2048, drainBeats := 0, drainSlow := false, quiet := [],
    load := none, retire := none, persist := none }

def Rl.reset : Rl :=
  { ntReady := [], ftReady := false, ftShare := 300, event := 0, lateCnt := 0, overCnt := 0,
    ftBytes := 0, lookup := 0xFFFFFFFF,
    lookupWords := [0, 0, 0, 0, 0xFFFFFFFF, 0xFFFFFFFF, 0xFFFFFFFF, 0xFFFFFFFF], corr := [], uncorr := [],
    probeAddr := 0, probeData := List.replicate 8 0, probeDone := false, probeBits := 0, flipMask := [],
    flipLast := [], probe := [], near := [], dir := [], far := [], copies := [], waiting := [] }

def Mm.reset : Mm :=
  { replayed := false, agedTo := 0, paced := false, throttle := 0, band := 0, event := 0, epoch := 0, mediumEpoch := 0,
    landingCfg := 50, tempA := 0, tempB := 0, peak := 0, scrubCfg := 0x7804, gcCfg := 0x07AE0F5C, wlCfg := 150, retryCnt := 0,
    exhaustCnt := 0, rebuildCnt := 0, uncorrCnt := 0, hostWritten := 0, mediaWritten := 0, replayMs := 0, clean := false,
    lossDirty := false, namespaces := [], nextKey := 0, pages := [], pool := [], beatOld := [], index := [], ckpt := [],
    ckptOld := [], ckptIndex := [], since := [], landing := [], bulk := [], stripes := [], openStripe := none, nextStripe := 0,
    nextRow := 0, lostWrites := [], blocks := [], eraseQ := [], remap := [], spares := [], retiredCnt := [], spareSaid := [],
    roGroups := [], outSets := [], badBlocks := [], refreshQ := [], clockNs := 0, retries := [], loops := [], retireLog := [] }

def Jd.reset : Jd :=
  { jobs := [], nextTag := 0, nextSeq := 1, progress := [], event := 0, recallCnt := 0, preemptCnt := 0,
    modelAddr := 0, modelSlot := 0, modelOp := false, modelCode := 0, splitSel := 0,
    splitData := List.replicate 8 0, laps := [], models := [], seqs := [], nextSeqId := 0, pools := [], turn := [], banks := [] }

/-- A latch that holds nothing. -/
def Latch.reset : Latch :=
  { state := .empty, data := [], shadow := none, index := 0, units := 0, object := 0, baton := 0, credit := true,
    failed := false }

/-- A tile that nothing has touched since MARKS: every tile not listed in `State.tiles`. -/
def Tile.reset : Tile :=
  { swept := false, squad := none, halted := false, queue := [], held := [], nextIdx := 0, flight := [], hurdle := false,
    sems := List.replicate 16 0, latches := [Latch.reset, Latch.reset], ctxs := [], ran := 31, amax := List.replicate 64 0,
    scale := List.replicate 64 0x3F800000, lane := [], bad := [], credits := [], tensor := none, corrCnt := 0,
    uncorrCnt := 0, eccLast := 0, stall := 0, lmAddr := 0, lmStatus := 0, flip := 0 }

/-- NS_SQ_CFG (HISTORY 16, MARGIN 1, SAT_LIMIT 12), NM_UWR_HI, NM_UWR_CTL and NM_UWR_CNT at their reset values. -/
def NsSquad.reset : NsSquad :=
  { cfg := 0x000C0110, cfgNext := none, uwrHi := 0x3C23D70A, uwrNext := none, ctl := 0, ctlNext := none, cnt := 0,
    resetDue := false }

def Ns.reset : Ns :=
  { table := [], full := false, event := 0, satCnt := 0, underCnt := 0, zeroCnt := 0, calCnt := 0, lookup := 0,
    lookupWords := List.replicate 7 0, squads := [] }

def Se.reset : Se :=
  { identity := deviceIdentity, nonce := List.replicate 8 0, evAddr := 0, keyAddr := 0, event := 0,
    topReady := false, attesting := false, attCode := 0, keyCode := 0, block := none, measure := List.replicate 32 0,
    failCnt := 0, lowSaid := false, fwBuf := [], fwLen := 0, commit := none, evidence := none }

/-- The boot ROM reads the store in MARKS, so BUSY reads 1; the store lists nothing, so every byte reads 0xFF and every
protect bit is set (R431). -/
def Sw.reset : Sw :=
  { store := [], opened := [], seq := .idle, ident := false, busyBoot := true, run := none, internal := false,
    queued := none, bits := 0, pulses := 0, event := 0, last := 0, pulseCnt := 0, pfailCnt := 0, efailCnt := 0,
    pulseMax := 0, pulseSect := 0, grantAddr := 0, grantCode := 0 }

def Lp.reset : Lp :=
  { enable := false, reqProd := 0, reqCons := 0, rplProd := 0, rplCons := 0, timeout := 1000, event := 0,
    protoCnt := 0, falseCnt := 0, volMap := List.replicate 16 0, ring := [], cmds := [], outq := [], irqs := [] }

/-- The module right after reset: the entry to MARKS that follows application of the 50 V input with MOD_EN asserted
(R5, R378), with no command waiting. -/
def State.reset : State :=
  { pending := [], tick := 0, latchHi := [], busRead := [], hostOut := [], power := Power.reset, mc := Mc.reset,
    pc := Pacer.reset, fl := Fl.reset, qe := Qe.reset, sl := Sl.reset, rl := Rl.reset, mm := Mm.reset,
    jd := Jd.reset, idx := [], tiles := [], ns := Ns.reset, se := Se.reset, sw := Sw.reset, lp := Lp.reset }

/-- A command that faults the model. The module itself reports every error it finds in its own records and
statuses, so no meaning of this model ends in one. -/
inductive Fault where
  /-- Raised by no meaning: kept so that the type is not empty. Safe: it stops. -/
  | none
  deriving DecidableEq, Repr

/-- Why a command has no meaning. -/
inductive Refusal where
  /-- Raised by `exec` for a row that has no meaning yet. Safe: it stops. -/
  | notModelled (mnemonic : String)
  deriving DecidableEq, Repr

end Sys2Proof.Machine
end

