-- ==== Sys2Proof/Machine/Ops.lean ====
section
/-! DEFINITION. Operations every family shares: free values, records and events (R326, R398 to R402, R419), completions
and fetching (R317, R318, R323), phases (R377, R388, R391, R413), tiles, squads, regions and near-tier bytes. -/

namespace Sys2Proof.Machine

/-! ## Outcome -/

/-- A meaning that answers a next state. -/
abbrev done (s : State) : Host.Outcome State Fault Refusal := .next s

/-! ## Free values (assumption entry 1) -/

/-- One free 64-bit value, and the state with the draw counted. -/
def State.draw (s : State) : BitVec 64 × State := (Config.freeBits s.tick, { s with tick := s.tick + 1 })

/-- One free number, and the state with the draw counted. -/
def State.drawNat (s : State) : Nat × State := (Config.freeNat s.tick, { s with tick := s.tick + 1 })

/-! ## Status codes: status code type * 256 + status code (R323; the others as NVM Express defines them) -/

def stOk : Nat := 0x000
def stInvalidOpcode : Nat := 0x001
def stInvalidField : Nat := 0x002
def stDataTransfer : Nat := 0x004
def stInternal : Nat := 0x006
def stAbortRequested : Nat := 0x007
def stInvalidNs : Nat := 0x00B
def stSequence : Nat := 0x00C
def stLbaRange : Nat := 0x080
def stCapacity : Nat := 0x081
def stWriteProtected : Nat := 0x020
def stCqInvalid : Nat := 0x100
def stQueueId : Nat := 0x101
def stQueueSize : Nat := 0x102
def stAbortLimit : Nat := 0x103
def stAerLimit : Nat := 0x105
def stFwSlot : Nat := 0x106
def stFwImage : Nat := 0x107
def stVector : Nat := 0x108
def stLogPage : Nat := 0x109
def stQueueDelete : Nat := 0x10C
def stFwNeedsReset : Nat := 0x10B
def stNsCapacity : Nat := 0x115
def stNsIdUnavail : Nat := 0x116
def stNsAttached : Nat := 0x118
def stNsNotAttached : Nat := 0x11A
def stCtrlList : Nat := 0x11C
def stUnrecovered : Nat := 0x281
def stAccessDenied : Nat := 0x286
def stJobAborted : Nat := 0x780
def stNotReadyBlocks : Nat := 0x781
def stDraining : Nat := 0x782
def stVersion : Nat := 0x783
def stRelayBound : Nat := 0x784
def stFenced : Nat := 0x785

/-- Do Not Retry is 1 for VERSION_MISMATCH alone among the vendor codes (R323). -/
def stDnr (st : Nat) : Bool := st == stVersion

/-! ## Source ids and kinds (R403, R404) -/

def srcTile (n : Nat) : Nat := n
def srcChannel (c : Nat) : Nat := 0x400 + c
def srcStack (k : Nat) : Nat := 0x480 + k
def srcHL : Nat := 0x490
def srcQE : Nat := 0x491
def srcLP : Nat := 0x492
def srcSW : Nat := 0x493
def srcSE : Nat := 0x494
def srcPC : Nat := 0x495
def srcPower : Nat := 0x496
def srcThermal : Nat := 0x497
def srcMG : Nat := 0x4B0

def kEccCorr : Nat := 0x01
def kEccUncorr : Nat := 0x02
def kAddrCode : Nat := 0x03
def kProgFail : Nat := 0x10
def kEraseFail : Nat := 0x11
def kRetryExhausted : Nat := 0x12
def kSpareLow : Nat := 0x13
def kScaleSat : Nat := 0x20
def kScaleUnder : Nat := 0x21
def kZeroRange : Nat := 0x22
def kUpdateRatio : Nat := 0x23
def kRelayLate : Nat := 0x30
def kLapOverrun : Nat := 0x31
def kProtocol : Nat := 0x40
def kFalseStart : Nat := 0x41
def kThermal : Nat := 0x50
def kPowerBand : Nat := 0x51
def kSigVerify : Nat := 0x60

/-! ## Completions (R317, R318) -/

/-- The completion queue of a command's submission queue. -/
def Qe.cqOf (q : Qe) (c : CmdId) : Nat := ((q.sqs.find c.sq).map Sq.cq).getD 0

/-- Completion queue `n` has no free entry. -/
def Qe.cqFull (q : Qe) (n : Nat) : Bool :=
  match q.cqs.find n with
  | none => false
  | some k => (k.tail + 1) % max k.size 1 == k.head

/-- The vectors signalled once a completion stands in completion queue `n`: its own, if its interrupts are enabled (R312).
Coalescing and the masks of the vectors are the host's side. -/
def Qe.signal (q : Qe) (n : Nat) : List Nat :=
  match q.cqs.find n with
  | none => q.irqs
  | some k => if k.ien then k.vector :: q.irqs else q.irqs

/-- Post a completion, or keep it until its queue has a free entry. -/
def Qe.post (q : Qe) (k : Completion) : Qe :=
  let n := q.cqOf k.c
  if q.cqFull n then { q with cqWait := q.cqWait ++ [k] }
  else { q with
    posted := k :: q.posted
    irqs := q.signal n
    cqs := q.cqs.adjust n (fun x => { x with tail := (x.tail + 1) % max x.size 1 }) }

/-- The command no longer counts among those fetched, and its queue is fetched from again (R318). -/
def Qe.release (q : Qe) (c : CmdId) : Qe :=
  { q with
    fetched := q.fetched.filter (fun d => !(d == c))
    sqs := q.sqs.adjust c.sq (fun x => if x.blocked = some c then { x with blocked := none } else x) }

/-- A completion entry. -/
def mkCompletion (c : CmdId) (st dw0 dw1 : Nat) (data : List (List Byte)) : Completion :=
  { c := c, sct := st / 256, sc := st % 256, dnr := stDnr st, dw0 := dw0, dw1 := dw1, data := data }

/-- Complete a command with a status, dwords 0 and 1 and the data it transferred to the host. A command that a reset took
out of QE has no completion (R332). -/
def Qe.complete (q : Qe) (c : CmdId) (st : Nat) (dw0 dw1 : Nat := 0) (data : List (List Byte) := []) : Qe :=
  if q.fetched.contains c then (q.release c).post (mkCompletion c st dw0 dw1 data) else q

def State.complete (s : State) (c : CmdId) (st : Nat) (dw0 dw1 : Nat := 0) (data : List (List Byte) := []) : State :=
  { s with qe := s.qe.complete c st dw0 dw1 data }

/-! ## Asynchronous events (R326) -/

/-- Report the event of log page `page`: to a pending Asynchronous Event Request, or kept until one arrives; a masked
event is not reported. -/
def Qe.asyncEvent (q : Qe) (page : Nat) : Qe :=
  if q.masked.contains page || q.events.contains page then q
  else match q.aers with
    | [] => { q with events := q.events ++ [page] }
    | c :: cs =>
      { q with aers := cs, masked := q.masked ++ [page] }.complete c stOk (7 + page * 2 ^ 16)

/-! ## Records (R398 to R402, R419, R384) -/

/-- Every NT_READY bit is set (R385). -/
def State.ntAll (s : State) : Bool := (List.range 16).all (fun k => s.rl.ntReady.contains k)

/-- Write a record into the ring slot of its number (R419). -/
def Fl.ringWrite (f : Fl) (r : Record) : Fl :=
  { f with
    ring := f.ring.put (f.posted % 65536) r
    posted := f.posted + 1
    event := if 65536 ≤ f.posted then setEv f.event 4 else f.event }

/-- The near tier is ready: the buffered records move into their ring slots, in order (R384). -/
def Fl.flushBuffer (f : Fl) : Fl :=
  let n := f.posted - f.buffer.length
  { f with buffer := [], ring := f.buffer.zipIdx.foldl (fun m x => m.put ((n + x.2) % 65536) x.1) f.ring }

/-- Count a posted record by class, and set its class's event bit (R422). -/
def Fl.countClass (f : Fl) (cls : Nat) : Fl :=
  match cls with
  | 0 => { f with corr := sat32 (f.corr + 1), event := setEv f.event 0 }
  | 1 => { f with cont := sat32 (f.cont + 1), event := setEv f.event 1 }
  | _ => { f with fatal := sat32 (f.fatal + 1), event := setEv f.event 2 }

/-- The next sequence number of a source and its suppressed count (R401, R402). -/
def Fl.seqOf (f : Fl) (src : Nat) : Nat × Nat := f.seqs.findD src (0, 0)

/-- The record a source posts now. -/
def State.mkRecord (s : State) (src kind cls : Nat) (addr : W64) (d0 d1 d2 d3 : W32) : Record :=
  { source := src, kind := kind, cls := cls, seq := (s.fl.seqOf src).1, beat := s.pc.beat % 2 ^ 26, addr := addr,
    d0 := d0, d1 := d1, d2 := d2, d3 := d3 }

/-- FL takes a record: into the ring, or, until the near tier is ready, into the 256-record buffer (R384). -/
def State.writeRecord (s : State) (r : Record) : State :=
  let sq := s.fl.seqOf r.source
  let f : Fl := { s.fl with seqs := s.fl.seqs.put r.source ((sq.1 + 1) % 65536, sq.2) }
  if s.ntAll then { s with fl := (f.ringWrite r).countClass r.cls }
  else if f.buffer.length < 256 then
    { s with fl := { f.countClass r.cls with buffer := f.buffer ++ [r], posted := f.posted + 1 } }
  else { s with fl := f, mc := { s.mc with dropped := sat32 (s.mc.dropped + 1) } }

/-- Post a record of a class, with its asynchronous event (R326, R405); jobs, fences and phases are the caller's. -/
def State.post (s : State) (src kind cls : Nat) (addr : W64) (d0 d1 d2 d3 : W32) : State :=
  let s1 := s.writeRecord (s.mkRecord src kind cls addr d0 d1 d2 d3)
  if cls = 0 then s1 else { s1 with qe := s1.qe.asyncEvent 0xC0 }

/-- A suppressed event: the source counts it and takes no sequence number (R402). -/
def Fl.suppress (f : Fl) (src : Nat) : Fl :=
  let q := f.seqOf src
  { f with seqs := f.seqs.put src (q.1, sat16 (q.2 + 1)) }

/-- Post a corrected record. -/
def State.postCorr (s : State) (src kind : Nat) (addr : W64) (d0 d1 d2 d3 : W32) : State :=
  s.post src kind 0 addr d0 d1 d2 d3

/-- Post a corrected record at most once in a beat for each code; further events are suppressed (R402). -/
def State.postOnce (s : State) (src kind code : Nat) (addr : W64) (d0 d1 d2 d3 : W32) : State :=
  if s.fl.beatPosts.contains (src, kind, code) then { s with fl := s.fl.suppress src }
  else
    let s1 := s.postCorr src kind addr d0 d1 d2 d3
    { s1 with fl := { s1.fl with beatPosts := (src, kind, code) :: s1.fl.beatPosts } }

/-- Take a standing entry (R420): one of the 256, or a cause without one and STANDING_FULL. -/
def Fl.stand (f : Fl) (r : Record) (squad : Option Nat) : Fl :=
  if (f.standing.filter Standing.entry).length < 256 then
    { f with standing := f.standing ++ [{ record := r, squad := squad, entry := true }] }
  else { f with standing := f.standing ++ [{ record := r, squad := squad, entry := false }], standingFull := true }

/-- A fatal cause stands (FL_STATUS.HALTED). -/
def Fl.fatalStands (f : Fl) : Bool := f.standing.any (fun x => x.record.cls == 2)

/-! ## Power states (R335) -/

/-- JD admits and issues: PS0 or PS1, and no change to a lower state waits for its boundary. -/
def State.workOn (s : State) : Bool :=
  s.qe.ps < 2 && (match s.qe.psWant with
    | none => true
    | some n => n < 2)

/-! ## Phases (R377, R388, R391, R413) -/

/-- The module acts as HALTED: in that phase, or in BLOCKS or GO with a fatal cause standing (R411). -/
def State.halted (s : State) : Bool :=
  s.mc.phase == .halted || ((s.mc.phase == .blocks || s.mc.phase == .go) && s.fl.fatalStands)

def State.inBlocks (s : State) : Bool := s.mc.phase == .blocks && !s.halted
def State.inGo (s : State) : Bool := s.mc.phase == .go && !s.halted

/-- Blocks other than MC, PC and SW answer (R383). -/
def State.vendorLive (s : State) : Bool :=
  s.mc.phase == .blocks || s.mc.phase == .go || s.mc.phase == .halted

/-- The Pacer granted this background work, in a slot or as filler (R188, R367 to R370): 0 fold, 1 garbage collection,
2 side-list merge, 3 compaction, 4 scrub and refresh, each with its key. -/
def State.mayRun (s : State) (work key : Nat) : Bool := s.pc.bgRun.contains (work, key)

/-- Granted background work ends. -/
def State.endBg (s : State) (work key : Nat) : State :=
  { s with pc := { s.pc with bgRun := s.pc.bgRun.filter (fun x => !(x == (work, key))) } }

/-- The link is up: a register can be accessed (R378). -/
def State.linkUp (s : State) : Bool := s.mc.phase != .off

/-! ### Arbitration (R317, R351) -/

/-- The queue number that stands for function 1 (R352). -/
def lpQueue : Nat := 0xFFFE

/-- The Arbitration feature: [2:0] AB, [15:8] LPW, [23:16] MPW, [31:24] HPW (R317). -/
def Qe.arbitration (q : Qe) : W32 := q.features.findD 1 0x1F0F0703

/-- Commands one queue takes per turn at most. -/
def Qe.burst (q : Qe) : Nat := 2 ^ bitsW q.arbitration 2 0

/-- Commands a round takes from a queue of class `prio`. -/
def Qe.weight (q : Qe) (prio : Nat) : Nat :=
  1 + (if prio = 1 then bitsW q.arbitration 31 24 else if prio = 2 then bitsW q.arbitration 23 16 else bitsW q.arbitration 15 8)

/-- Submission queue `n` holds a command that QE may fetch. -/
def State.sqHolds (s : State) (n : Nat) : Bool :=
  (s.vendorLive || n == 0) && (n == 0 || s.qe.ps < 3)
  && match s.qe.sqs.find n with
     | none => false
     | some q => q.blocked == none && q.head != q.tail

/-- The request ring holds a CMD frame that LP may read: no command of function 1 waits for range-lock entries (R329, R346). -/
def State.lpHolds (s : State) : Bool :=
  s.vendorLive && s.lp.outq.isEmpty && s.lp.reqProd != s.lp.reqCons
  && byteAt (readCells 0 s.lp.ring (0x1000 + 64 * s.lp.reqCons) 1) 0 == 1 && !s.qe.held.any (fun c => c.sq == lpQueue)

/-- Urgent queues that hold commands, by number. -/
def State.urgentReady (s : State) : List Nat :=
  (s.qe.sqs.filter (fun e => e.1 != 0 && e.2.prio == 0 && s.sqHolds e.1)).map Prod.fst

/-- Weighted queues that hold commands, each with its commands per round; function 1 is one further queue of the medium
class. -/
def State.weightedReady (s : State) : List (Nat × Nat) :=
  ((s.qe.sqs.filter (fun e => e.1 != 0 && e.2.prio != 0 && s.sqHolds e.1)).map (fun e => (e.1, s.qe.weight e.2.prio)))
    ++ (if s.lpHolds then [(lpQueue, s.qe.weight 2)] else [])

/-- The turn of queue `n` may go on. -/
def Qe.turnLeft (q : Qe) (n : Nat) : Bool :=
  match q.turn with
  | none => true
  | some t => t.1 != n || t.2 < q.burst

/-- A weighted queue has commands of its round left. -/
def Qe.quotaLeft (q : Qe) (e : Nat × Nat) : Bool := q.quota.findD e.1 0 < e.2

/-- Every weighted queue that holds commands has taken its commands of this round: a new round begins. -/
def State.roundOver (s : State) : Bool := s.weightedReady.all (fun e => !s.qe.quotaLeft e)

/-- The arbiter may take a command from queue `n` now (R317): admin first, then urgent queues round robin in ascending order,
then the weighted queues, each within its round and its turn. A turn may end early; that round robin goes by ascending
queue number, and that the order within a weighted round is otherwise open, is the model's (DESIGN CHOICE, assumption
entry 52). -/
def State.arbiter (s : State) (n : Nat) : Bool :=
  n == 0 || (!s.sqHolds 0 &&
    (if s.urgentReady.contains n then
       let u := s.urgentReady
       (n == s.qe.urgentAt && s.qe.turnLeft n)
       || ((u.find? (fun m => s.qe.urgentAt < m)).getD (u.headD n)) == n
     else s.urgentReady.isEmpty
       && s.weightedReady.any (fun e => e.1 == n && (s.roundOver || s.qe.quotaLeft e))
       && (s.qe.turnLeft n
           || !s.weightedReady.any (fun e => e.1 != n && (s.roundOver || s.qe.quotaLeft e)))))

/-- Count a command against the turn and the round of its queue. -/
def State.takeTurn (s : State) (n : Nat) : State :=
  let q := s.qe
  let k := match q.turn with
    | some t => if t.1 = n && q.turnLeft n then t.2 + 1 else 1
    | none => 1
  let round := if s.roundOver then [] else q.quota
  { s with qe := { q with
      turn := some (n, k)
      urgentAt := if s.urgentReady.contains n then n else q.urgentAt
      quota := if s.weightedReady.any (fun e => e.1 == n) then KMap.put round n (KMap.findD round n 0 + 1) else q.quota } }

/-- Queue `c.sq` holds a command, may be fetched from now, and is the arbiter's to take from (R317, R318, R336, R413). -/
def State.canFetch (s : State) (c : CmdId) : Bool :=
  s.qe.ready && (s.vendorLive || (s.mc.phase == .recovery && c.sq == 0))
  && s.qe.fetched.length < 65536 && !s.qe.fetched.contains c && s.sqHolds c.sq && s.arbiter c.sq

/-- QE fetches the command. -/
def State.fetch (s : State) (c : CmdId) : State :=
  let s1 := s.takeTurn c.sq
  { s1 with qe := { s1.qe with
      fetched := s1.qe.fetched ++ [c]
      fetchOrder := s1.qe.fetchOrder + 1
      sqs := s1.qe.sqs.adjust c.sq (fun x => { x with head := (x.head + 1) % max x.size 1 }) } }

/-- How a command class is served in each phase. -/
inductive Gate where
  | served                     -- admin commands served everywhere but RECOVERY
  | recovery                   -- served in RECOVERY too (R391)
  | image                      -- Firmware Image Download
  | stage                      -- STRUCTURE_LOAD STAGE and DISCARD
  | fwCommit                   -- Firmware Commit: RECOVERY and GO
  | manage                     -- management commands of R388
  | job                        -- job kinds other than SEARCH, OBJ_PLACE, OBJ_EVICT, OBJ_PUBLISH
  | io                         -- storage commands, SEARCH, JOB_CANCEL: their own rule in BLOCKS
  deriving DecidableEq, Repr

/-- The status with which the phase ends a fetched command of this class at once, or none when it is served. -/
def State.gate (s : State) (g : Gate) : Option Nat :=
  if s.mc.phase = .recovery then (if g = .recovery || g = .image || g = .fwCommit then none else some stSequence)
  else if s.halted then
    (if g = .served || g = .recovery || g = .image then none else some stInternal)
  else if s.mc.phase = .blocks then
    match g with
    | .served | .recovery | .io => none
    | .image | .stage => if s.ntAll then none else some stNotReadyBlocks
    | .fwCommit | .manage | .job => some stNotReadyBlocks
  else none

/-- Fetch a command and serve it by its class: unchanged when QE cannot fetch it, completed at once where the phase
does not serve it, else its own effect. -/
def State.command (s : State) (c : CmdId) (g : Gate) (f : State → State) : State :=
  if s.canFetch c then
    match (s.fetch c).gate g with
    | some st => (s.fetch c).complete c st
    | none => f (s.fetch c)
  else s

/-! ## Tiles and squads -/

/-- The id of tile T(x,y) (R55). -/
def tileId (x y : Nat) : Nat := y * 32 + x

/-- Tile `n`; a tile not listed is as reset. -/
def State.tile (s : State) (n : Nat) : Tile := s.tiles.findD n Tile.reset

def State.setTile (s : State) (n : Nat) (t : Tile) : State := { s with tiles := s.tiles.put n t }

def State.squadOf (s : State) (n : Nat) : Option Squad := s.sl.set_.squads.find n

/-- Change squad `n` of the active set. -/
def State.onSquad (s : State) (n : Nat) (f : Squad → Squad) : State :=
  { s with sl := { s.sl with set_ := { s.sl.set_ with squads := s.sl.set_.squads.adjust n f } } }

/-- Squad `n` is FENCED. -/
def State.fenced (s : State) (n : Nat) : Bool :=
  match s.squadOf n with
  | none => false
  | some q => q.state == .fenced

def State.region (s : State) (id : Nat) : Option Region := s.sl.set_.regions.find? (fun r => r.id == id)

/-- Every active tile is swept (MC_PHASE.TILES_SWEPT). -/
def State.allSwept (s : State) : Bool := (List.range 1024).all (fun n => (s.tile n).swept)

/-- A lane-memory sweep (R70, R79): memory, latches, contexts, semaphores, column state and flip mask as after MARKS, SWEPT
set, HALTED cleared; counters, test registers and the squad stay. R70 names lane memory, latches, contexts and semaphores; that
the max-abs and column-scale registers and the current tensor start over with them is the model's (DESIGN CHOICE, assumption
entry 55). -/
def Tile.sweep (t : Tile) : Tile :=
  { Tile.reset with
    swept := true, squad := t.squad, corrCnt := t.corrCnt, uncorrCnt := t.uncorrCnt, stall := t.stall,
    lmAddr := t.lmAddr, lmStatus := t.lmStatus }

/-- The test port works (R78). -/
def Tile.portOpen (t : Tile) : Bool := t.squad.isNone && t.swept

/-! ## Near-tier bytes (R146, R147) -/

def State.nearRead (s : State) (a n : Nat) : List Byte := readCells 0 s.rl.near a n

def State.nearWrite (s : State) (a : Nat) (d : List Byte) : State :=
  { s with rl := { s.rl with near := writeCells 0 s.rl.near a d } }

/-- Bytes the module writes to host memory. -/
def State.hostWrite (s : State) (a : Nat) (d : List Byte) : State :=
  { s with hostOut := { addr := a, data := d } :: s.hostOut }

/-! ## ALERT# (R477) -/

/-- The causes that hold ALERT# asserted: [0] HALTED, [1] THERMAL, [2] INPUT, [3] OUTLET, [4] RECOVERY. -/
def State.alertCauses (s : State) : Byte :=
  BitVec.ofNat 8 (b2n s.fl.fatalStands + 2 * b2n s.pc.thermalCeil.isSome + 4 * b2n s.power.outOfRange
    + 8 * b2n s.power.outletHot + 16 * b2n (s.mc.phase == .recovery))

/-- Raise an in-band interrupt for each time a new cause arises; released causes may arise again (R477). The target
runs whenever the input is accepted and no power fail runs (R474). -/
def State.alert (s : State) : State :=
  let now := s.alertCauses
  let p := s.power
  if now &&& ~~~p.alertSeen = 0 || !p.vinAccepted || p.failing then { s with power := { p with alertSeen := now } }
  else { s with power := { p with alertSeen := now, ibis := now :: p.ibis } }

end Sys2Proof.Machine
end

