-- ==== Sys2Proof/Machine/TileMem.lean ====
section
/-! DEFINITION. Lane memory and its check bits (R67 to R70, R79): bytes written with an armed flip mask, checked reads,
and bytes left free where the spec fixes no value. -/

namespace Sys2Proof.Machine

/-! ## The code (R68) -/

/-- The weight-3 columns a data bit may have. -/
def weight3 : List Nat := [7, 11, 13, 14, 19, 21, 22, 25, 26, 28]

/-- `n` columns picked without repeats: which the part uses is not given. -/
def pickColumns : Nat → Nat → List Nat → List Nat
  | 0, _, _ => []
  | n + 1, seed, cols =>
    let c := cols.getD (seed % max cols.length 1) 0
    c :: pickColumns n (seed / max cols.length 1) (cols.erase c)

/-- Columns of the eight data bits. -/
def dataColumns : List Nat := pickColumns 8 Config.eccSeed weight3

/-- Syndrome of flipped data bits and flipped check bits. -/
def flipSyndrome (dm : Byte) (cm : BitVec 5) : BitVec 5 :=
  (List.range 8).foldl (fun v i => if dm.getLsbD i then v ^^^ BitVec.ofNat 5 (dataColumns.getD i 0) else v) cm

/-- What a syndrome says: clean, one data bit, one check bit, or uncorrectable. -/
inductive Syn where
  | clean | data (bit : Nat) | check | uncorr
  deriving DecidableEq, Repr

def synOf (v : BitVec 5) : Syn :=
  if v = 0 then .clean
  else if [1, 2, 4, 8, 16].contains v.toNat then .check
  else match dataColumns.findIdx? (fun c => c == v.toNat) with
    | some i => .data i
    | none => .uncorr

/-! ## Writing (R67, R79) -/

/-- Write bytes of a tile's lane memory: an armed flip mask is stored into the lowest-addressed byte and clears. -/
def Tile.put (t : Tile) (a : Nat) (l : List Byte) : Tile :=
  let t1 := { t with lane := writeCells 0 t.lane a l, bad := t.bad.filter (fun e => e.1 < a || a + l.length ≤ e.1) }
  match l with
  | [] => t1
  | b :: _ =>
    let dm : Byte := t.flip.setWidth 8
    let cm : BitVec 5 := (t.flip >>> 8).setWidth 5
    if dm = 0 ∧ cm = 0 then t1
    else
      let v := flipSyndrome dm cm
      { t1 with
        lane := writeCell 0 t1.lane a (b ^^^ dm), bad := if v = 0 then t1.bad else t1.bad.put a v, flip := 0 }

/-! ## Reading (R68, R69) -/

/-- One byte as the read logic delivers it: corrected where one data bit is flipped. -/
def Tile.laneByte (t : Tile) (a : Nat) : Byte :=
  match synOf (t.bad.findD a 0) with
  | .data i => readCell 0 t.lane a ^^^ (1 <<< i)
  | _ => readCell 0 t.lane a

def Tile.bytes (t : Tile) (a n : Nat) : List Byte :=
  if t.bad.isEmpty then readCells 0 t.lane a n else (List.range n).map (fun i => t.laneByte (a + i))

/-- Stored syndromes that are not zero in a range, by address. -/
def Tile.badIn (t : Tile) (a n : Nat) : List (Nat × BitVec 5) := t.bad.filter (fun e => a ≤ e.1 && e.1 < a + n)

/-- TILE_ECC_LAST of an error in lane memory (R77). -/
def eccLastWord (a : Nat) (v : BitVec 5) (uncorr : Bool) : W32 :=
  packW [(0, a % 2 ^ 21), (21, v.toNat), (26, b2n uncorr), (29, 1)]

/-- A corrected byte of tile `n`: written back, counted, and recorded at most once in a beat. -/
def State.laneCorrect (s : State) (n a : Nat) (v : BitVec 5) (tag : Nat) : State :=
  let t := s.tile n
  let t1 := t.put a [t.laneByte a]
  (s.setTile n { t1 with corrCnt := sat32 (t.corrCnt + 1), eccLast := eccLastWord a v false }).postOnce (srcTile n) kEccCorr 0
    (BitVec.ofNat 64 a) (v.setWidth 32) 0 (BitVec.ofNat 32 tag) 0

/-- An uncorrectable byte is counted. -/
def State.laneUncorr (s : State) (n a : Nat) (v : BitVec 5) : State :=
  let t := s.tile n
  s.setTile n { t with uncorrCnt := sat32 (t.uncorrCnt + 1), eccLast := eccLastWord a v true }

/-- Check the bytes of a read in ascending order: bytes are corrected up to the first uncorrectable one, which is
answered with its syndrome. -/
def State.laneCheck (s : State) (n tag : Nat) : List (Nat × BitVec 5) → State × Option (Nat × BitVec 5)
  | [] => (s, none)
  | e :: es =>
    if synOf e.2 = .uncorr then (s.laneUncorr n e.1 e.2, some e) else (s.laneCorrect n e.1 e.2 tag).laneCheck n tag es

/-! ## Free bytes -/

/-- Free bytes of draw `tick`. -/
def freeBytes (tick n : Nat) : List Byte := (List.range n).map (fun i => (Config.freeWord tick i).setWidth 8)

/-- A range of a tile's lane memory takes bytes the spec does not fix. -/
def State.laneFree (s : State) (n a len : Nat) : State :=
  { s with tick := s.tick + 1 }.setTile n ((s.tile n).put a (freeBytes s.tick len))

end Sys2Proof.Machine
end

