-- ==== Sys2Proof/Machine/Contexts.lean ====
section
/-! DEFINITION. Search contexts (R73, R74): the 256-byte entry of the context store, the heap, the probe list and the predicate
that lie in lane memory, and which context runs. -/

namespace Sys2Proof.Machine

/-- The heap and the probe list of context `i`: R73 gives each a lane address and no rule says which: the places are the
model's (DESIGN CHOICE, assumption entry 40). -/
def heapAddrOf (i : Nat) : Nat := 0x00140000 + 0x4000 * i
def probeAddrOf (i : Nat) : Nat := 0x000C0000 + 0x4000 * i

/-- Query code and predicate slot of context `i` (R262). -/
def queryAddrOf (i : Nat) : Nat := 0x001C2000 + 128 * i
def predAddrOf (i : Nat) : Nat := 0x001C0000 + 256 * i

/-- The context-store entry (R73). -/
def Ctx.entry (x : Ctx) : List Byte :=
  padTo 256 (leBytes x.state 1 ++ leBytes (b2n x.exhausted) 1 ++ leBytes x.k 2 ++ leBytes x.tag 4 ++ leBytes x.epoch 8
    ++ leBytes x.queryAddr 4 ++ leBytes x.bits 2 ++ leBytes x.qindex 2 ++ leBytes x.probeAddr 4 ++ leBytes x.count 2
    ++ leBytes x.next 2 ++ leBytes x.heapAddr 4 ++ leBytes x.held 2 ++ leBytes x.worst 2 ++ leBytes x.seen 8 ++ leBytes x.pred 2)

/-! ## Heaps (R73, R277): 16-byte entries in the result-entry layout, with the locator in the place of the id -/

def HeapEntry.bytes (e : HeapEntry) : List Byte :=
  leBytes e.loc 8 ++ leBytes e.dist 2 ++ leBytes e.list 3 ++ leBytes (b2n e.side) 1 ++ leBytes 0 2

def HeapEntry.ofBytes (l : List Byte) : HeapEntry :=
  { loc := u64At l 0, dist := u16At l 8, list := leAt l 10 3, side := bitN (byteAt l 13) 0 }

/-- The heap a context holds. -/
def Tile.heap (t : Tile) (x : Ctx) : List HeapEntry :=
  (List.range x.held).map (fun i => HeapEntry.ofBytes (t.bytes (x.heapAddr + 16 * i) 16))

/-- A context with a heap of these entries: its count, and its worst distance once it is full. -/
def Ctx.withHeap (x : Ctx) (h : List HeapEntry) : Ctx :=
  { x with held := h.length, worst := if h.length = x.k then h.foldl (fun m e => max m e.dist) 0 else 0 }

/-- Store a context and its heap. -/
def Tile.setHeap (t : Tile) (i : Nat) (x : Ctx) (h : List HeapEntry) : Tile :=
  { t with ctxs := t.ctxs.put i (x.withHeap h) }.put x.heapAddr (h.flatMap HeapEntry.bytes)

/-- Lane ranges of tile `n` that a feed of the contexts `cs` reads, and writes. -/
def Tile.heapReads (t : Tile) (n : Nat) (cs : List Nat) : List (Nat × Nat × Nat) :=
  cs.flatMap (fun c => match t.ctxs.find c with
    | none => []
    | some x => (n, x.heapAddr, 16 * x.held) :: (if x.pred = 0xFFFF then [] else [(n, predAddrOf x.pred, 256)]))

def Tile.heapWrites (t : Tile) (n : Nat) (cs : List Nat) : List (Nat × Nat × Nat) :=
  cs.flatMap (fun c => match t.ctxs.find c with
    | none => []
    | some x => [(n, x.heapAddr, 16 * x.k)])

/-- The predicate terms in a context's slot: 24 bytes each, up to the first without an operator (R259, R262). -/
def Tile.terms (t : Tile) (x : Ctx) : List (List Byte) :=
  if x.pred = 0xFFFF then []
  else ((List.range 10).map (fun i => t.bytes (predAddrOf x.pred + 24 * i) 24)).takeWhile (fun l => byteAt l 2 != 0)

/-! ## Which context runs (R74) -/

/-- The next READY context in ascending number after `i`, wrapping from 31 to 0. -/
def Tile.nextReady (t : Tile) (i : Nat) : Option Nat :=
  ((List.range 32).map (fun k => (i + 1 + k) % 32)).find? (fun k => ((t.ctxs.find k).map (fun x => x.state == 1)).getD false)

/-- A tile without a RUNNING context switches to the next READY one. -/
def Tile.switch (t : Tile) : Tile :=
  if t.ctxs.any (fun e => e.2.state == 2) then t
  else match t.nextReady t.ran with
    | none => t
    | some i => { t with ctxs := t.ctxs.adjust i (fun x => { x with state := 2 }), ran := i }

/-- A context becomes FREE. -/
def Tile.freeCtx (t : Tile) (i : Nat) : Tile := { t with ctxs := t.ctxs.del i }.switch

end Sys2Proof.Machine
end

