-- ==== Sys2Proof/Machine/Media.lean ====
section
/-! DEFINITION. The media map and the medium (R176 to R216): where each unit lies, what a block reads as, snapshots,
landing stripes, relocation, spares. Placement that the spec leaves to MM is a command's operand or the lowest free
place (assumption entry 8). -/

namespace Sys2Proof.Machine

/-! ## The die modes (R176) -/

/-- One of the three modes a die runs in. -/
structure DieMode where
  blockBytes : Nat
  blocks     : Nat             -- counted in capacity
  factory    : Nat             -- factory spare blocks
  unitBytes  : Nat             -- program unit
  readUs     : Nat
  programUs  : Nat
  eraseUs    : Nat
  rated      : Nat             -- rated program/erase cycles
  loopLimit  : Nat
  deriving DecidableEq, Repr

def modeQlc : DieMode :=
  { blockBytes := 16777216, blocks := 16384, factory := 256, unitBytes := 262144, readUs := 50, programUs := 1800, eraseUs := 12000,
    rated := 1500, loopLimit := 24 }

def modeSlc : DieMode :=
  { blockBytes := 4194304, blocks := 16384, factory := 256, unitBytes := 65536, readUs := 20, programUs := 90, eraseUs := 4000,
    rated := 40000, loopLimit := 10 }

/-- The mode of a die, fixed by its number (R12): D6 to D31 bulk QLC, D4 and D5 landing, D0 to D3 far tier. -/
def dieMode (die : Nat) : DieMode := if 6 ≤ die then modeQlc else modeSlc

/-- Wordlines of a block: 64 in every mode. -/
def DieMode.rows (d : DieMode) : Nat := d.blockBytes / d.unitBytes

/-! ## Numbers of the medium -/

/-- Indirection units of a 1 GiB granule (R189). -/
def granuleUnits : Nat := 32768

/-- Granules of the exported 704 TiB. -/
def granulesTotal : Nat := 720896

/-- Landing stripe slots (R185): 12.5 TiB of data in stripes of 256 KiB, one sixteenth less for each set OUT (R213). -/
def Mm.landingSlots (m : Mm) : Nat := 52428800 * (16 - m.outSets.length) / 16

/-- Landing index entries (R191). -/
def idxEntries : Nat := 67108864

/-- Snapshot pool copies (R193). -/
def poolCopies : Nat := 524288

/-- Block places of a bulk die that carry rows: its 16,384 less the 768 set aside for its group's spare pool (R200). -/
def bulkPlaces : Nat := 15616

/-! ## Codewords (R179) -/

/-- A codeword as FC writes it: 4 KiB of data, the 32 bytes of metadata, and the code's parity. The order of the metadata's
fields is the model's (assumption entry 8). -/
def MediumBlock.codeword (b : MediumBlock) : List Byte :=
  let m := padTo 32 (leBytes b.info.unit 5 ++ leBytes b.info.index 1 ++ leBytes b.info.seq 8 ++ leBytes b.info.epoch 8
    ++ leBytes b.info.piece 2)
  let d := padTo 4096 b.data ++ m
  d ++ Config.ldpcParity d

/-- XOR of two byte strings, the shorter one read as followed by zeros. -/
def xorBytes : List Byte → List Byte → List Byte
  | [], b => b
  | a, [] => a
  | x :: xs, y :: ys => (x ^^^ y) :: xorBytes xs ys

/-- XOR of byte strings, trailing zeros left out. -/
def xorAll (l : List (List Byte)) : List Byte := trimZ (l.foldl xorBytes [])

/-! ## Units and pages -/

/-- The global unit of unit `u` of a namespace (R189, R315). -/
def Namespace.unit (n : Namespace) (u : Nat) : Nat := n.granules.getD (u / granuleUnits) 0 * granuleUnits + u % granuleUnits

/-- Map page of a global unit (R189). -/
def pageOf (u : Nat) : Nat := u / 4096

/-- A map entry in its 40 bits (R190): KIND, then LOCATION. -/
def UnitLoc.encode (l : UnitLoc) : BitVec 40 :=
  match l with
  | .unmapped => 0
  | .bulk a => BitVec.ofNat 40 (2 ^ 38 + a % 2 ^ 36)
  | .landing a => BitVec.ofNat 40 (2 * 2 ^ 38 + a % 2 ^ 32)
  | .merged i => BitVec.ofNat 40 (3 * 2 ^ 38 + i % 2 ^ 26)

def MapPage.blank : MapPage := { stamp := 0, units := [], dirty := false }

def Mm.page (m : Mm) (p : Nat) : MapPage := m.pages.findD p MapPage.blank

/-- Where a global unit lies now. -/
def Mm.locOf (m : Mm) (u : Nat) : UnitLoc := (m.page (pageOf u)).units.findD u .unmapped

/-- A map page's 20 KiB: 4,096 entries of five bytes (R189). -/
def Mm.pageBytes (m : Mm) (p : Nat) : List Byte :=
  (List.range 4096).flatMap (fun i => leBytes (m.locOf (4096 * p + i)).encode.toNat 5)

/-- Where the media map reservation's items begin in the near tier, and their sizes (R193): the live map, the snapshot pool,
the landing index, the block table, the map journal. -/
def mapAreas : List (Nat × Nat) :=
  [(0x010000000000, 110 * 2 ^ 30), (0x011B80000000, 10 * 2 ^ 30), (0x011E00000000, 4 * 2 ^ 30), (0x011F00000000, 3 * 2 ^ 30),
   (0x011FC0000000, 2 ^ 30)]

/-- The byte of the live map at a near-tier address (R193). -/
def Mm.mapByte (m : Mm) (a : Nat) : Byte :=
  let o := a - 0x010000000000
  byteAt (leBytes (m.locOf (o / 5)).encode.toNat 5) (o % 5)

/-- The pool copy of a page whose range holds epoch `e`. -/
def Mm.copyAt (m : Mm) (p e : Nat) : Option PoolCopy := m.pool.find? (fun c => c.page == p && c.lo ≤ e && e ≤ c.hi)

/-- Where a global unit lay at snapshot epoch `e` (R197, R198): the live page when its stamp is not above `e`, otherwise the
pool copy whose range holds `e`; for a job admitted in the beat of the change, the page as it stood before it. -/
def Mm.locAt (m : Mm) (e u : Nat) : UnitLoc :=
  let p := m.page (pageOf u)
  if p.stamp ≤ e then p.units.findD u .unmapped
  else match m.copyAt (pageOf u) e with
    | some c => c.units.findD u .unmapped
    | none =>
      match m.beatOld.find (pageOf u) with
      | some q => q.units.findD u .unmapped
      | none => p.units.findD u .unmapped

/-- A block nothing wrote: zeros. -/
def MediumBlock.blank : MediumBlock := { data := [], key := 0 }

/-- Block `b` of a unit at a location that is not MERGED. -/
def Mm.plainBlock (m : Mm) (l : UnitLoc) (b : Nat) : MediumBlock :=
  match l with
  | .unmapped => MediumBlock.blank
  | .bulk a => (m.bulk.findD a []).getD b MediumBlock.blank
  | .landing a => m.landing.findD (a + b) MediumBlock.blank
  | .merged _ => MediumBlock.blank

/-- Block `b` of a unit as the medium holds it (R190, R191): a merged unit takes it from where its entry points. -/
def Mm.mediumAt (m : Mm) (l : UnitLoc) (b : Nat) : MediumBlock :=
  match l with
  | .merged i =>
    match m.index.find i with
    | none => MediumBlock.blank
    | some e =>
      match e.blocks.getD b none with
      | some a => m.landing.findD a MediumBlock.blank
      | none => m.plainBlock e.prev b
  | l => m.plainBlock l b

/-- The data of block `b` of a unit: an unmapped unit reads as zeros. -/
def Mm.blockAt (m : Mm) (l : UnitLoc) (b : Nat) : List Byte := (m.mediumAt l b).data

/-- The block at an LBA of a namespace, by the live map. -/
def Mm.readLba (m : Mm) (n : Namespace) (lba : Nat) : List Byte := m.blockAt (m.locOf (n.unit (lba / 8))) (lba % 8)

/-- The block at an LBA of a namespace at snapshot epoch `e`. -/
def Mm.readLbaAt (m : Mm) (n : Namespace) (e lba : Nat) : List Byte :=
  m.blockAt (m.locAt e (n.unit (lba / 8))) (lba % 8)

/-- The LBA range lies in the namespace. -/
def Namespace.holds (n : Namespace) (slba nlb : Nat) : Bool := slba + nlb ≤ n.blocks

/-- Some block of the range fails every read until it is written (R417). -/
def Mm.anyBad (m : Mm) (nsid slba nlb : Nat) : Bool :=
  m.badBlocks.any (fun x => x.1 == nsid && slba ≤ x.2 && x.2 < slba + nlb)

/-! ## Changing the map (R195, R197, R198) -/

/-- Snapshots that need a pool copy of the page before a change committed at `c`. -/
def Mm.needsCopy (m : Mm) (snaps : List Nat) (p c : Nat) : Bool :=
  snaps.any (fun e => (m.page p).stamp ≤ e && e < c)

/-- How many pool copies a change of these units at `c` needs. -/
def Mm.copiesNeeded (m : Mm) (snaps : List Nat) (units : List Nat) (c : Nat) : Nat :=
  ((units.map pageOf).dedup.filter (fun p => m.needsCopy snaps p c)).length

/-- A change of these units at `c` finds its pool copies (R199). -/
def Mm.poolRoom (m : Mm) (snaps : List Nat) (units : List Nat) (c : Nat) : Bool :=
  decide (m.pool.length + m.copiesNeeded snaps units c ≤ poolCopies)

/-- Keep a page as it stands before a change committed at `c`: in the pool for a live snapshot (R198), and, for a job that
is still to be admitted in this beat, until the beat ends (R197). -/
def Mm.copyPage (m : Mm) (snaps : List Nat) (p c : Nat) : Mm :=
  let g := m.page p
  let m1 := if m.needsCopy snaps p c then
      { m with pool := m.pool ++ [{ page := p, lo := g.stamp, hi := c - 1, units := g.units }] }
    else m
  if g.stamp < c && (m.beatOld.find p).isNone then { m1 with beatOld := m1.beatOld.put p g } else m1

/-- A page the pool or the beat keeps holds the index entry. -/
def Mm.entryKept (m : Mm) (p i : Nat) : Bool :=
  m.pool.any (fun c => c.page == p && c.units.any (fun e => e.2 == .merged i))
    || ((m.beatOld.find p).map (fun q => q.units.any (fun e => e.2 == .merged i))).getD false

/-- Set a unit's location by a change committed at `c`; an index entry that nothing holds any more is free again. -/
def Mm.setLoc (m : Mm) (snaps : List Nat) (c u : Nat) (l : UnitLoc) : Mm :=
  let p := pageOf u
  let old := m.locOf u
  let m1 := m.copyPage snaps p c
  let g := m1.page p
  let m2 := { m1 with
    pages := m1.pages.put p
      { stamp := c, dirty := true, units := match l with
          | .unmapped => g.units.del u
          | l => g.units.put u l }
    mediumEpoch := max m1.mediumEpoch c }
  match old with
  | .merged i => if m2.entryKept p i then m2 else { m2 with index := m2.index.del i }
  | _ => m2

/-- The lowest number not in a rising list. -/
def lowestFree : List Nat → Nat → Nat
  | [], n => n
  | k :: ks, n => if k = n then lowestFree ks (n + 1) else n

/-- Landed blocks over a unit (R191): one landing index entry, over the unit's previous location. -/
def Mm.mergeBlocks (m : Mm) (snaps : List Nat) (c u : Nat) (bs : List (Nat × Nat)) : Mm :=
  let e : IdxEntry := match m.locOf u with
    | .merged i => m.index.findD i { prev := .unmapped, blocks := List.replicate 8 none }
    | l => { prev := l, blocks := List.replicate 8 none }
  let n := lowestFree m.index.keys 0
  { m with index := m.index.put n { e with blocks := bs.foldl (fun l (x : Nat × Nat) => l.set x.1 (some x.2)) e.blocks } }.setLoc snaps c u
    (.merged n)

/-- Apply a change to a unit. -/
def Mm.changeUnit (m : Mm) (snaps : List Nat) (c u : Nat) (ch : UnitChange) : Mm :=
  match ch with
  | .whole l => m.setLoc snaps c u l
  | .part bs => m.mergeBlocks snaps c u bs

/-- A committed change: applied, and on the medium for the next replay (R195). -/
def Mm.commitChange (m : Mm) (snaps : List Nat) (c u : Nat) (ch : UnitChange) : Mm :=
  let m1 := m.changeUnit snaps c u ch
  { m1 with since := m1.since ++ [.commit u c ch] }

/-- Put `f` of a location where a unit has location `old`, in the live map and in the copies kept of it. -/
def swapLoc (u : Nat) (old new : UnitLoc) (us : KMap UnitLoc) : KMap UnitLoc :=
  if us.find u = some old then us.put u new else us

/-- A unit's location turns from `old` to BULK, in the live map, in pool copies and in what the beat keeps: no stamp changes
and no copy is made (R199). -/
def Mm.foldLoc (m : Mm) (u : Nat) (old : UnitLoc) (l : Nat) : Mm :=
  { m with
    pages := m.pages.adjust (pageOf u) (fun p =>
      if p.units.find u = some old then { p with units := p.units.put u (.bulk l), dirty := true } else p)
    pool := m.pool.map (fun c => { c with units := swapLoc u old (.bulk l) c.units })
    beatOld := m.beatOld.mapVals (fun _ p => { p with units := swapLoc u old (.bulk l) p.units })
    since := if m.locOf u = old then m.since ++ [.folded u l] else m.since }

/-- A location with its bulk place moved. -/
def UnitLoc.move (f : Nat → Nat) : UnitLoc → UnitLoc
  | .bulk a => .bulk (f a)
  | l => l

/-- Move what lies at bulk places: live map, pool copies, index entries and what the beat keeps; no stamp changes and no copy
is made (R199). -/
def Mm.mapLocs (m : Mm) (f : Nat → Nat) : Mm :=
  { m with
    pages := m.pages.mapVals (fun _ g =>
      let us := g.units.mapVals (fun _ l => l.move f)
      { g with units := us, dirty := g.dirty || us != g.units })
    pool := m.pool.map (fun c => { c with units := c.units.mapVals (fun _ l => l.move f) })
    beatOld := m.beatOld.mapVals (fun _ g => { g with units := g.units.mapVals (fun _ l => l.move f) })
    index := m.index.mapVals (fun _ e => { e with prev := e.prev.move f }) }

/-- Apply what the medium tells replay. -/
def Mm.replayChange (m : Mm) (x : MapChange) : Mm :=
  match x with
  | .commit u c ch => m.changeUnit [] c u ch
  | .folded u l => m.foldLoc u (m.locOf u) l
  | .moved a b => m.mapLocs (fun x => if x = a then b else x)

/-- The map as replay rebuilds it (R195): the newest checkpointed copy of each page, then every later change and journal
record. -/
def Mm.replayMap (m : Mm) : Mm :=
  let m1 := m.since.foldl Mm.replayChange { m with pages := m.ckpt, index := m.ckptIndex, pool := [], beatOld := [] }
  { m1 with pool := [], beatOld := [], since := m.since }

/-- At a boundary: what the beat kept of pages goes to the pool for the jobs admitted in it, and is dropped otherwise. -/
def Mm.endBeat (m : Mm) (snaps : List Nat) : Mm :=
  let keep := m.beatOld.filter (fun x => snaps.any (fun e =>
    x.2.stamp ≤ e && e < (m.page x.1).stamp && (m.copyAt x.1 e).isNone))
  { m with
    pool := m.pool ++ keep.map (fun x => { page := x.1, lo := x.2.stamp, hi := (m.page x.1).stamp - 1, units := x.2.units })
    beatOld := [] }

/-- Free the pool copies in whose range no live snapshot lies (R199). -/
def Mm.trimPool (m : Mm) (snaps : List Nat) : Mm :=
  { m with pool := m.pool.filter (fun c => snaps.any (fun e => c.lo ≤ e && e ≤ c.hi)) }

/-- MM_SNAP_FLOOR (R197). -/
def snapFloor (snaps : List Nat) (epoch : Nat) : Nat := snaps.foldl min epoch

/-! ## Bulk locations, groups and blocks (R176, R177, R190) -/

/-- LOCATION of a bulk unit. -/
def bulkLoc (channel die block slot : Nat) : Nat := channel * 2 ^ 29 + die * 2 ^ 24 + block * 2 ^ 9 + slot

def locChannel (l : Nat) : Nat := bitsN l 35 29
def locDie (l : Nat) : Nat := bitsN l 28 24
def locBlock (l : Nat) : Nat := bitsN l 23 9
def locSlot (l : Nat) : Nat := bitsN l 8 0

/-- Parity group of a bulk die on a channel (R177). -/
def groupOf (channel die : Nat) : Nat := 8 * (die - 6) + channel % 8

/-- Landing set of a landing die on a channel (R178). -/
def setOf (channel die : Nat) : Nat := 8 * (die - 4) + channel % 8

/-- Location of slot `j` of member `i` of a group: its channel is i-th of the group's sixteen. -/
def memberLoc (g b r i j : Nat) : Nat := bulkLoc (g % 8 + 8 * i) (6 + g / 8) b (8 * r + j)

/-- Location of unit `i` of the row numbered `r` in block `b` of group `g`: row r's parity is on member r mod 16. -/
def rowLoc (g b r i : Nat) : Nat := memberLoc g b r (if i / 8 < r % 16 then i / 8 else i / 8 + 1) (i % 8)

/-- A block's key in the block table. -/
def blockKey (channel die block : Nat) : Nat := (channel * 32 + die) * 2 ^ 15 + block

/-- The sixteen members' blocks `b` of group `g`. -/
def memberKeys (g b : Nat) : List Nat := (List.range 16).map (fun i => blockKey (g % 8 + 8 * i) (6 + g / 8) b)

/-- The key that stands for block `b` of group `g`: member 0's. -/
def groupKey (g b : Nat) : Nat := blockKey (g % 8) (6 + g / 8) b

def FlashBlock.blank : FlashBlock :=
  { erases := 0, hint := 0, retired := false, rows := 0, loops := 0, programs := 0, refreshes := 0 }

def Mm.blk (m : Mm) (k : Nat) : FlashBlock := m.blocks.findD k FlashBlock.blank

def Mm.onBlk (m : Mm) (k : Nat) (f : FlashBlock → FlashBlock) : Mm := { m with blocks := m.blocks.put k (f (m.blk k)) }

def Mm.onBlks (m : Mm) (ks : List Nat) (f : FlashBlock → FlashBlock) : Mm := ks.foldl (fun m k => m.onBlk k f) m

/-- Erase a block: its erase count advances, its hint returns to step 0 (R209). -/
def FlashBlock.erase (b : FlashBlock) : FlashBlock := { b with erases := b.erases + 1, hint := 0, rows := 0 }

/-- Note the verify loops of a program on each of these blocks: a free count, from 1 to the die mode's limit (R176), and a
sample of it for the pool (R216) (assumption entry 58). -/
def Mm.noteLoops (m : Mm) (ks : List Nat) (pool limit : Nat) : Mm :=
  let n := 1 + Config.programLoops m.mediaWritten % limit
  { m.onBlks ks (fun b => { b with loops := b.loops + n, programs := b.programs + 1 }) with
    loops := m.loops ++ [{ at_ := m.clockNs, pool := pool, value := n }] }

/-- Blocks of a group that the block table lists. -/
def Mm.groupBlocks (m : Mm) (g : Nat) : List Nat :=
  (m.blocks.keys.filter (fun k => k / 2 ^ 15 == 32 * (g % 8) + (6 + g / 8))).map (fun k => k % 2 ^ 15)

/-! ## Landing (R178, R183, R185) -/

/-- The landing set of a stripe slot: the sets take turns (assumption entry 8). -/
def stripeSet (k : Nat) : Nat := k % 16

/-- A die of landing set `n`, member `i` (R178): the channel and the die. -/
def setDie (n i : Nat) : Nat × Nat := (n % 8 + 8 * i, 4 + n / 8)

/-- The five program units of the stripe in slot `k`, the parity unit last: channel, die, block and wordline. Successive
stripes of a set take the next five of its dies (R178). -/
def stripeUnits (k : Nat) : List (Nat × Nat × Nat × Nat) :=
  (List.range 5).map (fun j =>
    let u := 5 * (k / 16) + j
    let d := setDie (stripeSet k) (u % 16)
    (d.1, d.2, u / 16 / 64, u / 16 % 64))

/-- The blocks a stripe's five units lie in. -/
def stripeBlocks (k : Nat) : List Nat := ((stripeUnits k).map (fun u => blockKey u.1 u.2.1 u.2.2.1)).dedup

/-- Landing stripe slots free. -/
def Mm.landingFree (m : Mm) : Nat := m.landingSlots - m.stripes.length

/-- Below 1 % free: new writes wait. -/
def Mm.landingLow (m : Mm) : Bool := decide (m.landingFree = 0 ∨ m.landingFree * 100 < m.landingSlots)

/-- Below 1 % free, or no free index entry (MM_STATUS.LANDING_FULL). -/
def Mm.landingFull (m : Mm) : Bool := m.landingLow || decide (idxEntries ≤ m.index.length)

/-- MM_LANDING.FILL. -/
def Mm.fillPermille (m : Mm) : Nat := if m.landingSlots = 0 then 1000 else m.stripes.length * 1000 / m.landingSlots

/-- Pacing of R185 in force: free space per mille below PACE_AT, which acts as 10 when lower. -/
def Mm.paceDue (m : Mm) : Bool := decide (m.landingFree = 0 ∨ m.landingFree * 1000 < max 10 (bitsW m.landingCfg 9 0) * m.landingSlots)

/-- Follow PACED and its event (R185). -/
def Mm.repace (m : Mm) : Mm :=
  if m.paceDue then (if m.paced then m else { m with paced := true, event := setEv m.event 0 })
  else { m with paced := false }

/-- Landing data addresses of block `j` of each of the four data units of slot `k`. -/
def rowAddrs (k j : Nat) : List Nat := (List.range 4).map (fun u => 64 * k + 16 * u + j)

/-- The parity unit of the stripe in slot `k`: block by block the XOR of the four data units (R178). -/
def Mm.stripeParity (m : Mm) (k : Nat) : List (List Byte) :=
  (List.range 16).map (fun j => xorAll ((rowAddrs k j).map (fun a => (m.landing.findD a MediumBlock.blank).data)))

/-- Close the open stripe (R183): its units, parity included, are programmed. -/
def Mm.closeStripe (m : Mm) : Mm :=
  match m.openStripe with
  | none => m
  | some k =>
    let m1 : Mm := { m with
      stripes := m.stripes.adjust k (fun x => { x with closed := true, parity := m.stripeParity k })
      openStripe := none }
    let m2 := (m1.onBlks (stripeBlocks k) (fun b => { b with rows := b.rows + 1 })).noteLoops (stripeBlocks k) (256 + stripeSet k)
      modeSlc.loopLimit
    { m2 with mediaWritten := m2.mediaWritten + 80 }

/-- The lowest slot from `n` that holds no stripe and whose set is in service; `fuel` bounds the search. -/
def Mm.freeSlot (m : Mm) : Nat → Nat → Nat
  | 0, n => n
  | f + 1, n => if (m.stripes.find n).isSome || m.outSets.contains (stripeSet n) then m.freeSlot f (n + 1) else n

/-- Open a stripe in the lowest free slot. -/
def Mm.openNew (m : Mm) : Mm :=
  let k := m.freeSlot (16 * (m.stripes.length + 1)) 0
  { m with
    stripes := m.stripes.put k
      { used := 0, seq := m.nextStripe, pages := [], closed := false, verified := false, parity := [], due := false }
    openStripe := some k
    nextStripe := m.nextStripe + 1 }.repace

/-- Units that lie whole in [slba, slba + n): the first, and how many. -/
def wholeUnits (slba n : Nat) : Nat × Nat := (ceilDiv slba 8, (slba + n) / 8 - ceilDiv slba 8)

/-- Blocks of landing data a piece takes: its blocks, or the zero blocks of the units it covers in part. -/
def Piece.size (p : Piece) : Nat :=
  if p.zeros = 0 then p.blocks.length else p.zeros - 8 * (wholeUnits p.slba p.zeros).2

/-- The blocks of [slba, slba + n) that lie in units covered in part. -/
def partBlocks (slba n : Nat) : List Nat :=
  let w := wholeUnits slba n
  if w.2 = 0 then (List.range n).map (fun i => slba + i)
  else (List.range (8 * w.1 - slba)).map (fun i => slba + i)
    ++ (List.range (slba + n - 8 * (w.1 + w.2))).map (fun i => 8 * (w.1 + w.2) + i)

/-- Blocks a piece covers. -/
def Piece.length (p : Piece) : Nat := max p.blocks.length p.zeros

/-- What a piece puts into landing, in order: the LBA and the data of each block. -/
def Piece.landed (p : Piece) : List (Nat × List Byte) :=
  if p.zeros = 0 then p.blocks.zipIdx.map (fun x => (p.slba + x.2, x.1)) else (partBlocks p.slba p.zeros).map (fun l => (l, []))

/-- Landing data address of block `i` of a placed piece. -/
def Piece.addr (p : Piece) (i : Nat) : Nat := 64 * p.stripe.getD 0 + p.off + i

/-- Store a placed piece's blocks in its stripe, with their metadata (R179). -/
def Mm.fillStripe (m : Mm) (n : Namespace) (epoch : Nat) (p : Piece) : Mm :=
  let seq := ((p.stripe.bind m.stripes.find).map Stripe.seq).getD 0
  { m with landing := p.landed.zipIdx.foldl (fun l x =>
      l.put (p.addr x.2)
        { data := trimZ x.1.2, key := n.key
          info := { unit := n.unit (x.1.1 / 8), index := x.1.1 % 8, seq := seq, epoch := epoch, piece := p.num } }) m.landing }

/-- Put a piece into exactly one stripe (R183): the open one when it fits, else a new one; a full stripe closes. -/
def Mm.placePiece (m : Mm) (n : Namespace) (p : Piece) : Mm × Piece :=
  let m1 := match m.openStripe with
    | none => m.openNew
    | some k =>
      if ((m.stripes.find k).map Stripe.used).getD 64 + p.size ≤ 64 then m else m.closeStripe.openNew
  match m1.openStripe with
  | none => (m1, p)
  | some k =>
    let used := ((m1.stripes.find k).map Stripe.used).getD 0
    let q : Piece := { p with stripe := some k, off := used }
    let m2 := { m1 with stripes := m1.stripes.adjust k (fun x => { x with used := x.used + p.size }) }.fillStripe n (m.epoch + 1) q
    (if used + p.size = 64 then m2.closeStripe else m2, q)

/-- Place pieces in order. -/
def Mm.placePieces (m : Mm) (n : Namespace) : List Piece → Mm × List Piece
  | [] => (m, [])
  | p :: ps =>
    let r := m.placePiece n p
    let q := r.1.placePieces n ps
    (q.1, r.2 :: q.2)

/-- Cut a write into pieces of 256 KiB counted from its starting LBA (R183), numbered from `num`; `fuel` bounds them. -/
def cutPieces : Nat → Nat → Nat → List (List Byte) → List Piece
  | 0, _, _, _ => []
  | f + 1, num, slba, bs =>
    if bs.isEmpty then []
    else { num := num, slba := slba, blocks := bs.take 64, zeros := 0, stripe := none, off := 0, onMedium := false }
      :: cutPieces f (num + 1) (slba + 64) (bs.drop 64)

/-- Pieces of zeros or deallocation. -/
def cutZeros : Nat → Nat → Nat → Nat → List Piece
  | 0, _, _, _ => []
  | f + 1, num, slba, n =>
    if n = 0 then []
    else { num := num, slba := slba, blocks := [], zeros := min n 64, stripe := none, off := 0, onMedium := false }
      :: cutZeros f (num + 1) (slba + 64) (n - 64)

/-- The units a range of blocks touches, by their number in the namespace. -/
def unitSpan (slba n : Nat) : List Nat :=
  (List.range (if n = 0 then 0 else (slba + n - 1) / 8 - slba / 8 + 1)).map (fun i => slba / 8 + i)

/-- What a piece makes of unit `u` of its namespace (R191, R192): a unit covered whole becomes LANDING, or UNMAPPED by
zeros; of another one, the blocks covered are landed. -/
def Piece.changeOf (p : Piece) (u : Nat) : UnitChange :=
  let mine := p.landed.zipIdx.filter (fun x => x.1.1 / 8 == u)
  if decide (p.slba ≤ 8 * u) && decide (8 * u + 8 ≤ p.slba + p.length) then
    (if p.zeros = 0 then .whole (.landing (p.addr (8 * u - p.slba))) else .whole .unmapped)
  else .part (mine.map (fun x => (x.1.1 % 8, p.addr x.2)))

/-- The commit epoch in the metadata of a piece's blocks. -/
def Mm.stampPiece (m : Mm) (c : Nat) (p : Piece) : Mm :=
  { m with landing := (List.range p.landed.length).foldl (fun l i =>
      l.adjust (p.addr i) (fun b => { b with info := { b.info with epoch := c } })) m.landing }

/-- A block that was written is readable again (R417). -/
def Mm.clearBad (m : Mm) (nsid slba n : Nat) : Mm :=
  { m with badBlocks := m.badBlocks.filter (fun x => !(x.1 == nsid && slba ≤ x.2 && x.2 < slba + n)) }

/-- Apply a piece on the medium, data or zeros, by a change committed at `c`. -/
def Mm.applyPiece (m : Mm) (nsid : Nat) (n : Namespace) (snaps : List Nat) (c : Nat) (p : Piece) : Mm :=
  let m1 := match p.stripe with
    | none => m
    | some k => { m.stampPiece c p with stripes := m.stripes.adjust k (fun x =>
        { x with pages := (x.pages ++ (unitSpan p.slba p.length).map (fun u => pageOf (n.unit u))).dedup }) }
  ((unitSpan p.slba p.length).foldl (fun m u => m.commitChange snaps c (n.unit u) (p.changeOf u)) m1).clearBad nsid p.slba p.length

/-- The mapped units of a namespace. -/
def Mm.mappedUnits (m : Mm) (n : Namespace) : List Nat :=
  (m.pages.filter (fun x => n.granules.contains (x.1 / 8))).flatMap (fun x => x.2.units.keys)

/-- Every unit of a namespace becomes UNMAPPED (R315), as a change of this beat (R198): none of its blocks is unreadable any
more. -/
def Mm.emptyNs (m : Mm) (snaps : List Nat) (nsid : Nat) : Mm :=
  match m.namespaces.find nsid with
  | none => m
  | some n =>
    let m1 := (m.mappedUnits n).foldl (fun m u => m.commitChange snaps (m.epoch + 1) u (.whole .unmapped)) m
    { m1 with badBlocks := m1.badBlocks.filter (fun b => b.1 != nsid) }

/-- A new key pair for a namespace (R461, R463). -/
def Mm.rekey (m : Mm) (nsid : Nat) : Mm :=
  { m with namespaces := m.namespaces.adjust nsid (fun n => { n with key := m.nextKey }), nextKey := m.nextKey + 1 }

/-- The global units a range of blocks touches. -/
def Namespace.unitsOf (n : Namespace) (slba nlb : Nat) : List Nat := (unitSpan slba nlb).map n.unit

/-! ## What lies where -/

/-- Landing addresses a location uses. -/
def Mm.addrsOf (m : Mm) (l : UnitLoc) : List Nat :=
  match l with
  | .landing a => (List.range 8).map (fun i => a + i)
  | .merged i =>
    match m.index.find i with
    | none => []
    | some e => e.blocks.filterMap id ++ (match e.prev with
      | .landing a => (List.range 8).map (fun i => a + i)
      | _ => [])
  | _ => []

/-- Every location in the live map, in the pool and in what the beat keeps. -/
def Mm.allLocs (m : Mm) : List UnitLoc :=
  (m.pages.vals.flatMap (fun p => p.units.vals)) ++ (m.pool.flatMap (fun c => c.units.vals))
    ++ (m.beatOld.vals.flatMap (fun p => p.units.vals))

/-- The bulk place of a location, or under its merged blocks, by a landing index. -/
def placeIn (ix : KMap IdxEntry) (l : UnitLoc) : Option Nat :=
  match l with
  | .bulk a => some a
  | .merged i => match (ix.find i).map IdxEntry.prev with
    | some (.bulk a) => some a
    | _ => none
  | _ => none

/-- Bulk places some unit lies at, in the live map or a copy kept of it. -/
def Mm.bulkRefs (m : Mm) : List Nat := m.allLocs.filterMap (placeIn m.index)

/-- Bulk places the checkpointed map pages of either generation point to. -/
def Mm.ckptRefs (m : Mm) : List Nat :=
  ((m.ckpt.vals ++ m.ckptOld.vals).flatMap (fun p => p.units.vals)).filterMap (placeIn m.ckptIndex)

/-- Valid units in a place (R201). -/
def Mm.validIn (m : Mm) (p : Nat → Bool) : Nat := (m.bulkRefs.filter p).dedup.length

/-- Some unit lies in a place `p` holds. -/
def Mm.occupied (m : Mm) (p : Nat → Bool) : Bool := m.bulkRefs.any p

/-- Locations in block `b` of group `g`. -/
def inGroupBlock (g b l : Nat) : Bool := groupOf (locChannel l) (locDie l) == g && locBlock l == b

/-! ## Release and erase (R186, R194) -/

/-- Release index entries that nothing points to, and landing stripes that are verified, that nothing points into, and
whose pages have been checkpointed (R186); release held landing blocks with them, and erase a landing block whose last stripe
left it. -/
def Mm.releaseLanding (m : Mm) : Mm :=
  let locs := m.allLocs
  let usedIdx := locs.filterMap (fun l => match l with | .merged i => some i | _ => none)
  let m1 := { m with index := m.index.filter (fun e => usedIdx.contains e.1) }
  let used := (locs.flatMap m1.addrsOf).map (fun a => a / 64)
  let gone := (m1.stripes.filter (fun x => x.2.closed && x.2.verified && !used.contains x.1
    && x.2.pages.all (fun p => !(m1.page p).dirty))).map Prod.fst
  let left : KMap Stripe := m1.stripes.filter (fun x => !gone.contains x.1)
  let busy := left.keys.flatMap stripeBlocks
  { m1.onBlks ((gone.flatMap stripeBlocks).dedup.filter (fun k => !busy.contains k)) FlashBlock.erase with
    stripes := left
    landing := m1.landing.filter (fun e => !gone.contains (e.1 / 64)) }.repace

/-- The group block that a block-table key names waits for its erase and may have it: nothing points into it (R194). A read
takes its data at one command, so none is in progress here (assumption entry 9). -/
def Mm.erasable (m : Mm) (g b : Nat) : Bool :=
  !m.occupied (inGroupBlock g b) && !m.ckptRefs.any (inGroupBlock g b)

/-- The group and block of a member's key. -/
def keyGroup (k : Nat) : Nat := groupOf (k / 2 ^ 20) (k / 2 ^ 15 % 32)
def keyBlock (k : Nat) : Nat := k % 2 ^ 15

/-- Erase the group blocks that wait for it and may have it. -/
def Mm.eraseDue (m : Mm) : Mm :=
  let go := m.eraseQ.filter (fun k => m.erasable (keyGroup k) (keyBlock k))
  { m.onBlks (go.flatMap (fun k => memberKeys (keyGroup k) (keyBlock k))) FlashBlock.erase with
    eraseQ := m.eraseQ.filter (fun k => !go.contains k)
    bulk := m.bulk.filter (fun e => !go.any (fun k => inGroupBlock (keyGroup k) (keyBlock k) e.1)) }

/-- A checkpoint (R195): every changed page and the journal go to the checkpoint area, 80 blocks of landing stripe for each
64 blocks of map; the copies before become the other generation. -/
def Mm.checkpoint (m : Mm) : Mm :=
  let n := (m.pages.filter (fun x => x.2.dirty)).length
  let ps := m.pages.mapVals (fun _ p => { p with dirty := false })
  ({ m with
    pages := ps, ckptOld := m.ckpt, ckpt := ps, ckptIndex := m.index, since := []
    mediaWritten := m.mediaWritten + 80 * ceilDiv (5 * n) 64 } : Mm).releaseLanding.eraseDue

/-! ## Rows (R177, R186, R201) -/

/-- A unit's eight blocks as a program into bulk carries them (R179). -/
def Mm.unitBlocks (m : Mm) (u : Nat) (l : UnitLoc) : List MediumBlock :=
  let key := (m.landing.findD (((m.addrsOf l).head?).getD 0) MediumBlock.blank).key
  (List.range 8).map (fun i =>
    let b := m.mediumAt l i
    { b with key := key, info := { b.info with unit := u, index := i } })

/-- The parity a row's parity member holds in slot `j` (R177): block by block the XOR of the other members' slots. -/
def rowParity (seq : Nat) (us : List (List MediumBlock)) (j : Nat) : List MediumBlock :=
  let mine := (us.zipIdx.filter (fun x => x.2 % 8 == j)).map Prod.fst
  (List.range 8).map (fun t =>
    { data := xorAll (mine.map (fun u => (u.getD t MediumBlock.blank).data)), key := 0
      info := { BlockMeta.none with index := t, seq := seq } })

/-- Program the next row of block `b` of group `g` (R177): up to 120 units in order, and their parity. -/
def Mm.programRow (m : Mm) (g b : Nat) (us : List (List MediumBlock)) : Mm :=
  let r := (m.blk (groupKey g b)).rows
  let units := us.take 120
  let seq : List MediumBlock → List MediumBlock := fun l => l.map (fun x => { x with info := { x.info with seq := m.nextRow } })
  let put := (units.zipIdx).foldl (fun k x => k.put (rowLoc g b r x.2) (seq x.1)) m.bulk
  let par := (List.range 8).foldl (fun k j => k.put (memberLoc g b r (r % 16) j) (rowParity m.nextRow units j)) put
  ({ m with bulk := par, nextRow := m.nextRow + 1 }.onBlks (memberKeys g b) (fun x => { x with rows := x.rows + 1 })).noteLoops
    (memberKeys g b) g modeQlc.loopLimit |> fun m => { m with mediaWritten := m.mediaWritten + 1024 }

/-- A landed location. -/
def UnitLoc.isLanded : UnitLoc → Bool
  | .landing _ => true
  | .merged _ => true
  | _ => false

/-- The landed locations of a unit: in the live map, and older ones that only copies of it hold (R199). -/
def Mm.landedOf (m : Mm) (u : Nat) : List UnitLoc :=
  ((m.locOf u :: (m.pool.filterMap (fun c => c.units.find u) ++ m.beatOld.vals.filterMap (fun p => p.units.find u))).filter
    UnitLoc.isLanded).dedup

/-- The units with landed data. -/
def Mm.landedUnits (m : Mm) : List Nat :=
  (((m.pages.vals.map MapPage.units) ++ (m.pool.map PoolCopy.units) ++ (m.beatOld.vals.map MapPage.units)).flatMap (fun us : KMap UnitLoc =>
    (us.filter (fun e => e.2.isLanded)).map Prod.fst)).dedup

/-- The age of a stripe: its number, or none when a refresh asks for its fold (R205). -/
def Stripe.age (x : Stripe) : Nat := if x.due then 0 else x.seq + 1

/-- The age of a unit's oldest landed data. -/
def Mm.unitAge (m : Mm) (u : Nat) : Nat :=
  (((m.landedOf u).flatMap m.addrsOf).filterMap (fun a => (m.stripes.find (a / 64)).map Stripe.age)).foldl min m.nextStripe

/-- A row of fold holds 120 of the landed units, or all of them when there are fewer, oldest stripe first (R186). -/
def Mm.isFoldRow (m : Mm) (us : List Nat) : Bool :=
  let all := m.landedUnits
  decide us.Nodup && us.all all.contains && us.length == min 120 all.length && us.length != 0
    && us.all (fun u => all.all (fun v => us.contains v || m.unitAge u ≤ m.unitAge v))

/-- Fold units into the next row of block `b` of group `g` (R186): each landed location's newest eight blocks, with its map
entries turned to BULK. -/
def Mm.foldUnits (m : Mm) (g b : Nat) (us : List Nat) : Mm :=
  let r := (m.blk (groupKey g b)).rows
  let items := (us.flatMap (fun u => (m.landedOf u).map (fun l => (u, l)))).take 120
  (items.zipIdx.foldl (fun m x => m.foldLoc x.1.1 x.1.2 (rowLoc g b r x.2))
    (m.programRow g b (items.map (fun x => m.unitBlocks x.1 x.2)))).releaseLanding

/-- The valid units of block `src`, rewritten in rows of block `dst`; `src` then waits for its erase (R194, R201). -/
def Mm.moveUnits (m : Mm) (g src dst : Nat) : Mm :=
  let locs := (m.bulkRefs.filter (inGroupBlock g src)).dedup
  let r := (m.blk (groupKey g dst)).rows
  let place : Nat → Nat := fun i => rowLoc g dst (r + i / 120) (i % 120)
  let m1 := (List.range (ceilDiv locs.length 120)).foldl (fun m i =>
    m.programRow g dst (((locs.drop (120 * i)).take 120).map (fun l => m.bulk.findD l []))) m
  let m2 := m1.mapLocs (fun l => if locs.contains l then place (locs.idxOf l) else l)
  { m2 with
    since := m2.since ++ locs.zipIdx.map (fun x => .moved x.1 (place x.2))
    eraseQ := m2.eraseQ ++ [groupKey g src] }

/-- Block `b` of group `g` takes part in capacity and can be programmed. -/
def Mm.usable (m : Mm) (g b : Nat) : Bool :=
  b < bulkPlaces && !m.roGroups.contains g && !(memberKeys g b).any (fun k => (m.blk k).retired) && !m.eraseQ.contains (groupKey g b)

/-- A free block: erased, with nothing pointing into it. -/
def Mm.freeBlock (m : Mm) (g b : Nat) : Bool :=
  m.usable g b && (m.blk (groupKey g b)).rows == 0 && !m.occupied (inGroupBlock g b)

/-- Block `dst` has rows left for the valid units of `src`. -/
def Mm.takesUnits (m : Mm) (g src dst : Nat) : Bool :=
  src != dst && m.usable g dst && decide ((m.blk (groupKey g dst)).rows + ceilDiv (m.validIn (inGroupBlock g src)) 120 ≤ 64)

/-- The lowest free block of a group among those the block table lists and one past them. -/
def Mm.freeOf (m : Mm) (g : Nat) : Option Nat :=
  let known := m.groupBlocks g
  (known ++ [lowestFree known 0]).find? (m.freeBlock g)

/-! ## Spares (R181, R200, R211 to R213) -/

/-- The spare pool of a die's block: group g, 256 + landing set, or 512 + the far die. -/
def spareKey (channel die : Nat) : Nat :=
  if 6 ≤ die then groupOf channel die else if 4 ≤ die then 256 + setOf channel die else 512 + channel * 4 + die

/-- Spares of a pool at manufacture. -/
def spareFull (k : Nat) : Nat := if k < 256 then 16384 else if k < 512 then 4096 else 256

def Mm.spare (m : Mm) (k : Nat) : Nat := m.spares.findD k (spareFull k)

/-- Fewest free spares of any parity group, and that group (MM_SPARE_MIN). -/
def Mm.spareMin (m : Mm) : Nat × Nat :=
  (List.range 208).foldl (fun b g => if m.spare g < b.1 then (m.spare g, g) else b) (m.spare 0, 0)

/-- SPARE_LOW threshold of a pool: 5,243 for a group, 1,311 for a landing set; far-tier dies have none. -/
def spareLowAt (k : Nat) : Nat := if k < 256 then 5243 else if k < 512 then 1311 else 0

/-- A plain location lies in a group. -/
def locInGroup (g : Nat) (l : UnitLoc) : Bool :=
  match l with
  | .bulk a => groupOf (locChannel a) (locDie a) == g
  | _ => false

/-- A location, or the previous location under a merged one, lies in a group. -/
def Mm.unitInGroup (m : Mm) (g : Nat) (l : UnitLoc) : Bool :=
  match l with
  | .merged i => ((m.index.find i).map (fun x => locInGroup g x.prev)).getD false
  | l => locInGroup g l

/-- A namespace has units in a group: BULK there, or MERGED over a previous location there (R212). -/
def Mm.hasUnitsIn (m : Mm) (n : Namespace) (g : Nat) : Bool :=
  m.pages.any (fun p => p.2.units.any (fun e =>
    n.granules.contains (e.1 / granuleUnits) && m.unitInGroup g e.2))

/-- MM_STATUS.SPARE_LOW: a group or landing set is below its threshold. -/
def Mm.spareLowNow (m : Mm) : Bool := m.replayed && m.spares.any (fun e => e.2 < spareLowAt e.1)

/-- MM_STATUS.READ_ONLY and Critical Warning bit 3: a namespace is read-only (R212). -/
def Mm.anyReadOnly (m : Mm) : Bool := m.replayed && m.namespaces.any (fun e => e.2.readOnly)

/-- Make the namespaces `p` chooses read-only, with the event when one becomes so. -/
def Mm.makeReadOnly (m : Mm) (p : Namespace → Bool) : Mm :=
  { m with
    namespaces := m.namespaces.mapVals (fun _ n => { n with readOnly := n.readOnly || p n })
    event := if m.namespaces.any (fun e => !e.2.readOnly && p e.2) then setEv m.event 5 else m.event }

/-- Make a group read-only (R211 stage 4). -/
def Mm.groupReadOnly (m : Mm) (g : Nat) : Mm :=
  { m with roGroups := if m.roGroups.contains g then m.roGroups else m.roGroups ++ [g] }.makeReadOnly (fun n => m.hasUnitsIn n g)

/-- Take a landing set out of service; below 8 sets every namespace is read-only (R213). -/
def Mm.setOut (m : Mm) (k : Nat) : Mm :=
  let m1 : Mm := { m with outSets := if m.outSets.contains k then m.outSets else m.outSets ++ [k] }
  (if 16 - m1.outSets.length < 8 then m1.makeReadOnly (fun _ => true) else m1).repace

/-- The spare blocks of a die, as keys: those above its places (R176, R200). -/
def dieSpares (channel die : Nat) : List Nat :=
  if 6 ≤ die then (List.range 1024).map (fun i => blockKey channel die (bulkPlaces + i))
  else (List.range 256).map (fun i => blockKey channel die (16384 + i))

/-- The spare block that takes a retired block's place: the lowest unused one of the same die, or, in a parity group or
landing set whose die has none left, of another member's (assumption entry 8). -/
def Mm.spareFor (m : Mm) (channel die : Nat) : Option Nat :=
  let used := m.remap.vals
  let free : List Nat → Option Nat := fun l => l.find? (fun k => !used.contains k)
  match free (dieSpares channel die) with
  | some k => some k
  | none =>
    if die < 4 then none
    else (List.range 16).findSome? (fun i => free (dieSpares (channel % 8 + 8 * i) die))

/-- Retire a block (R181): a spare block of its pool takes its place in capacity, one spare fewer and one retired more;
without a spare the group goes read-only, or the landing set leaves service (R211, R213). -/
def Mm.retire (m : Mm) (channel die block : Nat) : Mm :=
  let k := spareKey channel die
  let key := blockKey channel die block
  if m.spare k = 0 then
    let m0 := m.onBlk key (fun b => { b with retired := true })
    if k < 256 then m0.groupReadOnly k else if k < 512 then m0.setOut (k - 256) else m0
  else
    let m1 : Mm := { m with
      blocks := m.blocks.put key { FlashBlock.blank with rows := (m.blk key).rows }
      remap := match m.spareFor channel die with
        | some x => m.remap.put key x
        | none => m.remap
      spares := m.spares.put k (m.spare k - 1)
      retiredCnt := m.retiredCnt.put k (m.retiredCnt.findD k 0 + 1)
      retireLog := m.retireLog ++ [{ at_ := m.clockNs, pool := k, value := 1 }] }
    if 256 ≤ k && k < 512 && m1.spare k = 0 then m1.setOut (k - 256) else m1

/-! ## Garbage collection levels (R201, R215) -/

/-- Erased blocks of a group: sixteen for each place with nothing programmed. -/
def Mm.erasedBlocks (m : Mm) (g : Nat) : Nat :=
  16 * (bulkPlaces - ((m.groupBlocks g).filter (fun b => (m.blk (groupKey g b)).rows != 0 || (m.blk (groupKey g b)).retired)).length)

def Mm.gcLow (m : Mm) : Nat := bitsW m.gcCfg 15 0

/-- GC_URGENT as it acts. -/
def Mm.gcUrgent (m : Mm) : Nat := min m.gcLow (bitsW m.gcCfg 31 16)

/-- SPREAD as it acts (R215). -/
def Mm.spread (m : Mm) : Nat := max 1 (bitsW m.wlCfg 15 0)

/-- By how much the erase counts of a group's blocks differ; a place the block table does not list was never erased. -/
def Mm.eraseSpread (m : Mm) (g : Nat) : Nat :=
  let l := (m.groupBlocks g).map (fun b => (m.blk (groupKey g b)).erases)
  l.foldl max 0 - (if l.length < bulkPlaces then 0 else l.foldl min (l.headD 0))

/-! ## Reads (R205, R208, R209) -/

/-- The offsets of the ladder's hard steps 0 to 15 on QLC and on SLC dies. -/
def ladderQlc : List Int := [0, -3, -6, 3, -9, -12, 6, -15, -18, -22, -26, 9, -30, -35, -40, -46]
def ladderSlc : List Int := [0, -4, -8, 4, -12, -16, 8, -20, -24, -30, -36, 12, -42, -48, -56, -64]

def ladder (die : Nat) : List Int := if die < 6 then ladderSlc else ladderQlc

/-- The reads a codeword takes at a die, as offsets added to every threshold's base: at its block's hint, then on failure up
the ladder, passing the step already read, to the step that decodes; step 16 reads at the best hard step and 4 units to either
side of it. Full depth is 19 reads. -/
def ladderReads (die hint step best : Nat) : List Int :=
  let hard := fun n => (ladder die).getD n 0
  let soft := [hard best, hard best - 4, hard best + 4]
  let first := if hint < 16 then [hard hint] else soft
  if step = hint then first
  else first ++ ((List.range 16).filter (fun n => n != hint && n ≤ step)).map hard ++ (if step < 16 then [] else soft)

/-- REFRESH_STEP as it acts. -/
def Mm.refreshStep (m : Mm) : Nat := max 1 (min 16 (bitsW m.scrubCfg 4 0))

/-- A read at a retry step with an error count marks its block for refresh (R205). -/
def Mm.needsRefresh (m : Mm) (step bits : Nat) : Bool :=
  m.refreshStep ≤ step || (bitsW m.scrubCfg 17 8 != 0 && bitsW m.scrubCfg 17 8 ≤ bits)

/-- Queue a block for refresh. -/
def Mm.markRefresh (m : Mm) (k : Nat) : Mm := if m.refreshQ.contains k then m else { m with refreshQ := m.refreshQ ++ [k] }

/-- The pool a block-table key belongs to. -/
def keyPool (k : Nat) : Nat := spareKey (k / 2 ^ 20) (k / 2 ^ 15 % 32)

/-- A codeword of a block decoded at a retry step with `bits` bit errors (R205, R209, R215): the block's hint, the counts, the
refresh. -/
def Mm.noteRead (m : Mm) (k step bits : Nat) : Mm :=
  let m1 := m.onBlk k (fun b => { b with hint := min 16 step })
  let m2 : Mm := { m1 with
    retryCnt := if step = 0 then m1.retryCnt else sat32 (m1.retryCnt + 1)
    retries := m1.retries ++ [{ at_ := m1.clockNs, pool := keyPool k, value := step }] }
  if m2.needsRefresh step bits then m2.markRefresh k else m2

/-! ## Boundaries -/

/-- A day in ns. -/
def dayNs : Nat := 86400000000000

/-- Age the telemetry of R216: 24 h of retry steps, 30 days of loop counts and retirements. -/
def Mm.ageSamples (m : Mm) (durNs : Nat) : Mm :=
  let t := m.clockNs + durNs
  { m with
    clockNs := t
    retries := m.retries.filter (fun x => t ≤ x.at_ + dayNs)
    loops := m.loops.filter (fun x => t ≤ x.at_ + 30 * dayNs)
    retireLog := m.retireLog.filter (fun x => t ≤ x.at_ + 30 * dayNs) }

/-! ## Temperature (R203, R206) -/

/-- Band of a board temperature in degrees. -/
def bandOf (t : Nat) : Nat := if t ≤ 55 then 0 else if t ≤ 65 then 1 else if t ≤ 72 then 2 else if t ≤ 80 then 3 else 4

/-- Band with 2 degrees of hysteresis on falling temperature. -/
def nextBand (old t : Nat) : Nat := if old ≤ bandOf t then bandOf t else min old (bandOf (t + 2))

end Sys2Proof.Machine
end

