-- ==== Sys2Proof/Machine/Dirs.lean ====
section
/-! DEFINITION. The placement directory (R160 to R172): footprints, pins, near-tier space, which copy a reader uses, and
the settling of entries. -/

namespace Sys2Proof.Machine

/-! ## Layout of an object (R160) -/

/-- Bytes an object of `b` batons takes. -/
def footprint (b : Nat) : Nat := 65536 * (b + ceilDiv (320 * b) 65536)

/-- Offset of the header of baton `k`. -/
def headerOff (k : Nat) : Nat := 320 * k

/-- Offset of the payload of baton `k` of an object of `b` batons. -/
def payloadOff (b k : Nat) : Nat := 65536 * (ceilDiv (320 * b) 65536 + k)

/-- Far-tier chunks of 64 MiB an object takes (R157). -/
def chunksOf (b : Nat) : Nat := ceilDiv (footprint b) 0x4000000

/-! ## Versions and pins (R166, R168) -/

def Version.pins (v : Version) : Nat := v.pinsNear + v.pinsHome

def Version.fresh (num batons region : Nat) (near : Option Nat) (home : Home) : Version :=
  { num := num, batons := batons, region := region, near := near, home := home, pinsNear := 0, pinsHome := 0 }

/-- The version numbered `v`, current or draining. -/
def DirEntry.ver (e : DirEntry) (v : Nat) : Option Version :=
  if e.cur.num = v then some e.cur else e.old.filter (fun o => o.num == v)

/-- Change the version numbered `v`. -/
def DirEntry.onVer (e : DirEntry) (v : Nat) (f : Version → Version) : DirEntry :=
  if e.cur.num = v then { e with cur := f e.cur }
  else { e with old := e.old.map (fun o => if o.num = v then f o else o) }

def State.onDir (s : State) (o : Nat) (f : DirEntry → DirEntry) : State :=
  { s with rl := { s.rl with dir := s.rl.dir.adjust o f } }

/-- A pin may be taken on the current version (R167, R168). -/
def DirEntry.pinnable (e : DirEntry) : Bool := !e.discardPending && e.cur.pins < 65535

/-- Take a pin on the current version: one taken in EVICTING reads the home (R162). -/
def State.takePin (s : State) (o : Nat) : State × List Pin :=
  match s.rl.dir.find o with
  | none => (s, [])
  | some e =>
    let near := e.state != .evicting
    (s.onDir o (fun e => e.onVer e.cur.num (fun v =>
        if near then { v with pinsNear := v.pinsNear + 1 } else { v with pinsHome := v.pinsHome + 1 })),
     [{ object := o, version := e.cur.num, near := near }])

/-- Pin the current version of each object, in order. -/
def State.takePins (s : State) (os : List Nat) : State × List Pin :=
  os.foldl (fun r o => let q := r.1.takePin o; (q.1, r.2 ++ q.2)) (s, [])

/-- Release one pin. -/
def State.releasePin (s : State) (p : Pin) : State :=
  s.onDir p.object (fun e => e.onVer p.version (fun v =>
    if p.near then { v with pinsNear := v.pinsNear - 1 } else { v with pinsHome := v.pinsHome - 1 }))

def State.releasePins (s : State) (ps : List Pin) : State := ps.foldl State.releasePin s

/-- On entry to EVICTING every pin held was taken before it, and reads the near copy. -/
def Version.evictStarts (v : Version) : Version := { v with pinsNear := v.pins, pinsHome := 0 }

/-- Enter EVICTING: mark the pins jobs hold on the current version as taken before it. -/
def State.startEvicting (s : State) (o : Nat) : State :=
  match s.rl.dir.find o with
  | none => s
  | some e =>
    let s1 := s.onDir o (fun e => { e with state := .evicting, cur := e.cur.evictStarts })
    { s1 with jd := { s1.jd with jobs := s1.jd.jobs.map (fun j => { j with pins := j.pins.map (fun p =>
        if p.object = o ∧ p.version = e.cur.num then { p with near := true } else p) }) } }

/-! ## Live snapshots (R197) -/

/-- Snapshot epochs that are live: of every job admitted and not completed, and of copies from LBAs. -/
def State.liveSnaps (s : State) : List Nat :=
  (s.jd.jobs.filter (fun j => j.state != .queued)).map Job.snapshot ++ s.rl.copies.filterMap Copy.snap

/-- MM_SNAP_FLOOR (R197). -/
def State.snapFloor (s : State) : Nat := Machine.snapFloor s.liveSnaps s.mm.epoch

/-- Pool copies that no live snapshot needs are freed (R199). -/
def State.trimPool (s : State) : State := { s with mm := s.mm.trimPool s.liveSnaps }

/-! ## Reading (R162, R197, R257) -/

/-- Bytes [o, o + n) of a namespace at a snapshot epoch. -/
def State.nsBytes (s : State) (nsid snap o n : Nat) : List Byte :=
  match s.mm.namespaces.find nsid with
  | none => List.replicate n 0
  | some m =>
    sliceZ ((List.range (ceilDiv (o % 4096 + n) 4096)).flatMap (fun i =>
      padTo 4096 (s.mm.readLbaAt m snap (o / 4096 + i)))) (o % 4096) n

/-- Bytes of a version from its near copy. -/
def State.nearCopy (s : State) (v : Version) (o n : Nat) : List Byte := s.nearRead (v.near.getD 0 + o) n

/-- Bytes of a version from its home. -/
def State.homeCopy (s : State) (v : Version) (snap o n : Nat) : List Byte :=
  match v.home with
  | .none => List.replicate n 0
  | .far f => readCells 0 s.rl.far (f + o) n
  | .ns nsid lba => s.nsBytes nsid snap (4096 * lba + o) n

/-- The reader of a pin uses the near copy for baton `k` (R162 step 3). -/
def DirEntry.usesNear (e : DirEntry) (p : Pin) (k : Nat) : Bool :=
  if e.cur.num = p.version then
    match e.state with
    | .resident => true
    | .evicting => p.near
    | .promoting => k < e.mark
    | .home => false
  else ((e.old.bind Version.near).isSome) && p.near

/-- Bytes [o, o + n) of an object as a pin's reader sees them, at or after baton `k`. -/
def State.pinnedBytes (s : State) (p : Pin) (snap k o n : Nat) : List Byte :=
  match s.rl.dir.find p.object with
  | none => List.replicate n 0
  | some e =>
    match e.ver p.version with
    | none => List.replicate n 0
    | some v => if e.usesNear p k then s.nearCopy v o n else s.homeCopy v snap o n

/-! ## Near-tier space (R163) -/

/-- Near-tier ranges in use in a region: versions' near copies and placements in progress. -/
def State.nearUsed (s : State) (region : Nat) : List (Nat × Nat) :=
  (s.rl.dir.vals.flatMap (fun e => (e.cur :: e.old.toList).filterMap (fun v =>
    if v.region = region then v.near.map (fun a => (a, footprint v.batons + (if e.segment then 65536 else 0))) else none)))
  ++ s.rl.copies.filterMap (fun c => if !c.publish && c.region = region then some (c.base, footprint c.batons) else none)

/-- Two ranges do not meet. -/
def apart (a n b m : Nat) : Bool := a + n ≤ b || b + m ≤ a

/-- First fit at 64 KiB alignment in [lo, hi) for `n` bytes. -/
def firstFit (used : List (Nat × Nat)) (lo hi n : Nat) : Option Nat :=
  let ok := (lo :: used.map (fun u => ceilDiv (u.1 + u.2) 65536 * 65536)).filter (fun a =>
    lo ≤ a && a + n ≤ hi && used.all (fun u => apart a n u.1 u.2))
  match ok with
  | [] => none
  | a :: as => some (as.foldl min a)

/-- Space for an object in a near-tier region. -/
def State.allocNear (s : State) (r : Region) (n : Nat) : Option Nat :=
  firstFit (s.nearUsed r.id) r.base (r.base + r.size) n

/-! ## Settling (R169, R172) -/

/-- No pin is outstanding on any version of the entry, and no earlier version drains. -/
def DirEntry.idle (e : DirEntry) : Bool := e.cur.pins == 0 && e.old.isNone

/-- Complete the evict waits of an entry with an outcome; DEFERRED for those that came from EVICT_PENDING. -/
def State.endEvicts (s : State) (ws : List DirWait) : State :=
  ws.foldl (fun s w => match w with
    | .evict c pend =>
      let s1 := if pend then { s with rl := { s.rl with event := setEv s.rl.event 1 } } else s
      s1.complete c stOk (if pend then 1 else 0)
    | _ => s) s

/-- Complete the place waits of an entry: PLACED, or JOINED for those that joined. -/
def State.endPlaces (s : State) (ws : List DirWait) (st ver : Nat) : State :=
  ws.foldl (fun s w => match w with
    | .place c joined => s.complete c st (if st = stOk then (if joined then 2 else 0) + ver % 65536 * 65536 else 0)
    | _ => s) s

def isEvict (w : DirWait) : Bool := match w with | .evict _ _ => true | _ => false
def isPlace (w : DirWait) : Bool := match w with | .place _ _ => true | _ => false

def State.dropEntry (s : State) (o : Nat) : State := { s with rl := { s.rl with dir := s.rl.dir.del o } }

/-- The current version's near copy goes: HOME if it has a home, else the entry is removed, with its evict waits
completed. -/
def State.evicted (s : State) (o : Nat) : State :=
  match s.rl.dir.find o with
  | none => s
  | some e =>
    let rest := e.waits.filter (fun w => !isEvict w)
    let s1 := if e.discardPending && e.idle || e.cur.home = .none then s.dropEntry o
      else s.onDir o (fun e => { e with
        state := .home, cur := { e.cur with near := none }, evictPending := false, condemned := false, waits := rest })
    s1.endEvicts e.waits

/-- Evict the current version of a RESIDENT entry (R169): at once with no pins, else through EVICTING; a removal waits for
an earlier version that drains (R166). -/
def State.evictResident (s : State) (o : Nat) : State :=
  match s.rl.dir.find o with
  | none => s
  | some e =>
    if e.cur.pins = 0 && !(e.discardPending && e.old.isSome) then s.evicted o
    else (s.startEvicting o).onDir o (fun e => { e with evictPending := false })

/-- An evict that waited for a promotion runs from HOME (R169): without DISCARD it reports NOT_RESIDENT. -/
def State.evictHome (s : State) (o : Nat) : State :=
  match s.rl.dir.find o with
  | none => s
  | some e =>
    if e.discardPending then
      if e.idle then (s.dropEntry o).endEvicts e.waits
      else s.onDir o (fun e => { e with evictPending := false })
    else
      let s1 := s.onDir o (fun e => { e with evictPending := false, waits := e.waits.filter (fun w => !isEvict w) })
      e.waits.foldl (fun s w => match w with | .evict c _ => s.complete c stOk 3 | _ => s) s1

end Sys2Proof.Machine
end

