-- ==== Sys2Proof/Machine/Float.lean ====
section
/-! DEFINITION. Binary floating point by exact values: a finite number is (-1)^neg * m * 2^e, an operation is exact and
is rounded once, to nearest with ties to even. -/

namespace Sys2Proof.Machine

/-- The value of a floating-point pattern. -/
inductive FV where
  | nan
  | inf (neg : Bool)
  | fin (neg : Bool) (m : Nat) (e : Int)
  deriving DecidableEq, Repr

/-- A format: exponent bits and fraction bits, with infinities and NaNs as IEEE 754 gives them. -/
structure Fmt where
  ew : Nat
  mw : Nat
  deriving DecidableEq, Repr

def fmt32 : Fmt := { ew := 8, mw := 23 }
def fmt64 : Fmt := { ew := 11, mw := 52 }
def fmtBf16 : Fmt := { ew := 8, mw := 7 }
def fmtE5m2 : Fmt := { ew := 5, mw := 2 }

def Fmt.bias (f : Fmt) : Int := (2 ^ (f.ew - 1) : Nat) - 1

/-- The value of a bit pattern. -/
def Fmt.decode (f : Fmt) (v : Nat) : FV :=
  let neg := bitN v (f.ew + f.mw)
  let x := bitsN v (f.ew + f.mw - 1) f.mw
  let m := v % 2 ^ f.mw
  if x = 2 ^ f.ew - 1 then (if m = 0 then .inf neg else .nan)
  else if x = 0 then .fin neg m (1 - f.bias - f.mw)
  else .fin neg (2 ^ f.mw + m) ((x : Int) - f.bias - f.mw)

/-- n * 2^k for a signed k, with the divisor's part returned apart: the pair (numerator, denominator). -/
def shiftQ (n d : Nat) (k : Int) : Nat × Nat :=
  if 0 ≤ k then (n * 2 ^ k.toNat, d) else (n, d * 2 ^ (-k).toNat)

/-- n / d rounded to nearest, ties to even. -/
def divRne (n d : Nat) : Nat :=
  let q := n / d
  let r := n % d
  if 2 * r < d then q else if d < 2 * r then q + 1 else if q % 2 = 0 then q else q + 1

/-- Floor of the base-2 logarithm of n / d, n and d not 0. -/
def log2Q (n d : Nat) : Int :=
  let k : Int := (Nat.log2 n : Int) - (Nat.log2 d : Int)
  let p := shiftQ n d (-k)
  if p.1 < p.2 then k - 1 else k

/-- Significand and exponent (of its unit) of n / d * 2^e rounded to the format's precision, before overflow. -/
def Fmt.roundQ (f : Fmt) (n d : Nat) (e : Int) : Nat × Int :=
  let k := log2Q n d + e
  let u := max k (1 - f.bias) - f.mw
  let p := shiftQ n d (e - u)
  (divRne p.1 p.2, u)

/-- Pattern of a sign, biased exponent and fraction. -/
def Fmt.pack (f : Fmt) (neg : Bool) (x m : Nat) : Nat := b2n neg * 2 ^ (f.ew + f.mw) + x * 2 ^ f.mw + m

def Fmt.infBits (f : Fmt) (neg : Bool) : Nat := f.pack neg (2 ^ f.ew - 1) 0

/-- The quiet NaN with payload 0. -/
def Fmt.nanBits (f : Fmt) : Nat := f.pack false (2 ^ f.ew - 1) (2 ^ (f.mw - 1))

/-- n / d * 2^e with a sign, rounded into the format; overflow gives infinity. -/
def Fmt.ofQ (f : Fmt) (neg : Bool) (n d : Nat) (e : Int) : Nat :=
  if n = 0 then f.pack neg 0 0
  else
    let r := f.roundQ n d e
    let q := if r.1 = 2 ^ (f.mw + 1) then (2 ^ f.mw, r.2 + 1) else r
    if q.1 < 2 ^ f.mw then f.pack neg 0 q.1
    else
      let x := q.2 + f.mw + f.bias
      if (2 ^ f.ew - 1 : Nat) ≤ x then f.infBits neg else f.pack neg x.toNat (q.1 - 2 ^ f.mw)

/-- Round a value into the format. -/
def Fmt.encode (f : Fmt) : FV → Nat
  | .nan => f.nanBits
  | .inf n => f.infBits n
  | .fin n m e => f.ofQ n m 1 e

/-- A signed significand with a common exponent. -/
def signedM (neg : Bool) (m : Nat) : Int := if neg then -(m : Int) else m

/-- Exact sum. A zero sum of opposite zeros or of cancelling terms is +0. -/
def FV.add : FV → FV → FV
  | .nan, _ => .nan
  | _, .nan => .nan
  | .inf a, .inf b => if a = b then .inf a else .nan
  | .inf a, _ => .inf a
  | _, .inf b => .inf b
  | .fin n1 m1 e1, .fin n2 m2 e2 =>
    let e := min e1 e2
    let v := signedM n1 m1 * (2 ^ (e1 - e).toNat : Nat) + signedM n2 m2 * (2 ^ (e2 - e).toNat : Nat)
    if v = 0 then .fin (n1 && n2 && m1 == 0 && m2 == 0) 0 e else .fin (v < 0) v.natAbs e

/-- Exact product. -/
def FV.mul : FV → FV → FV
  | .nan, _ => .nan
  | _, .nan => .nan
  | .inf a, .inf b => .inf (a != b)
  | .inf a, .fin n m _ => if m = 0 then .nan else .inf (a != n)
  | .fin n m _, .inf b => if m = 0 then .nan else .inf (n != b)
  | .fin n1 m1 e1, .fin n2 m2 e2 => .fin (n1 != n2) (m1 * m2) (e1 + e2)

def FV.neg : FV → FV
  | .nan => .nan
  | .inf n => .inf (!n)
  | .fin n m e => .fin (!n) m e

def FV.abs : FV → FV
  | .nan => .nan
  | .inf _ => .inf false
  | .fin _ m e => .fin false m e

def FV.isNan : FV → Bool
  | .nan => true
  | _ => false

/-- Finite. -/
def FV.isFin : FV → Bool
  | .fin _ _ _ => true
  | _ => false

/-- a < b; false when either is NaN. -/
def FV.lt : FV → FV → Bool
  | .nan, _ => false
  | _, .nan => false
  | .inf a, .inf b => a && !b
  | .inf a, .fin _ _ _ => a
  | .fin _ _ _, .inf b => !b
  | .fin n1 m1 e1, .fin n2 m2 e2 =>
    let e := min e1 e2
    signedM n1 m1 * (2 ^ (e1 - e).toNat : Nat) < signedM n2 m2 * (2 ^ (e2 - e).toNat : Nat)

/-- a = b as values; false when either is NaN. -/
def FV.eq (a b : FV) : Bool := !a.isNan && !b.isNan && !a.lt b && !b.lt a

/-- a ≤ b; false when either is NaN. -/
def FV.le (a b : FV) : Bool := a.lt b || a.eq b

/-- The quotient of two values rounded into a format; division by zero gives infinity, 0 / 0 NaN. -/
def Fmt.div (f : Fmt) (a b : FV) : Nat :=
  match a, b with
  | .nan, _ => f.nanBits
  | _, .nan => f.nanBits
  | .inf _, .inf _ => f.nanBits
  | .inf n, .fin n2 _ _ => f.infBits (n != n2)
  | .fin n _ _, .inf n2 => f.pack (n != n2) 0 0
  | .fin n1 m1 e1, .fin n2 m2 e2 =>
    if m2 = 0 then (if m1 = 0 then f.nanBits else f.infBits (n1 != n2))
    else f.ofQ (n1 != n2) m1 m2 (e1 - e2)

def f32 (v : W32) : FV := fmt32.decode v.toNat
def toF32 (v : FV) : W32 := BitVec.ofNat 32 (fmt32.encode v)

/-- FP32 sum, product and quotient, each rounded once. -/
def f32Add (a b : W32) : W32 := toF32 ((f32 a).add (f32 b))
def f32Sub (a b : W32) : W32 := toF32 ((f32 a).add (f32 b).neg)
def f32Mul (a b : W32) : W32 := toF32 ((f32 a).mul (f32 b))
def f32Div (a b : W32) : W32 := BitVec.ofNat 32 (fmt32.div (f32 a) (f32 b))
def f32Abs (a : W32) : W32 := a &&& 0x7FFFFFFF

/-- An integer as FP32. -/
def f32OfInt (v : Int) : W32 := toF32 (.fin (v < 0) v.natAbs 0)

/-- A finite value rounded to an integer, ties to even; infinities and NaN give none. -/
def FV.toInt : FV → Option Int
  | .fin n m e =>
    let p := shiftQ m 1 e
    let q := divRne p.1 p.2
    some (if n then -(q : Int) else q)
  | _ => none

/-- The larger of two magnitudes held as FP32 patterns; NaN never wins. -/
def f32Max (a b : W32) : W32 :=
  if (f32 b).isNan then a else if (f32 a).isNan then b else if (f32 a).lt (f32 b) then b else a

/-- FP64 sum, rounded once. -/
def f64Add (a b : W64) : W64 :=
  BitVec.ofNat 64 (fmt64.encode ((fmt64.decode a.toNat).add (fmt64.decode b.toNat)))

/-- Two members of a list, which `p` and `q` pick, become their sum. -/
def addSome {w : Nat} (add : BitVec w → BitVec w → BitVec w) (p q : Nat) (l : List (BitVec w)) : List (BitVec w) :=
  let i := p % max 1 l.length
  let rest := l.eraseIdx i
  let k := q % max 1 rest.length
  add (l.getD i 0) (rest.getD k 0) :: rest.eraseIdx k

/-- A sum in some order (R66, R241): each addition takes two members that `pick` chooses. `fuel` is the number of additions. -/
def sumSome {w : Nat} (add : BitVec w → BitVec w → BitVec w) (pick : Nat → Nat) : Nat → List (BitVec w) → BitVec w
  | 0, l => l.headD 0
  | n + 1, l => sumSome add pick n (addSome add (pick (2 * n)) (pick (2 * n + 1)) l)

/-- Sum of a whole list in some order, in FP32 or in FP64. -/
def sum32 (pick : Nat → Nat) (l : List W32) : W32 := sumSome f32Add pick (l.length - 1) l
def sum64 (pick : Nat → Nat) (l : List W64) : W64 := sumSome f64Add pick (l.length - 1) l

end Sys2Proof.Machine
end

