-- ==== Sys2Proof/Machine/Records.lean ====
section
/-! DEFINITION. Record layouts, records, fields and compiled predicates (R219 to R232), and the items of scan output
(R239, R240). -/

namespace Sys2Proof.Machine

/-! ## Layouts (R219, R220) -/

structure Field where
  type  : Nat
  width : Nat
  pos   : Nat
  proj  : Nat
  ashift : Nat
  abits : Nat
  flags : Nat
  deriving DecidableEq, Repr

structure Layout where
  num    : Nat
  kind   : Nat
  flags  : Nat
  size   : Nat
  lenB   : Nat
  delim  : Nat
  align  : Nat
  header : Nat
  idField : Nat
  fields : List Field
  rsvd   : Bool            -- every reserved byte is 0, and the entry ends inside the section
  deriving DecidableEq, Repr

def parseField (l : List Byte) (o : Nat) : Field :=
  { type := byteAt l o, width := byteAt l (o + 1), pos := u16At l (o + 2), proj := u16At l (o + 4),
    ashift := byteAt l (o + 6), abits := byteAt l (o + 7), flags := byteAt l (o + 8) }

/-- Layout entry at offset `o` of the section. -/
def parseLayout (l : List Byte) (o : Nat) : Layout :=
  let n := u16At l (o + 8)
  { num := u16At l o, kind := byteAt l (o + 2), flags := byteAt l (o + 3), size := u32At l (o + 4),
    lenB := byteAt l (o + 10), delim := byteAt l (o + 11), align := u32At l (o + 12), header := u32At l (o + 16),
    idField := u16At l (o + 20), fields := (List.range n).map (fun i => parseField l (o + 32 + 16 * i)),
    rsvd := zerosAt l (o + 22) 10 && (List.range n).all (fun i => zerosAt l (o + 32 + 16 * i + 9) 7)
      && o + 32 + 16 * n ≤ l.length }

/-- The layouts of a LAYOUTS section. -/
def layoutsOf (l : List Byte) : List Layout := (List.range (u16At l 0)).map (fun i => parseLayout l (u32At l (16 + 4 * i)))

structure Term where
  field : Nat
  op    : Nat
  count : Nat
  pool  : Nat
  a     : Nat
  b     : Nat
  rsvd  : Bool
  deriving DecidableEq, Repr

structure Predicate where
  num    : Nat
  layout : Nat
  terms  : List Term
  prog   : List Nat
  pool   : List Byte
  rsvd   : Bool
  deriving DecidableEq, Repr

def parseTerm (l : List Byte) (o : Nat) : Term :=
  { field := byteAt l o, op := byteAt l (o + 1), count := u16At l (o + 2), pool := u32At l (o + 4), a := u64At l (o + 8),
    b := u64At l (o + 16), rsvd := zerosAt l (o + 24) 8 }

/-- Predicate entry at offset `o` (R225). -/
def parsePredicate (l : List Byte) (o : Nat) : Predicate :=
  let t := byteAt l (o + 4)
  let st := byteAt l (o + 5)
  let po := o + 16 + 32 * t
  { num := u16At l o, layout := u16At l (o + 2), terms := (List.range t).map (fun i => parseTerm l (o + 16 + 32 * i)),
    prog := (List.range st).map (fun i => byteAt l (po + i)), pool := sliceZ l (po + 8 * ceilDiv st 8) (u16At l (o + 6)),
    rsvd := zerosAt l (o + 8) 8 && po + 8 * ceilDiv st 8 + u16At l (o + 6) ≤ l.length }

def predicatesOf (l : List Byte) : List Predicate :=
  (List.range (u16At l 2)).map (fun i => parsePredicate l (u32At l (16 + 4 * u16At l 0 + 4 * i)))

/-! ## The check of R227 -/

/-- A power of two. -/
def isPow2 (n : Nat) : Bool := n != 0 && 2 ^ Nat.log2 n == n

def fieldOk (y : Layout) (f : Field) : Bool :=
  let w := match f.type with
    | 1 => [1, 2, 4, 8].contains f.width
    | 2 => [1, 2, 4, 8].contains f.width
    | 3 => f.width == 4 || f.width == 8
    | 4 => 1 ≤ f.width && f.width ≤ 255
    | 5 => f.width == 0 && y.kind != 0
    | _ => false
  let pr := if f.type = 4 ∨ f.type = 5 then f.proj % 8 == 0 && 8 ≤ f.proj && f.proj ≤ 256 else f.proj == 0
  let at_ := f.abits == 0 || ((f.type == 1 || f.type == 2) && f.ashift + f.abits ≤ 64)
  let inside := y.kind != 0 || f.pos + f.width ≤ y.size
  w && pr && at_ && inside && f.flags / 2 == 0 && f.ashift < 64

/-- No two fields fill the same attribute bit. -/
def attrsDisjoint : List Field → Bool
  | [] => true
  | f :: fs => fs.all (fun g => f.abits == 0 || g.abits == 0 || f.ashift + f.abits ≤ g.ashift
      || g.ashift + g.abits ≤ f.ashift) && attrsDisjoint fs

/-- A LENPREFIX layout's TEXT field: at most one, with the highest position (R222). -/
def textOk (y : Layout) : Bool :=
  y.kind != 1 || (let t := y.fields.filter (fun f => f.type == 5)
    t.length ≤ 1 && t.all (fun f => y.fields.all (fun g => g.type == 5 || g.pos ≤ f.pos)))

def layoutOk (y : Layout) : Bool :=
  y.rsvd && y.kind ≤ 2 && y.flags / 4 == 0 && 1 ≤ y.fields.length && y.fields.length ≤ 64 && y.num != 0xFFFF
  && (if y.kind = 0 then 1 ≤ y.size else 16 ≤ y.size) && y.size ≤ 262144
  && (if y.kind = 1 then (y.lenB == 2 || y.lenB == 4) && isPow2 y.align && 4096 ≤ y.align && y.align ≤ 1048576
        && y.size ≤ y.align else y.lenB == 0 && y.align == 0)
  && (if y.kind = 2 then y.header == 0 else y.delim == 0 && bitN y.flags 0 == false)
  && (y.idField == 0xFFFF || y.idField < y.fields.length)
  && y.fields.all (fieldOk y) && attrsDisjoint y.fields && textOk y

/-- The program leaves exactly one value and never pops an empty stack. -/
def progDepth (nterms : Nat) : List Nat → Nat → Option Nat
  | [], d => some d
  | b :: bs, d =>
    if b < 32 then (if b < nterms then progDepth nterms bs (d + 1) else none)
    else if b = 0x40 ∨ b = 0x41 then (if 2 ≤ d then progDepth nterms bs (d - 1) else none)
    else if b = 0x42 then (if 1 ≤ d then progDepth nterms bs d else none)
    else none

/-- The `n` members of a text IN set at offset `o` lie in the pool. -/
def textSetOk (pool : List Byte) : Nat → Nat → Bool
  | 0, _ => true
  | n + 1, o => o + 1 + byteAt pool o ≤ pool.length && textSetOk pool n (o + 1 + byteAt pool o)

/-- A term suits its field's type: PREFIX only on text, IN of 1 to 256 members, constants inside the pool. -/
def termOk (p : Predicate) (y : Layout) (t : Term) : Bool :=
  match y.fields[t.field]? with
  | none => false
  | some f =>
    let text := f.type == 4 || f.type == 5
    t.rsvd && 1 ≤ t.op && t.op ≤ 10 && (t.op != 9 || text)
    && (if t.op = 8 then 1 ≤ t.count && t.count ≤ 256 && (if text then textSetOk p.pool t.count t.pool else t.pool + 8 * t.count ≤ p.pool.length)
        else if text && t.op != 10 then t.count ≤ 255 && t.pool + t.count ≤ p.pool.length
          && (t.op != 7 || bitsN t.b 47 16 + bitsN t.b 15 0 ≤ p.pool.length)
        else true)

def predicateOk (p : Predicate) (y : Layout) : Bool :=
  p.rsvd && p.layout == y.num && 1 ≤ p.terms.length && p.terms.length ≤ 32 && 1 ≤ p.prog.length && p.prog.length ≤ 128
  && p.pool.length ≤ 16384 && progDepth p.terms.length p.prog 0 == some 1 && p.terms.all (termOk p y)

/-! ## Field values (R220 to R224) -/

/-- A field's value. -/
inductive FVal where
  | null
  | bad                       -- unparsable (R224)
  | int (v : Int)
  | uint (v : Nat)
  | flt (bits : Nat)          -- FP64 pattern
  | bytes (l : List Byte)
  deriving DecidableEq, Repr

/-- A binary field from its bytes. -/
def binaryVal (f : Field) (l : List Byte) : FVal :=
  let v := leAt l 0 f.width
  match f.type with
  | 1 => .int (signedN (8 * f.width) v)
  | 2 => .uint v
  | 3 => .flt (if f.width = 4 then fmt64.encode (fmt32.decode v) else v)
  | _ => .bytes l

def isDigit (b : Byte) : Bool := 0x30 ≤ b.toNat && b.toNat ≤ 0x39

/-- Decimal digits as a number. -/
def decimal (l : List Byte) : Nat := l.foldl (fun v b => 10 * v + (b.toNat - 0x30)) 0

/-- 1 to 20 digits. -/
def digits20 (l : List Byte) : Bool := 1 ≤ l.length && l.length ≤ 20 && l.all isDigit

/-- An optional sign: true for minus. -/
def takeSign (l : List Byte) : Bool × List Byte :=
  match l with
  | b :: bs => if b = 0x2D then (true, bs) else if b = 0x2B then (false, bs) else (false, l)
  | [] => (false, [])

/-- A CSV number of type FLOAT as FP64, rounded to the field's width; none when unparsable. -/
def csvFloat (width : Nat) (l : List Byte) : Option Nat :=
  let s := takeSign l
  let ip := s.2.takeWhile isDigit
  let r1 := s.2.dropWhile isDigit
  let dot := r1.head? == some 0x2E
  let fp := if dot then (r1.drop 1).takeWhile isDigit else []
  let r2 := if dot then (r1.drop 1).dropWhile isDigit else r1
  let hasE := r2.head? == some 0x65 || r2.head? == some 0x45
  let es := takeSign (r2.drop 1)
  let eOk := if hasE then 1 ≤ es.2.length && es.2.length ≤ 3 && es.2.all isDigit else r2.isEmpty
  if ip.isEmpty && fp.isEmpty || !eOk || (dot && fp.isEmpty && ip.isEmpty) then none
  else
    let m := decimal (ip ++ fp)
    let x : Int := (if hasE then (if es.1 then -(decimal es.2 : Int) else decimal es.2) else 0) - fp.length
    let q : Nat × Nat := if 0 ≤ x then (m * 10 ^ x.toNat, 1) else (m, 10 ^ (-x).toNat)
    let bits := if width = 4 then fmt64.encode (fmt32.decode (fmt32.ofQ s.1 q.1 q.2 0)) else fmt64.ofQ s.1 q.1 q.2 0
    if (fmt64.decode bits).isFin then some bits else none

/-- A CSV field's value (R224); an empty field is null. -/
def csvVal (f : Field) (l : List Byte) : FVal :=
  if l.isEmpty then .null
  else match f.type with
    | 1 =>
      let s := takeSign l
      if !digits20 s.2 then .bad
      else
        let v : Int := if s.1 then -(decimal s.2 : Int) else decimal s.2
        if -(2 ^ (8 * f.width - 1) : Nat) ≤ v ∧ v < (2 ^ (8 * f.width - 1) : Nat) then .int v else .bad
    | 2 => if digits20 l && decimal l < 2 ^ (8 * f.width) then .uint (decimal l) else .bad
    | 3 => match csvFloat f.width l with
      | some b => .flt b
      | none => .bad
    | 4 => .bytes (padTo f.width l)
    | _ => .bytes l

/-- Take a quoted field after its opening quote: its bytes and the rest; none when an LF or the end comes first. -/
def csvQuoted : List Byte → List Byte → Option (List Byte × List Byte)
  | [], _ => none
  | 0x22 :: 0x22 :: bs, acc => csvQuoted bs (acc ++ [0x22])
  | 0x22 :: bs, acc => some (acc, bs)
  | b :: bs, acc => csvQuoted bs (acc ++ [b])

/-- The columns of a record without its LF (R223); none for a malformed record. `fuel` bounds the columns. -/
def csvColumns (delim : Byte) : Nat → List Byte → Option (List (List Byte))
  | 0, _ => some []
  | fuel + 1, l =>
    match l with
    | 0x22 :: bs =>
      match csvQuoted bs [] with
      | none => none
      | some (v, rest) =>
        match rest with
        | [] => some [v]
        | d :: rest' => if d = delim then (csvColumns delim fuel rest').map (fun cs => v :: cs) else none
    | _ =>
      let v := l.takeWhile (fun b => b != delim)
      match l.dropWhile (fun b => b != delim) with
      | [] => some [v]
      | _ :: rest => (csvColumns delim fuel rest).map (fun cs => v :: cs)

/-- A parsed record: its offset in the range, the bytes as stored, its body, and its field values. -/
structure Rec where
  off    : Nat
  stored : List Byte
  vals   : List FVal
  deriving DecidableEq, Repr

/-- What parsing one step gives: a record, a malformed record, or padding; and where parsing goes on. -/
inductive ParseStep where
  | good (r : Rec) (next : Nat)
  | malformed (next : Nat)
  | pad (next : Nat)
  deriving DecidableEq, Repr

/-- Next multiple of `a` above or at `x` + 1. -/
def nextBoundary (x a : Nat) : Nat := (x / a + 1) * a

/-- Parse at byte `p` of a FIXED range of `n` bytes. -/
def stepFixed (y : Layout) (rd : Nat → Nat → List Byte) (n p : Nat) : ParseStep :=
  if n < p + y.size then .malformed n
  else
    let l := rd p y.size
    if bitN y.flags 1 && l.all (fun b => b == 0) then .pad (p + y.size)
    else .good { off := p, stored := l, vals := y.fields.map (fun f => binaryVal f (sliceZ l f.pos f.width)) } (p + y.size)

/-- A LENPREFIX field: null when it ends past the record. -/
def lenVal (l : List Byte) (f : Field) : FVal :=
  if f.type = 5 then (if l.length < f.pos then .null else .bytes (l.drop f.pos))
  else if l.length < f.pos + f.width then .null else binaryVal f (sliceZ l f.pos f.width)

/-- Parse at byte `p` of a LENPREFIX range. -/
def stepLen (y : Layout) (rd : Nat → Nat → List Byte) (n p : Nat) : ParseStep :=
  let b := nextBoundary p y.align
  if b < p + y.lenB ∨ n < p + y.lenB then .malformed b
  else
    let len := leAt (rd p y.lenB) 0 y.lenB
    if len = 0 then .pad b
    else if y.size < len ∨ b < p + y.lenB + len ∨ n < p + y.lenB + len then .malformed b
    else
      let l := rd (p + y.lenB) len
      .good { off := p, stored := rd p (y.lenB + len), vals := y.fields.map (lenVal l) } (p + y.lenB + len)

/-- Drop a CR directly before the end. -/
def dropCr (l : List Byte) : List Byte := if l.getLast? = some 0x0D then l.dropLast else l

/-- Parse at byte `p` of a CSV range; `far` bytes are searched for an LF beyond a record that is too long. -/
def stepCsv (y : Layout) (rd : Nat → Nat → List Byte) (n p : Nat) : ParseStep :=
  let l := rd p (min y.size (n - p))
  if bitN y.flags 1 && l.head? == some 0 then .pad (nextBoundary p 4096)
  else
    let body := l.takeWhile (fun b => b != 0x0A)
    if body.length < l.length ∨ n ≤ p + body.length then
      let next := p + body.length + 1
      let stored := l.take (body.length + 1)
      let line := if body.length < l.length then dropCr body else body
      match csvColumns (BitVec.ofNat 8 y.delim) (line.length + 1) line with
      | none => .malformed next
      | some cs => .good { off := p, stored := stored, vals := y.fields.map (fun f =>
          csvVal f (cs.getD f.pos [])) } next
    else
      let rest := (rd (p + l.length) (n - p - l.length)).takeWhile (fun b => b != 0x0A)
      .malformed (p + l.length + rest.length + 1)

def parseStep (y : Layout) (rd : Nat → Nat → List Byte) (n p : Nat) : ParseStep :=
  match y.kind with
  | 0 => stepFixed y rd n p
  | 1 => stepLen y rd n p
  | _ => stepCsv y rd n p

/-- The records that begin in [p, e), and how many are malformed; `fuel` bounds the steps. -/
def parseRecords (y : Layout) (rd : Nat → Nat → List Byte) (n e : Nat) : Nat → Nat → List Rec × Nat
  | 0, _ => ([], 0)
  | fuel + 1, p =>
    if e ≤ p ∨ n ≤ p then ([], 0)
    else match parseStep y rd n p with
      | .good r q => let t := parseRecords y rd n e fuel q; (r :: t.1, t.2)
      | .malformed q => let t := parseRecords y rd n e fuel q; (t.1, t.2 + 1)
      | .pad q => parseRecords y rd n e fuel q

/-- Where an extent that begins at byte `s` of the range begins to parse (R231). -/
def firstRecord (y : Layout) (rd : Nat → Nat → List Byte) (n s : Nat) : Nat :=
  match y.kind with
  | 0 => if s ≤ y.header then y.header else y.header + ceilDiv (s - y.header) y.size * y.size
  | 1 => s
  | _ => s + ((rd (s - 1) (n - (s - 1))).takeWhile (fun b => b != 0x0A)).length

/-- Where the first extent of a job with start_offset 0 begins: after header_bytes, or after the header record. -/
def rangeStart (y : Layout) (rd : Nat → Nat → List Byte) (n : Nat) : Nat :=
  if y.kind = 2 then
    (if bitN y.flags 0 then ((rd 0 n).takeWhile (fun b => b != 0x0A)).length + 1 else 0)
  else y.header

/-! ## Predicates (R226) -/

/-- Bytes compared as unsigned values; a prefix is less. -/
def bytesLt : List Byte → List Byte → Bool
  | _, [] => false
  | [], _ :: _ => true
  | a :: as, b :: bs => if a = b then bytesLt as bs else a.toNat < b.toNat

/-- A constant of a numeric field's type. -/
def constOf (v : FVal) (c : Nat) : FVal :=
  match v with
  | .int _ => .int (signedN 64 c)
  | .uint _ => .uint c
  | .flt _ => .flt c
  | x => x

/-- x < y for two values of one type. -/
def FVal.lt : FVal → FVal → Bool
  | .int a, .int b => a < b
  | .uint a, .uint b => a < b
  | .flt a, .flt b => (fmt64.decode a).lt (fmt64.decode b)
  | .bytes a, .bytes b => bytesLt a b
  | _, _ => false

def FVal.eqv : FVal → FVal → Bool
  | .int a, .int b => a == b
  | .uint a, .uint b => a == b
  | .flt a, .flt b => (fmt64.decode a).eq (fmt64.decode b)
  | .bytes a, .bytes b => a == b
  | _, _ => false

/-- A NaN on either side makes every comparison but NE false. -/
def FVal.le (a b : FVal) : Bool := a.lt b || a.eqv b

/-- Members of a text IN set: a length byte and that many bytes each. -/
def textSet (pool : List Byte) : Nat → Nat → List (List Byte)
  | 0, _ => []
  | n + 1, o => let k := byteAt pool o; sliceZ pool (o + 1) k :: textSet pool n (o + 1 + k)

/-- One term on one value. -/
def evalTerm (p : Predicate) (t : Term) (v : FVal) : Bool :=
  match v with
  | .null => t.op == 10
  | .bad => false
  | v =>
    let text := match v with
      | .bytes _ => true
      | _ => false
    let a := if text then .bytes (sliceZ p.pool t.pool t.count) else constOf v t.a
    let b := if text then .bytes (sliceZ p.pool (bitsN t.b 47 16) (bitsN t.b 15 0)) else constOf v t.b
    match t.op with
    | 1 => v.eqv a
    | 2 => !v.eqv a
    | 3 => v.lt a
    | 4 => v.le a
    | 5 => a.lt v
    | 6 => a.le v
    | 7 => a.le v && v.le b
    | 8 => if text then (textSet p.pool t.count t.pool).any (fun m => v.eqv (.bytes m))
           else (List.range t.count).any (fun i => v.eqv (constOf v (u64At p.pool (t.pool + 8 * i))))
    | 9 => match v, a with
      | .bytes x, .bytes y => x.take y.length == y
      | _, _ => false
    | _ => false

/-- The postfix program on a stack of Booleans. -/
def runProg (vals : List Bool) : List Nat → List Bool → Bool
  | [], st => st.headD false
  | b :: bs, st =>
    if b < 32 then runProg vals bs (vals.getD b false :: st)
    else match b, st with
      | 0x40, x :: y :: r => runProg vals bs ((x && y) :: r)
      | 0x41, x :: y :: r => runProg vals bs ((x || y) :: r)
      | 0x42, x :: r => runProg vals bs ((!x) :: r)
      | _, r => runProg vals bs r

/-- A record passes the predicate. -/
def Predicate.passes (p : Predicate) (r : Rec) : Bool :=
  runProg (p.terms.map (fun t => evalTerm p t (r.vals.getD t.field .null))) p.prog []

/-! ## Items (R240) -/

/-- Zeros up to a multiple of `k`. -/
def padMul (k : Nat) (l : List Byte) : List Byte := padTo (ceilDiv l.length k * k) l

def itemRecord (r : Rec) : List Byte :=
  padMul 8 (leBytes r.off 8 ++ leBytes r.stored.length 4 ++ leBytes 0 4 ++ r.stored)

def itemOffset (r : Rec) : List Byte := leBytes r.off 8 ++ leBytes r.stored.length 4 ++ leBytes 0 4

/-- A projected field: null and unparsable fields are zeros under their null-map bit. -/
def projField (f : Field) (v : FVal) : List Byte :=
  let text := f.type = 4 ∨ f.type = 5
  match v with
  | .int x => leBytes (wrapZ 64 x) 8
  | .uint x => leBytes x 8
  | .flt b => leBytes b 8
  | .bytes l => leBytes l.length 4 ++ leBytes (b2n (f.proj < l.length)) 4 ++ padTo f.proj l
  | _ => List.replicate (if text then 8 + f.proj else 8) 0

def FVal.absent : FVal → Bool
  | .null => true
  | .bad => true
  | _ => false

def itemProject (y : Layout) (fs : List Nat) (r : Rec) : List Byte :=
  let vals := fs.map (fun i => (y.fields[i]?, r.vals.getD i .null))
  let nulls := (vals.zipIdx).foldl (fun m x => if x.1.2.absent then m + 2 ^ x.2 else m) 0
  leBytes r.off 8 ++ leBytes nulls 8 ++ vals.flatMap (fun x => match x.1 with
    | some f => projField f x.2
    | none => [])

/-- The attribute word of a record (R235). -/
def attrWord (y : Layout) (r : Rec) : Nat :=
  (y.fields.zipIdx).foldl (fun w x =>
    let v : Nat := match r.vals.getD x.2 .null with
      | .int i => wrapZ 64 i
      | .uint u => u
      | _ => 0
    w + v % 2 ^ x.1.abits * 2 ^ x.1.ashift) 0

/-- FP32 to BF16, to nearest even. -/
def toBf16 (v : W32) : Nat := fmtBf16.encode (f32 v)

/-- The VECTOR part of an EMBED item (R236). -/
def vectorBytes (vfmt : Nat) (v : List W32) : List Byte :=
  match vfmt with
  | 0 => v.flatMap (fun x => leBytes x.toNat 4)
  | 1 => v.flatMap (fun x => leBytes (toBf16 x) 2)
  | _ =>
    let m := v.foldl (fun a x => f32Max a (f32Abs x)) 0
    let s := if m = 0 then 0x3F800000 else f32Div m (f32OfInt 127)
    leBytes s.toNat 4 ++ v.map (fun x => BitVec.ofInt 8 (((f32 (f32Div x s)).toInt).getD 0))

/-- The CODE part: bit i is 1 when y_i > 0.0 (R237). -/
def codeBytes (y : List W32) (bits : Nat) : List Byte :=
  (List.range (bits / 8)).map (fun k => BitVec.ofNat 8 ((List.range 8).foldl (fun b j =>
    if (FV.fin false 0 0).lt (f32 (y.getD (8 * k + j) 0)) then b + 2 ^ j else b) 0))

end Sys2Proof.Machine
end

