-- ==== Sys2Proof/Machine/Jobs.lean ====
section
/-! DEFINITION. Jobs as JD keeps them: submission and binding (R26, R30, R217, R320, R322), output chunks (R239, R241),
progress records (R248, R282, R309, R325) and completion. -/

namespace Sys2Proof.Machine

/-! ## Blank progress -/

def ScanProg.blank : ScanProg :=
  { issued := [], nextExt := 0, delivered := [], bytesOut := 0, seen := 0, matched := 0, malformed := 0, parseErr := 0,
    skipped := 0, truncated := 0, outFull := false, badLba := none, aggs := [], floats := [], staged := [] }

def SearchProg.blank : SearchProg :=
  { ctxs := [], done := 0, epoch := none, notFound := 0, started := false, base := [], lists := [], fmt := 0 }

def LapProg.blank : LapProg :=
  { accepted := 0, tokensOut := 0, reason := 0, recalls := 0, step := 0, lapInStep := 0, stepsDone := 0, lastStep := none,
    loss := 0, cursor := 0, held := 0, pass1 := false, layers := [], holds := [], serveVer := 0,
    pend := 0, pubStep := 0, pubDue := false, final := 0, seqLen := 0 }

/-! ## Finding and changing jobs -/

def State.job (s : State) (tag : Nat) : Option Job := s.jd.jobs.find? (fun j => j.tag == tag)

/-- Change job `tag`, whose tag stays. -/
def State.onJob (s : State) (tag : Nat) (f : Job → Job) : State :=
  { s with jd := { s.jd with jobs := s.jd.jobs.map (fun j => if j.tag = tag then { f j with tag := tag } else j) } }

def State.jobsOf (s : State) (squad : Nat) : List Job := s.jd.jobs.filter (fun j => j.squad == squad)

/-- Admitted and not completed. -/
def Job.admitted (j : Job) : Bool := j.state != .queued && j.state != .restart

/-- Some job is admitted and not completed (R336). -/
def State.anyAdmitted (s : State) : Bool := s.jd.jobs.any Job.admitted

def Job.u8 (j : Job) (o : Nat) : Nat := byteAt j.desc o
def Job.u16 (j : Job) (o : Nat) : Nat := u16At j.desc o
def Job.u32 (j : Job) (o : Nat) : Nat := u32At j.desc o
def Job.u64 (j : Job) (o : Nat) : Nat := u64At j.desc o

/-- Common fields (R217). -/
def Job.target (j : Job) : Nat := j.u8 5
def Job.region (j : Job) : Nat := j.u16 6
def Job.resultAddr (j : Job) : Nat := j.u64 24
def Job.resultLen (j : Job) : Nat := j.u64 32

/-- snapshot_epoch and jflags, taken as 0 under command set 2.x (R322). -/
def Job.snapField (j : Job) : Nat := if j.u8 1 = 2 then 0 else j.u64 16
def Job.flags (j : Job) : Nat := if j.u8 1 = 2 then 0 else j.u16 2

/-- The job is read-only (R243, R281, R418). -/
def Job.readOnly (j : Job) : Bool :=
  (j.kind == 1) || (j.kind == 2 && j.target != 2) || j.kind == 3 || j.kind == 7

/-! ## Binding (R26, R30) -/

/-- Function of the squads that take a job kind (R26). -/
def kindFunction (kind : Nat) : Nat :=
  if kind ≤ 2 then 1 else if kind ≤ 7 then 2 else if kind = 0x20 then 4 else 3

/-- The squad a binding gives a function. -/
def Binding.squadFor (b : Binding) (func : Nat) : Nat :=
  match func with
  | 1 => b.scan
  | 2 => b.search
  | 3 => b.serve
  | _ => b.train

/-- The squad a job binds to: its squad field, or the binding of its submission queue; none when that squad does not
exist or does not take the kind. -/
def State.bindSquad (s : State) (sq kind field : Nat) : Option Nat :=
  let n := if field ≠ 0xFF then field else
    match s.sl.set_.bindings.find? (fun b => b.first ≤ sq && sq ≤ b.last) with
    | none => 0xFF
    | some b => b.squadFor (kindFunction kind)
  match s.squadOf n with
  | none => none
  | some q => if q.func = kindFunction kind then some n else none

/-! ## Output (R239, R241) -/

/-- A chunk: header, items, zeros to a multiple of 32 bytes. -/
def chunkBytes (extent extentOff kind attempt flags malformed : Nat) (items : List (List Byte)) : List Byte :=
  let body := items.flatten
  let n := 32 + ceilDiv body.length 32 * 32
  leBytes n 4 ++ leBytes extent 4 ++ leBytes extentOff 8 ++ leBytes items.length 4 ++ leBytes kind 1 ++ leBytes attempt 1
  ++ leBytes flags 2 ++ leBytes malformed 4 ++ leBytes 0 4 ++ padTo (n - 32) body

/-- Write bytes of a job's result at an offset from result_addr: host memory, or the NEAR target's region. -/
def State.writeResult (s : State) (j : Job) (off : Nat) (d : List Byte) : State :=
  if j.target = 1 then
    match s.region j.region with
    | none => s
    | some r => s.nearWrite (r.base + j.resultAddr + off) d
  else s.hostWrite (j.resultAddr + off) d

/-- The aggregates a SCAN names: (op, field), op 0 left out (R228). -/
def Job.aggregates (j : Job) : List (Nat × Nat) :=
  ((List.range 8).map (fun i => (j.u8 (116 + 2 * i), j.u8 (117 + 2 * i)))).filter (fun a => a.1 != 0)

/-- The job is a SCAN with AGGREGATE output. -/
def Job.isAggregate (j : Job) : Bool := j.kind == 1 && j.u8 97 == 3

/-- The value of aggregate `k`: a SUM of FLOAT inputs adds them in some order, and the payload of a NaN is free (R241). -/
def Job.aggValue (j : Job) (tick k : Nat) : W64 :=
  match j.scan.floats.getD k [] with
  | [] => (j.scan.aggs.getD k (0, 0)).1
  | l =>
    let v := sum64 (fun i => Config.freeNat (tick + 16 * i + k)) l
    if (fmt64.decode v.toNat).isNan then Config.freeBits (tick + k) ||| 0x7FF8000000000000 else v

/-- The AGGREGATE chunk of a job (R240, R241). -/
def Job.aggChunk (j : Job) (tick : Nat) : List Byte :=
  chunkBytes 0xFFFFFFFF 0 3 j.attempt 1 0
    [leBytes j.scan.matched 8 ++ j.scan.aggs.zipIdx.flatMap (fun a =>
      leBytes (j.aggValue tick a.2).toNat 8 ++ leBytes a.1.2.toNat 8)]

/-- Space reserved for the AGGREGATE chunk at admission (R242). -/
def Job.aggReserve (j : Job) : Nat :=
  if j.isAggregate then 32 + ceilDiv (8 + 16 * j.aggregates.length) 32 * 32 else 0

/-- Write the AGGREGATE chunk of a job that ends, once it has been admitted: a job that waits to restart has one too. -/
def State.writeAgg (s : State) (j : Job) : State :=
  if j.isAggregate && j.state != .queued then
    ({ s with tick := s.tick + 32 * ((j.scan.floats.map List.length).sum + 1) }.writeResult j j.scan.bytesOut
      (j.aggChunk s.tick)).onJob j.tag (fun j => { j with scan := { j.scan with
      bytesOut := j.scan.bytesOut + j.aggReserve } })
  else s

/-! ## Scan geometry (R228, R230) -/

def Job.rangeLen (j : Job) : Nat := 4096 * j.u64 80
def Job.startOff (j : Job) : Nat := j.u64 88
def Job.extentSize (j : Job) : Nat := 2 ^ (if j.u8 96 = 0 then 24 else j.u8 96)
def Job.extents (j : Job) : Nat := ceilDiv (j.rangeLen - j.startOff) j.extentSize

/-- First extent not delivered. -/
def Job.firstMissing (j : Job) : Nat := lowestFree j.scan.delivered 0

/-- Every extent is delivered. -/
def Job.allDelivered (j : Job) : Bool := j.extents ≤ j.firstMissing

/-! ## Progress records (R248, R282, R309, R325) -/

/-- Stop code of R248 and R282: 0 DONE, 1 OUTPUT_FULL, 2 DRAIN, 3 CANCEL, 4 FAULT, 5 MEDIA, 6 CAPACITY. -/
def Job.stopCode (j : Job) : Nat := j.stop.getD (if j.scan.outFull then 1 else 0)

/-- The SCAN and EMBED part (R248). -/
def Job.scanPart (j : Job) : List Byte :=
  let i := j.firstMissing
  leBytes (if j.allDelivered then j.rangeLen else j.startOff + i * j.extentSize) 8 ++ leBytes j.snapshot 8
  ++ leBytes j.scan.delivered.length 4
  ++ leBytes (j.scan.delivered.filter (fun k => i < k)).length 4
  ++ leBytes j.scan.seen 8 ++ leBytes j.scan.matched 8 ++ leBytes j.scan.malformed 8 ++ leBytes j.scan.parseErr 8
  ++ leBytes j.scan.bytesOut 8 ++ leBytes j.scan.skipped 4 ++ leBytes j.scan.truncated 4 ++ leBytes (j.attempt + 1) 1
  ++ leBytes j.stopCode 1 ++ leBytes 0 6 ++ leBytes (j.scan.badLba.getD 0xFFFFFFFFFFFFFFFF) 8

/-- The search part (R282). -/
def Job.searchPart (j : Job) : List Byte :=
  leBytes (if j.kind = 7 then 0 else j.u32 64) 4 ++ leBytes j.search.done 4
  ++ leBytes (if j.kind = 3 then j.snapshot else if j.kind = 6 then j.search.epoch.getD 0xFFFFFFFFFFFFFFFF else 0) 8
  ++ leBytes j.search.notFound 4 ++ leBytes (b2n (j.kind == 6 && j.search.epoch.isSome)) 1 ++ leBytes (j.attempt + 1) 1
  ++ leBytes j.stopCode 1

/-- The SERVE_APPEND part (R309). -/
def State.servePart (s : State) (j : Job) : List Byte :=
  let q := s.jd.seqs.find (j.u32 64)
  leBytes (j.u32 64) 4 ++ leBytes j.lap.accepted 4 ++ leBytes j.lap.tokensOut 4
  ++ leBytes (match j.stop with | none => j.lap.reason | some r => r + 2) 1
  ++ leBytes (match q with | none => 2 | some q => if q.pages.isEmpty then 1 else 0) 1 ++ leBytes j.lap.recalls 2
  ++ leBytes ((q.map (fun q => q.tokens.length)).getD j.lap.seqLen) 4

/-- The TRAIN part (R309). -/
def State.trainPart (s : State) (j : Job) : List Byte :=
  leBytes j.lap.stepsDone 4 ++ leBytes (j.lap.lastStep.getD 0xFFFFFFFFFFFFFFFF) 8
  ++ leBytes (((s.rl.dir.find (j.u32 148)).map (fun e => e.cur.num)).getD 0) 4 ++ leBytes j.lap.serveVer 4
  ++ leBytes j.lap.loss.toNat 4 ++ leBytes j.lap.cursor 8 ++ leBytes j.lap.held 4
  ++ leBytes (if j.state = .finishing then j.lap.reason else j.stop.getD j.lap.reason) 1

/-- The kind part of a job's record. -/
def State.kindPart (s : State) (j : Job) : List Byte :=
  padTo 96 (if j.kind ≤ 2 then j.scanPart else if j.kind ≤ 7 then j.searchPart
    else if j.kind = 0x11 then s.servePart j else if j.kind = 0x20 then s.trainPart j else [])

/-- Write a record: the next sequence number, the latest 4,096 kept. -/
def State.writeProgress (s : State) (p : Progress) : State :=
  { s with jd := { s.jd with
      progress := ({ p with seq := s.jd.nextSeq } :: s.jd.progress).take 4096
      nextSeq := s.jd.nextSeq + 1 } }

/-- First namespace a job names (R325). -/
def Job.firstNs (j : Job) : Nat := if j.kind ≤ 6 || j.kind = 0x20 then j.u32 64 else 0

/-- The record of a job that completes with a status. -/
def State.jobRecord (s : State) (j : Job) (st : Nat) : Progress :=
  { seq := 0, c := j.c, opcode := j.opcode, kind := j.kind, squad := j.squad, cmdset := j.cmdset, status := st,
    tag := j.tag, hostTag := BitVec.ofNat 64 (j.u64 8), begun := j.admitBeat, fin := s.pc.beat, nsid := j.firstNs,
    part := s.kindPart j }

/-! ## Completing a job -/

/-- The contexts a job holds become FREE. -/
def State.freeContexts (s : State) (j : Job) : State :=
  j.search.ctxs.foldl (fun s x => s.setTile x.2.1 ((s.tile x.2.1).freeCtx x.2.2)) s

/-- Counts of R46 for a retire that is running, and for the forced retires that wait on an APPLY. -/
def State.countEnd (s : State) (squad st : Nat) : State :=
  let d := if st = stDraining then 1 else 0
  let a := if st = stJobAborted then 1 else 0
  let count (r : Retire) : Retire :=
    if r.squad = squad then { r with drained := r.drained + d, aborted := r.aborted + a } else r
  { s with sl := { s.sl with
      retire := s.sl.retire.map count
      load := s.sl.load.map (fun l => { l with retires := l.retires.map count }) } }

/-- Completion dword 0 bit [1] of a SCAN or EMBED: a record was malformed (R245). -/
def Job.malformedBit (j : Job) : Nat := if j.kind ≤ 2 then 2 * b2n (j.scan.malformed != 0) else 0

/-- A job leaves JD: its pins, contexts and snapshot are released, its record is written, then QE posts its
completion. -/
def State.finishJob (s : State) (tag st : Nat) (dw0 dw1 : Nat := 0) : State :=
  match s.job tag with
  | none => s
  | some j =>
    let s1 := (s.writeAgg j)
    let j1 := (s1.job tag).getD j
    let s2 := (s1.releasePins j1.pins).freeContexts j1
    let s3 := s2.writeProgress (s2.jobRecord j1 st)
    let s4 : State := { s3 with jd := { s3.jd with jobs := s3.jd.jobs.filter (fun k => !(k.tag == tag)) } }
    ((s4.countEnd j1.squad st).trimPool).complete j1.c st (dw0 + j1.malformedBit) dw1

/-- A stop reaches a job: the first one stands, but for a TRAIN job whose end was already decided. -/
def Job.stopped (j : Job) (stop : Nat) : Job :=
  { j with
    stop := some (if j.state = .finishing then stop else j.stop.getD stop)
    state := if j.state = .finishing then .stopping else j.state }

/-- Finish a job for a stop reason. -/
def State.stopJob (s : State) (tag stop st : Nat) (dw0 dw1 : Nat := 0) : State :=
  (s.onJob tag (fun j => j.stopped stop)).finishJob tag st dw0 dw1

/-- Status of a job that a drain stops: FENCED on a fenced squad (R409), else SQUAD_DRAINING. -/
def State.drainStatus (s : State) (squad : Nat) : Nat := if s.fenced squad then stFenced else stDraining

/-! ## Submission (R320, R322) -/

/-- A job as QE hands it to JD. -/
def State.newJob (s : State) (c : CmdId) (kind squad : Nat) (sub : Submit) (data : List Byte) (lists : List (List Byte)) :
    Job :=
  { tag := s.jd.nextTag, c := c, opcode := 0x81, kind := kind, squad := squad, cmdset := s.qe.versions.cmdset,
    desc := padTo 256 sub.desc, data := data, lists := lists, state := .queued, snapshot := 0, attempt := 0,
    admitBeat := 0, pins := [], stop := none, scan := ScanProg.blank, search := SearchProg.blank, lap := LapProg.blank }

/-- What QE and JD find at once: the status that ends the command, or the squad it binds to. -/
def State.submitCheck (s : State) (c : CmdId) (kind : Nat) (sub : Submit) : Nat ⊕ Nat :=
  if sub.prp1 % 256 ≠ 0 ∨ bitsW sub.d10 7 0 ≠ byteAt sub.desc 0 ∨ bitsW sub.d10 15 8 ≠ byteAt sub.desc 1
      ∨ byteAt sub.desc 0 ≠ kind then .inl stInvalidField
  else if byteAt sub.desc 1 ≠ s.qe.versions.cmdset / 16 then .inl stVersion
  else if byteAt sub.desc 1 = 2 ∧ 0x10 ≤ kind then .inl stVersion
  else match s.bindSquad c.sq kind (byteAt sub.desc 4) with
    | none => .inl stInvalidField
    | some n => if s.fenced n then .inl stFenced else .inr n

/-- The record JD writes for a command that ends without a place in JD's queue. -/
def State.refuseJob (s : State) (c : CmdId) (kind : Nat) (sub : Submit) (st : Nat) : State :=
  let j := s.newJob c kind (((s.bindSquad c.sq kind (byteAt sub.desc 4))).getD 0xFF) sub [] []
  let s1 := { s with jd := { s.jd with nextTag := s.jd.nextTag + 1 } }
  (s1.writeProgress (s1.jobRecord j st)).complete c st

/-- Queue a job for its squad, or end it. -/
def State.submit (s : State) (c : CmdId) (kind : Nat) (sub : Submit) (data : List Byte) (lists : List (List Byte)) :
    State :=
  match s.submitCheck c kind sub with
  | .inl st => s.refuseJob c kind sub st
  | .inr n =>
    { s with jd := { s.jd with jobs := s.jd.jobs ++ [s.newJob c kind n sub data lists], nextTag := s.jd.nextTag + 1 } }

/-! ## Admission conditions -/

/-- A commit still waits to take effect at the epoch that runs: JD admits no job before it (R271). -/
def State.commitPending (s : State) : Bool := s.idx.any (fun e => (e.2.commit.bind PendingCommit.ready).isSome)

/-- JD may take a job on the squad now (R25, R42, R271, R335, R409, R268): the boundary's commits have taken effect, ACTIVE, below max_jobs, in GO, or in BLOCKS for a
BLOCKS_SEARCH squad, and in PS0 or PS1. -/
def State.mayAdmit (s : State) (j : Job) : Bool :=
  match s.squadOf j.squad with
  | none => false
  | some q =>
    q.state == .active && ((s.jobsOf j.squad).filter Job.admitted).length < q.maxJobs && s.workOn && !s.commitPending
    && (s.inGo || (s.inBlocks && j.kind == 3 && bitN q.flags 1))

/-- Common checks of R217 and R218 at admission. -/
def State.commonOk (s : State) (j : Job) : Bool :=
  zerosAt j.desc 40 24 && j.flags / 2 == 0 && j.target < 3
  && (if j.target = 0 then j.region == 0 && j.resultAddr % 4096 == 0 && j.resultLen % 4096 == 0
      else if j.target = 1 then
        j.resultAddr % 32 == 0 && j.resultLen % 32 == 0
        && (match s.region j.region with
            | none => false
            | some r => r.tier == 0 && (r.kind == 4 || r.kind == 5) && r.owner == j.squad && r.access == 0
                && j.resultAddr + j.resultLen ≤ r.size)
      else j.resultLen == 0 && j.kind == 2
        && (match s.region j.region with | none => false | some r => r.kind == 6))

/-- The snapshot epoch of a job, or none when the one it gives may not be used (R197, R233). -/
def State.snapshotFor (s : State) (j : Job) : Option Nat :=
  if j.snapField = 0 then some s.mm.epoch
  else if s.mm.epoch < j.snapField || j.snapField < s.snapFloor then none else some j.snapField

/-- Mark a job admitted at its snapshot, with its objects pinned (R168). -/
def State.admitJob (s : State) (tag snap : Nat) (objs : List Nat) : State :=
  let r := s.takePins objs
  r.1.onJob tag (fun j => { j with
    state := .admitted, snapshot := snap, admitBeat := s.pc.beat, pins := r.2 })

/-- How the objects a job names stand at admission (R168): none of them gone, or some that holds admission back. -/
def State.objectsReady (s : State) (os : List Nat) : Bool :=
  os.all (fun o => match s.rl.dir.find o with | none => true | some e => e.pinnable)

/-- Every object named exists. -/
def State.objectsExist (s : State) (os : List Nat) : Bool := os.all (fun o => (s.rl.dir.find o).isSome)

end Sys2Proof.Machine
end

