-- ==== Sys2Proof/Machine/Pacer.lean ====
section
/-! DEFINITION. The Pacer (R357 to R376, R488): edges and boundaries, cadence messages, the ceiling and the grants, the
power band, the thermal ceiling, REPORTs. -/

namespace Sys2Proof.Machine

/-! ## Edges (R357 to R359) -/

/-- PC_NOMINAL held to 200,000 to 5,000,000 (R376). -/
def clampPeriod (ns : Nat) : Nat := max 200000 (min 5000000 ns)

/-- An edge interval lies from 200 µs to 5,000 µs. -/
def intervalOk (ns : Nat) : Bool := 200000 ≤ ns && ns ≤ 5000000

/-- Eight intervals each lie within 1 % of their mean (R358). -/
def agree8 (l : List Nat) : Bool :=
  l.length == 8 && l.all (fun x => 800 * x ≤ 101 * l.sum && 99 * l.sum ≤ 800 * x)

/-- Mean of a list, rounded down; 0 for none. -/
def meanNat (l : List Nat) : Nat := if l.length = 0 then 0 else l.sum / l.length

/-- An edge during acquisition: the interval since the edge before it is kept, discards those before it, or completes
eight that agree, which locks. -/
def Pacer.acquireEdge (p : Pacer) (interval : Nat) : Pacer :=
  if !intervalOk interval then { p with acquired := [] }
  else
    let a := (interval :: p.acquired).take 8
    if agree8 a then
      { p with mode := .locked, acquired := [], meanOf := a, periodNs := meanNat a, missRun := 0, lastByEdge := true,
               event := setEv p.event 1 }
    else { p with acquired := a }

/-- An edge inside the window: it makes the boundary; an interval between two boundaries that edges made enters the
mean of eight (R359). -/
def Pacer.lockedEdge (p : Pacer) (since : Nat) : Pacer :=
  if p.lastByEdge then
    let m := (since :: p.meanOf).take 8
    { p with meanOf := m, periodNs := meanNat m, missRun := 0, lastByEdge := true }
  else { p with missRun := 0, lastByEdge := true }

/-- A rising transition with its high time, the time since the previous boundary and since the previous edge. -/
def State.edge (s : State) (high since sinceEdge : Nat) : State :=
  match s.pc.mode with
  | .freerun => if high < 1000 then s else { s with pc := { s.pc with mode := .acquire, acquired := [] } }
  | .acquire => if high < 1000 then s else { s with pc := s.pc.acquireEdge sinceEdge }
  | .locked =>
    if high < 1000 || 1000 * since < 875 * s.pc.periodNs then
      { s with pc := { s.pc with cntFalse := sat16 (s.pc.cntFalse + 1) } }.postOnce srcPC kFalseStart 0 0 0 0 0 0
    else if 1000 * since ≤ 1125 * s.pc.periodNs then { s with pc := s.pc.lockedEdge since }
    else s

/-- The Pacer runs: in every phase, from entry to MARKS on (R358, R488). -/
def State.pacerRuns (s : State) : Bool := s.mc.phase != .off

/-! ## REPORTs (R362, R365) -/

def Pacer.windowBeats (p : Pacer) : Nat := max 1 (bitsW p.bandCtl 15 8)

/-- Energy over duration of the last WINDOW beats (R371). -/
def Pacer.windowMean (p : Pacer) : Nat :=
  let w := p.window.take p.windowBeats
  let t := (w.map Prod.snd).sum
  if t = 0 then 0 else (w.map (fun x => x.1 * x.2)).sum / t

/-- The REPORT the Pacer would send now. -/
def State.mkReport (s : State) (ep : Nat) : Report :=
  let p := s.pc
  let m := p.windowMean
  { endpoint := ep, version := p.msgVersion, seq := p.reportSeq, beat := BitVec.ofNat 64 p.beat + p.facOffset,
    target := m, tol := if p.msgVersion = 2 then p.beatW * 97 / 100 else 0,
    flags := p.bandState + 4 * s.qe.ps + 32 * b2n (p.mode == .freerun), outlet := s.power.temps.findD 1 0 }

/-- Send a REPORT to the endpoint of the last accepted SETPOINT; before the first, none. -/
def State.report (s : State) : State :=
  match s.pc.endpoint with
  | none => s
  | some ep => { s with pc := { s.pc with
      reports := s.mkReport ep :: s.pc.reports
      reportSeq := (s.pc.reportSeq + 1) % 65536 } }

/-! ## Cadence messages (R362 to R364) -/

/-- A facility message the Pacer accepts: a SETPOINT (R362, R364). -/
def setpointOk (b : List Byte) : Bool :=
  u16At b 0 == 0x1F2C && ((byteAt b 2 == 1 && b.length == 32) || (byteAt b 2 == 2 && b.length == 40))
  && byteAt b 3 == 1 && u16At b 6 == 0 && byteAt b 28 / 4 == 0 && byteAt b 29 == 0 && u16At b 30 == 0
  && u64At b 32 == 0

/-- A facility message the Pacer accepts: a PERIOD, which version 2 alone has. -/
def periodOk (b : List Byte) : Bool :=
  u16At b 0 == 0x1F2C && byteAt b 2 == 2 && b.length == 40 && byteAt b 3 == 3 && u16At b 6 == 0
  && u16At b 24 == 0 && u16At b 26 == 0 && byteAt b 28 == 0 && byteAt b 29 == 0 && u16At b 30 == 0
  && 200 ≤ u32At b 32 && u32At b 32 ≤ 5000 && u32At b 36 == 0

/-- What an accepted message brings. -/
def cadenceContent (b : List Byte) : CadenceContent :=
  if byteAt b 3 = 1 then
    .setpoint (bitN (byteAt b 28) 0) (bitN (byteAt b 28) 1) (min 8191 (u16At b 24)) (min 8191 (u16At b 26))
  else .period (u32At b 32)

/-- The PC beat at which a message's content takes effect (R363): effective_beat - PC_FAC_OFFSET, at least one boundary
away. -/
def effectBeat (beat : Nat) (off : W64) (eff : Nat) : Nat :=
  let e := (BitVec.ofNat 64 eff - off).toInt
  if (beat : Int) + 1 ≤ e then e.toNat else beat + 1

/-- Accept a message: PC_FAC_OFFSET, the version of the answers, the schedule, and for a SETPOINT its endpoint. -/
def Pacer.accept (p : Pacer) (endpoint : Nat) (b : List Byte) : Pacer :=
  let off := BitVec.ofNat 64 (u64At b 8) - BitVec.ofNat 64 p.beat
  { p with
    facOffset := off
    msgVersion := byteAt b 2
    endpoint := if byteAt b 3 = 1 then some endpoint else p.endpoint
    scheduled := p.scheduled ++ [(effectBeat p.beat off (u64At b 16), cadenceContent b)] }

/-- Discard a bad message (R364). -/
def State.msgBad (s : State) : State :=
  { s with pc := { s.pc with event := setEv s.pc.event 3 } }.postOnce srcPC kProtocol 0 0 0 0 0 0

/-- A cadence message arrives from an endpoint. Before Set Endpoint ID the module accepts none (R475); while the Pacer
does not run it is discarded in silence (R488). -/
def State.cadence (s : State) (endpoint : Nat) (b : List Byte) : State :=
  if !s.pacerRuns || s.power.eid.isNone then s
  else if setpointOk b || periodOk b then { s with pc := s.pc.accept endpoint b }
  else s.msgBad

/-- PC_BAND_CTL.ENABLE and SRC. -/
def Pacer.bandOn (p : Pacer) : Bool := bitW p.bandCtl 0
def Pacer.srcHost (p : Pacer) : Bool := bitW p.bandCtl 1

/-- The band is active (R369): enabled, in PS0 or PS1. -/
def State.bandActive (s : State) : Bool := s.pc.bandOn && s.qe.ps < 2

/-- Target and tolerance as they act (R376). -/
def Pacer.target (p : Pacer) : Nat := min 4500 p.targetW
def Pacer.tol (p : Pacer) : Nat := max 25 p.tolW

/-- Judging pauses to settle for 2 x WINDOW beats (R371). -/
def Pacer.settleBand (p : Pacer) : Pacer := { p with settle := 2 * p.windowBeats }

/-- Content of a SETPOINT takes effect (R363, R376). -/
def Pacer.applySetpoint (p : Pacer) (on low : Bool) (target tol : Nat) : Pacer :=
  let q := { p with lowDemand := low }
  if p.srcHost then q
  else
    let ctl := rwBits p.bandCtl 1 (if on then 1 else 0)
    if on then
      let r := { q with bandCtl := ctl, targetW := target, tolW := tol }
      if p.bandOn && p.targetW = target && p.tolW = tol then r else r.settleBand
    else { q with bandCtl := ctl }

/-- A PERIOD takes effect (R360): T and the start of the mean while LOCKED, else also the free-run period. -/
def Pacer.applyPeriod (p : Pacer) (us : Nat) : Pacer :=
  let ns := 1000 * us
  if p.mode = .locked then { p with periodNs := ns, meanOf := List.replicate 8 ns }
  else { p with periodNs := ns, freeNs := ns }

def Pacer.applyContent (p : Pacer) (c : CadenceContent) : Pacer :=
  match c with
  | .setpoint on low t w => p.applySetpoint on low t w
  | .period us => p.applyPeriod us

/-- Contents due at or before this beat take effect, in the order they came. -/
def Pacer.takeDue (p : Pacer) : Pacer :=
  let due := p.scheduled.filter (fun x => x.1 ≤ p.beat)
  due.foldl (fun q x => q.applyContent x.2) { p with scheduled := p.scheduled.filter (fun x => !(x.1 ≤ p.beat)) }

/-- True cap of a power state in W (R334). -/
def capOf (ps : Nat) : Nat := [4500, 2400, 600, 180, 60].getD ps 4500

/-- The band state while no window is judged: HOLDING while an active band settles, BELOW in an explicit lower state whose
cap lies below the band's bottom (R371), else OFF without an active band. -/
def State.bandNow (s : State) : Nat :=
  if s.bandActive then (if s.pc.bandState = 0 || 0 < s.pc.settle then 1 else s.pc.bandState)
  else if s.pc.bandOn && 2 ≤ s.qe.ps && !s.qe.psAuto && capOf s.qe.ps + s.pc.tol < s.pc.target then 2 else 0

/-- A change of the band state is reported (R365). -/
def State.bandFollows (s : State) : State :=
  if s.pc.bandState = s.bandNow then s else { s with pc := { s.pc with bandState := s.bandNow } }.report

/-- A withdrawal of low demand, which stood (`was`), asks for the last operational state (R337, R372). -/
def State.lowDemandExit (s : State) (was : Bool) : State :=
  if was && !s.pc.lowDemand && s.qe.psAuto && 3 ≤ s.qe.ps then { s with qe := { s.qe with psWant := some s.qe.psLastOp } }
  else s

def State.takeEffect (s : State) : State := ({ s with pc := s.pc.takeDue }.lowDemandExit s.pc.lowDemand).bandFollows

/-! ## Ceiling and grants (R366 to R369) -/

/-- The ceiling C (R366). -/
def State.ceiling (s : State) : Nat :=
  let c := min (capOf s.qe.ps) (s.pc.thermalCeil.getD 4500)
  if s.bandActive then min c (s.pc.target + s.pc.tol) else c

/-- A squad's estimate corrected by the ratio of measured to forecast draw over its last 16 beats. -/
def Pacer.corrected (p : Pacer) (squad est : Nat) : Nat :=
  let r := p.ratios.findD squad []
  let f := (r.map Prod.snd).sum
  if f = 0 then est else est * (r.map Prod.fst).sum / f

/-- Order of the classes in R367. -/
def classOrder : WorkClass → Nat
  | .search => 0
  | .serve => 1
  | .scanEmbed => 2
  | .train => 3
  | .media => 4
  | .index => 5

/-- A request goes before another: by class, then by how long it has waited. -/
def reqBefore (a b : WorkReq) : Bool :=
  classOrder a.cls < classOrder b.cls || (classOrder a.cls == classOrder b.cls && b.waited < a.waited)

/-- Insert a request behind those that go before it or equal it. -/
def insertReq (r : WorkReq) : List WorkReq → List WorkReq
  | [] => [r]
  | x :: xs => if reqBefore r x then r :: x :: xs else x :: insertReq r xs

/-- Requests in the order of R367. -/
def sortReqs (l : List WorkReq) : List WorkReq := l.foldl (fun acc r => insertReq r acc) []

/-- What the granting of a beat carries along. -/
structure Granting where
  forecast : Nat
  media    : Nat
  deferred : Nat
  granted  : List (Nat × Nat)
  bg       : List (Nat × Nat)
  drawn    : KMap Nat
  deriving DecidableEq, Repr

/-- The work a request asks for exists: garbage collection below GC_LOW (R201), or wear levelling past SPREAD (R202); the rest
is for MM and JD to ask. -/
def State.workExists (s : State) (r : WorkReq) : Bool :=
  !(r.cls == .media && r.work == 1) || decide (s.mm.erasedBlocks r.key < s.mm.gcLow) || decide (s.mm.spread < s.mm.eraseSpread r.key)

/-- Grant one request (R367, R368), or leave it for the next boundary; the slot's share never holds back a scrub. -/
def grantOne (c cap : Nat) (slot : W32) (alone : Bool) (p : Pacer) (g : Granting) (r : WorkReq) : Granting :=
  let e := p.corrected r.squad r.estW
  let held : Bool := match r.cls with
    | .media => r.work != 4 && decide (min 100 (bitsW slot 6 0) < g.media + r.pct)
    | .index => !bitW slot 7
    | _ => false
  let lap := r.cls == .serve || r.cls == .scanEmbed || r.cls == .train
  if held then g
  else if g.forecast + e ≤ c || (lap && c < e && alone && g.granted.isEmpty && g.forecast + e ≤ cap) then
    { forecast := g.forecast + e, media := if r.cls = .media then g.media + r.pct else g.media, deferred := g.deferred,
      granted := g.granted ++ [(r.squad, r.key)], bg := if lap || r.cls == .search then g.bg else g.bg ++ [(r.work, r.key)], drawn := g.drawn.put r.squad (g.drawn.findD r.squad 0 + e) }
  else { g with deferred := g.deferred + 1 }

/-- Add filler class by class while the forecast is below the target and stays at or below C (R369). -/
def addFiller (c target : Nat) (en : W32) (l : List (Nat × Nat × Nat)) (f : Nat) : Nat × List (Nat × Nat) :=
  (List.range 6).foldl (fun acc k =>
    l.foldl (fun acc x =>
      if x.1 = k && bitW en k && acc.1 < target && acc.1 + x.2.2 ≤ c
      then (acc.1 + x.2.2, acc.2 ++ [(x.1, x.2.1)]) else acc) acc) (f, [])

/-- Ratios of the beat that ends: measured draw of each lap in flight against its forecast. -/
def Pacer.noteRatios (p : Pacer) (meas : List (Nat × Nat)) : Pacer :=
  { p with ratios := meas.foldl (fun r x =>
      match p.forecasts.find x.1 with
      | none => r
      | some f => r.put x.1 (((x.2, f) :: r.findD x.1 []).take 16)) p.ratios }

/-- The Pacer's decisions at a boundary: the ceiling, the forecast, the grants and the filler. -/
def State.grant (s : State) (b : BoundaryInfo) : State :=
  let p := s.pc.noteRatios b.inFlight
  let c := s.ceiling
  let base := b.idleW + (b.inFlight.map Prod.snd).sum + b.urgentW
  let slot := p.slots.getD (p.beat % 16) 0
  let laps := s.qe.ps < 2
  let reqs := sortReqs (b.reqs.filter (fun r => s.workExists r && (laps || r.cls == .media || r.cls == .index)))
  let g0 : Granting := { forecast := base, media := 0, deferred := 0, granted := [], bg := [],
                         drawn := b.inFlight.foldl (fun d x => d.put x.1 (d.findD x.1 0 + x.2)) [] }
  let g := reqs.foldl (grantOne c (capOf s.qe.ps) slot b.inFlight.isEmpty p) g0
  let f := if s.bandActive then addFiller c p.target p.fillerEn b.filler g.forecast else (g.forecast, [])
  { s with pc := { p with
      ceilingW := c, deferCnt := sat32 (p.deferCnt + g.deferred), granted := g.granted, fillerRun := f.2,
      bgRun := (p.bgRun ++ g.bg ++ f.2.filter (fun x => x.1 != 5)).dedup,
      forecastW := f.1, forecasts := g.drawn } }

/-! ## Thermal ceiling (R373) -/

/-- Limit of a thermal-ceiling trigger (R483): a junction, a DRAM stack, the outlet. -/
def triggerAt (n : Nat) : Option Nat :=
  if 18 ≤ n ∧ n ≤ 55 then some 1050 else if 2 ≤ n ∧ n ≤ 17 then some 950 else if n = 1 then some 800 else none

/-- The sensor stands at its trigger. -/
def State.atTrigger (s : State) (n : Nat) : Bool :=
  match triggerAt n with
  | none => false
  | some l => l ≤ s.power.temps.findD n 0

/-- The ceiling at a boundary: 5 % lower while a trigger stands, 2 % higher while it rises, ended past the cap. -/
def State.thermalStep (s : State) : State :=
  match s.pc.thermalCeil with
  | none => s
  | some c =>
    if s.pc.rising then
      let n := c + ceilDiv (2 * c) 100
      if capOf s.qe.ps < n then { s with pc := { s.pc with thermalCeil := none, rising := false } }
      else { s with pc := { s.pc with thermalCeil := some n } }
    else if s.pc.triggers.any s.atTrigger then { s with pc := { s.pc with thermalCeil := some (c * 95 / 100) } }
    else s

/-! ## Judging the band (R371) -/

/-- Post POWER_BAND with its event and REPORT. -/
def State.postBand (s : State) (mean dir : Nat) : State :=
  let s1 := s.postCorr srcPC kPowerBand 0 (BitVec.ofNat 32 mean) (BitVec.ofNat 32 dir) 0 0
  { s1 with
    qe := s1.qe.asyncEvent 0xC3
    pc := { s1.pc with
      bandLost := true, event := setEv s1.pc.event 2, bandLostCnt := sat32 (s1.pc.bandLostCnt + 1), armed := false,
      held := 0 } }.report

/-- Judge the window mean: 1 HOLDING, 2 BELOW, 3 ABOVE. -/
def Pacer.judge (p : Pacer) : Nat :=
  let m := p.windowMean
  if m + p.tol < p.target then 2 else if p.target + p.tol < m then 3 else 1

/-- Judging at a boundary: only while a band is active, in GO, and after settling. -/
def State.bandJudge (s : State) : State :=
  if !s.bandActive || !s.inGo then s.bandFollows
  else if 1 < s.pc.settle then { s with pc := { s.pc with settle := s.pc.settle - 1 } }.bandFollows
  else
    let j := s.pc.judge
    let changed := j != s.pc.bandState
    let s1 := { s with pc := { s.pc with bandState := j, settle := 0 } }
    if j = 1 then
      let h := s1.pc.held + 1
      let s2 := { s1 with pc := { s1.pc with bandLost := false, held := h, armed := s1.pc.armed || s1.pc.windowBeats ≤ h } }
      if changed then s2.report else s2
    else if s1.pc.armed then s1.postBand s1.pc.windowMean (j - 1)
    else
      let s2 := { s1 with pc := { s1.pc with bandLost := true, held := 0 } }
      if changed then s2.report else s2

/-! ## The boundary itself (R361, R374) -/

/-- Energy, means and beat number of the beat that ends. -/
def Pacer.turn (p : Pacer) (meanW durNs : Nat) : Pacer :=
  let e := p.energyFrac + meanW * durNs
  { p with
    beat := p.beat + 1, energyMJ := p.energyMJ + e / 1000000, energyFrac := e % 1000000, beatW := meanW,
    window := ((meanW, durNs) :: p.window).take 256, reportCount := p.reportCount + 1 }

/-! ## Meanings -/

/-- BEAT_EDGE (R357, R358, R359). -/
def execBeatEdge (highNs sinceBoundary sinceEdge : Nat) (s : State) : Host.Outcome State Fault Refusal :=
  done (if s.pacerRuns then s.edge highNs sinceBoundary sinceEdge else s)

/-- MISSED_BEAT (R359): the boundary at 1.125 T, counted; it enters no mean. -/
def execMissedBeat (s : State) : Host.Outcome State Fault Refusal :=
  done (if s.pacerRuns && s.pc.mode == .locked && s.pc.missRun < 4 then
    { s with pc := { s.pc with cntMiss := sat16 (s.pc.cntMiss + 1), missRun := s.pc.missRun + 1, lastByEdge := false } }
  else s)

/-- FREERUN_ENTRY (R359, R365): after the fourth consecutive missed beat, FREERUN at the last measured T, and a REPORT. -/
def execFreerunEntry (s : State) : Host.Outcome State Fault Refusal :=
  done (if s.pacerRuns && s.pc.mode == .locked && 4 ≤ s.pc.missRun then
    { s with pc := { s.pc with
        mode := .freerun, freeNs := s.pc.periodNs, event := setEv s.pc.event 0, acquired := [], missRun := 0,
        lastByEdge := false } }.report
  else s)

/-- FREERUN_BOUNDARY (R358): in FREERUN or ACQUIRE the free-run period makes the boundary, no edge. -/
def execFreerunBoundary (s : State) : Host.Outcome State Fault Refusal :=
  done (if s.pacerRuns && s.pc.mode != .locked then { s with pc := { s.pc with lastByEdge := false } } else s)

/-- SETPOINT (R362 to R364, R488). -/
def execSetpoint (endpoint : Nat) (body : List Byte) (s : State) : Host.Outcome State Fault Refusal :=
  done (s.cadence endpoint body)

/-- PERIOD (R360, R362 to R364, R488). -/
def execPeriod (endpoint : Nat) (body : List Byte) (s : State) : Host.Outcome State Fault Refusal :=
  done (s.cadence endpoint body)

/-- SETPOINT_TAKE_EFFECT (R360, R363, R372): what a boundary does with the contents then due. -/
def execSetpointTakeEffect (s : State) : Host.Outcome State Fault Refusal :=
  done (if s.pacerRuns then s.takeEffect else s)

/-- REPORT_TIMER (R365): every REPORT_EVERY beats; 0 sends on events only. -/
def execReportTimer (s : State) : Host.Outcome State Fault Refusal :=
  let every := bitsW s.pc.bandCtl 31 16
  done (if s.pacerRuns && every != 0 && every ≤ s.pc.reportCount then
    { s with pc := { s.pc with reportCount := 0 } }.report else s)

end Sys2Proof.Machine
end

