-- ==== Sys2Proof/Machine/LpCore.lean ====
section
/-! DEFINITION. Frames LP sends and the violations it records (R346, R347, R352, R354). -/

namespace Sys2Proof.Machine

/-- Cells of the request and the reply ring (R345). -/
def reqCells : Nat := 8128
def rplCells : Nat := 8192

/-- Offset of a cell in function 1 BAR0. -/
def reqOff (i : Nat) : Nat := 0x1000 + 64 * i
def rplOff (i : Nat) : Nat := 0x80000 + 64 * i

/-- A frame of whole cells (R347). -/
def lpFrame (type flags cells tag arg : Nat) (body : List Byte) : List Byte :=
  padTo (64 * cells) (leBytes type 1 ++ leBytes flags 1 ++ leBytes cells 2 ++ leBytes tag 2 ++ leBytes 0 2 ++ leBytes arg 8
    ++ body)

/-- Reply cells free: the ring is full when the producer plus 1 equals the consumer (R346). -/
def Lp.free (l : Lp) : Nat := (l.rplCons + 2 * rplCells - l.rplProd - 1) % rplCells

/-- Write a frame at a reply cell and move the producer past it: vector 0 (R345). -/
def Lp.putAt (l : Lp) (cell : Nat) (f : List Byte) : Lp :=
  { l with ring := writeCells 0 l.ring (rplOff cell) f, rplProd := (cell + f.length / 64) % rplCells, irqs := 0 :: l.irqs }

/-- A bit of LP_EVENT is set: vector 1 (R345). -/
def Lp.note (l : Lp) (bit : Nat) : Lp := { l with event := setEv l.event bit, irqs := 1 :: l.irqs }

/-- Write a frame if it fits, behind a PAD frame when it would wrap around the ring end (R346). -/
def Lp.tryPut (l : Lp) (f : List Byte) : Option Lp :=
  let n := f.length / 64
  if l.rplProd + n ≤ rplCells then (if n ≤ l.free then some (l.putAt l.rplProd f) else none)
  else
    let r := rplCells - l.rplProd
    if r + n ≤ l.free then some ((l.putAt l.rplProd (lpFrame 0 0 r 0 0 [])).putAt 0 f) else none

/-- Send waiting frames in order while they fit. -/
def Lp.sendAll (l : Lp) : List (List Byte) → Lp
  | [] => { l with outq := [] }
  | f :: fs =>
    match l.tryPut f with
    | none => { l with outq := f :: fs }
    | some l' => l'.sendAll fs

/-- Send frames behind those that wait. -/
def Lp.send (l : Lp) (fs : List (List Byte)) : Lp := l.sendAll (l.outq ++ fs)

def State.lpSend (s : State) (fs : List (List Byte)) : State := { s with lp := s.lp.send fs }

/-- STATUS codes (R352). -/
def lpGood : Nat := 0
def lpMedium : Nat := 1
def lpProtected : Nat := 2
def lpBadRange : Nat := 3
def lpUnsupp : Nat := 4
def lpNotReady : Nat := 5
def lpInternal : Nat := 6
def lpAborted : Nat := 7
def lpProtocolError : Nat := 8
def lpTimeout : Nat := 9
def lpNoVolume : Nat := 10

/-- STATUS frame. -/
def lpStatus (tag code blocks : Nat) : List Byte := lpFrame 4 0 1 tag (code + 256 * blocks) []

/-- End a command with STATUS: its tag is free, and it no longer counts as outstanding (R348). -/
def State.lpEnd (s : State) (tag code blocks : Nat) : State :=
  ({ s with
      qe := s.qe.release { sq := lpQueue, cid := tag }
      lp := { s.lp with cmds := s.lp.cmds.del tag } }).lpSend [lpStatus tag code blocks]

/-- Record a violation: counter, event bit, and a record once per code per beat (R354). -/
def State.lpViolation (s : State) (code cell type tag hdr : Nat) : State :=
  let false_ := code == 5
  let l := if false_ then { s.lp with falseCnt := sat32 (s.lp.falseCnt + 1) }.note 1
    else { s.lp with protoCnt := sat32 (s.lp.protoCnt + 1) }.note 0
  { s with lp := l }.postOnce srcLP (if false_ then kFalseStart else kProtocol) code
    (BitVec.ofNat 64 (cell + 2 ^ 16 * type + 2 ^ 24 * tag)) (BitVec.ofNat 32 code) (BitVec.ofNat 32 hdr) 0 0

/-- NAK frame. -/
def lpNak (tag code cell type : Nat) : List Byte := lpFrame 6 0 1 tag (code + 256 * cell + 2 ^ 24 * type) []

/-- DATA frames of a READ (R350): 16,384 bytes each, the last shorter; `n` bounds their number. -/
def lpDataFrames (tag : Nat) (d : List Byte) : Nat → Nat → List (List Byte)
  | 0, _ => []
  | n + 1, off =>
    if d.length ≤ off then []
    else
      let p := (d.drop off).take 16384
      lpFrame 3 (if d.length ≤ off + 16384 then 1 else 0) (ceilDiv (16 + p.length) 64) tag (off + 2 ^ 40 * p.length) p
        :: lpDataFrames tag d n (off + 16384)

end Sys2Proof.Machine
end

