-- ==== Sys2Proof/Machine/Storage.lean ====
section
/-! DEFINITION. Storage commands (R314, R327 to R333, R182 to R185, R199): entries and overlap, landing and completion,
write progress, and what a reset or a loss of power leaves. -/

namespace Sys2Proof.Machine

/-! ## Ranges and entries (R327, R328) -/

/-- The command takes range-lock entries. -/
def StoreCmd.writes (k : StoreCmd) : Bool := k.op == .write || k.op == .zeroes || k.op == .dealloc

/-- Two ranges share a block. -/
def rangesMeet (a b : Nat × Nat) : Bool := a.1 < b.1 + b.2 && b.1 < a.1 + a.2

/-- Two commands overlap. -/
def StoreCmd.overlaps (k l : StoreCmd) : Bool :=
  k.nsid == l.nsid && k.ranges.any (fun a => l.ranges.any (fun b => rangesMeet a b))

/-- Fetch order of the commands this one waits for: those fetched before it that hold, or wait in the holding list for,
an overlapping entry; for a Flush, every earlier write to its namespaces (R314); for a cryptographic Format, every earlier
command of its namespace, and later ones wait for it (R463). -/
def Qe.waitsFor (q : Qe) (k : StoreCmd) : List Nat :=
  (q.store.filter (fun l => l.order < k.order
    && (if k.op == .format || l.op == .format then k.nsid == l.nsid
        else l.writes && (if k.op == .flush then k.nsid == 0xFFFFFFFF || k.nsid == l.nsid
          else l.stage != .preReplay && l.overlaps k)))).map StoreCmd.order

def State.onStore (s : State) (order : Nat) (f : StoreCmd → StoreCmd) : State :=
  { s with qe := { s.qe with store := s.qe.store.map (fun k => if k.order = order then f k else k) } }

def State.storeCmd (s : State) (c : CmdId) : Option StoreCmd := s.qe.store.find? (fun k => k.c == c && !k.silent)

/-- Blocks a command names. -/
def StoreCmd.blocks (k : StoreCmd) : Nat := (k.ranges.map Prod.snd).sum

def StoreCmd.slba (k : StoreCmd) : Nat := (k.ranges.headD (0, 0)).1

/-- Pieces a write has in all (R183). -/
def StoreCmd.pieceCount (k : StoreCmd) : Nat := if k.op = .write then ceilDiv k.blocks 64 else k.pieces.length

/-- Every piece of a write is on the medium; of a write of function 1 that a reset ended, every piece whose window was
complete (R355). -/
def StoreCmd.landed (k : StoreCmd) : Bool :=
  (k.pieces.length == k.pieceCount || (k.silent && k.c.sq == lpQueue)) && k.pieces.all (fun p => p.onMedium || (p.zeros != 0 && p.stripe.isNone))

/-! ## Checks -/

/-- LBAs an attached index keeps from NVM writes and deallocations (R255): its superblock slots, list table and side
log. -/
def Index.guards (x : Index) (a : Nat × Nat) : Bool :=
  rangesMeet a (0, 2) || rangesMeet a (u64At x.super 64, ceilDiv (16 * u32At x.super 12) 4096)
  || rangesMeet a (u64At x.super 72, u64At x.super 80)

def State.indexDenies (s : State) (nsid : Nat) (rs : List (Nat × Nat)) : Bool :=
  match s.idx.find nsid with
  | none => false
  | some x => rs.any x.guards

/-- The status with which a storage command ends at once, or none. -/
def State.storeCheck (s : State) (k : StoreCmd) : Option Nat :=
  if k.op = .flush ∧ k.nsid = 0xFFFFFFFF then none
  else match s.mm.namespaces.find k.nsid with
  | none => some stInvalidNs
  | some n =>
    if !n.attached then some stInvalidNs
    else if k.op = .flush then none
    else if (k.op != .dealloc && k.op != .objRead && (512 < k.blocks && k.c.sq != lpQueue || k.blocks == 0)) then some stInvalidField
    else if !k.ranges.all (fun r => n.holds r.1 r.2) then some stLbaRange
    else if k.writes && n.readOnly then some stWriteProtected
    else if k.writes && s.indexDenies k.nsid k.ranges then some stAccessDenied
    else none

/-! ## Write progress (R333) -/

def bitsOf (ps : List Piece) : Nat := (ps.zipIdx.map (fun x => if x.1.onMedium then 2 ^ x.2 else 0)).sum

/-- Add an entry of log page 0xC1. -/
def Qe.addWp (q : Qe) (e : WpEntry) : Qe :=
  let ev := setEv q.event 1
  let q1 := if q.wp.length < 4096 then { q with wp := q.wp ++ [e], event := ev }
    else { q with wp := q.wp.drop 1 ++ [e], wpOverflow := true, event := ev }
  q1.asyncEvent 0xC1

/-- The entry of a write that ends unfinished. -/
def StoreCmd.wpEntry (k : StoreCmd) (cause : Nat) : WpEntry :=
  { nsid := k.nsid, sqid := k.c.sq % 0x10000, cid := k.c.cid, slba := k.slba, nlb := k.blocks, pieces := ceilDiv k.blocks 64,
    onMed := bitsOf k.pieces, cause := cause, opcode := if k.op = .zeroes then 8 else 1 }

/-- A multi-piece Write or Write Zeroes with a piece on the medium. -/
def StoreCmd.reports (k : StoreCmd) : Bool :=
  (k.op == .write || k.op == .zeroes) && 64 < k.blocks && k.pieces.any Piece.onMedium

/-! ## Ending a command -/

/-- STATUS code of function 1 for a status (R352). -/
def lpCodeOf (st : Nat) : Nat :=
  if st = stOk then lpGood else if st = stUnrecovered then lpMedium else if st = stWriteProtected then lpProtected
  else if st = stLbaRange then lpBadRange else if st = stInvalidNs then lpNoVolume else if st = stInvalidField then lpBadRange
  else lpInternal

/-- Apply the pieces that are on the medium to the map, committed at MM_EPOCH + 1 (R191, R196). -/
def State.applyPieces (s : State) (nsid : Nat) (ps : List Piece) : State :=
  match s.mm.namespaces.find nsid with
  | none => s
  | some n => { s with mm := ps.foldl (fun m p => m.applyPiece nsid n s.liveSnaps (s.mm.epoch + 1) p) s.mm }

/-- Take a command out of QE: its entries release (R328). -/
def Qe.dropStore (q : Qe) (k : StoreCmd) : Qe :=
  { q with
    store := q.store.filter (fun l => !(l.order == k.order))
    locksUsed := q.locksUsed - k.locks
    held := q.held.filter (fun c => !(c == k.c)) }

/-- Complete every Flush whose earlier writes have all completed (R314). -/
def State.settleFlushes (s : State) : State :=
  (s.qe.store.filter (fun k => k.op == .flush && k.stage == .overlap)).foldl (fun s k =>
    if (s.qe.waitsFor k).isEmpty then
      let s1 := { s with qe := s.qe.dropStore k }
      if k.c.sq = lpQueue then s1.lpEnd k.c.cid lpGood 0 else s1.complete k.c stOk
    else s) s

/-- End a command: pieces on the medium of an unfinished write are applied and reported, its entries release, and its
completion or STATUS is posted unless it runs on with none (R332). -/
def State.endStore (s : State) (k : StoreCmd) (st : Nat) (data : List (List Byte)) : State :=
  let ok := st == stOk && !k.silent
  let s1 := if k.writes && st != stOk then s.applyPieces k.nsid (k.pieces.filter Piece.onMedium) else s
  let s2 := { s1 with qe := s1.qe.dropStore k }
  let s3 := if !ok && k.reports then { s2 with qe := s2.qe.addWp (k.wpEntry (if k.silent then 1 else 2)) } else s2
  let s4 : State := if k.op == .write && st == stOk then { s3 with mm := { s3.mm with hostWritten := s3.mm.hostWritten + k.blocks } } else s3
  let s5 := if k.silent then s4
    else if k.c.sq = lpQueue then
      s4.lpEnd k.c.cid (lpCodeOf st) (if st = stOk then k.blocks else ((k.pieces.filter Piece.onMedium).map (fun p => p.blocks.length)).sum)
    else s4.complete k.c st 0 0 data
  s5.settleFlushes

/-- Units pieces touch. -/
def Namespace.pieceUnits (n : Namespace) (ps : List Piece) : List Nat :=
  (ps.flatMap (fun p => n.unitsOf p.slba p.length)).dedup

/-- A write of these pieces that takes effect now finds its snapshot pool copies (R199). -/
def State.poolRoom (s : State) (n : Namespace) (ps : List Piece) : Bool :=
  s.mm.poolRoom s.liveSnaps (n.pieceUnits ps) (s.mm.epoch + 1)

/-- A write waits for a pool copy. -/
def State.awaitPool (s : State) (k : StoreCmd) (ps : List Piece) : State :=
  { s.onStore k.order (fun k => { k with stage := .snapshot, pieces := ps }) with
    mm := { s.mm with event := setEv s.mm.event 2 } }

/-- A write whose pieces are all on the medium takes effect and completes (R182), once the pool has the copies it needs
(R199). -/
def State.finishWrite (s : State) (k : StoreCmd) : State :=
  match s.mm.namespaces.find k.nsid with
  | none => (s.applyPieces k.nsid k.pieces).endStore k stOk []
  | some n => if s.poolRoom n k.pieces then (s.applyPieces k.nsid k.pieces).endStore k stOk [] else s.awaitPool k k.pieces

/-! ## Starting a command -/

/-- Pieces of a write from its data. -/
def StoreCmd.cut (k : StoreCmd) (data : List (List Byte)) : List Piece :=
  let blocks := (List.range k.blocks).map (fun i => trimZ (padTo 4096 (data.getD i [])))
  match k.op with
  | .write => if k.c.sq = lpQueue then [] else cutPieces (ceilDiv k.blocks 64) 0 k.slba blocks
  | .zeroes => cutZeros (ceilDiv k.blocks 64) 0 k.slba k.blocks
  | .dealloc => k.ranges.zipIdx.map (fun x =>
      let r := x.1
      { num := x.2, slba := r.1, blocks := [], zeros := r.2, stripe := none, off := 0, onMedium := false })
  | _ => []

/-- Landing index entries pieces need: one for each unit covered in part. -/
def indexNeed (ps : List Piece) : Nat :=
  (ps.map (fun p => (unitSpan p.slba p.length).length - (wholeUnits p.slba p.length).2)).sum

/-- A piece goes through a landing stripe: all but zeros that cover whole units. -/
def StoreCmd.lands (_ : StoreCmd) (p : Piece) : Bool := p.size != 0

/-- Landing index entries held for writes that are placed and have not taken effect. -/
def Qe.indexHeld (q : Qe) : Nat :=
  ((q.store.filter (fun k => k.stage == .running && k.writes)).map (fun k => indexNeed k.pieces)).sum

/-- Landing has no room for the pieces: space is below 1 %, or they need more index entries than are free (R185). -/
def State.landingWaits (s : State) (ps : List Piece) : Bool :=
  (ps.any (fun p => p.size != 0) && s.mm.landingLow)
    || (indexNeed ps != 0 && decide (idxEntries < s.mm.index.length + s.qe.indexHeld + indexNeed ps))

/-- A write waits for landing space or an index entry. -/
def State.awaitLanding (s : State) (k : StoreCmd) (ps : List Piece) : State :=
  { s.onStore k.order (fun k => { k with stage := .landing, pieces := ps }) with
    mm := { s.mm with event := setEv s.mm.event 1 } }

/-- Put a write's pieces into landing stripes, or leave it waiting for landing space or a snapshot pool copy (R185,
R199). -/
def State.placeWrite (s : State) (k : StoreCmd) (n : Namespace) (ps : List Piece) : State :=
  if s.landingWaits ps then s.awaitLanding k ps
  else if !s.poolRoom n ps then s.awaitPool k ps
  else
    let r := s.mm.placePieces n (ps.filter k.lands)
    let k' := { k with stage := .running, pieces := r.2 ++ ps.filter (fun p => !k.lands p) }
    let s1 := { s with mm := r.1 }.onStore k.order (fun _ => k')
    if k'.landed then s1.finishWrite k' else s1

/-! ## Reading (R208, R209) -/

/-- The block-table key of the flash block that holds block `i` of a unit at a location. -/
def Mm.flashOf (m : Mm) (l : UnitLoc) (i : Nat) : Option Nat :=
  let landing := fun a =>
    ((stripeUnits (a / 64)).getD (a % 64 / 16) (0, 0, 0, 0), a) |> fun x => blockKey x.1.1 x.1.2.1 x.1.2.2.1
  let plain : UnitLoc → Option Nat := fun l => match l with
    | .bulk a => some (blockKey (locChannel a) (locDie a) (locBlock a))
    | .landing a => some (landing (a + i))
    | _ => none
  match l with
  | .merged e =>
    match m.index.find e with
    | none => none
    | some x =>
      match x.blocks.getD i none with
      | some a => some (landing a)
      | none => plain x.prev
  | l => plain l

/-- FC reads the codewords of a command: each at its block's retry hint and up the ladder, as `reads` tells of those that need
more (assumption entry 51). -/
def State.readCodewords (s : State) (k : StoreCmd) (n : Namespace) : State :=
  { s with mm := (List.range k.blocks).foldl (fun m i =>
      let lba := k.slba + i
      match m.flashOf (m.locOf (n.unit (lba / 8))) (lba % 8) with
      | none => m
      | some key =>
        match k.reads.find? (fun r => r.block == i) with
        | some r => m.noteRead key (min 16 r.step) r.bits
        | none => m.noteRead key (m.blk key).hint 0) s.mm }

/-- XFER_RDY for a window of a WRITE of function 1 (R349). -/
def State.lpGrant (s : State) (tag window : Nat) : State :=
  match s.lp.cmds.find tag with
  | none => s
  | some c =>
    let len := 4096 * min 64 (c.blocks - 64 * window)
    { s with lp := { s.lp with cmds := s.lp.cmds.adjust tag (fun c => { c with window := window, granted := true, got := [] }) } }.lpSend
      [lpFrame 2 0 1 tag (262144 * window) (leBytes len 4)]

/-- DATA frames and STATUS of a READ (R350, R352): up to the first failed block. -/
def State.lpReadEnds (s : State) (k : StoreCmd) (m : Namespace) : State :=
  let all := List.range k.blocks
  let good := all.takeWhile (fun i => !s.mm.anyBad k.nsid (k.slba + i) 1)
  let d := good.flatMap (fun i => padTo 4096 (s.mm.readLba m (k.slba + i)))
  let s1 := { s with qe := s.qe.dropStore k }.lpSend (lpDataFrames k.c.cid d (ceilDiv d.length 16384) 0)
  if good.length = k.blocks then s1.lpEnd k.c.cid lpGood k.blocks else s1.lpEnd k.c.cid lpMedium good.length

/-- A command with nothing left to wait on acts. -/
def State.startStore (s : State) (k : StoreCmd) (data : List (List Byte)) : State :=
  match s.mm.namespaces.find k.nsid with
  | none => s.endStore k (if k.op = .flush then stOk else stInvalidNs) []
  | some n =>
    match k.op with
    | .flush => s.endStore k stOk []
    | .format => { s with mm := (s.mm.emptyNs s.liveSnaps k.nsid).rekey k.nsid }.endStore k stOk []
    | .read =>
      let s1 := s.readCodewords k n
      if k.c.sq = lpQueue then s1.lpReadEnds k n
      else if s.mm.anyBad k.nsid k.slba k.blocks then s1.endStore k stUnrecovered []
      else s1.endStore k stOk ((List.range k.blocks).map (fun i => padTo 4096 (s.mm.readLba n (k.slba + i))))
    | .verify => (s.readCodewords k n).endStore k (if s.mm.anyBad k.nsid k.slba k.blocks then stUnrecovered else stOk) []
    | .objRead =>
      { s.onStore k.order (fun k => { k with stage := .running }) with
        rl := { s.rl with copies := s.rl.copies.map (fun x =>
          if x.cmd.map ObjCmd.c = some k.c then { x with snap := some s.mm.epoch } else x) } }
    | .write =>
      if k.c.sq = lpQueue then (s.onStore k.order (fun k => { k with stage := .running })).lpGrant k.c.cid 0
      else s.placeWrite k n (if k.pieces.isEmpty then k.cut data else k.pieces)
    | _ => s.placeWrite k n (if k.pieces.isEmpty then k.cut data else k.pieces)

/-- A command that holds what entries it needs waits for the overlapping ones, or starts. -/
def State.proceed (s : State) (k : StoreCmd) (data : List (List Byte)) : State :=
  let w := s.qe.waitsFor k
  if w.isEmpty then s.startStore k data
  else s.onStore k.order (fun k => { k with stage := .overlap, before := w, pieces := if k.pieces.isEmpty then k.cut data else k.pieces })

/-- Serve a fetched storage command (R327, R329). -/
def State.serveStore (s : State) (k : StoreCmd) (data : List (List Byte)) : State :=
  match s.storeCheck k with
  | some st => s.endStore k st []
  | none =>
    if k.writes then
      if !s.qe.held.isEmpty || 4096 < s.qe.locksUsed + k.ranges.length then
        { s.onStore k.order (fun k => { k with stage := .holding, pieces := k.cut data }) with
          qe := { (s.onStore k.order (fun k => { k with stage := .holding, pieces := k.cut data })).qe with
            held := s.qe.held ++ [k.c], rlWait := sat32 (s.qe.rlWait + 1), event := setEv s.qe.event 0
            sqs := s.qe.sqs.adjust k.c.sq (fun q => { q with blocked := some k.c }) } }
      else
        let k' := { k with locks := k.ranges.length }
        ({ s.onStore k.order (fun _ => k') with
          qe := { (s.onStore k.order (fun _ => k')).qe with locksUsed := s.qe.locksUsed + k.ranges.length } }).proceed k' data
    else s.proceed k data

/-- A command as QE fetches it. -/
def mkStore (c : CmdId) (op : StoreOp) (nsid : Nat) (ranges : List (Nat × Nat)) (order : Nat)
    (reads : List CodewordRead := []) : StoreCmd :=
  { c := c, op := op, nsid := nsid, ranges := ranges, stage := .preReplay, locks := 0, pieces := [], reads := reads, before := [],
    silent := false, order := order }

/-- Take a fetched storage command: held until replay (R388), then served. -/
def State.takeStore (s : State) (c : CmdId) (op : StoreOp) (nsid : Nat) (ranges : List (Nat × Nat))
    (data : List (List Byte)) (reads : List CodewordRead := []) : State :=
  let k := mkStore c op nsid ranges s.qe.fetchOrder reads
  let s1 : State := { s with qe := { s.qe with store := s.qe.store ++ [k] } }
  if s1.mm.replayed then s1.serveStore k data
  else s1.onStore k.order (fun k => { k with pieces := k.cut data })

/-- Serve the commands held before replay, in fetch order (R388). -/
def State.serveHeld (s : State) : State :=
  (s.qe.store.filter (fun k => k.stage == .preReplay)).foldl (fun s k => s.serveStore k (k.pieces.flatMap Piece.blocks)) s

/-- An I/O storage command. -/
def State.storeCommand (s : State) (c : CmdId) (op : StoreOp) (nsid : Nat) (ranges : List (Nat × Nat))
    (data : List (List Byte)) (reads : List CodewordRead := []) : State :=
  s.command c .io (fun s => s.takeStore c op nsid ranges data reads)

/-! ## Waits that end -/

/-- The head of the holding list gets its entries when enough are free (R329). -/
def State.grantHeld (s : State) : State :=
  match s.qe.held with
  | [] => s
  | c :: cs =>
    match s.qe.store.find? (fun k => k.c == c && k.stage == .holding) with
    | none => { s with qe := { s.qe with held := cs } }
    | some k =>
      if 4096 < s.qe.locksUsed + k.ranges.length then s
      else
        let k' := { k with locks := k.ranges.length }
        let s1 := s.onStore k.order (fun _ => k')
        ({ s1 with qe := { s1.qe with
            held := cs, locksUsed := s.qe.locksUsed + k.ranges.length
            sqs := s1.qe.sqs.adjust c.sq (fun q => if q.blocked = some c then { q with blocked := none } else q) } }).proceed
          k' []

/-- A waiting command whose earlier overlapping commands have all completed proceeds (R328). -/
def State.endOverlap (s : State) (c : CmdId) : State :=
  match s.qe.store.find? (fun k => k.c == c && k.stage == .overlap) with
  | none => s
  | some k => if (s.qe.waitsFor k).isEmpty then s.startStore k [] else s

/-- A write that waited at a stage tries again: one whose pieces are on the medium takes effect, another is placed. -/
def State.resume (s : State) (c : CmdId) (st : StoreStage) : State :=
  match s.qe.store.find? (fun k => k.c == c && k.stage == st) with
  | none => s
  | some k =>
    match s.mm.namespaces.find k.nsid with
    | none => s
    | some n =>
      if k.landed && k.pieces.any (fun p => p.stripe.isSome) then
        (s.onStore k.order (fun k => { k with stage := .running })).finishWrite { k with stage := .running }
      else s.placeWrite k n k.pieces

/-- A landing stripe has verified: its pieces are on the medium, side log records among them, and the writes whose last
piece it holds complete (R182, R271). -/
def State.stripeVerified (s : State) (k : Nat) : State :=
  match s.mm.stripes.find k with
  | none => s
  | some x =>
    if !x.closed || x.verified then s
    else
      let mark : Piece → Piece := fun p => if p.stripe = some k then { p with onMedium := true } else p
      let s1 : State := { s with
        mm := { s.mm with stripes := s.mm.stripes.adjust k (fun x => { x with verified := true }) }
        qe := { s.qe with store := s.qe.store.map (fun c =>
          if c.stage = .running then { c with pieces := c.pieces.map mark } else c) }
        idx := s.idx.mapVals (fun _ i => { i with commit := i.commit.map (fun c => { c with pieces := c.pieces.map mark }) }) }
      let s2 := (s1.qe.store.filter (fun c => !s.power.failing && c.stage == .running && c.writes && c.landed
        && c.pieces.any (fun p => p.stripe == some k))).foldl State.finishWrite s1
      s2.idx.foldl (fun s e =>
        match e.2.commit with
        | none => s
        | some c =>
          if c.medium.isNone && c.pieces.all Piece.onMedium then
            let s' := s.applyPieces e.1 c.pieces
            { s' with idx := s'.idx.adjust e.1 (fun i => { i with commit := some { c with medium := some s.mm.epoch } }) }
          else s) s2

/-! ## Resets, faults and loss of power (R332, R411, R184) -/

/-- A reset of a function: writes that hold entries run on with no completion, reads for a placement go on with it, the
other storage commands are gone. -/
def State.resetStore (s : State) (lp : Bool) : State :=
  let mine : StoreCmd → Bool := fun k => (k.c.sq == lpQueue) == lp
  { s with qe := { s.qe with
      store := (s.qe.store.filter (fun k => !mine k || k.locks != 0 || k.silent || k.op == .objRead)).map (fun k =>
        if mine k && k.op != .objRead then { k with silent := true } else k)
      held := s.qe.held.filter (fun c => (c.sq == lpQueue) != lp) } }

/-- A fatal fault ends every storage command QE has fetched with Internal Error (R411), a Flush before the writes it waits for. -/
def State.failStore (s : State) : State :=
  let l := s.qe.store
  (l.filter (fun k => k.op == .flush) ++ l.filter (fun k => k.op != .flush)).foldl (fun s k => s.endStore k stInternal []) s

/-- Input power is lost: stripes that were not closed programmed nothing; closed ones may still verify (R184, R470). -/
def State.powerLost (s : State) : State :=
  match s.mm.openStripe with
  | none => s
  | some k => { s with mm := { s.mm with
      openStripe := none, stripes := s.mm.stripes.del k, landing := s.mm.landing.filter (fun e => e.1 / 64 != k) } }

/-- The rails are off: pieces of unfinished writes whose stripes verified stand, other stripes are discarded at replay,
and the cut multi-piece writes are kept for log page 0xC1 (R184, R333). -/
def State.settlePower (s : State) : State :=
  let cut := s.qe.store.filter StoreCmd.writes
  let s1 := cut.foldl (fun s k => s.applyPieces k.nsid (k.pieces.filter Piece.onMedium)) s
  { s1 with mm := { s1.mm with
      stripes := s1.mm.stripes.filter (fun x => x.2.verified), openStripe := none
      landing := s1.mm.landing.filter (fun e => ((s1.mm.stripes.find (e.1 / 64)).map Stripe.verified).getD false)
      lostWrites := s1.mm.lostWrites ++ ((cut.filter StoreCmd.reports).map (fun k =>
        { k.wpEntry 0 with sqid := 0xFFFF, cid := 0xFFFF })) } }

/-! ## Meanings -/

/-- READ (R314, R327 to R330). -/
def execRead (c : CmdId) (nsid slba : Nat) (len : ReadLen) (s : State) : Host.Outcome State Fault Refusal :=
  done (s.storeCommand c .read nsid [(slba, len.nlb)] [] len.reads)

/-- WRITE (R183, R327 to R331, R185, R199). -/
def execWrite (c : CmdId) (nsid slba nlb : Nat) (data : List (List Byte)) (s : State) : Host.Outcome State Fault Refusal :=
  done (s.storeCommand c .write nsid [(slba, nlb)] data)

/-- WRITE_ZEROES (R192, R314): deallocates whether or not DEAC is set. -/
def execWriteZeroes (c : CmdId) (nsid slba nlb : Nat) (_deac : Bool) (s : State) : Host.Outcome State Fault Refusal :=
  done (s.storeCommand c .zeroes nsid [(slba, nlb)] [])

/-- DATASET_MANAGEMENT_DEALLOCATE (R192, R312, R327): at most 256 ranges. -/
def execDatasetManagementDeallocate (c : CmdId) (nsid : Nat) (ranges : List (Nat × Nat)) (s : State) :
    Host.Outcome State Fault Refusal :=
  done (if 256 < ranges.length then s.command c .io (fun s => s.complete c stInvalidField)
    else s.storeCommand c .dealloc nsid (ranges.filter (fun r => r.2 != 0)) [])

/-- VERIFY (R314). -/
def execVerify (c : CmdId) (nsid slba : Nat) (len : ReadLen) (s : State) : Host.Outcome State Fault Refusal :=
  done (s.storeCommand c .verify nsid [(slba, len.nlb)] [] len.reads)

/-- FLUSH (R314). -/
def execFlush (c : CmdId) (nsid : Nat) (s : State) : Host.Outcome State Fault Refusal :=
  done (s.storeCommand c .flush nsid [] [])

/-- MM and QE run (R377): after BLOCKS begins, and with no fatal cause standing. -/
def State.mediaRuns (s : State) : Bool := (s.mc.phase == .blocks || s.mc.phase == .go) && !s.halted && s.mm.replayed

/-- RANGE_LOCK_GRANTED (R329). -/
def execRangeLockGranted (s : State) : Host.Outcome State Fault Refusal := done (if s.mediaRuns then s.grantHeld else s)

/-- OVERLAP_WAIT_END (R328). -/
def execOverlapWaitEnd (c : CmdId) (s : State) : Host.Outcome State Fault Refusal :=
  done (if s.mediaRuns then s.endOverlap c else s)

/-- LANDING_STRIPE_CLOSE (R183). -/
def execLandingStripeClose (s : State) : Host.Outcome State Fault Refusal :=
  done (if s.mediaRuns then { s with mm := s.mm.closeStripe } else s)

/-- LANDING_STRIPE_VERIFIED (R182, R184): program pulses already started run to their verify in every phase. -/
def execLandingStripeVerified (stripe : Nat) (s : State) : Host.Outcome State Fault Refusal :=
  done (s.stripeVerified stripe)

/-- WRITE_RESUME_LANDING (R185). -/
def execWriteResumeLanding (c : CmdId) (s : State) : Host.Outcome State Fault Refusal :=
  done (if s.mediaRuns then s.resume c .landing else s)

/-- WRITE_RESUME_SNAPSHOT (R199). -/
def execWriteResumeSnapshot (c : CmdId) (s : State) : Host.Outcome State Fault Refusal :=
  done (if s.mediaRuns then s.resume c .snapshot else s)

end Sys2Proof.Machine
end

