-- ==== Sys2Proof/Machine/Pages.lean ====
section
/-! DEFINITION. What Identify and Get Log Page return (R312, R316, R324, R325, R333, R343, R375, R391, R421, and R216);
places the spec does not give are those of NVM Express. -/

namespace Sys2Proof.Machine

/-! ## Building blocks -/

/-- A page of `n` bytes from fields at offsets; the rest is 0. -/
def fieldsPage (n : Nat) (fs : List (Nat × List Byte)) : List Byte :=
  padTo n (fs.foldl (fun l f => spliceZ l f.1 f.2) [])

/-- Bytes of a page of a header and records of equal size, read at an offset. -/
def recordPage (head : List Byte) (size : Nat) (rec : Nat → List Byte) (off len : Nat) : List Byte :=
  (List.range len).map (fun i =>
    let o := off + i
    if o < head.length then head.getD o 0 else (rec ((o - head.length) / size)).getD ((o - head.length) % size) 0)

/-- The firmware revision: eight ASCII bytes; in RECOVERY "RCV" and the ROM version, whose form is not given (R343, R391). -/
def State.fwRev (s : State) : List Byte :=
  if s.mc.phase = .recovery then [0x52, 0x43, 0x56] ++ (List.range 5).map (Config.nvmeByte 0xC5) else padTo 8 s.mc.fwRevision

/-! ## Identify (R2, R312, R315, R334, R463) -/

/-- A power state descriptor (R334). -/
def psdBytes (mp nops enlat exlat : Nat) : List Byte :=
  padTo 32 (leBytes mp 2 ++ [0, BitVec.ofNat 8 (2 * nops)] ++ leBytes enlat 4 ++ leBytes exlat 4)

/-- Granules in use. -/
def Mm.granulesUsed (m : Mm) : List Nat := m.namespaces.vals.flatMap Namespace.granules

/-- Unallocated capacity in bytes (R315). -/
def Mm.unallocated (m : Mm) : Nat := (granulesTotal - m.granulesUsed.length) * 2 ^ 30

/-- Identify Controller. -/
def State.identifyCtrl (s : State) : List Byte :=
  let nn := if s.mc.phase = .recovery then 0 else 128
  fieldsPage 4096
    [(0, leBytes 0x1F2C 2), (2, (List.range 2).map (Config.nvmeByte 1)), (4, (List.range 60).map (fun i => Config.nvmeByte 1 (4 + i))),
     (64, s.fwRev), (77, leBytes 9 1), (80, leBytes 0x00020100 4), (256, leBytes 0x0E 2), (258, leBytes 7 1), (259, leBytes 15 1),
     (260, leBytes 2 1), (263, leBytes 4 1), (265, leBytes 1 1), (266, leBytes 353 2), (268, leBytes 358 2),
     (280, leBytes 774056185954304 16), (296, leBytes s.mm.unallocated 16), (512, leBytes 0x66 1), (513, leBytes 0x44 1),
     (516, leBytes nn 4), (520, leBytes 0xCC 2), (524, leBytes 4 1), (526, leBytes 63 2), (528, leBytes 63 2),
     (2048, psdBytes 65535 0 5000 5000 ++ psdBytes 65535 0 5000 5000 ++ psdBytes 60000 0 1280000 6000
        ++ psdBytes 18000 1 10000 5000 ++ psdBytes 6000 1 60000 400000)]

/-- Identify Namespace of a namespace. -/
def Namespace.identify (n : Namespace) : List Byte :=
  fieldsPage 4096
    [(0, leBytes n.blocks 8), (8, leBytes n.blocks 8), (16, leBytes n.blocks 8), (33, leBytes 9 1), (34, leBytes 63 2),
     (36, leBytes 63 2), (99, leBytes (b2n n.readOnly) 1), (130, leBytes 12 1)]

/-- A list of namespace ids above one. -/
def nsList (ids : List Nat) (above : Nat) : List Byte :=
  padTo 4096 ((((ids.filter (fun i => above < i)).mergeSort (· ≤ ·)).take 1024).flatMap (fun i => leBytes i 4))

/-- The data of an Identify, or its status: CNS 0 namespace, 1 controller, 2 active ids, 3 descriptors, 6 the NVM command
set's controller limits, 10h to 13h the management lists. -/
def State.identifyData (s : State) (cns nsid : Nat) : Nat ⊕ List Byte :=
  let ns := s.mm.namespaces
  let live := s.mc.phase != .recovery
  let at_ (need : Namespace → Bool) : Nat ⊕ List Byte :=
    if nsid = 0xFFFFFFFF then .inr (fieldsPage 4096 [(33, leBytes 9 1), (130, leBytes 12 1)])
    else if nsid = 0 ∨ 128 < nsid ∨ live = false then .inl stInvalidNs
    else match ns.find nsid with
      | none => .inr (padTo 4096 [])
      | some n => .inr (if need n then n.identify else padTo 4096 [])
  match cns with
  | 0 => at_ Namespace.attached
  | 1 => .inr s.identifyCtrl
  | 2 => .inr (nsList ((ns.filter (fun e => live && e.2.attached)).map Prod.fst) nsid)
  | 3 => if live && ((ns.find nsid).map Namespace.attached).getD false then .inr (padTo 4096 []) else .inl stInvalidNs
  | 6 => .inr (fieldsPage 4096 [(1, leBytes 9 1), (3, leBytes 0 1), (4, leBytes 0xFFFFFFFF 4)])
  | 0x10 => .inr (nsList (if live then ns.keys else []) nsid)
  | 0x11 => at_ (fun _ => true)
  | 0x12 => .inr (padTo 4096 (if ((ns.find nsid).map Namespace.attached).getD false then leBytes 1 2 else []))
  | 0x13 => .inr (padTo 4096 (leBytes 1 2))
  | _ => .inl stInvalidField

/-! ## Vendor pages -/

/-- The 32 bytes of a record (R398). -/
def Record.bytes (r : Record) : List Byte :=
  leBytes (r.source % 4096 + r.kind * 2 ^ 12 + r.cls * 2 ^ 20 + r.seq * 2 ^ 22 + r.beat * 2 ^ 38) 8 ++ leBytes r.addr.toNat 8
  ++ leBytes r.d0.toNat 4 ++ leBytes r.d1.toNat 4 ++ leBytes r.d2.toNat 4 ++ leBytes r.d3.toNat 4

/-- Standing entries in use. -/
def Fl.entries (f : Fl) : List Standing := f.standing.filter Standing.entry

/-- Ring slot `k`: the ring, or the buffer of R384 before the near tier is ready. -/
def Fl.slot (f : Fl) (k : Nat) : Option Record :=
  let n := f.posted - f.buffer.length
  match f.buffer.zipIdx.find? (fun x => (n + x.2) % 65536 == k) with
  | some x => some x.1
  | none => f.ring.find k

/-- Log page 0xC0 (R421). -/
def State.pageC0 (s : State) (off len : Nat) : List Byte :=
  let f := s.fl
  let es := f.entries
  let head := padTo 64 (leBytes 1 2 ++ leBytes 32 2 ++ leBytes 65536 4 ++ leBytes f.posted 8 ++ leBytes es.length 2
    ++ leBytes (b2n f.fatalStands + 2 * b2n (65536 < f.posted) + 4 * b2n f.standingFull) 2 ++ leBytes s.mc.dropped 4
    ++ leBytes f.corr 4 ++ leBytes f.cont 4 ++ leBytes f.fatal 4)
  recordPage head 32 (fun k =>
    if k < 256 then ((es[k]?).map (fun x => x.record.bytes)).getD []
    else if k < 65792 then ((f.slot (k - 256)).map Record.bytes).getD [] else []) off len

/-- An entry of page 0xC1. -/
def WpEntry.bytes (e : WpEntry) : List Byte :=
  padTo 32 (leBytes e.nsid 4 ++ leBytes e.sqid 2 ++ leBytes e.cid 2 ++ leBytes e.slba 8 ++ leBytes e.nlb 4 ++ leBytes e.pieces 1
    ++ leBytes e.onMed 1 ++ leBytes e.cause 1 ++ leBytes e.opcode 1)

/-- Log page 0xC1 (R333). -/
def Qe.pageC1 (q : Qe) (off len : Nat) : List Byte :=
  recordPage (padTo 32 (leBytes 1 2 ++ leBytes q.wp.length 2 ++ leBytes (b2n q.wpOverflow) 2)) 32
    (fun k => ((q.wp[k]?).map WpEntry.bytes).getD []) off len

/-- Rated endurance consumed, percent (R214, R216). -/
def Mm.percentUsed (m : Mm) : Nat := min 255 (100 * m.hostWritten * 4096 / (370 * 2 ^ 50))

/-- The pool an entry of page 0xC2 stands for holds a block or a sample: a group, a landing set, or every far-tier die. -/
def inPool (k pool : Nat) : Bool := if 512 ≤ k then 512 ≤ pool else pool == k

/-- Blocks of a pool that count in capacity. -/
def poolBlocks (k : Nat) : Nat := if 512 ≤ k then 512 * 16384 else 16 * 16384

/-- `n` times the mean of a pool's samples; 0 with none. -/
def meanOf (n k : Nat) (l : List Sample) : Nat :=
  let vs := (l.filter (fun x => inPool k x.pool)).map Sample.value
  if vs.isEmpty then 0 else n * vs.sum / vs.length

/-- A pool entry of page 0xC2 (R216). -/
def Mm.poolEntry (m : Mm) (k : Nat) : List Byte :=
  let es := (m.blocks.filter (fun e => inPool k (keyPool e.1))).map (fun e => e.2.erases)
  let far := 512 ≤ k
  let retired := if far then ((m.retiredCnt.filter (fun e => 512 ≤ e.1)).map Prod.snd).sum else m.retiredCnt.findD k 0
  let state := if far then 0 else if 256 ≤ k then (if m.outSets.contains (k - 256) then 3 else if m.spare k < spareLowAt k then 1 else 0)
    else if m.roGroups.contains k then 2 else if m.spare k < spareLowAt k then 1 else 0
  padTo 32 (leBytes (if far then 0 else m.spare k) 4 ++ leBytes retired 4
    ++ leBytes (es.sum / poolBlocks k) 2 ++ leBytes (satTo 0xFFFF (es.foldl max 0)) 2
    ++ leBytes (meanOf 16 k m.loops) 2 ++ leBytes (meanOf 256 k m.retries) 2
    ++ leBytes (sat32 (m.retries.filter (fun x => inPool k x.pool && 4 ≤ x.value)).length) 4 ++ leBytes state 1)

/-- Days until the first group reaches SPARE_LOW at its mean retirement rate of the last 30 days. -/
def Mm.horizonDays (m : Mm) : Nat :=
  (List.range 208).foldl (fun d g =>
    let r := (m.retireLog.filter (fun x => x.pool == g)).length
    if r = 0 then d else min d (30 * (m.spare g + 1 - spareLowAt g) / r)) 0xFFFFFFFF

/-- Log page 0xC2 (R216). -/
def Mm.pageC2 (m : Mm) (off len : Nat) : List Byte :=
  let head := padTo 64 (leBytes 1 2 ++ leBytes 208 2 ++ leBytes 16 2
    ++ leBytes (b2n m.spareLowNow + 2 * b2n m.anyReadOnly + 4 * b2n (!m.outSets.isEmpty)) 1 ++ leBytes m.percentUsed 1
    ++ leBytes m.spareMin.1 4 ++ leBytes m.spareMin.2 2 ++ leBytes 0 2 ++ leBytes m.hostWritten 8 ++ leBytes m.mediaWritten 8
    ++ leBytes m.horizonDays 4)
  recordPage head 32 (fun k =>
    if k < 208 then m.poolEntry k else if k < 224 then m.poolEntry (256 + (k - 208)) else if k = 224 then m.poolEntry 512
    else []) off len

/-- Highest of a run of sensors, 0.1 degree (R482). -/
def Power.hottest (p : Power) (lo n : Nat) : Nat := ((List.range n).map (fun i => p.temps.findD (lo + i) 0)).foldl max 0

/-- Log page 0xC3 (R375). -/
def State.pageC3 (s : State) : List Byte :=
  let p := s.pc
  padTo 128 (leBytes 1 2 ++ leBytes s.qe.ps 1 ++ leBytes p.bandState 1 ++ [4500, 2400, 600, 180, 60].flatMap (fun w => leBytes w 4)
    ++ leBytes p.beatW 4 ++ leBytes p.windowMean 4 ++ leBytes (p.beatW * 97 / 100) 4 ++ leBytes p.ceilingW 4
    ++ leBytes (p.energyMJ / 1000) 8 ++ leBytes p.beat 8 ++ leBytes (s.power.temps.findD 0 0) 2 ++ leBytes (s.power.temps.findD 1 0) 2
    ++ leBytes (s.power.hottest 18 38) 2 ++ leBytes (s.power.hottest 2 16) 2 ++ leBytes (10 * max s.mm.tempA s.mm.tempB) 2
    ++ leBytes (p.periodNs / 100) 2 ++ leBytes p.bandLostCnt 4)

/-- A job-progress record (R325). -/
def Progress.bytes (p : Progress) : List Byte :=
  leBytes p.seq 8 ++ leBytes p.c.sq 2 ++ leBytes p.c.cid 2 ++ leBytes p.opcode 1 ++ leBytes p.kind 1 ++ leBytes p.squad 1
  ++ leBytes p.cmdset 1 ++ leBytes (p.status % 256 + p.status / 256 * 256) 2 ++ leBytes 0 2 ++ leBytes p.tag 4
  ++ leBytes p.hostTag.toNat 8 ++ leBytes p.begun 8 ++ leBytes p.fin 8 ++ leBytes p.nsid 4 ++ leBytes 0 12 ++ padTo 96 p.part

/-- Log page 0xC4 (R325). -/
def Jd.pageC4 (j : Jd) (off len : Nat) : List Byte :=
  recordPage (padTo 32 (leBytes 1 2 ++ leBytes 160 2 ++ leBytes 4096 4 ++ leBytes (j.nextSeq - 1) 8)) 160
    (fun k => if k < 4096 then ((j.progress.find? (fun p => (p.seq - 1) % 4096 == k)).map Progress.bytes).getD [] else []) off len

/-- Log page 0xC5 (R343). -/
def State.pageC5 (s : State) : List Byte :=
  let v := s.qe.versions
  let cad := s.pc.msgVersion
  padTo 64 (s.fwRev ++ [0xC0, BitVec.ofNat 8 (b2n (v.result < v.agResult || v.index < v.agIndex))] ++ leBytes 0 2
    ++ [0x31, 0x20, v.agCmdset, v.cmdset, 5, 4, v.agImage, v.image, 2, 1, v.agResult, v.result, 4, 3, v.agIndex, v.index,
        2, 1, cad, cad].flatMap (fun x => leBytes x 1))

/-! ## NVM Express pages (R316) -/

/-- Composite temperature in kelvin. -/
def Mm.kelvin (m : Mm) : Nat := max m.tempA m.tempB + 273

/-- A temperature threshold in kelvin: [3:0] of `i` is 0 for the Composite Temperature or a sensor, [5:4] is 0 over, 1 under.
An over threshold not set is 353 for the Composite Temperature and 0xFFFF for a sensor, an under threshold 0 (NVM Express). -/
def State.threshold (s : State) (i : Nat) : Nat :=
  ((s.qe.features.find (4 + 256 * i)).map (fun v => bitsW v 15 0)).getD (if i = 0 then 353 else if i < 16 then 0xFFFF else 0)

/-- The Composite Temperature and sensors 1 to 4, in kelvin (R316). -/
def State.kelvins (s : State) : List Nat :=
  [s.mm.kelvin, s.mm.tempA + 273, s.mm.tempB + 273, s.power.hottest 18 38 / 10 + 273, s.power.temps.findD 1 0 / 10 + 273]

/-- A temperature reaches a threshold. -/
def State.overThreshold (s : State) : Bool :=
  s.kelvins.zipIdx.any (fun x => s.threshold x.2 ≤ x.1 || x.1 ≤ s.threshold (16 + x.2))

/-- Critical Warning bits 0 to 3. -/
def State.critical (s : State) : Nat :=
  b2n (100 * s.mm.spareMin.1 / 16384 < 32) + 2 * b2n s.overThreshold + 4 * b2n s.fl.critFatal
    + 8 * b2n s.mm.anyReadOnly

/-- SMART / Health; its counts are NVM Express's and free. -/
def State.smart (s : State) : List Byte :=
  let free := (List.range 168).map (fun i => (Config.freeWord s.tick i).setWidth 8)
  fieldsPage 512
    [(0, leBytes s.critical 1), (1, leBytes s.mm.kelvin 2), (3, leBytes (100 * s.mm.spareMin.1 / 16384) 1), (4, leBytes 32 1),
     (5, leBytes s.mm.percentUsed 1), (32, free), (200, leBytes (s.mm.tempA + 273) 2), (202, leBytes (s.mm.tempB + 273) 2),
     (204, leBytes (s.power.hottest 18 38 / 10 + 273) 2), (206, leBytes (s.power.temps.findD 1 0 / 10 + 273) 2)]

/-- Bytes of a log page, or none when the controller has no such page; in RECOVERY only 0xC0 and 0xC5 (R391). -/
def State.logPage (s : State) (page off len : Nat) : Option (List Byte) :=
  if s.mc.phase = .recovery ∧ page ≠ 0xC0 ∧ page ≠ 0xC5 then none
  else match page with
    | 1 => some ((List.range len).map (fun i => if off + i < 64 then (Config.freeWord s.tick (off + i)).setWidth 8 else 0))
    | 2 => some (sliceZ s.smart off len)
    | 3 => some (sliceZ (padTo 512 (leBytes 1 8 ++ s.fwRev)) off len)
    | 0xC0 => some (s.pageC0 off len)
    | 0xC1 => some (s.qe.pageC1 off len)
    | 0xC2 => some (s.mm.pageC2 off len)
    | 0xC3 => some (sliceZ s.pageC3 off len)
    | 0xC4 => some (s.jd.pageC4 off len)
    | 0xC5 => some (sliceZ s.pageC5 off len)
    | _ => none

end Sys2Proof.Machine
end

