-- ==== Sys2Proof/Machine/Keeper.lean ====
section
/-! DEFINITION. The scale keeper, the scale watchdog and the update-ratio monitor (R108, R113 to R125, R129 to R133). -/

namespace Sys2Proof.Machine

/-! ## Scales (R108) -/

/-- Format maximum of a format code (R31): none for formats that are not scaled. Codes: 1 INT8, 2 INT4, 3 E4M3, 4 E5M2,
8 INT16. -/
def fmtMax (f : Nat) : Option Nat :=
  match f with
  | 1 => some 127
  | 2 => some 7
  | 3 => some 448
  | 4 => some 57344
  | 8 => some 32767
  | _ => none

/-- Flush threshold of a format, as FP32. -/
def flushAt (f : Nat) : W32 :=
  match f with
  | 3 => 0x3A800000
  | 4 => 0x37000000
  | _ => 0x3F000000

/-- Quantisation factor q = 2^-m F / A; 1.0 without a reference magnitude or a format maximum. -/
def quantFactor (f m : Nat) (a : Option W32) : W32 :=
  match fmtMax f, a with
  | some mx, some a => f32Div (toF32 (.fin false mx (-(m : Int)))) a
  | _, _ => 0x3F800000

/-- Scale s = 2^m A / F. R108 states no rounding: 2^m A is rounded to FP32, then the quotient, and the scale is not the
reciprocal of the rounded factor (DESIGN CHOICE, assumption entry 57). -/
def scaleOf (f m : Nat) (a : Option W32) : W32 :=
  match fmtMax f, a with
  | some mx, some a => f32Div (f32Mul (toF32 (.fin false 1 m)) a) (f32OfInt mx)
  | _, _ => 0x3F800000

/-! ## Entries -/

def keeperKey (squad tensor : Nat) : Nat := 65536 * squad + tensor

def Keeper.fresh : Keeper :=
  { aRef := none, hist := [], step := none, elems := 0, sat := 0, under := 0, lastMax := 0, lastEl := 0, lastSat := 0,
    lastUn := 0, steps := 0, event := 0, zeroRun := false, waiting := [], met := false, outType := 0 }

def State.nsSq (s : State) (n : Nat) : NsSquad := s.ns.squads.findD n NsSquad.reset

def State.onNsSq (s : State) (n : Nat) (f : NsSquad → NsSquad) : State :=
  { s with ns := { s.ns with squads := s.ns.squads.put n (f (s.nsSq n)) } }

/-- HISTORY in force, 1 to 64. -/
def NsSquad.history (q : NsSquad) : Nat := max 1 (min 64 (bitsW q.cfg 6 0))
/-- MARGIN in force. -/
def NsSquad.margin (q : NsSquad) : Nat := bitsW q.cfg 10 8
/-- SAT_LIMIT in force, 6 to 20. -/
def NsSquad.satLimit (q : NsSquad) : Nat := max 6 (min 20 (bitsW q.cfg 20 16))

/-- Lowest-numbered tile of a squad: the source of its records (R124, R174). -/
def State.lowTile (s : State) (squad : Nat) : Nat :=
  match ((s.squadOf squad).map Squad.tiles).getD [] with
  | [] => 0
  | t :: ts => ts.foldl min t

/-! ## Reports and counts (R112, R113, R115, R118) -/

/-- The keeper takes a report: the state, and whether the table had room. -/
def State.keeperReport (s : State) (squad tile tensor : Nat) (amax : W32) : State × Bool :=
  let k := keeperKey squad tensor
  match s.ns.table.find k with
  | none =>
    if 65536 ≤ s.ns.table.length then ({ s with ns := { s.ns with full := true, event := setEv s.ns.event 5 } }, false)
    else ({ s with ns := { s.ns with table := s.ns.table.put k { Keeper.fresh with step := some amax, waiting := [tile] } } }, true)
  | some e =>
    let e1 := { e with step := some (f32Max (e.step.getD 0) amax) }
    let e2 := if e.hist.isEmpty && !e.met && !e.waiting.contains tile then { e1 with waiting := e.waiting ++ [tile] } else e1
    ({ s with ns := { s.ns with table := s.ns.table.put k e2 } }, true)

/-- The tile waits at the rendezvous of a calibrating tensor. -/
def State.atRendezvous (s : State) (squad tile tensor : Nat) : Bool :=
  match s.ns.table.find (keeperKey squad tensor) with
  | none => false
  | some e => e.waiting.contains tile

/-- Counts of an ELTWISE QUANT with imm 0.0. -/
def State.quantCounts (s : State) (squad tensor fmt elems sat under : Nat) : State :=
  { s with ns := { s.ns with table := s.ns.table.adjust (keeperKey squad tensor) (fun e =>
      { e with elems := e.elems + elems, sat := e.sat + sat, under := e.under + under, outType := fmt }) } }

/-- The rendezvous of a tensor completes once every tile of the squad has reported: a_ref is the maximum so far. -/
def State.rendezvousDone (s : State) (squad tensor : Nat) : State :=
  match s.ns.table.find (keeperKey squad tensor), s.squadOf squad with
  | some e, some q =>
    if !e.waiting.isEmpty && q.tiles.all (fun t => e.waiting.contains t) then
      let m := e.step.getD 0
      let e1 := { e with waiting := [], met := true, aRef := if m = 0 then e.aRef else some m }
      { s with ns := { s.ns with table := s.ns.table.put (keeperKey squad tensor) e1 } }
    else s
  | _, _ => s

/-- No rendezvous of a squad waits any longer: a fence or an abort cut the ops that took part (R50, R406). -/
def State.cutRendezvous (s : State) (squad : Nat) : State :=
  { s with ns := { s.ns with table := s.ns.table.mapVals (fun k e => if k / 65536 = squad then { e with waiting := [] } else e) } }

/-! ## The close (R116 to R123) -/

/-- Address field of a keeper record (R124). -/
def nsAddr (tensor squad channel : Nat) : W64 := BitVec.ofNat 64 (tensor + squad * 2 ^ 16 + channel * 2 ^ 24)

/-- The saturation test (R119) and the underflow test (R120). -/
def Keeper.satTest (e : Keeper) (n : Nat) : Bool := e.elems < e.sat * 2 ^ n
def Keeper.underTest (e : Keeper) (n : Nat) (cur : W32) : Bool :=
  e.elems < e.under * 2 ^ n
  && (match e.aRef with
      | none => false
      | some a => (f32 (f32Mul 0x40000000 cur)).le (f32 a))

/-- Close one tensor that had a report. -/
def State.closeTensor (s : State) (squad tensor : Nat) (e : Keeper) (cur : W32) : State :=
  let q := s.nsSq squad
  let src := srcTile (s.lowTile squad)
  let addr := nsAddr tensor squad 0xFFFF
  let cal := e.hist.isEmpty
  let base : Keeper := { e with
    step := none, elems := 0, sat := 0, under := 0, lastMax := cur, lastEl := sat32 e.elems, lastSat := sat32 e.sat,
    lastUn := sat32 e.under, steps := sat32 (e.steps + 1), event := 0, zeroRun := false, waiting := [], met := false }
  let s0 : State := if cal then { s with ns := { s.ns with calCnt := sat32 (s.ns.calCnt + 1) } } else s
  let put (s : State) (e : Keeper) : State := { s with ns := { s.ns with table := s.ns.table.put (keeperKey squad tensor) e } }
  let count (c : Nat) (nf : Bool) : W32 := BitVec.ofNat 32 (min c 0x7FFFFFFF + (if nf then 2 ^ 31 else 0))
  if cur = 0x7F800000 then
    (put { s0 with ns := { s0.ns with event := setEv s0.ns.event 3 } } base).postCorr src kScaleSat addr cur (count e.sat true) 0 0
  else
    let hist := (cur :: e.hist).take q.history
    let zero := cur == 0
    let s1 : State := if zero then
        { s0 with ns := { s0.ns with zeroCnt := sat32 (s0.ns.zeroCnt + 1), event := setEv s0.ns.event 2 } } else s0
    let s2 := if zero && !e.zeroRun then
        s1.postCorr src kZeroRange addr (scaleOf e.outType q.margin e.aRef) 0 0 0 else s1
    let b : Keeper := { base with zeroRun := zero, event := if zero then 3 else 0 }
    if e.satTest q.satLimit then
      (put { s2 with ns := { s2.ns with event := setEv s2.ns.event 0, satCnt := sat16 (s2.ns.satCnt + 1) } }
        { b with hist := [cur], aRef := some cur, event := 1 }).postCorr src kScaleSat addr cur (count e.sat false) 0 0
    else if e.underTest q.satLimit cur then
      (put { s2 with ns := { s2.ns with event := setEv s2.ns.event 1, underCnt := sat16 (s2.ns.underCnt + 1) } }
        { b with hist := [cur], aRef := some cur, event := 2 }).postCorr src kScaleUnder addr cur (count e.under false) 0 0
    else
      let m := hist.foldl f32Max 0
      put s2 { b with
        hist := if m = 0 && cal then [] else hist
        aRef := if m = 0 then e.aRef else some m }

/-- Entries of a squad leave the table (R125). -/
def State.dropKeeper (s : State) (squad : Nat) : State :=
  let t := s.ns.table.filter (fun e => e.1 / 65536 != squad)
  { s with ns := { s.ns with table := t, full := decide (65536 ≤ t.length) } }

/-- The end of a squad's step (R116): written settings take effect, reported tensors close, a due reset discards. -/
def State.stepClose (s : State) (squad : Nat) : State :=
  let s1 := s.onNsSq squad (fun q => { q with cfg := q.cfgNext.getD q.cfg, cfgNext := none, resetDue := false })
  let s2 := (s.ns.table.filter (fun e => e.1 / 65536 == squad)).foldl (fun s e => match e.2.step with
    | none => s
    | some cur => s.closeTensor squad (e.1 % 65536) e.2 cur) s1
  if (s.nsSq squad).resetDue then s2.dropKeeper squad else s2

/-! ## The update-ratio monitor (R129, R130) -/

/-- Square root in FP32, to nearest even. -/
def f32Sqrt (a : W32) : W32 :=
  match f32 a with
  | .fin _ 0 _ => a
  | .fin false m e =>
    let k : Int := if e % 2 = 0 then 0 else 1
    let big := m * 2 ^ (128 + k.toNat)
    let r := Nat.sqrt big
    let h : Int := (e - k) / 2
    BitVec.ofNat 32 (fmt32.ofQ false (2 * r + (if r * r = big then 0 else 1)) 1 (h - 65))
  | .inf false => 0x7F800000
  | _ => 0x7FC00000

/-- What pass 1 reduces for a layer (R128): its number, the sum of squares of the update and that of the weights. -/
structure LayerSums where
  layer : Nat
  sumDw : W32
  sumW  : W32
  deriving DecidableEq, Repr

/-- A layer's ratio; none when the layer is not monitored. -/
def layerRatio (l : LayerSums) : Option W32 :=
  if f32Abs l.sumW = 0 then none else some (f32Div (f32Sqrt l.sumDw) (f32Sqrt l.sumW))

/-- A ratio crosses the threshold. -/
def crosses (hi r : W32) : Bool := !(f32 r).isFin || (f32 hi).lt (f32 r)

/-- Action taken on a crossing layer: RECORD on a non-finite ratio is taken as HOLD. -/
def ratioAction (action : Nat) (r : W32) : Nat :=
  if action = 2 then 2 else if action = 1 || !(f32 r).isFin then 1 else 0

/-- After pass 1: each crossing layer's record, count and event; the layers HOLD keeps, and whether STOP ends the job. -/
def State.ratioCheck (s : State) (squad : Nat) : List LayerSums → State × List Nat × Bool
  | [] => (s, [], false)
  | l :: ls =>
    let q := s.nsSq squad
    let act := bitsW q.ctl 1 0
    match layerRatio l with
    | none => s.ratioCheck squad ls
    | some r =>
      if crosses q.uwrHi r then
        let a := ratioAction act r
        let s1 := (s.onNsSq squad (fun q => { q with cnt := sat32 (q.cnt + 1) })).postCorr (srcTile (s.lowTile squad)) kUpdateRatio
          (nsAddr (l.layer % 65536) squad 0xFFFF) r (BitVec.ofNat 32 (a + (if (f32 r).isFin then 0 else 4))) 0 0
        let t := { s1 with ns := { s1.ns with event := setEv s1.ns.event 4 } }.ratioCheck squad ls
        (t.1, (if a = 1 then [l.layer] else []) ++ t.2.1, t.2.2 || a == 2)
      else s.ratioCheck squad ls

/-- Values written to NM_UWR_HI and NM_UWR_CTL take effect at pass 1 (R133). -/
def State.takeUwr (s : State) (squad : Nat) : State :=
  s.onNsSq squad (fun q => { q with
    uwrHi := q.uwrNext.getD q.uwrHi, uwrNext := none, ctl := q.ctlNext.getD q.ctl, ctlNext := none })

/-! ## NS commands (R125, R133) -/

/-- Discard every entry. -/
def State.dropAllKeepers (s : State) : State := { s with ns := { s.ns with table := [], full := false } }

/-- SL applies a squad: its NUMERICS values are written; a removed squad's registers return to their reset values. -/
def State.applyNumerics (s : State) (squad : Nat) (n : Option Numerics) : State :=
  match n with
  | none => { s with ns := { s.ns with squads := s.ns.squads.del squad } }
  | some n => s.onNsSq squad (fun _ =>
      { NsSquad.reset with
        cfg := packW [(0, n.history), (8, n.margin), (16, n.satLimit)], uwrHi := n.uwrHi, ctl := BitVec.ofNat 32 n.uwrAct })

/-- RESET_SQUAD (R125): the entries go at the squad's next step close. -/
def execResetSquad (squad : Nat) (s : State) : Host.Outcome State Fault Refusal :=
  done (if s.vendorLive then s.onNsSq (squad % 64) (fun q => { q with resetDue := true }) else s)

/-- RESET_ALL (R125). -/
def execResetAll (s : State) : Host.Outcome State Fault Refusal := done (if s.vendorLive then s.dropAllKeepers else s)

/-- NS_CTL.CLR_CNT (R133). -/
def execNsClrCnt (s : State) : Host.Outcome State Fault Refusal :=
  done (if s.vendorLive then { s with ns := { s.ns with satCnt := 0, underCnt := 0, zeroCnt := 0, calCnt := 0 } } else s)

/-- NS_LOOKUP (R133): a snapshot of one entry. -/
def execNsLookup (v : W32) (s : State) : Host.Outcome State Fault Refusal :=
  done (if !s.vendorLive then s
    else
      let w := v &&& 0x3FFFFF
      match s.ns.table.find (keeperKey (bitsW w 21 16) (bitsW w 15 0)) with
      | none => { s with ns := { s.ns with lookup := w, lookupWords := [1, 0, 0, 0, 0, 0, 0] } }
      | some e =>
        let st := packW [(0, 1), (1, 1), (2, b2n (!e.hist.isEmpty)), (3, b2n e.aRef.isNone), (4, e.hist.length), (11, e.event)]
        { s with ns := { s.ns with lookup := w, lookupWords :=
            [st, e.aRef.getD 0, e.lastMax, BitVec.ofNat 32 e.lastEl, BitVec.ofNat 32 e.lastSat, BitVec.ofNat 32 e.lastUn,
             BitVec.ofNat 32 e.steps] } })

/-- CAL_RENDEZVOUS_DONE (R118). -/
def execCalRendezvousDone (squad tensor : Nat) (s : State) : Host.Outcome State Fault Refusal :=
  done (s.rendezvousDone squad tensor)

end Sys2Proof.Machine
end

