-- ==== Sys2Proof/Machine/P2p.lean ====
section
/-! DEFINITION. The peer inbound window (R338, R339) and the registers that have it written out (R344). -/

namespace Sys2Proof.Machine

/-- Write out one granule, its missing bytes 0. -/
def State.writeGranule (s : State) (g : OpenGranule) : State :=
  s.nearWrite g.addr ((List.range 32).map (fun i => g.bytes.findD i 0))

/-- Write every partly written granule (R339). -/
def State.p2pFlush (s : State) : State :=
  let s1 := s.qe.p2pOpen.foldl State.writeGranule s
  { s1 with qe := { s1.qe with p2pOpen := [] } }

/-- Make room for one more granule: the oldest is written when 4,096 are open. -/
def State.p2pRoom (s : State) : State :=
  match s.qe.p2pOpen with
  | g :: gs =>
    if 4096 ≤ s.qe.p2pOpen.length then { s with qe := { s.qe with p2pOpen := gs } }.writeGranule g else s
  | [] => s

/-- One byte arrives at a near-tier address. -/
def State.p2pByte (s : State) (a : Nat) (b : Byte) : State :=
  let base := a / 32 * 32
  let s1 := if s.qe.p2pOpen.any (fun g => g.addr == base) then s
    else
      let s1 := s.p2pRoom
      { s1 with qe := { s1.qe with p2pOpen := s1.qe.p2pOpen ++ [{ addr := base, bytes := [] }] } }
  let os := s1.qe.p2pOpen.map (fun g => if g.addr = base then { g with bytes := g.bytes.put (a % 32) b } else g)
  match os.find? (fun g => g.addr == base && 32 ≤ g.bytes.length) with
  | some g => { s1 with qe := { s1.qe with p2pOpen := os.filter (fun h => h.addr != base) } }.writeGranule g
  | none => { s1 with qe := { s1.qe with p2pOpen := os } }

/-- Bytes arrive at consecutive near-tier addresses. -/
def State.p2pBytes (s : State) (a : Nat) : List Byte → State
  | [] => s
  | b :: bs => (s.p2pByte a b).p2pBytes (a + 1) bs

/-- Where a window write lands; none when QE discards it (R338). -/
def State.p2pTarget (s : State) (off n : Nat) : Option Nat :=
  match s.region (bitsW s.qe.p2pCfg 9 0) with
  | none => none
  | some r =>
    let o := s.qe.p2pBase.toNat + (off - 0x4000)
    if bitW s.qe.p2pCfg 31 && r.tier == 0 && r.kind == 5 && o + n ≤ r.size then some (r.base + o) else none

/-- PEER_WINDOW_WRITE (R338, R339). -/
def execPeerWindowWrite (off : Nat) (data : List Byte) (s : State) : Host.Outcome State Fault Refusal :=
  done (if !s.vendorLive || off < 0x4000 || 0x100000 < off + data.length then s
    else match s.p2pTarget off data.length with
      | some a => s.p2pBytes a data
      | none => { s with qe := { s.qe with p2pDiscard := sat32 (s.qe.p2pDiscard + 1), event := setEv s.qe.event 3 } })

/-- QE_P2P_FLUSH: a write of QE_P2P_CTL.FLUSH (R339). -/
def execQeP2pFlush (s : State) : Host.Outcome State Fault Refusal := done (if s.vendorLive then s.p2pFlush else s)

/-- QE_P2P_CFG_WRITE (R339, R344). -/
def execQeP2pCfgWrite (v : W32) (s : State) : Host.Outcome State Fault Refusal :=
  done (if !s.vendorLive then s
    else
      let s1 := s.p2pFlush
      { s1 with qe := { s1.qe with p2pCfg := v &&& 0x800003FF } })

/-- QE_P2P_BASE_WRITE (R339, R344): the low word, bits [4:0] ignored, or the high word. -/
def execQeP2pBaseWrite (hi : Bool) (v : W32) (s : State) : Host.Outcome State Fault Refusal :=
  done (if !s.vendorLive then s
    else
      let s1 := s.p2pFlush
      { s1 with qe := { s1.qe with
          p2pBase := if hi then putHi s1.qe.p2pBase v else putLo s1.qe.p2pBase (v &&& 0xFFFFFFE0) } })

end Sys2Proof.Machine
end

