-- ==== Sys2Proof/Machine/Index.lean ====
section
/-! DEFINITION. The search index (R249 to R256, R269 to R275): the superblock, attachment, the side list, COMMIT, merge
and compaction. Where the region holds each part, and the bytes of a side log record, are the model's own (assumption
entry 21). -/

namespace Sys2Proof.Machine

/-! ## The superblock (R252, R256) -/

def sbFormat (l : List Byte) : Nat := u16At l 4
def sbAttrs (l : List Byte) : Bool := bitN (u16At l 6) 0
def sbBits (l : List Byte) : Nat := u16At l 8
def sbLists (l : List Byte) : Nat := u32At l 12
def sbGen (l : List Byte) : Nat := u64At l 16
def sbItems (l : List Byte) : Nat := u64At l 24
def sbCode (l : List Byte) : Nat := u32At l 32
def sbAttr (l : List Byte) : Nat := u32At l 36
def sbId (l : List Byte) : Nat := u32At l 40
def sbCentroid (l : List Byte) : Nat := u32At l 44
def sbIdmap (l : List Byte) : Nat := u32At l 48
def sbBatons (l : List Byte) : Nat := u32At l 52
def sbImage (l : List Byte) : Nat := u64At l 56
def sbTable (l : List Byte) : Nat := u64At l 64
def sbLog (l : List Byte) : Nat := u64At l 72
def sbLogBlocks (l : List Byte) : Nat := u64At l 80
def sbBase (l : List Byte) : Nat := u64At l 88

/-- Checks of R255 step 1. -/
def sbValid (l : List Byte) : Bool :=
  let f := sbFormat l
  u32At l 0 == 0x4958445A && u32At l 4092 == (crc32c (padTo 4092 l)).toNat && (f == 4 || f == 3)
  && u16At l 6 / 2 == 0 && sbBits l % 64 == 0 && 64 ≤ sbBits l && sbBits l ≤ (if f = 4 then 1024 else 512)
  && u16At l 10 == 0 && 1 ≤ sbLists l && sbLists l ≤ (if f = 4 then 1048576 else 65536)
  && (!sbAttrs l || 128 ≤ sbBits l) && zerosAt l (if f = 4 then 96 else 88) (if f = 4 then 3996 else 4004)

/-- Codes of a baton (R98, R249). -/
def codesPer (bits : Nat) : Nat := 64 * (65536 / (8 * bits))

/-- Items of a segment (R269). -/
def segCap (bits : Nat) : Nat := min 1024 (codesPer bits)

/-- Objects of an index (R249). -/
def sbObjects (l : List Byte) : List Nat :=
  [sbCode l, sbCentroid l, sbId l, sbIdmap l] ++ (if sbAttrs l then [sbAttr l] else [])

def Index.live (x : Index) : KMap Segment := x.segments.filter (fun e => !e.2.gone)

/-! ## Reading objects -/

/-- Bytes of the payload of baton `k` of an object's current version. -/
def State.objPayload (s : State) (o k off n : Nat) : List Byte :=
  match s.rl.dir.find o with
  | none => List.replicate n 0
  | some e => s.pinnedBytes { object := o, version := e.cur.num, near := true } s.mm.epoch k (payloadOff e.cur.batons k + off) n

/-- Locators of the base items with an id, through the id map object. -/
def State.baseLocators (s : State) (sup : List Byte) (id : Nat) : List Nat :=
  ((List.range (sbItems sup)).map (fun i => s.objPayload (sbIdmap sup) (i / 4096) (16 * (i % 4096)) 16)).filterMap (fun p =>
    if u64At p 0 = id then some (u64At p 8) else none)

/-! ## The region -/

/-- Bytes of the live mask of one code baton, in whole granules (R263). -/
def maskStride (bits : Nat) : Nat := 32 * ceilDiv (codesPer bits) 256

/-- Bytes the list table and the live mask take at the start of the region. -/
def tableRoom (sup : List Byte) : Nat :=
  65536 * ceilDiv (16 * sbLists sup + sbBatons sup * maskStride (sbBits sup)) 65536

/-- Bytes of a sealed segment: an object of one baton and its item table. -/
def segBytes : Nat := footprint 1 + 65536

def Change.isItem (c : Change) : Bool :=
  match c with
  | .item _ => true
  | .tomb _ => false

/-- Items of EMBED batches staged in a side-list region (R238). -/
def State.stagedItems (s : State) (region : Nat) : Nat :=
  ((s.jd.jobs.filter (fun j => j.kind == 2 && j.target == 2 && j.region == region)).map (fun j =>
    (j.scan.staged.map (fun b => b.2.length)).sum)).sum

def State.regionSize (s : State) (id : Nat) : Nat := ((s.region id).map Region.size).getD 0
def State.regionBase (s : State) (id : Nat) : Nat := ((s.region id).map Region.base).getD 0

/-- Tables that jobs of a region's index use: those of a base a REBASE replaced stay while a job runs on it (R275). -/
def State.jobTables (s : State) (region : Nat) : List (Nat × Nat) :=
  (s.jd.jobs.filter (fun j => j.kind == 3 && j.u16 68 == region && j.search.tab.2 != 0)).map (fun j => j.search.tab)

/-- Ranges of the region that an index holds: its segments, its tables, those of running jobs and of a REBASE to come. -/
def State.indexUsed (s : State) (x : Index) : List (Nat × Nat) :=
  (x.tab, tableRoom x.super) :: (s.nearUsed x.region ++ s.jobTables x.region
    ++ ((x.commit.toList.map PendingCommit.tab).filter (fun t => t.2 != 0)))

/-- First fit of `n` bytes in the region of an index. -/
def State.fitIn (s : State) (x : Index) (used : List (Nat × Nat)) (n : Nat) : Option Nat :=
  firstFit used (s.regionBase x.region) (s.regionBase x.region + s.regionSize x.region) n

/-- `k` more segments find room in the region, one after the other. -/
def State.segsFit (s : State) (x : Index) : Nat → List (Nat × Nat) → Bool
  | 0, _ => true
  | k + 1, used => match s.fitIn x used segBytes with
    | none => false
    | some a => s.segsFit x k ((a, segBytes) :: used)

/-- Segments the pending changes, `staged` items and a REBASE to come may take. -/
def Index.need (x : Index) (staged : Nat) : Nat :=
  let items := (x.open_.filter Change.isItem).length
  let cap := segCap (sbBits x.super)
  ceilDiv items cap + ceilDiv staged cap + ceilDiv (16 * (x.open_.length - items)) segBytes
    + ((x.commit.map PendingCommit.need).getD 0)

/-- The pending changes, sealed segments and `staged` items fit in the region, and `more` segments beside them. -/
def State.fits (s : State) (x : Index) (staged more : Nat) : Bool :=
  s.segsFit x (x.need staged + more) (s.indexUsed x)

/-! ## Segments (R98, R251, R269) -/

/-- Payload of a segment's code baton: byte `j` of the payload. -/
def codeByte (bits : Nat) (codes : List (List Byte)) (j : Nat) : Byte :=
  let g := j / (8 * bits)
  let o := j % (8 * bits)
  let sl := o / 1024
  let w := if 128 * sl + 128 ≤ bits then 16 else 8
  let r := o % 1024
  (codes.getD (64 * g + r / w) []).getD (16 * sl + r % w) 0

/-- An epoch in an item table: all ones until it is set. -/
def epochField (e : Option Nat) : Nat := e.getD 0xFFFFFFFFFFFFFFFF

/-- An item-table entry of 32 bytes. -/
def itemEntry (i : SideItem) : List Byte :=
  leBytes i.id.toNat 8 ++ leBytes i.attr.toNat 8 ++ leBytes (epochField i.commit) 8 ++ leBytes (epochField i.death) 8

/-- The header of a segment's baton (R161, R251). -/
def segHeader (fmt bits : Nat) (seg : Segment) (payload : List Byte) : List Byte :=
  let ix := if fmt = 3 then 0xFFFF + 3 * 2 ^ 60 else 0xFFFFFF + 2 * 2 ^ 24 + 4 * 2 ^ 60
  let head := leBytes seg.object 4 ++ leBytes 0 4 ++ leBytes 1 4 ++ [1, 6, 0, 0] ++ leBytes seg.items.length 4
    ++ leBytes bits 2 ++ leBytes 0 2 ++ leBytes ix 8
  let scales := List.replicate 256 (0 : Byte)
  head ++ leBytes (crc32c (payload ++ scales ++ head)).toNat 4 ++ List.replicate 28 0 ++ scales

/-- Write a segment's bytes into the region. -/
def State.syncSegment (s : State) (sup : List Byte) (seg : Segment) : State :=
  let codes := seg.items.map SideItem.code
  let bits := sbBits sup
  let payload := (List.range 65536).map (fun j => if j < 8 * bits * ceilDiv codes.length 64 then codeByte bits codes j else 0)
  s.nearWrite seg.addr (padTo 65536 (segHeader (sbFormat sup) bits seg payload) ++ payload
    ++ padTo 65536 (seg.items.flatMap itemEntry))

/-- An object id that no entry uses, the highest. -/
def State.freeObject (s : State) : Nat := 0xFFFFFFFE - lowestFree ((s.rl.dir.keys.map (fun k => 0xFFFFFFFE - k)).reverse) 0

/-- Enter one sealed segment (R269): a RESIDENT object without a home, first fit in the region. Room was made sure of
before. -/
def State.sealOne (s : State) (nsid : Nat) (items : List SideItem) : State :=
  match s.idx.find nsid with
  | none => s
  | some x => match s.fitIn x (s.indexUsed x) segBytes with
   | none => s
   | some a =>
    let seg : Segment := { items := items, addr := a, object := s.freeObject, gone := false }
    let ent : DirEntry :=
      { cur := Version.fresh 1 1 x.region (some a) .none, old := none, state := .resident, evictPending := false,
        discardPending := false, damaged := false, mark := 1, waits := [], segment := true, condemned := false }
    { s with
      rl := { s.rl with dir := s.rl.dir.put seg.object ent }
      idx := s.idx.put nsid { x with segments := x.segments.put x.nextSeg seg, nextSeg := x.nextSeg + 1 } }.syncSegment x.super seg

/-- Seal items into segments of S; `fuel` bounds the segments. -/
def State.seal (s : State) (nsid cap : Nat) : Nat → List SideItem → State
  | 0, _ => s
  | f + 1, is => if is.isEmpty then s else (s.sealOne nsid (is.take cap)).seal nsid cap f (is.drop cap)

/-- A replaced segment leaves the region once no job pins it (R274). -/
def State.retireSegment (s : State) (nsid num : Nat) : State :=
  match s.idx.find nsid with
  | none => s
  | some x =>
    match x.segments.find num with
    | none => s
    | some g =>
      let s1 := { s with idx := s.idx.put nsid { x with segments := x.segments.put num { g with gone := true } } }
      if ((s.rl.dir.find g.object).map (fun e => e.cur.pins)).getD 0 = 0 then
        { s1 with
          rl := { s1.rl with dir := s1.rl.dir.del g.object }
          idx := s.idx.put nsid { x with segments := x.segments.del num } }
      else s1.onDir g.object (fun e => { e with condemned := true })

/-- Segments that were replaced and whose objects are gone leave the index. -/
def State.purgeSegments (s : State) : State :=
  { s with idx := s.idx.mapVals (fun _ x => { x with segments := x.segments.filter (fun e =>
      !(e.2.gone && (s.rl.dir.find e.2.object).isNone)) }) }

/-! ## The dead table in lane memory (R262) -/

/-- Dead-table entries of a squad's indexes. -/
def State.deadOf (s : State) (squad : Nat) : List (Nat × Nat) :=
  (s.idx.vals.filter (fun x => x.squad == squad)).flatMap Index.dead

/-- The dead table as 64 KiB of lane memory. -/
def deadBytes (es : List (Nat × Nat)) : List Byte :=
  ((es.take 4096).flatMap (fun e => leBytes e.1 8 ++ leBytes e.2 8)) ++
    (List.range (4096 - es.length)).flatMap (fun _ => List.replicate 8 (0xFF : Byte) ++ List.replicate 8 0)

/-- JD writes the dead table of a SEARCH squad into each of its tiles. -/
def State.writeDead (s : State) (squad : Nat) : State :=
  let b := deadBytes (s.deadOf squad)
  match s.squadOf squad with
  | none => s
  | some q => q.tiles.foldl (fun s n => s.setTile n ((s.tile n).put 0x001D0000 b)) s

/-! ## The side log -/

/-- One side log record. -/
def logRecord (fmt bits : Nat) (items : List SideItem) (tombs : List W64) : List Byte :=
  let body := leBytes 0x524C5353 4 ++ leBytes fmt 2 ++ leBytes bits 2 ++ leBytes items.length 4 ++ leBytes tombs.length 4
    ++ items.flatMap (fun i => leBytes i.id.toNat 8 ++ leBytes i.attr.toNat 8 ++ padTo (bits / 8) i.code)
    ++ tombs.flatMap (fun t => leBytes t.toNat 8)
  body ++ leBytes (crc32c body).toNat 4

def recordBytes (bits items tombs : Nat) : Nat := 20 + items * (16 + bits / 8) + 8 * tombs

/-- Read the record at block `k` of the log: its items, tombstones and length in blocks. -/
def State.readRecord (s : State) (nsid : Nat) (sup : List Byte) (k : Nat) : Option (List SideItem × List W64 × Nat) :=
  let o := 4096 * (sbLog sup + k)
  let bits := sbBits sup
  let h := s.nsBytes nsid s.mm.epoch o 16
  let n := recordBytes bits (u32At h 8) (u32At h 12)
  if u32At h 0 ≠ 0x524C5353 ∨ u16At h 6 ≠ bits ∨ 4096 * sbLogBlocks sup < 4096 * k + n then none
  else
    let l := s.nsBytes nsid s.mm.epoch o n
    if u32At l (n - 4) ≠ (crc32c (l.take (n - 4))).toNat then none
    else
      let w := 16 + bits / 8
      some ((List.range (u32At h 8)).map (fun i =>
          ({ id := BitVec.ofNat 64 (u64At l (16 + w * i)), attr := BitVec.ofNat 64 (u64At l (24 + w * i)),
             code := sliceZ l (32 + w * i) (bits / 8), commit := some 0, death := none } : SideItem)),
        (List.range (u32At h 12)).map (fun i => BitVec.ofNat 64 (u64At l (16 + w * u32At h 8 + 8 * i))), ceilDiv n 4096)

/-- Replay the side log from block `k`: items with epoch 0, tombstone ids, and the blocks in use. -/
def State.replayLog (s : State) (nsid : Nat) (sup : List Byte) : Nat → Nat → List SideItem → List W64 → List SideItem × List W64 × Nat
  | 0, k, is, ts => (is, ts, k)
  | f + 1, k, is, ts =>
    match s.readRecord nsid sup k with
    | none => (is, ts, k)
    | some (is', ts', n) =>
      let killed := is.map (fun i => if ts'.contains i.id && i.death.isNone then { i with death := some 0 } else i)
      s.replayLog nsid sup f (k + max n 1) (killed ++ is') (ts ++ ts')

/-! ## Attachment (R255) -/

/-- The superblock that governs: the valid copy with the higher generation, and its slot. -/
def State.governing (s : State) (nsid : Nat) : Option (List Byte × Nat) :=
  let rd (k : Nat) : List Byte := s.nsBytes nsid s.mm.epoch (4096 * k) 4096
  let ok (k : Nat) : Bool := sbValid (rd k) && !s.mm.anyBad nsid k 1
  if ok 0 && (!ok 1 || sbGen (rd 1) ≤ sbGen (rd 0)) then some (rd 0, 0)
  else if ok 1 then some (rd 1, 1) else none

/-- The code object's home is the index namespace where the superblock names an image (R257). -/
def State.homeCode (s : State) (nsid : Nat) (sup : List Byte) : State :=
  if sbImage sup = 0 then s
  else match s.rl.dir.find (sbCode sup) with
    | none =>
      let ent : DirEntry :=
        { cur := Version.fresh 1 (sbBatons sup) 0 none (.ns nsid (sbImage sup)), old := none, state := .home,
          evictPending := false, discardPending := false, damaged := false, mark := sbBatons sup, waits := [],
          segment := false, condemned := false }
      { s with rl := { s.rl with dir := s.rl.dir.put (sbCode sup) ent } }
    | some e => if e.cur.home = .none then
        s.onDir (sbCode sup) (fun e => { e with cur := { e.cur with home := .ns nsid (sbImage sup) } }) else s

/-- The list table entries. -/
def State.readTable (s : State) (nsid : Nat) (sup : List Byte) : List (Nat × Nat × Nat) :=
  (List.range (sbLists sup)).map (fun j =>
    let e := s.nsBytes nsid s.mm.epoch (4096 * sbTable sup + 16 * j) 16
    (u32At e 0, u32At e 4, u32At e 8))

/-- The live mask byte `i` of code baton `b`. -/
def maskByte (bits : Nat) (dead : List Nat) (b i : Nat) : Byte :=
  BitVec.ofNat 8 ((List.range 8).map (fun j =>
    if 8 * i + j < codesPer bits && !dead.contains (65536 * b + 8 * i + j) then 2 ^ j else 0)).sum

/-- Write the list table and the live mask into the region. -/
def State.syncTables (s : State) (nsid : Nat) : State :=
  match s.idx.find nsid with
  | none => s
  | some x =>
    let bits := sbBits x.super
    s.nearWrite x.tab
      (x.lists.flatMap (fun e => leBytes e.1 4 ++ leBytes e.2.1 4 ++ leBytes e.2.2 4 ++ leBytes 0 4)
        ++ (List.range (sbBatons x.super)).flatMap (fun b =>
          (List.range (maskStride bits)).map (maskByte bits x.deadMask b)))

/-- The index a superblock and its replayed side log give, before it has room in its region. -/
def State.indexOf (s : State) (nsid squad region : Nat) (sup : List Byte) (slot : Nat) (rep : List SideItem × List W64 × Nat) : Index :=
  { squad := squad, region := region, super := sup, slot := slot, lists := s.readTable nsid sup,
    segments := [], nextSeg := 0, open_ := [], dead := [],
    deadMask := (rep.2.1.flatMap (fun t => s.baseLocators sup t.toNat)).dedup,
    tombs := rep.2.1.map (fun t => (t.toNat, 0)), logUsed := rep.2.2, commit := none, waiting := [] }

/-- Room in the region for the index's tables and for segments of `items` side items, or none (R255). -/
def State.placeIndex (s : State) (x : Index) (items : Nat) : Option Index :=
  match s.fitIn x (s.nearUsed x.region) (tableRoom x.super) with
  | none => none
  | some a => if s.fits { x with tab := a } 0 (ceilDiv items (segCap (sbBits x.super))) then some { x with tab := a } else none

/-- The index is attached: its tables are written, its side items sealed into segments, the dead table into the squad's
tiles. -/
def State.takeIndex (s : State) (nsid : Nat) (x : Index) (items : List SideItem) : State :=
  let s1 := s.homeCode nsid x.super
  (({ s1 with idx := s1.idx.put nsid x }.syncTables nsid).seal nsid (segCap (sbBits x.super)) items.length items).writeDead x.squad

/-- Attach an index for a squad and a region: the status that ends the job, or the state with the index attached. -/
def State.attachIndex (s : State) (squad nsid region : Nat) : Nat ⊕ State :=
  match s.idx.find nsid with
  | some x => if x.squad = squad ∧ x.region = region then .inr s else .inl stInvalidField
  | none =>
    match s.region region, s.mm.namespaces.find nsid with
    | some r, some n =>
      if r.kind ≠ 6 ∨ r.owner ≠ squad ∨ n.attached = false ∨ s.idx.any (fun e => e.2.region == region) then .inl stInvalidField
      else match s.governing nsid with
        | none => .inl stInvalidField
        | some (sup, slot) =>
          if s.qe.versions.index = 3 ∧ sbFormat sup = 4 then .inl stVersion
          else
            let rep := s.replayLog nsid sup (sbLogBlocks sup) 0 [] []
            match s.placeIndex (s.indexOf nsid squad region sup slot rep) rep.1.length with
            | none => .inl stCapacity
            | some x => .inr (s.takeIndex nsid x rep.1)
    | _, _ => .inl stInvalidField

/-- An attachment ends: its segments go with the region's contents, pending changes are discarded (R255). -/
def State.detach (s : State) (nsid : Nat) : State :=
  match s.idx.find nsid with
  | none => s
  | some x =>
    { s with
      idx := s.idx.del nsid
      rl := { s.rl with dir := s.rl.dir.filter (fun e => !x.segments.any (fun g => g.2.object == e.1)) } }

def State.detachWhere (s : State) (p : Index → Bool) : State :=
  ((s.idx.filter (fun e => p e.2)).map Prod.fst).foldl State.detach s

/-! ## Appending (R238, R270, R274) -/

/-- Append changes until one finds no room: how many were appended. -/
def State.appendChanges (s : State) (nsid : Nat) : List Change → State × Nat
  | [] => (s, 0)
  | c :: cs =>
    match s.idx.find nsid with
    | none => (s, 0)
    | some x =>
      let x1 := { x with open_ := x.open_ ++ [c] }
      if s.fits x1 (s.stagedItems x.region) 0 then
        let r := { s with idx := s.idx.put nsid x1 }.appendChanges nsid cs
        (r.1, r.2 + 1)
      else (s, 0)

/-- Checks of an INSERT or DELETE at admission: a status, or the state with the index attached. -/
def State.admitAppend (s : State) (j : Job) : Nat ⊕ State :=
  let ins := j.kind == 4
  if !(zerosAt j.desc 76 4 && zerosAt j.desc 88 168 && s.commonOk j && j.target != 2)
      || j.u32 72 == 0 || 65536 < j.u32 72 then .inl stInvalidField
  else match s.attachIndex j.squad (j.u32 64) (j.u16 68) with
    | .inl st => .inl st
    | .inr s1 =>
      match s1.idx.find (j.u32 64) with
      | none => .inl stInvalidField
      | some x =>
        let w := 16 + sbBits x.super / 8
        let bad := ins && (List.range (j.u32 72)).any (fun i =>
          u64At j.data (w * i) == 0xFFFFFFFFFFFFFFFF || (sbFormat x.super == 3 && u32At j.data (w * i + 12) != 0))
        if (if ins then j.u16 70 != sbBits x.super else j.u16 70 != 0) || bad then .inl stInvalidField
        else if ((s1.mm.namespaces.find (j.u32 64)).map Namespace.readOnly).getD false then .inl stWriteProtected
        else .inr s1

/-- The changes an INSERT or DELETE carries. -/
def Job.changes (j : Job) (bits : Nat) : List Change :=
  (List.range (j.u32 72)).map (fun i =>
    let w := 16 + bits / 8
    if j.kind = 4 then .item { id := BitVec.ofNat 64 (u64At j.data (w * i)), attr := BitVec.ofNat 64 (u64At j.data (w * i + 8)),
                               code := sliceZ j.data (w * i + 16) (bits / 8), commit := none, death := none }
    else .tomb (BitVec.ofNat 64 (u64At j.data (8 * i))))

/-- Run an INSERT or DELETE: the entries that fit are appended, pending (R270, R274). -/
def State.runAppend (s : State) (j : Job) : State :=
  match s.idx.find (j.u32 64) with
  | none => s
  | some x =>
    let r := s.appendChanges (j.u32 64) (j.changes (sbBits x.super))
    let s1 := r.1.onJob j.tag (fun j => { j with search := { j.search with done := r.2 } })
    if r.2 = j.u32 72 then s1.finishJob j.tag stOk else s1.stopJob j.tag 6 stCapacity

/-! ## COMMIT (R271 to R275) -/

/-- Resolve the pending changes in append order: surviving items, and tombstones with whether each cancelled one. -/
def resolveChanges : List Change → List SideItem → List (W64 × Bool) → List SideItem × List (W64 × Bool)
  | [], is, ts => (is, ts)
  | .item i :: cs, is, ts => resolveChanges cs (is ++ [i]) ts
  | .tomb t :: cs, is, ts =>
    resolveChanges cs (is.filter (fun i => !(i.id == t))) (ts ++ [(t, is.any (fun i => i.id == t))])

/-- A superblock rewritten in format 4 with the next generation (R256). -/
def sbUpgrade (l : List Byte) : List Byte :=
  let b := spliceZ (spliceZ (padTo 4092 l) 4 (leBytes 4 2)) 16 (leBytes (sbGen l + 1) 8)
  b ++ leBytes (crc32c b).toNat 4

/-- The checks of a REBASE (R275): none of them fails. -/
def State.rebaseOk (s : State) (nsid lba : Nat) (x : Index) : Bool :=
  let sup := s.nsBytes nsid s.mm.epoch (4096 * lba) 4096
  sbFormat x.super == 4 && sbValid sup && !s.mm.anyBad nsid lba 1 && sbFormat sup == 4 && sbGen x.super < sbGen sup
  && ((s.mm.namespaces.find nsid).map (fun n => n.holds lba 1)).getD false && s.objectsExist (sbObjects sup)

/-- Side items a REBASE keeps: those committed after its base_epoch (R275). -/
def keptItems (x : Index) (base : Nat) : List SideItem :=
  (x.live.vals.flatMap Segment.items).filter (fun i => match i.commit with
    | some e => base < e
    | none => false)

/-- Kept items that a REBASE's record holds: none that is dead, or that a tombstone of the record kills (R272). -/
def keptAlive (x : Index) (base : Nat) (ts : List W64) : List SideItem :=
  (keptItems x base).filter (fun i => i.death.isNone && !ts.contains i.id)

/-- Put the head of an index's waiting COMMITs into landing, when the one before it has ended. -/
def State.nextCommit (s : State) (nsid : Nat) : State :=
  match s.idx.find nsid with
  | none => s
  | some x =>
    match x.commit, x.waiting with
    | none, tag :: rest =>
      match s.job tag with
      | none => { s with idx := s.idx.put nsid { x with waiting := rest } }
      | some j =>
        let s0 := { s with idx := s.idx.put nsid { x with waiting := rest } }
        let flags := j.u16 70
        let r := resolveChanges x.open_ [] []
        let bits := sbBits x.super
        let reb := bitN flags 1
        let sup := s.nsBytes nsid s.mm.epoch (4096 * j.u64 72) 4096
        if bitN flags 0 then
          ({ s0 with idx := s.idx.put nsid { x with waiting := rest, open_ := [] } }).finishJob tag stOk
        else if reb && !s.rebaseOk nsid (j.u64 72) x then s0.stopJob tag 0 stInvalidField
        else
          let up := !reb && sbFormat x.super == 3 && s.qe.versions.index == 4
          let keep := if reb then keptAlive x (sbBase sup) (r.2.map Prod.fst) else []
          let keepT := if reb then (x.tombs.filter (fun t => sbBase sup < t.2)).map (fun t => BitVec.ofNat 64 t.1) else []
          let items := keep ++ r.1
          let tombs := keepT ++ r.2.map Prod.fst
          let n := ceilDiv (recordBytes bits items.length tombs.length) 4096
          let log := if reb then sbLog sup else sbLog x.super + x.logUsed
          let room := if reb then sbLogBlocks sup else sbLogBlocks x.super - x.logUsed
          let tab : Nat × Nat := if reb then ((s.fitIn x (s.indexUsed x) (tableRoom sup)).getD 0, tableRoom sup) else (0, 0)
          let need := if reb then ceilDiv ((keptItems x (sbBase sup)).length + r.1.length) (segCap (sbBits sup)) else 0
          if room < n || (reb && ((s.fitIn x (s.indexUsed x) (tableRoom sup)).isNone
              || !s.segsFit x (x.need (s.stagedItems x.region) + need) (tab :: s.indexUsed x))) then s0.stopJob tag 6 stCapacity
          else if 1024 < (if reb then need else x.live.length + ceilDiv r.1.length (segCap bits)) || s.mm.landingFull then s
          else
            let bytes := logRecord (if up then 4 else sbFormat x.super) bits items tombs
            let blocks := (List.range n).map (fun i => trimZ (sliceZ bytes (4096 * i) 4096))
            let newSup := if reb then some (padTo 4096 sup, 1 - x.slot) else if up then some (sbUpgrade x.super, 1 - x.slot) else none
            let sb : List Piece := match newSup with
              | none => []
              | some (b, k) => [{ num := 0, slba := k, blocks := [trimZ b], zeros := 0, stripe := none, off := 0, onMedium := false }]
            let ps := cutPieces (ceilDiv n 64) 0 log blocks ++ sb
            let p : Mm × List Piece := match s0.mm.namespaces.find nsid with
              | none => (s0.mm, ps)
              | some ns => s0.mm.placePieces ns ps
            let k : PendingCommit :=
              { tag := tag, items := r.1, tombs := r.2, taken := x.open_.length, pieces := p.2, medium := none,
                newSuper := newSup, rebase := reb, logEnd := if reb then n else x.logUsed + n,
                tab := tab, need := need }
            { s0 with mm := p.1, idx := s.idx.put nsid { x with waiting := rest, commit := some k } }
    | _, _ => s

/-- Admit a COMMIT (R271): a status, or the state with it in line. -/
def State.admitCommit (s : State) (j : Job) : Nat ⊕ State :=
  if !(zerosAt j.desc 80 176 && s.commonOk j && j.target != 2 && j.u16 70 / 4 == 0) then .inl stInvalidField
  else match s.attachIndex j.squad (j.u32 64) (j.u16 68) with
    | .inl st => .inl st
    | .inr s1 =>
      if !bitN (j.u16 70) 0 && ((s1.mm.namespaces.find (j.u32 64)).map Namespace.readOnly).getD false then
        .inl stWriteProtected
      else
        let s2 := (s1.admitJob j.tag s1.mm.epoch []).onJob j.tag (fun j => { j with state := .commitWait })
        .inr ({ s2 with idx := s2.idx.adjust (j.u32 64) (fun x => { x with waiting := x.waiting ++ [j.tag] }) }.nextCommit
          (j.u32 64))

/-- A committed side item dies at `c` when a tombstone names it. -/
def killItem (ids : List W64) (c : Nat) (i : SideItem) : SideItem :=
  if i.commit.isSome && i.death.isNone && ids.contains i.id then { i with death := some c } else i

/-- Base locators that the tombstones of a commit set dead: neither masked nor in the dead table already. -/
def State.newDead (s : State) (x : Index) (sup : List Byte) (ids : List W64) : List Nat :=
  ((ids.flatMap (fun t => s.baseLocators sup t.toNat)).dedup).filter (fun l =>
    !x.deadMask.contains l && !x.dead.any (fun d => d.1 == l))

/-- Entries of the dead table still free in the squad (R273). -/
def State.deadFree (s : State) (squad : Nat) : Nat := 4096 - (s.deadOf squad).length

/-- A tombstone that acted on nothing. -/
def State.missed (s : State) (x : Index) (t : W64 × Bool) : Bool :=
  !t.2 && (s.newDead x x.super [t.1]).isEmpty
  && !x.live.any (fun g => g.2.items.any (fun i => i.id == t.1 && i.commit.isSome && i.death.isNone))

/-- Where the tombstones of an index act on a new base: those that every live and future snapshot sees (R273), and the others
with their epochs (R275). -/
def State.rebaseDead (s : State) (sup : List Byte) (tombs : List (Nat × Nat)) : List Nat × List (Nat × Nat) :=
  let f := s.snapFloor
  (((tombs.filter (fun t => t.2 ≤ f)).flatMap (fun t => s.baseLocators sup t.1)).dedup,
   (tombs.filter (fun t => f < t.2)).flatMap (fun t => (s.baseLocators sup t.1).map (fun l => (l, t.2))))

/-- Jobs on the base that a REBASE replaces keep its dead entries (R275). -/
def State.keepDead (s : State) (nsid : Nat) (dead : List (Nat × Nat)) : State :=
  { s with jd := { s.jd with jobs := s.jd.jobs.map (fun j =>
      if j.kind == 3 && j.u32 64 == nsid && j.search.tab.2 != 0 && j.search.dead.isNone then
        { j with search := { j.search with dead := some dead } } else j) } }

/-- Switch the base to the new superblock (R275): `more` are the items of the COMMIT itself. -/
def State.rebase (s : State) (nsid : Nat) (sup : List Byte) (slot tab : Nat) (more : List SideItem) : State :=
  match s.idx.find nsid with
  | none => s
  | some x =>
    let items := keptItems x (sbBase sup) ++ more
    let tombs := x.tombs.filter (fun t => sbBase sup < t.2)
    let d := s.rebaseDead sup tombs
    let s1 := x.live.foldl (fun s g => s.retireSegment nsid g.1) (s.keepDead nsid x.dead)
    let s2 : State := { s1 with idx := s1.idx.adjust nsid (fun y => { y with
      super := sup, slot := slot, lists := s.readTable nsid sup, tab := tab, deadMask := d.1, dead := d.2, tombs := tombs }) }
    ((s2.homeCode nsid sup).seal nsid (segCap (sbBits sup)) items.length items).syncTables nsid

/-- A commit takes effect at epoch `c` (R271 steps 4 and 5). -/
def State.applyCommit (s : State) (nsid : Nat) (x : Index) (k : PendingCommit) (c : Nat) : State :=
  let ids := k.tombs.map Prod.fst
  let nd := s.newDead x x.super ids
  let missed := (k.tombs.filter (s.missed x)).length
  let items := k.items.map (fun i => { i with commit := some c })
  let segs := x.segments.mapVals (fun _ g => { g with items := g.items.map (killItem ids c) })
  let x1 : Index := { x with
    segments := segs, open_ := x.open_.drop k.taken, dead := x.dead ++ nd.map (fun l => (l, c))
    tombs := x.tombs ++ ids.map (fun t => (t.toNat, c)), logUsed := k.logEnd, commit := none
    super := (match k.newSuper with | some (b, _) => if k.rebase then x.super else b | none => x.super)
    slot := (match k.newSuper with | some (_, n) => if k.rebase then x.slot else n | none => x.slot) }
  let s1 := segs.foldl (fun s g => if (x.segments.find g.1) = some g.2 then s else s.syncSegment x.super g.2)
    { s with idx := s.idx.put nsid x1 }
  let s2 := match k.newSuper, k.rebase with
    | some (b, n), true => s1.rebase nsid b n k.tab.1 items
    | _, _ => s1.seal nsid (segCap (sbBits x.super)) items.length items
  let s3 := (s2.writeDead x.squad).onJob k.tag (fun j =>
    { j with stop := none, search := { j.search with epoch := some c, notFound := missed } })
  (s3.finishJob k.tag stOk (c % 2 ^ 32) (c / 2 ^ 32)).nextCommit nsid

/-- The dead-table entries that a commit needs are free in the squad (R273). -/
def State.deadRoom (s : State) (x : Index) (k : PendingCommit) : Bool :=
  let ids := k.tombs.map Prod.fst
  match k.newSuper, k.rebase with
  | some (sup, _), true =>
    let tombs := (x.tombs.filter (fun t => sbBase sup < t.2)) ++ ids.map (fun t => (t.toNat, s.mm.epoch))
    (s.deadOf x.squad).length - x.dead.length + (s.rebaseDead sup tombs).2.length ≤ 4096
  | _, _ => (s.newDead x x.super ids).length ≤ s.deadFree x.squad

/-- A stop has reached the COMMIT in progress, which JD finishes all the same (R412). -/
def State.commitForced (s : State) (nsid : Nat) : Bool :=
  match (s.idx.find nsid).bind Index.commit with
  | none => false
  | some k => ((s.job k.tag).map (fun j => j.stop.isSome)).getD true

/-- The commit of an index may take effect at the epoch that runs: its record was on the medium before it, and its tombstones
fit in the dead table, unless a stop makes JD finish it without the tiles (R271, R273, R412). -/
def State.commitDue (s : State) (nsid : Nat) (x : Index) (k : PendingCommit) : Bool :=
  (match k.medium with
   | none => false
   | some e => e < s.mm.epoch) && (s.commitForced nsid || (s.inGo && s.deadRoom x k))

/-- Change the commit in progress of an index. -/
def State.onCommit (s : State) (nsid : Nat) (f : PendingCommit → PendingCommit) : State :=
  { s with idx := s.idx.adjust nsid (fun x => { x with commit := x.commit.map f }) }

/-- The commit that is to take effect at the epoch that runs does; one for which the room has gone waits on. -/
def State.commitEffect (s : State) (nsid : Nat) : State :=
  match s.idx.find nsid with
  | none => s
  | some x =>
    match x.commit with
    | none => s.nextCommit nsid
    | some k =>
      if k.ready != some s.mm.epoch then s
      else if s.commitDue nsid x k then s.applyCommit nsid x k s.mm.epoch
      else s.onCommit nsid (fun k => { k with ready := none })

/-- The epoch that begins is that of every commit that may take effect at its boundary (R271); the command COMMIT_TAKE_EFFECT
then carries it out (DESIGN CHOICE, assumption entry 49). -/
def State.readyCommits (s : State) : State :=
  s.idx.foldl (fun s e => match e.2.commit with
    | none => s
    | some k => if s.commitDue e.1 e.2 k then s.onCommit e.1 (fun k => { k with ready := some s.mm.epoch }) else s) s

/-- Commits that no COMMIT_TAKE_EFFECT reached take effect before their epoch ends. -/
def State.settleCommits (s : State) : State := s.idx.keys.foldl State.commitEffect s

/-! ## Background work on the index (R273, R274) -/

/-- Side-list merge: the items of some sealed segments that a live or future snapshot may see move to new segments. -/
def State.mergeSegments (s : State) (nsid : Nat) (nums : List Nat) : State :=
  match s.idx.find nsid with
  | none => s
  | some x =>
    let old := x.live.filter (fun g => nums.contains g.1)
    let keep : SideItem → Bool := fun i => (match i.death with | some e => s.snapFloor < e | none => true)
    let items := ((KMap.vals old).flatMap Segment.items).filter keep
    let cap := segCap (sbBits x.super)
    if old.isEmpty || old.length ≤ ceilDiv items.length cap
        || !s.fits x (s.stagedItems x.region) (ceilDiv items.length cap) then s
    else ((old.foldl (fun s g => s.retireSegment nsid g.1) s).seal nsid cap items.length items).nextCommit nsid

/-- A side item no snapshot can see leaves its place empty. -/
def SideItem.drop (i : SideItem) : SideItem := { i with id := 0xFFFFFFFFFFFFFFFF, attr := 0, commit := none }

/-- Index compaction: tombstones at or below MM_SNAP_FLOOR go into the live mask, and dead side items are dropped. -/
def State.compact (s : State) (nsid : Nat) : State :=
  match s.idx.find nsid with
  | none => s
  | some x =>
    let f := s.snapFloor
    let due := x.dead.filter (fun d => d.2 ≤ f)
    let segs := x.segments.mapVals (fun _ g => { g with items := g.items.map (fun i =>
      match i.death with
      | some e => if e ≤ f then i.drop else i
      | none => i) })
    let x1 := { x with dead := x.dead.filter (fun d => f < d.2), deadMask := x.deadMask ++ due.map Prod.fst, segments := segs }
    let s1 := segs.foldl (fun s g => if (x.segments.find g.1) = some g.2 then s else s.syncSegment x.super g.2)
      { s with idx := s.idx.put nsid x1 }
    (s1.syncTables nsid).writeDead x.squad

/-! ## Meanings -/

/-- JD and the tiles run (R377, R411). -/
def State.jobsRun (s : State) : Bool := s.inGo || s.inBlocks

/-- No job of the squad has been admitted since the last beat boundary: so a merge enters at a boundary (DESIGN CHOICE,
assumption entry 22). -/
def State.atBoundary (s : State) (nsid : Nat) : Bool :=
  match s.idx.find nsid with
  | none => true
  | some x => (s.jobsOf x.squad).all (fun j => !j.admitted || j.admitBeat < s.pc.beat)

/-- COMMIT_TAKE_EFFECT (R271, R273, R412): at a beat boundary, before JD admits a job. -/
def execCommitTakeEffect (nsid : Nat) (s : State) : Host.Outcome State Fault Refusal :=
  done (if s.inGo || (s.halted && s.commitForced nsid) then s.commitEffect nsid else s)

/-- SIDE_LIST_MERGE (R274): in a background slot or as filler; its segments enter at a beat boundary. -/
def execSideListMerge (nsid : Nat) (segments : List Nat) (s : State) : Host.Outcome State Fault Refusal :=
  done (if s.inGo && s.atBoundary nsid && s.mayRun 2 nsid then
    (s.purgeSegments.mergeSegments nsid segments).endBg 2 nsid else s)

/-- INDEX_COMPACTION (R273, R274): in a background slot or as filler. -/
def execIndexCompaction (nsid : Nat) (s : State) : Host.Outcome State Fault Refusal :=
  done (if s.inGo && s.mayRun 3 nsid then (s.purgeSegments.compact nsid).endBg 3 nsid else s)

end Sys2Proof.Machine
end

