-- ==== Sys2Proof/Machine/ScanJobs.lean ====
section
/-! DEFINITION. SCAN and EMBED jobs (R217 to R248): admission, extents, output chunks, and how they end. -/

namespace Sys2Proof.Machine

/-! ## Layout and predicate of a job (R227) -/

def Squad.layout (q : Squad) (n : Nat) : Option Layout := (layoutsOf q.layouts).find? (fun y => y.num == n)
def Squad.predicate (q : Squad) (n : Nat) : Option Predicate := (predicatesOf q.layouts).find? (fun p => p.num == n)

def State.jobLayout (s : State) (j : Job) : Option Layout := (s.squadOf j.squad).bind (fun q => q.layout (j.u16 68))

/-- The predicate of a job; none when every record matches. -/
def State.jobPred (s : State) (j : Job) : Option Predicate :=
  if j.u16 70 = 0xFFFF then none else (s.squadOf j.squad).bind (fun q => q.predicate (j.u16 70))

/-- Fields PROJECT names. -/
def Job.project (j : Job) : List Nat := ((List.range 16).map (fun i => j.u8 (100 + i))).filter (fun f => f != 0xFF)

/-- The range and extents of a job are as R228, R230 and the namespace allow. -/
def State.rangeOk (s : State) (j : Job) (y : Layout) : Bool :=
  let e := j.u8 96
  (e == 0 || (20 ≤ e && e ≤ 26)) && 1 ≤ j.u64 80 && j.startOff % 4096 == 0 && j.startOff < j.rangeLen
  && (y.kind != 1 || (j.extentSize % y.align == 0 && j.startOff % y.align == 0))
  && (match s.mm.namespaces.find (j.u32 64) with
      | none => false
      | some n => n.attached && n.holds (j.u64 72) (j.u64 80))

/-- The numbers of a job's layout and predicate are unique in the section that serves its squad (R219, R225). -/
def State.formUnique (s : State) (j : Job) : Bool :=
  match s.squadOf j.squad with
  | none => false
  | some q => ((layoutsOf q.layouts).filter (fun y => y.num == j.u16 68)).length == 1
      && (j.u16 70 == 0xFFFF || ((predicatesOf q.layouts).filter (fun p => p.num == j.u16 70)).length == 1)

/-- The layout and predicate pass the check of R227. -/
def State.formOk (s : State) (j : Job) (y : Layout) : Bool :=
  layoutOk y && s.formUnique j && (j.u16 70 == 0xFFFF || (match s.jobPred j with
    | none => false
    | some p => predicateOk p y))

/-- What SCAN adds (R228, R241, R242). -/
def scanFormOk (j : Job) (y : Layout) : Bool :=
  j.u8 97 ≤ 3 && zerosAt j.desc 98 2 && zerosAt j.desc 132 124 && j.target != 2
  && (j.u8 97 != 2 || j.project.all (fun f => f < y.fields.length))
  && (j.u8 97 != 3 || (j.aggregates.all (fun a => a.1 ≤ 4 && (match y.fields[a.2]? with
        | none => false
        | some f => a.1 == 1 || f.type ≤ 3))
      && j.aggReserve ≤ j.resultLen))

/-- What EMBED adds (R229). -/
def State.embedFormOk (s : State) (j : Job) (y : Layout) : Bool :=
  let out := j.u8 97
  let code := bitN out 1
  out != 0 && out / 4 == 0 && j.u8 98 ≤ 2 && j.u8 99 / 2 == 0 && 16 ≤ j.u16 102 && j.u16 102 ≤ 4096
  && j.u16 112 % 64 == 0 && 64 ≤ j.u16 112 && j.u16 112 ≤ 8192 && zerosAt j.desc 124 132
  && (if code then j.u16 114 % 64 == 0 && 64 ≤ j.u16 114 && j.u16 114 ≤ 1024
        && (j.u32 108 != 0xFFFFFFFF || j.u16 114 ≤ j.u16 112) else j.u16 114 == 0)
  && (match s.squadOf j.squad with
      | none => false
      | some q => j.u16 100 < q.templates.length)
  && (j.target != 2 || (code && (y.idField != 0xFFFF || bitN (j.u8 99) 0)
      && (match s.idx.vals.find? (fun x => x.region == j.region) with
          | none => false
          | some x => sbBits x.super == j.u16 114)))

/-- Objects a job names (R229). -/
def Job.embedObjects (j : Job) : List Nat :=
  if j.kind = 2 then [j.u32 104] ++ (if j.u32 108 = 0xFFFFFFFF then [] else [j.u32 108]) else []

/-- Checks of a SCAN or EMBED at admission: all hold. -/
def State.scanChecks (s : State) (j : Job) : Bool :=
  s.commonOk j && (match s.jobLayout j with
    | none => false
    | some y => s.rangeOk j y && s.formOk j y
        && (if j.kind = 1 then scanFormOk j y else s.embedFormOk j y && s.objectsExist j.embedObjects))

/-! ## One extent (R231, R235 to R241) -/

/-- Bytes of the range as the job sees them. -/
def State.rangeRead (s : State) (j : Job) (o n : Nat) : List Byte :=
  s.nsBytes (j.u32 64) j.snapshot (4096 * j.u64 72 + o) n

def Job.extentStart (j : Job) (i : Nat) : Nat := j.startOff + i * j.extentSize
def Job.extentEnd (j : Job) (i : Nat) : Nat := min (j.extentStart i + j.extentSize) j.rangeLen

/-- Records of an extent, and how many are malformed. -/
def State.extentRecs (s : State) (j : Job) (y : Layout) (i : Nat) : List Rec × Nat :=
  let rd := s.rangeRead j
  let p := if i = 0 ∧ j.startOff = 0 then rangeStart y rd j.rangeLen else firstRecord y rd j.rangeLen (j.extentStart i)
  parseRecords y rd j.rangeLen (j.extentEnd i) (j.extentEnd i - p + 1) p

/-- The first unreadable LBA among the blocks an extent reads; a CSV extent looks for an LF from the byte before it (R231). -/
def State.extentBad (s : State) (j : Job) (y : Layout) (i : Nat) (recs : List Rec) : Option Nat :=
  let hi := recs.foldl (fun m r => max m (r.off + r.stored.length)) (j.extentEnd i)
  let lo := j.u64 72 + (j.extentStart i - (if y.kind = 2 then 1 else 0)) / 4096
  ((s.mm.badBlocks.filter (fun b => b.1 == j.u32 64 && lo ≤ b.2 && b.2 < j.u64 72 + ceilDiv hi 4096)).map Prod.snd).min?

/-- Fields of a record that do not parse among those a job meets. -/
def badFields (r : Rec) (fs : List Nat) : Nat :=
  (fs.dedup.filter (fun f => match r.vals.getD f .null with
    | .bad => true
    | _ => false)).length

/-- What an extent adds to a job. -/
structure ExtentOut where
  items    : List (List Byte)
  batch    : List (W64 × W64 × List Byte)
  matched  : List Rec
  skipped  : Nat
  cut      : Nat

/-- Value of a field as an id (R235). -/
def idOf (v : FVal) : Option Nat :=
  match v with
  | .uint u => some u
  | .int i => some (wrapZ 64 i)
  | _ => none

/-- One embedded record: its item and side-list entry; none when it is skipped. The embedder's outputs are the operand's, and
free where it gives none (assumption entry 24). -/
def State.embedOne (s : State) (j : Job) (y : Layout) (es : List EmbedOut) (k : Nat) (r : Rec) :
    Option (List Byte × (W64 × W64 × List Byte) × Bool) :=
  let texts := (y.fields.zipIdx.filter (fun f => bitN f.1.flags 0)).map (fun f => r.vals.getD f.2 .null)
  let fromOff := bitN (j.u8 99) 0
  let id := if fromOff then some (j.u64 116 + r.off) else idOf (r.vals.getD y.idField .null)
  if texts.all (fun v => v == .null) then none
  else match id with
    | none => none
    | some id =>
      let dim := j.u16 112
      let free (o n : Nat) : List W32 := (List.range n).map (fun i => Config.freeWord s.tick (16384 * k + o + i))
      let e := (es.find? (fun e => e.record == k)).getD { record := k, vec := [], proj := [], cut := false }
      let v := if e.vec.length = dim then e.vec else free 0 dim
      let pr := if j.u32 108 = 0xFFFFFFFF then v else if e.proj.length = j.u16 114 then e.proj else free 8192 (j.u16 114)
      let attr := attrWord y r
      let code := codeBytes pr (j.u16 114)
      let item := padMul 8 (leBytes id 8 ++ leBytes attr 8 ++ (if bitN (j.u8 97) 0 then vectorBytes (j.u8 98) v else [])
        ++ (if bitN (j.u8 97) 1 then code else []))
      some (item, (BitVec.ofNat 64 id, BitVec.ofNat 64 attr, code), e.cut)

/-- The output of an extent's matching records. -/
def State.extentOut (s : State) (j : Job) (y : Layout) (ms : List Rec) (es : List EmbedOut) : ExtentOut :=
  if j.kind = 1 then
    { items := match j.u8 97 with
        | 0 => ms.map itemRecord
        | 1 => ms.map itemOffset
        | 2 => ms.map (itemProject y j.project)
        | _ => [],
      batch := [], matched := ms, skipped := 0, cut := 0 }
  else
    let rs := (ms.zipIdx.map (fun x => s.embedOne j y es x.2 x.1)).filterMap id
    { items := rs.map (fun x => x.1), batch := rs.map (fun x => x.2.1), matched := ms,
      skipped := ms.length - rs.length, cut := (rs.filter (fun x => x.2.2)).length }

/-! ## Aggregates (R241) -/

/-- Bit 63 of an input count: the sum saturated. -/
def satBit : Nat := 2 ^ 63

/-- One input of an aggregate: op 1 COUNT, 2 SUM, 3 MIN, 4 MAX, on the running value and count. A SUM of FLOAT inputs
only counts here, for it adds them in an unspecified order (`Job.aggValue`); MIN and MAX of a NaN are not stated: there the
value is free. -/
def aggStep (free : W64) (op : Nat) (a : W64 × W64) (v : FVal) : W64 × W64 :=
  let n := a.2.toNat % satBit
  let cnt (sat : Bool) : W64 := BitVec.ofNat 64 (n + 1 + (if sat || satBit ≤ a.2.toNat then satBit else 0))
  match v with
  | .int i =>
    let old := a.1.toInt
    (match op with
    | 1 => (BitVec.ofNat 64 (n + 1), cnt false)
    | 2 =>
      let x := old + i
      let y := clampZ (-(2 ^ 63 : Nat)) ((2 ^ 63 : Nat) - 1) x
      (BitVec.ofInt 64 y, cnt (x != y))
    | 3 => (BitVec.ofInt 64 (if n = 0 then i else min old i), cnt false)
    | _ => (BitVec.ofInt 64 (if n = 0 then i else max old i), cnt false))
  | .uint u =>
    let old := a.1.toNat
    (match op with
    | 1 => (BitVec.ofNat 64 (n + 1), cnt false)
    | 2 => (BitVec.ofNat 64 (min (old + u) (2 ^ 64 - 1)), cnt (2 ^ 64 ≤ old + u))
    | 3 => (BitVec.ofNat 64 (if n = 0 then u else min old u), cnt false)
    | _ => (BitVec.ofNat 64 (if n = 0 then u else max old u), cnt false))
  | .flt b =>
    let x := fmt64.decode b
    let o := fmt64.decode a.1.toNat
    (match op with
    | 1 => (BitVec.ofNat 64 (n + 1), cnt false)
    | 2 => (0, cnt false)
    | 3 => (if n = 0 then BitVec.ofNat 64 b else if x.isNan || o.isNan then free
            else BitVec.ofNat 64 (if x.lt o then b else a.1.toNat), cnt false)
    | _ => (if n = 0 then BitVec.ofNat 64 b else if x.isNan || o.isNan then free
            else BitVec.ofNat 64 (if o.lt x then b else a.1.toNat), cnt false))
  | .bytes _ => (BitVec.ofNat 64 (n + 1), cnt false)
  | _ => a

/-- Fold an extent's records into a job's aggregates. -/
def aggFold (free : W64) (fs : List (Nat × Nat)) (acc : List (W64 × W64)) (ms : List Rec) : List (W64 × W64) :=
  fs.zipIdx.map (fun f => ms.foldl (fun a r => aggStep free f.1.1 a (r.vals.getD f.1.2 .null)) (acc.getD f.2 (0, 0)))

/-- FLOAT inputs of each SUM, an extent's after those before. -/
def aggFloats (fs : List (Nat × Nat)) (acc : List (List W64)) (ms : List Rec) : List (List W64) :=
  fs.zipIdx.map (fun f => acc.getD f.2 [] ++ (if f.1.1 = 2 then ms.filterMap (fun r =>
    match r.vals.getD f.1.2 .null with
    | .flt b => some (BitVec.ofNat 64 b)
    | _ => none) else []))

/-! ## Writing chunks (R239, R242) -/

/-- Group items into chunks of at most 262,144 bytes; an item that alone is larger has a chunk of its own. -/
def chunkItems : List (List Byte) → List (List Byte) → List (List (List Byte))
  | [], cur => [cur]
  | i :: is, cur =>
    if cur.isEmpty || 32 + ceilDiv ((cur.map List.length).sum + i.length) 32 * 32 ≤ 262144 then chunkItems is (cur ++ [i])
    else cur :: chunkItems is [i]

/-- Write an extent's chunks while they fit: the state, and whether all were written. -/
def State.writeChunks (s : State) (tag i bad : Nat) : List (List (List Byte)) → State × Bool
  | [] => (s, true)
  | c :: cs =>
    match s.job tag with
    | none => (s, false)
    | some j =>
      let last := cs.isEmpty
      let b := chunkBytes i (j.extentStart i) (if j.kind = 1 then j.u8 97 else 4) j.attempt
        (b2n last + 2 * b2n (bad != 0)) (if last then bad else 0) c
      if j.resultLen < j.scan.bytesOut + b.length then (s, false)
      else
        ((s.writeResult j j.scan.bytesOut b).onJob tag (fun j => { j with scan := { j.scan with
          bytesOut := j.scan.bytesOut + b.length } })).writeChunks tag i bad cs

/-! ## Issuing and ending (R230, R242, R245, R367) -/

/-- The job was granted at the last boundary. -/
def State.grantedNow (s : State) (squad key : Nat) : Bool := s.pc.granted.contains (squad, key)

/-- Issue extents while tiles of the squad are free (R230). `fuel` bounds them. -/
def State.issueExtents (s : State) (tag : Nat) : Nat → State
  | 0 => s
  | f + 1 =>
    match s.job tag with
    | none => s
    | some j =>
      let tiles := ((s.squadOf j.squad).map (fun q => q.tiles.length)).getD 0
      let busy := ((s.jobsOf j.squad).map (fun k => k.scan.issued.length)).sum
      if j.stop.isNone && j.state == .admitted && j.scan.nextExt < j.extents && busy < tiles then
        (s.onJob tag (fun j => { j with scan := { j.scan with
          issued := j.scan.issued ++ [j.scan.nextExt], nextExt := j.scan.nextExt + 1 } })).issueExtents tag f
      else s

/-- End a SCAN or EMBED when every extent is delivered, or when a stop has no extent in flight (R245). -/
def State.endScan (s : State) (tag : Nat) : State :=
  match s.job tag with
  | none => s
  | some j =>
    if j.allDelivered then (s.onJob tag (fun j => { j with stop := none, scan := { j.scan with outFull := false } })).finishJob tag stOk
    else if j.scan.issued.isEmpty then
      match j.stop with
      | none => s
      | some 1 => s.finishJob tag stOk 1
      | some 2 => s.finishJob tag (s.drainStatus j.squad)
      | some 3 => s.finishJob tag stAbortRequested
      | some _ => s
    else s

/-- A stop reaches a SCAN or EMBED: no further extent is issued, and those in flight run to their end. -/
def State.stopScan (s : State) (tag code : Nat) : State :=
  (s.onJob tag (fun j => { j with stop := some (j.stop.getD code) })).endScan tag

/-- A batch of `n` items finds room, staged in the side-list region beside what the region holds (R238). -/
def State.stageFits (s : State) (j : Job) (n : Nat) : Bool :=
  match s.idx.find? (fun e => e.2.region == j.region) with
  | none => true
  | some (_, x) => s.fits x (s.stagedItems j.region + n) 0

/-- Link staged SIDE_LIST batches in extent order (R238, R274); `fuel` bounds them. -/
def State.linkBatches (s : State) (tag : Nat) : Nat → State
  | 0 => s
  | f + 1 =>
    match s.job tag with
    | none => s
    | some j =>
      match j.scan.staged.find? (fun b => b.1 == j.firstMissing) with
      | none => s
      | some b =>
        match s.idx.find? (fun e => e.2.region == j.region) with
        | none => s.stopScan tag 1
        | some (nsid, x) =>
          let cs := b.2.map (fun i =>
            let attr := if sbFormat x.super = 3 then i.2.1 &&& 0xFFFFFFFF else i.2.1
            Change.item { id := i.1, attr := attr, code := i.2.2, commit := none, death := none })
          let s0 := s.onJob tag (fun j => { j with scan := { j.scan with staged := j.scan.staged.filter (fun x => !(x == b)) } })
          let r := s0.appendChanges nsid cs
          if r.2 < cs.length then s0.onJob tag (fun j => { j with stop := some (j.stop.getD 1) })
          else (r.1.onJob tag (fun j => { j with scan := { j.scan with
              delivered := j.scan.delivered ++ [b.1], bytesOut := j.scan.bytesOut + cs.length } })).linkBatches tag f

/-- An extent in ascending order among those delivered. -/
def insertNat (n : Nat) : List Nat → List Nat
  | [] => [n]
  | m :: ms => if n < m then n :: m :: ms else if n = m then m :: ms else m :: insertNat n ms

/-- The output fields of a job's records: those projected, or those aggregated. -/
def Job.outFields (j : Job) : List Nat :=
  if j.kind = 2 then [] else if j.u8 97 = 2 then j.project else if j.u8 97 = 3 then j.aggregates.map Prod.snd else []

/-- The records of an extent that pass the job's predicate. -/
def State.passing (s : State) (j : Job) (rs : List Rec) : List Rec :=
  match s.jobPred j with
  | none => rs
  | some p => rs.filter p.passes

/-- Count what the extent's records were: parsed, matched, malformed, with fields that do not parse (R225, R248). -/
def State.countExtent (s : State) (j : Job) (r : List Rec × Nat) (ms : List Rec) (o : ExtentOut) : State :=
  let termFields := ((s.jobPred j).map (fun p => p.terms.map Term.field)).getD []
  s.onJob j.tag (fun j => { j with scan := { j.scan with
    seen := j.scan.seen + r.1.length, matched := j.scan.matched + ms.length, malformed := j.scan.malformed + r.2,
    parseErr := j.scan.parseErr + (r.1.map (fun x => badFields x termFields)).sum
      + (ms.map (fun x => badFields x (j.outFields.filter (fun f => !termFields.contains f)))).sum,
    skipped := j.scan.skipped + o.skipped, truncated := j.scan.truncated + o.cut } })

/-- Output is full: the job stops as its kind gives (R245). -/
def Job.fills (j : Job) : Job := { j with stop := some (j.stop.getD 1), scan := { j.scan with outFull := true } }

/-- An extent's output is written. -/
def Job.gives (i : Nat) (j : Job) : Job := { j with scan := { j.scan with delivered := insertNat i j.scan.delivered } }

/-- Deliver an extent's output: staged for the side list, added to the aggregates, or written in chunks (R236, R238, R241). -/
def State.deliver (s : State) (tick : Nat) (j : Job) (i bad : Nat) (ms : List Rec) (o : ExtentOut) : State :=
  if j.target = 2 then
    (if s.stageFits j o.batch.length then (s.onJob j.tag (fun j => { j with scan := { j.scan with
        staged := j.scan.staged ++ [(i, o.batch)] } })).linkBatches j.tag (j.extents + 1)
     else s.onJob j.tag Job.fills)
  else if j.isAggregate then s.onJob j.tag (fun j => { j with scan := { j.scan with
    aggs := aggFold (Config.freeBits tick) j.aggregates j.scan.aggs ms
    floats := aggFloats j.aggregates j.scan.floats ms } }.gives i)
  else
    let w := s.writeChunks j.tag i bad (chunkItems o.items [])
    if w.2 then w.1.onJob j.tag (Job.gives i) else w.1.onJob j.tag Job.fills

/-- An extent has been read and processed; a SCAN's is a step of its squad (R116, R210, R239, R242, R245). -/
def State.extentEnds (s : State) (j : Job) (y : Layout) (i : Nat) (es : List EmbedOut) : State :=
  let r := s.extentRecs j y i
  match s.extentBad j y i r.1 with
  | some lba =>
    (s.onJob j.tag (fun j => { j with scan := { j.scan with badLba := some lba, staged := [], issued := [] } })).stopJob j.tag 5
      (if j.target = 2 then stJobAborted else stUnrecovered)
  | none =>
    let ms := s.passing j r.1
    let o := s.extentOut j y ms es
    let s0 : State := { s with tick := s.tick + 1 }
    let s1 := s0.onJob j.tag (fun j => { j with scan := { j.scan with issued := j.scan.issued.filter (fun k => k != i) } })
    let s2 := (s1.countExtent j r ms o).deliver s.tick j i r.2 ms o
    let s3 := (if j.kind = 1 then s2.stepClose j.squad else s2).endScan j.tag
    if s3.grantedNow j.squad j.tag then s3.issueExtents j.tag 1024 else s3

/-! ## Meaning -/

/-- EXTENT_DONE (R230, R231, R238 to R242, R245). -/
def execExtentDone (tag extent : Nat) (embeds : List EmbedOut) (s : State) : Host.Outcome State Fault Refusal :=
  done (if !s.jobsRun then s
    else match s.job tag with
      | none => s
      | some j =>
        if !j.scan.issued.contains extent then s
        else match s.jobLayout j with
          | none => s
          | some y => s.extentEnds j y extent embeds)

end Sys2Proof.Machine
end

