-- ==== Sys2Proof/Machine/Serving.lean ====
section
/-! DEFINITION. Serving (R283 to R301): registered models, sequences, the lap planner, and what a lap's hurdle does to the
sequences it carried. -/

namespace Sys2Proof.Machine

/-! ## Model records (R283) -/

def Model.weightObject (m : Model) : Nat := u32At m.record 4
def Model.kvRegion (m : Model) : Nat := u16At m.record 10
def Model.pageBytes (m : Model) : Nat := u32At m.record 12
def Model.maxContext (m : Model) : Nat := u32At m.record 16
def Model.vocab (m : Model) : Nat := u32At m.record 20
def Model.chunk (m : Model) : Nat := u16At m.record 26
def Model.decodeMax (m : Model) : Nat := u16At m.record 28
def Model.fillerMax (m : Model) : Nat := u16At m.record 30

def State.model (s : State) (slot : Nat) : Option Model := s.jd.models.find slot
def State.onModel (s : State) (slot : Nat) (f : Model → Model) : State :=
  { s with jd := { s.jd with models := s.jd.models.adjust slot f } }
def State.seq (s : State) (id : Nat) : Option Sequence := s.jd.seqs.find id
def State.onSeq (s : State) (id : Nat) (f : Sequence → Sequence) : State :=
  { s with jd := { s.jd with seqs := s.jd.seqs.adjust id f } }

/-- Sequences of a model. -/
def State.seqsOf (s : State) (slot : Nat) : KMap Sequence := s.jd.seqs.filter (fun e => e.2.model == slot)

def State.onPool (s : State) (m : Model) (f : KvPool → KvPool) : State :=
  { s with jd := { s.jd with pools := s.jd.pools.adjust m.kvRegion f } }

/-- The free pages of a model's pool, by number (R285). -/
def State.poolFree (s : State) (m : Model) : List Nat := ((s.jd.pools.find m.kvRegion).map KvPool.free).getD []

/-- How many of them there are. -/
def State.freePages (s : State) (m : Model) : Nat := (s.poolFree m).length

/-- Pages return to a model's pool. -/
def State.addPages (s : State) (m : Model) (ps : List Nat) : State := s.onPool m (fun p => { p with free := p.free ++ ps })

/-- A sequence takes `n` free pages of its model's pool, and keeps them until it gives all of them back (R285), the lowest
ones (DESIGN CHOICE, assumption entry 26). -/
def State.takePages (s : State) (m : Model) (id n : Nat) : State :=
  let ps := (s.poolFree m).take n
  (s.onPool m (fun p => { p with free := p.free.drop n })).onSeq id (fun q => { q with pages := q.pages ++ ps })

/-- The pool's free count stands as this plan leaves it (R311). -/
def State.notePlan (s : State) (m : Model) : State := s.onPool m (fun p => { p with atPlan := p.free.length })

/-! ## Registration (R284 to R286) -/

/-- Fields of a record within their ranges (R283). -/
def recordFields (slot : Nat) (r : List Byte) : Bool :=
  byteAt r 0 == slot && byteAt r 0 < 64 && zerosAt r 52 76 && u16At r 8 ≤ 16 && u32At r 12 != 0 && u32At r 12 % 32768 == 0
  && u32At r 12 ≤ 0x4000000 && 64 ≤ u32At r 16 && u32At r 16 ≤ 131072 && 1 ≤ u32At r 20 && u32At r 20 ≤ 16777216
  && 1 ≤ u16At r 24 && u16At r 24 ≤ 1024 && 64 ≤ u16At r 26 && u16At r 26 ≤ 4096 && 1 ≤ u16At r 28 && u16At r 28 ≤ 4096
  && u16At r 30 ≤ u16At r 26

/-- Result code of a REGISTER (R284). -/
def State.registerCode (s : State) (slot : Nat) (r : List Byte) : Nat :=
  if !recordFields slot r then 5
  else if (s.model slot).isSome then 1
  else match s.squadOf (byteAt r 1) with
    | none => 2
    | some q =>
      if q.func ≠ 3 ∨ q.state ≠ .active then 2
      else if q.templates.length ≤ u16At r 2 then 5
      else match s.region (u16At r 10) with
        | none => 3
        | some g =>
          if g.kind ≠ 3 ∨ g.owner ≠ byteAt r 1 then 3
          else if g.size / u32At r 12 < 2 || s.jd.models.any (fun e => e.2.kvRegion == u16At r 10 && e.2.pageBytes != u32At r 12)
            then 4
          else if (s.rl.dir.find (u32At r 4)).isNone then 8 else 0

/-- A registration command ends with its code. -/
def State.modelDone (s : State) (code : Nat) : State :=
  { s with jd := { s.jd with modelCode := code, event := setEv s.jd.event 2 } }

/-- Pages of a model's pool (R285). -/
def State.regionPages (s : State) (m : Model) : Nat :=
  if m.pageBytes = 0 then 0 else ((s.region m.kvRegion).map Region.size).getD 0 / m.pageBytes

def State.register (s : State) (slot : Nat) (r : List Byte) : State :=
  let c := s.registerCode slot r
  if c ≠ 0 then s.modelDone c
  else
    let m : Model :=
      { squad := byteAt r 1, record := padTo 128 r, cap := u16At r 28, bound := false, clean := 0, lastJoin := 0, filler := none,
        nextJoin := 1, queue := [] }
    let total := s.regionPages m
    let pools := if (s.jd.pools.find m.kvRegion).isSome then s.jd.pools
      else s.jd.pools.put m.kvRegion { total := total, free := List.range total, atPlan := total }
    ({ s with jd := { s.jd with models := s.jd.models.put slot m, pools := pools } }).modelDone 0

/-- A model leaves its slot; its pool goes with the last model that uses it. -/
def State.dropModel (s : State) (slot : Nat) : State :=
  match s.model slot with
  | none => s
  | some m =>
    let ms := s.jd.models.del slot
    { s with jd := { s.jd with
        models := ms
        pools := if ms.any (fun e => e.2.kvRegion == m.kvRegion) then s.jd.pools else s.jd.pools.del m.kvRegion } }

def State.unregister (s : State) (slot : Nat) : State :=
  if (s.model slot).isNone then s.modelDone 7
  else if !(s.seqsOf slot).isEmpty then s.modelDone 6
  else (s.dropModel slot).modelDone 0

/-- A write of JD_MODEL_CTL (R311): SLOT and OP are kept; GO acts when registrations are served. -/
def State.modelCtl (s : State) (v : W32) (op : Bool) (r : List Byte) : State :=
  if !s.vendorLive then s
  else
    let slot := bitsW v 5 0
    let s1 := { s with jd := { s.jd with modelSlot := slot, modelOp := op } }
    if !bitW v 16 || !s.inGo then s1
    else if op then s1.unregister slot else s1.register slot r

/-! ## Pages, recall and leaving (R292 to R294, R299) -/

/-- A sequence gives its pages back and leaves the batch and the join queue. -/
def State.leaveBatch (s : State) (id : Nat) : State :=
  match s.seq id with
  | none => s
  | some q =>
    match s.model q.model with
    | none => s
    | some m =>
      ((s.addPages m q.pages).onSeq id (fun q => { q with pages := [], tkv := 0, join := 0, ready := false, recalled := false })).onModel
        q.model (fun m => { m with
          queue := m.queue.filter (fun i => i != id), filler := m.filler.filter (fun f => f.1 != id) })

/-- Place a recalled sequence in the join queue: behind those recalled earlier, ahead of every other. -/
def State.requeue (s : State) (slot id : Nat) : State :=
  s.onModel slot (fun m =>
    let old := m.queue.takeWhile (fun i => ((s.seq i).map Sequence.recalled).getD false)
    { m with queue := old ++ [id] ++ m.queue.drop old.length })

/-- Recall a sequence (R294). -/
def State.recall (s : State) (id : Nat) : State :=
  match s.seq id with
  | none => s
  | some q =>
    let s1 := s.leaveBatch id
    let s2 : State := { s1 with jd := { s1.jd with recallCnt := sat32 (s1.jd.recallCnt + 1), event := setEv s1.jd.event 0 } }
    match q.append with
    | none => s2
    | some tag =>
      ((s2.requeue q.model id).onSeq id (fun q => { q with recalled := true })).onJob tag (fun j =>
        { j with lap := { j.lap with recalls := j.lap.recalls + 1 } })

/-! ## SERVE_OPEN, SERVE_APPEND, SERVE_CLOSE at admission (R289 to R292, R301) -/

/-- Fields of a SERVE_OPEN. -/
def openForm (j : Job) : Bool :=
  let pos (w : Nat) : Bool := (FV.fin false 0 0).lt (f32 (BitVec.ofNat 32 w))
  zerosAt j.desc 40 24 && j.flags / 2 == 0 && j.target == 0 && j.resultAddr == 0 && j.resultLen == 0 && zerosAt j.desc 76 4
  && zerosAt j.desc 88 168 && j.u8 65 ≤ 1
  && (j.u8 65 == 0 || (j.u16 66 ≤ 1024 && pos (j.u32 68) && pos (j.u32 72) && (f32 (BitVec.ofNat 32 (j.u32 72))).le (f32 0x3F800000)))

def maxSequences : Nat := 16384

/-- The sequence record a SERVE_OPEN makes. -/
def Sequence.fresh (j : Job) : Sequence :=
  { model := j.u8 64, tokens := [], tkv := 0, pages := [], sample := sliceZ j.desc 65 23, rand := 0, join := 0, ready := false,
    append := none, closing := [], recalled := false }

/-- The seq_id JD issues: the next one that no open sequence holds (R289). `fuel` bounds those it passes over. -/
def State.issueSeqId (s : State) : Nat → Nat → Nat
  | 0, id => id
  | f + 1, id => if (s.seq id).isSome then s.issueSeqId f ((id + 1) % 2 ^ 32) else id

/-- Run a SERVE_OPEN. -/
def State.runOpen (s : State) (j : Job) : State :=
  match s.model (j.u8 64) with
  | none => s.stopJob j.tag 0 stInvalidField
  | some m =>
    if !openForm j || m.squad != j.squad then s.stopJob j.tag 0 stInvalidField
    else if maxSequences ≤ s.jd.seqs.length then
      { s with jd := { s.jd with event := setEv s.jd.event 4 } }.stopJob j.tag 0 stCapacity
    else
      let id := s.issueSeqId s.jd.seqs.length s.jd.nextSeqId
      let s := s.admitJob j.tag s.mm.epoch []
      ({ s with jd := { s.jd with seqs := s.jd.seqs.put id (Sequence.fresh j), nextSeqId := (id + 1) % 2 ^ 32 } }).finishJob j.tag stOk id

/-- Input tokens of a SERVE_APPEND. -/
def Job.inputs (j : Job) : List Nat := (List.range (j.u32 68)).map (fun i => u32At j.data (4 * i))

/-- Checks of a SERVE_APPEND: the status it fails with. -/
def State.appendCheck (s : State) (j : Job) : Option Nat :=
  match s.seq (j.u32 64) with
  | none => some stInvalidField
  | some q =>
    match s.model q.model with
    | none => some stInvalidField
    | some m =>
      if m.squad ≠ j.squad then some stInvalidField
      else if q.append.isSome then some stSequence
      else if !(zerosAt j.desc 40 24 && j.flags / 2 == 0 && j.target == 0 && j.region == 0 && j.resultAddr % 4096 == 0
          && j.resultLen % 4096 == 0 && 4 * j.u32 80 ≤ j.resultLen && j.u32 80 ≤ 65536 && j.u16 84 / 2 == 0 && j.u8 86 ≤ 8
          && (List.range (j.u8 86)).all (fun i => j.u32 (88 + 4 * i) < m.vocab) && j.u8 87 == 0 && zerosAt j.desc 120 136 && (j.u32 68 != 0 || j.u32 80 != 0)
          && q.tokens.length + j.u32 68 ≤ m.maxContext && j.inputs.all (fun t => t < m.vocab)) then some stInvalidField
      else if bitN (j.u16 84) 0 && m.bound && q.pages.isEmpty then some stRelayBound
      else none

/-- Admit a SERVE_APPEND: a status, or none while its object may not be pinned, or the state with it admitted. -/
def State.admitServe (s : State) (j : Job) : Option (Nat ⊕ State) :=
  match s.appendCheck j with
  | some st => some (.inl st)
  | none =>
    match s.seq (j.u32 64) with
    | none => some (.inl stInvalidField)
    | some q =>
      let w := ((s.model q.model).map Model.weightObject).getD 0
      if !s.objectsExist [w] then some (.inl stInvalidField)
      else if !s.objectsReady [w] then none
      else
        let id := j.u32 64
        let toks := q.tokens ++ j.inputs
        let s1 := (s.admitJob j.tag s.mm.epoch [w]).onJob j.tag (fun j => { j with lap := { j.lap with accepted := j.u32 68 } })
        let s2 := s1.onSeq id (fun q => { q with
          tokens := toks, append := some j.tag, ready := q.ready && j.u32 68 == 0 && !q.pages.isEmpty })
        some (.inr (if !q.pages.isEmpty && toks.length ≤ 64 * q.pages.length then s2
          else s2.onModel q.model (fun m => { m with queue := if m.queue.contains id then m.queue else m.queue ++ [id] })))

/-! ## How a SERVE_APPEND ends (R291, R292, R308) -/

/-- A SERVE_APPEND ends with a reason of R291: its sequence leaves the batch. -/
def State.endAppend (s : State) (id reason : Nat) : State :=
  match (s.seq id).bind Sequence.append with
  | none => s
  | some tag =>
    let s1 := (s.leaveBatch id).onSeq id (fun q => { q with append := none })
    let s2 := s1.onJob tag (fun j => { j with stop := none, lap := { j.lap with reason := reason } })
    s2.finishJob tag stOk (((s.job tag).map (fun j => j.lap.tokensOut)).getD 0) reason

/-- A SERVE_APPEND ends by a stop: code 2 DRAIN, 3 CANCEL, 4 FAULT; its sequence stays as it is. -/
def State.cutAppend (s : State) (id code st dw0 : Nat) : State :=
  match (s.seq id).bind Sequence.append with
  | none => s
  | some tag => ((s.onSeq id (fun q => { q with append := none })).onModel (((s.seq id).map Sequence.model).getD 0) (fun m =>
      { m with queue := m.queue.filter (fun i => i != id) })).stopJob tag code st dw0

/-- Remove a sequence, and complete the SERVE_CLOSEs that wait for it. -/
def State.removeSeq (s : State) (id : Nat) : State :=
  match s.seq id with
  | none => s
  | some q =>
    let s1 := s.leaveBatch id
    q.closing.foldl (fun s t => s.finishJob t stOk) { s1 with jd := { s1.jd with seqs := s1.jd.seqs.del id } }

/-- Keep a closing sequence's token count for the record of its job. -/
def State.noteLen (s : State) (id : Nat) : State :=
  match s.seq id with
  | none => s
  | some q => match q.append with
    | none => s
    | some tag => s.onJob tag (fun j => { j with lap := { j.lap with seqLen := q.tokens.length } })

/-- A sequence closes; a pending SERVE_APPEND ends with reason CLOSED (R292). -/
def State.closeSeq (s : State) (id : Nat) : State :=
  match s.seq id with
  | none => s
  | some q =>
    let s1 := (s.noteLen id).leaveBatch id
    let s2 : State := { s1 with jd := { s1.jd with seqs := s1.jd.seqs.del id } }
    let s3 := match q.append with
      | none => s2
      | some tag => (s2.onJob tag (fun j => { j with stop := none, lap := { j.lap with reason := 3 } })).finishJob tag stOk
          (((s.job tag).map (fun j => j.lap.tokensOut)).getD 0) 3
    q.closing.foldl (fun s t => s.finishJob t stOk) s3

/-- A stop closes a sequence: its SERVE_APPEND ends with the stop's status (R308). -/
def State.closeCut (s : State) (id code st dw0 : Nat) : State :=
  match s.seq id with
  | none => s
  | some q =>
    let s1 := (s.noteLen id).leaveBatch id
    let s2 : State := { s1 with jd := { s1.jd with seqs := s1.jd.seqs.del id } }
    let s3 := match q.append with
      | none => s2
      | some tag => s2.stopJob tag code st dw0
    q.closing.foldl (fun s t => s.finishJob t stOk) s3

/-- The squad has a lap in flight, or one planned. -/
def State.lapBusy (s : State) (squad : Nat) : Bool :=
  match s.jd.laps.find squad with
  | none => false
  | some l => l.flight.isSome || l.planned.isSome

/-- Run a SERVE_CLOSE: at the next hurdle, or at once when the squad has no lap (R292). -/
def State.runClose (s : State) (j : Job) : State :=
  match s.seq (j.u32 64) with
  | none => s.stopJob j.tag 0 stInvalidField
  | some q =>
    if !(zerosAt j.desc 40 24 && zerosAt j.desc 68 188 && j.flags / 2 == 0)
        || ((s.model q.model).map Model.squad).getD 0xFF ≠ j.squad then s.stopJob j.tag 0 stInvalidField
    else
      let s1 := (s.admitJob j.tag s.mm.epoch []).onSeq (j.u32 64) (fun q => { q with closing := q.closing ++ [j.tag] })
      if s.lapBusy j.squad then s1 else s1.closeSeq (j.u32 64)

/-! ## The planner (R293 to R298) -/

/-- Sequences of a model in its batch, in join-number order. -/
def State.batch (s : State) (slot : Nat) : List (Nat × Sequence) :=
  ((s.seqsOf slot).filter (fun e => !e.2.pages.isEmpty)).mergeSort (fun a b => a.2.join ≤ b.2.join)

/-- Its SERVE_APPEND is pending and nothing stops it. -/
def State.wants (s : State) (q : Sequence) : Bool :=
  match q.append with
  | none => false
  | some tag => ((s.job tag).map (fun j => j.stop.isNone)).getD false

/-- Step 2: up to the cap, running sequences in join order after the last that decoded. -/
def State.decodeSet (s : State) (slot : Nat) (m : Model) : List Nat :=
  let run := (s.batch slot).filter (fun e => e.2.ready && s.wants e.2)
  ((run.filter (fun e => m.lastJoin < e.2.join) ++ run.filter (fun e => e.2.join ≤ m.lastJoin)).map Prod.fst).take m.cap

/-- The sequence needs a new page for one more token. -/
def State.needsPage (s : State) (id : Nat) : Bool :=
  match s.seq id with
  | none => false
  | some q => q.tkv == 64 * q.pages.length

/-- Steps 3 and 4: recall the youngest until the decode pages fit. `fuel` bounds the recalls. -/
def State.recallFor (s : State) (slot : Nat) : Nat → List Nat → Nat → State × List Nat × Nat
  | 0, dec, n => (s, dec, n)
  | f + 1, dec, n =>
    match s.model slot with
    | none => (s, dec, n)
    | some m =>
      if (dec.filter s.needsPage).length ≤ s.freePages m then (s, dec, n)
      else match (s.batch slot).getLast? with
        | none => (s, dec, n)
        | some (id, _) => (s.recall id).recallFor slot f (dec.filter (fun i => i != id)) (n + 1)

/-- Give each sequence of the decode set that needs one its page. -/
def State.giveDecodePages (s : State) (m : Model) (dec : List Nat) : State :=
  dec.foldl (fun s id => if s.needsPage id then s.takePages m id 1 else s) s

/-- Step 5: joins in queue order until one does not fit (R295). -/
def State.joins (s : State) (slot : Nat) : Nat → Nat → State × Nat
  | 0, n => (s, n)
  | f + 1, n =>
    match s.model slot with
    | none => (s, n)
    | some m =>
      match m.queue with
      | [] => (s, n)
      | id :: rest =>
        match s.seq id with
        | none => (s.onModel slot (fun m => { m with queue := rest })).joins slot f n
        | some q =>
          let need := ceilDiv q.tokens.length 64 + 1 - q.pages.length
          if s.freePages m < need then (s, n)
          else
            let fresh := q.pages.isEmpty
            let s1 := (s.takePages m id need).onSeq id (fun q => { q with
              join := if fresh then m.nextJoin else q.join, ready := false, recalled := false })
            (s1.onModel slot (fun m => { m with
              queue := rest, nextJoin := if fresh then m.nextJoin + 1 else m.nextJoin })).joins slot f (n + b2n fresh)

/-- Tokens of a sequence that a chunk may take: those beyond t_kv, within the pages it holds (R296). -/
def Sequence.prefillLeft (q : Sequence) : Nat := min (q.tokens.length - q.tkv) (64 * q.pages.length - q.tkv)

/-- Step 6: chunks of the sequences in prefill within the lap's budget (R296). -/
def chunksFor : List (Nat × Sequence) → Nat → List (Nat × Nat)
  | [], _ => []
  | (id, q) :: es, b =>
    if q.tokens.length ≤ q.tkv then (id, 0) :: chunksFor es b
    else if b = 0 then []
    else if q.prefillLeft = 0 then chunksFor es b
    else (id, min b q.prefillLeft) :: chunksFor es (b - min b q.prefillLeft)

/-- Sequences of a model in prefill, a filler chunk's left out. -/
def State.inPrefill (s : State) (slot : Nat) (m : Model) : List (Nat × Sequence) :=
  (s.batch slot).filter (fun e => !e.2.ready && s.wants e.2 && (m.filler.map Prod.fst) != some e.1)

/-- Step 6: the filler chunk kept, or a new one (R297). -/
def State.fillerFor (s : State) (q : Squad) (slot : Nat) (m : Model) (pre : List (Nat × Nat)) : Option (Nat × Nat × Nat) :=
  if !bitN q.flags 0 || m.fillerMax = 0 then none
  else match m.filler with
    | some f => some f
    | none =>
      match (s.inPrefill slot m).find? (fun e => e.2.prefillLeft != 0 && !pre.any (fun p => p.1 == e.1)) with
      | none => none
      | some (id, sq) => some (id, min m.fillerMax sq.prefillLeft, 0)

/-- MACs per cycle of a tile for a weight format (R89). -/
def macsPer (wfmt : Nat) : Nat :=
  match wfmt with
  | 2 => 8192
  | 5 => 1024
  | 6 => 32768
  | _ => 4096

/-- Of a model's weight_bytes, those it reads from a far-tier home: the batons with no near copy (R162, R298). -/
def State.farBytes (s : State) (m : Model) : Nat :=
  match s.rl.dir.find m.weightObject with
  | none => 0
  | some e =>
    let far := match e.cur.home with
      | .far _ => (match e.state with
        | .home => e.cur.batons
        | .promoting => e.cur.batons - e.mark
        | _ => 0)
      | _ => 0
    u64At m.record 32 * far / max 1 e.cur.batons

/-- Estimate of a lap in ns (R298); `share` is the measured share of near-tier bandwidth, in bytes per microsecond, `farGb` the
far-tier share in bytes per ns, `far` the bytes read at it. -/
def lapEstimate (q : Squad) (m : Model) (share farGb far tokens kvTokens : Nat) (swap : Bool) : Nat :=
  let array := ceilDiv (tokens * u64At m.record 40 * 10) (14 * max 1 q.tiles.length * macsPer q.numerics.wfmt)
  let move := ceilDiv ((u64At m.record 32 - far + kvTokens * u32At m.record 48) * 1000) (share + 1) + ceilDiv far (max 1 farGb)
  max array move + (if swap then ceilDiv (65536 * u16At m.record 8) 25 else 0)

/-- Beats of an estimate, at least lap_min; a lap has 1 to 255 beats (R19). -/
def lapBeats (q : Squad) (period est : Nat) : Nat := min 255 (max (max 1 q.lapMin) (ceilDiv est (max 1 period)))

/-- Take one prefill token from the end of the chunks. -/
def trimChunk (pre : List (Nat × Nat)) : List (Nat × Nat) :=
  match pre.reverse with
  | [] => []
  | (id, n) :: es => (if n ≤ 1 then es else (id, n - 1) :: es).reverse

/-- Tokens of chunks. -/
def chunkTokens (pre : List (Nat × Nat)) : Nat := (pre.map Prod.snd).sum

/-- Fit a lap under lap_max: prefill tokens go first, then decode sequences from the end; never below one decode token, or
64 prefill tokens when nothing decodes (R298). -/
def fitLap (q : Squad) (est : Nat → Nat → Nat) (period : Nat) : Nat → List Nat → List (Nat × Nat) → List Nat × List (Nat × Nat)
  | 0, dec, pre => (dec, pre)
  | f + 1, dec, pre =>
    if lapBeats q period (est (dec.length + chunkTokens pre) dec.length) ≤ q.lapMax then (dec, pre)
    else if dec.isEmpty then
      (if chunkTokens pre ≤ 64 then (dec, pre) else fitLap q est period f dec (trimChunk pre))
    else if !pre.isEmpty then fitLap q est period f dec (trimChunk pre)
    else if dec.length ≤ 1 then (dec, pre) else fitLap q est period f dec.dropLast pre

def LapState.blank : LapState := { flight := none, planned := none, passed := false, next := 0, last := none, lastTag := 0, split := [] }

def State.lapsOf (s : State) (squad : Nat) : LapState := s.jd.laps.findD squad LapState.blank

def State.setLaps (s : State) (squad : Nat) (l : LapState) : State :=
  { s with jd := { s.jd with laps := s.jd.laps.put squad l } }

/-- Nothing of a squad is in flight: no job admitted, no lap, and no op of its tiles. -/
def State.quiet (s : State) (squad : Nat) : Bool :=
  !(s.jobsOf squad).any Job.admitted && (s.lapsOf squad).flight.isNone
  && (match s.squadOf squad with
      | none => true
      | some q => s.tiles.all (fun t => !q.tiles.contains t.1 || t.2.flight.isEmpty))

/-- At a lap hurdle or a beat boundary, where a disable takes effect (R20, R47), SL sees whether the squad is quiet. -/
def State.noteQuiet (s : State) (atBeat : Bool) (squad : Nat) : State :=
  { s with sl := { s.sl with quiet := if s.quiet squad then s.sl.quiet.put squad atBeat else s.sl.quiet.del squad } }

/-- What SL saw of a squad no longer counts: its drain or its abort begins, and waits for the next hurdle or boundary. -/
def State.unquiet (s : State) (squad : Nat) : State := { s with sl := { s.sl with quiet := s.sl.quiet.del squad } }

/-- The squad was quiet at a lap hurdle or beat boundary since its drain began, and still is. -/
def State.drained (s : State) (squad : Nat) : Bool := s.quiet squad && (s.sl.quiet.find squad).isSome

/-- The squad was quiet at a beat boundary since its drain began, and still is (R41, R46). -/
def State.drainedAtBeat (s : State) (squad : Nat) : Bool := s.quiet squad && s.sl.quiet.find squad == some true

/-- Plan a lap of one model, and whether there is one: a plan may carry nothing once it has recalled. -/
def State.planModel (s : State) (squad : Nat) (q : Squad) (slot : Nat) (m : Model) : State × Bool :=
  let n := s.jd.seqs.length
  let r := s.recallFor slot (n + 1) (s.decodeSet slot m) 0
  let s1 := r.1.giveDecodePages m r.2.1
  let jn := if r.2.2 = 0 then s1.joins slot (n + 1) 0 else (s1, 0)
  let s2 := jn.1.notePlan m
  let m2 := (s2.model slot).getD m
  let pre := chunksFor (s2.inPrefill slot m2) m2.chunk
  let fil := s2.fillerFor q slot m2 pre
  let l := s.lapsOf squad
  let swap := l.last != some slot
  let sh := s2.drawNat
  let fillN := (fil.map (fun f => f.2.1)).getD 0
  let ctx (k : Nat) : Nat := ((r.2.1.take k).map (fun id => ((s2.seq id).map Sequence.tkv).getD 0)).sum
  let est (toks d : Nat) : Nat := lapEstimate q m2 sh.1 (min 300 (s2.rl.ftShare % 512)) (s2.farBytes m2) (toks + fillN) (ctx d) swap
  let fit := fitLap q est s.pc.periodNs (chunkTokens pre + r.2.1.length + 1) r.2.1 pre
  if fit.1.isEmpty && fit.2.isEmpty then (s2, false)
  else
    let tags := (fit.1 ++ fit.2.map Prod.fst).filterMap (fun id => (s2.seq id).bind Sequence.append)
    let lap : Lap :=
      { num := l.next, start := 0, planned := lapBeats q s.pc.periodNs (est (fit.1.length + chunkTokens fit.2) fit.1.length),
        invoc := slot, decode := fit.1, prefill := fit.2, examples := 0, filler := fil.map (fun f => (f.1, f.2.1)), recalls := r.2.2, joins := jn.2,
        swap := swap, preempt := false, relayB := m2.bound, kvFree := s2.freePages m2, jobTag := tags.headD 0, update := false }
    let lastJoin := match fit.1.getLast? with
      | none => m2.lastJoin
      | some id => ((s2.seq id).map Sequence.join).getD m2.lastJoin
    ((({ sh.2 with jd := { sh.2.jd with turn := sh.2.jd.turn.put squad slot } }).onModel slot (fun m =>
      { m with filler := fil, lastJoin := lastJoin })).setLaps squad { l with planned := some lap, next := l.next + 1 }, true)

/-- Models of a squad in the order of their turn: after the slot that ran last, wrapping (R293). -/
def State.modelTurn (s : State) (squad : Nat) : List (Nat × Model) :=
  let ms := s.jd.models.filter (fun e => e.2.squad == squad)
  match s.jd.turn.find squad with
  | none => ms
  | some t => ms.filter (fun e => t < e.1) ++ ms.filter (fun e => e.1 ≤ t)

/-- The first model in turn that has work for a lap. -/
def State.planFirst (s : State) (squad : Nat) (q : Squad) : List (Nat × Model) → State
  | [] => s
  | (slot, m) :: ms =>
    let r := s.planModel squad q slot m
    if r.2 then r.1 else r.1.planFirst squad q ms

/-! ## The hurdle of a serving lap (R290, R291, R296, R297, R300) -/

/-- Tokens with their logits, largest logit first, and the lowest token id among equals. -/
def rankLogits (ls : List W32) : List (Nat × W32) :=
  (ls.zipIdx.map (fun l => (l.2, l.1))).mergeSort (fun a b => !((f32 a.2).lt (f32 b.2)) && ((f32 b.2).lt (f32 a.2) || a.1 ≤ b.1))

/-- GREEDY (R289): the token of largest logit; a NaN is never the largest. -/
def greedyToken (ls : List W32) : Nat :=
  ((ls.zipIdx.foldl (fun b l => match b with
    | none => if (f32 l.1).isNan then none else some (l.2, l.1)
    | some m => if (f32 m.2).lt (f32 l.1) then some (l.2, l.1) else b) none).map Prod.fst).getD 0

/-- The tokens SAMPLE draws from (R289): the top_k largest of the logits over the temperature, then the smallest set of them
whose probability reaches top_p. -/
def sampleSet (topK : Nat) (temp topP : W32) (ls : List W32) : List Nat :=
  let ranked := rankLogits (ls.map (fun l => f32Mul l (f32Div 0x3F800000 temp)))
  let kept := if topK = 0 then ranked else ranked.take topK
  (kept.take (1 + Config.topP (kept.map Prod.snd) topP % max 1 kept.length)).map Prod.fst

/-- The token a sequence gets (R289): its logits and its sampling settings choose it, a draw of SAMPLE being free; free where
the command brings no logits of the model's vocabulary. -/
def State.tokenFor (s : State) (h : HurdleInfo) (vocab id : Nat) (q : Sequence) : Nat × State :=
  let r := s.drawNat
  match h.logits.find? (fun t => t.1 == id && t.2.length == vocab) with
  | some t =>
    if byteAt q.sample 0 = 0 then (greedyToken t.2, s)
    else
      let set := sampleSet (u16At q.sample 1) (BitVec.ofNat 32 (u32At q.sample 3)) (BitVec.ofNat 32 (u32At q.sample 7)) t.2
      (set.getD (r.1 % max 1 set.length) 0, r.2)
  | none => (r.1 % max 1 vocab, r.2)

/-- The sequence's lap produced its next token. -/
def State.produce (s : State) (h : HurdleInfo) (id : Nat) : State :=
  match s.seq id with
  | none => s
  | some q =>
    match s.model q.model, q.append.bind s.job with
    | some m, some j =>
      if j.u32 80 = 0 then s.endAppend id 0
      else if m.maxContext ≤ q.tokens.length then s.endAppend id 2
      else
        let t := s.tokenFor h m.vocab id q
        let n := j.lap.tokensOut
        let s1 := (t.2.hostWrite (j.resultAddr + 4 * n) (leBytes t.1 4)).onSeq id (fun q => { q with
          tokens := q.tokens ++ [t.1], rand := q.rand + 1 })
        let s2 := s1.onJob j.tag (fun j => { j with lap := { j.lap with tokensOut := n + 1 } })
        if j.u32 80 ≤ n + 1 then s2.endAppend id 0
        else if (List.range (j.u8 86)).any (fun i => j.u32 (88 + 4 * i) == t.1) then s2.endAppend id 1
        else if m.maxContext ≤ q.tokens.length + 1 then s2.endAppend id 2
        else s2
    | _, _ => s

/-- Count a sequence's prefilled tokens; the chunk that completes its prefill produces a token. -/
def State.prefilled (s : State) (h : HurdleInfo) (id n : Nat) : State :=
  match s.seq id with
  | none => s
  | some q =>
    let full := q.tokens.length ≤ q.tkv + n
    let s1 := s.onSeq id (fun q => { q with tkv := q.tkv + n, ready := full })
    if full then s1.produce h id else s1

/-- Sequences of a squad. -/
def State.seqsOn (s : State) (squad : Nat) : List Nat :=
  (s.jd.seqs.filter (fun e => ((s.model e.2.model).map Model.squad) == some squad)).map Prod.fst

/-- Stops and closes that wait for the hurdle (R47, R292, R308, R409). -/
def State.hurdleEnds (s : State) (squad : Nat) : State :=
  (s.seqsOn squad).foldl (fun s id =>
    match s.seq id with
    | none => s
    | some q =>
      let n := ((q.append.bind s.job).map (fun j => j.lap.tokensOut)).getD 0
      let s1 := match (q.append.bind s.job).bind Job.stop with
        | some 2 => if s.fenced squad then s.cutAppend id 2 stFenced n else s.closeCut id 2 stDraining n
        | some 3 => s.cutAppend id 3 stAbortRequested 0
        | _ => s
      match s1.seq id with
      | none => s1
      | some q =>
        if (s1.squadOf squad).map Squad.state = some .draining then s1.closeCut id 2 stDraining n
        else if q.closing.isEmpty then s1 else s1.closeSeq id) s

/-- The filler chunk after a lap (R297): it passed one layer at each of `waits` waits; past the last layer its tokens count as
prefilled. -/
def State.fillerPasses (s : State) (h : HurdleInfo) (slot : Nat) : State :=
  match s.model slot with
  | none => s
  | some m => match m.filler with
    | none => s
    | some (id, n, p) =>
      if u16At m.record 24 ≤ p + h.fillerWaits then (s.onModel slot (fun m => { m with filler := none })).prefilled h id n
      else s.onModel slot (fun m => { m with filler := some (id, n, p + h.fillerWaits) })

/-- Filler tokens that passed a layer in a lap. -/
def Lap.fillerToks (l : Lap) (h : HurdleInfo) : Nat := if h.fillerWaits = 0 then 0 else (l.filler.map Prod.snd).getD 0

/-- What a serving lap's end does to the sequences it carried. -/
def State.serveHurdle (s : State) (squad : Nat) (l : Lap) (h : HurdleInfo) : State :=
  let s1 := l.decode.foldl (fun s id => (s.onSeq id (fun q => { q with tkv := q.tkv + 1 })).produce h id) s
  let s2 := l.prefill.foldl (fun s p => s.prefilled h p.1 p.2) s1
  let s3 := if l.filler.isSome then s2.fillerPasses h l.invoc else s2
  s3.hurdleEnds squad

/-! ## Meanings -/

/-- MODEL_REGISTER: a write of JD_MODEL_CTL with OP 0 (R283 to R285, R311). -/
def execModelRegister (v : W32) (record : List Byte) (s : State) : Host.Outcome State Fault Refusal :=
  done (s.modelCtl v false record)

/-- MODEL_UNREGISTER: a write of JD_MODEL_CTL with OP 1 (R284, R311). -/
def execModelUnregister (v : W32) (s : State) : Host.Outcome State Fault Refusal := done (s.modelCtl v true [])

/-- DECODE_CAP_RISE (R300): after 64 consecutive laps without RELAY_LATE. -/
def execDecodeCapRise (slot : Nat) (s : State) : Host.Outcome State Fault Refusal :=
  done (match s.model slot with
    | none => s
    | some m =>
      if !m.bound || m.clean < 64 then s
      else
        let cap := min m.decodeMax (m.cap + ceilDiv m.cap 8)
        s.onModel slot (fun m => { m with cap := cap, clean := 0, bound := cap != m.decodeMax }))

/-- JD_SPLIT_SEL (R310, R311): one split record is copied into JD_SPLIT_DATA. -/
def execJdSplitSel (v : W32) (s : State) : Host.Outcome State Fault Refusal :=
  done (if !s.vendorLive then s
    else
      let sel := v &&& 0xFF3F
      match ((s.lapsOf (bitsW v 5 0)).split)[bitsW v 15 8]? with
      | none => { s with jd := { s.jd with splitSel := sel } }
      | some r => { s with jd := { s.jd with splitSel := sel ||| 0x80000000, splitData := r } })

end Sys2Proof.Machine
end

