-- ==== Sys2Proof/Machine/Objects.lean ====
section
/-! DEFINITION. OBJ_PLACE, OBJ_EVICT and OBJ_PUBLISH, and the events that end them (R156 to R172). -/

namespace Sys2Proof.Machine

/-! ## Fields of the commands (R163 to R165) -/

def Dwords.object (d : Dwords) : Nat := d.d10.toNat
def Dwords.region (d : Dwords) : Nat := bitsW d.d11 9 0
def Dwords.source (d : Dwords) : Nat := d.d12.toNat + 2 ^ 32 * d.d13.toNat
def Dwords.batons (d : Dwords) : Nat := bitsW d.d14 23 0
def Dwords.srcRegion (d : Dwords) : Nat := bitsW d.d15 9 0

/-- Entries of the directory (R166). -/
def dirCapacity : Nat := 262144

/-- Entries in use, with those that copies in progress will create (R166). -/
def State.dirTaken (s : State) : Nat :=
  s.rl.dir.length + ((s.rl.copies.map Copy.object).filter (fun o => (s.rl.dir.find o).isNone)).dedup.length

/-- The next version of an object: 1 where it has none. -/
def State.nextVer (s : State) (o : Nat) : Nat := ((s.rl.dir.find o).map (fun e => e.cur.num + 1)).getD 1

/-- An OBJ_PUBLISH is a job with effects: JD writes its record before QE posts the completion (R165, R325). -/
def State.endPublish (s : State) (k : ObjCmd) (tag begun programmed total changed st dw0 : Nat) : State :=
  (s.writeProgress
    { seq := 0, c := k.c, opcode := 0x87, kind := 0, squad := 0xFF, cmdset := s.qe.versions.cmdset, status := st,
      tag := tag, hostTag := 0, begun := begun, fin := s.pc.beat, nsid := 0,
      part := padTo 96 (leBytes (Dwords.object k.d) 4 ++ leBytes programmed 4 ++ leBytes total 4 ++ leBytes changed 1) }).complete
    k.c st dw0

/-- End an object command that took no effect. -/
def State.refuseObj (s : State) (k : ObjCmd) (st : Nat) : State :=
  if k.publish then { s with jd := { s.jd with nextTag := s.jd.nextTag + 1 } }.endPublish k s.jd.nextTag 0 0 0 0 st 0
  else s.complete k.c st

/-- A command that would create an entry while all are in use (R166). -/
def State.dirFullEnd (s : State) (k : ObjCmd) : State :=
  { s with rl := { s.rl with event := setEv s.rl.event 2 } }.refuseObj k stCapacity

/-- The command makes a new version (R163, R165). -/
def ObjCmd.makesVersion (k : ObjCmd) : Bool := if k.publish then k.src == 0 else k.src != 2

/-! ## OBJ_PLACE -/

/-- A near-tier region that OBJ_PLACE may fill (R163). -/
def Region.placeable (r : Region) : Bool := r.tier == 0 && (r.kind == 1 || r.kind == 2)

/-- SRC FAR: promote the current version (R169 to R171); `r` is the target region, where it is one OBJ_PLACE may fill. -/
def State.promote (s : State) (k : ObjCmd) (e : DirEntry) (r : Option Region) : State :=
  let o := Dwords.object k.d
  match e.state with
  | .resident => s.complete k.c stOk (1 + e.cur.num % 65536 * 65536)
  | .promoting => s.onDir o (fun e => { e with waits := e.waits ++ [.place k.c true] })
  | .evicting =>
    let s1 := s.onDir o (fun e => { e with
      state := .resident, evictPending := false, waits := e.waits.filter (fun w => !isEvict w) })
    (e.waits.foldl (fun s w => match w with | .evict c _ => s.complete c stOk 2 | _ => s) s1).complete k.c stOk
      (e.cur.num % 65536 * 65536)
  | .home =>
    if e.damaged then s.complete k.c stUnrecovered
    else match r with
      | none => s.complete k.c stInvalidField
      | some r => match s.allocNear r (footprint e.cur.batons) with
        | none => s.complete k.c stCapacity
        | some a => s.onDir o (fun e => { e with
            state := .promoting, mark := 0, waits := e.waits ++ [.place k.c false]
            cur := { e.cur with near := some a, region := r.id } })

/-- Start a placement that makes a new version. -/
def State.startPlace (s : State) (k : ObjCmd) (r : Region) : State :=
  let o := Dwords.object k.d
  let b := Dwords.batons k.d
  let read := mkStore k.c .objRead k.d.nsid [(Dwords.source k.d, footprint b / 4096)] s.qe.fetchOrder
  let bad : Option Nat :=
    if b = 0 then some stInvalidField
    else if k.src = 1 then s.storeCheck read
    else if k.src = 3 then match s.region (Dwords.srcRegion k.d) with
      | none => some stInvalidField
      | some q => if q.tier = 0 ∧ Dwords.source k.d + footprint b ≤ q.size then none else some stInvalidField
    else none
  match bad with
  | some st => s.complete k.c st
  | none =>
    if (s.rl.dir.find o).isNone && dirCapacity ≤ s.dirTaken then s.dirFullEnd k
    else match s.allocNear r (footprint b) with
      | none => s.complete k.c stCapacity
      | some a =>
        let s1 : State := { s with rl := { s.rl with copies := s.rl.copies ++
          [{ object := o, cmd := some k, publish := false, region := r.id, base := a, batons := b, version := s.nextVer o,
             snap := if k.src = 1 then some s.mm.epoch else none, tag := 0, begun := s.pc.beat }] } }
        if k.src = 1 then s1.takeStore k.c .objRead k.d.nsid [(Dwords.source k.d, footprint b / 4096)] [] else s1

/-! ## OBJ_PUBLISH -/

/-- A version's home meets far-tier bytes [a, a + n). -/
def Version.homeMeets (v : Version) (a n : Nat) : Bool :=
  match v.home with
  | .far f => !apart f (0x4000000 * chunksOf v.batons) a n
  | _ => false

/-- Far-tier bytes [a, a + n) hold part of an object's home, or of a publish in progress. -/
def State.homeTaken (s : State) (a n : Nat) : Bool :=
  s.rl.dir.any (fun e => e.2.cur.homeMeets a n || (e.2.old.map (fun v => v.homeMeets a n)).getD false)
  || s.rl.copies.any (fun c => c.publish && !apart c.base (0x4000000 * chunksOf c.batons) a n)

/-- A chunk lies on a failed block that no spare of its die replaces (R156, R213). -/
def Mm.chunkFailed (m : Mm) (k : Nat) : Bool :=
  (List.range 16).any (fun j =>
    let i := 16 * (k % 32) + j
    (m.blk (blockKey (i % 128) (i / 128) (k / 32))).retired)

/-- Start programming the chunks of a publish of `b` batons. -/
def State.startPublish (s : State) (k : ObjCmd) (b ver : Nat) : State :=
  let o := Dwords.object k.d
  match s.region (Dwords.region k.d) with
  | none => s.refuseObj k stInvalidField
  | some r =>
    let n := 0x4000000 * chunksOf b
    let a := r.base + Dwords.source k.d
    if r.tier ≠ 1 ∨ Dwords.source k.d % 0x4000000 ≠ 0 ∨ b = 0 ∨ r.size < Dwords.source k.d + n ∨ s.homeTaken a n then
      s.refuseObj k stInvalidField
    else if (List.range (chunksOf b)).any (fun i => s.mm.chunkFailed (a / 0x4000000 + i)) then s.refuseObj k stCapacity
    else
      let s1 := if k.src = 3 then (s.takePin o).1 else s
      { s1 with
        rl := { s1.rl with copies := s1.rl.copies ++
          [{ object := o, cmd := some k, publish := true, region := r.id, base := a, batons := b, version := ver,
             snap := none, tag := s1.jd.nextTag, begun := s1.pc.beat }] }
        jd := { s1.jd with nextTag := s1.jd.nextTag + 1 } }

/-! ## One command at an object -/

/-- Another command that makes a version of the object is in progress, or an earlier version still drains. -/
def State.objBusy (s : State) (o : Nat) : Bool :=
  s.rl.copies.any (fun c => c.object == o && (match c.cmd with | none => true | some k => k.makesVersion))
  || (((s.rl.dir.find o).bind DirEntry.old).isSome)

/-- The object takes no command: DISCARD_PENDING is set, or it is a sealed segment (R169, R269). -/
def State.objClosed (s : State) (o : Nat) : Bool :=
  ((s.rl.dir.find o).map (fun e => e.discardPending || e.segment)).getD false

/-- Run an object command (R163 to R171). -/
def State.runObj (s : State) (k : ObjCmd) : State :=
  let o := Dwords.object k.d
  let e := s.rl.dir.find o
  if o = 0xFFFFFFFF ∨ s.objClosed o then s.refuseObj k stInvalidField
  else if k.publish then
    if k.src = 0 then
      if e.isNone && dirCapacity ≤ s.dirTaken then s.dirFullEnd k
      else s.startPublish k (Dwords.batons k.d) (s.nextVer o)
    else match e with
      | none => s.refuseObj k stInvalidField
      | some e =>
        match e.state with
        | .resident => s.startPublish k e.cur.batons e.cur.num
        | .promoting => s.onDir o (fun e => { e with waits := e.waits ++ [.publishNear k.c k.d] })
        | _ => s.refuseObj k stInvalidField
  else
    let target := (s.region (Dwords.region k.d)).filter Region.placeable
    if k.src = 2 then
      match e with
      | none => s.complete k.c stInvalidField
      | some e => if e.cur.home = .none then s.complete k.c stInvalidField else s.promote k e target
    else match target with
      | none => s.complete k.c stInvalidField
      | some r => s.startPlace k r

/-- A command waits its turn, or runs. -/
def State.objArrives (s : State) (k : ObjCmd) : State :=
  if k.makesVersion && !s.objClosed (Dwords.object k.d) && (s.objBusy (Dwords.object k.d) || s.rl.waiting.any (fun w => Dwords.object w.d == Dwords.object k.d)) then
    { s with rl := { s.rl with waiting := s.rl.waiting ++ [k] } }
  else s.runObj k

/-- The oldest command that waits for an object takes its turn when it can (R163, R166). -/
def State.nextObj (s : State) (o : Nat) : State :=
  match s.rl.waiting.find? (fun k => Dwords.object k.d == o) with
  | none => s
  | some k =>
    if s.objBusy o then s
    else { s with rl := { s.rl with waiting := s.rl.waiting.filter (fun w => !(w == k)) } }.runObj k

/-- Fetch an object command and serve it by the phase (R388, R413). -/
def State.objCommand (s : State) (k : ObjCmd) : State :=
  if s.canFetch k.c then
    match (s.fetch k.c).gate .job with
    | some st => (s.fetch k.c).refuseObj k st
    | none => (s.fetch k.c).objArrives k
  else s

/-! ## Near copies that go (R169, R172, R408) -/

/-- The current version's near copy is removed by R43, a stack sweep or a fence release (R172): HOME or gone, a pending
promotion fails with Internal Error, waiting evicts complete with DONE. -/
def State.nearLost (s : State) (o : Nat) : State :=
  match s.rl.dir.find o with
  | none => s
  | some e =>
    let ends := e.waits.map (fun w => match w with | .evict c _ => DirWait.evict c false | w => w)
    let s1 := if e.cur.home = .none || e.discardPending && e.idle then s.dropEntry o
      else s.onDir o (fun e => { e with
        state := .home, cur := { e.cur with near := none }, evictPending := false, condemned := false, waits := [] })
    let s2 := (s1.endEvicts ends).endPlaces ends stInternal 0
    (ends.foldl (fun s w => match w with
      | .publishNear c d => s.refuseObj { c := c, publish := true, src := 3, d := d, data := [] } stInvalidField
      | _ => s) s2).nextObj o

/-- The near copy of a version that drains is removed (R172): its readers use its home; without one the version goes, and the
evicts that waited for it complete. -/
def State.oldLost (s : State) (o : Nat) : State :=
  match s.rl.dir.find o with
  | none => s
  | some e => match e.old with
    | none => s
    | some w =>
      if w.home = .none then
        let stay := e.state == .evicting || e.discardPending
        let ends := if stay then [] else e.waits.filterMap (fun w => match w with
          | .evict c _ => some (DirWait.evict c false)
          | _ => none)
        ((s.onDir o (fun e => { e with old := none, waits := if stay then e.waits else e.waits.filter (fun x => !isEvict x) }
          )).endEvicts ends).nextObj o
      else s.onDir o (fun e => { e with old := e.old.map (fun v => { v with near := none }) })

/-! ## Copies that end -/

/-- A version as it drains: the near copy of a promotion that had not ended goes, and its readers use the home. -/
def DirEntry.superseded (e : DirEntry) : Version := if e.state = .promoting then { e.cur with near := none } else e.cur

/-- A new version becomes current: the old one drains while it holds pins (R166, R169). -/
def State.setCurrent (s : State) (o : Nat) (v : Version) (st : DirState) : State :=
  let fresh : DirEntry :=
    { cur := v, old := none, state := st, evictPending := false, discardPending := false, damaged := false,
      mark := v.batons, waits := [], segment := false, condemned := false }
  match s.rl.dir.find o with
  | none => { s with rl := { s.rl with dir := s.rl.dir.put o fresh } }
  | some e =>
    let keep := e.cur.pins != 0
    let evs := e.waits.filter isEvict
    let s1 := s.onDir o (fun e => { e with
      cur := v, old := if keep then some e.superseded else none, state := st, evictPending := false, discardPending := false,
      damaged := false, mark := v.batons, waits := if keep then evs else [], condemned := false })
    let s2 := if keep then s1 else s1.endEvicts evs
    e.waits.foldl (fun s w => match w with
      | .place c _ => s.complete c stInternal
      | .publishNear c d => s.refuseObj { c := c, publish := true, src := 3, d := d, data := [] } stInvalidField
      | _ => s) s2

def State.dropCopy (s : State) (c : Copy) : State :=
  { s with rl := { s.rl with copies := s.rl.copies.filter (fun x => !(x == c)) } }

/-- The bytes a placement copies. -/
def State.placeBytes (s : State) (c : Copy) (k : ObjCmd) : List Byte :=
  let n := footprint c.batons
  if k.src = 0 then padTo n k.data
  else if k.src = 1 then s.nsBytes k.d.nsid (c.snap.getD s.mm.epoch) (4096 * Dwords.source k.d) n
  else s.nearRead (((s.region (Dwords.srcRegion k.d)).map Region.base).getD 0 + Dwords.source k.d) n

/-- An earlier version of the object still drains (R166). -/
def State.oldDrains (s : State) (o : Nat) : Bool := ((s.rl.dir.find o).bind DirEntry.old).isSome

/-- The home is in the far tier. -/
def Home.isFar (h : Home) : Bool :=
  match h with
  | .far _ => true
  | _ => false

/-- Bytes of a home copied for `k` batons, with their headers. -/
def batonsBytes (k : Nat) : Nat := 65856 * k

/-- Copy batons [m, m + k) of a promotion, with their headers, from the home to the near copy. -/
def State.copyBatons (s : State) (v : Version) (m k : Nat) : State :=
  let a := v.near.getD 0
  let copy (s : State) (o n : Nat) : State := s.nearWrite (a + o) (s.homeCopy v s.mm.epoch o n)
  copy (copy s (headerOff m) (320 * k)) (payloadOff v.batons m) (65536 * k)

/-- A promotion goes on through a beat, reading at most `room` bytes of the far tier (R158, R167): how many batons it copies is
free. -/
def State.promoteOn (s : State) (o room : Nat) : State × Nat :=
  match s.rl.dir.find o with
  | none => (s, room)
  | some e =>
    let far := e.cur.home.isFar
    let most := if far then min (e.cur.batons - e.mark) (room / 65856) else e.cur.batons - e.mark
    if e.state != .promoting || most == 0 then (s, room)
    else
      let k := s.drawNat.1 % (most + 1)
      let s1 := (s.drawNat.2.copyBatons e.cur e.mark k).onDir o (fun e => { e with mark := e.mark + k })
      if far then ({ s1 with rl := { s1.rl with ftBytes := s1.rl.ftBytes + batonsBytes k } }, room - batonsBytes k) else (s1, room)

/-- GB/s of RL_FT_SHARE. -/
def Rl.share (r : Rl) : Nat := min 300 (r.ftShare % 512)

/-- Promotions in progress move their watermarks through a beat of `ns` nanoseconds. -/
def State.promoteAll (s : State) (ns : Nat) : State :=
  (s.rl.dir.keys.foldl (fun r o => r.1.promoteOn o r.2) (s, s.rl.share * ns)).1

/-- The far-tier unit's record and the object's mark (R159). -/
def State.farDamaged (s : State) (channel addr o : Nat) : State :=
  let s1 := s.onDir o (fun e => { e with damaged := true })
  { s1 with rl := { s1.rl with event := setEv s1.rl.event 3 } }.post (srcChannel channel) kEccUncorr 1
    (BitVec.ofNat 64 (addr % 2 ^ 45 + 2 ^ 63)) 16 0 0 0

/-- A promotion ends (R169, R170). -/
def State.promoted (s : State) (o : Nat) (e : DirEntry) (r : CopyResult) : State :=
  match r with
  | .ok =>
    if s.rl.ftShare % 512 == 0 && e.cur.home.isFar then s
    else
      let n := footprint e.cur.batons
      let s1 := s.nearWrite (e.cur.near.getD 0) (s.homeCopy e.cur s.mm.epoch 0 n)
      let far := if e.cur.home.isFar then n - batonsBytes e.mark else 0
      let s2 := { s1 with rl := { s1.rl with ftBytes := s1.rl.ftBytes + far } }.onDir o (fun e => { e with
        state := .resident, mark := e.cur.batons, waits := e.waits.filter isEvict })
      let s3 := s2.endPlaces e.waits stOk e.cur.num
      let s4 := e.waits.foldl (fun s w => match w with
        | .publishNear c d => s.runObj { c := c, publish := true, src := 3, d := d, data := [] }
        | _ => s) s3
      if e.evictPending then s4.evictResident o else s4
  | _ =>
    let s0 := match r with | .damaged ch a => s.farDamaged ch a o | _ => s
    let s1 := s0.onDir o (fun e => { e with
      state := .home, cur := { e.cur with near := none }, mark := e.cur.batons, waits := e.waits.filter isEvict })
    let s2 := s1.endPlaces e.waits stUnrecovered 0
    let s3 := e.waits.foldl (fun s w => match w with
      | .publishNear c d => s.refuseObj { c := c, publish := true, src := 3, d := d, data := [] } stInvalidField
      | _ => s) s2
    if e.evictPending then s3.evictHome o else s3

/-- A placement copy ends (R163): the new version is current, or nothing changed. -/
def State.placed (s : State) (c : Copy) (k : ObjCmd) (r : CopyResult) : State :=
  let ready := match s.storeCmd k.c with
    | none => true
    | some q => q.stage == .running
  if !ready || s.oldDrains c.object then s
  else
    let s1 := match s.storeCmd k.c with
      | none => s.dropCopy c
      | some q => { s.dropCopy c with qe := (s.dropCopy c).qe.dropStore q }
    let ver := s.nextVer c.object
    let failed := r != .ok || (k.src = 1 && s.mm.anyBad k.d.nsid (Dwords.source k.d) (footprint c.batons / 4096))
    let s2 := if failed then s1.complete k.c stUnrecovered
      else ((s1.nearWrite c.base (s.placeBytes c k)).setCurrent c.object
        (Version.fresh ver c.batons c.region (some c.base) .none) .resident).complete k.c stOk (ver % 65536 * 65536)
    (s2.nextObj c.object).trimPool

/-- The last chunk of a publish has verified (R165). -/
def State.publishedNow (s : State) (c : Copy) (k : ObjCmd) : State :=
  let n := footprint c.batons
  let ver := if k.src = 0 then s.nextVer c.object else c.version
  let v := ((s.rl.dir.find c.object).bind (fun e => e.ver c.version)).getD (Version.fresh c.version c.batons c.region none .none)
  let bytes := if k.src = 0 then padTo n k.data else s.nearCopy v 0 n
  let far := writeCells 0 (eraseCells s.rl.far c.base (0x4000000 * chunksOf c.batons)) c.base bytes
  let s1 : State := { s.dropCopy c with
    rl := { (s.dropCopy c).rl with far := far }
    mm := { s.mm with mediaWritten := s.mm.mediaWritten + 16384 * chunksOf c.batons } }
  let s2 := if k.src = 0 then s1.setCurrent c.object (Version.fresh ver c.batons c.region none (.far c.base)) .home
    else (s1.onDir c.object (fun e => { (e.onVer c.version (fun v => { v with home := .far c.base })) with
        damaged := if e.cur.num = c.version then false else e.damaged })).releasePin
      { object := c.object, version := c.version, near := true }
  (s2.endPublish k c.tag c.begun (chunksOf c.batons) (chunksOf c.batons) 1 stOk (ver % 65536 * 65536)).nextObj c.object

/-- A publish that makes a version waits while an earlier one drains (R166). -/
def State.published (s : State) (c : Copy) (k : ObjCmd) : State :=
  if k.src = 0 && s.oldDrains c.object then s else s.publishedNow c k

/-- A publish that a fault stops: some of its chunks are programmed, a number nothing gives, and the home did not change
(R165). -/
def State.abortPublish (s : State) (c : Copy) (k : ObjCmd) : State :=
  let r := s.drawNat
  let s1 := if k.src = 3 then (r.2.dropCopy c).releasePin { object := c.object, version := c.version, near := true } else r.2.dropCopy c
  s1.endPublish k c.tag c.begun (r.1 % (chunksOf c.batons + 1)) (chunksOf c.batons) 0 stJobAborted 0

/-! ## OBJ_EVICT (R164, R169 to R171) -/

/-- The outcome an eviction that joins will share: DEFERRED when the first came from EVICT_PENDING. -/
def DirEntry.joinsDeferred (e : DirEntry) : Bool :=
  match e.waits.find? isEvict with
  | some (.evict _ p) => p
  | _ => false

/-- An OBJ_EVICT at an entry. -/
def State.evictAt (s : State) (c : CmdId) (o : Nat) (discard : Bool) (e : DirEntry) : State :=
  let wait (p : Bool) (st : State) : State := st.onDir o (fun e => { e with
    discardPending := e.discardPending || discard, waits := e.waits ++ [.evict c p] })
  let gone := ((s.dropEntry o).endEvicts e.waits).complete c stOk
  match e.state with
  | .promoting => wait true (s.onDir o (fun e => { e with evictPending := true }))
  | .resident =>
    if discard && e.idle then gone
    else if !discard && e.cur.pins == 0 then (s.evicted o).complete c stOk
    else wait false (s.startEvicting o)
  | .evicting => if discard && e.idle then gone else wait e.joinsDeferred s
  | .home =>
    if !discard then s.complete c stOk 3
    else if e.idle then gone
    else wait e.joinsDeferred s

def State.objEvict (s : State) (c : CmdId) (d : Dwords) (discard : Bool) : State :=
  s.command c .job (fun s =>
    match s.rl.dir.find (Dwords.object d) with
    | none => s.complete c stOk 3
    | some e =>
      if e.segment || (!discard && e.cur.home == .none) then s.complete c stInvalidField
      else (s.evictAt c (Dwords.object d) discard e).nextObj (Dwords.object d))

/-- A version's pins have reached 0 (R166, R169, R170, R408). -/
def State.pinsZero (s : State) (o v : Nat) : State :=
  match s.rl.dir.find o with
  | none => s
  | some e =>
    if e.cur.num = v then
      if e.condemned && e.cur.pins = 0 then s.nearLost o
      else match e.state with
        | .evicting =>
          if e.cur.pinsNear ≠ 0 then s
          else if e.discardPending && !e.idle then
            if e.cur.home = .none then s
            else s.onDir o (fun e => { e with state := .home, cur := { e.cur with near := none } })
          else s.evicted o
        | .home => if e.discardPending && e.idle then (s.dropEntry o).endEvicts e.waits else s
        | _ => s
    else match e.old with
      | none => s
      | some w =>
        if w.num = v ∧ w.pins = 0 then
          let stay := e.state == .evicting || e.discardPending
          if e.discardPending && e.cur.pins = 0 && (e.state == .evicting || e.state == .home) then
            ((s.dropEntry o).endEvicts e.waits).nextObj o
          else
            let s1 := s.onDir o (fun e => { e with old := none, waits := if stay then e.waits else e.waits.filter (fun x => !isEvict x) })
            (if stay then s1 else s1.endEvicts e.waits).nextObj o
        else s

/-! ## Meanings -/

/-- OBJ_PLACE_HOST (R163). -/
def execObjPlaceHost (c : CmdId) (d : Dwords) (data : List Byte) (s : State) : Host.Outcome State Fault Refusal :=
  done (s.objCommand { c := c, publish := false, src := 0, d := d, data := data })

/-- OBJ_PLACE_LBA (R163, R197). -/
def execObjPlaceLba (c : CmdId) (d : Dwords) (s : State) : Host.Outcome State Fault Refusal :=
  done (s.objCommand { c := c, publish := false, src := 1, d := d, data := [] })

/-- OBJ_PLACE_FAR (R163, R169 to R171). -/
def execObjPlaceFar (c : CmdId) (d : Dwords) (s : State) : Host.Outcome State Fault Refusal :=
  done (s.objCommand { c := c, publish := false, src := 2, d := d, data := [] })

/-- OBJ_PLACE_NEAR (R163). -/
def execObjPlaceNear (c : CmdId) (d : Dwords) (s : State) : Host.Outcome State Fault Refusal :=
  done (s.objCommand { c := c, publish := false, src := 3, d := d, data := [] })

/-- OBJ_PUBLISH_HOST (R157, R165). -/
def execObjPublishHost (c : CmdId) (d : Dwords) (data : List Byte) (s : State) : Host.Outcome State Fault Refusal :=
  done (s.objCommand { c := c, publish := true, src := 0, d := d, data := data })

/-- OBJ_PUBLISH_NEAR (R165). -/
def execObjPublishNear (c : CmdId) (d : Dwords) (s : State) : Host.Outcome State Fault Refusal :=
  done (s.objCommand { c := c, publish := true, src := 3, d := d, data := [] })

/-- OBJ_EVICT (R164, R169 to R171). -/
def execObjEvict (c : CmdId) (d : Dwords) (s : State) : Host.Outcome State Fault Refusal := done (s.objEvict c d false)

/-- OBJ_EVICT_DISCARD (R164, R169). -/
def execObjEvictDiscard (c : CmdId) (d : Dwords) (s : State) : Host.Outcome State Fault Refusal := done (s.objEvict c d true)

/-- RL and the copies run (R411). -/
def State.relayRuns (s : State) : Bool := (s.mc.phase == .go || s.mc.phase == .blocks) && !s.halted

/-- PUBLISH_DONE (R165). -/
def execPublishDone (object : Nat) (s : State) : Host.Outcome State Fault Refusal :=
  done (if !s.relayRuns then s
    else match s.rl.copies.find? (fun c => c.object == object && c.publish) with
      | none => s
      | some c => match c.cmd with
        | none => s
        | some k => s.published c k)

/-- PINS_REACH_ZERO (R166, R169, R170, R408). -/
def execPinsReachZero (object version : Nat) (s : State) : Host.Outcome State Fault Refusal :=
  done (if s.relayRuns then s.pinsZero object version else s)

end Sys2Proof.Machine
end

