-- ==== Sys2Proof/Machine/Transcend.lean ====
section
/-! DEFINITION. The four transcendental functions of the vector unit (R58): each answers the exact result to far more than
FP32's precision, rounded to FP32, and moved by a free number of units in the last place from -2 to 2 (R58 names no more than
that bound). An input whose result R58 does not state (not finite, or a root of a number that is not above 0) has none here. -/

namespace Sys2Proof.Machine

/-! ## Fixed-point numbers with 400 fraction bits -/

def fixBits : Nat := 400
def fixOne : Nat := 2 ^ fixBits

/-- Product of two fixed-point numbers, rounded down. -/
def fixMul (a b : Nat) : Nat := a * b / fixOne

/-- The terms x^k / k! of the exponential series, summed: `t` is the term before. -/
def expTerms (x : Nat) : Nat → Nat → Nat → Nat
  | 0, _, _ => 0
  | n + 1, k, t => t + expTerms x n (k + 1) (fixMul t x / (k + 1))

/-- e^x of a fixed-point x below 1,024: the series at x / 1,024, squared ten times. -/
def fixExp (x : Nat) : Nat := (List.range 10).foldl (fun y _ => fixMul y y) (expTerms (x / 1024) 60 0 fixOne)

/-- The magnitude m * 2^e as a fixed-point number, held below 1,000. -/
def fixOf (m : Nat) (e : Int) : Nat :=
  let p := shiftQ m 1 (e + fixBits)
  min (p.1 / p.2) (1000 * fixOne)

/-! ## The functions: numerator, denominator and exponent of the result's magnitude -/

/-- e^x. -/
def expOf (neg : Bool) (m : Nat) (e : Int) : Nat × Nat :=
  let y := fixExp (fixOf m e)
  if neg then (fixOne, y) else (y, fixOne)

/-- The logistic function 1 / (1 + e^-z) of a number with the magnitude z. -/
def sigmaOf (neg : Bool) (z : Nat) : Nat × Nat :=
  let y := fixExp z
  if neg then (fixOne, fixOne + y) else (y, fixOne + y)

/-- 2 * sqrt(2 / pi), and the cubic coefficient, of GELU_TANH as a fraction of 10^60 and of 10^6. -/
def geluScale : Nat := 1595769121605730711759784239737527473903434524659738630663703
def geluCube : Nat := 44715

/-- The magnitude of 2 * sqrt(2 / pi) * (x + 0.044715 x^3), fixed-point, held below 1,000 (PRESUMED, assumption entry 39). -/
def geluArg (m : Nat) (e : Int) : Nat :=
  let x := fixOf m e
  let x3 := fixMul (fixMul x x) x
  min ((x * 10 ^ 6 + geluCube * x3) * geluScale / 10 ^ 66) (1000 * fixOne)

/-- Integer square root. -/
def isqrt (n : Nat) : Nat := Nat.sqrt n

/-- 1 / sqrt(m * 2^e), as a numerator and an exponent. -/
def rsqrtOf (m : Nat) (e : Int) : Nat × Int :=
  let odd := e % 2 ≠ 0
  let m2 := if odd then 2 * m else m
  let h := (if odd then e - 1 else e) / 2
  (isqrt (2 ^ 200 / m2), -100 - h)

/-- The function's exact result, rounded to FP32. -/
def transcend (func : Nat) (x : FV) : Option W32 :=
  match x with
  | .fin neg m e =>
    let w (n : Bool) (q : Nat × Nat) (k : Int) : Option W32 := some (BitVec.ofNat 32 (fmt32.ofQ n q.1 q.2 k))
    (match func with
    | 0x06 => w false (expOf neg m e) 0
    | 0x07 => if neg || m == 0 then none else let r := rsqrtOf m e; w false (r.1, 1) r.2
    | 0x08 => let q := sigmaOf neg (fixOf m e); w neg (m * q.1, q.2) e
    | _ => let q := sigmaOf neg (geluArg m e); w neg (m * q.1, q.2) e)
  | _ => none

/-! ## Two units in the last place (R58) -/

/-- Patterns of FP32 in the order of their values. -/
def ulpOrder (w : W32) : Int := if bitW w 31 then -((w.toNat % 2 ^ 31 : Nat) : Int) else w.toNat

/-- The pattern at a place of that order. -/
def ofUlpOrder (neg : Bool) (i : Int) : W32 :=
  if i < 0 ∨ (i = 0 ∧ neg) then BitVec.ofNat 32 (2 ^ 31 + (-i).toNat) else BitVec.ofNat 32 i.toNat

/-- A result moved by -2 to 2 units in the last place, as `pick` chooses, and held between the infinities. -/
def nearUlp (pick : Nat) (w : W32) : W32 :=
  ofUlpOrder (bitW w 31) (clampZ (-0x7F800000) 0x7F800000 (ulpOrder w + pick % 5 - 2))

/-- EXP, RSQRT, SILU or GELU_TANH of a value; none where R58 states no result. -/
def transcend32 (func pick : Nat) (x : FV) : Option W32 := (transcend func x).map (nearUlp pick)

end Sys2Proof.Machine
end

