-- ==== Sys2Proof/Machine/TileMath.lean ====
section
/-! DEFINITION. Arithmetic of a tile: element types and conversions (R58, R93), the matrix arrays (R85 to R104), the
vector unit (R58, R115), and reductions (R66). -/

namespace Sys2Proof.Machine

/-! ## Element types: 0 INT8, 1 INT16, 2 INT32, 3 BF16, 4 FP32, 5 FP8 E4M3, 6 FP8 E5M2 -/

def elSize (t : Nat) : Nat :=
  match t with
  | 0 => 1
  | 1 => 2
  | 2 => 4
  | 3 => 2
  | 4 => 4
  | _ => 1

/-- Width of an integer type. -/
def elInt (t : Nat) : Option Nat :=
  match t with
  | 0 => some 8
  | 1 => some 16
  | 2 => some 32
  | _ => none

/-- An integer as an exact value. -/
def fvInt (v : Int) : FV := .fin (v < 0) v.natAbs 0

def fmtE4m3 : Fmt := { ew := 4, mw := 3 }

/-- FP8 E4M3: no infinities, NaN S.1111.111 (R93). -/
def e4m3Val (v : Nat) : FV :=
  let neg := bitN v 7
  let x := bitsN v 6 3
  let m := v % 8
  if x = 15 ∧ m = 7 then .nan
  else if x = 0 then .fin neg m (-9)
  else .fin neg (8 + m) ((x : Int) - 10)

/-- The exact value of an element. -/
def elVal (t v : Nat) : FV :=
  match t with
  | 0 => fvInt (signedN 8 v)
  | 1 => fvInt (signedN 16 v)
  | 2 => fvInt (signedN 32 v)
  | 3 => fmtBf16.decode v
  | 4 => fmt32.decode v
  | 5 => e4m3Val v
  | _ => fmtE5m2.decode v

/-- Element `i` of an array of bytes. -/
def elAt (t : Nat) (l : List Byte) (i : Nat) : FV := elVal t (leAt l (elSize t * i) (elSize t))

/-! ## Conversion (R58) -/

/-- E4M3 pattern of a finite value, and whether its rounded magnitude exceeds 448. -/
def e4m3Round (neg : Bool) (m : Nat) (e : Int) : Nat × Bool :=
  let sgn := if neg then 128 else 0
  if m = 0 then (sgn, false)
  else
    let r := fmtE4m3.roundQ m 1 e
    let q := if r.1 = 16 then (8, r.2 + 1) else r
    if q.1 < 8 then (sgn + q.1, false)
    else
      let x := (q.2 + 10).toNat
      if 15 < x ∨ (x = 15 ∧ q.1 = 15) then (sgn + 126, true) else (sgn + 8 * x + (q.1 - 8), false)

/-- Hold an integer to the limits of a width. -/
def satInt (w : Nat) (v : Int) : Int := clampZ (-(2 ^ (w - 1) : Nat)) ((2 ^ (w - 1) : Nat) - 1) v

/-- An FP32 NaN: only its sign and payload are free. -/
def nanFree (w : W32) : Nat := (0x7FC00000 ||| (w &&& 0x803FFFFF)).toNat

/-- Convert a value to a type; `w` is free, for the payload of an FP32 NaN. -/
def toEl (t : Nat) (w : W32) (v : FV) : Nat :=
  match elInt t with
  | some b =>
    (match v with
     | .nan => 0
     | .inf neg => wrapZ b (if neg then -(2 ^ (b - 1) : Nat) else (2 ^ (b - 1) : Nat) - 1)
     | v => wrapZ b (satInt b (v.toInt.getD 0)))
  | none =>
    match t, v with
    | 3, v => fmtBf16.encode v
    | 4, .nan => nanFree w
    | 4, v => fmt32.encode v
    | 5, .nan => 0x7F
    | 5, .inf neg => if neg then 0xFE else 0x7E
    | 5, .fin neg m e => (e4m3Round neg m e).1
    | _, .nan => 0x7F
    | _, v => fmtE5m2.encode v

/-- A value rounded to FP32. -/
def round32 (v : FV) : FV := f32 (toF32 v)

/-! ## ELTWISE (R58, R64) -/

/-- The larger or smaller of two values; none where the spec names no result: a NaN, or zeros of both signs. -/
def pickMax (larger : Bool) (a b : FV) : Option FV :=
  if a.isNan || b.isNan then none
  else if a.lt b then some (if larger then b else a)
  else if b.lt a then some (if larger then a else b)
  else if a == b then some a
  else match a, b with
    | .fin false m e, .fin true _ _ => if m = 0 then none else some (.fin false m e)
    | .fin true m e, .fin false _ _ => if m = 0 then none else some (.fin true m e)
    | _, _ => some a

/-- ADD, MUL, MAX and MIN of integers: none when the exact result leaves the operands' format. -/
def intFunc (w func : Nat) (a b : FV) : Option FV :=
  let r := match func with
    | 1 => some (a.add b)
    | 2 => some (a.mul b)
    | 4 => pickMax true a b
    | _ => pickMax false a b
  r.filter (fun v => (v.toInt.map (fun i => satInt w i == i)).getD false)

/-- SCALE_SHIFT: none where one rounding and two would differ. -/
def scaleShift (a m c : FV) : Option FV :=
  let one := round32 ((a.mul m).add c)
  let two := round32 ((round32 (a.mul m)).add c)
  if one == two then some one else none

/-- The value of an ELTWISE function on elements of a type; none where the spec leaves it open; `pick` chooses within the two
units in the last place of a transcendental function. -/
def eltVal (t func pick : Nat) (imm imm2 : W32) (a b : FV) : Option FV :=
  match elInt t, func with
  | some w, 1 => intFunc w 1 a b
  | some w, 2 => intFunc w 2 a b
  | some w, 4 => intFunc w 4 a b
  | some w, 5 => intFunc w 5 a b
  | _, 1 => some (round32 (a.add b))
  | _, 2 => some (round32 (a.mul b))
  | _, 3 => some (round32 (((round32 a).mul (round32 b)).add (f32 imm)))
  | _, 4 => pickMax true a b
  | _, 5 => pickMax false a b
  | _, 0x06 => (transcend32 0x06 pick (round32 a)).map f32
  | _, 0x07 => (transcend32 0x07 pick (round32 a)).map f32
  | _, 0x08 => (transcend32 0x08 pick (round32 a)).map f32
  | _, 0x09 => (transcend32 0x09 pick (round32 a)).map f32
  | _, 0x0A => some a
  | _, 0x0C => scaleShift (round32 a) (f32 imm) (f32 imm2)
  | _, _ => none

/-- A two-operand function. -/
def eltTwo (func : Nat) : Bool := 1 ≤ func && func ≤ 5

/-- Bytes an ELTWISE other than QUANT stores. -/
def eltBytes (tick it ot func : Nat) (imm imm2 : W32) (a b : List Byte) (count : Nat) : List Byte :=
  (List.range count).flatMap (fun i =>
    let w := Config.freeWord tick i
    leBytes (match eltVal it func w.toNat imm imm2 (elAt it a i) (elAt it b i) with
      | some v => toEl ot w v
      | none => w.toNat) (elSize ot))

/-! ## ELTWISE QUANT (R108, R115) -/

/-- The keeper's format code of a type. -/
def keeperFmt (t : Nat) : Nat :=
  match t with
  | 0 => 1
  | 1 => 8
  | 5 => 3
  | 6 => 4
  | _ => 0

/-- Rounded to the type, the magnitude exceeds the format maximum. -/
def overMax (t : Nat) (v : FV) : Bool :=
  match v with
  | .inf _ => (fmtMax (keeperFmt t)).isSome
  | .nan => false
  | .fin neg m e =>
    match t with
    | 0 => 127 < ((FV.fin neg m e).toInt.getD 0).natAbs
    | 1 => 32767 < ((FV.fin neg m e).toInt.getD 0).natAbs
    | 5 => (e4m3Round neg m e).2
    | 6 => !(fmtE5m2.decode (fmtE5m2.encode (.fin neg m e))).isFin
    | _ => false

/-- One element: its pattern, and 1 when saturated, 2 when flushed; `w` is the free part of an FP32 NaN. -/
def quantEl (t : Nat) (w : W32) (q : W32) (x : FV) : Nat × Nat :=
  let v := f32 (f32Mul (toF32 x) q)
  let neg := match v with
    | .inf n => n
    | .fin n _ _ => n
    | .nan => false
  if overMax t v then
    ((match t with
      | 5 => if neg then 0xFE else 0x7E
      | 6 => if neg then 0xFB else 0x7B
      | _ => toEl t w v), 1)
  else if (fmtMax (keeperFmt t)).isSome ∧ !v.isNan ∧ !(x.eq (.fin false 0 0)) ∧ v.abs.le (f32 (flushAt (keeperFmt t))) then (0, 2)
  else (toEl t w v, 0)

def quantEls (it ot : Nat) (q : W32) (a : List Byte) (count : Nat) : List (Nat × Nat) :=
  (List.range count).map (fun i => quantEl ot (Config.nanWord q (leAt a (elSize it * i) (elSize it))) q (elAt it a i))

/-! ## The matrix arrays (R85 to R104) -/

/-- Weight tiles a latch holds; format codes of R31. -/
def tilesPerLatch (wf : Nat) : Nat :=
  match wf with
  | 2 => 128
  | 5 => 32
  | _ => 64

/-- The format is accumulated in INT32. -/
def accInt (wf : Nat) : Bool := wf == 1 || wf == 2 || wf == 6

/-- Bytes of an activation chunk. -/
def chunkBytesOf (wf : Nat) : Nat := if wf = 5 then 32 else 16

/-- Element (r, c) of weight tile `t`, as its raw field (R85). -/
def weightAt (wf : Nat) (pl : Nat → Byte) (t r c : Nat) : Nat :=
  match wf with
  | 2 => let b := (pl (512 * t + 32 * r + c / 2)).toNat; if c % 2 = 0 then b % 16 else b / 16
  | 5 => (pl (2048 * t + 2 * (64 * r + c))).toNat + 256 * (pl (2048 * t + 2 * (64 * r + c) + 1)).toNat
  | _ => (pl (1024 * t + 64 * r + c)).toNat

/-- An FP8 operand. -/
def fp8Val (f v : Nat) : FV := if f = 3 then e4m3Val v else fmtE5m2.decode v

/-- Ones of a byte. -/
def ones8 (b : Nat) : Nat := ((List.range 8).filter (fun k => bitN b k)).length

/-- Column `c` of one row in an integer or binary mode (R91, R97). -/
def accIntOf (wf : Nat) (pl : Nat → Byte) (act : List Byte) (first k c : Nat) : Int :=
  let term (t r : Nat) : Int :=
    let w := weightAt wf pl (first + t) r c
    let a := byteAt act (16 * t + r)
    if wf = 6 then -2 * (ones8 (w ^^^ a) : Int) else signedN (if wf = 2 then 4 else 8) w * signedN 8 a
  let s := ((List.range k).map (fun t => ((List.range 16).map (term t)).sum)).sum
  if wf = 6 then 128 * k + s else s

/-- FP8: 16 exact products summed exactly from +0, rounded, then added to the accumulator (R94, R95). -/
def accFp8 (wf af : Nat) (pl : Nat → Byte) (act : List Byte) (first k c : Nat) : W32 :=
  (List.range k).foldl (fun acc t =>
    let ps := (List.range 16).map (fun r => (fp8Val wf (weightAt wf pl (first + t) r c)).mul (fp8Val af (byteAt act (16 * t + r))))
    f32Add acc (toF32 (ps.foldl FV.add (.fin false 0 0)))) 0

/-- Pairwise sum in the fixed order of R96. -/
def pairSum : Nat → List W32 → W32
  | 0, l => l.headD 0
  | n + 1, l => f32Add (pairSum n (l.take (2 ^ n))) (pairSum n (l.drop (2 ^ n)))

/-- The products of one column and chunk in BF16 mode, rounded to FP32 (R96). -/
def bf16Products (pl : Nat → Byte) (act : List Byte) (first c t : Nat) : List W32 :=
  (List.range 16).map (fun r =>
    toF32 ((fmtBf16.decode (weightAt 5 pl (first + t) r c)).mul (fmtBf16.decode (u16At act (32 * t + 2 * r)))))

/-- What products that are not finite make of a column (R95): NaN from a NaN or from infinities of both signs, else the
infinity; none where every product is finite. -/
def specialSum (ps : List W32) : Option W32 :=
  let vs := ps.map f32
  if vs.all FV.isFin then none
  else if vs.any FV.isNan || (vs.contains (.inf false) && vs.contains (.inf true)) then some (toF32 .nan)
  else some (toF32 (.inf (vs.contains (.inf true))))

/-- BF16: products added pairwise, then to the accumulator (R96); special values follow R95. -/
def accBf16 (pl : Nat → Byte) (act : List Byte) (first k c : Nat) : W32 :=
  (specialSum ((List.range k).flatMap (bf16Products pl act first c))).getD
    ((List.range k).foldl (fun acc t => f32Add acc (pairSum 4 (bf16Products pl act first c t))) 0)

/-- A column's accumulator: INT32 or FP32. -/
def accOf (wf af : Nat) (pl : Nat → Byte) (act : List Byte) (first k c : Nat) : Int ⊕ W32 :=
  if accInt wf then .inl (accIntOf wf pl act first k c)
  else if wf = 5 then .inr (accBf16 pl act first k c)
  else .inr (accFp8 wf af pl act first k c)

/-- One output (R92, R101, R103): `old` is the stored value ACCUM adds to. The pattern, and its magnitude in FP32. -/
def mmOut (mode : Nat) (acc : Int ⊕ W32) (sc a : W32) (old : Option Nat) : Nat × W32 :=
  let x := match acc with
    | .inl i => f32OfInt i
    | .inr w => w
  let d := f32Mul (f32Mul x sc) a
  let addF (v : W32) : W32 := match old with
    | some o => f32Add (BitVec.ofNat 32 o) v
    | none => v
  match mode, acc with
  | 0, .inl i =>
    let v := satInt 32 (i + (match old with
      | some o => signedN 32 o
      | none => 0))
    (wrapZ 32 v, f32Abs (f32OfInt v))
  | 0, .inr w => let v := addF w; (v.toNat, f32Abs v)
  | 1, _ => let v := addF d; (v.toNat, f32Abs v)
  | _, _ => let b := fmtBf16.encode (f32 d); (b, f32Abs (toF32 (fmtBf16.decode b)))

/-- Bytes of an output element. -/
def mmSize (mode : Nat) : Nat := if mode = 2 then 2 else 4

/-! ## Reductions (R66) -/

/-- A reduction of elements held as INT32 or FP32 patterns; an FP32 SUM adds in the order `pick` chooses (R66), and `w` is free,
for results the spec leaves open. -/
def reduceEls (op type : Nat) (pick : Nat → Nat) (w : W32) (es : List W32) : W32 :=
  let vs := es.map (fun e => if type = 0 then fvInt (signedN 32 e.toNat) else f32 e)
  let r : Option FV := match op with
    | 0 => if type = 0 then some (vs.foldl FV.add (.fin false 0 0))
           else some (f32 (sum32 pick es))
    | 1 => (vs.drop 1).foldl (fun r v => r.bind (fun m => pickMax true m v)) vs.head?
    | 2 => (vs.drop 1).foldl (fun r v => r.bind (fun m => pickMax false m v)) vs.head?
    | _ => ((vs.map FV.abs).drop 1).foldl (fun r v => r.bind (fun m => pickMax true m v)) (vs.map FV.abs).head?
  match r with
  | none => w
  | some v =>
    if v.isNan then BitVec.ofNat 32 (nanFree w)
    else if type = 0 then
      let i := v.toInt.getD 0
      if satInt 32 i = i then BitVec.ofInt 32 i else w
    else toF32 v

end Sys2Proof.Machine
end

