-- ==== Sys2Proof/Machine/Train.lean ====
section
/-! DEFINITION. The numeric path of a TRAIN step (R109, R111, R122, R124, R127 to R130, R161, R304 to R306): the examples,
the optimizer, the two passes, the requantised batons, and the swap of a squad's state area (R287). -/

namespace Sys2Proof.Machine

/-! ## Examples (R304) -/

/-- Byte offsets in the range of the records a TRAIN job takes, in record order. -/
def State.recordOffs (s : State) (j : Job) : List Nat :=
  match s.jobLayout j with
  | none => []
  | some y =>
    let rd := s.rangeRead j
    let n := j.rangeLen
    let rs := (parseRecords y rd n n (n + 1) (rangeStart y rd n)).1
    (match s.jobPred j with
      | none => rs
      | some p => rs.filter p.passes).map Rec.off

/-- Examples the data holds: records of the range, or data_examples at data_addr. -/
def State.examples (s : State) (j : Job) : Nat := if j.u32 64 = 0 then j.u32 96 else (s.recordOffs j).length

/-- Example `i` as data_cursor tells it (R309): its byte offset in the range, or its index in host data. -/
def State.examplePos (s : State) (j : Job) (i : Nat) : Nat :=
  if j.u32 64 = 0 then i else (s.recordOffs j).getD i j.rangeLen

def Job.loops (j : Job) : Bool := bitN (j.u16 102) 1

/-- Examples the job's next accumulation lap takes: examples_per_lap, or those left where the data does not wrap. -/
def State.lapExamples (s : State) (j : Job) : Nat :=
  if j.loops then j.u16 110 else min (j.u16 110) (s.examples j - j.lap.pend)

/-- The data runs out in the job's next accumulation lap (R304). -/
def State.dataOut (s : State) (j : Job) : Bool :=
  !j.loops && j.lap.lapInStep < j.u16 108 && s.lapExamples j < j.u16 110

/-- The example after those of a lap of `n`: LOOP wraps to the start of the data. -/
def State.nextExample (s : State) (j : Job) (n : Nat) : Nat :=
  if j.loops then (j.lap.pend + n) % max 1 (s.examples j) else j.lap.pend + n

/-! ## The optimizer (R305) -/

def Job.f32 (j : Job) (o : Nat) : W32 := BitVec.ofNat 32 (j.u32 o)

def f32Neg (a : W32) : W32 := a ^^^ 0x80000000

/-- lr_t of step `t`. -/
def Job.rate (j : Job) (t : Nat) : W32 :=
  let lr := j.f32 112
  let w := j.u32 120
  if t ≤ w then f32Div (f32Mul lr (f32OfInt t)) (f32OfInt w)
  else if j.u8 124 = 0 then lr
  else
    let e := j.u64 168 + j.u32 104 - 1
    let u := f32Div (f32OfInt ((t : Int) - w)) (f32OfInt ((e : Int) - w))
    f32Add (j.f32 116) (f32Div (f32Mul (f32Sub lr (j.f32 116)) (f32Add 0x3F800000 (Config.cosPi u))) 0x40000000)

/-- Master copy of one weight: the weight, the momentum m and the second moment v. -/
structure Master where
  w : W32
  m : W32
  v : W32
  deriving DecidableEq, Repr

/-- The update of one weight in step `t` from its accumulated gradient: m1 and v1 beside the old weight, and dw. -/
def Job.update (j : Job) (t : Nat) (acc : W32) (x : Master) : Master × W32 :=
  let g := f32Div acc (f32OfInt (j.u16 108 * j.u16 110 : Nat))
  let lr := f32Neg (j.rate t)
  let b1 := j.f32 128
  let b2 := j.f32 132
  let decay := f32Mul (j.f32 140) x.w
  if j.u8 100 = 1 then
    let m1 := f32Add (f32Mul b1 x.m) (f32Mul (f32Sub 0x3F800000 b1) g)
    let v1 := f32Add (f32Mul b2 x.v) (f32Mul (f32Mul (f32Sub 0x3F800000 b2) g) g)
    let mh := f32Div m1 (f32Sub 0x3F800000 (Config.pow32 b1 t))
    let vh := f32Div v1 (f32Sub 0x3F800000 (Config.pow32 b2 t))
    ({ x with m := m1, v := v1 }, f32Mul lr (f32Add (f32Div mh (f32Add (f32Sqrt vh) (j.f32 136))) decay))
  else
    let m1 := f32Add (f32Mul b1 x.m) g
    ({ x with m := m1 }, f32Mul lr (f32Add m1 decay))

/-! ## Where a job's weights, gradients and batons lie -/

/-- What the two passes of a step read: the job, its squad and id, the pin and version of run_object, the master region and
the address of its bank in force. -/
structure Training where
  job    : Job
  squad  : Squad
  pin    : Pin
  ver    : Version
  region : Region
  bank   : Nat
  deriving DecidableEq, Repr

/-- Address of a bank of a master region: the one in force, or the inactive one (R306); its place and its 12 bytes for an
element are the model's (DESIGN CHOICE, assumption entry 27). -/
def State.bankAt (s : State) (r : Region) (inForce : Bool) : Nat :=
  r.base + (if s.jd.banks.contains r.id == inForce then r.size / 2 else 0)

/-- The step of a TRAIN job, when its version of run_object, squad and master region stand. -/
def State.training (s : State) (j : Job) : Option Training :=
  match j.pins.find? (fun p => p.object == j.u32 148), s.squadOf j.squad, s.region (j.u16 144) with
  | some p, some q, some r =>
    ((s.rl.dir.find p.object).bind (fun e => e.ver p.version)).map (fun v =>
      { job := j, squad := q, pin := p, ver := v, region := r, bank := s.bankAt r true })
  | _, _, _ => none

/-- Weight tiles a baton's payload may hold. -/
def Training.tiles (x : Training) : Nat := tilesPerLatch x.squad.numerics.wfmt
/-- Number of element (row, column) `k` of weight tile `t` of baton `b`: the model's numbering (DESIGN CHOICE, assumption
entry 27). -/
def Training.elem (x : Training) (b t k : Nat) : Nat := 1024 * (x.tiles * b + t) + k
/-- Elements of all the batons. -/
def Training.elems (x : Training) : Nat := 1024 * x.tiles * x.ver.batons
/-- Gradient accumulators each tile of the squad holds. -/
def Training.perTile (x : Training) : Nat := ceilDiv x.elems (max 1 x.squad.tiles.length)

/-- The master copy of an element. -/
def State.master (s : State) (x : Training) (i : Nat) : Master :=
  let b := s.nearRead (x.bank + 12 * i) 12
  { w := BitVec.ofNat 32 (u32At b 0), m := BitVec.ofNat 32 (u32At b 4), v := BitVec.ofNat 32 (u32At b 8) }

/-- The gradient accumulator of an element (R127); its tile and lane address are the model's (DESIGN CHOICE, assumption entry
27). -/
def State.gradient (s : State) (x : Training) (i : Nat) : W32 :=
  BitVec.ofNat 32 (u32At ((s.tile (x.squad.tiles.getD (i / max 1 x.perTile) 0)).bytes (4 * (i % max 1 x.perTile)) 4) 0)

/-- The header and the payload of a baton, as a pin reads them. -/
def State.pinnedBaton (s : State) (p : Pin) (v : Version) (snap b : Nat) : List Byte × List Byte :=
  (s.pinnedBytes p snap b (headerOff b) 320, s.pinnedBytes p snap b (payloadOff v.batons b) 65536)

/-- A baton of the version the step replaces. -/
def State.oldBaton (s : State) (x : Training) (b : Nat) : List Byte × List Byte :=
  s.pinnedBaton x.pin x.ver x.job.snapshot b

/-- Weight tiles in a baton. -/
def State.unitsOf (s : State) (x : Training) (b : Nat) : Nat := min (u32At (s.oldBaton x b).1 16) x.tiles

/-- Batons of a layer. -/
def Training.spanBatons (x : Training) (l : LayerSpan) : List Nat :=
  (List.range l.count).filterMap (fun k => if l.first + k < x.ver.batons then some (l.first + k) else none)

/-- Elements of a layer. -/
def State.layerElems (s : State) (x : Training) (l : LayerSpan) : List Nat :=
  (x.spanBatons l).flatMap (fun b => (List.range (1024 * s.unitsOf x b)).map (fun k => x.elem b 0 k))

/-- The layer a baton belongs to. -/
def Training.layerOf (x : Training) (b : Nat) : Option LayerSpan :=
  x.job.lap.layers.find? (fun l => l.first ≤ b && b < l.first + l.count)

/-! ## Pass 1 (R128, R129) -/

/-- The update of an element in the step in progress. -/
def State.updateOf (s : State) (x : Training) (i : Nat) : Master × W32 :=
  x.job.update x.job.lap.step (s.gradient x i) (s.master x i)

/-- The two sums of a layer, each in an order that is free (R66) (assumption entry 27). -/
def State.layerSums (s : State) (x : Training) (l : LayerSpan) (n : Nat) : LayerSums :=
  let es := s.layerElems x l
  let sq (w : W32) : W32 := f32Mul w w
  { layer := l.layer
    sumDw := sum32 (fun i => (Config.freeWord (s.tick + 2 * n) i).toNat) (es.map (fun i => sq (s.updateOf x i).2))
    sumW := sum32 (fun i => (Config.freeWord (s.tick + 2 * n + 1) i).toNat) (es.map (fun i => sq (s.master x i).w)) }

/-- The sums of the layers of a job. -/
def State.pass1Sums (s : State) (j : Job) (ls : List LayerSpan) : List LayerSums :=
  match s.training j with
  | none => []
  | some x => ls.zipIdx.map (fun l => s.layerSums x l.1 l.2)

/-! ## Pass 2 (R111, R122, R128, R130, R306) -/

/-- The master copy of an element of baton `b` after the step: held layers and batons of no layer keep theirs. -/
def State.newMaster (s : State) (x : Training) (b i : Nat) : Master :=
  match x.layerOf b with
  | none => s.master x i
  | some l =>
    if x.job.lap.holds.contains l.layer then s.master x i
    else
      let u := s.updateOf x i
      { u.1 with w := f32Add u.1.w u.2 }

/-- An FP32 word as it is stored: the sign and payload of a NaN are free. -/
def storedWord (free w : W32) : Nat := if (f32 w).isNan then nanFree free else w.toNat

/-- The bytes of the new bank. -/
def State.bankBytes (s : State) (x : Training) : List Byte :=
  ((List.range x.ver.batons).flatMap (fun b => (List.range (1024 * x.tiles)).flatMap (fun k =>
    let i := x.elem b 0 k
    let n := s.newMaster x b i
    let word (o : Nat) (w : W32) : List Byte := leBytes (storedWord (Config.freeWord s.tick (3 * i + o)) w) 4
    word 0 n.w ++ word 1 n.m ++ word 2 n.v))).take (x.region.size / 2)

/-- Batons of a layer that share the output channels of baton `b`. -/
def Training.channelBatons (x : Training) (l : LayerSpan) (b : Nat) : List Nat :=
  let g := l.first + (b - l.first) / max 1 l.depth * max 1 l.depth
  (x.spanBatons l).filter (fun k => g ≤ k && k < g + max 1 l.depth)

/-- Largest magnitude in a channel, of weights that `w` gives (R111): `c` is the column, baton `b` one of the channel's. -/
def State.chanMax (s : State) (x : Training) (l : LayerSpan) (b c : Nat) (w : Nat → Nat → W32) : W32 :=
  ((x.channelBatons l b).flatMap (fun k => (List.range (16 * s.unitsOf x k)).map (fun r => f32Abs (w k (x.elem k 0 (64 * r + c)))))).foldl
    f32Max 0

def State.newMax (s : State) (x : Training) (l : LayerSpan) (b c : Nat) : W32 :=
  s.chanMax x l b c (fun k i => (s.newMaster x k i).w)
def State.oldMax (s : State) (x : Training) (l : LayerSpan) (b c : Nat) : W32 :=
  s.chanMax x l b c (fun _ i => (s.master x i).w)

/-- The scale a zero-range channel keeps: that of the version replaced, 1.0 where it has none (R122). -/
def State.keptScale (s : State) (x : Training) (b c : Nat) : W32 :=
  let h := (s.oldBaton x b).1
  if bitN (byteAt h 14) 0 then BitVec.ofNat 32 (u32At h (64 + 4 * c)) else 0x3F800000

/-- The scale of a column of a baton (R111, R122). -/
def State.newScale (s : State) (x : Training) (l : LayerSpan) (b c : Nat) : W32 :=
  let a := s.newMax x l b c
  if (fmtMax x.squad.numerics.wfmt).isNone then 0x3F800000
  else if a = 0 then s.keptScale x b c else scaleOf x.squad.numerics.wfmt 0 (some a)

/-- The code of a weight under the factor `q` (R111, R115); binary codes follow no rule and are free (assumption entry 27). -/
def weightCode (wf : Nat) (free q w : W32) : Nat :=
  match wf with
  | 1 => (quantEl 0 free q (f32 w)).1
  | 2 =>
    let v := f32 (f32Mul w q)
    match v with
    | .nan => 0
    | .inf neg => if neg then 8 else 7
    | .fin neg m e =>
      if v.abs.le (f32 0x3F000000) then 0
      else wrapZ 4 (clampZ (-8) 7 ((FV.fin neg m e).toInt.getD 0))
  | 3 => (quantEl 5 free q (f32 w)).1
  | 4 => (quantEl 6 free q (f32 w)).1
  | 5 => fmtBf16.encode (f32 w)
  | _ => (free.setWidth 8).toNat

/-- Codes as payload bytes (R85). -/
def packCodes (wf : Nat) : List Nat → List Byte
  | [] => []
  | a :: as =>
    if wf = 2 then
      match as with
      | [] => leBytes a 1
      | b :: bs => leBytes (a + 16 * b) 1 ++ packCodes wf bs
    else leBytes a (if wf = 5 then 2 else 1) ++ packCodes wf as

/-- A baton header (R161) over its bytes 12 to 31 (`fields`) and its scales. -/
def batonHeader (o b ver : Nat) (fields scales pl : List Byte) : List Byte :=
  let h := leBytes o 4 ++ leBytes b 4 ++ leBytes ver 4 ++ padTo 20 fields
  h ++ leBytes (crc32c (pl ++ padTo 256 scales ++ h)).toNat 4 ++ leBytes 0 28 ++ padTo 256 scales

/-- A baton of the new version: requantised, or copied where it belongs to no layer. -/
def State.newBaton (s : State) (x : Training) (ver b : Nat) : List Byte × List Byte :=
  let old := s.oldBaton x b
  match x.layerOf b with
  | none => (batonHeader x.pin.object b ver (sliceZ old.1 12 20) (sliceZ old.1 64 256) old.2, old.2)
  | some l =>
    let wf := x.squad.numerics.wfmt
    let n := s.unitsOf x b
    let scales := (List.range 64).map (fun c => s.newScale x l b c)
    let qs := scales.map (fun v => f32Div 0x3F800000 v)
    let codes := (List.range (1024 * n)).map (fun k =>
      weightCode wf (Config.freeWord (s.tick + 1) (x.elem b 0 k)) (qs.getD (k % 64) 0) (s.newMaster x b (x.elem b 0 k)).w)
    let pl := padTo 65536 (packCodes wf codes)
    let flag := b2n (fmtMax wf).isSome
    (batonHeader x.pin.object b ver (leBytes 2 1 ++ leBytes wf 1 ++ leBytes flag 1 ++ leBytes 0 1 ++ leBytes n 4)
      (if flag = 1 then scales.flatMap (fun v => leBytes v.toNat 4) else []) pl, pl)

/-- An object's bytes from its batons (R160). -/
def objectBytes (bs : List (List Byte × List Byte)) : List Byte :=
  padTo (payloadOff bs.length 0) (bs.flatMap Prod.fst) ++ bs.flatMap (fun b => padTo 65536 b.2)

/-- Zero-range channels of a layer: channel number, baton and column, and whether the run starts in this step (R122). -/
def State.zeroChannels (s : State) (x : Training) (l : LayerSpan) : List (Nat × Nat × Nat × Bool) :=
  (List.range (ceilDiv l.count (max 1 l.depth))).flatMap (fun g => (List.range 64).filterMap (fun c =>
    let b := l.first + g * max 1 l.depth
    if (fmtMax x.squad.numerics.wfmt).isSome && b < x.ver.batons && s.newMax x l b c == 0 then
      some (64 * g + c, b, c, s.oldMax x l b c != 0) else none))

/-- NS counts the zero-range channels of a layer, and posts the record of the lowest whose run starts (R122, R124); which tile
quantises a baton is the model's (DESIGN CHOICE, assumption entry 27). -/
def State.postZeros (s : State) (x : Training) (l : LayerSpan) (zs : List (Nat × Nat × Nat × Bool × W32)) : State :=
  if zs.isEmpty then s
  else
    let s1 : State := { s with ns := { s.ns with
      zeroCnt := sat32 (s.ns.zeroCnt + zs.length), event := setEv s.ns.event 2 } }
    match zs.find? (fun z => z.2.2.2.1) with
    | none => s1
    | some (ch, b, _, _, kept) =>
      s1.postCorr (srcTile (x.squad.tiles.getD (b % max 1 x.squad.tiles.length) 0)) kZeroRange
        (nsAddr (l.tensor % 65536) x.job.squad ch) kept 0 0 0

/-- Every gradient accumulator of a job is cleared. -/
def State.clearGradients (s : State) (x : Training) : State :=
  x.squad.tiles.foldl (fun s n => s.setTile n ((s.tile n).put 0 (List.replicate (4 * x.perTile) 0))) s

/-- Pass 2 and the flip (R306): the inactive bank and the new version of run_object, at `a`, are written, the version is made
current and the bank selector flips; zero-range channels are told, and the accumulators cleared. -/
def State.pass2 (s : State) (x : Training) (a : Nat) : State :=
  let o := x.pin.object
  let ver := s.nextVer o
  let bank := s.bankBytes x
  let obj := objectBytes ((List.range x.ver.batons).map (s.newBaton x ver))
  let zs := x.job.lap.layers.map (fun l => (l, (s.zeroChannels x l).map (fun z =>
    (z.1, z.2.1, z.2.2.1, z.2.2.2, s.keptScale x z.2.1 z.2.2.1))))
  let s1 := { s with tick := s.tick + 2 }.nearWrite (s.bankAt x.region false) bank
  let s2 := (s1.nearWrite a obj).setCurrent o (Version.fresh ver x.ver.batons x.ver.region (some a) .none) .resident
  let s3 : State := { s2 with jd := { s2.jd with
    banks := if s2.jd.banks.contains x.region.id then s2.jd.banks.erase x.region.id else x.region.id :: s2.jd.banks } }
  (zs.foldl (fun s z => s.postZeros x z.1 z.2) s3).clearGradients x

/-- Near-tier room for the new version of run_object, in the region of the version it replaces. -/
def State.stepRoom (s : State) (x : Training) : Option Nat :=
  (s.region x.ver.region).bind (fun r => s.allocNear r (footprint x.ver.batons))

/-- Pass 2 may end: pass 1 is over, no earlier version of run_object drains, and the new one has room. -/
def State.mayStep (s : State) (j : Job) : Bool :=
  j.lap.pass1 && (match s.training j with
    | none => true
    | some x => !s.oldDrains x.pin.object && (s.stepRoom x).isSome)

/-- A step of a TRAIN job takes effect (R306). -/
def State.stepEffect (s : State) (j : Job) (loss : W32) : State :=
  let s1 := match s.training j with
    | none => s
    | some x => match s.stepRoom x with
      | none => s
      | some a => s.pass2 x a
  let pos := s.examplePos j j.lap.pend
  s1.onJob j.tag (fun j => { j with lap := { j.lap with
    stepsDone := j.lap.stepsDone + 1, lastStep := some j.lap.step, loss := loss, cursor := pos, step := j.lap.step + 1,
    lapInStep := 0, pass1 := false, layers := [], holds := [] } })

/-! ## The state swap (R287) -/

/-- Bytes of a tile's lane memory. -/
def laneBytes : Nat := 2097152

/-- Bytes of the state area of a TRAIN job: its accumulators, to a multiple of 64 KiB. -/
def State.areaBytes (s : State) (j : Job) : Nat :=
  match s.training j with
  | none => 0
  | some x => min laneBytes (ceilDiv (4 * x.perTile) 65536 * 65536)

/-- Address of a squad tile's part of a TRAIN job's save area, one area behind the other (DESIGN CHOICE, assumption entry 27).
-/
def State.saveAt (s : State) (j : Job) (k : Nat) : Option Nat :=
  match s.region (j.u16 146) with
  | none => none
  | some r =>
    let o := j.u64 160 + s.areaBytes j * k
    if o + s.areaBytes j ≤ r.size then some (r.base + o) else none

/-- The state area of a TRAIN job is written to its save area. -/
def State.saveArea (s : State) (q : Squad) (j : Job) : State :=
  q.tiles.zipIdx.foldl (fun s n => match s.saveAt j n.2 with
    | none => s
    | some a => s.nearWrite a ((s.tile n.1).bytes 0 (s.areaBytes j))) s

/-- A tile takes a state area; the lane memory beyond it is not preserved. -/
def State.loadTile (s : State) (n : Nat) (area : List Byte) : State :=
  (s.setTile n ((s.tile n).put 0 area)).laneFree n area.length (laneBytes - area.length)

/-- The state area of the lap that starts is loaded: a model's state batons; a TRAIN job's save area, or accumulators of 0
at the start of a step. -/
def State.loadArea (s : State) (q : Squad) (l : Lap) : State :=
  if l.invoc = 0xFF then
    match s.job l.jobTag with
    | none => s
    | some j => q.tiles.zipIdx.foldl (fun s n =>
        let area := if j.lap.lapInStep = 0 then List.replicate (s.areaBytes j) 0
          else match s.saveAt j n.2 with
            | none => freeBytes s.tick (s.areaBytes j)
            | some a => s.nearRead a (s.areaBytes j)
        s.loadTile n.1 area) s
  else
    match (s.model l.invoc).map (fun m => (u32At m.record 4, u16At m.record 8)), s.job l.jobTag with
    | some (o, n), some j =>
      let area := match j.pins.find? (fun p => p.object == o), s.rl.dir.find o with
        | some p, some e => (match e.ver p.version with
            | none => []
            | some v => (List.range n).flatMap (fun b => (s.pinnedBaton p v j.snapshot b).2))
        | _, _ => []
      q.tiles.foldl (fun s t => s.loadTile t area) s
    | _, _ => s

/-- The state swap a lap begins with (R287): only a TRAIN job's area is written back. -/
def State.swapState (s : State) (squad : Nat) (ls : LapState) (l : Lap) : State :=
  match s.squadOf squad with
  | none => s
  | some q =>
    if !l.swap then s
    else
      let s1 := if ls.last = some 0xFF then
          (match s.job ls.lastTag with
          | none => s
          | some j => if j.kind = 0x20 then s.saveArea q j else s)
        else s
      s1.loadArea q l

end Sys2Proof.Machine
end

