-- ==== Sys2Proof/Machine/Laps.lean ====
section
/-! DEFINITION. TRAIN jobs and laps (R173, R174, R287, R300, R302 to R310): admission, the plan and start of a lap, its
hurdle, the update-ratio check, and the publish of the serving copy. -/

namespace Sys2Proof.Machine

/-! ## TRAIN at admission (R303) -/

/-- A region of a kind that the squad owns. -/
def State.ownsKind (s : State) (squad kind id : Nat) : Bool :=
  match s.region id with
  | none => false
  | some r => r.tier == 0 && r.kind == kind && r.owner == squad

/-- Fields of a TRAIN descriptor. -/
def State.trainChecks (s : State) (j : Job) : Bool :=
  zerosAt j.desc 40 24 && j.flags / 2 == 0 && j.target == 0 && j.resultLen == 0 && j.u8 100 ≤ 1 && j.u8 101 ≤ 3
  && j.u16 102 / 4 == 0 && j.u32 104 != 0 && 1 ≤ j.u16 108 && j.u16 108 ≤ 1024 && j.u16 110 != 0 && j.u8 124 ≤ 1
  && zerosAt j.desc 125 3 && zerosAt j.desc 176 80 && j.u64 168 != 0
  && s.ownsKind j.squad 2 (j.u16 144) && s.ownsKind j.squad 4 (j.u16 146)
  && s.objectsExist ([j.u32 148] ++ (if j.u32 152 = 0xFFFFFFFF then [] else [j.u32 152]))
  && (match s.squadOf j.squad with
      | none => false
      | some q => j.u16 158 < q.templates.length)
  && (j.u32 64 == 0 || ((match s.mm.namespaces.find (j.u32 64) with
        | none => false
        | some n => n.attached && n.holds (j.u64 72) (j.u64 80))
      && (match s.jobLayout j with
          | none => false
          | some y => s.formOk j y)))

/-- Admit a TRAIN job. -/
def State.admitTrain (s : State) (j : Job) : Option (Nat ⊕ State) :=
  if !s.trainChecks j then some (.inl stInvalidField)
  else match s.snapshotFor j with
    | none => some (.inl stInvalidField)
    | some snap =>
      if !s.objectsReady [j.u32 148] then none
      else some (.inr ((s.admitJob j.tag snap [j.u32 148]).onJob j.tag (fun j => { j with lap := { j.lap with
        step := j.u64 168, cursor := s.examplePos { j with snapshot := snap } 0 } })))

/-! ## Publishing the serving copy (R307) -/

/-- Start the copy of the current run_object version, pinned for it, to a new version of serve_object, in its near-tier
region. -/
def State.startServeCopy (s : State) (tag : Nat) : State :=
  match s.job tag with
  | none => s
  | some j =>
    let o := j.u32 152
    match s.rl.dir.find o, s.rl.dir.find (j.u32 148) with
    | some e, some r =>
      match s.region e.cur.region with
      | none => s
      | some g =>
        match s.allocNear g (footprint r.cur.batons) with
        | none => s
        | some a =>
          let p := s.takePin (j.u32 148)
          let c : Copy :=
            { object := o, cmd := none, publish := false, region := g.id, base := a, batons := r.cur.batons,
              version := e.cur.num + 1, snap := none, tag := tag, begun := s.pc.beat, pins := p.2 }
          { p.1 with rl := { p.1.rl with copies := p.1.rl.copies ++ [c] } }.onJob tag (fun j =>
            { j with lap := { j.lap with pubStep := j.lap.stepsDone, pubDue := false } })
    | _, _ => s

/-- A copy for this job is in progress. -/
def State.publishing (s : State) (tag : Nat) : Bool := s.rl.copies.any (fun c => c.cmd.isNone && c.tag == tag)

def Job.serves (j : Job) : Bool := j.u32 152 != 0xFFFFFFFF

/-- After a step: a publish that falls due starts, or waits for the one in progress. -/
def State.publishDue (s : State) (tag : Nat) : State :=
  match s.job tag with
  | none => s
  | some j =>
    if j.serves && j.u16 156 != 0 && j.lap.stepsDone % j.u16 156 == 0 then
      if s.publishing tag then s.onJob tag (fun j => { j with lap := { j.lap with pubDue := true } }) else s.startServeCopy tag
    else s

/-- The last publish of an ending job starts when a step took effect that none has published. -/
def State.lastPublish (s : State) (tag st : Nat) : State :=
  match s.job tag with
  | none => s
  | some j =>
    let s1 := if j.serves && j.lap.pubStep < j.lap.stepsDone && !s.publishing tag then s.startServeCopy tag else s
    if s1.publishing tag then s1 else s1.finishJob tag st

/-- A TRAIN job ends: after its last publish when a step of it took effect. -/
def State.endTrain (s : State) (tag st reason : Nat) : State :=
  (s.onJob tag (fun j => { j with state := .finishing, lap := { j.lap with reason := reason, final := st } })).lastPublish tag st

/-- The serving copy is complete (R307): the version of run_object it read, under the headers of its new object. -/
def State.serveCopied (s : State) (c : Copy) : State :=
  match s.job c.tag with
  | none => (s.releasePins c.pins).dropCopy c
  | some j =>
    if s.oldDrains c.object then s
    else
      let ver := s.nextVer c.object
      let bs := match c.pins.head?, c.pins.head?.bind (fun p => (s.rl.dir.find p.object).bind (fun e => e.ver p.version)) with
        | some p, some v => (List.range c.batons).map (fun b => s.pinnedBaton p v s.mm.epoch b)
        | _, _ => List.replicate c.batons ([], [])
      let bytes := objectBytes (bs.zipIdx.map (fun b =>
        (batonHeader c.object b.2 ver (sliceZ b.1.1 12 20) (sliceZ b.1.1 64 256) (padTo 65536 b.1.2), b.1.2)))
      let s1 := ((((s.releasePins c.pins).dropCopy c).nearWrite c.base bytes).setCurrent c.object
        (Version.fresh ver c.batons c.region (some c.base) .none) .resident).onJob c.tag (fun j =>
          { j with lap := { j.lap with serveVer := ver } })
      let s2 := s1.nextObj c.object
      if j.state = .finishing then s2.lastPublish c.tag j.lap.final
      else if j.lap.pubDue then s2.startServeCopy c.tag else s2

/-! ## Planning and starting a TRAIN lap (R302 to R304) -/

/-- Runnable TRAIN jobs of a squad, with or without FILLER. -/
def State.trainJobs (s : State) (squad : Nat) (filler : Bool) : List Job :=
  (s.jobsOf squad).filter (fun j => j.kind == 0x20 && j.state == .admitted && j.stop.isNone && bitN (j.u16 102) 0 == filler)

/-- The job of highest priority, the earlier-admitted among equals. -/
def topTrain (js : List Job) : Option Job :=
  js.foldl (fun b j => match b with
    | none => some j
    | some k => if k.u8 101 < j.u8 101 || (k.u8 101 == j.u8 101 && (j.admitBeat < k.admitBeat
        || (j.admitBeat == k.admitBeat && j.tag < k.tag))) then some j else some k) none

/-- At the start of a step JD pins the current version of run_object again (R306). -/
def State.repin (s : State) (j : Job) : State :=
  if j.lap.lapInStep = 0 then
    let r := (s.releasePins j.pins).takePins [j.u32 148]
    r.1.onJob j.tag (fun j => { j with pins := r.2 })
  else s

/-- The TRAIN job that runs next (R302): the highest priority without FILLER, else, where the squad takes filler, with it. -/
def State.pickTrain (s : State) (squad : Nat) (q : Squad) : Option Job :=
  match topTrain (s.trainJobs squad false) with
  | some j => some j
  | none => if bitN q.flags 0 then topTrain (s.trainJobs squad true) else none

/-- The next lap of a TRAIN squad takes it from another job that could run on (R302). -/
def State.preempts (s : State) (squad : Nat) (l : LapState) (j : Job) : Bool :=
  l.last.isSome && l.lastTag != j.tag && (match s.job l.lastTag with
    | none => false
    | some k => k.squad == squad && k.state == .admitted && k.stop.isNone && k.u8 101 < j.u8 101)

/-- Plan the next lap of a TRAIN squad, in place of one planned for a job that no longer ranks first; its length is the
planner's estimate, free between lap_min and lap_max. -/
def State.planTrain (s : State) (squad : Nat) (q : Squad) : State :=
  let l := s.lapsOf squad
  match s.pickTrain squad q with
  | none => s
  | some j =>
    if (l.planned.map Lap.jobTag) = some j.tag then s
    else
      let r := s.drawNat
      let upd := j.u16 108 ≤ j.lap.lapInStep
      let lap : Lap :=
        { num := (l.planned.map Lap.num).getD l.next, start := 0,
          planned := min 255 (max 1 (q.lapMin + r.1 % (q.lapMax - q.lapMin + 1))), invoc := 0xFF, decode := [],
          prefill := [], examples := if upd then 0 else s.lapExamples j, filler := none, recalls := 0, joins := 0,
          swap := l.last != some 0xFF || l.lastTag != j.tag, preempt := s.preempts squad l j, relayB := false, kvFree := 0,
          jobTag := j.tag, update := upd }
      (r.2.repin j).setLaps squad { l with planned := some lap, next := lap.num + 1 }

/-- Plan the squad's next lap when none is in flight (R293, R302): on a SERVE squad once, on a TRAIN squad anew while the
planned lap waits for its boundary. -/
def State.planLap (s : State) (squad : Nat) : State :=
  match s.squadOf squad with
  | none => s
  | some q =>
    if (s.lapsOf squad).flight.isSome || q.state ≠ .active then s
    else if q.func = 3 then (if s.lapBusy squad then s else s.planFirst squad q (s.modelTurn squad))
    else if q.func = 4 then s.planTrain squad q else s

/-- The planned lap is a lap of a FILLER job: it starts with filler grants only (R302, R369). -/
def State.fillerLap (s : State) (l : Lap) : Bool :=
  l.invoc == 0xFF && ((s.job l.jobTag).map (fun j => bitN (j.u16 102) 0)).getD false

/-- A lap that pre-empts is counted when it takes the squad (R302). -/
def State.countPreempt (s : State) (l : Lap) : State :=
  if l.preempt then { s with jd := { s.jd with preemptCnt := sat32 (s.jd.preemptCnt + 1), event := setEv s.jd.event 3 } } else s

/-- A granted lap starts at this boundary (R63, R287, R367, R369), with the state swap where the invocation changed. -/
def State.startLap (s : State) (squad : Nat) : State :=
  let l := s.lapsOf squad
  match l.planned with
  | none => s
  | some p =>
    let go := if s.fillerLap p then s.pc.fillerRun.contains (5, squad) else s.grantedNow squad p.num
    if go && s.workOn then
      ((s.swapState squad l p).countPreempt p).setLaps squad
        { l with planned := none, passed := false, flight := some { p with start := s.pc.beat }, last := some p.invoc, lastTag := p.jobTag }
    else s

/-! ## The hurdle (R173, R174, R300, R304, R306, R310) -/

/-- Stall beats: C cycles at 1.4 GHz over beats of the measured period. -/
def stallBeats (cycles periodNs : Nat) : Nat := ceilDiv (10 * cycles) (14 * max 1 periodNs)

/-- A split record as eight words (R310). -/
def splitWords (squad leaves late ovr : Nat) (l : Lap) (actual stall filler : Nat) : List W32 :=
  let flags := late + 2 * ovr + 4 * b2n l.swap + 8 * b2n l.preempt + 16 * b2n l.relayB
  let b := leBytes l.num 4 ++ leBytes l.start 4 ++ leBytes squad 1 ++ leBytes l.invoc 1 ++ leBytes l.planned 2 ++ leBytes actual 2
    ++ leBytes stall 2 ++ leBytes l.decode.length 2
    ++ leBytes (if l.invoc = 0xFF then l.examples else chunkTokens l.prefill) 2 ++ leBytes filler 2 ++ leBytes l.recalls 1
    ++ leBytes l.joins 1 ++ leBytes leaves 1 ++ leBytes flags 1 ++ leBytes 0 2 ++ leBytes l.kvFree 4
  (List.range 8).map (fun i => BitVec.ofNat 32 (u32At b (4 * i)))

/-- The address field of a lap record (R174). -/
def lapAddr (num squad actual planned : Nat) : W64 :=
  BitVec.ofNat 64 (num % 2 ^ 16 + squad * 2 ^ 16 + actual % 2 ^ 16 * 2 ^ 24 + planned % 2 ^ 16 * 2 ^ 40)

/-- RELAY_LATE or LAP_OVERRUN of a lap: 0 none, 1 late, 2 overrun (R174). -/
def overrunKind (actual planned allow stall : Nat) : Nat :=
  let o := actual - planned
  if o ≤ allow then 0 else if o ≤ stall then 1 else 2

/-- Post the record of an overrun and mark the model, or the indexes of the squad, that the lap served (R174, R300). -/
def State.lapLate (s : State) (squad : Nat) (l : Lap) (kind actual stall : Nat) : State :=
  let src := srcTile (s.lowTile squad)
  let addr := lapAddr l.num squad actual l.planned
  match kind with
  | 1 =>
    let s1 := s.postCorr src kRelayLate addr (BitVec.ofNat 32 stall) (BitVec.ofNat 32 l.jobTag) 0 0
    let s2 : State := { s1 with rl := { s1.rl with event := setEv s1.rl.event 0, lateCnt := sat16 (s1.rl.lateCnt + 1) } }
    if l.invoc = 0xFF then { s2 with idx := s2.idx.mapVals (fun _ x => if x.squad = squad then { x with bound := true } else x) }
    else
      { s2 with jd := { s2.jd with event := setEv s2.jd.event 1 } }.onModel l.invoc (fun m =>
        { m with bound := true, cap := max 1 (3 * l.decode.length / 4), clean := 0 })
  | 2 =>
    let s1 := s.postCorr src kLapOverrun addr (BitVec.ofNat 32 stall) (BitVec.ofNat 32 l.jobTag) 0 0
    { s1 with rl := { s1.rl with overCnt := sat16 (s1.rl.overCnt + 1) } }.onModel l.invoc (fun m => { m with clean := m.clean + 1 })
  | _ => s.onModel l.invoc (fun m => { m with clean := m.clean + 1 })

/-- A lap of a TRAIN job has run: an update lap's step takes effect, and an accumulation lap's examples are used. A cancelled
job's step is discarded, and a job that only publishes takes no step more. -/
def State.trainLap (s : State) (j : Job) (l : Lap) (h : HurdleInfo) : State :=
  if j.stop == some 3 then s
  else if l.update then (s.stepEffect j h.loss).publishDue j.tag
  else
    let pend := s.nextExample j l.examples
    s.onJob j.tag (fun j => { j with lap := { j.lap with lapInStep := j.lap.lapInStep + 1, pend := pend } })

/-- What a TRAIN lap's end does (R304, R306 to R308). -/
def State.trainHurdle (s : State) (squad : Nat) (l : Lap) (h : HurdleInfo) : State :=
  match (s.job l.jobTag).filter (fun j => j.state != .finishing) with
  | none => if l.update then s.stepClose squad else s
  | some j =>
    let short := !l.update && l.examples < j.u16 110
    let s1 := s.trainLap j l h
    let s2 := if l.update then s1.stepClose squad else s1
    match s2.job j.tag with
    | none => s2
    | some j2 =>
      match j2.stop with
      | some 2 => s2.endTrain j.tag (s2.drainStatus squad) 2
      | some 3 => s2.endTrain j.tag stAbortRequested 3
      | some _ => s2
      | none =>
        if j.u32 104 ≤ j2.lap.stepsDone then s2.endTrain j.tag stOk 0
        else if short || s2.dataOut j2 then s2.endTrain j.tag stOk 1
        else s2

/-- Tiles of a squad leave the lap hurdle with every semaphore 0 (R63). -/
def State.clearHurdle (s : State) (squad : Nat) : State :=
  match s.squadOf squad with
  | none => s
  | some q => { s with tiles := s.tiles.mapVals (fun n t => if q.tiles.contains n then
      { t with sems := List.replicate 16 0 } else t) }

/-- The lap of a squad ends at its hurdle. -/
def State.lapEnds (s : State) (squad : Nat) (q : Squad) (l : Lap) (h : HurdleInfo) : State :=
  let ls := s.lapsOf squad
  let actual := s.pc.beat + 1 - l.start
  let stall := stallBeats h.stallCycles s.pc.periodNs
  let before := (s.batch l.invoc).map Prod.fst
  let s1 := (s.setLaps squad { ls with flight := none, passed := true }).clearHurdle squad
  let s2 := if l.invoc = 0xFF then s1.trainHurdle squad l h else (s1.serveHurdle squad l h).stepClose squad
  let after := (s2.batch l.invoc).map Prod.fst
  let leaves := (before.filter (fun i => !after.contains i)).length
  let kind := overrunKind actual l.planned q.overrun stall
  let s3 := s2.lapLate squad l kind actual stall
  let w := splitWords squad leaves (b2n (kind == 1)) (b2n (kind == 2)) l actual stall (l.fillerToks h)
  ((s3.setLaps squad { s3.lapsOf squad with split := (w :: ls.split).take 256 }).planLap squad).noteQuiet false squad

/-! ## Meanings -/

/-- Every tile of a squad has reached the lap's hurdle: its HURDLE of kind LAP issued, and no op is in flight (R63). -/
def State.atHurdle (s : State) (q : Squad) : Bool :=
  q.tiles.all (fun n => (s.tile n).flight.isEmpty && (s.tile n).hurdle)

/-- The update lap of a TRAIN job ends once its two passes are over (R128, R306): the monitor has acted, and the new version of
run_object has its place. The lap of a job that takes no step does not wait. -/
def State.mayEndLap (s : State) (l : Lap) : Bool :=
  match s.job l.jobTag with
  | none => true
  | some j => !l.update || j.state == .finishing || j.stop == some 3 || s.mayStep j

/-- An EMBED extent of the squad is in work (R116). -/
def State.embeds (s : State) (squad : Nat) : Bool :=
  (s.jobsOf squad).any (fun j => j.kind == 2 && j.admitted && !j.scan.issued.isEmpty)

/-- A lap hurdle on a squad whose work no planner divides into laps: for EMBED work it ends a step. -/
def State.passHurdle (s : State) (squad : Nat) : State :=
  let s1 := (s.setLaps squad { s.lapsOf squad with passed := true }).clearHurdle squad
  (if s.embeds squad then s1.stepClose squad else s1).noteQuiet false squad

/-- LAP_HURDLE (R63, R116, R173, R174, R290 to R310): a squad's lap ends, or, on a squad that runs no laps of a planner, the
batch its op lists ended with a lap hurdle: for EMBED work that is a step. -/
def execLapHurdle (squad : Nat) (h : HurdleInfo) (s : State) : Host.Outcome State Fault Refusal :=
  done (if !s.inGo then s
    else match s.squadOf squad with
      | none => s
      | some q =>
        if !s.atHurdle q then s
        else match (s.lapsOf squad).flight with
          | some l => if s.mayEndLap l then s.lapEnds squad q l h else s
          | none => if (s.lapsOf squad).passed then s else s.passHurdle squad)

/-- UPDATE_RATIO_CHECK (R128 to R130, R133): pass 1 of an update lap is over, with the layers it met. -/
def execUpdateRatioCheck (tag : Nat) (layers : List LayerSpan) (s : State) : Host.Outcome State Fault Refusal :=
  done (match s.job tag with
    | none => s
    | some j =>
      match (s.lapsOf j.squad).flight with
      | none => s
      | some l =>
        if !s.inGo || l.jobTag != tag || !l.update || j.lap.pass1 || j.state != .admitted then s
        else
          let r := ({ s with tick := s.tick + 2 * layers.length }.takeUwr j.squad).ratioCheck j.squad (s.pass1Sums j layers)
          if r.2.2 then r.1.endTrain tag stJobAborted 7
          else r.1.onJob tag (fun j => { j with lap := { j.lap with
            pass1 := true, layers := layers, holds := r.2.1, held := j.lap.held + r.2.1.length } }))

/-- PLACE_COPY_DONE (R159, R163, R169, R307): a promotion, a placement, or the serving copy of a TRAIN job. -/
def execPlaceCopyDone (object : Nat) (r : CopyResult) (s : State) : Host.Outcome State Fault Refusal :=
  done (if !s.relayRuns then s
    else match s.rl.copies.find? (fun c => c.object == object && !c.publish) with
      | some c =>
        (match c.cmd with
        | some k => s.placed c k r
        | none => s.serveCopied c)
      | none =>
        (match s.rl.dir.find object with
        | some e => if e.state = .promoting then s.promoted object e r else s
        | none => s))

end Sys2Proof.Machine
end

