-- ==== Sys2Proof/Machine/Search.lean ====
section
/-! DEFINITION. SEARCH and MERGE (R257 to R268, R276 to R280): admission and contexts, the probe plan, collection, and
result blocks. -/

namespace Sys2Proof.Machine

/-! ## Predicate terms (R259) -/

/-- A term of 24 bytes is as R259 says; `top` is the number of attribute bits. -/
def termValid (t : List Byte) (top : Nat) : Bool :=
  1 ≤ byteAt t 1 && byteAt t 1 ≤ 64 && byteAt t 0 + byteAt t 1 ≤ top && 1 ≤ byteAt t 2 && byteAt t 2 ≤ 9
  && byteAt t 3 / 4 == 0 && zerosAt t 4 4 && (byteAt t 2 == 7 || u64At t 16 == 0)

/-- A term on an attribute word. -/
def termTrue (t : List Byte) (attr : Nat) : Bool :=
  let w := byteAt t 1
  let sgn := bitN (byteAt t 3) 0
  let x := attr / 2 ^ byteAt t 0 % 2 ^ w
  let v : Int := if sgn then signedN w x else x
  let a : Int := if sgn then signedN 64 (u64At t 8) else u64At t 8
  let b : Int := if sgn then signedN 64 (u64At t 16) else u64At t 16
  let r := match byteAt t 2 with
    | 1 => v == a
    | 2 => v != a
    | 3 => v < a
    | 4 => v ≤ a
    | 5 => a < v
    | 6 => a ≤ v
    | 7 => a ≤ v && v ≤ b
    | 8 => wrapZ 64 v &&& u64At t 8 != 0
    | _ => wrapZ 64 v &&& u64At t 8 == u64At t 8
  r != bitN (byteAt t 3) 1

/-- Terms of a SEARCH. -/
def Job.terms (j : Job) : List (List Byte) := (List.range (j.u8 88)).map (fun i => sliceZ j.desc (96 + 24 * i) 24)

/-! ## Result blocks (R276, R277) -/

def strideOf (fmt k : Nat) : Nat := if fmt = 2 then 64 + 16 * k else 32 + 16 * k

/-- A result entry. -/
structure ResEntry where
  id   : Nat
  dist : Nat
  list : Nat
  side : Bool
  cut  : Bool                  -- LIST_CUT: the list number is not known
  deriving DecidableEq, Repr

def entryBytes (fmt : Nat) (e : ResEntry) : List Byte :=
  if fmt = 2 then leBytes e.id 8 ++ leBytes e.dist 2 ++ leBytes e.list 3 ++ leBytes (b2n e.side + 2 * b2n e.cut) 1 ++ leBytes 0 2
  else
    let cut := e.cut || (!e.side && 65534 < e.list)
    leBytes e.id 8 ++ leBytes e.dist 2 ++ leBytes (if e.side || cut then 0xFFFF else e.list) 2
      ++ leBytes (b2n e.side + 2 * b2n cut) 1 ++ leBytes 0 3

/-- Fields of a block's header. -/
structure BlockHead where
  k       : Nat
  query   : Nat
  attempt : Nat
  bits    : Nat
  epoch   : Nat
  hostTag : Nat
  seen    : Nat
  probed  : Nat
  source  : Nat
  gen     : Nat
  merged  : Bool

/-- A result block in a format. -/
def blockBytes (fmt : Nat) (h : BlockHead) (es : List ResEntry) : List Byte :=
  let head := leBytes 0x4B4C4252 4 ++ leBytes fmt 2 ++ leBytes (b2n (es.length < h.k) + 2 * b2n h.merged) 2 ++ leBytes es.length 2
    ++ leBytes h.k 2 ++ leBytes h.query 1 ++ leBytes h.attempt 1 ++ leBytes h.bits 2
  let rest := if fmt = 2 then
      leBytes h.epoch 8 ++ leBytes h.hostTag 8 ++ leBytes h.seen 8 ++ leBytes h.probed 2 ++ leBytes 0 2 ++ leBytes h.source 4
        ++ leBytes h.gen 8 ++ leBytes 0 8
    else leBytes h.seen 8 ++ leBytes h.hostTag 8
  padTo (strideOf fmt h.k) (head ++ rest ++ es.flatMap (entryBytes fmt))

/-- Result format in force (R276). -/
def State.resultFmt (s : State) : Nat := s.qe.versions.result

/-- The k entries of smallest distance in ascending distance; the order among equals, and the choice at the cut, are free
(R278). -/
def nearestK {α : Type} (tick k : Nat) (dist : α → Nat) (es : List α) : List α :=
  let le (a b : α × Nat) : Bool :=
    dist a.1 < dist b.1 || (dist a.1 == dist b.1 && Config.freeNat (tick + a.2) ≤ Config.freeNat (tick + b.2))
  ((es.zipIdx.mergeSort le).map Prod.fst).take k

/-! ## SEARCH at admission (R258 to R261, R268) -/

def Job.bits (j : Job) : Nat := u16At j.desc 76
def Job.queries (j : Job) : Nat := byteAt j.desc 70

/-- Contexts a tile may use: 32, or 8 in BLOCKS. -/
def State.ctxCap (s : State) : Nat := if s.mc.phase = .blocks then 8 else 32

/-- FREE contexts of a tile. -/
def State.freeCtx (s : State) (n : Nat) : List Nat :=
  let used := (s.tile n).ctxs.keys
  ((List.range 32).filter (fun i => !used.contains i)).take (s.ctxCap - used.length)

/-- Tiles of a squad, most FREE contexts first and the lower tile id among equals. -/
def State.tilesByFree (s : State) (q : Squad) : List Nat :=
  q.tiles.mergeSort (fun a b => (s.freeCtx b).length < (s.freeCtx a).length
    || ((s.freeCtx a).length == (s.freeCtx b).length && a ≤ b))

/-- How a SEARCH's queries spread over tiles: one tile, or a pair with the larger half first. -/
def searchSplit (queries cap : Nat) : List Nat :=
  if queries ≤ cap then [queries] else [(queries + 1) / 2, queries / 2]

/-- Tiles and contexts for a SEARCH: (query, tile, context); none when they are not free. -/
def State.pickContexts (s : State) (j : Job) (q : Squad) : Option (List (Nat × Nat × Nat)) :=
  let parts := searchSplit j.queries s.ctxCap
  let ts := (s.tilesByFree q).take parts.length
  let got := (ts.zip parts).map (fun x => ((s.freeCtx x.1).take x.2).map (fun c => (x.1, c)))
  if ts.length = parts.length ∧ (got.zip parts).all (fun x => x.1.length == x.2) then
    some (got.flatten.zipIdx.map (fun x => (x.2, x.1.1, x.1.2)))
  else none

/-- Fields of a SEARCH descriptor that do not depend on the index. -/
def searchForm (j : Job) : Bool :=
  1 ≤ j.queries && j.queries ≤ 64 && j.u8 71 / 2 == 0 && 1 ≤ j.u16 72 && j.u16 72 ≤ 1024 && 1 ≤ j.u16 74 && j.u16 74 ≤ 4096
  && j.u8 88 ≤ (if j.u8 1 = 2 then 4 else 6) && zerosAt j.desc 89 7 && zerosAt j.desc 240 16 && j.target != 2

/-- Checks of a SEARCH against its index. -/
def State.searchChecks (s : State) (j : Job) (q : Squad) (x : Index) : Bool :=
  j.bits == sbBits x.super && j.u16 74 ≤ sbLists x.super
  && j.terms.all (fun t => termValid t (if sbFormat x.super = 3 then 32 else 64))
  && (j.u8 88 == 0 || sbAttrs x.super)
  && j.queries * strideOf s.resultFmt (j.u16 72) ≤ j.resultLen
  && (searchSplit j.queries s.ctxCap).length ≤ q.tiles.length && j.queries ≤ 2 * s.ctxCap
  && s.objectsExist (sbObjects x.super)

/-- An object's current version is RESIDENT. -/
def State.isResident (s : State) (o : Nat) : Bool :=
  match s.rl.dir.find o with
  | none => false
  | some e => e.state == .resident

/-- R268: in BLOCKS a SEARCH that does not meet its conditions completes with NOT_READY_BLOCKS. -/
def State.blocksSearchOk (s : State) (j : Job) : Bool :=
  match s.squadOf j.squad, s.idx.find (j.u32 64) with
  | some q, some x =>
    bitN q.flags 1 && q.tiles.all (fun n => (s.tile n).swept) && s.ntAll && x.squad == j.squad && x.region == j.u16 68
    && s.isResident (sbCode x.super) && (j.u8 88 == 0 || s.isResident (sbAttr x.super)) && j.queries ≤ 16
  | _, _ => false

/-- A fresh context `i` for query `q` (R73, R262). -/
def mkCtx (j : Job) (snap q i : Nat) : Ctx :=
  { state := 3, exhausted := false, k := j.u16 72, tag := j.tag, epoch := snap, queryAddr := queryAddrOf i, bits := j.bits,
    qindex := q, probeAddr := probeAddrOf i, count := 0, next := 0, heapAddr := heapAddrOf i, held := 0, worst := 0, seen := 0,
    pred := if j.terms.isEmpty then 0xFFFF else i, maxDist := j.u16 78, left := [], wants := none }

/-- Give a query its context: the entry, its code and its predicate slot in lane memory. -/
def State.giveCtx (s : State) (j : Job) (snap : Nat) (x : Nat × Nat × Nat) : State :=
  let t := { s.tile x.2.1 with ctxs := (s.tile x.2.1).ctxs.put x.2.2 (mkCtx j snap x.1 x.2.2) }
  let t1 := t.put (queryAddrOf x.2.2) (padTo 128 (padTo (j.bits / 8) (j.lists.getD x.1 [])))
  s.setTile x.2.1 (if j.terms.isEmpty then t1 else t1.put (predAddrOf x.2.2) (padTo 256 j.terms.flatten))

/-- Admit a SEARCH whose contexts are free: a status, or none while it waits, or the state with it admitted. -/
def State.admitSearch (s : State) (j : Job) : Option (Nat ⊕ State) :=
  match s.squadOf j.squad with
  | none => none
  | some q =>
    if !(s.commonOk j && searchForm j) then some (.inl stInvalidField)
    else match s.attachIndex j.squad (j.u32 64) (j.u16 68) with
      | .inl st => some (.inl st)
      | .inr s1 =>
        match s1.idx.find (j.u32 64) with
        | none => none
        | some x =>
          if !s1.searchChecks j q x then some (.inl stInvalidField)
          else match s1.snapshotFor j with
            | none => some (.inl stInvalidField)
            | some snap =>
              let objs := sbObjects x.super ++ x.live.vals.map Segment.object
              if !s1.objectsReady objs || (j.u8 88 != 0 && !s1.isResident (sbAttr x.super)) then none
              else match s1.pickContexts j q with
                | none => none
                | some cs =>
                  let s2 := cs.foldl (fun s c => s.giveCtx j snap c) (s1.admitJob j.tag snap objs)
                  some (.inr (s2.onJob j.tag (fun j => { j with search := { j.search with
                    ctxs := cs, base := trimZ x.super, lists := x.lists, fmt := s2.resultFmt, tab := (x.tab, tableRoom x.super) } })))

/-! ## The probe plan (R264) -/

/-- Distance between two codes. -/
def hamming (a b : List Byte) (bits : Nat) : Nat :=
  ((List.range (bits / 8)).map (fun i =>
    ((List.range 8).filter (fun k => ((a.getD i 0) ^^^ (b.getD i 0)).getLsbD k)).length)).sum

/-- Code `n` of a latch payload (R98). -/
def codeAt (bits : Nat) (payload : Nat → Byte) (n : Nat) : List Byte :=
  let base := n / 64 * (8 * bits)
  (List.range (bits / 8)).map (fun i =>
    let sl := i / 16
    let w := if 128 * sl + 128 ≤ bits then 16 else 8
    payload (base + 1024 * sl + n % 64 * w + i % 16))

/-- The code of a centroid as the job's pin reads it. -/
def State.centroid (s : State) (j : Job) (o list : Nat) : List Byte :=
  let bits := j.bits
  let k := list / codesPer bits
  match j.pins.find? (fun p => p.object == o) with
  | none => []
  | some p =>
    let b := ((s.rl.dir.find o).bind (fun e => e.ver p.version)).map Version.batons
    codeAt bits (fun i => (s.pinnedBytes p j.snapshot k (payloadOff (b.getD 1) k + i) 1).getD 0 0) (list % codesPer bits)

/-- Blocks of a planned list: each code baton of its run, with the codes in it (R250). -/
def listBlocks (bits : Nat) (e : Nat × Nat × Nat) : List (Nat × Nat) :=
  (List.range e.2.1).map (fun i => (e.1 + i, min (codesPer bits) (e.2.2 - i * codesPer bits)))

/-- Sealed segments a job pinned. -/
def Job.segments (j : Job) (x : Index) : List (Nat × Segment) :=
  x.segments.filter (fun g => j.pins.any (fun p => p.object == g.2.object))

/-- The plan of one query: the nearest lists, in ascending distance (R264). -/
def State.planLists (s : State) (j : Job) (tick : Nat) (query : List Byte) : List Nat :=
  let ds := (List.range j.search.lists.length).map (fun l => (l, hamming (s.centroid j (sbCentroid j.search.base) l) query j.bits))
  (nearestK tick (j.u16 74) Prod.snd ds).map Prod.fst

/-- The context of a planned query, with the blocks it compares (R264, R266). -/
def Ctx.planned (c : Ctx) (j : Job) (x : Index) (plan : List Nat) : Ctx :=
  let side := if bitN (j.u8 71) 0 then [] else (j.segments x).map (fun g => (2 ^ 24 + g.1, g.2.items.length))
  let blocks := plan.flatMap (fun l => listBlocks j.bits (j.search.lists.getD l (0, 0, 0)))
  let left : KMap Nat := ((blocks ++ side).filter (fun b => b.2 != 0)).foldl (fun m b => m.put b.1 b.2) []
  { c with count := plan.length, left := left, exhausted := left.isEmpty, state := if left.isEmpty then 4 else 1 }

/-- Plan the query of context `i` of tile `n`: its probe list goes to lane memory. -/
def State.planQuery (s : State) (j : Job) (x : Index) (n i : Nat) (c : Ctx) : State :=
  let t := s.tile n
  let plan := s.planLists j s.tick (t.bytes c.queryAddr (j.bits / 8))
  { s with tick := s.tick + j.search.lists.length }.setTile n
    ({ t with ctxs := t.ctxs.put i (c.planned j x plan) }.put c.probeAddr (plan.flatMap (fun l => leBytes l 4))).switch

/-- A granted SEARCH starts: every query's plan is made (R264, R367). -/
def State.startSearch (s : State) (tag : Nat) : State :=
  match s.job tag with
  | none => s
  | some j =>
    match s.idx.find (j.u32 64) with
    | none => s
    | some x =>
      if j.search.started || j.state != .admitted then s
      else
        let s1 := j.search.ctxs.foldl (fun s y =>
          match (s.tile y.2.1).ctxs.find y.2.2 with
          | none => s
          | some c => s.planQuery j x y.2.1 y.2.2 c) s
        s1.onJob tag (fun j => { j with search := { j.search with started := true } })

/-! ## Collection (R266) -/

/-- The id a locator names: from the id object, or from the item table of a pinned segment (R254, R266). -/
def State.idOfLocator (s : State) (j : Job) (loc : Nat) : Nat :=
  if 2 ^ 63 ≤ loc then
    match (s.idx.find (j.u32 64)).bind (fun x => x.segments.find (bitsN loc 39 16)) with
    | none => 0xFFFFFFFFFFFFFFFF
    | some g => u64At (s.nearRead (g.addr + footprint 1 + 32 * (loc % 65536)) 8) 0
  else
    match j.pins.find? (fun p => p.object == sbId j.search.base) with
    | none => 0xFFFFFFFFFFFFFFFF
    | some p =>
      let b := ((s.rl.dir.find p.object).bind (fun e => e.ver p.version)).map Version.batons
      let k := bitsN loc 39 16
      u64At (s.pinnedBytes p j.snapshot k (payloadOff (b.getD 1) k + 8 * (loc % 65536)) 8) 0

/-- Collect a DONE context: write the query's block and free the context; the job, and the squad's step
(R116), ends with its last block. -/
def State.collect (s : State) (j : Job) (x : Nat × Nat × Nat) (c : Ctx) : State :=
  let t := s.tile x.2.1
  let es := (nearestK s.tick c.k HeapEntry.dist (t.heap c)).map (fun h =>
    ({ id := s.idOfLocator j h.loc, dist := h.dist, list := h.list, side := h.side, cut := false } : ResEntry))
  let head : BlockHead :=
    { k := c.k, query := x.1, attempt := j.attempt, bits := j.bits, epoch := j.snapshot, hostTag := j.u64 8, seen := c.seen,
      probed := c.count, source := leAt s.se.identity 0 4, gen := sbGen j.search.base, merged := false }
  let s1 := { s with tick := s.tick + c.held }.writeResult j (x.1 * strideOf j.search.fmt c.k) (blockBytes j.search.fmt head es)
  let s2 := (s1.setTile x.2.1 (t.freeCtx x.2.2)).onJob j.tag (fun j => { j with search := { j.search with
    ctxs := j.search.ctxs.filter (fun y => !(y == x)), done := j.search.done + 1 } })
  if j.search.ctxs.length = 1 then (s2.stepClose j.squad).finishJob j.tag stOk else s2

/-! ## MERGE (R279, R280) -/

/-- Where a MERGE source's blocks lie: bytes [o, o + n). -/
def State.sourceBytes (s : State) (src : List Byte) (o n : Nat) : List Byte :=
  if byteAt src 0 = 0 then sliceZ src (16 + o) n
  else s.nearRead (s.regionBase (u16At src 2) + u64At src 8 + o) n

/-- A source entry is well formed: kind HOST, or NEAR in a RESULTS region. -/
def State.sourceOk (s : State) (src : List Byte) : Bool :=
  byteAt src 1 == 0 && zerosAt src 4 4 && (byteAt src 0 == 0 || (byteAt src 0 == 1
    && (match s.region (u16At src 2) with
        | none => false
        | some r => r.kind == 5)))

/-- A source's block for query `q`: its header bytes, entries and checks. -/
def State.sourceBlock (s : State) (src : List Byte) (q bits : Nat) : Option (List ResEntry) :=
  let h0 := s.sourceBytes src 0 16
  let st := strideOf (u16At h0 4) (u16At h0 10)
  let b := s.sourceBytes src (q * st) st
  let f := u16At b 4
  if u32At b 0 ≠ 0x4B4C4252 ∨ (f ≠ 1 ∧ f ≠ 2) ∨ byteAt b 12 ≠ q ∨ u16At b 14 ≠ bits then none
  else some ((List.range (u16At b 8)).map (fun i =>
    let o := (if f = 2 then 64 else 32) + 16 * i
    let fl := byteAt b (o + (if f = 2 then 13 else 12))
    let side := bitN fl 0
    let l := if f = 2 then leAt b (o + 10) 3 else u16At b (o + 10)
    { id := u64At b o, dist := u16At b (o + 8), list := if f = 1 ∧ side then 0xFFFFFF else l, side := side, cut := bitN fl 1 }))

/-- Keep one entry of smallest distance for each id. -/
def dedupIds (es : List ResEntry) : List ResEntry :=
  es.foldl (fun acc e => if acc.any (fun a => a.id == e.id) then acc else acc ++ [e]) []

/-- Every source's entries for a query, or none when a block fails its checks. -/
def State.mergeEntries (s : State) (srcs : List (List Byte)) (q bits : Nat) : Option (List ResEntry) :=
  srcs.foldl (fun r src => r.bind (fun es => (s.sourceBlock src q bits).map (fun b => es ++ b))) (some [])

/-- Write the merged block of each query. -/
def State.mergeQuery (s : State) (j : Job) (bits q : Nat) (es : List ResEntry) : State :=
  let k := j.u16 66
  let all := nearestK s.tick es.length ResEntry.dist es
  let keep := (if bitN (j.u8 69) 0 then dedupIds all else all).take k
  let free (i : Nat) : Nat := (Config.freeBits (s.tick + es.length + i)).toNat
  let head : BlockHead :=
    { k := k, query := q, attempt := j.attempt, bits := bits, epoch := 0, hostTag := j.u64 8, seen := free 0,
      probed := free 1, source := 0, gen := free 2, merged := true }
  ({ s with tick := s.tick + es.length + 3 }.writeResult j (q * strideOf s.resultFmt k) (blockBytes s.resultFmt head keep)).onJob
    j.tag (fun j => { j with search := { j.search with done := j.search.done + 1 } })

/-- Fields of a MERGE. -/
def State.mergeForm (s : State) (j : Job) : Bool :=
  s.commonOk j && j.target != 2 && 2 ≤ j.u16 64 && j.u16 64 ≤ 64 && 1 ≤ j.u16 66 && j.u16 66 ≤ 1024 && 1 ≤ j.u8 68 && j.u8 68 ≤ 64
  && j.u8 69 / 2 == 0 && zerosAt j.desc 70 2 && zerosAt j.desc 80 176 && j.lists.length == j.u16 64 && j.lists.all s.sourceOk
  && j.u8 68 * strideOf s.resultFmt (j.u16 66) ≤ j.resultLen

/-- Run a MERGE. -/
def State.runMerge (s : State) (j : Job) : State :=
  let bits := u16At (s.sourceBytes (j.lists.headD []) 0 16) 14
  let qs := (List.range (j.u8 68)).map (fun q => (q, s.mergeEntries j.lists q bits))
  if qs.any (fun q => q.2.isNone) then s.stopJob j.tag 0 stInvalidField
  else (qs.foldl (fun s q => s.mergeQuery j bits q.1 (q.2.getD [])) s).finishJob j.tag stOk

end Sys2Proof.Machine
end

