-- ==== Sys2Proof/Machine/Stop.lean ====
section
/-! DEFINITION. What stops jobs: a drain (R47, R48), a forced abort (R50), a contained fault and a fence (R406 to R409), a
fatal fault (R411, R412), and what a squad holds while it stops. -/

namespace Sys2Proof.Machine

/-! ## COMMITs that a stop meets (R281, R412) -/

/-- The COMMIT's record is on the medium. -/
def State.commitStands (s : State) (tag : Nat) : Bool :=
  s.idx.any (fun e => match e.2.commit with
    | none => false
    | some k => k.tag == tag && k.medium.isSome)

/-- A COMMIT leaves its index's line with no effect; its changes stay pending. -/
def State.dropCommit (s : State) (tag : Nat) : State :=
  { s with idx := s.idx.mapVals (fun _ x => { x with
      commit := x.commit.filter (fun k => k.tag != tag), waiting := x.waiting.filter (fun t => t != tag) }) }

/-- A stop reaches a COMMIT: JD finishes it when its record is on the medium; otherwise it ends with no effect. -/
def State.stopCommit (s : State) (tag code st : Nat) : State :=
  if s.commitStands tag then s.onJob tag (fun j => { j with stop := some (j.stop.getD code) })
  else (s.dropCommit tag).stopJob tag code st

/-! ## Laps that a stop meets -/

/-- A lap that was planned and has not started does not start. -/
def State.cancelPlanned (s : State) (squad : Nat) : State :=
  s.setLaps squad { s.lapsOf squad with planned := none }

/-- Sequences a lap carries. -/
def Lap.carries (l : Lap) : List Nat := l.decode ++ l.prefill.map Prod.fst ++ (l.filler.toList).map Prod.fst

/-- Jobs of a squad's lap in flight (R406). -/
def State.lapTags (s : State) (squad : Nat) : List Nat :=
  match (s.lapsOf squad).flight with
  | none => []
  | some l => if l.invoc = 0xFF then [l.jobTag] else l.carries.filterMap (fun id => (s.seq id).bind Sequence.append)

/-- The sequence of a SERVE_APPEND is carried by the lap in flight. -/
def State.carried (s : State) (squad id : Nat) : Bool :=
  match (s.lapsOf squad).flight with
  | none => false
  | some l => l.carries.contains id

/-! ## Drain (R47) -/

/-- A drain, or a fence that a job's fault did not touch, reaches an admitted job (code 2). -/
def State.drainJob (s : State) (j : Job) : State :=
  match j.kind with
  | 1 => s.stopScan j.tag 2
  | 2 => s.stopScan j.tag 2
  | 6 => s.stopCommit j.tag 2 (s.drainStatus j.squad)
  | 0x11 => s.onJob j.tag (fun j => { j with stop := some (j.stop.getD 2) })
  | 0x20 =>
    let s1 := s.onJob j.tag (fun j => { j with stop := some (j.stop.getD 2) })
    if (s.lapTags j.squad).contains j.tag || j.state == .finishing then s1 else s1.endTrain j.tag (s.drainStatus j.squad) 2
  | _ => s

/-- A squad starts to drain, or its untouched jobs stop under a fence. -/
def State.drainJobs (s : State) (squad : Nat) : State :=
  let s1 := (s.jobsOf squad).foldl (fun s j => if j.admitted then s.drainJob j else s) ((s.cancelPlanned squad).unquiet squad)
  if (s1.lapsOf squad).flight.isSome then s1 else s1.hurdleEnds squad

/-- Jobs of a squad that were never admitted, or wait to restart, end with a status (R42, R246, R409). -/
def State.endQueued (s : State) (squad st : Nat) : State :=
  (s.jobsOf squad).foldl (fun s j => if j.admitted then s else s.stopJob j.tag 2 st) s

/-! ## Abort (R50, R308, R411) -/

/-- Copies a job started go with it. -/
def State.dropCopies (s : State) (tag : Nat) : State :=
  { s with rl := { s.rl with copies := s.rl.copies.filter (fun c => !(c.cmd.isNone && c.tag == tag)) } }

/-- An admitted job ends with JOB_ABORTED_FAULT; `fatal`: its sequence stays open, recalled if a lap carried it. -/
def State.abortJob (s : State) (fatal : Bool) (j : Job) : State :=
  match j.kind with
  | 6 => s.stopCommit j.tag 4 stJobAborted
  | 0x11 =>
    let id := j.u32 64
    if fatal then
      let s1 := if s.carried j.squad id then s.recall id else s
      s1.cutAppend id 4 stJobAborted 0
    else s.closeCut id 4 stJobAborted 0
  | 0x12 => s.closeSeq (j.u32 64)
  | _ => (s.dropCopies j.tag).stopJob j.tag 4 stJobAborted

/-- Tiles of a squad lose what they ran: lane memory, latches, contexts, semaphores and credits (R50). -/
def State.discardTiles (s : State) (squad : Nat) : State :=
  match s.squadOf squad with
  | none => s
  | some q => { s with tiles := s.tiles.mapVals (fun n t => if q.tiles.contains n then
      { t.sweep with swept := t.swept, halted := t.halted } else t) }

/-- A forced abort of a squad (R50): its admitted jobs end, its lap stops, its sequences close unless the stop is a fatal
fault. -/
def State.abortSquad (s : State) (squad : Nat) (fatal : Bool) : State :=
  let s1 := (s.jobsOf squad).foldl (fun s j => if j.admitted then s.abortJob fatal j else s) (s.unquiet squad)
  let s2 := if fatal then s1 else (s1.seqsOn squad).foldl (fun s id => s.closeCut id 4 stJobAborted 0) s1
  ((s2.setLaps squad { s2.lapsOf squad with flight := none, planned := none }).discardTiles squad).cutRendezvous squad

/-! ## Contained faults (R246, R281, R308, R406, R409) -/

/-- A touched job waits to start over: its snapshot and pins stay, and its record tells what the run did. -/
def State.restartLater (s : State) (tag : Nat) : State :=
  match s.job tag with
  | none => s
  | some j => (s.freeContexts j).onJob tag (fun j => { j with
      state := .restart, scan := { j.scan with issued := [] }, search := { j.search with ctxs := [] } })

/-- The fault may restart the job (R246, R281). -/
def State.mayRestart (s : State) (j : Job) : Bool :=
  j.readOnly && !bitN j.flags 0 && j.stop.isNone && j.attempt < ((s.squadOf j.squad).map Squad.jobRetry).getD 0

/-- A contained fault touches an admitted job. -/
def State.faultJob (s : State) (tag : Nat) : State :=
  match s.job tag with
  | none => s
  | some j =>
    if !j.admitted then s
    else if s.mayRestart j then s.restartLater tag
    else if j.kind = 0x12 || j.kind = 0x10 then s
    else s.abortJob true j

/-- Namespace data that a read of these jobs could not recover ends each without a restart: a read-only one with Unrecovered Read
Error, one with effects with JOB_ABORTED_FAULT (R281, R308, R418). -/
def State.readLost (s : State) (jobs : List Nat) : State :=
  jobs.foldl (fun s t => match s.job t with
    | none => s
    | some j => if !j.admitted then s else if j.readOnly then s.stopJob t 5 stUnrecovered else s.abortJob true j) s

/-- Jobs that wait at a squad-wide rendezvous: of a REDUCE (R66) or of a tensor's first REPORT (R118). -/
def State.meetTags (s : State) (squad : Nat) : List Nat :=
  (s.tiles.filter (fun t => t.2.squad == some squad)).flatMap (fun t =>
    (t.2.flight.filter (fun f => f.gives.isSome || (byteAt f.desc 0 == 0x0B && byteAt f.desc 30 == 2
      && s.atRendezvous squad t.1 (u16At f.desc 32)))).map OpInFlight.jobTag)

/-- Jobs a fault on a tile touches: those with an op in flight or a context on it, the squad's lap, and those at a
rendezvous (R406). -/
def State.touchedBy (s : State) (squad tile : Nat) : List Nat :=
  let t := s.tile tile
  (t.flight.map OpInFlight.jobTag ++ t.ctxs.vals.map Ctx.tag ++ s.lapTags squad ++ s.meetTags squad).dedup

/-- A squad is fenced (R407, R409): touched jobs restart or end, the others stop as in a drain, queued ones end FENCED, and
the squad runs nothing. On a fenced squad nothing further changes; a draining squad only loses the touched jobs (R410). -/
def State.fenceSquad (s : State) (squad : Nat) (touched : List Nat) : State :=
  match s.squadOf squad with
  | none => touched.foldl State.faultJob s
  | some q =>
    match q.state with
    | .fenced => s
    | .draining => touched.foldl State.faultJob s
    | _ =>
      let s1 := touched.foldl State.faultJob s
      let s2 := s1.onSquad squad (fun q => { q with state := .fenced })
      let s3 := (s2.setLaps squad { s2.lapsOf squad with flight := none, planned := none }).cutRendezvous squad
      let s4 := (s3.jobsOf squad).foldl (fun s j => if j.admitted then s.drainJob j else s) s3
      let s5 := s4.hurdleEnds squad
      (s5.jobsOf squad).foldl (fun s j => if j.state == .queued then s.stopJob j.tag 2 stFenced else s) s5

/-! ## Fatal faults (R411, R412) -/

/-- Every job ends when a fatal fault is posted; publishes and copies end, and storage and Ronnel commands fail. -/
def State.failJobs (s : State) : State :=
  let s1 := s.sl.set_.squads.keys.foldl (fun s n => s.abortSquad n true) s
  s1.jd.jobs.foldl (fun s j => if s.commitStands j.tag then s else s.stopJob j.tag 4 stJobAborted) s1

/-- Object commands in progress end: publishes with their record, placements and waiting commands with Internal Error. -/
def State.failCopies (s : State) : State :=
  let s1 := s.rl.copies.foldl (fun s c => match c.cmd with
    | none => s.dropCopy c
    | some k => if c.publish then s.abortPublish c k else (s.dropCopy c).complete k.c stInternal) s
  let s2 := s1.rl.waiting.foldl (fun s k => s.refuseObj k stInternal) { s1 with rl := { s1.rl with waiting := [] } }
  (s2.rl.dir.filter (fun e => e.2.state == .promoting)).foldl (fun s e => s.nearLost e.1) s2

/-- A fatal record was posted in BLOCKS or GO (R411). -/
def State.fatalStop (s : State) : State :=
  let s1 := s.failJobs.failCopies.failStore
  let s2 := s1.lp.cmds.keys.foldl (fun s tag => s.lpEnd tag lpInternal 0) s1
  { s2 with fl := { s2.fl with critFatal := true } }.alert

end Sys2Proof.Machine
end

