-- ==== Sys2Proof/Machine/Admit.lean ====
section
/-! DEFINITION. JOB_SUBMIT by kind, admission, restart and JOB_CANCEL (R168, R217 to R229, R246, R258 to R261, R268, R270,
R271, R280, R281, R288, R289, R292, R303, R308, R320 to R322, R339). -/

namespace Sys2Proof.Machine

/-! ## Admission -/

/-- Admit a SCAN or EMBED (R228, R229, R233, R242): it waits while an object of its may not be pinned. -/
def State.admitScan (s : State) (j : Job) : State :=
  if !s.scanChecks j then s.finishJob j.tag stInvalidField
  else match s.snapshotFor j with
    | none => s.finishJob j.tag stInvalidField
    | some snap =>
      if !s.objectsReady j.embedObjects then s
      else (s.admitJob j.tag snap j.embedObjects).onJob j.tag (fun j => { j with scan := { j.scan with
        aggs := j.aggregates.map (fun _ => (0, 0)) } })

/-- The command of a held SEARCH no longer stops its queue. -/
def State.unblock (s : State) (c : CmdId) : State :=
  { s with qe := { s.qe with sqs := s.qe.sqs.adjust c.sq (fun x => if x.blocked = some c then { x with blocked := none } else x) } }

/-- The MERGE reads blocks in the peer window's region (R339). -/
def State.mergeReadsWindow (s : State) (j : Job) : Bool :=
  j.lists.any (fun src => byteAt src 0 == 1 && u16At src 2 == bitsW s.qe.p2pCfg 9 0)

/-- Run a MERGE at its admission. -/
def State.startMerge (s : State) (j : Job) : State :=
  let s1 := if s.mergeReadsWindow j then s.p2pFlush else s
  if !s1.mergeForm j then s1.finishJob j.tag stInvalidField else (s1.admitJob j.tag s1.mm.epoch []).runMerge j

/-- Run an INSERT or DELETE at its admission. -/
def State.startAppend (s : State) (j : Job) : State :=
  match s.admitAppend j with
  | .inl st => s.finishJob j.tag st
  | .inr s1 => (s1.admitJob j.tag s1.mm.epoch []).runAppend j

/-- Admit a job whose turn it is: it is admitted, ends with a status, or waits on. -/
def State.admitNow (s : State) (j : Job) : State :=
  match j.kind with
  | 1 => s.admitScan j
  | 2 => s.admitScan j
  | 3 => (match s.admitSearch j with
    | none => s
    | some (.inl st) => s.finishJob j.tag st
    | some (.inr t) => t.unblock j.c)
  | 4 => s.startAppend j
  | 5 => s.startAppend j
  | 6 => (match s.admitCommit j with
    | .inl st => s.finishJob j.tag st
    | .inr t => t)
  | 7 => s.startMerge j
  | 0x10 => s.runOpen j
  | 0x11 => (match s.admitServe j with
    | none => s
    | some (.inl st) => s.finishJob j.tag st
    | some (.inr t) => t)
  | 0x12 => s.runClose j
  | _ => (match s.admitTrain j with
    | none => s
    | some (.inl st) => s.finishJob j.tag st
    | some (.inr t) => t)

/-- A SEARCH is held at the head of its submission queue (R261). -/
def State.heldSearch (s : State) (j : Job) : Bool :=
  match s.qe.sqs.find j.c.sq with
  | none => false
  | some q => q.blocked == some j.c

/-- It is the job's turn in its squad's queue: no restart waits there (R246), and no earlier job does. -/
def State.itsTurn (s : State) (j : Job) : Bool :=
  !(s.jobsOf j.squad).any (fun k => k.state == .restart)
  && (s.heldSearch j || !(s.jobsOf j.squad).any (fun k => k.state == .queued && k.tag < j.tag && !s.heldSearch k))

/-- Admit a job by tag when JD may and it is its turn. -/
def State.tryAdmit (s : State) (tag : Nat) : State :=
  match s.job tag with
  | none => s
  | some j => if j.state == .queued && s.mayAdmit j && s.itsTurn j then s.admitNow j else s

/-! ## JOB_SUBMIT -/

/-- A fetched JOB_SUBMIT: refused, or a job of its squad (R320, R388, R413). -/
def State.takeJob (s : State) (c : CmdId) (kind : Nat) (sub : Submit) (data : List Byte) (lists : List (List Byte)) : State :=
  match s.gate (if kind = 3 then .io else .job) with
  | some st => s.refuseJob c kind sub st
  | none =>
    match s.submitCheck c kind sub with
    | .inl st => s.refuseJob c kind sub st
    | .inr n =>
      if s.inBlocks && !s.blocksSearchOk (s.newJob c kind n sub data lists) then s.refuseJob c kind sub stNotReadyBlocks
      else s.submit c kind sub data lists

/-- A job kind that waits for JOB_ADMIT. -/
def State.jobQueued (s : State) (c : CmdId) (kind : Nat) (sub : Submit) (data : List Byte) (lists : List (List Byte)) : State :=
  if s.canFetch c then (s.fetch c).takeJob c kind sub data lists else s

/-- A job kind that JD admits as it arrives when it may. -/
def State.jobAtOnce (s : State) (c : CmdId) (kind : Nat) (sub : Submit) (data : List Byte) (lists : List (List Byte)) : State :=
  if s.canFetch c then ((s.fetch c).takeJob c kind sub data lists).tryAdmit s.jd.nextTag else s

/-- A SEARCH whose contexts are not free holds its submission queue (R261). -/
def State.holdSearch (s : State) (tag : Nat) : State :=
  match s.job tag with
  | none => s
  | some j =>
    match s.squadOf j.squad with
    | none => s
    | some q =>
      if searchForm j && (s.pickContexts j q).isNone then
        { s with qe := { s.qe with sqs := s.qe.sqs.adjust j.c.sq (fun x => { x with blocked := some j.c }) } }
      else s

/-! ## JOB_CANCEL (R321) -/

/-- A cancelled job stops as its kind gives (R245, R281, R308). -/
def State.cancelJob (s : State) (j : Job) : State :=
  if !j.admitted then s.stopJob j.tag 3 stAbortRequested
  else match j.kind with
    | 1 => s.stopScan j.tag 3
    | 2 => s.stopScan j.tag 3
    | 3 => s.stopJob j.tag 3 stAbortRequested
    | 0x11 =>
      let s1 := s.onJob j.tag (fun j => { j with stop := some 3 })
      if s.lapBusy j.squad then s1 else s1.cutAppend (j.u32 64) 3 stAbortRequested 0
    | 0x20 =>
      let s1 := s.onJob j.tag (fun j => { j with stop := some 3 })
      if (s.lapTags j.squad).contains j.tag || j.state == .finishing then s1
      else
        let s2 := if ((s.lapsOf j.squad).planned.map Lap.jobTag) = some j.tag then s1.cancelPlanned j.squad else s1
        s2.endTrain j.tag stAbortRequested 3
    | _ => s

/-- JOB_CANCEL after its fetch. -/
def State.jobCancel (s : State) (c target : CmdId) : State :=
  match s.jd.jobs.find? (fun j => j.c == target) with
  | none => s.complete c stOk 1
  | some j => if j.stop.isSome then s.complete c stOk 2 else (s.complete c stOk 0).cancelJob j

/-! ## Restart (R246, R281) -/

/-- A job that waits to restart runs again from its beginning, under its snapshot. -/
def State.restartJob (s : State) (j : Job) : State :=
  let again : Job → Job := fun j => { j with
    state := .admitted, attempt := j.attempt + 1
    scan := { ScanProg.blank with aggs := j.aggregates.map (fun _ => (0, 0)) }
    search := { SearchProg.blank with
      base := j.search.base, lists := j.search.lists, fmt := j.search.fmt, tab := j.search.tab, dead := j.search.dead } }
  if j.kind = 3 then
    match s.squadOf j.squad with
    | none => s
    | some q =>
      match s.pickContexts j q with
      | none => s
      | some cs =>
        (cs.foldl (fun s c => s.giveCtx j j.snapshot c) (s.onJob j.tag again)).onJob j.tag (fun j =>
          { j with search := { j.search with ctxs := cs } })
  else s.onJob j.tag again

/-! ## Meanings -/

/-- SCAN (R217, R228, R320). -/
def execScan (c : CmdId) (sub : Submit) (s : State) : Host.Outcome State Fault Refusal := done (s.jobQueued c 1 sub [] [])

/-- EMBED (R217, R229, R320). -/
def execEmbed (c : CmdId) (sub : Submit) (s : State) : Host.Outcome State Fault Refusal := done (s.jobQueued c 2 sub [] [])

/-- SEARCH (R258 to R261, R268, R320). -/
def execSearch (c : CmdId) (sub : Submit) (queries : List (List Byte)) (s : State) : Host.Outcome State Fault Refusal :=
  done (if s.canFetch c then ((s.fetch c).takeJob c 3 sub [] queries).holdSearch s.jd.nextTag else s)

/-- INSERT (R270, R320). -/
def execInsert (c : CmdId) (sub : Submit) (data : List Byte) (s : State) : Host.Outcome State Fault Refusal :=
  done (s.jobAtOnce c 4 sub data [])

/-- DELETE (R270, R320). -/
def execDelete (c : CmdId) (sub : Submit) (data : List Byte) (s : State) : Host.Outcome State Fault Refusal :=
  done (s.jobAtOnce c 5 sub data [])

/-- COMMIT (R271, R320). -/
def execCommit (c : CmdId) (sub : Submit) (s : State) : Host.Outcome State Fault Refusal := done (s.jobAtOnce c 6 sub [] [])

/-- MERGE (R279, R280, R320, R339). -/
def execMerge (c : CmdId) (sub : Submit) (sources : List (List Byte)) (s : State) : Host.Outcome State Fault Refusal :=
  done (s.jobAtOnce c 7 sub [] sources)

/-- SERVE_OPEN (R288, R320). -/
def execServeOpen (c : CmdId) (sub : Submit) (s : State) : Host.Outcome State Fault Refusal := done (s.jobAtOnce c 0x10 sub [] [])

/-- SERVE_APPEND (R289, R320). -/
def execServeAppend (c : CmdId) (sub : Submit) (tokens : List Nat) (s : State) : Host.Outcome State Fault Refusal :=
  done (s.jobAtOnce c 0x11 sub (tokens.flatMap (fun t => leBytes t 4)) [])

/-- SERVE_CLOSE (R292, R320). -/
def execServeClose (c : CmdId) (sub : Submit) (s : State) : Host.Outcome State Fault Refusal :=
  done (s.jobAtOnce c 0x12 sub [] [])

/-- TRAIN (R303, R320). -/
def execTrain (c : CmdId) (sub : Submit) (s : State) : Host.Outcome State Fault Refusal := done (s.jobQueued c 0x20 sub [] [])

/-- JOB_ADMIT (R21, R42, R168, R197, R233, R255, R261). -/
def execJobAdmit (tag : Nat) (s : State) : Host.Outcome State Fault Refusal := done (s.tryAdmit tag)

/-- JOB_RESTART (R246, R281, R418). -/
def execJobRestart (tag : Nat) (s : State) : Host.Outcome State Fault Refusal :=
  done (match s.job tag with
    | none => s
    | some j => if j.state == .restart && s.mayAdmit j then s.restartJob j else s)

/-- JOB_CANCEL (R321). -/
def execJobCancel (c : CmdId) (sqid cid : Nat) (s : State) : Host.Outcome State Fault Refusal :=
  done (s.command c .io (fun s => s.jobCancel c { sq := sqid, cid := cid }))

end Sys2Proof.Machine
end

