-- ==== Sys2Proof/Machine/Faults.lean ====
section
/-! DEFINITION. The fault collector (R398 to R420): contained and fatal records with their effects, fault messages, and
clears. -/

namespace Sys2Proof.Machine

/-! ## Which records exist (R403) -/

/-- A source posts a kind in a class. -/
def posts (source kind cls : Nat) (test : Bool) : Bool :=
  let tile := source < 0x400
  let channel := 0x400 ≤ source && source < 0x480
  let stack := 0x480 ≤ source && source < 0x490
  let die := 0x4A0 ≤ source && source < 0x4A4
  match kind with
  | 0x01 => (tile || stack || die) && cls == 0
  | 0x02 => ((tile || channel) && cls == 1) || (stack && (cls == 1 || cls == 2)) || (die && cls == 2)
  | 0x03 => stack && cls == (if test then 0 else 2)
  | 0x10 => (channel || source == srcSW) && cls == 0
  | 0x11 => (channel || source == srcSW) && cls == 0
  | 0x12 => channel && cls == 0
  | 0x13 => source == srcMG && cls == 0
  | 0x20 => tile && cls == 0
  | 0x21 => tile && cls == 0
  | 0x22 => tile && cls == 0
  | 0x23 => tile && cls == 0
  | 0x30 => tile && cls == 0
  | 0x31 => tile && cls == 0
  | 0x40 => (tile && cls == 1) || ((source == srcHL || source == srcQE || source == srcLP || source == srcPC) && cls == 0)
      || (source == srcMG && cls == 2)
  | 0x41 => (source == srcLP || source == srcPC) && cls == 0
  | 0x50 => source == srcThermal && (cls == 0 || cls == 2)
  | 0x51 => (source == srcPC && cls == 0) || (source == srcPower && (cls == 0 || cls == 2))
  | 0x60 => source == srcSE && (cls == 0 || cls == 2)
  | _ => false

/-! ## Ending a clear (R414) -/

/-- A clear reports its result: 0 CLEARED, 1 PERSISTS, 2 NOTHING_STANDING. -/
def State.clearEnds (s : State) (b : ClearBy) (result : Nat) : State :=
  let s1 : State := { s with fl := { s.fl with
    result := result, done := true, event := if result = 1 then setEv s.fl.event 3 else s.fl.event } }
  match b with
  | .command c => s1.complete c stOk result
  | .register => s1

/-! ## Fatal records (R411) -/

/-- A FATAL clear that waits for its boundary meets a new fatal cause: it persists. -/
def State.cutFatalClear (s : State) : State :=
  match s.mc.fatalClear with
  | none => s
  | some b => { s with mc := { s.mc with fatalClear := none, retrain := [] } }.clearEnds b 1

/-- Post a fatal record: a standing entry, and in BLOCKS or GO the module halts. -/
def State.postFatal (s : State) (src kind : Nat) (addr : W64) (d0 d1 d2 d3 : W32) : State :=
  let r := s.mkRecord src kind 2 addr d0 d1 d2 d3
  let s1 := s.post src kind 2 addr d0 d1 d2 d3
  let s2 : State := { s1 with fl := s1.fl.stand r none }
  if s.inBlocks || s.inGo then s2.fatalStop else s2.cutFatalClear.alert

/-! ## Contained records (R405 to R410, R413, R420) -/

/-- A contained record that fences squad `n` takes a standing entry, but for a far-tier damage (R420). -/
def Fl.standIf (f : Fl) (stands : Bool) (r : Record) (n : Nat) : Fl := if stands then f.stand r (some n) else f

/-- Post a contained record that fences `squad`, or nothing, and touches `jobs`. In HALTED only the record and its standing
entry are made. -/
def State.postContained (s : State) (src kind : Nat) (addr : W64) (d0 d1 d2 d3 : W32) (squad : Option Nat) (jobs : List Nat)
    (stands : Bool := true) : State :=
  let r := s.mkRecord src kind 1 addr d0 d1 d2 d3
  let s1 := s.post src kind 1 addr d0 d1 d2 d3
  match squad with
  | none => if s.halted then s1 else jobs.foldl State.faultJob s1
  | some n =>
    if s.halted then { s1 with fl := if stands then s1.fl.stand r none else s1.fl }
    else match (s.squadOf n).map Squad.state with
      | none => jobs.foldl State.faultJob s1
      | some .draining => s1.fenceSquad n jobs
      | some _ => { s1 with fl := s1.fl.standIf stands r n }.fenceSquad n jobs

/-- A tile halts (R65, R69). -/
def State.haltTile (s : State) (n : Nat) : State := s.setTile n { s.tile n with halted := true }

/-- The near-tier copy of an object goes once its pins reach 0 (R408). -/
def State.condemn (s : State) (o : Nat) : State :=
  let s1 := s.onDir o (fun e => { e with condemned := true })
  match s1.rl.dir.find o with
  | none => s1
  | some e => if e.cur.pins = 0 then s1.nearLost o else s1

/-! ## FAULT_MESSAGE (R398 to R406) -/

/-- Count an uncorrectable granule, or one that was not the granule addressed, of a stack (R149, R175). -/
def State.countNtUncorr (s : State) (k : Nat) : State :=
  { s with rl := { s.rl with
      uncorr := s.rl.uncorr.put k (sat32 (s.rl.uncorr.findD k 0 + 1)), event := setEv s.rl.event 4 } }

/-- The object whose far-tier home holds the unit at `a` is DAMAGED (R159). -/
def State.markDamaged (s : State) (a : Nat) : State :=
  { s with rl := { s.rl with
      event := setEv s.rl.event 3
      dir := s.rl.dir.mapVals (fun _ e => if e.cur.homeMeets a 1 then { e with damaged := true } else e) } }

/-- Counters the posting rule of a tile or stack error keeps (R69, R77, R149), and the mark of far-tier damage (R159). -/
def State.countError (s : State) (m : FaultMsg) : State :=
  if m.source < 0x400 ∧ (m.kind = kEccCorr ∨ m.kind = kEccUncorr) then
    let t := s.tile m.source
    let un := m.kind == kEccUncorr
    s.setTile m.source { t with
      corrCnt := if un then t.corrCnt else sat32 (t.corrCnt + 1)
      uncorrCnt := if un then sat32 (t.uncorrCnt + 1) else t.uncorrCnt
      eccLast := packW [(0, bitsN m.addr.toNat 20 0), (21, bitsW m.d0 4 0), (26, b2n un), (27, bitsN m.addr.toNat 22 21), (29, 1)] }
  else if 0x480 ≤ m.source ∧ m.source < 0x490 then
    let k := m.source - 0x480
    if m.kind = kEccCorr then { s with rl := { s.rl with corr := s.rl.corr.put k (sat32 (s.rl.corr.findD k 0 + 1)) } }
    else if m.kind = kEccUncorr ∨ m.kind = kAddrCode then s.countNtUncorr k
    else s
  else if m.kind = kEccUncorr ∧ m.cls = 1 ∧ 0x400 ≤ m.source ∧ m.source < 0x480 ∧ bitN m.addr.toNat 63 then
    s.markDamaged (m.addr.toNat % 2 ^ 45)
  else s

/-- The reading op of a tile that an error message tells of (R69, R150, R400): the op of its job that read a latch, a context
or the near tier. -/
def stopsOp (m : FaultMsg) (f : OpInFlight) : Bool :=
  let k := byteAt f.desc 0
  m.jobs.contains f.jobTag && (if m.source < 0x400 then (match bitsN m.addr.toNat 22 21 with
      | 0 => f.unit != 3
      | 1 => k == 0x01 || k == 0x02
      | _ => (k == 0x02 && byteAt f.desc 32 == 1) || (k == 0x08 && byteAt f.desc 30 == 0))
    else k == 0x05 && byteAt f.desc 24 == 1)

/-- The reading op stops (R69, R150): what it was writing holds bytes the spec does not fix, and it posts nothing. -/
def State.stopOps (s : State) (m : FaultMsg) (n : Nat) : State :=
  let t := s.tile n
  let ws := (t.flight.filter (stopsOp m)).flatMap OpInFlight.writes
  ws.foldl (fun s r => s.laneFree r.1 r.2.1 r.2.2) (s.setTile n { t with flight := t.flight.filter (fun f => !stopsOp m f) })

/-- Records a source posts at most once in a beat, with the code that tells them apart (R69, R149, R354, R359, R364, R404). -/
def limitCode (m : FaultMsg) : Option Nat :=
  if m.kind = kEccCorr then some 0
  else if m.source = srcHL then some (m.d0.toNat * 32 + m.d1.toNat)
  else if m.source = srcLP ∨ (m.source = srcPC ∧ (m.kind = kProtocol ∨ m.kind = kFalseStart)) then some m.d0.toNat else none

/-- FL could not read a ring slot for log page 0xC0 (R399, R417). -/
def ofRing (m : FaultMsg) : Bool :=
  0x480 ≤ m.source && m.source < 0x490 && m.kind == kEccUncorr && m.cls == 1 && bitW m.d1 3

/-- A ring slot that FL could not read is returned as empty, until a later record is written there (DEDUCED from R399 and
R417, assumption entry 15). -/
def Fl.loseSlot (f : Fl) (m : FaultMsg) : Fl :=
  if ofRing m && 0x00FC00100000 ≤ m.addr.toNat then { f with ring := f.ring.del ((m.addr.toNat - 0x00FC00100000) / 32) } else f

/-- A contained message: the tile halts, the record is posted, its jobs end and the squad is fenced; the channels and FL's own
reads of the ring fence nothing (R159, R417), and a channel's record of namespace data ends its jobs for good (R418). -/
def State.containedMsg (s' : State) (m : FaultMsg) : State :=
  let s : State := { s' with fl := s'.fl.loseSlot m }
  let fenced := if (0x400 ≤ m.source ∧ m.source < 0x480) ∨ ofRing m then none else m.squad
  let halting := !s.halted && m.source < 0x400 && m.tile == some m.source
  let s0 := if halting then s.haltTile m.source else s
  let s1 := match m.tile with
    | some t => if m.kind = kEccUncorr then s0.stopOps m t else s0
    | none => s0
  let jobs := match m.tile, fenced with
    | some t, some n => (m.jobs ++ s.touchedBy n t).dedup
    | _, _ => m.jobs
  let post (jobs : List Nat) : State := s1.postContained m.source m.kind m.addr m.d0 m.d1 m.d2 m.d3 fenced jobs
  let s2 := if m.kind = kEccUncorr ∧ 0x400 ≤ m.source ∧ m.source < 0x480 ∧ !bitN m.addr.toNat 63 then
      (if s.halted then post [] else (post []).readLost m.jobs)
    else post jobs
  match m.object, fenced with
  | some o, some _ => if s.halted then s2 else s2.condemn o
  | _, _ => s2

/-- FL takes a fault message. -/
def State.faultMessage (s : State) (m : FaultMsg) : State :=
  let s1 := s.countError m
  match m.cls with
  | 0 => (match limitCode m with
    | some k => s1.postOnce m.source m.kind k m.addr m.d0 m.d1 m.d2 m.d3
    | none => s1.postCorr m.source m.kind m.addr m.d0 m.d1 m.d2 m.d3)
  | 1 => s1.containedMsg m
  | _ => s1.postFatal m.source m.kind m.addr m.d0 m.d1 m.d2 m.d3

/-! ## Re-checks (R415) -/

/-- A standing cause is a stack's: its re-check waits for BLOCKS. -/
def Standing.stack (x : Standing) : Bool := 0x480 ≤ x.record.source && x.record.source < 0x490

/-- Region that holds a near-tier address. -/
def State.regionAt (s : State) (a : Nat) : Option Region :=
  s.sl.set_.regions.find? (fun r => r.tier == 0 && r.base ≤ a && a < r.base + r.size)

/-- The granule of the cause lies in a region without objects. -/
def State.plainGranule (s : State) (x : Standing) : Bool :=
  x.stack && (match s.regionAt x.record.addr.toNat with
    | none => false
    | some r => 3 ≤ r.kind)

/-- The cause can persist: a tile's uncorrectable byte, a granule of a region without objects, a channel die's memory, a
junction temperature or a rail. -/
def State.canPersist (s : State) (x : Standing) : Bool :=
  (x.record.source < 0x400 && x.record.kind == kEccUncorr && !bitW x.record.d1 1) || s.plainGranule x
  || (0x4A0 ≤ x.record.source && x.record.source < 0x4A4) || x.record.source == srcThermal || x.record.source == srcPower

/-- The outcome of a cause's re-check. -/
def State.persists (s : State) (cs : List Recheck) (x : Standing) : Bool :=
  s.canPersist x && cs.any (fun r => r.source == x.record.source && r.kind == x.record.kind && r.persists)

/-- Remove one standing cause. -/
def Fl.unstand (f : Fl) (x : Standing) : Fl :=
  let l := f.standing.erase x
  { f with standing := l, standingFull := l.any (fun y => !y.entry) }

/-- Re-check one cause: its entry goes, and a cause that persists posts again. -/
def State.recheck (s : State) (cs : List Recheck) (x : Standing) : State :=
  let r := x.record
  let s1 : State := { s with fl := s.fl.unstand x }
  let s2 := if r.source < 0x400 ∧ x.squad.isSome ∧ (s.tile r.source).halted then s1.setTile r.source (s.tile r.source).sweep else s1
  let s3 := if s.plainGranule x then s2.nearWrite (r.addr.toNat / 32 * 32) (List.replicate 32 0) else s2
  if !s.persists cs x then s3
  else if r.cls = 2 then s3.postFatal r.source r.kind r.addr r.d0 r.d1 r.d2 r.d3
  else
    let s4 := if r.source < 0x400 then s3.haltTile r.source else s3
    s4.postContained r.source r.kind r.addr r.d0 r.d1 r.d2 r.d3 x.squad []

/-! ## Clears (R414) -/

def State.clearBusy (s : State) : Bool := s.fl.clear.isSome || s.mc.fatalClear.isSome

/-- A clear of squad fences: causes are re-checked now, fences end at a beat boundary. -/
def State.clearSquads (s : State) (b : ClearBy) (squads : List Nat) (loose : Bool) (cs : List Recheck) : State :=
  let xs := s.fl.standing.filter (fun x => x.record.cls == 1 && (match x.squad with
    | some n => squads.contains n
    | none => loose))
  if squads.isEmpty && xs.isEmpty then s.clearEnds b 2
  else
    let bad := (xs.filter (s.persists cs)).filterMap Standing.squad
    let s1 := xs.foldl (fun s x => s.recheck cs x) s
    { s1 with fl := { s1.fl with clear := some { by_ := b, squads := squads, persists := bad.dedup } } }

/-- Squads that are FENCED. -/
def State.fencedSquads (s : State) : List Nat := (s.sl.set_.squads.filter (fun e => e.2.state == .fenced)).map Prod.fst

/-- A clear of the fatal causes (R394): the module enters BLOCKS at the next boundary when none but a stack's persists. -/
def State.clearFatal (s : State) (b : ClearBy) (cs : List Recheck) : State :=
  let xs := s.fl.standing.filter (fun x => x.record.cls == 2)
  if xs.isEmpty then s.clearEnds b 2
  else
    let now := xs.filter (fun x => !x.stack)
    if now.any (s.persists cs) then (now.foldl (fun s x => s.recheck cs x) s).clearEnds b 1
    else { s with mc := { s.mc with
        fatalClear := some b, retrain := ((xs.filter Standing.stack).map (fun x => x.record.source - 0x480)).dedup } }

/-- Scope of a clear: 0 FATAL, 1 SQUAD, 2 ALL_CONTAINED. -/
def State.runClear (s : State) (b : ClearBy) (scope squad : Nat) (cs : List Recheck) : State :=
  match scope with
  | 0 => s.clearFatal b cs
  | 1 => s.clearSquads b (if s.fenced squad then [squad] else []) false cs
  | _ => s.clearSquads b s.fencedSquads true cs

/-- FAULT_CLEAR of a scope. -/
def State.faultClear (s : State) (c : CmdId) (d : Dwords) (scope : Nat) (cs : List Recheck) : State :=
  s.command c .served (fun s =>
    if bitsW d.d10 1 0 = 3 then s.complete c stInvalidField
    else if s.clearBusy then s.complete c stSequence
    else s.runClear (.command c) scope (bitsW d.d10 13 8) cs)

/-- A write of FL_CLEAR with one scope bit; ignored while a clear runs. -/
def State.flClear (s : State) (scope squad : Nat) (cs : List Recheck) : State :=
  if !s.vendorLive || s.clearBusy then s
  else { s with fl := { s.fl with done := false, clearSquad := squad } }.runClear .register scope squad cs

/-- Tiles of a squad whose fence ends: fresh credit counts, halted tiles swept (R415, R416); what is left of the op lists of
the jobs the fence ended goes. -/
def State.freshTiles (s : State) (squad : Nat) : State :=
  match s.squadOf squad with
  | none => s
  | some q => { s with tiles := s.tiles.mapVals (fun n t => if q.tiles.contains n then
      { (if t.halted then t.sweep else t) with credits := [], queue := [], held := [], hurdle := false } else t) }

/-- The fence of a squad ends: it is ACTIVE, its tiles hold fresh credits and its search reserve is written again (R415,
R416). -/
def State.unfence (s : State) (squad : Nat) : State :=
  ((s.freshTiles squad).onSquad squad (fun q => { q with state := .active })).writeDead squad

/-- The boundary at which a clear of fences ends (R414). -/
def State.fenceClear (s : State) (k : ClearOp) : State :=
  let stays (s : State) (n : Nat) : Bool := s.fl.standing.any (fun x => x.squad == some n)
  let s1 := k.squads.foldl (fun s n => if stays s n || !s.fenced n then s else s.unfence n) s
  let bad := !k.persists.isEmpty || k.squads.any (stays s1)
  { s1 with fl := { s1.fl with clear := none } }.clearEnds k.by_ (if bad then 1 else 0)

/-! ## Meanings -/

/-- FAULT_MESSAGE (R398 to R413, R420). -/
def execFaultMessage (m : FaultMsg) (s : State) : Host.Outcome State Fault Refusal :=
  done (if !s.linkUp || !posts m.source m.kind m.cls (bitW m.d1 0) then s else s.faultMessage m)

/-- MG_WATCHDOG_EXPIRY (R404). -/
def execMgWatchdogExpiry (core : Nat) (s : State) : Host.Outcome State Fault Refusal :=
  done (if s.vendorLive then s.postFatal srcMG kProtocol 0 (BitVec.ofNat 32 (core % 8 + 256)) 0 0 0 else s)

/-- FAULT_CLEAR_FATAL (R394, R414, R415). -/
def execFaultClearFatal (c : CmdId) (d : Dwords) (checks : List Recheck) (s : State) : Host.Outcome State Fault Refusal :=
  done (s.faultClear c d 0 checks)

/-- FAULT_CLEAR_SQUAD (R414, R415). -/
def execFaultClearSquad (c : CmdId) (d : Dwords) (checks : List Recheck) (s : State) : Host.Outcome State Fault Refusal :=
  done (s.faultClear c d 1 checks)

/-- FAULT_CLEAR_ALL_CONTAINED (R414, R415). -/
def execFaultClearAllContained (c : CmdId) (d : Dwords) (checks : List Recheck) (s : State) :
    Host.Outcome State Fault Refusal := done (s.faultClear c d 2 checks)

/-- FL_CLEAR_FATAL: a write of FL_CLEAR with FATAL 1 (R4, R394, R414, R422); SQUAD_ID takes the word's bits. -/
def execFlClearFatal (w : FlClearWrite) (s : State) : Host.Outcome State Fault Refusal :=
  done (s.flClear 0 (bitsW w.word 13 8) w.checks)

/-- FL_CLEAR_SQUAD: a write of FL_CLEAR.SQUAD with its SQUAD_ID (R414, R422). -/
def execFlClearSquad (v : W32) (checks : List Recheck) (s : State) : Host.Outcome State Fault Refusal :=
  done (s.flClear 1 (bitsW v 13 8) checks)

/-- FL_CLEAR_ALL_CONTAINED: a write of FL_CLEAR with ALL_CONTAINED 1 (R4, R414, R422). -/
def execFlClearAllContained (w : FlClearWrite) (s : State) : Host.Outcome State Fault Refusal :=
  done (s.flClear 2 (bitsW w.word 13 8) w.checks)

/-- FENCE_CLEAR_APPLY (R414 to R416): at a beat boundary. -/
def execFenceClearApply (s : State) : Host.Outcome State Fault Refusal :=
  done (match s.fl.clear with
    | none => s
    | some k => s.fenceClear k)

end Sys2Proof.Machine
end

