-- ==== Sys2Proof/Machine/Store.lean ====
section
/-! DEFINITION. The settings store (R423 to R442): bytes, sectors, record logs, protect bits, the window's sequences,
programs and erases, maintenance grants. -/

namespace Sys2Proof.Machine

/-- Size of the store and of the window. -/
def storeBytes : Nat := 0x08000000

/-- Sector of a store address (R424). -/
def sectorOf (a : Nat) : Nat := if a < 0x20000 then a / 0x1000 else 32 + (a - 0x20000) / 0x10000

/-- First address and size of a sector (R424). -/
def sectorBase (s : Nat) : Nat := if s < 32 then 0x1000 * s else 0x20000 + 0x10000 * (s - 32)
def sectorSize (s : Nat) : Nat := if s < 32 then 0x1000 else 0x10000

/-- Sectors of the store. -/
def sectorCount : Nat := 2078

/-- Read store bytes; an erased byte is 0xFF. -/
def Sw.bytes (w : Sw) (a n : Nat) : List Byte := readCells 0xFF w.store a n

/-- Store bytes at an address, as a completed program leaves them. -/
def Sw.putBytes (w : Sw) (a : Nat) (l : List Byte) : Sw := { w with store := writeCells 0xFF w.store a l }

/-- Erase a sector. -/
def Sw.eraseSector (w : Sw) (s : Nat) : Sw := { w with store := eraseCells w.store (sectorBase s) (sectorSize s) }

/-- The protect bit of a sector (R431). -/
def Sw.protected (w : Sw) (s : Nat) : Bool := !w.opened.contains s

/-- BUSY (R439). -/
def Sw.busy (w : Sw) : Bool := w.busyBoot || w.run.isSome || w.internal

/-! ## Record logs (R428, R429) -/

/-- A log's first sector and tag. -/
structure LogId where
  sector : Nat
  tag    : Nat
  deriving DecidableEq, Repr

def logBoot : LogId := { sector := 2, tag := 0x5A01 }
def logVersion : LogId := { sector := 4, tag := 0x5A02 }
def logVolume : LogId := { sector := 6, tag := 0x5A03 }
def logGrant : LogId := { sector := 16, tag := 0x5A04 }

/-- Address of slot `i` of 64 in a pair: 32 in each sector. -/
def slotAddr (g : LogId) (i : Nat) : Nat := 0x1000 * g.sector + 128 * i

def Sw.slot (w : Sw) (g : LogId) (i : Nat) : List Byte := w.bytes (slotAddr g i) 128

/-- Every byte of a slot is 0xFF. -/
def blank (l : List Byte) : Bool := l.all (fun b => b == 0xFF)

/-- A 128-byte record whose crc checks and whose tag is `tag`. -/
def recordOk (tag : Nat) (l : List Byte) : Bool := u16At l 0 == tag && u32At l 124 == (crc32c (l.take 124)).toNat

/-- The governing slot of a pair: the valid record of highest sequence. -/
def Sw.governs (w : Sw) (g : LogId) : Option Nat :=
  (List.range 64).foldl (fun b i =>
    let l := w.slot g i
    if !blank l && recordOk g.tag l then
      match b with
      | none => some i
      | some j => if u32At (w.slot g j) 4 ≤ u32At l 4 then some i else some j
    else b) none

/-- Payload of the record that governs. -/
def Sw.payload (w : Sw) (g : LogId) : Option (List Byte) := (w.governs g).map (fun i => sliceZ (w.slot g i) 8 104)

/-- The 128 bytes of a record. -/
def mkRecord128 (tag seq : Nat) (payload : List Byte) : List Byte :=
  let p := payload ++ List.replicate (104 - payload.length) 0xFF
  let body := leBytes tag 2 ++ leBytes payload.length 2 ++ leBytes seq 4 ++ p ++ List.replicate 12 0xFF
  body ++ leBytes (crc32c body).toNat 4

/-- The lowest blank slot, from `lo` on, of the sector half `h` (0 or 1) of a pair. -/
def Sw.freeSlot (w : Sw) (g : LogId) (h lo : Nat) : Option Nat :=
  ((List.range 32).map (fun i => 32 * h + i)).find? (fun i => lo ≤ i && blank (w.slot g i))

/-- A program over the internal path that verified: its bytes, its pulses (a free count from 1 to 16) and SW_LAST. PULSES reads
those of the last program on either path (R442). -/
def State.swProgram (s : State) (a : Nat) (l : List Byte) : State :=
  let r := s.drawNat
  let p := 1 + r.1 % 16
  let w := r.2.sw
  let w1 := w.putBytes a l
  { r.2 with sw := { w1 with
      pulses := p, pulseCnt := sat32 (w.pulseCnt + p), last := BitVec.ofNat 32 (a + 2 ^ 27)
      pulseMax := max w.pulseMax p, pulseSect := if w.pulseMax < p then sectorOf a else w.pulseSect } }

/-- A program over the internal path that failed its 16 pulses (R438): PFAIL, PROG_FAIL, and bytes of which no more is
known than that a program clears bits; the first byte is left changed so that the slot is not blank. -/
def State.swProgramFail (s : State) (a : Nat) (l : List Byte) : State :=
  let r := s.draw
  let w := r.2.sw
  let junk : List Byte := (l.zipIdx).map (fun x => if x.2 = 0 then x.1 &&& 0xFE
    else (w.bytes (a + x.2) 1).getD 0 0xFF &&& (x.1 ||| (r.1 >>> (8 * (x.2 % 8))).setWidth 8))
  let w1 := w.putBytes a junk
  { r.2 with sw := { w1 with
      pulses := 16, pulseCnt := sat32 (w.pulseCnt + 16), pfailCnt := sat16 (w.pfailCnt + 1), bits := setEv w.bits 2
      event := setEv w.event 2
      last := BitVec.ofNat 32 (a + 2 ^ 27) } }.postCorr srcSW kProgFail (BitVec.ofNat 64 a) 16 1 0 0

/-- Erase a sector over the internal path. -/
def State.swErase (s : State) (sect : Nat) : State :=
  { s with sw := { s.sw.eraseSector sect with last := BitVec.ofNat 32 (sectorBase sect + 2 ^ 27) } }

/-- Where the next record of a pair goes from sector half `h` on: the lowest blank slot there that is not below `i`, or slot 0
of the other sector, which is erased first. -/
def Sw.slotFrom (w : Sw) (g : LogId) (h i : Nat) : Nat × Option Nat :=
  match w.freeSlot g h i with
  | some j => (j, none)
  | none => (32 * (1 - h), some (g.sector + (1 - h)))

/-- Where the next record of a pair goes: in the active sector first. -/
def Sw.nextSlot (w : Sw) (g : LogId) : Nat × Option Nat :=
  w.slotFrom g (((w.governs g).getD 0) / 32) 0

/-- Write one record (R429): a slot, and after a PFAIL the next; true when the new record governs. -/
def State.logWrite (s : State) (g : LogId) (payload : List Byte) (writes : List Bool) : State × Bool :=
  let seq := match s.sw.governs g with
    | none => 0
    | some i => u32At (s.sw.slot g i) 4
  let body := mkRecord128 g.tag (seq + 1) payload
  let n := s.sw.nextSlot g
  let s1 := match n.2 with
    | none => s
    | some x => s.swErase x
  if writes.getD 0 true then (s1.swProgram (slotAddr g n.1) body, true)
  else
    let s2 := s1.swProgramFail (slotAddr g n.1) body
    let m := s2.sw.slotFrom g (n.1 / 32) (n.1 + 1)
    let s3 := match m.2 with
      | none => s2
      | some x => s2.swErase x
    if writes.getD 1 true then (s3.swProgram (slotAddr g m.1) body, true)
    else (s3.swProgramFail (slotAddr g m.1) body, false)

/-- What the boot log holds (R428): selector, update marker, firmware bytes, slot bytes. -/
structure BootLog where
  selector : Nat
  updating : Nat
  fwBytes  : Nat
  slot0    : Nat
  slot1    : Nat
  deriving DecidableEq, Repr

/-- The governing boot log record; with none there is no firmware and no boot image. -/
def Sw.bootLog (w : Sw) : BootLog :=
  match w.payload logBoot with
  | none => { selector := 0xFF, updating := 0, fwBytes := 0, slot0 := 0, slot1 := 0 }
  | some p => { selector := byteAt p 0, updating := byteAt p 1, fwBytes := u32At p 4, slot0 := u32At p 8, slot1 := u32At p 12 }

def BootLog.payload (b : BootLog) : List Byte :=
  leBytes b.selector 1 ++ leBytes b.updating 1 ++ [0xFF, 0xFF] ++ leBytes b.fwBytes 4 ++ leBytes b.slot0 4 ++ leBytes b.slot1 4

/-- Where firmware and the boot image slots lie (R426). -/
def fwAddr : Nat := 0x00020000
def bootSlotAddr (i : Nat) : Nat := if i = 0 then 0x02020000 else 0x04020000

/-- Counter of the last accepted grant; 0 for none. -/
def Sw.grantCounter (w : Sw) : Nat := ((w.payload logGrant).map (fun p => u64At p 0)).getD 0

/-- The versions the version log holds (R342). -/
def Sw.versions (w : Sw) : Versions :=
  match w.payload logVersion with
  | none => Versions.native
  | some p => { cmdset := byteAt p 0, image := byteAt p 1, result := byteAt p 2, index := byteAt p 3,
                agCmdset := byteAt p 4, agImage := byteAt p 5, agResult := byteAt p 6, agIndex := byteAt p 7 }

def Versions.payload (v : Versions) : List Byte :=
  [v.cmdset, v.image, v.result, v.index, v.agCmdset, v.agImage, v.agResult, v.agIndex].map (BitVec.ofNat 8)

/-- LP_VOL_MAP as the volume map log holds it. -/
def Sw.volMap (w : Sw) : List W32 :=
  match w.payload logVolume with
  | none => List.replicate 16 0
  | some p => (List.range 16).map (fun i => BitVec.ofNat 32 (u32At p (4 * i)))

/-- Erase the inactive sector of each pair that holds a slot neither blank nor valid (R429, at entry to BLOCKS). -/
def Sw.cleanPair (w : Sw) (g : LogId) : Sw :=
  let h := match w.governs g with
    | none => 0
    | some i => i / 32
  let o := 1 - h
  let dirty := (List.range 32).any (fun i =>
    let l := w.slot g (32 * o + i)
    !blank l && !recordOk g.tag l)
  if dirty then w.eraseSector (g.sector + o) else w

def Sw.cleanPairs (w : Sw) : Sw :=
  (((w.cleanPair logBoot).cleanPair logVersion).cleanPair logVolume).cleanPair logGrant

/-! ## Protect bits (R431) -/

/-- Bit `s` of a 264-byte map. -/
def mapBit (m : List Byte) (s : Nat) : Bool := bitN (byteAt m (s / 8)) (s % 8)

/-- Sectors whose bit a map leaves 0. -/
def openedBy (m : List Byte) : List Nat := (List.range sectorCount).filter (fun s => !mapBit m s)

/-- The map of P0, when its magic, version and crc check. -/
def Sw.p0Map (w : Sw) : Option (List Byte) :=
  let l := w.bytes 0 276
  if u32At l 0 = 0x504D535A ∧ u32At l 4 = 1 ∧ u32At l 272 = (crc32c (l.take 272)).toNat then some (sliceZ l 8 264)
  else none

/-- The boot ROM sets every bit from the map; a bad P0 sets all (R431). -/
def Sw.loadProtect (w : Sw) : Sw := { w with opened := ((w.p0Map).map openedBy).getD [] }

/-- P0 with a new map. -/
def p0Bytes (m : List Byte) : List Byte :=
  let body := leBytes 0x504D535A 4 ++ leBytes 1 4 ++ padTo 264 m
  body ++ leBytes (crc32c body).toNat 4

/-- The protect bits as a 264-byte map. -/
def Sw.protectMap (w : Sw) : List Byte :=
  (List.range 264).map (fun i => BitVec.ofNat 8 ((List.range 8).foldl (fun v b =>
    v + (if 8 * i + b < sectorCount ∧ w.protected (8 * i + b) then 2 ^ b else 0)) 0))

/-! ## Owner keys (R446) -/

def keySlot (w : Sw) (i : Nat) : List Byte := w.bytes (0x1000 + 128 * i) 128

/-- Apply one valid record to the key set. -/
def applyKey (k : KMap (List Byte)) (l : List Byte) : KMap (List Byte) :=
  if recordOk 0x5A05 l then
    (if byteAt l 2 = 1 then k.put (byteAt l 3) (sliceZ l 16 60) else k.del (byteAt l 3))
  else k

/-- The active owner keys by key_index. -/
def Sw.ownerKeys (w : Sw) : KMap (List Byte) := (List.range 32).foldl (fun k i => applyKey k (keySlot w i)) []

/-- Highest counter in the register. -/
def Sw.keyCounter (w : Sw) : Nat :=
  (List.range 32).foldl (fun m i => let l := keySlot w i; if recordOk 0x5A05 l then max m (u64At l 8) else m) 0

/-- Slots of P1 used. -/
def Sw.keySlotsUsed (w : Sw) : Nat := ((List.range 32).filter (fun i => !blank (keySlot w i))).length

/-! ## The window (R434 to R439) -/

/-- The word of a command cycle with value `v`: the value, its complement, two zero bytes. -/
def cmdWord (v : Nat) : W32 := BitVec.ofNat 32 (v + 256 * (255 - v))

/-- End the sequence and set SEQERR (R436). -/
def Sw.seqErr (w : Sw) : Sw := { w with seq := .idle, bits := setEv w.bits 5, event := setEv w.event 5 }

/-- Target address of an operation. -/
def SwOp.addr : SwOp → Nat
  | .program a _ => a
  | .erase a => a

/-- The words a program would store, as bytes with their addresses. -/
def SwOp.cells : SwOp → List (Nat × Byte)
  | .program _ ws => ws.flatMap (fun x => (leBytes x.2.toNat 4).zipIdx.map (fun y => (x.1 + y.2, y.1)))
  | .erase _ => []

/-- Some bit would have to go from 0 to 1. -/
def Sw.notErased (w : Sw) (o : SwOp) : Bool :=
  o.cells.any (fun c => (readCell 0xFF w.store c.1 &&& c.2) != c.2)

/-- Every bit already holds its new value. -/
def Sw.unchanged (w : Sw) (o : SwOp) : Bool :=
  match o with
  | .program _ _ => o.cells.all (fun c => readCell 0xFF w.store c.1 == c.2)
  | .erase _ => false

/-- A window command starts (R438): the result bits clear, then protection, erasure and no-change are checked; otherwise
pulses begin. -/
def Sw.start (w : Sw) (o : SwOp) : Sw :=
  let w1 := { w with bits := 0, pulses := 0, last := BitVec.ofNat 32 o.addr, seq := .idle }
  if w.protected (sectorOf o.addr) then { w1 with bits := setEv 0 4, event := setEv (setEv w.event 4) 0 }
  else if w.notErased o then { w1 with bits := setEv 0 1, event := setEv (setEv w.event 1) 0 }
  else if w.unchanged o then { w1 with event := setEv w.event 0 }
  else { w1 with run := some (o, false) }

/-- The final cycle of a program or erase (R439): it starts, waits for an internal operation, or, while another window
command waits or runs, ends with SEQERR. -/
def Sw.final (w : Sw) (o : SwOp) : Sw :=
  if w.queued.isSome || (match w.run with | some (_, false) => true | _ => false) then w.seqErr
  else if w.busy then { w with seq := .idle, queued := some o }
  else w.start o

/-- One cycle of the window (R435, R436). -/
def Sw.cycle (w : Sw) (c : SwCycle) : Sw :=
  if c.len ≠ 4 ∨ c.off % 4 ≠ 0 ∨ storeBytes ≤ c.off then w.seqErr
  else if c.word = cmdWord 0xE1 then { w with seq := .idle, ident := false }
  else
    let a1 := c.off == 0xF00 && c.word == cmdWord 0x5A
    let a2 := c.off == 0xF0 && c.word == cmdWord 0xC3
    match w.seq with
    | .idle => if a1 then { w with seq := .arm1 } else w.seqErr
    | .arm1 => if a2 then { w with seq := .armed } else w.seqErr
    | .armed =>
      if c.off ≠ 0xF00 then w.seqErr
      else if c.word = cmdWord 0x31 then { w with seq := .word }
      else if c.word = cmdWord 0x3B then { w with seq := .page [] }
      else if c.word = cmdWord 0x6E then { w with seq := .erase0 }
      else if c.word = cmdWord 0x1D then { w with seq := .idle, ident := true }
      else w.seqErr
    | .word => w.final (.program c.off [(c.off, c.word)])
    | .page [] => { w with seq := .page [(c.off, c.word)] }
    | .page (x :: xs) =>
      if c.off / 256 ≠ x.1 / 256 then w.seqErr
      else if c.word = cmdWord 0x3E then w.final (.program (256 * (x.1 / 256)) (x :: xs))
      else { w with seq := .page ((x :: xs).filter (fun y => !(y.1 == c.off)) ++ [(c.off, c.word)]) }
    | .erase0 => if a1 then { w with seq := .eraseArm1 } else w.seqErr
    | .eraseArm1 => if a2 then { w with seq := .eraseArmed } else w.seqErr
    | .eraseArmed => if c.word = cmdWord 0x6D then w.final (.erase c.off) else w.seqErr

/-- Several cycles in order. -/
def Sw.cycles (w : Sw) (cs : List SwCycle) : Sw := cs.foldl Sw.cycle w

/-- The end of sequences and identify mode by a reset (R436). -/
def Sw.endSeq (w : Sw) : Sw := { w with seq := .idle, ident := false }

/-- Byte `i` of the identify table (R437). -/
def identByte (i : Nat) : Byte :=
  let w : Nat := [0x1F2C, 0x0704, 27, 32 + 12 * 2 ^ 16, 2046 + 16 * 2 ^ 16, 256, 16].getD (i / 4) 0
  if 0x1C ≤ i ∧ i < 0x1F then Config.jedec (i - 0x1C)
  else if i < 0x1C then BitVec.ofNat 8 (w / 256 ^ (i % 4)) else 0

/-- A read of the window of up to 64 bytes (R434). -/
def Sw.windowRead (w : Sw) (off len : Nat) : List Byte × Sw :=
  if w.busy then (List.replicate len 0xFF, { w with event := setEv w.event 6 })
  else ((List.range len).map (fun i =>
    if w.ident ∧ off + i < 0x40 then identByte (off + i) else readCell 0xFF w.store (off + i)), w)

/-- The bytes of a completed program. -/
def Sw.applyCells (w : Sw) (cs : List (Nat × Byte)) : Sw :=
  { w with store := cs.foldl (fun m c => writeCell 0xFF m c.1 (readCell 0xFF m c.1 &&& c.2)) w.store }

/-- A program or erase that succeeded, with the pulses it took. -/
def Sw.opOk (w : Sw) (o : SwOp) (pulses : Nat) : Sw :=
  match o with
  | .program a _ =>
    { w.applyCells o.cells with
      run := none, pulses := pulses, pulseCnt := sat32 (w.pulseCnt + pulses), event := setEv w.event 0
      pulseMax := max w.pulseMax pulses, pulseSect := if w.pulseMax < pulses then sectorOf a else w.pulseSect }
  | .erase a => { w.eraseSector (sectorOf a) with run := none, event := setEv w.event 0 }

/-- A program or erase that failed: its bytes are free, within what a program or an erase can do to them. -/
def State.swFail (s : State) (o : SwOp) : State :=
  let r := s.draw
  let w := r.2.sw
  match o with
  | .program a _ =>
    let junk := o.cells.map (fun c => (c.1, c.2 ||| (r.1 >>> (c.1 % 8 * 8)).setWidth 8))
    { r.2 with sw := { w.applyCells junk with
        run := none, pulses := 16, pulseCnt := sat32 (w.pulseCnt + 16), pfailCnt := sat16 (w.pfailCnt + 1)
        bits := setEv w.bits 2, event := setEv (setEv w.event 2) 0 } }.postCorr srcSW kProgFail (BitVec.ofNat 64 a) 16 0 0 0
  | .erase a =>
    let s0 := sectorOf a
    let keep := w.store.filter (fun e => sectorBase s0 ≤ e.1 ∧ e.1 < sectorBase s0 + sectorSize s0)
    let w1 := keep.foldl (fun (x : Sw) e => { x with store := writeCell 0xFF x.store e.1 (e.2 ||| (r.1 >>> (e.1 % 8 * 8)).setWidth 8) }) w
    { r.2 with sw := { w1 with
        run := none, efailCnt := sat16 (w.efailCnt + 1), bits := setEv w.bits 3
        event := setEv (setEv w.event 3) 0 } }.postCorr srcSW kEraseFail (BitVec.ofNat 64 a) 16 0 0 0

/-! ## Maintenance grants (R432, R433) -/

/-- A failed verification of any kind (R464). -/
def State.verifyFailed (s : State) : State :=
  { s with se := { s.se with failCnt := sat32 (s.se.failCnt + 1), event := setEv s.se.event 3 } }

/-- SW_GRANT_RESULT.CODE and GRANT_DONE. -/
def State.grantEnds (s : State) (code : Nat) : State :=
  { s with sw := { s.sw with grantCode := code, event := setEv s.sw.event 7 } }

/-- Format of a grant; map bits 2,078 to 2,111 are 0 as in P0 (R431, R432). -/
def grantFormatOk (g : List Byte) : Bool :=
  u32At g 0 == 0x4757535A && u16At g 4 == 1 && u16At g 6 / 2 == 0 && g.length ≤ 8192
  && byteAt g 315 / 64 == 0 && zerosAt g 316 4
  && 320 + u32At g 12 == g.length

/-- Steps 5 to 7 of R433. -/
def State.applyGrant (s : State) (g : List Byte) (writes : List Bool) : State :=
  let r := s.logWrite logGrant (sliceZ g 16 8) writes
  if !r.2 then r.1.grantEnds 6
  else
    let map := sliceZ g 56 264
    let s1 := { r.1 with sw := { r.1.sw with opened := openedBy map } }
    if bitN (u16At g 6) 0 then
      let s2 := s1.swErase 0
      if writes.getD 2 true then (s2.swProgram 0 (p0Bytes map)).grantEnds 0
      else (s2.swProgramFail 0 (p0Bytes map)).grantEnds 6
    else s1.grantEnds 0

/-- A grant in the order of R433. -/
def State.maintenance (s : State) (g : List Byte) (sigOk : Bool) (writes : List Bool) : State :=
  if !grantFormatOk g then s.grantEnds 1
  else if (s.sw.ownerKeys.find (u32At g 8)).isNone then s.grantEnds 3
  else if !sigOk then s.verifyFailed.grantEnds 2
  else if sliceZ g 24 32 ≠ s.se.identity then s.grantEnds 4
  else if u64At g 16 ≤ s.sw.grantCounter then s.grantEnds 5
  else s.applyGrant g writes

/-! ## Meanings -/

/-- SW_WINDOW_READ (R434, R437). -/
def execSwWindowRead (off len : Nat) (s : State) : Host.Outcome State Fault Refusal :=
  done (if s.linkUp && len ≤ 64 then
    { s with busRead := (s.sw.windowRead off len).1, sw := (s.sw.windowRead off len).2 } else s)

/-- Cycles of the window while the link is up. -/
def State.swCycles (s : State) (cs : List SwCycle) : State :=
  if s.linkUp then { s with sw := s.sw.cycles cs } else s

/-- WORD_PROGRAM (R435, R436, R438, R439). -/
def execWordProgram (cycles : List SwCycle) (s : State) : Host.Outcome State Fault Refusal := done (s.swCycles cycles)

/-- PAGE_PROGRAM (R435, R436, R438). -/
def execPageProgram (cycles : List SwCycle) (s : State) : Host.Outcome State Fault Refusal := done (s.swCycles cycles)

/-- SECTOR_ERASE (R435, R438). -/
def execSectorErase (cycles : List SwCycle) (s : State) : Host.Outcome State Fault Refusal := done (s.swCycles cycles)

/-- IDENTIFY_MODE (R435, R437). -/
def execIdentifyMode (cycles : List SwCycle) (s : State) : Host.Outcome State Fault Refusal := done (s.swCycles cycles)

/-- SW_ABORT (R435, R436): 0xE1 at any word address ends a sequence and leaves identify mode. -/
def execSwAbort (off : Nat) (s : State) : Host.Outcome State Fault Refusal :=
  done (s.swCycles [{ off := off, len := 4, word := cmdWord 0xE1 }])

/-- SW_OP_DONE (R427, R438, R439). -/
def execSwOpDone (pulses : Nat) (ok : Bool) (s : State) : Host.Outcome State Fault Refusal :=
  done (match s.sw.run with
    | none => s
    | some (o, _) => if ok then { s with sw := s.sw.opOk o (min 16 pulses) } else s.swFail o)

/-- SW_QUEUED_START (R439). -/
def execSwQueuedStart (s : State) : Host.Outcome State Fault Refusal :=
  done (match s.sw.queued with
    | none => s
    | some o => if s.sw.run.isSome || s.sw.busyBoot then s else { s with sw := { s.sw with queued := none }.start o })

/-- SW_PROTECT_SET (R431, R442): a 1 sets the bit of sector 32 word + b. -/
def execSwProtectSet (word : Nat) (v : W32) (s : State) : Host.Outcome State Fault Refusal :=
  done (if s.linkUp && word < 65 then
    { s with sw := { s.sw with opened := s.sw.opened.filter (fun x => !(x / 32 == word && bitW v (x % 32))) } }
  else s)

/-- MAINTENANCE_GRANT (R432, R433). -/
def execMaintenanceGrant (grant : List Byte) (sigOk : Bool) (writes : List Bool) (s : State) :
    Host.Outcome State Fault Refusal :=
  done (if s.linkUp then s.maintenance grant sigOk writes else s)

end Sys2Proof.Machine
end

