-- ==== Sys2Proof/Machine/Queues.lean ====
section
/-! DEFINITION. The NVMe controller and its queues (R312, R313, R317, R318, R332, R336, R383): doorbells, enable, resets,
queue creation and deletion, errors of the link (R404), shutdown. -/

namespace Sys2Proof.Machine

/-! ## Commands that lose their queue (R332) -/

/-- Rename the command a waiter on a directory entry belongs to. -/
def DirWait.mapCmd (f : CmdId → CmdId) (w : DirWait) : DirWait :=
  match w with
  | .place c j => .place (f c) j
  | .evict c p => .evict (f c) p
  | .publishNear c d => .publishNear (f c) d

/-- Rename the command a clear completes. -/
def ClearBy.mapCmd (f : CmdId → CmdId) (b : ClearBy) : ClearBy :=
  match b with
  | .command c => .command (f c)
  | .register => .register

/-- Rename every command the module still carries out. -/
def State.mapCmds (s : State) (f : CmdId → CmdId) : State :=
  { s with
    jd := { s.jd with jobs := s.jd.jobs.map (fun j => { j with c := f j.c }) }
    rl := { s.rl with
      copies := s.rl.copies.map (fun x => { x with cmd := x.cmd.map (fun k => { k with c := f k.c }) })
      waiting := s.rl.waiting.map (fun k => { k with c := f k.c })
      dir := s.rl.dir.mapVals (fun _ e => { e with waits := e.waits.map (DirWait.mapCmd f) }) }
    sl := { s.sl with
      load := s.sl.load.map (fun l => { l with c := f l.c, retires := l.retires.map (fun r => { r with cs := r.cs.map f }) })
      retire := s.sl.retire.map (fun r => { r with cs := r.cs.map f }) }
    fl := { s.fl with clear := s.fl.clear.map (fun k => { k with by_ := k.by_.mapCmd f }) }
    mc := { s.mc with fatalClear := s.mc.fatalClear.map (ClearBy.mapCmd f) }
    se := { s.se with commit := s.se.commit.map (fun k => { k with c := f k.c }) }
    qe := { s.qe with
      store := s.qe.store.map (fun k => { k with c := f k.c })
      held := s.qe.held.map f } }

/-- The commands of function 0's queues `p` have no queue any more: no completion of theirs is posted, and a later command
with the same identifier is another one. -/
def State.orphan (s : State) (p : Nat → Bool) : State :=
  let f : CmdId → CmdId := fun c => if p c.sq && c.sq < 0x10000 && c.sq != lpQueue then { c with sq := c.sq + 0x10000 } else c
  let s1 := s.mapCmds f
  { s1 with qe := { s1.qe with
      fetched := s1.qe.fetched.filter (fun c => !(p c.sq && c.sq != lpQueue))
      cqWait := s1.qe.cqWait.filter (fun k => !(p k.c.sq)) } }

/-- A reset of function 0 stops QE (R332): writes that hold entries run on, jobs stop as a JOB_CANCEL stops them, and any
sequence in the settings window ends (R436). -/
def State.stopQe (s : State) : State :=
  let s1 := s.orphan (fun _ => true)
  let s2 := s1.jd.jobs.foldl (fun s j => if j.stop.isSome then s else s.cancelJob j) s1
  let s3 := s2.resetStore false
  { s3 with qe := { s3.qe with aers := [], cqWait := [] }, sw := s3.sw.endSeq }

/-- The controller registers and features as NVM Express resets them; AQA, ASQ and ACQ stay through a controller reset. -/
def Qe.controllerDown (q : Qe) : Qe :=
  { q with
    cc := 0, intMask := 0, enabled := false, ready := false, shst := 0, sqs := [], cqs := [], aers := [], masked := [],
    events := [], features := [], apst := [], apstOn := false, timestamp := [],
    turn := none, urgentAt := 0, quota := [] }

/-- A controller reset. -/
def State.controllerReset (s : State) : State :=
  let s1 := s.stopQe
  { s1 with qe := s1.qe.controllerDown }

/-- Function 1 is reset (R355): its commands end with no STATUS, windows not complete are gone, its indices are 0. -/
def State.resetLp (s : State) : State :=
  let s0 := s.resetStore true
  let s1 := (s0.qe.store.filter (fun k => k.c.sq == lpQueue && k.silent && k.op == .write && (k.stage != .running || k.landed))).foldl
    (fun s k => s.finishWrite k) s0
  { s1 with
    qe := { s1.qe with fetched := s1.qe.fetched.filter (fun c => c.sq != lpQueue) }
    lp := { s1.lp with reqProd := 0, reqCons := 0, rplProd := 0, rplCons := 0, cmds := [], outq := [] } }

/-- CSTS.RDY can set: after entry to BLOCKS or RECOVERY (R383). -/
def State.mayBeReady (s : State) : Bool := s.vendorLive || s.mc.phase == .recovery

/-- Entry to BLOCKS or RECOVERY: CSTS.RDY follows CC.EN. -/
def State.takeReady (s : State) : State := { s with qe := { s.qe with ready := s.qe.enabled } }

/-- CC.EN is set: the admin queue pair comes from AQA. -/
def State.controllerEnable (s : State) : State :=
  { s with qe := { s.qe with
      cc := s.qe.cc ||| 1, enabled := true, ready := s.mayBeReady
      sqs := [(0, { size := bitsW s.qe.aqa 11 0 + 1, prio := 0, cq := 0, tail := 0, head := 0, blocked := none })]
      cqs := [(0, { size := bitsW s.qe.aqa 27 16 + 1, vector := 0, ien := true, head := 0, tail := 0 })] } }

/-! ## Doorbells -/

/-- A command waits in an I/O queue: PS3 and PS4 are left before it runs (R336). -/
def State.wakeIo (s : State) (sq : Nat) : State :=
  if sq != 0 && 3 ≤ s.qe.ps then { s with qe := { s.qe with psWant := some s.qe.psLastOp, psAuto := false } } else s

/-- A submission queue tail doorbell. -/
def State.sqTail (s : State) (n tail : Nat) : State :=
  match s.qe.sqs.find n with
  | none => s
  | some q =>
    if q.size ≤ tail then s
    else
      let s1 : State := { s with qe := { s.qe with sqs := s.qe.sqs.put n { q with tail := tail } } }
      if tail = q.head then s1 else s1.wakeIo n

/-- Post the completions that wait for a completion queue, in order, while it has room. -/
def Qe.drainWait (q : Qe) : Qe :=
  q.cqWait.foldl (fun q k => q.post k) { q with cqWait := [] }

/-- A completion queue head doorbell. -/
def State.cqHead (s : State) (n head : Nat) : State :=
  match s.qe.cqs.find n with
  | none => s
  | some k =>
    if k.size ≤ head then s
    else { s with qe := ({ s.qe with cqs := s.qe.cqs.put n { k with head := head } } : Qe).drainWait }

/-! ## Queue creation and deletion -/

/-- Queue ids of I/O queues. -/
def ioQueueId (n : Nat) : Bool := 1 ≤ n && n ≤ 512

/-- Create I/O Completion Queue; `size` is 0-based. -/
def State.createCq (s : State) (c : CmdId) (n size vector : Nat) (ien pc : Bool) : State :=
  if !ioQueueId n || (s.qe.cqs.find n).isSome then s.complete c stQueueId
  else if size = 0 ∨ 4095 < size then s.complete c stQueueSize
  else if 512 < vector then s.complete c stVector
  else if !pc then s.complete c stInvalidField
  else
    let k : Cq := { size := size + 1, vector := vector, ien := ien, head := 0, tail := 0 }
    { s with qe := { s.qe with cqs := s.qe.cqs.put n k } }.complete c stOk

/-- Create I/O Submission Queue. -/
def State.createSq (s : State) (c : CmdId) (n size prio cq : Nat) (pc : Bool) : State :=
  if !ioQueueId n || (s.qe.sqs.find n).isSome then s.complete c stQueueId
  else if size = 0 ∨ 4095 < size then s.complete c stQueueSize
  else if !ioQueueId cq then s.complete c stQueueId
  else if (s.qe.cqs.find cq).isNone then s.complete c stCqInvalid
  else if !pc then s.complete c stInvalidField
  else
    let k : Sq := { size := size + 1, prio := prio % 4, cq := cq, tail := 0, head := 0, blocked := none }
    { s with qe := { s.qe with sqs := s.qe.sqs.put n k } }.complete c stOk

/-- Delete I/O Submission Queue: the commands fetched from it run on, with no completion. -/
def State.deleteSq (s : State) (c : CmdId) (n : Nat) : State :=
  if !ioQueueId n || (s.qe.sqs.find n).isNone then s.complete c stQueueId
  else
    let s1 := s.orphan (fun q => q == n)
    { s1 with qe := { s1.qe with sqs := s1.qe.sqs.del n, quota := s1.qe.quota.del n } }.complete c stOk

/-- Delete I/O Completion Queue: not while a submission queue uses it. -/
def State.deleteCq (s : State) (c : CmdId) (n : Nat) : State :=
  if !ioQueueId n || (s.qe.cqs.find n).isNone then s.complete c stQueueId
  else if (KMap.vals s.qe.sqs).any (fun q => q.cq == n) then s.complete c stQueueDelete
  else { s with qe := { s.qe with cqs := s.qe.cqs.del n } }.complete c stOk

/-! ## Link errors (R404) -/

/-- The command whose data transfer failed ends with Data Transfer Error. -/
def State.transferFails (s : State) (c : CmdId) : State :=
  match s.storeCmd c with
  | some k => s.endStore k stDataTransfer []
  | none =>
    match s.jd.jobs.find? (fun j => j.c == c) with
    | some j =>
      (match j.kind with
       | 6 => s.stopCommit j.tag 4 stDataTransfer
       | 0x11 => s.cutAppend (j.u32 64) 4 stDataTransfer 0
       | _ => (s.dropCopies j.tag).stopJob j.tag 4 stDataTransfer)
    | none =>
      match s.rl.copies.find? (fun x => x.cmd.map ObjCmd.c == some c) with
      | some x => (s.dropCopy x).complete c stDataTransfer
      | none => s.complete c stDataTransfer

/-! ## Meanings -/

/-- SQ_TAIL_DOORBELL (R312, R317, R318, R336). -/
def execSqTailDoorbell (sq tail : Nat) (s : State) : Host.Outcome State Fault Refusal :=
  done (if s.linkUp then s.sqTail sq tail else s)

/-- CQ_HEAD_DOORBELL (R312). -/
def execCqHeadDoorbell (cq head : Nat) (s : State) : Host.Outcome State Fault Refusal :=
  done (if s.linkUp then s.cqHead cq head else s)

/-- CONTROLLER_ENABLE: CC.EN becomes 1 (R312, R383). -/
def execControllerEnable (s : State) : Host.Outcome State Fault Refusal :=
  done (if s.linkUp && !s.qe.enabled then s.controllerEnable else s)

/-- CONTROLLER_RESET: CC.EN becomes 0 (R5, R332, R333, R378, R436). -/
def execControllerReset (s : State) : Host.Outcome State Fault Refusal :=
  done (if s.linkUp then s.controllerReset else s)

/-- FLR_FUNCTION0 (R5, R332, R378, R436): as a controller reset, with AQA, ASQ and ACQ. -/
def execFlrFunction0 (s : State) : Host.Outcome State Fault Refusal :=
  done (if s.linkUp then
    { s.controllerReset with qe := { s.controllerReset.qe with aqa := 0, asq := 0, acq := 0 } } else s)

/-- FLR_FUNCTION1 (R5, R355). -/
def execFlrFunction1 (s : State) : Host.Outcome State Fault Refusal := done (if s.linkUp then s.resetLp else s)

/-- HL_PCIE_ERROR (R404): one record per error bit and beat. -/
def execHlPcieError (fn bit : Nat) (s : State) : Host.Outcome State Fault Refusal :=
  done (if s.linkUp then
    s.postOnce srcHL kProtocol (fn * 32 + bit) 0 (BitVec.ofNat 32 fn) (BitVec.ofNat 32 bit) 0 0 else s)

/-- DATA_TRANSFER_ERROR (R404): a record from QE, and the command ends with Data Transfer Error. -/
def execDataTransferError (c : CmdId) (addr : W64) (s : State) : Host.Outcome State Fault Refusal :=
  done (if s.qe.fetched.contains c then (s.postCorr srcQE kProtocol addr 0 0 0 0).transferFails c else s)

/-- CREATE_IO_SQ (R312, R317, R391). -/
def execCreateIoSq (c : CmdId) (sqid size prio cqid : Nat) (pc : Bool) (s : State) : Host.Outcome State Fault Refusal :=
  done (s.command c .served (fun s => s.createSq c sqid size prio cqid pc))

/-- CREATE_IO_CQ (R312, R391). -/
def execCreateIoCq (c : CmdId) (cqid size vector : Nat) (ien pc : Bool) (s : State) : Host.Outcome State Fault Refusal :=
  done (s.command c .served (fun s => s.createCq c cqid size vector ien pc))

/-- DELETE_IO_SQ (R312). -/
def execDeleteIoSq (c : CmdId) (sqid : Nat) (s : State) : Host.Outcome State Fault Refusal :=
  done (s.command c .served (fun s => s.deleteSq c sqid))

/-- DELETE_IO_CQ (R312). -/
def execDeleteIoCq (c : CmdId) (cqid : Nat) (s : State) : Host.Outcome State Fault Refusal :=
  done (s.command c .served (fun s => s.deleteCq c cqid))

/-- NVME_SHUTDOWN (R215): a shutdown of the controller completes, every write that completed being on the medium. -/
def execNvmeShutdown (s : State) : Host.Outcome State Fault Refusal :=
  done (if s.linkUp && s.qe.enabled then { s with qe := { s.qe with shst := 2 } } else s)

end Sys2Proof.Machine
end

