-- ==== Sys2Proof/Machine/PowerStates.lean ====
section
/-! DEFINITION. Power states (R334 to R337, R371, R372, R388): requests, the change at a beat boundary, the APST timer. -/

namespace Sys2Proof.Machine

/-- The APST idle timer runs (R337, R372, R389). -/
def State.apstRuns (s : State) : Bool :=
  s.inGo && s.qe.apstOn && s.qe.fetched.isEmpty && !s.anyAdmitted && (!s.bandActive || s.pc.lowDemand)

/-- A band holds the timer: QE_STATUS.APST_HELD (R337, R344). -/
def State.apstHeld (s : State) : Bool :=
  s.inGo && s.qe.apstOn && s.qe.fetched.isEmpty && !s.anyAdmitted && s.bandActive && !s.pc.lowDemand

/-- Nothing JD issued is in flight: laps, scan extents and search batches have run to their end (R335). -/
def State.panelIdle (s : State) : Bool :=
  s.jd.laps.all (fun e => e.2.flight.isNone)
  && s.jd.jobs.all (fun j => j.scan.issued.isEmpty && !(j.kind == 3 && j.admitted && j.search.started))

/-- Lane memory, latches, contexts and the keeper table are lost (R336, R395); TILE registers that count or test stay. -/
def State.panelLost (s : State) : State :=
  { s with tiles := s.tiles.mapVals (fun _ t => { t.sweep with swept := false }) }.dropAllKeepers

/-- An explicit lower state whose cap lies below the band's bottom (R371). -/
def State.capBreaksBand (s : State) (n : Nat) : Bool :=
  s.pc.bandOn && 2 ≤ n && !s.qe.psAuto && capOf n + s.pc.tol < s.pc.target

/-- A command waits in an I/O submission queue (R336). -/
def State.ioWaits (s : State) : Bool := s.qe.sqs.any (fun e => e.1 != 0 && e.2.blocked == none && e.2.head != e.2.tail)

/-- The power state becomes `n` (R335 to R337, R344, R365, R371); PS3 and PS4 are left again for a command that waits in an I/O
queue. -/
def State.applyPs (s : State) (n : Nat) : State :=
  let back := n < 2 && 2 ≤ s.qe.ps
  let s1 : State := { s with
    qe := ({ s.qe with
      ps := n, psWant := if 3 ≤ n && s.ioWaits then some s.qe.psLastOp else none
      psAuto := s.qe.psAuto && 3 ≤ n, psLastOp := if n < 3 then n else s.qe.psLastOp
      psEvents := s.qe.psEvents + 1, event := setEv s.qe.event 2 } : Qe).asyncEvent 0xC3
    pc := if back && s.pc.bandOn then s.pc.settleBand else s.pc }
  let s2 := if n = 4 then s1.panelLost else s1
  if s.capBreaksBand n then { s2 with pc := { s2.pc with bandState := 2 } }.postBand s2.pc.windowMean 1
  else { s2 with pc := { s2.pc with bandState := s2.bandNow } }.report

/-- The change that waits, at a beat boundary in GO (R335); one out of PS4 is PS4_EXIT's. -/
def State.powerChange (s : State) : State :=
  match s.qe.psWant with
  | none => s
  | some n =>
    if n = s.qe.ps then { s with qe := { s.qe with psWant := none } }
    else if s.qe.psAuto && 3 ≤ n && !s.apstRuns then { s with qe := { s.qe with psWant := none, psAuto := false } }
    else if s.qe.ps = 4 || (2 ≤ n && !s.panelIdle) || (3 ≤ n && s.anyAdmitted) then s
    else s.applyPs n

/-- Set Features of Power Management (R335, R336, R388): recorded outside GO, refused while a job is admitted. -/
def State.setPower (s : State) (c : CmdId) (n : Nat) : State :=
  if 4 < n then s.complete c stInvalidField
  else if !s.inGo then { s with qe := { s.qe with psAtGo := n } }.complete c stOk
  else if 3 ≤ n && s.anyAdmitted then s.complete c stSequence
  else { s with qe := { s.qe with psAtGo := n, psWant := some n, psAuto := false } }.complete c stOk

/-! ## Meanings -/

/-- SET_FEATURES_POWER_MANAGEMENT (R336, R388). -/
def execSetFeaturesPowerManagement (c : CmdId) (ps : Nat) (s : State) : Host.Outcome State Fault Refusal :=
  done (s.command c .served (fun s => s.setPower c ps))

/-- POWER_STATE_CHANGE (R326, R335, R365). -/
def execPowerStateChange (s : State) : Host.Outcome State Fault Refusal := done (if s.inGo then s.powerChange else s)

/-- APST_IDLE_EXPIRY (R337, R372, R389): the timer of the entry that names PS `ps` has expired. -/
def execApstIdleExpiry (ps : Nat) (s : State) : Host.Outcome State Fault Refusal :=
  done (if s.apstRuns && (ps == 3 || ps == 4) && ((s.qe.apst.find s.qe.ps).map Prod.fst) == some ps then
    { s with qe := { s.qe with psWant := some ps, psAuto := true } } else s)

end Sys2Proof.Machine
end

