-- ==== Sys2Proof/Machine/Admin.lean ====
section
/-! DEFINITION. Administration (R312, R313, R315, R316, R321, R324, R326, R337, R340 to R342, R463, R475): Identify, log pages,
features, events, namespaces, versions and the sideband. -/

namespace Sys2Proof.Machine

/-! ## Log pages and events -/

/-- A read with Retain Asynchronous Event clear ends the masking of its page's event (R326). -/
def Qe.unmask (q : Qe) (page : Nat) : Qe := { q with masked := q.masked.filter (fun p => p != page) }

/-- Get Log Page (R324): an offset that is a multiple of 4. -/
def State.getLog (s : State) (c : CmdId) (page lsf : Nat) (rae : Bool) (off len : Nat) : State :=
  if off % 4 ≠ 0 then s.complete c stInvalidField
  else match s.logPage page off len with
    | none => s.complete c (if s.mc.phase = .recovery then stSequence else stLogPage)
    | some d =>
      let q := if rae then s.qe else s.qe.unmask page
      let q1 := if page = 0xC1 ∧ bitN lsf 0 then { q with wp := [], wpOverflow := false } else q
      { s with qe := q1, tick := s.tick + 1 }.complete c stOk 0 0 [d]

/-- Asynchronous Event Request: sixteen at once; an event not yet reported is reported now. -/
def State.eventRequest (s : State) (c : CmdId) : State :=
  if 16 ≤ s.qe.aers.length then s.complete c stAerLimit
  else
    let q : Qe := { s.qe with aers := s.qe.aers ++ [c] }
    { s with qe := match q.events with
      | [] => q
      | e :: es => ({ q with events := es } : Qe).asyncEvent e }

/-- Abort: only a waiting Asynchronous Event Request ends; any other command is "not aborted" (R321). -/
def State.abortCmd (s : State) (c target : CmdId) : State :=
  if s.qe.aers.contains target then
    ({ s with qe := { s.qe with aers := s.qe.aers.filter (fun d => !(d == target)) } }.complete target stAbortRequested).complete c stOk 0
  else s.complete c stOk 1

/-! ## Features (R313, R317, R337) -/

/-- Features the controller has. -/
def featureKnown (fid : Nat) : Bool := [1, 2, 4, 7, 8, 9, 10, 11, 12, 14].contains fid

/-- Where a feature's value is kept: Temperature Threshold by type and sensor, Interrupt Vector Configuration by vector. -/
def featureKey (fid : Nat) (v : W32) : Nat :=
  if fid = 4 then 4 + 256 * bitsW v 21 16 else if fid = 9 then 9 + 256 * bitsW v 15 0 else fid

/-- The selectors of a Temperature Threshold name a threshold the module has: the Composite Temperature or sensors 1 to 4,
over or under (R316). -/
def thresholdOk (v : W32) : Bool := bitsW v 19 16 ≤ 4 && bitsW v 21 20 ≤ 1

/-- The thresholds a Set Features names: sensor select 15 names them all. -/
def thresholdKeys (v : W32) : List Nat :=
  if bitsW v 19 16 = 15 then (List.range 5).map (fun i => 4 + 256 * (i + 16 * bitsW v 21 20)) else [featureKey 4 v]

/-- Entry `k` of an APST table: target state and idle time in ms. -/
def apstEntry (d : List Byte) (k : Nat) : Nat × Nat := (bitsN (u64At d (8 * k)) 7 3, bitsN (u64At d (8 * k)) 31 8)

/-- An APST entry that has a timer and names PS3 or PS4, or names nothing (R337). -/
def apstEntryOk (e : Nat × Nat) : Bool := if e.2 = 0 then e.1 == 0 || 3 ≤ e.1 && e.1 ≤ 4 else 3 ≤ e.1 && e.1 ≤ 4

/-- Set Features but for Power Management. -/
def State.setFeature (s : State) (c : CmdId) (fid : Nat) (v : W32) (data : List Byte) : State :=
  if !featureKnown fid then s.complete c stInvalidField
  else match fid with
    | 2 => s.setPower c (bitsW v 4 0)
    | 4 =>
      if !thresholdOk v && !(bitsW v 19 16 == 15 && bitsW v 21 20 ≤ 1) then s.complete c stInvalidField
      else { s with qe := { s.qe with
          features := (thresholdKeys v).foldl (fun m k => m.put k (v &&& 0xFFFF)) s.qe.features } }.complete c stOk
    | 7 =>
      if 1 < s.qe.sqs.length || 1 < s.qe.cqs.length then s.complete c stSequence
      else if bitsW v 15 0 = 0xFFFF ∨ bitsW v 31 16 = 0xFFFF then s.complete c stInvalidField
      else s.complete c stOk 0x01FF01FF
    | 9 => if 512 < bitsW v 15 0 then s.complete c stInvalidField
      else { s with qe := { s.qe with features := s.qe.features.put (featureKey fid v) v } }.complete c stOk
    | 12 =>
      let es := (List.range 5).map (fun k => (k, apstEntry data k))
      if !es.all (fun e => apstEntryOk e.2) then s.complete c stInvalidField
      else { s with qe := { s.qe with apst := es.filter (fun e => e.2.2 != 0), apstOn := bitW v 0 } }.complete c stOk
    | 14 => { s with qe := { s.qe with timestamp := padTo 8 data } }.complete c stOk
    | _ => { s with qe := { s.qe with features := s.qe.features.put (featureKey fid v) v } }.complete c stOk

/-- Value of a feature that holds one dword; `sel` selects a threshold or a vector. -/
def State.featureValue (s : State) (fid : Nat) (sel : W32) : Nat :=
  match fid with
  | 1 => ((s.qe.features.find 1).map BitVec.toNat).getD 0x1F0F0703
  | 2 => s.qe.ps
  | 4 => s.threshold (bitsW sel 21 16)
  | 9 => (((s.qe.features.find (featureKey 9 sel)).map BitVec.toNat).getD (bitsW sel 15 0))
  | 7 => 0x01FF01FF
  | 12 => b2n s.qe.apstOn
  | 14 => 0
  | _ => ((s.qe.features.find fid).map BitVec.toNat).getD 0

/-- Data of a feature: the APST table, and the running timestamp, which is free. -/
def State.featureData (s : State) (fid : Nat) : List (List Byte) :=
  match fid with
  | 12 => [padTo 256 ((List.range 5).flatMap (fun k =>
      leBytes (((s.qe.apst.find k).map (fun e => 8 * e.1 + 256 * e.2)).getD 0) 8))]
  | 14 => [(List.range 6).map (fun i => (Config.freeWord s.tick i).setWidth 8) ++ leBytes (if s.qe.timestamp.isEmpty then 0 else 2) 2]
  | _ => []

/-- The module has the feature, threshold or vector asked for. -/
def featureAsked (fid : Nat) (sel : W32) : Bool :=
  featureKnown fid && (fid != 4 || thresholdOk sel) && (fid != 9 || bitsW sel 15 0 ≤ 512)

/-- Get Features. -/
def State.getFeature (s : State) (c : CmdId) (fid : Nat) (sel : W32) : State :=
  if !featureAsked fid sel then s.complete c stInvalidField
  else { s with tick := s.tick + 1 }.complete c stOk (s.featureValue fid sel) 0 (s.featureData fid)

/-! ## Namespaces (R315, R463) -/

/-- The lowest numbers not in a rising list, from `g` on. -/
def takeFree : Nat → List Nat → Nat → Nat → List Nat
  | 0, _, _, _ => []
  | _, _, _, 0 => []
  | f + 1, [], g, n + 1 => g :: takeFree f [] (g + 1) n
  | f + 1, u :: us, g, n + 1 => if u = g then takeFree f us (g + 1) (n + 1) else g :: takeFree f (u :: us) (g + 1) n

/-- Namespace Management create. -/
def State.nsCreate (s : State) (c : CmdId) (nsze ncap : Nat) : State :=
  let used := s.mm.granulesUsed.mergeSort (· ≤ ·)
  let n := nsze / 262144
  let id := 1 + lowestFree (s.mm.namespaces.keys.map (· - 1)) 0
  if nsze ≠ ncap ∨ nsze % 262144 ≠ 0 then s.complete c stInvalidField
  else if 128 ≤ s.mm.namespaces.length then s.complete c stNsIdUnavail
  else if granulesTotal < used.length + n then s.complete c stNsCapacity
  else
    let x : Namespace :=
      { granules := takeFree (used.length + n) used 0 n, blocks := nsze, attached := false, readOnly := false,
        key := s.mm.nextKey }
    { s with mm := { s.mm with namespaces := s.mm.namespaces.put id x, nextKey := s.mm.nextKey + 1 } }.complete c stOk id

/-- A job with a snapshot, running or waiting to restart, names the namespace, or it holds an attached index. -/
def State.nsInUse (s : State) (nsid : Nat) : Bool :=
  s.jd.jobs.any (fun j => j.state != .queued && j.firstNs == nsid && nsid != 0) || (s.idx.find nsid).isSome

/-- Namespace Management delete: of one namespace, or of all. Its key goes with it (R463). -/
def State.nsDelete (s : State) (c : CmdId) (nsid : Nat) : State :=
  let ids := if nsid = 0xFFFFFFFF then s.mm.namespaces.keys else [nsid]
  if nsid ≠ 0xFFFFFFFF ∧ (s.mm.namespaces.find nsid).isNone then s.complete c stInvalidNs
  else if ids.any s.nsInUse then s.complete c stSequence
  else { s with mm := ids.foldl (fun m i => { m.emptyNs s.liveSnaps i with namespaces := (m.emptyNs s.liveSnaps i).namespaces.del i }) s.mm }.complete c stOk

/-- Namespace Attachment: to controller 0 only. -/
def State.nsAttach (s : State) (c : CmdId) (nsid : Nat) (attach : Bool) (ctrl : Nat) : State :=
  match s.mm.namespaces.find nsid with
  | none => s.complete c stInvalidNs
  | some n =>
    if ctrl ≠ 0 then s.complete c stCtrlList
    else if attach && n.attached then s.complete c stNsAttached
    else if !attach && !n.attached then s.complete c stNsNotAttached
    else { s with mm := { s.mm with namespaces := s.mm.namespaces.put nsid { n with attached := attach } } }.complete c stOk

/-- Format NVM: SES 0 makes every unit UNMAPPED; SES 1 and 2 also change the key, in the order of R463. -/
def State.format (s : State) (c : CmdId) (nsid ses : Nat) : State :=
  if 2 < ses then s.complete c stInvalidField
  else if (s.mm.namespaces.find nsid).isNone then s.complete c stInvalidNs
  else if s.nsInUse nsid then s.complete c stSequence
  else if ses = 0 then { s with mm := s.mm.emptyNs s.liveSnaps nsid }.complete c stOk
  else
    let k := mkStore c .format nsid [] s.qe.fetchOrder
    { s with qe := { s.qe with store := s.qe.store ++ [k] } }.proceed k []

/-! ## Versions (R340 to R342) -/

/-- The highest of the supported versions that lies in an offer. -/
def bestOf (vs : List Nat) (d : List Byte) (i : Nat) : Option Nat :=
  (vs.filter (fun v => byteAt d (2 * i) ≤ v && v ≤ byteAt d (2 * i + 1))).head?

/-- Versions the module supports, highest first. -/
def supported (i : Nat) : List Nat :=
  match i with
  | 0 => [0x31, 0x30, 0x24, 0x23, 0x22, 0x21, 0x20]
  | 1 => [5, 4]
  | 2 => [2, 1]
  | _ => [4, 3]

/-- What an offer would agree, or none. -/
def offered (d : List Byte) : Option (Nat × Nat × Nat × Nat) :=
  match bestOf (supported 0) d 0, bestOf (supported 1) d 1, bestOf (supported 2) d 2, bestOf (supported 3) d 3 with
  | some a, some b, some r, some x => some (a, b, r, x)
  | _, _, _, _ => none

/-- Complete a VERSION_NEGOTIATE with the versions. -/
def State.versionsDone (s : State) (c : CmdId) : State :=
  let v := s.qe.versions
  s.complete c stOk (v.cmdset + 256 * v.image + 65536 * v.result + 16777216 * v.index)
    (v.agResult + 256 * v.agIndex + 65536 * s.pc.msgVersion)

/-- Put versions in force once they are written to the store (R342, R429). -/
def State.setVersions (s : State) (c : CmdId) (v : Versions) (writes : List Bool) : State :=
  let r := s.logWrite logVersion v.payload writes
  if r.2 then { r.1 with qe := { r.1.qe with versions := v } }.versionsDone c else r.1.complete c stInternal

/-- CDW10 of a VERSION_NEGOTIATE is well formed. -/
def negotiateOk (d : Dwords) : Bool := d.d10.toNat / 4 == 0 && bitsW d.d10 1 0 != 3

/-- OFFER. -/
def State.offer (s : State) (c : CmdId) (d : Dwords) (o : List Byte) (writes : List Bool) : State :=
  if !negotiateOk d || !zerosAt o 8 24 then s.complete c stInvalidField
  else match offered o with
    | none => s.complete c stVersion
    | some (a, b, r, x) =>
      let v := s.qe.versions
      let ix := min v.index x
      if s.idx.any (fun e => ix < sbFormat e.2.super) then s.complete c stSequence
      else s.setVersions c { cmdset := a, image := b, result := min v.result r, index := ix, agCmdset := a, agImage := b,
                             agResult := r, agIndex := x } writes

/-- COMMIT. -/
def State.commitVersions (s : State) (c : CmdId) (d : Dwords) (writes : List Bool) : State :=
  let v := s.qe.versions
  if !negotiateOk d then s.complete c stInvalidField
  else s.setVersions c { v with result := max v.result v.agResult, index := max v.index v.agIndex } writes

/-! ## The sideband (R474, R475) -/

/-- The I3C target runs. -/
def State.i3cRuns (s : State) : Bool := s.power.vinAccepted && !s.power.failing

/-- What an admin command tunnelled to function 0 returns: Get Log Page, Identify and Get Features, as on the admin queue; none
where that would end with an error. `arg` is the log page, the CNS or the feature with its selectors in [63:32]. -/
def State.miAdmin (s : State) (opcode nsid arg off len : Nat) : Option (List Byte) :=
  match opcode with
  | 2 => if off % 4 = 0 then s.logPage (arg % 256) off len else none
  | 6 => (match s.identifyData (arg % 256) nsid with
    | .inl _ => none
    | .inr d => some (sliceZ d off len))
  | _ =>
    let fid := arg % 256
    let sel := BitVec.ofNat 32 (arg / 2 ^ 32)
    if !featureAsked fid sel then none else some (leBytes (s.featureValue fid sel) 4 ++ (s.featureData fid).flatten)

/-- What an NVMe-MI command served by the always-on domain returns: the subsystem's Critical Warning bits, inverted, its Composite
Temperature in degrees and Percentage Used, in NVMe-MI's places (PRESUMED, assumption entry 10), and the VPD. The other
replies are NVMe-MI's own, and free. -/
def State.miData (s : State) (opcode off len : Nat) : List Byte :=
  let free := (List.range len).map (fun i => (Config.freeWord s.tick i).setWidth 8)
  match opcode with
  | 1 => (free.take 1 ++ [BitVec.ofNat 8 (255 - s.critical), BitVec.ofNat 8 (s.mm.kelvin - 273), BitVec.ofNat 8 s.mm.percentUsed]
      ++ free.drop 4).take len
  | 5 => (List.range len).map (fun i => if off + i < 256 then Config.vpdByte (off + i) else 0)
  | _ => free

/-- How an NVMe-MI message is answered: by its own class, or as an admin command tunnelled to function 0. -/
def State.miReply (s : State) (admin : Bool) (opcode nsid arg off len : Nat) : MiReply :=
  if !admin then
    (if opcode ≤ 5 then { opcode := opcode, status := .success, data := s.miData opcode off len }
     else { opcode := opcode, status := .invalidOpcode, data := [] })
  else if !([2, 6, 10].contains opcode) then { opcode := opcode, status := .invalidOpcode, data := [] }
  else if s.mc.phase = .off ∨ s.mc.phase = .marks then { opcode := opcode, status := .notReady, data := [] }
  else if s.mc.phase = .recovery ∧ opcode = 10 then { opcode := opcode, status := .sequence, data := [] }
  else match s.miAdmin opcode nsid arg off len with
    | none => { opcode := opcode, status := .failed, data := [] }
    | some d => { opcode := opcode, status := .success, data := d }

/-! ## Meanings -/

/-- IDENTIFY (R2, R312, R334, R391). -/
def execIdentify (c : CmdId) (cns nsid : Nat) (s : State) : Host.Outcome State Fault Refusal :=
  done (s.command c .recovery (fun s => match s.identifyData cns nsid with
    | .inl st => s.complete c st
    | .inr d => s.complete c stOk 0 0 [d]))

/-- GET_LOG_PAGE (R316, R324 to R326, R333, R343, R375, R391, R421). -/
def execGetLogPage (c : CmdId) (page lsf : Nat) (rae : Bool) (offset len : Nat) (s : State) :
    Host.Outcome State Fault Refusal :=
  done (s.command c .recovery (fun s => s.getLog c page lsf rae offset len))

/-- ABORT (R312, R321). -/
def execAbort (c : CmdId) (sqid cid : Nat) (s : State) : Host.Outcome State Fault Refusal :=
  done (s.command c .served (fun s => s.abortCmd c { sq := sqid, cid := cid }))

/-- SET_FEATURES (R313, R317, R337). -/
def execSetFeatures (c : CmdId) (fid : Nat) (value : W32) (data : List Byte) (s : State) : Host.Outcome State Fault Refusal :=
  done (s.command c .served (fun s => s.setFeature c fid value data))

/-- GET_FEATURES (R313). -/
def execGetFeatures (c : CmdId) (ask : FeatureAsk) (s : State) : Host.Outcome State Fault Refusal :=
  done (s.command c .served (fun s => s.getFeature c ask.fid ask.sel))

/-- ASYNC_EVENT_REQUEST (R312, R326). -/
def execAsyncEventRequest (c : CmdId) (s : State) : Host.Outcome State Fault Refusal :=
  done (s.command c .served (fun s => s.eventRequest c))

/-- NAMESPACE_CREATE (R315, R461). -/
def execNamespaceCreate (c : CmdId) (nsze ncap : Nat) (s : State) : Host.Outcome State Fault Refusal :=
  done (s.command c .manage (fun s => s.nsCreate c nsze ncap))

/-- NAMESPACE_DELETE (R315, R463). -/
def execNamespaceDelete (c : CmdId) (nsid : Nat) (s : State) : Host.Outcome State Fault Refusal :=
  done (s.command c .manage (fun s => s.nsDelete c nsid))

/-- NAMESPACE_ATTACHMENT (R315). -/
def execNamespaceAttachment (c : CmdId) (nsid : Nat) (attach : Bool) (ctrl : Nat) (s : State) :
    Host.Outcome State Fault Refusal := done (s.command c .manage (fun s => s.nsAttach c nsid attach ctrl))

/-- FORMAT_NVM: SES 0 (R315). -/
def execFormatNvm (c : CmdId) (nsid : Nat) (s : State) : Host.Outcome State Fault Refusal :=
  done (s.command c .manage (fun s => s.format c nsid 0))

/-- FORMAT_NVM_CRYPTO_ERASE: SES 1 or 2 (R315, R463). -/
def execFormatNvmCryptoErase (c : CmdId) (nsid ses : Nat) (s : State) : Host.Outcome State Fault Refusal :=
  done (s.command c .manage (fun s => s.format c nsid (if ses = 0 then 1 else ses)))

/-- VERSION_NEGOTIATE_OFFER (R340 to R342). -/
def execVersionNegotiateOffer (c : CmdId) (d : Dwords) (offer : List Byte) (writes : List Bool) (s : State) :
    Host.Outcome State Fault Refusal := done (s.command c .served (fun s => s.offer c d offer writes))

/-- VERSION_NEGOTIATE_COMMIT (R341, R342). -/
def execVersionNegotiateCommit (c : CmdId) (d : Dwords) (writes : List Bool) (s : State) : Host.Outcome State Fault Refusal :=
  done (s.command c .served (fun s => s.commitVersions c d writes))

/-- VERSION_NEGOTIATE_QUERY (R341). -/
def execVersionNegotiateQuery (c : CmdId) (d : Dwords) (s : State) : Host.Outcome State Fault Refusal :=
  done (s.command c .served (fun s => if negotiateOk d then s.versionsDone c else s.complete c stInvalidField))

/-- NVME_MI_MESSAGE (R475, R391): no message before Set Endpoint ID. -/
def execNvmeMiMessage (msgType : Nat) (admin : Bool) (opcode : Nat) (ask : MiAsk) (s : State) :
    Host.Outcome State Fault Refusal :=
  done (if s.i3cRuns && s.power.eid.isSome && msgType == 4 then
    { s with
      tick := s.tick + 1
      power := { s.power with miReplies := s.miReply admin opcode ask.nsid ask.arg ask.off ask.len :: s.power.miReplies } } else s)

/-- SET_ENDPOINT_ID (R475). -/
def execSetEndpointId (eid : Nat) (s : State) : Host.Outcome State Fault Refusal :=
  done (if s.i3cRuns && 0 < eid && eid < 255 then { s with power := { s.power with eid := some eid } } else s)

/-- SETDASA (R474): a dynamic address in place of the static one. -/
def execSetdasa (addr : Nat) (s : State) : Host.Outcome State Fault Refusal :=
  done (if s.i3cRuns && s.power.dynAddr.isNone then { s with power := { s.power with dynAddr := some (addr % 128) } } else s)

end Sys2Proof.Machine
end

