-- ==== Sys2Proof/Machine/Images.lean ====
section
/-! DEFINITION. Structure images (R22 to R35, R40, R487): the checks of R33 and the squad set an image results in. -/

namespace Sys2Proof.Machine

/-! ## Layout (R23, R24) -/

def imMagic : Nat := 0x4D49535A
def imFormat (l : List Byte) : Nat := u16At l 4
def imPartial (l : List Byte) : Bool := bitN (u16At l 6) 0
def imId (l : List Byte) : Nat := u64At l 16
def imSigOff (l : List Byte) : Nat := u32At l 36
def imKey (l : List Byte) : Nat := u32At l 44

/-- A section table entry, with its index in the table. -/
structure Section where
  ix    : Nat
  type  : Nat
  esize : Nat
  off   : Nat
  len   : Nat
  count : Nat
  deriving DecidableEq, Repr

def imSections (l : List Byte) : List Section :=
  (List.range (u32At l 12)).map (fun i =>
    let o := u32At l 32 + 16 * i
    { ix := i, type := u16At l o, esize := u16At l (o + 2), off := u32At l (o + 4), len := u32At l (o + 8),
      count := u32At l (o + 12) })

def imSection (l : List Byte) (t : Nat) : Option Section := (imSections l).find? (fun x => x.type == t)

/-- Index in the table of a section type; 0 where the image has none. -/
def imIx (l : List Byte) (t : Nat) : Nat := ((imSection l t).map Section.ix).getD 0

/-- Entries of a fixed-size section. -/
def imEntries (l : List Byte) (t : Nat) : List (List Byte) :=
  match imSection l t with
  | none => []
  | some x => (List.range x.count).map (fun i => sliceZ l (x.off + x.esize * i) x.esize)

/-- Bytes of a variable-length section. -/
def imBytes (l : List Byte) (t : Nat) : List Byte :=
  match imSection l t with
  | none => []
  | some x => sliceZ l x.off x.len

/-- Entry size of a section type in a format (R24, R35); 0 for a variable-length one. -/
def entrySize (fmt t : Nat) : Nat :=
  match t with
  | 1 => 192
  | 2 => if fmt = 4 then 24 else 32
  | 3 => 32
  | 4 => 16
  | 5 => if fmt = 4 then 16 else 32
  | _ => 0

/-! ## Entries -/

/-- Tiles of a 1,024-bit tile map. -/
def tilesOf (m : List Byte) : List Nat := (List.range 1024).filter (fun n => bitN (byteAt m (n / 8)) (n % 8))

/-- Squad fields of check 4 (R25, R33); `zero`: a tile_count of 0 is allowed. -/
def squadEntryOk (zero : Bool) (e : List Byte) : Bool :=
  byteAt e 0 < 64 && 1 ≤ byteAt e 1 && byteAt e 1 ≤ 4 && u16At e 2 / 4 == 0 && 1 ≤ byteAt e 4 && byteAt e 4 ≤ byteAt e 5
  && byteAt e 7 ≤ 7 && 1 ≤ u16At e 8 && u16At e 8 ≤ 4096 && zerosAt e 16 48 && u16At e 12 ≤ 1024 && (zero || u16At e 12 != 0)

/-- A NUMERICS entry; format 4 has the module's threshold and RECORD (R31, R35, R131). -/
def parseNumerics (fmt : Nat) (e : List Byte) : Numerics :=
  { index := u16At e 0, wfmt := byteAt e 2, afmt := byteAt e 3, accum := byteAt e 4, history := byteAt e 5,
    margin := byteAt e 6, satLimit := byteAt e 7, uwrHi := if fmt = 4 then 0x3C23D70A else BitVec.ofNat 32 (u32At e 8),
    uwrAct := if fmt = 4 then 0 else byteAt e 12 }

/-- A pairing of R32. -/
def pairingOk (w a acc : Nat) : Bool :=
  (w == 1 && a == 1 && acc == 0) || (w == 2 && a == 1 && acc == 0) || ((w == 3 || w == 4) && (a == 3 || a == 4) && acc == 1)
  || (w == 5 && a == 5 && acc == 1) || (w == 6 && a == 6 && acc == 0)

/-- A NUMERICS entry satisfies R31 and R32. -/
def numericsOk (fmt : Nat) (e : List Byte) : Bool :=
  let n := parseNumerics fmt e
  pairingOk n.wfmt n.afmt n.accum && 1 ≤ n.history && n.history ≤ 64 && n.margin ≤ 7 && 6 ≤ n.satLimit && n.satLimit ≤ 20
  && n.uwrAct ≤ 2 && (if fmt = 4 then zerosAt e 8 8 else zerosAt e 13 19)

/-- A ROUTES entry (R27, R35). A format 4 entry has no express field and R35 gives no offset for credits: the model reads it at
byte 7, where the bytes after vc begin, and takes bytes 8 to 23 as reserved (DESIGN CHOICE, assumption entry 54). -/
def parseRoute (fmt : Nat) (e : List Byte) : Route :=
  { id := u16At e 0, squad := byteAt e 2, destKind := byteAt e 3, dest := u16At e 4, vc := byteAt e 6,
    express := if fmt = 4 then 0 else byteAt e 7, credits := byteAt e (if fmt = 4 then 7 else 8) }

/-- A REGIONS entry (R28). -/
def parseRegion (e : List Byte) : Region :=
  { id := u16At e 0, tier := byteAt e 2, kind := byteAt e 3, owner := byteAt e 4, access := byteAt e 5, base := u64At e 8,
    size := u64At e 16 }

/-- A QUEUE_BINDINGS entry (R30). -/
def parseBinding (e : List Byte) : Binding :=
  { first := u16At e 0, last := u16At e 2, scan := byteAt e 4, search := byteAt e 5, serve := byteAt e 6, train := byteAt e 7 }

/-! ## PROGRAMS (R487) -/

def progOff (p : List Byte) (t : Nat) : Nat := u32At p (16 + 8 * t)
def progLen (p : List Byte) (t : Nat) : Nat := 64 * u32At p (20 + 8 * t)

/-- Templates from number `k` on, each its descriptors' bytes. -/
def templatesFrom (p : List Byte) (k : Nat) : List (List Byte) :=
  ((List.range (u32At p 0)).drop k).map (fun t => sliceZ p (progOff p t) (progLen p t))

/-- PROGRAMS is well formed. -/
def programsOk (p : List Byte) : Bool :=
  let n := u32At p 0
  let ts := List.range n
  1 ≤ n && n ≤ 65535 && zerosAt p 4 12 && 16 + 8 * n ≤ p.length
  && ts.all (fun t => progOff p t % 64 == 0 && 16 + 8 * n ≤ progOff p t && 64 ≤ progLen p t && progLen p t ≤ 64 * 65536
      && progOff p t + progLen p t ≤ p.length
      && ts.all (fun u => u == t || progOff p u + progLen p u ≤ progOff p t || progOff p t + progLen p t ≤ progOff p u))

/-- (layout, predicate) numbers of the FILTER descriptors of the templates. -/
def filterNumbers (p : List Byte) : List (Nat × Nat) :=
  ((List.range (u32At p 0)).flatMap (fun t => (List.range (progLen p t / 64)).map (fun i => sliceZ p (progOff p t + 64 * i) 64))).filterMap
    (fun d => if byteAt d 0 = 7 then some (u16At d 32, u16At d 34) else none)

/-! ## LAYOUTS (R219, R225) -/

/-- LAYOUTS is well formed: its directory, and entries that begin inside the section after it. SL loads what the entries hold
without complaint: JD checks it at admission (R227). -/
def layoutsOk (l : List Byte) : Bool :=
  let n := u16At l 0 + u16At l 2
  16 + 4 * n ≤ l.length && zerosAt l 4 12
  && (List.range n).all (fun i => u32At l (16 + 4 * i) % 8 == 0 && 16 + 4 * n ≤ u32At l (16 + 4 * i)
      && u32At l (16 + 4 * i) + 16 ≤ l.length)

/-! ## The resulting set (R40) -/

/-- A squad from its entry and the image that carries it. -/
def parseSquad (l : List Byte) (e : List Byte) : Squad :=
  let ns := (imEntries l 5).map (parseNumerics (imFormat l))
  { func := byteAt e 1, flags := u16At e 2, lapMin := byteAt e 4, lapMax := byteAt e 5, overrun := byteAt e 6,
    jobRetry := byteAt e 7, maxJobs := u16At e 8,
    numerics := (ns.find? (fun n => n.index == u16At e 10)).getD (parseNumerics 5 []),
    tiles := tilesOf (e.drop 64), programIx := u16At e 14, templates := templatesFrom (imBytes l 6) (u16At e 14),
    layouts := imBytes l 7, state := .starting }

/-- Squad ids an image names. -/
def imNamed (l : List Byte) : List Nat := (imEntries l 1).map (fun e => byteAt e 0)

/-- Binding fields that name a squad for which `gone` holds become 0xFF. -/
def Binding.unname (gone : Nat → Bool) (b : Binding) : Binding :=
  let f (n : Nat) : Nat := if gone n then 0xFF else n
  { b with scan := f b.scan, search := f b.search, serve := f b.serve, train := f b.train }

/-- The lowest-numbered squad of a function; 0xFF for none (R35). -/
def lowestOf (qs : KMap Squad) (func : Nat) : Nat := (qs.find? (fun e => e.2.func == func)).elim 0xFF Prod.fst

/-- The squad set an image results in, from the active set. -/
def resultSet (cur : SquadSet) (l : List Byte) : SquadSet :=
  let fmt := imFormat l
  let part := fmt == 5 && imPartial l
  let es := imEntries l 1
  let named := imNamed l
  let live := es.filter (fun e => u16At e 12 != 0)
  let gone := (es.filter (fun e => u16At e 12 == 0)).map (fun e => byteAt e 0)
  let kept := if part then cur.squads.filter (fun x => !named.contains x.1) else []
  let squads := live.foldl (fun (m : KMap Squad) e => m.put (byteAt e 0) (parseSquad l e)) kept
  let rs := (imEntries l 2).map (parseRoute fmt)
  let gs := (imEntries l 3).map parseRegion
  let all : Binding :=
    { first := 1, last := 512, scan := lowestOf squads 1, search := lowestOf squads 2, serve := lowestOf squads 3,
      train := lowestOf squads 4 }
  let bs := if fmt = 4 then [all] else (imEntries l 4).map parseBinding
  if part then
    { squads := squads
      routes := cur.routes.filter (fun r => !named.contains r.squad && !(r.destKind == 0 && gone.contains r.dest)) ++ rs
      regions := cur.regions.filter (fun r => !named.contains r.owner
        && !(r.owner == 0xFF && gs.any (fun g => g == r))) ++ gs
      bindings := ((cur.bindings.filter (fun b => !bs.any (fun x => x.first == b.first && x.last == b.last))).map
        (Binding.unname gone.contains)) ++ bs }
  else { squads := squads, routes := rs, regions := gs, bindings := bs }

/-! ## Classes (R40) -/

def regionsFor (x : SquadSet) (n : Nat) : List Region :=
  (x.regions.filter (fun r => r.owner == n || r.owner == 0xFF)).mergeSort (fun a b => a.id ≤ b.id)

def routesFor (x : SquadSet) (n : Nat) : List Route :=
  (x.routes.filter (fun r => r.squad == n)).mergeSort (fun a b => a.id ≤ b.id)

/-- Two entries of a squad are byte-identical, its NUMERICS entry and templates among them. -/
def sameSquad (a b : Squad) : Bool := { a with state := .active, layouts := [] } == { b with state := .active, layouts := [] }

/-- Squad `n` is unchanged by the new set. In a full image a squad that only loses its route to a removed squad is no longer
byte-identical in its ROUTES: the model classes it changed (DESIGN CHOICE, assumption entry 54). -/
def unchanged (cur next : SquadSet) (part : Bool) (named : List Nat) (n : Nat) : Bool :=
  if part && !named.contains n then true
  else match cur.squads.find n, next.squads.find n with
    | some a, some b => sameSquad a b && regionsFor cur n == regionsFor next n && routesFor cur n == routesFor next n
    | _, _ => false

def removedIn (cur next : SquadSet) : List Nat := cur.squads.keys.filter (fun n => (next.squads.find n).isNone)
def freshIn (cur next : SquadSet) : List Nat := next.squads.keys.filter (fun n => (cur.squads.find n).isNone)
def changedIn (cur next : SquadSet) (part : Bool) (named : List Nat) : List Nat :=
  next.squads.keys.filter (fun n => (cur.squads.find n).isSome && !unchanged cur next part named n)

/-- The new set with the unchanged squads as they are. -/
def keepUnchanged (cur next : SquadSet) (part : Bool) (named : List Nat) : SquadSet :=
  { next with squads := next.squads.mapVals (fun n q => if unchanged cur next part named n then (cur.squads.find n).getD q else q) }

/-! ## The checks (R33) -/

/-- A failed check: result code, section table index, entry index. -/
abbrev LoadFail := Nat × Nat × Nat

/-- The first entry of a section for which `bad` holds. -/
def firstBad (l : List Byte) (t code : Nat) (bad : Nat → List Byte → Bool) : Option LoadFail :=
  ((imEntries l t).zipIdx.find? (fun x => bad x.2 x.1)).map (fun x => (code, imIx l t, x.2))

/-- Check 1. -/
def checkHeader (l : List Byte) : Bool :=
  u32At l 0 == imMagic && u16At l 6 / 2 == 0 && zerosAt l 48 16 && u32At l 8 == l.length && l.length % 4 == 0
  && l.length ≤ 33554432 && 1 ≤ u32At l 12 && u32At l 12 ≤ 16 && u32At l 32 % 16 == 0 && 64 ≤ u32At l 32
  && imSigOff l % 4 == 0 && 64 ≤ imSigOff l && imSigOff l < l.length && u32At l 40 == l.length - imSigOff l

/-- Check 4, the section table: types, sizes, places, required sections. -/
def tableOk (l : List Byte) : Bool :=
  let fmt := imFormat l
  let part := fmt == 5 && imPartial l
  let xs := imSections l
  let tEnd := u32At l 32 + 16 * u32At l 12
  let has (t : Nat) : Bool := (imSection l t).isSome
  tEnd ≤ imSigOff l && decide (xs.map Section.type).Nodup
  && xs.all (fun x => 1 ≤ x.type && x.type ≤ 7 && (fmt == 5 || x.type != 4) && x.off % 64 == 0 && 64 ≤ x.off
      && x.off + x.len ≤ imSigOff l && x.esize == entrySize fmt x.type
      && (if x.type ≤ 5 then x.len == x.esize * x.count else x.count == 0)
      && (x.off + x.len ≤ u32At l 32 || tEnd ≤ x.off)
      && xs.all (fun y => y.ix == x.ix || x.off + x.len ≤ y.off || y.off + y.len ≤ x.off))
  && (if part then has 6 || (imEntries l 1).all (fun e => u16At e 12 == 0)
      else has 1 && has 2 && has 3 && (fmt == 4 || has 4) && has 5 && has 6)

/-- Check 4. -/
def checkSections (cur : SquadSet) (l : List Byte) : Option LoadFail :=
  let part := imFormat l == 5 && imPartial l
  if !tableOk l then some (4, 0, 0)
  else if (imSection l 6).isSome && !programsOk (imBytes l 6) then some (4, imIx l 6, 0)
  else if (imSection l 7).isSome && !layoutsOk (imBytes l 7) then some (4, imIx l 7, 0)
  else firstBad l 1 4 (fun i e =>
    !squadEntryOk (part && (cur.squads.find (byteAt e 0)).isSome) e || ((imNamed l).take i).contains (byteAt e 0))

/-- Check 6. -/
def checkTiles (next : SquadSet) (l : List Byte) : Option LoadFail :=
  firstBad l 1 6 (fun _ e =>
    let ts := tilesOf (e.drop 64)
    ts.length != u16At e 12
    || next.squads.any (fun q => q.1 != byteAt e 0 && q.2.tiles.any ts.contains))

/-- A region alone satisfies R28 and R29. -/
def regionOk (qs : KMap Squad) (fmt : Nat) (r : Region) : Bool :=
  let al := if r.tier = 0 then 0x200000 else 0x4000000
  let top := if r.tier = 0 then 1008 * 2 ^ 30 else 32 * 2 ^ 40
  r.id < 1024 && r.tier ≤ 1 && 1 ≤ r.kind && r.kind ≤ 6 && r.access ≤ 1 && (r.owner == 0xFF || (qs.find r.owner).isSome)
  && (r.owner != 0xFF || r.access == 1) && (!([3, 4, 6].contains r.kind) || (r.owner != 0xFF && r.access == 0))
  && (r.tier == 0 || (r.kind ≤ 2 && fmt == 5)) && 0 < r.size && r.base % al == 0 && r.size % al == 0 && r.base + r.size ≤ top

/-- Two near-tier regions may stand together (R29). -/
def regionsApart (a b : Region) : Bool :=
  a.tier != 0 || b.tier != 0 || a.base + a.size ≤ b.base || b.base + b.size ≤ a.base
  || (a.access == 1 && b.access == 1 && a.base == b.base && a.size == b.size)

/-- Check 7. In a partial image an entry is a named squad's or shared, and a shared region is not altered (R40). -/
def checkRegions (cur next : SquadSet) (l : List Byte) : Option LoadFail :=
  let part := imFormat l == 5 && imPartial l
  firstBad l 3 7 (fun i e =>
    let r := parseRegion e
    !zerosAt e 6 2 || !zerosAt e 24 8 || !regionOk next.squads (imFormat l) r
    || (part && r.owner != 0xFF && !(imNamed l).contains r.owner)
    || (part && cur.regions.any (fun o => o.owner == 0xFF && o.id == r.id && o != r))
    || (next.regions.filter (fun o => o.id == r.id)).length != 1
    || next.regions.any (fun o => o.id != r.id && !regionsApart o r) || i != ((imEntries l 3).findIdx (fun x => x == e)))

/-- A route alone satisfies R27. -/
def routeOk (qs : KMap Squad) (r : Route) : Bool :=
  r.id < 4096 && (qs.find r.squad).isSome && r.vc ≤ 3 && r.express ≤ 1 && 1 ≤ r.credits && r.credits ≤ 16
  && (match r.destKind with
      | 0 => (qs.find r.dest).isSome
      | 1 => r.dest != 0
      | 2 => r.dest != 0 && r.dest < 16
      | 3 => r.dest == 0
      | _ => false)

/-- Check 8. -/
def checkRoutes (next : SquadSet) (l : List Byte) : Option LoadFail :=
  let fmt := imFormat l
  firstBad l 2 8 (fun i e =>
    let r := parseRoute fmt e
    !zerosAt e (if fmt = 4 then 8 else 9) (if fmt = 4 then 16 else 23) || !routeOk next.squads r
    || (fmt == 5 && imPartial l && !(imNamed l).contains r.squad)
    || (next.routes.filter (fun o => o.id == r.id)).length != 1 || i != ((imEntries l 2).findIdx (fun x => x == e)))

/-- A binding's squads exist and have the matching function. -/
def bindingNames (qs : KMap Squad) (b : Binding) : Bool :=
  [(b.scan, 1), (b.search, 2), (b.serve, 3), (b.train, 4)].all (fun x =>
    x.1 == 0xFF || ((qs.find x.1).map Squad.func) == some x.2)

def bindingsMeet (a b : Binding) : Bool := a.first ≤ b.last && b.first ≤ a.last

/-- Check 9; a squad that takes another function from a kept binding is the squad's entry's fault. -/
def checkBindings (next : SquadSet) (l : List Byte) : Option LoadFail :=
  let own := firstBad l 4 9 (fun _ e =>
    let b := parseBinding e
    !(1 ≤ b.first && b.first ≤ b.last && b.last ≤ 512 && zerosAt e 8 8) || !bindingNames next.squads b
    || (next.bindings.filter (fun o => bindingsMeet o b)).length != 1)
  let bad := next.bindings.filter (fun b => !bindingNames next.squads b)
  let byFunc := firstBad l 1 9 (fun _ e => bad.any (fun b => [b.scan, b.search, b.serve, b.train].contains (byteAt e 0)))
  match imSection l 1, imSection l 4 with
  | some a, some b => if a.ix < b.ix then byFunc.or own else own.or byFunc
  | _, _ => own.or byFunc

/-- Check 10. Where several sections fail it, R33 does not say which entry is reported: the model tests SQUADS, NUMERICS, then
PROGRAMS, and check 4 tests PROGRAMS, LAYOUTS, then SQUADS (DESIGN CHOICE, assumption entry 54). -/
def checkNumerics (l : List Byte) : Option LoadFail :=
  let fmt := imFormat l
  let p := imBytes l 6
  let y := imBytes l 7
  let named := imEntries l 5
  let numBad := firstBad l 5 10 (fun _ e => !numericsOk fmt e)
  let sqBad := firstBad l 1 10 (fun _ e => u16At e 12 != 0
    && (!named.any (fun n => u16At n 0 == u16At e 10) || u32At p 0 ≤ u16At e 14))
  let filters := (filterNumbers p).all (fun f =>
    (f.1 == 0xFFFF || ((layoutsOf y).map Layout.num).contains f.1) && (f.2 == 0xFFFF || ((predicatesOf y).map Predicate.num).contains f.2))
  (sqBad.or numBad).or (if filters then none else some (10, imIx l 6, 0))

/-- The version of the image may be loaded (R34): format 4 always, format 5 at boot or while version 5 is negotiated. -/
def formatOk (negotiated : Nat) (boot : Bool) (l : List Byte) : Bool :=
  imFormat l == 4 || (imFormat l == 5 && (boot || negotiated == 5))

/-- Verify an image (R33): the first failure, or the set it results in. `sig`: the signature verifies under an active key. -/
def verifyImage (cur : SquadSet) (gen negotiated : Nat) (boot sig : Bool) (l : List Byte) : LoadFail ⊕ SquadSet :=
  if !checkHeader l then .inl (1, 0, 0)
  else if !formatOk negotiated boot l then .inl (2, 0, 0)
  else if !sig then .inl (3, 0, 0)
  else match checkSections cur l with
    | some f => .inl f
    | none =>
      let part := imFormat l == 5 && imPartial l
      if part && u32At l 24 != gen then .inl (5, 0, 0)
      else
        let next := resultSet cur l
        match (((checkTiles next l).or (checkRegions cur next l)).or (checkRoutes next l)).or
            ((checkBindings next l).or (checkNumerics l)) with
        | some f => .inl f
        | none => .inr next

end Sys2Proof.Machine
end

