-- ==== Sys2Proof/Machine/Marks.lean ====
section
/-! DEFINITION. Entry to MARKS (R5, R378, R380, R396, R488): what returns to its reset value and what is kept. -/

namespace Sys2Proof.Machine

/-- A version as it stands after its near copy is gone: in its home, with no pins. -/
def Version.homeOnly (v : Version) : Version := { v with near := none, pinsNear := 0, pinsHome := 0 }

/-- The placement directory after near-tier loss: homed objects in HOME, the others gone (R385, R396). -/
def homedOnly (d : KMap DirEntry) : KMap DirEntry :=
  KMap.mapVals (d.filter (fun e => e.2.cur.home != .none && !e.2.segment)) (fun _ e =>
    { cur := e.cur.homeOnly, old := none, state := .home, evictPending := false, discardPending := false,
      damaged := e.damaged, mark := e.cur.batons, waits := [], segment := false, condemned := false })

/-- What the medium keeps through an entry to MARKS: its data, the checkpoint and what replay adds to it, wear and retirements;
read hints return to step 0 (R209), and the map itself is built by replay. The telemetry of R216 is kept with the
checkpoint (assumption entry 32). -/
def Mm.toMarks (m : Mm) : Mm :=
  { Mm.reset with
    mediumEpoch := m.mediumEpoch, hostWritten := m.hostWritten, mediaWritten := m.mediaWritten,
    lossDirty := m.lossDirty, namespaces := m.namespaces, nextKey := m.nextKey, ckpt := m.ckpt, ckptOld := m.ckptOld,
    ckptIndex := m.ckptIndex, since := m.since, landing := m.landing, bulk := m.bulk, stripes := m.stripes,
    nextStripe := m.nextStripe, nextRow := m.nextRow, agedTo := m.agedTo, lostWrites := m.lostWrites,
    blocks := m.blocks.mapVals (fun _ b => { b with hint := 0 }), eraseQ := m.eraseQ, remap := m.remap, spares := m.spares,
    retiredCnt := m.retiredCnt, spareSaid := m.spareSaid, roGroups := m.roGroups, outSets := m.outSets, badBlocks := m.badBlocks,
    clockNs := m.clockNs, retries := m.retries, loops := m.loops, retireLog := m.retireLog }

/-- Sticky fields of the Pacer (R376): PC_NOMINAL governs the free-run period at every entry. REPORTs sent stay sent. -/
def Pacer.toMarks (p : Pacer) : Pacer :=
  { Pacer.reset with
    nominalNs := p.nominalNs, freeNs := clampPeriod p.nominalNs, periodNs := clampPeriod p.nominalNs, reports := p.reports }

/-- Sticky fields of MC (R397), and the fuses, which the module never changes (R75). -/
def Mc.toMarks (m : Mc) (entry : Nat) : Mc :=
  { Mc.reset with entry := entry, entries := sat16 (m.entries + 1), recoveryNext := m.recoveryNext, fuse := m.fuse }

/-- Completions posted stay posted; log page 0xC1 accumulates from power-up (R333). -/
def Qe.toMarks (q : Qe) : Qe := { Qe.reset with posted := q.posted, wp := q.wp, wpOverflow := q.wpOverflow, psAtGo := q.psAtGo, irqs := q.irqs }

/-- The store is kept, and a program or erase that has started goes on (R436); every volatile bit of SW returns to reset, the
protect bits until the boot ROM reads P0. -/
def Sw.toMarks (w : Sw) : Sw := { Sw.reset with store := w.store, run := w.run.filter (fun r => !r.2) }

/-- Every block in reset, in none of the five phases (R378): what is kept through an entry to MARKS, and nothing else. -/
def State.inReset (s : State) : State :=
  { State.reset with
    pending := s.pending, tick := s.tick, hostOut := s.hostOut, power := s.power
    mc := { Mc.reset with
      phase := .off, entry := s.mc.entry, entries := s.mc.entries, recoveryNext := s.mc.recoveryNext, deferred := s.mc.deferred, fuse := s.mc.fuse }
    pc := s.pc.toMarks
    qe := s.qe.toMarks
    rl := { Rl.reset with dir := homedOnly s.rl.dir, far := s.rl.far }
    mm := s.mm.toMarks
    sw := s.sw.toMarks
    se := { Se.reset with identity := s.se.identity } }

/-- Entry to MARKS for cause `entry` (R377, R378, R380). If the input still lies outside its range, the corrected
record is posted now (R404). -/
def State.enterMarks (s : State) (entry : Nat) : State :=
  let s1 : State :=
    { s.inReset with
      power := { s.power with perst := false, pwrGood := true, hostRail := true, flashRail := true, dramRail := true,
                              tileSupply := false, refresh2x := [] }
      mc := s.mc.toMarks entry }
  let s2 := if s1.power.outOfRange then
      s1.postCorr srcPower kPowerBand 0 (BitVec.ofNat 32 s1.power.vin10mV)
        (BitVec.ofNat 32 (4 * (if s1.power.vin10mV < 4000 then 1 else 2))) 0 0
    else s1
  s2.alert

end Sys2Proof.Machine
end

