-- ==== Sys2Proof/Machine/Trust.lean ====
section
/-! DEFINITION. SE: owner keys (R446 to R449), attestation (R450 to R455), firmware download and commit (R456 to R460).
An LMS verification's outcome is the command's operand. -/

namespace Sys2Proof.Machine

/-! ## Key requests (R447, R448) -/

/-- A big-endian 32-bit field (RFC 8554). -/
def be32At (l : List Byte) (o : Nat) : Nat := (beWord (l.drop o) 0).toNat

/-- An HSS public key of a parameter set R445 allows for owners. -/
def ownerKeyOk (k : List Byte) : Bool :=
  (be32At k 0 == 1 || be32At k 0 == 2) && 6 ≤ be32At k 4 && be32At k 4 ≤ 8 && (be32At k 8 == 3 || be32At k 8 == 4)

/-- Format of a key request. -/
def keyFormatOk (r : List Byte) : Bool :=
  u32At r 0 == 0x4B4F535A && u16At r 4 == 1 && (byteAt r 6 == 1 || byteAt r 6 == 2) && byteAt r 7 < 4
  && zerosAt r 116 12 && 128 + u32At r 12 == r.length
  && (if u32At r 8 = 0xFFFFFFFF then u32At r 12 == 0 else true)
  && (if byteAt r 6 = 1 then ownerKeyOk (sliceZ r 56 60) else zerosAt r 56 60)

/-- SE_KEY_RESULT.CODE and KEY_DONE. -/
def State.keyEnds (s : State) (code : Nat) : State :=
  { s with se := { s.se with keyCode := code, event := setEv s.se.event 1 } }

/-- Body of a key register record, without its crc. -/
def keyRecord (r : List Byte) : List Byte :=
  leBytes 0x5A05 2 ++ leBytes (byteAt r 6) 1 ++ leBytes (byteAt r 7) 1 ++ List.replicate 4 0xFF ++ sliceZ r 16 8
  ++ (if byteAt r 6 = 1 then sliceZ r 56 60 else List.replicate 60 0xFF) ++ List.replicate 48 0xFF

/-- Lowest blank slot of P1 from `lo` on. -/
def Sw.freeKeySlot (w : Sw) (lo : Nat) : Option Nat := (List.range 32).find? (fun i => lo ≤ i && blank (keySlot w i))

/-- Write a key record: at most two successive slots. -/
def State.writeKey (s : State) (r : List Byte) (writes : List Bool) : State :=
  let b := keyRecord r
  let rec128 := b ++ leBytes (crc32c b).toNat 4
  match s.sw.freeKeySlot 0 with
  | none => s.keyEnds 9
  | some i =>
    if writes.getD 0 true then (s.swProgram (0x1000 + 128 * i) rec128).keyEnds 0
    else
      let s1 := s.swProgramFail (0x1000 + 128 * i) rec128
      match s1.sw.freeKeySlot (i + 1) with
      | none => s1.keyEnds 10
      | some j =>
        if writes.getD 1 true then (s1.swProgram (0x1000 + 128 * j) rec128).keyEnds 0
        else (s1.swProgramFail (0x1000 + 128 * j) rec128).keyEnds 10

/-- A key request in the order of R448. -/
def State.keyReq (s : State) (r : List Byte) (sigOk : Bool) (writes : List Bool) : State :=
  let keys := s.sw.ownerKeys
  let first := u32At r 8 == 0xFFFFFFFF && byteAt r 6 == 1
  let active := (keys.find (byteAt r 7)).isSome
  if !keyFormatOk r then s.keyEnds 1
  else if u32At r 8 == 0xFFFFFFFF && !keys.isEmpty then s.keyEnds 2
  else if !first && (keys.find (u32At r 8)).isNone then s.keyEnds 3
  else if !first && !sigOk then s.verifyFailed.keyEnds 4
  else if sliceZ r 24 32 ≠ s.se.identity then s.keyEnds 5
  else if u64At r 16 ≤ s.sw.keyCounter then s.keyEnds 6
  else if (byteAt r 6 == 1) == active then s.keyEnds 7
  else if byteAt r 6 = 2 ∧ keys.length = 1 then s.keyEnds 8
  else s.writeKey r writes

/-- KEY_REQUEST (R446 to R449, R464); SE runs on firmware, so from BLOCKS on. -/
def execKeyRequest (request : List Byte) (sigOk : Bool) (writes : List Bool) (s : State) :
    Host.Outcome State Fault Refusal :=
  done (if s.vendorLive then s.keyReq request sigOk writes else s)

/-! ## Attestation (R450 to R455) -/

def resSlotAddr (r : Nat) : Nat := 0xC000 + 16 * r

/-- Reservation slot `r` holds a byte other than 0xFF. -/
def Sw.reserved (w : Sw) (r : Nat) : Bool := !blank (w.bytes (resSlotAddr r) 16)

/-- One more than the highest reserved slot, or 0. -/
def Sw.nextBlock (w : Sw) : Nat :=
  (w.store.filter (fun e => 0xC000 ≤ e.1 && e.1 < 0x10000)).foldl (fun m e => max m ((e.1 - 0xC000) / 16 + 1)) 0

/-- Unreserved blocks left above the highest reserved (SE_BLOCKS.LEFT). -/
def Sw.blocksLeft (w : Sw) : Nat := 1024 - w.nextBlock

/-- The 16 bytes of a reservation (R430). -/
def resBytes (r : Nat) : List Byte := leBytes r 4 ++ leBytes (0xFFFFFFFF - r) 4 ++ List.replicate 8 0

/-- LEAVES_LOW became 1. -/
def State.noteLeaves (s : State) : State :=
  if s.sw.blocksLeft < 64 && !s.se.lowSaid then
    { s with se := { s.se with lowSaid := true, event := setEv s.se.event 4 } }
  else s

/-- Reserve a block (R454): 0 a block is held, 1 EXHAUSTED, 2 WRITE_FAIL. -/
def State.reserve (s : State) (writes : List Bool) : State × Nat :=
  let r := s.sw.nextBlock
  if 1024 ≤ r then (s, 1)
  else if writes.getD 0 true then
    (({ s.swProgram (resSlotAddr r) (resBytes r) with se := { s.se with block := some (r, 0) } }).noteLeaves, 0)
  else
    let s1 := s.swProgramFail (resSlotAddr r) (resBytes r)
    let q := r + 1
    if 1024 ≤ q then (s1.noteLeaves, 1)
    else if writes.getD 1 true then
      (({ s1.swProgram (resSlotAddr q) (resBytes q) with se := { s1.se with block := some (q, 0) } }).noteLeaves, 0)
    else ((s1.swProgramFail (resSlotAddr q) (resBytes q)).noteLeaves, 2)

/-- The number MC_PHASE.PHASE reports. -/
def phaseCode : Phase → Nat
  | .marks => 0
  | .blocks => 1
  | .go => 2
  | .halted => 3
  | .recovery => 4
  | .off => 0

/-- Bytes 0 to 383 of the evidence (R452); fuse_hash and the root key are the part's. fw_version has each field where MC_ID has
it, and 0 in [7:0] (DEDUCED, assumption entry 11). -/
def State.evidence (s : State) (leaf : Nat) : List Byte :=
  let keys := s.sw.ownerKeys
  let v := s.qe.versions
  leBytes 0x5654535A 4 ++ leBytes 1 2 ++ leBytes (phaseCode s.mc.phase) 1 ++ [0] ++ leBytes leaf 4 ++ leBytes 0 4
  ++ s.se.identity ++ s.se.nonce.flatMap (fun w => leBytes w.toNat 4) ++ padTo 32 s.mc.fwHash ++ padTo 32 s.se.measure
  ++ (List.range 32).map (Config.seByte 1)
  ++ sha256 ((List.range 4).flatMap (fun i => padTo 60 (keys.findD i [])))
  ++ sha256 s.sw.protectMap
  ++ [v.cmdset, v.image, v.result, v.index, v.agResult, v.agIndex, s.pc.msgVersion, 0].map (BitVec.ofNat 8)
  ++ [0, BitVec.ofNat 8 s.mc.fwMajor, BitVec.ofNat 8 s.mc.fwMinor, Config.romVersion] ++ leBytes s.sl.gen 4
  ++ leBytes s.pc.beat 8 ++ leBytes s.mc.entries 2 ++ List.replicate 54 0 ++ rootKey
  ++ List.replicate 4 0

/-- The attestation ends with a code. -/
def State.attestEnds (s : State) (code : Nat) : State :=
  { s with se := { s.se with attesting := false, attCode := code, event := setEv s.se.event 0 } }

/-- Sign with the next leaf of the block held and write the evidence; the leaf is used whatever becomes of the write. -/
def State.signEvidence (s : State) (r n : Nat) (transferOk : Bool) : State :=
  let e := s.evidence (1024 * r + n)
  let sig := (List.range 5632).map (Config.seByte (3 + s.tick))
  let s1 := { s with tick := s.tick + 1, se := { s.se with block := some (r, n + 1), evidence := some e } }
  if transferOk then (s1.hostWrite s.se.evAddr.toNat (e ++ sig)).attestEnds 0 else s1.attestEnds 3

/-- ATTESTATION (R452, R454, R455): GO is ignored while one runs. -/
def execAttestation (s : State) : Host.Outcome State Fault Refusal :=
  done (if s.vendorLive && !s.se.attesting then { s with se := { s.se with attesting := true } } else s)

/-- TOP_TREE_DONE (R455). -/
def execTopTreeDone (s : State) : Host.Outcome State Fault Refusal :=
  done (if s.vendorLive then { s with se := { s.se with topReady := true } } else s)

/-- ATTEST_DONE (R454, R455): reserve a block when none is held or the held one is used up, sign, write the evidence. -/
def execAttestDone (slotWrites : List Bool) (transferOk : Bool) (s : State) : Host.Outcome State Fault Refusal :=
  done (if s.vendorLive && s.se.attesting && s.se.topReady then
    let need := match s.se.block with
      | none => true
      | some b => 1024 ≤ b.2
    let r := if need then s.reserve slotWrites else (s, 0)
    if r.2 ≠ 0 then r.1.attestEnds r.2
    else match r.1.se.block with
      | none => r.1.attestEnds 2
      | some b => r.1.signEvidence b.1 b.2 transferOk
  else s)

/-! ## Firmware (R456 to R460) -/

/-- A firmware image's header checks (R456, R458): `len` is the highest byte downloaded, or what the boot log gives. -/
def fwHeaderOk (h : List Byte) (len : Nat) : Bool :=
  u32At h 0 == 0x5746535A && u16At h 4 == 1 && u16At h 6 == 0 && u32At h 8 == len && len % 4 == 0 && byteAt h 16 == 0xC0
  && zerosAt h 17 7 && u32At h 32 % 4 == 0 && u32At h 36 == 2668 && u32At h 32 + 2668 ≤ len && zerosAt h 40 24

/-- The firmware that runs from an image (R343, R397, R452): its version, its revision, and its hash, which leaves out the
signature. -/
def Mc.runs (m : Mc) (img : List Byte) : Mc :=
  { m with
    fwMajor := byteAt img 12, fwMinor := byteAt img 13, fwRevision := sliceZ img 24 8, fwHash := sha256 (img.take (u32At img 32)) }

/-- FIRMWARE_IMAGE_DOWNLOAD (R457, R459). -/
def execFirmwareImageDownload (c : CmdId) (offset : Nat) (data : List Byte) (s : State) :
    Host.Outcome State Fault Refusal :=
  done (s.command c .image (fun s =>
    if s.se.commit.isSome then s.complete c stSequence
    else if 33554432 < offset + data.length then s.complete c stInvalidField
    else { s with se := { s.se with
        fwBuf := writeCells 0 s.se.fwBuf offset data, fwLen := max s.se.fwLen (offset + data.length) } }.complete c stOk))

/-- The image in the update buffer. -/
def Se.fwImage (e : Se) : List Byte := readCells 0 e.fwBuf 0 e.fwLen

/-- Start a verified commit: the marker, and programming over the internal path. -/
def State.startCommit (s : State) (c : CmdId) (action : Nat) (writes : List Bool) : State :=
  let r := s.logWrite logBoot { s.sw.bootLog with updating := 1 }.payload writes
  if r.2 then
    { r.1 with
      se := { r.1.se with commit := some { c := c, action := action, image := r.1.se.fwImage } }
      sw := { r.1.sw with internal := true } }
  else r.1.complete c stInternal

/-- FIRMWARE_COMMIT (R458, R459, R460, R392). -/
def execFirmwareCommit (c : CmdId) (slot action : Nat) (sigOk : Bool) (writes : List Bool) (s : State) :
    Host.Outcome State Fault Refusal :=
  done (s.command c .fwCommit (fun s =>
    if s.se.commit.isSome then s.complete c stSequence
    else if s.mc.phase = .recovery ∧ s.mc.cause = 5 then s.complete c stInternal
    else if 1 < slot then s.complete c stFwSlot
    else if 1 < action then s.complete c stInvalidField
    else if !fwHeaderOk (readCells 0 s.se.fwBuf 0 64) s.se.fwLen then s.verifyFailed.complete c stFwImage
    else if !sigOk then (s.verifyFailed.postCorr srcSE kSigVerify 0 0 0 0 0).complete c stFwImage
    else s.startCommit c action writes))

/-- Erase the big sectors an image needs and program it. -/
def State.programFw (s : State) (img : List Byte) : State :=
  let w := (List.range (ceilDiv img.length 0x10000)).foldl (fun (w : Sw) j => w.eraseSector (32 + j)) s.sw
  let r := s.drawNat
  { r.2 with sw := { w.putBytes fwAddr img with pulseCnt := sat32 (w.pulseCnt + r.1 % 2 ^ 21) } }

/-- A commit that failed: what its region holds is free. -/
def State.programFwFail (s : State) (img : List Byte) : State :=
  let r := s.draw
  let junk := img.zipIdx.map (fun x => (r.1 >>> (8 * (x.2 % 8))).setWidth 8)
  { r.2 with sw := s.sw.putBytes fwAddr junk }

/-- The commit is over: its events, SW free again unless a boot image persists. -/
def State.commitOver (s : State) (c : CmdId) (st : Nat) : State :=
  { s with
    se := { s.se with commit := none, event := setEv s.se.event 2 }
    sw := { s.sw with internal := s.sl.persist.isSome } }.complete c st

/-- FIRMWARE_COMMIT_DONE (R458, R459, R460, R393): in RECOVERY a good commit enters MARKS. -/
def execFirmwareCommitDone (ok : Bool) (writes : List Bool) (s : State) : Host.Outcome State Fault Refusal :=
  done (match s.se.commit with
    | none => s
    | some k =>
      if !ok then (s.programFwFail k.image).commitOver k.c stInternal
      else
        let s1 := s.programFw k.image
        let r := s1.logWrite logBoot { s1.sw.bootLog with updating := 0, fwBytes := k.image.length }.payload writes
        if !r.2 then r.1.commitOver k.c stInternal
        else
          let s2 := r.1.commitOver k.c (if k.action = 0 then stOk else stFwNeedsReset)
          if s.mc.phase = .recovery then s2.enterMarks 3
          else if s.mc.phase = .off then { s2 with mc := { s2.mc with deferred := some (s2.mc.deferred.getD 3) } }
          else s2)

end Sys2Proof.Machine
end

