-- ==== Sys2Proof/Machine/Loader.lean ====
section
/-! DEFINITION. The structure loader (R36 to R53, R453, R286, R410): staging, APPLY, the drain and retirement of squads, the
boot image, persisting. -/

namespace Sys2Proof.Machine

/-! ## Staging and APPLY (R36 to R39) -/

/-- SL is busy (R38). -/
def State.slBusy (s : State) : Bool := s.sl.load.isSome || s.sl.retire.isSome

/-- The OP field of a STRUCTURE_LOAD has a meaning (R36). -/
def loadOpOk (d : Dwords) : Bool := bitsW d.d10 3 0 ≤ 2

/-- STAGE: a part into the staging buffer. -/
def State.stage (s : State) (c : CmdId) (d : Dwords) (data : List Byte) : State :=
  let off := d.d11.toNat
  let n := 4 * (d.d12.toNat + 1)
  if s.slBusy then s.complete c stSequence
  else if !loadOpOk d || off % 4 != 0 || 0x200000 < n || 33554432 < off + n then s.complete c stInvalidField
  else { s with sl := { s.sl with
    stage := writeCells 0 s.sl.stage off (padTo n data), stageLen := max s.sl.stageLen (off + n) } }.complete c stOk

/-- The staging buffer is empty. -/
def Sl.unstage (l : Sl) : Sl := { l with stage := [], stageLen := 0 }

/-- DISCARD. -/
def State.discardStage (s : State) (c : CmdId) (d : Dwords) : State :=
  if s.slBusy then s.complete c stSequence
  else if !loadOpOk d then s.complete c stInvalidField
  else { s with sl := s.sl.unstage }.complete c stOk

/-- APPLY begins: SL verifies the staged image. -/
def State.startApply (s : State) (c : CmdId) (d : Dwords) : State :=
  if s.slBusy || s.sl.persist.isSome then s.complete c stSequence
  else if !loadOpOk d then s.complete c stInvalidField
  else
    let l : Load :=
      { c := c, image := readCells 0 s.sl.stage 0 s.sl.stageLen, force := bitW d.d10 8, persist := bitW d.d10 9, step := .verify,
        next := SquadSet.empty, fresh := [], changed := [], removed := [], retires := [] }
    { s with sl := { s.sl with load := some l } }

/-- An APPLY fails a check: nothing else changes. -/
def State.rejectLoad (s : State) (c : CmdId) (f : LoadFail) : State :=
  let s1 := if f.1 = 3 then s.verifyFailed.postCorr srcSE kSigVerify 0 0 0 0 0 else s
  { s1 with sl := { s1.sl.unstage with
      load := none, lastResult := f.1, loadCode := f.1, loadSect := f.2.1, loadEntry := f.2.2,
      event := setEv s1.sl.event 1 } }.complete c (if f.1 = 2 then stVersion else stInvalidField)

/-! ## Drains (R47, R50 to R52) -/

/-- A squad starts to drain, or is aborted; one that is FENCED holds nothing that a drain waits for (R410). -/
def State.startDrain (s : State) (force : Bool) (n : Nat) : State :=
  let draining (s : State) : State := s.onSquad n (fun q => { q with state := .draining })
  if s.fenced n then s.abortSquad n false
  else if force then (draining s).abortSquad n false
  else (draining s).drainJobs n

/-- A verified APPLY starts its drains. -/
def State.beginApply (s : State) (l : Load) (next : SquadSet) : State :=
  let cur := s.sl.set_
  let part := imFormat l.image == 5 && imPartial l.image
  let named := imNamed l.image
  let ch := changedIn cur next part named
  let rm := removedIn cur next
  let l1 : Load := { l with
    step := .drain, next := keepUnchanged cur next part named, fresh := freshIn cur next, changed := ch, removed := rm }
  (ch ++ rm).foldl (fun s n => s.startDrain l.force n)
    { s with sl := { s.sl with load := some l1, drainBeats := 0, drainSlow := false } }

/-- SL has verified the staged image. -/
def State.verified (s : State) (sigOk : Bool) : State :=
  match s.sl.load with
  | none => s
  | some l =>
    if l.step != .verify then s
    else
      let key := (s.sw.ownerKeys.find (imKey l.image)).isSome
      match verifyImage s.sl.set_ s.sl.gen s.qe.versions.image false (sigOk && key) l.image with
      | .inl f => s.rejectLoad l.c f
      | .inr next => s.beginApply l next

/-! ## What leaves with a squad or a region -/

/-- A region of the active set is gone from, or has shrunk or moved in, the new set (R43). -/
def regionLost (next : List Region) (r : Region) : Bool :=
  !next.any (fun x => x.id == r.id && x.tier == r.tier && x.base == r.base && r.size ≤ x.size)

/-- Objects of near-tier regions that leave the set lose their near copies, and indexes there end (R43, R172, R255). -/
def State.dropRegions (s : State) (gone : List Nat) : State :=
  let lies (v : Version) : Bool := v.near.isSome && gone.contains v.region
  let olds := (s.rl.dir.filter (fun e => (e.2.old.map lies).getD false)).map Prod.fst
  let curs := (s.rl.dir.filter (fun e => lies e.2.cur)).map Prod.fst
  (curs.foldl State.nearLost (olds.foldl State.oldLost s)).detachWhere (fun x => gone.contains x.region)

/-- Models of squads that are gone, and models whose KV region is gone or has another size (R286). -/
def State.dropModels (s : State) (squads : List Nat) (kv : Nat → Bool) : State :=
  ((s.jd.models.filter (fun e => squads.contains e.2.squad || kv e.2.kvRegion)).map Prod.fst).foldl State.dropModel s

/-- Fences that an APPLY or a retire ends: their standing causes go (R410). -/
def State.endFences (s : State) (squads : List Nat) : State :=
  let st := s.fl.standing.filter (fun x => !(x.squad.elim false squads.contains))
  { s with fl := { s.fl with standing := st, standingFull := st.any (fun y => !y.entry) } }

/-! ## APPLY steps 2 to 4 (R41 to R43) -/

/-- A tile leaves its squad, for retention. -/
def State.releaseTiles (s : State) (keep : Nat → Nat → Bool) : State :=
  { s with tiles := s.tiles.mapVals (fun n t => match t.squad with
    | some q => if keep q n then t else { t with squad := none }
    | none => t) }

/-- Tiles take their squad: one that joins, or is HALTED in a changed squad, waits for its sweep. -/
def State.joinTiles (s : State) (qs : KMap Squad) (touched : List Nat) : State :=
  qs.foldl (fun s e => e.2.tiles.foldl (fun s n =>
    let t := s.tile n
    if t.squad = some e.1 ∧ !(t.halted && touched.contains e.1) then s
    else s.setTile n { t with squad := some e.1, swept := false, credits := [] }) s) s

/-- The squad starts and its tiles are all swept. -/
def State.startsNow (s : State) (q : Squad) : Bool := q.state == .starting && q.tiles.all (fun n => (s.tile n).swept)

/-- Squads that start and whose tiles are all swept are ACTIVE; JD first writes the search reserve of those with an index still
attached (R416). -/
def State.activate (s : State) : State :=
  let ns := (s.sl.set_.squads.filter (fun e => s.startsNow e.2 && s.idx.any (fun x => x.2.squad == e.1))).map Prod.fst
  ns.foldl State.writeDead { s with sl := { s.sl with set_ := { s.sl.set_ with squads := s.sl.set_.squads.mapVals (fun _ q =>
      if s.startsNow q then { q with state := .active } else q) } } }

/-- Jobs queued for a changed squad that no longer takes their kind (R26). -/
def State.endMisfits (s : State) (n : Nat) : State :=
  match s.squadOf n with
  | none => s
  | some q => (s.jobsOf n).foldl (fun s j => if j.state == .queued && kindFunction j.kind != q.func
      then s.finishJob j.tag stInvalidField else s) s

/-- The squad set changes: what the old set's squads and regions held goes, the new and changed squads start. -/
def State.configure (s : State) (next : SquadSet) (fresh changed removed : List Nat) : State :=
  let cur := s.sl.set_
  let gone := (cur.regions.filter (fun r => r.tier == 0 && regionLost next.regions r)).map Region.id
  let touched := changed ++ removed
  let newFunc := changed.filter (fun n => (cur.squads.find n).map Squad.func != (next.squads.find n).map Squad.func)
  let s1 := (s.endFences touched).detachWhere (fun x => touched.contains x.squad)
  let s2 := removed.foldl (fun s n => s.endQueued n stDraining) s1
  let s3 := (s2.dropRegions gone).dropModels (removed ++ newFunc) (fun g =>
    (cur.regions.find? (fun r => r.id == g)).map Region.size != (next.regions.find? (fun r => r.id == g)).map Region.size)
  let s4 := (touched.foldl State.dropKeeper s3).releaseTiles (fun q n =>
    ((next.squads.find q).map (fun x => x.tiles.contains n)).getD false)
  let s5 : State := { s4 with sl := { s4.sl with
    set_ := { next with squads := next.squads.mapVals (fun n q =>
      if fresh.contains n || changed.contains n then { q with state := .starting }
      else ((s4.squadOf n).map (fun o => { q with state := o.state })).getD q) } } }
  let s6 := (fresh ++ changed).foldl (fun s n => s.applyNumerics n ((next.squads.find n).map Squad.numerics))
    (removed.foldl (fun s n => s.applyNumerics n none) s5)
  let s7 := (s6.joinTiles s6.sl.set_.squads touched).activate
  changed.foldl State.endMisfits s7

/-- Counts of a retire (R46). -/
def retireDw (drained aborted : Nat) : Nat := sat16 drained + 65536 * sat16 aborted

/-- The commands of a retire complete together, with its counts. -/
def State.endRetire (s : State) (r : Retire) : State :=
  r.cs.foldl (fun s c => s.complete c stOk (retireDw r.drained r.aborted)) s

/-- Step 4: every new or changed squad is ACTIVE, and the APPLY completes with the forced retires that joined it. -/
def State.finishApply (s : State) : State :=
  match s.sl.load with
  | none => s
  | some l =>
    if l.step != .sweep || s.sl.set_.squads.any (fun e => e.2.state == .starting) then s
    else
      let s1 : State := { s with
        sl := { s.sl.unstage with
          load := none, lastResult := 0, loadCode := 0, loadSect := 0, loadEntry := 0, drainSlow := false
          event := setEv s.sl.event 0, persist := if l.persist then some l.image else s.sl.persist }
        sw := { s.sw with internal := s.sw.internal || l.persist } }
      l.retires.foldl State.endRetire (s1.complete l.c stOk (s1.sl.gen % 2 ^ 31))

/-- The measurement chain takes an applied image (R453). -/
def Se.measured (e : Se) (image : List Byte) : Se :=
  { e with measure := sha256 (e.measure ++ sha256 (image.take (imSigOff image))) }

/-- Steps 2 and 3, at a beat boundary at which no squad drains. -/
def State.applyStep (s : State) : State :=
  match s.sl.load with
  | none => s
  | some l =>
    let touched := l.changed ++ l.removed
    if l.step != .drain || touched.any (fun n => !s.drainedAtBeat n) then s
    else
      let s1 := s.configure l.next l.fresh l.changed l.removed
      let s2 : State := { s1 with
        se := s1.se.measured l.image
        sl := { s1.sl with
          gen := s1.sl.gen + 1, imageId := BitVec.ofNat 64 (imId l.image), format := imFormat l.image
          event := if touched.isEmpty then s1.sl.event else setEv s1.sl.event 2
          load := s1.sl.load.map (fun l => { l with step := .sweep }) } }
      s2.finishApply

/-! ## SQUAD_RETIRE (R46, R51, R52) -/

/-- The squad drains for an APPLY. -/
def State.applyDrains (s : State) (n : Nat) : Bool :=
  match s.sl.load with
  | none => false
  | some l => l.step == .drain && (l.changed ++ l.removed).contains n

/-- A forced retire of a squad that drains already: that drain turns forced (R51). -/
def State.forceDrain (s : State) (c : CmdId) (n : Nat) : State :=
  match s.sl.retire with
  | some r =>
    { s with sl := { s.sl with retire := some { r with cs := r.cs ++ [c], force := true } } }.abortSquad n false
  | none =>
    match s.sl.load with
    | none => s
    | some l =>
      let r : Retire := { cs := [c], squad := n, force := true, drained := 0, aborted := 0 }
      { s with sl := { s.sl with load := some { l with retires := l.retires ++ [r] } } }.abortSquad n false

/-- SQUAD_RETIRE. -/
def State.retireSquad (s : State) (c : CmdId) (d : Dwords) (forced : Bool) : State :=
  let n := bitsW d.d10 5 0
  let force := forced || bitW d.d10 8
  let drains := (s.sl.retire.map Retire.squad) == some n || s.applyDrains n
  if force && drains then s.forceDrain c n
  else if s.slBusy then s.complete c stSequence
  else if (s.squadOf n).isNone then s.complete c stInvalidField
  else
    let f := force || s.fenced n
    { s with sl := { s.sl with
      retire := some { cs := [c], squad := n, force := f, drained := 0, aborted := 0 }, drainBeats := 0,
      drainSlow := false } }.startDrain f n

/-- The set without a squad. -/
def SquadSet.without (x : SquadSet) (n : Nat) : SquadSet :=
  { squads := x.squads.del n
    routes := x.routes.filter (fun r => r.squad != n && !(r.destKind == 0 && r.dest == n))
    regions := x.regions.filter (fun r => r.owner != n)
    bindings := x.bindings.map (Binding.unname (fun m => m == n)) }

/-- The retired squad's drain takes effect: it is ABSENT. -/
def State.finishRetire (s : State) (r : Retire) : State :=
  let n := r.squad
  let s1 := s.endQueued n stDraining
  let k := s1.sl.retire.getD r
  let s2 := s1.configure (s1.sl.set_.without n) [] [] [n]
  let s3 : State := { s2 with sl := { s2.sl with retire := none, drainSlow := false, event := setEv s2.sl.event 2 } }
  s3.endRetire k

/-- A drain completes: a retire's squad goes; an APPLY's waits for step 2. -/
def State.drainEnds (s : State) (n : Nat) : State :=
  match s.sl.retire with
  | some r => if r.squad = n ∧ (if r.force then s.drainedAtBeat n else s.drained n) then s.finishRetire r else s
  | none => if s.applyDrains n && s.drained n then { s with sl := { s.sl with event := setEv s.sl.event 2 } } else s

/-! ## The boot image (R44, R45) -/

/-- Step B4: SL applies the verified boot image, or there is none. -/
def State.applyBoot (s : State) : State :=
  let img := s.mc.bootImage
  let s0 : State := { s with mc := { s.mc with imageDone := true } }
  if img.isEmpty then { s0 with mc := { s0.mc with noImage := true } }
  else
    let next := resultSet SquadSet.empty img
    let s1 := s0.configure next next.squads.keys [] []
    { s1 with
      se := { s1.se with measure := List.replicate 32 0 }
      sl := { s1.sl with gen := 1, imageId := BitVec.ofNat 64 (imId img), format := imFormat img } }

/-- The persist ends (R44): the image is in the inactive slot and the selector names it, or neither. -/
def State.persistEnds (s : State) (img : List Byte) (ok : Bool) : State :=
  let b := s.sw.bootLog
  let i := if b.selector = 0 then 1 else 0
  let fail (s : State) : State := { s with sl := { s.sl with lastResult := 0x0B, event := setEv s.sl.event 5 } }
  let s1 : State := { s with sl := { s.sl with persist := none }, sw := { s.sw with internal := s.se.commit.isSome } }
  if ok then
    let w := (List.range (ceilDiv img.length 0x10000)).foldl (fun (w : Sw) j => w.eraseSector (sectorOf (bootSlotAddr i) + j)) s1.sw
    let s2 : State := { s1 with sw := w.putBytes (bootSlotAddr i) img }
    let p := { b with selector := i, slot0 := if i = 0 then img.length else b.slot0, slot1 := if i = 1 then img.length else b.slot1 }
    let r := s2.logWrite logBoot p.payload []
    { r.1 with sl := { r.1.sl with event := setEv r.1.sl.event 4 } }
  else
    let r := s1.draw
    let junk := img.zipIdx.map (fun x => (r.1 >>> (8 * (x.2 % 8))).setWidth 8)
    fail { r.2 with sw := r.2.sw.putBytes (bootSlotAddr i) junk }

/-! ## Tile sweeps (R41, R70, R385) -/

/-- A tile's sweep is done. -/
def State.tileSwept (s : State) (n : Nat) : State :=
  ((s.setTile n (s.tile n).sweep).activate).finishApply

/-! ## Meanings -/

/-- STRUCTURE_LOAD_STAGE (R36 to R38, R388). -/
def execStructureLoadStage (c : CmdId) (d : Dwords) (data : List Byte) (s : State) : Host.Outcome State Fault Refusal :=
  done (s.command c .stage (fun s => s.stage c d data))

/-- STRUCTURE_LOAD_APPLY (R22, R36 to R41). -/
def execStructureLoadApply (c : CmdId) (d : Dwords) (s : State) : Host.Outcome State Fault Refusal :=
  done (s.command c .manage (fun s => s.startApply c d))

/-- STRUCTURE_LOAD_DISCARD (R36 to R38, R388). -/
def execStructureLoadDiscard (c : CmdId) (d : Dwords) (s : State) : Host.Outcome State Fault Refusal :=
  done (s.command c .stage (fun s => s.discardStage c d))

/-- APPLY_VERIFY_DONE (R33 to R35, R39, R40). -/
def execApplyVerifyDone (sigOk : Bool) (s : State) : Host.Outcome State Fault Refusal :=
  done (if s.inGo then s.verified sigOk else s)

/-- APPLY_CONFIGURE (R31, R35, R39, R41 to R43, R125, R410, R453): at a beat boundary. -/
def execApplyConfigure (s : State) : Host.Outcome State Fault Refusal := done (if s.inGo then s.applyStep else s)

/-- PERSIST_DONE (R44). -/
def execPersistDone (ok : Bool) (s : State) : Host.Outcome State Fault Refusal :=
  done (match s.sl.persist with
    | none => s
    | some img => s.persistEnds img ok)

/-- SQUAD_RETIRE (R38, R46, R47, R52). -/
def execSquadRetire (c : CmdId) (d : Dwords) (s : State) : Host.Outcome State Fault Refusal :=
  done (s.command c .manage (fun s => s.retireSquad c d false))

/-- SQUAD_RETIRE_FORCE (R46, R48, R50 to R52). -/
def execSquadRetireForce (c : CmdId) (d : Dwords) (s : State) : Host.Outcome State Fault Refusal :=
  done (s.command c .manage (fun s => s.retireSquad c d true))

/-- DRAIN_COMPLETE (R20, R41, R42, R46 to R48). -/
def execDrainComplete (squad : Nat) (s : State) : Host.Outcome State Fault Refusal :=
  done (if s.inGo then s.drainEnds squad else s)

/-- DRAIN_SLOW (R51): the drain has not completed within SL_DRAIN_TIMEOUT beats; 0 disables. -/
def execDrainSlow (s : State) : Host.Outcome State Fault Refusal :=
  let drains := s.sl.retire.isSome || (s.sl.load.map Load.step) == some .drain
  done (if drains && s.sl.timeout != 0 && s.sl.timeout ≤ s.sl.drainBeats && !s.sl.drainSlow then
    { s with sl := { s.sl with drainSlow := true, event := setEv s.sl.event 3 } } else s)

/-- TILE_SWEEP_DONE (R41, R45, R70, R385): the tile supply is up and the tile waits for its sweep. -/
def execTileSweepDone (tile : Nat) (s : State) : Host.Outcome State Fault Refusal :=
  done (if tile < 1024 && s.power.tileSupply && s.vendorLive && (s.qe.ps < 2 || s.mc.phase == .blocks) && !(s.tile tile).swept then s.tileSwept tile else s)

end Sys2Proof.Machine
end

