-- ==== Sys2Proof/Machine/Bringup.lean ====
section
/-! DEFINITION. Input power, pins and bring-up (R377 to R397, R440, R465 to R473): from the 50 V input to GO, recovery, and the
ways back through BLOCKS. -/

namespace Sys2Proof.Machine

/-! ## Stopping for PERST# or MOD_EN (R332, R378, R471) -/

/-- Writes that hold their entries run to the medium, with no completion (R332). -/
def State.landWrites (s : State) : State :=
  s.qe.store.foldl (fun s k =>
    if !k.silent || !k.writes then s
    else
      let put : Mm × List Piece := match s.mm.namespaces.find k.nsid with
        | none => (s.mm, [])
        | some n => s.mm.placePieces n (k.pieces.filter k.lands)
      let r : Mm × List Piece := if k.stage = .running then (s.mm, k.pieces) else (put.1, put.2 ++ k.pieces.filter (fun p => !k.lands p))
      let k' := { k with pieces := r.2.map (fun (p : Piece) => { p with onMedium := true }) }
      ({ s with mm := r.1 } : State).endStore k' stInternal []) s

/-- Every stripe that holds data is on the medium. -/
def State.settleStripes (s : State) : State :=
  let m := s.mm.closeStripe
  { s with mm := { m with stripes := m.stripes.mapVals (fun _ x => { x with verified := true }) } }

/-- What an operation of the internal path, cut short, leaves is free: the firmware region, or the inactive boot slot. -/
def State.cutInternal (s : State) : State :=
  let s1 := match s.se.commit with
    | none => s
    | some k => { s.programFwFail k.image with se := { s.se with commit := none } }
  match s1.sl.persist with
  | none => s1
  | some img =>
    let r := s1.draw
    let i := if s1.sw.bootLog.selector = 0 then 1 else 0
    let junk := img.zipIdx.map (fun x => (r.1 >>> (8 * (x.2 % 8))).setWidth 8)
    { r.2 with sw := r.2.sw.putBytes (bootSlotAddr i) junk, sl := { r.2.sl with persist := none } }

/-- A program or erase of the store cut by loss of power: the bytes it had begun to change are free. -/
def State.cutStoreOp (s : State) : State :=
  match s.sw.run with
  | none => s
  | some (o, _) => { s with sw := { (s.swFail o).sw with run := none }, tick := s.tick + 1 }

/-- The module stops as R332 gives, and every block is then held in reset. -/
def State.stopAll (s : State) : State :=
  let s1 := s.stopQe.resetLp
  let rec_ := s.mc.phase == .recovery
  let s2 := s1.landWrites.settleStripes
  let s3 := if rec_ then s2 else s2.cutInternal
  let s4 := s3.inReset
  if rec_ then { s4 with se := { s4.se with commit := s3.se.commit, fwBuf := s3.se.fwBuf, fwLen := s3.se.fwLen } } else s4

/-! ## Input power (R468 to R472) -/

/-- Main rails are up: the module enters MARKS, or keeps the entry for the deassertion of PERST#. -/
def State.powerUp (s : State) (entry : Nat) : State :=
  let s1 : State := { s with power := { s.power with pwrGood := true, hostRail := true, flashRail := true, dramRail := true, badRails := [] } }
  if s.power.perst then { s1 with mc := { s1.mc with deferred := some (s1.mc.deferred.getD entry) } } else s1.enterMarks entry

/-- Rails off; the always-on domain runs while the input is accepted. -/
def Power.railsOff (p : Power) : Power :=
  { p with pwrGood := false, hostRail := false, flashRail := false, tileSupply := false, dramRail := false, badRails := [],
           refresh2x := [] }

/-- Sticky fields are lost with the 50 V input (R4, R5). -/
def State.forgetSticky (s : State) : State :=
  { s with
    mc := { s.mc with entries := 0, entry := 0, recoveryNext := false, deferred := none }
    pc := { Pacer.reset with reports := s.pc.reports }
    qe := { s.qe with wp := [], wpOverflow := false, psAtGo := 0 } }

/-- Power fail is detected (R470, R184): QE, HL and the sideband stop; started program pulses run on. -/
def State.powerFail (s : State) (v : Nat) : State :=
  let up := s.mc.phase != .off
  let s1 := s.powerLost
  { s1 with
    power := { s1.power with vin10mV := v, failing := true, pwrGood := false, tileSupply := false, dramRail := false,
                             dynAddr := none, eid := none }
    mc := { s1.mc with phase := .off, deferred := none }
    qe := { s1.qe with ready := false, fetched := [] }
    lp := Lp.reset
    mm := { s1.mm with lossDirty := s1.mm.lossDirty || (up && s1.qe.shst != 2) } }

/-- The hold-up time is over. -/
def State.railsOff (s : State) : State :=
  let s1 := s.settlePower.cutInternal.cutStoreOp
  let s2 := s1.inReset.forgetSticky
  { s2 with
    power := { s2.power.railsOff with failing := false, vinAccepted := false, bankCharged := false }
    mm := { s2.mm with lostWrites := s1.mm.lostWrites } }

/-! ## MARKS (R380 to R382, R390) -/

/-- MARKS ends in RECOVERY. -/
def State.enterRecovery (s : State) (cause : Nat) : State :=
  let s1 : State := { s with
    mc := { s.mc with phase := .recovery, cause := cause, event := setEv s.mc.event 3, recoveryNext := false }
    sw := { s.sw with busyBoot := false } }
  s1.takeReady.alert

/-- The fuse map of the part: its contents never change (R75), so a later read finds those of the first. -/
def sameFuses (old new : FuseMap) : FuseMap := if old.phys.isEmpty then new else { old with ok := new.ok }

/-- The fuse read of step 2. -/
def State.fuseRead (s : State) (m : FuseMap) : State :=
  let s1 : State := { s with mc := { s.mc with fuse := sameFuses s.mc.fuse m, fuseDone := true } }
  if !m.ok then s1.enterRecovery 5 else if s.mc.recoveryNext then s1.enterRecovery 4 else s1

/-- A copy of the user calibration is valid (R440). -/
def calValid (l : List Byte) : Bool :=
  u32At l 0 == 0x4C41435A && u32At l 16 == (crc32c (l.drop 64 ++ l.take 16)).toNat

/-- The copy that governs. -/
def Sw.calibration (w : Sw) : Option (List Byte) :=
  let a := w.bytes 0x8000 8192
  let b := w.bytes 0xA000 8192
  if calValid a && (!calValid b || u64At b 8 ≤ u64At a 8) then some a else if calValid b then some b else none

/-- Signed bytes of a run of the calibration, held to a range, zeros left out. -/
def calRun (l : List Byte) (o n : Nat) (lo hi : Int) : KMap Int :=
  ((List.range n).map (fun i => (i, clampZ lo hi (signedN 8 (byteAt l (o + i)))))).filter (fun e => e.2 != 0)

/-- User calibration takes force (R440, R441). -/
def Mc.calibrate (m : Mc) (l : List Byte) : Mc :=
  { m with
    userDram := calRun l 64 512 (-16) 15, userTrim := calRun l 576 64 (-20) 20, userRead := calRun l 4096 4096 (-32) 31
    userVGain := clampZ (-1024) 1024 (signedN 16 (u16At l 640)), userIGain := clampZ (-1024) 1024 (signedN 16 (u16At l 642))
    userVOff := clampZ (-500) 500 (signedN 16 (u16At l 644)), userIOff := clampZ (-2000) 2000 (signedN 16 (u16At l 646)) }

/-- The boot image the selector names. -/
def Sw.bootImage (w : Sw) : List Byte :=
  let b := w.bootLog
  if b.selector = 0 then w.bytes (bootSlotAddr 0) b.slot0 else if b.selector = 1 then w.bytes (bootSlotAddr 1) b.slot1 else []

/-- The boot image is read and verified (R382, R34): kept for step B4, or the module goes on without squads. -/
def State.loadBoot (s : State) (sigOk : Bool) : State :=
  let img := s.sw.bootImage
  if img.isEmpty then { s with mc := { s.mc with bootImage := [], noImage := true } }
  else match verifyImage SquadSet.empty 0 0 true (sigOk && (s.sw.ownerKeys.find (imKey img)).isSome) img with
    | .inr _ => { s with mc := { s.mc with bootImage := img, noImage := false } }
    | .inl f =>
      let s1 : State := { s with mc := { s.mc with bootImage := [], noImage := true } }
      if f.1 = 3 then s1.verifyFailed.postCorr srcSE kSigVerify 0 0 0 0 0 else s1

/-- What the parameter sectors give (R381). -/
def State.readParams (s : State) : State :=
  { s with
    sw := s.sw.loadProtect
    qe := { s.qe with versions := s.sw.versions }
    lp := { s.lp with volMap := s.sw.volMap }
    mc := s.mc.calibrate ((s.sw.calibration).getD []) }

/-- Steps 4 and 5 of MARKS. -/
def State.storeRead (s : State) (fwSig bootSig : Bool) : State :=
  let s1 := s.readParams
  let b := s1.sw.bootLog
  let img := s1.sw.bytes fwAddr b.fwBytes
  if b.updating = 1 then s1.enterRecovery 3
  else if b.fwBytes = 0 then s1.enterRecovery 1
  else if !fwSig || !fwHeaderOk img b.fwBytes then
    (s1.verifyFailed.postFatal srcSE kSigVerify 0 0 0 0 0).enterRecovery 2
  else
    let s2 : State := { s1 with mc := { s1.mc.runs img with storeDone := true } }
    let s3 := s2.loadBoot bootSig
    { s3 with sw := { s3.sw with busyBoot := false } }

/-! ## BLOCKS (R383, R385, R386, R394, R395, R429) -/

/-- From MARKS: CSTS.RDY may set, the record logs are cleaned, training begins. -/
def State.blocksCold (s : State) (ms : Nat) : State :=
  let mc : Mc := { s.mc with phase := .blocks, marksMs := ms % 65536, path := .cold, event := setEv s.mc.event 1 }
  let s1 : State := { s with mc := mc, sw := s.sw.cleanPairs }
  let s2 := s1.takeReady
  if s2.fl.fatalStands then s2.fatalStop else s2

/-- Every tile waits for its sweep, and squads that are not FENCED start again once theirs are done (R394, R395). -/
def State.resweep (s : State) : State :=
  let s1 := s.panelLost
  { s1 with sl := { s1.sl with set_ := { s1.sl.set_ with squads := s1.sl.set_.squads.mapVals (fun _ q =>
      if q.state == .fenced || q.state == .draining then q else { q with state := .starting }) } } }

/-- A command of SL ends because its set is gone. -/
def State.dropLoads (s : State) : State :=
  let cs := (s.sl.load.toList.flatMap (fun l => l.c :: l.retires.flatMap Retire.cs)) ++ (s.sl.retire.toList.flatMap Retire.cs)
  cs.foldl (fun s c => s.complete c stInternal) { s with sl := { s.sl.unstage with load := none, retire := none } }

/-- Every near copy goes with the swept stacks, and what waited on it ends (R172). -/
def State.settleAll (s : State) : State := s.rl.dir.keys.foldl (fun s o => (s.oldLost o).nearLost o) s

/-- MG reloads the firmware from the store (R394): what a Firmware Commit left there runs from now, since the module holds no
other (R456). An image that does not verify leaves the firmware in use (DESIGN CHOICE, assumption entry 48). -/
def State.reloadFw (s : State) : State :=
  let b := s.sw.bootLog
  let img := s.sw.bytes fwAddr b.fwBytes
  if b.updating = 1 || !fwHeaderOk img b.fwBytes then s else { s with mc := s.mc.runs img }

/-- Stacks are trained and swept again: their contents go, and with them what R396 rebuilds. -/
def State.rebuild (s : State) (sts : List Nat) : State :=
  let s1 := (s.dropLoads).detachWhere (fun _ => true)
  let s2 := s1.settleAll.releaseTiles (fun _ _ => false)
  let ring := s2.fl.ring.filter (fun e => !sts.contains ((0x00FC00100000 + 32 * e.1) / 4096 % 16))
  let s3 : State := { s2 with
    fl := { s2.fl with ring := ring }
    sl := { s2.sl with set_ := SquadSet.empty, gen := 0 }
    jd := { s2.jd with laps := [], models := [], seqs := [], pools := [], turn := [], banks := [] }
    rl := { s2.rl with
      ntReady := s2.rl.ntReady.filter (fun k => !sts.contains k), ftReady := false,
      dir := homedOnly (s2.rl.dir.filter (fun e => !e.2.discardPending)), copies := [] }
    mm := { s2.mm with replayed := false, pages := [], pool := [], beatOld := [], index := [] }
    mc := { s2.mc with trained := [], attempts := [], imageDone := false, fcPath := false } }
  s3.reloadFw.loadBoot true

/-- A FATAL clear that passed: BLOCKS again (R394, R414). -/
def State.blocksFatal (s : State) (b : ClearBy) : State :=
  let sts := s.mc.retrain
  let st := s.fl.standing.filter (fun x => x.record.cls != 2)
  let mc : Mc := { s.mc with
    phase := .blocks, entry := 4, path := if sts.isEmpty then .fatalKept else .fatalSwept, fatalClear := none, retrain := [],
    event := setEv s.mc.event 1 }
  let s1 : State := { s with
    fl := { s.fl with standing := st, standingFull := st.any (fun y => !y.entry), critFatal := false }
    mc := mc
    power := { s.power with tileSupply := true, dramRail := true, badRails := [] } }
  let s2 := if sts.isEmpty then s1 else s1.rebuild sts
  (s2.resweep.clearEnds b 0).alert

/-- Exit from PS4 (R395): BLOCKS with everything but the panel kept. -/
def State.blocksPs4 (s : State) (n : Nat) : State :=
  let mc : Mc := { s.mc with phase := .blocks, entry := 5, path := .ps4, event := setEv s.mc.event 1 }
  let s1 : State := { s with
    mc := mc
    qe := { s.qe with ps := s.qe.psLastOp, psWant := none, psAtGo := n, psAuto := false } }
  s1.resweep

/-- A stack's training attempt ends (R386): three failures are fatal. -/
def State.trained (s : State) (k : Nat) (ok : Bool) : State :=
  if ok then { s with mc := { s.mc with trained := k :: s.mc.trained } }
  else
    let n := s.mc.attempts.findD k 0 + 1
    let s1 : State := { s with mc := { s.mc with attempts := s.mc.attempts.put k n } }
    if n = 3 then s1.postFatal (srcStack k) kEccUncorr 0 0 4 0 0 else s1

/-- A stack's sweep ends (R152): its granules are zero; once all are ready the buffered records move into the ring. -/
def State.stackSwept (s : State) (k : Nat) : State :=
  let s1 : State := { s with
    mc := { s.mc with trained := s.mc.trained.filter (fun x => x != k) }
    rl := { s.rl with
      ntReady := k :: s.rl.ntReady
      near := s.rl.near.filter (fun e => e.1 / 4096 % 16 != k)
      probe := s.rl.probe.filter (fun e => e.1 / 4096 % 16 != k)
      flipLast := s.rl.flipLast.adjust k (fun w => w &&& 0x7FFFFFFF) } }
  if s1.ntAll then { s1 with fl := s1.fl.flushBuffer } else s1

/-- Entries of page 0xC1 for the writes a loss of power cut come first (R333). -/
def Qe.addLost (q : Qe) (ws : List WpEntry) : Qe :=
  if ws.isEmpty then q
  else
    let all := ws ++ q.wp
    ({ q with
      wp := all.drop (all.length - 4096), wpOverflow := q.wpOverflow || 4096 < all.length, event := setEv q.event 1 } : Qe).asyncEvent
      0xC1

/-- Map replay ends (R195, R215, R333, R388): the map is built, stripes that did not verify are discarded, MM_EPOCH is set, the
commands held are served. -/
def State.replayed (s : State) (ms : Nat) : State :=
  let m := s.mm.replayMap
  let kept : KMap Stripe := m.stripes.filter (fun x => x.2.verified)
  let e := if s.mc.path = .cold then m.mediumEpoch + 1 else max m.epoch (m.mediumEpoch + 1)
  let s1 : State := { s with
    mm := { m with
      replayed := true, epoch := e, replayMs := satTo 0xFFFF ms, clean := kept.length == m.stripes.length && !m.lossDirty,
      lossDirty := false, stripes := kept, openStripe := none, lostWrites := []
      landing := m.landing.filter (fun e => (kept.find (e.1 / 64)).isSome) }.repace
    qe := s.qe.addLost m.lostWrites }
  s1.serveHeld

/-! ## GO (R371, R387, R396) -/

/-- Every squad is ACTIVE, FENCED or on its way out. -/
def State.squadsUp (s : State) : Bool := s.sl.set_.squads.all (fun e => e.2.state != .starting)

/-- The module may enter GO. -/
def State.mayGo (s : State) : Bool :=
  s.inBlocks && s.ntAll && s.mm.replayed && s.allSwept && s.mc.imageDone && s.squadsUp && s.rl.ftReady && s.mc.fcPath

/-- Entry to GO. -/
def State.enterGo (s : State) (ms : Nat) : State :=
  let mc : Mc := { s.mc with phase := .go, blocksMs := satTo 0xFFFF ms, event := setEv s.mc.event 0 }
  let s1 : State := { s with mc := mc, pc := if s.pc.bandOn then s.pc.settleBand else s.pc }
  let s2 := s1.dropAllKeepers
  if s2.qe.ps = s2.qe.psAtGo then s2 else s2.applyPs s2.qe.psAtGo

/-! ## Meanings: pins and power -/

/-- VIN_ACCEPTED (R468): 39.5 V and above, held; the bank charges. -/
def execVinAccepted (v10mV : Nat) (s : State) : Host.Outcome State Fault Refusal :=
  done (if s.power.vinAccepted || s.power.failing || v10mV < 3950 || 6400 < v10mV then s
    else { s with power := { s.power with vin10mV := v10mV, vinAccepted := true, bankCharged := false } }.alert)

/-- HOLD_UP_BANK_CHARGED (R469, R378): the main path closes; with MOD_EN asserted the module powers up. -/
def execHoldUpBankCharged (s : State) : Host.Outcome State Fault Refusal :=
  done (if s.power.vinAccepted && !s.power.bankCharged && !s.power.failing then
    let s1 : State := { s with power := { s.power with bankCharged := true } }
    if s1.power.modEn then s1.powerUp 0 else s1
  else s)

/-- INPUT_OUT_OF_RANGE (R404, R468, R477): outside 40 V to 60 V for more than 1 ms. -/
def execInputOutOfRange (v10mV : Nat) (s : State) : Host.Outcome State Fault Refusal :=
  done (if !s.power.vinAccepted || s.power.failing || (4000 ≤ v10mV && v10mV ≤ 6000) then s
    else
      let s1 : State := { s with power := { s.power with vin10mV := v10mV, outOfRange := true } }
      let s2 := if s.linkUp then s1.postCorr srcPower kPowerBand 0 (BitVec.ofNat 32 v10mV)
        (BitVec.ofNat 32 (4 * (if v10mV < 4000 then 1 else 2))) 0 0 else s1
      s2.alert)

/-- INPUT_IN_RANGE (R477). -/
def execInputInRange (v10mV : Nat) (s : State) : Host.Outcome State Fault Refusal :=
  done (if s.power.vinAccepted && 4000 ≤ v10mV && v10mV ≤ 6000 then
    { s with power := { s.power with vin10mV := v10mV, outOfRange := false } }.alert else s)

/-- POWER_FAIL (R184, R331, R470): the input falls below 38 V, or the input switch opens. In standby nothing is in flight. -/
def execPowerFail (v10mV : Nat) (s : State) : Host.Outcome State Fault Refusal :=
  done (if !s.power.vinAccepted || s.power.failing then s else s.powerFail v10mV)

/-- POWER_FAIL_RAILS_OFF (R184, R470). -/
def execPowerFailRailsOff (s : State) : Host.Outcome State Fault Refusal := done (if s.power.failing then s.railsOff else s)

/-- MOD_EN_ASSERT (R378, R471). -/
def execModEnAssert (s : State) : Host.Outcome State Fault Refusal :=
  done (if s.power.modEn then s
    else
      let s1 : State := { s with power := { s.power with modEn := true } }
      if s.power.vinAccepted && s.power.bankCharged && !s.power.failing then s1.powerUp 1 else s1)

/-- MOD_EN_DEASSERT (R332, R471): as PERST#, then the main rails turn off; standby. -/
def execModEnDeassert (s : State) : Host.Outcome State Fault Refusal :=
  done (if !s.power.modEn then s
    else
      if s.power.failing || !s.power.pwrGood then { s with power := { s.power with modEn := false } }
      else
        let s2 := s.cutStoreOp.cutInternal.stopAll
        { s2 with power := { s2.power.railsOff with modEn := false }, mc := { s2.mc with deferred := none } }.alert)

/-- RAIL_FAULT (R404, R472): a fatal record; PWR_GOOD follows the host-die and flash rails only. -/
def execRailFault (rail : Nat) (kind : RailKind) (v10mV : Nat) (s : State) : Host.Outcome State Fault Refusal :=
  done (if !s.linkUp then s
    else
      let p := s.power
      let p1 : Power := { p with
        vin10mV := v10mV, badRails := if p.badRails.contains rail then p.badRails else rail :: p.badRails,
        hostRail := p.hostRail && kind != .hostDie, flashRail := p.flashRail && kind != .flash,
        tileSupply := p.tileSupply && kind != .tile, dramRail := p.dramRail && kind != .dram,
        pwrGood := p.pwrGood && kind != .hostDie && kind != .flash }
      { s with power := p1 }.postFatal srcPower kPowerBand 0 (BitVec.ofNat 32 v10mV)
        (BitVec.ofNat 32 (12 + 256 * (rail % 256))) 0 0)

/-- PERST_ASSERT (R332, R355, R378, R436, R473): with no effect but the pin while PWR_GOOD is deasserted. -/
def execPerstAssert (s : State) : Host.Outcome State Fault Refusal :=
  done (if s.power.perst then s
    else
      let s1 := if s.power.pwrGood && s.mc.phase != .off then s.stopAll else s
      let s2 : State := { s1 with power := { s1.power with perst := true } }
      if s.power.pwrGood && s.mc.phase != .off then s2.alert else s2)

/-- PERST_DEASSERT (R5, R378): an entry to MARKS, of the event that was held off if there was one. -/
def execPerstDeassert (s : State) : Host.Outcome State Fault Refusal :=
  done (if !s.power.perst then s
    else
      let s1 : State := { s with power := { s.power with perst := false } }
      if s.power.pwrGood then s1.cutInternal.enterMarks (s.mc.deferred.getD 2) else s1)

/-! ## Meanings: bring-up -/

/-- FUSE_READ_DONE (R12, R75, R105, R380, R390): step 2 of MARKS. -/
def execFuseReadDone (map : FuseMap) (s : State) : Host.Outcome State Fault Refusal :=
  done (if s.mc.phase == .marks && !s.mc.fuseDone then s.fuseRead map else s)

/-- PANEL_POWER_DONE (R380, R385): step 3 of MARKS; it may end in BLOCKS. -/
def execPanelPowerDone (s : State) : Host.Outcome State Fault Refusal :=
  done (if (s.mc.phase == .marks || s.mc.phase == .blocks) && s.mc.fuseDone && !s.mc.panelDone then
    { s with mc := { s.mc with panelDone := true }, power := { s.power with tileSupply := true } } else s)

/-- SETTINGS_STORE_READ_DONE (R22, R33, R342, R381, R382, R390, R431, R440): steps 4 and 5. -/
def execSettingsStoreReadDone (fwSigOk bootSigOk : Bool) (s : State) : Host.Outcome State Fault Refusal :=
  done (if s.mc.phase == .marks && s.mc.fuseDone && !s.mc.storeDone then s.storeRead fwSigOk bootSigOk else s)

/-- ENTER_BLOCKS (R70, R380, R383, R394, R396, R429): at a beat boundary, from MARKS or after a FATAL clear. -/
def execEnterBlocks (ms : Nat) (s : State) : Host.Outcome State Fault Refusal :=
  done (if s.mc.phase == .marks && s.mc.storeDone then s.blocksCold ms
    else match s.mc.fatalClear with
      | some b => if s.halted then s.blocksFatal b else s
      | none => s)

/-- DRAM_TRAINING_DONE (R385, R386). -/
def execDramTrainingDone (stack : Nat) (ok : Bool) (s : State) : Host.Outcome State Fault Refusal :=
  done (if s.inBlocks && stack < 16 && !s.rl.ntReady.contains stack && !s.mc.trained.contains stack
      && s.mc.attempts.findD stack 0 < 3 then s.trained stack ok else s)

/-- NT_SWEEP_DONE (R152, R172, R384, R385). -/
def execNtSweepDone (stack : Nat) (s : State) : Host.Outcome State Fault Refusal :=
  done (if s.inBlocks && s.mc.trained.contains stack then s.stackSwept stack else s)

/-- BOOT_IMAGE_APPLY (R31, R35, R45, R385, R453): step B4. -/
def execBootImageApply (s : State) : Host.Outcome State Fault Refusal :=
  done (if s.inBlocks && s.ntAll && s.allSwept && !s.mc.imageDone then s.applyBoot else s)

/-- MAP_REPLAY_DONE (R184, R195, R215, R331, R333, R388): step B5. -/
def execMapReplayDone (ms : Nat) (s : State) : Host.Outcome State Fault Refusal :=
  done (if s.inBlocks && s.ntAll && !s.mm.replayed then s.replayed ms else s)

/-- DIRECTORY_REBUILD_DONE (R385): step B6. -/
def execDirectoryRebuildDone (s : State) : Host.Outcome State Fault Refusal :=
  done (if s.inBlocks && s.mm.replayed && !s.rl.ftReady then { s with rl := { s.rl with ftReady := true } } else s)

/-- FC_PATH_PRIMED (R385): step B7. -/
def execFcPathPrimed (s : State) : Host.Outcome State Fault Refusal :=
  done (if s.inBlocks && s.mm.replayed && !s.mc.fcPath then { s with mc := { s.mc with fcPath := true } } else s)

/-- ENTER_GO (R45, R125, R371, R387): the first beat boundary at which every condition holds. -/
def execEnterGo (ms : Nat) (s : State) : Host.Outcome State Fault Refusal := done (if s.mayGo then s.enterGo ms else s)

/-- PS4_EXIT (R336, R395, R396). -/
def execPs4Exit (s : State) : Host.Outcome State Fault Refusal :=
  done (match s.qe.psWant with
    | none => s
    | some n => if s.inGo && s.qe.ps == 4 && n != 4 then s.blocksPs4 n else s)

end Sys2Proof.Machine
end

