-- ==== Sys2Proof/Machine/MediaCmds.lean ====
section
/-! DEFINITION. MM's own work on the medium (R180, R181, R186, R188, R194 to R213): fold, garbage collection, wear
levelling, scrub, refresh, checkpoints, failures, and the flash temperature. Which block or unit MM picks is the
command's operand (assumption entry 8). -/

namespace Sys2Proof.Machine

/-! ## Stages of wear (R211, R213) -/

/-- Post SPARE_LOW for a pool that fell below its threshold, once. -/
def State.spareLow (s : State) (k : Nat) : State :=
  if s.mm.spare k < spareLowAt k && !s.mm.spareSaid.contains k then
    let s1 := { s with mm := { s.mm with
        spareSaid := s.mm.spareSaid ++ [k], event := setEv s.mm.event 4 } }.postCorr srcMG kSpareLow
      (BitVec.ofNat 64 (k % 512)) 0 0 0 0
    { s1 with qe := s1.qe.asyncEvent 0xC2 }
  else s

/-- A stage of R211 or R213 other than SPARE_LOW begins with a retirement (DEDUCED, entry 32): the first block a parity
group retires (stage 2), a group that becomes read-only, a landing set that leaves service. -/
def Mm.stageBegins (before after : Mm) (k : Nat) : Bool :=
  (k < 256 && before.retiredCnt.findD k 0 == 0 && after.retiredCnt.findD k 0 != 0)
    || after.roGroups.length != before.roGroups.length || after.outSets.length != before.outSets.length

/-- Retire a block, with the reports of the stage that begins. -/
def State.retireBlock (s : State) (channel die block : Nat) : State :=
  let m := s.mm.retire channel die block
  let s1 := { s with mm := m }.spareLow (spareKey channel die)
  if s.mm.stageBegins m (spareKey channel die) then { s1 with qe := s1.qe.asyncEvent 0xC2 } else s1

/-! ## Conditions -/

/-- Bulk block `b` of group `g` is closed: all 64 rows programmed. -/
def Mm.closedBlock (m : Mm) (g b : Nat) : Bool :=
  modeQlc.rows ≤ (m.blk (groupKey g b)).rows && !(m.blk (groupKey g b)).retired && !m.eraseQ.contains (groupKey g b)

/-- A closed block with the fewest valid units, and the lower erase count among equals (R201). -/
def Mm.isVictim (m : Mm) (g b : Nat) : Bool :=
  m.closedBlock g b && (m.groupBlocks g).all (fun x => !m.closedBlock g x ||
    (let vb := m.validIn (inGroupBlock g b)
     let vx := m.validIn (inGroupBlock g x)
     vb < vx || (vb == vx && (m.blk (groupKey g b)).erases ≤ (m.blk (groupKey g x)).erases)))

/-- The move of R202: the least-erased closed block's data into the most-erased free block, once the counts differ by more than
SPREAD. -/
def Mm.isLevelMove (m : Mm) (g src dst : Nat) : Bool :=
  let er := fun b => (m.blk (groupKey g b)).erases
  m.spread < m.eraseSpread g && m.closedBlock g src && m.freeBlock g dst
    && (m.groupBlocks g).all (fun x => (!m.closedBlock g x || er src ≤ er x) && (!m.freeBlock g x || er x ≤ er dst))

/-- Landed data has reached its age limit and is not folded (R188). -/
def Mm.ageUrgent (m : Mm) : Bool := m.stripes.any (fun x => x.2.seq < m.agedTo)

/-- Fold is urgent: pacing of R185 is in force, or landed data has reached its age limit (R188). -/
def Mm.foldUrgent (m : Mm) : Bool := m.paced || m.ageUrgent

/-- Garbage collection of a group is urgent (R188, R201). -/
def Mm.gcUrgentIn (m : Mm) (g : Nat) : Bool := decide (m.erasedBlocks g < m.gcUrgent)

/-! ## Meanings -/

/-- FOLD_ROW (R186, R188, R194): the oldest landed units, 120 where there are as many, into the next row of a usable block. Fold
runs when it is urgent, or the Pacer granted it. -/
def execFoldRow (group block : Nat) (units : List Nat) (s : State) : Host.Outcome State Fault Refusal :=
  done (if s.mediaRuns && group < 208 && s.mm.usable group block && (s.mm.blk (groupKey group block)).rows < modeQlc.rows
      && s.mm.isFoldRow units && (s.mm.foldUrgent || s.mayRun 0 group) then
    { s with mm := s.mm.foldUnits group block units }.endBg 0 group else s)

/-- LANDING_AGE_LIMIT (R188, R204): the oldest landed data has reached its limit, and fold is urgent until it is
folded. -/
def execLandingAgeLimit (s : State) : Host.Outcome State Fault Refusal :=
  done (if s.mediaRuns then
    { s with mm := { s.mm with agedTo := match s.mm.stripes.vals.map Stripe.seq with
        | [] => s.mm.agedTo
        | a :: as => max s.mm.agedTo (as.foldl min a + 1) } }
  else s)

/-- GARBAGE_COLLECTION (R188, R194, R201): the victim's valid units in rows of `dest`, while the group's erased blocks are few
enough for it to be urgent, or the Pacer granted it. -/
def execGarbageCollection (group victim dest : Nat) (s : State) : Host.Outcome State Fault Refusal :=
  done (if s.mediaRuns && group < 208 && s.mm.isVictim group victim && s.mm.takesUnits group victim dest
      && (s.mm.gcUrgentIn group || s.mayRun 1 group) then
    { s with mm := s.mm.moveUnits group victim dest }.endBg 1 group else s)

/-- WEAR_LEVEL_MOVE (R202). -/
def execWearLevelMove (group src dest : Nat) (s : State) : Host.Outcome State Fault Refusal :=
  done (if s.mediaRuns && group < 208 && s.mm.isLevelMove group src dest && s.mm.takesUnits group src dest && s.mayRun 1 group then
    { s with mm := s.mm.moveUnits group src dest }.endBg 1 group else s)

/-- The base read offset of threshold `t` on a die (R207): factory plus user offset, held to one signed byte. -/
def State.readBase (s : State) (channel die t : Nat) : Int :=
  let k := 32 * channel + die
  clampZ (-128) 127 ((s.mc.fuse.readOff.find (16 * k + t)).getD 0 + (s.mc.userRead.find k).getD 0)

/-- The offset of threshold `t` in each read a codeword of a block takes (R207, R208). -/
def State.readOffsets (s : State) (channel die block t step best : Nat) : List Int :=
  (ladderReads die (s.mm.blk (blockKey channel die block)).hint step best).map (fun o => s.readBase channel die t + o)

/-- SCRUB_READ (R188, R204, R205, R208, R209): a deep step or many bit errors mark the block; the scrub pass leaves its hint at
step 0. -/
def execScrubRead (channel die block step bits : Nat) (s : State) : Host.Outcome State Fault Refusal :=
  done (if s.mediaRuns && channel < 128 && die < 32 && block < 16640 && s.mayRun 4 (32 * channel + die) then
    let k := blockKey channel die block
    { s with mm := (s.mm.noteRead k step bits).onBlk k (fun b => { b with hint := 0 }) }.endBg 4 (32 * channel + die)
  else s)

/-- A block was refreshed. -/
def State.refreshed (s : State) (k : Nat) : State :=
  { s with mm := { s.mm.onBlk k (fun b => { b with refreshes := b.refreshes + 1 }) with
      refreshQ := s.mm.refreshQ.filter (fun x => !(x == k)) } }

/-- The stripes with a unit in a landing block are due for fold. -/
def Mm.dueStripes (m : Mm) (k : Nat) : Mm :=
  { m with stripes := m.stripes.mapVals (fun n x => if (stripeBlocks n).contains k then { x with due := true } else x) }

/-- REFRESH (R188, R205, R211): a bulk block is garbage-collected, a landing block is folded, a far-tier block is copied to a
spare block of its die, remapped there and erased, or stays in use when there is none. A block refreshed a second time is
retired. A bulk block whose destination cannot take its data keeps its mark. -/
def execRefresh (channel die block dest : Nat) (s : State) : Host.Outcome State Fault Refusal :=
  done (let k := blockKey channel die block
    let g := groupOf channel die
    let again := 1 ≤ (s.mm.blk k).refreshes
    let retire := fun s : State => if again then s.retireBlock channel die block else s
    if !(s.mediaRuns && s.mm.refreshQ.contains k && s.mayRun 4 (32 * channel + die)) then s
    else if 6 ≤ die then
      if s.mm.takesUnits g block dest then
        retire (({ s with mm := s.mm.moveUnits g block dest }.refreshed k).endBg 4 (32 * channel + die))
      else s
    else if 4 ≤ die then retire (({ s with mm := s.mm.dueStripes k }.refreshed k).endBg 4 (32 * channel + die))
    else
      let s1 := (s.refreshed k).endBg 4 (32 * channel + die)
      if s1.mm.spare (spareKey channel die) = 0 then s1
      else if again then s1.retireBlock channel die block
      else
        match s1.mm.spareFor channel die with
        | none => s1
        | some x => { s1 with mm := { s1.mm.onBlk k FlashBlock.erase with remap := s1.mm.remap.put k x } })

/-- MAP_CHECKPOINT (R186, R194, R195): every dirty page and the journal are on the medium; what waited for that is released and
erased. -/
def execMapCheckpoint (s : State) : Host.Outcome State Fault Refusal :=
  done (if s.mediaRuns then { s with mm := s.mm.checkpoint } else s)

/-- After a program or erase failure: the failed program again in another block. A bulk block's valid data goes to `dest`, or to
a free block of the group when `dest` cannot take it; a landing or far-tier unit is programmed again. -/
def State.reprogram (s : State) (channel die block dest : Nat) : State :=
  let g := groupOf channel die
  if die < 6 then { s with mm := { s.mm with mediaWritten := s.mm.mediaWritten + 16 } }
  else if !s.mm.occupied (inGroupBlock g block) then s
  else if s.mm.takesUnits g block dest then { s with mm := s.mm.moveUnits g block dest }
  else
    match s.mm.freeOf g with
    | some d => if s.mm.takesUnits g block d then { s with mm := s.mm.moveUnits g block d } else s
    | none => s

/-- PROG_FAIL (R180, R181, R211 to R213): the record, the data programmed and moved elsewhere, the block retired. -/
def execProgFail (channel die block dest : Nat) (s : State) : Host.Outcome State Fault Refusal :=
  done (if s.mediaRuns && channel < 128 && die < 32 && block < 16640 then
    ((s.postCorr (srcChannel channel) kProgFail 0 0 0 0 0).reprogram channel die block dest).retireBlock channel die block
  else s)

/-- ERASE_FAIL (R180, R181, R211 to R213). -/
def execEraseFail (channel die block : Nat) (s : State) : Host.Outcome State Fault Refusal :=
  done (if s.mediaRuns && channel < 128 && die < 32 && block < 16640 then
    (s.postCorr (srcChannel channel) kEraseFail 0 0 0 0 0).retireBlock channel die block
  else s)

/-- RETRY_EXHAUSTED (R210). -/
def execRetryExhausted (channel : Nat) (addr : W64) (s : State) : Host.Outcome State Fault Refusal :=
  done (if s.mediaRuns && channel < 128 then
    { s with mm := { s.mm with exhaustCnt := sat32 (s.mm.exhaustCnt + 1) } }.postCorr (srcChannel channel) kRetryExhausted
      addr 0 0 0 0
  else s)

/-- Address of a namespace block in a channel's record (R400). -/
def Mm.blockAddr (m : Mm) (nsid lba : Nat) : W64 :=
  match m.namespaces.find nsid with
  | none => 0
  | some n => BitVec.ofNat 64 (lba % 8 + 8 * n.unit (lba / 8))

/-- REBUILD_DONE (R210, R400, R417): a rebuilt codeword is rewritten through refresh; a failed rebuild leaves the block
unreadable until it is written. -/
def execRebuildDone (channel nsid lba : Nat) (ok : Bool) (s : State) : Host.Outcome State Fault Refusal :=
  done (if s.mediaRuns && channel < 128 then
    if ok then { s with mm := (match s.mm.namespaces.find nsid with
        | none => s.mm
        | some n => match s.mm.flashOf (s.mm.locOf (n.unit (lba / 8))) (lba % 8) with
          | none => s.mm
          | some k => s.mm.markRefresh k) |> fun m => { m with rebuildCnt := sat32 (m.rebuildCnt + 1) } }
    else { s with mm := { s.mm with
        uncorrCnt := sat32 (s.mm.uncorrCnt + 1), event := setEv s.mm.event 6
        badBlocks := if s.mm.badBlocks.contains (nsid, lba) then s.mm.badBlocks else s.mm.badBlocks ++ [(nsid, lba)] } }.post
      (srcChannel channel) kEccUncorr 1 (s.mm.blockAddr nsid lba) 16 0 0 0
  else s)

/-! ## Flash temperature (R203, R206) -/

def throttleOf (t : Nat) : Nat := if 85 < t then 2 else if 80 < t then 1 else 0

/-- Board temperatures as MM_FLASH_TEMP holds them, with their peak. -/
def Mm.setTemps (m : Mm) (a b : Nat) : Mm :=
  { m with tempA := min 255 a, tempB := min 255 b, peak := max m.peak (min 255 (max a b)) }

/-- The pacing of R206 at these board temperatures: by the warmer board, and at the first level while one that has begun has not
ended. -/
def Mm.pacing (m : Mm) (a b : Nat) : Nat :=
  let n := throttleOf (max a b)
  if n != 0 then n else if m.throttle != 0 && !(a < 78 && b < 78) then 1 else 0

/-- New board temperatures: THERMAL for each board that rises into a range of R206, pacing and its event. -/
def State.flashTemps (s : State) (a b : Nat) : State :=
  let t := s.mm.pacing a b
  let m := s.mm.setTemps a b
  let say := fun (s : State) (board old new : Nat) =>
    if throttleOf old < throttleOf new then s.postCorr srcThermal kThermal 0 (BitVec.ofNat 32 board) 0 0 0 else s
  let s1 : State := { s with mm := { m with
      throttle := t, event := if s.mm.throttle = 0 && t != 0 then setEv m.event 3 else m.event } }
  say (say s1 0 s.mm.tempA a) 1 s.mm.tempB b

/-- FLASH_THROTTLE (R206): a board rises into a range. -/
def execFlashThrottle (board temp : Nat) (s : State) : Host.Outcome State Fault Refusal :=
  done (if s.vendorLive then (if board = 0 then s.flashTemps temp s.mm.tempB else s.flashTemps s.mm.tempA temp) else s)

/-- FLASH_THROTTLE_END (R206): both boards below 78 degrees. -/
def execFlashThrottleEnd (tempA tempB : Nat) (s : State) : Host.Outcome State Fault Refusal :=
  done (if s.vendorLive && tempA < 78 && tempB < 78 then s.flashTemps tempA tempB else s)

/-- FLASH_BAND_CHANGE (R203): the band of the warmer board, with 2 degrees of hysteresis on falling temperature. -/
def execFlashBandChange (tempA tempB : Nat) (s : State) : Host.Outcome State Fault Refusal :=
  done (if s.vendorLive then
    let s1 := s.flashTemps tempA tempB
    { s1 with mm := { s1.mm with band := nextBand s.mm.band (max tempA tempB) } } else s)

/-- MM_FLASH_TEMP_READ (R215): the fields, and PEAK cleared. -/
def execMmFlashTempRead (s : State) : Host.Outcome State Fault Refusal :=
  done (if s.vendorLive then
    { s with
      busRead := leBytes (s.mm.tempA + 256 * s.mm.tempB + 65536 * s.mm.peak) 4
      mm := { s.mm with peak := 0 } }
  else s)

end Sys2Proof.Machine
end

