-- ==== Sys2Proof/Machine/TileDecode.lean ====
section
/-! DEFINITION. Op-list descriptors (R56, R57, R64, R65): fields, the units ops run on, the lane ranges they read and
write, and the decode check. -/

namespace Sys2Proof.Machine

/-! ## Header (R57, R64) -/

def opKind (d : List Byte) : Nat := byteAt d 0
def opTag (d : List Byte) : Nat := u32At d 4
def opFence (d : List Byte) : Bool := bitN (byteAt d 1) 0

/-- Unit an op runs on: 0 array, 1 vector, 2 fabric, 3 relay; 4 for a HURDLE, which runs on none. -/
def opUnit (d : List Byte) : Nat :=
  match opKind d with
  | 0x03 => if byteAt d 30 = 0 then 1 else 2
  | 0x04 => 1
  | 0x05 => 2
  | 0x06 => 2
  | 0x07 => 1
  | 0x08 => 1
  | 0x09 => 3
  | 0x0A => 4
  | _ => 0

/-- The wait semaphore of an op is above 0, or it names none. -/
def Tile.semReady (t : Tile) (d : List Byte) : Bool :=
  byteAt d 10 == 0 || 0 < t.sems.getD (byteAt d 10 - 1) 0

/-- Latch an op reads. -/
def opLatch (d : List Byte) : Option Nat :=
  match opKind d with
  | 0x01 => some (byteAt d 36)
  | 0x02 => some (byteAt d 31)
  | _ => none

/-- A squad-wide REDUCE. -/
def opMeets (d : List Byte) : Bool := opKind d == 0x03 && byteAt d 30 != 0

/-- Formats in force: a field of 0 takes the squad's default (R90). -/
def opWfmt (q : Squad) (d : List Byte) : Nat := if byteAt d 8 = 0 then q.numerics.wfmt else byteAt d 8
def opAfmt (q : Squad) (d : List Byte) : Nat := if byteAt d 9 = 0 then q.numerics.afmt else byteAt d 9

/-- Format pairings of R32. -/
def pairOk (w a : Nat) : Bool :=
  (w == 1 && a == 1) || (w == 2 && a == 1) || ((w == 3 || w == 4) && (a == 3 || a == 4)) || (w == 5 && a == 5)
  || (w == 6 && a == 6)

/-- An address field with its range: inside lane memory. -/
def laneOk (a n : Nat) : Bool := a < 2 ^ 21 && a + n ≤ 2 ^ 21

/-! ## Lane ranges an op reads and writes -/

/-- Rows of a MATMUL or STATS: tile, address and bytes. -/
def rowRanges (n base stride rows len : Nat) : List (Nat × Nat × Nat) :=
  (List.range rows).map (fun i => (n, base + i * stride, len))

/-- Bytes of one MATMUL activation row. -/
def mmRow (q : Squad) (d : List Byte) : Nat := chunkBytesOf (opWfmt q d) * byteAt d 34

/-- ACCUM applies (R103). -/
def mmAccum (d : List Byte) : Bool := bitN (byteAt d 38) 0 && byteAt d 37 != 2

/-- Contexts an XORPOP feeds, in ascending order. -/
def ctxMap (d : List Byte) : List Nat := (List.range 32).filter (fun i => bitN (u32At d 36) i)

/-- Window of a latch (R262). -/
def window (l : Nat) : Nat := 0x001E0000 + 0x10000 * l

/-- Sealed segment whose object is `o`: its number. -/
def State.segmentOf (s : State) (o : Nat) : Option Nat :=
  (s.idx.vals.flatMap (fun x => x.segments.filter (fun g => g.2.object == o))).head?.map Prod.fst

/-- Ranges an XORPOP reads: its queries, and what the tests of R265 read. -/
def State.xorReads (s : State) (n : Nat) (d : List Byte) : List (Nat × Nat × Nat) :=
  let t := s.tile n
  let l := byteAt d 31
  let w := window l
  let first := u16At d 26
  let cnt := u16At d 24
  let lt := t.latches.getD l Latch.reset
  let preds := (ctxMap d).any (fun c => ((t.ctxs.find c).map (fun x => x.pred != 0xFFFF)).getD false)
  (n, u32At d 16, byteAt d 30 * (u16At d 28 / 8)) ::
    (if byteAt d 32 = 0 then []
     else (if (s.segmentOf lt.object).isSome then [(n, w + 0x8400 + 16 * first, 16 * cnt)]
           else [(n, w + first / 8, (first + cnt + 7) / 8 - first / 8), (n, 0x001D0000, 65536)])
       ++ (if preds then [(n, w + 0x400 + 8 * first, 8 * cnt)] else []) ++ t.heapReads n (ctxMap d))

/-- Elements of an indexed GATHER: their source addresses. -/
def State.gatherAddrs (s : State) (n : Nat) (d : List Byte) : List Nat :=
  let l := (s.tile n).bytes (u32At d 40) (4 * (u32At d 20 / max (u16At d 44) 1))
  (List.range (u32At d 20 / max (u16At d 44) 1)).map (fun i => u64At d 32 + u32At l (4 * i) * u16At d 44)

/-- Pieces a GATHER fetches: source address and bytes. -/
def State.gatherPieces (s : State) (n : Nat) (d : List Byte) : List (Nat × Nat) :=
  if bitN (byteAt d 46) 0 then (s.gatherAddrs n d).map (fun a => (a, u16At d 44)) else [(u64At d 32, u32At d 20)]

def isIndexed (d : List Byte) : Bool := opKind d == 0x05 && bitN (byteAt d 46) 0

/-- Bytes a GATHER stores: an indexed one fetches length / elem_size whole elements (R64). -/
def gatherLen (d : List Byte) : Nat :=
  if bitN (byteAt d 46) 0 then u32At d 20 / max (u16At d 44) 1 * u16At d 44 else u32At d 20

/-- Lane ranges an op reads as input. -/
def State.opReads (s : State) (q : Squad) (n : Nat) (d : List Byte) : List (Nat × Nat × Nat) :=
  match opKind d with
  | 0x01 => rowRanges n (u32At d 16) (u32At d 20) (u16At d 32) (mmRow q d)
  | 0x02 => s.xorReads n d
  | 0x03 => [(n, u32At d 16, 4 * u32At d 24)]
  | 0x04 =>
    let k := u32At d 28 * elSize (byteAt d 33)
    (n, u32At d 16, k) :: (if eltTwo (byteAt d 32) then [(n, u32At d 20, k)] else [])
  | 0x05 => (if isIndexed d then [(n, u32At d 40, 4 * (u32At d 20 / max (u16At d 44) 1))] else [])
      ++ (if byteAt d 24 = 0 then (s.gatherPieces n d).map (fun p => (u16At d 28, p.1, p.2)) else [])
  | 0x06 => [(n, u32At d 16, u32At d 20)]
  | 0x07 => [(n, u32At d 16, u32At d 20)]
  | 0x08 => [(n, u32At d 16, u32At d 24 * (if byteAt d 36 = 0 then 2 else 4)), (n, u32At d 20, 8 * u32At d 24)]
      ++ (if byteAt d 30 = 0 then (s.tile n).heapReads n [byteAt d 31] else [])
  | 0x0B => rowRanges n (u32At d 16) (u32At d 24) (u32At d 20) (byteAt d 28 * elSize (byteAt d 29))
  | _ => []

/-- Output rows an ACCUM reads back. -/
def opOld (n : Nat) (d : List Byte) : List (Nat × Nat × Nat) :=
  if opKind d = 0x01 ∧ mmAccum d then rowRanges n (u32At d 24) (u32At d 28) (u16At d 32) 256 else []

/-- Bytes a FILTER may carry: fewer than the longest record. -/
def carryMax (q : Squad) (d : List Byte) : Nat :=
  min (u32At d 20) (((q.layouts |> layoutsOf).find? (fun y => y.num == u16At d 32)).map Layout.size |>.getD 0)

/-- Lane ranges an op writes. -/
def State.opWrites (s : State) (q : Squad) (n : Nat) (d : List Byte) : List (Nat × Nat × Nat) :=
  match opKind d with
  | 0x01 => rowRanges n (u32At d 24) (u32At d 28) (u16At d 32) (64 * mmSize (byteAt d 37))
  | 0x02 => if byteAt d 32 = 0 then [(n, u32At d 20, 2 * byteAt d 30 * u16At d 24)] else (s.tile n).heapWrites n (ctxMap d)
  | 0x03 => [(n, u32At d 20, if byteAt d 30 = 0 then 4 else 4 * u32At d 24)]
  | 0x04 => [(n, u32At d 24, u32At d 28 * elSize (byteAt d 34))]
  | 0x05 => [(n, u32At d 16, gatherLen d)]
  | 0x06 => if byteAt d 24 = 0 then [(u16At d 28, u64At d 32, u32At d 20)] else []
  | 0x07 => [(n, u32At d 24, u32At d 28), (n, u32At d 40, carryMax q d)]
  | 0x08 => if byteAt d 30 = 1 then [(n, u32At d 32, 16 * min (u16At d 28) (u32At d 24))] else (s.tile n).heapWrites n [byteAt d 31]
  | _ => []

def rangesOk (l : List (Nat × Nat × Nat)) : Bool := l.all (fun r => r.1 < 1024 && laneOk r.2.1 r.2.2)

/-! ## Routes and regions (R27, R65, R148) -/

/-- The route an op names is granted to the squad and leads where the op goes: to a tile of the squad itself, or to the
route's destination. -/
def State.routeOk (s : State) (squad id kind tile : Nat) : Bool :=
  match s.sl.set_.routes.find? (fun r => r.id == id && r.squad == squad) with
  | none => false
  | some r =>
    match kind with
    | 0 => (s.tile tile).squad == some squad || (r.destKind == 0 && (s.tile tile).squad == some r.dest)
    | 1 => r.destKind == 1
    | _ => r.destKind == 3

/-- The squad may read, or write, the range of a near-tier region, in whole granules. -/
def State.nearOk (s : State) (squad id off n : Nat) (write : Bool) : Bool :=
  match s.region id with
  | none => false
  | some r => r.tier == 0 && off % 32 == 0 && n % 32 == 0 && off + n ≤ r.size
      && (if write then r.owner == squad && r.access == 0 else r.owner == squad || r.access == 1)

/-- The route's stack map grants every stack that bytes [off, off + n) of a near-tier region lie on (R27, R145). -/
def State.stacksOk (s : State) (squad id region off n : Nat) : Bool :=
  match s.sl.set_.routes.find? (fun r => r.id == id && r.squad == squad), s.region region with
  | some r, some g =>
    let a := g.base + off
    r.destKind == 1 && (List.range (min 16 ((a + n + 4095) / 4096 - a / 4096))).all (fun i => bitN r.dest ((a / 4096 + i) % 16))
  | _, _ => false

/-! ## Kind checks (R65) -/

def State.matmulOk (s : State) (q : Squad) (n : Nat) (d : List Byte) : Bool :=
  let wf := opWfmt q d
  let m := u16At d 32
  pairOk wf (opAfmt q d) && m % 4 == 0 && 4 ≤ m && 1 ≤ byteAt d 34 && byteAt d 35 + byteAt d 34 ≤ tilesPerLatch wf
  && byteAt d 36 ≤ 1 && byteAt d 37 ≤ 2 && byteAt d 38 / 4 == 0 && byteAt d 39 == 0 && zerosAt d 46 18
  && rangesOk (s.opReads q n d) && rangesOk (s.opWrites q n d)

/-- Codes a latch holds (R98). -/
def codeCap (bits : Nat) : Nat := 64 * (65536 / (8 * max bits 1))

def xorpopOk (n : Nat) (d : List Byte) : Bool :=
  let bits := u16At d 28
  let f (b : Nat) : Bool := b == 0 || b == 6
  f (byteAt d 8) && f (byteAt d 9) && bits % 64 == 0 && 64 ≤ bits && bits ≤ 1024 && 1 ≤ u16At d 24
  && u16At d 26 + u16At d 24 ≤ codeCap bits && 1 ≤ byteAt d 30 && byteAt d 30 ≤ 64 && byteAt d 31 ≤ 1 && byteAt d 32 ≤ 1
  && zerosAt d 33 3 && zerosAt d 40 24 && (byteAt d 32 == 0 || (ctxMap d).length == byteAt d 30)
  && laneOk (u32At d 16) (byteAt d 30 * (bits / 8)) && u32At d 20 < 2 ^ 21
  && (byteAt d 32 == 1 || rangesOk [(n, u32At d 20, 2 * byteAt d 30 * u16At d 24)])

def State.reduceOk (s : State) (squad n : Nat) (d : List Byte) : Bool :=
  let c := u32At d 24
  let sc := byteAt d 30
  1 ≤ c && c ≤ 524288 && byteAt d 28 ≤ 3 && byteAt d 29 ≤ 1 && sc ≤ 2 && byteAt d 31 == 0 && zerosAt d 36 28
  && laneOk (u32At d 16) (4 * c) && laneOk (u32At d 20) (if sc = 0 then 4 else 4 * c)
  && (sc == 0 || s.routeOk squad (u16At d 34) 0 n) && (sc != 2 || u16At d 32 < 1024)

def eltwiseOk (d : List Byte) : Bool :=
  let c := u32At d 28
  let f := byteAt d 32
  1 ≤ c && c ≤ 2097152 && 1 ≤ f && f ≤ 0x0C && byteAt d 33 ≤ 6 && byteAt d 34 ≤ 6 && byteAt d 35 == 0 && zerosAt d 44 20
  && laneOk (u32At d 16) (c * elSize (byteAt d 33)) && laneOk (u32At d 20) (if eltTwo f then c * elSize (byteAt d 33) else 0)
  && laneOk (u32At d 24) (c * elSize (byteAt d 34))

/-- The header and fields of a GATHER. elem_size has 2 bytes: 65,536, the largest it is said to take, cannot be stored, and a
stored 0 fails decode as below 32 (R64; DESIGN CHOICE, assumption entry 38). -/
def State.gatherOk (s : State) (squad n : Nat) (d : List Byte) : Bool :=
  let len := u32At d 20
  let ix := isIndexed d
  let el := u16At d 44
  1 ≤ len && len ≤ 2097152 && laneOk (u32At d 16) len && byteAt d 24 ≤ 1 && byteAt d 25 == 0 && byteAt d 46 / 2 == 0
  && zerosAt d 47 17 && u32At d 40 < 2 ^ 21 && s.routeOk squad (u16At d 26) (byteAt d 24) (u16At d 28)
  && (!ix || (32 ≤ el && (byteAt d 24 == 0 || el % 32 == 0) && laneOk (u32At d 40) (4 * (len / el))))
  && (byteAt d 24 == 1 || u16At d 28 < 1024)
  && (ix || (if byteAt d 24 = 0 then laneOk (u64At d 32) len else s.nearOk squad (u16At d 30) (u64At d 32) len false))

/-- The elements an index list names lie in the source, and on granted stacks: checked as the op issues, when its waits have
ended and the list is there to be read (R60, R65). -/
def State.piecesOk (s : State) (squad n : Nat) (d : List Byte) : Bool :=
  !isIndexed d || (s.gatherPieces n d).all (fun p =>
    if byteAt d 24 = 0 then laneOk p.1 p.2
    else s.nearOk squad (u16At d 30) p.1 p.2 false && s.stacksOk squad (u16At d 26) (u16At d 30) p.1 p.2)

/-- The job's host result buffer holds the range. -/
def State.hostBufOk (s : State) (tag off n : Nat) : Bool :=
  match s.job tag with
  | none => false
  | some j => j.target == 0 && off + n ≤ j.resultLen

def State.scatterOk (s : State) (squad : Nat) (d : List Byte) : Bool :=
  let len := u32At d 20
  let k := byteAt d 24
  1 ≤ len && len ≤ 2097152 && laneOk (u32At d 16) len && k ≤ 2 && byteAt d 25 ≤ 16 && (k == 0 || byteAt d 25 == 0)
  && zerosAt d 40 24 && s.routeOk squad (u16At d 26) k (u16At d 28)
  && (match k with
      | 0 => u16At d 28 < 1024 && laneOk (u64At d 32) len
      | 1 => s.nearOk squad (u16At d 30) (u64At d 32) len true
      | _ => s.hostBufOk (opTag d) (u64At d 32) len)

def State.filterOk (s : State) (q : Squad) (n : Nat) (d : List Byte) : Bool :=
  byteAt d 36 ≤ 2 && zerosAt d 37 3 && zerosAt d 44 20 && 1 ≤ u32At d 20 && 1 ≤ u32At d 28
  && laneOk (u32At d 16) (u32At d 20) && rangesOk (s.opWrites q n d)
  && (match (layoutsOf q.layouts).find? (fun y => y.num == u16At d 32) with
      | none => false
      | some y => layoutOk y && (u16At d 34 == 0xFFFF
          || (match (predicatesOf q.layouts).find? (fun p => p.num == u16At d 34) with
              | none => false
              | some p => predicateOk p y)))

def State.topkOk (s : State) (q : Squad) (n : Nat) (d : List Byte) : Bool :=
  let c := u32At d 24
  1 ≤ c && c ≤ 262144 && 1 ≤ u16At d 28 && u16At d 28 ≤ 1024 && byteAt d 30 ≤ 1 && byteAt d 31 ≤ 31 && byteAt d 36 ≤ 1
  && zerosAt d 37 27 && u32At d 32 < 2 ^ 21 && rangesOk (s.opReads q n d) && rangesOk (s.opWrites q n d)

def State.statsOk (s : State) (q : Squad) (n : Nat) (d : List Byte) : Bool :=
  1 ≤ u32At d 20 && u32At d 20 ≤ 2097152 && 1 ≤ byteAt d 28 && byteAt d 28 ≤ 64 && byteAt d 29 ≤ 6 && byteAt d 30 ≤ 2
  && byteAt d 31 == 0 && zerosAt d 36 28 && rangesOk (s.opReads q n d)

/-- Header check: flags, formats, semaphores and reserved bytes. -/
def headOk (d : List Byte) : Bool :=
  let k := opKind d
  1 ≤ k && k ≤ 0x0B && byteAt d 1 / 8 == 0 && (!bitN (byteAt d 1) 2 || (k == 0x0A && byteAt d 16 == 1))
  && byteAt d 10 ≤ 16 && byteAt d 11 ≤ 16 && zerosAt d 12 4 && (k ≤ 2 || zerosAt d 8 2)

/-- A descriptor passes decode on tile `n` of squad `squad`. -/
def State.decodeOk (s : State) (q : Squad) (squad n : Nat) (d : List Byte) : Bool :=
  headOk d && (match opKind d with
    | 0x01 => s.matmulOk q n d
    | 0x02 => xorpopOk n d
    | 0x03 => s.reduceOk squad n d
    | 0x04 => eltwiseOk d
    | 0x05 => s.gatherOk squad n d
      && (isIndexed d || byteAt d 24 == 0 || s.stacksOk squad (u16At d 26) (u16At d 30) (u64At d 32) (u32At d 20))
    | 0x06 => s.scatterOk squad d
      && (byteAt d 24 != 1 || s.stacksOk squad (u16At d 26) (u16At d 30) (u64At d 32) (u32At d 20))
    | 0x07 => s.filterOk q n d
    | 0x08 => s.topkOk q n d
    | 0x09 => byteAt d 24 ≤ 1 && zerosAt d 25 39
    | 0x0A => byteAt d 16 ≤ 1 && zerosAt d 17 47
    | _ => s.statsOk q n d)

end Sys2Proof.Machine
end

