-- ==== Sys2Proof/Machine/TileRun.lean ====
section
/-! DEFINITION. What each tile op does (R64, R66, R83, R98 to R104, R110 to R115, R141, R162 and R265). Each reads a view `v`
of the state, in which bytes that a running op may still write are free, and changes the state `s`. -/

namespace Sys2Proof.Machine

/-- Write lane bytes of a tile. -/
def State.lanePut (s : State) (n a : Nat) (l : List Byte) : State := s.setTile n ((s.tile n).put a l)

/-- A word is +0.0 or -0.0: both count as the 0.0 of R114 (DESIGN CHOICE, assumption entry 57). -/
def isZero32 (w : W32) : Bool := w &&& 0x7FFFFFFF == 0

/-- Reference magnitude the keeper holds for a tensor of a squad (R114). -/
def State.keeperRef (s : State) (squad tensor : Nat) : Option W32 :=
  (s.ns.table.find (keeperKey squad tensor)).bind Keeper.aRef

/-! ## MATMUL (R83, R101 to R104, R110) -/

/-- Fold stored magnitudes into the max-abs registers. -/
def foldAmax (amax mags : List W32) : List W32 := (amax.zip mags).map (fun x => f32Max x.1 x.2) ++ amax.drop mags.length

/-- One output row. -/
def mmRowOf (wf af : Nat) (pl : Nat → Byte) (d act old : List Byte) (scale : List W32) (a : W32) : List (Nat × W32) :=
  (List.range 64).map (fun c => mmOut (byteAt d 37) (accOf wf af pl act (byteAt d 35) (byteAt d 34) c) (scale.getD c 0x3F800000) a
    (if mmAccum d then some (u32At old (4 * c)) else none))

/-- A MATMUL. Rows whose outputs overlap (out_stride below a row's bytes) are stored in ascending order, an ACCUM row reading
what the row before it stored: R83 gives no order (DESIGN CHOICE, assumption entry 56). -/
def State.runMatmul (s v : State) (q : Squad) (squad n : Nat) (d : List Byte) : State :=
  let t := s.tile n
  let lt := t.latches.getD (byteAt d 36) Latch.reset
  let wf := opWfmt q d
  let af := opAfmt q d
  let scale := if byteAt d 37 = 0 then t.scale else lt.shadow.getD t.scale
  let imm : W32 := BitVec.ofNat 32 (u32At d 40)
  let a := if isZero32 imm then scaleOf af (s.nsSq squad).margin (s.keeperRef squad (u16At d 44)) else imm
  let step (t : Tile) (i : Nat) : Tile :=
    let out := u32At d 24 + i * u32At d 28
    let act := (v.tile n).bytes (u32At d 16 + i * u32At d 20) (mmRow q d)
    let r := mmRowOf wf af (fun i => lt.data.getD i 0) d act (t.bytes out 256) scale a
    let t1 := t.put out (r.flatMap (fun x => leBytes x.1 (mmSize (byteAt d 37))))
    if bitN (byteAt d 38) 1 then { t1 with amax := foldAmax t1.amax (r.map Prod.snd) } else t1
  s.setTile n ((List.range (u16At d 32)).foldl step { t with scale := scale })

/-! ## XORPOP (R98 to R100, R265) -/

/-- Distances of query `i` to the codes of the op. -/
def State.distances (v : State) (n : Nat) (d : List Byte) (i : Nat) : List Nat :=
  let bits := u16At d 28
  let t := v.tile n
  let pl := (t.latches.getD (byteAt d 31) Latch.reset).data
  let qy := t.bytes (u32At d 16 + i * (bits / 8)) (bits / 8)
  (List.range (u16At d 24)).map (fun j => hamming (codeAt bits (fun k => pl.getD k 0) (u16At d 26 + j)) qy bits)

/-- The dead table in lane memory holds the locator with a tombstone epoch at most `e`. -/
def Tile.isDead (t : Tile) (loc e : Nat) : Bool :=
  let l := t.bytes 0x001D0000 65536
  (List.range 4096).any (fun i => u64At l (16 * i) == loc && u64At l (16 * i + 8) ≤ e)

/-- The base item is dead to a context of a job: by the dead table, or by the entries the job keeps of a replaced base (R265
test 5, R275). -/
def State.deadTo (s : State) (t : Tile) (x : Ctx) (loc : Nat) : Bool :=
  match (s.job x.tag).bind (fun j => j.search.dead) with
  | none => t.isDead loc x.epoch
  | some ds => ds.any (fun d => d.1 == loc && d.2 ≤ x.epoch)

/-- Code `c` of the latch is visible to a context, at a distance it takes, and passes its predicate terms. -/
def Tile.codePasses (t : Tile) (w c dist : Nat) (side : Option Nat) (terms : List (List Byte)) (x : Ctx) : Bool :=
  let visible := match side with
    | some _ =>
      let e := t.bytes (w + 0x8400 + 16 * c) 16
      u64At e 0 ≤ x.epoch && x.epoch < u64At e 8
    | none => bitN (t.laneByte (w + c / 8)).toNat (c % 8)
  let attr := u64At (t.bytes (w + 0x400 + 8 * c) 8) 0
  visible && dist ≤ x.maxDist
    && terms.all (fun l => termTrue l attr)

/-- Insert into a heap of at most `k`; which of several worst entries leaves is free. -/
def heapInsert (tick k : Nat) (h : List HeapEntry) (e : HeapEntry) : List HeapEntry :=
  if h.length < k then h ++ [e]
  else
    let worst := h.foldl (fun m x => max m x.dist) 0
    let at_ := h.filter (fun x => x.dist == worst)
    if e.dist < worst then h.erase (at_.getD (Config.freeNat tick % max at_.length 1) e) ++ [e] else h

/-- The heap takes the entry (R100). -/
def heapTakes (k : Nat) (h : List HeapEntry) (dist : Nat) : Bool := h.length < k || h.any (fun x => dist < x.dist)

/-- Block of a job a baton is: its code baton number, or 2^24 and the segment number. -/
def State.blockKey (s : State) (tag object baton : Nat) : Option Nat :=
  match s.job tag with
  | none => none
  | some j => if sbCode j.search.base = object then some baton else (s.segmentOf object).map (fun g => 2 ^ 24 + g)

/-- The heap of a context after the distances of query `i` of the op, in ascending code order. -/
def State.fedHeap (s v : State) (n : Nat) (d : List Byte) (i : Nat) (x : Ctx) : List HeapEntry :=
  let t := v.tile n
  let lt := t.latches.getD (byteAt d 31) Latch.reset
  let side := s.segmentOf lt.object
  let w := window (byteAt d 31)
  let ix := lt.index.toNat
  let list := if side.isSome then 0xFFFFFF else if bitsN ix 63 60 = 3 then ix % 65536 else ix % 2 ^ 24
  let terms := t.terms x
  let step (h : List HeapEntry) (j : Nat × Nat) : List HeapEntry :=
    let c := u16At d 26 + j.2
    let loc := match side with
      | some g => 2 ^ 63 + 65536 * g + c
      | none => 65536 * lt.baton + c
    if t.codePasses w c j.1 side terms x && heapTakes x.k h j.1 && (side.isSome || !s.deadTo t x loc) then
      heapInsert (s.tick + 65536 * i + j.2) x.k h { loc := loc, dist := j.1, list := list, side := side.isSome }
    else h
  ((v.distances n d i).zipIdx).foldl step (t.heap x)

/-- A context compares block `k` now: its plan holds it, and the side pass comes first (R264). -/
def Ctx.takes (x : Ctx) (k : Nat) : Bool := (x.left.find k).isSome && (2 ^ 24 ≤ k || x.left.all (fun b => b.1 < 2 ^ 24))

/-- Blocks left once `cnt` codes of block `k` are compared. -/
def Ctx.leftAfter (x : Ctx) (k cnt : Nat) : KMap Nat :=
  match x.left.find k with
  | none => x.left
  | some m => if m ≤ cnt then x.left.del k else x.left.put k (m - cnt)

/-- The first list of a context's probe list that has a block left, or their number (R73). -/
def State.nextProbe (s : State) (t : Tile) (x : Ctx) : Nat :=
  let lists := ((s.job x.tag).map (fun j => j.search.lists)).getD []
  let done (i : Nat) : Bool := (listBlocks x.bits (lists.getD (u32At (t.bytes (x.probeAddr + 4 * i) 4) 0) (0, 0, 0))).all
    (fun b => (x.left.find b.1).isNone)
  ((List.range x.count).find? (fun i => !done i)).getD x.count

/-- Feed context `c` the distances of query `i`; a context whose plan does not hold the block is fed nothing. -/
def State.feedCtx (s v : State) (n : Nat) (d : List Byte) (i c : Nat) : State :=
  let t := s.tile n
  let lt := t.latches.getD (byteAt d 31) Latch.reset
  match t.ctxs.find c with
  | none => s
  | some x => match s.blockKey x.tag lt.object lt.baton with
    | none => s
    | some k =>
      if !x.takes k then s
      else
        let h := s.fedHeap v n d i x
        let y := { x with
          seen := x.seen + u16At d 24, left := x.leftAfter k (u16At d 24), wants := x.wants.filter (fun w => w != k)
          state := if x.state = 2 ∨ (x.state = 3 ∧ x.wants ≠ some k) then x.state else 1 }
        s.setTile n (t.setHeap c { y with
          next := s.nextProbe t y, exhausted := y.left.isEmpty && h.length < x.k } h)

def State.runXorpop (s v : State) (n : Nat) (d : List Byte) : State :=
  if byteAt d 32 = 0 then
    s.lanePut n (u32At d 20) ((List.range (byteAt d 30)).flatMap (fun i => (v.distances n d i).flatMap (fun x => leBytes x 2)))
  else
    let s1 := (ctxMap d).zipIdx.foldl (fun s y => s.feedCtx v n d y.2 y.1) s
    { s1 with tick := s.tick + 65536 * 64 }.setTile n (s1.tile n).switch

/-! ## REDUCE (R66) -/

/-- Elements of 4 bytes. -/
def words (l : List Byte) (n : Nat) : List W32 := (List.range n).map (fun i => BitVec.ofNat 32 (u32At l (4 * i)))

def State.runReduceLocal (s v : State) (n : Nat) (d : List Byte) : State :=
  let c := u32At d 24
  let r := reduceEls (byteAt d 28) (byteAt d 29) (fun i => Config.freeNat (s.tick + 1 + i)) (Config.freeWord s.tick 0)
    (words ((v.tile n).bytes (u32At d 16) (4 * c)) c)
  { s with tick := s.tick + 1 + 2 * c }.lanePut n (u32At d 20) (leBytes r.toNat 4)

/-- Two descriptors belong to one rendezvous: the same seq, count, op and type. -/
def sameMeet (a b : List Byte) : Bool :=
  opMeets a && opMeets b && u16At a 2 == u16At b 2 && u32At a 24 == u32At b 24 && byteAt a 28 == byteAt b 28
  && byteAt a 29 == byteAt b 29

/-- What tile `n` contributes to the rendezvous of `d`, while it waits there. -/
def State.waitsAt (s : State) (n : Nat) (d : List Byte) : Option OpInFlight :=
  (s.tile n).flight.find? (fun f => f.gives.isSome && sameMeet f.desc d)

/-- A squad-wide REDUCE meets once every tile of the squad has contributed: each tile, or the root alone, takes the
element-wise result. -/
def State.reduceMeet (s : State) (q : Squad) (d : List Byte) : State :=
  let fs := q.tiles.map (fun n => (n, s.waitsAt n d))
  if fs.any (fun x => x.2.isNone) then s
  else
    let c := u32At d 24
    let ins := fs.map (fun x => words ((x.2.bind OpInFlight.gives).getD []) c)
    let res := (List.range c).flatMap (fun i =>
      leBytes (reduceEls (byteAt d 28) (byteAt d 29) (fun k => Config.freeNat (s.tick + 1 + 2 * fs.length * i + k))
        (Config.freeWord s.tick i) (ins.map (fun l => l.getD i 0))).toNat 4)
    fs.foldl (fun s x => match x.2 with
      | none => s
      | some f =>
        let t := s.tile x.1
        let t1 := { t with flight := t.flight.map (fun g => if g = f then { g with gives := none } else g) }
        s.setTile x.1 (if byteAt f.desc 30 = 1 ∨ u16At f.desc 32 = x.1 then t1.put (u32At f.desc 20) res else t1))
      { s with tick := s.tick + 1 + 2 * fs.length * c }

/-! ## ELTWISE (R58, R114, R115) -/

/-- Factor of a QUANT: imm, or q of the tile's current tensor; 1.0, and no counts, on a tile without one, of which R114 says
nothing (DESIGN CHOICE, assumption entry 57). -/
def State.quantFactorOf (s : State) (squad n : Nat) (d : List Byte) : W32 :=
  let imm : W32 := BitVec.ofNat 32 (u32At d 36)
  if isZero32 imm then
    quantFactor (keeperFmt (byteAt d 34)) (s.nsSq squad).margin ((s.tile n).tensor.bind (s.keeperRef squad))
  else imm

/-- Elements of a QUANT with their classes. -/
def State.quantOf (s v : State) (squad n : Nat) (d : List Byte) : List (Nat × Nat) :=
  let it := byteAt d 33
  let c := u32At d 28
  quantEls it (byteAt d 34) (s.quantFactorOf squad n d) ((v.tile n).bytes (u32At d 16) (c * elSize it)) c

/-- Counts a QUANT with imm 0.0 sends the keeper when it completes. -/
def State.quantCountsOf (s v : State) (squad n : Nat) (d : List Byte) : Option (Nat × Nat × Nat × Nat × Nat) :=
  if opKind d = 0x04 ∧ byteAt d 32 = 0x0B ∧ isZero32 (BitVec.ofNat 32 (u32At d 36)) then
    (s.tile n).tensor.map (fun tn =>
      let es := s.quantOf v squad n d
      (tn, keeperFmt (byteAt d 34), es.length, (es.filter (fun e => e.2 == 1)).length, (es.filter (fun e => e.2 == 2)).length))
  else none

def State.runEltwise (s v : State) (squad n : Nat) (d : List Byte) : State :=
  let it := byteAt d 33
  let ot := byteAt d 34
  let f := byteAt d 32
  let c := u32At d 28
  let t := v.tile n
  let a := t.bytes (u32At d 16) (c * elSize it)
  let b := if eltTwo f then t.bytes (u32At d 20) (c * elSize it) else []
  let out := if f = 0x0B then (s.quantOf v squad n d).flatMap (fun e => leBytes e.1 (elSize ot))
    else eltBytes s.tick it ot f (BitVec.ofNat 32 (u32At d 36)) (BitVec.ofNat 32 (u32At d 40)) a b c
  { s with tick := s.tick + 1 }.lanePut n (u32At d 24) out

/-! ## GATHER and SCATTER (R64, R141, R148) -/

/-- Credits an op takes on its route: one for each 1,024 bytes, up to those granted. -/
def State.takeCredits (s : State) (n route len : Nat) : State :=
  let t := s.tile n
  let g := ((s.sl.set_.routes.find? (fun r => r.id == route)).map Route.credits).getD 0
  s.setTile n { t with credits := t.credits.put route (min (ceilDiv len 1024) g) }

def State.regionBaseOf (s : State) (id : Nat) : Nat := ((s.region id).map Region.base).getD 0

def State.runGather (s v : State) (n : Nat) (d : List Byte) : State :=
  let got := (v.gatherPieces n d).flatMap (fun p =>
    if byteAt d 24 = 0 then (v.tile (u16At d 28)).bytes p.1 p.2 else v.nearRead (v.regionBaseOf (u16At d 30) + p.1) p.2)
  (s.lanePut n (u32At d 16) (got.take (u32At d 20))).takeCredits n (u16At d 26) (u32At d 20)

def State.runScatter (s v : State) (n : Nat) (d : List Byte) : State :=
  let l := (v.tile n).bytes (u32At d 16) (u32At d 20)
  let s1 := match byteAt d 24 with
    | 0 => s.lanePut (u16At d 28) (u64At d 32) l
    | 1 => s.nearWrite (s.regionBaseOf (u16At d 30) + u64At d 32) l
    | _ => (match s.job (opTag d) with
        | none => s
        | some j => s.hostWrite (j.resultAddr + u64At d 32) l)
  s1.takeCredits n (u16At d 26) (u32At d 20)

/-! ## FILTER (R221 to R226, R232) -/

/-- A record that begins at byte `p` of `n` is cut by the end. -/
def cutAt (y : Layout) (rd : Nat → Nat → List Byte) (n p : Nat) : Bool :=
  match y.kind with
  | 0 => n < p + y.size
  | 1 =>
    let b := nextBoundary p y.align
    let len := leAt (rd p y.lenB) 0 y.lenB
    (n < p + y.lenB && p + y.lenB ≤ b)
      || (len != 0 && len ≤ y.size && p + y.lenB + len ≤ b && n < p + y.lenB + len)
  | _ => n - p < y.size && !(rd p (n - p)).contains 0x0A && !(bitN y.flags 1 && (rd p 1).head? == some 0)

/-- Records of a source range, and where a record its end cuts begins. -/
def filterRecs (y : Layout) (rd : Nat → Nat → List Byte) (n : Nat) : Nat → Nat → List Rec × Option Nat
  | 0, _ => ([], none)
  | fuel + 1, p =>
    if n ≤ p then ([], none)
    else if cutAt y rd n p then ([], some p)
    else match parseStep y rd n p with
      | .good r x => let t := filterRecs y rd n fuel x; (r :: t.1, t.2)
      | .malformed x => filterRecs y rd n fuel x
      | .pad x => filterRecs y rd n fuel x

/-- Output of a FILTER: a bit for each record, the matching records, or their offsets. -/
def filterOut (mode : Nat) (hits : List (Rec × Bool)) : List Byte :=
  let good := (hits.filter Prod.snd).map Prod.fst
  match mode with
  | 0 => (List.range (ceilDiv hits.length 8)).map (fun k => BitVec.ofNat 8 ((List.range 8).foldl (fun b j =>
      if ((hits.map Prod.snd).getD (8 * k + j) false) then b + 2 ^ j else b) 0))
  | 1 => good.flatMap Rec.stored
  | _ => good.flatMap (fun r => leBytes r.off 4)

def State.runFilter (s v : State) (q : Squad) (n : Nat) (d : List Byte) : State :=
  match (layoutsOf q.layouts).find? (fun y => y.num == u16At d 32) with
  | none => s
  | some y =>
    let len := u32At d 20
    let rd (o k : Nat) : List Byte := (v.tile n).bytes (u32At d 16 + o) (min k (len - o))
    let rs := filterRecs y rd len (len + 1) 0
    let pred := (predicatesOf q.layouts).find? (fun p => p.num == u16At d 34)
    let pass (r : Rec) : Bool := u16At d 34 == 0xFFFF || ((pred.map (fun p => p.passes r)).getD false)
    let out := filterOut (byteAt d 36) (rs.1.map (fun r => (r, pass r)))
    let cap := u32At d 28
    let s1 := if out.length ≤ cap then s.lanePut n (u32At d 24) out else s.laneFree n (u32At d 24) cap
    match rs.2 with
    | none => s1
    | some p => s1.lanePut n (u32At d 40) (rd p (len - p))

/-! ## TOPK (R64, R73) -/

/-- Keys of a TOPK with their ids, as heap entries. A score does not fit a distance: its field, and a list and flags the
op does not name, are free. -/
def State.topkItems (v : State) (n : Nat) (d : List Byte) : List (Nat × HeapEntry) :=
  let c := u32At d 24
  let t := v.tile n
  let ids := t.bytes (u32At d 20) (8 * c)
  let w := if byteAt d 36 = 0 then 2 else 4
  let ks := t.bytes (u32At d 16) (w * c)
  (List.range c).map (fun i =>
    let key := leAt ks (w * i) w
    let fr := Config.freeWord v.tick i
    (key, { loc := u64At ids (8 * i), dist := if byteAt d 36 = 0 then key else fr.toNat % 65536,
            list := bitsW fr 23 0, side := bitW fr 24 }))

/-- Rank of a key, smaller is better: a distance, or an FP32 score turned round; a NaN's rank is free. -/
def keyRank (type : Nat) (free : W32) (key : Nat) : Nat :=
  if type = 0 then key
  else if (fmt32.decode key).isNan then free.toNat
  else if bitN key 31 then (if key = 2 ^ 31 then 2 ^ 31 - 1 else key) else 2 ^ 31 - 1 - key

def State.runTopk (s v : State) (n : Nat) (d : List Byte) : State :=
  let k := u16At d 28
  let es := (v.topkItems n d).map (fun x => (keyRank (byteAt d 36) (Config.freeWord (v.tick + 1) x.1) x.1, x.2))
  let s1 : State := { s with tick := s.tick + 2 + es.length }
  if byteAt d 30 = 1 then
    let best := nearestK (s.tick + 2) k Prod.fst es
    s1.lanePut n (u32At d 32) (best.flatMap (fun x =>
      entryBytes 2 { id := x.2.loc, dist := x.2.dist, list := x.2.list, side := x.2.side, cut := false }))
  else
    match (s1.tile n).ctxs.find (byteAt d 31) with
    | none => s1
    | some x =>
      let h := es.zipIdx.foldl (fun h e => if heapTakes x.k h e.1.2.dist then heapInsert (s.tick + 2 + e.2) x.k h e.1.2 else h)
        ((v.tile n).heap x)
      s1.setTile n ((s1.tile n).setHeap (byteAt d 31) x h)

/-! ## STATS (R112, R113) -/

/-- Fold rows into the max-abs registers. -/
def State.statsFold (v : State) (n : Nat) (d : List Byte) (amax : List W32) : List W32 :=
  let ty := byteAt d 29
  let cols := byteAt d 28
  (List.range (u32At d 20)).foldl (fun am r =>
    let row := (v.tile n).bytes (u32At d 16 + r * u32At d 24) (cols * elSize ty)
    foldAmax am ((List.range cols).map (fun c => f32Abs (toF32 (elAt ty row c))))) amax

/-- Set registers 0 to `n` - 1 to 0. -/
def clearAmax (n : Nat) (am : List W32) : List W32 := List.replicate n 0 ++ am.drop n

def State.runStats (s v : State) (squad n : Nat) (d : List Byte) : State :=
  let t := s.tile n
  let cols := byteAt d 28
  let tensor := u16At d 32
  let am := v.statsFold n d (if byteAt d 30 = 0 then clearAmax cols t.amax else t.amax)
  let s1 := s.setTile n { t with amax := if byteAt d 30 = 2 then clearAmax cols am else am, tensor := some tensor }
  if byteAt d 30 = 2 then
    let r := s1.keeperReport squad n tensor ((am.take cols).foldl f32Max 0)
    if r.2 then r.1 else r.1.postContained (srcTile n) kProtocol 0 0 0 0 0 (some squad) [opTag d]
  else s1

/-! ## LOAD_BATON (R71, R142, R162) -/

/-- Jobs a failed fill touches: the reading op's, and those of its lap. -/
def State.fillTouches (s : State) (squad tag : Nat) : List Nat :=
  if (s.lapTags squad).contains tag then (tag :: s.lapTags squad).dedup else [tag]

def Tile.onLatch (t : Tile) (l : Nat) (f : Latch → Latch) : Tile := { t with latches := t.latches.modify l f }

/-- The pin of the op's job on the object. -/
def State.pinOf (s : State) (tag object : Nat) : Option Pin :=
  (s.job tag).bind (fun j => j.pins.find? (fun p => p.object == object))

/-- Batons of the version a pin reads. -/
def State.pinBatons (s : State) (p : Pin) : Nat :=
  (((s.rl.dir.find p.object).bind (fun e => e.ver p.version)).map Version.batons).getD 0

/-- The RUNNING context fetches the block: it waits, and the tile switches to the next READY one (R74). -/
def State.waitBlock (s : State) (n object baton : Nat) : State :=
  let t := s.tile n
  s.setTile n { t with ctxs := t.ctxs.mapVals (fun _ x =>
    match s.blockKey x.tag object baton with
    | none => x
    | some k => if x.state = 2 && (x.left.find k).isSome then { x with state := 3, wants := some k } else x) }.switch

/-- The block in latch `l` is FULL: the latch is, and the semaphore that the XORPOP reading it waits on has been posted
(R263). -/
def Tile.blockFull (t : Tile) (l : Nat) : Bool :=
  (t.latches.getD l Latch.reset).state == .full
  && (match t.queue.find? (fun d => opKind d == 0x02 && byteAt d 31 == l) with
      | none => true
      | some d => t.semReady d)

/-- Contexts that wait for the block in latch `l` become READY once it is FULL (R74). -/
def State.wakeLatch (s : State) (n l : Nat) : State :=
  let t := s.tile n
  let lt := t.latches.getD l Latch.reset
  if !t.blockFull l then s
  else s.setTile n { t with ctxs := t.ctxs.mapVals (fun _ x =>
    if x.state = 3 && x.wants.isSome && x.wants == s.blockKey x.tag lt.object lt.baton then { x with state := 1, wants := none }
    else x) }

/-- Contexts whose blocks are FULL become READY, and one runs. -/
def State.wakeCtxs (s : State) (n : Nat) : State :=
  if (s.tile n).ctxs.isEmpty then s
  else
    let s1 := (s.wakeLatch n 0).wakeLatch n 1
    s1.setTile n (s1.tile n).switch

/-- The relay takes a load: the latch goes FILLING; without a pin, or past the object's end, the fill fails at once.
The flag says whether the load goes on. -/
def State.runLoad (s : State) (squad n : Nat) (d : List Byte) : State × Bool :=
  let o := u32At d 16
  let b := u32At d 20
  let ok := match s.pinOf (opTag d) o with
    | none => false
    | some p => b < s.pinBatons p
  let s1 := s.setTile n ((s.tile n).onLatch (byteAt d 24) (fun l => { l with
    state := .filling, credit := !ok, object := o, baton := b, failed := !ok }))
  if ok then (s1.waitBlock n o b, true)
  else (s1.postContained (srcTile n) kProtocol 0 0 0 0 0 (some squad) (s1.fillTouches squad (opTag d)), false)

/-! ## Any op -/

/-- The effect of an issued op other than HURDLE and LOAD_BATON. -/
def State.runOp (s v : State) (q : Squad) (squad n : Nat) (d : List Byte) : State :=
  match opKind d with
  | 0x01 => s.runMatmul v q squad n d
  | 0x02 => s.runXorpop v n d
  | 0x03 => if byteAt d 30 = 0 then s.runReduceLocal v n d else s.takeCredits n (u16At d 34) (4 * u32At d 24)
  | 0x04 => s.runEltwise v squad n d
  | 0x05 => s.runGather v n d
  | 0x06 => s.runScatter v n d
  | 0x07 => s.runFilter v q n d
  | 0x08 => s.runTopk v n d
  | 0x0B => s.runStats v squad n d
  | _ => s

end Sys2Proof.Machine
end

