-- ==== Sys2Proof/Machine/TileOps.lean ====
section
/-! DEFINITION. Issue and completion of tile ops (R57 to R66, R84), baton fills (R162), and the tile's test port (R78 to
R80). -/

namespace Sys2Proof.Machine

/-! ## Faults of a tile (R65, R69) -/

/-- A tile halts and its squad is fenced. -/
def State.tileFault (s : State) (n kind : Nat) (addr : W64) (d0 d1 d2 d3 : W32) (jobs : List Nat) : State :=
  let s1 := s.haltTile n
  let touched := match (s.tile n).squad with
    | none => jobs
    | some q => (jobs ++ s1.touchedBy q n).dedup
  s1.postContained (srcTile n) kind addr d0 d1 d2 d3 (s.tile n).squad touched

/-- A descriptor fails decode (R65): its queue index and its first 16 bytes go into the record. -/
def State.decodeFails (s : State) (n idx : Nat) (d : List Byte) : State :=
  let w (i : Nat) : W32 := BitVec.ofNat 32 (u32At d (4 * i))
  s.tileFault n kProtocol (BitVec.ofNat 64 idx) (w 0) (w 1) (w 2) (w 3) []

/-- An uncorrectable byte of tile `n` stops an op of job `tag` (R69, R400). -/
def State.laneFault (s : State) (n a : Nat) (v : BitVec 5) (tag : Nat) : State :=
  s.tileFault n kEccUncorr (BitVec.ofNat 64 a) (v.setWidth 32) 0 (BitVec.ofNat 32 tag) 0 [tag]

/-! ## Hazards (R61) -/

/-- Two lane ranges meet. -/
def meets (a b : Nat × Nat × Nat) : Bool := a.1 == b.1 && a.2.1 < b.2.1 + b.2.2 && b.2.1 < a.2.1 + a.2.2

def anyMeet (as bs : List (Nat × Nat × Nat)) : Bool := as.any (fun a => bs.any (meets a))

/-- Ops in flight on any tile, but those of one unit of tile `n`: a unit runs its own ops in order (R57, R61). -/
def State.flights (s : State) (n unit : Nat) : List OpInFlight :=
  s.tiles.flatMap (fun t => if t.1 = n then t.2.flight.filter (fun f => f.unit != unit) else t.2.flight)

/-- Ranges take free bytes. -/
def State.freeRanges (s : State) (rs : List (Nat × Nat × Nat)) : State :=
  rs.foldl (fun s r => s.laneFree r.1 r.2.1 r.2.2) s

/-- Ranges that ops in flight still write and a new op reads. -/
def State.racedReads (s : State) (n : Nat) (d : List Byte) (reads : List (Nat × Nat × Nat)) : List (Nat × Nat × Nat) :=
  ((s.flights n (opUnit d)).flatMap OpInFlight.writes).filter (fun w => reads.any (meets w))

/-- Ranges whose bytes no order fixes once the new op has run: its own, where it writes what an op in flight writes or what
it reads itself, and those of ops in flight that read what it writes. -/
def State.racedWrites (s : State) (n : Nat) (d : List Byte) (reads writes : List (Nat × Nat × Nat)) : List (Nat × Nat × Nat) :=
  let inPlace := (opKind d == 0x04 && (u32At d 24 == u32At d 16 || (eltTwo (byteAt d 32) && u32At d 24 == u32At d 20)))
    || (opKind d == 0x02 && byteAt d 32 == 1) || (opKind d == 0x08 && byteAt d 30 == 0)
  let fs := s.flights n (opUnit d)
  let own := if anyMeet writes (fs.flatMap OpInFlight.writes) || (!inPlace && anyMeet writes reads) then writes else []
  own ++ (fs.filter (fun f => anyMeet f.reads writes)).flatMap OpInFlight.writes

/-! ## Issue (R60) -/

/-- The latch an op reads is FULL; the latch a load fills is read by no op in flight. -/
def Tile.latchReady (t : Tile) (d : List Byte) : Bool :=
  (match opLatch d with
   | none => true
   | some l => (t.latches.getD l Latch.reset).state == .full)
  && (opKind d != 0x09 || (t.flight.all (fun f => opLatch f.desc != some (byteAt d 24))
        && (t.latches.getD (byteAt d 24) Latch.reset).credit))

/-- The op folds into the max-abs registers as it stores (R104). -/
def foldsAmax (d : List Byte) : Bool := opKind d == 0x01 && bitN (byteAt d 38) 1

/-- An array op may follow the array ops in flight through the pipeline (R84), but a STATS and an op with AMAX_OUT never
overlap (R104). -/
def Tile.mayOverlap (t : Tile) (d : List Byte) : Bool :=
  opUnit d == 0 && t.flight.all (fun f => f.unit != 0
    || !((opKind d == 0x0B && foldsAmax f.desc) || (foldsAmax d && opKind f.desc == 0x0B)))

/-- The unit of an op is free. -/
def Tile.unitFree (t : Tile) (d : List Byte) : Bool :=
  if opUnit d = 4 then t.flight.isEmpty else t.flight.all (fun f => opUnit f.desc != opUnit d)

/-- The head descriptor may issue but for its unit. -/
def Tile.mayIssue (t : Tile) (d : List Byte) : Bool :=
  (!opFence d || t.flight.isEmpty) && t.semReady d && t.latchReady d

/-- The queue takes what JD held back (R59). -/
def Tile.refill (t : Tile) : Tile :=
  { t with queue := t.queue ++ t.held.take (512 - t.queue.length), held := t.held.drop (512 - t.queue.length) }

/-- Take the head descriptor off the queue, with its wait semaphore. -/
def Tile.take (t : Tile) (d : List Byte) : Tile :=
  Tile.refill { t with
    queue := t.queue.drop 1, nextIdx := (t.nextIdx + 1) % 512
    sems := if byteAt d 10 = 0 then t.sems else t.sems.modify (byteAt d 10 - 1) (fun v => v - 1) }

/-- Post a semaphore of a tile for the op `d`, issued by tile `n` with queue index `idx`; one at 255 fails the posting op's
decode (R62). -/
def State.postSem (s : State) (dst sem n idx : Nat) (d : List Byte) : State :=
  if sem = 0 then s
  else
    let t := s.tile dst
    if 255 ≤ t.sems.getD (sem - 1) 0 then s.decodeFails n idx d
    else (s.setTile dst { t with sems := t.sems.modify (sem - 1) (fun v => v + 1) }).wakeCtxs dst

/-- Check the lane bytes an op reads (R68, R69): corrected bytes are written back; the first uncorrectable one stops it. -/
def State.checkReads (s : State) (tag : Nat) : List (Nat × Nat × Nat) → State × Option (Nat × Nat × BitVec 5)
  | [] => (s, none)
  | r :: rs =>
    match s.laneCheck r.1 tag ((s.tile r.1).badIn r.2.1 r.2.2) with
    | (s1, some e) => (s1, some (r.1, e.1, e.2))
    | (s1, none) => s1.checkReads tag rs

/-- Put an op in flight. -/
def State.fly (s : State) (n : Nat) (f : OpInFlight) : State :=
  let t := s.tile n
  s.setTile n { t with flight := t.flight ++ [f] }

/-- Issue an op that reads and writes lane memory. Its result is formed as it issues; a later op that writes what it still
reads frees its lane outputs, and leaves its max-abs folds (R104) and what it put into context heaps (R100) as they are (DESIGN
CHOICE, assumption entry 37). -/
def State.issueLane (s : State) (q : Squad) (squad n idx : Nat) (d : List Byte) : State :=
  let rd := s.opReads q n d
  let wr := s.opWrites q n d
  match s.checkReads (opTag d) (rd ++ opOld n d) with
  | (s1, some (m, a, v)) => (s1.freeRanges wr).laneFault m a v (opTag d)
  | (s1, none) =>
    let v := s.freeRanges (s.racedReads n d rd)
    let gives := if opMeets d then some ((v.tile n).bytes (u32At d 16) (4 * u32At d 24)) else none
    let raced := s.racedWrites n d rd wr
    let s2 := ({ s1 with tick := s1.tick + v.tick }.runOp v q squad n d).freeRanges raced
    let s3 := s2.fly n
      { unit := opUnit d, idx := idx, desc := d, reads := rd, writes := wr, gives := gives,
        counts := s1.quantCountsOf v squad n d }
    if opMeets d then s3.reduceMeet q d else s3

/-- An op with NOTIFY reports its completion to JD (R64). -/
def State.notify (s : State) (n : Nat) (d : List Byte) : State :=
  if bitN (byteAt d 1) 1 then s.onJob (opTag d) (fun j => { j with notices := j.notices ++ [(n, u16At d 2)] }) else s

/-- Issue the head descriptor. A fence hurdle is complete as it issues, since every earlier op has completed; a LAP hurdle
holds the tile until the next lap. R63 sets all 16 semaphores to 0 as a LAP hurdle completes and gives no order to its own
sem_post, which the model never posts; JD ends a LAP hurdle itself, and takes no report of it (DESIGN CHOICE, assumption
entry 41). -/
def State.issue (s : State) (q : Squad) (squad n : Nat) (d : List Byte) : State :=
  let idx := (s.tile n).nextIdx
  let s1 := s.setTile n ((s.tile n).take d)
  match opKind d with
  | 0x0A =>
    if byteAt d 16 = 0 then (s1.postSem n (byteAt d 11) n idx d).notify n d
    else s1.setTile n { s1.tile n with hurdle := true }
  | 0x09 =>
    let r := s1.runLoad squad n d
    if r.2 then r.1.fly n { unit := 3, idx := idx, desc := d, reads := [], writes := [], gives := none, counts := none } else r.1
  | _ => s1.issueLane q squad n idx d

/-- The tile issues what it can, in the order written (R59, R60, R65). Whether an array op before has passed its last compute
cycle, so that the next is accepted before it completes (R84), is free. -/
def State.pump : Nat → State → Nat → State
  | 0, s, _ => s
  | k + 1, s, n =>
    let t := s.tile n
    match t.queue, t.squad.bind (fun m => (s.squadOf m).map (fun q => (m, q))) with
    | d :: _, some (m, q) =>
      if t.halted || t.hurdle || q.state == .fenced || s.halted then s
      else if !s.decodeOk q m n d then s.decodeFails n t.nextIdx d
      else if !t.mayIssue d || !(t.unitFree d || t.mayOverlap d) then s
      else
        let r := if t.unitFree d then (1, s) else s.drawNat
        if r.1 % 2 = 0 then r.2
        else if !s.piecesOk m n d then r.2.decodeFails n t.nextIdx d
        else (r.2.issue q m n d).pump k n
    | _, _ => s

def State.pumpTile (s : State) (n : Nat) : State := s.pump ((s.tile n).queue.length + (s.tile n).held.length + 1) n

/-! ## JD writes a descriptor (R59) -/

/-- The tile takes descriptors: swept, not halted, in a squad that is not fenced. -/
def State.takesOps (s : State) (n : Nat) : Bool :=
  let t := s.tile n
  s.jobsRun && s.qe.ps < 2 && n < 1024 && t.swept && !t.halted
  && (match t.squad.bind s.squadOf with
      | none => false
      | some q => q.state != .fenced)

/-- Put a 16-bit field into a descriptor. -/
def putField16 (d : List Byte) (o v : Nat) : List Byte := d.take o ++ leBytes v 2 ++ d.drop (o + 2)

/-- The layout and predicate of a FILTER that are 0xFFFF take the numbers of the job's descriptor as JD instantiates the
template (R487). -/
def State.instantiate (s : State) (d : List Byte) : List Byte :=
  match s.job (opTag d) with
  | none => d
  | some j =>
    if opKind d ≠ 0x07 then d
    else
      let d1 := if u16At d 32 = 0xFFFF then putField16 d 32 (j.u16 68) else d
      if u16At d 34 = 0xFFFF then putField16 d1 34 (j.u16 70) else d1

/-- JD writes a descriptor into a tile's op-list queue, or holds it back while the queue is full (R59), and the tile issues what
it can. `mine`: the descriptor is one of this row's, or of no kind at all. -/
def State.writeOp (s : State) (n : Nat) (d : List Byte) (mine : Bool) : State :=
  if d.length = 64 ∧ (mine ∨ opKind d = 0 ∨ 0x0B < opKind d) ∧ s.takesOps n then
    let t := s.tile n
    (s.setTile n { t with held := t.held ++ [s.instantiate d] }.refill).pumpTile n
  else s

/-! ## Completion (R60, R63, R66, R84, R115, R118) -/

/-- A STATS REPORT waits at the rendezvous of its tensor. -/
def State.calWaits (s : State) (n : Nat) (f : OpInFlight) : Bool :=
  opKind f.desc == 0x0B && byteAt f.desc 30 == 2
  && (match (s.tile n).squad with
      | none => false
      | some q => s.atRendezvous q n (u16At f.desc 32))

/-- Contexts an XORPOP fed that have compared every block are DONE (R266). -/
def Tile.ctxsDone (t : Tile) (d : List Byte) : Tile :=
  if opKind d = 0x02 ∧ byteAt d 32 = 1 then
    { t with ctxs := t.ctxs.mapVals (fun i x =>
        if (ctxMap d).contains i ∧ x.left.isEmpty then { x with state := 4 } else x) }.switch
  else t

/-- An op completes: credits return, counts go to the keeper, semaphores are posted, and tiles issue what they can. -/
def State.opDone (s : State) (n : Nat) (f : OpInFlight) : State :=
  let t := s.tile n
  let s1 := s.setTile n ({ t with flight := t.flight.erase f, credits := if f.unit = 2 then [] else t.credits
    }.ctxsDone f.desc)
  let s2 := match f.counts, t.squad with
    | some (tn, fm, el, sa, un), some q => s1.quantCounts q tn fm el sa un
    | _, _ => s1
  let s3 := (s2.postSem n (byteAt f.desc 11) n f.idx f.desc).notify n f.desc
  let far : Bool := opKind f.desc == 0x06 && byteAt f.desc 24 == 0
  let s4 := if far = true then s3.postSem (u16At f.desc 28) (byteAt f.desc 25) n f.idx f.desc else s3
  let s5 := s4.pumpTile n
  if far = true then s5.pumpTile (u16At f.desc 28) else s5

/-! ## Baton fills (R162) -/

/-- The fill of a latch ends without success: the latch stays FILLING and its credit returns. -/
def Tile.fillFails (t : Tile) (l : Nat) : Tile :=
  { t.onLatch l (fun x => { x with credit := true, failed := true }) with flight := t.flight.filter (fun f => f.unit != 3) }

/-- Header and payload of the baton a pin reads. -/
def State.batonBytes (s : State) (p : Pin) (snap k : Nat) : List Byte × List Byte :=
  (s.pinnedBytes p snap k (headerOff k) 320, s.pinnedBytes p snap k (payloadOff (s.pinBatons p) k) 65536)

/-- The CRC and the identity fields of a baton match (R161, R162). -/
def batonOk (h pl : List Byte) (o k ver : Nat) : Bool :=
  u32At h 32 == (crc32c (pl ++ sliceZ h 64 256 ++ h.take 32)).toNat && u32At h 0 == o && u32At h 4 == k && u32At h 8 == ver

/-- The latch a good baton leaves (R71, R110). -/
def Latch.filled (x : Latch) (h pl : List Byte) : Latch :=
  { x with
    state := .full, data := trimZ pl, index := BitVec.ofNat 64 (u64At h 24), units := u32At h 16, credit := true, failed := false
    shadow := if bitN (byteAt h 14) 0 then some ((List.range 64).map (fun c => BitVec.ofNat 32 (u32At h (64 + 4 * c)))) else none }

/-- The near copy of a damaged baton goes once its pins reach 0 (R408). -/
def State.condemnNear (s : State) (p : Pin) (k : Nat) : State :=
  match s.rl.dir.find p.object with
  | none => s
  | some e => if e.usesNear p k then s.condemn p.object else s

/-- A readable baton arrives. -/
def State.batonArrives (s : State) (squad n l : Nat) (f : OpInFlight) (j : Job) (p : Pin) : State :=
  let o := u32At f.desc 16
  let k := u32At f.desc 20
  let b := s.batonBytes p j.snapshot k
  let far : Bool := match s.rl.dir.find o with
    | none => false
    | some e => !e.usesNear p k && ((e.ver p.version).map (fun v => v.home.isFar)).getD false
  let s0 : State := if far then { s with rl := { s.rl with ftBytes := s.rl.ftBytes + 65536 + 320 } } else s
  if batonOk b.1 b.2 o k p.version then
    let t := s0.tile n
    let s1 := s0.setTile n ({ t with flight := t.flight.filter (fun g => g.unit != 3) }.onLatch l (fun x => x.filled b.1 b.2))
    (((s1.postSem n (byteAt f.desc 11) n f.idx f.desc).wakeCtxs n).notify n f.desc).pumpTile n
  else
    (((s0.setTile n ((s0.tile n).fillFails l)).postContained (srcTile n) kEccUncorr (BitVec.ofNat 64 (65536 * l + 2 ^ 21)) 0 2
      (BitVec.ofNat 32 j.tag) 0 (some squad) (s0.fillTouches squad j.tag))).condemnNear p k

/-- A fill ends with what the relay met: a damaged far-tier unit fences the squad without a standing entry (R159, R420);
namespace data the medium cannot recover fences nothing and ends the job (R281, R407, R417, R418). -/
def State.fillEnds (s : State) (squad n l : Nat) (f : OpInFlight) (j : Job) (p : Pin) (r : FillResult) : State :=
  let k := u32At f.desc 20
  let jobs := s.fillTouches squad j.tag
  let s1 := s.setTile n ((s.tile n).fillFails l)
  let post (s : State) (src : Nat) (a : W64) (d0 : W32) : State := s.postContained src kEccUncorr a d0 0 0 0 (some squad) jobs
  match r with
  | .readable => s.batonArrives squad n l f j p
  | .nearUncorr a =>
    let st := a / 4096 % 16
    (post (s1.countNtUncorr st) (srcStack st) (BitVec.ofNat 64 a) 2).condemnNear p k
  | .farDamaged ch a =>
    let s2 := s1.onDir p.object (fun e => { e with damaged := e.damaged || e.cur.num == p.version })
    { s2 with rl := { s2.rl with event := setEv s2.rl.event 3 } }.postContained (srcChannel ch) kEccUncorr
      (BitVec.ofNat 64 (a % 2 ^ 45 + 2 ^ 63)) 16 0 0 0 (some squad) jobs false
  | .nsUncorr ch nsid lba =>
    ({ s1 with mm := { s1.mm with uncorrCnt := sat32 (s1.mm.uncorrCnt + 1), event := setEv s1.mm.event 6 } }.postContained
      (srcChannel ch) kEccUncorr (s1.mm.blockAddr nsid lba) 16 0 0 0 none []).readLost (if j.readOnly then [j.tag] else jobs)

/-! ## Meanings: the rows JD writes -/

/-- MATMUL (R60, R65, R83 to R104). -/
def execMatmul (tile : Nat) (desc : List Byte) (s : State) : Host.Outcome State Fault Refusal :=
  done (s.writeOp tile desc (opKind desc == 0x01))

/-- XORPOP (R98 to R100, R265). -/
def execXorpop (tile : Nat) (desc : List Byte) (s : State) : Host.Outcome State Fault Refusal :=
  done (s.writeOp tile desc (opKind desc == 0x02))

/-- REDUCE (R66). -/
def execReduce (tile : Nat) (desc : List Byte) (s : State) : Host.Outcome State Fault Refusal :=
  done (s.writeOp tile desc (opKind desc == 0x03))

/-- ELTWISE other than QUANT (R58). -/
def execEltwise (tile : Nat) (desc : List Byte) (s : State) : Host.Outcome State Fault Refusal :=
  done (s.writeOp tile desc (opKind desc == 0x04 && byteAt desc 32 != 0x0B))

/-- ELTWISE QUANT (R114, R115). -/
def execEltwiseQuant (tile : Nat) (desc : List Byte) (s : State) : Host.Outcome State Fault Refusal :=
  done (s.writeOp tile desc (opKind desc == 0x04 && byteAt desc 32 == 0x0B))

/-- GATHER (R141, R148). -/
def execGather (tile : Nat) (desc : List Byte) (s : State) : Host.Outcome State Fault Refusal :=
  done (s.writeOp tile desc (opKind desc == 0x05))

/-- SCATTER (R61, R141, R148). -/
def execScatter (tile : Nat) (desc : List Byte) (s : State) : Host.Outcome State Fault Refusal :=
  done (s.writeOp tile desc (opKind desc == 0x06))

/-- FILTER (R221 to R226). -/
def execFilter (tile : Nat) (desc : List Byte) (s : State) : Host.Outcome State Fault Refusal :=
  done (s.writeOp tile desc (opKind desc == 0x07))

/-- TOPK (R64, R73). -/
def execTopk (tile : Nat) (desc : List Byte) (s : State) : Host.Outcome State Fault Refusal :=
  done (s.writeOp tile desc (opKind desc == 0x08))

/-- LOAD_BATON (R71, R142, R162). -/
def execLoadBaton (tile : Nat) (desc : List Byte) (s : State) : Host.Outcome State Fault Refusal :=
  done (s.writeOp tile desc (opKind desc == 0x09))

/-- HURDLE_FENCE (R63, R64): the fence hurdle, and the LAP hurdle a lap's op list ends with. -/
def execHurdleFence (tile : Nat) (desc : List Byte) (s : State) : Host.Outcome State Fault Refusal :=
  done (s.writeOp tile desc (opKind desc == 0x0A))

/-- STATS in mode RESET or ACCUMULATE (R112). -/
def execStats (tile : Nat) (desc : List Byte) (s : State) : Host.Outcome State Fault Refusal :=
  done (s.writeOp tile desc (opKind desc == 0x0B && byteAt desc 30 != 2))

/-- STATS in mode REPORT (R112, R113, R118). -/
def execStatsReport (tile : Nat) (desc : List Byte) (s : State) : Host.Outcome State Fault Refusal :=
  done (s.writeOp tile desc (opKind desc == 0x0B && byteAt desc 30 == 2))

/-! ## Meanings: completions -/

/-- OP_COMPLETE (R60, R66, R84, R115): the op of a unit completes; a squad-wide REDUCE not before it has met, a REPORT
not while its rendezvous waits. -/
def execOpComplete (tile unit : Nat) (s : State) : Host.Outcome State Fault Refusal :=
  done (match (s.tile tile).flight.find? (fun f => f.unit == unit) with
    | none => s
    | some f => if unit = 3 ∨ f.gives.isSome ∨ s.calWaits tile f then s else s.opDone tile f)

/-- HEAP_COLLECT (R266, R276 to R278): JD reads the heap of a DONE context through the check of R68. -/
def execHeapCollect (tag query : Nat) (s : State) : Host.Outcome State Fault Refusal :=
  done (if !s.jobsRun then s
    else match s.job tag with
      | none => s
      | some j =>
        match j.search.ctxs.find? (fun x => x.1 == query) with
        | none => s
        | some x =>
          match (s.tile x.2.1).ctxs.find x.2.2 with
          | none => s
          | some c =>
            if c.state = 4 && j.search.started then
              match s.checkReads tag [(x.2.1, c.heapAddr, 16 * c.held)] with
              | (s1, some (m, a, v)) => s1.laneFault m a v tag
              | (s1, none) => s1.collect j x c
            else s)

/-- BATON_FILL_DONE (R162). Far-tier reads stop while the share is 0 (R158). -/
def execBatonFillDone (tile latch : Nat) (r : FillResult) (s : State) : Host.Outcome State Fault Refusal :=
  done (match (s.tile tile).flight.find? (fun f => f.unit == 3 && byteAt f.desc 24 == latch), (s.tile tile).squad with
    | some f, some q =>
      (match s.job (opTag f.desc), s.pinOf (opTag f.desc) (u32At f.desc 16) with
       | some j, some p =>
         let stopped := s.rl.ftShare % 512 == 0 && (match s.rl.dir.find p.object with
           | none => false
           | some e => !e.usesNear p (u32At f.desc 20) && ((e.ver p.version).map (fun v => v.home.isFar)).getD false)
         if stopped then s else s.fillEnds q tile latch f j p r
       | _, _ => s.setTile tile ((s.tile tile).fillFails latch))
    | _, _ => s)

/-! ## The test port (R77 to R80) -/

/-- TILE_CLR_CNT: a write of 1 to TILE_CTL.CLR_CNT (R77). -/
def execTileClrCnt (tile : Nat) (s : State) : Host.Outcome State Fault Refusal :=
  done (if s.vendorLive && tile < 1024 then
    let t := s.tile tile
    s.setTile tile { t with corrCnt := 0, uncorrCnt := 0, stall := 0 } else s)

/-- TILE_LM_WDATA (R78, R79). -/
def execTileLmWdata (tile : Nat) (v : W32) (s : State) : Host.Outcome State Fault Refusal :=
  done (if s.vendorLive && tile < 1024 then
    let t := s.tile tile
    s.setTile tile (if t.portOpen then t.put t.lmAddr [v.setWidth 8] else { t with lmStatus := setEv t.lmStatus 2 }) else s)

/-- A checked read through the port: the byte it returns, and what the check does (R68, R80). -/
def State.portRead (s : State) (n : Nat) : Byte × State :=
  let t := s.tile n
  let a := t.lmAddr
  let v := t.bad.findD a 0
  match synOf v with
  | .clean => (t.laneByte a, s)
  | .uncorr =>
    let s1 := s.laneUncorr n a v
    (readCell 0 t.lane a,
     (s1.setTile n { s1.tile n with lmStatus := setEv t.lmStatus 1 }).postContained (srcTile n) kEccUncorr (BitVec.ofNat 64 a)
       (v.setWidth 32) 0 0 0 none [])
  | _ =>
    let s1 := s.laneCorrect n a v 0
    (t.laneByte a, s1.setTile n { s1.tile n with lmStatus := setEv t.lmStatus 0 })

/-- TILE_LM_RDATA (R78, R80): a read of the register. -/
def execTileLmRdata (tile : Nat) (s : State) : Host.Outcome State Fault Refusal :=
  done (if s.vendorLive && tile < 1024 then
    let t := s.tile tile
    if t.portOpen then { (s.portRead tile).2 with busRead := leBytes (s.portRead tile).1.toNat 4 }
    else { s.setTile tile { t with lmStatus := setEv t.lmStatus 2 } with busRead := leBytes 0 4 } else s)

end Sys2Proof.Machine
end

