-- ==== Sys2Proof/Machine/Beat.lean ====
section
/-! DEFINITION. A beat boundary (R15, R18, R19, R158, R167, R196, R361, R366 to R375, R379, R402) and the panel's thermal limits (R373,
R482, R483). -/

namespace Sys2Proof.Machine

/-! ## The boundary -/

/-- MC_PHASE reads HALTED from the boundary after a fatal record (R379, R411). -/
def State.haltPhase (s : State) : State :=
  if (s.mc.phase == .blocks || s.mc.phase == .go) && s.fl.fatalStands then
    { s with mc := { s.mc with phase := .halted, event := setEv s.mc.event 2 } }
  else s

/-- Counts that advance by one: PC_BEAT, MM_EPOCH after replay, the beats of a drain; limits of one record in a beat start
over. -/
def State.countBeat (s : State) (b : BoundaryInfo) : State :=
  let drains := s.sl.retire.isSome || (s.sl.load.map Load.step) == some .drain
  { s with
    pc := s.pc.turn b.meanW b.durNs
    fl := { s.fl with beatPosts := [] }
    mm := if s.mm.replayed then { (s.mm.endBeat s.liveSnaps).ageSamples b.durNs with epoch := s.mm.epoch + 1 }
      else s.mm.ageSamples b.durNs
    sl := if drains then { s.sl with drainBeats := s.sl.drainBeats + 1 } else s.sl }

/-- Tiles of a squad that stand at the last lap's hurdle go on (R63). -/
def State.wakeTiles (s : State) (squad : Nat) : State :=
  let s1 : State := { s with tiles := s.tiles.mapVals (fun _ t => if t.squad = some squad then { t with hurdle := false } else t) }
  (((s.squadOf squad).map Squad.tiles).getD []).foldl State.pumpTile s1

/-- A squad's planned lap starts when the Pacer granted it; on a squad without laps of a planner the op lists go on after a
lap hurdle. -/
def State.beginLap (s : State) (squad : Nat) : State :=
  let s1 := s.startLap squad
  if (s.lapsOf squad).passed && ((s.squadOf squad).map Squad.func).getD 0 ≤ 2 then
    (s1.setLaps squad { s1.lapsOf squad with passed := false }).wakeTiles squad
  else if (s.lapsOf squad).flight.isNone && (s1.lapsOf squad).flight.isSome then s1.wakeTiles squad else s1

/-- A job's extents or batch start when the Pacer granted them (R367). -/
def State.beginJob (s : State) (j : Job) : State :=
  if !j.admitted || !s.grantedNow j.squad j.tag then s
  else if j.kind ≤ 2 then s.issueExtents j.tag 1024
  else if j.kind = 3 then s.startSearch j.tag else s

/-- Work starts: laps of idle squads are planned, the Pacer grants, JD issues what it granted. -/
def State.startWork (s : State) (b : BoundaryInfo) : State :=
  let squads := s.sl.set_.squads.keys
  let s := squads.foldl (fun s n => s.noteQuiet true n) s
  let on := s.inGo && s.workOn
  let s1 := if on then squads.foldl State.planLap s else s
  let s2 := if s1.inGo || s1.inBlocks then s1.grant b
    else { s1 with pc := { s1.pc with granted := [], fillerRun := [], bgRun := [], ceilingW := s1.ceiling } }
  let s3 := if on then squads.foldl State.beginLap s2 else s2
  if (s3.inGo && s3.workOn) || s3.inBlocks then s3.jd.jobs.foldl State.beginJob s3 else s3

/-- A beat boundary. COMMITs whose records are on the medium are to take effect at the epoch that begins, before JD admits a
job (R271); those of the beat before that no COMMIT_TAKE_EFFECT reached do so first. Cadence contents due in the beat that opens
take effect once the band has judged the beat that ended, and before the Pacer grants (R363). -/
def State.boundary (s : State) (b : BoundaryInfo) : State :=
  let s1 := (((s.settleCommits.countBeat b).haltPhase.thermalStep).bandJudge).takeEffect.readyCommits
  (if s1.relayRuns then s1.promoteAll b.durNs else s1).startWork b

/-! ## Thermal limits (R483), temperatures in units of 0.1 degree -/

def isJunction (n : Nat) : Bool := 18 ≤ n && n ≤ 55
def isStack (n : Nat) : Bool := 2 ≤ n && n ≤ 17

def State.setTemp (s : State) (n t : Nat) : State :=
  { s with power := { s.power with temps := s.power.temps.put n t } }

/-- THERMAL, corrected, once for each sensor in a beat. -/
def State.postThermal (s : State) (n t : Nat) : State :=
  s.postOnce srcThermal kThermal n 0 (BitVec.ofNat 32 n) (BitVec.ofNat 32 t) 0 0

/-- The thermal ceiling starts, or falls again (R373). -/
def State.startCeiling (s : State) (n : Nat) : State :=
  let p := s.pc
  let ts := if p.triggers.contains n then p.triggers else n :: p.triggers
  match p.thermalCeil with
  | some _ => { s with pc := { p with triggers := ts, rising := false } }
  | none => { s with pc := { p with
      triggers := ts, rising := false, thermalCeil := some (p.beatW * 95 / 100), event := setEv p.event 4 } }

/-- Every trigger is at least 3 degrees below its own limit (R373, R483). -/
def State.cooled (s : State) : Bool :=
  (List.range 56).all (fun n => match triggerAt n with
    | none => true
    | some l => s.power.temps.findD n 0 + 30 ≤ l)

/-! ## Meanings -/

/-- BEAT_BOUNDARY (R15, R19, R196, R361, R366 to R369, R371, R373, R374, R411). -/
def execBeatBoundary (b : BoundaryInfo) (s : State) : Host.Outcome State Fault Refusal :=
  done (if s.pacerRuns then s.boundary b else s)

/-- THERMAL_TRIGGER (R373, R482, R483). -/
def execThermalTrigger (sensor temp : Nat) (s : State) : Host.Outcome State Fault Refusal :=
  done (match triggerAt sensor with
    | none => s
    | some l =>
      if !s.linkUp || temp < l then s
      else
        let s1 := s.setTemp sensor temp
        let s2 := if sensor = 1 then s1 else s1.postThermal sensor temp
        (s2.startCeiling sensor).alert)

/-- THERMAL_CEILING_END (R373, R483): the triggers have cooled; the ceiling rises from the next boundary. -/
def execThermalCeilingEnd (temps : List (Nat × Nat)) (s : State) : Host.Outcome State Fault Refusal :=
  let s1 := temps.foldl (fun s x => s.setTemp x.1 x.2) s
  done (if s.pc.thermalCeil.isSome && s1.cooled then { s1 with pc := { s1.pc with triggers := [], rising := true } } else s1)

/-- THERMAL_SHUTDOWN (R404, R483): a panel junction at 115 degrees; the tile supply is removed. -/
def execThermalShutdown (sensor temp : Nat) (s : State) : Host.Outcome State Fault Refusal :=
  done (if !s.linkUp || !isJunction sensor || temp < 1150 then s
    else
      let s1 := s.setTemp sensor temp
      { s1 with power := { s1.power with tileSupply := false } }.postFatal srcThermal kThermal 0 (BitVec.ofNat 32 sensor)
        (BitVec.ofNat 32 temp) 0 0)

/-- OUTLET_ALERT (R477, R483): the outlet at or above 78 degrees for 1 s. In standby the sensors run and no record is posted. -/
def execOutletAlert (temp : Nat) (s : State) : Host.Outcome State Fault Refusal :=
  done (if !s.power.vinAccepted || s.power.failing || temp < 780 then s
    else
      let s1 := s.setTemp 1 temp
      let s2 : State := { s1 with power := { s1.power with outletHot := true } }
      (if s.linkUp then s2.postThermal 1 temp else s2).alert)

/-- OUTLET_ALERT_END (R477). -/
def execOutletAlertEnd (temp : Nat) (s : State) : Host.Outcome State Fault Refusal :=
  done (if s.power.vinAccepted && temp < 780 then
    let s1 := s.setTemp 1 temp
    { s1 with power := { s1.power with outletHot := false } }.alert
  else s)

/-- DRAM_HOT_REFRESH (R483): above 85 degrees a stack refreshes at twice the rate. -/
def execDramHotRefresh (stack temp : Nat) (s : State) : Host.Outcome State Fault Refusal :=
  done (if !s.linkUp || 16 ≤ stack then s
    else
      let s1 := s.setTemp (2 + stack) temp
      let r := s1.power.refresh2x.filter (fun k => k != stack)
      { s1 with power := { s1.power with refresh2x := if 850 < temp then stack :: r else r } })

end Sys2Proof.Machine
end

