-- ==== Sys2Proof/Machine/Near.lean ====
section
/-! DEFINITION. The near tier's probe port and flip masks (R153 to R155), the patrol scrub (R151), and the directory
look-up (R175). -/

namespace Sys2Proof.Machine

/-! ## The granule decoder (R149) -/

/-- Decoder results. -/
inductive Decoded where
  | clean | one | addr | other
  deriving DecidableEq, Repr

/-- A granule of the probe area; an unlisted one is zero and clean (R152). -/
def Rl.probeAt (r : Rl) (o : Nat) : ProbeGranule :=
  r.probe.findD o { data := List.replicate 32 0, errs := [], flip := false }

/-- What the decoder makes of a granule: its symbol errors are those stored, and one address symbol when the check symbols
were computed for the neighbouring granule. -/
def ProbeGranule.decoded (g : ProbeGranule) : Decoded :=
  match g.errs.length, g.flip with
  | 0, false => .clean
  | 0, true => .addr
  | 1, false => .one
  | _, _ => .other

/-- The data bytes as stored. -/
def ProbeGranule.stored (g : ProbeGranule) : List Byte :=
  (List.range 32).map (fun i => g.data.getD i 0 ^^^ g.errs.findD i 0)

/-- The bytes a read delivers: corrected when one symbol is damaged. -/
def ProbeGranule.delivered (g : ProbeGranule) : List Byte := if g.decoded = .one then padTo 32 g.data else g.stored

/-! ## Reading a granule of the probe area (R149, R151, R155) -/

/-- Near-tier address of probe-area offset `o` (R147). -/
def probeBase : Nat := 0xFC00000000

/-- Stack of a probe-area offset (R153). -/
def probeStack (o : Nat) : Nat := o / 4096 % 16

/-- EM_FLIP_LAST_S names the granule and is valid. -/
def Rl.flipNames (r : Rl) (o : Nat) : Bool :=
  let w := r.flipLast.findD (probeStack o) 0
  bitW w 31 && bitsW w 15 0 == o

/-- The granule no longer holds a masked encoding. -/
def Rl.flipGone (r : Rl) (o : Nat) : Rl :=
  if r.flipNames o then { r with flipLast := r.flipLast.adjust (probeStack o) (fun w => w &&& 0x7FFFFFFF) } else r

/-- Count a corrected granule of a stack (R149). -/
def State.countNtCorr (s : State) (k : Nat) : State :=
  { s with rl := { s.rl with corr := s.rl.corr.put k (sat32 (s.rl.corr.findD k 0 + 1)) } }

/-- A corrected granule: rewritten, counted, and recorded at most once per stack per beat. -/
def State.granuleCorrected (s : State) (o : Nat) (g : ProbeGranule) : State :=
  let r := s.rl.flipGone o
  let s1 : State := { s with rl := { r with probe := r.probe.put o { g with errs := [], flip := false } } }
  (s1.countNtCorr (probeStack o)).postOnce (srcStack (probeStack o)) kEccCorr 0 (BitVec.ofNat 64 (probeBase + o)) 1 0 0 0

/-- A read of the probe-area granule at `o`, by the probe port or the scrub. -/
def State.readProbe (s : State) (o : Nat) (port : Bool) : State :=
  let g := s.rl.probeAt o
  let k := probeStack o
  let a := BitVec.ofNat 64 (probeBase + o)
  match g.decoded with
  | .clean => s
  | .one => s.granuleCorrected o g
  | .addr =>
    let s1 := s.countNtUncorr k
    if port && s.rl.flipNames o then s1.postCorr (srcStack k) kAddrCode a 3 1 0 0
    else s1.postFatal (srcStack k) kAddrCode a 3 0 0 0
  | .other => (s.countNtUncorr k).postContained (srcStack k) kEccUncorr a 2 0 0 0 none []

/-! ## The probe port (R153 to R155) -/

/-- The port works on a stack whose NT_READY bit is set, in BLOCKS, GO and HALTED. -/
def State.probeLive (s : State) : Bool := s.vendorLive && s.rl.ntReady.contains (probeStack s.rl.probeAddr)

/-- Add an error to a symbol; symbols above 35 act as 35, and two errors on one symbol combine. -/
def flipSymbol (m : KMap Byte) (sym mask : Nat) : KMap Byte :=
  let k := min sym 35
  let v := m.findD k 0 ^^^ BitVec.ofNat 8 mask
  if v = 0 then m.del k else m.put k v

/-- The errors a flip mask stores (R154). -/
def maskErrs (w : W32) : KMap Byte :=
  flipSymbol (flipSymbol [] (bitsW w 13 8) (bitsW w 7 0)) (bitsW w 27 22) (bitsW w 21 14)

/-- RL_PROBE_WRITE: a write of 1 to RL_PROBE_CTL.WRITE (R153, R154). -/
def execRlProbeWrite (s : State) : Host.Outcome State Fault Refusal :=
  done (if !s.probeLive then s
    else
      let o := s.rl.probeAddr
      let k := probeStack o
      let w := s.rl.flipMask.findD k 0
      let g : ProbeGranule :=
        { data := s.rl.probeData.flatMap (fun v => leBytes v.toNat 4), errs := maskErrs w, flip := bitW w 28 }
      let r := s.rl.flipGone o
      let r1 : Rl := { r with probe := r.probe.put o g, probeDone := true }
      { s with rl := if w = 0 then r1 else
          { r1 with
            flipMask := r1.flipMask.put k 0
            flipLast := r1.flipLast.put k (BitVec.ofNat 32 (2 ^ 31 + o)) } })

/-- RL_PROBE_STATUS bit a decoder result sets. -/
def Decoded.bit (d : Decoded) (w : W32) : W32 :=
  match d with
  | .clean => w
  | .one => setEv w 1
  | .other => setEv w 2
  | .addr => setEv w 3

/-- RL_PROBE_READ: a write of 1 to RL_PROBE_CTL.READ (R153, R155). -/
def execRlProbeRead (s : State) : Host.Outcome State Fault Refusal :=
  done (if !s.probeLive then s
    else
      let o := s.rl.probeAddr
      let g := s.rl.probeAt o
      let s1 : State := { s with rl := { s.rl with
        probeData := (List.range 8).map (fun i => BitVec.ofNat 32 (u32At g.delivered (4 * i)))
        probeDone := true
        probeBits := g.decoded.bit s.rl.probeBits } }
      s1.readProbe o true)

/-! ## The patrol scrub (R151) -/

/-- NT_PATROL_SCRUB (R149, R151): the controller of a ready stack reads the granule that holds near-tier address `addr`.
Stored damage is what a flip mask left, so only the probe area can hold any. -/
def execNtPatrolScrub (addr : Nat) (s : State) : Host.Outcome State Fault Refusal :=
  done (if s.vendorLive && probeBase ≤ addr && addr < probeBase + 65536 && s.rl.ntReady.contains (probeStack (addr - probeBase))
    then s.readProbe ((addr - probeBase) / 32 * 32) false else s)

/-! ## RL_LOOKUP (R175) -/

/-- The RL_LOOKUP registers of an entry: STATE, VERSION, BATONS, WMARK, NEAR and FAR low and high. -/
def DirEntry.lookup (e : DirEntry) : List W32 :=
  let st := match e.state with
    | .home => 0
    | .promoting => 1
    | .resident => 2
    | .evicting => 3
  let far : W64 := match e.cur.home with
    | .far f => BitVec.ofNat 64 f
    | _ => BitVec.allOnes 64
  let near : W64 := match e.cur.near with
    | some a => BitVec.ofNat 64 a
    | none => BitVec.allOnes 64
  let homed := e.cur.home != .none
  let old := (e.old.map Version.pins).getD 0
  [packW [(0, 1), (1, 1), (2, st), (4, b2n homed), (5, b2n e.evictPending), (6, b2n e.damaged), (7, b2n (old != 0)),
     (8, b2n e.discardPending), (16, e.cur.pins % 65536)],
   BitVec.ofNat 32 e.cur.num, BitVec.ofNat 32 e.cur.batons,
   BitVec.ofNat 32 (if e.state = .promoting then e.mark else e.cur.batons), loW near, hiW near, loW far, hiW far]

/-- A write of RL_LOOKUP: a snapshot of one directory entry. -/
def execRlLookup (v : W32) (s : State) : Host.Outcome State Fault Refusal :=
  done (if !s.vendorLive then s
    else { s with rl := { s.rl with
      lookup := v
      lookupWords := match s.rl.dir.find v.toNat with
        | none => [1, 0, 0, 0, 0xFFFFFFFF, 0xFFFFFFFF, 0xFFFFFFFF, 0xFFFFFFFF]
        | some e => e.lookup } })

end Sys2Proof.Machine
end

