-- ==== Sys2Proof/Machine/Ronnel.lean ====
section
/-! DEFINITION. Function 1, the Ronnel packet function (R345 to R356): the request ring, frames, commands, the
transfer-ready handshake and partner violations. -/

namespace Sys2Proof.Machine

/-! ## Frames on the request ring (R346, R347) -/

/-- A request frame: its cell, header fields and bytes; reserved fields read as 0 (R354 code 0x04). -/
structure LpFrame where
  cell  : Nat
  type  : Nat
  last  : Bool
  cells : Nat
  tag   : Nat
  arg   : Nat
  bytes : List Byte

/-- Cells between the consumer and the producer. -/
def Lp.avail (l : Lp) : Nat := (l.reqProd + reqCells - l.reqCons) % reqCells

/-- The frame at the consumer. -/
def Lp.head (l : Lp) : LpFrame :=
  let h := readCells 0 l.ring (reqOff l.reqCons) 16
  { cell := l.reqCons, type := byteAt h 0, last := bitN (byteAt h 1) 0, cells := u16At h 2, tag := byteAt h 4, arg := u64At h 8,
    bytes := readCells 0 l.ring (reqOff l.reqCons) (64 * u16At h 2) }

/-- Header bytes 0 to 3 of the frame at a cell. -/
def Lp.hdr (l : Lp) (cell : Nat) : Nat := u32At (readCells 0 l.ring (reqOff cell) 4) 0

/-- A reserved field of the head frame is not 0. -/
def Lp.reservedSet (l : Lp) : Bool :=
  let h := readCells 0 l.ring (reqOff l.reqCons) 16
  let fl := byteAt h 1
  fl / 2 != 0 || (bitN fl 0 && byteAt h 0 != 3) || byteAt h 5 != 0 || u16At h 6 != 0 || (byteAt h 0 == 1 && u16At h 10 != 0)

/-- Cells the head frame takes: a PAD runs to the ring end. -/
def LpFrame.extent (f : LpFrame) : Nat := if f.type = 0 then reqCells - f.cell else f.cells

/-- The extent of the head frame is wrong (code 0x01). -/
def Lp.badExtent (l : Lp) (f : LpFrame) : Bool :=
  f.cells == 0 || 257 < f.cells || reqCells < f.cell + f.cells || l.avail < f.extent

/-- Move the consumer past the frame. -/
def State.lpAdvance (s : State) (f : LpFrame) : State :=
  { s with lp := { s.lp with reqCons := (f.cell + f.extent) % reqCells } }

/-- A violation of the frame, answered with NAK when `nak`. -/
def State.lpBad (s : State) (f : LpFrame) (code : Nat) (nak : Bool) : State :=
  let s1 := s.lpViolation code f.cell f.type f.tag (s.lp.hdr f.cell)
  if nak then s1.lpSend [lpNak f.tag code f.cell f.type] else s1

/-- LP reads frames: the block answers, and the reply ring holds nothing back (R346, R383). -/
def State.lpReads (s : State) : Bool := s.vendorLive && s.lp.outq.isEmpty

/-- Answer frames at the consumer that no command handles: a wrong extent, an unknown type, or one that belongs on the
reply ring (codes 0x01, 0x02, 0x09). `fuel` bounds the frames. -/
def State.lpSkip : Nat → State → State
  | 0, s => s
  | k + 1, s =>
    let f := s.lp.head
    if !s.lpReads || s.lp.avail = 0 then s
    else if s.lp.badExtent f then
      let s1 := s.lpBad f 1 true
      { s1 with lp := { s1.lp with reqCons := s1.lp.reqProd }.note 2 }
    else if 6 < f.type then ((s.lpBad f 2 true).lpAdvance f).lpSkip k
    else if f.type = 2 ∨ f.type = 4 ∨ f.type = 6 then ((s.lpBad f 9 true).lpAdvance f).lpSkip k
    else s

def State.lpSkipAll (s : State) : State := s.lpSkip reqCells

/-- Take the head frame if it is one that `mine` accepts and LP may read it now, noting reserved fields, and act on it
past the frame. -/
def State.lpTake (s : State) (mine : LpFrame → Bool) (act : LpFrame → State → State) : State :=
  let f := s.lp.head
  if !s.vendorLive || (!s.lp.outq.isEmpty && f.type != 5) || s.lp.avail = 0 || s.lp.badExtent f || !mine f then s
  else
    let s1 := if s.lp.reservedSet then s.lpBad f 4 false else s
    (act f (s1.lpAdvance f)).lpSkipAll

/-! ## Commands (R348, R351, R352) -/

/-- Fields of a CMD frame. -/
def LpFrame.opcode (f : LpFrame) : Nat := f.arg % 256
def LpFrame.volume (f : LpFrame) : Nat := bitsN f.arg 15 8
def LpFrame.count (f : LpFrame) : Nat := bitsN f.arg 63 32
def LpFrame.lba (f : LpFrame) : Nat := u64At f.bytes 16

/-- Namespace of a volume; 0 for none. -/
def Lp.volume (l : Lp) (v : Nat) : Nat := if v = 0 then 0 else ((l.volMap[v - 1]?).map BitVec.toNat).getD 0

/-- A tag is held from its CMD frame until its STATUS frame is sent. -/
def Lp.tagUsed (l : Lp) (tag : Nat) : Bool :=
  (l.cmds.find tag).isSome || l.outq.any (fun f => byteAt f 0 == 4 && u16At f 4 == tag)

/-- Tags held: LP_STATUS.TAGS (R348, R356). -/
def Lp.tags (l : Lp) : Nat := ((List.range 256).filter l.tagUsed).length

/-- The command takes its tag, and QE counts it. -/
def State.lpOpen (s0 : State) (f : LpFrame) : State :=
  let s := s0.takeTurn lpQueue
  let c : LpCmd :=
    { opcode := f.opcode, nsid := s.lp.volume f.volume, lba := f.lba, blocks := f.count, window := 0,
      granted := false, got := [], data := [], falses := 0 }
  { s with
    lp := { s.lp with cmds := s.lp.cmds.put f.tag c }
    qe := { s.qe with fetched := s.qe.fetched ++ [{ sq := lpQueue, cid := f.tag }], fetchOrder := s.qe.fetchOrder + 1 } }

/-- The count suits the opcode (R351). -/
def blocksOk (op n : Nat) : Bool :=
  if op = 3 ∨ op = 5 then n == 0 else if op = 4 then 1 ≤ n else 1 ≤ n && n ≤ 512

/-- STATUS a command ends with before it runs (R352), or none. -/
def State.lpEarly (s : State) (f : LpFrame) : Option Nat :=
  let ns := s.lp.volume f.volume
  if !s.lp.enable then some lpNotReady
  else if s.fl.fatalStands then some lpInternal
  else if f.opcode = 0 ∨ 5 < f.opcode then some lpUnsupp
  else if ns = 0 ∨ (s.mm.namespaces.find ns).isNone then some lpNoVolume
  else if !blocksOk f.opcode f.count then some lpBadRange
  else none

/-- LP reads a CMD frame when QE may take a command of function 1 (R317, R318, R329, R351): a tag in use is a violation (code 0x03); else the command ends early or runs. -/
def State.lpCommand (s : State) (ops : Nat → Bool) (run : LpFrame → State → State) : State :=
  if 65536 ≤ s.qe.fetched.length || !s.arbiter lpQueue then s
  else s.lpTake (fun f => f.type == 1 && ops f.opcode) (fun f s =>
    if s.lp.tagUsed f.tag then s.lpBad f 3 true
    else match s.lpEarly f with
      | some st => (s.lpOpen f).lpEnd f.tag st 0
      | none => run f (s.lpOpen f))

/-- Run a storage command of function 1. -/
def State.lpStore (s : State) (f : LpFrame) (op : StoreOp) : State :=
  s.takeStore { sq := lpQueue, cid := f.tag } op (s.lp.volume f.volume) (if op = .flush then [] else [(f.lba, f.count)]) []

/-- INQUIRE's data (R351). -/
def inquireData (n : Namespace) : List Byte := padTo 4096 (leBytes n.blocks 8 ++ leBytes 512 4 ++ leBytes 64 4)

/-! ## Ending a command (R352, R353) -/

/-- Blocks of a write that are on the medium. -/
def StoreCmd.landedBlocks (k : StoreCmd) : Nat := ((k.pieces.filter Piece.onMedium).map (fun p => p.blocks.length)).sum

/-- End a command with a STATUS: its entries release, pieces on the medium stay and are reported (R333, R353). -/
def State.lpStop (s : State) (tag code : Nat) : State :=
  match s.qe.store.find? (fun k => k.c == { sq := lpQueue, cid := tag } && !k.silent) with
  | none => s.lpEnd tag code 0
  | some k =>
    let s1 := s.applyPieces k.nsid (k.pieces.filter Piece.onMedium)
    let s2 := { s1 with qe := s1.qe.dropStore k }
    let s3 := if k.reports then { s2 with qe := s2.qe.addWp (k.wpEntry 2) } else s2
    (s3.lpEnd tag code (if k.op = .write then k.landedBlocks else 0)).settleFlushes

/-- Drop the frames of a command that wait for the reply ring (R353). -/
def Lp.unsend (l : Lp) (tag : Nat) : Lp :=
  { l with outq := l.outq.filter (fun f => !((byteAt f 0 == 3 || byteAt f 0 == 4) && u16At f 4 == tag)) }

/-! ## Write data (R349, R354) -/

/-- Bytes of a command's current window. -/
def LpCmd.windowLen (c : LpCmd) : Nat := 4096 * min 64 (c.blocks - 64 * c.window)

/-- Every byte of the window has arrived and the frame that ends it was marked. -/
def LpCmd.windowDone (c : LpCmd) : Bool := !c.granted && c.got.length != 0 && c.got.length == c.windowLen

/-- Add a frame's payload to the window. -/
def LpCmd.add (c : LpCmd) (off : Nat) (d : List Byte) : LpCmd :=
  { c with got := d.zipIdx.foldl (fun (m : KMap Byte) x => m.put (off + x.2) x.1) c.got }

/-- A DATA frame for a WRITE whose window is open: its bytes, or the end of the command. -/
def State.lpWindowData (s : State) (f : LpFrame) (c : LpCmd) : State :=
  let off := f.arg % 2 ^ 40
  let len := bitsN f.arg 63 40
  let base := 262144 * c.window
  let inside := 1 ≤ len && len ≤ 16384 && base ≤ off && off + len ≤ base + c.windowLen && f.cells == ceilDiv (16 + len) 64
  let c1 := c.add (off - base) (sliceZ f.bytes 16 len)
  if !inside || (f.last && c1.got.length != c.windowLen) then (s.lpBad f 6 true).lpStop f.tag lpProtocolError
  else { s with lp := { s.lp with cmds := s.lp.cmds.put f.tag { c1 with granted := !f.last } } }

/-- A DATA frame (codes 0x05, 0x06, 0x0A). -/
def State.lpDataFrame (s : State) (f : LpFrame) : State :=
  match s.lp.cmds.find f.tag with
  | none => s.lpBad f 0x0A true
  | some c =>
    if c.opcode != 2 then (s.lpBad f 6 true).lpStop f.tag lpProtocolError
    else if c.granted then s.lpWindowData f c
    else
      let s1 := s.lpBad f 5 true
      let s2 : State := { s1 with lp := { s1.lp with cmds := s1.lp.cmds.put f.tag { c with falses := c.falses + 1 } } }
      if c.falses + 1 = 16 then s2.lpStop f.tag lpProtocolError else s2

/-- The data of a complete window, as a piece. -/
def LpCmd.piece (c : LpCmd) (k : StoreCmd) : Piece :=
  let bytes := c.got.map Prod.snd
  { num := c.window, slba := k.slba + 64 * c.window
    blocks := (List.range (c.windowLen / 4096)).map (fun i => trimZ ((bytes.drop (4096 * i)).take 4096))
    zeros := 0, stripe := none, off := 0, onMedium := false }

/-- A complete window enters landing (R349): the next window is granted. While landing or the snapshot pool has no room
it waits (R185, R199). -/
def State.windowLands (s : State) (k : StoreCmd) (n : Namespace) (c : LpCmd) : State :=
  let p := c.piece k
  if s.landingWaits [p] then { s with mm := { s.mm with event := setEv s.mm.event 1 } }
  else if !s.poolRoom n [p] then { s with mm := { s.mm with event := setEv s.mm.event 2 } }
  else
    let r := s.mm.placePieces n [p]
    let k' := { k with pieces := k.pieces ++ r.2 }
    let s1 := { s with mm := r.1, lp := { s.lp with cmds := s.lp.cmds.put k.c.cid { c with got := [] } } }.onStore k.order (fun _ => k')
    if c.window + 1 < k.pieceCount then s1.lpGrant k.c.cid (c.window + 1) else s1

/-! ## Meanings -/

/-- LP_REQ_PROD_WRITE (R346, R354 code 0x08): the producer moves on, never past the ring or over the consumer. -/
def execLpReqProdWrite (v : W32) (s : State) : Host.Outcome State Fault Refusal :=
  done (if !s.vendorLive then s
    else
      let n := bitsW v 12 0
      if reqCells ≤ n ∨ (n + reqCells - s.lp.reqCons) % reqCells < s.lp.avail then s.lpViolation 8 n 0 0 0
      else { s with lp := { s.lp with reqProd := n } }.lpSkipAll)

/-- LP_RPL_CONS_WRITE (R346, R354 code 0x08): reply cells are free again, and waiting frames follow. -/
def execLpRplConsWrite (v : W32) (s : State) : Host.Outcome State Fault Refusal :=
  done (if !s.vendorLive then s
    else
      let n := bitsW v 12 0
      let filled := (s.lp.rplProd + rplCells - s.lp.rplCons) % rplCells
      if filled < (n + rplCells - s.lp.rplCons) % rplCells then s.lpViolation 8 n 0 0 0
      else (({ s with lp := { s.lp with rplCons := n } } : State).lpSend []).lpSkipAll)

/-- LP_CTL_RESET: a write of LP_CTL with RESET 1 (R4, R355); ENABLE takes the word's bit. The word of a command that
gives none is RESET alone. -/
def execLpCtlReset (s : State) (v : W32 := 2) : Host.Outcome State Fault Refusal :=
  done (if s.vendorLive then { s.resetLp with lp := { s.resetLp.lp with enable := bitW v 0 } } else s)

/-- LP_VOL_MAP_WRITE (R356, R428): the map changes at once and a record of the volume log keeps it. -/
def execLpVolMapWrite (volume : Nat) (v : W32) (writes : List Bool) (s : State) : Host.Outcome State Fault Refusal :=
  done (if s.vendorLive && 1 ≤ volume && volume ≤ 16 then
    let m := s.lp.volMap.set (volume - 1) v
    ({ s with lp := { s.lp with volMap := m } }.logWrite logVolume (m.flatMap (fun (w : W32) => leBytes w.toNat 4)) writes).1 else s)

/-- LP_READ (R350 to R352). -/
def execLpRead (s : State) : Host.Outcome State Fault Refusal :=
  done (s.lpCommand (fun o => o == 1) (fun f s => s.lpStore f .read))

/-- LP_WRITE (R349, R351). -/
def execLpWrite (s : State) : Host.Outcome State Fault Refusal :=
  done (s.lpCommand (fun o => o == 2) (fun f s => s.lpStore f .write))

/-- LP_FLUSH (R351). -/
def execLpFlush (s : State) : Host.Outcome State Fault Refusal :=
  done (s.lpCommand (fun o => o == 3) (fun f s => s.lpStore f .flush))

/-- LP_TRIM (R351). -/
def execLpTrim (s : State) : Host.Outcome State Fault Refusal :=
  done (s.lpCommand (fun o => o == 4) (fun f s => s.lpStore f .dealloc))

/-- LP_INQUIRE (R351). -/
def execLpInquire (s : State) : Host.Outcome State Fault Refusal :=
  done (s.lpCommand (fun o => o == 5) (fun f s =>
    match s.mm.namespaces.find (s.lp.volume f.volume) with
    | none => s.lpEnd f.tag lpNoVolume 0
    | some n => (s.lpSend (lpDataFrames f.tag (inquireData n) 1 0)).lpEnd f.tag lpGood 0))

/-- LP_UNSUPPORTED (R351, R352): an opcode not carried over. -/
def execLpUnsupported (s : State) : Host.Outcome State Fault Refusal :=
  done (s.lpCommand (fun o => o == 0 || 5 < o) (fun f s => s.lpEnd f.tag lpUnsupp 0))

/-- LP_DATA (R349, R354). -/
def execLpData (s : State) : Host.Outcome State Fault Refusal :=
  done (s.lpTake (fun f => f.type == 3) (fun f s => s.lpDataFrame f))

/-- LP_ABORT (R353): read even while replies wait, since the frames it drops are among them. -/
def execLpAbort (s : State) : Host.Outcome State Fault Refusal :=
  done (s.lpTake (fun f => f.type == 5) (fun f s =>
    if (s.lp.cmds.find f.tag).isSome then s.lpStop f.tag lpAborted
    else if s.lp.tagUsed f.tag then { s with lp := s.lp.unsend f.tag }.lpSend [lpStatus f.tag lpAborted 0]
    else s.lpSend [lpNak f.tag 0x0B f.cell f.type]))

/-- LP_PAD (R346). -/
def execLpPad (s : State) : Host.Outcome State Fault Refusal := done (s.lpTake (fun f => f.type == 0) (fun _ s => s))

/-- LP_WINDOW_LANDED (R349). -/
def execLpWindowLanded (tag : Nat) (s : State) : Host.Outcome State Fault Refusal :=
  done (if !s.mediaRuns then s
    else match s.lp.cmds.find tag, s.qe.store.find? (fun k => k.c == { sq := lpQueue, cid := tag } && !k.silent) with
      | some c, some k =>
        (match s.mm.namespaces.find k.nsid with
         | some n => if c.windowDone && k.stage == .running then s.windowLands k n c else s
         | none => s)
      | _, _ => s)

/-- LP_XFER_TIMEOUT (R352, R354 code 0x07): a granted window is not complete in time; a timeout of 0 never ends one. -/
def execLpXferTimeout (tag : Nat) (s : State) : Host.Outcome State Fault Refusal :=
  done (if !s.vendorLive || s.lp.timeout = 0 then s
    else match s.lp.cmds.find tag with
      | none => s
      | some c => if c.granted then (s.lpViolation 7 0 0 tag 0).lpStop tag lpTimeout else s)

end Sys2Proof.Machine
end

