-- ==== Sys2Proof/Machine/Registers.lean ====
section
/-! DEFINITION. The register blocks as the host reads and writes them (R4 to R7, R9, R10 and the register table of each
block): what each offset reads, the latch of 64-bit registers (R6), and a write to a register with no row of its own. -/

namespace Sys2Proof.Machine

/-! ## What answers (R383) -/

/-- Blocks of BAR0 of function 0 by the high half of the offset. -/
def blockOf (off : Nat) : Nat := off / 0x10000

/-- A vendor block lies at this offset of function 0 BAR0: the twelve blocks of R9 or a tile window. -/
def isVendor (off : Nat) : Bool := (0x100000 ≤ off && off < 0x1C0000) || (0x1000000 ≤ off && off < 0x2000000)

/-- Function 0 BAR0 offset `off` answers in the present phase: MC, PC and SW in each of the five, the other vendor
blocks from BLOCKS on, the NVMe registers always (R383). -/
def State.answers (s : State) (off : Nat) : Bool :=
  s.linkUp && (!isVendor off || blockOf off == 0x10 || blockOf off == 0x11 || blockOf off == 0x1A || s.vendorLive)

/-! ## NVMe controller registers (R312, R383, R411) -/

/-- CAP with MQES 4,095, CQR, AMS, TO 20, NVM command set, MPSMAX 64 KiB (R312). -/
def nvmeCap : W64 := BitVec.ofNat 64 (4095 + 2 ^ 16 + 2 ^ 17 + 20 * 2 ^ 24 + 2 ^ 37 + 4 * 2 ^ 52)

/-- CC: EN is kept apart. -/
def Qe.ccWord (q : Qe) : W32 := (q.cc &&& 0xFFFFFFFE) ||| (if q.enabled then 1 else 0)

/-- CSTS: RDY and SHST; CFS stays 0 (R411). -/
def Qe.csts (q : Qe) : W32 := packW [(0, b2n q.ready), (2, q.shst)]

/-- NVMe registers at their offsets of the NVM Express base specification (PRESUMED). -/
def State.readNvme (s : State) (o : Nat) : W32 :=
  match o with
  | 0x00 => loW nvmeCap
  | 0x04 => hiW nvmeCap
  | 0x08 => 0x00020100
  | 0x0C => s.qe.intMask
  | 0x10 => s.qe.intMask
  | 0x14 => s.qe.ccWord
  | 0x1C => s.qe.csts
  | 0x24 => s.qe.aqa
  | 0x28 => loW s.qe.asq
  | 0x2C => hiW s.qe.asq
  | 0x30 => loW s.qe.acq
  | 0x34 => hiW s.qe.acq
  | _ => 0

/-! ## Reads of the vendor blocks

`o` is the offset in the block. A 64-bit register is read through its low word; the high word that reads return is the one
the latest read of the low word latched (R6). -/

/-- A 64-bit register of a block, at the offset of its low word. -/
def pair (o : Nat) (v : W64) (at_ : Nat) : W32 := if o = at_ then loW v else hiW v

/-- MC (R397). -/
def State.readMc (s : State) (o : Nat) : W32 :=
  match o with
  | 0x00 => packW [(0, 0xC0), (8, s.mc.fwMajor), (16, s.mc.fwMinor), (24, Config.romVersion.toNat)]
  | 0x04 => packW [(0, phaseCode s.mc.phase), (3, b2n s.ntAll), (4, b2n s.mm.replayed), (5, b2n s.allSwept),
      (6, b2n s.mc.imageDone), (7, b2n s.mc.noImage), (8, b2n s.rl.ftReady), (9, b2n s.mc.fcPath), (12, s.mc.entry)]
  | 0x08 => packW [(0, sat16 s.mc.marksMs), (16, sat16 s.mc.blocksMs)]
  | 0x0C => s.mc.event
  | 0x10 => packW [(0, s.mc.cause)]
  | 0x14 => packW [(0, b2n s.mc.recoveryNext)]
  | 0x18 => packW [(0, s.mc.entries), (16, satTo 0xFF s.mc.dropped)]
  | _ => 0

def pacerModeCode : PacerMode → Nat
  | .acquire => 0
  | .locked => 1
  | .freerun => 2

/-- PC (R376). -/
def State.readPc (s : State) (o : Nat) : W32 :=
  let p := s.pc
  match o with
  | 0x00 => packW [(0, pacerModeCode p.mode), (2, b2n (p.mode == .freerun)), (3, b2n s.bandActive), (4, b2n p.bandLost),
      (5, b2n p.thermalCeil.isSome), (6, b2n p.lowDemand), (7, b2n (p.msgVersion == 1))]
  | 0x04 => p.event
  | 0x08 | 0x0C => pair o (BitVec.ofNat 64 p.beat) 0x08
  | 0x10 | 0x14 => pair o p.facOffset 0x10
  | 0x18 | 0x1C => pair o (BitVec.ofNat 64 p.energyMJ) 0x18
  | 0x20 => packW [(0, p.periodNs % 2 ^ 23)]
  | 0x24 => packW [(0, p.nominalNs % 2 ^ 23)]
  | 0x28 => p.bandCtl
  | 0x2C => packW [(0, p.targetW % 2 ^ 13)]
  | 0x30 => packW [(0, p.tolW % 2 ^ 13)]
  | 0x34 => p.fillerEn
  | 0x38 => packW [(0, sat16 p.beatW), (16, sat16 p.ceilingW)]
  | 0x3C => packW [(0, p.cntFalse), (16, p.cntMiss)]
  | 0x40 => packW [(0, p.deferCnt)]
  | _ => if 0x100 ≤ o ∧ o < 0x140 then p.slots.getD ((o - 0x100) / 4) 0 else 0

/-- FL (R422). -/
def State.readFl (s : State) (o : Nat) : W32 :=
  let f := s.fl
  match o with
  | 0x00 => packW [(0, b2n f.fatalStands), (1, b2n (f.standing.any (fun x => x.record.cls == 1))),
      (2, b2n (decide (65536 < f.posted))), (3, b2n f.standingFull), (4, b2n s.clearBusy), (8, f.entries.length)]
  | 0x04 => f.event
  | 0x08 => packW [(8, f.clearSquad)]
  | 0x0C => packW [(0, f.result), (2, b2n f.done)]
  | 0x10 | 0x14 => pair o (BitVec.ofNat 64 f.posted) 0x10
  | 0x18 => packW [(0, f.corr)]
  | 0x1C => packW [(0, f.cont)]
  | 0x20 => packW [(0, f.fatal)]
  | 0x28 | 0x2C => pair o (BitVec.ofNat 64 ((s.fencedSquads.map (fun n => 2 ^ n)).sum)) 0x28
  | 0x30 => packW [(0, f.seqSel)]
  | 0x34 => packW [(0, (f.seqOf f.seqSel).1), (16, (f.seqOf f.seqSel).2)]
  | _ => 0

/-- A written value that waits reads back (R4). -/
def NsSquad.read (q : NsSquad) (k : Nat) : W32 :=
  match k with
  | 0 => q.cfgNext.getD q.cfg
  | 4 => q.uwrNext.getD q.uwrHi
  | 8 => q.ctlNext.getD q.ctl
  | 12 => BitVec.ofNat 32 q.cnt
  | _ => 0

/-- NS (R133): a step close takes no time in the model, so CLOSING reads 0. -/
def State.readNs (s : State) (o : Nat) : W32 :=
  let n := s.ns
  match o with
  | 0x00 => packW [(1, b2n (n.table.any (fun e => !e.2.waiting.isEmpty && !e.2.met))), (2, b2n (decide (65536 ≤ n.table.length)))]
  | 0x04 => packW [(0, n.table.length)]
  | 0x0C => n.event
  | 0x10 => packW [(0, n.satCnt), (16, n.underCnt)]
  | 0x14 => packW [(0, n.zeroCnt)]
  | 0x18 => packW [(0, n.calCnt)]
  | 0x20 => n.lookup
  | _ =>
    if 0x24 ≤ o ∧ o < 0x40 then n.lookupWords.getD ((o - 0x24) / 4) 0
    else if 0x100 ≤ o ∧ o < 0x500 then (s.nsSq ((o - 0x100) / 16)).read (o % 16)
    else 0

/-- SL_STATUS.PHASE: 0 IDLE, 1 VERIFY, 2 DRAIN, 3 APPLY (R53). -/
def Sl.phase (l : Sl) : Nat :=
  match l.load with
  | some x => (match x.step with
    | .verify => 1
    | .drain => 2
    | .sweep => 3)
  | none => if l.retire.isSome then 2 else 0

def squadStateCode : SquadState → Nat
  | .starting => 1
  | .active => 2
  | .draining => 3
  | .fenced => 4

/-- SL_SQUAD_STATE (R53). -/
def State.squadWord (s : State) (n : Nat) : W32 :=
  match s.squadOf n with
  | none => 0
  | some q => packW [(0, squadStateCode q.state), (8, q.tiles.length), (20, q.func)]

/-- SL (R53). -/
def State.readSl (s : State) (o : Nat) : W32 :=
  let l := s.sl
  match o with
  | 0x00 => packW [(0, l.phase), (3, b2n l.persist.isSome), (4, b2n l.drainSlow), (8, l.lastResult)]
  | 0x04 => packW [(0, l.gen)]
  | 0x08 | 0x0C => pair o l.imageId 0x08
  | 0x10 => packW [(0, l.format), (8, l.set_.squads.length)]
  | 0x14 => packW [(0, l.stageLen)]
  | 0x18 => packW [(0, l.loadCode), (8, l.loadSect), (12, l.loadEntry)]
  | 0x1C => packW [(0, l.timeout)]
  | 0x20 => l.event
  | _ => if 0x100 ≤ o ∧ o < 0x200 then s.squadWord ((o - 0x100) / 4) else 0

/-- Entries of the directory; none until it is rebuilt (R5, R396). -/
def Rl.dirCount (r : Rl) : Nat := if r.ftReady then r.dir.length else 0

/-- RL (R175). -/
def State.readRl (s : State) (o : Nat) : W32 :=
  let r := s.rl
  match o with
  | 0x00 => packW [(0, ((r.ntReady.dedup.filter (fun k => k < 16)).map (fun k => 2 ^ k)).sum), (16, b2n r.ftReady),
      (17, b2n (decide (262144 ≤ r.dirCount)))]
  | 0x04 => packW [(0, r.dirCount)]
  | 0x08 => packW [(0, r.ftShare)]
  | 0x0C => r.event
  | 0x10 => packW [(0, r.lateCnt), (16, r.overCnt)]
  | 0x18 | 0x1C => pair o (BitVec.ofNat 64 r.ftBytes) 0x18
  | 0x20 => r.lookup
  | 0x24 => r.lookupWords.getD 0 0
  | 0x28 => r.lookupWords.getD 1 0
  | 0x2C => r.lookupWords.getD 2 0
  | 0x30 => r.lookupWords.getD 3 0
  | 0x38 => r.lookupWords.getD 4 0
  | 0x3C => r.lookupWords.getD 5 0
  | 0x40 => r.lookupWords.getD 6 0
  | 0x44 => r.lookupWords.getD 7 0
  | 0x200 => packW [(0, r.probeAddr)]
  | 0x234 => r.probeBits ||| packW [(0, b2n r.probeDone)]
  | _ =>
    if 0x100 ≤ o ∧ o < 0x140 then packW [(0, r.corr.findD ((o - 0x100) / 4) 0)]
    else if 0x140 ≤ o ∧ o < 0x180 then packW [(0, r.uncorr.findD ((o - 0x140) / 4) 0)]
    else if 0x210 ≤ o ∧ o < 0x230 then r.probeData.getD ((o - 0x210) / 4) 0
    else 0

/-- JD_MODEL_STATE, _SEQ, _KV and _KVTOTAL of slot `m` (R311). -/
def State.modelWord (s : State) (m k : Nat) : W32 :=
  match s.model m with
  | none => 0
  | some x =>
    match k with
    | 0 => packW [(0, 1), (1, b2n x.bound), (8, x.squad), (16, x.cap)]
    | 4 => packW [(0, ((s.seqsOf m).filter (fun e => !e.2.pages.isEmpty)).length), (16, x.queue.length)]
    | 8 => packW [(0, ((s.jd.pools.find x.kvRegion).map KvPool.atPlan).getD 0)]
    | 12 => packW [(0, ((s.jd.pools.find x.kvRegion).map KvPool.total).getD 0)]
    | _ => 0

/-- JD (R311): a registration takes no time in the model, so BUSY reads 0. -/
def State.readJd (s : State) (o : Nat) : W32 :=
  let j := s.jd
  match o with
  | 0x00 => packW [(0, j.seqs.length), (15, b2n (decide (maxSequences ≤ j.seqs.length)))]
  | 0x04 => j.event
  | 0x08 => packW [(0, j.recallCnt)]
  | 0x0C => packW [(0, j.preemptCnt)]
  | 0x10 | 0x14 => pair o j.modelAddr 0x10
  | 0x18 => packW [(0, j.modelSlot), (8, b2n j.modelOp)]
  | 0x1C => packW [(8, j.modelCode)]
  | 0x20 => j.splitSel
  | _ =>
    if 0x40 ≤ o ∧ o < 0x60 then j.splitData.getD ((o - 0x40) / 4) 0
    else if 0x100 ≤ o ∧ o < 0x500 then s.modelWord ((o - 0x100) / 16) (o % 16)
    else 0

/-- QE (R344): a flush takes no time in the model, so FLUSH_BUSY reads 0. -/
def State.readQe (s : State) (o : Nat) : W32 :=
  let q := s.qe
  match o with
  | 0x00 => packW [(0, q.fetched.length), (17, b2n (!q.held.isEmpty)), (18, q.ps), (21, b2n s.apstHeld), (22, b2n (bitW q.p2pCfg 31))]
  | 0x04 => q.event
  | 0x08 => packW [(0, q.locksUsed), (16, sat16 q.held.length)]
  | 0x0C => packW [(0, q.rlWait)]
  | 0x10 => q.p2pCfg
  | 0x18 | 0x1C => pair o q.p2pBase 0x18
  | 0x24 => packW [(0, q.p2pOpen.length)]
  | 0x28 => packW [(0, q.p2pDiscard)]
  | 0x30 => packW [(0, q.versions.cmdset), (8, q.versions.image), (16, q.versions.result), (24, q.versions.index)]
  | _ => 0

/-- MM (R215). A read of MM_FLASH_TEMP clears PEAK: the command MM_FLASH_TEMP_READ. -/
def State.readMm (s : State) (o : Nat) : W32 :=
  let m := s.mm
  match o with
  | 0x00 => packW [(0, b2n m.replayed), (1, b2n m.paced), (2, b2n m.landingFull), (3, b2n (decide (poolCopies ≤ m.pool.length))),
      (4, b2n (m.throttle != 0)), (5, b2n m.spareLowNow), (6, b2n m.anyReadOnly), (7, m.band)]
  | 0x04 => m.event
  | 0x08 | 0x0C => pair o (BitVec.ofNat 64 m.epoch) 0x08
  | 0x10 | 0x14 => pair o (BitVec.ofNat 64 s.snapFloor) 0x10
  | 0x18 => packW [(0, m.pool.length)]
  | 0x1C => packW [(0, s.liveSnaps.length)]
  | 0x20 => packW [(0, m.fillPermille), (16, m.index.length * 1000 / idxEntries)]
  | 0x24 => m.landingCfg
  | 0x28 => packW [(0, m.tempA), (8, m.tempB), (16, m.peak)]
  | 0x2C => m.scrubCfg
  | 0x30 => m.gcCfg
  | 0x34 => m.wlCfg
  | 0x38 => packW [(0, m.spareMin.1), (16, m.spareMin.2)]
  | 0x40 => packW [(0, m.retryCnt)]
  | 0x44 => packW [(0, m.exhaustCnt)]
  | 0x48 => packW [(0, m.rebuildCnt)]
  | 0x4C => packW [(0, m.uncorrCnt)]
  | 0x50 | 0x54 => pair o (BitVec.ofNat 64 m.hostWritten) 0x50
  | 0x58 | 0x5C => pair o (BitVec.ofNat 64 m.mediaWritten) 0x58
  | 0x60 => packW [(0, sat16 m.replayMs), (16, b2n m.clean)]
  | _ => 0

/-- Every block is reserved and the current block is used up, or none is held (SE_STATUS.LEAVES_OUT). -/
def State.leavesOut (s : State) : Bool :=
  s.sw.blocksLeft == 0 && (match s.se.block with
    | none => true
    | some b => decide (1024 ≤ b.2))

/-- SE (R464): a key request takes no time in the model, so KEY_BUSY reads 0. -/
def State.readSe (s : State) (o : Nat) : W32 :=
  let e := s.se
  match o with
  | 0x00 => packW [(0, b2n (!s.sw.ownerKeys.isEmpty)), (1, b2n e.topReady), (2, b2n e.attesting), (4, b2n e.commit.isSome),
      (5, b2n (decide (s.sw.blocksLeft < 64))), (6, b2n s.leavesOut)]
  | 0x04 => e.event
  | 0x30 => match e.block with
    | none => 0
    | some b => packW [(0, b.2), (20, 1)]
  | 0x34 => packW [(0, s.sw.blocksLeft)]
  | 0x60 | 0x64 => pair o e.evAddr 0x60
  | 0x6C => packW [(0, b2n e.attesting), (8, e.attCode)]
  | 0x70 | 0x74 => pair o e.keyAddr 0x70
  | 0x7C => packW [(8, e.keyCode)]
  | 0x80 => packW [(0, ((s.sw.ownerKeys.keys.filter (fun k => k < 4)).map (fun k => 2 ^ k)).sum), (4, s.sw.keySlotsUsed)]
  | 0xC0 => packW [(0, e.failCnt)]
  | _ =>
    if 0x10 ≤ o ∧ o < 0x30 then BitVec.ofNat 32 (u32At e.identity (o - 0x10))
    else if 0x40 ≤ o ∧ o < 0x60 then e.nonce.getD ((o - 0x40) / 4) 0
    else if 0xA0 ≤ o ∧ o < 0xC0 then BitVec.ofNat 32 (u32At e.measure (o - 0xA0))
    else 0

/-- SW_PROTECT[i] (R431). -/
def Sw.protectWord (w : Sw) (i : Nat) : W32 :=
  packW ((List.range 32).map (fun b => (b, b2n (decide (32 * i + b < sectorCount) && w.protected (32 * i + b)))))

/-- SW (R442): a grant takes no time in the model, so its BUSY reads 0. -/
def State.readSw (s : State) (o : Nat) : W32 :=
  let w := s.sw
  match o with
  | 0x00 => w.bits ||| packW [(0, b2n w.busy), (6, b2n w.ident), (7, b2n w.queued.isSome), (8, w.pulses)]
  | 0x04 => w.event
  | 0x08 => w.last
  | 0x0C => packW [(0, w.pulseCnt)]
  | 0x10 => packW [(0, w.pfailCnt), (16, w.efailCnt)]
  | 0x14 => packW [(0, w.pulseMax), (16, w.pulseSect)]
  | 0x18 | 0x1C => pair o w.grantAddr 0x18
  | 0x24 => packW [(8, w.grantCode)]
  | 0x28 | 0x2C => pair o (BitVec.ofNat 64 w.grantCounter) 0x28
  | _ => if 0x100 ≤ o ∧ o < 0x204 then (if o < 0x200 then w.protectWord ((o - 0x100) / 4)
      else if o = 0x200 then w.protectWord 64 else 0) else 0

/-- EM (R79, R154). -/
def State.readEm (s : State) (o : Nat) : W32 :=
  if o < 0x1000 then (s.tile (o / 4)).flip
  else if o < 0x1040 then s.rl.flipMask.findD ((o - 0x1000) / 4) 0
  else if o < 0x1080 then s.rl.flipLast.findD ((o - 0x1040) / 4) 0
  else 0

def LatchState.code : LatchState → Nat
  | .empty => 0
  | .filling => 1
  | .full => 2

/-- TILE_STATUS.POWER: a squad's tile is ACTIVE once swept, else SWEEPING; every other tile is in retention, and in PS2
and below every tile is (R335). -/
def State.tilePower (s : State) (t : Tile) : Nat :=
  if t.squad.isNone || 2 ≤ s.qe.ps then 0 else if t.swept then 1 else 2

/-- An issued op of the tile reads latch `l` (R71). -/
def Tile.readsLatch (t : Tile) (l : Nat) : Bool := t.flight.any (fun f => opLatch f.desc == some l)

def bitMap (l : List Nat) : W32 := BitVec.ofNat 32 ((l.dedup.map (fun i => 2 ^ i)).sum)

/-- The window of tile `n` (R77). TILE_LM_RDATA is read by the command TILE_LM_RDATA. -/
def State.readTile (s : State) (n o : Nat) : W32 :=
  let t := s.tile n
  match o with
  | 0x00 => packW [(0, n), (16, s.mc.fuse.phys.getD n 0)]
  | 0x04 => packW [(0, s.tilePower t), (2, b2n t.swept), (3, b2n t.squad.isSome), (4, t.squad.getD 0), (10, b2n t.halted)]
  | 0x08 => packW [(0, t.queue.length), (10, t.nextIdx), (19, b2n (!t.flight.isEmpty))]
  | 0x0C => packW [(0, (t.latches.getD 0 Latch.reset).state.code), (2, (t.latches.getD 1 Latch.reset).state.code),
      (4, b2n (t.readsLatch 0)), (5, b2n (t.readsLatch 1))]
  | 0x10 => bitMap ((t.ctxs.filter (fun e => e.2.state != 0)).map Prod.fst)
  | 0x14 => bitMap ((t.ctxs.filter (fun e => e.2.state == 3)).map Prod.fst)
  | 0x18 => bitMap ((List.range 16).filter (fun i => t.sems.getD i 0 != 0))
  | 0x20 => packW [(0, t.corrCnt)]
  | 0x24 => packW [(0, t.uncorrCnt)]
  | 0x28 => t.eccLast
  | 0x30 | 0x34 => pair o (BitVec.ofNat 64 t.stall) 0x30
  | 0x40 => packW [(0, t.lmAddr)]
  | 0x4C => t.lmStatus
  | 0x50 => (s.mc.fuse.spare.findD n 0).setWidth 32
  | _ =>
    if 0x100 ≤ o ∧ o < 0x200 then t.amax.getD ((o - 0x100) / 4) 0
    else if 0x200 ≤ o ∧ o < 0x300 then t.scale.getD ((o - 0x200) / 4) 0
    else 0

/-- LP (R356). -/
def State.readLp (s : State) (o : Nat) : W32 :=
  let l := s.lp
  match o with
  | 0x00 => 0x0104
  | 0x04 => packW [(0, b2n l.enable)]
  | 0x08 => packW [(0, b2n s.inBlocks), (1, b2n s.fl.fatalStands), (8, l.tags)]
  | 0x10 => packW [(0, l.reqProd)]
  | 0x14 => packW [(0, l.reqCons)]
  | 0x18 => packW [(0, l.rplProd)]
  | 0x1C => packW [(0, l.rplCons)]
  | 0x20 => packW [(0, l.timeout)]
  | 0x24 => l.event
  | 0x28 => packW [(0, l.protoCnt)]
  | 0x2C => packW [(0, l.falseCnt)]
  | _ => if 0x100 ≤ o ∧ o < 0x140 then l.volMap.getD ((o - 0x100) / 4) 0 else 0

/-- The vendor block at an offset of function 0 BAR0, read now. -/
def State.readBlock (s : State) (off : Nat) : W32 :=
  let o := off % 0x10000
  if 0x1000000 ≤ off then s.readTile ((off - 0x1000000) / 0x4000) (off % 0x4000)
  else match blockOf off with
    | 0x10 => s.readMc o
    | 0x11 => s.readPc o
    | 0x12 => s.readFl o
    | 0x13 => s.readNs o
    | 0x14 => s.readSl o
    | 0x15 => s.readRl o
    | 0x16 => s.readJd o
    | 0x17 => s.readQe o
    | 0x18 => s.readMm o
    | 0x19 => s.readSe o
    | 0x1A => s.readSw o
    | 0x1B => s.readEm o
    | _ => 0

/-- The 64-bit registers of function 0's vendor blocks, by the offset of the low word. -/
def lowWords : List Nat :=
  [0x110008, 0x110010, 0x110018, 0x120010, 0x120028, 0x140008, 0x150018, 0x150038, 0x150040, 0x160010, 0x170018,
   0x180008, 0x180010, 0x180050, 0x180058, 0x190060, 0x190070, 0x1A0018, 0x1A0028]

/-- The low word of a 64-bit register lies at `off`: in a block, or TILE_STALL of a tile window. -/
def isLow (off : Nat) : Bool :=
  lowWords.contains off || (0x1000000 ≤ off && off < 0x2000000 && off % 0x4000 == 0x30)

/-- A vendor word as an aligned 32-bit read of function 0 BAR0 returns it: the latched word where the high word of a
64-bit register has been latched (R6), 0 where nothing answers (R383). -/
def State.readVendor (s : State) (off : Nat) : W32 :=
  if !s.answers off then 0
  else match (if isLow (off - 4) then s.latchHi.find off else none) with
    | some w => w
    | none => s.readBlock off

/-- A 32-bit read of a register (R4, R6, R7, R383). Reads with an effect are commands of their own. -/
def State.readReg (s : State) (a : BarAddr) : W32 :=
  if a.off % 4 ≠ 0 then 0
  else if a.fn = 0 ∧ a.bar = 0 then
    (if isVendor a.off then s.readVendor a.off else if a.off < 0x1000 && s.linkUp then s.readNvme a.off else 0)
  else if a.fn = 1 ∧ a.bar = 0 then
    (if !s.vendorLive then 0 else if a.off < 0x1000 then s.readLp a.off
      else if a.off < 0x100000 then BitVec.ofNat 32 (u32At (readCells 0 s.lp.ring a.off 4) 0) else 0)
  else 0

/-- What a read of `len` bytes returns: in the vendor blocks 0 but for an aligned 32-bit read (R6); elsewhere word by word, the
rings of function 1 byte by byte (R345). -/
def State.hostRead (s : State) (a : BarAddr) (len : Nat) : List Byte :=
  let ring := a.fn = 1 ∧ a.bar = 0 ∧ 0x1000 ≤ a.off ∧ a.off + len ≤ 0x100000
  if ring then (if s.vendorLive then readCells 0 s.lp.ring a.off len else List.replicate len 0)
  else if a.off % 4 ≠ 0 ∨ len % 4 ≠ 0 ∨ ((isVendor a.off || a.fn = 1) ∧ len ≠ 4) then List.replicate len 0
  else (List.range (len / 4)).flatMap (fun i => leBytes (s.readReg { a with off := a.off + 4 * i }).toNat 4)

/-- The identity a function shows in configuration space (R2): vendor, device, revision and class code, at the places of a PCI
type 0 header (PRESUMED: the spec gives none). -/
def pciIdentity (fn : Nat) : List Byte :=
  leBytes 0x1F2C 2 ++ leBytes (if fn = 0 then 0x7040 else 0x7041) 2 ++ leBytes 0 4
    ++ [0xC0] ++ (if fn = 0 then [0x02, 0x08, 0x01] else [0x00, 0x80, 0x01])

/-- REG64_LOW_READ (R6): the low word is returned and the high word latched. -/
def execReg64LowRead (a : BarAddr) (s : State) : Host.Outcome State Fault Refusal :=
  done (if a.fn = 0 ∧ a.bar = 0 ∧ isLow a.off = true then
      (if s.answers a.off then
        { s with busRead := s.hostRead a 4, latchHi := s.latchHi.put (a.off + 4) (s.readBlock (a.off + 4)) }
       else { s with busRead := leBytes 0 4 })
    else s)

/-! ## Writes to registers with no row of their own (R4) -/

/-- NVMe registers: INTMS, INTMC, CC but for EN and SHN, AQA, ASQ and ACQ (PRESUMED offsets; R312). -/
def State.writeNvme (s : State) (o : Nat) (v : W32) : State :=
  let q := s.qe
  match o with
  | 0x0C => { s with qe := { q with intMask := q.intMask ||| v } }
  | 0x10 => { s with qe := { q with intMask := q.intMask &&& ~~~v } }
  | 0x14 => { s with qe := { q with cc := rwBits q.cc 0x00FF3FF0 v } }
  | 0x24 => { s with qe := { q with aqa := v &&& 0x0FFF0FFF } }
  | 0x28 => { s with qe := { q with asq := putLo q.asq (v &&& 0xFFFFF000) } }
  | 0x2C => { s with qe := { q with asq := putHi q.asq v } }
  | 0x30 => { s with qe := { q with acq := putLo q.acq (v &&& 0xFFFFF000) } }
  | 0x34 => { s with qe := { q with acq := putHi q.acq v } }
  | _ => s

/-- MC (R397): MC_EVENT, MC_CTL. -/
def State.writeMc (s : State) (o : Nat) (v : W32) : State :=
  match o with
  | 0x0C => { s with mc := { s.mc with event := rw1c s.mc.event 0xF v } }
  | 0x14 => { s with mc := { s.mc with recoveryNext := bitW v 0 } }
  | _ => s

/-- PC_BAND_CTL as written: settling begins when the band turns on (R371). -/
def Pacer.writeBand (p : Pacer) (v : W32) : Pacer :=
  let q := { p with bandCtl := v &&& 0xFFFFFF03 }
  if bitW v 0 then (if p.bandOn then q else q.settleBand) else q

/-- PC (R376). -/
def Pacer.write (p : Pacer) (o : Nat) (v : W32) : Pacer :=
  match o with
  | 0x04 => { p with event := rw1c p.event 0x1F v }
  | 0x24 => { p with nominalNs := bitsW v 22 0 }
  | 0x28 => p.writeBand v
  | 0x2C => if p.targetW = bitsW v 12 0 then p else ({ p with targetW := bitsW v 12 0 } : Pacer).settleBand
  | 0x30 => if p.tolW = bitsW v 12 0 then p else ({ p with tolW := bitsW v 12 0 } : Pacer).settleBand
  | 0x34 => { p with fillerEn := v &&& 0x3F }
  | _ => if 0x100 ≤ o ∧ o < 0x140 then { p with slots := p.slots.set ((o - 0x100) / 4) (v &&& 0xFF) } else p

/-- FL (R422): FL_EVENT, FL_CLEAR with no scope bit, FL_SEQ_SEL. -/
def State.writeFl (s : State) (o : Nat) (v : W32) : State :=
  match o with
  | 0x04 => { s with fl := { s.fl with event := rw1c s.fl.event 0x1F v } }
  | 0x08 => if s.clearBusy || bitsW v 2 0 != 0 then s else { s with fl := { s.fl with done := false, clearSquad := bitsW v 13 8 } }
  | 0x30 => { s with fl := { s.fl with seqSel := bitsW v 11 0 } }
  | _ => s

/-- NS (R133): NS_EVENT, and the squad registers, which wait for their moment. -/
def State.writeNs (s : State) (o : Nat) (v : W32) : State :=
  if o = 0x0C then { s with ns := { s.ns with event := rw1c s.ns.event 0x3F v } }
  else if 0x100 ≤ o ∧ o < 0x500 then
    let n := (o - 0x100) / 16
    match o % 16 with
    | 0 => s.onNsSq n (fun q => { q with cfgNext := some (v &&& 0x001F077F) })
    | 4 => s.onNsSq n (fun q => { q with uwrNext := some v })
    | 8 => s.onNsSq n (fun q => { q with ctlNext := some (v &&& 3) })
    | _ => s
  else s

/-- SL (R53): SL_DRAIN_TIMEOUT, SL_EVENT. -/
def State.writeSl (s : State) (o : Nat) (v : W32) : State :=
  match o with
  | 0x1C => { s with sl := { s.sl with timeout := bitsW v 15 0 } }
  | 0x20 => { s with sl := { s.sl with event := rw1c s.sl.event 0x3F v } }
  | _ => s

/-- RL (R175): RL_FT_SHARE, RL_EVENT and the probe registers. -/
def Rl.write (r : Rl) (o : Nat) (v : W32) : Rl :=
  match o with
  | 0x08 => { r with ftShare := bitsW v 8 0 }
  | 0x0C => { r with event := rw1c r.event 0x1F v }
  | 0x200 => { r with probeAddr := bitsW v 15 0 / 32 * 32 }
  | 0x234 => { r with probeBits := rw1c r.probeBits 0xE v }
  | _ => if 0x210 ≤ o ∧ o < 0x230 then { r with probeData := r.probeData.set ((o - 0x210) / 4) v } else r

/-- JD (R311): JD_EVENT, JD_MODEL_ADDR. -/
def Jd.write (j : Jd) (o : Nat) (v : W32) : Jd :=
  match o with
  | 0x04 => { j with event := rw1c j.event 0x1F v }
  | 0x10 => { j with modelAddr := putLo j.modelAddr (v &&& 0xFFFFFFC0) }
  | 0x14 => { j with modelAddr := putHi j.modelAddr v }
  | _ => j

/-- MM (R215): MM_EVENT and the four configuration registers. -/
def Mm.write (m : Mm) (o : Nat) (v : W32) : Mm :=
  match o with
  | 0x04 => { m with event := rw1c m.event 0x7F v }
  | 0x24 => ({ m with landingCfg := v &&& 0x3FF } : Mm).repace
  | 0x2C => { m with scrubCfg := v &&& 0x3FF1F }
  | 0x30 => { m with gcCfg := v }
  | 0x34 => { m with wlCfg := v &&& 0xFFFF }
  | _ => m

/-- SE (R464): SE_EVENT, SE_NONCE, SE_EVIDENCE_ADDR, SE_KEY_ADDR. -/
def Se.write (e : Se) (o : Nat) (v : W32) : Se :=
  match o with
  | 0x04 => { e with event := rw1c e.event 0x1F v }
  | 0x60 => { e with evAddr := putLo e.evAddr (v &&& 0xFFFFFFC0) }
  | 0x64 => { e with evAddr := putHi e.evAddr v }
  | 0x70 => { e with keyAddr := putLo e.keyAddr (v &&& 0xFFFFFFC0) }
  | 0x74 => { e with keyAddr := putHi e.keyAddr v }
  | _ => if 0x40 ≤ o ∧ o < 0x60 then { e with nonce := e.nonce.set ((o - 0x40) / 4) v } else e

/-- SW (R442): SW_EVENT, SW_GRANT_ADDR. -/
def Sw.write (w : Sw) (o : Nat) (v : W32) : Sw :=
  match o with
  | 0x04 => { w with event := rw1c w.event 0xFF v }
  | 0x18 => { w with grantAddr := putLo w.grantAddr (v &&& 0xFFFFFFC0) }
  | 0x1C => { w with grantAddr := putHi w.grantAddr v }
  | _ => w

/-- EM (R79, R154). -/
def State.writeEm (s : State) (o : Nat) (v : W32) : State :=
  if o < 0x1000 then s.setTile (o / 4) { s.tile (o / 4) with flip := v &&& 0x1FFF }
  else if o < 0x1040 then { s with rl := { s.rl with flipMask := s.rl.flipMask.put ((o - 0x1000) / 4) (v &&& 0x1FFFFFFF) } }
  else s

/-- The window of tile `n` (R77): TILE_LM_ADDR, TILE_LM_STATUS. -/
def State.writeTile (s : State) (n o : Nat) (v : W32) : State :=
  let t := s.tile n
  match o with
  | 0x40 => s.setTile n (if t.portOpen then { t with lmAddr := bitsW v 20 0 } else { t with lmStatus := setEv t.lmStatus 2 })
  | 0x4C => s.setTile n { t with lmStatus := rw1c t.lmStatus 7 v }
  | _ => s

/-- An aligned 32-bit write to a vendor word of function 0 BAR0 (R4, R6). -/
def State.writeVendor (s : State) (off : Nat) (v : W32) : State :=
  let o := off % 0x10000
  if 0x1000000 ≤ off then s.writeTile ((off - 0x1000000) / 0x4000) (off % 0x4000) v
  else match blockOf off with
    | 0x10 => s.writeMc o v
    | 0x11 => { s with pc := s.pc.write o v }
    | 0x12 => s.writeFl o v
    | 0x13 => s.writeNs o v
    | 0x14 => s.writeSl o v
    | 0x15 => { s with rl := s.rl.write o v }
    | 0x16 => { s with jd := s.jd.write o v }
    | 0x17 => if o = 4 then { s with qe := { s.qe with event := rw1c s.qe.event 0xF v } } else s
    | 0x18 => { s with mm := s.mm.write o v }
    | 0x19 => { s with se := s.se.write o v }
    | 0x1A => { s with sw := s.sw.write o v }
    | 0x1B => s.writeEm o v
    | _ => s

/-- LP registers (R356): LP_CTL.ENABLE, LP_XFER_TIMEOUT, LP_EVENT. -/
def Lp.write (l : Lp) (o : Nat) (v : W32) : Lp :=
  match o with
  | 0x04 => if bitW v 1 then l else { l with enable := bitW v 0 }
  | 0x20 => { l with timeout := bitsW v 15 0 }
  | 0x24 => { l with event := rw1c l.event 7 v }
  | _ => l

/-- A write to function 1 BAR0: the registers as 32-bit words, ring cells in any size and alignment (R345). -/
def State.writeF1 (s : State) (off : Nat) (data : List Byte) : State :=
  if off < 0x1000 then
    (if data.length = 4 ∧ off % 4 = 0 then { s with lp := s.lp.write off (BitVec.ofNat 32 (u32At data 0)) } else s)
  else if off + data.length ≤ 0x100000 then { s with lp := { s.lp with ring := writeCells 0 s.lp.ring off data } }
  else s

/-- A write to function 0 BAR0: vendor words take aligned 32-bit writes only (R6), NVMe registers 32-bit and 64-bit ones. -/
def State.writeF0 (s : State) (off : Nat) (data : List Byte) : State :=
  let v := BitVec.ofNat 32 (u32At data 0)
  if isVendor off then
    (if data.length = 4 ∧ off % 4 = 0 ∧ s.answers off = true then s.writeVendor off v else s)
  else if off < 0x1000 ∧ s.linkUp = true then
    (if data.length = 4 ∧ off % 4 = 0 then s.writeNvme off v
     else if data.length = 8 ∧ off % 8 = 0 then (s.writeNvme off v).writeNvme (off + 4) (BitVec.ofNat 32 (u32At data 4))
     else s)
  else s

/-- REGISTER_WRITE (R4, R6, R7, R345, R383): `data` is written to registers with no row of their own. -/
def execRegisterWrite (a : BarAddr) (data : List Byte) (s : State) : Host.Outcome State Fault Refusal :=
  done (if a.fn = 0 ∧ a.bar = 0 then s.writeF0 a.off data
    else if a.fn = 1 ∧ a.bar = 0 ∧ s.vendorLive = true then s.writeF1 a.off data
    else s)

end Sys2Proof.Machine
end

