-- ==== Sys2Proof/Machine/Dispatch.lean ====
section
/-! DEFINITION. The arms of `exec`: one direct call of a meaning for each command. -/

namespace Sys2Proof.Machine

open Sys2Proof

def exec (i : Instr) (s : State) : Host.Outcome State Fault Refusal :=
  match i with
  | .vinAccepted v10mV => Sys2Proof.Machine.execVinAccepted v10mV s
  | .holdUpBankCharged => Sys2Proof.Machine.execHoldUpBankCharged s
  | .inputOutOfRange v10mV => Sys2Proof.Machine.execInputOutOfRange v10mV s
  | .powerFail v10mV => Sys2Proof.Machine.execPowerFail v10mV s
  | .powerFailRailsOff => Sys2Proof.Machine.execPowerFailRailsOff s
  | .modEnAssert => Sys2Proof.Machine.execModEnAssert s
  | .modEnDeassert => Sys2Proof.Machine.execModEnDeassert s
  | .railFault rail kind v10mV => Sys2Proof.Machine.execRailFault rail kind v10mV s
  | .perstAssert => Sys2Proof.Machine.execPerstAssert s
  | .perstDeassert => Sys2Proof.Machine.execPerstDeassert s
  | .fuseReadDone map => Sys2Proof.Machine.execFuseReadDone map s
  | .panelPowerDone => Sys2Proof.Machine.execPanelPowerDone s
  | .settingsStoreReadDone fwSigOk bootSigOk => Sys2Proof.Machine.execSettingsStoreReadDone fwSigOk bootSigOk s
  | .enterBlocks ms => Sys2Proof.Machine.execEnterBlocks ms s
  | .dramTrainingDone stack ok => Sys2Proof.Machine.execDramTrainingDone stack ok s
  | .ntSweepDone stack => Sys2Proof.Machine.execNtSweepDone stack s
  | .bootImageApply => Sys2Proof.Machine.execBootImageApply s
  | .mapReplayDone ms => Sys2Proof.Machine.execMapReplayDone ms s
  | .directoryRebuildDone => Sys2Proof.Machine.execDirectoryRebuildDone s
  | .fcPathPrimed => Sys2Proof.Machine.execFcPathPrimed s
  | .enterGo ms => Sys2Proof.Machine.execEnterGo ms s
  | .ps4Exit => Sys2Proof.Machine.execPs4Exit s
  | .beatEdge highNs sinceBoundary sinceEdge => Sys2Proof.Machine.execBeatEdge highNs sinceBoundary sinceEdge s
  | .missedBeat => Sys2Proof.Machine.execMissedBeat s
  | .freerunEntry => Sys2Proof.Machine.execFreerunEntry s
  | .freerunBoundary => Sys2Proof.Machine.execFreerunBoundary s
  | .beatBoundary b => Sys2Proof.Machine.execBeatBoundary b s
  | .setpoint endpoint body => Sys2Proof.Machine.execSetpoint endpoint body s
  | .period endpoint body => Sys2Proof.Machine.execPeriod endpoint body s
  | .setpointTakeEffect => Sys2Proof.Machine.execSetpointTakeEffect s
  | .reportTimer => Sys2Proof.Machine.execReportTimer s
  | .thermalTrigger sensor temp => Sys2Proof.Machine.execThermalTrigger sensor temp s
  | .thermalCeilingEnd temps => Sys2Proof.Machine.execThermalCeilingEnd temps s
  | .thermalShutdown sensor temp => Sys2Proof.Machine.execThermalShutdown sensor temp s
  | .outletAlert temp => Sys2Proof.Machine.execOutletAlert temp s
  | .dramHotRefresh stack temp => Sys2Proof.Machine.execDramHotRefresh stack temp s
  | .flashThrottle board temp => Sys2Proof.Machine.execFlashThrottle board temp s
  | .flashThrottleEnd tempA tempB => Sys2Proof.Machine.execFlashThrottleEnd tempA tempB s
  | .flashBandChange tempA tempB => Sys2Proof.Machine.execFlashBandChange tempA tempB s
  | .sqTailDoorbell sq tail => Sys2Proof.Machine.execSqTailDoorbell sq tail s
  | .cqHeadDoorbell cq head => Sys2Proof.Machine.execCqHeadDoorbell cq head s
  | .controllerEnable => Sys2Proof.Machine.execControllerEnable s
  | .controllerReset => Sys2Proof.Machine.execControllerReset s
  | .flrFunction0 => Sys2Proof.Machine.execFlrFunction0 s
  | .flrFunction1 => Sys2Proof.Machine.execFlrFunction1 s
  | .hlPcieError fn bit => Sys2Proof.Machine.execHlPcieError fn bit s
  | .dataTransferError c addr => Sys2Proof.Machine.execDataTransferError c addr s
  | .createIoSq c sqid size prio cqid pc => Sys2Proof.Machine.execCreateIoSq c sqid size prio cqid pc s
  | .createIoCq c cqid size vector ien pc => Sys2Proof.Machine.execCreateIoCq c cqid size vector ien pc s
  | .deleteIoSq c sqid => Sys2Proof.Machine.execDeleteIoSq c sqid s
  | .deleteIoCq c cqid => Sys2Proof.Machine.execDeleteIoCq c cqid s
  | .identify c cns nsid => Sys2Proof.Machine.execIdentify c cns nsid s
  | .getLogPage c page lsf rae offset len => Sys2Proof.Machine.execGetLogPage c page lsf rae offset len s
  | .abort c sqid cid => Sys2Proof.Machine.execAbort c sqid cid s
  | .setFeatures c fid value data => Sys2Proof.Machine.execSetFeatures c fid value data s
  | .setFeaturesPowerManagement c ps => Sys2Proof.Machine.execSetFeaturesPowerManagement c ps s
  | .getFeatures c ask => Sys2Proof.Machine.execGetFeatures c ask s
  | .asyncEventRequest c => Sys2Proof.Machine.execAsyncEventRequest c s
  | .namespaceCreate c nsze ncap => Sys2Proof.Machine.execNamespaceCreate c nsze ncap s
  | .namespaceDelete c nsid => Sys2Proof.Machine.execNamespaceDelete c nsid s
  | .namespaceAttachment c nsid attach ctrl => Sys2Proof.Machine.execNamespaceAttachment c nsid attach ctrl s
  | .formatNvm c nsid => Sys2Proof.Machine.execFormatNvm c nsid s
  | .formatNvmCryptoErase c nsid ses => Sys2Proof.Machine.execFormatNvmCryptoErase c nsid ses s
  | .firmwareImageDownload c offset data => Sys2Proof.Machine.execFirmwareImageDownload c offset data s
  | .firmwareCommit c slot action sigOk writes => Sys2Proof.Machine.execFirmwareCommit c slot action sigOk writes s
  | .firmwareCommitDone ok writes => Sys2Proof.Machine.execFirmwareCommitDone ok writes s
  | .read c nsid slba len => Sys2Proof.Machine.execRead c nsid slba len s
  | .write c nsid slba nlb data => Sys2Proof.Machine.execWrite c nsid slba nlb data s
  | .writeZeroes c nsid slba nlb deac => Sys2Proof.Machine.execWriteZeroes c nsid slba nlb deac s
  | .datasetManagementDeallocate c nsid ranges => Sys2Proof.Machine.execDatasetManagementDeallocate c nsid ranges s
  | .verify c nsid slba len => Sys2Proof.Machine.execVerify c nsid slba len s
  | .flush c nsid => Sys2Proof.Machine.execFlush c nsid s
  | .rangeLockGranted => Sys2Proof.Machine.execRangeLockGranted s
  | .overlapWaitEnd c => Sys2Proof.Machine.execOverlapWaitEnd c s
  | .landingStripeClose => Sys2Proof.Machine.execLandingStripeClose s
  | .landingStripeVerified stripe => Sys2Proof.Machine.execLandingStripeVerified stripe s
  | .writeResumeLanding c => Sys2Proof.Machine.execWriteResumeLanding c s
  | .writeResumeSnapshot c => Sys2Proof.Machine.execWriteResumeSnapshot c s
  | .foldRow group block units => Sys2Proof.Machine.execFoldRow group block units s
  | .landingAgeLimit => Sys2Proof.Machine.execLandingAgeLimit s
  | .garbageCollection group victim dest => Sys2Proof.Machine.execGarbageCollection group victim dest s
  | .wearLevelMove group src dest => Sys2Proof.Machine.execWearLevelMove group src dest s
  | .scrubRead channel die block step bits => Sys2Proof.Machine.execScrubRead channel die block step bits s
  | .refresh channel die block dest => Sys2Proof.Machine.execRefresh channel die block dest s
  | .mapCheckpoint => Sys2Proof.Machine.execMapCheckpoint s
  | .progFail channel die block dest => Sys2Proof.Machine.execProgFail channel die block dest s
  | .eraseFail channel die block => Sys2Proof.Machine.execEraseFail channel die block s
  | .retryExhausted channel addr => Sys2Proof.Machine.execRetryExhausted channel addr s
  | .rebuildDone channel nsid lba ok => Sys2Proof.Machine.execRebuildDone channel nsid lba ok s
  | .ntPatrolScrub addr => Sys2Proof.Machine.execNtPatrolScrub addr s
  | .jobCancel c sqid cid => Sys2Proof.Machine.execJobCancel c sqid cid s
  | .scan c sub => Sys2Proof.Machine.execScan c sub s
  | .embed c sub => Sys2Proof.Machine.execEmbed c sub s
  | .search c sub queries => Sys2Proof.Machine.execSearch c sub queries s
  | .insert c sub data => Sys2Proof.Machine.execInsert c sub data s
  | .delete c sub data => Sys2Proof.Machine.execDelete c sub data s
  | .commit c sub => Sys2Proof.Machine.execCommit c sub s
  | .merge c sub sources => Sys2Proof.Machine.execMerge c sub sources s
  | .serveOpen c sub => Sys2Proof.Machine.execServeOpen c sub s
  | .serveAppend c sub tokens => Sys2Proof.Machine.execServeAppend c sub tokens s
  | .serveClose c sub => Sys2Proof.Machine.execServeClose c sub s
  | .train c sub => Sys2Proof.Machine.execTrain c sub s
  | .jobAdmit tag => Sys2Proof.Machine.execJobAdmit tag s
  | .commitTakeEffect nsid => Sys2Proof.Machine.execCommitTakeEffect nsid s
  | .jobRestart tag => Sys2Proof.Machine.execJobRestart tag s
  | .extentDone tag extent embeds => Sys2Proof.Machine.execExtentDone tag extent embeds s
  | .heapCollect tag query => Sys2Proof.Machine.execHeapCollect tag query s
  | .lapHurdle squad h => Sys2Proof.Machine.execLapHurdle squad h s
  | .decodeCapRise slot => Sys2Proof.Machine.execDecodeCapRise slot s
  | .updateRatioCheck tag layers => Sys2Proof.Machine.execUpdateRatioCheck tag layers s
  | .matmul tile desc => Sys2Proof.Machine.execMatmul tile desc s
  | .xorpop tile desc => Sys2Proof.Machine.execXorpop tile desc s
  | .reduce tile desc => Sys2Proof.Machine.execReduce tile desc s
  | .eltwise tile desc => Sys2Proof.Machine.execEltwise tile desc s
  | .eltwiseQuant tile desc => Sys2Proof.Machine.execEltwiseQuant tile desc s
  | .gather tile desc => Sys2Proof.Machine.execGather tile desc s
  | .scatter tile desc => Sys2Proof.Machine.execScatter tile desc s
  | .filter tile desc => Sys2Proof.Machine.execFilter tile desc s
  | .topk tile desc => Sys2Proof.Machine.execTopk tile desc s
  | .loadBaton tile desc => Sys2Proof.Machine.execLoadBaton tile desc s
  | .hurdleFence tile desc => Sys2Proof.Machine.execHurdleFence tile desc s
  | .stats tile desc => Sys2Proof.Machine.execStats tile desc s
  | .statsReport tile desc => Sys2Proof.Machine.execStatsReport tile desc s
  | .calRendezvousDone squad tensor => Sys2Proof.Machine.execCalRendezvousDone squad tensor s
  | .opComplete tile unit => Sys2Proof.Machine.execOpComplete tile unit s
  | .batonFillDone tile latch r => Sys2Proof.Machine.execBatonFillDone tile latch r s
  | .tileSweepDone tile => Sys2Proof.Machine.execTileSweepDone tile s
  | .objPlaceHost c d data => Sys2Proof.Machine.execObjPlaceHost c d data s
  | .objPlaceLba c d => Sys2Proof.Machine.execObjPlaceLba c d s
  | .objPlaceFar c d => Sys2Proof.Machine.execObjPlaceFar c d s
  | .objPlaceNear c d => Sys2Proof.Machine.execObjPlaceNear c d s
  | .placeCopyDone object r => Sys2Proof.Machine.execPlaceCopyDone object r s
  | .objEvict c d => Sys2Proof.Machine.execObjEvict c d s
  | .objEvictDiscard c d => Sys2Proof.Machine.execObjEvictDiscard c d s
  | .objPublishHost c d data => Sys2Proof.Machine.execObjPublishHost c d data s
  | .objPublishNear c d => Sys2Proof.Machine.execObjPublishNear c d s
  | .publishDone object => Sys2Proof.Machine.execPublishDone object s
  | .pinsReachZero object version => Sys2Proof.Machine.execPinsReachZero object version s
  | .structureLoadStage c d data => Sys2Proof.Machine.execStructureLoadStage c d data s
  | .structureLoadApply c d => Sys2Proof.Machine.execStructureLoadApply c d s
  | .structureLoadDiscard c d => Sys2Proof.Machine.execStructureLoadDiscard c d s
  | .applyVerifyDone sigOk => Sys2Proof.Machine.execApplyVerifyDone sigOk s
  | .applyConfigure => Sys2Proof.Machine.execApplyConfigure s
  | .persistDone ok => Sys2Proof.Machine.execPersistDone ok s
  | .squadRetire c d => Sys2Proof.Machine.execSquadRetire c d s
  | .squadRetireForce c d => Sys2Proof.Machine.execSquadRetireForce c d s
  | .drainComplete squad => Sys2Proof.Machine.execDrainComplete squad s
  | .drainSlow => Sys2Proof.Machine.execDrainSlow s
  | .versionNegotiateOffer c d offer writes => Sys2Proof.Machine.execVersionNegotiateOffer c d offer writes s
  | .versionNegotiateCommit c d writes => Sys2Proof.Machine.execVersionNegotiateCommit c d writes s
  | .versionNegotiateQuery c d => Sys2Proof.Machine.execVersionNegotiateQuery c d s
  | .faultClearFatal c d checks => Sys2Proof.Machine.execFaultClearFatal c d checks s
  | .faultClearSquad c d checks => Sys2Proof.Machine.execFaultClearSquad c d checks s
  | .faultClearAllContained c d checks => Sys2Proof.Machine.execFaultClearAllContained c d checks s
  | .flClearFatal w => Sys2Proof.Machine.execFlClearFatal w s
  | .flClearSquad v checks => Sys2Proof.Machine.execFlClearSquad v checks s
  | .flClearAllContained w => Sys2Proof.Machine.execFlClearAllContained w s
  | .fenceClearApply => Sys2Proof.Machine.execFenceClearApply s
  | .faultMessage m => Sys2Proof.Machine.execFaultMessage m s
  | .mgWatchdogExpiry core => Sys2Proof.Machine.execMgWatchdogExpiry core s
  | .powerStateChange => Sys2Proof.Machine.execPowerStateChange s
  | .apstIdleExpiry ps => Sys2Proof.Machine.execApstIdleExpiry ps s
  | .peerWindowWrite off data => Sys2Proof.Machine.execPeerWindowWrite off data s
  | .qeP2pFlush => Sys2Proof.Machine.execQeP2pFlush s
  | .qeP2pCfgWrite v => Sys2Proof.Machine.execQeP2pCfgWrite v s
  | .qeP2pBaseWrite hi v => Sys2Proof.Machine.execQeP2pBaseWrite hi v s
  | .lpReqProdWrite v => Sys2Proof.Machine.execLpReqProdWrite v s
  | .lpRplConsWrite v => Sys2Proof.Machine.execLpRplConsWrite v s
  | .lpCtlReset v => Sys2Proof.Machine.execLpCtlReset s v
  | .lpVolMapWrite volume v writes => Sys2Proof.Machine.execLpVolMapWrite volume v writes s
  | .lpRead => Sys2Proof.Machine.execLpRead s
  | .lpWrite => Sys2Proof.Machine.execLpWrite s
  | .lpFlush => Sys2Proof.Machine.execLpFlush s
  | .lpTrim => Sys2Proof.Machine.execLpTrim s
  | .lpInquire => Sys2Proof.Machine.execLpInquire s
  | .lpUnsupported => Sys2Proof.Machine.execLpUnsupported s
  | .lpData => Sys2Proof.Machine.execLpData s
  | .lpAbort => Sys2Proof.Machine.execLpAbort s
  | .lpPad => Sys2Proof.Machine.execLpPad s
  | .lpWindowLanded tag => Sys2Proof.Machine.execLpWindowLanded tag s
  | .lpXferTimeout tag => Sys2Proof.Machine.execLpXferTimeout tag s
  | .swWindowRead off len => Sys2Proof.Machine.execSwWindowRead off len s
  | .wordProgram cycles => Sys2Proof.Machine.execWordProgram cycles s
  | .pageProgram cycles => Sys2Proof.Machine.execPageProgram cycles s
  | .sectorErase cycles => Sys2Proof.Machine.execSectorErase cycles s
  | .identifyMode cycles => Sys2Proof.Machine.execIdentifyMode cycles s
  | .swAbort off => Sys2Proof.Machine.execSwAbort off s
  | .swOpDone pulses ok => Sys2Proof.Machine.execSwOpDone pulses ok s
  | .swQueuedStart => Sys2Proof.Machine.execSwQueuedStart s
  | .swProtectSet word v => Sys2Proof.Machine.execSwProtectSet word v s
  | .maintenanceGrant grant sigOk writes => Sys2Proof.Machine.execMaintenanceGrant grant sigOk writes s
  | .keyRequest request sigOk writes => Sys2Proof.Machine.execKeyRequest request sigOk writes s
  | .attestation => Sys2Proof.Machine.execAttestation s
  | .topTreeDone => Sys2Proof.Machine.execTopTreeDone s
  | .attestDone slotWrites transferOk => Sys2Proof.Machine.execAttestDone slotWrites transferOk s
  | .rlProbeWrite => Sys2Proof.Machine.execRlProbeWrite s
  | .rlProbeRead => Sys2Proof.Machine.execRlProbeRead s
  | .rlLookup v => Sys2Proof.Machine.execRlLookup v s
  | .nsLookup v => Sys2Proof.Machine.execNsLookup v s
  | .resetSquad squad => Sys2Proof.Machine.execResetSquad squad s
  | .resetAll => Sys2Proof.Machine.execResetAll s
  | .nsClrCnt => Sys2Proof.Machine.execNsClrCnt s
  | .modelRegister v record => Sys2Proof.Machine.execModelRegister v record s
  | .modelUnregister v => Sys2Proof.Machine.execModelUnregister v s
  | .jdSplitSel v => Sys2Proof.Machine.execJdSplitSel v s
  | .tileClrCnt tile => Sys2Proof.Machine.execTileClrCnt tile s
  | .tileLmWdata tile v => Sys2Proof.Machine.execTileLmWdata tile v s
  | .tileLmRdata tile => Sys2Proof.Machine.execTileLmRdata tile s
  | .mmFlashTempRead => Sys2Proof.Machine.execMmFlashTempRead s
  | .reg64LowRead a => Sys2Proof.Machine.execReg64LowRead a s
  | .registerWrite a data => Sys2Proof.Machine.execRegisterWrite a data s
  | .sideListMerge nsid segments => Sys2Proof.Machine.execSideListMerge nsid segments s
  | .indexCompaction nsid => Sys2Proof.Machine.execIndexCompaction nsid s
  | .nvmeShutdown => Sys2Proof.Machine.execNvmeShutdown s
  | .nvmeMiMessage msgType admin opcode ask => Sys2Proof.Machine.execNvmeMiMessage msgType admin opcode ask s
  | .setEndpointId eid => Sys2Proof.Machine.execSetEndpointId eid s
  | .setdasa addr => Sys2Proof.Machine.execSetdasa addr s
  | .inputInRange v10mV => Sys2Proof.Machine.execInputInRange v10mV s
  | .outletAlertEnd temp => Sys2Proof.Machine.execOutletAlertEnd temp s

end Sys2Proof.Machine
end

