-- ==== Sys2Proof/Safety.lean ====
section
/-! DEFINITION. What holds of the module in every state a run can reach: each byte memory and each table of records keeps
its form. A run is safe when every step answers a next state of this form. -/

namespace Sys2Proof.Machine

/-- The staging buffer (R36) is in canonical form: addresses strictly rising, no byte listed that an unlisted one reads as. -/
def Sl.inForm (l : Sl) : Prop := cellsWf 0 l.stage = true

/-- The near tier and the far tier (R134, R146) are in canonical form. -/
def Rl.inForm (r : Rl) : Prop := cellsWf 0 r.near = true ∧ cellsWf 0 r.far = true

/-- The firmware update buffer (R456) is in canonical form. -/
def Se.inForm (e : Se) : Prop := cellsWf 0 e.fwBuf = true

/-- The settings store (R423, R424) is in canonical form: an erased byte, 0xFF, is not listed. -/
def Sw.inForm (w : Sw) : Prop := cellsWf 0xFF w.store = true

/-- Function 1's rings (R345) are in canonical form. -/
def Lp.inForm (l : Lp) : Prop := cellsWf 0 l.ring = true

/-- The record ring has 65,536 slots (R419), the early buffer 256 records (R384), the standing table 256 entries (R420). -/
def Fl.inForm (f : Fl) : Prop :=
  (∀ e ∈ f.ring, e.1 < 65536) ∧ f.buffer.length ≤ 256 ∧ (f.standing.filter Standing.entry).length ≤ 256

/-- A tile's lane memory (R67, R70) is in canonical form. -/
def Tile.inForm (t : Tile) : Prop := cellsWf 0 t.lane = true

/-- Every listed tile is in form; a tile not listed is as reset. -/
def TilesInForm (m : KMap Tile) : Prop := ∀ e ∈ m, e.2.inForm

/-- Every job has a tag that JD has given out (R320): the next job's tag is new. -/
def Jd.inForm (d : Jd) : Prop := ∀ j ∈ d.jobs, j.tag < d.nextTag

/-- Every memory and every table of the module is in form. -/
def State.inForm (s : State) : Prop :=
  s.fl.inForm ∧ s.sl.inForm ∧ s.rl.inForm ∧ TilesInForm s.tiles ∧ s.se.inForm ∧ s.sw.inForm ∧ s.lp.inForm ∧ s.jd.inForm

/-! ## What the statements speak of -/

/-- QE can fetch command `c` now, and the phase serves its class (R317, R318, R388, R391, R413). -/
abbrev State.serves (s : State) (c : CmdId) (g : Gate) : Prop := s.canFetch c = true ∧ s.gate g = none

/-- The command of a queue that `i` brings to QE, with its class where the phase may end it with its completion alone (R318, R388,
R391, R413); a job's refusal also leaves a record (R320). -/
def hostCommand (i : Instr) : Option (CmdId × Option Gate) :=
  match i with
  | .identify c _ _ => some (c, some .recovery)
  | .getLogPage c _ _ _ _ _ => some (c, some .recovery)
  | .abort c _ _ => some (c, some .served)
  | .setFeatures c _ _ _ => some (c, some .served)
  | .getFeatures c _ => some (c, some .served)
  | .asyncEventRequest c => some (c, some .served)
  | .namespaceCreate c _ _ => some (c, some .manage)
  | .namespaceDelete c _ => some (c, some .manage)
  | .namespaceAttachment c _ _ _ => some (c, some .manage)
  | .formatNvm c _ => some (c, some .manage)
  | .formatNvmCryptoErase c _ _ => some (c, some .manage)
  | .versionNegotiateOffer c _ _ _ => some (c, some .served)
  | .versionNegotiateCommit c _ _ => some (c, some .served)
  | .versionNegotiateQuery c _ => some (c, some .served)
  | .jobCancel c _ _ => some (c, some .io)
  | .faultClearFatal c _ _ => some (c, some .served)
  | .faultClearSquad c _ _ => some (c, some .served)
  | .faultClearAllContained c _ _ => some (c, some .served)
  | .structureLoadStage c _ _ => some (c, some .stage)
  | .structureLoadApply c _ => some (c, some .manage)
  | .structureLoadDiscard c _ => some (c, some .stage)
  | .squadRetire c _ => some (c, some .manage)
  | .squadRetireForce c _ => some (c, some .manage)
  | .setFeaturesPowerManagement c _ => some (c, some .served)
  | .createIoSq c _ _ _ _ _ => some (c, some .served)
  | .createIoCq c _ _ _ _ _ => some (c, some .served)
  | .deleteIoSq c _ => some (c, some .served)
  | .deleteIoCq c _ => some (c, some .served)
  | .read c _ _ _ => some (c, some .io)
  | .write c _ _ _ _ => some (c, some .io)
  | .writeZeroes c _ _ _ _ => some (c, some .io)
  | .datasetManagementDeallocate c _ _ => some (c, some .io)
  | .verify c _ _ _ => some (c, some .io)
  | .flush c _ => some (c, some .io)
  | .firmwareImageDownload c _ _ => some (c, some .image)
  | .firmwareCommit c _ _ _ _ => some (c, some .fwCommit)
  | .objEvict c _ => some (c, some .job)
  | .objEvictDiscard c _ => some (c, some .job)
  | .scan c _ => some (c, none)
  | .embed c _ => some (c, none)
  | .search c _ _ => some (c, none)
  | .insert c _ _ => some (c, none)
  | .delete c _ _ => some (c, none)
  | .commit c _ => some (c, none)
  | .merge c _ _ => some (c, none)
  | .serveOpen c _ => some (c, none)
  | .serveAppend c _ _ => some (c, none)
  | .serveClose c _ => some (c, none)
  | .train c _ => some (c, none)
  | .objPlaceHost c _ _ => some (c, none)
  | .objPlaceLba c _ => some (c, none)
  | .objPlaceFar c _ => some (c, none)
  | .objPlaceNear c _ => some (c, none)
  | .objPublishHost c _ _ => some (c, none)
  | .objPublishNear c _ => some (c, none)
  | _ => none

/-- `s` with command `c` fetched and completed with a status, dwords 0 and 1 and data. -/
def State.answered (s : State) (c : CmdId) (st dw0 dw1 : Nat) (data : List (List Byte)) : State :=
  (s.fetch c).complete c st dw0 dw1 data

/-- The completion of command `c` is in its queue, or waits for an entry there, and QE counts the command no more (R318). -/
abbrev Completed (t : State) (c : CmdId) (st dw0 dw1 : Nat) (data : List (List Byte)) : Prop :=
  (mkCompletion c st dw0 dw1 data ∈ t.qe.posted ∨ mkCompletion c st dw0 dw1 data ∈ t.qe.cqWait) ∧ c ∉ t.qe.fetched

/-- Function 1 may read the frame at its consumer, the only one that waits, and the frame is well formed (R346, R347). -/
abbrev State.lpFrameWaits (s : State) : Prop :=
  s.vendorLive = true ∧ s.lp.outq = [] ∧ s.lp.avail ≠ 0 ∧ s.lp.avail = s.lp.head.extent ∧ s.lp.badExtent s.lp.head = false ∧
  s.lp.reservedSet = false

/-- LP takes the command of that frame: it is function 1's turn, QE has room for it, its tag is free, and it
does not end early (R317, R318, R329, R348, R351, R352). -/
abbrev State.lpRuns (s : State) : Prop :=
  s.lpFrameWaits ∧ s.arbiter lpQueue = true ∧ s.qe.fetched.length < 65536 ∧ s.lp.tagUsed s.lp.head.tag = false ∧ s.lp.head.type = 1 ∧
  s.lpEarly s.lp.head = none

/-- The reply ring of `t` holds frame `f` where the producer of `s` stood, `off` cells on (R346). -/
abbrev LpReplied (s t : State) (off : Nat) (f : List Byte) : Prop :=
  readCells 0 t.lp.ring (rplOff (s.lp.rplProd + off)) f.length = f

/-- No COMMIT is in line for an index (R271). -/
abbrev State.commitsIdle (s : State) : Prop := ∀ e ∈ s.idx, e.2.commit = none ∧ e.2.waiting = []

/-- The blocks that a Write of `n` blocks carries (R314). -/
def hostBlocks (data : List (List Byte)) (n : Nat) : List (List Byte) :=
  (List.range n).map (fun i => trimZ (padTo 4096 (data.getD i [])))

/-- Landing has room for these pieces, its index has the entries they need, and the snapshot pool has room for the copies (R185,
R191, R199). -/
abbrev State.roomFor (s : State) (x : Namespace) (ps : List Piece) : Prop := s.landingWaits ps = false ∧ s.poolRoom x ps = true

/-- Landing holds the blocks of a placed piece (R183). -/
abbrev Mm.holdsPiece (m : Mm) (p : Piece) : Prop :=
  ∀ i, (h : i < p.blocks.length) → (m.landing.findD (p.addr i) MediumBlock.blank).data = trimZ p.blocks[i]

/-- The rows of block `b` of group `g` above those programmed hold nothing a unit lies at: rows are programmed in order (R186). -/
abbrev Mm.rowsFree (m : Mm) (g b : Nat) : Prop :=
  ∀ l ∈ m.bulkRefs, inGroupBlock g b l = true → locSlot l < 8 * (m.blk (groupKey g b)).rows

/-- Every unit reads in `t` as in `m`, by the live map and at every snapshot (R197, R199). -/
abbrev Mm.sameData (m t : Mm) : Prop :=
  ∀ u b, b < 8 → t.blockAt (t.locOf u) b = m.blockAt (m.locOf u) b ∧ ∀ e, t.blockAt (t.locAt e u) b = m.blockAt (m.locAt e u) b

/-- Everything of the map stands as in `m`, and what it commits to the medium; landing may hold more (R183). -/
abbrev Mm.sameMap (m t : Mm) : Prop :=
  t.pages = m.pages ∧ t.index = m.index ∧ t.pool = m.pool ∧ t.beatOld = m.beatOld ∧ t.bulk = m.bulk ∧ t.ckpt = m.ckpt ∧
  t.since = m.since ∧ t.epoch = m.epoch ∧ t.namespaces = m.namespaces ∧ t.hostWritten = m.hostWritten

/-- QE can fetch an I/O command of attached namespace `n` and runs no other storage command (R313, R327). -/
abbrev State.storeIdle (s : State) (c : CmdId) (n : Nat) (x : Namespace) : Prop :=
  s.serves c .io ∧ s.mm.replayed = true ∧ s.qe.store = [] ∧ s.qe.held = [] ∧ s.mm.namespaces.find n = some x ∧
  x.attached = true ∧ c.sq ≠ lpQueue

/-- QE hands JD a JOB_SUBMIT of kind `k` under command set 3, for squad `n`, which is not fenced (R217, R320, R322, R26). -/
abbrev State.submits (s : State) (c : CmdId) (k : Nat) (sub : Submit) (n : Nat) : Prop :=
  s.canFetch c = true ∧ s.inGo = true ∧ sub.prp1 % 256 = 0 ∧ bitsW sub.d10 7 0 = k ∧ bitsW sub.d10 15 8 = 3 ∧ byteAt sub.desc 0 = k ∧
  byteAt sub.desc 1 = 3 ∧ s.qe.versions.cmdset / 16 = 3 ∧ s.bindSquad c.sq k (byteAt sub.desc 4) = some n ∧ s.fenced n = false

/-- `s` with command `c` fetched and job `j` the last that waits, its tag given out. -/
def State.withJob (s : State) (c : CmdId) (j : Job) : State :=
  { s with qe := (s.fetch c).qe, jd := { s.jd with jobs := s.jd.jobs ++ [j], nextTag := s.jd.nextTag + 1 } }

/-- TRAIN job `j` once an accumulation lap of `n` examples has run (R304). -/
def State.lapTaken (s : State) (j : Job) (n : Nat) : Job :=
  { j with lap := { j.lap with lapInStep := j.lap.lapInStep + 1, pend := s.nextExample j n } }

/-- JD admits job `j` as it arrives: its squad may take a job, and no job of the squad waits (R21, R42, R246). -/
abbrev State.admitsAtOnce (s : State) (j : Job) : Prop :=
  s.jd.inForm ∧ s.mayAdmit j = true ∧ ∀ k ∈ s.jobsOf j.squad, k.admitted = true

/-- An extent of job `tag`, a SCAN or EMBED with layout `y`, is in flight, and no block of its namespace is unreadable
(R230, R231). -/
abbrev State.extentRuns (s : State) (tag e : Nat) (j : Job) (y : Layout) : Prop :=
  s.jobsRun = true ∧ s.job tag = some j ∧ e ∈ j.scan.issued ∧ s.jobLayout j = some y ∧
  ∀ b ∈ s.mm.badBlocks, b.1 ≠ j.u32 64

/-- RL can start object command `k` on region `r` at near-tier address `a`: the object's id is good, nothing else makes a version
of it or waits to, and the directory has room (R163, R166). -/
abbrev State.placeFits (s : State) (d : Dwords) (r : Region) (a : Nat) : Prop :=
  Dwords.object d ≠ 0xFFFFFFFF ∧ s.objBusy (Dwords.object d) = false ∧
  (∀ w ∈ s.rl.waiting, Dwords.object w.d ≠ Dwords.object d) ∧
  (∀ e, s.rl.dir.find (Dwords.object d) = some e → e.discardPending = false ∧ e.segment = false) ∧
  ((s.rl.dir.find (Dwords.object d)).isSome = true ∨ s.dirTaken < 262144) ∧ s.region (Dwords.region d) = some r ∧
  r.placeable = true ∧ Dwords.batons d ≠ 0 ∧ s.allocNear r (footprint (Dwords.batons d)) = some a

/-- `s` with the copy of object command `k` begun in region `r` at address `a`, reading at snapshot `snap`. -/
def State.copying (s : State) (k : ObjCmd) (r : Region) (a : Nat) (snap : Option Nat) : Rl :=
  { s.rl with copies := s.rl.copies ++ [
    { object := Dwords.object k.d, cmd := some k, publish := false, region := r.id, base := a, batons := Dwords.batons k.d,
      version := s.nextVer (Dwords.object k.d), snap := snap, tag := 0, begun := s.pc.beat }] }

/-- The record that `s` makes of an event stands in the ring of `t`, in the slot of its number, and is the last posted (R398,
R419). -/
abbrev RecordWritten (s t : State) (src kind cls : Nat) (addr : W64) (d0 d1 d2 d3 : W32) : Prop :=
  t.fl.ring.find (s.fl.posted % 65536) = some (s.mkRecord src kind cls addr d0 d1 d2 d3) ∧ t.fl.posted = s.fl.posted + 1

/-- An APPLY as it begins, with the staged bytes as its image (R37, R38). -/
def State.loadBegun (s : State) (c : CmdId) (d : Dwords) : Load :=
  { c := c, image := readCells 0 s.sl.stage 0 s.sl.stageLen, force := bitW d.d10 8, persist := bitW d.d10 9, step := .verify,
    next := SquadSet.empty, fresh := [], changed := [], removed := [], retires := [] }

/-- Tile `n` of squad `m` takes descriptor `d` and issues it at once: its queue is empty, the descriptor passes decode, its unit,
its semaphore and its latch are ready, every byte is good, and no order question arises with the ops that run (R60, R61, R65,
R68). -/
abbrev State.tileIssues (s : State) (n : Nat) (d : List Byte) (m : Nat) (q : Squad) : Prop :=
  d.length = 64 ∧ s.takesOps n = true ∧ (s.tile n).queue = [] ∧ (s.tile n).hurdle = false ∧ (s.tile n).squad = some m ∧
  s.squadOf m = some q ∧ s.decodeOk q m n d = true ∧ (s.tile n).mayIssue d = true ∧ (s.tile n).unitFree d = true ∧
  (s.tile n).held = [] ∧ s.instantiate d = d ∧ s.piecesOk m n d = true ∧
  (∀ e ∈ s.tiles, e.2.bad = [] ∧ e.2.flip = 0) ∧ s.racedReads n d (s.opReads q n d) = [] ∧
  s.racedWrites n d (s.opReads q n d) (s.opWrites q n d) = []

/-- The op of `d` waits in the queue of tile `n` of squad `m`: it passes decode, but its fence, semaphore or latch is not ready. -/
abbrev State.tileQueues (s : State) (n : Nat) (d : List Byte) (m : Nat) (q : Squad) : Prop :=
  d.length = 64 ∧ s.takesOps n = true ∧ (s.tile n).queue = [] ∧ (s.tile n).held = [] ∧ (s.tile n).hurdle = false ∧
  (s.tile n).squad = some m ∧ s.squadOf m = some q ∧ s.instantiate d = d ∧ s.decodeOk q m n d = true ∧
  (s.tile n).mayIssue d = false

/-- The rows by which JD writes descriptor `d` to tile `n`: the row of its kind, or any for a kind that is none (R64). -/
def opRows (n : Nat) (d : List Byte) : List Instr :=
  match opKind d with
  | 0x01 => [.matmul n d]
  | 0x02 => [.xorpop n d]
  | 0x03 => [.reduce n d]
  | 0x04 => [if byteAt d 32 = 0x0B then .eltwiseQuant n d else .eltwise n d]
  | 0x05 => [.gather n d]
  | 0x06 => [.scatter n d]
  | 0x07 => [.filter n d]
  | 0x08 => [.topk n d]
  | 0x09 => [.loadBaton n d]
  | 0x0A => [.hurdleFence n d]
  | 0x0B => [if byteAt d 30 = 2 then .statsReport n d else .stats n d]
  | _ => [.matmul n d, .xorpop n d, .reduce n d, .eltwise n d, .eltwiseQuant n d, .gather n d, .scatter n d, .filter n d,
      .topk n d, .loadBaton n d, .hurdleFence n d, .stats n d, .statsReport n d]

/-- The A of a MATMUL's descriptor: imm, or the keeper's scale where imm is 0.0 (R110). -/
def State.mmFactor (s : State) (m : Nat) (q : Squad) (d : List Byte) : W32 :=
  let imm : W32 := BitVec.ofNat 32 (u32At d 40)
  if isZero32 imm then scaleOf (opAfmt q d) (s.nsSq m).margin (s.keeperRef m (u16At d 44)) else imm

/-- Output row `i` of a MATMUL on tile `n`, with each column's magnitude, from what lane memory and the latch hold in `s`. -/
def State.mmRowAt (s : State) (m n : Nat) (q : Squad) (d : List Byte) (scale : List W32) (i : Nat) : List (Nat × W32) :=
  let t := s.tile n
  mmRowOf (opWfmt q d) (opAfmt q d) (fun k => (t.latches.getD (byteAt d 36) Latch.reset).data.getD k 0) d
    (readCells 0 t.lane (u32At d 16 + i * u32At d 20) (mmRow q d)) (readCells 0 t.lane (u32At d 24 + i * u32At d 28) 256)
    scale (s.mmFactor m q d)

/-- The record passes the predicate a FILTER names; 0xFFFF names none (R64). -/
def Squad.filterPasses (q : Squad) (d : List Byte) (r : Rec) : Bool :=
  u16At d 34 == 0xFFFF || ((((predicatesOf q.layouts).find? (fun p => p.num == u16At d 34)).map (fun p => p.passes r)).getD false)

/-- The source bytes of a FILTER on tile `n`, and what they parse into: its records, and where one its end cuts begins. -/
def State.filterSource (s : State) (n : Nat) (d : List Byte) (o k : Nat) : List Byte :=
  readCells 0 (s.tile n).lane (u32At d 16 + o) (min k (u32At d 20 - o))
def State.filterParse (s : State) (n : Nat) (d : List Byte) (y : Layout) : List Rec × Option Nat :=
  filterRecs y (s.filterSource n d) (u32At d 20) (u32At d 20 + 1) 0

/-- Key `i` of a TOPK on tile `n`. -/
def State.topkKey (s : State) (n : Nat) (d : List Byte) (i : Nat) : Nat :=
  let w := if byteAt d 36 = 0 then 2 else 4
  leAt (readCells 0 (s.tile n).lane (u32At d 16 + w * i) w) 0 w

/-- The block that an XORPOP compares for a context, which takes it now (R264). -/
abbrev State.feeds (s : State) (n : Nat) (d : List Byte) (x : Ctx) (k : Nat) : Prop :=
  s.blockKey x.tag ((s.tile n).latches.getD (byteAt d 31) Latch.reset).object
    ((s.tile n).latches.getD (byteAt d 31) Latch.reset).baton = some k ∧ x.takes k = true

/-- Code `j` of an XORPOP comes to a context's heap: visible, near enough, passing the predicate, and not dead (R265). -/
abbrev State.codeComes (s : State) (n : Nat) (d : List Byte) (x : Ctx) (i j : Nat) : Prop :=
  let side := s.segmentOf ((s.tile n).latches.getD (byteAt d 31) Latch.reset).object
  (s.tile n).codePasses (window (byteAt d 31)) (u16At d 26 + j) ((s.distances n d i).getD j 0) side ((s.tile n).terms x) x = true ∧
  (side = none → s.deadTo (s.tile n) x
    (65536 * ((s.tile n).latches.getD (byteAt d 31) Latch.reset).baton + (u16At d 26 + j)) = false)

/-- In `t`, tile `n` is `u` with the next queue index, the semaphore of `d` taken, `d` in flight after what ran there before, and
lane memory that other clauses describe. -/
abbrev RunsOn (s t : State) (n : Nat) (d : List Byte) (u : Tile) : Prop :=
  t.tile n = { u with
    nextIdx := ((s.tile n).nextIdx + 1) % 512, sems := ((s.tile n).take d).sems, lane := (t.tile n).lane,
    flight := (t.tile n).flight } ∧
  (t.tile n).flight.dropLast = (s.tile n).flight ∧
  ((t.tile n).flight.getLast?.map (fun f => (f.desc, f.idx, f.unit))) = some (d, (s.tile n).nextIdx, opUnit d)

end Sys2Proof.Machine
end

