-- ==== Sys2Proof/Certificates/Slice0/Obligations.lean ====
section
/-! DEFINITION. The statements about the model. Each says which rule of the spec it rests on; where it names the model's own
choice, its docstring says so. -/

open Sys2Proof Sys2Proof.Machine

/-- A step takes the command at the front of the queue and runs it with the queue's rest. That commands wait in one queue,
first in first out, is the model's form for a block (assumption entry 3). -/
def Obligations.StepRunsTheFrontCommand : Prop :=
  (∀ (c : Instr) (cs : List Instr) (s : State),
    step { s with pending := c :: cs } = exec c { s with pending := cs }) ∧
  (∀ (s : State), s.pending = [] →
    step s = .next s)

/-- The model stops on no command. That a command which its present state cannot carry out leaves the state as it is, is
the model's choice (assumption entry 5). -/
def Obligations.EveryCommandAnswersANextState : Prop :=
  ∀ (i : Instr) (s : State),
    ∃ t, exec i s = .next t

/-- The form of the byte memories is the model's (equal memories are equal data); the sizes of the ring, the early buffer
and the standing table are R419, R384 and R420, and that the tag of a new job is new is R320. A command that wrote a
byte out of order, or took a 257th entry, or put a command of its own into the queue, would break it. -/
def Obligations.EveryStepKeepsMemoriesTablesAndQueue : Prop :=
  ∀ (s : State), s.inForm →
    ∃ t, step s = .next t ∧ t.inForm ∧ t.pending = s.pending.tail

/-- The form that every step keeps holds right after reset. That the queue is empty then is the model's form for a block
(assumption entry 3). -/
def Obligations.ResetIsInForm : Prop :=
  State.reset.inForm ∧ State.reset.pending = []

/-- Offsets and values are the Reset columns of the register tables. MC_PHASE and LP_STATUS are left out because they show
the phase, and MC_BOOT because the entry to MARKS that reset is has been counted (the model's reading, assumption
entry 4). -/
def Obligations.ResetRegisterValues : Prop :=
  (∀ r ∈ ([(0x110000, 0x6), (0x110004, 0x0), (0x110034, 0x3F), (0x110038, 0x0),
      (0x11003C, 0x0), (0x110100, 0x99), (0x100008, 0x0), (0x10000C, 0x0),
      (0x100010, 0x0), (0x100014, 0x0), (0x1A0000, 0x1), (0x1A0004, 0x0),
      (0x1A0008, 0x0), (0x1A000C, 0x0), (0x1A0010, 0x0), (0x1A0014, 0x0),
      (0x1A0020, 0x0), (0x1A0024, 0x0)] : List (Nat × Nat)),
  (State.reset.readReg { fn := 0, bar := 0, off := r.1 }).toNat = r.2) ∧
  (∀ r ∈ ([(0x140000, 0x0), (0x140004, 0x0), (0x140010, 0x0), (0x140014, 0x0),
      (0x140018, 0x0), (0x140020, 0x0), (0x140100, 0x0), (0x130000, 0x0),
      (0x130004, 0x0), (0x130008, 0x0), (0x13000C, 0x0), (0x130010, 0x0),
      (0x130014, 0x0), (0x130020, 0x0), (0x130024, 0x0), (0x130100, 0xC0110),
      (0x130104, 0x3C23D70A), (0x130108, 0x0), (0x13010C, 0x0), (0x1B1000, 0x0),
      (0x1B1040, 0x0), (0x150000, 0x0), (0x150004, 0x0), (0x150008, 0x12C),
      (0x15000C, 0x0), (0x150010, 0x0), (0x150020, 0xFFFFFFFF), (0x150024, 0x0),
      (0x150100, 0x0), (0x150200, 0x0), (0x150210, 0x0), (0x150230, 0x0),
      (0x150234, 0x0), (0x180000, 0x0), (0x180004, 0x0), (0x180018, 0x0),
      (0x18001C, 0x0), (0x180020, 0x0), (0x180024, 0x32), (0x180028, 0x0),
      (0x18002C, 0x7804), (0x180034, 0x96), (0x180060, 0x0), (0x160000, 0x0),
      (0x160004, 0x0), (0x160018, 0x0), (0x16001C, 0x0), (0x160020, 0x0),
      (0x160040, 0x0), (0x160100, 0x0), (0x160104, 0x0), (0x160108, 0x0),
      (0x170000, 0x0), (0x170004, 0x0), (0x170008, 0x0), (0x17000C, 0x0),
      (0x170010, 0x0), (0x004000, 0x0), (0x170024, 0x0), (0x120000, 0x0),
      (0x120004, 0x0), (0x120008, 0x0), (0x12000C, 0x0), (0x120030, 0x0),
      (0x120034, 0x0), (0x190004, 0x0), (0x190030, 0x0), (0x190040, 0x0),
      (0x190068, 0x0), (0x19006C, 0x0), (0x1900A0, 0x0), (0x1900C0, 0x0)] : List (Nat × Nat)),
  (State.readReg { State.reset with mc := { Mc.reset with phase := .blocks } } { fn := 0, bar := 0, off := r.1 }).toNat = r.2) ∧
  (∀ r ∈ ([(0x000000, 0x104), (0x000004, 0x0), (0x000024, 0x0)] : List (Nat × Nat)),
  (State.readReg { State.reset with mc := { Mc.reset with phase := .blocks } } { fn := 1, bar := 0, off := r.1 }).toNat = r.2)

/-- VIN_ACCEPTED, HOLD_UP_BANK_CHARGED, INPUT_OUT_OF_RANGE, INPUT_IN_RANGE, POWER_FAIL and POWER_FAIL_RAILS_OFF: what each
changes, and that nothing else changes where that is all. -/
def Obligations.InputPowerEvents : Prop :=
  (∀ (v : Nat) (s : State), s.power.vinAccepted = false → s.power.failing = false → 3950 ≤ v ∧ v ≤ 6400 →
    ∃ t, exec (.vinAccepted v) s = .next t ∧
      t = { s with power := { s.power with
        vin10mV := v, vinAccepted := true, bankCharged := false, alertSeen := t.power.alertSeen, ibis := t.power.ibis } }) ∧
  (∀ (s : State), s.power.vinAccepted = true → s.power.bankCharged = false → s.power.failing = false →
      s.power.modEn = false →
    exec .holdUpBankCharged s = .next { s with power := { s.power with bankCharged := true } }) ∧
  (∀ (s : State), s.power.vinAccepted = true → s.power.bankCharged = false → s.power.failing = false →
      s.power.modEn = true → s.power.perst = false →
    ∃ t, exec .holdUpBankCharged s = .next t ∧ t.mc.phase = .marks ∧ t.mc.entry = 0 ∧
      t.mc.entries = sat16 (s.mc.entries + 1) ∧ t.power.bankCharged = true ∧ t.power.pwrGood = true ∧
      t.power.tileSupply = false ∧ t.tiles = [] ∧ t.rl.near = [] ∧ t.rl.far = s.rl.far ∧ t.sw.store = s.sw.store) ∧
  (∀ (s : State), s.power.vinAccepted = true → s.power.bankCharged = false → s.power.failing = false →
      s.power.modEn = true → s.power.perst = true →
    ∃ t, exec .holdUpBankCharged s = .next t ∧
      t = { s with
        power := { s.power with
          bankCharged := true, pwrGood := true, hostRail := true, flashRail := true, dramRail := true, badRails := [] }
        mc := { s.mc with deferred := some (s.mc.deferred.getD 0) } }) ∧
  (∀ (v : Nat) (s : State), s.power.vinAccepted = true → s.power.failing = false → v < 4000 ∨ 6000 < v → s.linkUp =
      true → s.ntAll = true →
    ∃ t, exec (.inputOutOfRange v) s = .next t ∧ t.power.vin10mV = v ∧ t.power.outOfRange = true ∧
      RecordWritten s t srcPower kPowerBand 0 0 (BitVec.ofNat 32 v) (if v < 4000 then 4 else 8) 0 0 ∧
      t = { s with power := { s.power with
              vin10mV := v, outOfRange := true, alertSeen := t.power.alertSeen, ibis := t.power.ibis }, fl := t.fl }) ∧
  (∀ (v : Nat) (s : State), s.power.vinAccepted = true → 4000 ≤ v ∧ v ≤ 6000 →
    ∃ t, exec (.inputInRange v) s = .next t ∧
      t = { s with power := { s.power with
        vin10mV := v, outOfRange := false, alertSeen := t.power.alertSeen, ibis := t.power.ibis } }) ∧
  (∀ (v : Nat) (s : State), s.power.vinAccepted = true → s.power.failing = false →
    ∃ t, exec (.powerFail v) s = .next t ∧ t.mc.phase = .off ∧ t.qe.ready = false ∧ t.qe.fetched = [] ∧
      t.power.failing = true ∧ t.power.vin10mV = v ∧ t.power.pwrGood = false ∧ t.power.tileSupply = false ∧
      t.power.dramRail = false ∧ t.power.dynAddr = none ∧ t.power.eid = none ∧ t.lp = Lp.reset ∧
      t.fl = s.fl ∧ t.sl = s.sl ∧ t.rl = s.rl ∧ t.jd = s.jd ∧ t.tiles = s.tiles ∧ t.se = s.se ∧ t.sw = s.sw) ∧
  (∀ (s : State), s.power.failing = true →
    ∃ t, exec .powerFailRailsOff s = .next t ∧ t.mc.phase = .off ∧ t.mc.entries = 0 ∧ t.mc.recoveryNext = false ∧
      t.power.failing = false ∧ t.power.vinAccepted = false ∧ t.power.bankCharged = false ∧ t.power.pwrGood = false ∧
      t.tiles = [] ∧ t.rl.near = [] ∧ t.qe.wp = [] ∧ t.pc.nominalNs = 1000000)

/-- MOD_EN_ASSERT, MOD_EN_DEASSERT, PERST_ASSERT, PERST_DEASSERT and RAIL_FAULT, each in every state. -/
def Obligations.PinEvents : Prop :=
  (∀ (s : State), s.power.modEn = false → s.power.vinAccepted = true → s.power.bankCharged = true → s.power.failing
      = false → s.power.perst = false →
    ∃ t, exec .modEnAssert s = .next t ∧ t.mc = { s.mc.toMarks 1 with dropped := t.mc.dropped } ∧
      t.mc.phase = .marks ∧ t.mc.entry = 1 ∧ t.mc.entries = sat16 (s.mc.entries + 1) ∧
      t.power = { s.power with
        modEn := true, pwrGood := true, hostRail := true, flashRail := true, dramRail := true, tileSupply := false,
        badRails := [], refresh2x := [], alertSeen := t.power.alertSeen, ibis := t.power.ibis } ∧
      t.tiles = [] ∧ t.jd = Jd.reset ∧ t.sl = Sl.reset ∧ t.lp = Lp.reset ∧ t.rl.near = [] ∧ t.rl.far = s.rl.far ∧
      t.sw.store = s.sw.store ∧ t.pc = s.pc.toMarks) ∧
  (∀ (s : State), s.power.modEn = false → s.power.vinAccepted = true → s.power.bankCharged = true → s.power.failing
      = false → s.power.perst = true →
    exec .modEnAssert s = .next { s with
      power := { s.power with modEn := true, pwrGood := true, hostRail := true, flashRail := true, dramRail := true, badRails := [] }
      mc := { s.mc with deferred := some (s.mc.deferred.getD 1) } }) ∧
  (∀ (s : State), s.power.modEn = false → s.power.vinAccepted = false ∨ s.power.bankCharged = false ∨
      s.power.failing = true →
    exec .modEnAssert s = .next { s with power := { s.power with modEn := true } }) ∧
  (∀ (s : State), s.power.modEn = true →
    exec .modEnAssert s = .next s) ∧
  (∀ (s : State), s.power.modEn = true → s.power.failing = false → s.power.pwrGood = true →
    ∃ t, exec .modEnDeassert s = .next t ∧ t.power.modEn = false ∧ t.power.pwrGood = false ∧ t.power.hostRail = false ∧
      t.power.flashRail = false ∧ t.power.tileSupply = false ∧ t.power.dramRail = false ∧ t.power.badRails = [] ∧
      t.power.refresh2x = [] ∧ t.mc.phase = .off ∧ t.mc.deferred = none ∧ t.tiles = [] ∧ t.rl.near = [] ∧
      t.jd = Jd.reset ∧ t.qe.fetched = [] ∧ t.sl = Sl.reset ∧ t.fl = Fl.reset) ∧
  (∀ (s : State), s.power.modEn = true → s.power.failing = true ∨ s.power.pwrGood = false →
    exec .modEnDeassert s = .next { s with power := { s.power with modEn := false } }) ∧
  (∀ (s : State), s.power.modEn = false →
    exec .modEnDeassert s = .next s) ∧
  (∀ (s : State), s.power.perst = false → s.power.pwrGood = true → s.mc.phase ≠ .off →
    ∃ t, exec .perstAssert s = .next t ∧ t.power.perst = true ∧ t.mc.phase = .off ∧ t.tiles = [] ∧ t.rl.near = [] ∧
      t.jd = Jd.reset ∧ t.qe.fetched = [] ∧ t.sl = Sl.reset ∧ t.fl = Fl.reset) ∧
  (∀ (s : State), s.power.perst = false → s.power.pwrGood = false ∨ s.mc.phase = .off →
    exec .perstAssert s = .next { s with power := { s.power with perst := true } }) ∧
  (∀ (s : State), s.power.perst = true →
    exec .perstAssert s = .next s) ∧
  (∀ (s : State), s.power.perst = true → s.power.pwrGood = true →
    ∃ t, exec .perstDeassert s = .next t ∧ t.power.perst = false ∧ t.mc.phase = .marks ∧ t.mc.entry = s.mc.deferred.getD 2 ∧
      t.mc.entries = sat16 (s.mc.entries + 1) ∧ t.mc.deferred = none ∧ t.pc = s.pc.toMarks ∧ t.tiles = [] ∧
      t.jd = Jd.reset ∧ t.sl = Sl.reset ∧ t.lp = Lp.reset ∧ t.rl.near = []) ∧
  (∀ (s : State), s.power.perst = true → s.power.pwrGood = false →
    exec .perstDeassert s = .next { s with power := { s.power with perst := false } }) ∧
  (∀ (s : State), s.power.perst = false →
    exec .perstDeassert s = .next s) ∧
  (∀ (rail v : Nat) (kind : RailKind) (s : State), s.linkUp = true →
    ∃ p : Power, p.vin10mV = v ∧ rail ∈ p.badRails ∧ p.hostRail = (s.power.hostRail && kind != .hostDie) ∧
      p.flashRail = (s.power.flashRail && kind != .flash) ∧ p.tileSupply = (s.power.tileSupply && kind != .tile) ∧
      p.dramRail = (s.power.dramRail && kind != .dram) ∧
      p.pwrGood = (s.power.pwrGood && kind != .hostDie && kind != .flash) ∧
      exec (.railFault rail kind v) s = .next (({ s with power := p } : State).postFatal srcPower kPowerBand 0
        (BitVec.ofNat 32 v) (BitVec.ofNat 32 (12 + 256 * (rail % 256))) 0 0)) ∧
  (∀ (rail v : Nat) (kind : RailKind) (s : State), s.linkUp = true → s.ntAll = true → s.inBlocks = false → s.inGo =
      false → s.mc.fatalClear = none →
    ∃ t, exec (.railFault rail kind v) s = .next t ∧
      RecordWritten s t srcPower kPowerBand 2 0 (BitVec.ofNat 32 v) (BitVec.ofNat 32 (12 + 256 * (rail % 256))) 0 0 ∧
      t.power.vin10mV = v ∧ rail ∈ t.power.badRails ∧
      t.power.pwrGood = (s.power.pwrGood && kind != .hostDie && kind != .flash) ∧
      t.power.tileSupply = (s.power.tileSupply && kind != .tile) ∧ t.power.dramRail = (s.power.dramRail && kind != .dram) ∧
      t.fl.fatalStands = true) ∧
  (∀ (rail v : Nat) (kind : RailKind) (s : State), s.linkUp = false →
    exec (.railFault rail kind v) s = .next s)

/-- FUSE_READ_DONE, PANEL_POWER_DONE and SETTINGS_STORE_READ_DONE. That RECOVERY is entered at the event that finds its
cause is the model's reading (assumption entry 30). -/
def Obligations.MarksSteps : Prop :=
  (∀ (m : FuseMap) (s : State), s.mc.phase = .marks → s.mc.fuseDone = false → m.ok = true → s.mc.recoveryNext =
      false →
    exec (.fuseReadDone m) s = .next { s with mc := { s.mc with
      fuse := if s.mc.fuse.phys.isEmpty then m else { s.mc.fuse with ok := true }, fuseDone := true } }) ∧
  (∀ (m : FuseMap) (s : State), s.mc.phase = .marks → s.mc.fuseDone = false → m.ok = false →
    ∃ t, exec (.fuseReadDone m) s = .next t ∧ t.mc.phase = .recovery ∧ t.mc.cause = 5 ∧ t.mc.recoveryNext = false ∧
      t.mc.fuse = (if s.mc.fuse.phys.isEmpty then m else { s.mc.fuse with ok := false }) ∧ t.qe.ready = s.qe.enabled ∧ t.sw.busyBoot = false) ∧
  (∀ (m : FuseMap) (s : State), s.mc.phase = .marks → s.mc.fuseDone = false → m.ok = true → s.mc.recoveryNext =
      true →
    ∃ t, exec (.fuseReadDone m) s = .next t ∧ t.mc.phase = .recovery ∧ t.mc.cause = 4 ∧ t.mc.recoveryNext = false) ∧
  (∀ (s : State), s.mc.phase = .marks ∨ s.mc.phase = .blocks → s.mc.fuseDone = true → s.mc.panelDone = false →
    exec .panelPowerDone s =
      .next { s with mc := { s.mc with panelDone := true }, power := { s.power with tileSupply := true } }) ∧
  (∀ (a b : Bool) (s : State), s.mc.phase = .marks → s.mc.fuseDone = true → s.mc.storeDone = false →
      s.readParams.sw.bootLog.updating ≠ 1 → s.readParams.sw.bootLog.fwBytes = 0 →
    ∃ t, exec (.settingsStoreReadDone a b) s = .next t ∧ t.mc.phase = .recovery ∧ t.mc.cause = 1 ∧ t.mc.storeDone = false) ∧
  (∀ (a b : Bool) (s : State), s.mc.phase = .marks → s.mc.fuseDone = true → s.mc.storeDone = false →
      s.readParams.sw.bootLog.updating = 1 →
    ∃ t, exec (.settingsStoreReadDone a b) s = .next t ∧ t.mc.phase = .recovery ∧ t.mc.cause = 3) ∧
  (∀ (b : Bool) (s : State), s.mc.phase = .marks → s.mc.fuseDone = true → s.mc.storeDone = false →
      s.readParams.sw.bootLog.updating ≠ 1 → s.readParams.sw.bootLog.fwBytes ≠ 0 →
    ∃ t, exec (.settingsStoreReadDone false b) s = .next t ∧ t.mc.phase = .recovery ∧ t.mc.cause = 2 ∧
      t.mc.storeDone = false) ∧
  (∀ (b : Bool) (s : State), s.mc.phase = .marks → s.mc.fuseDone = true → s.mc.storeDone = false →
      s.readParams.sw.bootLog.updating = 0 → s.readParams.sw.bootLog.fwBytes ≠ 0 → fwHeaderOk (s.readParams.sw.bytes
      fwAddr s.readParams.sw.bootLog.fwBytes) s.readParams.sw.bootLog.fwBytes = true → s.readParams.sw.bootImage = []
      →
    ∃ t, exec (.settingsStoreReadDone true b) s = .next t ∧ t.mc.phase = .marks ∧ t.mc.storeDone = true ∧ t.mc.noImage = true ∧
      t.sw.busyBoot = false ∧
      t.mc.fwHash = sha256 ((s.readParams.sw.bytes fwAddr s.readParams.sw.bootLog.fwBytes).take
        (u32At (s.readParams.sw.bytes fwAddr s.readParams.sw.bootLog.fwBytes) 32)) ∧
      t.mc.fwMajor = byteAt (s.readParams.sw.bytes fwAddr s.readParams.sw.bootLog.fwBytes) 12 ∧
      t.qe.versions = s.sw.versions ∧ t.lp.volMap = s.sw.volMap)

/-- ENTER_BLOCKS, DRAM_TRAINING_DONE, NT_SWEEP_DONE, BOOT_IMAGE_APPLY, MAP_REPLAY_DONE, DIRECTORY_REBUILD_DONE,
FC_PATH_PRIMED, ENTER_GO and PS4_EXIT. -/
def Obligations.BlocksSteps : Prop :=
  (∀ (ms : Nat) (s : State), s.mc.phase = .marks → s.mc.storeDone = true → s.fl.fatalStands = false →
    exec (.enterBlocks ms) s = .next { s with
      mc := { s.mc with phase := .blocks, marksMs := ms % 65536, path := .cold, event := setEv s.mc.event 1 }
      sw := s.sw.cleanPairs
      qe := { s.qe with ready := s.qe.enabled } }) ∧
  (∀ (k : Nat) (s : State), s.inBlocks = true → k < 16 → k ∉ s.rl.ntReady → k ∉ s.mc.trained → s.mc.attempts.findD
      k 0 < 3 →
    exec (.dramTrainingDone k true) s = .next { s with mc := { s.mc with trained := k :: s.mc.trained } }) ∧
  (∀ (k : Nat) (s : State), s.inBlocks = true → k < 16 → k ∉ s.rl.ntReady → k ∉ s.mc.trained → s.mc.attempts.findD
      k 0 < 2 →
    exec (.dramTrainingDone k false) s =
      .next { s with mc := { s.mc with attempts := s.mc.attempts.put k (s.mc.attempts.findD k 0 + 1) } }) ∧
  (∀ (k : Nat) (s : State), s.inBlocks = true → k ∈ s.mc.trained →
    ∃ t, exec (.ntSweepDone k) s = .next t ∧ t.rl.ntReady = k :: s.rl.ntReady ∧ k ∉ t.mc.trained ∧
      (∀ a, readCell 0 t.rl.near a = if a / 4096 % 16 = k then 0 else readCell 0 s.rl.near a) ∧
      t.rl.far = s.rl.far ∧ t.rl.dir = s.rl.dir ∧ t = { s with mc := t.mc, rl := t.rl, fl := t.fl } ∧
      (t.ntAll = false → t.fl = s.fl)) ∧
  (∀ (s : State), s.inBlocks = true → s.ntAll = true → s.allSwept = true → s.mc.imageDone = false → s.mc.bootImage
      = [] →
    exec .bootImageApply s = .next { s with mc := { s.mc with imageDone := true, noImage := true } }) ∧
  (∀ (s : State), s.inBlocks = true → s.ntAll = true → s.allSwept = true → s.mc.imageDone = false → s.mc.bootImage
      ≠ [] →
    ∃ t, exec .bootImageApply s = .next t ∧ t.sl.gen = 1 ∧ t.sl.imageId = BitVec.ofNat 64 (imId s.mc.bootImage) ∧
      t.sl.format = imFormat s.mc.bootImage ∧ t.se.measure = List.replicate 32 0) ∧
  (∀ (ms : Nat) (s : State), s.inBlocks = true → s.ntAll = true → s.mm.replayed = false → s.qe.store = [] →
      s.mm.replayMap.lostWrites = [] →
    ∃ t, exec (.mapReplayDone ms) s = .next t ∧ t.mm.replayed = true ∧ t.mm.replayMs = satTo 0xFFFF ms ∧
      t.mm.epoch = (if s.mc.path = .cold then s.mm.replayMap.mediumEpoch + 1
        else max s.mm.replayMap.epoch (s.mm.replayMap.mediumEpoch + 1)) ∧
      t.mm.stripes = s.mm.replayMap.stripes.filter (fun x => x.2.verified) ∧ t.mm.openStripe = none ∧
      t.mm.clean = ((s.mm.replayMap.stripes.filter (fun x => x.2.verified)).length == s.mm.replayMap.stripes.length
        && !s.mm.replayMap.lossDirty) ∧
      t.mm.pages = s.mm.replayMap.pages ∧ t.mm.bulk = s.mm.replayMap.bulk ∧ t = { s with mm := t.mm }) ∧
  (∀ (s : State), s.inBlocks = true → s.mm.replayed = true → s.rl.ftReady = false →
    exec .directoryRebuildDone s = .next { s with rl := { s.rl with ftReady := true } }) ∧
  (∀ (s : State), s.inBlocks = true → s.mm.replayed = true → s.mc.fcPath = false →
    exec .fcPathPrimed s = .next { s with mc := { s.mc with fcPath := true } }) ∧
  (∀ (ms : Nat) (s : State), s.mayGo = true → s.qe.ps = s.qe.psAtGo →
    ∃ t, exec (.enterGo ms) s = .next t ∧
      t.mc = { s.mc with phase := .go, blocksMs := satTo 0xFFFF ms, event := setEv s.mc.event 0 } ∧
      t.ns.table = [] ∧ t.ns.full = false ∧ t = { s with mc := t.mc, ns := t.ns, pc := t.pc } ∧
      (s.pc.bandOn = false → t.pc = s.pc)) ∧
  (∀ (n : Nat) (s : State), s.inGo = true → s.qe.ps = 4 → s.qe.psWant = some n → n ≠ 4 →
    ∃ t, exec .ps4Exit s = .next t ∧ t.mc.phase = .blocks ∧ t.mc.entry = 5 ∧ t.mc.path = .ps4 ∧ t.qe.ps = s.qe.psLastOp ∧
      t.qe.psWant = none ∧ t.qe.psAtGo = n ∧ (∀ e ∈ t.tiles, e.2.swept = false) ∧ t.ns.table = [] ∧
      t.rl = s.rl ∧ t.mm = s.mm ∧ t.jd = s.jd ∧ t.fl = s.fl) ∧
  (∀ (ms : Nat) (b : ClearBy) (s : State), s.mc.phase ≠ .marks → s.mc.fatalClear = some b → s.halted = true →
      s.mc.retrain = [] →
    ∃ t, exec (.enterBlocks ms) s = .next t ∧ t.mc.phase = .blocks ∧ t.mc.entry = 4 ∧ t.mc.path = .fatalKept ∧
      t.mc.fatalClear = none ∧ t.fl.standing = s.fl.standing.filter (fun x => x.record.cls != 2) ∧ t.fl.result = 0 ∧
      t.fl.done = true ∧ t.fl.critFatal = false ∧ t.power.tileSupply = true ∧ (∀ e ∈ t.tiles, e.2.swept = false))

/-- BEAT_EDGE, MISSED_BEAT, FREERUN_ENTRY and FREERUN_BOUNDARY in each mode of the Pacer. Nothing but the Pacer and, where
a record is posted, FL changes. -/
def Obligations.PacerEdges : Prop :=
  (∀ (h a b : Nat) (s : State), s.mc.phase ≠ .off → s.pc.mode = .freerun → 1000 ≤ h →
    exec (.beatEdge h a b) s = .next { s with pc := { s.pc with mode := .acquire, acquired := [] } }) ∧
  (∀ (h a b : Nat) (s : State), s.mc.phase ≠ .off → s.pc.mode = .acquire → 1000 ≤ h → b < 200000 ∨ 5000000 < b →
    exec (.beatEdge h a b) s = .next { s with pc := { s.pc with acquired := [] } }) ∧
  (∀ (h a b : Nat) (s : State), s.mc.phase ≠ .off → s.pc.mode = .acquire → 1000 ≤ h → 200000 ≤ b ∧ b ≤ 5000000 →
      s.pc.acquired.length = 7 → (∀ x ∈ b :: s.pc.acquired, 800 * x ≤ 101 * (b :: s.pc.acquired).sum ∧ 99 * (b ::
      s.pc.acquired).sum ≤ 800 * x) →
    ∃ t, exec (.beatEdge h a b) s = .next t ∧ t.pc.mode = .locked ∧ t.pc.periodNs = (b :: s.pc.acquired).sum / 8 ∧
      t.pc.meanOf = b :: s.pc.acquired ∧ t.pc.missRun = 0 ∧ t.pc.event = setEv s.pc.event 1 ∧ t = { s with pc := t.pc }) ∧
  (∀ (h a b : Nat) (s : State), s.mc.phase ≠ .off → s.pc.mode = .locked → 1000 ≤ h → 875 * s.pc.periodNs ≤ 1000 * a
      ∧ 1000 * a ≤ 1125 * s.pc.periodNs → s.pc.lastByEdge = true →
    exec (.beatEdge h a b) s = .next { s with pc := { s.pc with
      meanOf := (a :: s.pc.meanOf).take 8
      periodNs := ((a :: s.pc.meanOf).take 8).sum / ((a :: s.pc.meanOf).take 8).length
      missRun := 0 } }) ∧
  (∀ (h a b : Nat) (s : State), s.mc.phase ≠ .off → s.pc.mode = .locked → 1000 ≤ h → 875 * s.pc.periodNs ≤ 1000 * a
      ∧ 1000 * a ≤ 1125 * s.pc.periodNs → s.pc.lastByEdge = false →
    exec (.beatEdge h a b) s = .next { s with pc := { s.pc with missRun := 0, lastByEdge := true } }) ∧
  (∀ (h a b : Nat) (s : State), s.mc.phase ≠ .off → s.pc.mode = .locked → h < 1000 ∨ 1000 * a < 875 * s.pc.periodNs
      → s.ntAll = true → (srcPC, kFalseStart, 0) ∉ s.fl.beatPosts →
    ∃ t, exec (.beatEdge h a b) s = .next t ∧ t.pc = { s.pc with cntFalse := sat16 (s.pc.cntFalse + 1) } ∧
      RecordWritten s t srcPC kFalseStart 0 0 0 0 0 0 ∧ (srcPC, kFalseStart, 0) ∈ t.fl.beatPosts ∧
      t = { s with pc := t.pc, fl := t.fl }) ∧
  (∀ (s : State), s.mc.phase ≠ .off → s.pc.mode = .locked → s.pc.missRun < 4 →
    exec .missedBeat s = .next { s with pc := { s.pc with
      cntMiss := sat16 (s.pc.cntMiss + 1), missRun := s.pc.missRun + 1, lastByEdge := false } }) ∧
  (∀ (s : State), s.mc.phase ≠ .off → s.pc.mode = .locked → s.pc.missRun = 4 →
    ∃ t, exec .freerunEntry s = .next t ∧ t.pc.mode = .freerun ∧ t.pc.freeNs = s.pc.periodNs ∧ t.pc.periodNs = s.pc.periodNs ∧
      t.pc.event = setEv s.pc.event 0 ∧ t.pc.missRun = 0 ∧ t.pc.acquired = [] ∧
      t.pc.reports.length = s.pc.reports.length + (if s.pc.endpoint.isSome then 1 else 0) ∧ t = { s with pc := t.pc }) ∧
  (∀ (s : State), s.mc.phase ≠ .off → s.pc.mode ≠ .locked →
    exec .freerunBoundary s = .next { s with pc := { s.pc with lastByEdge := false } })

/-- SETPOINT, PERIOD, SETPOINT_TAKE_EFFECT and REPORT_TIMER. That a PERIOD restarts the mean with eight copies of T is the
model's reading (assumption entry 13). -/
def Obligations.CadenceMessages : Prop :=
  (∀ (ep : Nat) (b : List Byte) (s : State), s.mc.phase ≠ .off → s.power.eid ≠ none → setpointOk b = true →
    exec (.setpoint ep b) s = .next { s with pc := { s.pc with
      facOffset := BitVec.ofNat 64 (u64At b 8) - BitVec.ofNat 64 s.pc.beat
      msgVersion := byteAt b 2
      endpoint := some ep
      scheduled := s.pc.scheduled ++
        [(effectBeat s.pc.beat (BitVec.ofNat 64 (u64At b 8) - BitVec.ofNat 64 s.pc.beat) (u64At b 16),
          .setpoint (bitN (byteAt b 28) 0) (bitN (byteAt b 28) 1) (min 8191 (u16At b 24)) (min 8191 (u16At b 26)))] } }) ∧
  (∀ (ep : Nat) (b : List Byte) (s : State), s.mc.phase ≠ .off → s.power.eid ≠ none → periodOk b = true →
    exec (.period ep b) s = .next { s with pc := { s.pc with
      facOffset := BitVec.ofNat 64 (u64At b 8) - BitVec.ofNat 64 s.pc.beat
      msgVersion := 2
      scheduled := s.pc.scheduled ++
        [(effectBeat s.pc.beat (BitVec.ofNat 64 (u64At b 8) - BitVec.ofNat 64 s.pc.beat) (u64At b 16), .period (u32At b 32))] } }) ∧
  (∀ (ep : Nat) (b : List Byte) (s : State), s.mc.phase ≠ .off → s.power.eid ≠ none → setpointOk b = false →
      periodOk b = false → s.ntAll = true → (srcPC, kProtocol, 0) ∉ s.fl.beatPosts →
    ∃ t, exec (.setpoint ep b) s = .next t ∧ exec (.period ep b) s = .next t ∧
      t.pc = { s.pc with event := setEv s.pc.event 3 } ∧ RecordWritten s t srcPC kProtocol 0 0 0 0 0 0 ∧
      t = { s with pc := t.pc, fl := t.fl }) ∧
  (∀ (ep : Nat) (b : List Byte) (s : State), s.mc.phase = .off ∨ s.power.eid = none →
    exec (.setpoint ep b) s = .next s ∧ exec (.period ep b) s = .next s) ∧
  (∀ (n us : Nat) (s : State), s.mc.phase ≠ .off → s.pc.scheduled = [(n, .period us)] → n ≤ s.pc.beat →
      s.pc.bandState = s.bandNow →
    exec .setpointTakeEffect s = .next { s with pc :=
      if s.pc.mode = .locked then
        { s.pc with scheduled := [], periodNs := 1000 * us, meanOf := List.replicate 8 (1000 * us) }
      else { s.pc with scheduled := [], periodNs := 1000 * us, freeNs := 1000 * us } }) ∧
  (∀ (n g w : Nat) (s : State), s.mc.phase ≠ .off → s.pc.scheduled = [(n, .setpoint true true g w)] → n ≤ s.pc.beat
      → s.pc.srcHost = false → s.qe.ps < 2 →
    ∃ t, exec .setpointTakeEffect s = .next t ∧ t.pc.scheduled = [] ∧ t.pc.targetW = g ∧ t.pc.tolW = w ∧ t.pc.bandOn = true ∧
      t.pc.lowDemand = true ∧ t.pc.periodNs = s.pc.periodNs ∧ t = { s with pc := t.pc } ∧
      ((s.pc.bandOn = true ∧ s.pc.targetW = g ∧ s.pc.tolW = w) ∨ t.pc.settle = 2 * s.pc.windowBeats)) ∧
  (∀ (s : State), s.mc.phase ≠ .off → 0 < bitsW s.pc.bandCtl 31 16 → bitsW s.pc.bandCtl 31 16 ≤ s.pc.reportCount →
    ∃ t, exec .reportTimer s = .next t ∧ t.pc.reportCount = 0 ∧ t = { s with pc := t.pc } ∧
      t.pc.reports.length = s.pc.reports.length + (if s.pc.endpoint.isSome then 1 else 0) ∧
      (∀ ep, s.pc.endpoint = some ep → t.pc.reports = s.mkReport ep :: s.pc.reports ∧
        t.pc.reportSeq = (s.pc.reportSeq + 1) % 65536))

/-- BEAT_BOUNDARY. -/
def Obligations.BeatBoundaries : Prop :=
  (∀ (b : BoundaryInfo) (s : State), s.mc.phase = .marks ∨ s.mc.phase = .recovery ∨ s.mc.phase = .halted →
      s.pc.thermalCeil = none → s.commitsIdle →
    ∃ t, exec (.beatBoundary b) s = .next t ∧ t.pc.beat = s.pc.beat + 1 ∧ t.pc.beatW = b.meanW ∧
      1000000 * t.pc.energyMJ + t.pc.energyFrac = 1000000 * s.pc.energyMJ + s.pc.energyFrac + b.meanW * b.durNs ∧
      t.pc.energyFrac < 1000000 ∧ t.pc.ceilingW = t.ceiling ∧
      (∀ x ∈ t.pc.scheduled, x ∈ s.pc.scheduled ∧ s.pc.beat + 1 < x.1) ∧ t.fl = { s.fl with beatPosts := [] } ∧
      t.mm = { s.mm with
        epoch := if s.mm.replayed then s.mm.epoch + 1 else s.mm.epoch, clockNs := s.mm.clockNs + b.durNs,
        pool := t.mm.pool, beatOld := t.mm.beatOld, retries := t.mm.retries, loops := t.mm.loops, retireLog := t.mm.retireLog } ∧
      t = { s with
        pc := t.pc, fl := t.fl, mm := t.mm, qe := { s.qe with psWant := t.qe.psWant }
        sl := { s.sl with drainBeats := t.sl.drainBeats, quiet := t.sl.quiet } }) ∧
  (∀ (b : BoundaryInfo) (s : State), s.mc.phase = .blocks ∨ s.mc.phase = .go → s.fl.fatalStands = true →
      s.commitsIdle →
    ∃ t, exec (.beatBoundary b) s = .next t ∧ t.mc = { s.mc with phase := .halted, event := setEv s.mc.event 2 } ∧
      t.pc.beat = s.pc.beat + 1 ∧ t.qe = { s.qe with psWant := t.qe.psWant } ∧ t.jd = s.jd ∧ t.tiles = s.tiles ∧ t.rl = s.rl) ∧
  (∀ (b : BoundaryInfo) (s : State), s.inGo = true → s.sl.set_.squads = [] → s.jd.jobs = [] → s.bandActive = false
      → s.pc.thermalCeil = none → s.fl.fatalStands = false → s.commitsIdle → (∀ e ∈ s.rl.dir, e.2.state ≠ .promoting)
      →
    ∃ t, exec (.beatBoundary b) s = .next t ∧ t.pc.beat = s.pc.beat + 1 ∧ t.pc.beatW = b.meanW ∧
      t.pc.ceilingW = t.ceiling ∧ t.pc.bandState = t.bandNow ∧
      t.mm = { s.mm with
        epoch := if s.mm.replayed then s.mm.epoch + 1 else s.mm.epoch, clockNs := s.mm.clockNs + b.durNs,
        pool := t.mm.pool, beatOld := t.mm.beatOld, retries := t.mm.retries, loops := t.mm.loops, retireLog := t.mm.retireLog } ∧
      t = { s with
        pc := t.pc, fl := { s.fl with beatPosts := [] }, mm := t.mm, qe := { s.qe with psWant := t.qe.psWant }
        sl := { s.sl with drainBeats := t.sl.drainBeats } }) ∧
  (∀ (b : BoundaryInfo) (c : Nat) (s : State), s.mc.phase = .marks ∨ s.mc.phase = .recovery ∨ s.mc.phase = .halted
      → s.pc.thermalCeil = some c →
    ∃ t, exec (.beatBoundary b) s = .next t ∧ t.pc.beat = s.pc.beat + 1 ∧
      t.pc.thermalCeil =
        (if s.pc.rising = false then
           (if s.pc.triggers.any s.atTrigger = true then some (c * 95 / 100) else some c)
         else if capOf s.qe.ps < c + (2 * c + 99) / 100 then none
         else some (c + (2 * c + 99) / 100)))

/-- THERMAL_TRIGGER, THERMAL_CEILING_END, THERMAL_SHUTDOWN, OUTLET_ALERT, OUTLET_ALERT_END and DRAM_HOT_REFRESH.
Temperatures are in tenths of a degree. -/
def Obligations.ThermalEvents : Prop :=
  (∀ (n x l : Nat) (s : State), s.linkUp = true → triggerAt n = some l → l ≤ x → n ≠ 1 → s.pc.thermalCeil = none →
      s.ntAll = true → (srcThermal, kThermal, n) ∉ s.fl.beatPosts →
    ∃ t, exec (.thermalTrigger n x) s = .next t ∧ t.power.temps.find n = some x ∧
      RecordWritten s t srcThermal kThermal 0 0 (BitVec.ofNat 32 n) (BitVec.ofNat 32 x) 0 0 ∧
      t.pc.thermalCeil = some (s.pc.beatW * 95 / 100) ∧ t.pc.rising = false ∧ n ∈ t.pc.triggers ∧ t.pc.event = setEv s.pc.event 4 ∧
      t = { s with power := t.power, pc := t.pc, fl := t.fl }) ∧
  (∀ (x l c : Nat) (n : Nat) (s : State), s.linkUp = true → triggerAt n = some l → l ≤ x → s.pc.thermalCeil = some
      c →
    ∃ t, exec (.thermalTrigger n x) s = .next t ∧ t.pc.thermalCeil = some c ∧ t.pc.rising = false ∧ n ∈ t.pc.triggers) ∧
  (∀ (xs : List (Nat × Nat)) (c : Nat) (s : State), s.pc.thermalCeil = some c → ((∀ n l, triggerAt n = some l →
      (xs.foldl (fun m x => m.put x.1 x.2) s.power.temps).findD n 0 + 30 ≤ l)) →
    exec (.thermalCeilingEnd xs) s = .next { s with
      power := { s.power with temps := xs.foldl (fun m x => m.put x.1 x.2) s.power.temps }
      pc := { s.pc with triggers := [], rising := true } }) ∧
  (∀ (n x : Nat) (s : State), s.linkUp = true → isJunction n = true → 1150 ≤ x → s.ntAll = true → s.inBlocks =
      false → s.inGo = false → s.mc.fatalClear = none →
    ∃ t, exec (.thermalShutdown n x) s = .next t ∧ t.power.tileSupply = false ∧ t.power.temps.find n = some x ∧
      RecordWritten s t srcThermal kThermal 2 0 (BitVec.ofNat 32 n) (BitVec.ofNat 32 x) 0 0 ∧ t.fl.fatalStands = true) ∧
  (∀ (n x : Nat) (s : State), s.mc.phase = .go → s.inGo = true → isJunction n = true → 1150 ≤ x → s.ntAll = true →
    ∃ t, exec (.thermalShutdown n x) s = .next t ∧ t.power.tileSupply = false ∧ t.halted = true) ∧
  (∀ (x : Nat) (s : State), s.linkUp = true → s.power.vinAccepted = true → s.power.failing = false → 780 ≤ x →
      s.ntAll = true → (srcThermal, kThermal, 1) ∉ s.fl.beatPosts →
    ∃ t, exec (.outletAlert x) s = .next t ∧ t.power.outletHot = true ∧ t.power.temps.find 1 = some x ∧
      RecordWritten s t srcThermal kThermal 0 0 1 (BitVec.ofNat 32 x) 0 0 ∧ t = { s with power := t.power, fl := t.fl }) ∧
  (∀ (x : Nat) (s : State), s.power.vinAccepted = true → x < 780 →
    ∃ t, exec (.outletAlertEnd x) s = .next t ∧ t = { s with power := { s.power with
      temps := s.power.temps.put 1 x, outletHot := false, alertSeen := t.power.alertSeen, ibis := t.power.ibis } }) ∧
  (∀ (k x : Nat) (s : State), s.linkUp = true → k < 16 →
    ∃ t, exec (.dramHotRefresh k x) s = .next t ∧ t.power.temps = s.power.temps.put (2 + k) x ∧
      (k ∈ t.power.refresh2x ↔ 850 < x) ∧ (∀ j, j ≠ k → (j ∈ t.power.refresh2x ↔ j ∈ s.power.refresh2x)) ∧
      t = { s with power := { s.power with temps := t.power.temps, refresh2x := t.power.refresh2x } })

/-- The last two clauses are about every command of a queue, one constructor of Instr each (hostCommand). State.answered
is the state after a command that has no other effect; the statements about single commands are said in terms of it. -/
def Obligations.CommandsAnswered : Prop :=
  (∀ (c : CmdId) (st d0 d1 : Nat) (x : List (List Byte)) (s : State), s.canFetch c = true →
    Completed (s.answered c st d0 d1 x) c st d0 d1 x ∧
    (∀ q, s.qe.sqs.find c.sq = some q → q.blocked = none →
      (s.answered c st d0 d1 x).qe.sqs.find c.sq = some { q with head := (q.head + 1) % max q.size 1 }) ∧
    (s.answered c st d0 d1 x).qe.fetched = s.qe.fetched ∧
    (∀ n, n ≠ c.sq → (s.answered c st d0 d1 x).qe.sqs.find n = s.qe.sqs.find n) ∧
    (s.qe.cqFull (s.qe.cqOf c) = false →
      (s.answered c st d0 d1 x).qe.posted = mkCompletion c st d0 d1 x :: s.qe.posted) ∧
    (s.qe.cqFull (s.qe.cqOf c) = true →
      (s.answered c st d0 d1 x).qe.cqWait = s.qe.cqWait ++ [mkCompletion c st d0 d1 x] ∧
      (s.answered c st d0 d1 x).qe.posted = s.qe.posted) ∧
    s.answered c st d0 d1 x = { s with qe := (s.answered c st d0 d1 x).qe }) ∧
  (∀ (c : CmdId) (g : Gate) (f : State → State) (s : State), s.canFetch c = false →
    s.command c g f = s) ∧
  (∀ (c : CmdId) (g : Gate) (f : State → State) (st : Nat) (s : State), s.canFetch c = true → s.gate g = some st →
    s.command c g f = s.answered c st 0 0 []) ∧
  (∀ (g : Gate) (s : State), s.mc.phase = .recovery →
    s.gate g = if g = .recovery ∨ g = .image ∨ g = .fwCommit then none else some stSequence) ∧
  (∀ (g : Gate) (s : State), s.halted = true → s.mc.phase ≠ .recovery →
    s.gate g = if g = .served ∨ g = .recovery ∨ g = .image then none else some stInternal) ∧
  (∀ (g : Gate) (s : State), s.inGo = true →
    s.gate g = none) ∧
  (∀ (i : Instr) (c : CmdId) (g : Option Gate) (s : State), hostCommand i = some (c, g) → s.canFetch c = false →
    exec i s = .next s) ∧
  (∀ (i : Instr) (c : CmdId) (g : Gate) (st : Nat) (s : State), hostCommand i = some (c, some g) → s.canFetch c =
      true → s.gate g = some st →
    exec i s = .next (s.answered c st 0 0 []))

/-- SQ_TAIL_DOORBELL and CQ_HEAD_DOORBELL. That a value outside the queue is ignored is assumption entry 5. -/
def Obligations.QueueDoorbells : Prop :=
  (∀ (n v : Nat) (q : Sq) (s : State), s.linkUp = true → s.qe.sqs.find n = some q → v < q.size → v ≠ q.head →
    ∃ t, exec (.sqTailDoorbell n v) s = .next t ∧ t.qe.sqs = s.qe.sqs.put n { q with tail := v } ∧
      t.qe.psWant = (if n ≠ 0 ∧ 3 ≤ s.qe.ps then some s.qe.psLastOp else s.qe.psWant) ∧
      t = { s with qe := { s.qe with sqs := t.qe.sqs, psWant := t.qe.psWant, psAuto := t.qe.psAuto } }) ∧
  (∀ (n v : Nat) (k : Cq) (s : State), s.linkUp = true → s.qe.cqs.find n = some k → v < k.size → s.qe.cqWait = [] →
    exec (.cqHeadDoorbell n v) s = .next { s with qe := { s.qe with cqs := s.qe.cqs.put n { k with head := v } } }) ∧
  (∀ (n v : Nat) (k : Cq) (x : Completion) (s : State), s.linkUp = true → s.qe.cqs.find n = some k → v < k.size →
      s.qe.cqWait = [x] → s.qe.cqOf x.c = n → (k.tail + 1) % max k.size 1 ≠ v →
    ∃ t, exec (.cqHeadDoorbell n v) s = .next t ∧ t.qe.posted = x :: s.qe.posted ∧ t.qe.cqWait = [] ∧
      t.qe.cqs.find n = some { k with head := v, tail := (k.tail + 1) % max k.size 1 } ∧
      t = { s with qe := { s.qe with cqs := t.qe.cqs, posted := t.qe.posted, irqs := t.qe.irqs, cqWait := [] } }) ∧
  (∀ (n v : Nat) (q : Sq) (s : State), s.linkUp = true → s.qe.sqs.find n = some q → v < q.size → v = q.head →
    exec (.sqTailDoorbell n v) s = .next { s with qe := { s.qe with sqs := s.qe.sqs.put n { q with tail := v } } }) ∧
  (∀ (n v : Nat) (s : State), (s.linkUp = false ∨ s.qe.sqs.find n = none ∨ (∃ q, s.qe.sqs.find n = some q ∧ q.size
      ≤ v)) →
    exec (.sqTailDoorbell n v) s = .next s) ∧
  (∀ (n v : Nat) (s : State), (s.linkUp = false ∨ s.qe.cqs.find n = none ∨ (∃ k, s.qe.cqs.find n = some k ∧ k.size
      ≤ v)) →
    exec (.cqHeadDoorbell n v) s = .next s)

/-- CONTROLLER_ENABLE, CONTROLLER_RESET, FLR_FUNCTION0, FLR_FUNCTION1, NVME_SHUTDOWN and LP_CTL_RESET. -/
def Obligations.ControllerLifecycle : Prop :=
  (∀ (s : State), s.linkUp = true → s.qe.enabled = false →
    exec .controllerEnable s = .next { s with qe := { s.qe with
      cc := s.qe.cc ||| 1, enabled := true
      ready := s.mc.phase == .blocks || s.mc.phase == .go || s.mc.phase == .halted || s.mc.phase == .recovery
      sqs := [(0, { size := bitsW s.qe.aqa 11 0 + 1, prio := 0, cq := 0, tail := 0, head := 0, blocked := none })]
      cqs := [(0, { size := bitsW s.qe.aqa 27 16 + 1, vector := 0, ien := true, head := 0, tail := 0 })] } }) ∧
  (∀ (s : State), s.linkUp = true →
    ∃ t, exec .controllerReset s = .next t ∧ t.qe.enabled = false ∧ t.qe.ready = false ∧ t.qe.cc = 0 ∧ t.qe.sqs = [] ∧
      t.qe.cqs = [] ∧ t.qe.aers = [] ∧ t.qe.cqWait = [] ∧ t.qe.features = [] ∧ t.qe.apst = [] ∧ t.qe.apstOn = false ∧
      t.qe.shst = 0 ∧ t.qe.masked = [] ∧ t.qe.events = []) ∧
  (∀ (s : State), s.linkUp = true → s.jd.jobs = [] →
    ∃ t, exec .controllerReset s = .next t ∧ t.mm = s.mm ∧ t.fl.ring = s.fl.ring ∧ t.fl.standing = s.fl.standing ∧
      t.pc = s.pc ∧ t.power = s.power ∧ t.tiles = s.tiles ∧ t.lp = s.lp ∧ t.qe.aqa = s.qe.aqa ∧ t.qe.asq = s.qe.asq ∧
      t.qe.acq = s.qe.acq ∧ t.mc.phase = s.mc.phase) ∧
  (∀ (s : State), s.linkUp = true →
    ∃ t, exec .controllerReset s = .next t ∧
      exec .flrFunction0 s = .next { t with qe := { t.qe with aqa := 0, asq := 0, acq := 0 } }) ∧
  (∀ (s : State), s.linkUp = true →
    ∃ t, exec .flrFunction1 s = .next t ∧ t.lp.reqProd = 0 ∧ t.lp.reqCons = 0 ∧ t.lp.rplProd = 0 ∧ t.lp.rplCons = 0 ∧
      t.lp.cmds = [] ∧ t.lp.outq = [] ∧ (∀ c ∈ t.qe.fetched, c.sq ≠ lpQueue)) ∧
  (∀ (s : State), s.linkUp = true → (∀ k ∈ s.qe.store, k.c.sq ≠ lpQueue) → (∀ x ∈ s.qe.held, x.sq ≠ lpQueue) →
    exec .flrFunction1 s = .next { s with
      qe := { s.qe with fetched := s.qe.fetched.filter (fun c => c.sq != lpQueue) }
      lp := { s.lp with reqProd := 0, reqCons := 0, rplProd := 0, rplCons := 0, cmds := [], outq := [] } }) ∧
  (∀ (v : W32) (s : State), s.vendorLive = true →
    ∃ t, exec .flrFunction1 s = .next t ∧ exec (.lpCtlReset v) s = .next { t with lp := { t.lp with enable := bitW v 0 } }) ∧
  (∀ (s : State), s.linkUp = true → s.qe.enabled = true →
    exec .nvmeShutdown s = .next { s with qe := { s.qe with shst := 2 } }) ∧
  (∀ (s : State), s.linkUp = false ∨ s.qe.enabled = true →
    exec .controllerEnable s = .next s) ∧
  (∀ (s : State), s.linkUp = false ∨ s.qe.enabled = false →
    exec .nvmeShutdown s = .next s) ∧
  (∀ (v : W32) (s : State), s.linkUp = false →
    exec .controllerReset s = .next s ∧ exec .flrFunction0 s = .next s ∧ exec .flrFunction1 s = .next s ∧
    exec (.lpCtlReset v) s = .next s)

/-- CREATE_IO_CQ, CREATE_IO_SQ, DELETE_IO_SQ, DELETE_IO_CQ, HL_PCIE_ERROR and DATA_TRANSFER_ERROR. The status of a queue
that cannot be made is the NVM Express base specification's (assumption entry 6). -/
def Obligations.QueueCommands : Prop :=
  (∀ (c : CmdId) (n z v : Nat) (i : Bool) (s : State), s.serves c .served → 1 ≤ n ∧ n ≤ 512 → s.qe.cqs.find n =
      none → 0 < z ∧ z ≤ 4095 → v ≤ 512 →
    exec (.createIoCq c n z v i true) s =
      .next ({ s with qe := { s.qe with
        cqs := s.qe.cqs.put n { size := z + 1, vector := v, ien := i, head := 0, tail := 0 } } }.answered c stOk 0 0 [])) ∧
  (∀ (c : CmdId) (n z p k : Nat) (s : State), s.serves c .served → 1 ≤ n ∧ n ≤ 512 → s.qe.sqs.find n = none → 0 < z
      ∧ z ≤ 4095 → p < 4 → 1 ≤ k ∧ k ≤ 512 → (s.qe.cqs.find k).isSome = true →
    ∃ t, exec (.createIoSq c n z p k true) s = .next t ∧ Completed t c stOk 0 0 [] ∧
      t.qe.sqs.find n = some { size := z + 1, prio := p, cq := k, tail := 0, head := 0, blocked := none } ∧
      (∀ m, m ≠ n → m ≠ c.sq → t.qe.sqs.find m = s.qe.sqs.find m) ∧ t.qe.fetched = s.qe.fetched ∧ t = { s with qe := t.qe }) ∧
  (∀ (c : CmdId) (n : Nat) (s : State), s.serves c .served → c.sq = 0 → 1 ≤ n ∧ n ≤ 512 → (s.qe.sqs.find n).isSome
      = true →
    ∃ t, exec (.deleteIoSq c n) s = .next t ∧ Completed t c stOk 0 0 [] ∧ t.qe.sqs.find n = none ∧
      (∀ d ∈ t.qe.fetched, d.sq ≠ n) ∧ (∀ m, m ≠ n → m ≠ 0 → t.qe.sqs.find m = s.qe.sqs.find m) ∧
      t.mm = s.mm ∧ t.power = s.power ∧ t.pc = s.pc ∧ t.tiles = s.tiles) ∧
  (∀ (c : CmdId) (n : Nat) (s : State), s.serves c .served → 1 ≤ n ∧ n ≤ 512 → (s.qe.cqs.find n).isSome = true →
      ((∀ q ∈ KMap.vals s.qe.sqs, q.cq ≠ n)) →
    exec (.deleteIoCq c n) s = .next ({ s with qe := { s.qe with cqs := s.qe.cqs.del n } }.answered c stOk 0 0 [])) ∧
  (∀ (c : CmdId) (n : Nat) (q : Sq) (s : State), s.serves c .served → 1 ≤ n ∧ n ≤ 512 → (s.qe.cqs.find n).isSome =
      true → q ∈ KMap.vals s.qe.sqs → q.cq = n →
    exec (.deleteIoCq c n) s = .next (s.answered c stQueueDelete 0 0 [])) ∧
  (∀ (f b : Nat) (s : State), s.linkUp = true → s.ntAll = true → (srcHL, kProtocol, f * 32 + b) ∉ s.fl.beatPosts →
    ∃ t, exec (.hlPcieError f b) s = .next t ∧ RecordWritten s t srcHL kProtocol 0 0 (BitVec.ofNat 32 f) (BitVec.ofNat 32 b) 0 0 ∧
      t = { s with fl := t.fl }) ∧
  (∀ (c : CmdId) (a : W64) (s : State), c ∈ s.qe.fetched → s.ntAll = true → s.storeCmd c = none → s.jd.jobs = [] →
      s.rl.copies = [] →
    ∃ t, exec (.dataTransferError c a) s = .next t ∧ Completed t c stDataTransfer 0 0 [] ∧
      RecordWritten s t srcQE kProtocol 0 a 0 0 0 0 ∧ t = { s with fl := t.fl, qe := t.qe }) ∧
  (∀ (c : CmdId) (a : W64) (s : State), c ∈ s.qe.fetched → s.ntAll = true →
    ∃ u, RecordWritten s u srcQE kProtocol 0 a 0 0 0 0 ∧ u = { s with fl := u.fl } ∧
      exec (.dataTransferError c a) s = .next (u.transferFails c)) ∧
  (∀ (c : CmdId) (a : W64) (s : State), c ∉ s.qe.fetched →
    exec (.dataTransferError c a) s = .next s) ∧
  (∀ (f b : Nat) (s : State), s.linkUp = true → (srcHL, kProtocol, f * 32 + b) ∈ s.fl.beatPosts →
    exec (.hlPcieError f b) s = .next { s with fl := s.fl.suppress srcHL }) ∧
  (∀ (f b : Nat) (s : State), s.linkUp = false →
    exec (.hlPcieError f b) s = .next s) ∧
  (∀ (c : CmdId) (n z p k v : Nat) (i x : Bool) (s : State), s.canFetch c = false →
    exec (.createIoCq c n z v i x) s = .next s ∧ exec (.createIoSq c n z p k x) s = .next s ∧
    exec (.deleteIoSq c n) s = .next s ∧ exec (.deleteIoCq c n) s = .next s)

/-- IDENTIFY, GET_LOG_PAGE and GET_FEATURES. What the pages of NVM Express itself hold is the family's (assumption entry
6). -/
def Obligations.AdminReads : Prop :=
  (∀ (c : CmdId) (k n : Nat) (d : List Byte) (s : State), s.serves c .recovery → s.identifyData k n = .inr d →
    exec (.identify c k n) s = .next (s.answered c stOk 0 0 [d])) ∧
  (∀ (c : CmdId) (k n st : Nat) (s : State), s.serves c .recovery → s.identifyData k n = .inl st →
    exec (.identify c k n) s = .next (s.answered c st 0 0 [])) ∧
  (∀ (c : CmdId) (p l o z : Nat) (r : Bool) (d : List Byte) (s : State), s.serves c .recovery → o % 4 = 0 →
      (s.fetch c).logPage p o z = some d →
    ∃ t, exec (.getLogPage c p l r o z) s = .next t ∧ Completed t c stOk 0 0 [d] ∧
      t.qe.masked = (if r then s.qe.masked else s.qe.masked.filter (fun x => x != p)) ∧
      t.qe.wp = (if p = 0xC1 ∧ bitN l 0 = true then [] else s.qe.wp) ∧ t = { s with qe := t.qe, tick := s.tick + 1 }) ∧
  (∀ (c : CmdId) (p l o z : Nat) (r : Bool) (s : State), s.serves c .recovery → o % 4 ≠ 0 ∨ (s.fetch c).logPage p o
      z = none →
    exec (.getLogPage c p l r o z) s =
      .next (s.answered c (if o % 4 ≠ 0 then stInvalidField else if s.mc.phase = .recovery then stSequence else stLogPage) 0 0 [])) ∧
  (∀ (c : CmdId) (k : Nat) (v : W32) (s : State), s.serves c .served → featureAsked k v = true →
    exec (.getFeatures c ⟨k, v⟩) s =
      .next ({ s with tick := s.tick + 1 }.answered c stOk (s.featureValue k v) 0 (s.featureData k))) ∧
  (∀ (c : CmdId) (k : Nat) (v : W32) (s : State), s.serves c .served → featureAsked k v = false →
    exec (.getFeatures c ⟨k, v⟩) s = .next (s.answered c stInvalidField 0 0 []))

/-- SET_FEATURES, ABORT, ASYNC_EVENT_REQUEST and SET_FEATURES_POWER_MANAGEMENT. -/
def Obligations.AdminActs : Prop :=
  (∀ (c : CmdId) (k : Nat) (v : W32) (x : List Byte) (s : State), s.serves c .served → k = 1 ∨ k = 8 ∨ k = 10 ∨ k =
      11 →
    ∃ t, exec (.setFeatures c k v x) s = .next t ∧ Completed t c stOk 0 0 [] ∧ t.qe.features = s.qe.features.put k v ∧
      t = { s with qe := t.qe }) ∧
  (∀ (c : CmdId) (v : W32) (x : List Byte) (s : State), s.serves c .served →
    (thresholdOk v = true →
      ∃ t, exec (.setFeatures c 4 v x) s = .next t ∧ Completed t c stOk 0 0 [] ∧
        t.qe.features = s.qe.features.put (featureKey 4 v) (v &&& 0xFFFF) ∧ t = { s with qe := t.qe }) ∧
    (bitsW v 19 16 ∉ [0, 1, 2, 3, 4, 15] ∨ 1 < bitsW v 21 20 →
      exec (.setFeatures c 4 v x) s = .next (s.answered c stInvalidField 0 0 [])) ∧
    (bitsW v 15 0 ≤ 512 →
      ∃ t, exec (.setFeatures c 9 v x) s = .next t ∧ Completed t c stOk 0 0 [] ∧
        t.qe.features = s.qe.features.put (featureKey 9 v) v ∧ t = { s with qe := t.qe }) ∧
    (512 < bitsW v 15 0 → exec (.setFeatures c 9 v x) s = .next (s.answered c stInvalidField 0 0 [])) ∧
    (s.qe.sqs.length ≤ 1 ∧ s.qe.cqs.length ≤ 1 ∧ bitsW v 15 0 ≠ 0xFFFF ∧ bitsW v 31 16 ≠ 0xFFFF →
      exec (.setFeatures c 7 v x) s = .next (s.answered c stOk 0x01FF01FF 0 [])) ∧
    (1 < s.qe.sqs.length ∨ 1 < s.qe.cqs.length →
      exec (.setFeatures c 7 v x) s = .next (s.answered c stSequence 0 0 [])) ∧
    exec (.setFeatures c 2 v x) s = exec (.setFeaturesPowerManagement c (bitsW v 4 0)) s) ∧
  (∀ (c : CmdId) (v : W32) (x : List Byte) (s : State), s.serves c .served →
    ((∀ k < 5, apstEntryOk (apstEntry x k) = true) →
      ∃ t, exec (.setFeatures c 12 v x) s = .next t ∧ Completed t c stOk 0 0 [] ∧ t.qe.apstOn = bitW v 0 ∧
        (∀ k < 5, t.qe.apst.find k = if (apstEntry x k).2 = 0 then none else some (apstEntry x k)) ∧
        t = { s with qe := t.qe }) ∧
    ((∃ k < 5, apstEntryOk (apstEntry x k) = false) →
      exec (.setFeatures c 12 v x) s = .next (s.answered c stInvalidField 0 0 [])) ∧
    (∃ t, exec (.setFeatures c 14 v x) s = .next t ∧ Completed t c stOk 0 0 [] ∧ t.qe.timestamp = padTo 8 x ∧
      t = { s with qe := t.qe })) ∧
  (∀ (c : CmdId) (k : Nat) (v : W32) (x : List Byte) (s : State), s.serves c .served → featureKnown k = false →
    exec (.setFeatures c k v x) s = .next (s.answered c stInvalidField 0 0 [])) ∧
  (∀ (c d : CmdId) (s : State), s.serves c .served → d ∈ s.qe.aers → d ∈ s.qe.fetched → c ≠ d →
    ∃ t, exec (.abort c d.sq d.cid) s = .next t ∧ Completed t d stAbortRequested 0 0 [] ∧ Completed t c stOk 0 0 [] ∧
      d ∉ t.qe.aers ∧ t = { s with qe := t.qe }) ∧
  (∀ (c d : CmdId) (s : State), s.serves c .served → d ∉ s.qe.aers →
    exec (.abort c d.sq d.cid) s = .next (s.answered c stOk 1 0 [])) ∧
  (∀ (c : CmdId) (s : State), s.serves c .served → s.qe.aers.length < 16 → s.qe.events = [] →
    ∃ t, exec (.asyncEventRequest c) s = .next t ∧ t.qe.aers = s.qe.aers ++ [c] ∧ c ∈ t.qe.fetched ∧
      t.qe.posted = s.qe.posted ∧ t = { s with qe := t.qe }) ∧
  (∀ (c : CmdId) (p : Nat) (es : List Nat) (s : State), s.serves c .served → s.qe.aers = [] → s.qe.events = p :: es
      → p ∉ s.qe.masked → p ∉ es →
    ∃ t, exec (.asyncEventRequest c) s = .next t ∧ Completed t c stOk (7 + p * 65536) 0 [] ∧ t.qe.events = es ∧
      p ∈ t.qe.masked ∧ t.qe.aers = [] ∧ t = { s with qe := t.qe }) ∧
  (∀ (c : CmdId) (s : State), s.serves c .served → 16 ≤ s.qe.aers.length →
    exec (.asyncEventRequest c) s = .next (s.answered c stAerLimit 0 0 [])) ∧
  (∀ (c : CmdId) (n : Nat) (s : State), s.serves c .served → n ≤ 4 → s.inGo = true → n < 3 ∨ s.anyAdmitted = false
      →
    exec (.setFeaturesPowerManagement c n) s =
      .next ({ s with qe := { s.qe with psAtGo := n, psWant := some n, psAuto := false } }.answered c stOk 0 0 [])) ∧
  (∀ (c : CmdId) (n : Nat) (s : State), s.serves c .served → 3 ≤ n ∧ n ≤ 4 → s.inGo = true → s.anyAdmitted = true →
    exec (.setFeaturesPowerManagement c n) s = .next (s.answered c stSequence 0 0 [])) ∧
  (∀ (c : CmdId) (n : Nat) (s : State), s.serves c .served → n ≤ 4 → s.inGo = false →
    exec (.setFeaturesPowerManagement c n) s =
      .next ({ s with qe := { s.qe with psAtGo := n } }.answered c stOk 0 0 [])) ∧
  (∀ (c : CmdId) (n : Nat) (s : State), s.serves c .served → 4 < n →
    exec (.setFeaturesPowerManagement c n) s = .next (s.answered c stInvalidField 0 0 []))

/-- NAMESPACE_CREATE, NAMESPACE_DELETE, NAMESPACE_ATTACHMENT, FORMAT_NVM and FORMAT_NVM_CRYPTO_ERASE. Which granules and
which identifier a namespace gets is the model's choice (assumption entry 8). -/
def Obligations.NamespaceCommands : Prop :=
  (∀ (c : CmdId) (g : Nat) (s : State), s.serves c .manage → s.mm.namespaces.sorted = true → s.mm.namespaces.length
      < 128 → (∀ i ∈ s.mm.namespaces.keys, 1 ≤ i) → s.mm.granulesUsed.Nodup → (∀ x ∈ s.mm.granulesUsed, x < 720896) →
      s.mm.granulesUsed.length + g ≤ 720896 →
    ∃ t id gs, exec (.namespaceCreate c (262144 * g) (262144 * g)) s = .next t ∧ Completed t c stOk id 0 [] ∧
      1 ≤ id ∧ id ≤ 128 ∧ s.mm.namespaces.find id = none ∧ (∀ i, 1 ≤ i → i < id → (s.mm.namespaces.find i).isSome = true) ∧
      gs.length = g ∧ gs.Nodup ∧ (∀ x ∈ gs, x < 720896 ∧ x ∉ s.mm.granulesUsed) ∧
      t.mm = { s.mm with
        namespaces := s.mm.namespaces.put id
          { granules := gs, blocks := 262144 * g, attached := false, readOnly := false, key := s.mm.nextKey }
        nextKey := s.mm.nextKey + 1 } ∧
      t = { s with mm := t.mm, qe := t.qe }) ∧
  (∀ (c : CmdId) (g : Nat) (s : State), s.serves c .manage →
    (128 ≤ s.mm.namespaces.length →
      exec (.namespaceCreate c (262144 * g) (262144 * g)) s = .next (s.answered c stNsIdUnavail 0 0 [])) ∧
    (s.mm.namespaces.length < 128 → 720896 < s.mm.granulesUsed.length + g →
      exec (.namespaceCreate c (262144 * g) (262144 * g)) s = .next (s.answered c stNsCapacity 0 0 []))) ∧
  (∀ (c : CmdId) (z k : Nat) (s : State), s.serves c .manage → z ≠ k ∨ z % 262144 ≠ 0 →
    exec (.namespaceCreate c z k) s = .next (s.answered c stInvalidField 0 0 [])) ∧
  (∀ (c : CmdId) (n : Nat) (x : Namespace) (s : State), s.serves c .manage → n ≠ 0xFFFFFFFF → s.mm.namespaces.find
      n = some x → s.nsInUse n = false →
    exec (.namespaceDelete c n) s =
      .next ({ s with mm := { s.mm.emptyNs s.liveSnaps n with namespaces := s.mm.namespaces.del n } }.answered c stOk 0 0 []) ∧
    (∀ u, x.granules.contains (u / 32768) = true → (s.mm.emptyNs s.liveSnaps n).locOf u = .unmapped)) ∧
  (∀ (c : CmdId) (n : Nat) (s : State), s.serves c .manage → n ≠ 0xFFFFFFFF → (s.mm.namespaces.find n).isSome =
      true → s.nsInUse n = true →
    exec (.namespaceDelete c n) s = .next (s.answered c stSequence 0 0 [])) ∧
  (∀ (c : CmdId) (n : Nat) (a : Bool) (x : Namespace) (s : State), s.serves c .manage → s.mm.namespaces.find n =
      some x → x.attached = !a →
    exec (.namespaceAttachment c n a 0) s =
      .next ({ s with mm := { s.mm with namespaces := s.mm.namespaces.put n { x with attached := a } } }.answered c stOk 0 0 [])) ∧
  (∀ (c : CmdId) (n : Nat) (x : Namespace) (s : State), s.serves c .manage → s.mm.namespaces.find n = some x →
      s.nsInUse n = false →
    exec (.formatNvm c n) s = .next ({ s with mm := s.mm.emptyNs s.liveSnaps n }.answered c stOk 0 0 []) ∧
    (∀ u, x.granules.contains (u / 32768) = true → (s.mm.emptyNs s.liveSnaps n).locOf u = .unmapped) ∧
    (∀ u, x.granules.contains (u / 32768) = false → (s.mm.emptyNs s.liveSnaps n).locOf u = s.mm.locOf u) ∧
    (s.mm.emptyNs s.liveSnaps n).namespaces = s.mm.namespaces) ∧
  (∀ (c : CmdId) (n z : Nat) (x : Namespace) (s : State), s.serves c .manage → z ≤ 2 → s.mm.namespaces.find n =
      some x → s.nsInUse n = false → s.qe.store = [] →
    ∃ t, exec (.formatNvmCryptoErase c n z) s = .next t ∧ Completed t c stOk 0 0 [] ∧
      t.mm = { s.mm.emptyNs s.liveSnaps n with
        namespaces := s.mm.namespaces.adjust n (fun y => { y with key := s.mm.nextKey }), nextKey := s.mm.nextKey + 1 } ∧
      t.qe.store = [] ∧ t = { s with mm := t.mm, qe := t.qe }) ∧
  (∀ (c : CmdId) (s : State), s.serves c .manage → (∀ i ∈ s.mm.namespaces.keys, s.nsInUse i = false) →
    ∃ t, exec (.namespaceDelete c 0xFFFFFFFF) s = .next t ∧ Completed t c stOk 0 0 [] ∧ t.mm.namespaces = [] ∧
      t = { s with mm := t.mm, qe := t.qe }) ∧
  (∀ (c : CmdId) (n z : Nat) (a : Bool) (s : State), s.serves c .manage → n ≠ 0xFFFFFFFF → s.mm.namespaces.find n =
      none → z ≤ 2 →
    exec (.namespaceDelete c n) s = .next (s.answered c stInvalidNs 0 0 []) ∧
    exec (.namespaceAttachment c n a 0) s = .next (s.answered c stInvalidNs 0 0 []) ∧
    exec (.formatNvm c n) s = .next (s.answered c stInvalidNs 0 0 []) ∧
    exec (.formatNvmCryptoErase c n z) s = .next (s.answered c stInvalidNs 0 0 [])) ∧
  (∀ (c : CmdId) (n k z : Nat) (a : Bool) (x : Namespace) (s : State), s.serves c .manage → s.mm.namespaces.find n
      = some x →
    (k ≠ 0 → exec (.namespaceAttachment c n a k) s = .next (s.answered c stCtrlList 0 0 [])) ∧
    (x.attached = a →
      exec (.namespaceAttachment c n a 0) s = .next (s.answered c (if a then stNsAttached else stNsNotAttached) 0 0 [])) ∧
    (s.nsInUse n = true → exec (.formatNvm c n) s = .next (s.answered c stSequence 0 0 [])) ∧
    (s.nsInUse n = true → z ≤ 2 → exec (.formatNvmCryptoErase c n z) s = .next (s.answered c stSequence 0 0 [])) ∧
    (2 < z → exec (.formatNvmCryptoErase c n z) s = .next (s.answered c stInvalidField 0 0 [])))

/-- VERSION_NEGOTIATE_OFFER, VERSION_NEGOTIATE_COMMIT, VERSION_NEGOTIATE_QUERY, NVME_MI_MESSAGE, SET_ENDPOINT_ID and
SETDASA. -/
def Obligations.VersionsAndSideband : Prop :=
  (∀ (c : CmdId) (d : Dwords) (o : List Byte) (w : List Bool) (a b r x : Nat) (s : State), s.serves c .served →
      negotiateOk d = true → zerosAt o 8 24 = true → offered o = some (a, b, r, x) → (∀ e ∈ s.idx, sbFormat e.2.super
      ≤ min s.qe.versions.index x) → w.getD 0 true = true →
    ∃ t, exec (.versionNegotiateOffer c d o w) s = .next t ∧
      t.qe.versions =
        { cmdset := a, image := b, result := min s.qe.versions.result r, index := min s.qe.versions.index x
          agCmdset := a, agImage := b, agResult := r, agIndex := x } ∧
      (∃ w0 w1, Completed t c stOk w0 w1 [] ∧ w0 = a + 256 * b + 65536 * min s.qe.versions.result r + 16777216 * min s.qe.versions.index x ∧
        w1 = r + 256 * x + 65536 * s.pc.msgVersion) ∧ t = { s with qe := t.qe, sw := t.sw, tick := t.tick }) ∧
  (∀ (c : CmdId) (d : Dwords) (o : List Byte) (w : List Bool) (s : State), s.serves c .served → negotiateOk d =
      true → zerosAt o 8 24 = true → offered o = none →
    exec (.versionNegotiateOffer c d o w) s = .next (s.answered c stVersion 0 0 [])) ∧
  (∀ (c : CmdId) (d : Dwords) (w : List Bool) (s : State), s.serves c .served → negotiateOk d = true → w.getD 0
      true = true →
    ∃ t, exec (.versionNegotiateCommit c d w) s = .next t ∧
      t.qe.versions = { s.qe.versions with
        result := max s.qe.versions.result s.qe.versions.agResult, index := max s.qe.versions.index s.qe.versions.agIndex } ∧
      (∃ w0 w1, Completed t c stOk w0 w1 []) ∧ t = { s with qe := t.qe, sw := t.sw, tick := t.tick }) ∧
  (∀ (c : CmdId) (d : Dwords) (s : State), s.serves c .served → negotiateOk d = true →
    exec (.versionNegotiateQuery c d) s = .next (s.answered c stOk
      (s.qe.versions.cmdset + 256 * s.qe.versions.image + 65536 * s.qe.versions.result + 16777216 * s.qe.versions.index)
      (s.qe.versions.agResult + 256 * s.qe.versions.agIndex + 65536 * s.pc.msgVersion) [])) ∧
  (∀ (a : Bool) (o n k i z : Nat) (s : State), s.power.vinAccepted = true → s.power.failing = false → s.power.eid ≠
      none →
    exec (.nvmeMiMessage 4 a o ⟨n, k, i, z⟩) s = .next { s with
      tick := s.tick + 1, power := { s.power with miReplies := s.miReply a o n k i z :: s.power.miReplies } }) ∧
  (∀ (e : Nat) (s : State), s.power.vinAccepted = true → s.power.failing = false → 0 < e ∧ e < 255 →
    exec (.setEndpointId e) s = .next { s with power := { s.power with eid := some e } }) ∧
  (∀ (a : Nat) (s : State), s.power.vinAccepted = true → s.power.failing = false → s.power.dynAddr = none → a < 128
      →
    exec (.setdasa a) s = .next { s with power := { s.power with dynAddr := some a } }) ∧
  (∀ (a : Bool) (o n k i z : Nat) (s : State),
    (s.miReply a o n k i z).opcode = o ∧
    (a = false → 5 < o → (s.miReply a o n k i z).status = .invalidOpcode) ∧
    (a = true → o ≠ 2 → o ≠ 6 → o ≠ 10 → (s.miReply a o n k i z).status = .invalidOpcode) ∧
    (a = true → o = 2 ∨ o = 6 ∨ o = 10 → s.mc.phase = .off ∨ s.mc.phase = .marks →
      (s.miReply a o n k i z).status = .notReady) ∧
    (∀ d, a = true → o = 6 → s.mc.phase ≠ .off → s.mc.phase ≠ .marks → s.identifyData (k % 256) n = .inr d →
      s.miReply a o n k i z = { opcode := o, status := .success, data := sliceZ d i z })) ∧
  (∀ (m : Nat) (a : Bool) (o n k i z : Nat) (s : State), m ≠ 4 ∨ s.power.eid = none ∨ s.power.vinAccepted = false ∨
      s.power.failing = true →
    exec (.nvmeMiMessage m a o ⟨n, k, i, z⟩) s = .next s) ∧
  (∀ (e : Nat) (s : State), e = 0 ∨ 255 ≤ e ∨ s.power.vinAccepted = false ∨ s.power.failing = true →
    exec (.setEndpointId e) s = .next s) ∧
  (∀ (a : Nat) (s : State), s.power.dynAddr ≠ none ∨ s.power.vinAccepted = false ∨ s.power.failing = true →
    exec (.setdasa a) s = .next s) ∧
  (∀ (c : CmdId) (d : Dwords) (o : List Byte) (w : List Bool) (s : State), s.serves c .served →
    (negotiateOk d = false ∨ zerosAt o 8 24 = false →
      exec (.versionNegotiateOffer c d o w) s = .next (s.answered c stInvalidField 0 0 [])) ∧
    (negotiateOk d = false →
      exec (.versionNegotiateCommit c d w) s = .next (s.answered c stInvalidField 0 0 []) ∧
      exec (.versionNegotiateQuery c d) s = .next (s.answered c stInvalidField 0 0 [])) ∧
    (∀ a b r x, negotiateOk d = true → zerosAt o 8 24 = true → offered o = some (a, b, r, x) →
      (∃ e ∈ s.idx, min s.qe.versions.index x < sbFormat e.2.super) →
      exec (.versionNegotiateOffer c d o w) s = .next (s.answered c stSequence 0 0 [])) ∧
    (negotiateOk d = true → w.getD 0 true = false → w.getD 1 true = false →
      ∃ t, exec (.versionNegotiateCommit c d w) s = .next t ∧ Completed t c stInternal 0 0 [] ∧
        t.qe.versions = s.qe.versions))

/-- FIRMWARE_IMAGE_DOWNLOAD, FIRMWARE_COMMIT and FIRMWARE_COMMIT_DONE. Whether the signature verifies and whether each
program does are operands. -/
def Obligations.FirmwareUpdate : Prop :=
  (∀ (c : CmdId) (o : Nat) (d : List Byte) (s : State), s.serves c .image → s.se.commit = none → o + d.length ≤
      33554432 →
    ∃ t, exec (.firmwareImageDownload c o d) s = .next t ∧ Completed t c stOk 0 0 [] ∧
      (∀ i, (h : i < d.length) → readCell 0 t.se.fwBuf (o + i) = d[i]) ∧
      (∀ a, a < o ∨ o + d.length ≤ a → readCell 0 t.se.fwBuf a = readCell 0 s.se.fwBuf a) ∧
      t.se.fwLen = max s.se.fwLen (o + d.length) ∧
      t = { s with qe := t.qe, se := { s.se with fwBuf := t.se.fwBuf, fwLen := t.se.fwLen } }) ∧
  (∀ (c : CmdId) (o : Nat) (d : List Byte) (s : State), s.serves c .image → s.se.commit ≠ none ∨ 33554432 < o +
      d.length →
    exec (.firmwareImageDownload c o d) s =
      .next (s.answered c (if s.se.commit ≠ none then stSequence else stInvalidField) 0 0 [])) ∧
  (∀ (c : CmdId) (p a : Nat) (w : List Bool) (s : State), s.serves c .fwCommit → s.se.commit = none → s.mc.phase =
      .go ∨ s.mc.cause ≠ 5 → p ≤ 1 → a ≤ 1 → fwHeaderOk (readCells 0 s.se.fwBuf 0 64) s.se.fwLen = true → w.getD 0
      true = true →
    ∃ t, exec (.firmwareCommit c p a true w) s = .next t ∧
      t.se.commit = some { c := c, action := a, image := readCells 0 s.se.fwBuf 0 s.se.fwLen } ∧ t.sw.internal = true ∧
      c ∈ t.qe.fetched ∧ t.qe.posted = s.qe.posted ∧ t = { s with qe := t.qe, se := t.se, sw := t.sw, tick := t.tick }) ∧
  (∀ (c : CmdId) (p a : Nat) (w : List Bool) (s : State), s.serves c .fwCommit → s.se.commit = none → s.mc.phase =
      .go ∨ s.mc.cause ≠ 5 → p ≤ 1 → a ≤ 1 → fwHeaderOk (readCells 0 s.se.fwBuf 0 64) s.se.fwLen = true → s.ntAll =
      true →
    ∃ t, exec (.firmwareCommit c p a false w) s = .next t ∧ Completed t c stFwImage 0 0 [] ∧
      RecordWritten s t srcSE kSigVerify 0 0 0 0 0 0 ∧ t.se.commit = none ∧ t.sw = s.sw ∧ t.se.fwBuf = s.se.fwBuf ∧
      t = { s with qe := t.qe, se := t.se, fl := t.fl }) ∧
  (∀ (k : FwCommit) (w : List Bool) (s : State), s.se.commit = some k → s.mc.phase = .go → k.c ∈ s.qe.fetched →
      w.getD 0 true = true →
    ∃ t, exec (.firmwareCommitDone true w) s = .next t ∧ Completed t k.c (if k.action = 0 then stOk else stFwNeedsReset) 0 0 [] ∧
      t.se = { s.se with commit := none, event := setEv s.se.event 2 } ∧ t.sw.internal = s.sl.persist.isSome ∧
      (∀ i, (h : i < k.image.length) → readCell 0xFF t.sw.store (0x20000 + i) = k.image[i]) ∧
      t = { s with qe := t.qe, se := t.se, sw := t.sw, tick := t.tick }) ∧
  (∀ (k : FwCommit) (w : List Bool) (s : State), s.se.commit = some k → k.c ∈ s.qe.fetched →
    ∃ t, exec (.firmwareCommitDone false w) s = .next t ∧ Completed t k.c stInternal 0 0 [] ∧ t.se.commit = none ∧
      t.mc = s.mc ∧ t.mm = s.mm) ∧
  (∀ (c : CmdId) (p a : Nat) (g : Bool) (w : List Bool) (s : State), s.serves c .fwCommit →
    (s.se.commit ≠ none → exec (.firmwareCommit c p a g w) s = .next (s.answered c stSequence 0 0 [])) ∧
    (s.se.commit = none → s.mc.phase = .recovery → s.mc.cause = 5 →
      exec (.firmwareCommit c p a g w) s = .next (s.answered c stInternal 0 0 [])) ∧
    (s.se.commit = none → s.mc.phase = .go ∨ s.mc.cause ≠ 5 →
      (1 < p → exec (.firmwareCommit c p a g w) s = .next (s.answered c stFwSlot 0 0 [])) ∧
      (p ≤ 1 → 1 < a → exec (.firmwareCommit c p a g w) s = .next (s.answered c stInvalidField 0 0 [])) ∧
      (p ≤ 1 → a ≤ 1 → fwHeaderOk (readCells 0 s.se.fwBuf 0 64) s.se.fwLen = false →
        exec (.firmwareCommit c p a g w) s = .next ({ s with se := { s.se with
          failCnt := sat32 (s.se.failCnt + 1), event := setEv s.se.event 3 } }.answered c stFwImage 0 0 [])))) ∧
  (∀ (c : CmdId) (p a : Nat) (w : List Bool) (s : State), s.serves c .fwCommit → s.se.commit = none → s.mc.phase =
      .go ∨ s.mc.cause ≠ 5 → p ≤ 1 → a ≤ 1 → fwHeaderOk (readCells 0 s.se.fwBuf 0 64) s.se.fwLen = true → w.getD 0
      true = false → w.getD 1 true = false →
    ∃ t, exec (.firmwareCommit c p a true w) s = .next t ∧ Completed t c stInternal 0 0 [] ∧ t.se = s.se ∧
      t.sw.internal = s.sw.internal) ∧
  (∀ (k : FwCommit) (w : List Bool) (s : State), s.se.commit = some k → s.mc.phase = .recovery → w.getD 0 true =
      true →
    ∃ t, exec (.firmwareCommitDone true w) s = .next t ∧ t.mc.phase = .marks ∧ t.mc.entry = 3 ∧
      t.mc.entries = sat16 (s.mc.entries + 1) ∧ t.tiles = [] ∧
      (∀ i, (h : i < k.image.length) → readCell 0xFF t.sw.store (0x20000 + i) = k.image[i])) ∧
  (∀ (k : FwCommit) (w : List Bool) (s : State), s.se.commit = some k → k.c ∈ s.qe.fetched → w.getD 0 true = false
      → w.getD 1 true = false →
    ∃ t, exec (.firmwareCommitDone true w) s = .next t ∧ Completed t k.c stInternal 0 0 [] ∧ t.se.commit = none ∧
      t.mc.phase = s.mc.phase) ∧
  (∀ (x : Bool) (w : List Bool) (s : State), s.se.commit = none →
    exec (.firmwareCommitDone x w) s = .next s)

/-- KEY_REQUEST, ATTESTATION, TOP_TREE_DONE and ATTEST_DONE. Signatures and signing take operands or free bytes
(assumption entry 1). -/
def Obligations.KeysAndAttestation : Prop :=
  (∀ (r : List Byte) (g : Bool) (w : List Bool) (s : State), s.vendorLive = true → keyFormatOk r = false →
    exec (.keyRequest r g w) s = .next { s with se := { s.se with keyCode := 1, event := setEv s.se.event 1 } }) ∧
  (∀ (r : List Byte) (g : Bool) (w : List Bool) (s : State), s.vendorLive = true → keyFormatOk r = true → u32At r 8
      = 0xFFFFFFFF → byteAt r 6 = 1 → s.sw.ownerKeys = [] → sliceZ r 24 32 ≠ s.se.identity →
    exec (.keyRequest r g w) s = .next { s with se := { s.se with keyCode := 5, event := setEv s.se.event 1 } }) ∧
  (∀ (r : List Byte) (g : Bool) (w : List Bool) (s : State), s.vendorLive = true → keyFormatOk r = true → u32At r 8
      = 0xFFFFFFFF → byteAt r 6 = 1 → s.sw.ownerKeys = [] → sliceZ r 24 32 = s.se.identity → u64At r 16 ≤
      s.sw.keyCounter →
    exec (.keyRequest r g w) s = .next { s with se := { s.se with keyCode := 6, event := setEv s.se.event 1 } }) ∧
  (∀ (r : List Byte) (g : Bool) (w : List Bool) (i : Nat) (s : State), s.vendorLive = true → keyFormatOk r = true →
      (u32At r 8 = 0xFFFFFFFF ∧ byteAt r 6 = 1 ∧ s.sw.ownerKeys = []) ∨ (u32At r 8 ≠ 0xFFFFFFFF ∧ (s.sw.ownerKeys.find
      (u32At r 8)).isSome = true ∧ g = true) → sliceZ r 24 32 = s.se.identity → s.sw.keyCounter < u64At r 16 → (byteAt
      r 6 = 1 ∧ s.sw.ownerKeys.find (byteAt r 7) = none) ∨ (byteAt r 6 = 2 ∧ (s.sw.ownerKeys.find (byteAt r 7)).isSome
      = true ∧ s.sw.ownerKeys.length ≠ 1) → s.sw.freeKeySlot 0 = some i → w.getD 0 true = true →
    ∃ t, exec (.keyRequest r g w) s = .next t ∧ t.se = { s.se with keyCode := 0, event := setEv s.se.event 1 } ∧
      (t.sw.bytes (0x1000 + 128 * i) 124 = keyRecord r) ∧
      (∀ a, a < 0x1000 + 128 * i ∨ 0x1000 + 128 * i + 128 ≤ a → readCell 0xFF t.sw.store a = readCell 0xFF s.sw.store a) ∧
      t = { s with se := t.se, sw := t.sw, tick := t.tick }) ∧
  (∀ (r : List Byte) (g : Bool) (w : List Bool) (s : State), s.vendorLive = true → keyFormatOk r = true → (u32At r
      8 = 0xFFFFFFFF ∧ byteAt r 6 = 1 ∧ s.sw.ownerKeys = []) ∨ (u32At r 8 ≠ 0xFFFFFFFF ∧ (s.sw.ownerKeys.find (u32At r
      8)).isSome = true ∧ g = true) → sliceZ r 24 32 = s.se.identity → s.sw.keyCounter < u64At r 16 → (byteAt r 6 = 1
      ∧ s.sw.ownerKeys.find (byteAt r 7) = none) ∨ (byteAt r 6 = 2 ∧ (s.sw.ownerKeys.find (byteAt r 7)).isSome = true
      ∧ s.sw.ownerKeys.length ≠ 1) →
    (s.sw.freeKeySlot 0 = none →
      exec (.keyRequest r g w) s = .next { s with se := { s.se with keyCode := 9, event := setEv s.se.event 1 } }) ∧
    (w.getD 0 true = false → w.getD 1 true = false → (s.sw.freeKeySlot 0).isSome = true →
      ∃ t, exec (.keyRequest r g w) s = .next t ∧ t.se = { s.se with keyCode := 10, event := setEv s.se.event 1 })) ∧
  (∀ (r : List Byte) (g : Bool) (w : List Bool) (s : State), s.vendorLive = true → keyFormatOk r = true →
    (u32At r 8 = 0xFFFFFFFF → s.sw.ownerKeys ≠ [] →
      exec (.keyRequest r g w) s = .next { s with se := { s.se with keyCode := 2, event := setEv s.se.event 1 } }) ∧
    (u32At r 8 = 0xFFFFFFFF → byteAt r 6 = 2 → s.sw.ownerKeys = [] →
      exec (.keyRequest r g w) s = .next { s with se := { s.se with keyCode := 3, event := setEv s.se.event 1 } }) ∧
    (u32At r 8 ≠ 0xFFFFFFFF → s.sw.ownerKeys.find (u32At r 8) = none →
      exec (.keyRequest r g w) s = .next { s with se := { s.se with keyCode := 3, event := setEv s.se.event 1 } }) ∧
    (u32At r 8 ≠ 0xFFFFFFFF → (s.sw.ownerKeys.find (u32At r 8)).isSome = true → g = false →
      ∃ t, exec (.keyRequest r g w) s = .next t ∧ t.se.keyCode = 4 ∧ t.se.failCnt = sat32 (s.se.failCnt + 1) ∧
        t = { s with se := t.se }) ∧
    (u32At r 8 ≠ 0xFFFFFFFF → (s.sw.ownerKeys.find (u32At r 8)).isSome = true → g = true →
      (sliceZ r 24 32 ≠ s.se.identity →
        exec (.keyRequest r g w) s = .next { s with se := { s.se with keyCode := 5, event := setEv s.se.event 1 } }) ∧
      (sliceZ r 24 32 = s.se.identity → u64At r 16 ≤ s.sw.keyCounter →
        exec (.keyRequest r g w) s = .next { s with se := { s.se with keyCode := 6, event := setEv s.se.event 1 } }) ∧
      (sliceZ r 24 32 = s.se.identity → s.sw.keyCounter < u64At r 16 →
        (byteAt r 6 = 1 ↔ (s.sw.ownerKeys.find (byteAt r 7)).isSome = true) →
        exec (.keyRequest r g w) s = .next { s with se := { s.se with keyCode := 7, event := setEv s.se.event 1 } }) ∧
      (sliceZ r 24 32 = s.se.identity → s.sw.keyCounter < u64At r 16 → byteAt r 6 = 2 →
        (s.sw.ownerKeys.find (byteAt r 7)).isSome = true → s.sw.ownerKeys.length = 1 →
        exec (.keyRequest r g w) s = .next { s with se := { s.se with keyCode := 8, event := setEv s.se.event 1 } }))) ∧
  (∀ (s : State), s.vendorLive = true →
    exec .attestation s = .next { s with se := { s.se with attesting := true } } ∧
    exec .topTreeDone s = .next { s with se := { s.se with topReady := true } }) ∧
  (∀ (w : List Bool) (x : Bool) (r n : Nat) (s : State), s.vendorLive = true → s.se.attesting = true →
      s.se.topReady = true → s.se.block = some (r, n) → n < 1024 →
    ∃ t, exec (.attestDone w x) s = .next t ∧
      t.se = { s.se with attesting := false, attCode := if x then 0 else 3, event := setEv s.se.event 0,
                         block := some (r, n + 1), evidence := some (s.evidence (1024 * r + n)) } ∧
      (x = false → t.hostOut = s.hostOut) ∧ t = { s with se := t.se, hostOut := t.hostOut, tick := s.tick + 1 }) ∧
  (∀ (w : List Bool) (x : Bool) (s : State), s.vendorLive = true → s.se.attesting = true → s.se.topReady = true →
      s.se.block = none ∨ 1024 ≤ (s.se.block.getD (0, 0)).2 →
    (s.sw.nextBlock < 1024 → w.getD 0 true = true →
      ∃ t, exec (.attestDone w x) s = .next t ∧ t.se.block = some (s.sw.nextBlock, 1) ∧ t.se.attesting = false ∧
        t.se.attCode = (if x then 0 else 3) ∧ t.sw.bytes (0xC000 + 16 * s.sw.nextBlock) 16 = resBytes s.sw.nextBlock ∧
        t = { s with se := t.se, sw := t.sw, hostOut := t.hostOut, tick := t.tick }) ∧
    (1024 ≤ s.sw.nextBlock →
      exec (.attestDone w x) s = .next { s with se := { s.se with attesting := false, attCode := 1, event := setEv s.se.event 0 } }) ∧
    (s.sw.nextBlock < 1023 → w.getD 0 true = false → w.getD 1 true = false →
      ∃ t, exec (.attestDone w x) s = .next t ∧ t.se.attesting = false ∧ t.se.attCode = 2 ∧ t.hostOut = s.hostOut)) ∧
  (∀ (w : List Bool) (x : Bool) (s : State), s.vendorLive = false ∨ s.se.attesting = false ∨ s.se.topReady = false
      →
    exec (.attestDone w x) s = .next s) ∧
  (∀ (r : List Byte) (g : Bool) (w : List Bool) (s : State), s.vendorLive = false →
    exec (.keyRequest r g w) s = .next s ∧ exec .attestation s = .next s ∧ exec .topTreeDone s = .next s)

/-- WORD_PROGRAM, PAGE_PROGRAM, SECTOR_ERASE, IDENTIFY_MODE, SW_ABORT and SW_WINDOW_READ. -/
def Obligations.StoreWindowSequences : Prop :=
  (∀ (a : Nat) (v : W32) (s : State), s.linkUp = true → s.sw.seq = .idle → s.sw.busy = false → s.sw.queued = none →
      s.sw.run = none → a % 4 = 0 ∧ a < storeBytes → v ≠ cmdWord 0xE1 → s.sw.protected (sectorOf a) = false →
      s.sw.notErased (.program a [(a, v)]) = false → s.sw.unchanged (.program a [(a, v)]) = false →
    exec (.wordProgram [{ off := 0xF00, len := 4, word := cmdWord 0x5A }, { off := 0xF0, len := 4, word := cmdWord 0xC3 },
      { off := 0xF00, len := 4, word := cmdWord 0x31 }, { off := a, len := 4, word := v }])
      s = .next { s with sw := { s.sw with
        bits := 0, pulses := 0, last := BitVec.ofNat 32 a, seq := .idle, run := some (.program a [(a, v)], false) } }) ∧
  (∀ (a : Nat) (v : W32) (s : State), s.linkUp = true → s.sw.seq = .idle → s.sw.busy = false → s.sw.queued = none →
      s.sw.run = none → a % 4 = 0 ∧ a < storeBytes → v ≠ cmdWord 0xE1 → s.sw.protected (sectorOf a) = true →
    exec (.wordProgram [{ off := 0xF00, len := 4, word := cmdWord 0x5A }, { off := 0xF0, len := 4, word := cmdWord 0xC3 },
      { off := 0xF00, len := 4, word := cmdWord 0x31 }, { off := a, len := 4, word := v }])
      s = .next { s with sw := { s.sw with
        bits := setEv 0 4, pulses := 0, last := BitVec.ofNat 32 a, seq := .idle, event := setEv (setEv s.sw.event 4) 0 } }) ∧
  (∀ (a b : Nat) (v w : W32) (s : State), s.linkUp = true → s.sw.seq = .idle → s.sw.busy = false → s.sw.queued =
      none → s.sw.run = none → a % 4 = 0 ∧ a < storeBytes → b % 4 = 0 ∧ b < storeBytes → a / 256 = b / 256 → v ≠
      cmdWord 0xE1 → s.sw.protected (sectorOf (256 * (a / 256))) = false → s.sw.notErased (.program (256 * (a / 256))
      [(a, v)]) = false → s.sw.unchanged (.program (256 * (a / 256)) [(a, v)]) = false →
    exec (.pageProgram [{ off := 0xF00, len := 4, word := cmdWord 0x5A }, { off := 0xF0, len := 4, word := cmdWord 0xC3 },
      { off := 0xF00, len := 4, word := cmdWord 0x3B }, { off := a, len := 4, word := v },
      { off := b, len := 4, word := cmdWord 0x3E }])
      s = .next { s with sw := { s.sw with
        bits := 0, pulses := 0, last := BitVec.ofNat 32 (256 * (a / 256)), seq := .idle
        run := some (.program (256 * (a / 256)) [(a, v)], false) } }) ∧
  (∀ (a : Nat) (s : State), s.linkUp = true → s.sw.seq = .idle → s.sw.busy = false → s.sw.queued = none → s.sw.run
      = none → a % 4 = 0 ∧ a < storeBytes → s.sw.protected (sectorOf a) = false →
    exec (.sectorErase [{ off := 0xF00, len := 4, word := cmdWord 0x5A }, { off := 0xF0, len := 4, word := cmdWord 0xC3 },
      { off := 0xF00, len := 4, word := cmdWord 0x6E }, { off := 0xF00, len := 4, word := cmdWord 0x5A }, { off := 0xF0, len := 4, word := cmdWord 0xC3 },
      { off := a, len := 4, word := cmdWord 0x6D }])
      s = .next { s with sw := { s.sw with
        bits := 0, pulses := 0, last := BitVec.ofNat 32 a, seq := .idle, run := some (.erase a, false) } }) ∧
  (∀ (s : State), s.linkUp = true → s.sw.seq = .idle →
    exec (.identifyMode [{ off := 0xF00, len := 4, word := cmdWord 0x5A }, { off := 0xF0, len := 4, word := cmdWord 0xC3 },
      { off := 0xF00, len := 4, word := cmdWord 0x1D }])
      s = .next { s with sw := { s.sw with seq := .idle, ident := true } }) ∧
  (∀ (o : Nat) (s : State), s.linkUp = true → o % 4 = 0 ∧ o < storeBytes →
    exec (.swAbort o) s = .next { s with sw := { s.sw with seq := .idle, ident := false } }) ∧
  (∀ (x : SwCycle) (s : State), s.linkUp = true → s.sw.seq = .idle → x.len = 4 ∧ x.off % 4 = 0 ∧ x.off < storeBytes
      → x.word ≠ cmdWord 0xE1 → x.off ≠ 0xF00 ∨ x.word ≠ cmdWord 0x5A →
    exec (.wordProgram [x]) s =
      .next { s with sw := { s.sw with seq := .idle, bits := setEv s.sw.bits 5, event := setEv s.sw.event 5 } } ∧
    exec (.pageProgram [x]) s = exec (.wordProgram [x]) s ∧ exec (.sectorErase [x]) s = exec (.wordProgram [x]) s ∧
    exec (.identifyMode [x]) s = exec (.wordProgram [x]) s) ∧
  (∀ (o n : Nat) (s : State), s.linkUp = true → n ≤ 64 → s.sw.busy = false → s.sw.ident = false →
    exec (.swWindowRead o n) s = .next { s with busRead := (List.range n).map (fun i => readCell 0xFF s.sw.store (o + i)) }) ∧
  (∀ (o n : Nat) (s : State), s.linkUp = true → n ≤ 64 → s.sw.busy = true →
    exec (.swWindowRead o n) s = .next { s with busRead := List.replicate n 0xFF, sw := { s.sw with event := setEv s.sw.event 6 } }) ∧
  (∀ (a : Nat) (v : W32) (s : State), s.linkUp = true → s.sw.seq = .idle → a % 4 = 0 ∧ a < storeBytes → v ≠ cmdWord
      0xE1 →
    exec (.wordProgram [{ off := 0xF00, len := 4, word := cmdWord 0x5A }, { off := 0xF0, len := 4, word := cmdWord 0xC3 },
      { off := 0xF00, len := 4, word := cmdWord 0x31 }, { off := a, len := 4, word := v }])
      s = .next { s with sw := ({ s.sw with seq := .word } : Sw).final (.program a [(a, v)]) }) ∧
  (∀ (q : Nat) (x : Nat × W32) (xs : List (Nat × W32)) (b : Nat) (s : State), s.linkUp = true → s.sw.seq = .idle →
      (∀ y ∈ x :: xs, y.1 % 4 = 0 ∧ y.1 < storeBytes ∧ y.1 / 256 = q ∧ y.2 ≠ cmdWord 0xE1) → (∀ y ∈ xs, y.2 ≠ cmdWord
      0x3E) → ((x :: xs).map Prod.fst).Nodup → b % 4 = 0 ∧ b < storeBytes ∧ b / 256 = q →
    exec (.pageProgram ([{ off := 0xF00, len := 4, word := cmdWord 0x5A }, { off := 0xF0, len := 4, word := cmdWord 0xC3 },
      { off := 0xF00, len := 4, word := cmdWord 0x3B }]
        ++ (x :: xs).map (fun y => { off := y.1, len := 4, word := y.2 })
        ++ [{ off := b, len := 4, word := cmdWord 0x3E }]))
      s = .next { s with sw := ({ s.sw with seq := .page (x :: xs) } : Sw).final (.program (256 * q) (x :: xs)) }) ∧
  (∀ (a : Nat) (s : State), s.linkUp = true → s.sw.seq = .idle → a % 4 = 0 ∧ a < storeBytes →
    exec (.sectorErase [{ off := 0xF00, len := 4, word := cmdWord 0x5A }, { off := 0xF0, len := 4, word := cmdWord 0xC3 },
      { off := 0xF00, len := 4, word := cmdWord 0x6E }, { off := 0xF00, len := 4, word := cmdWord 0x5A }, { off := 0xF0, len := 4, word := cmdWord 0xC3 },
      { off := a, len := 4, word := cmdWord 0x6D }])
      s = .next { s with sw := ({ s.sw with seq := .eraseArmed } : Sw).final (.erase a) }) ∧
  (∀ (o : SwOp) (w : Sw),
    (w.queued ≠ none ∨ (∃ x, w.run = some (x, false)) →
      w.final o = { w with seq := .idle, bits := setEv w.bits 5, event := setEv w.event 5 }) ∧
    (w.queued = none → (∀ x, w.run ≠ some (x, false)) → w.busy = true →
      w.final o = { w with seq := .idle, queued := some o }) ∧
    (w.queued = none → w.run = none → w.busy = false →
      (w.protected (sectorOf o.addr) = true →
        w.final o = { w with
          bits := setEv 0 4, pulses := 0, last := BitVec.ofNat 32 o.addr, seq := .idle, event := setEv (setEv w.event 4) 0 }) ∧
      (w.protected (sectorOf o.addr) = false → w.notErased o = true →
        w.final o = { w with
          bits := setEv 0 1, pulses := 0, last := BitVec.ofNat 32 o.addr, seq := .idle, event := setEv (setEv w.event 1) 0 }) ∧
      (w.protected (sectorOf o.addr) = false → w.notErased o = false → w.unchanged o = true →
        w.final o = { w with bits := 0, pulses := 0, last := BitVec.ofNat 32 o.addr, seq := .idle, event := setEv w.event 0 }) ∧
      (w.protected (sectorOf o.addr) = false → w.notErased o = false → w.unchanged o = false →
        w.final o = { w with
          bits := 0, pulses := 0, last := BitVec.ofNat 32 o.addr, seq := .idle, run := some (o, false) }))) ∧
  (∀ (o : Nat) (s : State), s.linkUp = true → o % 4 ≠ 0 ∨ storeBytes ≤ o →
    exec (.swAbort o) s = .next { s with sw := { s.sw with seq := .idle, bits := setEv s.sw.bits 5, event := setEv s.sw.event 5 } }) ∧
  (∀ (x : SwCycle) (s : State), s.linkUp = true → x.len ≠ 4 ∨ x.off % 4 ≠ 0 ∨ storeBytes ≤ x.off →
    exec (.wordProgram [x]) s =
      .next { s with sw := { s.sw with seq := .idle, bits := setEv s.sw.bits 5, event := setEv s.sw.event 5 } }) ∧
  (∀ (o n : Nat) (s : State), s.linkUp = true → n ≤ 64 → s.sw.busy = false → s.sw.ident = true →
    exec (.swWindowRead o n) s = .next { s with busRead := (List.range n).map (fun i =>
      if o + i < 0x40 then identByte (o + i) else readCell 0xFF s.sw.store (o + i)) }) ∧
  (∀ (xs : List SwCycle) (o n : Nat) (s : State), s.linkUp = false →
    exec (.wordProgram xs) s = .next s ∧ exec (.pageProgram xs) s = .next s ∧ exec (.sectorErase xs) s = .next s ∧
    exec (.identifyMode xs) s = .next s ∧ exec (.swAbort o) s = .next s ∧ exec (.swWindowRead o n) s = .next s)

/-- SW_OP_DONE, SW_QUEUED_START, SW_PROTECT_SET and MAINTENANCE_GRANT. -/
def Obligations.StoreOperations : Prop :=
  (∀ (a p : Nat) (ws : List (Nat × W32)) (f : Bool) (s : State), s.sw.run = some (.program a ws, f) → (ws.map
      Prod.fst).Nodup → (∀ x ∈ ws, x.1 % 4 = 0) →
    ∃ t, exec (.swOpDone p true) s = .next t ∧ t.sw.run = none ∧ t.sw.pulses = min 16 p ∧ t.sw.event = setEv s.sw.event 0 ∧
      (∀ x ∈ ws, ∀ i < 4,
        readCell 0xFF t.sw.store (x.1 + i) = readCell 0xFF s.sw.store (x.1 + i) &&& (x.2 >>> (8 * i)).setWidth 8) ∧
      (∀ b, (∀ x ∈ ws, b < x.1 ∨ x.1 + 4 ≤ b) → readCell 0xFF t.sw.store b = readCell 0xFF s.sw.store b) ∧
      t = { s with sw := t.sw }) ∧
  (∀ (a p : Nat) (f : Bool) (s : State), s.sw.run = some (.erase a, f) → a < storeBytes →
    ∃ t, exec (.swOpDone p true) s = .next t ∧ t.sw.run = none ∧ t.sw.event = setEv s.sw.event 0 ∧
      (∀ b, readCell 0xFF t.sw.store b =
        if sectorBase (sectorOf a) ≤ b ∧ b < sectorBase (sectorOf a) + sectorSize (sectorOf a) then 0xFF
        else readCell 0xFF s.sw.store b) ∧
      t = { s with sw := t.sw }) ∧
  (∀ (a p : Nat) (ws : List (Nat × W32)) (f : Bool) (s : State), s.sw.run = some (.program a ws, f) → s.ntAll =
      true →
    ∃ t, exec (.swOpDone p false) s = .next t ∧ t.sw.run = none ∧ t.sw.bits = setEv s.sw.bits 2 ∧
      t.sw.pfailCnt = sat16 (s.sw.pfailCnt + 1) ∧ RecordWritten s t srcSW kProgFail 0 (BitVec.ofNat 64 a) 16 0 0 0 ∧
      (∀ b, (∀ x ∈ ws, b < x.1 ∨ x.1 + 4 ≤ b) → readCell 0xFF t.sw.store b = readCell 0xFF s.sw.store b)) ∧
  (∀ (o : SwOp) (s : State), s.sw.queued = some o → s.sw.run = none → s.sw.busyBoot = false → s.sw.protected
      (sectorOf o.addr) = false → s.sw.notErased o = false → s.sw.unchanged o = false →
    exec .swQueuedStart s = .next { s with sw := { s.sw with
      queued := none, bits := 0, pulses := 0, last := BitVec.ofNat 32 o.addr, seq := .idle, run := some (o, false) } }) ∧
  (∀ (k : Nat) (v : W32) (s : State), s.linkUp = true → k < 65 →
    ∃ t, exec (.swProtectSet k v) s = .next t ∧
      (∀ n, n ∈ t.sw.opened ↔ n ∈ s.sw.opened ∧ ¬ (n / 32 = k ∧ bitW v (n % 32) = true)) ∧
      t = { s with sw := { s.sw with opened := t.sw.opened } }) ∧
  (∀ (g : List Byte) (x : Bool) (w : List Bool) (s : State), s.linkUp = true → grantFormatOk g = false →
    exec (.maintenanceGrant g x w) s = .next { s with sw := { s.sw with grantCode := 1, event := setEv s.sw.event 7 } }) ∧
  (∀ (g : List Byte) (w : List Bool) (s : State), s.linkUp = true → grantFormatOk g = true → (s.sw.ownerKeys.find
      (u32At g 8)).isSome = true → sliceZ g 24 32 = s.se.identity → s.sw.grantCounter < u64At g 16 → w.getD 0 true =
      true → w.getD 2 true = true →
    ∃ t, exec (.maintenanceGrant g true w) s = .next t ∧ t.sw.grantCode = 0 ∧ t.sw.event = setEv t.sw.event 7 ∧
      (∀ n, n ∈ t.sw.opened ↔ n < sectorCount ∧ mapBit (sliceZ g 56 264) n = false) ∧
      (bitN (u16At g 6) 0 = true →
        t.sw.bytes 0 (p0Bytes (sliceZ g 56 264)).length = p0Bytes (sliceZ g 56 264)) ∧
      t = { s with sw := t.sw, tick := t.tick }) ∧
  (∀ (g : List Byte) (w : List Bool) (s : State), s.linkUp = true → grantFormatOk g = true → (s.sw.ownerKeys.find
      (u32At g 8)).isSome = true →
    (sliceZ g 24 32 ≠ s.se.identity →
      exec (.maintenanceGrant g true w) s = .next { s with sw := { s.sw with grantCode := 4, event := setEv s.sw.event 7 } }) ∧
    (sliceZ g 24 32 = s.se.identity → u64At g 16 ≤ s.sw.grantCounter →
      exec (.maintenanceGrant g true w) s = .next { s with sw := { s.sw with grantCode := 5, event := setEv s.sw.event 7 } }) ∧
    (sliceZ g 24 32 = s.se.identity → s.sw.grantCounter < u64At g 16 → w.getD 0 true = false → w.getD 1 true = false →
      ∃ t, exec (.maintenanceGrant g true w) s = .next t ∧ t.sw.grantCode = 6 ∧ t.sw.opened = s.sw.opened)) ∧
  (∀ (g : List Byte) (x : Bool) (w : List Bool) (s : State), s.linkUp = true → grantFormatOk g = true →
      s.sw.ownerKeys.find (u32At g 8) = none →
    exec (.maintenanceGrant g x w) s = .next { s with sw := { s.sw with grantCode := 3, event := setEv s.sw.event 7 } }) ∧
  (∀ (g : List Byte) (w : List Bool) (s : State), s.linkUp = true → grantFormatOk g = true → (s.sw.ownerKeys.find
      (u32At g 8)).isSome = true →
    ∃ t, exec (.maintenanceGrant g false w) s = .next t ∧ t.sw.grantCode = 2 ∧ t.sw.opened = s.sw.opened ∧ t.sw.store = s.sw.store ∧
      t.se = { s.se with failCnt := sat32 (s.se.failCnt + 1), event := setEv s.se.event 3 }) ∧
  (∀ (a p : Nat) (f : Bool) (s : State), s.sw.run = some (.erase a, f) → s.ntAll = true → a < storeBytes →
    ∃ t, exec (.swOpDone p false) s = .next t ∧ t.sw.run = none ∧ t.sw.bits = setEv s.sw.bits 3 ∧
      t.sw.efailCnt = sat16 (s.sw.efailCnt + 1) ∧ RecordWritten s t srcSW kEraseFail 0 (BitVec.ofNat 64 a) 16 0 0 0 ∧
      (∀ b, b < sectorBase (sectorOf a) ∨ sectorBase (sectorOf a) + sectorSize (sectorOf a) ≤ b →
        readCell 0xFF t.sw.store b = readCell 0xFF s.sw.store b)) ∧
  (∀ (p : Nat) (x : Bool) (s : State), s.sw.run = none →
    exec (.swOpDone p x) s = .next s) ∧
  (∀ (o : SwOp) (s : State), s.sw.queued = some o → s.sw.run = none → s.sw.busyBoot = false →
    (s.sw.protected (sectorOf o.addr) = true →
      exec .swQueuedStart s = .next { s with sw := { s.sw with
        queued := none, bits := setEv 0 4, pulses := 0, last := BitVec.ofNat 32 o.addr, seq := .idle
        event := setEv (setEv s.sw.event 4) 0 } }) ∧
    (s.sw.protected (sectorOf o.addr) = false → s.sw.notErased o = true →
      exec .swQueuedStart s = .next { s with sw := { s.sw with
        queued := none, bits := setEv 0 1, pulses := 0, last := BitVec.ofNat 32 o.addr, seq := .idle
        event := setEv (setEv s.sw.event 1) 0 } }) ∧
    (s.sw.protected (sectorOf o.addr) = false → s.sw.notErased o = false → s.sw.unchanged o = true →
      exec .swQueuedStart s = .next { s with sw := { s.sw with
        queued := none, bits := 0, pulses := 0, last := BitVec.ofNat 32 o.addr, seq := .idle, event := setEv s.sw.event 0 } })) ∧
  (∀ (s : State), s.sw.queued = none ∨ s.sw.run ≠ none ∨ s.sw.busyBoot = true →
    exec .swQueuedStart s = .next s) ∧
  (∀ (k : Nat) (v : W32) (g : List Byte) (x : Bool) (w : List Bool) (s : State), s.linkUp = false →
    exec (.swProtectSet k v) s = .next s ∧ exec (.maintenanceGrant g x w) s = .next s)

/-- LP_READ, LP_WRITE, LP_FLUSH, LP_TRIM, LP_INQUIRE, LP_UNSUPPORTED, where the frame is the only one on the ring. Other
violations and waits are statements of their own. -/
def Obligations.RonnelCommands : Prop :=
  (∀ (n : Namespace) (s : State), s.lpRuns → s.mm.replayed = true → s.qe.store = [] → s.qe.held = [] →
      s.lp.head.opcode = 1 → s.mm.namespaces.find (s.lp.volume s.lp.head.volume) = some n → n.attached = true →
      s.lp.head.lba + s.lp.head.count ≤ n.blocks → s.mm.anyBad (s.lp.volume s.lp.head.volume) s.lp.head.lba
      s.lp.head.count = false →
    ∃ t, exec .lpRead s = .next t ∧ t.lp.cmds.find s.lp.head.tag = none ∧ { sq := lpQueue, cid := s.lp.head.tag } ∉ t.qe.fetched ∧
      t.lp.avail = 0 ∧ t.mm = s.mm ∧ t.qe.store = [] ∧ t = { s with lp := t.lp, qe := t.qe }) ∧
  (∀ (n : Namespace) (s : State), s.lpRuns → s.mm.replayed = true → s.qe.store = [] → s.qe.held = [] →
      s.lp.head.opcode = 1 → s.lp.head.count = 1 → s.mm.namespaces.find (s.lp.volume s.lp.head.volume) = some n →
      n.attached = true → s.lp.head.lba + s.lp.head.count ≤ n.blocks → s.mm.anyBad (s.lp.volume s.lp.head.volume)
      s.lp.head.lba 1 = false → s.lp.rplProd + 66 ≤ rplCells → 66 ≤ s.lp.free →
    ∃ t, exec .lpRead s = .next t ∧
      LpReplied s t 0 (lpFrame 3 1 65 s.lp.head.tag (2 ^ 40 * 4096) (padTo 4096 (s.mm.readLba n s.lp.head.lba))) ∧
      LpReplied s t 65 (lpStatus s.lp.head.tag lpGood 1) ∧ t.lp.rplProd = (s.lp.rplProd + 66) % rplCells) ∧
  (∀ (n : Namespace) (s : State), s.lpRuns → s.mm.replayed = true → s.qe.store = [] → s.qe.held = [] →
      s.lp.head.opcode = 2 → s.mm.namespaces.find (s.lp.volume s.lp.head.volume) = some n → n.attached = true →
      s.lp.head.lba + s.lp.head.count ≤ n.blocks → n.readOnly = false → s.idx.find (s.lp.volume s.lp.head.volume) =
      none → s.qe.locksUsed < 4096 → s.lp.rplProd < rplCells → 1 ≤ s.lp.free →
    ∃ t, exec .lpWrite s = .next t ∧
      t.lp.cmds.find s.lp.head.tag = some { opcode := 2, nsid := s.lp.volume s.lp.head.volume, lba := s.lp.head.lba, blocks := s.lp.head.count, window := 0, granted := true, got := [], data := [], falses := 0 } ∧
      { sq := lpQueue, cid := s.lp.head.tag } ∈ t.qe.fetched ∧ t.qe.locksUsed = s.qe.locksUsed + 1 ∧
      LpReplied s t 0 (lpFrame 2 0 1 s.lp.head.tag 0 (leBytes (4096 * min 64 s.lp.head.count) 4)) ∧
      t.lp.rplProd = (s.lp.rplProd + 1) % rplCells ∧ t.mm = s.mm) ∧
  (∀ (n : Namespace) (s : State), s.lpRuns → s.mm.replayed = true → s.qe.store = [] → s.qe.held = [] →
      s.lp.head.opcode = 3 → s.mm.namespaces.find (s.lp.volume s.lp.head.volume) = some n → n.attached = true →
      s.lp.rplProd < rplCells → 1 ≤ s.lp.free →
    ∃ t, exec .lpFlush s = .next t ∧ LpReplied s t 0 (lpStatus s.lp.head.tag lpGood 0) ∧
      t.lp.rplProd = (s.lp.rplProd + 1) % rplCells ∧ t.lp.cmds.find s.lp.head.tag = none ∧ { sq := lpQueue, cid := s.lp.head.tag } ∉ t.qe.fetched ∧
      t = { s with lp := t.lp, qe := t.qe }) ∧
  (∀ (n : Namespace) (s : State), s.lpRuns → s.mm.replayed = true → s.qe.store = [] → s.qe.held = [] →
      s.lp.head.opcode = 4 → s.mm.namespaces.find (s.lp.volume s.lp.head.volume) = some n → n.attached = true →
      s.lp.head.lba + s.lp.head.count ≤ n.blocks → s.lp.head.lba % 8 = 0 ∧ s.lp.head.count % 8 = 0 → n.readOnly =
      false → s.idx.find (s.lp.volume s.lp.head.volume) = none → s.qe.locksUsed < 4096 → s.liveSnaps = [] →
      s.mm.pool.length ≤ poolCopies → s.lp.rplProd < rplCells → 1 ≤ s.lp.free →
    ∃ t, exec .lpTrim s = .next t ∧ LpReplied s t 0 (lpStatus s.lp.head.tag lpGood s.lp.head.count) ∧ t.lp.cmds.find s.lp.head.tag = none ∧ { sq := lpQueue, cid := s.lp.head.tag } ∉ t.qe.fetched ∧
      (∀ i, i < s.lp.head.count → t.mm.readLba n (s.lp.head.lba + i) = []) ∧ t.qe.locksUsed = s.qe.locksUsed) ∧
  (∀ (n : Namespace) (s : State), s.lpRuns → s.lp.head.opcode = 5 → s.mm.namespaces.find (s.lp.volume
      s.lp.head.volume) = some n → s.lp.rplProd + 66 ≤ rplCells → 66 ≤ s.lp.free →
    ∃ t, exec .lpInquire s = .next t ∧
      LpReplied s t 0 (lpFrame 3 1 65 s.lp.head.tag (2 ^ 40 * 4096)
        (padTo 4096 (leBytes n.blocks 8 ++ leBytes 512 4 ++ leBytes 64 4))) ∧
      LpReplied s t 65 (lpStatus s.lp.head.tag lpGood 0) ∧ t.lp.cmds.find s.lp.head.tag = none ∧ { sq := lpQueue, cid := s.lp.head.tag } ∉ t.qe.fetched ∧ t.mm = s.mm) ∧
  (∀ (s : State), s.lpFrameWaits → s.arbiter lpQueue = true → s.qe.fetched.length < 65536 → s.lp.tagUsed
      s.lp.head.tag = false → s.lp.head.type = 1 → s.lp.enable = true → s.fl.fatalStands = false → s.lp.head.opcode =
      0 ∨ 5 < s.lp.head.opcode → s.lp.rplProd < rplCells → 1 ≤ s.lp.free →
    ∃ t, exec .lpUnsupported s = .next t ∧ LpReplied s t 0 (lpStatus s.lp.head.tag lpUnsupp 0) ∧ t.lp.cmds.find s.lp.head.tag = none ∧ { sq := lpQueue, cid := s.lp.head.tag } ∉ t.qe.fetched ∧
      t = { s with lp := t.lp, qe := t.qe }) ∧
  (∀ (s : State), s.lpFrameWaits → s.arbiter lpQueue = true → s.qe.fetched.length < 65536 → s.lp.tagUsed
      s.lp.head.tag = false → s.lp.head.type = 1 → s.lp.enable = false → s.lp.head.opcode = 1 → s.lp.rplProd <
      rplCells → 1 ≤ s.lp.free →
    ∃ t, exec .lpRead s = .next t ∧ LpReplied s t 0 (lpStatus s.lp.head.tag lpNotReady 0) ∧ t.lp.cmds.find s.lp.head.tag = none ∧ { sq := lpQueue, cid := s.lp.head.tag } ∉ t.qe.fetched ∧ t.mm = s.mm) ∧
  (∀ (st : Nat) (s : State), s.lpFrameWaits → s.arbiter lpQueue = true → s.qe.fetched.length < 65536 → s.lp.tagUsed
      s.lp.head.tag = false → s.lp.head.type = 1 → s.lpEarly s.lp.head = some st → s.lp.rplProd < rplCells → 1 ≤
      s.lp.free →
    ∃ t, (s.lp.head.opcode = 1 → exec .lpRead s = .next t) ∧ (s.lp.head.opcode = 2 → exec .lpWrite s = .next t) ∧
      (s.lp.head.opcode = 3 → exec .lpFlush s = .next t) ∧ (s.lp.head.opcode = 4 → exec .lpTrim s = .next t) ∧
      (s.lp.head.opcode = 5 → exec .lpInquire s = .next t) ∧
      (s.lp.head.opcode = 0 ∨ 5 < s.lp.head.opcode → exec .lpUnsupported s = .next t) ∧
      LpReplied s t 0 (lpStatus s.lp.head.tag st 0) ∧ t.lp.cmds.find s.lp.head.tag = none ∧ { sq := lpQueue, cid := s.lp.head.tag } ∉ t.qe.fetched ∧ t = { s with lp := t.lp, qe := t.qe }) ∧
  (∀ (s : State), s.vendorLive = false ∨ s.lp.avail = 0 ∨ s.lp.head.type ≠ 1 ∨ s.arbiter lpQueue = false ∨ 65536 ≤
      s.qe.fetched.length →
    exec .lpRead s = .next s ∧ exec .lpWrite s = .next s ∧ exec .lpFlush s = .next s ∧ exec .lpTrim s = .next s ∧
    exec .lpInquire s = .next s ∧ exec .lpUnsupported s = .next s) ∧
  (∀ (s : State),
    (s.lp.head.opcode ≠ 1 → exec .lpRead s = .next s) ∧ (s.lp.head.opcode ≠ 2 → exec .lpWrite s = .next s) ∧
    (s.lp.head.opcode ≠ 3 → exec .lpFlush s = .next s) ∧ (s.lp.head.opcode ≠ 4 → exec .lpTrim s = .next s) ∧
    (s.lp.head.opcode ≠ 5 → exec .lpInquire s = .next s) ∧
    (1 ≤ s.lp.head.opcode → s.lp.head.opcode ≤ 5 → exec .lpUnsupported s = .next s))

/-- LP_DATA, LP_ABORT, LP_PAD, LP_REQ_PROD_WRITE, LP_RPL_CONS_WRITE, LP_VOL_MAP_WRITE and LP_XFER_TIMEOUT. -/
def Obligations.RonnelFrames : Prop :=
  (∀ (c : LpCmd) (s : State), s.lpFrameWaits → s.lp.head.type = 3 → s.lp.cmds.find s.lp.head.tag = some c →
      c.opcode = 2 → c.granted = true → 1 ≤ bitsN s.lp.head.arg 63 40 ∧ bitsN s.lp.head.arg 63 40 ≤ 16384 → 262144 *
      c.window ≤ s.lp.head.arg % 2 ^ 40 ∧ s.lp.head.arg % 2 ^ 40 + bitsN s.lp.head.arg 63 40 ≤ 262144 * c.window +
      c.windowLen → s.lp.head.cells = (16 + bitsN s.lp.head.arg 63 40 + 63) / 64 → (s.lp.head.last = true → (c.add
      (s.lp.head.arg % 2 ^ 40 - 262144 * c.window) (sliceZ s.lp.head.bytes 16 (bitsN s.lp.head.arg 63 40))).got.length
      = c.windowLen) →
    ∃ t, exec .lpData s = .next t ∧
      t.lp.cmds.find s.lp.head.tag =
        some { c.add (s.lp.head.arg % 2 ^ 40 - 262144 * c.window) (sliceZ s.lp.head.bytes 16 (bitsN s.lp.head.arg 63 40)) with
          granted := !s.lp.head.last } ∧
      t.lp.avail = 0 ∧ t.lp.rplProd = s.lp.rplProd ∧ t = { s with lp := t.lp }) ∧
  (∀ (s : State), s.lpFrameWaits → s.lp.head.type = 3 → s.lp.cmds.find s.lp.head.tag = none → s.ntAll = true →
      (srcLP, kProtocol, 0x0A) ∉ s.fl.beatPosts → s.lp.rplProd < rplCells → 1 ≤ s.lp.free →
    ∃ t, exec .lpData s = .next t ∧ LpReplied s t 0 (lpNak s.lp.head.tag 0x0A s.lp.head.cell 3) ∧
      t.lp.protoCnt = sat32 (s.lp.protoCnt + 1) ∧ t.lp.event = setEv s.lp.event 0 ∧ t.fl.posted = s.fl.posted + 1 ∧
      t.lp.cmds = s.lp.cmds ∧ t = { s with lp := t.lp, fl := t.fl }) ∧
  (∀ (s : State), s.lpFrameWaits → s.lp.head.type = 5 → (s.lp.cmds.find s.lp.head.tag).isSome = true → ((∀ k ∈
      s.qe.store, k.c ≠ { sq := lpQueue, cid := s.lp.head.tag })) → s.lp.rplProd < rplCells → 1 ≤ s.lp.free →
    ∃ t, exec .lpAbort s = .next t ∧ LpReplied s t 0 (lpStatus s.lp.head.tag lpAborted 0) ∧ t.lp.cmds.find s.lp.head.tag = none ∧ { sq := lpQueue, cid := s.lp.head.tag } ∉ t.qe.fetched ∧
      t = { s with lp := t.lp, qe := t.qe }) ∧
  (∀ (s : State), s.lpFrameWaits → s.lp.head.type = 5 → s.lp.tagUsed s.lp.head.tag = false → s.lp.rplProd <
      rplCells → 1 ≤ s.lp.free →
    ∃ t, exec .lpAbort s = .next t ∧ LpReplied s t 0 (lpNak s.lp.head.tag 0x0B s.lp.head.cell 5) ∧ t = { s with lp := t.lp }) ∧
  (∀ (s : State), s.lpFrameWaits → s.lp.head.type = 0 →
    exec .lpPad s = .next { s with lp := { s.lp with reqCons := 0 } }) ∧
  (∀ (v : W32) (s : State), s.vendorLive = true → reqCells ≤ bitsW v 12 0 → s.ntAll = true → (srcLP, kProtocol, 8)
      ∉ s.fl.beatPosts →
    ∃ t, exec (.lpReqProdWrite v) s = .next t ∧ t.lp = { s.lp with
        protoCnt := sat32 (s.lp.protoCnt + 1), event := setEv s.lp.event 0, irqs := 1 :: s.lp.irqs } ∧
      RecordWritten s t srcLP kProtocol 0 (BitVec.ofNat 64 (bitsW v 12 0)) 8 0 0 0 ∧ t = { s with lp := t.lp, fl := t.fl }) ∧
  (∀ (v : W32) (s : State), s.vendorLive = true → bitsW v 12 0 < reqCells → s.lp.avail ≤ (bitsW v 12 0 + reqCells -
      s.lp.reqCons) % reqCells → s.lp.outq ≠ [] →
    exec (.lpReqProdWrite v) s = .next { s with lp := { s.lp with reqProd := bitsW v 12 0 } }) ∧
  (∀ (v : W32) (s : State), s.vendorLive = true → bitsW v 12 0 < reqCells → s.lp.reqCons < reqCells → s.lp.avail =
      0 → s.lp.outq = [] → 0 < (bitsW v 12 0 + reqCells - s.lp.reqCons) % reqCells → s.lp.head.type = 1 → 1 ≤
      s.lp.head.cells ∧ s.lp.head.cells ≤ 257 → s.lp.reqCons + s.lp.head.cells ≤ reqCells → s.lp.head.cells ≤ (bitsW v
      12 0 + reqCells - s.lp.reqCons) % reqCells →
    exec (.lpReqProdWrite v) s = .next { s with lp := { s.lp with reqProd := bitsW v 12 0 } }) ∧
  (∀ (v : W32) (s : State), s.vendorLive = true → (bitsW v 12 0 + rplCells - s.lp.rplCons) % rplCells ≤
      (s.lp.rplProd + rplCells - s.lp.rplCons) % rplCells → s.lp.outq = [] → s.lp.avail = 0 →
    exec (.lpRplConsWrite v) s = .next { s with lp := { s.lp with rplCons := bitsW v 12 0 } }) ∧
  (∀ (v : W32) (s : State), s.vendorLive = true → (s.lp.rplProd + rplCells - s.lp.rplCons) % rplCells < (bitsW v 12
      0 + rplCells - s.lp.rplCons) % rplCells → s.ntAll = true → (srcLP, kProtocol, 8) ∉ s.fl.beatPosts →
    ∃ t, exec (.lpRplConsWrite v) s = .next t ∧ t.lp = { s.lp with
        protoCnt := sat32 (s.lp.protoCnt + 1), event := setEv s.lp.event 0, irqs := 1 :: s.lp.irqs } ∧
      RecordWritten s t srcLP kProtocol 0 (BitVec.ofNat 64 (bitsW v 12 0)) 8 0 0 0 ∧ t = { s with lp := t.lp, fl := t.fl }) ∧
  (∀ (n : Nat) (v : W32) (w : List Bool) (s : State), s.vendorLive = true → 1 ≤ n ∧ n ≤ 16 →
    ∃ t, exec (.lpVolMapWrite n v w) s = .next t ∧ t.lp = { s.lp with volMap := s.lp.volMap.set (n - 1) v } ∧
      t = { s with lp := t.lp, sw := t.sw, tick := t.tick, fl := t.fl, mc := t.mc }) ∧
  (∀ (n : Nat) (c : LpCmd) (s : State), s.vendorLive = true → 0 < s.lp.timeout → s.lp.cmds.find n = some c →
      c.granted = true → n < 256 → ((∀ k ∈ s.qe.store, k.c ≠ { sq := lpQueue, cid := n })) → s.lp.outq = [] → s.ntAll
      = true → (srcLP, kProtocol, 7) ∉ s.fl.beatPosts → s.lp.rplProd < rplCells → 1 ≤ s.lp.free →
    ∃ t, exec (.lpXferTimeout n) s = .next t ∧ LpReplied s t 0 (lpStatus n lpTimeout 0) ∧ t.lp.cmds.find n = none ∧
      t.lp.protoCnt = sat32 (s.lp.protoCnt + 1) ∧ t.fl.posted = s.fl.posted + 1 ∧ t = { s with lp := t.lp, fl := t.fl, qe := t.qe }) ∧
  (∀ (s : State), s.lpFrameWaits → s.lp.head.type = 5 → (s.lp.cmds.find s.lp.head.tag).isSome = true →
    ∃ t, exec .lpAbort s = .next t ∧ t.lp.cmds.find s.lp.head.tag = none ∧ { sq := lpQueue, cid := s.lp.head.tag } ∉ t.qe.fetched) ∧
  (∀ (v : W32) (s : State), s.vendorLive = true → bitsW v 12 0 < reqCells → (bitsW v 12 0 + reqCells -
      s.lp.reqCons) % reqCells < s.lp.avail → s.ntAll = true → (srcLP, kProtocol, 8) ∉ s.fl.beatPosts →
    ∃ t, exec (.lpReqProdWrite v) s = .next t ∧ t.lp = { s.lp with
        protoCnt := sat32 (s.lp.protoCnt + 1), event := setEv s.lp.event 0, irqs := 1 :: s.lp.irqs } ∧
      RecordWritten s t srcLP kProtocol 0 (BitVec.ofNat 64 (bitsW v 12 0)) 8 0 0 0 ∧ t = { s with lp := t.lp, fl := t.fl }) ∧
  (∀ (v : W32) (s : State), s.vendorLive = true →
    (bitsW v 12 0 < reqCells → s.lp.avail ≤ (bitsW v 12 0 + reqCells - s.lp.reqCons) % reqCells →
      exec (.lpReqProdWrite v) s = .next (({ s with lp := { s.lp with reqProd := bitsW v 12 0 } } : State).lpSkipAll)) ∧
    ((bitsW v 12 0 + rplCells - s.lp.rplCons) % rplCells ≤ (s.lp.rplProd + rplCells - s.lp.rplCons) % rplCells →
      exec (.lpRplConsWrite v) s =
        .next ((({ s with lp := { s.lp with rplCons := bitsW v 12 0 } } : State).lpSend []).lpSkipAll))) ∧
  (∀ (s : State), s.vendorLive = false ∨ s.lp.avail = 0 →
    exec .lpData s = .next s ∧ exec .lpAbort s = .next s ∧ exec .lpPad s = .next s) ∧
  (∀ (s : State),
    (s.lp.head.type ≠ 3 → exec .lpData s = .next s) ∧ (s.lp.head.type ≠ 5 → exec .lpAbort s = .next s) ∧
    (s.lp.head.type ≠ 0 → exec .lpPad s = .next s)) ∧
  (∀ (n : Nat) (v : W32) (w : List Bool) (s : State), s.vendorLive = false ∨ n = 0 ∨ 16 < n →
    exec (.lpVolMapWrite n v w) s = .next s) ∧
  (∀ (n : Nat) (s : State), (s.vendorLive = false ∨ s.lp.timeout = 0 ∨ s.lp.cmds.find n = none ∨ (∃ c,
      s.lp.cmds.find n = some c ∧ c.granted = false)) →
    exec (.lpXferTimeout n) s = .next s) ∧
  (∀ (n : Nat) (c : LpCmd) (s : State), s.vendorLive = true → 0 < s.lp.timeout → s.lp.cmds.find n = some c →
      c.granted = true →
    ∃ t, exec (.lpXferTimeout n) s = .next t ∧ t.lp.cmds.find n = none ∧ t.lp.protoCnt = sat32 (s.lp.protoCnt + 1))

/-- LP_WINDOW_LANDED. -/
def Obligations.RonnelWindows : Prop :=
  (∀ (n : Nat) (c : LpCmd) (k : StoreCmd) (x : Namespace) (s : State), s.mediaRuns = true → s.lp.cmds.find n = some
      c → c.windowDone = true → s.qe.store = [k] → k.c = { sq := lpQueue, cid := n } → k.silent = false → k.stage =
      .running → k.op = .write → s.mm.namespaces.find k.nsid = some x → s.landingWaits [c.piece k] = false →
      s.poolRoom x [c.piece k] = true →
    ∃ t, exec (.lpWindowLanded n) s = .next t ∧
      (∃ p, t.qe.store = [{ k with pieces := k.pieces ++ [p] }] ∧ p.stripe.isSome = true ∧ p.blocks = (c.piece k).blocks ∧
        p.num = c.window ∧ p.slba = k.slba + 64 * c.window ∧ p.onMedium = false) ∧
      t.lp.cmds.find n = some (if c.window + 1 < k.pieceCount then { c with got := [], window := c.window + 1, granted := true }
        else { c with got := [] }) ∧
      (∀ m, m ≠ n → t.lp.cmds.find m = s.lp.cmds.find m) ∧
      t.mm.pages = s.mm.pages ∧ t.mm.bulk = s.mm.bulk ∧ t.mm.epoch = s.mm.epoch ∧ t.mm.namespaces = s.mm.namespaces ∧
      t.fl = s.fl ∧ t.jd = s.jd ∧ t.tiles = s.tiles ∧ t.qe.posted = s.qe.posted) ∧
  (∀ (n : Nat) (c : LpCmd) (k : StoreCmd) (x : Namespace) (s : State), s.mediaRuns = true → s.lp.cmds.find n = some
      c → c.windowDone = true → s.qe.store = [k] → k.c = { sq := lpQueue, cid := n } → k.silent = false → k.stage =
      .running → k.op = .write → s.mm.namespaces.find k.nsid = some x → s.landingWaits [c.piece k] = true →
    exec (.lpWindowLanded n) s = .next { s with mm := { s.mm with event := setEv s.mm.event 1 } }) ∧
  (∀ (n : Nat) (c : LpCmd) (k : StoreCmd) (x : Namespace) (s : State), s.mediaRuns = true → s.lp.cmds.find n = some
      c → c.windowDone = true → s.qe.store = [k] → k.c = { sq := lpQueue, cid := n } → k.silent = false → k.stage =
      .running → k.op = .write → s.mm.namespaces.find k.nsid = some x → s.landingWaits [c.piece k] = false →
      s.poolRoom x [c.piece k] = false →
    exec (.lpWindowLanded n) s = .next { s with mm := { s.mm with event := setEv s.mm.event 2 } }) ∧
  (∀ (n : Nat) (s : State), (s.mediaRuns = false ∨ s.lp.cmds.find n = none ∨ (∃ c, s.lp.cmds.find n = some c ∧
      c.windowDone = false) ∨ ∀ k ∈ s.qe.store, k.c ≠ { sq := lpQueue, cid := n } ∨ k.silent = true ∨ k.stage ≠
      .running) →
    exec (.lpWindowLanded n) s = .next s)

/-- READ, VERIFY, FLUSH, WRITE and WRITE_ZEROES. The status numbers are NVM Express's (assumption entry 6); how a codeword
decodes is the command's operand (entry 51). -/
def Obligations.StorageReads : Prop :=
  (∀ (c : CmdId) (n a z : Nat) (x : Namespace) (rs : List CodewordRead) (s : State), s.storeIdle c n x → 1 ≤ z ∧ z
      ≤ 512 → a + z ≤ x.blocks → s.mm.anyBad n a z = false →
    ∃ m, exec (.read c n a ⟨z, rs⟩) s =
        .next (({ s with mm := m } : State).answered c stOk 0 0 ((List.range z).map (fun i => padTo 4096 (s.mm.readLba x (a + i))))) ∧
      exec (.verify c n a ⟨z, rs⟩) s = .next (({ s with mm := m } : State).answered c stOk 0 0 []) ∧
      m = { s.mm with blocks := m.blocks, retryCnt := m.retryCnt, retries := m.retries, refreshQ := m.refreshQ }) ∧
  (∀ (c : CmdId) (n a z : Nat) (x : Namespace) (rs : List CodewordRead) (s : State), s.storeIdle c n x → 1 ≤ z ∧ z
      ≤ 512 → a + z ≤ x.blocks → s.mm.anyBad n a z = true →
    ∃ m, exec (.read c n a ⟨z, rs⟩) s = .next (({ s with mm := m } : State).answered c stUnrecovered 0 0 []) ∧
      exec (.verify c n a ⟨z, rs⟩) s = .next (({ s with mm := m } : State).answered c stUnrecovered 0 0 []) ∧
      m = { s.mm with blocks := m.blocks, retryCnt := m.retryCnt, retries := m.retries, refreshQ := m.refreshQ }) ∧
  (∀ (c : CmdId) (n a f e g : Nat) (x : Namespace) (s : State), s.storeIdle c n x → a < x.blocks → s.mm.anyBad n a
      1 = false → s.mm.flashOf (s.mm.locOf (x.unit (a / 8))) (a % 8) = some f →
    exec (.read c n a ⟨1, [{ block := 0, step := e, bits := g }]⟩) s =
      .next (({ s with mm := s.mm.noteRead f (min 16 e) g } : State).answered c stOk 0 0 [padTo 4096 (s.mm.readLba x a)]) ∧
    exec (.read c n a ⟨1, []⟩) s =
      .next (({ s with mm := s.mm.noteRead f (s.mm.blk f).hint 0 } : State).answered c stOk 0 0 [padTo 4096 (s.mm.readLba x a)])) ∧
  (∀ (c : CmdId) (n a z : Nat) (x : Namespace) (rs : List CodewordRead) (s : State), s.storeIdle c n x → 1 ≤ z ∧ z
      ≤ 512 → a + z ≤ x.blocks → s.mm.anyBad n a z = false → (∀ i, i < z → s.mm.locOf (x.unit ((a + i) / 8)) =
      .unmapped) →
    exec (.read c n a ⟨z, rs⟩) s = .next (s.answered c stOk 0 0 (List.replicate z (List.replicate 4096 0)))) ∧
  (∀ (c : CmdId) (n : Nat) (x : Namespace) (s : State), s.storeIdle c n x →
    exec (.flush c n) s = .next (s.answered c stOk 0 0 [])) ∧
  (∀ (c : CmdId) (n a z : Nat) (x : Namespace) (rs : List CodewordRead) (d : List (List Byte)) (s : State),
      s.storeIdle c n x → z = 0 ∨ 512 < z →
    exec (.read c n a ⟨z, rs⟩) s = .next (s.answered c stInvalidField 0 0 []) ∧
    exec (.verify c n a ⟨z, rs⟩) s = .next (s.answered c stInvalidField 0 0 []) ∧
    exec (.write c n a z d) s = .next (s.answered c stInvalidField 0 0 []) ∧
    (∀ k, exec (.writeZeroes c n a z k) s = .next (s.answered c stInvalidField 0 0 []))) ∧
  (∀ (c : CmdId) (n a z : Nat) (x : Namespace) (rs : List CodewordRead) (d : List (List Byte)) (s : State),
      s.storeIdle c n x → 1 ≤ z ∧ z ≤ 512 → x.blocks < a + z →
    exec (.read c n a ⟨z, rs⟩) s = .next (s.answered c stLbaRange 0 0 []) ∧
    exec (.verify c n a ⟨z, rs⟩) s = .next (s.answered c stLbaRange 0 0 []) ∧
    exec (.write c n a z d) s = .next (s.answered c stLbaRange 0 0 []) ∧
    (∀ k, exec (.writeZeroes c n a z k) s = .next (s.answered c stLbaRange 0 0 []))) ∧
  (∀ (c : CmdId) (n a z : Nat) (x : Namespace) (d : List (List Byte)) (s : State), s.storeIdle c n x → 1 ≤ z ∧ z ≤
      512 → a + z ≤ x.blocks → x.readOnly = true →
    exec (.write c n a z d) s = .next (s.answered c stWriteProtected 0 0 []) ∧
    (∀ k, exec (.writeZeroes c n a z k) s = .next (s.answered c stWriteProtected 0 0 []))) ∧
  (∀ (c : CmdId) (n a z : Nat) (rs : List CodewordRead) (d : List (List Byte)) (s : State), s.serves c .io →
      s.mm.replayed = true → s.qe.store = [] → s.qe.held = [] → c.sq ≠ lpQueue → n ≠ 0xFFFFFFFF →
      (s.mm.namespaces.find n = none ∨ (∃ x, s.mm.namespaces.find n = some x ∧ x.attached = false)) →
    exec (.read c n a ⟨z, rs⟩) s = .next (s.answered c stInvalidNs 0 0 []) ∧
    exec (.verify c n a ⟨z, rs⟩) s = .next (s.answered c stInvalidNs 0 0 []) ∧
    exec (.flush c n) s = .next (s.answered c stInvalidNs 0 0 []) ∧
    exec (.write c n a z d) s = .next (s.answered c stInvalidNs 0 0 []) ∧
    (∀ k, exec (.writeZeroes c n a z k) s = .next (s.answered c stInvalidNs 0 0 [])))

/-- WRITE, WRITE_ZEROES, DATASET_MANAGEMENT_DEALLOCATE, RANGE_LOCK_GRANTED, OVERLAP_WAIT_END, WRITE_RESUME_LANDING and
WRITE_RESUME_SNAPSHOT. -/
def Obligations.StorageWrites : Prop :=
  (∀ (c : CmdId) (n a z : Nat) (x : Namespace) (d : List (List Byte)) (s : State), s.storeIdle c n x → 1 ≤ z ∧ z ≤
      512 → a + z ≤ x.blocks → x.readOnly = false → s.indexDenies n [(a, z)] = false → s.qe.locksUsed < 4096 →
      s.roomFor x (cutPieces (ceilDiv z 64) 0 a (hostBlocks d z)) →
    ∃ t k, exec (.write c n a z d) s = .next t ∧
      t.qe.store = [k] ∧ k.c = c ∧ k.op = .write ∧ k.stage = .running ∧ k.locks = 1 ∧ k.ranges = [(a, z)] ∧
      (k.pieces.map Piece.blocks).flatten = hostBlocks d z ∧
      (∀ i, (h : i < k.pieces.length) → k.pieces[i].num = i ∧ k.pieces[i].slba = a + 64 * i ∧ k.pieces[i].zeros = 0) ∧
      (∀ p ∈ k.pieces, p.blocks.length ≤ 64 ∧ p.stripe.isSome = true ∧ p.onMedium = false ∧ t.mm.holdsPiece p) ∧
      t.qe.locksUsed = s.qe.locksUsed + 1 ∧ t.qe.fetched = s.qe.fetched ++ [c] ∧ t.qe.posted = s.qe.posted ∧
      t.qe.cqWait = s.qe.cqWait ∧ s.mm.sameMap t.mm ∧ t = { s with qe := t.qe, mm := t.mm }) ∧
  (∀ (c : CmdId) (n a z : Nat) (x : Namespace) (e : Bool) (s : State), s.storeIdle c n x → 1 ≤ z ∧ z ≤ 64 → a + z ≤
      x.blocks → x.readOnly = false → s.indexDenies n [(a, z)] = false → s.qe.locksUsed < 4096 → s.roomFor x [⟨0, a,
      [], z, none, 0, false⟩] → a % 8 ≠ 0 ∨ z % 8 ≠ 0 →
    ∃ t k p, exec (.writeZeroes c n a z e) s = .next t ∧
      t.qe.store = [k] ∧ k.c = c ∧ k.op = .zeroes ∧ k.stage = .running ∧ k.locks = 1 ∧ k.pieces = [p] ∧ p.slba = a ∧
      p.zeros = z ∧ p.stripe.isSome = true ∧ p.onMedium = false ∧
      t.qe.fetched = s.qe.fetched ++ [c] ∧ t.qe.posted = s.qe.posted ∧ s.mm.sameMap t.mm ∧ t = { s with qe := t.qe, mm := t.mm }) ∧
  (∀ (c : CmdId) (n a z : Nat) (x : Namespace) (e : Bool) (s : State), s.storeIdle c n x → 0 < z → a % 8 = 0 ∧ z %
      8 = 0 → a + z ≤ x.blocks → x.readOnly = false → s.indexDenies n [(a, z)] = false → s.qe.locksUsed < 4096 →
      s.poolRoom x [⟨0, a, [], z, none, 0, false⟩] = true →
    ∃ t, exec (.datasetManagementDeallocate c n [(a, z)]) s = .next t ∧ Completed t c stOk 0 0 [] ∧
      (z ≤ 64 → ∃ u, exec (.writeZeroes c n a z e) s = .next u ∧ Completed u c stOk 0 0 [] ∧
        ∀ i, i < z → u.mm.readLba x (a + i) = []) ∧
      (∀ i, i < z → t.mm.readLba x (a + i) = []) ∧ t.qe.store = [] ∧ t.qe.locksUsed = s.qe.locksUsed ∧
      t.mm.hostWritten = s.mm.hostWritten ∧ t.mm.landing = s.mm.landing ∧ t = { s with qe := t.qe, mm := t.mm }) ∧
  (∀ (c : CmdId) (n a z : Nat) (x : Namespace) (d : List (List Byte)) (s : State), s.serves c .io → s.mm.replayed =
      true → s.qe.store = [] → s.mm.namespaces.find n = some x → x.attached = true → c.sq ≠ lpQueue → 1 ≤ z ∧ z ≤ 512
      → a + z ≤ x.blocks → x.readOnly = false → s.indexDenies n [(a, z)] = false → s.qe.held ≠ [] ∨ 4096 ≤
      s.qe.locksUsed →
    ∃ t, exec (.write c n a z d) s = .next t ∧ t.qe.held = s.qe.held ++ [c] ∧ t.qe.rlWait = sat32 (s.qe.rlWait + 1) ∧
      t.qe.event = setEv s.qe.event 0 ∧ (∀ q, t.qe.sqs.find c.sq = some q → q.blocked = some c) ∧
      (∃ k, t.qe.store = [k] ∧ k.c = c ∧ k.stage = .holding ∧ k.locks = 0) ∧
      t.qe.locksUsed = s.qe.locksUsed ∧ t.qe.posted = s.qe.posted ∧ t = { s with qe := t.qe }) ∧
  (∀ (c : CmdId) (n a z : Nat) (x : Namespace) (d : List (List Byte)) (s : State), s.storeIdle c n x → 1 ≤ z ∧ z ≤
      512 → a + z ≤ x.blocks → x.readOnly = false → s.indexDenies n [(a, z)] = false → s.qe.locksUsed < 4096 →
    (s.landingWaits (cutPieces (ceilDiv z 64) 0 a (hostBlocks d z)) = true →
      ∃ t k, exec (.write c n a z d) s = .next t ∧ t.qe.store = [k] ∧ k.c = c ∧ k.stage = .landing ∧ k.locks = 1 ∧
        t.qe.posted = s.qe.posted ∧ t.mm = { s.mm with event := setEv s.mm.event 1 } ∧ t = { s with qe := t.qe, mm := t.mm }) ∧
    (s.landingWaits (cutPieces (ceilDiv z 64) 0 a (hostBlocks d z)) = false →
      s.poolRoom x (cutPieces (ceilDiv z 64) 0 a (hostBlocks d z)) = false →
      ∃ t k, exec (.write c n a z d) s = .next t ∧ t.qe.store = [k] ∧ k.c = c ∧ k.stage = .snapshot ∧ k.locks = 1 ∧
        t.qe.posted = s.qe.posted ∧ t.mm = { s.mm with event := setEv s.mm.event 2 } ∧ t = { s with qe := t.qe, mm := t.mm })) ∧
  (∀ (c : CmdId) (k : StoreCmd) (x : Namespace) (p : Piece) (s : State), s.mediaRuns = true → s.qe.held = [c] →
      s.qe.store = [k] → k.c = c → k.stage = .holding → k.op = .write → k.pieces = [p] → p.onMedium = false ∧ p.stripe
      = none ∧ p.zeros = 0 ∧ p.blocks ≠ [] → s.qe.locksUsed + k.ranges.length ≤ 4096 → s.mm.namespaces.find k.nsid =
      some x → s.roomFor x [p] → c.sq ≠ lpQueue →
    ∃ t, exec .rangeLockGranted s = .next t ∧ t.qe.held = [] ∧ t.qe.locksUsed = s.qe.locksUsed + k.ranges.length ∧
      (∃ q, t.qe.store = [{ k with locks := k.ranges.length, stage := .running, pieces := [q] }] ∧
        q = { p with stripe := q.stripe, off := q.off } ∧ q.stripe.isSome = true ∧ t.mm.holdsPiece q) ∧
      (∀ q, t.qe.sqs.find c.sq = some q → q.blocked ≠ some c) ∧ s.mm.sameMap t.mm ∧ t = { s with qe := t.qe, mm := t.mm }) ∧
  (∀ (c : CmdId) (s : State), (s.mediaRuns = false ∨ s.qe.held = [] ∨ ∃ c ∈ s.qe.held.head?, ∃ k, s.qe.store.find?
      (fun k => k.c == c && k.stage == .holding) = some k ∧ 4096 < s.qe.locksUsed + k.ranges.length) →
    exec .rangeLockGranted s = .next s) ∧
  (∀ (c : CmdId) (k : StoreCmd) (x : Namespace) (s : State), s.mediaRuns = true → s.qe.held = [] → s.qe.store = [k]
      → k.c = c → k.stage = .overlap → k.op = .read → k.silent = false → s.mm.namespaces.find k.nsid = some x → c.sq ≠
      lpQueue → c ∈ s.qe.fetched → s.qe.fetched.Nodup →
    ∃ t, exec (.overlapWaitEnd c) s = .next t ∧
      (s.mm.anyBad k.nsid k.slba k.blocks = false →
        Completed t c stOk 0 0 ((List.range k.blocks).map (fun i => padTo 4096 (s.mm.readLba x (k.slba + i))))) ∧
      (s.mm.anyBad k.nsid k.slba k.blocks = true → Completed t c stUnrecovered 0 0 []) ∧
      t.qe.store = [] ∧ s.mm.sameMap t.mm ∧ t.mm.landing = s.mm.landing ∧ t = { s with qe := t.qe, mm := t.mm }) ∧
  (∀ (c : CmdId) (s : State), (s.mediaRuns = false ∨ ∀ k ∈ s.qe.store, k.c = c → k.stage = .overlap → s.qe.waitsFor
      k ≠ []) →
    exec (.overlapWaitEnd c) s = .next s) ∧
  (∀ (c : CmdId) (k : StoreCmd) (x : Namespace) (p : Piece) (s : State), s.mediaRuns = true → s.qe.store = [k] →
      k.c = c → k.stage = .landing → k.op = .write → k.pieces = [p] → p.onMedium = false ∧ p.stripe = none ∧ p.zeros =
      0 ∧ p.blocks ≠ [] → s.mm.namespaces.find k.nsid = some x → s.roomFor x [p] →
    ∃ t, exec (.writeResumeLanding c) s = .next t ∧
      (∃ q, t.qe.store = [{ k with stage := .running, pieces := [q] }] ∧ q = { p with stripe := q.stripe, off := q.off } ∧
        q.stripe.isSome = true ∧ t.mm.holdsPiece q) ∧
      s.mm.sameMap t.mm ∧ t = { s with qe := t.qe, mm := t.mm }) ∧
  (∀ (c : CmdId) (k : StoreCmd) (x : Namespace) (p : Piece) (s : State), s.mediaRuns = true → s.qe.store = [k] →
      k.c = c → k.stage = .snapshot → k.op = .write → k.pieces = [p] → p.onMedium = false ∧ p.stripe = none ∧ p.zeros
      = 0 ∧ p.blocks ≠ [] → s.mm.namespaces.find k.nsid = some x → s.roomFor x [p] →
    ∃ t, exec (.writeResumeSnapshot c) s = .next t ∧
      (∃ q, t.qe.store = [{ k with stage := .running, pieces := [q] }] ∧ q = { p with stripe := q.stripe, off := q.off } ∧
        q.stripe.isSome = true ∧ t.mm.holdsPiece q) ∧
      s.mm.sameMap t.mm ∧ t = { s with qe := t.qe, mm := t.mm }) ∧
  (∀ (c : CmdId) (k : StoreCmd) (x : Namespace) (p : Piece) (s : State), s.mediaRuns = true → s.qe.store = [k] →
      k.c = c → k.stage = .landing ∨ k.stage = .snapshot → k.op = .write → k.pieces = [p] → p.onMedium = false ∧
      p.stripe = none ∧ p.zeros = 0 ∧ p.blocks ≠ [] → s.mm.namespaces.find k.nsid = some x → s.landingWaits [p] = true
      →
    ∃ t, (if k.stage = .landing then exec (.writeResumeLanding c) s else exec (.writeResumeSnapshot c) s) = .next t ∧
      t.qe.store = [{ k with stage := .landing }] ∧ t.mm = { s.mm with event := setEv s.mm.event 1 } ∧ t = { s with qe := t.qe, mm := t.mm }) ∧
  (∀ (c : CmdId) (s : State), (s.mediaRuns = false ∨ ∀ k ∈ s.qe.store, k.c = c → k.stage ≠ .landing ∧ k.stage ≠
      .snapshot) →
    exec (.writeResumeLanding c) s = .next s ∧ exec (.writeResumeSnapshot c) s = .next s)

/-- LANDING_STRIPE_CLOSE and LANDING_STRIPE_VERIFIED, with one write in QE. -/
def Obligations.WritesLand : Prop :=
  (∀ (k : Nat) (y : Stripe) (w : StoreCmd) (p : Piece) (x : Namespace) (s : State), s.power.failing = false →
      s.mm.stripes.find k = some y → y.closed = true → y.verified = false → s.qe.store = [w] → w.op = .write → w.stage
      = .running → w.silent = false → w.c.sq ≠ lpQueue → w.c ∈ s.qe.fetched → s.qe.fetched.Nodup → w.pieces = [p] →
      p.stripe = some k → p.zeros = 0 → s.mm.holdsPiece p → s.mm.namespaces.find w.nsid = some x → s.commitsIdle →
      s.poolRoom x [p] = true → p.slba % 8 = 0 → p.blocks.length = 8 → w.ranges = [(p.slba, 8)] →
    ∃ t, exec (.landingStripeVerified k) s = .next t ∧ Completed t w.c stOk 0 0 [] ∧ t.qe.store = [] ∧
      t.qe.locksUsed = s.qe.locksUsed - w.locks ∧
      (∀ i, (h : i < p.blocks.length) → t.mm.readLba x (p.slba + i) = trimZ p.blocks[i]) ∧
      (∀ u, u ≠ x.unit (p.slba / 8) → t.mm.locOf u = s.mm.locOf u) ∧
      (t.mm.page (pageOf (x.unit (p.slba / 8)))).stamp = s.mm.epoch + 1 ∧ t.mm.epoch = s.mm.epoch ∧
      t.mm.bulk = s.mm.bulk ∧ (∀ a, (t.mm.landing.findD a MediumBlock.blank).data = (s.mm.landing.findD a MediumBlock.blank).data) ∧
      t.mm.hostWritten = s.mm.hostWritten + 8 ∧ t = { s with qe := t.qe, mm := t.mm }) ∧
  (∀ (k : Nat) (y : Stripe) (w : StoreCmd) (p : Piece) (x : Namespace) (s : State), s.power.failing = false →
      s.mm.stripes.find k = some y → y.closed = true → y.verified = false → s.qe.store = [w] → w.op = .write → w.stage
      = .running → w.silent = false → w.c.sq ≠ lpQueue → w.c ∈ s.qe.fetched → s.qe.fetched.Nodup → w.pieces = [p] →
      p.stripe = some k → p.zeros = 0 → s.mm.holdsPiece p → s.mm.namespaces.find w.nsid = some x → s.commitsIdle →
      s.poolRoom x [p] = true → p.blocks.length = 1 → w.ranges = [(p.slba, 1)] → s.mm.index.find (lowestFree
      s.mm.index.keys 0) = none → (∀ i e, s.mm.locOf (x.unit (p.slba / 8)) = .merged i → s.mm.index.find i = some e →
      e.blocks.length = 8) →
    ∃ t, exec (.landingStripeVerified k) s = .next t ∧ Completed t w.c stOk 0 0 [] ∧ t.qe.store = [] ∧
      t.qe.locksUsed = s.qe.locksUsed - w.locks ∧
      t.mm.readLba x p.slba = trimZ (p.blocks.headD []) ∧
      (∀ i, i < 8 → i ≠ p.slba % 8 → t.mm.readLba x (8 * (p.slba / 8) + i) = s.mm.readLba x (8 * (p.slba / 8) + i)) ∧
      (∀ u, u ≠ x.unit (p.slba / 8) → t.mm.locOf u = s.mm.locOf u) ∧
      (t.mm.page (pageOf (x.unit (p.slba / 8)))).stamp = s.mm.epoch + 1 ∧ t.mm.bulk = s.mm.bulk ∧
      t.mm.hostWritten = s.mm.hostWritten + 1 ∧ t = { s with qe := t.qe, mm := t.mm }) ∧
  (∀ (k : Nat) (y : Stripe) (w : StoreCmd) (p : Piece) (x : Namespace) (s : State), s.power.failing = false →
      s.mm.stripes.find k = some y → y.closed = true → y.verified = false → s.qe.store = [w] → w.op = .write → w.stage
      = .running → w.silent = false → w.c.sq ≠ lpQueue → w.c ∈ s.qe.fetched → s.qe.fetched.Nodup → w.pieces = [p] →
      p.stripe = some k → p.zeros = 0 → s.mm.holdsPiece p → s.mm.namespaces.find w.nsid = some x → s.commitsIdle →
      s.poolRoom x [p] = false → w.ranges = [(p.slba, p.blocks.length)] → 1 ≤ p.blocks.length ∧ p.blocks.length ≤ 64 →
    ∃ t, exec (.landingStripeVerified k) s = .next t ∧
      t.qe.store = [{ w with stage := .snapshot, pieces := [{ p with onMedium := true }] }] ∧
      t.mm.event = setEv s.mm.event 2 ∧ t.qe.posted = s.qe.posted ∧ w.c ∈ t.qe.fetched ∧ s.mm.sameMap t.mm ∧
      t = { s with qe := t.qe, mm := t.mm }) ∧
  (∀ (k : Nat) (y : Stripe) (s : State), s.mediaRuns = true → s.mm.openStripe = some k → s.mm.stripes.find k = some
      y →
    ∃ t, exec .landingStripeClose s = .next t ∧ t.mm.openStripe = none ∧
      t.mm.stripes.find k = some { y with closed := true, parity := s.mm.stripeParity k } ∧
      t.mm.mediaWritten = s.mm.mediaWritten + 80 ∧ s.mm.sameMap t.mm ∧ t.mm.landing = s.mm.landing ∧
      (∀ j, j ≠ k → t.mm.stripes.find j = s.mm.stripes.find j) ∧ t = { s with mm := t.mm }) ∧
  (∀ (k : Nat) (s : State), (s.mm.stripes.find k = none ∨ ∃ y, s.mm.stripes.find k = some y ∧ (y.closed = false ∨
      y.verified = true)) →
    exec (.landingStripeVerified k) s = .next s) ∧
  (∀ (s : State), s.mediaRuns = false ∨ s.mm.openStripe = none →
    exec .landingStripeClose s = .next s)

/-- FOLD_ROW, GARBAGE_COLLECTION and MAP_CHECKPOINT. The premise rowsFree is the invariant that a block's rows are
programmed in order (R186). -/
def Obligations.FoldAndCheckpointKeepData : Prop :=
  (∀ (g b : Nat) (us : List Nat) (s : State), s.mediaRuns = true → g < 208 → s.mm.usable g b = true → (s.mm.blk
      (groupKey g b)).rows < 64 → s.mm.isFoldRow us = true → s.mm.foldUrgent = true ∨ s.mayRun 0 g = true →
      s.mm.rowsFree g b →
    ∃ t, exec (.foldRow g b us) s = .next t ∧ s.mm.sameData t.mm ∧
      (∀ n, (t.mm.page n).stamp = (s.mm.page n).stamp) ∧ t.mm.epoch = s.mm.epoch ∧ t.mm.namespaces = s.mm.namespaces ∧
      (t.mm.blk (groupKey g b)).rows = (s.mm.blk (groupKey g b)).rows + 1 ∧ t.mm.mediaWritten = s.mm.mediaWritten + 1024 ∧
      t = ({ s with mm := t.mm } : State).endBg 0 g) ∧
  (∀ (g v d : Nat) (s : State), s.mediaRuns = true → g < 208 → s.mm.isVictim g v = true → s.mm.takesUnits g v d =
      true → s.mm.gcUrgentIn g = true ∨ s.mayRun 1 g = true → s.mm.rowsFree g d →
    ∃ t, exec (.garbageCollection g v d) s = .next t ∧ s.mm.sameData t.mm ∧
      (∀ n, (t.mm.page n).stamp = (s.mm.page n).stamp) ∧ t.mm.epoch = s.mm.epoch ∧ t.mm.namespaces = s.mm.namespaces ∧
      t = ({ s with mm := t.mm } : State).endBg 1 g) ∧
  (∀ (s : State), s.mediaRuns = true →
    ∃ t, exec .mapCheckpoint s = .next t ∧ s.mm.sameData t.mm ∧
      (∀ u, t.mm.locOf u = s.mm.locOf u) ∧ (∀ e ∈ t.mm.pages, e.2.dirty = false) ∧ t.mm.since = [] ∧
      (∀ u, t.mm.replayMap.locOf u = t.mm.locOf u) ∧
      (∀ n, (t.mm.page n).stamp = (s.mm.page n).stamp) ∧ t.mm.epoch = s.mm.epoch ∧ t.mm.namespaces = s.mm.namespaces ∧
      t.mm.mediaWritten = s.mm.mediaWritten + 80 * ceilDiv (5 * (s.mm.pages.filter (fun x => x.2.dirty)).length) 64 ∧
      t = { s with mm := t.mm }) ∧
  (∀ (g b u : Nat) (s : State), s.mediaRuns = true → g < 208 → s.mm.usable g b = true → (s.mm.blk (groupKey g
      b)).rows < 64 → s.mm.isFoldRow [u] = true → s.mm.foldUrgent = true ∨ s.mayRun 0 g = true → s.mm.landedOf u =
      [s.mm.locOf u] →
    ∃ t, exec (.foldRow g b [u]) s = .next t ∧ t.mm.locOf u = .bulk (rowLoc g b (s.mm.blk (groupKey g b)).rows 0) ∧
      (∀ v, v ≠ u → t.mm.locOf v = s.mm.locOf v))

/-- GARBAGE_COLLECTION, WEAR_LEVEL_MOVE, MAP_CHECKPOINT, SCRUB_READ, REFRESH, FOLD_ROW and LANDING_AGE_LIMIT. Which blocks
are chosen among equals is an operand (assumption entry 8). -/
def Obligations.MediumCare : Prop :=
  (∀ (g v d : Nat) (s : State), s.mediaRuns = true → g < 208 → s.mm.isVictim g v = true → s.mm.takesUnits g v d =
      true → s.mm.gcUrgentIn g = true ∨ s.mayRun 1 g = true →
    ∃ t, exec (.garbageCollection g v d) s = .next t ∧ t.mm.occupied (inGroupBlock g v) = false ∧
      t.mm.eraseQ = s.mm.eraseQ ++ [groupKey g v] ∧
      (t.mm.blk (groupKey g d)).rows = (s.mm.blk (groupKey g d)).rows + ceilDiv (s.mm.validIn (inGroupBlock g v)) 120 ∧
      (t.mm.blk (groupKey g v)).erases = (s.mm.blk (groupKey g v)).erases ∧
      t.mm.landing = s.mm.landing ∧ t.mm.stripes = s.mm.stripes ∧ t = ({ s with mm := t.mm } : State).endBg 1 g) ∧
  (∀ (g v d : Nat) (s : State), s.mediaRuns = true → g < 208 → s.mm.isLevelMove g v d = true → s.mm.takesUnits g v
      d = true → s.mayRun 1 g = true →
    ∃ t, exec (.wearLevelMove g v d) s = .next t ∧ t.mm.occupied (inGroupBlock g v) = false ∧
      t.mm.eraseQ = s.mm.eraseQ ++ [groupKey g v] ∧
      (t.mm.blk (groupKey g d)).rows = (s.mm.blk (groupKey g d)).rows + ceilDiv (s.mm.validIn (inGroupBlock g v)) 120 ∧
      t.mm.landing = s.mm.landing ∧ t.mm.stripes = s.mm.stripes ∧ t = ({ s with mm := t.mm } : State).endBg 1 g) ∧
  (∀ (g v : Nat) (s : State), s.mediaRuns = true → g < 208 → v < 15616 → s.mm.eraseQ = [groupKey g v] →
      s.mm.occupied (inGroupBlock g v) = false → (∀ p ∈ s.mm.pages.vals ++ s.mm.ckpt.vals, ∀ l ∈ p.units.vals, ∀ a,
      placeIn s.mm.index l = some a → inGroupBlock g v a = false) →
    ∃ t, exec .mapCheckpoint s = .next t ∧ t.mm.eraseQ = [] ∧
      (t.mm.blk (groupKey g v)).erases = (s.mm.blk (groupKey g v)).erases + 1 ∧ (t.mm.blk (groupKey g v)).rows = 0 ∧
      (t.mm.blk (groupKey g v)).hint = 0) ∧
  (∀ (c d b e n : Nat) (s : State), s.mediaRuns = true → c < 128 → d < 32 → b < 16640 → s.mayRun 4 (32 * c + d) =
      true →
    ∃ t, exec (.scrubRead c d b e n) s = .next t ∧ (t.mm.blk (blockKey c d b)).hint = 0 ∧
      t.mm.retryCnt = (if e = 0 then s.mm.retryCnt else sat32 (s.mm.retryCnt + 1)) ∧
      (blockKey c d b ∈ t.mm.refreshQ ↔ blockKey c d b ∈ s.mm.refreshQ ∨ s.mm.refreshStep ≤ e ∨
        (bitsW s.mm.scrubCfg 17 8 ≠ 0 ∧ bitsW s.mm.scrubCfg 17 8 ≤ n)) ∧
      t = ({ s with mm := { s.mm with
        blocks := t.mm.blocks, retryCnt := t.mm.retryCnt, refreshQ := t.mm.refreshQ, retries := t.mm.retries } } : State).endBg 4
          (32 * c + d)) ∧
  (∀ (c d b x y : Nat) (s : State), s.mediaRuns = true → blockKey c d b ∈ s.mm.refreshQ → s.mayRun 4 (32 * c + d) =
      true → (s.mm.blk (blockKey c d b)).refreshes = 0 →
    (d < 4 → s.mm.spare (spareKey c d) ≠ 0 → s.mm.spareFor c d = some y →
      ∃ t, exec (.refresh c d b x) s = .next t ∧ blockKey c d b ∉ t.mm.refreshQ ∧ t.mm.remap.find (blockKey c d b) = some y ∧
        t.mm.blk (blockKey c d b) = { s.mm.blk (blockKey c d b) with
          erases := (s.mm.blk (blockKey c d b)).erases + 1, hint := 0, rows := 0, refreshes := 1 } ∧
        t = ({ s with mm := { s.mm with blocks := t.mm.blocks, refreshQ := t.mm.refreshQ, remap := t.mm.remap } } : State).endBg 4
          (32 * c + d)) ∧
    (d < 4 → s.mm.spare (spareKey c d) = 0 →
      ∃ t, exec (.refresh c d b x) s = .next t ∧ blockKey c d b ∉ t.mm.refreshQ ∧
        t.mm.blk (blockKey c d b) = { s.mm.blk (blockKey c d b) with refreshes := 1 } ∧
        t = ({ s with mm := { s.mm with blocks := t.mm.blocks, refreshQ := t.mm.refreshQ } } : State).endBg 4 (32 * c + d)) ∧
    (4 ≤ d → d < 6 →
      ∃ t, exec (.refresh c d b x) s = .next t ∧ blockKey c d b ∉ t.mm.refreshQ ∧
        (∀ n z, t.mm.stripes.find n = some z → blockKey c d b ∈ stripeBlocks n → z.due = true) ∧
        t = ({ s with mm := { s.mm with blocks := t.mm.blocks, refreshQ := t.mm.refreshQ, stripes := t.mm.stripes } } : State).endBg 4
          (32 * c + d)) ∧
    (6 ≤ d → s.mm.takesUnits (groupOf c d) b x = true →
      ∃ t, exec (.refresh c d b x) s = .next t ∧ blockKey c d b ∉ t.mm.refreshQ ∧
        t.mm.eraseQ = s.mm.eraseQ ++ [groupKey (groupOf c d) b] ∧ t.mm.occupied (inGroupBlock (groupOf c d) b) = false) ∧
    (6 ≤ d → s.mm.takesUnits (groupOf c d) b x = false → exec (.refresh c d b x) s = .next s)) ∧
  (∀ (c d b x y : Nat) (s : State), s.mediaRuns = true → blockKey c d b ∈ s.mm.refreshQ → s.mayRun 4 (32 * c + d) =
      true → 1 ≤ (s.mm.blk (blockKey c d b)).refreshes → d < 4 → 1 < s.mm.spare (spareKey c d) → spareKey c d = 512 +
      4 * c + d → s.mm.spareFor c d = some y →
    ∃ t, exec (.refresh c d b x) s = .next t ∧ blockKey c d b ∉ t.mm.refreshQ ∧ t.mm.remap.find (blockKey c d b) = some y ∧
      t.mm.spare (spareKey c d) = s.mm.spare (spareKey c d) - 1 ∧
      t.mm.retiredCnt.findD (spareKey c d) 0 = s.mm.retiredCnt.findD (spareKey c d) 0 + 1 ∧ t.fl = s.fl) ∧
  (∀ (s : State), s.mediaRuns = true →
    ∃ t, exec .landingAgeLimit s = .next t ∧ t = { s with mm := { s.mm with agedTo := t.mm.agedTo } } ∧
      (s.mm.stripes = [] → t.mm.agedTo = s.mm.agedTo) ∧
      (∀ a ∈ s.mm.stripes.vals, (∀ b ∈ s.mm.stripes.vals, a.seq ≤ b.seq) → t.mm.agedTo = max s.mm.agedTo (a.seq + 1)) ∧
      (s.mm.stripes ≠ [] → t.mm.foldUrgent = true)) ∧
  (∀ (g b d : Nat) (us : List Nat) (s : State),
    (s.mediaRuns = false ∨ 208 ≤ g ∨ s.mm.usable g b = false ∨ 64 ≤ (s.mm.blk (groupKey g b)).rows ∨ s.mm.isFoldRow us = false ∨
      (s.mm.foldUrgent = false ∧ s.mayRun 0 g = false) → exec (.foldRow g b us) s = .next s) ∧
    (s.mediaRuns = false ∨ 208 ≤ g ∨ s.mm.isVictim g b = false ∨ s.mm.takesUnits g b d = false ∨
      (s.mm.gcUrgentIn g = false ∧ s.mayRun 1 g = false) → exec (.garbageCollection g b d) s = .next s) ∧
    (s.mediaRuns = false ∨ 208 ≤ g ∨ s.mm.isLevelMove g b d = false ∨ s.mm.takesUnits g b d = false ∨ s.mayRun 1 g = false →
      exec (.wearLevelMove g b d) s = .next s)) ∧
  (∀ (c d b e n : Nat) (s : State),
    (s.mediaRuns = false ∨ 128 ≤ c ∨ 32 ≤ d ∨ 16640 ≤ b ∨ s.mayRun 4 (32 * c + d) = false → exec (.scrubRead c d b e n) s = .next s) ∧
    (s.mediaRuns = false ∨ blockKey c d b ∉ s.mm.refreshQ ∨ s.mayRun 4 (32 * c + d) = false → exec (.refresh c d b n) s = .next s) ∧
    (s.mediaRuns = false → exec .landingAgeLimit s = .next s ∧ exec .mapCheckpoint s = .next s))

/-- PROG_FAIL, ERASE_FAIL, RETRY_EXHAUSTED, REBUILD_DONE, FLASH_THROTTLE, FLASH_THROTTLE_END, FLASH_BAND_CHANGE and
MM_FLASH_TEMP_READ. The event of log page 0xC2 at the first block a group retires is the model's choice (entry 32) and
is not stated. -/
def Obligations.MediumFailures : Prop :=
  (∀ (c d b x : Nat) (s : State), s.mediaRuns = true → c < 128 → d < 32 → b < 16640 → s.ntAll = true → spareLowAt
      (spareKey c d) < s.mm.spare (spareKey c d) →
    (∃ t, exec (.eraseFail c d b) s = .next t ∧ RecordWritten s t (srcChannel c) kEraseFail 0 0 0 0 0 0 ∧ t.mm.event = s.mm.event) ∧
    (∃ t, exec (.progFail c d b x) s = .next t ∧ RecordWritten s t (srcChannel c) kProgFail 0 0 0 0 0 0)) ∧
  (∀ (c d b x : Nat) (s : State), s.mediaRuns = true → c < 128 → d < 32 → b < 16640 → s.mm.spare (spareKey c d) ≠ 0
      →
    ∃ t, exec (.eraseFail c d b) s = .next t ∧
      t.mm.spare (spareKey c d) = s.mm.spare (spareKey c d) - 1 ∧
      t.mm.retiredCnt.findD (spareKey c d) 0 = s.mm.retiredCnt.findD (spareKey c d) 0 + 1 ∧
      (t.mm.blk (blockKey c d b)).retired = false ∧ t.mm.blk (blockKey c d b) = { FlashBlock.blank with rows := (t.mm.blk (blockKey c d b)).rows } ∧
      (∀ k, s.mm.spareFor c d = some k → t.mm.remap.find (blockKey c d b) = some k) ∧
      (t.mm.spare (spareKey c d) < spareLowAt (spareKey c d) → spareKey c d ∉ s.mm.spareSaid →
        bitW t.mm.event 4 = true) ∧
      t = { s with mm := t.mm, fl := t.fl, qe := t.qe }) ∧
  (∀ (c d b x : Nat) (s : State), s.mediaRuns = true → c < 128 → d < 32 → b < 16640 → s.mm.spare (spareKey c d) ≠ 0
      →
    ∃ t, exec (.progFail c d b x) s = .next t ∧
      t.mm.spare (spareKey c d) = s.mm.spare (spareKey c d) - 1 ∧
      t.mm.retiredCnt.findD (spareKey c d) 0 = s.mm.retiredCnt.findD (spareKey c d) 0 + 1 ∧
      (t.mm.blk (blockKey c d b)).retired = false ∧ t.mm.blk (blockKey c d b) = { FlashBlock.blank with rows := (t.mm.blk (blockKey c d b)).rows } ∧
      (∀ k, s.mm.spareFor c d = some k → t.mm.remap.find (blockKey c d b) = some k) ∧
      t = { s with mm := t.mm, fl := t.fl, qe := t.qe }) ∧
  (∀ (c d b x : Nat) (s : State), s.mediaRuns = true → c < 128 → d < 32 → b < 16640 → 6 ≤ d → s.mm.occupied
      (inGroupBlock (groupOf c d) b) = true → s.mm.takesUnits (groupOf c d) b x = true → s.mm.rowsFree (groupOf c d) x
      →
    ∃ t, exec (.progFail c d b x) s = .next t ∧ s.mm.sameData t.mm ∧ t.mm.occupied (inGroupBlock (groupOf c d) b) = false) ∧
  (∀ (c d b x : Nat) (s : State), s.mediaRuns = true → c < 128 → d < 32 → b < 16640 → s.mm.spare (spareKey c d) = 0
      →
    ∃ t, exec (.eraseFail c d b) s = .next t ∧ (t.mm.blk (blockKey c d b)).retired = true ∧
      (6 ≤ d → spareKey c d ∈ t.mm.roGroups) ∧ (4 ≤ d → d < 6 → spareKey c d - 256 ∈ t.mm.outSets) ∧
      (d < 4 → t.mm.roGroups = s.mm.roGroups ∧ t.mm.outSets = s.mm.outSets) ∧ t.mm.spare (spareKey c d) = 0 ∧
      t = { s with mm := t.mm, fl := t.fl, qe := t.qe }) ∧
  (∀ (c : Nat) (a : W64) (s : State), s.mediaRuns = true → c < 128 →
    ∃ t, exec (.retryExhausted c a) s = .next t ∧
      (s.ntAll = true → RecordWritten s t (srcChannel c) kRetryExhausted 0 a 0 0 0 0) ∧
      t = { s with mm := { s.mm with exhaustCnt := sat32 (s.mm.exhaustCnt + 1) }, fl := t.fl }) ∧
  (∀ (c n l k : Nat) (x : Namespace) (s : State), s.mediaRuns = true → c < 128 → s.mm.namespaces.find n = some x →
      s.mm.flashOf (s.mm.locOf (x.unit (l / 8))) (l % 8) = some k →
    ∃ t, exec (.rebuildDone c n l true) s = .next t ∧ k ∈ t.mm.refreshQ ∧
      t = { s with mm := { s.mm with rebuildCnt := sat32 (s.mm.rebuildCnt + 1), refreshQ := t.mm.refreshQ } }) ∧
  (∀ (c n l : Nat) (s : State), s.mediaRuns = true → c < 128 →
    ∃ t, exec (.rebuildDone c n l false) s = .next t ∧ t.mm.uncorrCnt = sat32 (s.mm.uncorrCnt + 1) ∧
      t.mm.event = setEv s.mm.event 6 ∧ (∀ x, x ∈ t.mm.badBlocks ↔ x ∈ s.mm.badBlocks ∨ x = (n, l)) ∧
      (s.ntAll = true → RecordWritten s t (srcChannel c) kEccUncorr 1 (s.mm.blockAddr n l) 16 0 0 0) ∧ s.mm.sameMap t.mm) ∧
  (∀ (b x : Nat) (s : State), s.vendorLive = true →
    ∃ t, exec (.flashThrottle b x) s = .next t ∧
      t.mm.throttle = s.mm.pacing (if b = 0 then x else s.mm.tempA) (if b = 0 then s.mm.tempB else x) ∧
      t.mm.tempA = min 255 (if b = 0 then x else s.mm.tempA) ∧ t.mm.tempB = min 255 (if b = 0 then s.mm.tempB else x) ∧
      t.mm.event = (if s.mm.throttle = 0 ∧ t.mm.throttle ≠ 0 then setEv s.mm.event 3 else s.mm.event) ∧
      (b < 2 → s.ntAll = true → throttleOf (if b = 0 then s.mm.tempA else s.mm.tempB) < throttleOf x →
        RecordWritten s t srcThermal kThermal 0 0 (BitVec.ofNat 32 b) 0 0 0) ∧
      (throttleOf x ≤ throttleOf (if b = 0 then s.mm.tempA else s.mm.tempB) → t.fl = s.fl) ∧
      t = { s with
        mm := { s.mm with
          throttle := t.mm.throttle, tempA := t.mm.tempA, tempB := t.mm.tempB, peak := t.mm.peak, event := t.mm.event }
        fl := t.fl }) ∧
  (∀ (a b : Nat) (s : State), s.vendorLive = true → a < 78 → b < 78 →
    exec (.flashThrottleEnd a b) s = .next { s with mm := { s.mm with
      throttle := 0, tempA := a, tempB := b, peak := max s.mm.peak (max a b) } }) ∧
  (∀ (a b : Nat) (s : State), s.vendorLive = true →
    ∃ t, exec (.flashBandChange a b) s = .next t ∧ t.mm.tempA = min 255 a ∧ t.mm.tempB = min 255 b ∧
      t.mm.band = (if s.mm.band ≤ bandOf (max a b) then bandOf (max a b) else min s.mm.band (bandOf (max a b + 2))) ∧
      t.mm.throttle = s.mm.pacing a b ∧
      t = { s with
        mm := { s.mm with
          throttle := t.mm.throttle, tempA := t.mm.tempA, tempB := t.mm.tempB, peak := t.mm.peak, band := t.mm.band
          event := t.mm.event }
        fl := t.fl }) ∧
  (∀ (s : State), s.vendorLive = true →
    exec .mmFlashTempRead s = .next { s with
      busRead := leBytes (s.mm.tempA + 256 * s.mm.tempB + 65536 * s.mm.peak) 4, mm := { s.mm with peak := 0 } }) ∧
  (∀ (c d b x : Nat) (a : W64) (n l : Nat) (k : Bool) (s : State),
    (s.mediaRuns = false ∨ 128 ≤ c → exec (.progFail c d b x) s = .next s ∧ exec (.eraseFail c d b) s = .next s ∧
      exec (.retryExhausted c a) s = .next s ∧ exec (.rebuildDone c n l k) s = .next s) ∧
    (32 ≤ d ∨ 16640 ≤ b → exec (.progFail c d b x) s = .next s ∧ exec (.eraseFail c d b) s = .next s) ∧
    (s.vendorLive = false → exec (.flashThrottle b x) s = .next s ∧ exec (.flashThrottleEnd n l) s = .next s ∧
      exec (.flashBandChange n l) s = .next s ∧ exec .mmFlashTempRead s = .next s) ∧
    (78 ≤ n ∨ 78 ≤ l → exec (.flashThrottleEnd n l) s = .next s))

/-- RL_PROBE_WRITE, RL_PROBE_READ, NT_PATROL_SCRUB and RL_LOOKUP. -/
def Obligations.NearTierProbe : Prop :=
  (∀ (s : State), s.probeLive = true →
    ∃ t, exec .rlProbeWrite s = .next t ∧
      t.rl.probeAt s.rl.probeAddr = ⟨s.rl.probeData.flatMap (fun v => leBytes v.toNat 4),
        maskErrs (s.rl.flipMask.findD (probeStack s.rl.probeAddr) 0),
        bitW (s.rl.flipMask.findD (probeStack s.rl.probeAddr) 0) 28⟩ ∧
      (∀ o, o ≠ s.rl.probeAddr → t.rl.probeAt o = s.rl.probeAt o) ∧ t.rl.probeDone = true ∧
      t.rl.flipMask.findD (probeStack s.rl.probeAddr) 0 = 0 ∧
      (s.rl.flipMask.findD (probeStack s.rl.probeAddr) 0 ≠ 0 →
        t.rl.flipLast.findD (probeStack s.rl.probeAddr) 0 = BitVec.ofNat 32 (2 ^ 31 + s.rl.probeAddr)) ∧
      t = { s with rl := { s.rl with
        probe := t.rl.probe, probeDone := true, flipMask := t.rl.flipMask, flipLast := t.rl.flipLast } }) ∧
  (∀ (s : State), s.probeLive = true → (s.rl.probeAt s.rl.probeAddr).decoded = .clean →
    exec .rlProbeRead s = .next { s with rl := { s.rl with
      probeData := (List.range 8).map
        (fun i => BitVec.ofNat 32 (u32At (s.rl.probeAt s.rl.probeAddr).stored (4 * i))), probeDone := true } }) ∧
  (∀ (s : State), s.probeLive = true → (s.rl.probeAt s.rl.probeAddr).decoded = .one → s.ntAll = true → (srcStack
      (probeStack s.rl.probeAddr), kEccCorr, 0) ∉ s.fl.beatPosts →
    ∃ t, exec .rlProbeRead s = .next t ∧
      t.rl.probeData = (List.range 8).map (fun i => BitVec.ofNat 32 (u32At (padTo 32 (s.rl.probeAt s.rl.probeAddr).data) (4 * i))) ∧
      t.rl.probeDone = true ∧ t.rl.probeBits = setEv s.rl.probeBits 1 ∧
      RecordWritten s t (srcStack (probeStack s.rl.probeAddr)) kEccCorr 0 (BitVec.ofNat 64 (0xFC00000000 + s.rl.probeAddr)) 1 0 0 0 ∧
      t.rl.probeAt s.rl.probeAddr = { s.rl.probeAt s.rl.probeAddr with errs := [], flip := false } ∧
      t.rl.corr.findD (probeStack s.rl.probeAddr) 0 = sat32 (s.rl.corr.findD (probeStack s.rl.probeAddr) 0 + 1) ∧
      t = { s with rl := t.rl, fl := t.fl }) ∧
  (∀ (s : State), s.probeLive = true → s.ntAll = true →
    ((s.rl.probeAt s.rl.probeAddr).decoded = .other →
      ∃ t, exec .rlProbeRead s = .next t ∧ t.rl.probeDone = true ∧ t.rl.probeBits = setEv s.rl.probeBits 2 ∧
        RecordWritten s t (srcStack (probeStack s.rl.probeAddr)) kEccUncorr 1
          (BitVec.ofNat 64 (0xFC00000000 + s.rl.probeAddr)) 2 0 0 0 ∧
        t.rl.uncorr.findD (probeStack s.rl.probeAddr) 0 = sat32 (s.rl.uncorr.findD (probeStack s.rl.probeAddr) 0 + 1) ∧
        t.rl.probe = s.rl.probe) ∧
    ((s.rl.probeAt s.rl.probeAddr).decoded = .addr → s.rl.flipNames s.rl.probeAddr = true →
      ∃ t, exec .rlProbeRead s = .next t ∧ t.rl.probeDone = true ∧ t.rl.probeBits = setEv s.rl.probeBits 3 ∧
        RecordWritten s t (srcStack (probeStack s.rl.probeAddr)) kAddrCode 0
          (BitVec.ofNat 64 (0xFC00000000 + s.rl.probeAddr)) 3 1 0 0 ∧
        t.fl.standing = s.fl.standing ∧ t.mc = s.mc) ∧
    ((s.rl.probeAt s.rl.probeAddr).decoded = .addr → s.rl.flipNames s.rl.probeAddr = false →
      ∃ t, exec .rlProbeRead s = .next t ∧ t.fl.fatalStands = true ∧
        t.fl.ring.find (s.fl.posted % 65536) = some (s.mkRecord (srcStack (probeStack s.rl.probeAddr)) kAddrCode 2
          (BitVec.ofNat 64 (0xFC00000000 + s.rl.probeAddr)) 3 0 0 0))) ∧
  (∀ (a : Nat) (s : State), s.vendorLive = true → 0xFC00000000 ≤ a → a < 0xFC00010000 → probeStack (a -
      0xFC00000000) ∈ s.rl.ntReady → (s.rl.probeAt ((a - 0xFC00000000) / 32 * 32)).decoded = .clean →
    exec (.ntPatrolScrub a) s = .next s) ∧
  (∀ (a : Nat) (s : State), s.vendorLive = true → 0xFC00000000 ≤ a → a < 0xFC00010000 → a % 32 = 0 → probeStack (a
      - 0xFC00000000) ∈ s.rl.ntReady → (s.rl.probeAt (a - 0xFC00000000)).decoded = .one → s.ntAll = true → (srcStack
      (probeStack (a - 0xFC00000000)), kEccCorr, 0) ∉ s.fl.beatPosts →
    ∃ t, exec (.ntPatrolScrub a) s = .next t ∧
      RecordWritten s t (srcStack (probeStack (a - 0xFC00000000))) kEccCorr 0 (BitVec.ofNat 64 a) 1 0 0 0 ∧
      t.rl.probeAt (a - 0xFC00000000) = { s.rl.probeAt (a - 0xFC00000000) with errs := [], flip := false } ∧
      t.rl.corr.findD (probeStack (a - 0xFC00000000)) 0 =
        sat32 (s.rl.corr.findD (probeStack (a - 0xFC00000000)) 0 + 1) ∧
      t = { s with
        rl := { s.rl with probe := t.rl.probe, flipLast := t.rl.flipLast, corr := t.rl.corr }, fl := t.fl }) ∧
  (∀ (v : W32) (e : DirEntry) (s : State), s.vendorLive = true → s.rl.dir.find v.toNat = some e →
    exec (.rlLookup v) s = .next { s with rl := { s.rl with lookup := v, lookupWords := e.lookup } }) ∧
  (∀ (v : W32) (s : State), s.vendorLive = true → s.rl.dir.find v.toNat = none →
    exec (.rlLookup v) s = .next { s with rl := { s.rl with
      lookup := v, lookupWords := [1, 0, 0, 0, 0xFFFFFFFF, 0xFFFFFFFF, 0xFFFFFFFF, 0xFFFFFFFF] } }) ∧
  (∀ (a : Nat) (s : State), s.vendorLive = true → 0xFC00000000 ≤ a → a < 0xFC00010000 → a % 32 = 0 → probeStack (a
      - 0xFC00000000) ∈ s.rl.ntReady → s.ntAll = true →
    ((s.rl.probeAt (a - 0xFC00000000)).decoded = .other →
      ∃ t, exec (.ntPatrolScrub a) s = .next t ∧
        RecordWritten s t (srcStack (probeStack (a - 0xFC00000000))) kEccUncorr 1 (BitVec.ofNat 64 a) 2 0 0 0 ∧
        t.rl.uncorr.findD (probeStack (a - 0xFC00000000)) 0 =
          sat32 (s.rl.uncorr.findD (probeStack (a - 0xFC00000000)) 0 + 1) ∧ t.rl.probe = s.rl.probe) ∧
    ((s.rl.probeAt (a - 0xFC00000000)).decoded = .addr →
      ∃ t, exec (.ntPatrolScrub a) s = .next t ∧ t.fl.fatalStands = true)) ∧
  (∀ (a : Nat) (v : W32) (s : State),
    (s.probeLive = false → exec .rlProbeRead s = .next s ∧ exec .rlProbeWrite s = .next s) ∧
    (s.vendorLive = false → exec (.ntPatrolScrub a) s = .next s ∧ exec (.rlLookup v) s = .next s) ∧
    (a < 0xFC00000000 ∨ 0xFC00010000 ≤ a → exec (.ntPatrolScrub a) s = .next s))

/-- PEER_WINDOW_WRITE, QE_P2P_FLUSH, QE_P2P_CFG_WRITE and QE_P2P_BASE_WRITE. -/
def Obligations.PeerWindow : Prop :=
  (∀ (w : Nat) (d : List Byte) (r : Region) (s : State), s.vendorLive = true → 0x4000 ≤ w → w + d.length ≤ 0x100000
      → d.length = 32 → bitW s.qe.p2pCfg 31 = true → s.region (bitsW s.qe.p2pCfg 9 0) = some r → r.kind = 5 ∧ r.tier =
      0 → s.qe.p2pBase.toNat + (w - 0x4000) + 32 ≤ r.size → (r.base + (s.qe.p2pBase.toNat + (w - 0x4000))) % 32 = 0 →
      s.qe.p2pOpen = [] →
    ∃ t, exec (.peerWindowWrite w d) s = .next t ∧
      readCells 0 t.rl.near (r.base + (s.qe.p2pBase.toNat + (w - 0x4000))) 32 = d ∧
      (∀ a, a < r.base + (s.qe.p2pBase.toNat + (w - 0x4000)) ∨ r.base + (s.qe.p2pBase.toNat + (w - 0x4000)) + 32 ≤ a →
        readCell 0 t.rl.near a = readCell 0 s.rl.near a) ∧
      t = { s with rl := { s.rl with near := t.rl.near } }) ∧
  (∀ (w : Nat) (d : List Byte) (s : State), s.vendorLive = true → 0x4000 ≤ w → w + d.length ≤ 0x100000 → (bitW
      s.qe.p2pCfg 31 = false ∨ s.region (bitsW s.qe.p2pCfg 9 0) = none ∨ ∃ r, s.region (bitsW s.qe.p2pCfg 9 0) = some
      r ∧ (r.kind ≠ 5 ∨ r.size < s.qe.p2pBase.toNat + (w - 0x4000) + d.length)) →
    exec (.peerWindowWrite w d) s =
      .next { s with qe := { s.qe with p2pDiscard := sat32 (s.qe.p2pDiscard + 1), event := setEv s.qe.event 3 } }) ∧
  (∀ (w : Nat) (d : List Byte) (r : Region) (s : State), s.vendorLive = true → 0x4000 ≤ w → w + d.length ≤ 0x100000
      → bitW s.qe.p2pCfg 31 = true → s.region (bitsW s.qe.p2pCfg 9 0) = some r → r.kind = 5 ∧ r.tier = 0 →
      s.qe.p2pBase.toNat + (w - 0x4000) + d.length ≤ r.size → 0 < d.length → (r.base + (s.qe.p2pBase.toNat + (w -
      0x4000))) % 32 + d.length < 32 →
    (s.qe.p2pOpen = [] →
      ∃ t g, exec (.peerWindowWrite w d) s = .next t ∧ t.qe.p2pOpen = [g] ∧
        g.addr = (r.base + (s.qe.p2pBase.toNat + (w - 0x4000))) / 32 * 32 ∧
        (∀ i, (h : i < d.length) → g.bytes.find ((r.base + (s.qe.p2pBase.toNat + (w - 0x4000))) % 32 + i) = some d[i]) ∧
        g.bytes.length = d.length ∧ t = { s with qe := { s.qe with p2pOpen := [g] } }) ∧
    (∀ o os, s.qe.p2pOpen = o :: os → os.length = 4095 →
      (∀ g ∈ o :: os, g.addr ≠ (r.base + (s.qe.p2pBase.toNat + (w - 0x4000))) / 32 * 32) →
      ∃ t g, exec (.peerWindowWrite w d) s = .next t ∧ t.qe.p2pOpen = os ++ [g] ∧
        g.addr = (r.base + (s.qe.p2pBase.toNat + (w - 0x4000))) / 32 * 32 ∧
        (∀ i, i < 32 → readCell 0 t.rl.near (o.addr + i) = o.bytes.findD i 0) ∧
        (∀ a, a < o.addr ∨ o.addr + 32 ≤ a → readCell 0 t.rl.near a = readCell 0 s.rl.near a))) ∧
  (∀ (w : Nat) (d : List Byte) (hi : Bool) (v : W32) (s : State),
    (w < 0x4000 ∨ 0x100000 < w + d.length → exec (.peerWindowWrite w d) s = .next s) ∧
    (s.vendorLive = false → exec (.peerWindowWrite w d) s = .next s ∧ exec .qeP2pFlush s = .next s ∧
      exec (.qeP2pCfgWrite v) s = .next s ∧ exec (.qeP2pBaseWrite hi v) s = .next s)) ∧
  (∀ (s : State), s.vendorLive = true →
    ∃ t, exec .qeP2pFlush s = .next t ∧ t.qe.p2pOpen = [] ∧
      (∀ a, (∀ g ∈ s.qe.p2pOpen, a < g.addr ∨ g.addr + 32 ≤ a) → readCell 0 t.rl.near a = readCell 0 s.rl.near a) ∧
      (∀ g, s.qe.p2pOpen = [g] → ∀ i, i < 32 → readCell 0 t.rl.near (g.addr + i) = g.bytes.findD i 0) ∧
      t = { s with qe := { s.qe with p2pOpen := [] }, rl := { s.rl with near := t.rl.near } }) ∧
  (∀ (v : W32) (s : State), s.vendorLive = true → s.qe.p2pOpen = [] →
    exec (.qeP2pCfgWrite v) s = .next { s with qe := { s.qe with p2pCfg := v &&& 0x800003FF } } ∧
    exec (.qeP2pBaseWrite true v) s = .next { s with qe := { s.qe with p2pBase := putHi s.qe.p2pBase v } } ∧
    exec (.qeP2pBaseWrite false v) s =
      .next { s with qe := { s.qe with p2pBase := putLo s.qe.p2pBase (v &&& 0xFFFFFFE0) } }) ∧
  (∀ (hi : Bool) (v : W32) (s : State), s.vendorLive = true →
    ∃ t u x, exec (.qeP2pCfgWrite v) s = .next t ∧ exec (.qeP2pBaseWrite hi v) s = .next u ∧
      exec .qeP2pFlush s = .next x ∧ t.rl = x.rl ∧ u.rl = x.rl ∧ t.qe.p2pOpen = [] ∧ u.qe.p2pOpen = [])

/-- RESET_SQUAD, RESET_ALL, CLR_CNT of NS_CTL, NS_LOOKUP and CAL_RENDEZVOUS_DONE. -/
def Obligations.KeeperCommands : Prop :=
  (∀ (q : Nat) (s : State), s.vendorLive = true → q < 64 →
    ∃ t, exec (.resetSquad q) s = .next t ∧ (t.nsSq q) = { s.nsSq q with resetDue := true } ∧
      (∀ p, p ≠ q → t.nsSq p = s.nsSq p) ∧ t = { s with ns := { s.ns with squads := t.ns.squads } }) ∧
  (∀ (s : State), s.vendorLive = true →
    exec .resetAll s = .next { s with ns := { s.ns with table := [], full := false } } ∧
    exec .nsClrCnt s = .next { s with ns := { s.ns with satCnt := 0, underCnt := 0, zeroCnt := 0, calCnt := 0 } }) ∧
  (∀ (v : W32) (e : Keeper) (s : State), s.vendorLive = true → s.ns.table.find (v.toNat % 4194304) = some e →
    ∃ t, exec (.nsLookup v) s = .next t ∧ t.ns.lookupWords =
      [packW [(0, 1), (1, 1), (2, b2n (!e.hist.isEmpty)), (3, b2n e.aRef.isNone), (4, e.hist.length), (11, e.event)],
       e.aRef.getD 0, e.lastMax, BitVec.ofNat 32 e.lastEl, BitVec.ofNat 32 e.lastSat, BitVec.ofNat 32 e.lastUn,
       BitVec.ofNat 32 e.steps] ∧
      t = { s with ns := { s.ns with lookup := v &&& 0x3FFFFF, lookupWords := t.ns.lookupWords } }) ∧
  (∀ (v : W32) (s : State), s.vendorLive = true → s.ns.table.find (v.toNat % 4194304) = none →
    exec (.nsLookup v) s =
      .next { s with ns := { s.ns with lookup := v &&& 0x3FFFFF, lookupWords := [1, 0, 0, 0, 0, 0, 0] } }) ∧
  (∀ (q n : Nat) (e : Keeper) (x : Squad) (s : State), s.ns.table.find (keeperKey q n) = some e → s.squadOf q =
      some x → e.waiting ≠ [] → (∀ i ∈ x.tiles, i ∈ e.waiting) →
    ∃ t, exec (.calRendezvousDone q n) s = .next t ∧
      t.ns.table.find (keeperKey q n) =
        some { e with waiting := [], met := true, aRef := if e.step.getD 0 = 0 then e.aRef else e.step } ∧
      (∀ k, k ≠ keeperKey q n → t.ns.table.find k = s.ns.table.find k) ∧
      t = { s with ns := { s.ns with table := t.ns.table } }) ∧
  (∀ (q n i : Nat) (e : Keeper) (x : Squad) (s : State), s.ns.table.find (keeperKey q n) = some e → s.squadOf q =
      some x → i ∈ x.tiles → i ∉ e.waiting →
    exec (.calRendezvousDone q n) s = .next s) ∧
  (∀ (q n : Nat) (v : W32) (s : State),
    (s.ns.table.find (keeperKey q n) = none ∨ s.squadOf q = none → exec (.calRendezvousDone q n) s = .next s) ∧
    (s.vendorLive = false → exec (.resetSquad q) s = .next s ∧ exec .resetAll s = .next s ∧ exec .nsClrCnt s = .next s ∧
      exec (.nsLookup v) s = .next s))

/-- R78; the clauses on an armed mask and on a byte that is not clean are R79's and R80's. The vendor blocks answer
(R383). -/
def Obligations.TilePort : Prop :=
  (∀ (n : Nat) (v : W32) (s : State), s.vendorLive = true → n < 1024 → (s.tile n).portOpen = true → (s.tile n).flip
      = 0 →
    ∃ t, exec (.tileLmWdata n v) s = .next t ∧ (t.tile n).laneByte (s.tile n).lmAddr = v.setWidth 8 ∧
      (∀ a, a ≠ (s.tile n).lmAddr → (t.tile n).laneByte a = (s.tile n).laneByte a) ∧
      (∀ m, m ≠ n → t.tile m = s.tile m) ∧
      t.tile n = { s.tile n with lane := (t.tile n).lane, bad := (t.tile n).bad } ∧ t = { s with tiles := t.tiles }) ∧
  (∀ (n : Nat) (v : W32) (s : State), s.vendorLive = true → n < 1024 → (s.tile n).squad ≠ none ∨ (s.tile n).swept =
      false →
    exec (.tileLmWdata n v) s =
      .next (s.setTile n { s.tile n with lmStatus := setEv (s.tile n).lmStatus 2 })) ∧
  (∀ (n : Nat) (s : State), s.vendorLive = true → n < 1024 → (s.tile n).portOpen = true → (s.tile n).bad.find
      (s.tile n).lmAddr = none →
    exec (.tileLmRdata n) s =
      .next { s with busRead := leBytes (readCell 0 (s.tile n).lane (s.tile n).lmAddr).toNat 4 }) ∧
  (∀ (n : Nat) (s : State), s.vendorLive = true → n < 1024 → (s.tile n).squad ≠ none ∨ (s.tile n).swept = false →
    exec (.tileLmRdata n) s = .next { (s.setTile n { s.tile n with lmStatus := setEv (s.tile n).lmStatus 2 }) with
      busRead := [0, 0, 0, 0] }) ∧
  (∀ (n : Nat) (v : W32) (s : State), s.vendorLive = true → n < 1024 →
    exec (.registerWrite { fn := 0, bar := 0, off := 0x1000040 + 0x4000 * n } (leBytes v.toNat 4)) s =
      .next (s.setTile n (if (s.tile n).squad = none ∧ (s.tile n).swept = true then { s.tile n with lmAddr := bitsW v 20 0 }
        else { s.tile n with lmStatus := setEv (s.tile n).lmStatus 2 }))) ∧
  (∀ (n : Nat) (v : W32) (s : State), s.vendorLive = true → n < 1024 → (s.tile n).portOpen = true → bitsW (s.tile
      n).flip 12 0 ≠ 0 →
    ∃ t, exec (.tileLmWdata n v) s = .next t ∧ (t.tile n).flip = 0 ∧
      readCell 0 (t.tile n).lane (s.tile n).lmAddr = v.setWidth 8 ^^^ (s.tile n).flip.setWidth 8 ∧
      (∀ a, a ≠ (s.tile n).lmAddr → (t.tile n).laneByte a = (s.tile n).laneByte a) ∧ (∀ m, m ≠ n → t.tile m = s.tile m) ∧
      t.tile n = { s.tile n with lane := (t.tile n).lane, bad := (t.tile n).bad, flip := 0 } ∧ t = { s with tiles := t.tiles }) ∧
  (∀ (n : Nat) (s : State), s.vendorLive = true → n < 1024 → (s.tile n).portOpen = true → synOf ((s.tile
      n).bad.findD (s.tile n).lmAddr 0) = .uncorr →
    ∃ t, exec (.tileLmRdata n) s = .next t ∧
      t.busRead = leBytes (readCell 0 (s.tile n).lane (s.tile n).lmAddr).toNat 4 ∧
      (t.tile n).lmStatus = setEv (s.tile n).lmStatus 1 ∧ (t.tile n).uncorrCnt = sat32 ((s.tile n).uncorrCnt + 1) ∧
      (t.tile n).lane = (s.tile n).lane ∧ (t.tile n).bad = (s.tile n).bad ∧ (∀ m, m ≠ n → t.tile m = s.tile m) ∧
      (s.ntAll = true → RecordWritten s t (srcTile n) kEccUncorr 1 (BitVec.ofNat 64 (s.tile n).lmAddr)
        (((s.tile n).bad.findD (s.tile n).lmAddr 0).setWidth 32) 0 0 0) ∧ t.jd = s.jd ∧ t.sl = s.sl) ∧
  (∀ (n i : Nat) (s : State), s.vendorLive = true → n < 1024 → (s.tile n).portOpen = true → synOf ((s.tile
      n).bad.findD (s.tile n).lmAddr 0) = .data i ∨ synOf ((s.tile n).bad.findD (s.tile n).lmAddr 0) = .check →
      (s.tile n).flip = 0 →
    ∃ t, exec (.tileLmRdata n) s = .next t ∧ t.busRead = leBytes ((s.tile n).laneByte (s.tile n).lmAddr).toNat 4 ∧
      (t.tile n).lmStatus = setEv (s.tile n).lmStatus 0 ∧ (t.tile n).corrCnt = sat32 ((s.tile n).corrCnt + 1) ∧
      (∀ a, (t.tile n).laneByte a = (s.tile n).laneByte a) ∧ (t.tile n).bad.find (s.tile n).lmAddr = none)

/-- REGISTER_WRITE, REG64_LOW_READ, TILE_CLR_CNT and JD_SPLIT_SEL. -/
def Obligations.RegisterReadsAndWrites : Prop :=
  (∀ (f : Nat) (s : State), isLow f = true → s.answers f = true →
    exec (.reg64LowRead { fn := 0, bar := 0, off := f }) s = .next { s with
      busRead := leBytes (s.readBlock f).toNat 4, latchHi := s.latchHi.put (f + 4) (s.readBlock (f + 4)) }) ∧
  (∀ (f : Nat) (s t u : State), isLow f = true → s.answers f = true → exec (.reg64LowRead { fn := 0, bar := 0, off
      := f }) s = .next t → u.latchHi = t.latchHi → u.answers (f + 4) = true →
    u.readReg { fn := 0, bar := 0, off := f + 4 } = s.readBlock (f + 4)) ∧
  (∀ (v : W32) (s : State), s.vendorLive = true →
    exec (.registerWrite { fn := 0, bar := 0, off := 0x120004 } (leBytes v.toNat 4)) s =
      .next { s with fl := { s.fl with event := s.fl.event &&& ~~~(v &&& 0x1F) } } ∧
    exec (.registerWrite { fn := 0, bar := 0, off := 0x120030 } (leBytes v.toNat 4)) s =
      .next { s with fl := { s.fl with seqSel := bitsW v 11 0 } } ∧
    exec (.registerWrite { fn := 0, bar := 0, off := 0x180004 } (leBytes v.toNat 4)) s =
      .next { s with mm := { s.mm with event := s.mm.event &&& ~~~(v &&& 0x7F) } } ∧
    exec (.registerWrite { fn := 0, bar := 0, off := 0x14001C } (leBytes v.toNat 4)) s =
      .next { s with sl := { s.sl with timeout := bitsW v 15 0 } } ∧
    exec (.registerWrite { fn := 1, bar := 0, off := 0x20 } (leBytes v.toNat 4)) s =
      .next { s with lp := { s.lp with timeout := bitsW v 15 0 } }) ∧
  (∀ (f : Nat) (d : List Byte) (s : State), isVendor f = true → d.length ≠ 4 ∨ f % 4 ≠ 0 ∨ s.answers f = false →
    exec (.registerWrite { fn := 0, bar := 0, off := f } d) s = .next s) ∧
  (∀ (f : Nat) (d : List Byte) (s : State), s.vendorLive = true → 0x1000 ≤ f → f + d.length ≤ 0x100000 →
    ∃ t, exec (.registerWrite { fn := 1, bar := 0, off := f } d) s = .next t ∧ readCells 0 t.lp.ring f d.length = d ∧
      (∀ a, a < f ∨ f + d.length ≤ a → readCell 0 t.lp.ring a = readCell 0 s.lp.ring a) ∧
      t = { s with lp := { s.lp with ring := t.lp.ring } }) ∧
  (∀ (n : Nat) (s : State), s.vendorLive = true → n < 1024 →
    exec (.tileClrCnt n) s = .next (s.setTile n { s.tile n with corrCnt := 0, uncorrCnt := 0, stall := 0 })) ∧
  (∀ (v : W32) (r : List W32) (s : State), s.vendorLive = true → (s.lapsOf (bitsW v 5 0)).split[bitsW v 15 8]? =
      some r →
    exec (.jdSplitSel v) s =
      .next { s with jd := { s.jd with splitSel := (v &&& 0xFF3F) ||| 0x80000000, splitData := r } }) ∧
  (∀ (f n : Nat) (a : BarAddr) (v : W32) (s : State),
    (isVendor f = true → n ≠ 4 ∨ f % 4 ≠ 0 ∨ s.answers f = false →
      s.hostRead { fn := 0, bar := 0, off := f } n = List.replicate n 0) ∧
    (isLow f = true → s.answers f = false →
      exec (.reg64LowRead { fn := 0, bar := 0, off := f }) s = .next { s with busRead := [0, 0, 0, 0] }) ∧
    (a.fn ≠ 0 ∨ a.bar ≠ 0 ∨ isLow a.off = false → exec (.reg64LowRead a) s = .next s) ∧
    (s.vendorLive = true → (s.lapsOf (bitsW v 5 0)).split[bitsW v 15 8]? = none →
      exec (.jdSplitSel v) s = .next { s with jd := { s.jd with splitSel := v &&& 0xFF3F } }) ∧
    (s.vendorLive = false → exec (.jdSplitSel v) s = .next s ∧ exec (.tileClrCnt n) s = .next s ∧
      exec (.registerWrite { fn := 1, bar := 0, off := f } (leBytes v.toNat 4)) s = .next s) ∧
    (1024 ≤ n → exec (.tileClrCnt n) s = .next s))

/-- POWER_STATE_CHANGE and APST_IDLE_EXPIRY. That the change waits until nothing issued is in flight is how the model
reads R335 (DEDUCED, entry 47). -/
def Obligations.PowerStates : Prop :=
  (∀ (n : Nat) (s : State), s.inGo = true → s.qe.psWant = some n → n ≠ s.qe.ps → s.qe.ps ≠ 4 → s.qe.psAuto = false
      ∨ n < 3 ∨ s.apstRuns = true → (2 ≤ n → s.panelIdle = true) → (3 ≤ n → s.anyAdmitted = false) →
    ∃ t, exec .powerStateChange s = .next t ∧ t.qe.ps = n ∧ t.qe.psWant = (if 3 ≤ n ∧ s.ioWaits = true then some s.qe.psLastOp else none) ∧ t.qe.psEvents = s.qe.psEvents + 1 ∧
      t.qe.psAuto = (s.qe.psAuto && decide (3 ≤ n)) ∧ t.qe.psLastOp = (if n < 3 then n else s.qe.psLastOp) ∧
      bitW t.qe.event 2 = true ∧ t.rl = s.rl ∧ t.mm = s.mm ∧ t.jd = s.jd ∧ t.sl = s.sl ∧ t.mc = s.mc ∧ t.idx = s.idx ∧
      (n ≠ 4 → t.tiles = s.tiles ∧ t.ns = s.ns) ∧
      (n = 4 → t.ns.table = [] ∧ ∀ k, (t.tile k).swept = false ∧ (t.tile k).lane = [])) ∧
  (∀ (s : State), s.inGo = true → s.qe.psWant = some 4 → s.qe.ps ≠ 4 → s.qe.psAuto = false → s.panelIdle = true →
      s.anyAdmitted = false →
    ∃ t, exec .powerStateChange s = .next t ∧ t.qe.ps = 4 ∧ t.qe.psWant = (if s.ioWaits then some s.qe.psLastOp else none) ∧ t.ns.table = []) ∧
  (∀ (n : Nat) (s : State), s.inGo = true → s.qe.psWant = some n →
    (n = s.qe.ps → exec .powerStateChange s = .next { s with qe := { s.qe with psWant := none } }) ∧
    (n ≠ s.qe.ps → s.qe.psAuto = true → 3 ≤ n → s.apstRuns = false →
      exec .powerStateChange s = .next { s with qe := { s.qe with psWant := none, psAuto := false } }) ∧
    (n ≠ s.qe.ps → s.qe.psAuto = false → s.qe.ps = 4 → exec .powerStateChange s = .next s)) ∧
  (∀ (n : Nat) (s : State), s.inGo = true → s.qe.psWant = some n → n ≠ s.qe.ps → s.qe.psAuto = false → (2 ≤ n ∧
      s.panelIdle = false) ∨ (3 ≤ n ∧ s.anyAdmitted = true) →
    exec .powerStateChange s = .next s) ∧
  (∀ (s : State), s.inGo = false ∨ s.qe.psWant = none →
    exec .powerStateChange s = .next s) ∧
  (∀ (n k : Nat) (s : State), s.apstRuns = true → n = 3 ∨ n = 4 → s.qe.apst.find s.qe.ps = some (n, k) →
    exec (.apstIdleExpiry n) s = .next { s with qe := { s.qe with psWant := some n, psAuto := true } }) ∧
  (∀ (n : Nat) (s : State), s.apstRuns = false ∨ n ≠ 3 ∧ n ≠ 4 ∨ (s.qe.apst.find s.qe.ps).map Prod.fst ≠ some n →
    exec (.apstIdleExpiry n) s = .next s)

/-- SCAN, EMBED, TRAIN and SEARCH. The bytes of the descriptor are the command's operand. -/
def Obligations.JobSubmission : Prop :=
  (∀ (c : CmdId) (sub : Submit) (n : Nat) (s : State), s.submits c 1 sub n →
    exec (.scan c sub) s = .next (s.withJob c (s.newJob c 1 n sub [] []))) ∧
  (∀ (c : CmdId) (sub : Submit) (n : Nat) (s : State), s.submits c 2 sub n →
    exec (.embed c sub) s = .next (s.withJob c (s.newJob c 2 n sub [] []))) ∧
  (∀ (c : CmdId) (sub : Submit) (n : Nat) (s : State), s.submits c 0x20 sub n →
    exec (.train c sub) s = .next (s.withJob c (s.newJob c 0x20 n sub [] []))) ∧
  (∀ (c : CmdId) (sub : Submit) (qs : List (List Byte)) (n : Nat) (q : Squad) (s : State), s.submits c 3 sub n →
      s.squadOf n = some q → s.job s.jd.nextTag = none → (s.pickContexts (s.newJob c 3 n sub [] qs) q).isSome = true →
    exec (.search c sub qs) s = .next (s.withJob c (s.newJob c 3 n sub [] qs))) ∧
  (∀ (c : CmdId) (sub : Submit) (qs : List (List Byte)) (n : Nat) (q : Squad) (s : State), s.submits c 3 sub n →
      s.squadOf n = some q → s.job s.jd.nextTag = none → searchForm (s.newJob c 3 n sub [] qs) = true → s.pickContexts
      (s.newJob c 3 n sub [] qs) q = none →
    ∃ t, exec (.search c sub qs) s = .next t ∧ t.jd.jobs = s.jd.jobs ++ [s.newJob c 3 n sub [] qs] ∧
      (∀ x, (s.fetch c).qe.sqs.find c.sq = some x → t.qe.sqs.find c.sq = some { x with blocked := some c })) ∧
  (∀ (c : CmdId) (sub : Submit) (qs : List (List Byte)) (n : Nat) (s : State), s.serves c .io → s.inBlocks = true →
      s.submitCheck c 3 sub = .inr n → s.job s.jd.nextTag = none →
    (s.blocksSearchOk (s.newJob c 3 n sub [] qs) = true →
      (∀ q, s.squadOf n = some q → (s.pickContexts (s.newJob c 3 n sub [] qs) q).isSome = true) →
      exec (.search c sub qs) s = .next (s.withJob c (s.newJob c 3 n sub [] qs))) ∧
    (s.blocksSearchOk (s.newJob c 3 n sub [] qs) = false →
      ∃ t p, exec (.search c sub qs) s = .next t ∧ Completed t c stNotReadyBlocks 0 0 [] ∧ t.jd.jobs = s.jd.jobs ∧
        t.jd.progress.head? = some p ∧ p.status = stNotReadyBlocks ∧ p.c = c)) ∧
  (∀ (c : CmdId) (sub : Submit) (qs : List (List Byte)) (s : State), s.canFetch c = true → s.job s.jd.nextTag =
      none → s.inGo = true →
    ∀ i ∈ [(1, Instr.scan c sub), (2, .embed c sub), (3, .search c sub qs), (0x20, .train c sub)], ∀ st,
      (st = stInvalidField ∧ (sub.prp1 % 256 ≠ 0 ∨ bitsW sub.d10 7 0 ≠ byteAt sub.desc 0 ∨
          bitsW sub.d10 15 8 ≠ byteAt sub.desc 1 ∨ byteAt sub.desc 0 ≠ i.1) ∨
        sub.prp1 % 256 = 0 ∧ bitsW sub.d10 7 0 = byteAt sub.desc 0 ∧ bitsW sub.d10 15 8 = byteAt sub.desc 1 ∧
          byteAt sub.desc 0 = i.1 ∧
          (st = stVersion ∧ (byteAt sub.desc 1 ≠ s.qe.versions.cmdset / 16 ∨ byteAt sub.desc 1 = 2 ∧ 0x10 ≤ i.1) ∨
            byteAt sub.desc 1 = s.qe.versions.cmdset / 16 ∧ ¬ (byteAt sub.desc 1 = 2 ∧ 0x10 ≤ i.1) ∧
              (st = stInvalidField ∧ s.bindSquad c.sq i.1 (byteAt sub.desc 4) = none ∨
                st = stFenced ∧ ∃ n, s.bindSquad c.sq i.1 (byteAt sub.desc 4) = some n ∧ s.fenced n = true))) →
      ∃ t p, exec i.2 s = .next t ∧ Completed t c st 0 0 [] ∧ t.jd.jobs = s.jd.jobs ∧ t.jd.progress.head? = some p ∧
        p.status = st ∧ p.c = c ∧ p.kind = i.1 ∧ p.tag = s.jd.nextTag ∧ t.jd.nextTag = s.jd.nextTag + 1 ∧
        t = { s with qe := t.qe, jd := t.jd }) ∧
  (∀ (c : CmdId) (sub : Submit) (qs : List (List Byte)) (st : Nat) (s : State), s.canFetch c = true → s.job
      s.jd.nextTag = none →
    (s.gate .job = some st → ∀ i ∈ [Instr.scan c sub, .embed c sub, .train c sub],
      ∃ t p, exec i s = .next t ∧ Completed t c st 0 0 [] ∧ t.jd.jobs = s.jd.jobs ∧ t.jd.progress.head? = some p ∧
        p.status = st ∧ p.c = c) ∧
    (s.gate .io = some st →
      ∃ t p, exec (.search c sub qs) s = .next t ∧ Completed t c st 0 0 [] ∧ t.jd.jobs = s.jd.jobs ∧
        t.jd.progress.head? = some p ∧ p.status = st ∧ p.c = c))

/-- JOB_ADMIT, JOB_CANCEL and JOB_RESTART. The status numbers are NVM Express's (assumption entry 6). -/
def Obligations.JobAdmissionCancelAndRestart : Prop :=
  (∀ (tag : Nat) (j : Job) (s : State), s.job tag = some j → j.kind = 1 ∨ j.kind = 2 → j.state = .queued →
      s.mayAdmit j = true → s.itsTurn j = true → s.scanChecks j = true → j.snapField = 0 ∨ s.snapFloor ≤ j.snapField ∧
      j.snapField ≤ s.mm.epoch → s.objectsReady j.embedObjects = true →
    ∃ t, exec (.jobAdmit tag) s = .next t ∧
      t.job tag = some ({ j with
        state := .admitted, snapshot := if j.snapField = 0 then s.mm.epoch else j.snapField, admitBeat := s.pc.beat
        pins := (s.takePins j.embedObjects).2, scan := { j.scan with aggs := j.aggregates.map (fun _ => (0, 0)) } } : Job) ∧
      (∀ k, k ≠ tag → t.job k = s.job k) ∧
      t = { s with jd := { s.jd with jobs := t.jd.jobs }, rl := (s.takePins j.embedObjects).1.rl }) ∧
  (∀ (tag : Nat) (j : Job) (s : State), s.job tag = some j → j.kind = 1 ∨ j.kind = 2 → j.state = .queued →
      s.mayAdmit j = true → s.itsTurn j = true → s.scanChecks j = false ∨ (j.snapField ≠ 0 ∧ (j.snapField <
      s.snapFloor ∨ s.mm.epoch < j.snapField)) → j.c ∈ s.qe.fetched → s.qe.fetched.Nodup →
    ∃ t, exec (.jobAdmit tag) s = .next t ∧ Completed t j.c stInvalidField 0 0 [] ∧ t.job tag = none) ∧
  (∀ (tag : Nat) (j : Job) (s : State), s.job tag = some j → j.kind = 2 → s.scanChecks j = true → s.snapshotFor j =
      some s.mm.epoch → s.objectsReady j.embedObjects = false →
    exec (.jobAdmit tag) s = .next s) ∧
  (∀ (tag : Nat) (j : Job) (s : State), s.job tag = some j → j.state ≠ .queued ∨ s.mayAdmit j = false ∨ s.itsTurn j
      = false →
    exec (.jobAdmit tag) s = .next s) ∧
  (∀ (c x : CmdId) (s : State), s.serves c .io → (∀ j ∈ s.jd.jobs, j.c ≠ x) →
    exec (.jobCancel c x.sq x.cid) s = .next (s.answered c stOk 1 0 [])) ∧
  (∀ (c : CmdId) (j : Job) (s : State), s.serves c .io → s.jd.jobs = [j] → j.state = .queued → j.stop = none → j.c
      ∈ s.qe.fetched →
    ∃ t, exec (.jobCancel c j.c.sq j.c.cid) s = .next t ∧ Completed t c stOk 0 0 [] ∧ Completed t j.c stAbortRequested 0 0 [] ∧
      t.jd.jobs = []) ∧
  (∀ (c : CmdId) (j : Job) (s : State), s.serves c .io → s.jd.jobs = [j] → j.state = .admitted → j.kind = 1 ∨
      j.kind = 2 ∨ j.kind = 3 → j.c ∈ s.qe.fetched → s.qe.fetched.Nodup →
    (j.stop.isSome = true → exec (.jobCancel c j.c.sq j.c.cid) s = .next (s.answered c stOk 2 0 [])) ∧
    (j.stop = none → j.kind = 3 ∨ j.scan.issued = [] ∧ j.allDelivered = false →
      ∃ t, exec (.jobCancel c j.c.sq j.c.cid) s = .next t ∧ Completed t c stOk 0 0 [] ∧
        Completed t j.c stAbortRequested j.malformedBit 0 [] ∧ t.jd.jobs = []) ∧
    (j.stop = none → j.kind ≠ 3 → j.scan.issued ≠ [] → j.allDelivered = false →
      ∃ t, exec (.jobCancel c j.c.sq j.c.cid) s = .next t ∧ Completed t c stOk 0 0 [] ∧
        t.jd.jobs = [{ j with stop := some 3 }] ∧ t = { s with qe := t.qe, jd := t.jd })) ∧
  (∀ (tag : Nat) (j : Job) (s : State), s.job tag = some j → j.state = .restart → s.mayAdmit j = true → j.kind ≠ 3
      →
    ∃ t k, exec (.jobRestart tag) s = .next t ∧ t.job tag = some k ∧ k.state = .admitted ∧ k.attempt = j.attempt + 1 ∧
      k.scan.bytesOut = 0 ∧ k.scan.delivered = [] ∧ k.snapshot = j.snapshot ∧ k.desc = j.desc ∧
      t = { s with jd := { s.jd with jobs := t.jd.jobs } }) ∧
  (∀ (tag : Nat) (j : Job) (q : Squad) (s : State), s.job tag = some j → j.state = .restart → s.mayAdmit j = true →
      j.kind = 3 → s.squadOf j.squad = some q →
    (s.pickContexts j q = none → exec (.jobRestart tag) s = .next s) ∧
    (∀ cs, s.pickContexts j q = some cs →
      ∃ t k, exec (.jobRestart tag) s = .next t ∧ t.job tag = some k ∧ k.state = .admitted ∧ k.attempt = j.attempt + 1 ∧
        k.search.ctxs = cs ∧ k.search.done = 0 ∧ k.snapshot = j.snapshot ∧ k.desc = j.desc)) ∧
  (∀ (tag : Nat) (s : State), (∀ j, s.job tag = some j → j.state ≠ .restart ∨ s.mayAdmit j = false) →
    exec (.jobRestart tag) s = .next s)

/-- EXTENT_DONE. Records and predicates are read as R230 to R238 say; the embedder's outputs are the command's operand,
free where it gives none. -/
def Obligations.ScanExtents : Prop :=
  (∀ (tag e : Nat) (es : List EmbedOut) (j : Job) (y : Layout) (o : ExtentOut) (s : State), s.extentRuns tag e j y
      → o = s.extentOut j y (s.passing j (s.extentRecs j y e).1) es → j.kind = 1 → j.u8 97 = 3 → j.target = 0 → j.stop
      = none → (∃ k, k < j.extents ∧ k ≠ e ∧ k ∉ j.scan.delivered) →
    ∃ t k, exec (.extentDone tag e es) s = .next t ∧ t.job tag = some k ∧ k.scan.delivered = insertNat e j.scan.delivered ∧
      k.scan.seen = j.scan.seen + (s.extentRecs j y e).1.length ∧
      k.scan.malformed = j.scan.malformed + (s.extentRecs j y e).2 ∧
      k.scan.matched = j.scan.matched + (s.passing j (s.extentRecs j y e).1).length ∧
      k.scan.skipped = j.scan.skipped + o.skipped ∧ k.scan.truncated = j.scan.truncated + o.cut ∧
      k.scan.aggs = aggFold (Config.freeBits s.tick) j.aggregates j.scan.aggs (s.passing j (s.extentRecs j y e).1) ∧
      k.scan.bytesOut = j.scan.bytesOut ∧ t.hostOut = s.hostOut) ∧
  (∀ (tag e : Nat) (es : List EmbedOut) (j : Job) (y : Layout) (o : ExtentOut) (s : State), s.extentRuns tag e j y
      → o = s.extentOut j y (s.passing j (s.extentRecs j y e).1) es → j.kind = 1 ∨ j.kind = 2 → j.isAggregate = false
      → j.target = 0 → j.stop = none → o.items.flatten.length + 32 + 31 ≤ 262144 → j.scan.bytesOut + (chunkBytes e
      (j.extentStart e) (if j.kind = 1 then j.u8 97 else 4) j.attempt (1 + 2 * b2n ((s.extentRecs j y e).2 != 0))
      (s.extentRecs j y e).2 o.items).length ≤ j.resultLen → (∃ k, k < j.extents ∧ k ≠ e ∧ k ∉ j.scan.delivered) →
    ∃ t k, exec (.extentDone tag e es) s = .next t ∧ t.job tag = some k ∧ k.scan.delivered = insertNat e j.scan.delivered ∧
      k.scan.seen = j.scan.seen + (s.extentRecs j y e).1.length ∧
      k.scan.malformed = j.scan.malformed + (s.extentRecs j y e).2 ∧
      k.scan.matched = j.scan.matched + (s.passing j (s.extentRecs j y e).1).length ∧
      k.scan.skipped = j.scan.skipped + o.skipped ∧ k.scan.truncated = j.scan.truncated + o.cut ∧
      k.scan.bytesOut = j.scan.bytesOut + (chunkBytes e (j.extentStart e)
        (if j.kind = 1 then j.u8 97 else 4) j.attempt (1 + 2 * b2n ((s.extentRecs j y e).2 != 0)) (s.extentRecs j y e).2 o.items).length ∧
      t.hostOut = ⟨j.resultAddr + j.scan.bytesOut, chunkBytes e (j.extentStart e)
        (if j.kind = 1 then j.u8 97 else 4) j.attempt (1 + 2 * b2n ((s.extentRecs j y e).2 != 0)) (s.extentRecs j y e).2 o.items⟩ :: s.hostOut) ∧
  (∀ (tag e : Nat) (es : List EmbedOut) (j : Job) (y : Layout) (o : ExtentOut) (s : State), s.extentRuns tag e j y
      → o = s.extentOut j y (s.passing j (s.extentRecs j y e).1) es → j.kind = 1 ∨ j.kind = 2 → j.isAggregate = false
      → j.target = 0 → j.stop = none ∨ j.stop = some 3 → o.items.flatten.length + 32 + 31 ≤ 262144 → j.scan.bytesOut +
      (chunkBytes e (j.extentStart e) (if j.kind = 1 then j.u8 97 else 4) j.attempt (1 + 2 * b2n ((s.extentRecs j y
      e).2 != 0)) (s.extentRecs j y e).2 o.items).length ≤ j.resultLen → j.extents ≤ lowestFree (insertNat e
      j.scan.delivered) 0 → j.c ∈ s.qe.fetched → s.qe.fetched.Nodup →
    ∃ t, exec (.extentDone tag e es) s = .next t ∧
      t.hostOut.head? = some ⟨j.resultAddr + j.scan.bytesOut, chunkBytes e (j.extentStart e)
        (if j.kind = 1 then j.u8 97 else 4) j.attempt (1 + 2 * b2n ((s.extentRecs j y e).2 != 0)) (s.extentRecs j y e).2 o.items⟩ ∧
      Completed t j.c stOk (2 * b2n (j.scan.malformed + (s.extentRecs j y e).2 != 0)) 0 [] ∧ t.job tag = none) ∧
  (∀ (tag e : Nat) (es : List EmbedOut) (j : Job) (y : Layout) (o : ExtentOut) (s : State), s.extentRuns tag e j y
      → o = s.extentOut j y (s.passing j (s.extentRecs j y e).1) es → j.kind = 1 ∨ j.kind = 2 → j.isAggregate = false
      → j.target = 0 → j.stop = none → o.items.flatten.length + 32 + 31 ≤ 262144 → j.resultLen < j.scan.bytesOut +
      (chunkBytes e (j.extentStart e) (if j.kind = 1 then j.u8 97 else 4) j.attempt (1 + 2 * b2n ((s.extentRecs j y
      e).2 != 0)) (s.extentRecs j y e).2 o.items).length → j.scan.issued = [e] → j.allDelivered = false → j.c ∈
      s.qe.fetched → s.qe.fetched.Nodup →
    ∃ t, exec (.extentDone tag e es) s = .next t ∧ t.hostOut = s.hostOut ∧
      Completed t j.c stOk (1 + 2 * b2n (j.scan.malformed + (s.extentRecs j y e).2 != 0)) 0 [] ∧ t.job tag = none) ∧
  (∀ (tag e : Nat) (es : List EmbedOut) (j : Job) (y : Layout) (o : ExtentOut) (s : State), s.extentRuns tag e j y
      → o = s.extentOut j y (s.passing j (s.extentRecs j y e).1) es → j.kind = 2 → j.target = 2 → j.stop = none →
      j.allDelivered = false →
    (s.stageFits j o.batch.length = true → e ≠ j.firstMissing → (∀ b ∈ j.scan.staged, b.1 ≠ j.firstMissing) →
      ∃ t k, exec (.extentDone tag e es) s = .next t ∧ t.job tag = some k ∧ k.scan.staged = j.scan.staged ++ [(e, o.batch)] ∧
        k.scan.delivered = j.scan.delivered ∧ t.idx = s.idx) ∧
    (s.stageFits j o.batch.length = false → j.scan.issued ≠ [e] → e ∉ j.scan.issued.erase e →
      ∃ t k, exec (.extentDone tag e es) s = .next t ∧ t.job tag = some k ∧ k.stop = some 1 ∧
        k.scan.staged = j.scan.staged ∧ t.idx = s.idx)) ∧
  (∀ (tag e : Nat) (es : List EmbedOut) (j : Job) (y : Layout) (a : Nat) (s : State), s.jobsRun = true → s.job tag
      = some j → e ∈ j.scan.issued → s.jobLayout j = some y → s.extentBad j y e (s.extentRecs j y e).1 = some a →
      j.kind = 1 ∨ j.kind = 2 → j.c ∈ s.qe.fetched → s.qe.fetched.Nodup →
    ∃ t, exec (.extentDone tag e es) s = .next t ∧
      Completed t j.c (if j.target = 2 then stJobAborted else stUnrecovered) (2 * b2n (j.scan.malformed != 0)) 0 [] ∧
      t.job tag = none ∧ t.idx = s.idx) ∧
  (∀ (tag e : Nat) (es : List EmbedOut) (s : State), (s.jobsRun = false ∨ ∀ j, s.job tag = some j → e ∉
      j.scan.issued) →
    exec (.extentDone tag e es) s = .next s)

/-- INSERT, DELETE, COMMIT and COMMIT_TAKE_EFFECT. Which commits a boundary makes ready is State.readyCommits (assumption
entry 49). -/
def Obligations.IndexChanges : Prop :=
  (∀ (c : CmdId) (sub : Submit) (d : List Byte) (n : Nat) (x : Index) (j : Job) (s : State), s.submits c 4 sub n →
      j = s.newJob c 4 n sub d [] → s.admitsAtOnce j → s.idx.find (j.u32 64) = some x → s.admitAppend j = .inr s →
      s.fits { x with open_ := x.open_ ++ j.changes (sbBits x.super) } (s.stagedItems x.region) 0 = true →
    ∃ t, exec (.insert c sub d) s = .next t ∧
      t.idx.find (j.u32 64) = some { x with open_ := x.open_ ++ j.changes (sbBits x.super) } ∧
      (∀ m, m ≠ j.u32 64 → t.idx.find m = s.idx.find m) ∧ Completed t c stOk 0 0 [] ∧ t.jd.jobs = s.jd.jobs ∧
      t.rl = s.rl ∧ t.tiles = s.tiles ∧ t.mm.epoch = s.mm.epoch ∧ t.hostOut = s.hostOut) ∧
  (∀ (c : CmdId) (sub : Submit) (d : List Byte) (n : Nat) (x : Index) (j : Job) (s : State), s.submits c 5 sub n →
      j = s.newJob c 5 n sub d [] → s.admitsAtOnce j → s.idx.find (j.u32 64) = some x → s.admitAppend j = .inr s →
      s.fits { x with open_ := x.open_ ++ j.changes (sbBits x.super) } (s.stagedItems x.region) 0 = true →
    ∃ t, exec (.delete c sub d) s = .next t ∧
      t.idx.find (j.u32 64) = some { x with open_ := x.open_ ++ j.changes (sbBits x.super) } ∧
      (∀ m, m ≠ j.u32 64 → t.idx.find m = s.idx.find m) ∧ Completed t c stOk 0 0 [] ∧ t.jd.jobs = s.jd.jobs ∧
      t.rl = s.rl ∧ t.tiles = s.tiles ∧ t.mm.epoch = s.mm.epoch ∧ t.hostOut = s.hostOut) ∧
  (∀ (c : CmdId) (sub : Submit) (d : List Byte) (n : Nat) (x : Index) (j : Job) (k : Nat) (s : State), s.submits c
      4 sub n → j = s.newJob c 4 n sub d [] → s.admitsAtOnce j → s.idx.find (j.u32 64) = some x → s.admitAppend j =
      .inr s → k < j.u32 72 → s.fits { x with open_ := x.open_ ++ (j.changes (sbBits x.super)).take k } (s.stagedItems
      x.region) 0 = true → s.fits { x with open_ := x.open_ ++ (j.changes (sbBits x.super)).take (k + 1) }
      (s.stagedItems x.region) 0 = false →
    ∃ t, exec (.insert c sub d) s = .next t ∧
      t.idx.find (j.u32 64) = some { x with open_ := x.open_ ++ (j.changes (sbBits x.super)).take k } ∧
      (∀ m, m ≠ j.u32 64 → t.idx.find m = s.idx.find m) ∧ Completed t c stCapacity 0 0 [] ∧ t.jd.jobs = s.jd.jobs ∧
      (t.jd.progress.head?.map Progress.status) = some stCapacity ∧ t.rl = s.rl ∧ t.tiles = s.tiles ∧ t.hostOut = s.hostOut) ∧
  (∀ (c : CmdId) (sub : Submit) (d : List Byte) (n : Nat) (x : Index) (j : Job) (k : Nat) (s : State), s.submits c
      5 sub n → j = s.newJob c 5 n sub d [] → s.admitsAtOnce j → s.idx.find (j.u32 64) = some x → s.admitAppend j =
      .inr s → k < j.u32 72 → s.fits { x with open_ := x.open_ ++ (j.changes (sbBits x.super)).take k } (s.stagedItems
      x.region) 0 = true → s.fits { x with open_ := x.open_ ++ (j.changes (sbBits x.super)).take (k + 1) }
      (s.stagedItems x.region) 0 = false →
    ∃ t, exec (.delete c sub d) s = .next t ∧
      t.idx.find (j.u32 64) = some { x with open_ := x.open_ ++ (j.changes (sbBits x.super)).take k } ∧
      (∀ m, m ≠ j.u32 64 → t.idx.find m = s.idx.find m) ∧ Completed t c stCapacity 0 0 [] ∧ t.jd.jobs = s.jd.jobs ∧
      (t.jd.progress.head?.map Progress.status) = some stCapacity ∧ t.rl = s.rl ∧ t.tiles = s.tiles ∧ t.hostOut = s.hostOut) ∧
  (∀ (c : CmdId) (sub : Submit) (d : List Byte) (n : Nat) (x : Index) (j : Job) (st : Nat) (s : State), s.submits c
      4 sub n → j = s.newJob c 4 n sub d [] → s.admitsAtOnce j → s.idx.find (j.u32 64) = some x → s.admitAppend j =
      .inl st →
    (j.u32 72 = 0 ∨ 65536 < j.u32 72 ∨ j.target = 2 ∨ s.commonOk j = false ∨ x.squad ≠ n ∨ x.region ≠ j.u16 68 ∨
      j.u16 70 ≠ sbBits x.super → st = stInvalidField) ∧ (st = stInvalidField ∨ st = stWriteProtected) ∧
    ∃ t, exec (.insert c sub d) s = .next t ∧ Completed t c st 0 0 [] ∧ t.idx = s.idx ∧ t.jd.jobs = s.jd.jobs ∧
      (t.jd.progress.head?.map Progress.status) = some st ∧ t.rl = s.rl ∧ t.tiles = s.tiles ∧ t.hostOut = s.hostOut) ∧
  (∀ (c : CmdId) (sub : Submit) (d : List Byte) (n : Nat) (x : Index) (j : Job) (st : Nat) (s : State), s.submits c
      5 sub n → j = s.newJob c 5 n sub d [] → s.admitsAtOnce j → s.idx.find (j.u32 64) = some x → s.admitAppend j =
      .inl st →
    (j.u32 72 = 0 ∨ 65536 < j.u32 72 ∨ j.target = 2 ∨ s.commonOk j = false ∨ x.squad ≠ n ∨ x.region ≠ j.u16 68 ∨
      j.u16 70 ≠ 0 → st = stInvalidField) ∧ (st = stInvalidField ∨ st = stWriteProtected) ∧
    ∃ t, exec (.delete c sub d) s = .next t ∧ Completed t c st 0 0 [] ∧ t.idx = s.idx ∧ t.jd.jobs = s.jd.jobs ∧
      (t.jd.progress.head?.map Progress.status) = some st ∧ t.rl = s.rl ∧ t.tiles = s.tiles ∧ t.hostOut = s.hostOut) ∧
  (∀ (c : CmdId) (sub : Submit) (n : Nat) (x : Index) (j : Job) (s : State), s.submits c 6 sub n → j = s.newJob c 6
      n sub [] [] → s.admitsAtOnce j → s.idx.find (j.u32 64) = some x → x.squad = n ∧ x.region = j.u16 68 → x.commit =
      none ∧ x.waiting = [] → zerosAt j.desc 80 176 = true ∧ s.commonOk j = true ∧ j.target ≠ 2 ∧ j.u16 70 < 4 → j.u16
      70 % 2 = 1 →
    ∃ t, exec (.commit c sub) s = .next t ∧ t.idx.find (j.u32 64) = some { x with open_ := [] } ∧
      (∀ m, m ≠ j.u32 64 → t.idx.find m = s.idx.find m) ∧ Completed t c stOk 0 0 [] ∧ t.jd.jobs = s.jd.jobs ∧ t.rl = s.rl ∧
      t.tiles = s.tiles ∧ t.mm.landing = s.mm.landing) ∧
  (∀ (c : CmdId) (sub : Submit) (n : Nat) (x : Index) (j : Job) (y : Namespace) (s : State), s.submits c 6 sub n →
      j = s.newJob c 6 n sub [] [] → s.admitsAtOnce j → s.idx.find (j.u32 64) = some x → x.squad = n ∧ x.region =
      j.u16 68 → x.commit = none ∧ x.waiting = [] → zerosAt j.desc 80 176 = true ∧ s.commonOk j = true ∧ j.target ≠ 2
      ∧ j.u16 70 < 4 → j.u16 70 = 0 → s.mm.namespaces.find (j.u32 64) = some y → y.readOnly = false → sbFormat x.super
      = 4 → s.mm.landingFull = false → x.live.length + ceilDiv (resolveChanges x.open_ [] []).1.length (segCap (sbBits
      x.super)) ≤ 1024 → ceilDiv (recordBytes (sbBits x.super) (resolveChanges x.open_ [] []).1.length (resolveChanges
      x.open_ [] []).2.length) 4096 ≤ sbLogBlocks x.super - x.logUsed →
    ∃ t k z, exec (.commit c sub) s = .next t ∧ t.idx.find (j.u32 64) = some { x with commit := some k } ∧
      (t.idx.find (j.u32 64)).bind Index.commit = some k ∧
      k =
        { tag := s.jd.nextTag, items := (resolveChanges x.open_ [] []).1, tombs := (resolveChanges x.open_ [] []).2, taken := x.open_.length
          pieces := k.pieces, medium := none, newSuper := none, rebase := false, logEnd := x.logUsed + ceilDiv (recordBytes (sbBits x.super) (resolveChanges x.open_ [] []).1.length (resolveChanges x.open_ [] []).2.length) 4096 } ∧
      (t.mm, k.pieces) = s.mm.placePieces y (cutPieces (ceilDiv (ceilDiv (recordBytes (sbBits x.super) (resolveChanges x.open_ [] []).1.length (resolveChanges x.open_ [] []).2.length) 4096) 64) 0 (sbLog x.super + x.logUsed)
        ((List.range (ceilDiv (recordBytes (sbBits x.super) (resolveChanges x.open_ [] []).1.length (resolveChanges x.open_ [] []).2.length) 4096)).map (fun i =>
          trimZ (sliceZ (logRecord 4 (sbBits x.super) (resolveChanges x.open_ [] []).1 ((resolveChanges x.open_ [] []).2.map Prod.fst)) (4096 * i) 4096)))) ∧
      t.job s.jd.nextTag = some z ∧ z.state = .commitWait ∧ t.rl = s.rl ∧ t.tiles = s.tiles ∧ c ∈ t.qe.fetched) ∧
  (∀ (c : CmdId) (sub : Submit) (n : Nat) (x : Index) (j : Job) (s : State), s.submits c 6 sub n → j = s.newJob c 6
      n sub [] [] → s.admitsAtOnce j → s.idx.find (j.u32 64) = some x → x.squad = n ∧ x.region = j.u16 68 → x.commit =
      none ∧ x.waiting = [] → zerosAt j.desc 80 176 = true ∧ s.commonOk j = true ∧ j.target ≠ 2 ∧ j.u16 70 < 4 → j.u16
      70 = 0 → sbFormat x.super = 4 → (∀ y, s.mm.namespaces.find (j.u32 64) = some y → y.readOnly = false) →
      sbLogBlocks x.super - x.logUsed < ceilDiv (recordBytes (sbBits x.super) (resolveChanges x.open_ [] []).1.length
      (resolveChanges x.open_ [] []).2.length) 4096 →
    ∃ t, exec (.commit c sub) s = .next t ∧ t.idx.find (j.u32 64) = some x ∧ Completed t c stCapacity 0 0 [] ∧
      (t.jd.progress.head?.map Progress.status) = some stCapacity ∧ t.jd.jobs = s.jd.jobs ∧ t.mm.landing = s.mm.landing) ∧
  (∀ (c : CmdId) (sub : Submit) (n : Nat) (x : Index) (j : Job) (s : State), s.submits c 6 sub n → j = s.newJob c 6
      n sub [] [] → s.admitsAtOnce j → s.idx.find (j.u32 64) = some x → x.squad = n ∧ x.region = j.u16 68 → zerosAt
      j.desc 80 176 = true ∧ s.commonOk j = true ∧ j.target ≠ 2 → j.u16 70 = 0 → sbFormat x.super = 4 → (∀ y,
      s.mm.namespaces.find (j.u32 64) = some y → y.readOnly = false) → x.commit.isSome = true ∨ x.waiting = [] ∧
      ceilDiv (recordBytes (sbBits x.super) (resolveChanges x.open_ [] []).1.length (resolveChanges x.open_ []
      []).2.length) 4096 ≤ sbLogBlocks x.super - x.logUsed ∧ (1024 < x.live.length + ceilDiv (resolveChanges x.open_
      [] []).1.length (segCap (sbBits x.super)) ∨ s.mm.landingFull = true) →
    ∃ t z, exec (.commit c sub) s = .next t ∧ t.idx.find (j.u32 64) = some { x with waiting := x.waiting ++ [s.jd.nextTag] } ∧
      t.job s.jd.nextTag = some z ∧ z.state = .commitWait ∧ c ∈ t.qe.fetched ∧ t.mm = s.mm ∧ t.rl = s.rl ∧ t.tiles = s.tiles) ∧
  (∀ (c : CmdId) (sub : Submit) (n : Nat) (x : Index) (j : Job) (st : Nat) (s : State), s.submits c 6 sub n → j =
      s.newJob c 6 n sub [] [] → s.admitsAtOnce j → s.idx.find (j.u32 64) = some x → x.commit = none ∧ x.waiting = []
      → (st = stInvalidField ∧ (zerosAt j.desc 80 176 = false ∨ s.commonOk j = false ∨ j.target = 2 ∨ 4 ≤ j.u16 70 ∨
      x.squad ≠ n ∨ x.region ≠ j.u16 68 ∨       j.u16 70 = 2 ∧ s.rebaseOk (j.u32 64) (j.u64 72) x = false ∧         (∀
      y, s.mm.namespaces.find (j.u32 64) = some y → y.readOnly = false)) ∨     st = stWriteProtected ∧ zerosAt j.desc
      80 176 = true ∧ s.commonOk j = true ∧ j.target ≠ 2 ∧ (j.u16 70 = 0 ∨ j.u16 70 = 2) ∧       x.squad = n ∧
      x.region = j.u16 68 ∧ (s.mm.namespaces.find (j.u32 64)).map Namespace.readOnly = some true) →
    ∃ t, exec (.commit c sub) s = .next t ∧ t.idx.find (j.u32 64) = some x ∧ Completed t c st 0 0 [] ∧
      (t.jd.progress.head?.map Progress.status) = some st ∧ t.jd.jobs = s.jd.jobs ∧ t.mm.landing = s.mm.landing) ∧
  (∀ (n : Nat) (x : Index) (k : PendingCommit) (j : Job) (s : State), s.inGo = true ∨ s.halted = true ∧
      s.commitForced n = true → s.idx.find n = some x → x.commit = some k → k.ready = some s.mm.epoch → s.commitDue n
      x k = true → k.rebase = false → x.waiting = [] → s.job k.tag = some j → j.kind = 6 → j.c ∈ s.qe.fetched →
      s.qe.fetched.Nodup →
    ∃ t y, exec (.commitTakeEffect n) s = .next t ∧ t.idx.find n = some y ∧
      y = { x with
        open_ := x.open_.drop k.taken, logUsed := k.logEnd, commit := none, segments := y.segments, nextSeg := y.nextSeg
        super := (k.newSuper.map Prod.fst).getD x.super, slot := (k.newSuper.map Prod.snd).getD x.slot
        dead := x.dead ++ (s.newDead x x.super (k.tombs.map Prod.fst)).map (fun l => (l, s.mm.epoch))
        tombs := x.tombs ++ k.tombs.map (fun a => (a.1.toNat, s.mm.epoch)) } ∧
      (∀ g, g < x.nextSeg → y.segments.find g =
        (x.segments.find g).map (fun v : Segment => { v with items := v.items.map (killItem (k.tombs.map Prod.fst) s.mm.epoch) })) ∧
      Completed t j.c stOk (s.mm.epoch % 2 ^ 32) (s.mm.epoch / 2 ^ 32) [] ∧ t.job k.tag = none) ∧
  (∀ (n : Nat) (x : Index) (k : PendingCommit) (j : Job) (b : List Byte) (o : Nat) (s : State), s.inGo = true ∨
      s.halted = true ∧ s.commitForced n = true → s.idx.find n = some x → x.commit = some k → k.ready = some
      s.mm.epoch → s.commitDue n x k = true → k.rebase = true → k.newSuper = some (b, o) → x.waiting = [] → s.job
      k.tag = some j → j.kind = 6 → j.c ∈ s.qe.fetched → s.qe.fetched.Nodup →
    ∃ t y, exec (.commitTakeEffect n) s = .next t ∧ t.idx.find n = some y ∧ y.super = b ∧ y.slot = o ∧ y.tab = k.tab.1 ∧
      y.commit = none ∧ y.waiting = [] ∧ y.open_ = x.open_.drop k.taken ∧ y.logUsed = k.logEnd ∧ y.squad = x.squad ∧ y.region = x.region ∧
      Completed t j.c stOk (s.mm.epoch % 2 ^ 32) (s.mm.epoch / 2 ^ 32) [] ∧ t.job k.tag = none) ∧
  (∀ (n : Nat) (x : Index) (k : PendingCommit) (s : State), s.inGo = true → s.idx.find n = some x → x.commit = some
      k → k.ready = some s.mm.epoch → s.commitDue n x k = false →
    ∃ t, exec (.commitTakeEffect n) s = .next t ∧ t.idx.find n = some { x with commit := some { k with ready := none } } ∧
      t = { s with idx := t.idx }) ∧
  (∀ (n : Nat) (s : State), ((s.inGo = false ∧ (s.halted = false ∨ s.commitForced n = false)) ∨ s.idx.find n = none
      ∨ ∃ x, s.idx.find n = some x ∧ ((∃ k, x.commit = some k ∧ k.ready ≠ some s.mm.epoch) ∨ x.commit = none ∧
      x.waiting = [])) →
    exec (.commitTakeEffect n) s = .next s)

/-- HEAP_COLLECT, MERGE, INDEX_COMPACTION and SIDE_LIST_MERGE. Which entry stands first among equal distances is free
(R278). -/
def Obligations.SearchResults : Prop :=
  (∀ (tag q : Nat) (j : Job) (x : Nat × Nat × Nat) (c : Ctx) (s : State), s.jobsRun = true → s.job tag = some j →
      j.search.ctxs.find? (fun y => y.1 == q) = some x → (s.tile x.2.1).ctxs.find x.2.2 = some c → c.state = 4 →
      j.search.started = true → (s.tile x.2.1).badIn c.heapAddr (16 * c.held) = [] → j.target = 0 → c.k ≤ 1024 → q <
      64 → 2 ≤ j.search.ctxs.length →
    ∃ t b k, exec (.heapCollect tag q) s = .next t ∧ t.hostOut.head? = some b ∧
      b.addr = j.resultAddr + q * strideOf j.search.fmt c.k ∧ b.data.length = strideOf j.search.fmt c.k ∧
      u32At b.data 0 = 0x4B4C4252 ∧ u16At b.data 4 = j.search.fmt % 65536 ∧ u16At b.data 6 = b2n (c.held < c.k) ∧
      u16At b.data 8 = min c.k c.held ∧ u16At b.data 10 = c.k ∧ byteAt b.data 12 = q ∧ byteAt b.data 13 = j.attempt % 256 ∧
      u16At b.data 14 = j.bits ∧
      t.tile x.2.1 = (s.tile x.2.1).freeCtx x.2.2 ∧ (∀ m, m ≠ x.2.1 → t.tile m = s.tile m) ∧
      t.job tag = some k ∧
      k = { j with search := { j.search with
        ctxs := j.search.ctxs.filter (fun y => !(y == x)), done := j.search.done + 1 } } ∧ t.qe = s.qe) ∧
  (∀ (tag q : Nat) (j : Job) (x : Nat × Nat × Nat) (c : Ctx) (s : State), s.jobsRun = true → s.job tag = some j →
      j.search.ctxs.find? (fun y => y.1 == q) = some x → (s.tile x.2.1).ctxs.find x.2.2 = some c → c.state = 4 →
      j.search.started = true → (s.tile x.2.1).badIn c.heapAddr (16 * c.held) = [] → j.target = 0 → c.k ≤ 1024 → q <
      64 → j.search.ctxs.length = 1 → j.kind = 3 → j.c ∈ s.qe.fetched → s.qe.fetched.Nodup →
    ∃ t b, exec (.heapCollect tag q) s = .next t ∧ t.hostOut.head? = some b ∧
      b.addr = j.resultAddr + q * strideOf j.search.fmt c.k ∧ b.data.length = strideOf j.search.fmt c.k ∧
      u32At b.data 0 = 0x4B4C4252 ∧ u16At b.data 4 = j.search.fmt % 65536 ∧ u16At b.data 6 = b2n (c.held < c.k) ∧
      u16At b.data 8 = min c.k c.held ∧ u16At b.data 10 = c.k ∧ byteAt b.data 12 = q ∧ byteAt b.data 13 = j.attempt % 256 ∧
      u16At b.data 14 = j.bits ∧
      t.tile x.2.1 = (s.tile x.2.1).freeCtx x.2.2 ∧ (∀ m, m ≠ x.2.1 → t.tile m = s.tile m) ∧
      t.job tag = none ∧ Completed t j.c stOk 0 0 []) ∧
  (∀ (tag q : Nat) (j : Job) (x : Nat × Nat × Nat) (c : Ctx) (a : Nat) (v : BitVec 5) (l : List (Nat × BitVec 5))
      (s : State), s.jobsRun = true → s.job tag = some j → j.search.ctxs.find? (fun y => y.1 == q) = some x → (s.tile
      x.2.1).ctxs.find x.2.2 = some c → c.state = 4 → j.search.started = true → (s.tile x.2.1).badIn c.heapAddr (16 *
      c.held) = (a, v) :: l → synOf v = .uncorr →
    exec (.heapCollect tag q) s = .next ((s.laneUncorr x.2.1 a v).laneFault x.2.1 a v tag)) ∧
  (∀ (tag q : Nat) (s : State), (s.jobsRun = false ∨ s.job tag = none ∨ ∃ j, s.job tag = some j ∧ (j.search.started
      = false ∨ j.search.ctxs.find? (fun y => y.1 == q) = none ∨ ∃ x, j.search.ctxs.find? (fun y => y.1 == q) = some x
      ∧ ∀ c, (s.tile x.2.1).ctxs.find x.2.2 = some c → c.state ≠ 4)) →
    exec (.heapCollect tag q) s = .next s) ∧
  (∀ (c : CmdId) (sub : Submit) (srcs : List (List Byte)) (n : Nat) (j : Job) (s : State), s.submits c 7 sub n → j
      = s.newJob c 7 n sub [] srcs → s.admitsAtOnce j → s.mergeForm j = true → s.mergeReadsWindow j = false → j.target
      = 0 → (∀ q, q < j.u8 68 → (s.mergeEntries srcs q (u16At (s.sourceBytes (srcs.headD []) 0 16) 14)).isSome = true)
      →
    ∃ t, exec (.merge c sub srcs) s = .next t ∧ Completed t c stOk 0 0 [] ∧ t.jd.jobs = s.jd.jobs ∧
      t.hostOut.length = s.hostOut.length + j.u8 68 ∧
      (∀ q, q < j.u8 68 → ∃ b ∈ t.hostOut, b.addr = j.resultAddr + q * strideOf s.resultFmt (j.u16 66) ∧
        b.data.length = strideOf s.resultFmt (j.u16 66) ∧ u32At b.data 0 = 0x4B4C4252 ∧ bitN (u16At b.data 6) 1 = true ∧
        u16At b.data 10 = j.u16 66 ∧ byteAt b.data 12 = q ∧ u16At b.data 8 ≤ j.u16 66) ∧
      t.rl = s.rl ∧ t.idx = s.idx ∧ t.tiles = s.tiles) ∧
  (∀ (c : CmdId) (sub : Submit) (srcs : List (List Byte)) (n : Nat) (j : Job) (s : State), s.submits c 7 sub n → j
      = s.newJob c 7 n sub [] srcs → s.admitsAtOnce j → s.mergeForm j = true → s.mergeReadsWindow j = false → (∃ q, q
      < j.u8 68 ∧ s.mergeEntries srcs q (u16At (s.sourceBytes (srcs.headD []) 0 16) 14) = none) →
    ∃ t, exec (.merge c sub srcs) s = .next t ∧ Completed t c stInvalidField 0 0 [] ∧ t.jd.jobs = s.jd.jobs ∧
      t.hostOut = s.hostOut ∧ t.rl = s.rl) ∧
  (∀ (c : CmdId) (sub : Submit) (srcs : List (List Byte)) (n : Nat) (j : Job) (s : State), s.submits c 7 sub n → j
      = s.newJob c 7 n sub [] srcs → s.admitsAtOnce j → s.mergeForm j = false → s.mergeReadsWindow j = false →
    ∃ t, exec (.merge c sub srcs) s = .next t ∧ Completed t c stInvalidField 0 0 [] ∧ t.jd.jobs = s.jd.jobs ∧
      t.hostOut = s.hostOut ∧ t.rl = s.rl ∧ (t.jd.progress.head?.map Progress.status) = some stInvalidField) ∧
  (∀ (n : Nat) (x : Index) (s : State), s.inGo = true → s.mayRun 3 n = true → s.purgeSegments.idx.find n = some x →
    ∃ t, exec (.indexCompaction n) s = .next t ∧
      t.idx.find n = some { x with
        dead := x.dead.filter (fun d => s.snapFloor < d.2)
        deadMask := x.deadMask ++ (x.dead.filter (fun d => d.2 ≤ s.snapFloor)).map Prod.fst
        segments := x.segments.mapVals (fun _ g => { g with items := g.items.map (fun i =>
          if i.death.any (fun e => e ≤ s.snapFloor) then i.drop else i) }) } ∧
      (∀ m, m ≠ n → t.idx.find m = s.purgeSegments.idx.find m) ∧ t.jd = s.jd ∧ t.qe = s.qe ∧ t.mm = s.mm ∧
      t.pc = { s.pc with bgRun := s.pc.bgRun.filter (fun w => !(w == (3, n))) }) ∧
  (∀ (n : Nat) (l : List Nat) (x : Index) (items : List SideItem) (s : State), s.inGo = true → s.atBoundary n =
      true → s.mayRun 2 n = true → s.purgeSegments.idx.find n = some x → x.commit = none ∧ x.waiting = [] → items =
      ((KMap.vals (x.live.filter (fun g => l.contains g.1))).flatMap Segment.items).filter (fun i => i.death.all (fun
      e => s.snapFloor < e)) →
    (ceilDiv items.length (segCap (sbBits x.super)) < (x.live.filter (fun g => l.contains g.1)).length →
      s.purgeSegments.fits x (s.stagedItems x.region) (ceilDiv items.length (segCap (sbBits x.super))) = true →
      ∃ t y, exec (.sideListMerge n l) s = .next t ∧ t.idx.find n = some y ∧
        y = { x with segments := y.segments, nextSeg := y.nextSeg } ∧
        (∀ g ∈ l, g < x.nextSeg → y.live.find g = none) ∧
        (∀ g, g < x.nextSeg → g ∉ l → y.segments.find g = x.segments.find g) ∧
        (∀ g v, x.nextSeg ≤ g → y.segments.find g = some v → ∀ i ∈ v.items, i ∈ items) ∧
        t.jd = s.jd ∧ t.qe = s.qe ∧ t.mm = s.mm ∧ t.tiles = s.tiles) ∧
    ((x.live.filter (fun g => l.contains g.1)).length ≤ ceilDiv items.length (segCap (sbBits x.super)) ∨
      s.purgeSegments.fits x (s.stagedItems x.region) (ceilDiv items.length (segCap (sbBits x.super))) = false →
      exec (.sideListMerge n l) s = .next (s.purgeSegments.endBg 2 n))) ∧
  (∀ (n : Nat) (l : List Nat) (s : State),
    (s.inGo = false ∨ s.mayRun 3 n = false → exec (.indexCompaction n) s = .next s) ∧
    (s.inGo = false ∨ s.atBoundary n = false ∨ s.mayRun 2 n = false → exec (.sideListMerge n l) s = .next s))

/-- SERVE_OPEN, SERVE_APPEND and SERVE_CLOSE. Which free pages a sequence takes is the model's choice (assumption entry
26). -/
def Obligations.Sequences : Prop :=
  (∀ (c : CmdId) (sub : Submit) (n : Nat) (j : Job) (m : Model) (i : Nat) (s : State), s.submits c 0x10 sub n → j =
      s.newJob c 0x10 n sub [] [] → s.admitsAtOnce j → s.model (j.u8 64) = some m → openForm j = true → m.squad = n →
      s.jd.seqs.length < 16384 → i = s.issueSeqId s.jd.seqs.length s.jd.nextSeqId →
    ∃ t, exec (.serveOpen c sub) s = .next t ∧ t.jd.seqs.find i = some (Sequence.fresh j) ∧
      (s.seq s.jd.nextSeqId = none → i = s.jd.nextSeqId) ∧
      (∀ k, k ≠ i → t.jd.seqs.find k = s.jd.seqs.find k) ∧ t.jd.nextSeqId = (i + 1) % 2 ^ 32 ∧
      Completed t c stOk i 0 [] ∧ t.jd.jobs = s.jd.jobs ∧ t.jd.models = s.jd.models ∧ t.jd.pools = s.jd.pools ∧ t.rl = s.rl ∧
      t.tiles = s.tiles) ∧
  (∀ (c : CmdId) (sub : Submit) (n : Nat) (j : Job) (m : Model) (s : State), s.submits c 0x10 sub n → j = s.newJob
      c 0x10 n sub [] [] → s.admitsAtOnce j → s.model (j.u8 64) = some m → openForm j = true → m.squad = n → 16384 ≤
      s.jd.seqs.length →
    ∃ t, exec (.serveOpen c sub) s = .next t ∧ Completed t c stCapacity 0 0 [] ∧ t.jd.seqs = s.jd.seqs ∧
      bitW t.jd.event 4 = true ∧ t.jd.jobs = s.jd.jobs ∧ (t.jd.progress.head?.map Progress.status) = some stCapacity) ∧
  (∀ (c : CmdId) (sub : Submit) (n : Nat) (j : Job) (s : State), s.submits c 0x10 sub n → j = s.newJob c 0x10 n sub
      [] [] → s.admitsAtOnce j → s.model (j.u8 64) = none ∨ openForm j = false ∨ (s.model (j.u8 64)).map Model.squad ≠
      some n →
    ∃ t, exec (.serveOpen c sub) s = .next t ∧ Completed t c stInvalidField 0 0 [] ∧ t.jd.seqs = s.jd.seqs ∧
      t.jd.jobs = s.jd.jobs ∧ (t.jd.progress.head?.map Progress.status) = some stInvalidField) ∧
  (∀ (c : CmdId) (sub : Submit) (d : List Nat) (n : Nat) (j : Job) (q : Sequence) (m : Model) (e : DirEntry) (s :
      State), s.submits c 0x11 sub n → j = s.newJob c 0x11 n sub (d.flatMap (fun x => leBytes x 4)) [] →
      s.admitsAtOnce j → s.appendCheck j = none → s.seq (j.u32 64) = some q → s.model q.model = some m → s.rl.dir.find
      m.weightObject = some e → e.pinnable = true →
    ∃ t y k, exec (.serveAppend c sub d) s = .next t ∧ t.jd.seqs.find (j.u32 64) = some y ∧
      y = { q with
        tokens := q.tokens ++ j.inputs, append := some s.jd.nextTag, ready := q.ready && j.u32 68 == 0 && !q.pages.isEmpty } ∧
      (∀ i, i ≠ j.u32 64 → t.jd.seqs.find i = s.jd.seqs.find i) ∧ t.job s.jd.nextTag = some k ∧
      k = { j with
        state := .admitted, snapshot := s.mm.epoch, admitBeat := s.pc.beat, pins := (s.takePins [m.weightObject]).2
        lap := { j.lap with accepted := j.u32 68 } } ∧
      t.model q.model = some (if q.pages ≠ [] ∧ q.tokens.length + j.u32 68 ≤ 64 * q.pages.length ∨ j.u32 64 ∈ m.queue then m
        else { m with queue := m.queue ++ [j.u32 64] }) ∧
      t.jd.pools = s.jd.pools ∧ c ∈ t.qe.fetched ∧ t.tiles = s.tiles) ∧
  (∀ (c : CmdId) (sub : Submit) (d : List Nat) (n : Nat) (j : Job) (st : Nat) (s : State), s.submits c 0x11 sub n →
      j = s.newJob c 0x11 n sub (d.flatMap (fun x => leBytes x 4)) [] → s.admitsAtOnce j → (s.appendCheck j = some st
      ∨ st = stInvalidField ∧ s.appendCheck j = none ∧ ∃ q m, s.seq (j.u32 64) = some q ∧ s.model q.model = some m ∧
      s.rl.dir.find m.weightObject = none) →
    ∃ t, exec (.serveAppend c sub d) s = .next t ∧ Completed t c st 0 0 [] ∧ t.jd.seqs = s.jd.seqs ∧
      t.jd.jobs = s.jd.jobs ∧ t.rl = s.rl ∧ t.jd.pools = s.jd.pools ∧ (t.jd.progress.head?.map Progress.status) = some st) ∧
  (∀ (c : CmdId) (sub : Submit) (d : List Nat) (n : Nat) (j : Job) (q : Sequence) (m : Model) (e : DirEntry) (s :
      State), s.submits c 0x11 sub n → j = s.newJob c 0x11 n sub (d.flatMap (fun x => leBytes x 4)) [] →
      s.admitsAtOnce j → s.appendCheck j = none → s.seq (j.u32 64) = some q → s.model q.model = some m → s.rl.dir.find
      m.weightObject = some e → e.pinnable = false →
    ∃ t, exec (.serveAppend c sub d) s = .next t ∧ t.jd.jobs = s.jd.jobs ++ [j] ∧ t.jd.seqs = s.jd.seqs ∧ c ∈ t.qe.fetched ∧
      t.rl = s.rl) ∧
  (∀ (c : CmdId) (sub : Submit) (n : Nat) (j : Job) (q : Sequence) (m : Model) (s : State), s.submits c 0x12 sub n
      → j = s.newJob c 0x12 n sub [] [] → s.admitsAtOnce j → s.seq (j.u32 64) = some q → s.model q.model = some m →
      m.squad = n → zerosAt j.desc 40 24 = true ∧ zerosAt j.desc 68 188 = true ∧ j.flags / 2 = 0 → s.lapBusy n = false
      → q.append = none ∧ q.closing = [] →
    ∃ t, exec (.serveClose c sub) s = .next t ∧ t.jd.seqs.find (j.u32 64) = none ∧
      (∀ i, i ≠ j.u32 64 → t.jd.seqs.find i = s.jd.seqs.find i) ∧
      (∀ p, s.jd.pools.find m.kvRegion = some p → t.jd.pools.find m.kvRegion = some { p with free := p.free ++ q.pages }) ∧
      (∀ g, g ≠ m.kvRegion → t.jd.pools.find g = s.jd.pools.find g) ∧
      Completed t c stOk 0 0 [] ∧ t.jd.jobs = s.jd.jobs ∧ t.rl = s.rl ∧ t.tiles = s.tiles) ∧
  (∀ (c : CmdId) (sub : Submit) (n : Nat) (j : Job) (q : Sequence) (m : Model) (g : Nat) (k : Job) (s : State),
      s.submits c 0x12 sub n → j = s.newJob c 0x12 n sub [] [] → s.admitsAtOnce j → s.seq (j.u32 64) = some q →
      s.model q.model = some m → m.squad = n → zerosAt j.desc 40 24 = true ∧ zerosAt j.desc 68 188 = true ∧ j.flags /
      2 = 0 → s.lapBusy n = false → q.append = some g ∧ q.closing = [] → s.job g = some k → k.kind = 0x11 → k.c ∈
      s.qe.fetched → s.qe.fetched.Nodup →
    ∃ t, exec (.serveClose c sub) s = .next t ∧ t.jd.seqs.find (j.u32 64) = none ∧
      (∀ i, i ≠ j.u32 64 → t.jd.seqs.find i = s.jd.seqs.find i) ∧ Completed t c stOk 0 0 [] ∧
      Completed t k.c stOk k.lap.tokensOut 3 [] ∧ t.job g = none ∧ t.tiles = s.tiles) ∧
  (∀ (c : CmdId) (sub : Submit) (n : Nat) (j : Job) (q : Sequence) (m : Model) (s : State), s.submits c 0x12 sub n
      → j = s.newJob c 0x12 n sub [] [] → s.admitsAtOnce j → s.seq (j.u32 64) = some q → s.model q.model = some m →
      m.squad = n → zerosAt j.desc 40 24 = true ∧ zerosAt j.desc 68 188 = true ∧ j.flags / 2 = 0 → s.lapBusy n = true
      →
    ∃ t k, exec (.serveClose c sub) s = .next t ∧
      t.jd.seqs.find (j.u32 64) = some { q with closing := q.closing ++ [s.jd.nextTag] } ∧ c ∈ t.qe.fetched ∧
      t.job s.jd.nextTag = some k ∧ k.state = .admitted ∧ t.jd.pools = s.jd.pools ∧ t.tiles = s.tiles) ∧
  (∀ (c : CmdId) (sub : Submit) (n : Nat) (j : Job) (s : State), s.submits c 0x12 sub n → j = s.newJob c 0x12 n sub
      [] [] → s.admitsAtOnce j → ((s.seq (j.u32 64) = none ∨ zerosAt j.desc 40 24 = false ∨ zerosAt j.desc 68 188 =
      false ∨ j.flags / 2 ≠ 0 ∨ ∃ q m, s.seq (j.u32 64) = some q ∧ s.model q.model = some m ∧ m.squad ≠ n)) →
    ∃ t, exec (.serveClose c sub) s = .next t ∧ Completed t c stInvalidField 0 0 [] ∧ t.jd.seqs = s.jd.seqs ∧
      t.jd.jobs = s.jd.jobs ∧ t.jd.pools = s.jd.pools ∧ (t.jd.progress.head?.map Progress.status) = some stInvalidField)

/-- MODEL_REGISTER, MODEL_UNREGISTER and DECODE_CAP_RISE. The codes of a failed REGISTER are those of State.registerCode,
in R284's order. -/
def Obligations.ModelRegistration : Prop :=
  (∀ (v : W32) (r : List Byte) (g : Region) (s : State), s.vendorLive = true → s.inGo = true → bitW v 16 = true →
      s.registerCode (bitsW v 5 0) r = 0 → s.region (u16At r 10) = some g →
    ∃ t, exec (.modelRegister v r) s = .next t ∧ t.jd.models.find (bitsW v 5 0) =
        some { squad := byteAt r 1, record := padTo 128 r, cap := u16At r 28, bound := false, clean := 0, lastJoin := 0, filler := none, nextJoin := 1, queue := [] } ∧
      (∀ i, i ≠ bitsW v 5 0 → t.jd.models.find i = s.jd.models.find i) ∧ t.jd.modelCode = 0 ∧ bitW t.jd.event 2 = true ∧
      (t.jd.pools.find (u16At r 10)).isSome = true ∧
      (s.jd.pools.find (u16At r 10) = none → u32At r 12 ≠ 0 → t.jd.pools.find (u16At r 10) =
        some { total := g.size / u32At r 12, free := List.range (g.size / u32At r 12), atPlan := g.size / u32At r 12 }) ∧
      (∀ i, i ≠ u16At r 10 ∨ (s.jd.pools.find i).isSome = true → t.jd.pools.find i = s.jd.pools.find i) ∧
      t = { s with jd := t.jd } ∧ t.jd.jobs = s.jd.jobs ∧ t.jd.seqs = s.jd.seqs) ∧
  (∀ (v : W32) (r : List Byte) (s : State), s.vendorLive = true → s.inGo = true → bitW v 16 = true → s.registerCode
      (bitsW v 5 0) r ≠ 0 →
    exec (.modelRegister v r) s = .next { s with jd := { s.jd with
      modelSlot := bitsW v 5 0, modelOp := false, modelCode := s.registerCode (bitsW v 5 0) r, event := setEv s.jd.event 2 } }) ∧
  (∀ (v : W32) (m : Model) (s : State), s.vendorLive = true → s.inGo = true → bitW v 16 = true → s.model (bitsW v 5
      0) = some m → (∀ e ∈ s.jd.seqs, e.2.model ≠ bitsW v 5 0) →
    ∃ t, exec (.modelUnregister v) s = .next t ∧ t.jd.models.find (bitsW v 5 0) = none ∧
      (∀ i, i ≠ bitsW v 5 0 → t.jd.models.find i = s.jd.models.find i) ∧ t.jd.modelCode = 0 ∧ bitW t.jd.event 2 = true ∧
      t.jd.pools = (if t.jd.models.any (fun e => e.2.kvRegion == m.kvRegion) then s.jd.pools else s.jd.pools.del m.kvRegion) ∧
      t = { s with jd := t.jd } ∧ t.jd.jobs = s.jd.jobs ∧ t.jd.seqs = s.jd.seqs) ∧
  (∀ (v : W32) (s : State), s.vendorLive = true → s.inGo = true → bitW v 16 = true → s.model (bitsW v 5 0) = none →
    exec (.modelUnregister v) s = .next { s with jd := { s.jd with
      modelSlot := bitsW v 5 0, modelOp := true, modelCode := 7, event := setEv s.jd.event 2 } }) ∧
  (∀ (v : W32) (e : Nat × Sequence) (s : State), s.vendorLive = true → s.inGo = true → bitW v 16 = true → (s.model
      (bitsW v 5 0)).isSome = true → e ∈ s.jd.seqs → e.2.model = bitsW v 5 0 →
    exec (.modelUnregister v) s = .next { s with jd := { s.jd with
      modelSlot := bitsW v 5 0, modelOp := true, modelCode := 6, event := setEv s.jd.event 2 } }) ∧
  (∀ (v : W32) (r : List Byte) (s : State), s.vendorLive = true → bitW v 16 = false ∨ s.inGo = false →
    exec (.modelRegister v r) s = .next { s with jd := { s.jd with modelSlot := bitsW v 5 0, modelOp := false } } ∧
    exec (.modelUnregister v) s = .next { s with jd := { s.jd with modelSlot := bitsW v 5 0, modelOp := true } }) ∧
  (∀ (v : W32) (r : List Byte) (s : State), s.vendorLive = false →
    exec (.modelRegister v r) s = .next s ∧ exec (.modelUnregister v) s = .next s) ∧
  (∀ (i : Nat) (m : Model) (s : State), s.model i = some m → m.bound = true → 64 ≤ m.clean →
    ∃ t, exec (.decodeCapRise i) s = .next t ∧ t.model i = some { m with
        cap := min m.decodeMax (m.cap + ceilDiv m.cap 8), clean := 0,
        bound := decide (min m.decodeMax (m.cap + ceilDiv m.cap 8) ≠ m.decodeMax) } ∧
      (∀ k, k ≠ i → t.model k = s.model k) ∧ t = { s with jd := { s.jd with models := t.jd.models } }) ∧
  (∀ (i : Nat) (s : State), (∀ m, s.model i = some m → m.bound = false ∨ m.clean < 64) →
    exec (.decodeCapRise i) s = .next s)

/-- LAP_HURDLE. The next token is State.tokenFor of the logits the command brings; without them, and for a draw of SAMPLE,
it is free (assumption entry 1). -/
def Obligations.LapHurdles : Prop :=
  (∀ (q : Nat) (x : Squad) (l : Lap) (h : HurdleInfo) (j : Job) (a k : Nat) (s : State), s.inGo = true → s.squadOf
      q = some x → (s.lapsOf q).flight = some l → s.atHurdle x = true → x.func = 4 → l.invoc = 0xFF → s.job l.jobTag =
      some j → j.stop = none → j.state = .admitted → a = s.pc.beat + 1 - l.start → k = overrunKind a l.planned
      x.overrun (stallBeats h.stallCycles s.pc.periodNs) → l.update = false → l.examples = j.u16 110 → j.lap.stepsDone
      < j.u32 104 → s.dataOut (s.lapTaken j l.examples) = false →
    ∃ t, exec (.lapHurdle q h) s = .next t ∧ (t.lapsOf q).flight = none ∧ (t.lapsOf q).passed = true ∧
      t.job l.jobTag = some (s.lapTaken j l.examples) ∧
      (∀ n ∈ x.tiles, n ∈ s.tiles.keys → (t.tile n).sems = List.replicate 16 0) ∧ (t.lapsOf q).split = ((splitWords q 0 (b2n (k == 1)) (b2n (k == 2)) l a (stallBeats h.stallCycles s.pc.periodNs) 0) ::
        (s.lapsOf q).split).take 256 ∧
      t.rl.lateCnt = (if k = 1 then sat16 (s.rl.lateCnt + 1) else s.rl.lateCnt) ∧
      t.rl.overCnt = (if k = 2 then sat16 (s.rl.overCnt + 1) else s.rl.overCnt) ∧
      (k = 0 → t.fl = s.fl) ∧
      (k = 1 → s.ntAll = true → RecordWritten s t (srcTile (s.lowTile q)) kRelayLate 0 (lapAddr l.num q a l.planned)
        (BitVec.ofNat 32 (stallBeats h.stallCycles s.pc.periodNs)) (BitVec.ofNat 32 l.jobTag) 0 0) ∧
      (k = 2 → s.ntAll = true → RecordWritten s t (srcTile (s.lowTile q)) kLapOverrun 0 (lapAddr l.num q a l.planned)
        (BitVec.ofNat 32 (stallBeats h.stallCycles s.pc.periodNs)) (BitVec.ofNat 32 l.jobTag) 0 0) ∧
      t.qe = s.qe ∧ t.mm = s.mm) ∧
  (∀ (q : Nat) (x : Squad) (l : Lap) (h : HurdleInfo) (j : Job) (a k : Nat) (s : State), s.inGo = true → s.squadOf
      q = some x → (s.lapsOf q).flight = some l → s.atHurdle x = true → x.func = 4 → l.invoc = 0xFF → s.job l.jobTag =
      some j → j.stop = none → j.state = .admitted → a = s.pc.beat + 1 - l.start → k = overrunKind a l.planned
      x.overrun (stallBeats h.stallCycles s.pc.periodNs) → l.update = false → l.examples < j.u16 110 → j.u32 152 =
      0xFFFFFFFF → j.kind = 0x20 → j.c ∈ s.qe.fetched → s.qe.fetched.Nodup →
    ∃ t, exec (.lapHurdle q h) s = .next t ∧ (t.lapsOf q).flight = none ∧ t.job l.jobTag = none ∧
      Completed t j.c stOk 0 0 [] ∧ (∀ n ∈ x.tiles, n ∈ s.tiles.keys → (t.tile n).sems = List.replicate 16 0) ∧ (t.lapsOf q).split = ((splitWords q 0 (b2n (k == 1)) (b2n (k == 2)) l a (stallBeats h.stallCycles s.pc.periodNs) 0) ::
        (s.lapsOf q).split).take 256) ∧
  (∀ (q : Nat) (x : Squad) (l : Lap) (h : HurdleInfo) (j : Job) (a k : Nat) (s : State), s.inGo = true → s.squadOf
      q = some x → (s.lapsOf q).flight = some l → s.atHurdle x = true → x.func = 4 → l.invoc = 0xFF → s.job l.jobTag =
      some j → j.stop = none → j.state = .admitted → a = s.pc.beat + 1 - l.start → k = overrunKind a l.planned
      x.overrun (stallBeats h.stallCycles s.pc.periodNs) → l.update = true → s.mayStep j = true → j.u32 152 =
      0xFFFFFFFF → j.lap.stepsDone + 1 < j.u32 104 → s.dataOut { j with lap := { j.lap with lapInStep := 0 } } = false
      →
    ∃ t y, exec (.lapHurdle q h) s = .next t ∧ (t.lapsOf q).flight = none ∧ t.job l.jobTag = some y ∧
      y = { j with
        pins := y.pins
        lap := { j.lap with
          stepsDone := j.lap.stepsDone + 1, lastStep := some j.lap.step, loss := h.loss, cursor := s.examplePos j j.lap.pend
          step := j.lap.step + 1, lapInStep := 0, pass1 := false, layers := [], holds := [] } } ∧
      (t.lapsOf q).split = ((splitWords q 0 (b2n (k == 1)) (b2n (k == 2)) l a (stallBeats h.stallCycles s.pc.periodNs) 0) ::
        (s.lapsOf q).split).take 256 ∧
      (∀ w b, s.training j = some w → s.stepRoom w = some b →
        (t.rl.dir.find w.pin.object).map (fun e => (e.cur.num, e.cur.near)) = some (s.nextVer w.pin.object, some b) ∧
        (s.jd.banks.Nodup → (t.jd.banks.contains w.region.id = !s.jd.banks.contains w.region.id)) ∧
        ∀ o, objectBytes ((List.range w.ver.batons).map (s.newBaton w (s.nextVer w.pin.object))) = o →
          readCells 0 t.rl.near b o.length = o)) ∧
  (∀ (q i : Nat) (x : Squad) (l : Lap) (h : HurdleInfo) (a : Sequence) (m : Model) (g w : Nat) (j : Job) (s :
      State), s.inGo = true → s.squadOf q = some x → (s.lapsOf q).flight = some l → s.atHurdle x = true → x.state =
      .active → x.func = 3 → l.invoc ≠ 0xFF → (∀ e ∈ s.jd.seqs, e.1 ≠ i → e.2.append = none ∧ e.2.closing = []) →
      s.seq i = some a → s.model a.model = some m → a.append = some g → a.closing = [] → s.job g = some j → j.stop =
      none → l.decode = [i] → l.prefill = [] ∧ l.filler = none → w = (s.tokenFor h m.vocab i a).1 → j.lap.tokensOut +
      1 < j.u32 80 → (∀ k, k < j.u8 86 → j.u32 (88 + 4 * k) ≠ w) → a.tokens.length + 1 < m.maxContext →
    ∃ t y k, exec (.lapHurdle q h) s = .next t ∧ t.seq i = some y ∧ y.tokens = a.tokens ++ [w] ∧
      t.hostOut = ⟨j.resultAddr + 4 * j.lap.tokensOut, leBytes w 4⟩ :: s.hostOut ∧ t.job g = some k ∧
      k.lap.tokensOut = j.lap.tokensOut + 1 ∧ y.append = some g ∧ (t.lapsOf q).flight = none ∧ t.qe = s.qe ∧ (∀ n ∈ x.tiles, n ∈ s.tiles.keys → (t.tile n).sems = List.replicate 16 0)) ∧
  (∀ (q i : Nat) (x : Squad) (l : Lap) (h : HurdleInfo) (a : Sequence) (m : Model) (g w r : Nat) (j : Job) (s :
      State), s.inGo = true → s.squadOf q = some x → (s.lapsOf q).flight = some l → s.atHurdle x = true → x.state =
      .active → x.func = 3 → l.invoc ≠ 0xFF → (∀ e ∈ s.jd.seqs, e.1 ≠ i → e.2.append = none ∧ e.2.closing = []) →
      s.seq i = some a → s.model a.model = some m → a.append = some g → a.closing = [] → s.job g = some j → j.stop =
      none → l.decode = [i] → l.prefill = [] ∧ l.filler = none → w = (s.tokenFor h m.vocab i a).1 → a.tokens.length <
      m.maxContext ∧ j.u32 80 ≠ 0 → j.kind = 0x11 ∧ j.c ∈ s.qe.fetched ∧ s.qe.fetched.Nodup → (r = 0 ∧ j.u32 80 ≤
      j.lap.tokensOut + 1 ∨ j.lap.tokensOut + 1 < j.u32 80 ∧ (r = 1 ∧ (∃ k, k < j.u8 86 ∧ j.u32 (88 + 4 * k) = w) ∨ r
      = 2 ∧ (∀ k, k < j.u8 86 → j.u32 (88 + 4 * k) ≠ w) ∧ a.tokens.length + 1 = m.maxContext)) →
    ∃ t y, exec (.lapHurdle q h) s = .next t ∧ t.seq i = some y ∧ y.tokens = a.tokens ++ [w] ∧ y.append = none ∧ y.pages = [] ∧
      y.tkv = 0 ∧ t.hostOut = ⟨j.resultAddr + 4 * j.lap.tokensOut, leBytes w 4⟩ :: s.hostOut ∧ t.job g = none ∧
      Completed t j.c stOk (j.lap.tokensOut + 1) r []) ∧
  (∀ (q i : Nat) (x : Squad) (l : Lap) (h : HurdleInfo) (a : Sequence) (m : Model) (g n : Nat) (j : Job) (s :
      State), s.inGo = true → s.squadOf q = some x → (s.lapsOf q).flight = some l → s.atHurdle x = true → x.state =
      .active → x.func = 3 → l.invoc ≠ 0xFF → (∀ e ∈ s.jd.seqs, e.1 ≠ i → e.2.append = none ∧ e.2.closing = []) →
      s.seq i = some a → s.model a.model = some m → a.append = some g → a.closing = [] → s.job g = some j → j.stop =
      none → l.decode = [] → l.prefill = [(i, n)] ∧ l.filler = none → a.tkv + n < a.tokens.length →
    ∃ t y k, exec (.lapHurdle q h) s = .next t ∧ t.seq i = some y ∧ y.tkv = a.tkv + n ∧ y.ready = false ∧ y.tokens = a.tokens ∧
      y.append = some g ∧ t.hostOut = s.hostOut ∧ t.job g = some k ∧ k.lap.tokensOut = j.lap.tokensOut ∧
      (t.lapsOf q).flight = none ∧ (∀ n ∈ x.tiles, n ∈ s.tiles.keys → (t.tile n).sems = List.replicate 16 0)) ∧
  (∀ (q i : Nat) (x : Squad) (l : Lap) (h : HurdleInfo) (a : Sequence) (m : Model) (g : Nat) (j : Job) (s : State),
      s.inGo = true → s.squadOf q = some x → (s.lapsOf q).flight = some l → s.atHurdle x = true → x.state = .draining
      → x.func = 3 → l.invoc ≠ 0xFF → l.decode = [] ∧ l.prefill = [] ∧ l.filler = none → s.jd.seqs = [(i, a)] →
      s.model a.model = some m → m.squad = q → a.append = some g → a.closing = [] → s.job g = some j → j.stop = none →
      j.kind = 0x11 → j.c ∈ s.qe.fetched → s.qe.fetched.Nodup →
    ∃ t, exec (.lapHurdle q h) s = .next t ∧ t.jd.seqs = [] ∧ t.job g = none ∧
      Completed t j.c stDraining j.lap.tokensOut 0 [] ∧ (t.lapsOf q).flight = none) ∧
  (∀ (q : Nat) (x : Squad) (h : HurdleInfo) (s : State), s.inGo = true → s.squadOf q = some x → (s.lapsOf q).flight
      = none → (s.lapsOf q).passed = false → s.atHurdle x = true → s.embeds q = false →
    ∃ t, exec (.lapHurdle q h) s = .next t ∧ (t.lapsOf q).passed = true ∧ (∀ n ∈ x.tiles, n ∈ s.tiles.keys → (t.tile n).sems = List.replicate 16 0) ∧ t.jd.jobs = s.jd.jobs ∧ t.ns = s.ns ∧
      t.qe = s.qe ∧ t.rl = s.rl ∧ (∀ n, n ∉ x.tiles → t.tile n = s.tile n)) ∧
  (∀ (q : Nat) (h : HurdleInfo) (s : State), (s.inGo = false ∨ s.squadOf q = none ∨ ∃ x, s.squadOf q = some x ∧
      (s.atHurdle x = false ∨ (s.lapsOf q).flight = none ∧ (s.lapsOf q).passed = true ∨ ∃ l, (s.lapsOf q).flight =
      some l ∧ s.mayEndLap l = false)) →
    exec (.lapHurdle q h) s = .next s)

/-- UPDATE_RATIO_CHECK. The order of the additions within a sum is free (R66, assumption entry 27). -/
def Obligations.UpdateRatioMonitor : Prop :=
  (∀ (g : Nat) (ls : List LayerSpan) (hi ctl : W32) (l : Lap) (j : Job) (z : NsSquad) (xs : List (Nat × W32 × Nat))
      (s : State), s.inGo = true → s.job g = some j → (s.lapsOf j.squad).flight = some l → l.jobTag = g → l.update =
      true → j.lap.pass1 = false → j.state = .admitted → s.nsSq j.squad = z → hi = z.uwrNext.getD z.uwrHi → ctl =
      z.ctlNext.getD z.ctl → xs = (s.pass1Sums j ls).filterMap (fun y => (layerRatio y).bind (fun r => if crosses hi r
      then some (y.layer, r, ratioAction (bitsW ctl 1 0) r) else none)) → (∀ x ∈ xs, x.2.2 ≠ 2) →
    ∃ t, exec (.updateRatioCheck g ls) s = .next t ∧
      t.job g = some { j with lap := { j.lap with
        pass1 := true, layers := ls, holds := (xs.filter (fun x => x.2.2 == 1)).map Prod.fst
        held := j.lap.held + (xs.filter (fun x => x.2.2 == 1)).length } } ∧
      (t.nsSq j.squad).uwrHi = hi ∧ (t.nsSq j.squad).ctl = ctl ∧ (t.nsSq j.squad).uwrNext = none ∧
      (xs = [] → t.fl = s.fl ∧ (t.nsSq j.squad).cnt = z.cnt) ∧
      (s.ntAll = true → t.fl.posted = s.fl.posted + xs.length) ∧
      (∀ x, xs = [x] → (t.nsSq j.squad).cnt = sat32 (z.cnt + 1) ∧ bitW t.ns.event 4 = true ∧
        (s.ntAll = true → RecordWritten s t (srcTile (s.lowTile j.squad)) kUpdateRatio 0 (nsAddr (x.1 % 65536) j.squad 0xFFFF)
          x.2.1 (BitVec.ofNat 32 (x.2.2 + (if (f32 x.2.1).isFin then 0 else 4))) 0 0)) ∧
      t.rl = s.rl ∧ t.qe = s.qe ∧ t.tiles = s.tiles ∧ t.mm = s.mm) ∧
  (∀ (g : Nat) (ls : List LayerSpan) (hi ctl : W32) (l : Lap) (j : Job) (z : NsSquad) (x : Nat × W32 × Nat) (xs :
      List (Nat × W32 × Nat)) (s : State), s.inGo = true → s.job g = some j → (s.lapsOf j.squad).flight = some l →
      l.jobTag = g → l.update = true → j.lap.pass1 = false → j.state = .admitted → s.nsSq j.squad = z → hi =
      z.uwrNext.getD z.uwrHi → ctl = z.ctlNext.getD z.ctl → xs = (s.pass1Sums j ls).filterMap (fun y => (layerRatio
      y).bind (fun r => if crosses hi r then some (y.layer, r, ratioAction (bitsW ctl 1 0) r) else none)) → x ∈ xs →
      x.2.2 = 2 → j.u32 152 = 0xFFFFFFFF → j.kind = 0x20 → j.c ∈ s.qe.fetched → s.qe.fetched.Nodup →
    ∃ t, exec (.updateRatioCheck g ls) s = .next t ∧ Completed t j.c stJobAborted 0 0 [] ∧ t.job g = none ∧ t.rl.near = s.rl.near) ∧
  (∀ (g : Nat) (ls : List LayerSpan) (s : State), (∀ j l, s.job g = some j → (s.lapsOf j.squad).flight = some l →
      s.inGo = false ∨ l.jobTag ≠ g ∨ l.update = false ∨ j.lap.pass1 = true ∨ j.state ≠ .admitted) →
    exec (.updateRatioCheck g ls) s = .next s)

/-- OBJ_PLACE_HOST, OBJ_PLACE_NEAR, OBJ_PLACE_LBA and OBJ_PLACE_FAR. The place in the region is the first fit (assumption
entry 8). -/
def Obligations.ObjectPlacement : Prop :=
  (∀ (c : CmdId) (d : Dwords) (x : List Byte) (r : Region) (a : Nat) (s : State), s.serves c .job → s.placeFits d r
      a →
    exec (.objPlaceHost c d x) s = .next { s with
      qe := (s.fetch c).qe, rl := s.copying { c := c, publish := false, src := 0, d := d, data := x } r a none }) ∧
  (∀ (c : CmdId) (d : Dwords) (r q : Region) (a : Nat) (s : State), s.serves c .job → s.placeFits d r a → s.region
      (Dwords.srcRegion d) = some q → q.tier = 0 → Dwords.source d + footprint (Dwords.batons d) ≤ q.size →
    exec (.objPlaceNear c d) s = .next { s with
      qe := (s.fetch c).qe, rl := s.copying { c := c, publish := false, src := 3, d := d, data := [] } r a none }) ∧
  (∀ (c : CmdId) (d : Dwords) (r : Region) (a : Nat) (n : Namespace) (s : State), s.serves c .job → s.placeFits d r
      a → s.storeIdle c d.nsid n → Dwords.source d + footprint (Dwords.batons d) / 4096 ≤ n.blocks →
    ∃ t, exec (.objPlaceLba c d) s = .next t ∧
      t.rl = s.copying { c := c, publish := false, src := 1, d := d, data := [] } r a (some s.mm.epoch) ∧
      (∃ q ∈ t.qe.store, q.c = c ∧ q.op = .objRead ∧ q.stage = .running) ∧ c ∈ t.qe.fetched ∧ t.mm = s.mm ∧ t.jd = s.jd) ∧
  (∀ (c : CmdId) (d : Dwords) (x : List Byte) (s : State), s.serves c .job → Dwords.object d ≠ 0xFFFFFFFF →
      s.objClosed (Dwords.object d) = false → (s.objBusy (Dwords.object d) = true ∨ (∃ w ∈ s.rl.waiting, Dwords.object
      w.d = Dwords.object d)) →
    ∀ i ∈ [(0, x, Instr.objPlaceHost c d x), (1, [], .objPlaceLba c d), (3, [], .objPlaceNear c d)],
      exec i.2.2 s = .next { s with
        qe := (s.fetch c).qe
        rl := { s.rl with waiting := s.rl.waiting ++ [{ c := c, publish := false, src := i.1, d := d, data := i.2.1 }] } }) ∧
  (∀ (c : CmdId) (d : Dwords) (x : List Byte) (s : State), s.serves c .job → Dwords.object d = 0xFFFFFFFF ∨
      s.objClosed (Dwords.object d) = true ∨ (s.region (Dwords.region d)).filter Region.placeable = none → s.objBusy
      (Dwords.object d) = false → (∀ w ∈ s.rl.waiting, Dwords.object w.d ≠ Dwords.object d) →
    ∀ i ∈ [Instr.objPlaceHost c d x, .objPlaceLba c d, .objPlaceNear c d],
      exec i s = .next (s.answered c stInvalidField 0 0 [])) ∧
  (∀ (c : CmdId) (d : Dwords) (x : List Byte) (r : Region) (st : Nat) (s : State), s.serves c .job → Dwords.object
      d ≠ 0xFFFFFFFF → s.objClosed (Dwords.object d) = false → s.objBusy (Dwords.object d) = false → (∀ w ∈
      s.rl.waiting, Dwords.object w.d ≠ Dwords.object d) → s.region (Dwords.region d) = some r → r.placeable = true →
      st = stInvalidField ∧ Dwords.batons d = 0 ∨ Dwords.batons d ≠ 0 ∧ st = stCapacity ∧        ((s.rl.dir.find
      (Dwords.object d)).isSome = true ∨ s.dirTaken < 262144) ∧ s.allocNear r (footprint (Dwords.batons d)) = none →
    exec (.objPlaceHost c d x) s = .next (s.answered c st 0 0 []) ∧
    (∀ q, s.region (Dwords.srcRegion d) = some q → q.tier = 0 → Dwords.source d + footprint (Dwords.batons d) ≤ q.size →
      exec (.objPlaceNear c d) s = .next (s.answered c st 0 0 []))) ∧
  (∀ (c : CmdId) (d : Dwords) (r : Region) (s : State), s.serves c .job → Dwords.object d ≠ 0xFFFFFFFF →
      s.objClosed (Dwords.object d) = false → s.objBusy (Dwords.object d) = false → (∀ w ∈ s.rl.waiting, Dwords.object
      w.d ≠ Dwords.object d) → s.region (Dwords.region d) = some r → r.placeable = true → Dwords.batons d ≠ 0 →
    ((∀ q, s.region (Dwords.srcRegion d) = some q → q.tier ≠ 0 ∨ q.size < Dwords.source d + footprint (Dwords.batons d)) →
      exec (.objPlaceNear c d) s = .next (s.answered c stInvalidField 0 0 [])) ∧
    (d.nsid = 0xFFFFFFFF ∨ s.mm.namespaces.find d.nsid = none →
      ∃ t st, exec (.objPlaceLba c d) s = .next t ∧ Completed t c st 0 0 [] ∧ st ≠ stOk ∧ t.rl = s.rl ∧ t.mm = s.mm)) ∧
  (∀ (c : CmdId) (d : Dwords) (x : List Byte) (r : Region) (s : State), s.serves c .job → Dwords.object d ≠
      0xFFFFFFFF → s.objBusy (Dwords.object d) = false → (∀ w ∈ s.rl.waiting, Dwords.object w.d ≠ Dwords.object d) →
      s.region (Dwords.region d) = some r → r.placeable = true → Dwords.batons d ≠ 0 → s.rl.dir.find (Dwords.object d)
      = none → 262144 ≤ s.dirTaken →
    ∃ t, exec (.objPlaceHost c d x) s = .next t ∧ Completed t c stCapacity 0 0 [] ∧ bitW t.rl.event 2 = true ∧
      t.rl = { s.rl with event := t.rl.event }) ∧
  (∀ (c : CmdId) (d : Dwords) (r : Region) (e : DirEntry) (f g a : Nat) (s : State), s.serves c .job →
      Dwords.object d ≠ 0xFFFFFFFF → s.region (Dwords.region d) = some r → r.placeable = true → s.rl.dir.find
      (Dwords.object d) = some e → e.discardPending = false → e.segment = false → e.state = .home → e.damaged = false
      → e.cur.home = .far f ∨ e.cur.home = .ns f g → s.allocNear r (footprint e.cur.batons) = some a →
    ∃ t y, exec (.objPlaceFar c d) s = .next t ∧ t.rl.dir.find (Dwords.object d) = some y ∧ y.state = .promoting ∧
      y.waits = e.waits ++ [.place c false] ∧ y.mark = 0 ∧ y.cur = { e.cur with near := some a, region := r.id } ∧
      (∀ o, o ≠ Dwords.object d → t.rl.dir.find o = s.rl.dir.find o) ∧
      t = { s with qe := (s.fetch c).qe, rl := { s.rl with dir := t.rl.dir } }) ∧
  (∀ (c : CmdId) (d : Dwords) (r : Region) (e : DirEntry) (s : State), s.serves c .job → Dwords.object d ≠
      0xFFFFFFFF → s.region (Dwords.region d) = some r → s.rl.dir.find (Dwords.object d) = some e → e.discardPending =
      false → e.segment = false → e.state = .resident → e.cur.home ≠ .none →
    exec (.objPlaceFar c d) s = .next (s.answered c stOk (1 + e.cur.num % 65536 * 65536) 0 [])) ∧
  (∀ (c : CmdId) (d : Dwords) (s : State), s.serves c .job → (Dwords.object d = 0xFFFFFFFF ∨ s.objClosed
      (Dwords.object d) = true ∨ (∀ e, s.rl.dir.find (Dwords.object d) = some e → e.cur.home = .none ∨ e.state = .home
      ∧ e.damaged = false ∧ (s.region (Dwords.region d)).filter Region.placeable = none)) →
    exec (.objPlaceFar c d) s = .next (s.answered c stInvalidField 0 0 [])) ∧
  (∀ (c : CmdId) (d : Dwords) (r : Region) (e : DirEntry) (s : State), s.serves c .job → Dwords.object d ≠
      0xFFFFFFFF → s.region (Dwords.region d) = some r → r.placeable = true → s.rl.dir.find (Dwords.object d) = some e
      → e.discardPending = false → e.segment = false → e.cur.home ≠ .none →
    (e.state = .home → e.damaged = true → exec (.objPlaceFar c d) s = .next (s.answered c stUnrecovered 0 0 [])) ∧
    (e.state = .home → e.damaged = false → s.allocNear r (footprint e.cur.batons) = none →
      exec (.objPlaceFar c d) s = .next (s.answered c stCapacity 0 0 [])) ∧
    (e.state = .promoting → ∃ t, exec (.objPlaceFar c d) s = .next t ∧
      t.rl.dir.find (Dwords.object d) = some { e with waits := e.waits ++ [.place c true] } ∧ c ∈ t.qe.fetched ∧
      (∀ o, o ≠ Dwords.object d → t.rl.dir.find o = s.rl.dir.find o)) ∧
    (∀ k p, e.state = .evicting → e.waits = [.evict k p] → k ∈ s.qe.fetched → k ≠ c → ∃ t y, exec (.objPlaceFar c d) s = .next t ∧
      t.rl.dir.find (Dwords.object d) = some y ∧ y = { e with state := .resident, evictPending := false, waits := [] } ∧
      Completed t k stOk 2 0 [] ∧ Completed t c stOk (e.cur.num % 65536 * 65536) 0 []))

/-- PLACE_COPY_DONE, OBJ_PUBLISH_HOST, OBJ_PUBLISH_NEAR and PUBLISH_DONE. -/
def Obligations.CopiesThatEnd : Prop :=
  (∀ (k : Copy) (q : ObjCmd) (s : State), s.relayRuns = true → s.rl.copies.find? (fun x => x.object == k.object &&
      !x.publish) = some k → k.cmd = some q → q.src ≠ 1 ∧ s.storeCmd q.c = none ∨ q.src = 1 ∧ (s.storeCmd q.c).map
      StoreCmd.stage = some .running → (q.src = 1 → s.mm.anyBad q.d.nsid (Dwords.source q.d) (footprint k.batons /
      4096) = false) → s.oldDrains k.object = false → (∀ e, s.rl.dir.find k.object = some e → e.waits = []) →
      s.rl.waiting = [] → q.c ∈ s.qe.fetched →
    ∃ t y, exec (.placeCopyDone k.object .ok) s = .next t ∧
      readCells 0 t.rl.near k.base (s.placeBytes k q).length = s.placeBytes k q ∧
      (∀ a, a < k.base ∨ k.base + (s.placeBytes k q).length ≤ a → readCell 0 t.rl.near a = readCell 0 s.rl.near a) ∧
      t.rl.dir.find k.object = some y ∧ y.state = .resident ∧ y.waits = [] ∧
      y.cur = Version.fresh (s.nextVer k.object) k.batons k.region (some k.base) .none ∧
      y.old = ((s.rl.dir.find k.object).filter (fun e => e.cur.pins != 0)).map DirEntry.superseded ∧
      (∀ p, p ≠ k.object → t.rl.dir.find p = s.rl.dir.find p) ∧ t.rl.copies = s.rl.copies.filter (fun x => !(x == k)) ∧ Completed t q.c stOk (s.nextVer k.object % 65536 * 65536) 0 []) ∧
  (∀ (k : Copy) (q : ObjCmd) (r : CopyResult) (s : State), s.relayRuns = true → s.rl.copies.find? (fun x =>
      x.object == k.object && !x.publish) = some k → k.cmd = some q → q.src ≠ 1 ∧ s.storeCmd q.c = none ∨ q.src = 1 ∧
      (s.storeCmd q.c).map StoreCmd.stage = some .running → r ≠ .ok ∨ q.src = 1 ∧ s.mm.anyBad q.d.nsid (Dwords.source
      q.d) (footprint k.batons / 4096) = true → s.oldDrains k.object = false → s.rl.waiting = [] → q.c ∈ s.qe.fetched
      →
    ∃ t, exec (.placeCopyDone k.object r) s = .next t ∧
      t.rl = { s.rl with copies := s.rl.copies.filter (fun x => !(x == k)) } ∧ Completed t q.c stUnrecovered 0 0 []) ∧
  (∀ (k : Copy) (q : ObjCmd) (r : CopyResult) (s : State), s.relayRuns = true → s.rl.copies.find? (fun x =>
      x.object == k.object && !x.publish) = some k → k.cmd = some q → s.oldDrains k.object = true ∨ ((s.storeCmd
      q.c).map StoreCmd.stage).any (fun x => x != .running) = true →
    exec (.placeCopyDone k.object r) s = .next s) ∧
  (∀ (k : Copy) (r : CopyResult) (j : Job) (s : State), s.relayRuns = true → s.rl.copies.find? (fun x => x.object
      == k.object && !x.publish) = some k → k.cmd = none → s.job k.tag = some j → j.state = .admitted → j.lap.pubDue =
      false → s.oldDrains k.object = false → (∀ e, s.rl.dir.find k.object = some e → e.waits = []) → s.rl.waiting = []
      → (∀ p ∈ k.pins, p.object ≠ k.object) →
    ∃ t y, exec (.placeCopyDone k.object r) s = .next t ∧ t.rl.dir.find k.object = some y ∧ y.state = .resident ∧
      y.cur = Version.fresh (s.nextVer k.object) k.batons k.region (some k.base) .none ∧
      (∀ a, a < k.base → readCell 0 t.rl.near a = readCell 0 s.rl.near a) ∧ t.rl.copies = s.rl.copies.filter (fun x => !(x == k)) ∧
      t.job k.tag = some { j with lap := { j.lap with serveVer := s.nextVer k.object } } ∧ t.qe = s.qe) ∧
  (∀ (o a : Nat) (c : CmdId) (j : Bool) (e : DirEntry) (s : State), s.relayRuns = true → (∀ k ∈ s.rl.copies,
      k.object ≠ o ∨ k.publish = true) → s.rl.dir.find o = some e → e.state = .promoting → e.cur.near = some a →
      s.rl.ftShare % 512 ≠ 0 ∨ e.cur.home.isFar = false → e.evictPending = false → e.waits = [.place c j] → c ∈
      s.qe.fetched →
    ∃ t, exec (.placeCopyDone o .ok) s = .next t ∧
      t.rl.dir.find o = some { e with state := .resident, mark := e.cur.batons, waits := [] } ∧
      readCells 0 t.rl.near a (s.homeCopy e.cur s.mm.epoch 0 (footprint e.cur.batons)).length =
        s.homeCopy e.cur s.mm.epoch 0 (footprint e.cur.batons) ∧
      (∀ p, p ≠ o → t.rl.dir.find p = s.rl.dir.find p) ∧
      t.rl.ftBytes = s.rl.ftBytes + (if e.cur.home.isFar then footprint e.cur.batons - batonsBytes e.mark else 0) ∧
      Completed t c stOk ((if j then 2 else 0) + e.cur.num % 65536 * 65536) 0 [] ∧ t.mm = s.mm ∧ t.jd = s.jd) ∧
  (∀ (o a : Nat) (c : CmdId) (e : DirEntry) (s : State), s.relayRuns = true → (∀ k ∈ s.rl.copies, k.object ≠ o ∨
      k.publish = true) → s.rl.dir.find o = some e → e.state = .promoting → e.cur.near = some a → s.rl.ftShare % 512 ≠
      0 → e.evictPending = true → e.discardPending = false → e.cur.home ≠ .none → e.cur.pins = 0 → e.waits = [.evict c
      true] → c ∈ s.qe.fetched →
    ∃ t y, exec (.placeCopyDone o .ok) s = .next t ∧ t.rl.dir.find o = some y ∧ y.state = .home ∧ y.cur = { e.cur with near := none } ∧
      y.waits = [] ∧ y.evictPending = false ∧ Completed t c stOk 1 0 [] ∧ bitW t.rl.event 1 = true) ∧
  (∀ (o : Nat) (c : CmdId) (j : Bool) (r : CopyResult) (e : DirEntry) (s : State), s.relayRuns = true → (∀ k ∈
      s.rl.copies, k.object ≠ o ∨ k.publish = true) → s.rl.dir.find o = some e → e.state = .promoting → r ≠ .ok →
      e.evictPending = false → e.waits = [.place c j] → c ∈ s.qe.fetched →
    ∃ t y, exec (.placeCopyDone o r) s = .next t ∧ t.rl.dir.find o = some y ∧
      y = { e with state := .home, cur := { e.cur with near := none }, mark := e.cur.batons, waits := [], damaged := y.damaged } ∧
      Completed t c stUnrecovered 0 0 [] ∧ t.rl.near = s.rl.near ∧
      (r = .readFail → y.damaged = e.damaged ∧ t.fl = s.fl) ∧
      (∀ ch a, r = .damaged ch a → y.damaged = true ∧ bitW t.rl.event 3 = true ∧
        (s.ntAll = true → RecordWritten s t (srcChannel ch) kEccUncorr 1 (BitVec.ofNat 64 (a % 2 ^ 45 + 2 ^ 63)) 16 0 0 0))) ∧
  (∀ (c : CmdId) (d : Dwords) (x : List Byte) (r : Region) (s : State), s.serves c .job → Dwords.object d ≠
      0xFFFFFFFF → s.objClosed (Dwords.object d) = false → s.objBusy (Dwords.object d) = false → (∀ w ∈ s.rl.waiting,
      Dwords.object w.d ≠ Dwords.object d) → (s.rl.dir.find (Dwords.object d)).isSome = true ∨ s.dirTaken < 262144 →
      s.region (Dwords.region d) = some r → r.tier = 1 → Dwords.source d % 0x4000000 = 0 → Dwords.batons d ≠ 0 →
      Dwords.source d + 0x4000000 * chunksOf (Dwords.batons d) ≤ r.size → s.homeTaken (r.base + Dwords.source d)
      (0x4000000 * chunksOf (Dwords.batons d)) = false → (∀ i, i < chunksOf (Dwords.batons d) → s.mm.chunkFailed
      ((r.base + Dwords.source d) / 0x4000000 + i) = false) →
    exec (.objPublishHost c d x) s = .next { s with
      qe := (s.fetch c).qe, jd := { s.jd with nextTag := s.jd.nextTag + 1 }
      rl := { s.rl with copies := s.rl.copies ++ [
        { object := Dwords.object d, cmd := some { c := c, publish := true, src := 0, d := d, data := x }, publish := true
          region := r.id, base := r.base + Dwords.source d, batons := Dwords.batons d, version := s.nextVer (Dwords.object d)
          snap := none, tag := s.jd.nextTag, begun := s.pc.beat }] } }) ∧
  (∀ (c : CmdId) (d : Dwords) (r : Region) (e : DirEntry) (s : State), s.serves c .job → Dwords.object d ≠
      0xFFFFFFFF → s.rl.dir.find (Dwords.object d) = some e → e.discardPending = false → e.segment = false → e.state =
      .resident → s.region (Dwords.region d) = some r → r.tier = 1 → Dwords.source d % 0x4000000 = 0 → e.cur.batons ≠
      0 → Dwords.source d + 0x4000000 * chunksOf e.cur.batons ≤ r.size → s.homeTaken (r.base + Dwords.source d)
      (0x4000000 * chunksOf e.cur.batons) = false → (∀ i, i < chunksOf e.cur.batons → s.mm.chunkFailed ((r.base +
      Dwords.source d) / 0x4000000 + i) = false) →
    ∃ t y k, exec (.objPublishNear c d) s = .next t ∧ t.rl.dir.find (Dwords.object d) = some y ∧
      y.cur = { e.cur with pinsNear := e.cur.pinsNear + 1 } ∧ t.rl.copies = s.rl.copies ++ [k] ∧ t.rl.copies.getLast? = some k ∧
      k.publish = true ∧ k.version = e.cur.num ∧ k.batons = e.cur.batons ∧
      k.base = r.base + Dwords.source d ∧ k.tag = s.jd.nextTag ∧ t.qe = (s.fetch c).qe ∧ t.mm = s.mm) ∧
  (∀ (c : CmdId) (d : Dwords) (x : List Byte) (s : State), s.serves c .job → (Dwords.object d = 0xFFFFFFFF ∨
      s.objClosed (Dwords.object d) = true ∨ s.objBusy (Dwords.object d) = false ∧ (∀ w ∈ s.rl.waiting, Dwords.object
      w.d ≠ Dwords.object d) ∧ s.region (Dwords.region d) = none ∧ ((s.rl.dir.find (Dwords.object d)).isSome = true ∨
      s.dirTaken < 262144)) → (s.objBusy (Dwords.object d) = false ∧ ∀ w ∈ s.rl.waiting, Dwords.object w.d ≠
      Dwords.object d) →
    ∃ t p, exec (.objPublishHost c d x) s = .next t ∧ Completed t c stInvalidField 0 0 [] ∧ t.rl = s.rl ∧
      t.jd.progress.head? = some p ∧ p.opcode = 0x87 ∧ p.status = stInvalidField ∧ p.c = c ∧ t.jd.jobs = s.jd.jobs) ∧
  (∀ (c : CmdId) (d : Dwords) (s : State), s.serves c .job → Dwords.object d ≠ 0xFFFFFFFF → s.objClosed
      (Dwords.object d) = false →
    ((∀ e, s.rl.dir.find (Dwords.object d) = some e → e.state = .home ∨ e.state = .evicting) →
      ∃ t p, exec (.objPublishNear c d) s = .next t ∧ Completed t c stInvalidField 0 0 [] ∧ t.rl = s.rl ∧
        t.jd.progress.head? = some p ∧ p.opcode = 0x87 ∧ p.status = stInvalidField ∧ p.c = c) ∧
    (∀ e, s.rl.dir.find (Dwords.object d) = some e → e.state = .promoting →
      ∃ t, exec (.objPublishNear c d) s = .next t ∧
        t.rl.dir.find (Dwords.object d) = some { e with waits := e.waits ++ [.publishNear c d] } ∧ c ∈ t.qe.fetched)) ∧
  (∀ (k : Copy) (q : ObjCmd) (s : State), s.relayRuns = true → s.rl.copies.find? (fun x => x.object == k.object &&
      x.publish) = some k → k.cmd = some q → q.src = 0 → s.oldDrains k.object = false → (∀ e, s.rl.dir.find k.object =
      some e → e.waits = []) → s.rl.waiting = [] → q.c ∈ s.qe.fetched →
    ∃ t y p, exec (.publishDone k.object) s = .next t ∧
      readCells 0 t.rl.far k.base (padTo (footprint k.batons) q.data).length = padTo (footprint k.batons) q.data ∧
      (∀ a, a < k.base ∨ (k.base + 0x4000000 * chunksOf k.batons ≤ a ∧ k.base + (padTo (footprint k.batons) q.data).length ≤ a) →
        readCell 0 t.rl.far a = readCell 0 s.rl.far a) ∧
      t.rl.dir.find k.object = some y ∧ y.state = .home ∧
      y.cur = Version.fresh (s.nextVer k.object) k.batons k.region none (.far k.base) ∧
      t.rl.copies = s.rl.copies.filter (fun x => !(x == k)) ∧ t.rl.near = s.rl.near ∧ t.mm.mediaWritten = s.mm.mediaWritten + 16384 * chunksOf k.batons ∧
      t.jd.progress.head? = some p ∧ p.tag = k.tag ∧ p.status = stOk ∧
      Completed t q.c stOk (s.nextVer k.object % 65536 * 65536) 0 []) ∧
  (∀ (k : Copy) (q : ObjCmd) (e : DirEntry) (s : State), s.relayRuns = true → s.rl.copies.find? (fun x => x.object
      == k.object && x.publish) = some k → k.cmd = some q → q.src = 3 → s.rl.dir.find k.object = some e → e.cur.num =
      k.version → s.rl.waiting = [] → q.c ∈ s.qe.fetched →
    ∃ t y p, exec (.publishDone k.object) s = .next t ∧
      readCells 0 t.rl.far k.base (s.nearCopy e.cur 0 (footprint k.batons)).length = s.nearCopy e.cur 0 (footprint k.batons) ∧
      t.rl.dir.find k.object = some y ∧ y.cur.home = .far k.base ∧ y.cur.near = e.cur.near ∧ y.cur.num = k.version ∧
      y.damaged = false ∧ y.state = e.state ∧ t.rl.copies = s.rl.copies.filter (fun x => !(x == k)) ∧ t.rl.near = s.rl.near ∧
      t.jd.progress.head? = some p ∧ p.tag = k.tag ∧ p.status = stOk ∧ Completed t q.c stOk (k.version % 65536 * 65536) 0 []) ∧
  (∀ (o : Nat) (r : CopyResult) (s : State),
    (s.relayRuns = false ∨ (∀ k ∈ s.rl.copies, k.object = o → k.publish = true) ∧
        (∀ e, s.rl.dir.find o = some e → e.state ≠ .promoting) → exec (.placeCopyDone o r) s = .next s) ∧
    (s.relayRuns = false ∨ (∀ k ∈ s.rl.copies, k.object = o → k.publish = false) ∨
        (∃ k q, s.rl.copies.find? (fun x => x.object == o && x.publish) = some k ∧ k.cmd = some q ∧ q.src = 0 ∧
          k.object = o ∧ s.oldDrains o = true) → exec (.publishDone o) s = .next s))

/-- OBJ_EVICT, OBJ_EVICT_DISCARD and PINS_REACH_ZERO. Statements name the object's entry; where another command waits for
the object its turn follows (State.nextObj). -/
def Obligations.Evictions : Prop :=
  (∀ (c : CmdId) (d : Dwords) (e : DirEntry) (s : State), s.serves c .job → s.rl.dir.find (Dwords.object d) = some
      e → e.segment = false → s.rl.waiting = [] → e.state = .resident → e.cur.home ≠ .none → e.cur.pins = 0 →
      e.discardPending = false → e.waits = [] →
    ∃ t y, exec (.objEvict c d) s = .next t ∧ t.rl.dir.find (Dwords.object d) = some y ∧
      y = { e with state := .home, cur := { e.cur with near := none }, evictPending := false, condemned := false } ∧ (∀ o, o ≠ Dwords.object d → t.rl.dir.find o = s.rl.dir.find o) ∧
      Completed t c stOk 0 0 [] ∧ t.rl.near = s.rl.near ∧ t.mm = s.mm ∧ t.jd = s.jd) ∧
  (∀ (c : CmdId) (d : Dwords) (e : DirEntry) (s : State), s.serves c .job → s.rl.dir.find (Dwords.object d) = some
      e → e.segment = false → s.rl.waiting = [] → e.state = .resident → e.cur.home ≠ .none → e.cur.pins ≠ 0 →
    ∃ t y, exec (.objEvict c d) s = .next t ∧ t.rl.dir.find (Dwords.object d) = some y ∧
      y = { e with state := .evicting, cur := e.cur.evictStarts, waits := e.waits ++ [.evict c false] } ∧ (∀ o, o ≠ Dwords.object d → t.rl.dir.find o = s.rl.dir.find o) ∧
      y.cur.pinsNear = e.cur.pins ∧ c ∈ t.qe.fetched ∧ t.rl.near = s.rl.near ∧
      t.jd.jobs = s.jd.jobs.map (fun j => { j with pins := j.pins.map (fun p =>
        if p.object = Dwords.object d ∧ p.version = e.cur.num then { p with near := true } else p) })) ∧
  (∀ (c : CmdId) (d : Dwords) (e : DirEntry) (s : State), s.serves c .job → s.rl.dir.find (Dwords.object d) = some
      e → e.segment = false → s.rl.waiting = [] → e.cur.home ≠ .none →
    (e.state = .promoting → ∃ t, exec (.objEvict c d) s = .next t ∧ t.rl.dir.find (Dwords.object d) =
      some { e with evictPending := true, waits := e.waits ++ [.evict c true] } ∧ c ∈ t.qe.fetched ∧ (∀ o, o ≠ Dwords.object d → t.rl.dir.find o = s.rl.dir.find o)) ∧
    (e.state = .evicting → ∃ t, exec (.objEvict c d) s = .next t ∧ t.rl.dir.find (Dwords.object d) =
      some { e with waits := e.waits ++ [.evict c e.joinsDeferred] } ∧ c ∈ t.qe.fetched ∧ (∀ o, o ≠ Dwords.object d → t.rl.dir.find o = s.rl.dir.find o))) ∧
  (∀ (c : CmdId) (d : Dwords) (e : DirEntry) (s : State), s.serves c .job → s.rl.dir.find (Dwords.object d) = some
      e → e.segment = false → s.rl.waiting = [] → e.state = .home → e.cur.home ≠ .none →
    exec (.objEvict c d) s = .next (s.answered c stOk 3 0 [])) ∧
  (∀ (c : CmdId) (d : Dwords) (s : State), s.serves c .job → s.rl.dir.find (Dwords.object d) = none →
    exec (.objEvict c d) s = .next (s.answered c stOk 3 0 []) ∧
    exec (.objEvictDiscard c d) s = .next (s.answered c stOk 3 0 [])) ∧
  (∀ (c : CmdId) (d : Dwords) (e : DirEntry) (s : State), s.serves c .job → s.rl.dir.find (Dwords.object d) = some
      e →
    (e.segment = true ∨ e.cur.home = .none → exec (.objEvict c d) s = .next (s.answered c stInvalidField 0 0 [])) ∧
    (e.segment = true → exec (.objEvictDiscard c d) s = .next (s.answered c stInvalidField 0 0 []))) ∧
  (∀ (c : CmdId) (d : Dwords) (e : DirEntry) (s : State), s.serves c .job → s.rl.dir.find (Dwords.object d) = some
      e → e.segment = false → s.rl.waiting = [] → e.state ≠ .promoting → e.cur.pins = 0 ∧ e.old = none → e.waits = []
      →
    ∃ t, exec (.objEvictDiscard c d) s = .next t ∧ t.rl.dir.find (Dwords.object d) = none ∧ (∀ o, o ≠ Dwords.object d → t.rl.dir.find o = s.rl.dir.find o) ∧
      Completed t c stOk 0 0 [] ∧ t.rl.far = s.rl.far ∧ t.rl.near = s.rl.near ∧ t.mm = s.mm) ∧
  (∀ (c : CmdId) (d : Dwords) (e : DirEntry) (s : State), s.serves c .job → s.rl.dir.find (Dwords.object d) = some
      e → e.segment = false → s.rl.waiting = [] → e.cur.pins ≠ 0 ∨ e.old.isSome = true →
    (e.state = .resident → ∃ t y, exec (.objEvictDiscard c d) s = .next t ∧ t.rl.dir.find (Dwords.object d) = some y ∧
      y = { e with state := .evicting, cur := e.cur.evictStarts, discardPending := true, waits := e.waits ++ [.evict c false] } ∧
      c ∈ t.qe.fetched ∧ (∀ o, o ≠ Dwords.object d → t.rl.dir.find o = s.rl.dir.find o)) ∧
    (e.state = .evicting ∨ e.state = .home → ∃ t, exec (.objEvictDiscard c d) s = .next t ∧ t.rl.dir.find (Dwords.object d) =
      some { e with discardPending := true, waits := e.waits ++ [.evict c e.joinsDeferred] } ∧ c ∈ t.qe.fetched ∧ (∀ o, o ≠ Dwords.object d → t.rl.dir.find o = s.rl.dir.find o)) ∧
    (e.state = .promoting → ∃ t, exec (.objEvictDiscard c d) s = .next t ∧ t.rl.dir.find (Dwords.object d) =
      some { e with evictPending := true, discardPending := true, waits := e.waits ++ [.evict c true] } ∧ c ∈ t.qe.fetched ∧ (∀ o, o ≠ Dwords.object d → t.rl.dir.find o = s.rl.dir.find o))) ∧
  (∀ (o : Nat) (c : CmdId) (p : Bool) (e : DirEntry) (s : State), s.relayRuns = true → s.rl.dir.find o = some e →
      e.state = .evicting → e.cur.pinsNear = 0 → e.condemned = false → e.waits = [.evict c p] → s.rl.waiting = [] → c
      ∈ s.qe.fetched →
    (e.discardPending = false → e.cur.home ≠ .none →
      ∃ t y, exec (.pinsReachZero o e.cur.num) s = .next t ∧ t.rl.dir.find o = some y ∧
        y = { e with state := .home, cur := { e.cur with near := none }, evictPending := false, waits := [] } ∧
        Completed t c stOk (b2n p) 0 [] ∧ (∀ x, x ≠ o → t.rl.dir.find x = s.rl.dir.find x)) ∧
    (e.discardPending = true → e.idle = true →
      ∃ t, exec (.pinsReachZero o e.cur.num) s = .next t ∧ t.rl.dir.find o = none ∧ Completed t c stOk (b2n p) 0 [] ∧
        (∀ x, x ≠ o → t.rl.dir.find x = s.rl.dir.find x)) ∧
    (e.discardPending = true → e.idle = false → e.cur.home ≠ .none →
      ∃ t y, exec (.pinsReachZero o e.cur.num) s = .next t ∧ t.rl.dir.find o = some y ∧
        y = { e with state := .home, cur := { e.cur with near := none } } ∧ c ∈ t.qe.fetched)) ∧
  (∀ (o : Nat) (e : DirEntry) (v : Version) (s : State), s.relayRuns = true → s.rl.dir.find o = some e → e.old =
      some v → v.num ≠ e.cur.num → v.pins = 0 → e.state ≠ .evicting ∧ e.discardPending = false → e.waits = [] →
      s.rl.waiting = [] →
    ∃ t, exec (.pinsReachZero o v.num) s = .next t ∧ t.rl.dir.find o = some { e with old := none } ∧
      (∀ p, p ≠ o → t.rl.dir.find p = s.rl.dir.find p) ∧ t = { s with rl := { s.rl with dir := t.rl.dir } }) ∧
  (∀ (o : Nat) (e : DirEntry) (s : State), s.relayRuns = true → s.rl.dir.find o = some e → e.condemned = true →
      e.cur.pins = 0 → e.waits = [] → e.discardPending = false → s.rl.waiting = [] →
    (e.cur.home ≠ .none → ∃ t y, exec (.pinsReachZero o e.cur.num) s = .next t ∧ t.rl.dir.find o = some y ∧
      y = { e with state := .home, cur := { e.cur with near := none }, evictPending := false, condemned := false } ∧ t.qe = s.qe) ∧
    (e.cur.home = .none → ∃ t, exec (.pinsReachZero o e.cur.num) s = .next t ∧ t.rl.dir.find o = none ∧ t.qe = s.qe)) ∧
  (∀ (o v : Nat) (s : State), (s.relayRuns = false ∨ s.rl.dir.find o = none ∨ ∃ e, s.rl.dir.find o = some e ∧
      (e.cur.num = v ∧ e.condemned = false ∧ (e.state = .resident ∨ e.state = .promoting ∨ e.state = .evicting ∧
      e.cur.pinsNear ≠ 0) ∨ e.cur.num ≠ v ∧ (∀ w, e.old = some w → w.num ≠ v ∨ w.pins ≠ 0))) →
    exec (.pinsReachZero o v) s = .next s)

/-- STRUCTURE_LOAD_STAGE, STRUCTURE_LOAD_APPLY, STRUCTURE_LOAD_DISCARD and APPLY_VERIFY_DONE. -/
def Obligations.ImageStagingAndVerification : Prop :=
  (∀ (c : CmdId) (d : Dwords) (x : List Byte) (s : State), s.serves c .stage → s.slBusy = false → loadOpOk d = true
      → d.d11.toNat % 4 = 0 → 4 * (d.d12.toNat + 1) ≤ 0x200000 → d.d11.toNat + 4 * (d.d12.toNat + 1) ≤ 33554432 →
    ∃ t, exec (.structureLoadStage c d x) s = .next t ∧
      readCells 0 t.sl.stage d.d11.toNat (4 * (d.d12.toNat + 1)) = padTo (4 * (d.d12.toNat + 1)) x ∧
      (∀ a, a < d.d11.toNat ∨ d.d11.toNat + 4 * (d.d12.toNat + 1) ≤ a → readCell 0 t.sl.stage a = readCell 0 s.sl.stage a) ∧
      t = { s.answered c stOk 0 0 [] with sl := { s.sl with
        stage := t.sl.stage, stageLen := max s.sl.stageLen (d.d11.toNat + 4 * (d.d12.toNat + 1)) } }) ∧
  (∀ (c : CmdId) (d : Dwords) (x : List Byte) (s : State), s.serves c .stage → s.slBusy = false → loadOpOk d =
      false ∨ d.d11.toNat % 4 ≠ 0 ∨ 0x200000 < 4 * (d.d12.toNat + 1) ∨ 33554432 < d.d11.toNat + 4 * (d.d12.toNat + 1)
      →
    exec (.structureLoadStage c d x) s = .next (s.answered c stInvalidField 0 0 [])) ∧
  (∀ (c : CmdId) (d : Dwords) (x : List Byte) (s : State), s.serves c .stage → s.slBusy = true →
    exec (.structureLoadStage c d x) s = .next (s.answered c stSequence 0 0 []) ∧
    exec (.structureLoadDiscard c d) s = .next (s.answered c stSequence 0 0 [])) ∧
  (∀ (c : CmdId) (d : Dwords) (s : State), s.serves c .manage → s.slBusy = true ∨ s.sl.persist.isSome = true →
    exec (.structureLoadApply c d) s = .next (s.answered c stSequence 0 0 [])) ∧
  (∀ (c : CmdId) (d : Dwords) (s : State), s.serves c .stage → s.slBusy = false → loadOpOk d = true →
    exec (.structureLoadDiscard c d) s =
      .next { s.answered c stOk 0 0 [] with sl := { s.sl with stage := [], stageLen := 0 } }) ∧
  (∀ (c : CmdId) (d : Dwords) (s : State), s.serves c .manage → s.slBusy = false → s.sl.persist = none → loadOpOk d
      = true →
    exec (.structureLoadApply c d) s = .next { s with
      qe := (s.fetch c).qe
      sl := { s.sl with load := some (s.loadBegun c d) } }) ∧
  (∀ (c : CmdId) (d : Dwords) (s : State), s.serves c .manage → s.slBusy = false → s.sl.persist = none → loadOpOk d
      = false →
    exec (.structureLoadApply c d) s = .next (s.answered c stInvalidField 0 0 [])) ∧
  (∀ (l : Load) (next : SquadSet) (s : State), s.inGo = true → s.sl.load = some l → l.step = .verify →
      (s.sw.ownerKeys.find (imKey l.image)).isSome = true → verifyImage s.sl.set_ s.sl.gen s.qe.versions.image false
      true l.image = .inr next →
    ∃ t k, exec (.applyVerifyDone true) s = .next t ∧ t.sl.load = some k ∧ k.step = .drain ∧ k.c = l.c ∧ k.image = l.image ∧
      k.force = l.force ∧ k.persist = l.persist ∧ k.fresh = freshIn s.sl.set_ next ∧ k.removed = removedIn s.sl.set_ next ∧
      k.changed = changedIn s.sl.set_ next (imFormat l.image == 5 && imPartial l.image) (imNamed l.image) ∧
      t.sl.gen = s.sl.gen ∧ t.sl.set_.regions = s.sl.set_.regions ∧ t.sl.set_.routes = s.sl.set_.routes ∧
      (∀ n, n ∈ k.changed ++ k.removed → s.fenced n = false →
        t.squadOf n = (s.squadOf n).map (fun (q : Squad) => { q with state := .draining })) ∧
      (∀ n, n ∉ k.changed ++ k.removed ∨ s.fenced n = true → t.squadOf n = s.squadOf n) ∧
      (∀ n q i, l.force = true → n ∈ k.changed ++ k.removed → s.squadOf n = some q → i ∈ q.tiles →
        (t.tile i).lane = [] ∧ (t.tile i).queue = [] ∧ (t.tile i).flight = [])) ∧
  (∀ (l : Load) (next : SquadSet) (s : State), s.inGo = true → s.sl.load = some l → l.step = .verify →
      (s.sw.ownerKeys.find (imKey l.image)).isSome = true → verifyImage s.sl.set_ s.sl.gen s.qe.versions.image false
      true l.image = .inr next → removedIn s.sl.set_ next = [] → changedIn s.sl.set_ next (imFormat l.image == 5 &&
      imPartial l.image) (imNamed l.image) = [] →
    ∃ k, exec (.applyVerifyDone true) s = .next { s with
        sl := { s.sl with load := some k, drainBeats := 0, drainSlow := false } } ∧
      k = { l with step := .drain, next := k.next, fresh := freshIn s.sl.set_ next }) ∧
  (∀ (g : Bool) (l : Load) (f : LoadFail) (s : State), s.inGo = true → s.sl.load = some l → l.step = .verify →
      verifyImage s.sl.set_ s.sl.gen s.qe.versions.image false (g && (s.sw.ownerKeys.find (imKey l.image)).isSome)
      l.image = .inl f → f.1 ≠ 3 → l.c ∈ s.qe.fetched →
    ∃ t, exec (.applyVerifyDone g) s = .next t ∧ t.sl = { s.sl with
        lastResult := f.1, loadCode := f.1, loadSect := f.2.1, loadEntry := f.2.2, load := none, stage := [], stageLen := 0
        event := setEv s.sl.event 1 } ∧
      Completed t l.c (if f.1 = 2 then stVersion else stInvalidField) 0 0 [] ∧ t = { s with qe := t.qe, sl := t.sl }) ∧
  (∀ (l : Load) (s : State), s.inGo = true → s.sl.load = some l → l.step = .verify → checkHeader l.image = true →
      formatOk s.qe.versions.image false l.image = true → l.c ∈ s.qe.fetched → s.ntAll = true →
    ∃ t, exec (.applyVerifyDone false) s = .next t ∧ RecordWritten s t srcSE kSigVerify 0 0 0 0 0 0 ∧ t.sl.lastResult = 3 ∧
      t.sl.load = none ∧ t.sl.set_ = s.sl.set_ ∧ t.sl.gen = s.sl.gen ∧ t.se.failCnt = sat32 (s.se.failCnt + 1) ∧
      t.sl.stageLen = 0 ∧ Completed t l.c stInvalidField 0 0 []) ∧
  (∀ (g : Bool) (s : State), s.inGo = false ∨ s.sl.load.map Load.step ≠ some .verify →
    exec (.applyVerifyDone g) s = .next s)

/-- APPLY_CONFIGURE, PERSIST_DONE, SQUAD_RETIRE, SQUAD_RETIRE_FORCE, DRAIN_COMPLETE, DRAIN_SLOW and TILE_SWEEP_DONE. -/
def Obligations.AppliesRetiresAndSweeps : Prop :=
  (∀ (l : Load) (s : State), s.inGo = true → s.sl.load = some l → l.step = .drain → (∀ n ∈ l.changed ++ l.removed,
      s.drainedAtBeat n = true) →
    ∃ t, exec .applyConfigure s = .next t ∧ t.sl.gen = s.sl.gen + 1 ∧ t.sl.imageId = BitVec.ofNat 64 (imId l.image) ∧
      t.sl.format = imFormat l.image ∧ t.se.measure = sha256 (s.se.measure ++ sha256 (l.image.take (imSigOff l.image))) ∧
      t.sl.set_.routes = l.next.routes ∧ t.sl.set_.regions = l.next.regions ∧ t.sl.set_.bindings = l.next.bindings ∧
      (∀ n, l.next.squads.find n = none → t.squadOf n = none) ∧
      (∀ n q, n ∈ l.fresh ++ l.changed → l.next.squads.find n = some q →
        t.squadOf n = some { q with state := .starting } ∨ t.squadOf n = some { q with state := .active }) ∧
      (∀ n q o, n ∉ l.fresh ++ l.changed → l.next.squads.find n = some q → s.squadOf n = some o → o.state ≠ .starting →
        t.squadOf n = some { q with state := o.state })) ∧
  (∀ (l : Load) (m : Nat) (q : Squad) (n : Nat) (s : State), s.inGo = true → s.sl.load = some l → l.step = .drain →
      l.changed = [] → l.removed = [] → l.fresh = [m] → l.next.squads = [(m, q)] → n ∈ q.tiles → s.squadOf m = none →
      (∀ e ∈ s.tiles, e.2.squad ≠ some m) →
    ∃ t, exec .applyConfigure s = .next t ∧ t.squadOf m = some { q with state := .starting } ∧
      t.sl.load = some { l with step := .sweep } ∧
      (∀ i, i ∈ q.tiles → (t.tile i).squad = some m ∧ (t.tile i).swept = false) ∧
      (∀ i, i ∉ q.tiles → (t.tile i).lane = (s.tile i).lane ∧ (t.tile i).swept = (s.tile i).swept)) ∧
  (∀ (l : Load) (s : State), s.inGo = true → s.sl.load = some l → l.step = .drain → l.changed = [] → l.removed = []
      → l.fresh = [] → l.next = s.sl.set_ → (∀ e ∈ s.sl.set_.squads, e.2.state = .active ∧ e.2.tiles = []) → l.retires
      = [] → l.c ∈ s.qe.fetched →
    ∃ t, exec .applyConfigure s = .next t ∧ t.sl.gen = s.sl.gen + 1 ∧ t.sl.load = none ∧ t.sl.lastResult = 0 ∧
      t.sl.event = setEv s.sl.event 0 ∧ t.sl.stageLen = 0 ∧ t.sl.set_ = s.sl.set_ ∧
      (l.persist = true → t.sl.persist = some l.image) ∧ (l.persist = false → t.sl.persist = s.sl.persist) ∧
      Completed t l.c stOk ((s.sl.gen + 1) % 2 ^ 31) 0 []) ∧
  (∀ (s : State), (s.inGo = false ∨ s.sl.load.map Load.step ≠ some .drain ∨ (∃ l n, s.sl.load = some l ∧ n ∈
      l.changed ++ l.removed ∧ s.drainedAtBeat n = false)) →
    exec .applyConfigure s = .next s) ∧
  (∀ (img : List Byte) (s : State), s.sl.persist = some img → img.length ≤ 33554432 →
    ∃ t, exec (.persistDone true) s = .next t ∧
      t.sw.bytes (bootSlotAddr (if s.sw.bootLog.selector = 0 then 1 else 0)) img.length = img ∧ t.sl.persist = none ∧
      t.sl.event = setEv s.sl.event 4 ∧ t.sl.set_ = s.sl.set_ ∧ t.sl.gen = s.sl.gen ∧ t.mm = s.mm ∧ t.jd = s.jd) ∧
  (∀ (img : List Byte) (s : State), s.sl.persist = some img →
    ∃ t, exec (.persistDone false) s = .next t ∧
      t.sl = { s.sl with persist := none, lastResult := 0x0B, event := setEv s.sl.event 5 } ∧
      t = { s with tick := t.tick, sl := t.sl, sw := t.sw }) ∧
  (∀ (ok : Bool) (s : State), s.sl.persist = none →
    exec (.persistDone ok) s = .next s) ∧
  (∀ (c : CmdId) (d : Dwords) (q : Squad) (s : State), s.serves c .manage → s.slBusy = false → bitW d.d10 8 = false
      → s.squadOf (bitsW d.d10 5 0) = some q → q.state ≠ .fenced → s.jobsOf (bitsW d.d10 5 0) = [] → s.seqsOn (bitsW
      d.d10 5 0) = [] →
    ∃ t, exec (.squadRetire c d) s = .next t ∧
      t.sl.retire = some { cs := [c], squad := bitsW d.d10 5 0, force := false, drained := 0, aborted := 0 } ∧
      t.squadOf (bitsW d.d10 5 0) = some { q with state := .draining } ∧
      (∀ n, n ≠ bitsW d.d10 5 0 → t.squadOf n = s.squadOf n) ∧ c ∈ t.qe.fetched ∧ t.sl.gen = s.sl.gen ∧ t.rl = s.rl ∧
      t.mm = s.mm ∧ t.tiles = s.tiles) ∧
  (∀ (c : CmdId) (d : Dwords) (q : Squad) (s : State), s.serves c .manage → s.slBusy = false → s.squadOf (bitsW
      d.d10 5 0) = some q → q.state ≠ .fenced → s.jobsOf (bitsW d.d10 5 0) = [] → s.seqsOn (bitsW d.d10 5 0) = [] →
    ∃ t, exec (.squadRetireForce c d) s = .next t ∧
      t.sl.retire = some { cs := [c], squad := bitsW d.d10 5 0, force := true, drained := 0, aborted := 0 } ∧
      t.squadOf (bitsW d.d10 5 0) = some { q with state := .draining } ∧
      (∀ n, n ≠ bitsW d.d10 5 0 → t.squadOf n = s.squadOf n) ∧ c ∈ t.qe.fetched ∧ t.sl.gen = s.sl.gen ∧
      (∀ n, n ∈ q.tiles → (t.tile n).lane = [] ∧ (t.tile n).flight = [] ∧ (t.tile n).queue = [] ∧ (t.tile n).credits = []) ∧
      (∀ n, n ∉ q.tiles → t.tile n = s.tile n)) ∧
  (∀ (c : CmdId) (d : Dwords) (q : Squad) (s : State), s.serves c .manage → s.slBusy = false → s.squadOf (bitsW
      d.d10 5 0) = some q → q.state = .fenced → s.jobsOf (bitsW d.d10 5 0) = [] → s.seqsOn (bitsW d.d10 5 0) = [] →
    ∃ t, exec (.squadRetire c d) s = .next t ∧
      t.sl.retire = some { cs := [c], squad := bitsW d.d10 5 0, force := true, drained := 0, aborted := 0 } ∧
      (∀ n, t.squadOf n = s.squadOf n) ∧ c ∈ t.qe.fetched ∧ t.sl.gen = s.sl.gen ∧
      (∀ n, n ∈ q.tiles → (t.tile n).lane = [] ∧ (t.tile n).flight = [] ∧ (t.tile n).queue = [])) ∧
  (∀ (c : CmdId) (d : Dwords) (s : State), bitW d.d10 8 = true →
    exec (.squadRetire c d) s = exec (.squadRetireForce c d) s) ∧
  (∀ (c : CmdId) (d : Dwords) (r : Retire) (s : State), s.serves c .manage → s.sl.retire = some r → r.squad = bitsW
      d.d10 5 0 → s.jobsOf (bitsW d.d10 5 0) = [] → s.seqsOn (bitsW d.d10 5 0) = [] → s.sl.load = none →
    ∃ t, exec (.squadRetireForce c d) s = .next t ∧ t.sl.retire = some { r with cs := r.cs ++ [c], force := true } ∧
      c ∈ t.qe.fetched ∧ (∀ n, t.squadOf n = s.squadOf n)) ∧
  (∀ (c : CmdId) (d : Dwords) (s : State), s.serves c .manage → s.slBusy = true →
    (bitW d.d10 8 = false → exec (.squadRetire c d) s = .next (s.answered c stSequence 0 0 [])) ∧
    (s.sl.retire.map Retire.squad ≠ some (bitsW d.d10 5 0) → s.applyDrains (bitsW d.d10 5 0) = false →
      exec (.squadRetireForce c d) s = .next (s.answered c stSequence 0 0 []))) ∧
  (∀ (c : CmdId) (d : Dwords) (s : State), s.serves c .manage → s.slBusy = false → s.squadOf (bitsW d.d10 5 0) =
      none →
    exec (.squadRetire c d) s = .next (s.answered c stInvalidField 0 0 []) ∧
    exec (.squadRetireForce c d) s = .next (s.answered c stInvalidField 0 0 [])) ∧
  (∀ (c : CmdId) (r : Retire) (s : State), s.inGo = true → s.sl.retire = some r → s.drainedAtBeat r.squad = true ∨
      r.force = false ∧ s.drained r.squad = true → (∀ e ∈ s.sl.set_.squads, e.2.state ≠ .starting) → s.sl.load = none
      → (∀ e ∈ s.rl.dir, e.2.waits = []) → r.cs = [c] → c ∈ s.qe.fetched → s.jobsOf r.squad = [] →
    ∃ t, exec (.drainComplete r.squad) s = .next t ∧ t.squadOf r.squad = none ∧
      (∀ n, n ≠ r.squad → t.squadOf n = s.squadOf n) ∧ t.sl.gen = s.sl.gen ∧ t.sl.retire = none ∧
      t.sl.set_.regions = s.sl.set_.regions.filter (fun x => x.owner != r.squad) ∧
      t.sl.set_.routes = s.sl.set_.routes.filter (fun x => x.squad != r.squad && !(x.destKind == 0 && x.dest == r.squad)) ∧
      t.sl.event = setEv s.sl.event 2 ∧ (∀ n, (s.tile n).squad = some r.squad → (t.tile n).squad = none) ∧
      Completed t c stOk (sat16 r.drained + 65536 * sat16 r.aborted) 0 []) ∧
  (∀ (c : CmdId) (r : Retire) (j : Job) (s : State), s.inGo = true → s.sl.retire = some r → s.drainedAtBeat r.squad
      = true ∨ r.force = false ∧ s.drained r.squad = true → (∀ e ∈ s.sl.set_.squads, e.2.state ≠ .starting) →
      s.sl.load = none → (∀ e ∈ s.rl.dir, e.2.waits = []) → r.cs = [c] → c ∈ s.qe.fetched → j.c ∈ s.qe.fetched → j.c ≠
      c → s.jd.jobs = [j] → j.squad = r.squad → j.state = .queued → s.fenced r.squad = false → j.pins = [] →
    ∃ t, exec (.drainComplete r.squad) s = .next t ∧ t.jd.jobs = [] ∧ t.squadOf r.squad = none ∧ t.sl.retire = none ∧
      Completed t j.c stDraining 0 0 [] ∧ Completed t c stOk (sat16 (r.drained + 1) + 65536 * sat16 r.aborted) 0 []) ∧
  (∀ (n : Nat) (s : State), s.inGo = true → s.sl.retire = none → s.applyDrains n = true → s.drained n = true →
    exec (.drainComplete n) s = .next { s with sl := { s.sl with event := setEv s.sl.event 2 } }) ∧
  (∀ (n : Nat) (s : State), (s.inGo = false ∨ s.drained n = false ∨ s.sl.retire = none ∧ s.applyDrains n = false ∨
      (∃ r, s.sl.retire = some r ∧ (r.squad ≠ n ∨ r.force = true ∧ s.drainedAtBeat n = false))) →
    exec (.drainComplete n) s = .next s) ∧
  (∀ (s : State), s.sl.retire.isSome = true ∨ (s.sl.load.map Load.step) = some .drain → s.sl.timeout ≠ 0 →
      s.sl.timeout ≤ s.sl.drainBeats → s.sl.drainSlow = false →
    exec .drainSlow s = .next { s with sl := { s.sl with drainSlow := true, event := setEv s.sl.event 3 } }) ∧
  (∀ (s : State), (s.sl.retire = none ∧ (s.sl.load.map Load.step) ≠ some .drain) ∨ s.sl.timeout = 0 ∨
      s.sl.drainBeats < s.sl.timeout ∨ s.sl.drainSlow = true →
    exec .drainSlow s = .next s) ∧
  (∀ (n : Nat) (s : State), n < 1024 → s.power.tileSupply = true → s.vendorLive = true → s.qe.ps < 2 ∨ s.mc.phase =
      .blocks → (s.tile n).swept = false → s.sl.load = none → (∀ e ∈ s.sl.set_.squads, e.2.state ≠ .starting) →
    ∃ t, exec (.tileSweepDone n) s = .next t ∧
      t.tile n = { Tile.reset with
        swept := true, squad := (s.tile n).squad, corrCnt := (s.tile n).corrCnt, uncorrCnt := (s.tile n).uncorrCnt,
        stall := (s.tile n).stall, lmAddr := (s.tile n).lmAddr, lmStatus := (s.tile n).lmStatus } ∧
      (∀ m, m ≠ n → t.tile m = s.tile m) ∧ t = { s with tiles := t.tiles }) ∧
  (∀ (n : Nat) (s : State), 1024 ≤ n ∨ s.power.tileSupply = false ∨ s.vendorLive = false ∨ (s.tile n).swept = true
      ∨ 2 ≤ s.qe.ps ∧ s.mc.phase ≠ .blocks →
    exec (.tileSweepDone n) s = .next s) ∧
  (∀ (n m : Nat) (q : Squad) (l : Load) (s : State), n < 1024 → s.power.tileSupply = true → s.vendorLive = true →
      s.qe.ps < 2 → (s.tile n).swept = false → s.sl.set_.squads = [(m, q)] → q.state = .starting → (∀ i ∈ q.tiles, i =
      n ∨ (s.tile i).swept = true) → s.sl.load = some l → l.step = .sweep → l.retires = [] → l.c ∈ s.qe.fetched →
    ∃ t, exec (.tileSweepDone n) s = .next t ∧ t.squadOf m = some { q with state := .active } ∧ t.sl.load = none ∧
      Completed t l.c stOk (s.sl.gen % 2 ^ 31) 0 [])

/-- MATMUL, XORPOP, REDUCE of one tile, ELTWISE, ELTWISE QUANT, FILTER, TOPK and STATS. Where the spec fixes no value (the
sign of an FP32 NaN, an integer result outside its format) the stored element is free (assumption entry 1). -/
def Obligations.TileArithmetic : Prop :=
  (∀ (n m : Nat) (d : List Byte) (q : Squad) (s : State), s.tileIssues n d m q → opKind d = 0x01 → opWfmt q d = 1 →
      byteAt d 37 = 0 → byteAt d 38 = 0 → 256 ≤ u32At d 28 →
    ∃ t, exec (.matmul n d) s = .next t ∧
      (∀ i, i < u16At d 32 → ∀ c, c < 64 → u32At (readCells 0 (t.tile n).lane (u32At d 24 + i * u32At d 28) 256) (4 * c) =
        wrapZ 32 (clampZ (-2147483648) 2147483647 ((List.range (16 * byteAt d 34)).map (fun k =>
          signedN 8 (((s.tile n).latches.getD (byteAt d 36) Latch.reset).data.getD
            (1024 * (byteAt d 35 + k / 16) + 64 * (k % 16) + c) 0).toNat *
          signedN 8 (readCell 0 (s.tile n).lane (u32At d 16 + i * u32At d 20 + k)).toNat)).sum)) ∧
      (∀ a, (∀ i, i < u16At d 32 → a < u32At d 24 + i * u32At d 28 ∨ u32At d 24 + i * u32At d 28 + 256 ≤ a) →
        readCell 0 (t.tile n).lane a = readCell 0 (s.tile n).lane a) ∧
      RunsOn s t n d (s.tile n) ∧ (∀ i, i ≠ n → t.tile i = s.tile i) ∧ t = { s with tiles := t.tiles, tick := t.tick }) ∧
  (∀ (n m : Nat) (d : List Byte) (q : Squad) (s : State), s.tileIssues n d m q → opKind d = 0x01 → 64 * mmSize
      (byteAt d 37) ≤ u32At d 28 →
    ∃ t, exec (.matmul n d) s = .next t ∧
      (∀ i, i < u16At d 32 → readCells 0 (t.tile n).lane (u32At d 24 + i * u32At d 28) (64 * mmSize (byteAt d 37)) =
        (s.mmRowAt m n q d (t.tile n).scale i).flatMap (fun (x : Nat × W32) => leBytes x.1 (mmSize (byteAt d 37)))) ∧
      (∀ a, (∀ i, i < u16At d 32 → a < u32At d 24 + i * u32At d 28 ∨ u32At d 24 + i * u32At d 28 + 64 * mmSize (byteAt d 37) ≤ a) →
        readCell 0 (t.tile n).lane a = readCell 0 (s.tile n).lane a) ∧
      (t.tile n).scale = (if byteAt d 37 = 0 then (s.tile n).scale
        else (((s.tile n).latches.getD (byteAt d 36) Latch.reset).shadow).getD (s.tile n).scale) ∧
      (t.tile n).amax = (if bitN (byteAt d 38) 1 then (List.range (u16At d 32)).foldl (fun am i =>
          foldAmax am ((s.mmRowAt m n q d (t.tile n).scale i).map Prod.snd)) (s.tile n).amax
        else (s.tile n).amax) ∧
      RunsOn s t n d { s.tile n with scale := (t.tile n).scale, amax := (t.tile n).amax } ∧ (∀ i, i ≠ n → t.tile i = s.tile i) ∧ t = { s with tiles := t.tiles, tick := t.tick }) ∧
  (∀ (n m : Nat) (d : List Byte) (q : Squad) (s : State), s.tileIssues n d m q → opKind d = 0x02 → byteAt d 32 = 0
      →
    ∃ t, exec (.xorpop n d) s = .next t ∧
      (∀ i, i < byteAt d 30 → ∀ j, j < u16At d 24 →
        u16At (readCells 0 (t.tile n).lane (u32At d 20) (2 * (byteAt d 30 * u16At d 24))) (2 * (i * u16At d 24 + j)) =
        hamming (codeAt (u16At d 28) (fun k => ((s.tile n).latches.getD (byteAt d 31) Latch.reset).data.getD k 0) (u16At d 26 + j))
          (readCells 0 (s.tile n).lane (u32At d 16 + i * (u16At d 28 / 8)) (u16At d 28 / 8)) (u16At d 28)) ∧
      (∀ a, a < u32At d 20 ∨ u32At d 20 + 2 * (byteAt d 30 * u16At d 24) ≤ a → readCell 0 (t.tile n).lane a = readCell 0 (s.tile n).lane a) ∧
      RunsOn s t n d (s.tile n) ∧ (∀ i, i ≠ n → t.tile i = s.tile i) ∧ t = { s with tiles := t.tiles, tick := t.tick }) ∧
  (∀ (n m : Nat) (d : List Byte) (q : Squad) (i c k : Nat) (x : Ctx) (s : State), s.tileIssues n d m q → opKind d =
      0x02 → byteAt d 32 = 1 → (ctxMap d)[i]? = some c → (s.tile n).ctxs.find c = some x → s.feeds n d x k → (∃ b z,
      (s.tile n).ctxs.find b = some z ∧ z.state = 2) →
    ∃ t y, exec (.xorpop n d) s = .next t ∧ (t.tile n).ctxs.find c = some y ∧ y.seen = x.seen + u16At d 24 ∧
      y.left = x.leftAfter k (u16At d 24) ∧ y.wants = x.wants.filter (fun w => w != k) ∧
      y.state = (if x.state = 2 ∨ x.state = 3 ∧ x.wants ≠ some k then x.state else 1) ∧
      y.held ≤ max x.held x.k ∧ y.exhausted = (y.left.isEmpty && decide (y.held < x.k)) ∧
      y = { x with
        held := y.held, worst := y.worst, left := y.left, seen := y.seen, state := y.state, wants := y.wants
        next := y.next, exhausted := y.exhausted } ∧
      (∀ b, b ∉ ctxMap d → (t.tile n).ctxs.find b = (s.tile n).ctxs.find b) ∧
      (∀ a, (∀ b z, b ∈ ctxMap d → (s.tile n).ctxs.find b = some z → a < z.heapAddr ∨ z.heapAddr + 16 * max z.held z.k ≤ a) →
        readCell 0 (t.tile n).lane a = readCell 0 (s.tile n).lane a) ∧
      RunsOn s t n d { s.tile n with ctxs := (t.tile n).ctxs } ∧
      (∀ i, i ≠ n → t.tile i = s.tile i) ∧ t = { s with tiles := t.tiles, tick := t.tick }) ∧
  (∀ (n m : Nat) (d : List Byte) (q : Squad) (c k : Nat) (x : Ctx) (s : State), s.tileIssues n d m q → opKind d =
      0x02 → byteAt d 32 = 1 → ctxMap d = [c] → (s.tile n).ctxs.find c = some x → s.feeds n d x k → x.held ≤ x.k →
    ∃ t y, exec (.xorpop n d) s = .next t ∧ (t.tile n).ctxs.find c = some y ∧ ((t.tile n).heap y).length = y.held ∧
      (∀ e ∈ (t.tile n).heap y, e ∈ (s.tile n).heap x ∨
        ∃ j, j < u16At d 24 ∧ e.dist = (s.distances n d 0).getD j 0 ∧ e.dist ≤ x.maxDist) ∧
      (∀ j, j < u16At d 24 → s.codeComes n d x 0 j →
        (∃ e ∈ (t.tile n).heap y, e.dist = (s.distances n d 0).getD j 0) ∨
        y.held = x.k ∧ ∀ e ∈ (t.tile n).heap y, e.dist ≤ (s.distances n d 0).getD j 0) ∧
      y.next = s.nextProbe (s.tile n) y ∧
      (y.held = x.k → y.worst = ((t.tile n).heap y).foldl (fun a e => max a e.dist) 0)) ∧
  (∀ (n m : Nat) (d : List Byte) (q : Squad) (c : Nat) (x : Ctx) (s : State), s.tileIssues n d m q → opKind d =
      0x02 → byteAt d 32 = 1 → (s.tile n).ctxs.find c = some x → (∀ k, ¬ s.feeds n d x k) → (∃ b z, (s.tile
      n).ctxs.find b = some z ∧ z.state = 2) →
    ∃ t, exec (.xorpop n d) s = .next t ∧ (t.tile n).ctxs.find c = some x ∧ RunsOn s t n d { s.tile n with ctxs := (t.tile n).ctxs }) ∧
  (∀ (n m : Nat) (d : List Byte) (q : Squad) (s : State), s.tileIssues n d m q → opKind d = 0x03 → byteAt d 30 = 0
      → byteAt d 28 = 0 → byteAt d 29 = 0 → -2147483648 ≤ ((List.range (u32At d 24)).map (fun j => signedN 32 (u32At
      (readCells 0 (s.tile n).lane (u32At d 16) (4 * u32At d 24)) (4 * j)))).sum → ((List.range (u32At d 24)).map (fun
      j => signedN 32 (u32At (readCells 0 (s.tile n).lane (u32At d 16) (4 * u32At d 24)) (4 * j)))).sum ≤ 2147483647 →
    ∃ t, exec (.reduce n d) s = .next t ∧
      signedN 32 (u32At (readCells 0 (t.tile n).lane (u32At d 20) 4) 0) =
        ((List.range (u32At d 24)).map (fun j => signedN 32 (u32At (readCells 0 (s.tile n).lane (u32At d 16) (4 * u32At d 24)) (4 * j)))).sum ∧
      (∀ a, a < u32At d 20 ∨ u32At d 20 + 4 ≤ a → readCell 0 (t.tile n).lane a = readCell 0 (s.tile n).lane a) ∧ RunsOn s t n d (s.tile n) ∧ (∀ i, i ≠ n → t.tile i = s.tile i) ∧ t = { s with tiles := t.tiles, tick := t.tick }) ∧
  (∀ (n m : Nat) (d : List Byte) (q : Squad) (s : State), s.tileIssues n d m q → opKind d = 0x03 → byteAt d 30 = 0
      →
    ∃ t, exec (.reduce n d) s = .next t ∧ (∀ a, a < u32At d 20 ∨ u32At d 20 + 4 ≤ a → readCell 0 (t.tile n).lane a = readCell 0 (s.tile n).lane a) ∧
      (∃ o w, readCells 0 (t.tile n).lane (u32At d 20) 4 = leBytes (reduceEls (byteAt d 28) (byteAt d 29) o w
        (words (readCells 0 (s.tile n).lane (u32At d 16) (4 * u32At d 24)) (u32At d 24))).toNat 4) ∧
      RunsOn s t n d (s.tile n) ∧ (∀ i, i ≠ n → t.tile i = s.tile i) ∧ t = { s with tiles := t.tiles, tick := t.tick }) ∧
  (∀ (n m : Nat) (d : List Byte) (q : Squad) (s : State), s.tileIssues n d m q → opKind d = 0x04 → byteAt d 32 ≠
      0x0B →
    ∃ t, exec (.eltwise n d) s = .next t ∧ (∀ a, a < u32At d 24 ∨ u32At d 24 + u32At d 28 * elSize (byteAt d 34) ≤ a → readCell 0 (t.tile n).lane a = readCell 0 (s.tile n).lane a) ∧
      (∃ k, readCells 0 (t.tile n).lane (u32At d 24) (u32At d 28 * elSize (byteAt d 34)) =
        eltBytes k (byteAt d 33) (byteAt d 34) (byteAt d 32) (BitVec.ofNat 32 (u32At d 36)) (BitVec.ofNat 32 (u32At d 40))
          (readCells 0 (s.tile n).lane (u32At d 16) (u32At d 28 * elSize (byteAt d 33)))
          (readCells 0 (s.tile n).lane (u32At d 20) (if eltTwo (byteAt d 32) then u32At d 28 * elSize (byteAt d 33) else 0)) (u32At d 28)) ∧
      RunsOn s t n d (s.tile n) ∧ (∀ i, i ≠ n → t.tile i = s.tile i) ∧ t = { s with tiles := t.tiles, tick := t.tick }) ∧
  (∀ (n m : Nat) (d : List Byte) (q : Squad) (j : Nat) (s : State), s.tileIssues n d m q → opKind d = 0x04 → byteAt
      d 32 = 1 → byteAt d 33 = 2 → byteAt d 34 = 2 → j < u32At d 28 → -2147483648 ≤ signedN 32 (u32At (readCells 0
      (s.tile n).lane (u32At d 16 + 4 * j) 4) 0) + signedN 32 (u32At (readCells 0 (s.tile n).lane (u32At d 20 + 4 * j)
      4) 0) → signedN 32 (u32At (readCells 0 (s.tile n).lane (u32At d 16 + 4 * j) 4) 0) + signedN 32 (u32At (readCells
      0 (s.tile n).lane (u32At d 20 + 4 * j) 4) 0) ≤ 2147483647 →
    ∃ t, exec (.eltwise n d) s = .next t ∧ signedN 32 (u32At (readCells 0 (t.tile n).lane (u32At d 24 + 4 * j) 4) 0) =
      signedN 32 (u32At (readCells 0 (s.tile n).lane (u32At d 16 + 4 * j) 4) 0) + signedN 32 (u32At (readCells 0 (s.tile n).lane (u32At d 20 + 4 * j) 4) 0)) ∧
  (∀ (n m : Nat) (d : List Byte) (q : Squad) (s : State), s.tileIssues n d m q → opKind d = 0x04 → byteAt d 32 =
      0x0B →
    ∃ t, exec (.eltwiseQuant n d) s = .next t ∧ (∀ a, a < u32At d 24 ∨ u32At d 24 + u32At d 28 * elSize (byteAt d 34) ≤ a → readCell 0 (t.tile n).lane a = readCell 0 (s.tile n).lane a) ∧
      (readCells 0 (t.tile n).lane (u32At d 24) (u32At d 28 * elSize (byteAt d 34)) =
        (quantEls (byteAt d 33) (byteAt d 34) (s.quantFactorOf m n d)
          (readCells 0 (s.tile n).lane (u32At d 16) (u32At d 28 * elSize (byteAt d 33))) (u32At d 28)).flatMap
            (fun e => leBytes e.1 (elSize (byteAt d 34)))) ∧
      RunsOn s t n d (s.tile n) ∧ (∀ i, i ≠ n → t.tile i = s.tile i) ∧ t = { s with tiles := t.tiles, tick := t.tick }) ∧
  (∀ (n m : Nat) (d : List Byte) (q : Squad) (y : Layout) (r : List Rec) (o : List Byte) (s : State), s.tileIssues
      n d m q → opKind d = 0x07 → (layoutsOf q.layouts).find? (fun y => y.num == u16At d 32) = some y → s.filterParse
      n d y = (r, none) → o = filterOut (byteAt d 36) (r.map (fun x => (x, q.filterPasses d x))) → o.length ≤ u32At d
      28 →
    ∃ t, exec (.filter n d) s = .next t ∧ readCells 0 (t.tile n).lane (u32At d 24) o.length = o ∧
      (∀ a, a < u32At d 24 ∨ u32At d 24 + o.length ≤ a → readCell 0 (t.tile n).lane a = readCell 0 (s.tile n).lane a) ∧ RunsOn s t n d (s.tile n) ∧ (∀ i, i ≠ n → t.tile i = s.tile i) ∧ t = { s with tiles := t.tiles, tick := t.tick }) ∧
  (∀ (n m : Nat) (d : List Byte) (q : Squad) (y : Layout) (r : List Rec) (o : List Byte) (p : Nat) (s : State),
      s.tileIssues n d m q → opKind d = 0x07 → (layoutsOf q.layouts).find? (fun y => y.num == u16At d 32) = some y →
      s.filterParse n d y = (r, some p) → o = filterOut (byteAt d 36) (r.map (fun x => (x, q.filterPasses d x))) →
      o.length ≤ u32At d 28 → u32At d 24 + o.length ≤ u32At d 40 ∨ u32At d 40 + (u32At d 20 - p) ≤ u32At d 24 →
    ∃ t, exec (.filter n d) s = .next t ∧ readCells 0 (t.tile n).lane (u32At d 24) o.length = o ∧
      readCells 0 (t.tile n).lane (u32At d 40) (u32At d 20 - p) = s.filterSource n d p (u32At d 20 - p) ∧
      (∀ a, (a < u32At d 24 ∨ u32At d 24 + o.length ≤ a) → (a < u32At d 40 ∨ u32At d 40 + (u32At d 20 - p) ≤ a) →
        readCell 0 (t.tile n).lane a = readCell 0 (s.tile n).lane a) ∧ RunsOn s t n d (s.tile n) ∧ (∀ i, i ≠ n → t.tile i = s.tile i) ∧ t = { s with tiles := t.tiles, tick := t.tick }) ∧
  (∀ (n m : Nat) (d : List Byte) (q : Squad) (y : Layout) (r : List Rec) (s : State), s.tileIssues n d m q → opKind
      d = 0x07 → (layoutsOf q.layouts).find? (fun y => y.num == u16At d 32) = some y → s.filterParse n d y = (r, none)
      → u32At d 28 < (filterOut (byteAt d 36) (r.map (fun x => (x, q.filterPasses d x)))).length →
    ∃ t, exec (.filter n d) s = .next t ∧ (∀ a, a < u32At d 24 ∨ u32At d 24 + u32At d 28 ≤ a → readCell 0 (t.tile n).lane a = readCell 0 (s.tile n).lane a) ∧ RunsOn s t n d (s.tile n) ∧ (∀ i, i ≠ n → t.tile i = s.tile i) ∧ t = { s with tiles := t.tiles, tick := t.tick }) ∧
  (∀ (n m : Nat) (d : List Byte) (q : Squad) (s : State), s.tileIssues n d m q → opKind d = 0x08 → byteAt d 30 = 1
      → byteAt d 36 = 0 →
    ∃ t, exec (.topk n d) s = .next t ∧
      (List.range (min (u16At d 28) (u32At d 24))).map (fun j =>
        u16At (readCells 0 (t.tile n).lane (u32At d 32) (16 * min (u16At d 28) (u32At d 24))) (16 * j + 8)) =
      (((List.range (u32At d 24)).map (fun j => u16At (readCells 0 (s.tile n).lane (u32At d 16) (2 * u32At d 24)) (2 * j))).mergeSort
        (fun a b => a ≤ b)).take (min (u16At d 28) (u32At d 24)) ∧
      (∀ a, a < u32At d 32 ∨ u32At d 32 + 16 * min (u16At d 28) (u32At d 24) ≤ a → readCell 0 (t.tile n).lane a = readCell 0 (s.tile n).lane a) ∧ RunsOn s t n d (s.tile n) ∧
      (∀ i, i ≠ n → t.tile i = s.tile i) ∧ t = { s with tiles := t.tiles, tick := t.tick }) ∧
  (∀ (n m : Nat) (d : List Byte) (q : Squad) (s : State), s.tileIssues n d m q → opKind d = 0x08 → byteAt d 30 = 1
      →
    ∃ (t : State) (f : Nat → W32) (l : List Nat), exec (.topk n d) s = .next t ∧ List.Perm l (List.range (u32At d 24)) ∧
      l.Pairwise (fun a b => keyRank (byteAt d 36) (f a) (s.topkKey n d a) ≤ keyRank (byteAt d 36) (f b) (s.topkKey n d b)) ∧
      (List.range (min (u16At d 28) (u32At d 24))).map (fun j =>
        u64At (readCells 0 (t.tile n).lane (u32At d 32) (16 * min (u16At d 28) (u32At d 24))) (16 * j)) =
      (l.take (u16At d 28)).map (fun i => u64At (readCells 0 (s.tile n).lane (u32At d 20) (8 * u32At d 24)) (8 * i)) ∧
      (∀ a, a < u32At d 32 ∨ u32At d 32 + 16 * min (u16At d 28) (u32At d 24) ≤ a → readCell 0 (t.tile n).lane a = readCell 0 (s.tile n).lane a) ∧ RunsOn s t n d (s.tile n) ∧
      (∀ i, i ≠ n → t.tile i = s.tile i) ∧ t = { s with tiles := t.tiles, tick := t.tick }) ∧
  (∀ (n m : Nat) (d : List Byte) (q : Squad) (x : Ctx) (s : State), s.tileIssues n d m q → opKind d = 0x08 → byteAt
      d 30 = 0 → byteAt d 36 = 0 → (s.tile n).ctxs.find (byteAt d 31) = some x → x.held = 0 →
    ∃ t y, exec (.topk n d) s = .next t ∧ (t.tile n).ctxs.find (byteAt d 31) = some y ∧
      y = { x with held := min x.k (u32At d 24), worst := y.worst } ∧
      (((t.tile n).heap y).map HeapEntry.dist).mergeSort (fun a b => a ≤ b) =
      (((List.range (u32At d 24)).map (fun j => u16At (readCells 0 (s.tile n).lane (u32At d 16) (2 * u32At d 24)) (2 * j))).mergeSort
        (fun a b => a ≤ b)).take x.k ∧
      (∀ b, b ≠ byteAt d 31 → (t.tile n).ctxs.find b = (s.tile n).ctxs.find b) ∧
      (∀ a, a < x.heapAddr ∨ x.heapAddr + 16 * y.held ≤ a → readCell 0 (t.tile n).lane a = readCell 0 (s.tile n).lane a) ∧ RunsOn s t n d { s.tile n with ctxs := (t.tile n).ctxs } ∧
      (∀ i, i ≠ n → t.tile i = s.tile i) ∧ t = { s with tiles := t.tiles, tick := t.tick }) ∧
  (∀ (n m : Nat) (d : List Byte) (q : Squad) (s : State), s.tileIssues n d m q → opKind d = 0x0B → byteAt d 30 ≠ 2
      →
    ∃ t, exec (.stats n d) s = .next t ∧
      (t.tile n).amax = s.statsFold n d
        (if byteAt d 30 = 0 then List.replicate (byteAt d 28) 0 ++ (s.tile n).amax.drop (byteAt d 28) else (s.tile n).amax) ∧
      (t.tile n).lane = (s.tile n).lane ∧ RunsOn s t n d { s.tile n with amax := (t.tile n).amax, tensor := some (u16At d 32) } ∧
      (∀ i, i ≠ n → t.tile i = s.tile i) ∧ t = { s with tiles := t.tiles, tick := t.tick }) ∧
  (∀ (n : Nat) (d : List Byte) (s : State), d.length ≠ 64 ∨ s.takesOps n = false →
    ∀ i ∈ [Instr.matmul n d, .xorpop n d, .reduce n d, .eltwise n d, .eltwiseQuant n d, .gather n d, .scatter n d, .filter n d,
      .topk n d, .loadBaton n d, .hurdleFence n d, .stats n d, .statsReport n d], exec i s = .next s) ∧
  (∀ (n m : Nat) (d : List Byte) (q : Squad) (i : Instr) (s : State), i ∈ opRows n d → s.tileQueues n d m q →
    exec i s = .next (s.setTile n { s.tile n with queue := [d] }))

/-- GATHER, SCATTER, REDUCE over a squad, LOAD_BATON, HURDLE, STATS REPORT, OP_COMPLETE and BATON_FILL_DONE. -/
def Obligations.TileTransfersAndCompletions : Prop :=
  (∀ (n m : Nat) (d : List Byte) (q : Squad) (g : Route) (s : State), s.tileIssues n d m q → opKind d = 0x05 →
      s.sl.set_.routes.find? (fun r => r.id == u16At d 26) = some g →
    ∃ t, exec (.gather n d) s = .next t ∧ readCells 0 (t.tile n).lane (u32At d 16) (u32At d 20) =
        padTo (u32At d 20) ((s.gatherPieces n d).flatMap (fun p =>
          if byteAt d 24 = 0 then readCells 0 (s.tile (u16At d 28)).lane p.1 p.2
          else readCells 0 s.rl.near (s.regionBaseOf (u16At d 30) + p.1) p.2)) ∧
      (∀ a, a < u32At d 16 ∨ u32At d 16 + u32At d 20 ≤ a → readCell 0 (t.tile n).lane a = readCell 0 (s.tile n).lane a) ∧ (t.tile n).credits = (s.tile n).credits.put (u16At d 26) (min (ceilDiv (u32At d 20) 1024) g.credits) ∧
      RunsOn s t n d { s.tile n with credits := (t.tile n).credits } ∧ (∀ i, i ≠ n → t.tile i = s.tile i) ∧ t = { s with tiles := t.tiles, tick := t.tick }) ∧
  (∀ (n m : Nat) (d : List Byte) (q : Squad) (g : Route) (s : State), s.tileIssues n d m q → opKind d = 0x06 →
      byteAt d 24 = 0 → u16At d 28 ≠ n → s.sl.set_.routes.find? (fun r => r.id == u16At d 26) = some g →
    ∃ t, exec (.scatter n d) s = .next t ∧
      readCells 0 (t.tile (u16At d 28)).lane (u64At d 32) (u32At d 20) = readCells 0 (s.tile n).lane (u32At d 16) (u32At d 20) ∧
      (∀ a, a < u64At d 32 ∨ u64At d 32 + u32At d 20 ≤ a →
        readCell 0 (t.tile (u16At d 28)).lane a = readCell 0 (s.tile (u16At d 28)).lane a) ∧
      t.tile (u16At d 28) = { s.tile (u16At d 28) with lane := (t.tile (u16At d 28)).lane } ∧ (t.tile n).credits = (s.tile n).credits.put (u16At d 26) (min (ceilDiv (u32At d 20) 1024) g.credits) ∧ (t.tile n).lane = (s.tile n).lane ∧
      RunsOn s t n d { s.tile n with credits := (t.tile n).credits } ∧ (∀ i, i ≠ n ∧ i ≠ u16At d 28 → t.tile i = s.tile i) ∧
      t = { s with tiles := t.tiles, tick := t.tick }) ∧
  (∀ (n m : Nat) (d : List Byte) (q : Squad) (g : Route) (s : State), s.tileIssues n d m q → opKind d = 0x06 →
      byteAt d 24 = 0 → u16At d 28 = n → s.sl.set_.routes.find? (fun r => r.id == u16At d 26) = some g →
    ∃ t, exec (.scatter n d) s = .next t ∧ readCells 0 (t.tile n).lane (u64At d 32) (u32At d 20) = readCells 0 (s.tile n).lane (u32At d 16) (u32At d 20) ∧
      (∀ a, a < u64At d 32 ∨ u64At d 32 + u32At d 20 ≤ a → readCell 0 (t.tile n).lane a = readCell 0 (s.tile n).lane a) ∧ (t.tile n).credits = (s.tile n).credits.put (u16At d 26) (min (ceilDiv (u32At d 20) 1024) g.credits) ∧
      RunsOn s t n d { s.tile n with credits := (t.tile n).credits } ∧ (∀ i, i ≠ n → t.tile i = s.tile i) ∧ t = { s with tiles := t.tiles, tick := t.tick }) ∧
  (∀ (n m : Nat) (d : List Byte) (q : Squad) (g : Route) (r : Region) (s : State), s.tileIssues n d m q → opKind d
      = 0x06 → byteAt d 24 = 1 → s.sl.set_.routes.find? (fun r => r.id == u16At d 26) = some g → s.region (u16At d 30)
      = some r →
    ∃ t, exec (.scatter n d) s = .next t ∧
      readCells 0 t.rl.near (r.base + u64At d 32) (u32At d 20) = readCells 0 (s.tile n).lane (u32At d 16) (u32At d 20) ∧
      (∀ a, a < r.base + u64At d 32 ∨ r.base + u64At d 32 + u32At d 20 ≤ a →
        readCell 0 t.rl.near a = readCell 0 s.rl.near a) ∧
      (t.tile n).credits = (s.tile n).credits.put (u16At d 26) (min (ceilDiv (u32At d 20) 1024) g.credits) ∧ (t.tile n).lane = (s.tile n).lane ∧ RunsOn s t n d { s.tile n with credits := (t.tile n).credits } ∧ (∀ i, i ≠ n → t.tile i = s.tile i) ∧
      t = { s with tiles := t.tiles, tick := t.tick, rl := { s.rl with near := t.rl.near } }) ∧
  (∀ (n m : Nat) (d : List Byte) (q : Squad) (g : Route) (j : Job) (s : State), s.tileIssues n d m q → opKind d =
      0x06 → byteAt d 24 = 2 → s.sl.set_.routes.find? (fun r => r.id == u16At d 26) = some g → s.job (opTag d) = some
      j →
    ∃ t, exec (.scatter n d) s = .next t ∧
      t.hostOut = { addr := j.resultAddr + u64At d 32, data := readCells 0 (s.tile n).lane (u32At d 16) (u32At d 20) } :: s.hostOut ∧
      (t.tile n).credits = (s.tile n).credits.put (u16At d 26) (min (ceilDiv (u32At d 20) 1024) g.credits) ∧ (t.tile n).lane = (s.tile n).lane ∧ RunsOn s t n d { s.tile n with credits := (t.tile n).credits } ∧ (∀ i, i ≠ n → t.tile i = s.tile i) ∧
      t = { s with tiles := t.tiles, tick := t.tick, hostOut := t.hostOut }) ∧
  (∀ (n m : Nat) (d : List Byte) (q : Squad) (p : Nat) (s : State), s.tileIssues n d m q → opKind d = 0x03 → byteAt
      d 30 ≠ 0 → p ∈ q.tiles → p ≠ n → s.waitsAt p d = none →
    ∃ t, exec (.reduce n d) s = .next t ∧ (t.tile n).lane = (s.tile n).lane ∧
      (t.tile n).flight.getLast?.bind OpInFlight.gives = some (readCells 0 (s.tile n).lane (u32At d 16) (4 * u32At d 24)) ∧
      RunsOn s t n d { s.tile n with credits := (t.tile n).credits } ∧ (∀ i, i ≠ n → t.tile i = s.tile i) ∧ t = { s with tiles := t.tiles, tick := t.tick }) ∧
  (∀ (n m : Nat) (d : List Byte) (q : Squad) (j p : Nat) (f : OpInFlight) (s : State), s.tileIssues n d m q →
      opKind d = 0x03 → byteAt d 30 ≠ 0 → byteAt d 28 = 0 → byteAt d 29 = 0 → s.waitsAt n d = none → n ∈ q.tiles → (∀
      i ∈ q.tiles, i = n ∨ (s.waitsAt i d).isSome = true) → p ∈ q.tiles → p ≠ n → s.waitsAt p d = some f → byteAt
      f.desc 30 = 1 ∨ u16At f.desc 32 = p → j < u32At d 24 → -2147483648 ≤ ((q.tiles.map (fun p => signedN 32 (u32At
      (if p = n then readCells 0 (s.tile n).lane (u32At d 16) (4 * u32At d 24) else ((s.waitsAt p d).bind
      OpInFlight.gives).getD []) (4 * j)))).sum) → ((q.tiles.map (fun p => signedN 32 (u32At (if p = n then readCells
      0 (s.tile n).lane (u32At d 16) (4 * u32At d 24) else ((s.waitsAt p d).bind OpInFlight.gives).getD []) (4 *
      j)))).sum) ≤ 2147483647 →
    ∃ t, exec (.reduce n d) s = .next t ∧
      signedN 32 (u32At (readCells 0 (t.tile p).lane (u32At f.desc 20 + 4 * j) 4) 0) =
        ((q.tiles.map (fun p => signedN 32 (u32At (if p = n then readCells 0 (s.tile n).lane (u32At d 16) (4 * u32At d 24) else ((s.waitsAt p d).bind OpInFlight.gives).getD []) (4 * j)))).sum) ∧
      (byteAt d 30 = 1 ∨ u16At d 32 = n →
        signedN 32 (u32At (readCells 0 (t.tile n).lane (u32At d 20 + 4 * j) 4) 0) =
          ((q.tiles.map (fun p => signedN 32 (u32At (if p = n then readCells 0 (s.tile n).lane (u32At d 16) (4 * u32At d 24) else ((s.waitsAt p d).bind OpInFlight.gives).getD []) (4 * j)))).sum)) ∧
      (t.tile n).flight.getLast?.bind OpInFlight.gives = none) ∧
  (∀ (n m : Nat) (d : List Byte) (q : Squad) (j p : Nat) (f : OpInFlight) (s : State), s.tileIssues n d m q →
      opKind d = 0x03 → byteAt d 30 ≠ 0 → s.waitsAt n d = none → n ∈ q.tiles → (∀ i ∈ q.tiles, i = n ∨ (s.waitsAt i
      d).isSome = true) → p ∈ q.tiles → p ≠ n → s.waitsAt p d = some f → byteAt f.desc 30 = 1 ∨ u16At f.desc 32 = p →
      j < u32At d 24 →
    ∃ (t : State) (o : Nat → Nat) (w : W32), exec (.reduce n d) s = .next t ∧
      u32At (readCells 0 (t.tile p).lane (u32At f.desc 20 + 4 * j) 4) 0 = (reduceEls (byteAt d 28) (byteAt d 29) o w
        (q.tiles.map (fun i => BitVec.ofNat 32 (u32At (if i = n then readCells 0 (s.tile n).lane (u32At d 16) (4 * u32At d 24)
          else ((s.waitsAt i d).bind OpInFlight.gives).getD []) (4 * j))))).toNat ∧
      (∀ a, a < u32At f.desc 20 ∨ u32At f.desc 20 + 4 * u32At d 24 ≤ a →
        readCell 0 (t.tile p).lane a = readCell 0 (s.tile p).lane a) ∧
      (∀ i, i ∉ q.tiles → t.tile i = s.tile i) ∧
      (∀ i g, i ≠ n → s.waitsAt i d = some g → byteAt g.desc 30 ≠ 1 → u16At g.desc 32 ≠ i → (t.tile i).lane = (s.tile i).lane) ∧
      t = { s with tiles := t.tiles, tick := t.tick }) ∧
  (∀ (n m : Nat) (d : List Byte) (q : Squad) (p : Pin) (s : State), s.tileIssues n d m q → opKind d = 0x09 →
      s.pinOf (opTag d) (u32At d 16) = some p → u32At d 20 < s.pinBatons p →
    ∃ t, exec (.loadBaton n d) s = .next t ∧ (t.tile n).lane = (s.tile n).lane ∧
      (∀ b x k, (s.tile n).ctxs.find b = some x → s.blockKey x.tag (u32At d 16) (u32At d 20) = some k → x.state = 2 →
        (x.left.find k).isSome = true → (t.tile n).ctxs.find b = some { x with state := 3, wants := some k }) ∧
      ((s.tile n).ctxs = [] → (t.tile n).ctxs = [] ∧ (t.tile n).ran = (s.tile n).ran) ∧
      RunsOn s t n d { s.tile n with
        ctxs := (t.tile n).ctxs
        ran := (t.tile n).ran
        latches := (s.tile n).latches.modify (byteAt d 24) (fun x => { x with
          state := .filling, credit := false, object := u32At d 16, baton := u32At d 20, failed := false }) } ∧
      (∀ i, i ≠ n → t.tile i = s.tile i) ∧ t = { s with tiles := t.tiles, tick := t.tick }) ∧
  (∀ (n m : Nat) (d : List Byte) (q : Squad) (s : State), s.tileIssues n d m q → opKind d = 0x09 → s.pinOf (opTag
      d) (u32At d 16) = none → s.ntAll = true → q.state = .active → s.jobsOf m = [] → s.seqsOn m = [] → s.job (opTag
      d) = none →
    ∃ t, exec (.loadBaton n d) s = .next t ∧ RecordWritten s t (srcTile n) kProtocol 1 0 0 0 0 0 ∧ t.fenced m = true ∧
      (t.tile n).flight = (s.tile n).flight ∧ (t.tile n).lane = (s.tile n).lane) ∧
  (∀ (n m : Nat) (d : List Byte) (q : Squad) (s : State), s.tileIssues n d m q → opKind d = 0x0A → byteAt d 11 = 0
      ∨ byteAt d 16 = 1 ∨ (((s.tile n).take d).sems.getD (byteAt d 11 - 1) 0) < 255 →
    ∃ t, exec (.hurdleFence n d) s = .next t ∧
      t.tile n = { s.tile n with
        nextIdx := ((s.tile n).nextIdx + 1) % 512
        sems := if byteAt d 16 = 0 ∧ byteAt d 11 ≠ 0 then ((s.tile n).take d).sems.modify (byteAt d 11 - 1) (fun v => v + 1)
          else ((s.tile n).take d).sems
        hurdle := byteAt d 16 == 1
        ctxs := (t.tile n).ctxs
        ran := (t.tile n).ran } ∧
      (byteAt d 11 = 0 ∨ byteAt d 16 = 1 ∨ (s.tile n).ctxs = [] →
        (t.tile n).ctxs = (s.tile n).ctxs ∧ (t.tile n).ran = (s.tile n).ran) ∧
      (∀ i, i ≠ n → t.tile i = s.tile i) ∧
      t = { s with tiles := t.tiles, jd := if byteAt d 16 = 0 then (s.notify n d).jd else s.jd }) ∧
  (∀ (n m : Nat) (d : List Byte) (q : Squad) (s : State), s.tileIssues n d m q → opKind d = 0x0B → byteAt d 30 = 2
      → s.ns.table.length < 65536 → s.ns.table.find (keeperKey m (u16At d 32)) = none →
    ∃ t, exec (.statsReport n d) s = .next t ∧
      (t.tile n).amax = List.replicate (byteAt d 28) 0 ++ (s.statsFold n d (s.tile n).amax).drop (byteAt d 28) ∧
      t.ns.table.find (keeperKey m (u16At d 32)) = some { Keeper.fresh with
        step := some (((s.statsFold n d (s.tile n).amax).take (byteAt d 28)).foldl f32Max 0), waiting := [n] } ∧
      (∀ k, k ≠ keeperKey m (u16At d 32) → t.ns.table.find k = s.ns.table.find k) ∧ (t.tile n).lane = (s.tile n).lane ∧
      RunsOn s t n d { s.tile n with amax := (t.tile n).amax, tensor := some (u16At d 32) }) ∧
  (∀ (n m : Nat) (d : List Byte) (q : Squad) (k : Keeper) (s : State), s.tileIssues n d m q → opKind d = 0x0B →
      byteAt d 30 = 2 → s.ns.table.find (keeperKey m (u16At d 32)) = some k →
    ∃ t, exec (.statsReport n d) s = .next t ∧
      (t.tile n).amax = List.replicate (byteAt d 28) 0 ++ (s.statsFold n d (s.tile n).amax).drop (byteAt d 28) ∧
      t.ns.table.find (keeperKey m (u16At d 32)) = some { k with
        step := some (f32Max (k.step.getD 0) (((s.statsFold n d (s.tile n).amax).take (byteAt d 28)).foldl f32Max 0))
        waiting := if k.hist = [] ∧ k.met = false ∧ n ∉ k.waiting then k.waiting ++ [n] else k.waiting } ∧
      (∀ i, i ≠ keeperKey m (u16At d 32) → t.ns.table.find i = s.ns.table.find i) ∧ (t.tile n).lane = (s.tile n).lane ∧
      RunsOn s t n d { s.tile n with amax := (t.tile n).amax, tensor := some (u16At d 32) } ∧
      (∀ i, i ≠ n → t.tile i = s.tile i)) ∧
  (∀ (n u : Nat) (f : OpInFlight) (s : State), (s.tile n).flight.find? (fun f => f.unit == u) = some f → u ≠ 3 →
      f.gives = none → s.calWaits n f = false → (s.tile n).queue = [] → f.counts = none → opKind f.desc ≠ 0x06 ∨
      byteAt f.desc 24 ≠ 0 → byteAt f.desc 11 = 0 ∨ (s.tile n).sems.getD (byteAt f.desc 11 - 1) 0 < 255 →
    ∃ t, exec (.opComplete n u) s = .next t ∧
      t.tile n = { s.tile n with
        flight := (s.tile n).flight.erase f
        credits := if f.unit = 2 then [] else (s.tile n).credits
        sems := if byteAt f.desc 11 = 0 then (s.tile n).sems
          else (s.tile n).sems.modify (byteAt f.desc 11 - 1) (fun v => v + 1)
        ctxs := (t.tile n).ctxs
        ran := (t.tile n).ran } ∧
      ((s.tile n).ctxs = [] ∨ opKind f.desc ≠ 0x02 ∧ byteAt f.desc 11 = 0 →
        (t.tile n).ctxs = (s.tile n).ctxs ∧ (t.tile n).ran = (s.tile n).ran) ∧
      (∀ i, i ≠ n → t.tile i = s.tile i) ∧ t = { s with tiles := t.tiles, jd := (s.notify n f.desc).jd }) ∧
  (∀ (n u m tn fm el sa un : Nat) (f : OpInFlight) (s : State), (s.tile n).flight.find? (fun f => f.unit == u) =
      some f → u ≠ 3 → f.gives = none → s.calWaits n f = false → (s.tile n).queue = [] → f.counts = some (tn, fm, el,
      sa, un) → (s.tile n).squad = some m → opKind f.desc ≠ 0x06 → byteAt f.desc 11 = 0 ∨ (s.tile n).sems.getD (byteAt
      f.desc 11 - 1) 0 < 255 →
    ∃ t, exec (.opComplete n u) s = .next t ∧
      t.tile n = { s.tile n with
        flight := (s.tile n).flight.erase f
        credits := if f.unit = 2 then [] else (s.tile n).credits
        sems := if byteAt f.desc 11 = 0 then (s.tile n).sems
          else (s.tile n).sems.modify (byteAt f.desc 11 - 1) (fun v => v + 1)
        ctxs := (t.tile n).ctxs
        ran := (t.tile n).ran } ∧
      ((s.tile n).ctxs = [] ∨ opKind f.desc ≠ 0x02 ∧ byteAt f.desc 11 = 0 →
        (t.tile n).ctxs = (s.tile n).ctxs ∧ (t.tile n).ran = (s.tile n).ran) ∧
      t.ns.table = s.ns.table.adjust (keeperKey m tn) (fun k => { k with
        elems := k.elems + el, sat := k.sat + sa, under := k.under + un, outType := fm }) ∧
      (∀ i, i ≠ n → t.tile i = s.tile i) ∧
      t = { s with tiles := t.tiles, jd := (s.notify n f.desc).jd, ns := { s.ns with table := t.ns.table } }) ∧
  (∀ (n u m : Nat) (f : OpInFlight) (s : State), (s.tile n).flight.find? (fun f => f.unit == u) = some f → u ≠ 3 →
      f.gives = none → s.calWaits n f = false → (s.tile n).queue = [] → f.counts = none → opKind f.desc = 0x06 →
      byteAt f.desc 24 = 0 → byteAt f.desc 11 = 0 → byteAt f.desc 25 ≠ 0 → u16At f.desc 28 = m → m ≠ n → (s.tile
      m).queue = [] → (s.tile m).sems.getD (byteAt f.desc 25 - 1) 0 < 255 →
    ∃ t, exec (.opComplete n u) s = .next t ∧
      t.tile n = { s.tile n with
        flight := (s.tile n).flight.erase f
        credits := if f.unit = 2 then [] else (s.tile n).credits
        sems := if byteAt f.desc 11 = 0 then (s.tile n).sems
          else (s.tile n).sems.modify (byteAt f.desc 11 - 1) (fun v => v + 1)
        ctxs := (t.tile n).ctxs
        ran := (t.tile n).ran } ∧
      ((s.tile n).ctxs = [] ∨ opKind f.desc ≠ 0x02 ∧ byteAt f.desc 11 = 0 →
        (t.tile n).ctxs = (s.tile n).ctxs ∧ (t.tile n).ran = (s.tile n).ran) ∧
      t.tile m = { s.tile m with
        sems := (s.tile m).sems.modify (byteAt f.desc 25 - 1) (fun v => v + 1)
        ctxs := (t.tile m).ctxs
        ran := (t.tile m).ran } ∧
      (∀ i, i ≠ n → i ≠ m → t.tile i = s.tile i) ∧ t = { s with tiles := t.tiles, jd := (s.notify n f.desc).jd }) ∧
  (∀ (n u m : Nat) (q : Squad) (f : OpInFlight) (s : State), (s.tile n).flight.find? (fun f => f.unit == u) = some
      f → u ≠ 3 → f.gives = none → s.calWaits n f = false → (s.tile n).queue = [] → f.counts = none → opKind f.desc ≠
      0x06 → byteAt f.desc 11 ≠ 0 → 255 ≤ (s.tile n).sems.getD (byteAt f.desc 11 - 1) 0 → (s.tile n).squad = some m →
      s.squadOf m = some q → q.state = .active → s.ntAll = true → s.inGo = true → s.jobsOf m = [] →
    ∃ t, exec (.opComplete n u) s = .next t ∧ (t.tile n).halted = true ∧ t.fenced m = true ∧ (t.tile n).sems = (s.tile n).sems ∧
      RecordWritten s t (srcTile n) kProtocol 1 (BitVec.ofNat 64 f.idx) (BitVec.ofNat 32 (u32At f.desc 0))
        (BitVec.ofNat 32 (u32At f.desc 4)) (BitVec.ofNat 32 (u32At f.desc 8)) (BitVec.ofNat 32 (u32At f.desc 12))) ∧
  (∀ (n u : Nat) (s : State), ((s.tile n).flight.find? (fun f => f.unit == u) = none ∨ u = 3 ∨ (∃ f, (s.tile
      n).flight.find? (fun f => f.unit == u) = some f ∧ (f.gives.isSome = true ∨ s.calWaits n f = true))) →
    exec (.opComplete n u) s = .next s) ∧
  (∀ (n l m : Nat) (f : OpInFlight) (j : Job) (p : Pin) (e : DirEntry) (s : State), (s.tile n).flight = [f] →
      f.unit = 3 → byteAt f.desc 24 = l → (s.tile n).squad = some m → s.job (opTag f.desc) = some j → s.pinOf (opTag
      f.desc) (u32At f.desc 16) = some p → l < (s.tile n).latches.length → s.rl.dir.find p.object = some e →
      s.rl.ftShare % 512 ≠ 0 ∨ e.usesNear p (u32At f.desc 20) = true → (s.tile n).queue = [] → byteAt f.desc 11 = 0 ∨
      (s.tile n).sems.getD (byteAt f.desc 11 - 1) 0 < 255 → batonOk (s.batonBytes p j.snapshot (u32At f.desc 20)).1
      (s.batonBytes p j.snapshot (u32At f.desc 20)).2 (u32At f.desc 16) (u32At f.desc 20) p.version = true →
    ∃ t, exec (.batonFillDone n l .readable) s = .next t ∧
      t.tile n = { s.tile n with
        flight := []
        ctxs := (t.tile n).ctxs
        ran := (t.tile n).ran
        sems := if byteAt f.desc 11 = 0 then (s.tile n).sems
          else (s.tile n).sems.modify (byteAt f.desc 11 - 1) (fun v => v + 1)
        latches := (s.tile n).latches.modify l (fun x => { x with
          state := .full, data := trimZ (s.batonBytes p j.snapshot (u32At f.desc 20)).2
          index := BitVec.ofNat 64 (u64At (s.batonBytes p j.snapshot (u32At f.desc 20)).1 24)
          units := u32At (s.batonBytes p j.snapshot (u32At f.desc 20)).1 16, credit := true, failed := false
          shadow := if bitN (byteAt (s.batonBytes p j.snapshot (u32At f.desc 20)).1 14) 0
            then some ((List.range 64).map (fun c =>
              BitVec.ofNat 32 (u32At (s.batonBytes p j.snapshot (u32At f.desc 20)).1 (64 + 4 * c)))) else none }) } ∧
      ((s.tile n).ctxs = [] → (t.tile n).ctxs = []) ∧
      t.rl.ftBytes = s.rl.ftBytes + (if e.usesNear p (u32At f.desc 20) = false ∧ ((e.ver p.version).map (fun v => v.home.isFar)) = some true then 65856 else 0) ∧
      (∀ i, i ≠ n → t.tile i = s.tile i) ∧
      t = { s with tiles := t.tiles, rl := { s.rl with ftBytes := t.rl.ftBytes }, jd := (s.notify n f.desc).jd }) ∧
  (∀ (n l m : Nat) (f : OpInFlight) (j : Job) (p : Pin) (e : DirEntry) (s : State), (s.tile n).flight = [f] →
      f.unit = 3 → byteAt f.desc 24 = l → (s.tile n).squad = some m → s.job (opTag f.desc) = some j → s.pinOf (opTag
      f.desc) (u32At f.desc 16) = some p → l < (s.tile n).latches.length → s.rl.dir.find p.object = some e →
      s.rl.ftShare % 512 ≠ 0 ∨ e.usesNear p (u32At f.desc 20) = true → batonOk (s.batonBytes p j.snapshot (u32At
      f.desc 20)).1 (s.batonBytes p j.snapshot (u32At f.desc 20)).2 (u32At f.desc 16) (u32At f.desc 20) p.version =
      false → s.ntAll = true → s.inGo = true → (s.squadOf m).map Squad.state = some .active → s.jobsOf m = [] →
    ∃ t, exec (.batonFillDone n l .readable) s = .next t ∧ (t.tile n).flight = [] ∧ t.fenced m = true ∧
      (t.tile n).latches = (s.tile n).latches.modify l (fun x => { x with credit := true, failed := true }) ∧
      RecordWritten s t (srcTile n) kEccUncorr 1 (BitVec.ofNat 64 (65536 * l + 2 ^ 21)) 0 2 (BitVec.ofNat 32 j.tag) 0) ∧
  (∀ (n l a m : Nat) (f : OpInFlight) (j : Job) (p : Pin) (s : State), (s.tile n).flight = [f] → f.unit = 3 →
      byteAt f.desc 24 = l → (s.tile n).squad = some m → s.job (opTag f.desc) = some j → s.pinOf (opTag f.desc) (u32At
      f.desc 16) = some p → s.rl.ftShare % 512 ≠ 0 → s.ntAll = true → s.inGo = true → (s.squadOf m).map Squad.state =
      some .active → s.jobsOf m = [] →
    ∃ t, exec (.batonFillDone n l (.nearUncorr a)) s = .next t ∧ (t.tile n).flight = [] ∧ t.fenced m = true ∧
      RecordWritten s t (srcStack (a / 4096 % 16)) kEccUncorr 1 (BitVec.ofNat 64 a) 2 0 0 0 ∧
      t.rl.uncorr.findD (a / 4096 % 16) 0 = sat32 (s.rl.uncorr.findD (a / 4096 % 16) 0 + 1)) ∧
  (∀ (n l ch a m : Nat) (f : OpInFlight) (j : Job) (p : Pin) (s : State), (s.tile n).flight = [f] → f.unit = 3 →
      byteAt f.desc 24 = l → (s.tile n).squad = some m → s.job (opTag f.desc) = some j → s.pinOf (opTag f.desc) (u32At
      f.desc 16) = some p → s.rl.ftShare % 512 ≠ 0 → s.ntAll = true → s.inGo = true → (s.squadOf m).map Squad.state =
      some .active → s.jobsOf m = [] →
    ∃ t, exec (.batonFillDone n l (.farDamaged ch a)) s = .next t ∧ (t.tile n).flight = [] ∧ t.fenced m = true ∧
      t.fl.standing = s.fl.standing ∧ bitW t.rl.event 3 = true ∧
      (∀ e, s.rl.dir.find p.object = some e → e.cur.num = p.version →
        (t.rl.dir.find p.object).map DirEntry.damaged = some true) ∧
      RecordWritten s t (srcChannel ch) kEccUncorr 1 (BitVec.ofNat 64 (a % 2 ^ 45 + 2 ^ 63)) 16 0 0 0) ∧
  (∀ (n l ch v b m : Nat) (f : OpInFlight) (j : Job) (p : Pin) (s : State), (s.tile n).flight = [f] → f.unit = 3 →
      byteAt f.desc 24 = l → (s.tile n).squad = some m → s.job (opTag f.desc) = some j → s.pinOf (opTag f.desc) (u32At
      f.desc 16) = some p → s.rl.ftShare % 512 ≠ 0 → s.ntAll = true → s.inGo = true → j.c ∈ s.qe.fetched →
    ∃ t dw, exec (.batonFillDone n l (.nsUncorr ch v b)) s = .next t ∧ (t.tile n).flight = [] ∧
      t.squadOf m = s.squadOf m ∧ t.fl.standing = s.fl.standing ∧ t.mm.uncorrCnt = sat32 (s.mm.uncorrCnt + 1) ∧
      RecordWritten s t (srcChannel ch) kEccUncorr 1 (s.mm.blockAddr v b) 16 0 0 0 ∧ t.job j.tag = none ∧
      Completed t j.c stUnrecovered dw 0 []) ∧
  (∀ (n l : Nat) (r : FillResult) (s : State), (s.tile n).flight.find? (fun f => f.unit == 3 && byteAt f.desc 24 ==
      l) = none →
    exec (.batonFillDone n l r) s = .next s) ∧
  (∀ (n l m : Nat) (f : OpInFlight) (j : Job) (p : Pin) (e : DirEntry) (r : FillResult) (s : State), (s.tile
      n).flight = [f] → f.unit = 3 → byteAt f.desc 24 = l → (s.tile n).squad = some m → s.job (opTag f.desc) = some j
      → s.pinOf (opTag f.desc) (u32At f.desc 16) = some p → s.rl.ftShare % 512 = 0 → s.rl.dir.find p.object = some e →
      e.usesNear p (u32At f.desc 20) = false → (e.ver p.version).map (fun v => v.home.isFar) = some true →
    exec (.batonFillDone n l r) s = .next s) ∧
  (∀ (n m : Nat) (d : List Byte) (q : Squad) (i : Instr) (s : State), i ∈ opRows n d → d.length = 64 → s.takesOps n
      = true → (s.tile n).queue = [] → (s.tile n).held = [] → (s.tile n).hurdle = false → (s.tile n).squad = some m →
      s.squadOf m = some q → q.state = .active → s.instantiate d = d → s.decodeOk q m n d = false → s.ntAll = true →
      s.jobsRun = true → s.jobsOf m = [] →
    ∃ t, exec i s = .next t ∧ (t.tile n).halted = true ∧ t.fenced m = true ∧ (t.tile n).flight = (s.tile n).flight ∧
      RecordWritten s t (srcTile n) kProtocol 1 (BitVec.ofNat 64 (s.tile n).nextIdx) (BitVec.ofNat 32 (u32At d 0))
        (BitVec.ofNat 32 (u32At d 4)) (BitVec.ofNat 32 (u32At d 8)) (BitVec.ofNat 32 (u32At d 12)) ∧ (t.tile n).lane = (s.tile n).lane)

/-- FAULT_MESSAGE and MG_WATCHDOG_EXPIRY. -/
def Obligations.FaultMessagesAndTheirEffects : Prop :=
  (∀ (m : FaultMsg) (s : State), s.linkUp = true → posts m.source m.kind m.cls (bitW m.d1 0) = true → m.cls = 0 →
      limitCode m = none → s.ntAll = true →
    ∃ t, exec (.faultMessage m) s = .next t ∧ RecordWritten s t m.source m.kind m.cls m.addr m.d0 m.d1 m.d2 m.d3 ∧ t.fl.corr = sat32 (s.fl.corr + 1) ∧
      t.fl.seqOf m.source = (((s.fl.seqOf m.source).1 + 1) % 65536, (s.fl.seqOf m.source).2) ∧
      (∀ i, i ≠ m.source → t.fl.seqOf i = s.fl.seqOf i) ∧ t.fl.standing = s.fl.standing ∧
      t = { s with fl := t.fl, tiles := t.tiles, rl := t.rl }) ∧
  (∀ (m : FaultMsg) (k : Nat) (s : State), s.linkUp = true → posts m.source m.kind m.cls (bitW m.d1 0) = true →
      m.cls = 0 → limitCode m = some k → (m.source, m.kind, k) ∉ s.fl.beatPosts → s.ntAll = true →
    ∃ t, exec (.faultMessage m) s = .next t ∧ RecordWritten s t m.source m.kind m.cls m.addr m.d0 m.d1 m.d2 m.d3 ∧ t.fl.beatPosts = (m.source, m.kind, k) :: s.fl.beatPosts ∧
      t = { s with fl := t.fl, tiles := t.tiles, rl := t.rl }) ∧
  (∀ (m : FaultMsg) (k : Nat) (s : State), s.linkUp = true → posts m.source m.kind m.cls (bitW m.d1 0) = true →
      m.cls = 0 → limitCode m = some k → (m.source, m.kind, k) ∈ s.fl.beatPosts →
    ∃ t, exec (.faultMessage m) s = .next t ∧ t.fl.posted = s.fl.posted ∧ t.fl.ring = s.fl.ring ∧
      t.fl.seqOf m.source = ((s.fl.seqOf m.source).1, sat16 ((s.fl.seqOf m.source).2 + 1)) ∧
      t = { s with fl := { s.fl with seqs := t.fl.seqs }, tiles := t.tiles, rl := t.rl }) ∧
  (∀ (m : FaultMsg) (s : State), s.linkUp = true → posts m.source m.kind m.cls (bitW m.d1 0) = true → m.cls = 0 →
      m.kind = kEccCorr → m.source < 0x400 →
    ∃ t, exec (.faultMessage m) s = .next t ∧ (t.tile m.source).corrCnt = sat32 ((s.tile m.source).corrCnt + 1) ∧
      t.tile m.source = { s.tile m.source with corrCnt := (t.tile m.source).corrCnt, eccLast := (t.tile m.source).eccLast } ∧
      (∀ i, i ≠ m.source → t.tile i = s.tile i)) ∧
  (∀ (m : FaultMsg) (s : State), s.linkUp = true → posts m.source m.kind m.cls (bitW m.d1 0) = true → 0x480 ≤
      m.source → m.source < 0x490 → m.cls = 0 ∧ m.kind = kEccCorr ∨ m.cls = 1 ∧ m.kind = kEccUncorr → m.squad = none →
      m.jobs = [] →
    ∃ t, exec (.faultMessage m) s = .next t ∧
      t.rl.corr.findD (m.source - 0x480) 0 = (if m.cls = 0 then sat32 (s.rl.corr.findD (m.source - 0x480) 0 + 1)
        else s.rl.corr.findD (m.source - 0x480) 0) ∧
      t.rl.uncorr.findD (m.source - 0x480) 0 = (if m.cls = 1 then sat32 (s.rl.uncorr.findD (m.source - 0x480) 0 + 1)
        else s.rl.uncorr.findD (m.source - 0x480) 0) ∧
      t.fl.standing = s.fl.standing ∧ t.sl = s.sl ∧ t.jd = s.jd ∧ t.tiles = s.tiles) ∧
  (∀ (m : FaultMsg) (n : Nat) (q : Squad) (s : State), s.linkUp = true → posts m.source m.kind m.cls (bitW m.d1 0)
      = true → m.cls = 1 → m.source < 0x400 → m.tile = some m.source → m.squad = some n → s.squadOf n = some q →
      q.state = .active → s.ntAll = true → s.halted = false → (s.fl.standing.filter Standing.entry).length < 256 →
    ∃ t, exec (.faultMessage m) s = .next t ∧ RecordWritten s t m.source m.kind m.cls m.addr m.d0 m.d1 m.d2 m.d3 ∧ (t.tile m.source).halted = true ∧
      t.squadOf n = some { q with state := .fenced } ∧ (∀ i, i ≠ n → t.squadOf i = s.squadOf i) ∧
      t.fl.standing = s.fl.standing ++ [{
        record := s.mkRecord m.source m.kind m.cls m.addr m.d0 m.d1 m.d2 m.d3, squad := some n, entry := true }] ∧
      t.fl.cont = sat32 (s.fl.cont + 1) ∧ t.mc = s.mc ∧ t.halted = false ∧
      (m.kind = kEccUncorr → (s.tile m.source).queue = [] →
        (t.tile m.source).flight = (s.tile m.source).flight.filter (fun f => !stopsOp m f))) ∧
  (∀ (m : FaultMsg) (n : Nat) (j : Job) (q : Squad) (s : State), s.linkUp = true → posts m.source m.kind m.cls
      (bitW m.d1 0) = true → m.cls = 1 → m.source < 0x400 → m.tile = some m.source → m.squad = some n → s.squadOf n =
      some q → q.state = .active → s.halted = false → j.tag ∈ m.jobs → s.jd.jobs = [j] → j.kind = 1 → j.squad = n →
      j.state = .admitted → j.c ∈ s.qe.fetched → s.ntAll = true →
    ∃ t, exec (.faultMessage m) s = .next t ∧ t.squadOf n = some { q with state := .fenced } ∧
      (s.mayRestart j = true → t.jd.jobs.map (fun k => (k.tag, k.state, k.snapshot, k.pins)) =
        [(j.tag, .restart, j.snapshot, j.pins)] ∧ j.c ∈ t.qe.fetched) ∧
      (s.mayRestart j = false → t.jd.jobs = [] ∧ ∃ dw, Completed t j.c stJobAborted dw 0 [])) ∧
  (∀ (m : FaultMsg) (n : Nat) (q : Squad) (s : State), s.linkUp = true → posts m.source m.kind m.cls (bitW m.d1 0)
      = true → m.cls = 1 → m.source < 0x400 → m.tile = some m.source → m.squad = some n → s.squadOf n = some q →
      q.state = .fenced → s.ntAll = true → s.halted = false → (s.fl.standing.filter Standing.entry).length < 256 →
    ∃ t, exec (.faultMessage m) s = .next t ∧ RecordWritten s t m.source m.kind m.cls m.addr m.d0 m.d1 m.d2 m.d3 ∧ (∀ i, t.squadOf i = s.squadOf i) ∧ t.jd = s.jd ∧
      t.fl.standing = s.fl.standing ++ [{
        record := s.mkRecord m.source m.kind m.cls m.addr m.d0 m.d1 m.d2 m.d3, squad := some n, entry := true }]) ∧
  (∀ (m : FaultMsg) (n : Nat) (q : Squad) (s : State), s.linkUp = true → posts m.source m.kind m.cls (bitW m.d1 0)
      = true → m.cls = 1 → m.source < 0x400 → m.tile = some m.source → m.squad = some n → s.squadOf n = some q →
      q.state = .draining → s.ntAll = true → s.halted = false →
    ∃ t, exec (.faultMessage m) s = .next t ∧ RecordWritten s t m.source m.kind m.cls m.addr m.d0 m.d1 m.d2 m.d3 ∧ (∀ i, t.squadOf i = s.squadOf i) ∧
      t.fl.standing = s.fl.standing ∧ (t.tile m.source).halted = true) ∧
  (∀ (m : FaultMsg) (s : State), s.linkUp = true → posts m.source m.kind m.cls (bitW m.d1 0) = true → m.cls = 1 →
      0x400 ≤ m.source → m.source < 0x480 → m.jobs = [] → s.ntAll = true →
    ∃ t, exec (.faultMessage m) s = .next t ∧ RecordWritten s t m.source m.kind m.cls m.addr m.d0 m.d1 m.d2 m.d3 ∧ t.fl.standing = s.fl.standing ∧ t.sl = s.sl ∧ t.jd = s.jd ∧
      t.tiles = s.tiles ∧ t.mc = s.mc) ∧
  (∀ (m : FaultMsg) (j : Job) (s : State), s.linkUp = true → posts m.source m.kind m.cls (bitW m.d1 0) = true →
      m.cls = 1 → m.kind = kEccUncorr → 0x400 ≤ m.source → m.source < 0x480 → bitN m.addr.toNat 63 = false → m.jobs =
      [j.tag] → s.job j.tag = some j → j.kind = 1 → j.state = .admitted → j.c ∈ s.qe.fetched → s.halted = false →
      s.ntAll = true →
    ∃ t dw, exec (.faultMessage m) s = .next t ∧ RecordWritten s t m.source m.kind m.cls m.addr m.d0 m.d1 m.d2 m.d3 ∧ t.fl.standing = s.fl.standing ∧ t.sl = s.sl ∧
      t.job j.tag = none ∧ Completed t j.c stUnrecovered dw 0 []) ∧
  (∀ (m : FaultMsg) (s : State), s.linkUp = true → posts m.source m.kind m.cls (bitW m.d1 0) = true → m.cls = 2 →
      s.inBlocks = true ∨ s.inGo = true → s.ntAll = true → (s.fl.standing.filter Standing.entry).length < 256 → (∀ e ∈
      s.idx, e.2.commit = none) →
    ∃ t, exec (.faultMessage m) s = .next t ∧ RecordWritten s t m.source m.kind m.cls m.addr m.d0 m.d1 m.d2 m.d3 ∧
      t.fl.standing = s.fl.standing ++ [{
        record := s.mkRecord m.source m.kind m.cls m.addr m.d0 m.d1 m.d2 m.d3, squad := none, entry := true }] ∧
      t.fl.fatalStands = true ∧ t.halted = true ∧ t.inGo = false ∧ t.inBlocks = false ∧ t.jd.jobs = [] ∧
      t.fl.critFatal = true ∧ t.mc.phase = s.mc.phase) ∧
  (∀ (m : FaultMsg) (s : State), s.linkUp = true → posts m.source m.kind m.cls (bitW m.d1 0) = true → m.cls = 2 →
      s.inBlocks = false → s.inGo = false → s.ntAll = true → (s.fl.standing.filter Standing.entry).length < 256 →
      s.mc.fatalClear = none →
    ∃ t, exec (.faultMessage m) s = .next t ∧ RecordWritten s t m.source m.kind m.cls m.addr m.d0 m.d1 m.d2 m.d3 ∧
      t.fl.standing = s.fl.standing ++ [{
        record := s.mkRecord m.source m.kind m.cls m.addr m.d0 m.d1 m.d2 m.d3, squad := none, entry := true }] ∧
      t.jd = s.jd ∧ t.sl = s.sl ∧ t.mc = s.mc ∧ t.tiles = s.tiles) ∧
  (∀ (m : FaultMsg) (s : State), s.linkUp = false ∨ posts m.source m.kind m.cls (bitW m.d1 0) = false →
    exec (.faultMessage m) s = .next s) ∧
  (∀ (k : Nat) (s : State), s.vendorLive = true → s.ntAll = true → s.inBlocks = true ∨ s.inGo = true →
      (s.fl.standing.filter Standing.entry).length < 256 →
    ∃ t, exec (.mgWatchdogExpiry k) s = .next t ∧
      RecordWritten s t srcMG kProtocol 2 0 (BitVec.ofNat 32 (k % 8 + 256)) 0 0 0 ∧
      t.fl.standing = s.fl.standing ++ [{
        record := s.mkRecord srcMG kProtocol 2 0 (BitVec.ofNat 32 (k % 8 + 256)) 0 0 0, squad := none, entry := true }] ∧
      t.halted = true ∧ t.mc.phase = s.mc.phase) ∧
  (∀ (k : Nat) (s : State), s.vendorLive = false →
    exec (.mgWatchdogExpiry k) s = .next s)

/-- FAULT_CLEAR_FATAL, FAULT_CLEAR_SQUAD, FAULT_CLEAR_ALL_CONTAINED, FL_CLEAR_FATAL, FL_CLEAR_SQUAD,
FL_CLEAR_ALL_CONTAINED and FENCE_CLEAR_APPLY. -/
def Obligations.FaultClears : Prop :=
  (∀ (c : CmdId) (d : Dwords) (l : List Recheck) (s : State), s.serves c .served → bitsW d.d10 1 0 ≠ 3 →
      s.clearBusy = false → (∀ x ∈ s.fl.standing, x.record.cls ≠ 2) →
    exec (.faultClearFatal c d l) s =
      .next { s.answered c stOk 2 0 [] with fl := { s.fl with result := 2, done := true } }) ∧
  (∀ (c : CmdId) (d : Dwords) (l : List Recheck) (s : State), s.serves c .served → bitsW d.d10 1 0 ≠ 3 →
      s.clearBusy = false → (∃ x ∈ s.fl.standing, x.record.cls = 2) → (∀ x ∈ s.fl.standing, x.record.cls = 2 → x.stack
      = false → s.persists l x = false) →
    exec (.faultClearFatal c d l) s = .next { s with
      qe := (s.fetch c).qe
      mc := { s.mc with
        fatalClear := some (.command c)
        retrain := ((s.fl.standing.filter (fun x => x.record.cls == 2 && x.stack)).map (fun x => x.record.source - 0x480)).dedup } }) ∧
  (∀ (c : CmdId) (d : Dwords) (l : List Recheck) (x : Standing) (s : State), s.serves c .served → bitsW d.d10 1 0 ≠
      3 → s.clearBusy = false → s.fl.standing = [x] → x.record.cls = 2 → x.stack = false → s.persists l x = true →
      s.mc.phase = .halted → s.ntAll = true → x.entry = true → c ∉ s.qe.aers →
    ∃ t, exec (.faultClearFatal c d l) s = .next t ∧ t.fl.result = 1 ∧ t.fl.done = true ∧ t.halted = true ∧
      t.fl.standing.map (fun y => (y.record.source, y.record.kind, y.record.cls)) = [(x.record.source, x.record.kind, 2)] ∧
      t.fl.posted = s.fl.posted + 1 ∧ t.mc.phase = .halted ∧ t.mc.fatalClear = none ∧ Completed t c stOk 1 0 []) ∧
  (∀ (c : CmdId) (d : Dwords) (l : List Recheck) (s : State), s.serves c .served → bitsW d.d10 1 0 ≠ 3 →
      s.clearBusy = false → s.fenced (bitsW d.d10 13 8) = false →
    exec (.faultClearSquad c d l) s =
      .next { s.answered c stOk 2 0 [] with fl := { s.fl with result := 2, done := true } }) ∧
  (∀ (c : CmdId) (d : Dwords) (l : List Recheck) (s : State), s.serves c .served → bitsW d.d10 1 0 ≠ 3 →
      s.clearBusy = false → s.fenced (bitsW d.d10 13 8) = true → (∀ x ∈ s.fl.standing, s.persists l x = false) →
    ∃ t, exec (.faultClearSquad c d l) s = .next t ∧
      t.fl.clear = some { by_ := .command c, squads := [bitsW d.d10 13 8], persists := [] } ∧
      t.fl.standing = s.fl.standing.filter (fun x => !(x.record.cls == 1 && x.squad == some (bitsW d.d10 13 8))) ∧
      (∀ x ∈ s.fl.standing, x.record.cls = 1 → x.squad = some (bitsW d.d10 13 8) → x.record.source < 0x400 →
        (t.tile x.record.source).halted = false) ∧
      t.fl.posted = s.fl.posted ∧ c ∈ t.qe.fetched ∧ t.sl = s.sl ∧ t.mc = s.mc) ∧
  (∀ (c : CmdId) (d : Dwords) (l : List Recheck) (x : Standing) (q : Squad) (s : State), s.serves c .served → bitsW
      d.d10 1 0 ≠ 3 → s.clearBusy = false → s.squadOf (bitsW d.d10 13 8) = some q → q.state = .fenced → s.fl.standing
      = [x] → x.record.cls = 1 → x.squad = some (bitsW d.d10 13 8) → x.record.source < 0x400 → x.record.kind =
      kEccUncorr → s.persists l x = true → s.halted = false → s.ntAll = true →
    ∃ t, exec (.faultClearSquad c d l) s = .next t ∧
      t.fl.clear = some { by_ := .command c, squads := [bitsW d.d10 13 8], persists := [bitsW d.d10 13 8] } ∧
      t.fl.standing.map (fun y => (y.record.source, y.record.kind, y.record.cls, y.squad)) =
        [(x.record.source, x.record.kind, 1, some (bitsW d.d10 13 8))] ∧
      (t.tile x.record.source).halted = true ∧ t.fl.posted = s.fl.posted + 1 ∧ c ∈ t.qe.fetched ∧ t.sl = s.sl ∧ t.mc = s.mc) ∧
  (∀ (c : CmdId) (d : Dwords) (l : List Recheck) (s : State), s.serves c .served → bitsW d.d10 1 0 ≠ 3 →
      s.clearBusy = false → s.fencedSquads = [] → (∀ x ∈ s.fl.standing, x.record.cls ≠ 1 ∨ x.squad ≠ none) →
    exec (.faultClearAllContained c d l) s =
      .next { s.answered c stOk 2 0 [] with fl := { s.fl with result := 2, done := true } }) ∧
  (∀ (c : CmdId) (d : Dwords) (l : List Recheck) (s : State), s.serves c .served → bitsW d.d10 1 0 ≠ 3 →
      s.clearBusy = false → s.fencedSquads ≠ [] → (∀ x ∈ s.fl.standing, s.persists l x = false) →
    ∃ t, exec (.faultClearAllContained c d l) s = .next t ∧
      t.fl.clear = some { by_ := .command c, squads := s.fencedSquads, persists := [] } ∧
      t.fl.standing = s.fl.standing.filter (fun x => !(x.record.cls == 1 && (x.squad.elim true s.fencedSquads.contains))) ∧
      t.fl.posted = s.fl.posted ∧ c ∈ t.qe.fetched ∧ t.sl = s.sl ∧ t.mc = s.mc) ∧
  (∀ (c : CmdId) (d : Dwords) (l : List Recheck) (s : State), s.serves c .served → bitsW d.d10 1 0 ≠ 3 →
      s.clearBusy = true →
    exec (.faultClearFatal c d l) s = .next (s.answered c stSequence 0 0 []) ∧
    exec (.faultClearSquad c d l) s = .next (s.answered c stSequence 0 0 []) ∧
    exec (.faultClearAllContained c d l) s = .next (s.answered c stSequence 0 0 []) ∧
    exec (.flClearFatal ⟨d.d10, l⟩) s = .next s ∧ exec (.flClearAllContained ⟨d.d10, l⟩) s = .next s ∧ exec (.flClearSquad d.d10 l) s = .next s) ∧
  (∀ (c : CmdId) (d : Dwords) (l : List Recheck) (s : State), s.serves c .served → bitsW d.d10 1 0 = 3 →
    exec (.faultClearFatal c d l) s = .next (s.answered c stInvalidField 0 0 []) ∧
    exec (.faultClearSquad c d l) s = .next (s.answered c stInvalidField 0 0 []) ∧
    exec (.faultClearAllContained c d l) s = .next (s.answered c stInvalidField 0 0 [])) ∧
  (∀ (v : W32) (l : List Recheck) (s : State), s.vendorLive = false →
    exec (.flClearFatal ⟨v, l⟩) s = .next s ∧ exec (.flClearSquad v l) s = .next s ∧ exec (.flClearAllContained ⟨v, l⟩) s = .next s) ∧
  (∀ (v : W32) (l : List Recheck) (s : State), s.vendorLive = true → s.clearBusy = false →
    ((∀ x ∈ s.fl.standing, x.record.cls ≠ 2) → exec (.flClearFatal ⟨v, l⟩) s = .next { s with
      fl := { s.fl with clearSquad := bitsW v 13 8, result := 2, done := true } }) ∧
    (s.fenced (bitsW v 13 8) = false → exec (.flClearSquad v l) s = .next { s with
      fl := { s.fl with clearSquad := bitsW v 13 8, result := 2, done := true } }) ∧
    (s.fencedSquads = [] → (∀ x ∈ s.fl.standing, x.record.cls ≠ 1 ∨ x.squad ≠ none) → exec (.flClearAllContained ⟨v, l⟩) s = .next { s with
      fl := { s.fl with clearSquad := bitsW v 13 8, result := 2, done := true } })) ∧
  (∀ (v : W32) (l : List Recheck) (s : State), s.vendorLive = true → s.clearBusy = false → (∃ x ∈ s.fl.standing,
      x.record.cls = 2) → (∀ x ∈ s.fl.standing, x.record.cls = 2 → x.stack = false → s.persists l x = false) →
    exec (.flClearFatal ⟨v, l⟩) s = .next { s with
      fl := { s.fl with done := false, clearSquad := bitsW v 13 8 }
      mc := { s.mc with
        fatalClear := some .register
        retrain := ((s.fl.standing.filter (fun x => x.record.cls == 2 && x.stack)).map (fun x => x.record.source - 0x480)).dedup } }) ∧
  (∀ (v : W32) (l : List Recheck) (s : State), s.vendorLive = true → s.clearBusy = false → s.fenced (bitsW v 13 8)
      = true → (∀ x ∈ s.fl.standing, s.persists l x = false) →
    ∃ t, exec (.flClearSquad v l) s = .next t ∧
      t.fl.clear = some { by_ := .register, squads := [bitsW v 13 8], persists := [] } ∧
      t.fl.standing = s.fl.standing.filter (fun x => !(x.record.cls == 1 && x.squad == some (bitsW v 13 8))) ∧
      t.fl.done = false ∧ t.fl.clearSquad = bitsW v 13 8 ∧ t.fl.posted = s.fl.posted ∧ t.qe = s.qe ∧ t.sl = s.sl) ∧
  (∀ (v : W32) (l : List Recheck) (s : State), s.vendorLive = true → s.clearBusy = false → s.fencedSquads ≠ [] → (∀
      x ∈ s.fl.standing, s.persists l x = false) →
    ∃ t, exec (.flClearAllContained ⟨v, l⟩) s = .next t ∧
      t.fl.clear = some { by_ := .register, squads := s.fencedSquads, persists := [] } ∧
      t.fl.standing = s.fl.standing.filter (fun x => !(x.record.cls == 1 && (x.squad.elim true s.fencedSquads.contains))) ∧
      t.fl.done = false ∧ t.fl.clearSquad = bitsW v 13 8 ∧ t.fl.posted = s.fl.posted ∧ t.qe = s.qe ∧ t.sl = s.sl) ∧
  (∀ (n : Nat) (q : Squad) (c : CmdId) (s : State), s.fl.clear = some { by_ := .command c, squads := [n], persists
      := [] } → (∀ x ∈ s.fl.standing, x.squad ≠ some n) → s.squadOf n = some q → q.state = .fenced → c ∈ s.qe.fetched
      →
    ∃ t, exec .fenceClearApply s = .next t ∧ t.squadOf n = some { q with state := .active } ∧
      (∀ i, i ≠ n → t.squadOf i = s.squadOf i) ∧ t.fl = { s.fl with clear := none, result := 0, done := true } ∧
      (∀ i, i ∈ q.tiles → (t.tile i).credits = [] ∧ (t.tile i).halted = false ∧ (t.tile i).queue = [] ∧ (t.tile i).hurdle = false) ∧ Completed t c stOk 0 0 [] ∧ t.jd = s.jd) ∧
  (∀ (k : ClearOp) (s : State), s.fl.clear = some k → k.by_ = .register → k.persists ≠ [] →
    ∃ t, exec .fenceClearApply s = .next t ∧ t.fl.result = 1 ∧ t.fl.done = true ∧ t.fl.clear = none ∧
      t.fl.event = setEv s.fl.event 3 ∧ t.qe = s.qe ∧
      (∀ n, s.fl.standing.any (fun x => x.squad == some n) = true → t.squadOf n = s.squadOf n)) ∧
  (∀ (s : State), s.fl.clear = none →
    exec .fenceClearApply s = .next s)

/-- R38. SL is busy while State.sl.load or State.sl.retire holds an operation; the rule of R51 for a forced retire is
stated in AppliesRetiresAndSweeps. -/
def Obligations.OneLoadOrRetireAtATime : Prop :=
  (∀ (c : CmdId) (d : Dwords) (x : List Byte) (s : State), s.serves c .stage → s.sl.load.isSome = true ∨
      s.sl.retire.isSome = true →
    exec (.structureLoadStage c d x) s = .next (s.answered c stSequence 0 0 []) ∧
    exec (.structureLoadDiscard c d) s = .next (s.answered c stSequence 0 0 [])) ∧
  (∀ (c : CmdId) (d : Dwords) (s : State), s.serves c .manage → s.sl.load.isSome = true ∨ s.sl.retire.isSome = true
      ∨ s.sl.persist.isSome = true →
    exec (.structureLoadApply c d) s = .next (s.answered c stSequence 0 0 [])) ∧
  (∀ (c : CmdId) (d : Dwords) (s : State), s.serves c .manage → s.sl.load.isSome = true ∨ s.sl.retire.isSome = true
      → bitW d.d10 8 = false →
    exec (.squadRetire c d) s = .next (s.answered c stSequence 0 0 [])) ∧
  (∀ (c : CmdId) (d : Dwords) (s : State), s.serves c .manage → s.sl.load.isSome = true ∨ s.sl.retire.isSome = true
      → s.sl.retire.map Retire.squad ≠ some (bitsW d.d10 5 0) → s.applyDrains (bitsW d.d10 5 0) = false →
    exec (.squadRetireForce c d) s = .next (s.answered c stSequence 0 0 []) ∧
    exec (.squadRetire c d) s = .next (s.answered c stSequence 0 0 [])) ∧
  (∀ (c : CmdId) (d : Dwords) (s : State), s.serves c .manage → s.sl.load = none → s.sl.retire.map Retire.squad =
      some (bitsW d.d10 5 0) →
    ∃ t, exec (.squadRetireForce c d) s = .next t ∧ (t.sl.retire.map Retire.cs) = s.sl.retire.map (fun r => r.cs ++ [c]) ∧
      (t.sl.retire.map Retire.force) = some true ∧ (t.sl.retire.map Retire.squad) = some (bitsW d.d10 5 0))

/-- R384. The number of a buffered record is its place in the order of posting (R419). -/
def Obligations.EarlyRecords : Prop :=
  (∀ (r k l : Nat) (a : W64) (d0 d1 d2 d3 : W32) (s : State), s.ntAll = false →
    (s.post r k l a d0 d1 d2 d3).fl.ring = s.fl.ring ∧
    (s.post r k l a d0 d1 d2 d3).fl.buffer =
      (if s.fl.buffer.length < 256 then s.fl.buffer ++ [s.mkRecord r k l a d0 d1 d2 d3] else s.fl.buffer) ∧
    (s.post r k l a d0 d1 d2 d3).mc.dropped =
      (if s.fl.buffer.length < 256 then s.mc.dropped else sat32 (s.mc.dropped + 1))) ∧
  (∀ (m : FaultMsg) (s : State), s.linkUp = true → posts m.source m.kind 0 (bitW m.d1 0) = true → m.cls = 0 →
      limitCode m = none → s.ntAll = false → s.fl.buffer.length < 256 →
    ∃ t, exec (.faultMessage m) s = .next t ∧
      t.fl.buffer = s.fl.buffer ++ [s.mkRecord m.source m.kind 0 m.addr m.d0 m.d1 m.d2 m.d3] ∧ t.fl.ring = s.fl.ring ∧
      t.fl.posted = s.fl.posted + 1 ∧ t.mc = s.mc) ∧
  (∀ (m : FaultMsg) (s : State), s.linkUp = true → posts m.source m.kind 0 (bitW m.d1 0) = true → m.cls = 0 →
      limitCode m = none → s.ntAll = false → 256 ≤ s.fl.buffer.length → s.mc.entries < 65536 →
    ∃ t, exec (.faultMessage m) s = .next t ∧ t.fl.buffer = s.fl.buffer ∧ t.fl.ring = s.fl.ring ∧
      t.fl.posted = s.fl.posted ∧ t.mc = { s.mc with dropped := sat32 (s.mc.dropped + 1) } ∧
      bitsW (t.readMc 0x18) 23 16 = min 255 (s.mc.dropped + 1)) ∧
  (∀ (k : Nat) (s : State), s.inBlocks = true → k ∈ s.mc.trained → (∃ i, i < 16 ∧ i ≠ k ∧ i ∉ s.rl.ntReady) →
    ∃ t, exec (.ntSweepDone k) s = .next t ∧ t.fl = s.fl ∧ t.ntAll = false ∧ t.rl.ntReady = k :: s.rl.ntReady) ∧
  (∀ (k : Nat) (s : State), s.inBlocks = true → k ∈ s.mc.trained → (∀ i, i < 16 → i ≠ k → i ∈ s.rl.ntReady) →
      s.fl.buffer.length ≤ 256 → s.fl.buffer.length ≤ s.fl.posted →
    ∃ t, exec (.ntSweepDone k) s = .next t ∧ t.ntAll = true ∧ t.fl = { s.fl with buffer := [], ring := t.fl.ring } ∧
      (∀ i, i < s.fl.buffer.length →
        t.fl.ring.find ((s.fl.posted - s.fl.buffer.length + i) % 65536) = s.fl.buffer[i]?) ∧
      (∀ a, (∀ i, i < s.fl.buffer.length → a ≠ (s.fl.posted - s.fl.buffer.length + i) % 65536) →
        t.fl.ring.find a = s.fl.ring.find a))
end

