-- ==== Sys2Proof/Laws/KMap.lean ====
section
/-! SUPPORT. Sparse maps and byte memories: reading after writing, and that every operation keeps the canonical form. -/

namespace Sys2Proof

variable {α : Type}

/-! ## Reading after writing -/

@[simp] theorem KMap.find_nil (n : Nat) : KMap.find ([] : KMap α) n = none := rfl

theorem KMap.find_cons (k : Nat) (v : α) (m : KMap α) (n : Nat) :
    KMap.find ((k, v) :: m) n = if k = n then some v else KMap.find m n := rfl

@[simp] theorem KMap.find_put_self (m : KMap α) (n : Nat) (v : α) : (m.put n v).find n = some v := by
  induction m with
  | nil => simp [KMap.put, KMap.find]
  | cons e m ih =>
    obtain ⟨k, w⟩ := e
    simp only [KMap.put]
    split
    · simp [KMap.find]
    · split
      · simp [KMap.find]
      · rename_i h1 h2
        simp [KMap.find, Ne.symm h2, ih]

theorem KMap.find_put_ne (m : KMap α) (n k : Nat) (v : α) (h : k ≠ n) : (m.put n v).find k = m.find k := by
  induction m with
  | nil => simp [KMap.put, KMap.find, Ne.symm h]
  | cons e m ih =>
    obtain ⟨j, w⟩ := e
    simp only [KMap.put]
    split
    · simp [KMap.find, Ne.symm h]
    · split
      · rename_i _ h2
        subst h2
        simp [KMap.find, Ne.symm h]
      · simp only [KMap.find, ih]

@[simp] theorem KMap.findD_put_self (m : KMap α) (n : Nat) (v d : α) : (m.put n v).findD n d = v := by
  simp [KMap.findD]

theorem KMap.findD_put_ne (m : KMap α) (n k : Nat) (v d : α) (h : k ≠ n) : (m.put n v).findD k d = m.findD k d := by
  simp [KMap.findD, KMap.find_put_ne m n k v h]

/-! ## Keys strictly rising -/

/-- Every key of the map lies above `n`. -/
def KMap.above (m : KMap α) (n : Nat) : Prop := ∀ e ∈ m, n < e.1

theorem KMap.sorted_cons_iff (e : Nat × α) (m : KMap α) :
    KMap.sorted (e :: m) = true ↔ KMap.above m e.1 ∧ KMap.sorted m = true := by
  induction m generalizing e with
  | nil => simp [KMap.sorted, KMap.above]
  | cons b m ih =>
    simp only [KMap.sorted, Bool.and_eq_true, decide_eq_true_eq, ih b, KMap.above, List.mem_cons]
    constructor
    · rintro ⟨h1, h2, h3⟩
      refine ⟨?_, h2, h3⟩
      rintro x (rfl | hx)
      · exact h1
      · exact lt_trans h1 (h2 x hx)
    · rintro ⟨h1, h2⟩
      exact ⟨h1 b (Or.inl rfl), h2⟩

@[simp] theorem KMap.sorted_nil : KMap.sorted ([] : KMap α) = true := rfl

theorem KMap.above_mono {m : KMap α} {a b : Nat} (h : a ≤ b) (hm : KMap.above m b) : KMap.above m a :=
  fun e he => lt_of_le_of_lt h (hm e he)

theorem KMap.above_put {m : KMap α} {a n : Nat} {v : α} (h : KMap.above m a) (hn : a < n) : KMap.above (m.put n v) a := by
  induction m with
  | nil => simpa [KMap.put, KMap.above] using hn
  | cons e m ih =>
    obtain ⟨k, w⟩ := e
    have hk : a < k := h (k, w) (by simp)
    have hm : KMap.above m a := fun x hx => h x (by simp [hx])
    simp only [KMap.put]
    split
    · intro x hx
      simp only [List.mem_cons] at hx
      rcases hx with rfl | rfl | hx
      · exact hn
      · exact hk
      · exact hm x hx
    · split
      · intro x hx
        simp only [List.mem_cons] at hx
        rcases hx with rfl | hx
        · exact hn
        · exact hm x hx
      · intro x hx
        simp only [List.mem_cons] at hx
        rcases hx with rfl | hx
        · exact hk
        · exact ih hm x hx

theorem KMap.sorted_put {m : KMap α} (n : Nat) (v : α) (h : KMap.sorted m = true) : KMap.sorted (m.put n v) = true := by
  induction m with
  | nil => rfl
  | cons e m ih =>
    obtain ⟨k, w⟩ := e
    rw [KMap.sorted_cons_iff] at h
    simp only [KMap.put]
    split
    · rename_i hlt
      rw [KMap.sorted_cons_iff, KMap.sorted_cons_iff]
      refine ⟨?_, h⟩
      intro x hx
      simp only [List.mem_cons] at hx
      rcases hx with rfl | hx
      · exact hlt
      · exact lt_trans hlt (h.1 x hx)
    · split
      · rename_i _ heq
        subst heq
        rw [KMap.sorted_cons_iff]
        exact h
      · rename_i h1 h2
        rw [KMap.sorted_cons_iff]
        exact ⟨KMap.above_put h.1 (by simp only; omega), ih h.2⟩

theorem KMap.sorted_filter {m : KMap α} (p : Nat × α → Bool) (h : KMap.sorted m = true) :
    KMap.sorted (m.filter p : KMap α) = true := by
  induction m with
  | nil => rfl
  | cons e m ih =>
    rw [KMap.sorted_cons_iff] at h
    simp only [List.filter_cons]
    split
    · rw [KMap.sorted_cons_iff]
      exact ⟨fun x hx => h.1 x (List.mem_of_mem_filter hx), ih h.2⟩
    · exact ih h.2

theorem KMap.sorted_del {m : KMap α} (n : Nat) (h : KMap.sorted m = true) : KMap.sorted (m.del n) = true :=
  KMap.sorted_filter _ h

theorem KMap.sorted_append {m l : KMap α} (h : KMap.sorted m = true) (h' : KMap.sorted l = true)
    (hb : ∀ a ∈ m, ∀ b ∈ l, a.1 < b.1) : KMap.sorted (m ++ l : KMap α) = true := by
  induction m with
  | nil => simpa using h'
  | cons e m ih =>
    rw [KMap.sorted_cons_iff] at h
    show KMap.sorted (e :: (m ++ l)) = true
    rw [KMap.sorted_cons_iff]
    refine ⟨?_, ih h.2 (fun a ha b hb' => hb a (by simp [ha]) b hb')⟩
    intro x hx
    rcases List.mem_append.mp hx with hx | hx
    · exact h.1 x hx
    · exact hb e (by simp) x hx

theorem KMap.sorted_map_snd {m : KMap α} (f : Nat × α → α) (h : KMap.sorted m = true) :
    KMap.sorted (m.map (fun e => (e.1, f e)) : KMap α) = true := by
  induction m with
  | nil => rfl
  | cons e m ih =>
    rw [KMap.sorted_cons_iff] at h
    simp only [List.map_cons]
    rw [KMap.sorted_cons_iff]
    refine ⟨?_, ih h.2⟩
    intro x hx
    obtain ⟨y, hy, rfl⟩ := List.mem_map.mp hx
    exact h.1 y hy

theorem KMap.sorted_mapVals {m : KMap α} (f : Nat → α → α) (h : KMap.sorted m = true) :
    KMap.sorted (m.mapVals f) = true := KMap.sorted_map_snd (fun e => f e.1 e.2) h

/-! ## Byte memories -/

theorem cellsWf_iff (d : Byte) (m : List Host.Cell) :
    cellsWf d m = true ↔ KMap.sorted m = true ∧ ∀ e ∈ m, e.2 ≠ d := by
  simp [cellsWf, List.all_eq_true]

theorem cellsWf_nil (d : Byte) : cellsWf d [] = true := rfl

theorem mem_put {m : List Host.Cell} {a : Nat} {b : Byte} {e : Host.Cell} (h : e ∈ KMap.put m a b) : e = (a, b) ∨ e ∈ m := by
  induction m with
  | nil => left; simpa [KMap.put] using h
  | cons x m ih =>
    obtain ⟨k, w⟩ := x
    simp only [KMap.put] at h
    split at h
    · simp only [List.mem_cons] at h ⊢
      tauto
    · split at h
      · simp only [List.mem_cons] at h ⊢
        tauto
      · simp only [List.mem_cons] at h ⊢
        rcases h with h | h
        · right; left; exact h
        · rcases ih h with h | h
          · left; exact h
          · right; right; exact h

/-- A byte write keeps the canonical form. -/
theorem cellsWf_writeCell {d : Byte} {m : List Host.Cell} (a : Nat) (b : Byte) (h : cellsWf d m = true) :
    cellsWf d (writeCell d m a b) = true := by
  rw [cellsWf_iff] at h ⊢
  unfold writeCell
  split
  · exact ⟨KMap.sorted_del a h.1, fun e he => h.2 e (List.mem_of_mem_filter he)⟩
  · rename_i hb
    refine ⟨KMap.sorted_put a b h.1, fun e he => ?_⟩
    rcases mem_put he with rfl | he
    · exact hb
    · exact h.2 e he

theorem mem_cellsOf {d : Byte} {a : Nat} {l : List Byte} {e : Host.Cell} (h : e ∈ cellsOf d a l) :
    a ≤ e.1 ∧ e.1 < a + l.length ∧ e.2 ≠ d := by
  induction l generalizing a with
  | nil => simp [cellsOf] at h
  | cons b l ih =>
    simp only [cellsOf] at h
    split at h
    · obtain ⟨h1, h2, h3⟩ := ih h
      simp only [List.length_cons]
      exact ⟨by omega, by omega, h3⟩
    · rename_i hb
      simp only [List.mem_cons] at h
      simp only [List.length_cons]
      rcases h with rfl | h
      · exact ⟨le_refl _, by omega, hb⟩
      · obtain ⟨h1, h2, h3⟩ := ih h
        exact ⟨by omega, by omega, h3⟩

theorem sorted_cellsOf (d : Byte) (a : Nat) (l : List Byte) : KMap.sorted (cellsOf d a l) = true := by
  induction l generalizing a with
  | nil => rfl
  | cons b l ih =>
    simp only [cellsOf]
    split
    · exact ih (a + 1)
    · rw [KMap.sorted_cons_iff]
      exact ⟨fun e he => by have := (mem_cellsOf he).1; simp only; omega, ih (a + 1)⟩

/-- A write of bytes keeps the canonical form. -/
theorem cellsWf_writeCells {d : Byte} {m : List Host.Cell} (a : Nat) (l : List Byte) (h : cellsWf d m = true) :
    cellsWf d (writeCells d m a l) = true := by
  rw [cellsWf_iff] at h ⊢
  unfold writeCells
  refine ⟨?_, ?_⟩
  · refine KMap.sorted_append (KMap.sorted_append (KMap.sorted_filter _ h.1) (sorted_cellsOf d a l) ?_)
      (KMap.sorted_filter _ h.1) ?_
    · intro x hx y hy
      have hx' := List.mem_filter.mp hx
      have := (mem_cellsOf hy).1
      simp only [decide_eq_true_eq] at hx'
      omega
    · intro x hx y hy
      have hy' := List.mem_filter.mp hy
      simp only [decide_eq_true_eq] at hy'
      rcases List.mem_append.mp hx with hx | hx
      · have hx' := List.mem_filter.mp hx
        simp only [decide_eq_true_eq] at hx'
        omega
      · have := (mem_cellsOf hx).2.1
        omega
  · intro e he
    rcases List.mem_append.mp he with he | he
    · rcases List.mem_append.mp he with he | he
      · exact h.2 e (List.mem_of_mem_filter he)
      · exact (mem_cellsOf he).2.2
    · exact h.2 e (List.mem_of_mem_filter he)

/-- Dropping bytes keeps the canonical form. -/
theorem cellsWf_filter {d : Byte} {m : List Host.Cell} (p : Host.Cell → Bool) (h : cellsWf d m = true) :
    cellsWf d (m.filter p) = true := by
  rw [cellsWf_iff] at h ⊢
  exact ⟨KMap.sorted_filter p h.1, fun e he => h.2 e (List.mem_of_mem_filter he)⟩

theorem cellsWf_eraseCells {d : Byte} {m : List Host.Cell} (a n : Nat) (h : cellsWf d m = true) :
    cellsWf d (eraseCells m a n) = true := cellsWf_filter _ h

theorem KMap.find_append (m l : KMap α) (n : Nat) : KMap.find (m ++ l : KMap α) n = (m.find n).or (l.find n) := by
  induction m with
  | nil => simp
  | cons e m ih =>
    obtain ⟨k, v⟩ := e
    show KMap.find ((k, v) :: (m ++ l)) n = _
    simp only [KMap.find_cons, ih]
    split <;> simp

theorem KMap.find_filter (m : KMap α) (p : Nat → Bool) (n : Nat) :
    KMap.find (m.filter (fun e => p e.1) : KMap α) n = if p n then m.find n else none := by
  induction m with
  | nil => simp
  | cons e m ih =>
    obtain ⟨k, v⟩ := e
    simp only [List.filter_cons]
    by_cases hk : k = n
    · subst hk
      cases hp : p k <;> simp [KMap.find_cons, ih, hp]
    · split
      · simp [KMap.find_cons, hk, ih]
      · simp [KMap.find_cons, hk, ih]

theorem find_cellsOf_out (d : Byte) (a : Nat) (l : List Byte) (n : Nat) (h : n < a ∨ a + l.length ≤ n) :
    KMap.find (cellsOf d a l) n = none := by
  induction l generalizing a with
  | nil => rfl
  | cons b l ih =>
    simp only [List.length_cons] at h
    simp only [cellsOf]
    split
    · exact ih (a + 1) (by omega)
    · rw [KMap.find_cons, if_neg (by omega), ih (a + 1) (by omega)]

/-- A byte outside the bytes written reads as before. -/
theorem readCell_writeCells_out (d : Byte) (m : List Host.Cell) (a : Nat) (l : List Byte) (n : Nat)
    (h : n < a ∨ a + l.length ≤ n) : readCell d (writeCells d m a l) n = readCell d m n := by
  unfold readCell KMap.findD writeCells
  rw [KMap.find_append, KMap.find_append, find_cellsOf_out d a l n h,
    KMap.find_filter m (fun k => decide (k < a)) n, KMap.find_filter m (fun k => decide (a + l.length ≤ k)) n]
  rcases h with h | h
  · simp [h, show ¬ (a + l.length ≤ n) by omega]
  · simp [h, show ¬ (n < a) by omega]

theorem find_cellsOf_in (d : Byte) (a : Nat) (l : List Byte) (i : Nat) (h : i < l.length) :
    (KMap.find (cellsOf d a l) (a + i)).getD d = l[i] := by
  induction l generalizing a i with
  | nil => simp at h
  | cons b l ih =>
    simp only [cellsOf]
    cases i with
    | zero =>
      split
      · rename_i hb
        rw [find_cellsOf_out d (a + 1) l (a + 0) (by omega)]
        simp [hb]
      · simp [KMap.find_cons]
    | succ i =>
      simp only [List.length_cons] at h
      have hi := ih (a + 1) i (by omega)
      rw [show a + (i + 1) = a + 1 + i by omega]
      split
      · simpa using hi
      · rw [KMap.find_cons, if_neg (by omega)]
        simpa using hi

/-- A byte written reads back. -/
theorem readCell_writeCells_in (d : Byte) (m : List Host.Cell) (a : Nat) (l : List Byte) (i : Nat) (h : i < l.length) :
    readCell d (writeCells d m a l) (a + i) = l[i] := by
  unfold readCell KMap.findD writeCells
  rw [KMap.find_append, KMap.find_append, KMap.find_filter m (fun k => decide (k < a)) (a + i),
    KMap.find_filter m (fun k => decide (a + l.length ≤ k)) (a + i)]
  simp only [show ¬ (a + i < a) by omega, show ¬ (a + l.length ≤ a + i) by omega, decide_false, Bool.false_eq_true,
    if_false, Option.none_or, Option.or_none]
  exact find_cellsOf_in d a l i h

end Sys2Proof
end

