-- ==== Sys2Proof/Laws/KeptDefs.lean ====
section
/-! SUPPORT. The relation every operation of the model keeps: the queue of waiting commands is `p`, and every memory and table is
in form (Safety). The lemma `kept_<operation>` of the files Kept1 to Kept4 says that the operation keeps it. -/

namespace Sys2Proof.Machine

/-- The waiting commands are `p`, and the state is in form. -/
def State.keeps (p : List Instr) (s : State) : Prop :=
  s.pending = p ∧ s.fl.inForm ∧ s.sl.inForm ∧ s.rl.inForm ∧ TilesInForm s.tiles ∧ s.se.inForm ∧ s.sw.inForm ∧ s.lp.inForm
    ∧ s.jd.inForm

theorem State.keeps_iff {p : List Instr} {s : State} : s.keeps p ↔ s.pending = p ∧ s.inForm := Iff.rfl

/-- An outcome that is a next state, with the queue and the form kept. -/
def Answers (p : List Instr) (o : Host.Outcome State Fault Refusal) : Prop := ∃ t, o = .next t ∧ t.keeps p

theorem answers_done {p : List Instr} {t : State} (h : t.keeps p) : Answers p (done t) := ⟨t, rfl, h⟩

theorem State.keeps_fold {p : List Instr} {s : State} :
    (s.pending = p ∧ s.fl.inForm ∧ s.sl.inForm ∧ s.rl.inForm ∧ TilesInForm s.tiles ∧ s.se.inForm ∧ s.sw.inForm ∧ s.lp.inForm
      ∧ s.jd.inForm) = s.keeps p := rfl
theorem Jd.inForm_fold {d : Jd} : (∀ j ∈ d.jobs, j.tag < d.nextTag) = d.inForm := rfl
theorem Sl.inForm_fold {l : Sl} : (cellsWf 0 l.stage = true) = l.inForm := rfl
theorem Rl.inForm_fold {l : Rl} : (cellsWf 0 l.near = true ∧ cellsWf 0 l.far = true) = l.inForm := rfl
theorem Se.inForm_fold {l : Se} : (cellsWf 0 l.fwBuf = true) = l.inForm := rfl
theorem Sw.inForm_fold {l : Sw} : (cellsWf 0xFF l.store = true) = l.inForm := rfl
theorem Lp.inForm_fold {l : Lp} : (cellsWf 0 l.ring = true) = l.inForm := rfl
theorem Tile.inForm_fold {l : Tile} : (cellsWf 0 l.lane = true) = l.inForm := rfl
theorem Fl.inForm_fold {f : Fl} :
    ((∀ e ∈ f.ring, e.1 < 65536) ∧ f.buffer.length ≤ 256 ∧ (f.standing.filter Standing.entry).length ≤ 256) = f.inForm := rfl

/-- What each element's step keeps, the whole fold keeps. -/
theorem kept_foldl {α β : Type} {P : β → Prop} {f : β → α → β} {l : List α} {b : β}
    (hf : ∀ x a, P x → P (f x a)) (hb : P b) : P (l.foldl f b) := by
  induction l generalizing b with
  | nil => exact hb
  | cons a l ih => exact ih (hf b a hb)

/-- The same for a fold over pairs, of the first part. -/
theorem kept_foldl_fst {α β γ : Type} {P : β → Prop} {f : β × γ → α → β × γ} {l : List α} {b : β × γ}
    (hf : ∀ x a, P x.1 → P (f x a).1) (hb : P b.1) : P (l.foldl f b).1 := by
  induction l generalizing b with
  | nil => exact hb
  | cons a l ih => exact ih (hf b a hb)

theorem mem_put_val {α : Type} {m : KMap α} {n : Nat} {v : α} {e : Nat × α} (h : e ∈ m.put n v) : e = (n, v) ∨ e ∈ m := by
  induction m with
  | nil => left; simpa [KMap.put] using h
  | cons x m ih =>
    obtain ⟨k, w⟩ := x
    simp only [KMap.put] at h
    split at h
    · simpa using h
    · split at h
      · rcases List.mem_cons.mp h with h | h
        · exact .inl h
        · exact .inr (List.mem_cons_of_mem _ h)
      · rcases List.mem_cons.mp h with h | h
        · exact .inr (h ▸ List.mem_cons_self ..)
        · exact (ih h).imp id (List.mem_cons_of_mem _)

theorem tilesInForm_put {m : KMap Tile} {n : Nat} {t : Tile} (h : TilesInForm m) (ht : t.inForm) : TilesInForm (m.put n t) :=
  fun _ he => (mem_put_val he).elim (fun h => h ▸ ht) (fun h' => h _ h')

theorem tilesInForm_mapVals {m : KMap Tile} {f : Nat → Tile → Tile} (hf : ∀ n t, t.inForm → (f n t).inForm)
    (h : TilesInForm m) : TilesInForm (m.mapVals f) := by
  intro e he
  obtain ⟨x, hx, rfl⟩ := List.mem_map.mp he
  exact hf _ _ (h x hx)

theorem Tile.inForm_reset : Tile.reset.inForm := rfl

theorem tilesInForm_findD {m : KMap Tile} {n : Nat} (h : TilesInForm m) : (m.findD n Tile.reset).inForm := by
  unfold KMap.findD
  induction m with
  | nil => exact Tile.inForm_reset
  | cons x m ih =>
    obtain ⟨k, w⟩ := x
    simp only [KMap.find]
    split
    · exact h (k, w) (List.mem_cons_self ..)
    · exact ih (fun e he => h e (List.mem_cons_of_mem _ he))

theorem ring_put {m : KMap Record} {n : Nat} {r : Record} (h : ∀ e ∈ m, e.1 < 65536) :
    ∀ e ∈ m.put (n % 65536) r, e.1 < 65536 :=
  fun e he => (mem_put_val he).elim (fun h => h ▸ Nat.mod_lt _ (by decide)) (h e)

theorem ring_filter {m : KMap Record} {q : Nat × Record → Bool} (h : ∀ e ∈ m, e.1 < 65536) : ∀ e ∈ m.filter q, e.1 < 65536 :=
  fun e he => h e (List.mem_of_mem_filter he)

theorem standing_filter {l : List Standing} {q : Standing → Bool} (h : (l.filter Standing.entry).length ≤ 256) :
    ((l.filter q).filter Standing.entry).length ≤ 256 :=
  le_trans (List.filter_sublist.filter _).length_le h

theorem standing_erase {l : List Standing} {x : Standing} (h : (l.filter Standing.entry).length ≤ 256) :
    ((l.erase x).filter Standing.entry).length ≤ 256 :=
  le_trans (List.erase_sublist.filter _).length_le h

theorem tilesInForm_nil : TilesInForm [] := by intro e he; cases he
theorem Rl.inForm_reset : Rl.reset.inForm := ⟨rfl, rfl⟩
theorem Se.inForm_reset : Se.reset.inForm := rfl
theorem Lp.inForm_reset : Lp.reset.inForm := rfl
theorem Sl.inForm_reset : Sl.reset.inForm := rfl
theorem Fl.inForm_reset : Fl.reset.inForm := ⟨fun _ he => absurd he List.not_mem_nil, by decide, by decide⟩

theorem Jd.inForm_reset : Jd.reset.inForm := fun _ hj => absurd hj List.not_mem_nil

theorem jobs_filter {l : List Job} {n : Nat} {q : Job → Bool} (h : ∀ j ∈ l, j.tag < n) : ∀ j ∈ l.filter q, j.tag < n :=
  fun j hj => h j (List.mem_of_mem_filter hj)

theorem jobs_succ {l : List Job} {n : Nat} (h : ∀ j ∈ l, j.tag < n) : ∀ j ∈ l, j.tag < n + 1 :=
  fun j hj => Nat.lt_succ_of_lt (h j hj)

theorem jobs_map {l : List Job} {n : Nat} {f : Job → Job} (hf : ∀ j, (f j).tag = j.tag) (h : ∀ j ∈ l, j.tag < n) :
    ∀ j ∈ l.map f, j.tag < n := by
  intro j hj
  obtain ⟨k, hk, rfl⟩ := List.mem_map.mp hj
  rw [hf]
  exact h k hk

theorem State.inForm_reset : State.reset.inForm :=
  ⟨Fl.inForm_reset, rfl, Rl.inForm_reset, tilesInForm_nil, rfl, rfl, rfl, Jd.inForm_reset⟩

theorem State.keeps.pending {p : List Instr} {s : State} (h : s.keeps p) : s.pending = p := h.1
theorem State.keeps.fl {p : List Instr} {s : State} (h : s.keeps p) : s.fl.inForm := h.2.1
theorem State.keeps.sl {p : List Instr} {s : State} (h : s.keeps p) : s.sl.inForm := h.2.2.1
theorem State.keeps.rl {p : List Instr} {s : State} (h : s.keeps p) : s.rl.inForm := h.2.2.2.1
theorem State.keeps.tiles {p : List Instr} {s : State} (h : s.keeps p) : TilesInForm s.tiles := h.2.2.2.2.1
theorem State.keeps.se {p : List Instr} {s : State} (h : s.keeps p) : s.se.inForm := h.2.2.2.2.2.1
theorem State.keeps.sw {p : List Instr} {s : State} (h : s.keeps p) : s.sw.inForm := h.2.2.2.2.2.2.1
theorem State.keeps.lp {p : List Instr} {s : State} (h : s.keeps p) : s.lp.inForm := h.2.2.2.2.2.2.2.1
theorem State.keeps.jd {p : List Instr} {s : State} (h : s.keeps p) : s.jd.inForm := h.2.2.2.2.2.2.2.2
theorem Jd.inForm.jobs {d : Jd} (h : d.inForm) : ∀ j ∈ d.jobs, j.tag < d.nextTag := h
theorem Rl.inForm.near {r : Rl} (h : r.inForm) : cellsWf 0 r.near = true := h.1
theorem Rl.inForm.far {r : Rl} (h : r.inForm) : cellsWf 0 r.far = true := h.2
theorem Fl.inForm.ring {f : Fl} (h : f.inForm) : ∀ e ∈ f.ring, e.1 < 65536 := h.1
theorem Fl.inForm.buffer {f : Fl} (h : f.inForm) : f.buffer.length ≤ 256 := h.2.1
theorem Fl.inForm.standing {f : Fl} (h : f.inForm) : (f.standing.filter Standing.entry).length ≤ 256 := h.2.2

theorem State.keeps_mk {p v_pending v_tick v_latchHi v_busRead v_hostOut v_power v_mc v_pc v_fl v_qe v_sl v_rl v_mm v_jd v_idx v_tiles
      v_ns v_se v_sw v_lp} :
    State.keeps p (State.mk v_pending v_tick v_latchHi v_busRead v_hostOut v_power v_mc v_pc v_fl v_qe v_sl v_rl v_mm v_jd v_idx v_tiles
      v_ns v_se v_sw v_lp) =
      (v_pending = p ∧ Fl.inForm v_fl ∧ Sl.inForm v_sl ∧ Rl.inForm v_rl ∧ TilesInForm v_tiles ∧ Se.inForm v_se ∧ Sw.inForm v_sw ∧ Lp.inForm v_lp ∧ Jd.inForm v_jd) := rfl
theorem Sl.inForm_mk {v_stage v_stageLen v_gen v_imageId v_format v_set_ v_lastResult v_loadCode v_loadSect v_loadEntry v_event
      v_timeout v_drainBeats v_drainSlow v_quiet v_load v_retire v_persist} :
    Sl.inForm (Sl.mk v_stage v_stageLen v_gen v_imageId v_format v_set_ v_lastResult v_loadCode v_loadSect v_loadEntry v_event
      v_timeout v_drainBeats v_drainSlow v_quiet v_load v_retire v_persist) =
      (cellsWf 0 v_stage = true) := rfl
theorem Rl.inForm_mk {v_ntReady v_ftReady v_ftShare v_event v_lateCnt v_overCnt v_ftBytes v_lookup v_lookupWords v_corr v_uncorr
      v_probeAddr v_probeData v_probeDone v_probeBits v_flipMask v_flipLast v_probe v_near v_dir v_copies v_far
      v_waiting} :
    Rl.inForm (Rl.mk v_ntReady v_ftReady v_ftShare v_event v_lateCnt v_overCnt v_ftBytes v_lookup v_lookupWords v_corr v_uncorr
      v_probeAddr v_probeData v_probeDone v_probeBits v_flipMask v_flipLast v_probe v_near v_dir v_copies v_far
      v_waiting) =
      (cellsWf 0 v_near = true ∧ cellsWf 0 v_far = true) := rfl
theorem Se.inForm_mk {v_identity v_nonce v_evAddr v_keyAddr v_event v_topReady v_attesting v_attCode v_keyCode v_block v_measure
      v_failCnt v_lowSaid v_fwBuf v_fwLen v_commit v_evidence} :
    Se.inForm (Se.mk v_identity v_nonce v_evAddr v_keyAddr v_event v_topReady v_attesting v_attCode v_keyCode v_block v_measure
      v_failCnt v_lowSaid v_fwBuf v_fwLen v_commit v_evidence) =
      (cellsWf 0 v_fwBuf = true) := rfl
theorem Sw.inForm_mk {v_store v_opened v_seq v_ident v_busyBoot v_run v_internal v_queued v_bits v_pulses v_event v_last
      v_pulseCnt v_pfailCnt v_efailCnt v_pulseMax v_pulseSect v_grantAddr v_grantCode} :
    Sw.inForm (Sw.mk v_store v_opened v_seq v_ident v_busyBoot v_run v_internal v_queued v_bits v_pulses v_event v_last
      v_pulseCnt v_pfailCnt v_efailCnt v_pulseMax v_pulseSect v_grantAddr v_grantCode) =
      (cellsWf 0xFF v_store = true) := rfl
theorem Lp.inForm_mk {v_enable v_reqProd v_reqCons v_rplProd v_rplCons v_timeout v_event v_protoCnt v_falseCnt v_volMap v_ring
      v_cmds v_outq v_irqs} :
    Lp.inForm (Lp.mk v_enable v_reqProd v_reqCons v_rplProd v_rplCons v_timeout v_event v_protoCnt v_falseCnt v_volMap v_ring
      v_cmds v_outq v_irqs) =
      (cellsWf 0 v_ring = true) := rfl
theorem Tile.inForm_mk {v_swept v_squad v_halted v_queue v_held v_nextIdx v_flight v_hurdle v_sems v_latches v_ctxs v_ran v_amax
      v_scale v_lane v_bad v_credits v_tensor v_corrCnt v_uncorrCnt v_eccLast v_stall v_lmAddr v_lmStatus v_flip} :
    Tile.inForm (Tile.mk v_swept v_squad v_halted v_queue v_held v_nextIdx v_flight v_hurdle v_sems v_latches v_ctxs v_ran v_amax
      v_scale v_lane v_bad v_credits v_tensor v_corrCnt v_uncorrCnt v_eccLast v_stall v_lmAddr v_lmStatus v_flip) =
      (cellsWf 0 v_lane = true) := rfl
theorem Jd.inForm_mk {v_jobs v_nextTag v_nextSeq v_progress v_event v_recallCnt v_preemptCnt v_modelAddr v_modelSlot v_modelOp
      v_modelCode v_splitSel v_splitData v_laps v_models v_seqs v_nextSeqId v_pools v_turn v_banks} :
    Jd.inForm (Jd.mk v_jobs v_nextTag v_nextSeq v_progress v_event v_recallCnt v_preemptCnt v_modelAddr v_modelSlot v_modelOp
      v_modelCode v_splitSel v_splitData v_laps v_models v_seqs v_nextSeqId v_pools v_turn v_banks) =
      (∀ j ∈ v_jobs, j.tag < v_nextTag) := rfl
theorem Fl.inForm_mk {v_event v_clearSquad v_result v_done v_posted v_corr v_cont v_fatal v_seqSel v_seqs v_ring v_buffer
      v_standing v_standingFull v_clear v_beatPosts v_critFatal} :
    Fl.inForm (Fl.mk v_event v_clearSquad v_result v_done v_posted v_corr v_cont v_fatal v_seqSel v_seqs v_ring v_buffer
      v_standing v_standingFull v_clear v_beatPosts v_critFatal) =
      ((∀ e ∈ v_ring, e.1 < 65536) ∧ v_buffer.length ≤ 256 ∧ (v_standing.filter Standing.entry).length ≤ 256) := rfl

end Sys2Proof.Machine
end

