-- ==== Sys2Proof/Laws/Kept1.lean ====
section
/-! SUPPORT. What every operation keeps (KeptDefs): operations every family shares, storage and the Pacer. -/

namespace Sys2Proof.Machine

/-! ## Ops -/

theorem kept_State_draw {pq : List Instr} (s : State) (h_s : State.keeps pq s) :
    State.keeps pq (State.draw s).2 := by
  unfold State.draw
  try dsimp only
  repeat' with_reducible first | assumption | simp only [State.keeps_mk, State.keeps_fold]

theorem kept_State_drawNat {pq : List Instr} (s : State) (h_s : State.keeps pq s) :
    State.keeps pq (State.drawNat s).2 := by
  unfold State.drawNat
  try dsimp only
  repeat' with_reducible first | assumption | simp only [State.keeps_mk, State.keeps_fold]

theorem kept_State_complete {pq : List Instr} (s : State) (c : CmdId) (st : Nat) (dw0 dw1 : Nat) (data : List (List
    Byte)) (h_s : State.keeps pq s) :
    State.keeps pq (State.complete s c st dw0 dw1 data) := by
  unfold State.complete
  try dsimp only
  repeat' with_reducible first | assumption | simp only [State.keeps_mk, State.keeps_fold]

theorem kept_Fl_ringWrite (f : Fl) (r : Record) (h_f : Fl.inForm f) :
    Fl.inForm (Fl.ringWrite f r) := by
  unfold Fl.ringWrite
  try dsimp only
  repeat' with_reducible first
    | assumption | simp only [Fl.inForm_mk, Fl.inForm_fold] | split | apply And.intro | apply Fl.inForm.ring
    | apply Fl.inForm.buffer | apply Fl.inForm.standing | apply ring_put

theorem kept_Fl_flushBuffer (f : Fl) (h_f : Fl.inForm f) :
    Fl.inForm (Fl.flushBuffer f) := by
  refine ⟨?_, Nat.zero_le _, h_f.standing⟩
  exact kept_foldl (P := fun (m : KMap Record) => ∀ e ∈ m, e.1 < 65536) (fun _ _ h => ring_put h) h_f.ring

theorem kept_Fl_countClass (f : Fl) (cls : Nat) (h_f : Fl.inForm f) :
    Fl.inForm (Fl.countClass f cls) := by
  unfold Fl.countClass
  try dsimp only
  repeat' with_reducible first | assumption | simp only [Fl.inForm_mk, Fl.inForm_fold] | split

theorem kept_State_writeRecord {pq : List Instr} (s : State) (r : Record) (h_s : State.keeps pq s) :
    State.keeps pq (State.writeRecord s r) := by
  unfold State.writeRecord
  dsimp only
  have h1 : Fl.inForm { s.fl with seqs := s.fl.seqs.put r.source (((s.fl.seqOf r.source).1 + 1) % 65536, (s.fl.seqOf r.source).2) } :=
    h_s.fl
  split
  · have h2 := kept_Fl_countClass _ r.cls (kept_Fl_ringWrite _ r h1)
    exact ⟨h_s.pending, h2, h_s.sl, h_s.rl, h_s.tiles, h_s.se, h_s.sw, h_s.lp, h_s.jd⟩
  · split
    · rename_i hb
      have h2 := kept_Fl_countClass _ r.cls h1
      refine ⟨h_s.pending, ⟨h2.ring, ?_, h2.standing⟩, h_s.sl, h_s.rl, h_s.tiles, h_s.se, h_s.sw, h_s.lp, h_s.jd⟩
      have hb' : s.fl.buffer.length < 256 := hb
      show (s.fl.buffer ++ [r]).length ≤ 256
      rw [List.length_append]
      exact hb'
    · exact ⟨h_s.pending, h1, h_s.sl, h_s.rl, h_s.tiles, h_s.se, h_s.sw, h_s.lp, h_s.jd⟩

theorem kept_State_post {pq : List Instr} (s : State) (src kind cls : Nat) (addr : W64) (d0 d1 d2 d3 : W32) (h_s :
    State.keeps pq s) :
    State.keeps pq (State.post s src kind cls addr d0 d1 d2 d3) := by
  unfold State.post
  try dsimp only
  repeat' with_reducible first
    | assumption | apply kept_State_writeRecord | simp only [State.keeps_mk, State.keeps_fold] | split

theorem kept_Fl_suppress (f : Fl) (src : Nat) (h_f : Fl.inForm f) :
    Fl.inForm (Fl.suppress f src) := by
  unfold Fl.suppress
  try dsimp only
  repeat' with_reducible first | assumption | simp only [Fl.inForm_mk, Fl.inForm_fold]

theorem kept_State_postCorr {pq : List Instr} (s : State) (src kind : Nat) (addr : W64) (d0 d1 d2 d3 : W32) (h_s :
    State.keeps pq s) :
    State.keeps pq (State.postCorr s src kind addr d0 d1 d2 d3) := by
  unfold State.postCorr
  try dsimp only
  repeat' with_reducible first | assumption | apply kept_State_post

theorem kept_State_postOnce {pq : List Instr} (s : State) (src kind code : Nat) (addr : W64) (d0 d1 d2 d3 : W32)
    (h_s : State.keeps pq s) :
    State.keeps pq (State.postOnce s src kind code addr d0 d1 d2 d3) := by
  unfold State.postOnce
  try dsimp only
  repeat' with_reducible first
    | assumption | apply kept_Fl_suppress | apply kept_State_postCorr
    | simp only [State.keeps_mk, State.keeps_fold, Fl.inForm_mk, Fl.inForm_fold] | split | apply And.intro
    | apply State.keeps.pending | apply State.keeps.sl (p := pq) | apply State.keeps.rl (p := pq)
    | apply State.keeps.se (p := pq) | apply State.keeps.sw (p := pq) | apply State.keeps.lp (p := pq)
    | apply State.keeps.fl (p := pq) | apply State.keeps.tiles (p := pq) | apply State.keeps.jd (p := pq)

theorem kept_Fl_stand (f : Fl) (r : Record) (squad : Option Nat) (h_f : Fl.inForm f) :
    Fl.inForm (Fl.stand f r squad) := by
  unfold Fl.stand
  split
  · rename_i hb
    refine ⟨h_f.ring, h_f.buffer, ?_⟩
    show ((f.standing ++ [_]).filter Standing.entry).length ≤ 256
    rw [List.filter_append, List.length_append]
    exact Nat.succ_le_of_lt hb
  · refine ⟨h_f.ring, h_f.buffer, ?_⟩
    show ((f.standing ++ [_]).filter Standing.entry).length ≤ 256
    rw [List.filter_append, List.length_append]
    exact h_f.standing

theorem kept_State_endBg {pq : List Instr} (s : State) (work key : Nat) (h_s : State.keeps pq s) :
    State.keeps pq (State.endBg s work key) := by
  unfold State.endBg
  try dsimp only
  repeat' with_reducible first | assumption | simp only [State.keeps_mk, State.keeps_fold]

theorem kept_State_takeTurn {pq : List Instr} (s : State) (n : Nat) (h_s : State.keeps pq s) :
    State.keeps pq (State.takeTurn s n) := by
  unfold State.takeTurn
  try dsimp only
  repeat' with_reducible first | assumption | simp only [State.keeps_mk, State.keeps_fold]

theorem kept_State_fetch {pq : List Instr} (s : State) (c : CmdId) (h_s : State.keeps pq s) :
    State.keeps pq (State.fetch s c) := by
  unfold State.fetch
  try dsimp only
  repeat' with_reducible first | assumption | apply kept_State_takeTurn | simp only [State.keeps_mk, State.keeps_fold]

theorem kept_State_command {pq : List Instr} (s : State) (c : CmdId) (g : Gate) (f : State → State) (h_s :
    State.keeps pq s) (h_f : ∀ y, State.keeps pq y → State.keeps pq (f y)) :
    State.keeps pq (State.command s c g f) := by
  unfold State.command
  try dsimp only
  repeat' with_reducible first
    | assumption | apply h_f | apply kept_State_fetch | apply kept_State_complete
    | simp only [State.keeps_mk, State.keeps_fold] | split

theorem kept_State_tile {pq : List Instr} (s : State) (n : Nat) (h_s : State.keeps pq s) :
    Tile.inForm (State.tile s n) := by
  unfold State.tile
  try dsimp only
  repeat' with_reducible first
    | assumption | simp only [State.keeps_mk, State.keeps_fold, Tile.inForm_mk, Tile.inForm_fold] | split
    | apply And.intro | apply State.keeps.pending | apply State.keeps.sl (p := pq) | apply State.keeps.rl (p := pq)
    | apply State.keeps.se (p := pq) | apply State.keeps.sw (p := pq) | apply State.keeps.lp (p := pq)
    | apply State.keeps.fl (p := pq) | apply State.keeps.tiles (p := pq) | apply State.keeps.jd (p := pq)
    | apply tilesInForm_put | apply tilesInForm_findD

theorem kept_State_setTile {pq : List Instr} (s : State) (n : Nat) (t : Tile) (h_s : State.keeps pq s) (h_t :
    Tile.inForm t) :
    State.keeps pq (State.setTile s n t) := by
  unfold State.setTile
  try dsimp only
  repeat' with_reducible first
    | assumption | simp only [State.keeps_mk, State.keeps_fold, Tile.inForm_mk, Tile.inForm_fold] | split
    | apply And.intro | apply State.keeps.pending | apply State.keeps.sl (p := pq) | apply State.keeps.rl (p := pq)
    | apply State.keeps.se (p := pq) | apply State.keeps.sw (p := pq) | apply State.keeps.lp (p := pq)
    | apply State.keeps.fl (p := pq) | apply State.keeps.tiles (p := pq) | apply State.keeps.jd (p := pq)
    | apply tilesInForm_put

theorem kept_State_onSquad {pq : List Instr} (s : State) (n : Nat) (f : Squad → Squad) (h_s : State.keeps pq s) :
    State.keeps pq (State.onSquad s n f) := by
  unfold State.onSquad
  try dsimp only
  repeat' with_reducible first
    | assumption | simp only [State.keeps_mk, State.keeps_fold, Sl.inForm_mk, Sl.inForm_fold]

theorem kept_Tile_sweep (t : Tile) (h_t : Tile.inForm t) :
    Tile.inForm (Tile.sweep t) := by
  unfold Tile.sweep
  try dsimp only
  repeat' with_reducible first
    | assumption | simp only [Tile.inForm_mk, Tile.inForm_fold] | split | apply And.intro | apply tilesInForm_put
    | apply tilesInForm_findD | exact Tile.inForm_reset

theorem kept_State_nearWrite {pq : List Instr} (s : State) (a : Nat) (d : List Byte) (h_s : State.keeps pq s) :
    State.keeps pq (State.nearWrite s a d) := by
  unfold State.nearWrite
  try dsimp only
  repeat' with_reducible first
    | assumption | simp only [State.keeps_mk, State.keeps_fold, Rl.inForm_mk, Rl.inForm_fold] | split
    | apply And.intro | apply State.keeps.pending | apply State.keeps.sl (p := pq) | apply State.keeps.rl (p := pq)
    | apply State.keeps.se (p := pq) | apply State.keeps.sw (p := pq) | apply State.keeps.lp (p := pq)
    | apply State.keeps.fl (p := pq) | apply State.keeps.tiles (p := pq) | apply State.keeps.jd (p := pq)
    | apply Rl.inForm.near | apply Rl.inForm.far | exact Rl.inForm_reset | apply cellsWf_writeCells

theorem kept_State_hostWrite {pq : List Instr} (s : State) (a : Nat) (d : List Byte) (h_s : State.keeps pq s) :
    State.keeps pq (State.hostWrite s a d) := by
  unfold State.hostWrite
  try dsimp only
  repeat' with_reducible first | assumption | simp only [State.keeps_mk, State.keeps_fold]

theorem kept_State_alert {pq : List Instr} (s : State) (h_s : State.keeps pq s) :
    State.keeps pq (State.alert s) := by
  unfold State.alert
  try dsimp only
  repeat' with_reducible first | assumption | simp only [State.keeps_mk, State.keeps_fold] | split

/-! ## Dirs -/

theorem kept_State_onDir {pq : List Instr} (s : State) (o : Nat) (f : DirEntry → DirEntry) (h_s : State.keeps pq s) :
    State.keeps pq (State.onDir s o f) := by
  unfold State.onDir
  try dsimp only
  repeat' with_reducible first
    | assumption | simp only [State.keeps_mk, State.keeps_fold, Rl.inForm_mk, Rl.inForm_fold]

theorem kept_State_takePin {pq : List Instr} (s : State) (o : Nat) (h_s : State.keeps pq s) :
    State.keeps pq (State.takePin s o).1 := by
  unfold State.takePin
  try dsimp only
  repeat' with_reducible first
    | assumption | apply kept_State_onDir | simp only [State.keeps_mk, State.keeps_fold] | split

theorem kept_State_takePins {pq : List Instr} (s : State) (os : List Nat) (h_s : State.keeps pq s) :
    State.keeps pq (State.takePins s os).1 := by
  unfold State.takePins
  try dsimp only
  repeat' with_reducible first
    | assumption | apply kept_State_takePin | simp only [State.keeps_mk, State.keeps_fold]
    | (apply kept_foldl_fst; intro _ _ _)

theorem kept_State_releasePin {pq : List Instr} (s : State) (p : Pin) (h_s : State.keeps pq s) :
    State.keeps pq (State.releasePin s p) := by
  unfold State.releasePin
  try dsimp only
  repeat' with_reducible first | assumption | apply kept_State_onDir

theorem kept_State_releasePins {pq : List Instr} (s : State) (ps : List Pin) (h_s : State.keeps pq s) :
    State.keeps pq (State.releasePins s ps) := by
  unfold State.releasePins
  try dsimp only
  repeat' with_reducible first
    | assumption | apply kept_State_releasePin | simp only [State.keeps_mk, State.keeps_fold]
    | (apply kept_foldl; intro _ _ _)

theorem kept_State_startEvicting {pq : List Instr} (s : State) (o : Nat) (h_s : State.keeps pq s) :
    State.keeps pq (State.startEvicting s o) := by
  unfold State.startEvicting
  try dsimp only
  repeat' with_reducible first
    | assumption | apply kept_State_onDir | simp only [State.keeps_mk, State.keeps_fold, Jd.inForm_mk, Jd.inForm_fold]
    | split | apply And.intro | apply State.keeps.pending | apply State.keeps.sl (p := pq)
    | apply State.keeps.rl (p := pq) | apply State.keeps.se (p := pq) | apply State.keeps.sw (p := pq)
    | apply State.keeps.lp (p := pq) | apply State.keeps.fl (p := pq) | apply State.keeps.tiles (p := pq)
    | apply State.keeps.jd (p := pq) | exact Jd.inForm_reset | apply Jd.inForm.jobs | apply jobs_filter
    | apply jobs_succ | (apply jobs_map; intro _; rfl)

theorem kept_State_trimPool {pq : List Instr} (s : State) (h_s : State.keeps pq s) :
    State.keeps pq (State.trimPool s) := by
  unfold State.trimPool
  try dsimp only
  repeat' with_reducible first | assumption | simp only [State.keeps_mk, State.keeps_fold]

theorem kept_State_endEvicts {pq : List Instr} (s : State) (ws : List DirWait) (h_s : State.keeps pq s) :
    State.keeps pq (State.endEvicts s ws) := by
  unfold State.endEvicts
  try dsimp only
  repeat' with_reducible first
    | assumption | apply kept_State_complete
    | simp only [State.keeps_mk, State.keeps_fold, Rl.inForm_mk, Rl.inForm_fold] | (apply kept_foldl; intro _ _ _)
    | split

theorem kept_State_endPlaces {pq : List Instr} (s : State) (ws : List DirWait) (st ver : Nat) (h_s : State.keeps pq
    s) :
    State.keeps pq (State.endPlaces s ws st ver) := by
  unfold State.endPlaces
  try dsimp only
  repeat' with_reducible first
    | assumption | apply kept_State_complete | simp only [State.keeps_mk, State.keeps_fold]
    | (apply kept_foldl; intro _ _ _) | split

theorem kept_State_dropEntry {pq : List Instr} (s : State) (o : Nat) (h_s : State.keeps pq s) :
    State.keeps pq (State.dropEntry s o) := by
  unfold State.dropEntry
  try dsimp only
  repeat' with_reducible first
    | assumption | simp only [State.keeps_mk, State.keeps_fold, Rl.inForm_mk, Rl.inForm_fold]

theorem kept_State_evicted {pq : List Instr} (s : State) (o : Nat) (h_s : State.keeps pq s) :
    State.keeps pq (State.evicted s o) := by
  unfold State.evicted
  try dsimp only
  repeat' with_reducible first
    | assumption | apply kept_State_dropEntry | apply kept_State_onDir | apply kept_State_endEvicts
    | simp only [State.keeps_mk, State.keeps_fold] | split

theorem kept_State_evictResident {pq : List Instr} (s : State) (o : Nat) (h_s : State.keeps pq s) :
    State.keeps pq (State.evictResident s o) := by
  unfold State.evictResident
  try dsimp only
  repeat' with_reducible first
    | assumption | apply kept_State_evicted | apply kept_State_startEvicting | apply kept_State_onDir
    | simp only [State.keeps_mk, State.keeps_fold] | split

theorem kept_State_evictHome {pq : List Instr} (s : State) (o : Nat) (h_s : State.keeps pq s) :
    State.keeps pq (State.evictHome s o) := by
  unfold State.evictHome
  try dsimp only
  repeat' with_reducible first
    | assumption | apply kept_State_dropEntry | apply kept_State_endEvicts | apply kept_State_onDir
    | apply kept_State_complete | simp only [State.keeps_mk, State.keeps_fold] | (apply kept_foldl; intro _ _ _)
    | split

/-! ## TileMem -/

theorem kept_Tile_put (t : Tile) (a : Nat) (l : List Byte) (h_t : Tile.inForm t) :
    Tile.inForm (Tile.put t a l) := by
  unfold Tile.put
  try dsimp only
  repeat' with_reducible first
    | assumption | simp only [Tile.inForm_mk, Tile.inForm_fold] | split | apply And.intro | apply tilesInForm_put
    | apply tilesInForm_findD | exact Tile.inForm_reset | exact tilesInForm_nil | apply cellsWf_writeCells
    | apply cellsWf_writeCell

theorem kept_State_laneCorrect {pq : List Instr} (s : State) (n a : Nat) (v : BitVec 5) (tag : Nat) (h_s :
    State.keeps pq s) :
    State.keeps pq (State.laneCorrect s n a v tag) := by
  unfold State.laneCorrect
  try dsimp only
  repeat' with_reducible first
    | assumption | apply kept_State_tile | apply kept_Tile_put | apply kept_State_setTile | apply kept_State_postOnce
    | simp only [State.keeps_mk, State.keeps_fold, Tile.inForm_mk, Tile.inForm_fold]

theorem kept_State_laneUncorr {pq : List Instr} (s : State) (n a : Nat) (v : BitVec 5) (h_s : State.keeps pq s) :
    State.keeps pq (State.laneUncorr s n a v) := by
  unfold State.laneUncorr
  try dsimp only
  repeat' with_reducible first
    | assumption | apply kept_State_tile | apply kept_State_setTile
    | simp only [State.keeps_mk, State.keeps_fold, Tile.inForm_mk, Tile.inForm_fold]

theorem kept_State_laneCheck {pq : List Instr} (s : State) (n tag : Nat) (x0 : List (Nat × BitVec 5)) (h_s :
    State.keeps pq s) :
    State.keeps pq (State.laneCheck s n tag x0).1 := by
  induction x0 generalizing s with
  | nil =>
    unfold State.laneCheck
    try dsimp only
    repeat' with_reducible first | assumption
  | cons _ _ ih =>
    unfold State.laneCheck
    try dsimp only
    repeat' with_reducible first
      | assumption | apply ih | apply kept_State_laneUncorr | apply kept_State_laneCorrect
      | simp only [State.keeps_mk, State.keeps_fold] | split

theorem kept_State_laneFree {pq : List Instr} (s : State) (n a len : Nat) (h_s : State.keeps pq s) :
    State.keeps pq (State.laneFree s n a len) := by
  unfold State.laneFree
  try dsimp only
  repeat' with_reducible first
    | assumption | apply kept_State_setTile | apply kept_State_tile | apply kept_Tile_put
    | simp only [State.keeps_mk, State.keeps_fold]

/-! ## Contexts -/

theorem kept_Tile_setHeap (t : Tile) (i : Nat) (x : Ctx) (h : List HeapEntry) (h_t : Tile.inForm t) :
    Tile.inForm (Tile.setHeap t i x h) := by
  unfold Tile.setHeap
  try dsimp only
  repeat' with_reducible first | assumption | apply kept_Tile_put | simp only [Tile.inForm_mk, Tile.inForm_fold]

theorem kept_Tile_switch (t : Tile) (h_t : Tile.inForm t) :
    Tile.inForm (Tile.switch t) := by
  unfold Tile.switch
  try dsimp only
  repeat' with_reducible first | assumption | simp only [Tile.inForm_mk, Tile.inForm_fold] | split

theorem kept_Tile_freeCtx (t : Tile) (i : Nat) (h_t : Tile.inForm t) :
    Tile.inForm (Tile.freeCtx t i) := by
  unfold Tile.freeCtx
  try dsimp only
  repeat' with_reducible first | assumption | apply kept_Tile_switch | simp only [Tile.inForm_mk, Tile.inForm_fold]

/-! ## Jobs -/

theorem kept_State_onJob {pq : List Instr} (s : State) (tag : Nat) (f : Job → Job) (h_s : State.keeps pq s) :
    State.keeps pq (State.onJob s tag f) := by
  refine ⟨h_s.pending, h_s.fl, h_s.sl, h_s.rl, h_s.tiles, h_s.se, h_s.sw, h_s.lp, ?_⟩
  refine jobs_map (fun j => ?_) h_s.jd
  split
  · rename_i h
    exact h.symm
  · rfl

theorem kept_State_writeResult {pq : List Instr} (s : State) (j : Job) (off : Nat) (d : List Byte) (h_s :
    State.keeps pq s) :
    State.keeps pq (State.writeResult s j off d) := by
  unfold State.writeResult
  try dsimp only
  repeat' with_reducible first
    | assumption | apply kept_State_nearWrite | apply kept_State_hostWrite
    | simp only [State.keeps_mk, State.keeps_fold] | split

theorem kept_State_writeAgg {pq : List Instr} (s : State) (j : Job) (h_s : State.keeps pq s) :
    State.keeps pq (State.writeAgg s j) := by
  unfold State.writeAgg
  try dsimp only
  repeat' with_reducible first
    | assumption | apply kept_State_writeResult | apply kept_State_onJob
    | simp only [State.keeps_mk, State.keeps_fold] | split

theorem kept_State_writeProgress {pq : List Instr} (s : State) (p : Progress) (h_s : State.keeps pq s) :
    State.keeps pq (State.writeProgress s p) := by
  unfold State.writeProgress
  try dsimp only
  repeat' with_reducible first
    | assumption | simp only [State.keeps_mk, State.keeps_fold, Jd.inForm_mk, Jd.inForm_fold]

theorem kept_State_freeContexts {pq : List Instr} (s : State) (j : Job) (h_s : State.keeps pq s) :
    State.keeps pq (State.freeContexts s j) := by
  unfold State.freeContexts
  try dsimp only
  repeat' with_reducible first
    | assumption | apply kept_State_setTile | apply kept_State_tile | apply kept_Tile_freeCtx
    | simp only [State.keeps_mk, State.keeps_fold, Tile.inForm_mk, Tile.inForm_fold] | (apply kept_foldl; intro _ _ _)

theorem kept_State_countEnd {pq : List Instr} (s : State) (squad st : Nat) (h_s : State.keeps pq s) :
    State.keeps pq (State.countEnd s squad st) := by
  unfold State.countEnd
  try dsimp only
  repeat' with_reducible first
    | assumption | simp only [State.keeps_mk, State.keeps_fold, Sl.inForm_mk, Sl.inForm_fold]

theorem kept_State_finishJob {pq : List Instr} (s : State) (tag st : Nat) (dw0 dw1 : Nat) (h_s : State.keeps pq s) :
    State.keeps pq (State.finishJob s tag st dw0 dw1) := by
  unfold State.finishJob
  try dsimp only
  repeat' with_reducible first
    | assumption | apply kept_State_writeAgg | apply kept_State_releasePins | apply kept_State_freeContexts
    | apply kept_State_writeProgress | apply kept_State_countEnd | apply kept_State_trimPool
    | apply kept_State_complete | simp only [State.keeps_mk, State.keeps_fold, Jd.inForm_mk, Jd.inForm_fold] | split
    | apply And.intro | apply State.keeps.pending | apply State.keeps.sl (p := pq) | apply State.keeps.rl (p := pq)
    | apply State.keeps.se (p := pq) | apply State.keeps.sw (p := pq) | apply State.keeps.lp (p := pq)
    | apply State.keeps.fl (p := pq) | apply State.keeps.tiles (p := pq) | apply State.keeps.jd (p := pq)
    | exact Jd.inForm_reset | apply Jd.inForm.jobs | apply jobs_filter

theorem kept_State_stopJob {pq : List Instr} (s : State) (tag stop st : Nat) (dw0 dw1 : Nat) (h_s : State.keeps pq
    s) :
    State.keeps pq (State.stopJob s tag stop st dw0 dw1) := by
  unfold State.stopJob
  try dsimp only
  repeat' with_reducible first | assumption | apply kept_State_onJob | apply kept_State_finishJob

theorem kept_State_refuseJob {pq : List Instr} (s : State) (c : CmdId) (kind : Nat) (sub : Submit) (st : Nat) (h_s :
    State.keeps pq s) :
    State.keeps pq (State.refuseJob s c kind sub st) := by
  unfold State.refuseJob
  try dsimp only
  repeat' with_reducible first
    | assumption | apply kept_State_writeProgress | apply kept_State_complete
    | simp only [State.keeps_mk, State.keeps_fold, Jd.inForm_mk, Jd.inForm_fold] | split | apply And.intro
    | apply State.keeps.pending | apply State.keeps.sl (p := pq) | apply State.keeps.rl (p := pq)
    | apply State.keeps.se (p := pq) | apply State.keeps.sw (p := pq) | apply State.keeps.lp (p := pq)
    | apply State.keeps.fl (p := pq) | apply State.keeps.tiles (p := pq) | apply State.keeps.jd (p := pq)
    | exact Jd.inForm_reset | apply Jd.inForm.jobs | apply jobs_filter | apply jobs_succ

theorem kept_State_submit {pq : List Instr} (s : State) (c : CmdId) (kind : Nat) (sub : Submit) (data : List Byte)
    (lists : List (List Byte)) (h_s : State.keeps pq s) :
    State.keeps pq (State.submit s c kind sub data lists) := by
  unfold State.submit
  split
  · apply kept_State_refuseJob
    exact h_s
  · refine ⟨h_s.pending, h_s.fl, h_s.sl, h_s.rl, h_s.tiles, h_s.se, h_s.sw, h_s.lp, ?_⟩
    intro j hj
    rcases List.mem_append.mp hj with hj | hj
    · exact Nat.lt_succ_of_lt (h_s.jd j hj)
    · rw [List.mem_singleton.mp hj]
      exact Nat.lt_succ_self _

theorem kept_State_admitJob {pq : List Instr} (s : State) (tag snap : Nat) (objs : List Nat) (h_s : State.keeps pq
    s) :
    State.keeps pq (State.admitJob s tag snap objs) := by
  unfold State.admitJob
  try dsimp only
  repeat' with_reducible first | assumption | apply kept_State_takePins | apply kept_State_onJob

/-! ## Pacer -/

theorem kept_State_edge {pq : List Instr} (s : State) (high since sinceEdge : Nat) (h_s : State.keeps pq s) :
    State.keeps pq (State.edge s high since sinceEdge) := by
  unfold State.edge
  try dsimp only
  repeat' with_reducible first
    | assumption | apply kept_State_postOnce | simp only [State.keeps_mk, State.keeps_fold] | split

theorem kept_State_report {pq : List Instr} (s : State) (h_s : State.keeps pq s) :
    State.keeps pq (State.report s) := by
  unfold State.report
  try dsimp only
  repeat' with_reducible first | assumption | simp only [State.keeps_mk, State.keeps_fold] | split

theorem kept_State_msgBad {pq : List Instr} (s : State) (h_s : State.keeps pq s) :
    State.keeps pq (State.msgBad s) := by
  unfold State.msgBad
  try dsimp only
  repeat' with_reducible first | assumption | apply kept_State_postOnce | simp only [State.keeps_mk, State.keeps_fold]

theorem kept_State_cadence {pq : List Instr} (s : State) (endpoint : Nat) (b : List Byte) (h_s : State.keeps pq s) :
    State.keeps pq (State.cadence s endpoint b) := by
  unfold State.cadence
  try dsimp only
  repeat' with_reducible first
    | assumption | apply kept_State_msgBad | simp only [State.keeps_mk, State.keeps_fold] | split

theorem kept_State_bandFollows {pq : List Instr} (s : State) (h_s : State.keeps pq s) :
    State.keeps pq (State.bandFollows s) := by
  unfold State.bandFollows
  try dsimp only
  repeat' with_reducible first
    | assumption | apply kept_State_report | simp only [State.keeps_mk, State.keeps_fold] | split

theorem kept_State_lowDemandExit {pq : List Instr} (s : State) (was : Bool) (h_s : State.keeps pq s) :
    State.keeps pq (State.lowDemandExit s was) := by
  unfold State.lowDemandExit
  try dsimp only
  repeat' with_reducible first | assumption | simp only [State.keeps_mk, State.keeps_fold] | split

theorem kept_State_takeEffect {pq : List Instr} (s : State) (h_s : State.keeps pq s) :
    State.keeps pq (State.takeEffect s) := by
  unfold State.takeEffect
  try dsimp only
  repeat' with_reducible first
    | assumption | apply kept_State_lowDemandExit | apply kept_State_bandFollows
    | simp only [State.keeps_mk, State.keeps_fold]

theorem kept_State_grant {pq : List Instr} (s : State) (b : BoundaryInfo) (h_s : State.keeps pq s) :
    State.keeps pq (State.grant s b) := by
  unfold State.grant
  try dsimp only
  repeat' with_reducible first | assumption | simp only [State.keeps_mk, State.keeps_fold]

theorem kept_State_thermalStep {pq : List Instr} (s : State) (h_s : State.keeps pq s) :
    State.keeps pq (State.thermalStep s) := by
  unfold State.thermalStep
  try dsimp only
  repeat' with_reducible first | assumption | simp only [State.keeps_mk, State.keeps_fold] | split

theorem kept_State_postBand {pq : List Instr} (s : State) (mean dir : Nat) (h_s : State.keeps pq s) :
    State.keeps pq (State.postBand s mean dir) := by
  unfold State.postBand
  try dsimp only
  repeat' with_reducible first
    | assumption | apply kept_State_postCorr | apply kept_State_report | simp only [State.keeps_mk, State.keeps_fold]

theorem kept_State_bandJudge {pq : List Instr} (s : State) (h_s : State.keeps pq s) :
    State.keeps pq (State.bandJudge s) := by
  unfold State.bandJudge
  try dsimp only
  repeat' with_reducible first
    | assumption | apply kept_State_bandFollows | apply kept_State_report | apply kept_State_postBand
    | simp only [State.keeps_mk, State.keeps_fold] | split

theorem kept_execBeatEdge {pq : List Instr} (highNs sinceBoundary sinceEdge : Nat) (s : State) (h_s : State.keeps pq
    s) :
    Answers pq (execBeatEdge highNs sinceBoundary sinceEdge s) := by
  unfold execBeatEdge
  apply answers_done
  try dsimp only
  repeat' with_reducible first
    | assumption | apply kept_State_edge | simp only [State.keeps_mk, State.keeps_fold] | split

theorem kept_execMissedBeat {pq : List Instr} (s : State) (h_s : State.keeps pq s) :
    Answers pq (execMissedBeat s) := by
  unfold execMissedBeat
  apply answers_done
  try dsimp only
  repeat' with_reducible first | assumption | simp only [State.keeps_mk, State.keeps_fold] | split

theorem kept_execFreerunEntry {pq : List Instr} (s : State) (h_s : State.keeps pq s) :
    Answers pq (execFreerunEntry s) := by
  unfold execFreerunEntry
  apply answers_done
  try dsimp only
  repeat' with_reducible first
    | assumption | apply kept_State_report | simp only [State.keeps_mk, State.keeps_fold] | split

theorem kept_execFreerunBoundary {pq : List Instr} (s : State) (h_s : State.keeps pq s) :
    Answers pq (execFreerunBoundary s) := by
  unfold execFreerunBoundary
  apply answers_done
  try dsimp only
  repeat' with_reducible first | assumption | simp only [State.keeps_mk, State.keeps_fold] | split

theorem kept_execSetpoint {pq : List Instr} (endpoint : Nat) (body : List Byte) (s : State) (h_s : State.keeps pq s) :
    Answers pq (execSetpoint endpoint body s) := by
  unfold execSetpoint
  apply answers_done
  try dsimp only
  repeat' with_reducible first | assumption | apply kept_State_cadence

theorem kept_execPeriod {pq : List Instr} (endpoint : Nat) (body : List Byte) (s : State) (h_s : State.keeps pq s) :
    Answers pq (execPeriod endpoint body s) := by
  unfold execPeriod
  apply answers_done
  try dsimp only
  repeat' with_reducible first | assumption | apply kept_State_cadence

theorem kept_execSetpointTakeEffect {pq : List Instr} (s : State) (h_s : State.keeps pq s) :
    Answers pq (execSetpointTakeEffect s) := by
  unfold execSetpointTakeEffect
  apply answers_done
  try dsimp only
  repeat' with_reducible first
    | assumption | apply kept_State_takeEffect | simp only [State.keeps_mk, State.keeps_fold] | split

theorem kept_execReportTimer {pq : List Instr} (s : State) (h_s : State.keeps pq s) :
    Answers pq (execReportTimer s) := by
  unfold execReportTimer
  apply answers_done
  try dsimp only
  repeat' with_reducible first
    | assumption | apply kept_State_report | simp only [State.keeps_mk, State.keeps_fold] | split

/-! ## LpCore -/

theorem kept_Lp_putAt (l : Lp) (cell : Nat) (f : List Byte) (h_l : Lp.inForm l) :
    Lp.inForm (Lp.putAt l cell f) := by
  unfold Lp.putAt
  try dsimp only
  repeat' with_reducible first
    | assumption | simp only [Lp.inForm_mk, Lp.inForm_fold] | split | apply And.intro | exact Lp.inForm_reset
    | apply cellsWf_writeCells

theorem kept_Lp_note (l : Lp) (bit : Nat) (h_l : Lp.inForm l) :
    Lp.inForm (Lp.note l bit) := by
  unfold Lp.note
  try dsimp only
  repeat' with_reducible first | assumption | simp only [Lp.inForm_mk, Lp.inForm_fold]

theorem kept_Lp_tryPut (l : Lp) (f : List Byte) (h_l : Lp.inForm l) :
    ∀ t, (Lp.tryPut l f) = some t → Lp.inForm t := by
  intro t ht
  unfold Lp.tryPut at ht
  try dsimp only at ht
  repeat' (split at ht)
  all_goals (try simp only [Option.some.injEq, Sum.inr.injEq, reduceCtorEq] at ht)
  all_goals (try subst ht)
  try dsimp only
  repeat' with_reducible first | assumption | apply kept_Lp_putAt

theorem kept_Lp_sendAll (l : Lp) (x0 : List (List Byte)) (h_l : Lp.inForm l) :
    Lp.inForm (Lp.sendAll l x0) := by
  induction x0 generalizing l with
  | nil => exact h_l
  | cons f fs ih =>
    unfold Lp.sendAll
    split
    · exact h_l
    · rename_i h
      exact ih _ (kept_Lp_tryPut _ _ h_l _ h)

theorem kept_Lp_send (l : Lp) (fs : List (List Byte)) (h_l : Lp.inForm l) :
    Lp.inForm (Lp.send l fs) := by
  unfold Lp.send
  try dsimp only
  repeat' with_reducible first | assumption | apply kept_Lp_sendAll

theorem kept_State_lpSend {pq : List Instr} (s : State) (fs : List (List Byte)) (h_s : State.keeps pq s) :
    State.keeps pq (State.lpSend s fs) := by
  unfold State.lpSend
  try dsimp only
  repeat' with_reducible first
    | assumption | apply kept_Lp_send | simp only [State.keeps_mk, State.keeps_fold, Lp.inForm_mk, Lp.inForm_fold]
    | split | apply And.intro | apply State.keeps.pending | apply State.keeps.sl (p := pq)
    | apply State.keeps.rl (p := pq) | apply State.keeps.se (p := pq) | apply State.keeps.sw (p := pq)
    | apply State.keeps.lp (p := pq) | apply State.keeps.fl (p := pq) | apply State.keeps.tiles (p := pq)
    | apply State.keeps.jd (p := pq)

theorem kept_State_lpEnd {pq : List Instr} (s : State) (tag code blocks : Nat) (h_s : State.keeps pq s) :
    State.keeps pq (State.lpEnd s tag code blocks) := by
  unfold State.lpEnd
  try dsimp only
  repeat' with_reducible first
    | assumption | apply kept_State_lpSend
    | simp only [State.keeps_mk, State.keeps_fold, Lp.inForm_mk, Lp.inForm_fold]

theorem kept_State_lpViolation {pq : List Instr} (s : State) (code cell type tag hdr : Nat) (h_s : State.keeps pq s) :
    State.keeps pq (State.lpViolation s code cell type tag hdr) := by
  unfold State.lpViolation
  try dsimp only
  repeat' with_reducible first
    | assumption | apply kept_Lp_note | apply kept_State_postOnce
    | simp only [State.keeps_mk, State.keeps_fold, Lp.inForm_mk, Lp.inForm_fold] | split | apply And.intro
    | apply State.keeps.pending | apply State.keeps.sl (p := pq) | apply State.keeps.rl (p := pq)
    | apply State.keeps.se (p := pq) | apply State.keeps.sw (p := pq) | apply State.keeps.lp (p := pq)
    | apply State.keeps.fl (p := pq) | apply State.keeps.tiles (p := pq) | apply State.keeps.jd (p := pq)

/-! ## Storage -/

theorem kept_State_onStore {pq : List Instr} (s : State) (order : Nat) (f : StoreCmd → StoreCmd) (h_s : State.keeps
    pq s) :
    State.keeps pq (State.onStore s order f) := by
  unfold State.onStore
  try dsimp only
  repeat' with_reducible first | assumption | simp only [State.keeps_mk, State.keeps_fold]

theorem kept_State_applyPieces {pq : List Instr} (s : State) (nsid : Nat) (ps : List Piece) (h_s : State.keeps pq s) :
    State.keeps pq (State.applyPieces s nsid ps) := by
  unfold State.applyPieces
  try dsimp only
  repeat' with_reducible first | assumption | simp only [State.keeps_mk, State.keeps_fold] | split

theorem kept_State_settleFlushes {pq : List Instr} (s : State) (h_s : State.keeps pq s) :
    State.keeps pq (State.settleFlushes s) := by
  unfold State.settleFlushes
  try dsimp only
  repeat' with_reducible first
    | assumption | apply kept_State_lpEnd | apply kept_State_complete | simp only [State.keeps_mk, State.keeps_fold]
    | (apply kept_foldl; intro _ _ _) | split

theorem kept_State_endStore {pq : List Instr} (s : State) (k : StoreCmd) (st : Nat) (data : List (List Byte)) (h_s :
    State.keeps pq s) :
    State.keeps pq (State.endStore s k st data) := by
  unfold State.endStore
  try dsimp only
  repeat' with_reducible first
    | assumption | apply kept_State_applyPieces | apply kept_State_lpEnd | apply kept_State_complete
    | apply kept_State_settleFlushes | simp only [State.keeps_mk, State.keeps_fold] | split

theorem kept_State_awaitPool {pq : List Instr} (s : State) (k : StoreCmd) (ps : List Piece) (h_s : State.keeps pq s) :
    State.keeps pq (State.awaitPool s k ps) := by
  unfold State.awaitPool
  try dsimp only
  repeat' with_reducible first | assumption | apply kept_State_onStore | simp only [State.keeps_mk, State.keeps_fold]

theorem kept_State_finishWrite {pq : List Instr} (s : State) (k : StoreCmd) (h_s : State.keeps pq s) :
    State.keeps pq (State.finishWrite s k) := by
  unfold State.finishWrite
  try dsimp only
  repeat' with_reducible first
    | assumption | apply kept_State_applyPieces | apply kept_State_endStore | apply kept_State_awaitPool
    | simp only [State.keeps_mk, State.keeps_fold] | split

theorem kept_State_awaitLanding {pq : List Instr} (s : State) (k : StoreCmd) (ps : List Piece) (h_s : State.keeps pq
    s) :
    State.keeps pq (State.awaitLanding s k ps) := by
  unfold State.awaitLanding
  try dsimp only
  repeat' with_reducible first | assumption | apply kept_State_onStore | simp only [State.keeps_mk, State.keeps_fold]

theorem kept_State_placeWrite {pq : List Instr} (s : State) (k : StoreCmd) (n : Namespace) (ps : List Piece) (h_s :
    State.keeps pq s) :
    State.keeps pq (State.placeWrite s k n ps) := by
  unfold State.placeWrite
  try dsimp only
  repeat' with_reducible first
    | assumption | apply kept_State_awaitLanding | apply kept_State_awaitPool | apply kept_State_onStore
    | apply kept_State_finishWrite | simp only [State.keeps_mk, State.keeps_fold] | split

theorem kept_State_readCodewords {pq : List Instr} (s : State) (k : StoreCmd) (n : Namespace) (h_s : State.keeps pq
    s) :
    State.keeps pq (State.readCodewords s k n) := by
  unfold State.readCodewords
  try dsimp only
  repeat' with_reducible first | assumption | simp only [State.keeps_mk, State.keeps_fold]

theorem kept_State_lpGrant {pq : List Instr} (s : State) (tag window : Nat) (h_s : State.keeps pq s) :
    State.keeps pq (State.lpGrant s tag window) := by
  unfold State.lpGrant
  try dsimp only
  repeat' with_reducible first
    | assumption | apply kept_State_lpSend
    | simp only [State.keeps_mk, State.keeps_fold, Lp.inForm_mk, Lp.inForm_fold] | split

theorem kept_State_lpReadEnds {pq : List Instr} (s : State) (k : StoreCmd) (m : Namespace) (h_s : State.keeps pq s) :
    State.keeps pq (State.lpReadEnds s k m) := by
  unfold State.lpReadEnds
  try dsimp only
  repeat' with_reducible first
    | assumption | apply kept_State_lpSend | apply kept_State_lpEnd | simp only [State.keeps_mk, State.keeps_fold]
    | split

theorem kept_State_startStore {pq : List Instr} (s : State) (k : StoreCmd) (data : List (List Byte)) (h_s :
    State.keeps pq s) :
    State.keeps pq (State.startStore s k data) := by
  unfold State.startStore
  try dsimp only
  repeat' with_reducible first
    | assumption | apply kept_State_endStore | apply kept_State_readCodewords | apply kept_State_lpReadEnds
    | apply kept_State_onStore | apply kept_State_lpGrant | apply kept_State_placeWrite
    | simp only [State.keeps_mk, State.keeps_fold, Rl.inForm_mk, Rl.inForm_fold] | split | apply And.intro
    | apply State.keeps.pending | apply State.keeps.sl (p := pq) | apply State.keeps.rl (p := pq)
    | apply State.keeps.se (p := pq) | apply State.keeps.sw (p := pq) | apply State.keeps.lp (p := pq)
    | apply State.keeps.fl (p := pq) | apply State.keeps.tiles (p := pq) | apply State.keeps.jd (p := pq)

theorem kept_State_proceed {pq : List Instr} (s : State) (k : StoreCmd) (data : List (List Byte)) (h_s : State.keeps
    pq s) :
    State.keeps pq (State.proceed s k data) := by
  unfold State.proceed
  try dsimp only
  repeat' with_reducible first
    | assumption | apply kept_State_startStore | apply kept_State_onStore
    | simp only [State.keeps_mk, State.keeps_fold] | split

theorem kept_State_serveStore {pq : List Instr} (s : State) (k : StoreCmd) (data : List (List Byte)) (h_s :
    State.keeps pq s) :
    State.keeps pq (State.serveStore s k data) := by
  unfold State.serveStore
  try dsimp only
  repeat' with_reducible first
    | assumption | apply kept_State_endStore | apply kept_State_onStore | apply kept_State_proceed
    | simp only [State.keeps_mk, State.keeps_fold] | split

theorem kept_State_takeStore {pq : List Instr} (s : State) (c : CmdId) (op : StoreOp) (nsid : Nat) (ranges : List
    (Nat × Nat)) (data : List (List Byte)) (reads : List CodewordRead) (h_s : State.keeps pq s) :
    State.keeps pq (State.takeStore s c op nsid ranges data reads) := by
  unfold State.takeStore
  try dsimp only
  repeat' with_reducible first
    | assumption | apply kept_State_serveStore | apply kept_State_onStore
    | simp only [State.keeps_mk, State.keeps_fold] | split

theorem kept_State_serveHeld {pq : List Instr} (s : State) (h_s : State.keeps pq s) :
    State.keeps pq (State.serveHeld s) := by
  unfold State.serveHeld
  try dsimp only
  repeat' with_reducible first
    | assumption | apply kept_State_serveStore | simp only [State.keeps_mk, State.keeps_fold]
    | (apply kept_foldl; intro _ _ _)

theorem kept_State_storeCommand {pq : List Instr} (s : State) (c : CmdId) (op : StoreOp) (nsid : Nat) (ranges : List
    (Nat × Nat)) (data : List (List Byte)) (reads : List CodewordRead) (h_s : State.keeps pq s) :
    State.keeps pq (State.storeCommand s c op nsid ranges data reads) := by
  unfold State.storeCommand
  try dsimp only
  repeat' with_reducible first
    | assumption | apply kept_State_command | apply kept_State_takeStore
    | simp only [State.keeps_mk, State.keeps_fold] | split | (intro _ _ _) | (intro _ _)

theorem kept_State_grantHeld {pq : List Instr} (s : State) (h_s : State.keeps pq s) :
    State.keeps pq (State.grantHeld s) := by
  unfold State.grantHeld
  try dsimp only
  repeat' with_reducible first
    | assumption | apply kept_State_onStore | apply kept_State_proceed | simp only [State.keeps_mk, State.keeps_fold]
    | split

theorem kept_State_endOverlap {pq : List Instr} (s : State) (c : CmdId) (h_s : State.keeps pq s) :
    State.keeps pq (State.endOverlap s c) := by
  unfold State.endOverlap
  try dsimp only
  repeat' with_reducible first
    | assumption | apply kept_State_startStore | simp only [State.keeps_mk, State.keeps_fold] | split

theorem kept_State_resume {pq : List Instr} (s : State) (c : CmdId) (st : StoreStage) (h_s : State.keeps pq s) :
    State.keeps pq (State.resume s c st) := by
  unfold State.resume
  try dsimp only
  repeat' with_reducible first
    | assumption | apply kept_State_onStore | apply kept_State_finishWrite | apply kept_State_placeWrite
    | simp only [State.keeps_mk, State.keeps_fold] | split

theorem kept_State_stripeVerified {pq : List Instr} (s : State) (k : Nat) (h_s : State.keeps pq s) :
    State.keeps pq (State.stripeVerified s k) := by
  unfold State.stripeVerified
  try dsimp only
  repeat' with_reducible first
    | assumption | apply kept_State_finishWrite | apply kept_State_applyPieces
    | simp only [State.keeps_mk, State.keeps_fold] | (apply kept_foldl; intro _ _ _) | split

theorem kept_State_resetStore {pq : List Instr} (s : State) (lp : Bool) (h_s : State.keeps pq s) :
    State.keeps pq (State.resetStore s lp) := by
  unfold State.resetStore
  try dsimp only
  repeat' with_reducible first | assumption | simp only [State.keeps_mk, State.keeps_fold]

theorem kept_State_failStore {pq : List Instr} (s : State) (h_s : State.keeps pq s) :
    State.keeps pq (State.failStore s) := by
  unfold State.failStore
  try dsimp only
  repeat' with_reducible first
    | assumption | apply kept_State_endStore | simp only [State.keeps_mk, State.keeps_fold]
    | (apply kept_foldl; intro _ _ _)

theorem kept_State_powerLost {pq : List Instr} (s : State) (h_s : State.keeps pq s) :
    State.keeps pq (State.powerLost s) := by
  unfold State.powerLost
  try dsimp only
  repeat' with_reducible first | assumption | simp only [State.keeps_mk, State.keeps_fold] | split

theorem kept_State_settlePower {pq : List Instr} (s : State) (h_s : State.keeps pq s) :
    State.keeps pq (State.settlePower s) := by
  unfold State.settlePower
  try dsimp only
  repeat' with_reducible first
    | assumption | apply kept_State_applyPieces | simp only [State.keeps_mk, State.keeps_fold]
    | (apply kept_foldl; intro _ _ _)

theorem kept_execRead {pq : List Instr} (c : CmdId) (nsid slba : Nat) (len : ReadLen) (s : State)
    (h_s : State.keeps pq s) :
    Answers pq (execRead c nsid slba len s) := by
  unfold execRead
  apply answers_done
  try dsimp only
  repeat' with_reducible first | assumption | apply kept_State_storeCommand

theorem kept_execWrite {pq : List Instr} (c : CmdId) (nsid slba nlb : Nat) (data : List (List Byte)) (s : State)
    (h_s : State.keeps pq s) :
    Answers pq (execWrite c nsid slba nlb data s) := by
  unfold execWrite
  apply answers_done
  try dsimp only
  repeat' with_reducible first | assumption | apply kept_State_storeCommand

theorem kept_execWriteZeroes {pq : List Instr} (c : CmdId) (nsid slba nlb : Nat) (_deac : Bool) (s : State) (h_s :
    State.keeps pq s) :
    Answers pq (execWriteZeroes c nsid slba nlb _deac s) := by
  unfold execWriteZeroes
  apply answers_done
  try dsimp only
  repeat' with_reducible first | assumption | apply kept_State_storeCommand

theorem kept_execDatasetManagementDeallocate {pq : List Instr} (c : CmdId) (nsid : Nat) (ranges : List (Nat × Nat))
    (s : State) (h_s : State.keeps pq s) :
    Answers pq (execDatasetManagementDeallocate c nsid ranges s) := by
  unfold execDatasetManagementDeallocate
  apply answers_done
  try dsimp only
  repeat' with_reducible first
    | assumption | apply kept_State_command | apply kept_State_complete | apply kept_State_storeCommand
    | simp only [State.keeps_mk, State.keeps_fold] | split | intro _ _

theorem kept_execVerify {pq : List Instr} (c : CmdId) (nsid slba : Nat) (len : ReadLen) (s : State)
    (h_s : State.keeps pq s) :
    Answers pq (execVerify c nsid slba len s) := by
  unfold execVerify
  apply answers_done
  try dsimp only
  repeat' with_reducible first | assumption | apply kept_State_storeCommand

theorem kept_execFlush {pq : List Instr} (c : CmdId) (nsid : Nat) (s : State) (h_s : State.keeps pq s) :
    Answers pq (execFlush c nsid s) := by
  unfold execFlush
  apply answers_done
  try dsimp only
  repeat' with_reducible first | assumption | apply kept_State_storeCommand

theorem kept_execRangeLockGranted {pq : List Instr} (s : State) (h_s : State.keeps pq s) :
    Answers pq (execRangeLockGranted s) := by
  unfold execRangeLockGranted
  apply answers_done
  try dsimp only
  repeat' with_reducible first
    | assumption | apply kept_State_grantHeld | simp only [State.keeps_mk, State.keeps_fold] | split

theorem kept_execOverlapWaitEnd {pq : List Instr} (c : CmdId) (s : State) (h_s : State.keeps pq s) :
    Answers pq (execOverlapWaitEnd c s) := by
  unfold execOverlapWaitEnd
  apply answers_done
  try dsimp only
  repeat' with_reducible first
    | assumption | apply kept_State_endOverlap | simp only [State.keeps_mk, State.keeps_fold] | split

theorem kept_execLandingStripeClose {pq : List Instr} (s : State) (h_s : State.keeps pq s) :
    Answers pq (execLandingStripeClose s) := by
  unfold execLandingStripeClose
  apply answers_done
  try dsimp only
  repeat' with_reducible first | assumption | simp only [State.keeps_mk, State.keeps_fold] | split

theorem kept_execLandingStripeVerified {pq : List Instr} (stripe : Nat) (s : State) (h_s : State.keeps pq s) :
    Answers pq (execLandingStripeVerified stripe s) := by
  unfold execLandingStripeVerified
  apply answers_done
  try dsimp only
  repeat' with_reducible first | assumption | apply kept_State_stripeVerified

theorem kept_execWriteResumeLanding {pq : List Instr} (c : CmdId) (s : State) (h_s : State.keeps pq s) :
    Answers pq (execWriteResumeLanding c s) := by
  unfold execWriteResumeLanding
  apply answers_done
  try dsimp only
  repeat' with_reducible first
    | assumption | apply kept_State_resume | simp only [State.keeps_mk, State.keeps_fold] | split

theorem kept_execWriteResumeSnapshot {pq : List Instr} (c : CmdId) (s : State) (h_s : State.keeps pq s) :
    Answers pq (execWriteResumeSnapshot c s) := by
  unfold execWriteResumeSnapshot
  apply answers_done
  try dsimp only
  repeat' with_reducible first
    | assumption | apply kept_State_resume | simp only [State.keeps_mk, State.keeps_fold] | split

/-! ## Keeper -/

theorem kept_State_onNsSq {pq : List Instr} (s : State) (n : Nat) (f : NsSquad → NsSquad) (h_s : State.keeps pq s) :
    State.keeps pq (State.onNsSq s n f) := by
  unfold State.onNsSq
  try dsimp only
  repeat' with_reducible first | assumption | simp only [State.keeps_mk, State.keeps_fold]

theorem kept_State_keeperReport {pq : List Instr} (s : State) (squad tile tensor : Nat) (amax : W32) (h_s :
    State.keeps pq s) :
    State.keeps pq (State.keeperReport s squad tile tensor amax).1 := by
  unfold State.keeperReport
  try dsimp only
  repeat' with_reducible first
    | assumption | apply kept_State_tile | simp only [State.keeps_mk, State.keeps_fold] | split

theorem kept_State_quantCounts {pq : List Instr} (s : State) (squad tensor fmt elems sat under : Nat) (h_s :
    State.keeps pq s) :
    State.keeps pq (State.quantCounts s squad tensor fmt elems sat under) := by
  unfold State.quantCounts
  try dsimp only
  repeat' with_reducible first | assumption | simp only [State.keeps_mk, State.keeps_fold]

theorem kept_State_rendezvousDone {pq : List Instr} (s : State) (squad tensor : Nat) (h_s : State.keeps pq s) :
    State.keeps pq (State.rendezvousDone s squad tensor) := by
  unfold State.rendezvousDone
  try dsimp only
  repeat' with_reducible first | assumption | simp only [State.keeps_mk, State.keeps_fold] | split

theorem kept_State_cutRendezvous {pq : List Instr} (s : State) (squad : Nat) (h_s : State.keeps pq s) :
    State.keeps pq (State.cutRendezvous s squad) := by
  unfold State.cutRendezvous
  try dsimp only
  repeat' with_reducible first | assumption | simp only [State.keeps_mk, State.keeps_fold]

theorem kept_State_closeTensor {pq : List Instr} (s : State) (squad tensor : Nat) (e : Keeper) (cur : W32) (h_s :
    State.keeps pq s) :
    State.keeps pq (State.closeTensor s squad tensor e cur) := by
  unfold State.closeTensor
  try dsimp only
  repeat' with_reducible first
    | assumption | apply kept_State_postCorr | simp only [State.keeps_mk, State.keeps_fold] | split

theorem kept_State_dropKeeper {pq : List Instr} (s : State) (squad : Nat) (h_s : State.keeps pq s) :
    State.keeps pq (State.dropKeeper s squad) := by
  unfold State.dropKeeper
  try dsimp only
  repeat' with_reducible first | assumption | simp only [State.keeps_mk, State.keeps_fold]

theorem kept_State_stepClose {pq : List Instr} (s : State) (squad : Nat) (h_s : State.keeps pq s) :
    State.keeps pq (State.stepClose s squad) := by
  unfold State.stepClose
  try dsimp only
  repeat' with_reducible first
    | assumption | apply kept_State_onNsSq | apply kept_State_closeTensor | apply kept_State_dropKeeper
    | simp only [State.keeps_mk, State.keeps_fold] | (apply kept_foldl; intro _ _ _) | split

theorem kept_State_ratioCheck {pq : List Instr} (s : State) (squad : Nat) (x0 : List LayerSums) (h_s : State.keeps
    pq s) :
    State.keeps pq (State.ratioCheck s squad x0).1 := by
  induction x0 generalizing s with
  | nil =>
    unfold State.ratioCheck
    try dsimp only
    repeat' with_reducible first | assumption
  | cons _ _ ih =>
    unfold State.ratioCheck
    try dsimp only
    repeat' with_reducible first
      | assumption | apply ih | apply kept_State_onNsSq | apply kept_State_postCorr
      | simp only [State.keeps_mk, State.keeps_fold, Tile.inForm_mk, Tile.inForm_fold] | split

theorem kept_State_takeUwr {pq : List Instr} (s : State) (squad : Nat) (h_s : State.keeps pq s) :
    State.keeps pq (State.takeUwr s squad) := by
  unfold State.takeUwr
  try dsimp only
  repeat' with_reducible first | assumption | apply kept_State_onNsSq

theorem kept_State_dropAllKeepers {pq : List Instr} (s : State) (h_s : State.keeps pq s) :
    State.keeps pq (State.dropAllKeepers s) := by
  unfold State.dropAllKeepers
  try dsimp only
  repeat' with_reducible first | assumption | simp only [State.keeps_mk, State.keeps_fold]

theorem kept_State_applyNumerics {pq : List Instr} (s : State) (squad : Nat) (n : Option Numerics) (h_s :
    State.keeps pq s) :
    State.keeps pq (State.applyNumerics s squad n) := by
  unfold State.applyNumerics
  try dsimp only
  repeat' with_reducible first
    | assumption | apply kept_State_onNsSq | simp only [State.keeps_mk, State.keeps_fold] | split

theorem kept_execResetSquad {pq : List Instr} (squad : Nat) (s : State) (h_s : State.keeps pq s) :
    Answers pq (execResetSquad squad s) := by
  unfold execResetSquad
  apply answers_done
  try dsimp only
  repeat' with_reducible first
    | assumption | apply kept_State_onNsSq | simp only [State.keeps_mk, State.keeps_fold] | split

theorem kept_execResetAll {pq : List Instr} (s : State) (h_s : State.keeps pq s) :
    Answers pq (execResetAll s) := by
  unfold execResetAll
  apply answers_done
  try dsimp only
  repeat' with_reducible first
    | assumption | apply kept_State_dropAllKeepers | simp only [State.keeps_mk, State.keeps_fold] | split

theorem kept_execNsClrCnt {pq : List Instr} (s : State) (h_s : State.keeps pq s) :
    Answers pq (execNsClrCnt s) := by
  unfold execNsClrCnt
  apply answers_done
  try dsimp only
  repeat' with_reducible first | assumption | simp only [State.keeps_mk, State.keeps_fold] | split

theorem kept_execNsLookup {pq : List Instr} (v : W32) (s : State) (h_s : State.keeps pq s) :
    Answers pq (execNsLookup v s) := by
  unfold execNsLookup
  apply answers_done
  try dsimp only
  repeat' with_reducible first | assumption | simp only [State.keeps_mk, State.keeps_fold] | split

theorem kept_execCalRendezvousDone {pq : List Instr} (squad tensor : Nat) (s : State) (h_s : State.keeps pq s) :
    Answers pq (execCalRendezvousDone squad tensor s) := by
  unfold execCalRendezvousDone
  apply answers_done
  try dsimp only
  repeat' with_reducible first | assumption | apply kept_State_rendezvousDone

end Sys2Proof.Machine
end

