-- ==== Sys2Proof/Laws/Kept2.lean ====
section
/-! SUPPORT. What every operation keeps (KeptDefs): jobs, the index, objects, laps and serving, and what stops them. -/

namespace Sys2Proof.Machine

/-! ## Index -/

theorem kept_State_syncSegment {pq : List Instr} (s : State) (sup : List Byte) (seg : Segment) (h_s : State.keeps pq
    s) :
    State.keeps pq (State.syncSegment s sup seg) := by
  unfold State.syncSegment
  try dsimp only
  repeat' with_reducible first | assumption | apply kept_State_nearWrite

theorem kept_State_sealOne {pq : List Instr} (s : State) (nsid : Nat) (items : List SideItem) (h_s : State.keeps pq
    s) :
    State.keeps pq (State.sealOne s nsid items) := by
  unfold State.sealOne
  try dsimp only
  repeat' with_reducible first
    | assumption | apply kept_Tile_put | apply kept_State_syncSegment
    | simp only [State.keeps_mk, State.keeps_fold, Rl.inForm_mk, Rl.inForm_fold, Tile.inForm_mk, Tile.inForm_fold]
    | split

theorem kept_State_seal {pq : List Instr} (s : State) (nsid cap : Nat) (x0 : Nat) (x1 : List SideItem) (h_s :
    State.keeps pq s) :
    State.keeps pq (State.seal s nsid cap x0 x1) := by
  induction x0 generalizing s x1 with
  | zero =>
    unfold State.seal
    try dsimp only
    repeat' with_reducible first | assumption
  | succ _ ih =>
    unfold State.seal
    try dsimp only
    repeat' with_reducible first
      | assumption | apply ih | apply kept_State_sealOne | simp only [State.keeps_mk, State.keeps_fold] | split

theorem kept_State_retireSegment {pq : List Instr} (s : State) (nsid num : Nat) (h_s : State.keeps pq s) :
    State.keeps pq (State.retireSegment s nsid num) := by
  unfold State.retireSegment
  try dsimp only
  repeat' with_reducible first
    | assumption | apply kept_Tile_put | apply kept_State_onDir
    | simp only [State.keeps_mk, State.keeps_fold, Rl.inForm_mk, Rl.inForm_fold, Tile.inForm_mk, Tile.inForm_fold]
    | split

theorem kept_State_purgeSegments {pq : List Instr} (s : State) (h_s : State.keeps pq s) :
    State.keeps pq (State.purgeSegments s) := by
  unfold State.purgeSegments
  try dsimp only
  repeat' with_reducible first | assumption | simp only [State.keeps_mk, State.keeps_fold]

theorem kept_State_writeDead {pq : List Instr} (s : State) (squad : Nat) (h_s : State.keeps pq s) :
    State.keeps pq (State.writeDead s squad) := by
  unfold State.writeDead
  try dsimp only
  repeat' with_reducible first
    | assumption | apply kept_State_setTile | apply kept_State_tile | apply kept_Tile_put
    | simp only [State.keeps_mk, State.keeps_fold] | (apply kept_foldl; intro _ _ _) | split

theorem kept_State_homeCode {pq : List Instr} (s : State) (nsid : Nat) (sup : List Byte) (h_s : State.keeps pq s) :
    State.keeps pq (State.homeCode s nsid sup) := by
  unfold State.homeCode
  try dsimp only
  repeat' with_reducible first
    | assumption | apply kept_Tile_put | apply kept_State_onDir
    | simp only [State.keeps_mk, State.keeps_fold, Rl.inForm_mk, Rl.inForm_fold, Tile.inForm_mk, Tile.inForm_fold]
    | split

theorem kept_State_syncTables {pq : List Instr} (s : State) (nsid : Nat) (h_s : State.keeps pq s) :
    State.keeps pq (State.syncTables s nsid) := by
  unfold State.syncTables
  try dsimp only
  repeat' with_reducible first
    | assumption | apply kept_State_nearWrite | simp only [State.keeps_mk, State.keeps_fold] | split

theorem kept_State_takeIndex {pq : List Instr} (s : State) (nsid : Nat) (x : Index) (items : List SideItem) (h_s :
    State.keeps pq s) :
    State.keeps pq (State.takeIndex s nsid x items) := by
  unfold State.takeIndex
  try dsimp only
  repeat' with_reducible first
    | assumption | apply kept_State_homeCode | apply kept_Tile_put | apply kept_State_syncTables
    | apply kept_State_seal | apply kept_State_writeDead
    | simp only [State.keeps_mk, State.keeps_fold, Tile.inForm_mk, Tile.inForm_fold]

theorem kept_State_attachIndex {pq : List Instr} (s : State) (squad nsid region : Nat) (h_s : State.keeps pq s) :
    ∀ t, (State.attachIndex s squad nsid region) = Sum.inr t → State.keeps pq t := by
  intro t ht
  unfold State.attachIndex at ht
  try dsimp only at ht
  repeat' (split at ht)
  all_goals (try simp only [Option.some.injEq, Sum.inr.injEq, reduceCtorEq] at ht)
  all_goals (try subst ht)
  try dsimp only
  repeat' with_reducible first | assumption | apply kept_State_takeIndex

theorem kept_State_detach {pq : List Instr} (s : State) (nsid : Nat) (h_s : State.keeps pq s) :
    State.keeps pq (State.detach s nsid) := by
  unfold State.detach
  try dsimp only
  repeat' with_reducible first
    | assumption | simp only [State.keeps_mk, State.keeps_fold, Rl.inForm_mk, Rl.inForm_fold] | split

theorem kept_State_detachWhere {pq : List Instr} (s : State) (p : Index → Bool) (h_s : State.keeps pq s) :
    State.keeps pq (State.detachWhere s p) := by
  unfold State.detachWhere
  try dsimp only
  repeat' with_reducible first
    | assumption | apply kept_State_detach | simp only [State.keeps_mk, State.keeps_fold]
    | (apply kept_foldl; intro _ _ _)

theorem kept_State_appendChanges {pq : List Instr} (s : State) (nsid : Nat) (x0 : List Change) (h_s : State.keeps pq
    s) :
    State.keeps pq (State.appendChanges s nsid x0).1 := by
  induction x0 generalizing s with
  | nil =>
    unfold State.appendChanges
    try dsimp only
    repeat' with_reducible first | assumption
  | cons _ _ ih =>
    unfold State.appendChanges
    try dsimp only
    repeat' with_reducible first
      | assumption | apply ih | apply kept_Tile_put
      | simp only [State.keeps_mk, State.keeps_fold, Tile.inForm_mk, Tile.inForm_fold] | split

theorem kept_State_admitAppend {pq : List Instr} (s : State) (j : Job) (h_s : State.keeps pq s) :
    ∀ t, (State.admitAppend s j) = Sum.inr t → State.keeps pq t := by
  intro t ht
  unfold State.admitAppend at ht
  try dsimp only at ht
  repeat' (split at ht)
  all_goals (try simp only [Option.some.injEq, Sum.inr.injEq, reduceCtorEq] at ht)
  all_goals (try subst ht)
  try dsimp only
  repeat' with_reducible first | assumption | (refine kept_State_attachIndex _ _ _ _ ?_ _ ‹_›)

theorem kept_State_runAppend {pq : List Instr} (s : State) (j : Job) (h_s : State.keeps pq s) :
    State.keeps pq (State.runAppend s j) := by
  unfold State.runAppend
  try dsimp only
  repeat' with_reducible first
    | assumption | apply kept_State_appendChanges | apply kept_State_onJob | apply kept_State_finishJob
    | apply kept_State_stopJob | simp only [State.keeps_mk, State.keeps_fold] | split

theorem kept_State_nextCommit {pq : List Instr} (s : State) (nsid : Nat) (h_s : State.keeps pq s) :
    State.keeps pq (State.nextCommit s nsid) := by
  unfold State.nextCommit
  try dsimp only
  repeat' with_reducible first
    | assumption | apply kept_Tile_put | apply kept_State_finishJob | apply kept_State_stopJob
    | simp only [State.keeps_mk, State.keeps_fold] | split

theorem kept_State_admitCommit {pq : List Instr} (s : State) (j : Job) (h_s : State.keeps pq s) :
    ∀ t, (State.admitCommit s j) = Sum.inr t → State.keeps pq t := by
  intro t ht
  unfold State.admitCommit at ht
  try dsimp only at ht
  repeat' (split at ht)
  all_goals (try simp only [Option.some.injEq, Sum.inr.injEq, reduceCtorEq] at ht)
  all_goals (try subst ht)
  try dsimp only
  repeat' with_reducible first
    | assumption | apply kept_State_admitJob | apply kept_State_onJob | apply kept_State_nextCommit
    | (refine kept_State_attachIndex _ _ _ _ ?_ _ ‹_›) | simp only [State.keeps_mk, State.keeps_fold]

theorem kept_State_keepDead {pq : List Instr} (s : State) (nsid : Nat) (dead : List (Nat × Nat)) (h_s : State.keeps
    pq s) :
    State.keeps pq (State.keepDead s nsid dead) := by
  refine ⟨h_s.pending, h_s.fl, h_s.sl, h_s.rl, h_s.tiles, h_s.se, h_s.sw, h_s.lp, ?_⟩
  refine jobs_map (fun j => ?_) h_s.jd
  split <;> rfl

theorem kept_State_rebase {pq : List Instr} (s : State) (nsid : Nat) (sup : List Byte) (slot tab : Nat) (more : List
    SideItem) (h_s : State.keeps pq s) :
    State.keeps pq (State.rebase s nsid sup slot tab more) := by
  unfold State.rebase
  try dsimp only
  repeat' with_reducible first
    | assumption | apply kept_State_retireSegment | apply kept_State_keepDead | apply kept_State_homeCode
    | apply kept_State_seal | apply kept_State_syncTables | simp only [State.keeps_mk, State.keeps_fold]
    | (apply kept_foldl; intro _ _ _) | split

theorem kept_State_applyCommit {pq : List Instr} (s : State) (nsid : Nat) (x : Index) (k : PendingCommit) (c : Nat)
    (h_s : State.keeps pq s) :
    State.keeps pq (State.applyCommit s nsid x k c) := by
  unfold State.applyCommit
  try dsimp only
  repeat' with_reducible first
    | assumption | apply kept_State_rebase | apply kept_State_syncSegment | apply kept_Tile_put
    | apply kept_State_seal | apply kept_State_writeDead | apply kept_State_onJob | apply kept_State_finishJob
    | apply kept_State_nextCommit | simp only [State.keeps_mk, State.keeps_fold] | (apply kept_foldl; intro _ _ _)
    | split

theorem kept_State_onCommit {pq : List Instr} (s : State) (nsid : Nat) (f : PendingCommit → PendingCommit) (h_s :
    State.keeps pq s) :
    State.keeps pq (State.onCommit s nsid f) := by
  unfold State.onCommit
  try dsimp only
  repeat' with_reducible first | assumption | simp only [State.keeps_mk, State.keeps_fold]

theorem kept_State_commitEffect {pq : List Instr} (s : State) (nsid : Nat) (h_s : State.keeps pq s) :
    State.keeps pq (State.commitEffect s nsid) := by
  unfold State.commitEffect
  try dsimp only
  repeat' with_reducible first
    | assumption | apply kept_State_nextCommit | apply kept_State_applyCommit | apply kept_State_onCommit
    | simp only [State.keeps_mk, State.keeps_fold] | split

theorem kept_State_readyCommits {pq : List Instr} (s : State) (h_s : State.keeps pq s) :
    State.keeps pq (State.readyCommits s) := by
  unfold State.readyCommits
  try dsimp only
  repeat' with_reducible first
    | assumption | apply kept_State_onCommit | simp only [State.keeps_mk, State.keeps_fold]
    | (apply kept_foldl; intro _ _ _) | split

theorem kept_State_settleCommits {pq : List Instr} (s : State) (h_s : State.keeps pq s) :
    State.keeps pq (State.settleCommits s) := by
  unfold State.settleCommits
  try dsimp only
  repeat' with_reducible first
    | assumption | apply kept_State_commitEffect | simp only [State.keeps_mk, State.keeps_fold]
    | (apply kept_foldl; intro _ _ _)

theorem kept_State_mergeSegments {pq : List Instr} (s : State) (nsid : Nat) (nums : List Nat) (h_s : State.keeps pq
    s) :
    State.keeps pq (State.mergeSegments s nsid nums) := by
  unfold State.mergeSegments
  try dsimp only
  repeat' with_reducible first
    | assumption | apply kept_State_retireSegment | apply kept_State_seal | apply kept_State_nextCommit
    | simp only [State.keeps_mk, State.keeps_fold] | (apply kept_foldl; intro _ _ _) | split

theorem kept_State_compact {pq : List Instr} (s : State) (nsid : Nat) (h_s : State.keeps pq s) :
    State.keeps pq (State.compact s nsid) := by
  unfold State.compact
  try dsimp only
  repeat' with_reducible first
    | assumption | apply kept_State_syncSegment | apply kept_Tile_put | apply kept_State_syncTables
    | apply kept_State_writeDead | simp only [State.keeps_mk, State.keeps_fold] | (apply kept_foldl; intro _ _ _)
    | split

theorem kept_execCommitTakeEffect {pq : List Instr} (nsid : Nat) (s : State) (h_s : State.keeps pq s) :
    Answers pq (execCommitTakeEffect nsid s) := by
  unfold execCommitTakeEffect
  apply answers_done
  try dsimp only
  repeat' with_reducible first
    | assumption | apply kept_State_commitEffect | simp only [State.keeps_mk, State.keeps_fold] | split

theorem kept_execSideListMerge {pq : List Instr} (nsid : Nat) (segments : List Nat) (s : State) (h_s : State.keeps
    pq s) :
    Answers pq (execSideListMerge nsid segments s) := by
  unfold execSideListMerge
  apply answers_done
  try dsimp only
  repeat' with_reducible first
    | assumption | apply kept_State_purgeSegments | apply kept_State_mergeSegments | apply kept_State_endBg
    | simp only [State.keeps_mk, State.keeps_fold] | split

theorem kept_execIndexCompaction {pq : List Instr} (nsid : Nat) (s : State) (h_s : State.keeps pq s) :
    Answers pq (execIndexCompaction nsid s) := by
  unfold execIndexCompaction
  apply answers_done
  try dsimp only
  repeat' with_reducible first
    | assumption | apply kept_State_purgeSegments | apply kept_State_compact | apply kept_State_endBg
    | simp only [State.keeps_mk, State.keeps_fold] | split

/-! ## ScanJobs -/

theorem kept_State_writeChunks {pq : List Instr} (s : State) (tag i bad : Nat) (x0 : List (List (List Byte))) (h_s :
    State.keeps pq s) :
    State.keeps pq (State.writeChunks s tag i bad x0).1 := by
  induction x0 generalizing s with
  | nil =>
    unfold State.writeChunks
    try dsimp only
    repeat' with_reducible first | assumption
  | cons _ _ ih =>
    unfold State.writeChunks
    try dsimp only
    repeat' with_reducible first
      | assumption | apply ih | apply kept_State_writeResult | apply kept_State_onJob
      | simp only [State.keeps_mk, State.keeps_fold] | split

theorem kept_State_issueExtents {pq : List Instr} (s : State) (tag : Nat) (x0 : Nat) (h_s : State.keeps pq s) :
    State.keeps pq (State.issueExtents s tag x0) := by
  induction x0 generalizing s with
  | zero =>
    unfold State.issueExtents
    try dsimp only
    repeat' with_reducible first | assumption
  | succ _ ih =>
    unfold State.issueExtents
    try dsimp only
    repeat' with_reducible first
      | assumption | apply ih | apply kept_State_onJob
      | simp only [State.keeps_mk, State.keeps_fold, Tile.inForm_mk, Tile.inForm_fold] | split

theorem kept_State_endScan {pq : List Instr} (s : State) (tag : Nat) (h_s : State.keeps pq s) :
    State.keeps pq (State.endScan s tag) := by
  unfold State.endScan
  try dsimp only
  repeat' with_reducible first
    | assumption | apply kept_State_onJob | apply kept_State_finishJob | simp only [State.keeps_mk, State.keeps_fold]
    | split

theorem kept_State_stopScan {pq : List Instr} (s : State) (tag code : Nat) (h_s : State.keeps pq s) :
    State.keeps pq (State.stopScan s tag code) := by
  unfold State.stopScan
  try dsimp only
  repeat' with_reducible first | assumption | apply kept_State_onJob | apply kept_State_endScan

theorem kept_State_linkBatches {pq : List Instr} (s : State) (tag : Nat) (x0 : Nat) (h_s : State.keeps pq s) :
    State.keeps pq (State.linkBatches s tag x0) := by
  induction x0 generalizing s with
  | zero =>
    unfold State.linkBatches
    try dsimp only
    repeat' with_reducible first | assumption
  | succ _ ih =>
    unfold State.linkBatches
    try dsimp only
    repeat' with_reducible first
      | assumption | apply ih | apply kept_State_stopScan | apply kept_State_appendChanges | apply kept_State_onJob
      | simp only [State.keeps_mk, State.keeps_fold] | split

theorem kept_State_countExtent {pq : List Instr} (s : State) (j : Job) (r : List Rec × Nat) (ms : List Rec) (o :
    ExtentOut) (h_s : State.keeps pq s) :
    State.keeps pq (State.countExtent s j r ms o) := by
  unfold State.countExtent
  try dsimp only
  repeat' with_reducible first | assumption | apply kept_State_onJob

theorem kept_State_deliver {pq : List Instr} (s : State) (tick : Nat) (j : Job) (i bad : Nat) (ms : List Rec) (o :
    ExtentOut) (h_s : State.keeps pq s) :
    State.keeps pq (State.deliver s tick j i bad ms o) := by
  unfold State.deliver
  try dsimp only
  repeat' with_reducible first
    | assumption | apply kept_State_onJob | apply kept_State_linkBatches | apply kept_State_writeChunks
    | simp only [State.keeps_mk, State.keeps_fold] | split

theorem kept_State_extentEnds {pq : List Instr} (s : State) (j : Job) (y : Layout) (i : Nat) (es : List EmbedOut)
    (h_s : State.keeps pq s) :
    State.keeps pq (State.extentEnds s j y i es) := by
  unfold State.extentEnds
  try dsimp only
  repeat' with_reducible first
    | assumption | apply kept_State_onJob | apply kept_State_stopJob | apply kept_State_countExtent
    | apply kept_State_deliver | apply kept_State_stepClose | apply kept_State_endScan | apply kept_State_issueExtents
    | simp only [State.keeps_mk, State.keeps_fold] | split

theorem kept_execExtentDone {pq : List Instr} (tag extent : Nat) (embeds : List EmbedOut) (s : State) (h_s :
    State.keeps pq s) :
    Answers pq (execExtentDone tag extent embeds s) := by
  unfold execExtentDone
  apply answers_done
  try dsimp only
  repeat' with_reducible first
    | assumption | apply kept_State_extentEnds | simp only [State.keeps_mk, State.keeps_fold] | split

/-! ## Serving -/

theorem kept_State_onModel {pq : List Instr} (s : State) (slot : Nat) (f : Model → Model) (h_s : State.keeps pq s) :
    State.keeps pq (State.onModel s slot f) := by
  unfold State.onModel
  try dsimp only
  repeat' with_reducible first
    | assumption | simp only [State.keeps_mk, State.keeps_fold, Jd.inForm_mk, Jd.inForm_fold]

theorem kept_State_onSeq {pq : List Instr} (s : State) (id : Nat) (f : Sequence → Sequence) (h_s : State.keeps pq s) :
    State.keeps pq (State.onSeq s id f) := by
  unfold State.onSeq
  try dsimp only
  repeat' with_reducible first
    | assumption | simp only [State.keeps_mk, State.keeps_fold, Jd.inForm_mk, Jd.inForm_fold]

theorem kept_State_onPool {pq : List Instr} (s : State) (m : Model) (f : KvPool → KvPool) (h_s : State.keeps pq s) :
    State.keeps pq (State.onPool s m f) := by
  unfold State.onPool
  try dsimp only
  repeat' with_reducible first
    | assumption | simp only [State.keeps_mk, State.keeps_fold, Jd.inForm_mk, Jd.inForm_fold]

theorem kept_State_addPages {pq : List Instr} (s : State) (m : Model) (ps : List Nat) (h_s : State.keeps pq s) :
    State.keeps pq (State.addPages s m ps) := by
  unfold State.addPages
  try dsimp only
  repeat' with_reducible first | assumption | apply kept_State_onPool

theorem kept_State_takePages {pq : List Instr} (s : State) (m : Model) (id n : Nat) (h_s : State.keeps pq s) :
    State.keeps pq (State.takePages s m id n) := by
  unfold State.takePages
  try dsimp only
  repeat' with_reducible first | assumption | apply kept_State_onPool | apply kept_State_onSeq

theorem kept_State_notePlan {pq : List Instr} (s : State) (m : Model) (h_s : State.keeps pq s) :
    State.keeps pq (State.notePlan s m) := by
  unfold State.notePlan
  try dsimp only
  repeat' with_reducible first | assumption | apply kept_State_onPool

theorem kept_State_modelDone {pq : List Instr} (s : State) (code : Nat) (h_s : State.keeps pq s) :
    State.keeps pq (State.modelDone s code) := by
  unfold State.modelDone
  try dsimp only
  repeat' with_reducible first
    | assumption | simp only [State.keeps_mk, State.keeps_fold, Jd.inForm_mk, Jd.inForm_fold]

theorem kept_State_register {pq : List Instr} (s : State) (slot : Nat) (r : List Byte) (h_s : State.keeps pq s) :
    State.keeps pq (State.register s slot r) := by
  unfold State.register
  try dsimp only
  repeat' with_reducible first
    | assumption | apply kept_State_modelDone | apply kept_Tile_put
    | simp only [State.keeps_mk, State.keeps_fold, Tile.inForm_mk, Tile.inForm_fold, Jd.inForm_mk, Jd.inForm_fold]
    | split

theorem kept_State_dropModel {pq : List Instr} (s : State) (slot : Nat) (h_s : State.keeps pq s) :
    State.keeps pq (State.dropModel s slot) := by
  unfold State.dropModel
  try dsimp only
  repeat' with_reducible first
    | assumption | simp only [State.keeps_mk, State.keeps_fold, Jd.inForm_mk, Jd.inForm_fold] | split

theorem kept_State_unregister {pq : List Instr} (s : State) (slot : Nat) (h_s : State.keeps pq s) :
    State.keeps pq (State.unregister s slot) := by
  unfold State.unregister
  try dsimp only
  repeat' with_reducible first
    | assumption | apply kept_State_modelDone | apply kept_State_dropModel
    | simp only [State.keeps_mk, State.keeps_fold] | split

theorem kept_State_modelCtl {pq : List Instr} (s : State) (v : W32) (op : Bool) (r : List Byte) (h_s : State.keeps
    pq s) :
    State.keeps pq (State.modelCtl s v op r) := by
  unfold State.modelCtl
  try dsimp only
  repeat' with_reducible first
    | assumption | apply kept_State_unregister | apply kept_State_register
    | simp only [State.keeps_mk, State.keeps_fold, Jd.inForm_mk, Jd.inForm_fold] | split

theorem kept_State_leaveBatch {pq : List Instr} (s : State) (id : Nat) (h_s : State.keeps pq s) :
    State.keeps pq (State.leaveBatch s id) := by
  unfold State.leaveBatch
  try dsimp only
  repeat' with_reducible first
    | assumption | apply kept_State_addPages | apply kept_State_onSeq | apply kept_State_onModel
    | simp only [State.keeps_mk, State.keeps_fold] | split

theorem kept_State_requeue {pq : List Instr} (s : State) (slot id : Nat) (h_s : State.keeps pq s) :
    State.keeps pq (State.requeue s slot id) := by
  unfold State.requeue
  try dsimp only
  repeat' with_reducible first | assumption | apply kept_State_onModel

theorem kept_State_recall {pq : List Instr} (s : State) (id : Nat) (h_s : State.keeps pq s) :
    State.keeps pq (State.recall s id) := by
  unfold State.recall
  try dsimp only
  repeat' with_reducible first
    | assumption | apply kept_State_leaveBatch | apply kept_State_requeue | apply kept_State_onSeq
    | apply kept_State_onJob | simp only [State.keeps_mk, State.keeps_fold, Jd.inForm_mk, Jd.inForm_fold] | split

theorem kept_State_runOpen {pq : List Instr} (s : State) (j : Job) (h_s : State.keeps pq s) :
    State.keeps pq (State.runOpen s j) := by
  unfold State.runOpen
  try dsimp only
  repeat' with_reducible first
    | assumption | apply kept_State_stopJob | apply kept_State_admitJob | apply kept_Tile_put
    | apply kept_State_finishJob
    | simp only [State.keeps_mk, State.keeps_fold, Tile.inForm_mk, Tile.inForm_fold, Jd.inForm_mk, Jd.inForm_fold]
    | split

theorem kept_State_admitServe {pq : List Instr} (s : State) (j : Job) (h_s : State.keeps pq s) :
    ∀ t, (State.admitServe s j) = some (Sum.inr t) → State.keeps pq t := by
  intro t ht
  unfold State.admitServe at ht
  try dsimp only at ht
  repeat' (split at ht)
  all_goals (try simp only [Option.some.injEq, Sum.inr.injEq, reduceCtorEq] at ht)
  all_goals (try subst ht)
  try dsimp only
  repeat' with_reducible first
    | assumption | apply kept_State_admitJob | apply kept_State_onJob | apply kept_State_onSeq
    | apply kept_State_onModel

theorem kept_State_endAppend {pq : List Instr} (s : State) (id reason : Nat) (h_s : State.keeps pq s) :
    State.keeps pq (State.endAppend s id reason) := by
  unfold State.endAppend
  try dsimp only
  repeat' with_reducible first
    | assumption | apply kept_State_leaveBatch | apply kept_State_onSeq | apply kept_State_onJob
    | apply kept_State_finishJob | simp only [State.keeps_mk, State.keeps_fold] | split

theorem kept_State_cutAppend {pq : List Instr} (s : State) (id code st dw0 : Nat) (h_s : State.keeps pq s) :
    State.keeps pq (State.cutAppend s id code st dw0) := by
  unfold State.cutAppend
  try dsimp only
  repeat' with_reducible first
    | assumption | apply kept_State_onSeq | apply kept_State_onModel | apply kept_State_stopJob
    | simp only [State.keeps_mk, State.keeps_fold] | split

theorem kept_State_removeSeq {pq : List Instr} (s : State) (id : Nat) (h_s : State.keeps pq s) :
    State.keeps pq (State.removeSeq s id) := by
  unfold State.removeSeq
  try dsimp only
  repeat' with_reducible first
    | assumption | apply kept_State_leaveBatch | apply kept_State_finishJob
    | simp only [State.keeps_mk, State.keeps_fold, Jd.inForm_mk, Jd.inForm_fold] | (apply kept_foldl; intro _ _ _)
    | split

theorem kept_State_noteLen {pq : List Instr} (s : State) (id : Nat) (h_s : State.keeps pq s) :
    State.keeps pq (State.noteLen s id) := by
  unfold State.noteLen
  try dsimp only
  repeat' with_reducible first
    | assumption | apply kept_State_onJob | simp only [State.keeps_mk, State.keeps_fold] | split

theorem kept_State_closeSeq {pq : List Instr} (s : State) (id : Nat) (h_s : State.keeps pq s) :
    State.keeps pq (State.closeSeq s id) := by
  unfold State.closeSeq
  try dsimp only
  repeat' with_reducible first
    | assumption | apply kept_State_noteLen | apply kept_State_leaveBatch | apply kept_State_onJob
    | apply kept_State_finishJob | simp only [State.keeps_mk, State.keeps_fold, Jd.inForm_mk, Jd.inForm_fold]
    | (apply kept_foldl; intro _ _ _) | split

theorem kept_State_closeCut {pq : List Instr} (s : State) (id code st dw0 : Nat) (h_s : State.keeps pq s) :
    State.keeps pq (State.closeCut s id code st dw0) := by
  unfold State.closeCut
  try dsimp only
  repeat' with_reducible first
    | assumption | apply kept_State_noteLen | apply kept_State_leaveBatch | apply kept_State_stopJob
    | apply kept_State_finishJob | simp only [State.keeps_mk, State.keeps_fold, Jd.inForm_mk, Jd.inForm_fold]
    | (apply kept_foldl; intro _ _ _) | split

theorem kept_State_runClose {pq : List Instr} (s : State) (j : Job) (h_s : State.keeps pq s) :
    State.keeps pq (State.runClose s j) := by
  unfold State.runClose
  try dsimp only
  repeat' with_reducible first
    | assumption | apply kept_State_stopJob | apply kept_State_admitJob | apply kept_State_onSeq
    | apply kept_State_closeSeq | simp only [State.keeps_mk, State.keeps_fold] | split

theorem kept_State_recallFor {pq : List Instr} (s : State) (slot : Nat) (x0 : Nat) (x1 : List Nat) (x2 : Nat) (h_s :
    State.keeps pq s) :
    State.keeps pq (State.recallFor s slot x0 x1 x2).1 := by
  induction x0 generalizing s x1 x2 with
  | zero =>
    unfold State.recallFor
    try dsimp only
    repeat' with_reducible first | assumption
  | succ _ ih =>
    unfold State.recallFor
    try dsimp only
    repeat' with_reducible first
      | assumption | apply ih | apply kept_State_recall | simp only [State.keeps_mk, State.keeps_fold] | split

theorem kept_State_giveDecodePages {pq : List Instr} (s : State) (m : Model) (dec : List Nat) (h_s : State.keeps pq
    s) :
    State.keeps pq (State.giveDecodePages s m dec) := by
  unfold State.giveDecodePages
  try dsimp only
  repeat' with_reducible first
    | assumption | apply kept_State_takePages | apply kept_State_onSeq | simp only [State.keeps_mk, State.keeps_fold]
    | (apply kept_foldl; intro _ _ _) | split

theorem kept_State_joins {pq : List Instr} (s : State) (slot : Nat) (x0 : Nat) (x1 : Nat) (h_s : State.keeps pq s) :
    State.keeps pq (State.joins s slot x0 x1).1 := by
  induction x0 generalizing s x1 with
  | zero =>
    unfold State.joins
    try dsimp only
    repeat' with_reducible first | assumption
  | succ _ ih =>
    unfold State.joins
    try dsimp only
    repeat' with_reducible first
      | assumption | apply ih | apply kept_State_onModel | apply kept_State_takePages | apply kept_State_onSeq
      | simp only [State.keeps_mk, State.keeps_fold] | split

theorem kept_State_setLaps {pq : List Instr} (s : State) (squad : Nat) (l : LapState) (h_s : State.keeps pq s) :
    State.keeps pq (State.setLaps s squad l) := by
  unfold State.setLaps
  try dsimp only
  repeat' with_reducible first
    | assumption | apply kept_Tile_put
    | simp only [State.keeps_mk, State.keeps_fold, Tile.inForm_mk, Tile.inForm_fold, Jd.inForm_mk, Jd.inForm_fold]

theorem kept_State_noteQuiet {pq : List Instr} (s : State) (atBeat : Bool) (squad : Nat) (h_s : State.keeps pq s) :
    State.keeps pq (State.noteQuiet s atBeat squad) := by
  unfold State.noteQuiet
  try dsimp only
  repeat' with_reducible first
    | assumption | apply kept_Tile_put
    | simp only [State.keeps_mk, State.keeps_fold, Sl.inForm_mk, Sl.inForm_fold, Tile.inForm_mk, Tile.inForm_fold]

theorem kept_State_unquiet {pq : List Instr} (s : State) (squad : Nat) (h_s : State.keeps pq s) :
    State.keeps pq (State.unquiet s squad) := by
  unfold State.unquiet
  try dsimp only
  repeat' with_reducible first
    | assumption | simp only [State.keeps_mk, State.keeps_fold, Sl.inForm_mk, Sl.inForm_fold]

theorem kept_State_planModel {pq : List Instr} (s : State) (squad : Nat) (q : Squad) (slot : Nat) (m : Model) (h_s :
    State.keeps pq s) :
    State.keeps pq (State.planModel s squad q slot m).1 := by
  unfold State.planModel
  try dsimp only
  repeat' with_reducible first
    | assumption | apply kept_State_recallFor | apply kept_State_giveDecodePages | apply kept_State_joins
    | apply kept_State_notePlan | apply kept_State_drawNat | apply kept_Tile_put | apply kept_State_onModel
    | apply kept_State_setLaps
    | simp only [State.keeps_mk, State.keeps_fold, Tile.inForm_mk, Tile.inForm_fold, Jd.inForm_mk, Jd.inForm_fold]
    | split

theorem kept_State_planFirst {pq : List Instr} (s : State) (squad : Nat) (q : Squad) (x0 : List (Nat × Model)) (h_s
    : State.keeps pq s) :
    State.keeps pq (State.planFirst s squad q x0) := by
  induction x0 generalizing s with
  | nil =>
    unfold State.planFirst
    try dsimp only
    repeat' with_reducible first | assumption
  | cons _ _ ih =>
    unfold State.planFirst
    try dsimp only
    repeat' with_reducible first
      | assumption | apply ih | apply kept_State_planModel | simp only [State.keeps_mk, State.keeps_fold] | split

theorem kept_State_tokenFor {pq : List Instr} (s : State) (h : HurdleInfo) (vocab id : Nat) (q : Sequence) (h_s :
    State.keeps pq s) :
    State.keeps pq (State.tokenFor s h vocab id q).2 := by
  unfold State.tokenFor
  try dsimp only
  repeat' with_reducible first
    | assumption | apply kept_State_drawNat | simp only [State.keeps_mk, State.keeps_fold] | split

theorem kept_State_produce {pq : List Instr} (s : State) (h : HurdleInfo) (id : Nat) (h_s : State.keeps pq s) :
    State.keeps pq (State.produce s h id) := by
  unfold State.produce
  try dsimp only
  repeat' with_reducible first
    | assumption | apply kept_State_endAppend | apply kept_State_tokenFor | apply kept_State_hostWrite
    | apply kept_State_onSeq | apply kept_State_onJob | simp only [State.keeps_mk, State.keeps_fold] | split

theorem kept_State_prefilled {pq : List Instr} (s : State) (h : HurdleInfo) (id n : Nat) (h_s : State.keeps pq s) :
    State.keeps pq (State.prefilled s h id n) := by
  unfold State.prefilled
  try dsimp only
  repeat' with_reducible first
    | assumption | apply kept_State_onSeq | apply kept_State_produce | simp only [State.keeps_mk, State.keeps_fold]
    | split

theorem kept_State_hurdleEnds {pq : List Instr} (s : State) (squad : Nat) (h_s : State.keeps pq s) :
    State.keeps pq (State.hurdleEnds s squad) := by
  unfold State.hurdleEnds
  try dsimp only
  repeat' with_reducible first
    | assumption | apply kept_State_cutAppend | apply kept_State_closeCut | apply kept_State_closeSeq
    | simp only [State.keeps_mk, State.keeps_fold] | (apply kept_foldl; intro _ _ _) | split

theorem kept_State_fillerPasses {pq : List Instr} (s : State) (h : HurdleInfo) (slot : Nat) (h_s : State.keeps pq s) :
    State.keeps pq (State.fillerPasses s h slot) := by
  unfold State.fillerPasses
  try dsimp only
  repeat' with_reducible first
    | assumption | apply kept_State_onModel | apply kept_State_prefilled
    | simp only [State.keeps_mk, State.keeps_fold] | split

theorem kept_State_serveHurdle {pq : List Instr} (s : State) (squad : Nat) (l : Lap) (h : HurdleInfo) (h_s :
    State.keeps pq s) :
    State.keeps pq (State.serveHurdle s squad l h) := by
  unfold State.serveHurdle
  try dsimp only
  repeat' with_reducible first
    | assumption | apply kept_State_onSeq | apply kept_State_produce | apply kept_State_prefilled
    | apply kept_State_fillerPasses | apply kept_State_hurdleEnds | simp only [State.keeps_mk, State.keeps_fold]
    | (apply kept_foldl; intro _ _ _) | split

theorem kept_execModelRegister {pq : List Instr} (v : W32) (record : List Byte) (s : State) (h_s : State.keeps pq s) :
    Answers pq (execModelRegister v record s) := by
  unfold execModelRegister
  apply answers_done
  try dsimp only
  repeat' with_reducible first | assumption | apply kept_State_modelCtl

theorem kept_execModelUnregister {pq : List Instr} (v : W32) (s : State) (h_s : State.keeps pq s) :
    Answers pq (execModelUnregister v s) := by
  unfold execModelUnregister
  apply answers_done
  try dsimp only
  repeat' with_reducible first | assumption | apply kept_State_modelCtl

theorem kept_execDecodeCapRise {pq : List Instr} (slot : Nat) (s : State) (h_s : State.keeps pq s) :
    Answers pq (execDecodeCapRise slot s) := by
  unfold execDecodeCapRise
  apply answers_done
  try dsimp only
  repeat' with_reducible first
    | assumption | apply kept_State_onModel | simp only [State.keeps_mk, State.keeps_fold] | split

theorem kept_execJdSplitSel {pq : List Instr} (v : W32) (s : State) (h_s : State.keeps pq s) :
    Answers pq (execJdSplitSel v s) := by
  unfold execJdSplitSel
  apply answers_done
  try dsimp only
  repeat' with_reducible first
    | assumption | simp only [State.keeps_mk, State.keeps_fold, Jd.inForm_mk, Jd.inForm_fold] | split

/-! ## Objects -/

theorem kept_State_endPublish {pq : List Instr} (s : State) (k : ObjCmd) (tag begun programmed total changed st dw0
    : Nat) (h_s : State.keeps pq s) :
    State.keeps pq (State.endPublish s k tag begun programmed total changed st dw0) := by
  unfold State.endPublish
  try dsimp only
  repeat' with_reducible first | assumption | apply kept_State_writeProgress | apply kept_State_complete

theorem kept_State_refuseObj {pq : List Instr} (s : State) (k : ObjCmd) (st : Nat) (h_s : State.keeps pq s) :
    State.keeps pq (State.refuseObj s k st) := by
  unfold State.refuseObj
  try dsimp only
  repeat' with_reducible first
    | assumption | apply kept_State_endPublish | apply kept_State_complete
    | simp only [State.keeps_mk, State.keeps_fold, Jd.inForm_mk, Jd.inForm_fold] | split | apply And.intro
    | apply State.keeps.pending | apply State.keeps.sl (p := pq) | apply State.keeps.rl (p := pq)
    | apply State.keeps.se (p := pq) | apply State.keeps.sw (p := pq) | apply State.keeps.lp (p := pq)
    | apply State.keeps.fl (p := pq) | apply State.keeps.tiles (p := pq) | apply State.keeps.jd (p := pq)
    | exact Jd.inForm_reset | apply Jd.inForm.jobs | apply jobs_filter | apply jobs_succ

theorem kept_State_dirFullEnd {pq : List Instr} (s : State) (k : ObjCmd) (h_s : State.keeps pq s) :
    State.keeps pq (State.dirFullEnd s k) := by
  unfold State.dirFullEnd
  try dsimp only
  repeat' with_reducible first
    | assumption | apply kept_State_refuseObj
    | simp only [State.keeps_mk, State.keeps_fold, Rl.inForm_mk, Rl.inForm_fold]

theorem kept_State_promote {pq : List Instr} (s : State) (k : ObjCmd) (e : DirEntry) (r : Option Region) (h_s :
    State.keeps pq s) :
    State.keeps pq (State.promote s k e r) := by
  unfold State.promote
  try dsimp only
  repeat' with_reducible first
    | assumption | apply kept_State_complete | apply kept_State_onDir | simp only [State.keeps_mk, State.keeps_fold]
    | (apply kept_foldl; intro _ _ _) | split

theorem kept_State_startPlace {pq : List Instr} (s : State) (k : ObjCmd) (r : Region) (h_s : State.keeps pq s) :
    State.keeps pq (State.startPlace s k r) := by
  unfold State.startPlace
  try dsimp only
  repeat' with_reducible first
    | assumption | apply kept_State_complete | apply kept_State_dirFullEnd | apply kept_State_takeStore
    | simp only [State.keeps_mk, State.keeps_fold, Rl.inForm_mk, Rl.inForm_fold] | split

theorem kept_State_startPublish {pq : List Instr} (s : State) (k : ObjCmd) (b ver : Nat) (h_s : State.keeps pq s) :
    State.keeps pq (State.startPublish s k b ver) := by
  unfold State.startPublish
  try dsimp only
  repeat' with_reducible first
    | assumption | apply kept_State_refuseObj | apply kept_State_takePin
    | simp only [State.keeps_mk, State.keeps_fold, Rl.inForm_mk, Rl.inForm_fold, Jd.inForm_mk, Jd.inForm_fold] | split
    | apply And.intro | apply State.keeps.pending | apply State.keeps.sl (p := pq) | apply State.keeps.rl (p := pq)
    | apply State.keeps.se (p := pq) | apply State.keeps.sw (p := pq) | apply State.keeps.lp (p := pq)
    | apply State.keeps.fl (p := pq) | apply State.keeps.tiles (p := pq) | apply State.keeps.jd (p := pq)
    | apply Rl.inForm.near | apply Rl.inForm.far | exact Rl.inForm_reset | exact Jd.inForm_reset
    | apply Jd.inForm.jobs | apply jobs_filter | apply jobs_succ

theorem kept_State_runObj {pq : List Instr} (s : State) (k : ObjCmd) (h_s : State.keeps pq s) :
    State.keeps pq (State.runObj s k) := by
  unfold State.runObj
  try dsimp only
  repeat' with_reducible first
    | assumption | apply kept_State_refuseObj | apply kept_State_dirFullEnd | apply kept_State_startPublish
    | apply kept_State_onDir | apply kept_State_complete | apply kept_State_promote | apply kept_State_startPlace
    | simp only [State.keeps_mk, State.keeps_fold] | split

theorem kept_State_objArrives {pq : List Instr} (s : State) (k : ObjCmd) (h_s : State.keeps pq s) :
    State.keeps pq (State.objArrives s k) := by
  unfold State.objArrives
  try dsimp only
  repeat' with_reducible first
    | assumption | apply kept_State_runObj
    | simp only [State.keeps_mk, State.keeps_fold, Rl.inForm_mk, Rl.inForm_fold] | split

theorem kept_State_nextObj {pq : List Instr} (s : State) (o : Nat) (h_s : State.keeps pq s) :
    State.keeps pq (State.nextObj s o) := by
  unfold State.nextObj
  try dsimp only
  repeat' with_reducible first
    | assumption | apply kept_State_runObj
    | simp only [State.keeps_mk, State.keeps_fold, Rl.inForm_mk, Rl.inForm_fold] | split

theorem kept_State_objCommand {pq : List Instr} (s : State) (k : ObjCmd) (h_s : State.keeps pq s) :
    State.keeps pq (State.objCommand s k) := by
  unfold State.objCommand
  try dsimp only
  repeat' with_reducible first
    | assumption | apply kept_State_fetch | apply kept_State_refuseObj | apply kept_State_objArrives
    | simp only [State.keeps_mk, State.keeps_fold] | split

theorem kept_State_nearLost {pq : List Instr} (s : State) (o : Nat) (h_s : State.keeps pq s) :
    State.keeps pq (State.nearLost s o) := by
  unfold State.nearLost
  try dsimp only
  repeat' with_reducible first
    | assumption | apply kept_State_dropEntry | apply kept_State_onDir | apply kept_State_endEvicts
    | apply kept_State_endPlaces | apply kept_State_refuseObj | apply kept_State_nextObj
    | simp only [State.keeps_mk, State.keeps_fold] | (apply kept_foldl; intro _ _ _) | split

theorem kept_State_oldLost {pq : List Instr} (s : State) (o : Nat) (h_s : State.keeps pq s) :
    State.keeps pq (State.oldLost s o) := by
  unfold State.oldLost
  try dsimp only
  repeat' with_reducible first
    | assumption | apply kept_State_onDir | apply kept_State_endEvicts | apply kept_State_nextObj
    | simp only [State.keeps_mk, State.keeps_fold] | split

theorem kept_State_setCurrent {pq : List Instr} (s : State) (o : Nat) (v : Version) (st : DirState) (h_s :
    State.keeps pq s) :
    State.keeps pq (State.setCurrent s o v st) := by
  unfold State.setCurrent
  try dsimp only
  repeat' with_reducible first
    | assumption | apply kept_State_onDir | apply kept_State_endEvicts | apply kept_State_complete
    | apply kept_State_refuseObj | simp only [State.keeps_mk, State.keeps_fold, Rl.inForm_mk, Rl.inForm_fold]
    | (apply kept_foldl; intro _ _ _) | split

theorem kept_State_dropCopy {pq : List Instr} (s : State) (c : Copy) (h_s : State.keeps pq s) :
    State.keeps pq (State.dropCopy s c) := by
  unfold State.dropCopy
  try dsimp only
  repeat' with_reducible first
    | assumption | simp only [State.keeps_mk, State.keeps_fold, Rl.inForm_mk, Rl.inForm_fold]

theorem kept_State_copyBatons {pq : List Instr} (s : State) (v : Version) (m k : Nat) (h_s : State.keeps pq s) :
    State.keeps pq (State.copyBatons s v m k) := by
  unfold State.copyBatons
  try dsimp only
  repeat' with_reducible first | assumption | apply kept_State_nearWrite

theorem kept_State_promoteOn {pq : List Instr} (s : State) (o room : Nat) (h_s : State.keeps pq s) :
    State.keeps pq (State.promoteOn s o room).1 := by
  unfold State.promoteOn
  try dsimp only
  repeat' with_reducible first
    | assumption | apply kept_State_drawNat | apply kept_State_copyBatons | apply kept_State_onDir
    | simp only [State.keeps_mk, State.keeps_fold, Rl.inForm_mk, Rl.inForm_fold] | split

theorem kept_State_promoteAll {pq : List Instr} (s : State) (ns : Nat) (h_s : State.keeps pq s) :
    State.keeps pq (State.promoteAll s ns) := by
  unfold State.promoteAll
  try dsimp only
  repeat' with_reducible first
    | assumption | apply kept_State_promoteOn | simp only [State.keeps_mk, State.keeps_fold]
    | (apply kept_foldl_fst; intro _ _ _)

theorem kept_State_farDamaged {pq : List Instr} (s : State) (channel addr o : Nat) (h_s : State.keeps pq s) :
    State.keeps pq (State.farDamaged s channel addr o) := by
  unfold State.farDamaged
  try dsimp only
  repeat' with_reducible first
    | assumption | apply kept_State_onDir | apply kept_State_post
    | simp only [State.keeps_mk, State.keeps_fold, Rl.inForm_mk, Rl.inForm_fold]

theorem kept_State_promoted {pq : List Instr} (s : State) (o : Nat) (e : DirEntry) (r : CopyResult) (h_s :
    State.keeps pq s) :
    State.keeps pq (State.promoted s o e r) := by
  unfold State.promoted
  try dsimp only
  repeat' with_reducible first
    | assumption | apply kept_State_nearWrite | apply kept_State_onDir | apply kept_State_endPlaces
    | apply kept_State_runObj | apply kept_State_evictResident | apply kept_State_farDamaged
    | apply kept_State_refuseObj | apply kept_State_evictHome
    | simp only [State.keeps_mk, State.keeps_fold, Rl.inForm_mk, Rl.inForm_fold] | (apply kept_foldl; intro _ _ _)
    | split

theorem kept_State_placed {pq : List Instr} (s : State) (c : Copy) (k : ObjCmd) (r : CopyResult) (h_s : State.keeps
    pq s) :
    State.keeps pq (State.placed s c k r) := by
  unfold State.placed
  try dsimp only
  repeat' with_reducible first
    | assumption | apply kept_State_dropCopy | apply kept_State_complete | apply kept_State_nearWrite
    | apply kept_State_setCurrent | apply kept_State_nextObj | apply kept_State_trimPool
    | simp only [State.keeps_mk, State.keeps_fold] | split

theorem kept_State_publishedNow {pq : List Instr} (s : State) (c : Copy) (k : ObjCmd) (h_s : State.keeps pq s) :
    State.keeps pq (State.publishedNow s c k) := by
  unfold State.publishedNow
  try dsimp only
  repeat' with_reducible first
    | assumption | apply kept_State_dropCopy | apply kept_State_setCurrent | apply kept_State_onDir
    | apply kept_State_releasePin | apply kept_State_endPublish | apply kept_State_nextObj
    | simp only [State.keeps_mk, State.keeps_fold, Rl.inForm_mk, Rl.inForm_fold] | split | apply And.intro
    | apply State.keeps.pending | apply State.keeps.sl (p := pq) | apply State.keeps.rl (p := pq)
    | apply State.keeps.se (p := pq) | apply State.keeps.sw (p := pq) | apply State.keeps.lp (p := pq)
    | apply State.keeps.fl (p := pq) | apply State.keeps.tiles (p := pq) | apply State.keeps.jd (p := pq)
    | apply Rl.inForm.near | apply Rl.inForm.far | exact Rl.inForm_reset | apply cellsWf_writeCells
    | apply cellsWf_writeCell | apply cellsWf_eraseCells

theorem kept_State_published {pq : List Instr} (s : State) (c : Copy) (k : ObjCmd) (h_s : State.keeps pq s) :
    State.keeps pq (State.published s c k) := by
  unfold State.published
  try dsimp only
  repeat' with_reducible first
    | assumption | apply kept_State_publishedNow | simp only [State.keeps_mk, State.keeps_fold] | split

theorem kept_State_abortPublish {pq : List Instr} (s : State) (c : Copy) (k : ObjCmd) (h_s : State.keeps pq s) :
    State.keeps pq (State.abortPublish s c k) := by
  unfold State.abortPublish
  try dsimp only
  repeat' with_reducible first
    | assumption | apply kept_State_drawNat | apply kept_State_dropCopy | apply kept_State_releasePin
    | apply kept_State_endPublish | simp only [State.keeps_mk, State.keeps_fold] | split

theorem kept_State_evictAt {pq : List Instr} (s : State) (c : CmdId) (o : Nat) (discard : Bool) (e : DirEntry) (h_s
    : State.keeps pq s) :
    State.keeps pq (State.evictAt s c o discard e) := by
  unfold State.evictAt
  try dsimp only
  repeat' with_reducible first
    | assumption | apply kept_State_onDir | apply kept_State_dropEntry | apply kept_State_endEvicts
    | apply kept_State_complete | apply kept_State_evicted | apply kept_State_startEvicting
    | simp only [State.keeps_mk, State.keeps_fold] | split

theorem kept_State_objEvict {pq : List Instr} (s : State) (c : CmdId) (d : Dwords) (discard : Bool) (h_s :
    State.keeps pq s) :
    State.keeps pq (State.objEvict s c d discard) := by
  unfold State.objEvict
  try dsimp only
  repeat' with_reducible first
    | assumption | apply kept_State_command | apply kept_State_complete | apply kept_State_evictAt
    | apply kept_State_nextObj | simp only [State.keeps_mk, State.keeps_fold] | split | intro _ _

theorem kept_State_pinsZero {pq : List Instr} (s : State) (o v : Nat) (h_s : State.keeps pq s) :
    State.keeps pq (State.pinsZero s o v) := by
  unfold State.pinsZero
  try dsimp only
  repeat' with_reducible first
    | assumption | apply kept_State_nearLost | apply kept_State_onDir | apply kept_State_evicted
    | apply kept_State_dropEntry | apply kept_State_endEvicts | apply kept_State_nextObj
    | simp only [State.keeps_mk, State.keeps_fold] | split

theorem kept_execObjPlaceHost {pq : List Instr} (c : CmdId) (d : Dwords) (data : List Byte) (s : State) (h_s :
    State.keeps pq s) :
    Answers pq (execObjPlaceHost c d data s) := by
  unfold execObjPlaceHost
  apply answers_done
  try dsimp only
  repeat' with_reducible first | assumption | apply kept_State_objCommand

theorem kept_execObjPlaceLba {pq : List Instr} (c : CmdId) (d : Dwords) (s : State) (h_s : State.keeps pq s) :
    Answers pq (execObjPlaceLba c d s) := by
  unfold execObjPlaceLba
  apply answers_done
  try dsimp only
  repeat' with_reducible first | assumption | apply kept_State_objCommand

theorem kept_execObjPlaceFar {pq : List Instr} (c : CmdId) (d : Dwords) (s : State) (h_s : State.keeps pq s) :
    Answers pq (execObjPlaceFar c d s) := by
  unfold execObjPlaceFar
  apply answers_done
  try dsimp only
  repeat' with_reducible first | assumption | apply kept_State_objCommand

theorem kept_execObjPlaceNear {pq : List Instr} (c : CmdId) (d : Dwords) (s : State) (h_s : State.keeps pq s) :
    Answers pq (execObjPlaceNear c d s) := by
  unfold execObjPlaceNear
  apply answers_done
  try dsimp only
  repeat' with_reducible first | assumption | apply kept_State_objCommand

theorem kept_execObjPublishHost {pq : List Instr} (c : CmdId) (d : Dwords) (data : List Byte) (s : State) (h_s :
    State.keeps pq s) :
    Answers pq (execObjPublishHost c d data s) := by
  unfold execObjPublishHost
  apply answers_done
  try dsimp only
  repeat' with_reducible first | assumption | apply kept_State_objCommand

theorem kept_execObjPublishNear {pq : List Instr} (c : CmdId) (d : Dwords) (s : State) (h_s : State.keeps pq s) :
    Answers pq (execObjPublishNear c d s) := by
  unfold execObjPublishNear
  apply answers_done
  try dsimp only
  repeat' with_reducible first | assumption | apply kept_State_objCommand

theorem kept_execObjEvict {pq : List Instr} (c : CmdId) (d : Dwords) (s : State) (h_s : State.keeps pq s) :
    Answers pq (execObjEvict c d s) := by
  unfold execObjEvict
  apply answers_done
  try dsimp only
  repeat' with_reducible first | assumption | apply kept_State_objEvict

theorem kept_execObjEvictDiscard {pq : List Instr} (c : CmdId) (d : Dwords) (s : State) (h_s : State.keeps pq s) :
    Answers pq (execObjEvictDiscard c d s) := by
  unfold execObjEvictDiscard
  apply answers_done
  try dsimp only
  repeat' with_reducible first | assumption | apply kept_State_objEvict

theorem kept_execPublishDone {pq : List Instr} (object : Nat) (s : State) (h_s : State.keeps pq s) :
    Answers pq (execPublishDone object s) := by
  unfold execPublishDone
  apply answers_done
  try dsimp only
  repeat' with_reducible first
    | assumption | apply kept_State_published | simp only [State.keeps_mk, State.keeps_fold] | split

theorem kept_execPinsReachZero {pq : List Instr} (object version : Nat) (s : State) (h_s : State.keeps pq s) :
    Answers pq (execPinsReachZero object version s) := by
  unfold execPinsReachZero
  apply answers_done
  try dsimp only
  repeat' with_reducible first
    | assumption | apply kept_State_pinsZero | simp only [State.keeps_mk, State.keeps_fold] | split

/-! ## Train -/

theorem kept_State_postZeros {pq : List Instr} (s : State) (x : Training) (l : LayerSpan) (zs : List (Nat × Nat ×
    Nat × Bool × W32)) (h_s : State.keeps pq s) :
    State.keeps pq (State.postZeros s x l zs) := by
  unfold State.postZeros
  try dsimp only
  repeat' with_reducible first
    | assumption | apply kept_State_postCorr
    | simp only [State.keeps_mk, State.keeps_fold, Tile.inForm_mk, Tile.inForm_fold] | split

theorem kept_State_clearGradients {pq : List Instr} (s : State) (x : Training) (h_s : State.keeps pq s) :
    State.keeps pq (State.clearGradients s x) := by
  unfold State.clearGradients
  try dsimp only
  repeat' with_reducible first
    | assumption | apply kept_State_setTile | apply kept_State_tile | apply kept_Tile_put
    | simp only [State.keeps_mk, State.keeps_fold, Tile.inForm_mk, Tile.inForm_fold] | (apply kept_foldl; intro _ _ _)

theorem kept_State_pass2 {pq : List Instr} (s : State) (x : Training) (a : Nat) (h_s : State.keeps pq s) :
    State.keeps pq (State.pass2 s x a) := by
  unfold State.pass2
  try dsimp only
  repeat' with_reducible first
    | assumption | apply kept_State_nearWrite | apply kept_State_setCurrent | apply kept_State_postZeros
    | apply kept_State_clearGradients | simp only [State.keeps_mk, State.keeps_fold, Jd.inForm_mk, Jd.inForm_fold]
    | (apply kept_foldl; intro _ _ _)

theorem kept_State_stepEffect {pq : List Instr} (s : State) (j : Job) (loss : W32) (h_s : State.keeps pq s) :
    State.keeps pq (State.stepEffect s j loss) := by
  unfold State.stepEffect
  try dsimp only
  repeat' with_reducible first
    | assumption | apply kept_State_pass2 | apply kept_State_onJob | simp only [State.keeps_mk, State.keeps_fold]
    | split

theorem kept_State_saveArea {pq : List Instr} (s : State) (q : Squad) (j : Job) (h_s : State.keeps pq s) :
    State.keeps pq (State.saveArea s q j) := by
  unfold State.saveArea
  try dsimp only
  repeat' with_reducible first
    | assumption | apply kept_State_nearWrite | apply kept_State_tile
    | simp only [State.keeps_mk, State.keeps_fold, Tile.inForm_mk, Tile.inForm_fold] | (apply kept_foldl; intro _ _ _)
    | split

theorem kept_State_loadTile {pq : List Instr} (s : State) (n : Nat) (area : List Byte) (h_s : State.keeps pq s) :
    State.keeps pq (State.loadTile s n area) := by
  unfold State.loadTile
  try dsimp only
  repeat' with_reducible first
    | assumption | apply kept_State_setTile | apply kept_State_tile | apply kept_Tile_put | apply kept_State_laneFree

theorem kept_State_loadArea {pq : List Instr} (s : State) (q : Squad) (l : Lap) (h_s : State.keeps pq s) :
    State.keeps pq (State.loadArea s q l) := by
  unfold State.loadArea
  try dsimp only
  repeat' with_reducible first
    | assumption | apply kept_State_loadTile
    | simp only [State.keeps_mk, State.keeps_fold, Tile.inForm_mk, Tile.inForm_fold] | (apply kept_foldl; intro _ _ _)
    | split

theorem kept_State_swapState {pq : List Instr} (s : State) (squad : Nat) (ls : LapState) (l : Lap) (h_s :
    State.keeps pq s) :
    State.keeps pq (State.swapState s squad ls l) := by
  unfold State.swapState
  try dsimp only
  repeat' with_reducible first
    | assumption | apply kept_State_saveArea | apply kept_State_loadArea
    | simp only [State.keeps_mk, State.keeps_fold] | split

/-! ## Laps -/

theorem kept_State_admitTrain {pq : List Instr} (s : State) (j : Job) (h_s : State.keeps pq s) :
    ∀ t, (State.admitTrain s j) = some (Sum.inr t) → State.keeps pq t := by
  intro t ht
  unfold State.admitTrain at ht
  try dsimp only at ht
  repeat' (split at ht)
  all_goals (try simp only [Option.some.injEq, Sum.inr.injEq, reduceCtorEq] at ht)
  all_goals (try subst ht)
  try dsimp only
  repeat' with_reducible first | assumption | apply kept_State_admitJob | apply kept_State_onJob

theorem kept_State_startServeCopy {pq : List Instr} (s : State) (tag : Nat) (h_s : State.keeps pq s) :
    State.keeps pq (State.startServeCopy s tag) := by
  unfold State.startServeCopy
  try dsimp only
  repeat' with_reducible first
    | assumption | apply kept_State_takePin | apply kept_State_onJob
    | simp only [State.keeps_mk, State.keeps_fold, Rl.inForm_mk, Rl.inForm_fold] | split

theorem kept_State_publishDue {pq : List Instr} (s : State) (tag : Nat) (h_s : State.keeps pq s) :
    State.keeps pq (State.publishDue s tag) := by
  unfold State.publishDue
  try dsimp only
  repeat' with_reducible first
    | assumption | apply kept_State_onJob | apply kept_State_startServeCopy
    | simp only [State.keeps_mk, State.keeps_fold] | split

theorem kept_State_lastPublish {pq : List Instr} (s : State) (tag st : Nat) (h_s : State.keeps pq s) :
    State.keeps pq (State.lastPublish s tag st) := by
  unfold State.lastPublish
  try dsimp only
  repeat' with_reducible first
    | assumption | apply kept_State_startServeCopy | apply kept_State_finishJob
    | simp only [State.keeps_mk, State.keeps_fold] | split

theorem kept_State_endTrain {pq : List Instr} (s : State) (tag st reason : Nat) (h_s : State.keeps pq s) :
    State.keeps pq (State.endTrain s tag st reason) := by
  unfold State.endTrain
  try dsimp only
  repeat' with_reducible first | assumption | apply kept_State_onJob | apply kept_State_lastPublish

theorem kept_State_serveCopied {pq : List Instr} (s : State) (c : Copy) (h_s : State.keeps pq s) :
    State.keeps pq (State.serveCopied s c) := by
  unfold State.serveCopied
  try dsimp only
  repeat' with_reducible first
    | assumption | apply kept_State_releasePins | apply kept_State_dropCopy | apply kept_State_nearWrite
    | apply kept_State_setCurrent | apply kept_State_onJob | apply kept_State_nextObj | apply kept_State_lastPublish
    | apply kept_State_startServeCopy | simp only [State.keeps_mk, State.keeps_fold] | split

theorem kept_State_repin {pq : List Instr} (s : State) (j : Job) (h_s : State.keeps pq s) :
    State.keeps pq (State.repin s j) := by
  unfold State.repin
  try dsimp only
  repeat' with_reducible first
    | assumption | apply kept_State_releasePins | apply kept_State_takePins | apply kept_State_onJob
    | simp only [State.keeps_mk, State.keeps_fold] | split

theorem kept_State_planTrain {pq : List Instr} (s : State) (squad : Nat) (q : Squad) (h_s : State.keeps pq s) :
    State.keeps pq (State.planTrain s squad q) := by
  unfold State.planTrain
  try dsimp only
  repeat' with_reducible first
    | assumption | apply kept_State_drawNat | apply kept_State_joins | apply kept_State_repin
    | apply kept_State_setLaps | simp only [State.keeps_mk, State.keeps_fold, Jd.inForm_mk, Jd.inForm_fold] | split

theorem kept_State_planLap {pq : List Instr} (s : State) (squad : Nat) (h_s : State.keeps pq s) :
    State.keeps pq (State.planLap s squad) := by
  unfold State.planLap
  try dsimp only
  repeat' with_reducible first
    | assumption | apply kept_State_planFirst | apply kept_State_planTrain
    | simp only [State.keeps_mk, State.keeps_fold] | split

theorem kept_State_countPreempt {pq : List Instr} (s : State) (l : Lap) (h_s : State.keeps pq s) :
    State.keeps pq (State.countPreempt s l) := by
  unfold State.countPreempt
  try dsimp only
  repeat' with_reducible first
    | assumption | simp only [State.keeps_mk, State.keeps_fold, Jd.inForm_mk, Jd.inForm_fold] | split

theorem kept_State_startLap {pq : List Instr} (s : State) (squad : Nat) (h_s : State.keeps pq s) :
    State.keeps pq (State.startLap s squad) := by
  unfold State.startLap
  try dsimp only
  repeat' with_reducible first
    | assumption | apply kept_State_swapState | apply kept_State_countPreempt | apply kept_State_setLaps
    | simp only [State.keeps_mk, State.keeps_fold] | split

theorem kept_State_lapLate {pq : List Instr} (s : State) (squad : Nat) (l : Lap) (kind actual stall : Nat) (h_s :
    State.keeps pq s) :
    State.keeps pq (State.lapLate s squad l kind actual stall) := by
  unfold State.lapLate
  try dsimp only
  repeat' with_reducible first
    | assumption | apply kept_State_postCorr | apply kept_State_onModel
    | simp only [State.keeps_mk, State.keeps_fold, Rl.inForm_mk, Rl.inForm_fold, Tile.inForm_mk, Tile.inForm_fold, Jd.inForm_mk, Jd.inForm_fold]
    | split

theorem kept_State_trainLap {pq : List Instr} (s : State) (j : Job) (l : Lap) (h : HurdleInfo) (h_s : State.keeps pq
    s) :
    State.keeps pq (State.trainLap s j l h) := by
  unfold State.trainLap
  try dsimp only
  repeat' with_reducible first
    | assumption | apply kept_State_stepEffect | apply kept_State_publishDue | apply kept_State_onJob
    | simp only [State.keeps_mk, State.keeps_fold] | split

theorem kept_State_trainHurdle {pq : List Instr} (s : State) (squad : Nat) (l : Lap) (h : HurdleInfo) (h_s :
    State.keeps pq s) :
    State.keeps pq (State.trainHurdle s squad l h) := by
  unfold State.trainHurdle
  try dsimp only
  repeat' with_reducible first
    | assumption | apply kept_State_stepClose | apply kept_State_trainLap | apply kept_State_endTrain
    | simp only [State.keeps_mk, State.keeps_fold] | split

theorem kept_State_clearHurdle {pq : List Instr} (s : State) (squad : Nat) (h_s : State.keeps pq s) :
    State.keeps pq (State.clearHurdle s squad) := by
  unfold State.clearHurdle
  try dsimp only
  repeat' with_reducible first
    | assumption | simp only [State.keeps_mk, State.keeps_fold, Tile.inForm_mk, Tile.inForm_fold] | split
    | apply And.intro | apply State.keeps.pending | apply State.keeps.sl (p := pq) | apply State.keeps.rl (p := pq)
    | apply State.keeps.se (p := pq) | apply State.keeps.sw (p := pq) | apply State.keeps.lp (p := pq)
    | apply State.keeps.fl (p := pq) | apply State.keeps.tiles (p := pq) | apply State.keeps.jd (p := pq)
    | apply tilesInForm_put | (apply tilesInForm_mapVals; intro _ _ _)

theorem kept_State_lapEnds {pq : List Instr} (s : State) (squad : Nat) (q : Squad) (l : Lap) (h : HurdleInfo) (h_s :
    State.keeps pq s) :
    State.keeps pq (State.lapEnds s squad q l h) := by
  unfold State.lapEnds
  try dsimp only
  repeat' with_reducible first
    | assumption | apply kept_State_setLaps | apply kept_State_clearHurdle | apply kept_State_trainHurdle
    | apply kept_State_serveHurdle | apply kept_State_stepClose | apply kept_State_lapLate | apply kept_State_planLap
    | apply kept_State_noteQuiet | simp only [State.keeps_mk, State.keeps_fold] | split

theorem kept_State_passHurdle {pq : List Instr} (s : State) (squad : Nat) (h_s : State.keeps pq s) :
    State.keeps pq (State.passHurdle s squad) := by
  unfold State.passHurdle
  try dsimp only
  repeat' with_reducible first
    | assumption | apply kept_State_setLaps | apply kept_State_clearHurdle | apply kept_State_stepClose
    | apply kept_State_noteQuiet | simp only [State.keeps_mk, State.keeps_fold] | split

theorem kept_execLapHurdle {pq : List Instr} (squad : Nat) (h : HurdleInfo) (s : State) (h_s : State.keeps pq s) :
    Answers pq (execLapHurdle squad h s) := by
  unfold execLapHurdle
  apply answers_done
  try dsimp only
  repeat' with_reducible first
    | assumption | apply kept_State_lapEnds | apply kept_State_passHurdle
    | simp only [State.keeps_mk, State.keeps_fold] | split

theorem kept_execUpdateRatioCheck {pq : List Instr} (tag : Nat) (layers : List LayerSpan) (s : State) (h_s :
    State.keeps pq s) :
    Answers pq (execUpdateRatioCheck tag layers s) := by
  unfold execUpdateRatioCheck
  apply answers_done
  try dsimp only
  repeat' with_reducible first
    | assumption | apply kept_State_takeUwr | apply kept_State_ratioCheck | apply kept_State_endTrain
    | apply kept_State_onJob | simp only [State.keeps_mk, State.keeps_fold] | split

theorem kept_execPlaceCopyDone {pq : List Instr} (object : Nat) (r : CopyResult) (s : State) (h_s : State.keeps pq
    s) :
    Answers pq (execPlaceCopyDone object r s) := by
  unfold execPlaceCopyDone
  apply answers_done
  try dsimp only
  repeat' with_reducible first
    | assumption | apply kept_State_placed | apply kept_State_serveCopied | apply kept_State_promoted
    | simp only [State.keeps_mk, State.keeps_fold] | split

/-! ## Search -/

theorem kept_State_giveCtx {pq : List Instr} (s : State) (j : Job) (snap : Nat) (x : Nat × Nat × Nat) (h_s :
    State.keeps pq s) :
    State.keeps pq (State.giveCtx s j snap x) := by
  unfold State.giveCtx
  try dsimp only
  repeat' with_reducible first
    | assumption | apply kept_State_tile | apply kept_State_setTile | apply kept_Tile_put
    | simp only [State.keeps_mk, State.keeps_fold, Tile.inForm_mk, Tile.inForm_fold] | split

theorem kept_State_admitSearch {pq : List Instr} (s : State) (j : Job) (h_s : State.keeps pq s) :
    ∀ t, (State.admitSearch s j) = some (Sum.inr t) → State.keeps pq t := by
  intro t ht
  unfold State.admitSearch at ht
  try dsimp only at ht
  repeat' (split at ht)
  all_goals (try simp only [Option.some.injEq, Sum.inr.injEq, reduceCtorEq] at ht)
  all_goals (try subst ht)
  try dsimp only
  repeat' with_reducible first
    | assumption | apply kept_State_giveCtx | apply kept_State_admitJob | apply kept_State_onJob
    | (refine kept_State_attachIndex _ _ _ _ ?_ _ ‹_›) | simp only [State.keeps_mk, State.keeps_fold]
    | (apply kept_foldl; intro _ _ _)

theorem kept_State_planQuery {pq : List Instr} (s : State) (j : Job) (x : Index) (n i : Nat) (c : Ctx) (h_s :
    State.keeps pq s) :
    State.keeps pq (State.planQuery s j x n i c) := by
  unfold State.planQuery
  try dsimp only
  repeat' with_reducible first
    | assumption | apply kept_State_tile | apply kept_State_setTile | apply kept_Tile_put | apply kept_Tile_switch
    | simp only [State.keeps_mk, State.keeps_fold, Tile.inForm_mk, Tile.inForm_fold]

theorem kept_State_startSearch {pq : List Instr} (s : State) (tag : Nat) (h_s : State.keeps pq s) :
    State.keeps pq (State.startSearch s tag) := by
  unfold State.startSearch
  try dsimp only
  repeat' with_reducible first
    | assumption | apply kept_State_tile | apply kept_State_planQuery | apply kept_State_onJob
    | simp only [State.keeps_mk, State.keeps_fold, Tile.inForm_mk, Tile.inForm_fold] | (apply kept_foldl; intro _ _ _)
    | split

theorem kept_State_collect {pq : List Instr} (s : State) (j : Job) (x : Nat × Nat × Nat) (c : Ctx) (h_s :
    State.keeps pq s) :
    State.keeps pq (State.collect s j x c) := by
  unfold State.collect
  try dsimp only
  repeat' with_reducible first
    | assumption | apply kept_State_tile | apply kept_State_writeResult | apply kept_State_setTile
    | apply kept_Tile_freeCtx | apply kept_State_onJob | apply kept_State_stepClose | apply kept_State_finishJob
    | simp only [State.keeps_mk, State.keeps_fold, Tile.inForm_mk, Tile.inForm_fold] | split

theorem kept_State_mergeQuery {pq : List Instr} (s : State) (j : Job) (bits q : Nat) (es : List ResEntry) (h_s :
    State.keeps pq s) :
    State.keeps pq (State.mergeQuery s j bits q es) := by
  unfold State.mergeQuery
  try dsimp only
  repeat' with_reducible first
    | assumption | apply kept_State_writeResult | apply kept_State_onJob
    | simp only [State.keeps_mk, State.keeps_fold]

theorem kept_State_runMerge {pq : List Instr} (s : State) (j : Job) (h_s : State.keeps pq s) :
    State.keeps pq (State.runMerge s j) := by
  unfold State.runMerge
  try dsimp only
  repeat' with_reducible first
    | assumption | apply kept_State_stopJob | apply kept_State_mergeQuery | apply kept_State_finishJob
    | simp only [State.keeps_mk, State.keeps_fold] | (apply kept_foldl; intro _ _ _) | split

/-! ## Stop -/

theorem kept_State_dropCommit {pq : List Instr} (s : State) (tag : Nat) (h_s : State.keeps pq s) :
    State.keeps pq (State.dropCommit s tag) := by
  unfold State.dropCommit
  try dsimp only
  repeat' with_reducible first | assumption | simp only [State.keeps_mk, State.keeps_fold]

theorem kept_State_stopCommit {pq : List Instr} (s : State) (tag code st : Nat) (h_s : State.keeps pq s) :
    State.keeps pq (State.stopCommit s tag code st) := by
  unfold State.stopCommit
  try dsimp only
  repeat' with_reducible first
    | assumption | apply kept_State_onJob | apply kept_State_dropCommit | apply kept_State_stopJob
    | simp only [State.keeps_mk, State.keeps_fold] | split

theorem kept_State_cancelPlanned {pq : List Instr} (s : State) (squad : Nat) (h_s : State.keeps pq s) :
    State.keeps pq (State.cancelPlanned s squad) := by
  unfold State.cancelPlanned
  try dsimp only
  repeat' with_reducible first | assumption | apply kept_State_setLaps

theorem kept_State_drainJob {pq : List Instr} (s : State) (j : Job) (h_s : State.keeps pq s) :
    State.keeps pq (State.drainJob s j) := by
  unfold State.drainJob
  try dsimp only
  repeat' with_reducible first
    | assumption | apply kept_State_stopScan | apply kept_State_stopCommit | apply kept_State_onJob
    | apply kept_State_endTrain | simp only [State.keeps_mk, State.keeps_fold] | split

theorem kept_State_drainJobs {pq : List Instr} (s : State) (squad : Nat) (h_s : State.keeps pq s) :
    State.keeps pq (State.drainJobs s squad) := by
  unfold State.drainJobs
  try dsimp only
  repeat' with_reducible first
    | assumption | apply kept_State_drainJob | apply kept_State_cancelPlanned | apply kept_State_unquiet
    | apply kept_State_hurdleEnds | simp only [State.keeps_mk, State.keeps_fold] | (apply kept_foldl; intro _ _ _)
    | split

theorem kept_State_endQueued {pq : List Instr} (s : State) (squad st : Nat) (h_s : State.keeps pq s) :
    State.keeps pq (State.endQueued s squad st) := by
  unfold State.endQueued
  try dsimp only
  repeat' with_reducible first
    | assumption | apply kept_State_stopJob | simp only [State.keeps_mk, State.keeps_fold]
    | (apply kept_foldl; intro _ _ _) | split

theorem kept_State_dropCopies {pq : List Instr} (s : State) (tag : Nat) (h_s : State.keeps pq s) :
    State.keeps pq (State.dropCopies s tag) := by
  unfold State.dropCopies
  try dsimp only
  repeat' with_reducible first
    | assumption | simp only [State.keeps_mk, State.keeps_fold, Rl.inForm_mk, Rl.inForm_fold]

theorem kept_State_abortJob {pq : List Instr} (s : State) (fatal : Bool) (j : Job) (h_s : State.keeps pq s) :
    State.keeps pq (State.abortJob s fatal j) := by
  unfold State.abortJob
  try dsimp only
  repeat' with_reducible first
    | assumption | apply kept_State_stopCommit | apply kept_State_recall | apply kept_State_cutAppend
    | apply kept_State_closeCut | apply kept_State_closeSeq | apply kept_State_dropCopies | apply kept_State_stopJob
    | simp only [State.keeps_mk, State.keeps_fold] | split

theorem kept_State_discardTiles {pq : List Instr} (s : State) (squad : Nat) (h_s : State.keeps pq s) :
    State.keeps pq (State.discardTiles s squad) := by
  unfold State.discardTiles
  try dsimp only
  repeat' with_reducible first
    | assumption | apply kept_Tile_sweep
    | simp only [State.keeps_mk, State.keeps_fold, Tile.inForm_mk, Tile.inForm_fold] | split | apply And.intro
    | apply State.keeps.pending | apply State.keeps.sl (p := pq) | apply State.keeps.rl (p := pq)
    | apply State.keeps.se (p := pq) | apply State.keeps.sw (p := pq) | apply State.keeps.lp (p := pq)
    | apply State.keeps.fl (p := pq) | apply State.keeps.tiles (p := pq) | apply State.keeps.jd (p := pq)
    | apply tilesInForm_put | (apply tilesInForm_mapVals; intro _ _ _)

theorem kept_State_abortSquad {pq : List Instr} (s : State) (squad : Nat) (fatal : Bool) (h_s : State.keeps pq s) :
    State.keeps pq (State.abortSquad s squad fatal) := by
  unfold State.abortSquad
  try dsimp only
  repeat' with_reducible first
    | assumption | apply kept_State_abortJob | apply kept_State_unquiet | apply kept_State_closeCut
    | apply kept_State_setLaps | apply kept_State_discardTiles | apply kept_State_cutRendezvous
    | simp only [State.keeps_mk, State.keeps_fold, Tile.inForm_mk, Tile.inForm_fold] | (apply kept_foldl; intro _ _ _)
    | split

theorem kept_State_restartLater {pq : List Instr} (s : State) (tag : Nat) (h_s : State.keeps pq s) :
    State.keeps pq (State.restartLater s tag) := by
  unfold State.restartLater
  try dsimp only
  repeat' with_reducible first
    | assumption | apply kept_State_freeContexts | apply kept_State_onJob
    | simp only [State.keeps_mk, State.keeps_fold] | split

theorem kept_State_faultJob {pq : List Instr} (s : State) (tag : Nat) (h_s : State.keeps pq s) :
    State.keeps pq (State.faultJob s tag) := by
  unfold State.faultJob
  try dsimp only
  repeat' with_reducible first
    | assumption | apply kept_State_restartLater | apply kept_State_abortJob
    | simp only [State.keeps_mk, State.keeps_fold] | split

theorem kept_State_readLost {pq : List Instr} (s : State) (jobs : List Nat) (h_s : State.keeps pq s) :
    State.keeps pq (State.readLost s jobs) := by
  unfold State.readLost
  try dsimp only
  repeat' with_reducible first
    | assumption | apply kept_State_stopJob | apply kept_State_abortJob | simp only [State.keeps_mk, State.keeps_fold]
    | (apply kept_foldl; intro _ _ _) | split

theorem kept_State_fenceSquad {pq : List Instr} (s : State) (squad : Nat) (touched : List Nat) (h_s : State.keeps pq
    s) :
    State.keeps pq (State.fenceSquad s squad touched) := by
  unfold State.fenceSquad
  try dsimp only
  repeat' with_reducible first
    | assumption | apply kept_State_faultJob | apply kept_State_onSquad | apply kept_State_setLaps
    | apply kept_State_cutRendezvous | apply kept_State_drainJob | apply kept_State_hurdleEnds
    | apply kept_State_stopJob | simp only [State.keeps_mk, State.keeps_fold] | (apply kept_foldl; intro _ _ _)
    | split

theorem kept_State_failJobs {pq : List Instr} (s : State) (h_s : State.keeps pq s) :
    State.keeps pq (State.failJobs s) := by
  unfold State.failJobs
  try dsimp only
  repeat' with_reducible first
    | assumption | apply kept_State_abortSquad | apply kept_State_stopJob
    | simp only [State.keeps_mk, State.keeps_fold] | (apply kept_foldl; intro _ _ _) | split

theorem kept_State_failCopies {pq : List Instr} (s : State) (h_s : State.keeps pq s) :
    State.keeps pq (State.failCopies s) := by
  unfold State.failCopies
  try dsimp only
  repeat' with_reducible first
    | assumption | apply kept_State_dropCopy | apply kept_State_abortPublish | apply kept_State_complete
    | apply kept_State_refuseObj | apply kept_State_nearLost
    | simp only [State.keeps_mk, State.keeps_fold, Rl.inForm_mk, Rl.inForm_fold] | (apply kept_foldl; intro _ _ _)
    | split

theorem kept_State_fatalStop {pq : List Instr} (s : State) (h_s : State.keeps pq s) :
    State.keeps pq (State.fatalStop s) := by
  unfold State.fatalStop
  try dsimp only
  repeat' with_reducible first
    | assumption | apply kept_State_failJobs | apply kept_State_failCopies | apply kept_State_failStore
    | apply kept_State_lpEnd | apply kept_State_alert
    | simp only [State.keeps_mk, State.keeps_fold, Fl.inForm_mk, Fl.inForm_fold] | (apply kept_foldl; intro _ _ _)

/-! ## P2p -/

theorem kept_State_writeGranule {pq : List Instr} (s : State) (g : OpenGranule) (h_s : State.keeps pq s) :
    State.keeps pq (State.writeGranule s g) := by
  unfold State.writeGranule
  try dsimp only
  repeat' with_reducible first | assumption | apply kept_State_nearWrite

theorem kept_State_p2pFlush {pq : List Instr} (s : State) (h_s : State.keeps pq s) :
    State.keeps pq (State.p2pFlush s) := by
  unfold State.p2pFlush
  try dsimp only
  repeat' with_reducible first
    | assumption | apply kept_State_writeGranule | simp only [State.keeps_mk, State.keeps_fold]
    | (apply kept_foldl; intro _ _ _)

theorem kept_State_p2pRoom {pq : List Instr} (s : State) (h_s : State.keeps pq s) :
    State.keeps pq (State.p2pRoom s) := by
  unfold State.p2pRoom
  try dsimp only
  repeat' with_reducible first
    | assumption | apply kept_State_writeGranule | simp only [State.keeps_mk, State.keeps_fold] | split

theorem kept_State_p2pByte {pq : List Instr} (s : State) (a : Nat) (b : Byte) (h_s : State.keeps pq s) :
    State.keeps pq (State.p2pByte s a b) := by
  unfold State.p2pByte
  try dsimp only
  repeat' with_reducible first
    | assumption | apply kept_State_p2pRoom | apply kept_Tile_put | apply kept_State_writeGranule
    | simp only [State.keeps_mk, State.keeps_fold] | split

theorem kept_State_p2pBytes {pq : List Instr} (s : State) (a : Nat) (x0 : List Byte) (h_s : State.keeps pq s) :
    State.keeps pq (State.p2pBytes s a x0) := by
  induction x0 generalizing s a with
  | nil =>
    unfold State.p2pBytes
    try dsimp only
    repeat' with_reducible first | assumption
  | cons _ _ ih =>
    unfold State.p2pBytes
    try dsimp only
    repeat' with_reducible first | assumption | apply ih | apply kept_State_p2pByte

theorem kept_execPeerWindowWrite {pq : List Instr} (off : Nat) (data : List Byte) (s : State) (h_s : State.keeps pq
    s) :
    Answers pq (execPeerWindowWrite off data s) := by
  unfold execPeerWindowWrite
  apply answers_done
  try dsimp only
  repeat' with_reducible first
    | assumption | apply kept_State_p2pBytes | simp only [State.keeps_mk, State.keeps_fold] | split

theorem kept_execQeP2pFlush {pq : List Instr} (s : State) (h_s : State.keeps pq s) :
    Answers pq (execQeP2pFlush s) := by
  unfold execQeP2pFlush
  apply answers_done
  try dsimp only
  repeat' with_reducible first
    | assumption | apply kept_State_p2pFlush | simp only [State.keeps_mk, State.keeps_fold] | split

theorem kept_execQeP2pCfgWrite {pq : List Instr} (v : W32) (s : State) (h_s : State.keeps pq s) :
    Answers pq (execQeP2pCfgWrite v s) := by
  unfold execQeP2pCfgWrite
  apply answers_done
  try dsimp only
  repeat' with_reducible first
    | assumption | apply kept_State_p2pFlush | simp only [State.keeps_mk, State.keeps_fold] | split

theorem kept_execQeP2pBaseWrite {pq : List Instr} (hi : Bool) (v : W32) (s : State) (h_s : State.keeps pq s) :
    Answers pq (execQeP2pBaseWrite hi v s) := by
  unfold execQeP2pBaseWrite
  apply answers_done
  try dsimp only
  repeat' with_reducible first
    | assumption | apply kept_State_p2pFlush | simp only [State.keeps_mk, State.keeps_fold] | split

/-! ## Admit -/

theorem kept_State_admitScan {pq : List Instr} (s : State) (j : Job) (h_s : State.keeps pq s) :
    State.keeps pq (State.admitScan s j) := by
  unfold State.admitScan
  try dsimp only
  repeat' with_reducible first
    | assumption | apply kept_State_finishJob | apply kept_State_admitJob | apply kept_State_onJob
    | simp only [State.keeps_mk, State.keeps_fold] | split

theorem kept_State_unblock {pq : List Instr} (s : State) (c : CmdId) (h_s : State.keeps pq s) :
    State.keeps pq (State.unblock s c) := by
  unfold State.unblock
  try dsimp only
  repeat' with_reducible first | assumption | simp only [State.keeps_mk, State.keeps_fold]

theorem kept_State_startMerge {pq : List Instr} (s : State) (j : Job) (h_s : State.keeps pq s) :
    State.keeps pq (State.startMerge s j) := by
  unfold State.startMerge
  try dsimp only
  repeat' with_reducible first
    | assumption | apply kept_State_p2pFlush | apply kept_State_finishJob | apply kept_State_admitJob
    | apply kept_State_runMerge | simp only [State.keeps_mk, State.keeps_fold] | split

theorem kept_State_startAppend {pq : List Instr} (s : State) (j : Job) (h_s : State.keeps pq s) :
    State.keeps pq (State.startAppend s j) := by
  unfold State.startAppend
  try dsimp only
  repeat' with_reducible first
    | assumption | apply kept_State_finishJob | apply kept_State_admitJob | apply kept_State_runAppend
    | (refine kept_State_admitAppend _ _ ?_ _ ‹_›) | simp only [State.keeps_mk, State.keeps_fold] | split

theorem kept_State_admitNow {pq : List Instr} (s : State) (j : Job) (h_s : State.keeps pq s) :
    State.keeps pq (State.admitNow s j) := by
  unfold State.admitNow
  try dsimp only
  repeat' with_reducible first
    | assumption | apply kept_State_admitScan | apply kept_State_finishJob | apply kept_State_unblock
    | apply kept_State_startAppend | apply kept_State_startMerge | apply kept_State_runOpen
    | apply kept_State_runClose | (refine kept_State_admitSearch _ _ ?_ _ ‹_›)
    | (refine kept_State_admitCommit _ _ ?_ _ ‹_›) | (refine kept_State_admitServe _ _ ?_ _ ‹_›)
    | (refine kept_State_admitTrain _ _ ?_ _ ‹_›) | simp only [State.keeps_mk, State.keeps_fold] | split

theorem kept_State_tryAdmit {pq : List Instr} (s : State) (tag : Nat) (h_s : State.keeps pq s) :
    State.keeps pq (State.tryAdmit s tag) := by
  unfold State.tryAdmit
  try dsimp only
  repeat' with_reducible first
    | assumption | apply kept_State_admitNow | simp only [State.keeps_mk, State.keeps_fold] | split

theorem kept_State_takeJob {pq : List Instr} (s : State) (c : CmdId) (kind : Nat) (sub : Submit) (data : List Byte)
    (lists : List (List Byte)) (h_s : State.keeps pq s) :
    State.keeps pq (State.takeJob s c kind sub data lists) := by
  unfold State.takeJob
  try dsimp only
  repeat' with_reducible first
    | assumption | apply kept_State_refuseJob | apply kept_State_submit | simp only [State.keeps_mk, State.keeps_fold]
    | split

theorem kept_State_jobQueued {pq : List Instr} (s : State) (c : CmdId) (kind : Nat) (sub : Submit) (data : List
    Byte) (lists : List (List Byte)) (h_s : State.keeps pq s) :
    State.keeps pq (State.jobQueued s c kind sub data lists) := by
  unfold State.jobQueued
  try dsimp only
  repeat' with_reducible first
    | assumption | apply kept_State_fetch | apply kept_State_takeJob | simp only [State.keeps_mk, State.keeps_fold]
    | split

theorem kept_State_jobAtOnce {pq : List Instr} (s : State) (c : CmdId) (kind : Nat) (sub : Submit) (data : List
    Byte) (lists : List (List Byte)) (h_s : State.keeps pq s) :
    State.keeps pq (State.jobAtOnce s c kind sub data lists) := by
  unfold State.jobAtOnce
  try dsimp only
  repeat' with_reducible first
    | assumption | apply kept_State_fetch | apply kept_State_takeJob | apply kept_State_tryAdmit
    | simp only [State.keeps_mk, State.keeps_fold] | split

theorem kept_State_holdSearch {pq : List Instr} (s : State) (tag : Nat) (h_s : State.keeps pq s) :
    State.keeps pq (State.holdSearch s tag) := by
  unfold State.holdSearch
  try dsimp only
  repeat' with_reducible first | assumption | simp only [State.keeps_mk, State.keeps_fold] | split

theorem kept_State_cancelJob {pq : List Instr} (s : State) (j : Job) (h_s : State.keeps pq s) :
    State.keeps pq (State.cancelJob s j) := by
  unfold State.cancelJob
  try dsimp only
  repeat' with_reducible first
    | assumption | apply kept_State_stopJob | apply kept_State_stopScan | apply kept_State_onJob
    | apply kept_State_cutAppend | apply kept_State_cancelPlanned | apply kept_State_endTrain
    | simp only [State.keeps_mk, State.keeps_fold] | split

theorem kept_State_jobCancel {pq : List Instr} (s : State) (c target : CmdId) (h_s : State.keeps pq s) :
    State.keeps pq (State.jobCancel s c target) := by
  unfold State.jobCancel
  try dsimp only
  repeat' with_reducible first
    | assumption | apply kept_State_complete | apply kept_State_cancelJob
    | simp only [State.keeps_mk, State.keeps_fold] | split

theorem kept_State_restartJob {pq : List Instr} (s : State) (j : Job) (h_s : State.keeps pq s) :
    State.keeps pq (State.restartJob s j) := by
  unfold State.restartJob
  try dsimp only
  repeat' with_reducible first
    | assumption | apply kept_State_giveCtx | apply kept_State_onJob | simp only [State.keeps_mk, State.keeps_fold]
    | (apply kept_foldl; intro _ _ _) | split

theorem kept_execScan {pq : List Instr} (c : CmdId) (sub : Submit) (s : State) (h_s : State.keeps pq s) :
    Answers pq (execScan c sub s) := by
  unfold execScan
  apply answers_done
  try dsimp only
  repeat' with_reducible first | assumption | apply kept_State_jobQueued

theorem kept_execEmbed {pq : List Instr} (c : CmdId) (sub : Submit) (s : State) (h_s : State.keeps pq s) :
    Answers pq (execEmbed c sub s) := by
  unfold execEmbed
  apply answers_done
  try dsimp only
  repeat' with_reducible first | assumption | apply kept_State_jobQueued

theorem kept_execSearch {pq : List Instr} (c : CmdId) (sub : Submit) (queries : List (List Byte)) (s : State) (h_s :
    State.keeps pq s) :
    Answers pq (execSearch c sub queries s) := by
  unfold execSearch
  apply answers_done
  try dsimp only
  repeat' with_reducible first
    | assumption | apply kept_State_fetch | apply kept_State_takeJob | apply kept_State_holdSearch
    | simp only [State.keeps_mk, State.keeps_fold] | split

theorem kept_execInsert {pq : List Instr} (c : CmdId) (sub : Submit) (data : List Byte) (s : State) (h_s :
    State.keeps pq s) :
    Answers pq (execInsert c sub data s) := by
  unfold execInsert
  apply answers_done
  try dsimp only
  repeat' with_reducible first | assumption | apply kept_State_jobAtOnce

theorem kept_execDelete {pq : List Instr} (c : CmdId) (sub : Submit) (data : List Byte) (s : State) (h_s :
    State.keeps pq s) :
    Answers pq (execDelete c sub data s) := by
  unfold execDelete
  apply answers_done
  try dsimp only
  repeat' with_reducible first | assumption | apply kept_State_jobAtOnce

theorem kept_execCommit {pq : List Instr} (c : CmdId) (sub : Submit) (s : State) (h_s : State.keeps pq s) :
    Answers pq (execCommit c sub s) := by
  unfold execCommit
  apply answers_done
  try dsimp only
  repeat' with_reducible first | assumption | apply kept_State_jobAtOnce

theorem kept_execMerge {pq : List Instr} (c : CmdId) (sub : Submit) (sources : List (List Byte)) (s : State) (h_s :
    State.keeps pq s) :
    Answers pq (execMerge c sub sources s) := by
  unfold execMerge
  apply answers_done
  try dsimp only
  repeat' with_reducible first | assumption | apply kept_State_jobAtOnce

theorem kept_execServeOpen {pq : List Instr} (c : CmdId) (sub : Submit) (s : State) (h_s : State.keeps pq s) :
    Answers pq (execServeOpen c sub s) := by
  unfold execServeOpen
  apply answers_done
  try dsimp only
  repeat' with_reducible first | assumption | apply kept_State_jobAtOnce

theorem kept_execServeAppend {pq : List Instr} (c : CmdId) (sub : Submit) (tokens : List Nat) (s : State) (h_s :
    State.keeps pq s) :
    Answers pq (execServeAppend c sub tokens s) := by
  unfold execServeAppend
  apply answers_done
  try dsimp only
  repeat' with_reducible first | assumption | apply kept_State_jobAtOnce

theorem kept_execServeClose {pq : List Instr} (c : CmdId) (sub : Submit) (s : State) (h_s : State.keeps pq s) :
    Answers pq (execServeClose c sub s) := by
  unfold execServeClose
  apply answers_done
  try dsimp only
  repeat' with_reducible first | assumption | apply kept_State_jobAtOnce

theorem kept_execTrain {pq : List Instr} (c : CmdId) (sub : Submit) (s : State) (h_s : State.keeps pq s) :
    Answers pq (execTrain c sub s) := by
  unfold execTrain
  apply answers_done
  try dsimp only
  repeat' with_reducible first | assumption | apply kept_State_jobQueued

theorem kept_execJobAdmit {pq : List Instr} (tag : Nat) (s : State) (h_s : State.keeps pq s) :
    Answers pq (execJobAdmit tag s) := by
  unfold execJobAdmit
  apply answers_done
  try dsimp only
  repeat' with_reducible first | assumption | apply kept_State_tryAdmit

theorem kept_execJobRestart {pq : List Instr} (tag : Nat) (s : State) (h_s : State.keeps pq s) :
    Answers pq (execJobRestart tag s) := by
  unfold execJobRestart
  apply answers_done
  try dsimp only
  repeat' with_reducible first
    | assumption | apply kept_State_restartJob | simp only [State.keeps_mk, State.keeps_fold] | split

theorem kept_execJobCancel {pq : List Instr} (c : CmdId) (sqid cid : Nat) (s : State) (h_s : State.keeps pq s) :
    Answers pq (execJobCancel c sqid cid s) := by
  unfold execJobCancel
  apply answers_done
  try dsimp only
  repeat' with_reducible first
    | assumption | apply kept_State_command | apply kept_State_jobCancel
    | simp only [State.keeps_mk, State.keeps_fold] | split | intro _ _

/-! ## Faults -/

theorem kept_State_clearEnds {pq : List Instr} (s : State) (b : ClearBy) (result : Nat) (h_s : State.keeps pq s) :
    State.keeps pq (State.clearEnds s b result) := by
  unfold State.clearEnds
  try dsimp only
  repeat' with_reducible first
    | assumption | apply kept_State_command | apply kept_State_complete | apply kept_State_register
    | simp only [State.keeps_mk, State.keeps_fold, Fl.inForm_mk, Fl.inForm_fold] | split

theorem kept_State_cutFatalClear {pq : List Instr} (s : State) (h_s : State.keeps pq s) :
    State.keeps pq (State.cutFatalClear s) := by
  unfold State.cutFatalClear
  try dsimp only
  repeat' with_reducible first
    | assumption | apply kept_State_clearEnds | simp only [State.keeps_mk, State.keeps_fold] | split

theorem kept_State_postFatal {pq : List Instr} (s : State) (src kind : Nat) (addr : W64) (d0 d1 d2 d3 : W32) (h_s :
    State.keeps pq s) :
    State.keeps pq (State.postFatal s src kind addr d0 d1 d2 d3) := by
  unfold State.postFatal
  try dsimp only
  repeat' with_reducible first
    | assumption | apply kept_State_post | apply kept_Fl_stand | apply kept_State_fatalStop
    | apply kept_State_cutFatalClear | apply kept_State_alert
    | simp only [State.keeps_mk, State.keeps_fold, Fl.inForm_mk, Fl.inForm_fold] | split | apply And.intro
    | apply State.keeps.pending | apply State.keeps.sl (p := pq) | apply State.keeps.rl (p := pq)
    | apply State.keeps.se (p := pq) | apply State.keeps.sw (p := pq) | apply State.keeps.lp (p := pq)
    | apply State.keeps.fl (p := pq) | apply State.keeps.tiles (p := pq) | apply State.keeps.jd (p := pq)

theorem kept_Fl_standIf (f : Fl) (stands : Bool) (r : Record) (n : Nat) (h_f : Fl.inForm f) :
    Fl.inForm (Fl.standIf f stands r n) := by
  unfold Fl.standIf
  try dsimp only
  repeat' with_reducible first | assumption | apply kept_Fl_stand | simp only [Fl.inForm_mk, Fl.inForm_fold] | split

theorem kept_State_postContained {pq : List Instr} (s : State) (src kind : Nat) (addr : W64) (d0 d1 d2 d3 : W32)
    (squad : Option Nat) (jobs : List Nat) (stands : Bool) (h_s : State.keeps pq s) :
    State.keeps pq (State.postContained s src kind addr d0 d1 d2 d3 squad jobs stands) := by
  unfold State.postContained
  try dsimp only
  repeat' with_reducible first
    | assumption | apply kept_State_post | apply kept_State_faultJob | apply kept_Fl_stand
    | apply kept_State_fenceSquad | apply kept_Fl_standIf
    | simp only [State.keeps_mk, State.keeps_fold, Fl.inForm_mk, Fl.inForm_fold] | (apply kept_foldl; intro _ _ _)
    | split | apply And.intro | apply State.keeps.pending | apply State.keeps.sl (p := pq)
    | apply State.keeps.rl (p := pq) | apply State.keeps.se (p := pq) | apply State.keeps.sw (p := pq)
    | apply State.keeps.lp (p := pq) | apply State.keeps.fl (p := pq) | apply State.keeps.tiles (p := pq)
    | apply State.keeps.jd (p := pq)

theorem kept_State_haltTile {pq : List Instr} (s : State) (n : Nat) (h_s : State.keeps pq s) :
    State.keeps pq (State.haltTile s n) := by
  unfold State.haltTile
  try dsimp only
  repeat' with_reducible first
    | assumption | apply kept_State_setTile | apply kept_State_tile
    | simp only [State.keeps_mk, State.keeps_fold, Tile.inForm_mk, Tile.inForm_fold]

theorem kept_State_condemn {pq : List Instr} (s : State) (o : Nat) (h_s : State.keeps pq s) :
    State.keeps pq (State.condemn s o) := by
  unfold State.condemn
  try dsimp only
  repeat' with_reducible first
    | assumption | apply kept_State_onDir | apply kept_State_nearLost | simp only [State.keeps_mk, State.keeps_fold]
    | split

theorem kept_State_countNtUncorr {pq : List Instr} (s : State) (k : Nat) (h_s : State.keeps pq s) :
    State.keeps pq (State.countNtUncorr s k) := by
  unfold State.countNtUncorr
  try dsimp only
  repeat' with_reducible first
    | assumption | apply kept_Tile_put
    | simp only [State.keeps_mk, State.keeps_fold, Rl.inForm_mk, Rl.inForm_fold, Tile.inForm_mk, Tile.inForm_fold]

theorem kept_State_markDamaged {pq : List Instr} (s : State) (a : Nat) (h_s : State.keeps pq s) :
    State.keeps pq (State.markDamaged s a) := by
  unfold State.markDamaged
  try dsimp only
  repeat' with_reducible first
    | assumption | simp only [State.keeps_mk, State.keeps_fold, Rl.inForm_mk, Rl.inForm_fold]

theorem kept_State_countError {pq : List Instr} (s : State) (m : FaultMsg) (h_s : State.keeps pq s) :
    State.keeps pq (State.countError s m) := by
  unfold State.countError
  try dsimp only
  repeat' with_reducible first
    | assumption | apply kept_State_tile | apply kept_State_setTile | apply kept_Tile_put
    | apply kept_State_countNtUncorr | apply kept_State_markDamaged
    | simp only [State.keeps_mk, State.keeps_fold, Rl.inForm_mk, Rl.inForm_fold, Tile.inForm_mk, Tile.inForm_fold]
    | split

theorem kept_State_stopOps {pq : List Instr} (s : State) (m : FaultMsg) (n : Nat) (h_s : State.keeps pq s) :
    State.keeps pq (State.stopOps s m n) := by
  unfold State.stopOps
  try dsimp only
  repeat' with_reducible first
    | assumption | apply kept_State_tile | apply kept_State_laneFree | apply kept_State_setTile
    | simp only [State.keeps_mk, State.keeps_fold, Tile.inForm_mk, Tile.inForm_fold] | (apply kept_foldl; intro _ _ _)

theorem kept_Fl_loseSlot (f : Fl) (m : FaultMsg) (h_f : Fl.inForm f) :
    Fl.inForm (Fl.loseSlot f m) := by
  unfold Fl.loseSlot
  split
  · exact ⟨ring_filter h_f.ring, h_f.buffer, h_f.standing⟩
  · exact h_f

theorem kept_State_containedMsg {pq : List Instr} (s' : State) (m : FaultMsg) (h_s' : State.keeps pq s') :
    State.keeps pq (State.containedMsg s' m) := by
  unfold State.containedMsg
  try dsimp only
  repeat' with_reducible first
    | assumption | apply kept_Fl_loseSlot | apply kept_State_tile | apply kept_State_haltTile
    | apply kept_State_stopOps | apply kept_State_post | apply kept_State_postContained | apply kept_State_readLost
    | apply kept_State_condemn
    | simp only [State.keeps_mk, State.keeps_fold, Fl.inForm_mk, Fl.inForm_fold, Tile.inForm_mk, Tile.inForm_fold]
    | split | apply And.intro | apply State.keeps.pending | apply State.keeps.sl (p := pq)
    | apply State.keeps.rl (p := pq) | apply State.keeps.se (p := pq) | apply State.keeps.sw (p := pq)
    | apply State.keeps.lp (p := pq) | apply State.keeps.fl (p := pq) | apply State.keeps.tiles (p := pq)
    | apply State.keeps.jd (p := pq)

theorem kept_State_faultMessage {pq : List Instr} (s : State) (m : FaultMsg) (h_s : State.keeps pq s) :
    State.keeps pq (State.faultMessage s m) := by
  unfold State.faultMessage
  try dsimp only
  repeat' with_reducible first
    | assumption | apply kept_State_countError | apply kept_State_postOnce | apply kept_State_postCorr
    | apply kept_State_containedMsg | apply kept_State_postFatal | simp only [State.keeps_mk, State.keeps_fold]
    | split

theorem kept_Fl_unstand (f : Fl) (x : Standing) (h_f : Fl.inForm f) :
    Fl.inForm (Fl.unstand f x) := by
  unfold Fl.unstand
  try dsimp only
  repeat' with_reducible first
    | assumption | simp only [Fl.inForm_mk, Fl.inForm_fold] | split | apply And.intro | apply Fl.inForm.ring
    | apply Fl.inForm.buffer | apply Fl.inForm.standing | apply ring_put | apply ring_filter | apply standing_filter
    | apply standing_erase

theorem kept_State_recheck {pq : List Instr} (s : State) (cs : List Recheck) (x : Standing) (h_s : State.keeps pq s) :
    State.keeps pq (State.recheck s cs x) := by
  unfold State.recheck
  try dsimp only
  repeat' with_reducible first
    | assumption | apply kept_Fl_unstand | apply kept_State_tile | apply kept_State_setTile | apply kept_Tile_sweep
    | apply kept_State_nearWrite | apply kept_State_postFatal | apply kept_State_haltTile
    | apply kept_State_postContained
    | simp only [State.keeps_mk, State.keeps_fold, Fl.inForm_mk, Fl.inForm_fold, Tile.inForm_mk, Tile.inForm_fold]
    | split | apply And.intro | apply State.keeps.pending | apply State.keeps.sl (p := pq)
    | apply State.keeps.rl (p := pq) | apply State.keeps.se (p := pq) | apply State.keeps.sw (p := pq)
    | apply State.keeps.lp (p := pq) | apply State.keeps.fl (p := pq) | apply State.keeps.tiles (p := pq)
    | apply State.keeps.jd (p := pq)

theorem kept_State_clearSquads {pq : List Instr} (s : State) (b : ClearBy) (squads : List Nat) (loose : Bool) (cs :
    List Recheck) (h_s : State.keeps pq s) :
    State.keeps pq (State.clearSquads s b squads loose cs) := by
  unfold State.clearSquads
  try dsimp only
  repeat' with_reducible first
    | assumption | apply kept_State_clearEnds | apply kept_State_recheck
    | simp only [State.keeps_mk, State.keeps_fold, Fl.inForm_mk, Fl.inForm_fold] | (apply kept_foldl; intro _ _ _)
    | split

theorem kept_State_clearFatal {pq : List Instr} (s : State) (b : ClearBy) (cs : List Recheck) (h_s : State.keeps pq
    s) :
    State.keeps pq (State.clearFatal s b cs) := by
  unfold State.clearFatal
  try dsimp only
  repeat' with_reducible first
    | assumption | apply kept_State_clearEnds | apply kept_State_recheck
    | simp only [State.keeps_mk, State.keeps_fold] | (apply kept_foldl; intro _ _ _) | split

theorem kept_State_runClear {pq : List Instr} (s : State) (b : ClearBy) (scope squad : Nat) (cs : List Recheck) (h_s
    : State.keeps pq s) :
    State.keeps pq (State.runClear s b scope squad cs) := by
  unfold State.runClear
  try dsimp only
  repeat' with_reducible first
    | assumption | apply kept_State_clearFatal | apply kept_State_clearSquads
    | simp only [State.keeps_mk, State.keeps_fold] | split

theorem kept_State_faultClear {pq : List Instr} (s : State) (c : CmdId) (d : Dwords) (scope : Nat) (cs : List
    Recheck) (h_s : State.keeps pq s) :
    State.keeps pq (State.faultClear s c d scope cs) := by
  unfold State.faultClear
  try dsimp only
  repeat' with_reducible first
    | assumption | apply kept_State_command | apply kept_State_complete | apply kept_State_runClear
    | simp only [State.keeps_mk, State.keeps_fold] | split | intro _ _

theorem kept_State_flClear {pq : List Instr} (s : State) (scope squad : Nat) (cs : List Recheck) (h_s : State.keeps
    pq s) :
    State.keeps pq (State.flClear s scope squad cs) := by
  unfold State.flClear
  try dsimp only
  repeat' with_reducible first
    | assumption | apply kept_State_runClear | apply kept_State_register
    | simp only [State.keeps_mk, State.keeps_fold, Fl.inForm_mk, Fl.inForm_fold] | split

theorem kept_State_freshTiles {pq : List Instr} (s : State) (squad : Nat) (h_s : State.keeps pq s) :
    State.keeps pq (State.freshTiles s squad) := by
  unfold State.freshTiles
  try dsimp only
  repeat' with_reducible first
    | assumption | apply kept_Tile_sweep
    | simp only [State.keeps_mk, State.keeps_fold, Tile.inForm_mk, Tile.inForm_fold] | split | apply And.intro
    | apply State.keeps.pending | apply State.keeps.sl (p := pq) | apply State.keeps.rl (p := pq)
    | apply State.keeps.se (p := pq) | apply State.keeps.sw (p := pq) | apply State.keeps.lp (p := pq)
    | apply State.keeps.fl (p := pq) | apply State.keeps.tiles (p := pq) | apply State.keeps.jd (p := pq)
    | apply tilesInForm_put | (apply tilesInForm_mapVals; intro _ _ _)

theorem kept_State_unfence {pq : List Instr} (s : State) (squad : Nat) (h_s : State.keeps pq s) :
    State.keeps pq (State.unfence s squad) := by
  unfold State.unfence
  try dsimp only
  repeat' with_reducible first
    | assumption | apply kept_State_freshTiles | apply kept_State_onSquad | apply kept_State_writeDead

theorem kept_State_fenceClear {pq : List Instr} (s : State) (k : ClearOp) (h_s : State.keeps pq s) :
    State.keeps pq (State.fenceClear s k) := by
  unfold State.fenceClear
  try dsimp only
  repeat' with_reducible first
    | assumption | apply kept_State_unfence | apply kept_State_clearEnds
    | simp only [State.keeps_mk, State.keeps_fold, Fl.inForm_mk, Fl.inForm_fold] | (apply kept_foldl; intro _ _ _)
    | split

theorem kept_execFaultMessage {pq : List Instr} (m : FaultMsg) (s : State) (h_s : State.keeps pq s) :
    Answers pq (execFaultMessage m s) := by
  unfold execFaultMessage
  apply answers_done
  try dsimp only
  repeat' with_reducible first
    | assumption | apply kept_State_faultMessage | simp only [State.keeps_mk, State.keeps_fold] | split

theorem kept_execMgWatchdogExpiry {pq : List Instr} (core : Nat) (s : State) (h_s : State.keeps pq s) :
    Answers pq (execMgWatchdogExpiry core s) := by
  unfold execMgWatchdogExpiry
  apply answers_done
  try dsimp only
  repeat' with_reducible first
    | assumption | apply kept_State_postFatal | simp only [State.keeps_mk, State.keeps_fold] | split

theorem kept_execFaultClearFatal {pq : List Instr} (c : CmdId) (d : Dwords) (checks : List Recheck) (s : State) (h_s
    : State.keeps pq s) :
    Answers pq (execFaultClearFatal c d checks s) := by
  unfold execFaultClearFatal
  apply answers_done
  try dsimp only
  repeat' with_reducible first | assumption | apply kept_State_faultClear

theorem kept_execFaultClearSquad {pq : List Instr} (c : CmdId) (d : Dwords) (checks : List Recheck) (s : State) (h_s
    : State.keeps pq s) :
    Answers pq (execFaultClearSquad c d checks s) := by
  unfold execFaultClearSquad
  apply answers_done
  try dsimp only
  repeat' with_reducible first | assumption | apply kept_State_faultClear

theorem kept_execFaultClearAllContained {pq : List Instr} (c : CmdId) (d : Dwords) (checks : List Recheck) (s :
    State) (h_s : State.keeps pq s) :
    Answers pq (execFaultClearAllContained c d checks s) := by
  unfold execFaultClearAllContained
  apply answers_done
  try dsimp only
  repeat' with_reducible first | assumption | apply kept_State_faultClear

theorem kept_execFlClearFatal {pq : List Instr} (w : FlClearWrite) (s : State) (h_s : State.keeps pq
    s) :
    Answers pq (execFlClearFatal w s) := by
  unfold execFlClearFatal
  apply answers_done
  try dsimp only
  repeat' with_reducible first | assumption | apply kept_State_flClear

theorem kept_execFlClearSquad {pq : List Instr} (v : W32) (checks : List Recheck) (s : State) (h_s : State.keeps pq
    s) :
    Answers pq (execFlClearSquad v checks s) := by
  unfold execFlClearSquad
  apply answers_done
  try dsimp only
  repeat' with_reducible first | assumption | apply kept_State_flClear

theorem kept_execFlClearAllContained {pq : List Instr} (w : FlClearWrite) (s : State) (h_s :
    State.keeps pq s) :
    Answers pq (execFlClearAllContained w s) := by
  unfold execFlClearAllContained
  apply answers_done
  try dsimp only
  repeat' with_reducible first | assumption | apply kept_State_flClear

theorem kept_execFenceClearApply {pq : List Instr} (s : State) (h_s : State.keeps pq s) :
    Answers pq (execFenceClearApply s) := by
  unfold execFenceClearApply
  apply answers_done
  try dsimp only
  repeat' with_reducible first
    | assumption | apply kept_State_fenceClear | simp only [State.keeps_mk, State.keeps_fold] | split

end Sys2Proof.Machine
end

