-- ==== Sys2Proof/Laws/Kept3.lean ====
section
/-! SUPPORT. What every operation keeps (KeptDefs): the settings store, queues, administration, images, bring-up and the medium. -/

namespace Sys2Proof.Machine

/-! ## Store -/

theorem kept_Sw_putBytes (w : Sw) (a : Nat) (l : List Byte) (h_w : Sw.inForm w) :
    Sw.inForm (Sw.putBytes w a l) := by
  unfold Sw.putBytes
  try dsimp only
  repeat' with_reducible first
    | assumption | simp only [Sw.inForm_mk, Sw.inForm_fold] | split | apply And.intro | apply cellsWf_writeCells

theorem kept_Sw_eraseSector (w : Sw) (s : Nat) (h_w : Sw.inForm w) :
    Sw.inForm (Sw.eraseSector w s) := by
  unfold Sw.eraseSector
  try dsimp only
  repeat' with_reducible first
    | assumption | simp only [Sw.inForm_mk, Sw.inForm_fold] | split | apply And.intro | apply cellsWf_eraseCells

theorem kept_State_swProgram {pq : List Instr} (s : State) (a : Nat) (l : List Byte) (h_s : State.keeps pq s) :
    State.keeps pq (State.swProgram s a l) := by
  have h : State.keeps pq s.drawNat.2 := kept_State_drawNat s h_s
  have hw : Sw.inForm (s.drawNat.2.sw.putBytes a l) := kept_Sw_putBytes _ _ _ h.sw
  have hs : (s.swProgram a l).sw.store = (s.drawNat.2.sw.putBytes a l).store := rfl
  refine ⟨h.pending, h.fl, h.sl, h.rl, h.tiles, h.se, ?_, h.lp, h.jd⟩
  unfold Sw.inForm
  rw [hs]
  exact hw

theorem kept_State_swProgramFail {pq : List Instr} (s : State) (a : Nat) (l : List Byte) (h_s : State.keeps pq s) :
    State.keeps pq (State.swProgramFail s a l) := by
  unfold State.swProgramFail
  try dsimp only
  repeat' with_reducible first
    | assumption | apply kept_State_draw | apply kept_Sw_putBytes | apply kept_State_postCorr
    | simp only [State.keeps_mk, State.keeps_fold, Sw.inForm_mk, Sw.inForm_fold] | split | apply And.intro
    | apply State.keeps.pending | apply State.keeps.sl (p := pq) | apply State.keeps.rl (p := pq)
    | apply State.keeps.se (p := pq) | apply State.keeps.sw (p := pq) | apply State.keeps.lp (p := pq)
    | apply State.keeps.fl (p := pq) | apply State.keeps.tiles (p := pq) | apply State.keeps.jd (p := pq)

theorem kept_State_swErase {pq : List Instr} (s : State) (sect : Nat) (h_s : State.keeps pq s) :
    State.keeps pq (State.swErase s sect) := by
  have hw := kept_Sw_eraseSector s.sw sect h_s.sw
  have hs : (s.swErase sect).sw.store = (s.sw.eraseSector sect).store := rfl
  refine ⟨h_s.pending, h_s.fl, h_s.sl, h_s.rl, h_s.tiles, h_s.se, ?_, h_s.lp, h_s.jd⟩
  unfold Sw.inForm
  rw [hs]
  exact hw

theorem kept_State_logWrite {pq : List Instr} (s : State) (g : LogId) (payload : List Byte) (writes : List Bool)
    (h_s : State.keeps pq s) :
    State.keeps pq (State.logWrite s g payload writes).1 := by
  unfold State.logWrite
  try dsimp only
  repeat' with_reducible first
    | assumption | apply kept_State_swErase | apply kept_State_swProgram | apply kept_State_swProgramFail
    | simp only [State.keeps_mk, State.keeps_fold] | split

theorem kept_Sw_cleanPair (w : Sw) (g : LogId) (h_w : Sw.inForm w) :
    Sw.inForm (Sw.cleanPair w g) := by
  unfold Sw.cleanPair
  try dsimp only
  repeat' with_reducible first
    | assumption | apply kept_Sw_eraseSector | simp only [State.keeps_mk, State.keeps_fold] | split

theorem kept_Sw_cleanPairs (w : Sw) (h_w : Sw.inForm w) :
    Sw.inForm (Sw.cleanPairs w) := by
  unfold Sw.cleanPairs
  try dsimp only
  repeat' with_reducible first | assumption | apply kept_Sw_cleanPair

theorem kept_Sw_loadProtect (w : Sw) (h_w : Sw.inForm w) :
    Sw.inForm (Sw.loadProtect w) := by
  unfold Sw.loadProtect
  try dsimp only
  repeat' with_reducible first | assumption | simp only [Sw.inForm_mk, Sw.inForm_fold]

theorem kept_Sw_seqErr (w : Sw) (h_w : Sw.inForm w) :
    Sw.inForm (Sw.seqErr w) := by
  unfold Sw.seqErr
  try dsimp only
  repeat' with_reducible first | assumption | simp only [Sw.inForm_mk, Sw.inForm_fold]

theorem kept_Sw_start (w : Sw) (o : SwOp) (h_w : Sw.inForm w) :
    Sw.inForm (Sw.start w o) := by
  unfold Sw.start
  try dsimp only
  repeat' with_reducible first | assumption | simp only [Sw.inForm_mk, Sw.inForm_fold] | split

theorem kept_Sw_final (w : Sw) (o : SwOp) (h_w : Sw.inForm w) :
    Sw.inForm (Sw.final w o) := by
  unfold Sw.final
  try dsimp only
  repeat' with_reducible first
    | assumption | apply kept_Sw_seqErr | apply kept_Sw_start | simp only [Sw.inForm_mk, Sw.inForm_fold] | split

theorem kept_Sw_cycle (w : Sw) (c : SwCycle) (h_w : Sw.inForm w) :
    Sw.inForm (Sw.cycle w c) := by
  unfold Sw.cycle
  try dsimp only
  repeat' with_reducible first
    | assumption | apply kept_Sw_seqErr | apply kept_Sw_final | simp only [Sw.inForm_mk, Sw.inForm_fold] | split

theorem kept_Sw_cycles (w : Sw) (cs : List SwCycle) (h_w : Sw.inForm w) :
    Sw.inForm (Sw.cycles w cs) := by
  unfold Sw.cycles
  try dsimp only
  repeat' with_reducible first
    | assumption | apply kept_Sw_cycle | simp only [State.keeps_mk, State.keeps_fold]
    | (apply kept_foldl; intro _ _ _)

theorem kept_Sw_endSeq (w : Sw) (h_w : Sw.inForm w) :
    Sw.inForm (Sw.endSeq w) := by
  unfold Sw.endSeq
  try dsimp only
  repeat' with_reducible first | assumption | simp only [Sw.inForm_mk, Sw.inForm_fold]

theorem kept_Sw_windowRead (w : Sw) (off len : Nat) (h_w : Sw.inForm w) :
    Sw.inForm (Sw.windowRead w off len).2 := by
  unfold Sw.windowRead
  try dsimp only
  repeat' with_reducible first | assumption | simp only [Sw.inForm_mk, Sw.inForm_fold] | split

theorem kept_Sw_applyCells (w : Sw) (cs : List (Nat × Byte)) (h_w : Sw.inForm w) :
    Sw.inForm (Sw.applyCells w cs) := by
  exact kept_foldl (P := fun m => cellsWf 0xFF m = true) (fun _ _ h => cellsWf_writeCell _ _ h) h_w

theorem kept_Sw_opOk (w : Sw) (o : SwOp) (pulses : Nat) (h_w : Sw.inForm w) :
    Sw.inForm (Sw.opOk w o pulses) := by
  unfold Sw.opOk
  try dsimp only
  repeat' with_reducible first
    | assumption | apply kept_Sw_applyCells | apply kept_Sw_eraseSector | simp only [Sw.inForm_mk, Sw.inForm_fold]
    | split

theorem kept_State_swFail {pq : List Instr} (s : State) (o : SwOp) (h_s : State.keeps pq s) :
    State.keeps pq (State.swFail s o) := by
  unfold State.swFail
  try dsimp only
  repeat' with_reducible first
    | assumption | apply kept_State_draw | apply kept_Sw_applyCells | apply kept_State_postCorr
    | simp only [State.keeps_mk, State.keeps_fold, Sw.inForm_mk, Sw.inForm_fold] | (apply kept_foldl; intro _ _ _)
    | split | apply And.intro | apply State.keeps.pending | apply State.keeps.sl (p := pq)
    | apply State.keeps.rl (p := pq) | apply State.keeps.se (p := pq) | apply State.keeps.sw (p := pq)
    | apply State.keeps.lp (p := pq) | apply State.keeps.fl (p := pq) | apply State.keeps.tiles (p := pq)
    | apply State.keeps.jd (p := pq) | apply cellsWf_writeCell

theorem kept_State_verifyFailed {pq : List Instr} (s : State) (h_s : State.keeps pq s) :
    State.keeps pq (State.verifyFailed s) := by
  unfold State.verifyFailed
  try dsimp only
  repeat' with_reducible first
    | assumption | simp only [State.keeps_mk, State.keeps_fold, Se.inForm_mk, Se.inForm_fold]

theorem kept_State_grantEnds {pq : List Instr} (s : State) (code : Nat) (h_s : State.keeps pq s) :
    State.keeps pq (State.grantEnds s code) := by
  unfold State.grantEnds
  try dsimp only
  repeat' with_reducible first
    | assumption | simp only [State.keeps_mk, State.keeps_fold, Sw.inForm_mk, Sw.inForm_fold]

theorem kept_State_applyGrant {pq : List Instr} (s : State) (g : List Byte) (writes : List Bool) (h_s : State.keeps
    pq s) :
    State.keeps pq (State.applyGrant s g writes) := by
  unfold State.applyGrant
  try dsimp only
  repeat' with_reducible first
    | assumption | apply kept_State_logWrite | apply kept_State_grantEnds | apply kept_State_swErase
    | apply kept_State_swProgram | apply kept_State_swProgramFail
    | simp only [State.keeps_mk, State.keeps_fold, Sw.inForm_mk, Sw.inForm_fold] | split

theorem kept_State_maintenance {pq : List Instr} (s : State) (g : List Byte) (sigOk : Bool) (writes : List Bool)
    (h_s : State.keeps pq s) :
    State.keeps pq (State.maintenance s g sigOk writes) := by
  unfold State.maintenance
  try dsimp only
  repeat' with_reducible first
    | assumption | apply kept_State_grantEnds | apply kept_State_verifyFailed | apply kept_State_applyGrant
    | simp only [State.keeps_mk, State.keeps_fold] | split

theorem kept_execSwWindowRead {pq : List Instr} (off len : Nat) (s : State) (h_s : State.keeps pq s) :
    Answers pq (execSwWindowRead off len s) := by
  unfold execSwWindowRead
  apply answers_done
  try dsimp only
  repeat' with_reducible first
    | assumption | apply kept_Sw_windowRead
    | simp only [State.keeps_mk, State.keeps_fold, Sw.inForm_mk, Sw.inForm_fold] | split | apply And.intro
    | apply State.keeps.pending | apply State.keeps.sl (p := pq) | apply State.keeps.rl (p := pq)
    | apply State.keeps.se (p := pq) | apply State.keeps.sw (p := pq) | apply State.keeps.lp (p := pq)
    | apply State.keeps.fl (p := pq) | apply State.keeps.tiles (p := pq) | apply State.keeps.jd (p := pq)

theorem kept_State_swCycles {pq : List Instr} (s : State) (cs : List SwCycle) (h_s : State.keeps pq s) :
    State.keeps pq (State.swCycles s cs) := by
  unfold State.swCycles
  try dsimp only
  repeat' with_reducible first
    | assumption | apply kept_Sw_cycles | simp only [State.keeps_mk, State.keeps_fold, Sw.inForm_mk, Sw.inForm_fold]
    | split | apply And.intro | apply State.keeps.pending | apply State.keeps.sl (p := pq)
    | apply State.keeps.rl (p := pq) | apply State.keeps.se (p := pq) | apply State.keeps.sw (p := pq)
    | apply State.keeps.lp (p := pq) | apply State.keeps.fl (p := pq) | apply State.keeps.tiles (p := pq)
    | apply State.keeps.jd (p := pq)

theorem kept_execWordProgram {pq : List Instr} (cycles : List SwCycle) (s : State) (h_s : State.keeps pq s) :
    Answers pq (execWordProgram cycles s) := by
  unfold execWordProgram
  apply answers_done
  try dsimp only
  repeat' with_reducible first | assumption | apply kept_State_swCycles

theorem kept_execPageProgram {pq : List Instr} (cycles : List SwCycle) (s : State) (h_s : State.keeps pq s) :
    Answers pq (execPageProgram cycles s) := by
  unfold execPageProgram
  apply answers_done
  try dsimp only
  repeat' with_reducible first | assumption | apply kept_State_swCycles

theorem kept_execSectorErase {pq : List Instr} (cycles : List SwCycle) (s : State) (h_s : State.keeps pq s) :
    Answers pq (execSectorErase cycles s) := by
  unfold execSectorErase
  apply answers_done
  try dsimp only
  repeat' with_reducible first | assumption | apply kept_State_swCycles

theorem kept_execIdentifyMode {pq : List Instr} (cycles : List SwCycle) (s : State) (h_s : State.keeps pq s) :
    Answers pq (execIdentifyMode cycles s) := by
  unfold execIdentifyMode
  apply answers_done
  try dsimp only
  repeat' with_reducible first | assumption | apply kept_State_swCycles

theorem kept_execSwAbort {pq : List Instr} (off : Nat) (s : State) (h_s : State.keeps pq s) :
    Answers pq (execSwAbort off s) := by
  unfold execSwAbort
  apply answers_done
  try dsimp only
  repeat' with_reducible first | assumption | apply kept_State_swCycles

theorem kept_execSwOpDone {pq : List Instr} (pulses : Nat) (ok : Bool) (s : State) (h_s : State.keeps pq s) :
    Answers pq (execSwOpDone pulses ok s) := by
  unfold execSwOpDone
  apply answers_done
  try dsimp only
  repeat' with_reducible first
    | assumption | apply kept_Sw_opOk | apply kept_State_swFail
    | simp only [State.keeps_mk, State.keeps_fold, Sw.inForm_mk, Sw.inForm_fold] | split | apply And.intro
    | apply State.keeps.pending | apply State.keeps.sl (p := pq) | apply State.keeps.rl (p := pq)
    | apply State.keeps.se (p := pq) | apply State.keeps.sw (p := pq) | apply State.keeps.lp (p := pq)
    | apply State.keeps.fl (p := pq) | apply State.keeps.tiles (p := pq) | apply State.keeps.jd (p := pq)

theorem kept_execSwQueuedStart {pq : List Instr} (s : State) (h_s : State.keeps pq s) :
    Answers pq (execSwQueuedStart s) := by
  unfold execSwQueuedStart
  apply answers_done
  try dsimp only
  repeat' with_reducible first
    | assumption | apply kept_Sw_start | simp only [State.keeps_mk, State.keeps_fold, Sw.inForm_mk, Sw.inForm_fold]
    | split | apply And.intro | apply State.keeps.pending | apply State.keeps.sl (p := pq)
    | apply State.keeps.rl (p := pq) | apply State.keeps.se (p := pq) | apply State.keeps.sw (p := pq)
    | apply State.keeps.lp (p := pq) | apply State.keeps.fl (p := pq) | apply State.keeps.tiles (p := pq)
    | apply State.keeps.jd (p := pq)

theorem kept_execSwProtectSet {pq : List Instr} (word : Nat) (v : W32) (s : State) (h_s : State.keeps pq s) :
    Answers pq (execSwProtectSet word v s) := by
  unfold execSwProtectSet
  apply answers_done
  try dsimp only
  repeat' with_reducible first
    | assumption | simp only [State.keeps_mk, State.keeps_fold, Sw.inForm_mk, Sw.inForm_fold] | split

theorem kept_execMaintenanceGrant {pq : List Instr} (grant : List Byte) (sigOk : Bool) (writes : List Bool) (s :
    State) (h_s : State.keeps pq s) :
    Answers pq (execMaintenanceGrant grant sigOk writes s) := by
  unfold execMaintenanceGrant
  apply answers_done
  try dsimp only
  repeat' with_reducible first
    | assumption | apply kept_State_maintenance | apply kept_State_grant
    | simp only [State.keeps_mk, State.keeps_fold] | split

/-! ## Queues -/

theorem kept_State_mapCmds {pq : List Instr} (s : State) (f : CmdId → CmdId) (h_s : State.keeps pq s) :
    State.keeps pq (State.mapCmds s f) := by
  unfold State.mapCmds
  try dsimp only
  repeat' with_reducible first
    | assumption
    | simp only [State.keeps_mk, State.keeps_fold, Sl.inForm_mk, Sl.inForm_fold, Rl.inForm_mk, Rl.inForm_fold, Se.inForm_mk, Se.inForm_fold, Fl.inForm_mk, Fl.inForm_fold, Jd.inForm_mk, Jd.inForm_fold]
    | split | apply And.intro | apply State.keeps.pending | apply State.keeps.sl (p := pq)
    | apply State.keeps.rl (p := pq) | apply State.keeps.se (p := pq) | apply State.keeps.sw (p := pq)
    | apply State.keeps.lp (p := pq) | apply State.keeps.fl (p := pq) | apply State.keeps.tiles (p := pq)
    | apply State.keeps.jd (p := pq) | exact cellsWf_nil _ | apply Rl.inForm.near | apply Rl.inForm.far
    | exact Rl.inForm_reset | exact Se.inForm_reset | apply Fl.inForm.ring | apply Fl.inForm.buffer
    | apply Fl.inForm.standing | apply ring_put | apply ring_filter | apply standing_filter | apply standing_erase
    | exact Fl.inForm_reset | exact Jd.inForm_reset | apply Jd.inForm.jobs | apply jobs_filter | apply jobs_succ
    | (apply jobs_map; intro _; rfl)

theorem kept_State_orphan {pq : List Instr} (s : State) (p : Nat → Bool) (h_s : State.keeps pq s) :
    State.keeps pq (State.orphan s p) := by
  unfold State.orphan
  try dsimp only
  repeat' with_reducible first | assumption | apply kept_State_mapCmds | simp only [State.keeps_mk, State.keeps_fold]

theorem kept_State_stopQe {pq : List Instr} (s : State) (h_s : State.keeps pq s) :
    State.keeps pq (State.stopQe s) := by
  unfold State.stopQe
  try dsimp only
  repeat' with_reducible first
    | assumption | apply kept_State_orphan | apply kept_State_cancelJob | apply kept_State_resetStore
    | apply kept_Sw_endSeq | simp only [State.keeps_mk, State.keeps_fold, Sw.inForm_mk, Sw.inForm_fold]
    | (apply kept_foldl; intro _ _ _) | split | apply And.intro | apply State.keeps.pending
    | apply State.keeps.sl (p := pq) | apply State.keeps.rl (p := pq) | apply State.keeps.se (p := pq)
    | apply State.keeps.sw (p := pq) | apply State.keeps.lp (p := pq) | apply State.keeps.fl (p := pq)
    | apply State.keeps.tiles (p := pq) | apply State.keeps.jd (p := pq)

theorem kept_State_controllerReset {pq : List Instr} (s : State) (h_s : State.keeps pq s) :
    State.keeps pq (State.controllerReset s) := by
  unfold State.controllerReset
  try dsimp only
  repeat' with_reducible first | assumption | apply kept_State_stopQe | simp only [State.keeps_mk, State.keeps_fold]

theorem kept_State_resetLp {pq : List Instr} (s : State) (h_s : State.keeps pq s) :
    State.keeps pq (State.resetLp s) := by
  unfold State.resetLp
  try dsimp only
  repeat' with_reducible first
    | assumption | apply kept_State_resetStore | apply kept_State_finishWrite
    | simp only [State.keeps_mk, State.keeps_fold, Lp.inForm_mk, Lp.inForm_fold] | (apply kept_foldl; intro _ _ _)

theorem kept_State_takeReady {pq : List Instr} (s : State) (h_s : State.keeps pq s) :
    State.keeps pq (State.takeReady s) := by
  unfold State.takeReady
  try dsimp only
  repeat' with_reducible first | assumption | simp only [State.keeps_mk, State.keeps_fold]

theorem kept_State_controllerEnable {pq : List Instr} (s : State) (h_s : State.keeps pq s) :
    State.keeps pq (State.controllerEnable s) := by
  unfold State.controllerEnable
  try dsimp only
  repeat' with_reducible first | assumption | simp only [State.keeps_mk, State.keeps_fold]

theorem kept_State_wakeIo {pq : List Instr} (s : State) (sq : Nat) (h_s : State.keeps pq s) :
    State.keeps pq (State.wakeIo s sq) := by
  unfold State.wakeIo
  try dsimp only
  repeat' with_reducible first | assumption | simp only [State.keeps_mk, State.keeps_fold] | split

theorem kept_State_sqTail {pq : List Instr} (s : State) (n tail : Nat) (h_s : State.keeps pq s) :
    State.keeps pq (State.sqTail s n tail) := by
  unfold State.sqTail
  try dsimp only
  repeat' with_reducible first
    | assumption | apply kept_Tile_put | apply kept_State_wakeIo | simp only [State.keeps_mk, State.keeps_fold]
    | split

theorem kept_State_cqHead {pq : List Instr} (s : State) (n head : Nat) (h_s : State.keeps pq s) :
    State.keeps pq (State.cqHead s n head) := by
  unfold State.cqHead
  try dsimp only
  repeat' with_reducible first
    | assumption | apply kept_Tile_put | simp only [State.keeps_mk, State.keeps_fold] | split

theorem kept_State_createCq {pq : List Instr} (s : State) (c : CmdId) (n size vector : Nat) (ien pc : Bool) (h_s :
    State.keeps pq s) :
    State.keeps pq (State.createCq s c n size vector ien pc) := by
  unfold State.createCq
  try dsimp only
  repeat' with_reducible first
    | assumption | apply kept_State_complete | apply kept_Tile_put | simp only [State.keeps_mk, State.keeps_fold]
    | split

theorem kept_State_createSq {pq : List Instr} (s : State) (c : CmdId) (n size prio cq : Nat) (pc : Bool) (h_s :
    State.keeps pq s) :
    State.keeps pq (State.createSq s c n size prio cq pc) := by
  unfold State.createSq
  try dsimp only
  repeat' with_reducible first
    | assumption | apply kept_State_complete | apply kept_Tile_put | simp only [State.keeps_mk, State.keeps_fold]
    | split

theorem kept_State_deleteSq {pq : List Instr} (s : State) (c : CmdId) (n : Nat) (h_s : State.keeps pq s) :
    State.keeps pq (State.deleteSq s c n) := by
  unfold State.deleteSq
  try dsimp only
  repeat' with_reducible first
    | assumption | apply kept_State_complete | apply kept_State_orphan | simp only [State.keeps_mk, State.keeps_fold]
    | split

theorem kept_State_deleteCq {pq : List Instr} (s : State) (c : CmdId) (n : Nat) (h_s : State.keeps pq s) :
    State.keeps pq (State.deleteCq s c n) := by
  unfold State.deleteCq
  try dsimp only
  repeat' with_reducible first
    | assumption | apply kept_State_complete | simp only [State.keeps_mk, State.keeps_fold] | split

theorem kept_State_transferFails {pq : List Instr} (s : State) (c : CmdId) (h_s : State.keeps pq s) :
    State.keeps pq (State.transferFails s c) := by
  unfold State.transferFails
  try dsimp only
  repeat' with_reducible first
    | assumption | apply kept_State_endStore | apply kept_State_stopCommit | apply kept_State_cutAppend
    | apply kept_State_dropCopies | apply kept_State_stopJob | apply kept_State_dropCopy | apply kept_State_complete
    | simp only [State.keeps_mk, State.keeps_fold] | split

theorem kept_execSqTailDoorbell {pq : List Instr} (sq tail : Nat) (s : State) (h_s : State.keeps pq s) :
    Answers pq (execSqTailDoorbell sq tail s) := by
  unfold execSqTailDoorbell
  apply answers_done
  try dsimp only
  repeat' with_reducible first
    | assumption | apply kept_State_sqTail | simp only [State.keeps_mk, State.keeps_fold] | split

theorem kept_execCqHeadDoorbell {pq : List Instr} (cq head : Nat) (s : State) (h_s : State.keeps pq s) :
    Answers pq (execCqHeadDoorbell cq head s) := by
  unfold execCqHeadDoorbell
  apply answers_done
  try dsimp only
  repeat' with_reducible first
    | assumption | apply kept_State_cqHead | simp only [State.keeps_mk, State.keeps_fold] | split

theorem kept_execControllerEnable {pq : List Instr} (s : State) (h_s : State.keeps pq s) :
    Answers pq (execControllerEnable s) := by
  unfold execControllerEnable
  apply answers_done
  try dsimp only
  repeat' with_reducible first
    | assumption | apply kept_State_controllerEnable | simp only [State.keeps_mk, State.keeps_fold] | split

theorem kept_execControllerReset {pq : List Instr} (s : State) (h_s : State.keeps pq s) :
    Answers pq (execControllerReset s) := by
  unfold execControllerReset
  apply answers_done
  try dsimp only
  repeat' with_reducible first
    | assumption | apply kept_State_controllerReset | simp only [State.keeps_mk, State.keeps_fold] | split

theorem kept_execFlrFunction0 {pq : List Instr} (s : State) (h_s : State.keeps pq s) :
    Answers pq (execFlrFunction0 s) := by
  unfold execFlrFunction0
  apply answers_done
  try dsimp only
  repeat' with_reducible first
    | assumption | apply kept_State_controllerReset | simp only [State.keeps_mk, State.keeps_fold] | split

theorem kept_execFlrFunction1 {pq : List Instr} (s : State) (h_s : State.keeps pq s) :
    Answers pq (execFlrFunction1 s) := by
  unfold execFlrFunction1
  apply answers_done
  try dsimp only
  repeat' with_reducible first
    | assumption | apply kept_State_resetLp | simp only [State.keeps_mk, State.keeps_fold] | split

theorem kept_execHlPcieError {pq : List Instr} (fn bit : Nat) (s : State) (h_s : State.keeps pq s) :
    Answers pq (execHlPcieError fn bit s) := by
  unfold execHlPcieError
  apply answers_done
  try dsimp only
  repeat' with_reducible first
    | assumption | apply kept_State_postOnce | simp only [State.keeps_mk, State.keeps_fold] | split

theorem kept_execDataTransferError {pq : List Instr} (c : CmdId) (addr : W64) (s : State) (h_s : State.keeps pq s) :
    Answers pq (execDataTransferError c addr s) := by
  unfold execDataTransferError
  apply answers_done
  try dsimp only
  repeat' with_reducible first
    | assumption | apply kept_State_postCorr | apply kept_State_transferFails
    | simp only [State.keeps_mk, State.keeps_fold] | split

theorem kept_execCreateIoSq {pq : List Instr} (c : CmdId) (sqid size prio cqid : Nat) (pc : Bool) (s : State) (h_s :
    State.keeps pq s) :
    Answers pq (execCreateIoSq c sqid size prio cqid pc s) := by
  unfold execCreateIoSq
  apply answers_done
  try dsimp only
  repeat' with_reducible first
    | assumption | apply kept_State_command | apply kept_State_createSq | simp only [State.keeps_mk, State.keeps_fold]
    | split | intro _ _

theorem kept_execCreateIoCq {pq : List Instr} (c : CmdId) (cqid size vector : Nat) (ien pc : Bool) (s : State) (h_s
    : State.keeps pq s) :
    Answers pq (execCreateIoCq c cqid size vector ien pc s) := by
  unfold execCreateIoCq
  apply answers_done
  try dsimp only
  repeat' with_reducible first
    | assumption | apply kept_State_command | apply kept_State_createCq | simp only [State.keeps_mk, State.keeps_fold]
    | split | intro _ _

theorem kept_execDeleteIoSq {pq : List Instr} (c : CmdId) (sqid : Nat) (s : State) (h_s : State.keeps pq s) :
    Answers pq (execDeleteIoSq c sqid s) := by
  unfold execDeleteIoSq
  apply answers_done
  try dsimp only
  repeat' with_reducible first
    | assumption | apply kept_State_command | apply kept_State_deleteSq | simp only [State.keeps_mk, State.keeps_fold]
    | split | intro _ _

theorem kept_execDeleteIoCq {pq : List Instr} (c : CmdId) (cqid : Nat) (s : State) (h_s : State.keeps pq s) :
    Answers pq (execDeleteIoCq c cqid s) := by
  unfold execDeleteIoCq
  apply answers_done
  try dsimp only
  repeat' with_reducible first
    | assumption | apply kept_State_command | apply kept_State_deleteCq | simp only [State.keeps_mk, State.keeps_fold]
    | split | intro _ _

theorem kept_execNvmeShutdown {pq : List Instr} (s : State) (h_s : State.keeps pq s) :
    Answers pq (execNvmeShutdown s) := by
  unfold execNvmeShutdown
  apply answers_done
  try dsimp only
  repeat' with_reducible first | assumption | simp only [State.keeps_mk, State.keeps_fold] | split

/-! ## PowerStates -/

theorem kept_State_panelLost {pq : List Instr} (s : State) (h_s : State.keeps pq s) :
    State.keeps pq (State.panelLost s) := by
  unfold State.panelLost
  try dsimp only
  repeat' with_reducible first
    | assumption | apply kept_Tile_sweep | apply kept_State_dropAllKeepers
    | simp only [State.keeps_mk, State.keeps_fold, Tile.inForm_mk, Tile.inForm_fold] | split | apply And.intro
    | apply State.keeps.pending | apply State.keeps.sl (p := pq) | apply State.keeps.rl (p := pq)
    | apply State.keeps.se (p := pq) | apply State.keeps.sw (p := pq) | apply State.keeps.lp (p := pq)
    | apply State.keeps.fl (p := pq) | apply State.keeps.tiles (p := pq) | apply State.keeps.jd (p := pq)
    | apply tilesInForm_put | (apply tilesInForm_mapVals; intro _ _ _)

theorem kept_State_applyPs {pq : List Instr} (s : State) (n : Nat) (h_s : State.keeps pq s) :
    State.keeps pq (State.applyPs s n) := by
  unfold State.applyPs
  try dsimp only
  repeat' with_reducible first
    | assumption | apply kept_State_panelLost | apply kept_State_postBand | apply kept_State_report
    | simp only [State.keeps_mk, State.keeps_fold] | split

theorem kept_State_powerChange {pq : List Instr} (s : State) (h_s : State.keeps pq s) :
    State.keeps pq (State.powerChange s) := by
  unfold State.powerChange
  try dsimp only
  repeat' with_reducible first
    | assumption | apply kept_State_applyPs | simp only [State.keeps_mk, State.keeps_fold] | split

theorem kept_State_setPower {pq : List Instr} (s : State) (c : CmdId) (n : Nat) (h_s : State.keeps pq s) :
    State.keeps pq (State.setPower s c n) := by
  unfold State.setPower
  try dsimp only
  repeat' with_reducible first
    | assumption | apply kept_State_complete | simp only [State.keeps_mk, State.keeps_fold] | split

theorem kept_execSetFeaturesPowerManagement {pq : List Instr} (c : CmdId) (ps : Nat) (s : State) (h_s : State.keeps
    pq s) :
    Answers pq (execSetFeaturesPowerManagement c ps s) := by
  unfold execSetFeaturesPowerManagement
  apply answers_done
  try dsimp only
  repeat' with_reducible first
    | assumption | apply kept_State_command | apply kept_State_setPower | simp only [State.keeps_mk, State.keeps_fold]
    | split | intro _ _

theorem kept_execPowerStateChange {pq : List Instr} (s : State) (h_s : State.keeps pq s) :
    Answers pq (execPowerStateChange s) := by
  unfold execPowerStateChange
  apply answers_done
  try dsimp only
  repeat' with_reducible first
    | assumption | apply kept_State_powerChange | simp only [State.keeps_mk, State.keeps_fold] | split

theorem kept_execApstIdleExpiry {pq : List Instr} (ps : Nat) (s : State) (h_s : State.keeps pq s) :
    Answers pq (execApstIdleExpiry ps s) := by
  unfold execApstIdleExpiry
  apply answers_done
  try dsimp only
  repeat' with_reducible first | assumption | simp only [State.keeps_mk, State.keeps_fold] | split

/-! ## Admin -/

theorem kept_State_getLog {pq : List Instr} (s : State) (c : CmdId) (page lsf : Nat) (rae : Bool) (off len : Nat)
    (h_s : State.keeps pq s) :
    State.keeps pq (State.getLog s c page lsf rae off len) := by
  unfold State.getLog
  try dsimp only
  repeat' with_reducible first
    | assumption | apply kept_State_complete | simp only [State.keeps_mk, State.keeps_fold] | split

theorem kept_State_eventRequest {pq : List Instr} (s : State) (c : CmdId) (h_s : State.keeps pq s) :
    State.keeps pq (State.eventRequest s c) := by
  unfold State.eventRequest
  try dsimp only
  repeat' with_reducible first
    | assumption | apply kept_State_complete | simp only [State.keeps_mk, State.keeps_fold] | split

theorem kept_State_abortCmd {pq : List Instr} (s : State) (c target : CmdId) (h_s : State.keeps pq s) :
    State.keeps pq (State.abortCmd s c target) := by
  unfold State.abortCmd
  try dsimp only
  repeat' with_reducible first
    | assumption | apply kept_State_complete | simp only [State.keeps_mk, State.keeps_fold] | split

theorem kept_State_setFeature {pq : List Instr} (s : State) (c : CmdId) (fid : Nat) (v : W32) (data : List Byte)
    (h_s : State.keeps pq s) :
    State.keeps pq (State.setFeature s c fid v data) := by
  unfold State.setFeature
  try dsimp only
  repeat' with_reducible first
    | assumption | apply kept_State_complete | apply kept_State_setPower | apply kept_Tile_put
    | simp only [State.keeps_mk, State.keeps_fold] | split

theorem kept_State_getFeature {pq : List Instr} (s : State) (c : CmdId) (fid : Nat) (sel : W32) (h_s : State.keeps
    pq s) :
    State.keeps pq (State.getFeature s c fid sel) := by
  unfold State.getFeature
  try dsimp only
  repeat' with_reducible first
    | assumption | apply kept_State_complete | simp only [State.keeps_mk, State.keeps_fold] | split

theorem kept_State_nsCreate {pq : List Instr} (s : State) (c : CmdId) (nsze ncap : Nat) (h_s : State.keeps pq s) :
    State.keeps pq (State.nsCreate s c nsze ncap) := by
  unfold State.nsCreate
  try dsimp only
  repeat' with_reducible first
    | assumption | apply kept_State_complete | apply kept_Tile_put | simp only [State.keeps_mk, State.keeps_fold]
    | split

theorem kept_State_nsDelete {pq : List Instr} (s : State) (c : CmdId) (nsid : Nat) (h_s : State.keeps pq s) :
    State.keeps pq (State.nsDelete s c nsid) := by
  unfold State.nsDelete
  try dsimp only
  repeat' with_reducible first
    | assumption | apply kept_State_complete | simp only [State.keeps_mk, State.keeps_fold] | split

theorem kept_State_nsAttach {pq : List Instr} (s : State) (c : CmdId) (nsid : Nat) (attach : Bool) (ctrl : Nat) (h_s
    : State.keeps pq s) :
    State.keeps pq (State.nsAttach s c nsid attach ctrl) := by
  unfold State.nsAttach
  try dsimp only
  repeat' with_reducible first
    | assumption | apply kept_State_complete | apply kept_Tile_put | simp only [State.keeps_mk, State.keeps_fold]
    | split

theorem kept_State_format {pq : List Instr} (s : State) (c : CmdId) (nsid ses : Nat) (h_s : State.keeps pq s) :
    State.keeps pq (State.format s c nsid ses) := by
  unfold State.format
  try dsimp only
  repeat' with_reducible first
    | assumption | apply kept_State_complete | apply kept_State_proceed | simp only [State.keeps_mk, State.keeps_fold]
    | split

theorem kept_State_versionsDone {pq : List Instr} (s : State) (c : CmdId) (h_s : State.keeps pq s) :
    State.keeps pq (State.versionsDone s c) := by
  unfold State.versionsDone
  try dsimp only
  repeat' with_reducible first | assumption | apply kept_State_complete

theorem kept_State_setVersions {pq : List Instr} (s : State) (c : CmdId) (v : Versions) (writes : List Bool) (h_s :
    State.keeps pq s) :
    State.keeps pq (State.setVersions s c v writes) := by
  unfold State.setVersions
  try dsimp only
  repeat' with_reducible first
    | assumption | apply kept_State_logWrite | apply kept_State_versionsDone | apply kept_State_complete
    | simp only [State.keeps_mk, State.keeps_fold] | split

theorem kept_State_offer {pq : List Instr} (s : State) (c : CmdId) (d : Dwords) (o : List Byte) (writes : List Bool)
    (h_s : State.keeps pq s) :
    State.keeps pq (State.offer s c d o writes) := by
  unfold State.offer
  try dsimp only
  repeat' with_reducible first
    | assumption | apply kept_State_complete | apply kept_State_setVersions
    | simp only [State.keeps_mk, State.keeps_fold] | split

theorem kept_State_commitVersions {pq : List Instr} (s : State) (c : CmdId) (d : Dwords) (writes : List Bool) (h_s :
    State.keeps pq s) :
    State.keeps pq (State.commitVersions s c d writes) := by
  unfold State.commitVersions
  try dsimp only
  repeat' with_reducible first
    | assumption | apply kept_State_complete | apply kept_State_setVersions
    | simp only [State.keeps_mk, State.keeps_fold] | split

theorem kept_execIdentify {pq : List Instr} (c : CmdId) (cns nsid : Nat) (s : State) (h_s : State.keeps pq s) :
    Answers pq (execIdentify c cns nsid s) := by
  unfold execIdentify
  apply answers_done
  try dsimp only
  repeat' with_reducible first
    | assumption | apply kept_State_command | apply kept_State_complete | simp only [State.keeps_mk, State.keeps_fold]
    | split | intro _ _

theorem kept_execGetLogPage {pq : List Instr} (c : CmdId) (page lsf : Nat) (rae : Bool) (offset len : Nat) (s :
    State) (h_s : State.keeps pq s) :
    Answers pq (execGetLogPage c page lsf rae offset len s) := by
  unfold execGetLogPage
  apply answers_done
  try dsimp only
  repeat' with_reducible first
    | assumption | apply kept_State_command | apply kept_State_getLog | simp only [State.keeps_mk, State.keeps_fold]
    | split | intro _ _

theorem kept_execAbort {pq : List Instr} (c : CmdId) (sqid cid : Nat) (s : State) (h_s : State.keeps pq s) :
    Answers pq (execAbort c sqid cid s) := by
  unfold execAbort
  apply answers_done
  try dsimp only
  repeat' with_reducible first
    | assumption | apply kept_State_command | apply kept_State_abortCmd | simp only [State.keeps_mk, State.keeps_fold]
    | split | intro _ _

theorem kept_execSetFeatures {pq : List Instr} (c : CmdId) (fid : Nat) (value : W32) (data : List Byte) (s : State)
    (h_s : State.keeps pq s) :
    Answers pq (execSetFeatures c fid value data s) := by
  unfold execSetFeatures
  apply answers_done
  try dsimp only
  repeat' with_reducible first
    | assumption | apply kept_State_command | apply kept_State_setFeature
    | simp only [State.keeps_mk, State.keeps_fold] | split | intro _ _

theorem kept_execGetFeatures {pq : List Instr} (c : CmdId) (ask : FeatureAsk) (s : State) (h_s : State.keeps pq
    s) :
    Answers pq (execGetFeatures c ask s) := by
  unfold execGetFeatures
  apply answers_done
  try dsimp only
  repeat' with_reducible first
    | assumption | apply kept_State_command | apply kept_State_getFeature
    | simp only [State.keeps_mk, State.keeps_fold] | split | (intro _ _ _) | (intro _ _)

theorem kept_execAsyncEventRequest {pq : List Instr} (c : CmdId) (s : State) (h_s : State.keeps pq s) :
    Answers pq (execAsyncEventRequest c s) := by
  unfold execAsyncEventRequest
  apply answers_done
  try dsimp only
  repeat' with_reducible first
    | assumption | apply kept_State_command | apply kept_State_eventRequest
    | simp only [State.keeps_mk, State.keeps_fold] | split | intro _ _

theorem kept_execNamespaceCreate {pq : List Instr} (c : CmdId) (nsze ncap : Nat) (s : State) (h_s : State.keeps pq
    s) :
    Answers pq (execNamespaceCreate c nsze ncap s) := by
  unfold execNamespaceCreate
  apply answers_done
  try dsimp only
  repeat' with_reducible first
    | assumption | apply kept_State_command | apply kept_State_nsCreate | simp only [State.keeps_mk, State.keeps_fold]
    | split | intro _ _

theorem kept_execNamespaceDelete {pq : List Instr} (c : CmdId) (nsid : Nat) (s : State) (h_s : State.keeps pq s) :
    Answers pq (execNamespaceDelete c nsid s) := by
  unfold execNamespaceDelete
  apply answers_done
  try dsimp only
  repeat' with_reducible first
    | assumption | apply kept_State_command | apply kept_State_nsDelete | simp only [State.keeps_mk, State.keeps_fold]
    | split | intro _ _

theorem kept_execNamespaceAttachment {pq : List Instr} (c : CmdId) (nsid : Nat) (attach : Bool) (ctrl : Nat) (s :
    State) (h_s : State.keeps pq s) :
    Answers pq (execNamespaceAttachment c nsid attach ctrl s) := by
  unfold execNamespaceAttachment
  apply answers_done
  try dsimp only
  repeat' with_reducible first
    | assumption | apply kept_State_command | apply kept_State_nsAttach | simp only [State.keeps_mk, State.keeps_fold]
    | split | intro _ _

theorem kept_execFormatNvm {pq : List Instr} (c : CmdId) (nsid : Nat) (s : State) (h_s : State.keeps pq s) :
    Answers pq (execFormatNvm c nsid s) := by
  unfold execFormatNvm
  apply answers_done
  try dsimp only
  repeat' with_reducible first
    | assumption | apply kept_State_command | apply kept_State_format | simp only [State.keeps_mk, State.keeps_fold]
    | split | intro _ _

theorem kept_execFormatNvmCryptoErase {pq : List Instr} (c : CmdId) (nsid ses : Nat) (s : State) (h_s : State.keeps
    pq s) :
    Answers pq (execFormatNvmCryptoErase c nsid ses s) := by
  unfold execFormatNvmCryptoErase
  apply answers_done
  try dsimp only
  repeat' with_reducible first
    | assumption | apply kept_State_command | apply kept_State_format | simp only [State.keeps_mk, State.keeps_fold]
    | split | intro _ _

theorem kept_execVersionNegotiateOffer {pq : List Instr} (c : CmdId) (d : Dwords) (offer : List Byte) (writes : List
    Bool) (s : State) (h_s : State.keeps pq s) :
    Answers pq (execVersionNegotiateOffer c d offer writes s) := by
  unfold execVersionNegotiateOffer
  apply answers_done
  try dsimp only
  repeat' with_reducible first
    | assumption | apply kept_State_command | apply kept_State_offer | simp only [State.keeps_mk, State.keeps_fold]
    | split | intro _ _

theorem kept_execVersionNegotiateCommit {pq : List Instr} (c : CmdId) (d : Dwords) (writes : List Bool) (s : State)
    (h_s : State.keeps pq s) :
    Answers pq (execVersionNegotiateCommit c d writes s) := by
  unfold execVersionNegotiateCommit
  apply answers_done
  try dsimp only
  repeat' with_reducible first
    | assumption | apply kept_State_command | apply kept_State_commitVersions
    | simp only [State.keeps_mk, State.keeps_fold] | split | intro _ _

theorem kept_execVersionNegotiateQuery {pq : List Instr} (c : CmdId) (d : Dwords) (s : State) (h_s : State.keeps pq
    s) :
    Answers pq (execVersionNegotiateQuery c d s) := by
  unfold execVersionNegotiateQuery
  apply answers_done
  try dsimp only
  repeat' with_reducible first
    | assumption | apply kept_State_command | apply kept_State_versionsDone | apply kept_State_complete
    | simp only [State.keeps_mk, State.keeps_fold] | split | intro _ _

theorem kept_execNvmeMiMessage {pq : List Instr} (msgType : Nat) (admin : Bool) (opcode : Nat) (ask : MiAsk) (s : State)
    (h_s : State.keeps pq s) :
    Answers pq (execNvmeMiMessage msgType admin opcode ask s) := by
  unfold execNvmeMiMessage
  apply answers_done
  try dsimp only
  repeat' with_reducible first | assumption | simp only [State.keeps_mk, State.keeps_fold] | split

theorem kept_execSetEndpointId {pq : List Instr} (eid : Nat) (s : State) (h_s : State.keeps pq s) :
    Answers pq (execSetEndpointId eid s) := by
  unfold execSetEndpointId
  apply answers_done
  try dsimp only
  repeat' with_reducible first | assumption | simp only [State.keeps_mk, State.keeps_fold] | split

theorem kept_execSetdasa {pq : List Instr} (addr : Nat) (s : State) (h_s : State.keeps pq s) :
    Answers pq (execSetdasa addr s) := by
  unfold execSetdasa
  apply answers_done
  try dsimp only
  repeat' with_reducible first | assumption | simp only [State.keeps_mk, State.keeps_fold] | split

/-! ## Marks -/

theorem kept_Sw_toMarks (w : Sw) (h_w : Sw.inForm w) :
    Sw.inForm (Sw.toMarks w) := by
  unfold Sw.toMarks
  try dsimp only
  repeat' with_reducible first | assumption | simp only [Sw.inForm_mk, Sw.inForm_fold]

theorem kept_State_inReset {pq : List Instr} (s : State) (h_s : State.keeps pq s) :
    State.keeps pq (State.inReset s) := by
  exact ⟨h_s.pending, Fl.inForm_reset, rfl, ⟨rfl, h_s.rl.far⟩, tilesInForm_nil, rfl, h_s.sw, rfl, Jd.inForm_reset⟩

theorem kept_State_enterMarks {pq : List Instr} (s : State) (entry : Nat) (h_s : State.keeps pq s) :
    State.keeps pq (State.enterMarks s entry) := by
  unfold State.enterMarks
  try dsimp only
  repeat' with_reducible first
    | assumption | apply kept_State_inReset | apply kept_Sw_toMarks | apply kept_State_postCorr
    | apply kept_State_alert | simp only [State.keeps_mk, State.keeps_fold] | split

/-! ## Trust -/

theorem kept_State_keyEnds {pq : List Instr} (s : State) (code : Nat) (h_s : State.keeps pq s) :
    State.keeps pq (State.keyEnds s code) := by
  unfold State.keyEnds
  try dsimp only
  repeat' with_reducible first
    | assumption | simp only [State.keeps_mk, State.keeps_fold, Se.inForm_mk, Se.inForm_fold]

theorem kept_State_writeKey {pq : List Instr} (s : State) (r : List Byte) (writes : List Bool) (h_s : State.keeps pq
    s) :
    State.keeps pq (State.writeKey s r writes) := by
  unfold State.writeKey
  try dsimp only
  repeat' with_reducible first
    | assumption | apply kept_State_keyEnds | apply kept_State_swProgram | apply kept_State_swProgramFail
    | simp only [State.keeps_mk, State.keeps_fold] | split

theorem kept_State_keyReq {pq : List Instr} (s : State) (r : List Byte) (sigOk : Bool) (writes : List Bool) (h_s :
    State.keeps pq s) :
    State.keeps pq (State.keyReq s r sigOk writes) := by
  unfold State.keyReq
  try dsimp only
  repeat' with_reducible first
    | assumption | apply kept_State_keyEnds | apply kept_State_verifyFailed | apply kept_State_writeKey
    | simp only [State.keeps_mk, State.keeps_fold] | split

theorem kept_execKeyRequest {pq : List Instr} (request : List Byte) (sigOk : Bool) (writes : List Bool) (s : State)
    (h_s : State.keeps pq s) :
    Answers pq (execKeyRequest request sigOk writes s) := by
  unfold execKeyRequest
  apply answers_done
  try dsimp only
  repeat' with_reducible first
    | assumption | apply kept_State_keyReq | simp only [State.keeps_mk, State.keeps_fold] | split

theorem kept_State_noteLeaves {pq : List Instr} (s : State) (h_s : State.keeps pq s) :
    State.keeps pq (State.noteLeaves s) := by
  unfold State.noteLeaves
  try dsimp only
  repeat' with_reducible first
    | assumption | simp only [State.keeps_mk, State.keeps_fold, Se.inForm_mk, Se.inForm_fold] | split

theorem kept_State_reserve {pq : List Instr} (s : State) (writes : List Bool) (h_s : State.keeps pq s) :
    State.keeps pq (State.reserve s writes).1 := by
  unfold State.reserve
  try dsimp only
  repeat' with_reducible first
    | assumption | apply kept_State_swProgram | apply kept_State_noteLeaves | apply kept_State_swProgramFail
    | simp only [State.keeps_mk, State.keeps_fold, Se.inForm_mk, Se.inForm_fold] | split | apply And.intro
    | apply State.keeps.pending | apply State.keeps.sl (p := pq) | apply State.keeps.rl (p := pq)
    | apply State.keeps.se (p := pq) | apply State.keeps.sw (p := pq) | apply State.keeps.lp (p := pq)
    | apply State.keeps.fl (p := pq) | apply State.keeps.tiles (p := pq) | apply State.keeps.jd (p := pq)

theorem kept_State_attestEnds {pq : List Instr} (s : State) (code : Nat) (h_s : State.keeps pq s) :
    State.keeps pq (State.attestEnds s code) := by
  unfold State.attestEnds
  try dsimp only
  repeat' with_reducible first
    | assumption | simp only [State.keeps_mk, State.keeps_fold, Se.inForm_mk, Se.inForm_fold]

theorem kept_State_signEvidence {pq : List Instr} (s : State) (r n : Nat) (transferOk : Bool) (h_s : State.keeps pq
    s) :
    State.keeps pq (State.signEvidence s r n transferOk) := by
  unfold State.signEvidence
  try dsimp only
  repeat' with_reducible first
    | assumption | apply kept_State_hostWrite | apply kept_State_attestEnds
    | simp only [State.keeps_mk, State.keeps_fold, Se.inForm_mk, Se.inForm_fold] | split

theorem kept_execAttestation {pq : List Instr} (s : State) (h_s : State.keeps pq s) :
    Answers pq (execAttestation s) := by
  unfold execAttestation
  apply answers_done
  try dsimp only
  repeat' with_reducible first
    | assumption | simp only [State.keeps_mk, State.keeps_fold, Se.inForm_mk, Se.inForm_fold] | split

theorem kept_execTopTreeDone {pq : List Instr} (s : State) (h_s : State.keeps pq s) :
    Answers pq (execTopTreeDone s) := by
  unfold execTopTreeDone
  apply answers_done
  try dsimp only
  repeat' with_reducible first
    | assumption | simp only [State.keeps_mk, State.keeps_fold, Se.inForm_mk, Se.inForm_fold] | split

theorem kept_execAttestDone {pq : List Instr} (slotWrites : List Bool) (transferOk : Bool) (s : State) (h_s :
    State.keeps pq s) :
    Answers pq (execAttestDone slotWrites transferOk s) := by
  unfold execAttestDone
  apply answers_done
  try dsimp only
  repeat' with_reducible first
    | assumption | apply kept_State_reserve | apply kept_State_attestEnds | apply kept_State_signEvidence
    | simp only [State.keeps_mk, State.keeps_fold] | split

theorem kept_execFirmwareImageDownload {pq : List Instr} (c : CmdId) (offset : Nat) (data : List Byte) (s : State)
    (h_s : State.keeps pq s) :
    Answers pq (execFirmwareImageDownload c offset data s) := by
  unfold execFirmwareImageDownload
  apply answers_done
  try dsimp only
  repeat' with_reducible first
    | assumption | apply kept_State_command | apply kept_State_complete
    | simp only [State.keeps_mk, State.keeps_fold, Se.inForm_mk, Se.inForm_fold] | split | apply And.intro
    | apply State.keeps.pending | apply State.keeps.sl (p := pq) | apply State.keeps.rl (p := pq)
    | apply State.keeps.se (p := pq) | apply State.keeps.sw (p := pq) | apply State.keeps.lp (p := pq)
    | apply State.keeps.fl (p := pq) | apply State.keeps.tiles (p := pq) | apply State.keeps.jd (p := pq)
    | exact Se.inForm_reset | apply cellsWf_writeCells | apply cellsWf_writeCell | (intro _ _ _) | (intro _ _)

theorem kept_State_startCommit {pq : List Instr} (s : State) (c : CmdId) (action : Nat) (writes : List Bool) (h_s :
    State.keeps pq s) :
    State.keeps pq (State.startCommit s c action writes) := by
  unfold State.startCommit
  try dsimp only
  repeat' with_reducible first
    | assumption | apply kept_State_logWrite | apply kept_State_complete
    | simp only [State.keeps_mk, State.keeps_fold, Se.inForm_mk, Se.inForm_fold, Sw.inForm_mk, Sw.inForm_fold] | split

theorem kept_execFirmwareCommit {pq : List Instr} (c : CmdId) (slot action : Nat) (sigOk : Bool) (writes : List
    Bool) (s : State) (h_s : State.keeps pq s) :
    Answers pq (execFirmwareCommit c slot action sigOk writes s) := by
  unfold execFirmwareCommit
  apply answers_done
  try dsimp only
  repeat' with_reducible first
    | assumption | apply kept_State_command | apply kept_State_complete | apply kept_State_verifyFailed
    | apply kept_State_postCorr | apply kept_State_startCommit | simp only [State.keeps_mk, State.keeps_fold] | split
    | intro _ _

theorem kept_State_programFw {pq : List Instr} (s : State) (img : List Byte) (h_s : State.keeps pq s) :
    State.keeps pq (State.programFw s img) := by
  unfold State.programFw
  try dsimp only
  repeat' with_reducible first
    | assumption | apply kept_Sw_eraseSector | apply kept_State_drawNat | apply kept_Sw_putBytes
    | simp only [State.keeps_mk, State.keeps_fold, Sw.inForm_mk, Sw.inForm_fold] | (apply kept_foldl; intro _ _ _)
    | split | apply And.intro | apply State.keeps.pending | apply State.keeps.sl (p := pq)
    | apply State.keeps.rl (p := pq) | apply State.keeps.se (p := pq) | apply State.keeps.sw (p := pq)
    | apply State.keeps.lp (p := pq) | apply State.keeps.fl (p := pq) | apply State.keeps.tiles (p := pq)
    | apply State.keeps.jd (p := pq)

theorem kept_State_programFwFail {pq : List Instr} (s : State) (img : List Byte) (h_s : State.keeps pq s) :
    State.keeps pq (State.programFwFail s img) := by
  unfold State.programFwFail
  try dsimp only
  repeat' with_reducible first
    | assumption | apply kept_State_draw | apply kept_Sw_putBytes
    | simp only [State.keeps_mk, State.keeps_fold, Sw.inForm_mk, Sw.inForm_fold] | split | apply And.intro
    | apply State.keeps.pending | apply State.keeps.sl (p := pq) | apply State.keeps.rl (p := pq)
    | apply State.keeps.se (p := pq) | apply State.keeps.sw (p := pq) | apply State.keeps.lp (p := pq)
    | apply State.keeps.fl (p := pq) | apply State.keeps.tiles (p := pq) | apply State.keeps.jd (p := pq)

theorem kept_State_commitOver {pq : List Instr} (s : State) (c : CmdId) (st : Nat) (h_s : State.keeps pq s) :
    State.keeps pq (State.commitOver s c st) := by
  unfold State.commitOver
  try dsimp only
  repeat' with_reducible first
    | assumption | apply kept_State_complete
    | simp only [State.keeps_mk, State.keeps_fold, Se.inForm_mk, Se.inForm_fold, Sw.inForm_mk, Sw.inForm_fold]

theorem kept_execFirmwareCommitDone {pq : List Instr} (ok : Bool) (writes : List Bool) (s : State) (h_s :
    State.keeps pq s) :
    Answers pq (execFirmwareCommitDone ok writes s) := by
  unfold execFirmwareCommitDone
  apply answers_done
  try dsimp only
  repeat' with_reducible first
    | assumption | apply kept_State_programFwFail | apply kept_State_commitOver | apply kept_State_programFw
    | apply kept_State_logWrite | apply kept_State_enterMarks | simp only [State.keeps_mk, State.keeps_fold] | split

/-! ## Loader -/

theorem kept_State_stage {pq : List Instr} (s : State) (c : CmdId) (d : Dwords) (data : List Byte) (h_s :
    State.keeps pq s) :
    State.keeps pq (State.stage s c d data) := by
  unfold State.stage
  try dsimp only
  repeat' with_reducible first
    | assumption | apply kept_State_complete
    | simp only [State.keeps_mk, State.keeps_fold, Sl.inForm_mk, Sl.inForm_fold] | split | apply And.intro
    | apply State.keeps.pending | apply State.keeps.sl (p := pq) | apply State.keeps.rl (p := pq)
    | apply State.keeps.se (p := pq) | apply State.keeps.sw (p := pq) | apply State.keeps.lp (p := pq)
    | apply State.keeps.fl (p := pq) | apply State.keeps.tiles (p := pq) | apply State.keeps.jd (p := pq)
    | exact cellsWf_nil _ | apply cellsWf_writeCells

theorem kept_Sl_unstage (l : Sl) (h_l : Sl.inForm l) :
    Sl.inForm (Sl.unstage l) := by
  unfold Sl.unstage
  try dsimp only
  repeat' with_reducible first
    | assumption | apply kept_State_stage | simp only [Sl.inForm_mk, Sl.inForm_fold] | split | apply And.intro
    | exact cellsWf_nil _

theorem kept_State_discardStage {pq : List Instr} (s : State) (c : CmdId) (d : Dwords) (h_s : State.keeps pq s) :
    State.keeps pq (State.discardStage s c d) := by
  unfold State.discardStage
  try dsimp only
  repeat' with_reducible first
    | assumption | apply kept_State_complete | apply kept_Sl_unstage
    | simp only [State.keeps_mk, State.keeps_fold, Sl.inForm_mk, Sl.inForm_fold] | split | apply And.intro
    | apply State.keeps.pending | apply State.keeps.sl (p := pq) | apply State.keeps.rl (p := pq)
    | apply State.keeps.se (p := pq) | apply State.keeps.sw (p := pq) | apply State.keeps.lp (p := pq)
    | apply State.keeps.fl (p := pq) | apply State.keeps.tiles (p := pq) | apply State.keeps.jd (p := pq)

theorem kept_State_startApply {pq : List Instr} (s : State) (c : CmdId) (d : Dwords) (h_s : State.keeps pq s) :
    State.keeps pq (State.startApply s c d) := by
  unfold State.startApply
  try dsimp only
  repeat' with_reducible first
    | assumption | apply kept_State_complete | apply kept_State_stage
    | simp only [State.keeps_mk, State.keeps_fold, Sl.inForm_mk, Sl.inForm_fold] | split

theorem kept_State_rejectLoad {pq : List Instr} (s : State) (c : CmdId) (f : LoadFail) (h_s : State.keeps pq s) :
    State.keeps pq (State.rejectLoad s c f) := by
  unfold State.rejectLoad
  try dsimp only
  repeat' with_reducible first
    | assumption | apply kept_State_verifyFailed | apply kept_State_postCorr | apply kept_Sl_unstage
    | apply kept_State_complete | simp only [State.keeps_mk, State.keeps_fold, Sl.inForm_mk, Sl.inForm_fold] | split
    | apply And.intro | apply State.keeps.pending | apply State.keeps.sl (p := pq) | apply State.keeps.rl (p := pq)
    | apply State.keeps.se (p := pq) | apply State.keeps.sw (p := pq) | apply State.keeps.lp (p := pq)
    | apply State.keeps.fl (p := pq) | apply State.keeps.tiles (p := pq) | apply State.keeps.jd (p := pq)

theorem kept_State_startDrain {pq : List Instr} (s : State) (force : Bool) (n : Nat) (h_s : State.keeps pq s) :
    State.keeps pq (State.startDrain s force n) := by
  unfold State.startDrain
  try dsimp only
  repeat' with_reducible first
    | assumption | apply kept_State_onSquad | apply kept_State_abortSquad | apply kept_State_drainJobs
    | simp only [State.keeps_mk, State.keeps_fold] | split

theorem kept_State_beginApply {pq : List Instr} (s : State) (l : Load) (next : SquadSet) (h_s : State.keeps pq s) :
    State.keeps pq (State.beginApply s l next) := by
  unfold State.beginApply
  try dsimp only
  repeat' with_reducible first
    | assumption | apply kept_State_startDrain
    | simp only [State.keeps_mk, State.keeps_fold, Sl.inForm_mk, Sl.inForm_fold] | (apply kept_foldl; intro _ _ _)

theorem kept_State_verified {pq : List Instr} (s : State) (sigOk : Bool) (h_s : State.keeps pq s) :
    State.keeps pq (State.verified s sigOk) := by
  unfold State.verified
  try dsimp only
  repeat' with_reducible first
    | assumption | apply kept_State_rejectLoad | apply kept_State_beginApply
    | simp only [State.keeps_mk, State.keeps_fold] | split

theorem kept_State_dropRegions {pq : List Instr} (s : State) (gone : List Nat) (h_s : State.keeps pq s) :
    State.keeps pq (State.dropRegions s gone) := by
  unfold State.dropRegions
  try dsimp only
  repeat' with_reducible first
    | assumption | apply kept_State_nearLost | apply kept_State_oldLost | apply kept_State_detachWhere
    | simp only [State.keeps_mk, State.keeps_fold] | (apply kept_foldl; intro _ _ _)

theorem kept_State_dropModels {pq : List Instr} (s : State) (squads : List Nat) (kv : Nat → Bool) (h_s : State.keeps
    pq s) :
    State.keeps pq (State.dropModels s squads kv) := by
  unfold State.dropModels
  try dsimp only
  repeat' with_reducible first
    | assumption | apply kept_State_dropModel | simp only [State.keeps_mk, State.keeps_fold]
    | (apply kept_foldl; intro _ _ _)

theorem kept_State_endFences {pq : List Instr} (s : State) (squads : List Nat) (h_s : State.keeps pq s) :
    State.keeps pq (State.endFences s squads) := by
  unfold State.endFences
  try dsimp only
  repeat' with_reducible first
    | assumption | simp only [State.keeps_mk, State.keeps_fold, Fl.inForm_mk, Fl.inForm_fold] | split
    | apply And.intro | apply State.keeps.pending | apply State.keeps.sl (p := pq) | apply State.keeps.rl (p := pq)
    | apply State.keeps.se (p := pq) | apply State.keeps.sw (p := pq) | apply State.keeps.lp (p := pq)
    | apply State.keeps.fl (p := pq) | apply State.keeps.tiles (p := pq) | apply State.keeps.jd (p := pq)
    | apply Fl.inForm.ring | apply Fl.inForm.buffer | apply Fl.inForm.standing | apply ring_put | apply ring_filter
    | apply standing_filter

theorem kept_State_releaseTiles {pq : List Instr} (s : State) (keep : Nat → Nat → Bool) (h_s : State.keeps pq s) :
    State.keeps pq (State.releaseTiles s keep) := by
  unfold State.releaseTiles
  try dsimp only
  repeat' with_reducible first
    | assumption | simp only [State.keeps_mk, State.keeps_fold, Tile.inForm_mk, Tile.inForm_fold] | split
    | apply And.intro | apply State.keeps.pending | apply State.keeps.sl (p := pq) | apply State.keeps.rl (p := pq)
    | apply State.keeps.se (p := pq) | apply State.keeps.sw (p := pq) | apply State.keeps.lp (p := pq)
    | apply State.keeps.fl (p := pq) | apply State.keeps.tiles (p := pq) | apply State.keeps.jd (p := pq)
    | apply tilesInForm_put | (apply tilesInForm_mapVals; intro _ _ _)

theorem kept_State_joinTiles {pq : List Instr} (s : State) (qs : KMap Squad) (touched : List Nat) (h_s : State.keeps
    pq s) :
    State.keeps pq (State.joinTiles s qs touched) := by
  unfold State.joinTiles
  try dsimp only
  repeat' with_reducible first
    | assumption | apply kept_State_tile | apply kept_State_setTile
    | simp only [State.keeps_mk, State.keeps_fold, Tile.inForm_mk, Tile.inForm_fold] | (apply kept_foldl; intro _ _ _)
    | split

theorem kept_State_activate {pq : List Instr} (s : State) (h_s : State.keeps pq s) :
    State.keeps pq (State.activate s) := by
  unfold State.activate
  try dsimp only
  repeat' with_reducible first
    | assumption | apply kept_State_writeDead
    | simp only [State.keeps_mk, State.keeps_fold, Sl.inForm_mk, Sl.inForm_fold] | (apply kept_foldl; intro _ _ _)

theorem kept_State_endMisfits {pq : List Instr} (s : State) (n : Nat) (h_s : State.keeps pq s) :
    State.keeps pq (State.endMisfits s n) := by
  unfold State.endMisfits
  try dsimp only
  repeat' with_reducible first
    | assumption | apply kept_State_finishJob | simp only [State.keeps_mk, State.keeps_fold]
    | (apply kept_foldl; intro _ _ _) | split

theorem kept_State_configure {pq : List Instr} (s : State) (next : SquadSet) (fresh changed removed : List Nat) (h_s
    : State.keeps pq s) :
    State.keeps pq (State.configure s next fresh changed removed) := by
  unfold State.configure
  try dsimp only
  repeat' with_reducible first
    | assumption | apply kept_State_endFences | apply kept_State_detachWhere | apply kept_State_endQueued
    | apply kept_State_dropRegions | apply kept_State_dropModels | apply kept_State_dropKeeper
    | apply kept_State_releaseTiles | apply kept_State_applyNumerics | apply kept_State_joinTiles
    | apply kept_State_activate | apply kept_State_endMisfits
    | simp only [State.keeps_mk, State.keeps_fold, Sl.inForm_mk, Sl.inForm_fold, Tile.inForm_mk, Tile.inForm_fold]
    | (apply kept_foldl; intro _ _ _)

theorem kept_State_endRetire {pq : List Instr} (s : State) (r : Retire) (h_s : State.keeps pq s) :
    State.keeps pq (State.endRetire s r) := by
  unfold State.endRetire
  try dsimp only
  repeat' with_reducible first | assumption | apply kept_State_complete | (apply kept_foldl; intro _ _ _)

theorem kept_State_finishApply {pq : List Instr} (s : State) (h_s : State.keeps pq s) :
    State.keeps pq (State.finishApply s) := by
  unfold State.finishApply
  try dsimp only
  repeat' with_reducible first
    | assumption | apply kept_Tile_sweep | apply kept_Sl_unstage | apply kept_State_complete
    | apply kept_State_endRetire
    | simp only [State.keeps_mk, State.keeps_fold, Sl.inForm_mk, Sl.inForm_fold, Sw.inForm_mk, Sw.inForm_fold, Tile.inForm_mk, Tile.inForm_fold]
    | (apply kept_foldl; intro _ _ _) | split | apply And.intro | apply State.keeps.pending
    | apply State.keeps.sl (p := pq) | apply State.keeps.rl (p := pq) | apply State.keeps.se (p := pq)
    | apply State.keeps.sw (p := pq) | apply State.keeps.lp (p := pq) | apply State.keeps.fl (p := pq)
    | apply State.keeps.tiles (p := pq) | apply State.keeps.jd (p := pq)

theorem kept_Se_measured (e : Se) (image : List Byte) (h_e : Se.inForm e) :
    Se.inForm (Se.measured e image) := by
  unfold Se.measured
  try dsimp only
  repeat' with_reducible first | assumption | simp only [Se.inForm_mk, Se.inForm_fold]

theorem kept_State_applyStep {pq : List Instr} (s : State) (h_s : State.keeps pq s) :
    State.keeps pq (State.applyStep s) := by
  unfold State.applyStep
  try dsimp only
  repeat' with_reducible first
    | assumption | apply kept_State_configure | apply kept_Se_measured | apply kept_State_format
    | apply kept_Tile_sweep | apply kept_State_finishApply
    | simp only [State.keeps_mk, State.keeps_fold, Sl.inForm_mk, Sl.inForm_fold, Se.inForm_mk, Se.inForm_fold, Tile.inForm_mk, Tile.inForm_fold]
    | split | apply And.intro | apply State.keeps.pending | apply State.keeps.sl (p := pq)
    | apply State.keeps.rl (p := pq) | apply State.keeps.se (p := pq) | apply State.keeps.sw (p := pq)
    | apply State.keeps.lp (p := pq) | apply State.keeps.fl (p := pq) | apply State.keeps.tiles (p := pq)
    | apply State.keeps.jd (p := pq)

theorem kept_State_forceDrain {pq : List Instr} (s : State) (c : CmdId) (n : Nat) (h_s : State.keeps pq s) :
    State.keeps pq (State.forceDrain s c n) := by
  unfold State.forceDrain
  try dsimp only
  repeat' with_reducible first
    | assumption | apply kept_State_abortSquad
    | simp only [State.keeps_mk, State.keeps_fold, Sl.inForm_mk, Sl.inForm_fold] | split

theorem kept_State_retireSquad {pq : List Instr} (s : State) (c : CmdId) (d : Dwords) (forced : Bool) (h_s :
    State.keeps pq s) :
    State.keeps pq (State.retireSquad s c d forced) := by
  unfold State.retireSquad
  try dsimp only
  repeat' with_reducible first
    | assumption | apply kept_State_forceDrain | apply kept_State_complete | apply kept_State_startDrain
    | simp only [State.keeps_mk, State.keeps_fold, Sl.inForm_mk, Sl.inForm_fold] | split

theorem kept_State_finishRetire {pq : List Instr} (s : State) (r : Retire) (h_s : State.keeps pq s) :
    State.keeps pq (State.finishRetire s r) := by
  unfold State.finishRetire
  try dsimp only
  repeat' with_reducible first
    | assumption | apply kept_State_endQueued | apply kept_State_configure | apply kept_State_endRetire
    | simp only [State.keeps_mk, State.keeps_fold, Sl.inForm_mk, Sl.inForm_fold]

theorem kept_State_drainEnds {pq : List Instr} (s : State) (n : Nat) (h_s : State.keeps pq s) :
    State.keeps pq (State.drainEnds s n) := by
  unfold State.drainEnds
  try dsimp only
  repeat' with_reducible first
    | assumption | apply kept_State_finishRetire
    | simp only [State.keeps_mk, State.keeps_fold, Sl.inForm_mk, Sl.inForm_fold] | split

theorem kept_State_applyBoot {pq : List Instr} (s : State) (h_s : State.keeps pq s) :
    State.keeps pq (State.applyBoot s) := by
  unfold State.applyBoot
  try dsimp only
  repeat' with_reducible first
    | assumption | apply kept_State_configure | apply kept_State_format
    | simp only [State.keeps_mk, State.keeps_fold, Sl.inForm_mk, Sl.inForm_fold, Se.inForm_mk, Se.inForm_fold] | split

theorem kept_State_persistEnds {pq : List Instr} (s : State) (img : List Byte) (ok : Bool) (h_s : State.keeps pq s) :
    State.keeps pq (State.persistEnds s img ok) := by
  unfold State.persistEnds
  try dsimp only
  repeat' with_reducible first
    | assumption | apply kept_Sw_eraseSector | apply kept_Sw_putBytes | apply kept_State_logWrite
    | apply kept_State_draw
    | simp only [State.keeps_mk, State.keeps_fold, Sl.inForm_mk, Sl.inForm_fold, Sw.inForm_mk, Sw.inForm_fold]
    | (apply kept_foldl; intro _ _ _) | split | apply And.intro | apply State.keeps.pending
    | apply State.keeps.sl (p := pq) | apply State.keeps.rl (p := pq) | apply State.keeps.se (p := pq)
    | apply State.keeps.sw (p := pq) | apply State.keeps.lp (p := pq) | apply State.keeps.fl (p := pq)
    | apply State.keeps.tiles (p := pq) | apply State.keeps.jd (p := pq)

theorem kept_State_tileSwept {pq : List Instr} (s : State) (n : Nat) (h_s : State.keeps pq s) :
    State.keeps pq (State.tileSwept s n) := by
  unfold State.tileSwept
  try dsimp only
  repeat' with_reducible first
    | assumption | apply kept_State_setTile | apply kept_State_tile | apply kept_Tile_sweep
    | apply kept_State_activate | apply kept_State_finishApply

theorem kept_execStructureLoadStage {pq : List Instr} (c : CmdId) (d : Dwords) (data : List Byte) (s : State) (h_s :
    State.keeps pq s) :
    Answers pq (execStructureLoadStage c d data s) := by
  unfold execStructureLoadStage
  apply answers_done
  try dsimp only
  repeat' with_reducible first
    | assumption | apply kept_State_command | apply kept_State_stage | simp only [State.keeps_mk, State.keeps_fold]
    | split | intro _ _

theorem kept_execStructureLoadApply {pq : List Instr} (c : CmdId) (d : Dwords) (s : State) (h_s : State.keeps pq s) :
    Answers pq (execStructureLoadApply c d s) := by
  unfold execStructureLoadApply
  apply answers_done
  try dsimp only
  repeat' with_reducible first
    | assumption | apply kept_State_command | apply kept_State_startApply
    | simp only [State.keeps_mk, State.keeps_fold] | split | intro _ _

theorem kept_execStructureLoadDiscard {pq : List Instr} (c : CmdId) (d : Dwords) (s : State) (h_s : State.keeps pq
    s) :
    Answers pq (execStructureLoadDiscard c d s) := by
  unfold execStructureLoadDiscard
  apply answers_done
  try dsimp only
  repeat' with_reducible first
    | assumption | apply kept_State_command | apply kept_State_stage | apply kept_State_discardStage
    | simp only [State.keeps_mk, State.keeps_fold] | split | intro _ _

theorem kept_execApplyVerifyDone {pq : List Instr} (sigOk : Bool) (s : State) (h_s : State.keeps pq s) :
    Answers pq (execApplyVerifyDone sigOk s) := by
  unfold execApplyVerifyDone
  apply answers_done
  try dsimp only
  repeat' with_reducible first
    | assumption | apply kept_State_verified | simp only [State.keeps_mk, State.keeps_fold] | split

theorem kept_execApplyConfigure {pq : List Instr} (s : State) (h_s : State.keeps pq s) :
    Answers pq (execApplyConfigure s) := by
  unfold execApplyConfigure
  apply answers_done
  try dsimp only
  repeat' with_reducible first
    | assumption | apply kept_State_applyStep | simp only [State.keeps_mk, State.keeps_fold] | split

theorem kept_execPersistDone {pq : List Instr} (ok : Bool) (s : State) (h_s : State.keeps pq s) :
    Answers pq (execPersistDone ok s) := by
  unfold execPersistDone
  apply answers_done
  try dsimp only
  repeat' with_reducible first
    | assumption | apply kept_State_persistEnds | simp only [State.keeps_mk, State.keeps_fold] | split

theorem kept_execSquadRetire {pq : List Instr} (c : CmdId) (d : Dwords) (s : State) (h_s : State.keeps pq s) :
    Answers pq (execSquadRetire c d s) := by
  unfold execSquadRetire
  apply answers_done
  try dsimp only
  repeat' with_reducible first
    | assumption | apply kept_State_command | apply kept_State_retireSquad
    | simp only [State.keeps_mk, State.keeps_fold] | split | intro _ _

theorem kept_execSquadRetireForce {pq : List Instr} (c : CmdId) (d : Dwords) (s : State) (h_s : State.keeps pq s) :
    Answers pq (execSquadRetireForce c d s) := by
  unfold execSquadRetireForce
  apply answers_done
  try dsimp only
  repeat' with_reducible first
    | assumption | apply kept_State_command | apply kept_State_retireSquad
    | simp only [State.keeps_mk, State.keeps_fold] | split | intro _ _

theorem kept_execDrainComplete {pq : List Instr} (squad : Nat) (s : State) (h_s : State.keeps pq s) :
    Answers pq (execDrainComplete squad s) := by
  unfold execDrainComplete
  apply answers_done
  try dsimp only
  repeat' with_reducible first
    | assumption | apply kept_State_drainEnds | simp only [State.keeps_mk, State.keeps_fold] | split

theorem kept_execDrainSlow {pq : List Instr} (s : State) (h_s : State.keeps pq s) :
    Answers pq (execDrainSlow s) := by
  unfold execDrainSlow
  apply answers_done
  try dsimp only
  repeat' with_reducible first
    | assumption | simp only [State.keeps_mk, State.keeps_fold, Sl.inForm_mk, Sl.inForm_fold] | split

theorem kept_execTileSweepDone {pq : List Instr} (tile : Nat) (s : State) (h_s : State.keeps pq s) :
    Answers pq (execTileSweepDone tile s) := by
  unfold execTileSweepDone
  apply answers_done
  try dsimp only
  repeat' with_reducible first
    | assumption | apply kept_State_tile | apply kept_State_tileSwept | simp only [State.keeps_mk, State.keeps_fold]
    | split

/-! ## Bringup -/

theorem kept_State_landWrites {pq : List Instr} (s : State) (h_s : State.keeps pq s) :
    State.keeps pq (State.landWrites s) := by
  unfold State.landWrites
  try dsimp only
  repeat' with_reducible first
    | assumption | apply kept_Tile_put | apply kept_State_stage | apply kept_State_endStore
    | simp only [State.keeps_mk, State.keeps_fold] | (apply kept_foldl; intro _ _ _) | split

theorem kept_State_settleStripes {pq : List Instr} (s : State) (h_s : State.keeps pq s) :
    State.keeps pq (State.settleStripes s) := by
  unfold State.settleStripes
  try dsimp only
  repeat' with_reducible first | assumption | apply kept_State_verified | simp only [State.keeps_mk, State.keeps_fold]

theorem kept_State_cutInternal {pq : List Instr} (s : State) (h_s : State.keeps pq s) :
    State.keeps pq (State.cutInternal s) := by
  unfold State.cutInternal
  try dsimp only
  repeat' with_reducible first
    | assumption | apply kept_State_programFwFail | apply kept_State_draw | apply kept_Sw_putBytes
    | simp only [State.keeps_mk, State.keeps_fold, Sl.inForm_mk, Sl.inForm_fold, Se.inForm_mk, Se.inForm_fold, Sw.inForm_mk, Sw.inForm_fold]
    | split | apply And.intro | apply State.keeps.pending | apply State.keeps.sl (p := pq)
    | apply State.keeps.rl (p := pq) | apply State.keeps.se (p := pq) | apply State.keeps.sw (p := pq)
    | apply State.keeps.lp (p := pq) | apply State.keeps.fl (p := pq) | apply State.keeps.tiles (p := pq)
    | apply State.keeps.jd (p := pq)

theorem kept_State_cutStoreOp {pq : List Instr} (s : State) (h_s : State.keeps pq s) :
    State.keeps pq (State.cutStoreOp s) := by
  unfold State.cutStoreOp
  try dsimp only
  repeat' with_reducible first
    | assumption | apply kept_State_swFail
    | simp only [State.keeps_mk, State.keeps_fold, Sw.inForm_mk, Sw.inForm_fold] | split | apply And.intro
    | apply State.keeps.pending | apply State.keeps.sl (p := pq) | apply State.keeps.rl (p := pq)
    | apply State.keeps.se (p := pq) | apply State.keeps.sw (p := pq) | apply State.keeps.lp (p := pq)
    | apply State.keeps.fl (p := pq) | apply State.keeps.tiles (p := pq) | apply State.keeps.jd (p := pq)

theorem kept_State_stopAll {pq : List Instr} (s : State) (h_s : State.keeps pq s) :
    State.keeps pq (State.stopAll s) := by
  unfold State.stopAll
  try dsimp only
  repeat' with_reducible first
    | assumption | apply kept_State_stopQe | apply kept_State_resetLp | apply kept_State_landWrites
    | apply kept_State_settleStripes | apply kept_State_cutInternal | apply kept_State_inReset
    | simp only [State.keeps_mk, State.keeps_fold, Se.inForm_mk, Se.inForm_fold] | split | apply And.intro
    | apply State.keeps.pending | apply State.keeps.sl (p := pq) | apply State.keeps.rl (p := pq)
    | apply State.keeps.se (p := pq) | apply State.keeps.sw (p := pq) | apply State.keeps.lp (p := pq)
    | apply State.keeps.fl (p := pq) | apply State.keeps.tiles (p := pq) | apply State.keeps.jd (p := pq)

theorem kept_State_powerUp {pq : List Instr} (s : State) (entry : Nat) (h_s : State.keeps pq s) :
    State.keeps pq (State.powerUp s entry) := by
  unfold State.powerUp
  try dsimp only
  repeat' with_reducible first
    | assumption | apply kept_State_enterMarks | simp only [State.keeps_mk, State.keeps_fold] | split

theorem kept_State_forgetSticky {pq : List Instr} (s : State) (h_s : State.keeps pq s) :
    State.keeps pq (State.forgetSticky s) := by
  unfold State.forgetSticky
  try dsimp only
  repeat' with_reducible first | assumption | simp only [State.keeps_mk, State.keeps_fold]

theorem kept_State_powerFail {pq : List Instr} (s : State) (v : Nat) (h_s : State.keeps pq s) :
    State.keeps pq (State.powerFail s v) := by
  unfold State.powerFail
  try dsimp only
  repeat' with_reducible first
    | assumption | apply kept_State_powerLost
    | simp only [State.keeps_mk, State.keeps_fold, Lp.inForm_mk, Lp.inForm_fold] | split | apply And.intro
    | apply State.keeps.pending | apply State.keeps.sl (p := pq) | apply State.keeps.rl (p := pq)
    | apply State.keeps.se (p := pq) | apply State.keeps.sw (p := pq) | apply State.keeps.lp (p := pq)
    | apply State.keeps.fl (p := pq) | apply State.keeps.tiles (p := pq) | apply State.keeps.jd (p := pq)
    | exact Lp.inForm_reset

theorem kept_State_railsOff {pq : List Instr} (s : State) (h_s : State.keeps pq s) :
    State.keeps pq (State.railsOff s) := by
  unfold State.railsOff
  try dsimp only
  repeat' with_reducible first
    | assumption | apply kept_State_settlePower | apply kept_State_cutInternal | apply kept_State_cutStoreOp
    | apply kept_State_inReset | apply kept_State_forgetSticky | simp only [State.keeps_mk, State.keeps_fold]

theorem kept_State_enterRecovery {pq : List Instr} (s : State) (cause : Nat) (h_s : State.keeps pq s) :
    State.keeps pq (State.enterRecovery s cause) := by
  unfold State.enterRecovery
  try dsimp only
  repeat' with_reducible first
    | assumption | apply kept_State_takeReady | apply kept_State_alert
    | simp only [State.keeps_mk, State.keeps_fold, Sw.inForm_mk, Sw.inForm_fold]

theorem kept_State_fuseRead {pq : List Instr} (s : State) (m : FuseMap) (h_s : State.keeps pq s) :
    State.keeps pq (State.fuseRead s m) := by
  unfold State.fuseRead
  try dsimp only
  repeat' with_reducible first
    | assumption | apply kept_State_enterRecovery | simp only [State.keeps_mk, State.keeps_fold] | split

theorem kept_State_loadBoot {pq : List Instr} (s : State) (sigOk : Bool) (h_s : State.keeps pq s) :
    State.keeps pq (State.loadBoot s sigOk) := by
  unfold State.loadBoot
  try dsimp only
  repeat' with_reducible first
    | assumption | apply kept_State_verifyFailed | apply kept_State_postCorr
    | simp only [State.keeps_mk, State.keeps_fold] | split

theorem kept_State_readParams {pq : List Instr} (s : State) (h_s : State.keeps pq s) :
    State.keeps pq (State.readParams s) := by
  unfold State.readParams
  try dsimp only
  repeat' with_reducible first
    | assumption | apply kept_Sw_loadProtect
    | simp only [State.keeps_mk, State.keeps_fold, Sw.inForm_mk, Sw.inForm_fold, Lp.inForm_mk, Lp.inForm_fold] | split
    | apply And.intro | apply State.keeps.pending | apply State.keeps.sl (p := pq) | apply State.keeps.rl (p := pq)
    | apply State.keeps.se (p := pq) | apply State.keeps.sw (p := pq) | apply State.keeps.lp (p := pq)
    | apply State.keeps.fl (p := pq) | apply State.keeps.tiles (p := pq) | apply State.keeps.jd (p := pq)

theorem kept_State_storeRead {pq : List Instr} (s : State) (fwSig bootSig : Bool) (h_s : State.keeps pq s) :
    State.keeps pq (State.storeRead s fwSig bootSig) := by
  unfold State.storeRead
  try dsimp only
  repeat' with_reducible first
    | assumption | apply kept_State_readParams | apply kept_State_enterRecovery | apply kept_State_verifyFailed
    | apply kept_State_postFatal | apply kept_State_loadBoot
    | simp only [State.keeps_mk, State.keeps_fold, Sw.inForm_mk, Sw.inForm_fold] | split

theorem kept_State_blocksCold {pq : List Instr} (s : State) (ms : Nat) (h_s : State.keeps pq s) :
    State.keeps pq (State.blocksCold s ms) := by
  unfold State.blocksCold
  try dsimp only
  repeat' with_reducible first
    | assumption | apply kept_Sw_cleanPairs | apply kept_State_takeReady | apply kept_State_fatalStop
    | simp only [State.keeps_mk, State.keeps_fold, Sw.inForm_mk, Sw.inForm_fold] | split | apply And.intro
    | apply State.keeps.pending | apply State.keeps.sl (p := pq) | apply State.keeps.rl (p := pq)
    | apply State.keeps.se (p := pq) | apply State.keeps.sw (p := pq) | apply State.keeps.lp (p := pq)
    | apply State.keeps.fl (p := pq) | apply State.keeps.tiles (p := pq) | apply State.keeps.jd (p := pq)

theorem kept_State_resweep {pq : List Instr} (s : State) (h_s : State.keeps pq s) :
    State.keeps pq (State.resweep s) := by
  unfold State.resweep
  try dsimp only
  repeat' with_reducible first
    | assumption | apply kept_State_panelLost
    | simp only [State.keeps_mk, State.keeps_fold, Sl.inForm_mk, Sl.inForm_fold]

theorem kept_State_dropLoads {pq : List Instr} (s : State) (h_s : State.keeps pq s) :
    State.keeps pq (State.dropLoads s) := by
  unfold State.dropLoads
  try dsimp only
  repeat' with_reducible first
    | assumption | apply kept_State_complete | apply kept_Sl_unstage
    | simp only [State.keeps_mk, State.keeps_fold, Sl.inForm_mk, Sl.inForm_fold] | (apply kept_foldl; intro _ _ _)
    | split | apply And.intro | apply State.keeps.pending | apply State.keeps.sl (p := pq)
    | apply State.keeps.rl (p := pq) | apply State.keeps.se (p := pq) | apply State.keeps.sw (p := pq)
    | apply State.keeps.lp (p := pq) | apply State.keeps.fl (p := pq) | apply State.keeps.tiles (p := pq)
    | apply State.keeps.jd (p := pq)

theorem kept_State_settleAll {pq : List Instr} (s : State) (h_s : State.keeps pq s) :
    State.keeps pq (State.settleAll s) := by
  unfold State.settleAll
  try dsimp only
  repeat' with_reducible first
    | assumption | apply kept_State_oldLost | apply kept_State_nearLost | simp only [State.keeps_mk, State.keeps_fold]
    | (apply kept_foldl; intro _ _ _)

theorem kept_State_reloadFw {pq : List Instr} (s : State) (h_s : State.keeps pq s) :
    State.keeps pq (State.reloadFw s) := by
  unfold State.reloadFw
  try dsimp only
  repeat' with_reducible first | assumption | simp only [State.keeps_mk, State.keeps_fold] | split

theorem kept_State_rebuild {pq : List Instr} (s : State) (sts : List Nat) (h_s : State.keeps pq s) :
    State.keeps pq (State.rebuild s sts) := by
  unfold State.rebuild
  try dsimp only
  repeat' with_reducible first
    | assumption | apply kept_State_dropLoads | apply kept_State_detachWhere | apply kept_State_settleAll
    | apply kept_State_releaseTiles | apply kept_State_reloadFw | apply kept_State_loadBoot
    | simp only [State.keeps_mk, State.keeps_fold, Sl.inForm_mk, Sl.inForm_fold, Rl.inForm_mk, Rl.inForm_fold, Fl.inForm_mk, Fl.inForm_fold, Tile.inForm_mk, Tile.inForm_fold, Jd.inForm_mk, Jd.inForm_fold]
    | split | apply And.intro | apply State.keeps.pending | apply State.keeps.sl (p := pq)
    | apply State.keeps.rl (p := pq) | apply State.keeps.se (p := pq) | apply State.keeps.sw (p := pq)
    | apply State.keeps.lp (p := pq) | apply State.keeps.fl (p := pq) | apply State.keeps.tiles (p := pq)
    | apply State.keeps.jd (p := pq) | exact cellsWf_nil _ | apply Rl.inForm.near | apply Rl.inForm.far
    | exact Rl.inForm_reset | apply Fl.inForm.ring | apply Fl.inForm.buffer | apply Fl.inForm.standing
    | apply ring_put | apply ring_filter

theorem kept_State_blocksFatal {pq : List Instr} (s : State) (b : ClearBy) (h_s : State.keeps pq s) :
    State.keeps pq (State.blocksFatal s b) := by
  unfold State.blocksFatal
  try dsimp only
  repeat' with_reducible first
    | assumption | apply kept_State_rebuild | apply kept_State_resweep | apply kept_State_clearEnds
    | apply kept_State_alert | simp only [State.keeps_mk, State.keeps_fold, Fl.inForm_mk, Fl.inForm_fold] | split
    | apply And.intro | apply State.keeps.pending | apply State.keeps.sl (p := pq) | apply State.keeps.rl (p := pq)
    | apply State.keeps.se (p := pq) | apply State.keeps.sw (p := pq) | apply State.keeps.lp (p := pq)
    | apply State.keeps.fl (p := pq) | apply State.keeps.tiles (p := pq) | apply State.keeps.jd (p := pq)
    | apply Fl.inForm.ring | apply Fl.inForm.buffer | apply Fl.inForm.standing | apply ring_put | apply ring_filter
    | apply standing_filter

theorem kept_State_blocksPs4 {pq : List Instr} (s : State) (n : Nat) (h_s : State.keeps pq s) :
    State.keeps pq (State.blocksPs4 s n) := by
  unfold State.blocksPs4
  try dsimp only
  repeat' with_reducible first | assumption | apply kept_State_resweep | simp only [State.keeps_mk, State.keeps_fold]

theorem kept_State_trained {pq : List Instr} (s : State) (k : Nat) (ok : Bool) (h_s : State.keeps pq s) :
    State.keeps pq (State.trained s k ok) := by
  unfold State.trained
  try dsimp only
  repeat' with_reducible first
    | assumption | apply kept_Tile_put | apply kept_State_postFatal | simp only [State.keeps_mk, State.keeps_fold]
    | split

theorem kept_State_stackSwept {pq : List Instr} (s : State) (k : Nat) (h_s : State.keeps pq s) :
    State.keeps pq (State.stackSwept s k) := by
  unfold State.stackSwept
  try dsimp only
  repeat' with_reducible first
    | assumption | apply kept_State_trained | apply kept_Fl_flushBuffer
    | simp only [State.keeps_mk, State.keeps_fold, Rl.inForm_mk, Rl.inForm_fold, Fl.inForm_mk, Fl.inForm_fold] | split
    | apply And.intro | apply State.keeps.pending | apply State.keeps.sl (p := pq) | apply State.keeps.rl (p := pq)
    | apply State.keeps.se (p := pq) | apply State.keeps.sw (p := pq) | apply State.keeps.lp (p := pq)
    | apply State.keeps.fl (p := pq) | apply State.keeps.tiles (p := pq) | apply State.keeps.jd (p := pq)
    | apply Rl.inForm.near | apply Rl.inForm.far | exact Rl.inForm_reset | apply Fl.inForm.ring
    | apply Fl.inForm.buffer | apply Fl.inForm.standing | apply ring_put | apply ring_filter | apply standing_filter
    | apply standing_erase | exact Fl.inForm_reset | apply cellsWf_filter

theorem kept_State_replayed {pq : List Instr} (s : State) (ms : Nat) (h_s : State.keeps pq s) :
    State.keeps pq (State.replayed s ms) := by
  unfold State.replayed
  try dsimp only
  repeat' with_reducible first
    | assumption | apply kept_State_verified | apply kept_State_serveHeld
    | simp only [State.keeps_mk, State.keeps_fold]

theorem kept_State_enterGo {pq : List Instr} (s : State) (ms : Nat) (h_s : State.keeps pq s) :
    State.keeps pq (State.enterGo s ms) := by
  unfold State.enterGo
  try dsimp only
  repeat' with_reducible first
    | assumption | apply kept_State_dropAllKeepers | apply kept_State_applyPs
    | simp only [State.keeps_mk, State.keeps_fold] | split

theorem kept_execVinAccepted {pq : List Instr} (v10mV : Nat) (s : State) (h_s : State.keeps pq s) :
    Answers pq (execVinAccepted v10mV s) := by
  unfold execVinAccepted
  apply answers_done
  try dsimp only
  repeat' with_reducible first
    | assumption | apply kept_State_alert | simp only [State.keeps_mk, State.keeps_fold] | split

theorem kept_execHoldUpBankCharged {pq : List Instr} (s : State) (h_s : State.keeps pq s) :
    Answers pq (execHoldUpBankCharged s) := by
  unfold execHoldUpBankCharged
  apply answers_done
  try dsimp only
  repeat' with_reducible first
    | assumption | apply kept_State_powerUp | simp only [State.keeps_mk, State.keeps_fold] | split

theorem kept_execInputOutOfRange {pq : List Instr} (v10mV : Nat) (s : State) (h_s : State.keeps pq s) :
    Answers pq (execInputOutOfRange v10mV s) := by
  unfold execInputOutOfRange
  apply answers_done
  try dsimp only
  repeat' with_reducible first
    | assumption | apply kept_State_postCorr | apply kept_State_alert | simp only [State.keeps_mk, State.keeps_fold]
    | split

theorem kept_execInputInRange {pq : List Instr} (v10mV : Nat) (s : State) (h_s : State.keeps pq s) :
    Answers pq (execInputInRange v10mV s) := by
  unfold execInputInRange
  apply answers_done
  try dsimp only
  repeat' with_reducible first
    | assumption | apply kept_State_alert | simp only [State.keeps_mk, State.keeps_fold] | split

theorem kept_execPowerFail {pq : List Instr} (v10mV : Nat) (s : State) (h_s : State.keeps pq s) :
    Answers pq (execPowerFail v10mV s) := by
  unfold execPowerFail
  apply answers_done
  try dsimp only
  repeat' with_reducible first
    | assumption | apply kept_State_powerFail | simp only [State.keeps_mk, State.keeps_fold] | split

theorem kept_execPowerFailRailsOff {pq : List Instr} (s : State) (h_s : State.keeps pq s) :
    Answers pq (execPowerFailRailsOff s) := by
  unfold execPowerFailRailsOff
  apply answers_done
  try dsimp only
  repeat' with_reducible first
    | assumption | apply kept_State_railsOff | simp only [State.keeps_mk, State.keeps_fold] | split

theorem kept_execModEnAssert {pq : List Instr} (s : State) (h_s : State.keeps pq s) :
    Answers pq (execModEnAssert s) := by
  unfold execModEnAssert
  apply answers_done
  try dsimp only
  repeat' with_reducible first
    | assumption | apply kept_State_powerUp | simp only [State.keeps_mk, State.keeps_fold] | split

theorem kept_execModEnDeassert {pq : List Instr} (s : State) (h_s : State.keeps pq s) :
    Answers pq (execModEnDeassert s) := by
  unfold execModEnDeassert
  apply answers_done
  try dsimp only
  repeat' with_reducible first
    | assumption | apply kept_State_cutStoreOp | apply kept_State_cutInternal | apply kept_State_stopAll
    | apply kept_State_railsOff | apply kept_State_alert | simp only [State.keeps_mk, State.keeps_fold] | split

theorem kept_execRailFault {pq : List Instr} (rail : Nat) (kind : RailKind) (v10mV : Nat) (s : State) (h_s :
    State.keeps pq s) :
    Answers pq (execRailFault rail kind v10mV s) := by
  unfold execRailFault
  apply answers_done
  try dsimp only
  repeat' with_reducible first
    | assumption | apply kept_State_tile | apply kept_State_postFatal | simp only [State.keeps_mk, State.keeps_fold]
    | split

theorem kept_execPerstAssert {pq : List Instr} (s : State) (h_s : State.keeps pq s) :
    Answers pq (execPerstAssert s) := by
  unfold execPerstAssert
  apply answers_done
  try dsimp only
  repeat' with_reducible first
    | assumption | apply kept_State_stopAll | apply kept_State_alert | simp only [State.keeps_mk, State.keeps_fold]
    | split

theorem kept_execPerstDeassert {pq : List Instr} (s : State) (h_s : State.keeps pq s) :
    Answers pq (execPerstDeassert s) := by
  unfold execPerstDeassert
  apply answers_done
  try dsimp only
  repeat' with_reducible first
    | assumption | apply kept_State_cutInternal | apply kept_State_enterMarks
    | simp only [State.keeps_mk, State.keeps_fold] | split

theorem kept_execFuseReadDone {pq : List Instr} (map : FuseMap) (s : State) (h_s : State.keeps pq s) :
    Answers pq (execFuseReadDone map s) := by
  unfold execFuseReadDone
  apply answers_done
  try dsimp only
  repeat' with_reducible first
    | assumption | apply kept_State_fuseRead | simp only [State.keeps_mk, State.keeps_fold] | split

theorem kept_execPanelPowerDone {pq : List Instr} (s : State) (h_s : State.keeps pq s) :
    Answers pq (execPanelPowerDone s) := by
  unfold execPanelPowerDone
  apply answers_done
  try dsimp only
  repeat' with_reducible first | assumption | simp only [State.keeps_mk, State.keeps_fold] | split

theorem kept_execSettingsStoreReadDone {pq : List Instr} (fwSigOk bootSigOk : Bool) (s : State) (h_s : State.keeps
    pq s) :
    Answers pq (execSettingsStoreReadDone fwSigOk bootSigOk s) := by
  unfold execSettingsStoreReadDone
  apply answers_done
  try dsimp only
  repeat' with_reducible first
    | assumption | apply kept_State_storeRead | simp only [State.keeps_mk, State.keeps_fold] | split

theorem kept_execEnterBlocks {pq : List Instr} (ms : Nat) (s : State) (h_s : State.keeps pq s) :
    Answers pq (execEnterBlocks ms s) := by
  unfold execEnterBlocks
  apply answers_done
  try dsimp only
  repeat' with_reducible first
    | assumption | apply kept_State_blocksCold | apply kept_State_blocksFatal
    | simp only [State.keeps_mk, State.keeps_fold] | split

theorem kept_execDramTrainingDone {pq : List Instr} (stack : Nat) (ok : Bool) (s : State) (h_s : State.keeps pq s) :
    Answers pq (execDramTrainingDone stack ok s) := by
  unfold execDramTrainingDone
  apply answers_done
  try dsimp only
  repeat' with_reducible first
    | assumption | apply kept_State_trained | simp only [State.keeps_mk, State.keeps_fold] | split

theorem kept_execNtSweepDone {pq : List Instr} (stack : Nat) (s : State) (h_s : State.keeps pq s) :
    Answers pq (execNtSweepDone stack s) := by
  unfold execNtSweepDone
  apply answers_done
  try dsimp only
  repeat' with_reducible first
    | assumption | apply kept_State_trained | apply kept_State_stackSwept
    | simp only [State.keeps_mk, State.keeps_fold] | split

theorem kept_execBootImageApply {pq : List Instr} (s : State) (h_s : State.keeps pq s) :
    Answers pq (execBootImageApply s) := by
  unfold execBootImageApply
  apply answers_done
  try dsimp only
  repeat' with_reducible first
    | assumption | apply kept_State_applyBoot | simp only [State.keeps_mk, State.keeps_fold] | split

theorem kept_execMapReplayDone {pq : List Instr} (ms : Nat) (s : State) (h_s : State.keeps pq s) :
    Answers pq (execMapReplayDone ms s) := by
  unfold execMapReplayDone
  apply answers_done
  try dsimp only
  repeat' with_reducible first
    | assumption | apply kept_State_replayed | simp only [State.keeps_mk, State.keeps_fold] | split

theorem kept_execDirectoryRebuildDone {pq : List Instr} (s : State) (h_s : State.keeps pq s) :
    Answers pq (execDirectoryRebuildDone s) := by
  unfold execDirectoryRebuildDone
  apply answers_done
  try dsimp only
  repeat' with_reducible first
    | assumption | apply kept_State_replayed
    | simp only [State.keeps_mk, State.keeps_fold, Rl.inForm_mk, Rl.inForm_fold] | split

theorem kept_execFcPathPrimed {pq : List Instr} (s : State) (h_s : State.keeps pq s) :
    Answers pq (execFcPathPrimed s) := by
  unfold execFcPathPrimed
  apply answers_done
  try dsimp only
  repeat' with_reducible first
    | assumption | apply kept_State_replayed | simp only [State.keeps_mk, State.keeps_fold] | split

theorem kept_execEnterGo {pq : List Instr} (ms : Nat) (s : State) (h_s : State.keeps pq s) :
    Answers pq (execEnterGo ms s) := by
  unfold execEnterGo
  apply answers_done
  try dsimp only
  repeat' with_reducible first
    | assumption | apply kept_State_enterGo | simp only [State.keeps_mk, State.keeps_fold] | split

theorem kept_execPs4Exit {pq : List Instr} (s : State) (h_s : State.keeps pq s) :
    Answers pq (execPs4Exit s) := by
  unfold execPs4Exit
  apply answers_done
  try dsimp only
  repeat' with_reducible first
    | assumption | apply kept_State_blocksPs4 | simp only [State.keeps_mk, State.keeps_fold] | split

/-! ## MediaCmds -/

theorem kept_State_spareLow {pq : List Instr} (s : State) (k : Nat) (h_s : State.keeps pq s) :
    State.keeps pq (State.spareLow s k) := by
  unfold State.spareLow
  try dsimp only
  repeat' with_reducible first
    | assumption | apply kept_State_postCorr | simp only [State.keeps_mk, State.keeps_fold] | split

theorem kept_State_retireBlock {pq : List Instr} (s : State) (channel die block : Nat) (h_s : State.keeps pq s) :
    State.keeps pq (State.retireBlock s channel die block) := by
  unfold State.retireBlock
  try dsimp only
  repeat' with_reducible first
    | assumption | apply kept_State_spareLow | simp only [State.keeps_mk, State.keeps_fold] | split

theorem kept_execFoldRow {pq : List Instr} (group block : Nat) (units : List Nat) (s : State) (h_s : State.keeps pq
    s) :
    Answers pq (execFoldRow group block units s) := by
  unfold execFoldRow
  apply answers_done
  try dsimp only
  repeat' with_reducible first
    | assumption | apply kept_State_endBg | simp only [State.keeps_mk, State.keeps_fold] | split

theorem kept_execLandingAgeLimit {pq : List Instr} (s : State) (h_s : State.keeps pq s) :
    Answers pq (execLandingAgeLimit s) := by
  unfold execLandingAgeLimit
  apply answers_done
  try dsimp only
  repeat' with_reducible first | assumption | simp only [State.keeps_mk, State.keeps_fold] | split

theorem kept_execGarbageCollection {pq : List Instr} (group victim dest : Nat) (s : State) (h_s : State.keeps pq s) :
    Answers pq (execGarbageCollection group victim dest s) := by
  unfold execGarbageCollection
  apply answers_done
  try dsimp only
  repeat' with_reducible first
    | assumption | apply kept_State_endBg | simp only [State.keeps_mk, State.keeps_fold] | split

theorem kept_execWearLevelMove {pq : List Instr} (group src dest : Nat) (s : State) (h_s : State.keeps pq s) :
    Answers pq (execWearLevelMove group src dest s) := by
  unfold execWearLevelMove
  apply answers_done
  try dsimp only
  repeat' with_reducible first
    | assumption | apply kept_State_endBg | simp only [State.keeps_mk, State.keeps_fold] | split

theorem kept_execScrubRead {pq : List Instr} (channel die block step bits : Nat) (s : State) (h_s : State.keeps pq
    s) :
    Answers pq (execScrubRead channel die block step bits s) := by
  unfold execScrubRead
  apply answers_done
  try dsimp only
  repeat' with_reducible first
    | assumption | apply kept_State_endBg | simp only [State.keeps_mk, State.keeps_fold] | split

theorem kept_State_refreshed {pq : List Instr} (s : State) (k : Nat) (h_s : State.keeps pq s) :
    State.keeps pq (State.refreshed s k) := by
  unfold State.refreshed
  try dsimp only
  repeat' with_reducible first | assumption | simp only [State.keeps_mk, State.keeps_fold]

theorem kept_execRefresh {pq : List Instr} (channel die block dest : Nat) (s : State) (h_s : State.keeps pq s) :
    Answers pq (execRefresh channel die block dest s) := by
  unfold execRefresh
  apply answers_done
  try dsimp only
  repeat' with_reducible first
    | assumption | apply kept_State_retireBlock | apply kept_State_refreshed | apply kept_State_endBg
    | apply kept_Tile_put | simp only [State.keeps_mk, State.keeps_fold, Tile.inForm_mk, Tile.inForm_fold] | split

theorem kept_execMapCheckpoint {pq : List Instr} (s : State) (h_s : State.keeps pq s) :
    Answers pq (execMapCheckpoint s) := by
  unfold execMapCheckpoint
  apply answers_done
  try dsimp only
  repeat' with_reducible first | assumption | simp only [State.keeps_mk, State.keeps_fold] | split

theorem kept_State_reprogram {pq : List Instr} (s : State) (channel die block dest : Nat) (h_s : State.keeps pq s) :
    State.keeps pq (State.reprogram s channel die block dest) := by
  unfold State.reprogram
  try dsimp only
  repeat' with_reducible first | assumption | simp only [State.keeps_mk, State.keeps_fold] | split

theorem kept_execProgFail {pq : List Instr} (channel die block dest : Nat) (s : State) (h_s : State.keeps pq s) :
    Answers pq (execProgFail channel die block dest s) := by
  unfold execProgFail
  apply answers_done
  try dsimp only
  repeat' with_reducible first
    | assumption | apply kept_State_postCorr | apply kept_State_reprogram | apply kept_State_retireBlock
    | simp only [State.keeps_mk, State.keeps_fold] | split

theorem kept_execEraseFail {pq : List Instr} (channel die block : Nat) (s : State) (h_s : State.keeps pq s) :
    Answers pq (execEraseFail channel die block s) := by
  unfold execEraseFail
  apply answers_done
  try dsimp only
  repeat' with_reducible first
    | assumption | apply kept_State_postCorr | apply kept_State_retireBlock
    | simp only [State.keeps_mk, State.keeps_fold] | split

theorem kept_execRetryExhausted {pq : List Instr} (channel : Nat) (addr : W64) (s : State) (h_s : State.keeps pq s) :
    Answers pq (execRetryExhausted channel addr s) := by
  unfold execRetryExhausted
  apply answers_done
  try dsimp only
  repeat' with_reducible first
    | assumption | apply kept_State_postCorr | simp only [State.keeps_mk, State.keeps_fold] | split

theorem kept_execRebuildDone {pq : List Instr} (channel nsid lba : Nat) (ok : Bool) (s : State) (h_s : State.keeps
    pq s) :
    Answers pq (execRebuildDone channel nsid lba ok s) := by
  unfold execRebuildDone
  apply answers_done
  try dsimp only
  repeat' with_reducible first
    | assumption | apply kept_State_post | simp only [State.keeps_mk, State.keeps_fold] | split

theorem kept_State_flashTemps {pq : List Instr} (s : State) (a b : Nat) (h_s : State.keeps pq s) :
    State.keeps pq (State.flashTemps s a b) := by
  unfold State.flashTemps
  try dsimp only
  repeat' with_reducible first
    | assumption | apply kept_State_postCorr | simp only [State.keeps_mk, State.keeps_fold] | split

theorem kept_execFlashThrottle {pq : List Instr} (board temp : Nat) (s : State) (h_s : State.keeps pq s) :
    Answers pq (execFlashThrottle board temp s) := by
  unfold execFlashThrottle
  apply answers_done
  try dsimp only
  repeat' with_reducible first
    | assumption | apply kept_State_flashTemps | simp only [State.keeps_mk, State.keeps_fold] | split

theorem kept_execFlashThrottleEnd {pq : List Instr} (tempA tempB : Nat) (s : State) (h_s : State.keeps pq s) :
    Answers pq (execFlashThrottleEnd tempA tempB s) := by
  unfold execFlashThrottleEnd
  apply answers_done
  try dsimp only
  repeat' with_reducible first
    | assumption | apply kept_State_flashTemps | simp only [State.keeps_mk, State.keeps_fold] | split

theorem kept_execFlashBandChange {pq : List Instr} (tempA tempB : Nat) (s : State) (h_s : State.keeps pq s) :
    Answers pq (execFlashBandChange tempA tempB s) := by
  unfold execFlashBandChange
  apply answers_done
  try dsimp only
  repeat' with_reducible first
    | assumption | apply kept_State_flashTemps | simp only [State.keeps_mk, State.keeps_fold] | split

theorem kept_execMmFlashTempRead {pq : List Instr} (s : State) (h_s : State.keeps pq s) :
    Answers pq (execMmFlashTempRead s) := by
  unfold execMmFlashTempRead
  apply answers_done
  try dsimp only
  repeat' with_reducible first | assumption | simp only [State.keeps_mk, State.keeps_fold] | split

end Sys2Proof.Machine
end

