-- ==== Sys2Proof/Laws/Kept4.lean ====
section
/-! SUPPORT. What every operation keeps (KeptDefs): tiles, the beat boundary, the near tier, function 1 and registers. -/

namespace Sys2Proof.Machine

/-! ## TileRun -/

theorem kept_State_lanePut {pq : List Instr} (s : State) (n a : Nat) (l : List Byte) (h_s : State.keeps pq s) :
    State.keeps pq (State.lanePut s n a l) := by
  unfold State.lanePut
  try dsimp only
  repeat' with_reducible first | assumption | apply kept_State_setTile | apply kept_State_tile | apply kept_Tile_put

theorem kept_State_runMatmul {pq : List Instr} (s v : State) (q : Squad) (squad n : Nat) (d : List Byte) (h_s :
    State.keeps pq s) (h_v : State.keeps pq v) :
    State.keeps pq (State.runMatmul s v q squad n d) := by
  unfold State.runMatmul
  try dsimp only
  repeat' with_reducible first
    | assumption | apply kept_State_tile | apply kept_Tile_put | apply kept_State_setTile
    | simp only [State.keeps_mk, State.keeps_fold, Tile.inForm_mk, Tile.inForm_fold] | (apply kept_foldl; intro _ _ _)
    | split

theorem kept_State_feedCtx {pq : List Instr} (s v : State) (n : Nat) (d : List Byte) (i c : Nat) (h_s : State.keeps
    pq s) (h_v : State.keeps pq v) :
    State.keeps pq (State.feedCtx s v n d i c) := by
  unfold State.feedCtx
  try dsimp only
  repeat' with_reducible first
    | assumption | apply kept_State_tile | apply kept_State_setTile | apply kept_Tile_setHeap
    | simp only [State.keeps_mk, State.keeps_fold, Tile.inForm_mk, Tile.inForm_fold] | split

theorem kept_State_runXorpop {pq : List Instr} (s v : State) (n : Nat) (d : List Byte) (h_s : State.keeps pq s) (h_v
    : State.keeps pq v) :
    State.keeps pq (State.runXorpop s v n d) := by
  unfold State.runXorpop
  try dsimp only
  repeat' with_reducible first
    | assumption | apply kept_State_lanePut | apply kept_State_feedCtx | apply kept_State_setTile
    | apply kept_State_tile | apply kept_Tile_switch
    | simp only [State.keeps_mk, State.keeps_fold, Tile.inForm_mk, Tile.inForm_fold] | (apply kept_foldl; intro _ _ _)
    | split

theorem kept_State_runReduceLocal {pq : List Instr} (s v : State) (n : Nat) (d : List Byte) (h_s : State.keeps pq s)
    (h_v : State.keeps pq v) :
    State.keeps pq (State.runReduceLocal s v n d) := by
  unfold State.runReduceLocal
  try dsimp only
  repeat' with_reducible first
    | assumption | apply kept_State_tile | apply kept_State_lanePut | simp only [State.keeps_mk, State.keeps_fold]

theorem kept_State_reduceMeet {pq : List Instr} (s : State) (q : Squad) (d : List Byte) (h_s : State.keeps pq s) :
    State.keeps pq (State.reduceMeet s q d) := by
  unfold State.reduceMeet
  try dsimp only
  repeat' with_reducible first
    | assumption | apply kept_State_tile | apply kept_State_setTile | apply kept_Tile_put
    | simp only [State.keeps_mk, State.keeps_fold, Tile.inForm_mk, Tile.inForm_fold] | (apply kept_foldl; intro _ _ _)
    | split

theorem kept_State_runEltwise {pq : List Instr} (s v : State) (squad n : Nat) (d : List Byte) (h_s : State.keeps pq
    s) (h_v : State.keeps pq v) :
    State.keeps pq (State.runEltwise s v squad n d) := by
  unfold State.runEltwise
  try dsimp only
  repeat' with_reducible first
    | assumption | apply kept_State_tile | apply kept_State_lanePut | simp only [State.keeps_mk, State.keeps_fold]

theorem kept_State_takeCredits {pq : List Instr} (s : State) (n route len : Nat) (h_s : State.keeps pq s) :
    State.keeps pq (State.takeCredits s n route len) := by
  unfold State.takeCredits
  try dsimp only
  repeat' with_reducible first
    | assumption | apply kept_State_tile | apply kept_State_setTile | apply kept_Tile_put
    | simp only [State.keeps_mk, State.keeps_fold, Tile.inForm_mk, Tile.inForm_fold]

theorem kept_State_runGather {pq : List Instr} (s v : State) (n : Nat) (d : List Byte) (h_s : State.keeps pq s) (h_v
    : State.keeps pq v) :
    State.keeps pq (State.runGather s v n d) := by
  unfold State.runGather
  try dsimp only
  repeat' with_reducible first
    | assumption | apply kept_State_tile | apply kept_State_lanePut | apply kept_State_takeCredits

theorem kept_State_runScatter {pq : List Instr} (s v : State) (n : Nat) (d : List Byte) (h_s : State.keeps pq s)
    (h_v : State.keeps pq v) :
    State.keeps pq (State.runScatter s v n d) := by
  unfold State.runScatter
  try dsimp only
  repeat' with_reducible first
    | assumption | apply kept_State_tile | apply kept_State_lanePut | apply kept_State_nearWrite
    | apply kept_State_hostWrite | apply kept_State_takeCredits | simp only [State.keeps_mk, State.keeps_fold] | split

theorem kept_State_runFilter {pq : List Instr} (s v : State) (q : Squad) (n : Nat) (d : List Byte) (h_s :
    State.keeps pq s) (h_v : State.keeps pq v) :
    State.keeps pq (State.runFilter s v q n d) := by
  unfold State.runFilter
  try dsimp only
  repeat' with_reducible first
    | assumption | apply kept_State_tile | apply kept_State_lanePut | apply kept_State_laneFree
    | simp only [State.keeps_mk, State.keeps_fold] | split

theorem kept_State_runTopk {pq : List Instr} (s v : State) (n : Nat) (d : List Byte) (h_s : State.keeps pq s) (h_v :
    State.keeps pq v) :
    State.keeps pq (State.runTopk s v n d) := by
  unfold State.runTopk
  try dsimp only
  repeat' with_reducible first
    | assumption | apply kept_State_lanePut | apply kept_State_tile | apply kept_State_setTile
    | apply kept_Tile_setHeap | simp only [State.keeps_mk, State.keeps_fold, Tile.inForm_mk, Tile.inForm_fold] | split

theorem kept_State_runStats {pq : List Instr} (s v : State) (squad n : Nat) (d : List Byte) (h_s : State.keeps pq s)
    (h_v : State.keeps pq v) :
    State.keeps pq (State.runStats s v squad n d) := by
  unfold State.runStats
  try dsimp only
  repeat' with_reducible first
    | assumption | apply kept_State_tile | apply kept_State_setTile | apply kept_State_keeperReport
    | apply kept_State_postContained | simp only [State.keeps_mk, State.keeps_fold, Tile.inForm_mk, Tile.inForm_fold]
    | split

theorem kept_Tile_onLatch (t : Tile) (l : Nat) (f : Latch → Latch) (h_t : Tile.inForm t) :
    Tile.inForm (Tile.onLatch t l f) := by
  unfold Tile.onLatch
  try dsimp only
  repeat' with_reducible first | assumption | simp only [Tile.inForm_mk, Tile.inForm_fold]

theorem kept_State_waitBlock {pq : List Instr} (s : State) (n object baton : Nat) (h_s : State.keeps pq s) :
    State.keeps pq (State.waitBlock s n object baton) := by
  unfold State.waitBlock
  try dsimp only
  repeat' with_reducible first
    | assumption | apply kept_State_tile | apply kept_State_setTile | apply kept_Tile_switch
    | simp only [State.keeps_mk, State.keeps_fold, Tile.inForm_mk, Tile.inForm_fold]

theorem kept_State_wakeLatch {pq : List Instr} (s : State) (n l : Nat) (h_s : State.keeps pq s) :
    State.keeps pq (State.wakeLatch s n l) := by
  unfold State.wakeLatch
  try dsimp only
  repeat' with_reducible first
    | assumption | apply kept_State_tile | apply kept_State_setTile
    | simp only [State.keeps_mk, State.keeps_fold, Tile.inForm_mk, Tile.inForm_fold] | split

theorem kept_State_wakeCtxs {pq : List Instr} (s : State) (n : Nat) (h_s : State.keeps pq s) :
    State.keeps pq (State.wakeCtxs s n) := by
  unfold State.wakeCtxs
  try dsimp only
  repeat' with_reducible first
    | assumption | apply kept_State_tile | apply kept_State_wakeLatch | apply kept_State_setTile
    | apply kept_Tile_switch | simp only [State.keeps_mk, State.keeps_fold, Tile.inForm_mk, Tile.inForm_fold] | split

theorem kept_State_runLoad {pq : List Instr} (s : State) (squad n : Nat) (d : List Byte) (h_s : State.keeps pq s) :
    State.keeps pq (State.runLoad s squad n d).1 := by
  unfold State.runLoad
  try dsimp only
  repeat' with_reducible first
    | assumption | apply kept_State_setTile | apply kept_State_tile | apply kept_Tile_onLatch
    | apply kept_State_waitBlock | apply kept_State_postContained | simp only [State.keeps_mk, State.keeps_fold]
    | split

theorem kept_State_runOp {pq : List Instr} (s v : State) (q : Squad) (squad n : Nat) (d : List Byte) (h_s :
    State.keeps pq s) (h_v : State.keeps pq v) :
    State.keeps pq (State.runOp s v q squad n d) := by
  unfold State.runOp
  try dsimp only
  repeat' with_reducible first
    | assumption | apply kept_State_runMatmul | apply kept_State_runXorpop | apply kept_State_runReduceLocal
    | apply kept_State_takeCredits | apply kept_State_runEltwise | apply kept_State_runGather
    | apply kept_State_runScatter | apply kept_State_runFilter | apply kept_State_runTopk | apply kept_State_runStats
    | simp only [State.keeps_mk, State.keeps_fold] | split

/-! ## TileOps -/

theorem kept_State_tileFault {pq : List Instr} (s : State) (n kind : Nat) (addr : W64) (d0 d1 d2 d3 : W32) (jobs :
    List Nat) (h_s : State.keeps pq s) :
    State.keeps pq (State.tileFault s n kind addr d0 d1 d2 d3 jobs) := by
  unfold State.tileFault
  try dsimp only
  repeat' with_reducible first
    | assumption | apply kept_State_haltTile | apply kept_State_tile | apply kept_State_postContained

theorem kept_State_decodeFails {pq : List Instr} (s : State) (n idx : Nat) (d : List Byte) (h_s : State.keeps pq s) :
    State.keeps pq (State.decodeFails s n idx d) := by
  unfold State.decodeFails
  try dsimp only
  repeat' with_reducible first | assumption | apply kept_State_tileFault

theorem kept_State_laneFault {pq : List Instr} (s : State) (n a : Nat) (v : BitVec 5) (tag : Nat) (h_s : State.keeps
    pq s) :
    State.keeps pq (State.laneFault s n a v tag) := by
  unfold State.laneFault
  try dsimp only
  repeat' with_reducible first | assumption | apply kept_State_tileFault

theorem kept_State_freeRanges {pq : List Instr} (s : State) (rs : List (Nat × Nat × Nat)) (h_s : State.keeps pq s) :
    State.keeps pq (State.freeRanges s rs) := by
  unfold State.freeRanges
  try dsimp only
  repeat' with_reducible first
    | assumption | apply kept_State_laneFree | simp only [State.keeps_mk, State.keeps_fold]
    | (apply kept_foldl; intro _ _ _)

theorem kept_Tile_refill (t : Tile) (h_t : Tile.inForm t) :
    Tile.inForm (Tile.refill t) := by
  unfold Tile.refill
  try dsimp only
  repeat' with_reducible first | assumption | simp only [Tile.inForm_mk, Tile.inForm_fold]

theorem kept_Tile_take (t : Tile) (d : List Byte) (h_t : Tile.inForm t) :
    Tile.inForm (Tile.take t d) := by
  unfold Tile.take
  try dsimp only
  repeat' with_reducible first | assumption | apply kept_Tile_refill | simp only [Tile.inForm_mk, Tile.inForm_fold]

theorem kept_State_postSem {pq : List Instr} (s : State) (dst sem n idx : Nat) (d : List Byte) (h_s : State.keeps pq
    s) :
    State.keeps pq (State.postSem s dst sem n idx d) := by
  unfold State.postSem
  try dsimp only
  repeat' with_reducible first
    | assumption | apply kept_State_tile | apply kept_State_decodeFails | apply kept_State_setTile
    | apply kept_State_wakeCtxs | simp only [State.keeps_mk, State.keeps_fold, Tile.inForm_mk, Tile.inForm_fold]
    | split

theorem kept_State_checkReads {pq : List Instr} (s : State) (tag : Nat) (x0 : List (Nat × Nat × Nat)) (h_s :
    State.keeps pq s) :
    State.keeps pq (State.checkReads s tag x0).1 := by
  induction x0 generalizing s with
  | nil => exact h_s
  | cons r rs ih =>
    unfold State.checkReads
    split
    · rename_i s1 v h
      have h1 := kept_State_laneCheck s r.1 tag ((s.tile r.1).badIn r.2.1 r.2.2) h_s
      rw [h] at h1
      exact h1
    · rename_i s1 h
      have h1 := kept_State_laneCheck s r.1 tag ((s.tile r.1).badIn r.2.1 r.2.2) h_s
      rw [h] at h1
      exact ih _ h1

theorem kept_State_fly {pq : List Instr} (s : State) (n : Nat) (f : OpInFlight) (h_s : State.keeps pq s) :
    State.keeps pq (State.fly s n f) := by
  unfold State.fly
  try dsimp only
  repeat' with_reducible first
    | assumption | apply kept_State_tile | apply kept_State_setTile
    | simp only [State.keeps_mk, State.keeps_fold, Tile.inForm_mk, Tile.inForm_fold]

theorem kept_State_issueLane {pq : List Instr} (s : State) (q : Squad) (squad n idx : Nat) (d : List Byte) (h_s :
    State.keeps pq s) :
    State.keeps pq (State.issueLane s q squad n idx d) := by
  unfold State.issueLane
  dsimp only
  split
  · rename_i s1 m a v h
    have h1 := kept_State_checkReads s (opTag d) (s.opReads q n d ++ opOld n d) h_s
    rw [h] at h1
    exact kept_State_laneFault _ _ _ _ _ (kept_State_freeRanges _ _ h1)
  · rename_i s1 h
    have h1 := kept_State_checkReads s (opTag d) (s.opReads q n d ++ opOld n d) h_s
    rw [h] at h1
    have h2 : ∀ k, State.keeps pq { s1 with tick := k } := fun _ => ⟨h1.pending, h1.fl, h1.sl, h1.rl, h1.tiles, h1.se, h1.sw, h1.lp, h1.jd⟩
    have h3 : State.keeps pq (State.freeRanges s (State.racedReads s n d (s.opReads q n d))) := kept_State_freeRanges _ _ h_s
    repeat' with_reducible first
      | assumption | apply kept_State_reduceMeet | apply kept_State_fly | apply kept_State_freeRanges
      | apply kept_State_runOp | apply h2 | split

theorem kept_State_notify {pq : List Instr} (s : State) (n : Nat) (d : List Byte) (h_s : State.keeps pq s) :
    State.keeps pq (State.notify s n d) := by
  unfold State.notify
  try dsimp only
  repeat' with_reducible first
    | assumption | apply kept_State_onJob | simp only [State.keeps_mk, State.keeps_fold] | split

theorem kept_State_issue {pq : List Instr} (s : State) (q : Squad) (squad n : Nat) (d : List Byte) (h_s :
    State.keeps pq s) :
    State.keeps pq (State.issue s q squad n d) := by
  unfold State.issue
  try dsimp only
  repeat' with_reducible first
    | assumption | apply kept_State_tile | apply kept_State_setTile | apply kept_Tile_take | apply kept_State_postSem
    | apply kept_State_notify | apply kept_State_runLoad | apply kept_State_fly | apply kept_State_issueLane
    | simp only [State.keeps_mk, State.keeps_fold, Tile.inForm_mk, Tile.inForm_fold] | split

theorem kept_State_pump {pq : List Instr} (x0 : Nat) (x1 : State) (x2 : Nat) (h_x1 : State.keeps pq x1) :
    State.keeps pq (State.pump x0 x1 x2) := by
  induction x0 generalizing x1 with
  | zero =>
    unfold State.pump
    try dsimp only
    repeat' with_reducible first | assumption
  | succ _ ih =>
    unfold State.pump
    try dsimp only
    repeat' with_reducible first
      | assumption | apply ih | apply kept_State_tile | apply kept_State_decodeFails | apply kept_State_drawNat
      | apply kept_State_issue | simp only [State.keeps_mk, State.keeps_fold, Tile.inForm_mk, Tile.inForm_fold]
      | split

theorem kept_State_pumpTile {pq : List Instr} (s : State) (n : Nat) (h_s : State.keeps pq s) :
    State.keeps pq (State.pumpTile s n) := by
  unfold State.pumpTile
  try dsimp only
  repeat' with_reducible first | assumption | apply kept_State_pump

theorem kept_State_writeOp {pq : List Instr} (s : State) (n : Nat) (d : List Byte) (mine : Bool) (h_s : State.keeps
    pq s) :
    State.keeps pq (State.writeOp s n d mine) := by
  unfold State.writeOp
  try dsimp only
  repeat' with_reducible first
    | assumption | apply kept_State_tile | apply kept_State_setTile | apply kept_Tile_refill
    | apply kept_State_pumpTile | simp only [State.keeps_mk, State.keeps_fold, Tile.inForm_mk, Tile.inForm_fold]
    | split

theorem kept_Tile_ctxsDone (t : Tile) (d : List Byte) (h_t : Tile.inForm t) :
    Tile.inForm (Tile.ctxsDone t d) := by
  unfold Tile.ctxsDone
  try dsimp only
  repeat' with_reducible first
    | assumption | apply kept_Tile_switch | simp only [Tile.inForm_mk, Tile.inForm_fold] | split

theorem kept_State_opDone {pq : List Instr} (s : State) (n : Nat) (f : OpInFlight) (h_s : State.keeps pq s) :
    State.keeps pq (State.opDone s n f) := by
  unfold State.opDone
  try dsimp only
  repeat' with_reducible first
    | assumption | apply kept_State_tile | apply kept_State_setTile | apply kept_Tile_ctxsDone
    | apply kept_State_quantCounts | apply kept_State_postSem | apply kept_State_notify | apply kept_State_pumpTile
    | simp only [State.keeps_mk, State.keeps_fold, Tile.inForm_mk, Tile.inForm_fold] | split

theorem kept_Tile_fillFails (t : Tile) (l : Nat) (h_t : Tile.inForm t) :
    Tile.inForm (Tile.fillFails t l) := by
  unfold Tile.fillFails
  try dsimp only
  repeat' with_reducible first | assumption | apply kept_Tile_onLatch | simp only [Tile.inForm_mk, Tile.inForm_fold]

theorem kept_State_condemnNear {pq : List Instr} (s : State) (p : Pin) (k : Nat) (h_s : State.keeps pq s) :
    State.keeps pq (State.condemnNear s p k) := by
  unfold State.condemnNear
  try dsimp only
  repeat' with_reducible first
    | assumption | apply kept_State_condemn | simp only [State.keeps_mk, State.keeps_fold] | split

theorem kept_State_batonArrives {pq : List Instr} (s : State) (squad n l : Nat) (f : OpInFlight) (j : Job) (p : Pin)
    (h_s : State.keeps pq s) :
    State.keeps pq (State.batonArrives s squad n l f j p) := by
  unfold State.batonArrives
  try dsimp only
  repeat' with_reducible first
    | assumption | apply kept_State_tile | apply kept_State_setTile | apply kept_Tile_onLatch
    | apply kept_State_postSem | apply kept_State_wakeCtxs | apply kept_State_notify | apply kept_State_pumpTile
    | apply kept_Tile_fillFails | apply kept_State_postContained | apply kept_State_condemnNear
    | simp only [State.keeps_mk, State.keeps_fold, Rl.inForm_mk, Rl.inForm_fold, Tile.inForm_mk, Tile.inForm_fold]
    | split

theorem kept_State_fillEnds {pq : List Instr} (s : State) (squad n l : Nat) (f : OpInFlight) (j : Job) (p : Pin) (r
    : FillResult) (h_s : State.keeps pq s) :
    State.keeps pq (State.fillEnds s squad n l f j p r) := by
  unfold State.fillEnds
  try dsimp only
  repeat' with_reducible first
    | assumption | apply kept_State_setTile | apply kept_State_tile | apply kept_Tile_fillFails
    | apply kept_State_post | apply kept_State_postContained | apply kept_State_batonArrives
    | apply kept_State_countNtUncorr | apply kept_State_condemnNear | apply kept_State_farDamaged
    | apply kept_State_onDir | apply kept_State_readLost
    | simp only [State.keeps_mk, State.keeps_fold, Rl.inForm_mk, Rl.inForm_fold, Tile.inForm_mk, Tile.inForm_fold]
    | split

theorem kept_execMatmul {pq : List Instr} (tile : Nat) (desc : List Byte) (s : State) (h_s : State.keeps pq s) :
    Answers pq (execMatmul tile desc s) := by
  unfold execMatmul
  apply answers_done
  try dsimp only
  repeat' with_reducible first | assumption | apply kept_State_writeOp

theorem kept_execXorpop {pq : List Instr} (tile : Nat) (desc : List Byte) (s : State) (h_s : State.keeps pq s) :
    Answers pq (execXorpop tile desc s) := by
  unfold execXorpop
  apply answers_done
  try dsimp only
  repeat' with_reducible first | assumption | apply kept_State_writeOp

theorem kept_execReduce {pq : List Instr} (tile : Nat) (desc : List Byte) (s : State) (h_s : State.keeps pq s) :
    Answers pq (execReduce tile desc s) := by
  unfold execReduce
  apply answers_done
  try dsimp only
  repeat' with_reducible first | assumption | apply kept_State_writeOp

theorem kept_execEltwise {pq : List Instr} (tile : Nat) (desc : List Byte) (s : State) (h_s : State.keeps pq s) :
    Answers pq (execEltwise tile desc s) := by
  unfold execEltwise
  apply answers_done
  try dsimp only
  repeat' with_reducible first | assumption | apply kept_State_writeOp

theorem kept_execEltwiseQuant {pq : List Instr} (tile : Nat) (desc : List Byte) (s : State) (h_s : State.keeps pq s) :
    Answers pq (execEltwiseQuant tile desc s) := by
  unfold execEltwiseQuant
  apply answers_done
  try dsimp only
  repeat' with_reducible first | assumption | apply kept_State_writeOp

theorem kept_execGather {pq : List Instr} (tile : Nat) (desc : List Byte) (s : State) (h_s : State.keeps pq s) :
    Answers pq (execGather tile desc s) := by
  unfold execGather
  apply answers_done
  try dsimp only
  repeat' with_reducible first | assumption | apply kept_State_writeOp

theorem kept_execScatter {pq : List Instr} (tile : Nat) (desc : List Byte) (s : State) (h_s : State.keeps pq s) :
    Answers pq (execScatter tile desc s) := by
  unfold execScatter
  apply answers_done
  try dsimp only
  repeat' with_reducible first | assumption | apply kept_State_writeOp

theorem kept_execFilter {pq : List Instr} (tile : Nat) (desc : List Byte) (s : State) (h_s : State.keeps pq s) :
    Answers pq (execFilter tile desc s) := by
  unfold execFilter
  apply answers_done
  try dsimp only
  repeat' with_reducible first | assumption | apply kept_State_writeOp

theorem kept_execTopk {pq : List Instr} (tile : Nat) (desc : List Byte) (s : State) (h_s : State.keeps pq s) :
    Answers pq (execTopk tile desc s) := by
  unfold execTopk
  apply answers_done
  try dsimp only
  repeat' with_reducible first | assumption | apply kept_State_writeOp

theorem kept_execLoadBaton {pq : List Instr} (tile : Nat) (desc : List Byte) (s : State) (h_s : State.keeps pq s) :
    Answers pq (execLoadBaton tile desc s) := by
  unfold execLoadBaton
  apply answers_done
  try dsimp only
  repeat' with_reducible first | assumption | apply kept_State_writeOp

theorem kept_execHurdleFence {pq : List Instr} (tile : Nat) (desc : List Byte) (s : State) (h_s : State.keeps pq s) :
    Answers pq (execHurdleFence tile desc s) := by
  unfold execHurdleFence
  apply answers_done
  try dsimp only
  repeat' with_reducible first | assumption | apply kept_State_writeOp

theorem kept_execStats {pq : List Instr} (tile : Nat) (desc : List Byte) (s : State) (h_s : State.keeps pq s) :
    Answers pq (execStats tile desc s) := by
  unfold execStats
  apply answers_done
  try dsimp only
  repeat' with_reducible first | assumption | apply kept_State_writeOp

theorem kept_execStatsReport {pq : List Instr} (tile : Nat) (desc : List Byte) (s : State) (h_s : State.keeps pq s) :
    Answers pq (execStatsReport tile desc s) := by
  unfold execStatsReport
  apply answers_done
  try dsimp only
  repeat' with_reducible first | assumption | apply kept_State_writeOp

theorem kept_execOpComplete {pq : List Instr} (tile unit : Nat) (s : State) (h_s : State.keeps pq s) :
    Answers pq (execOpComplete tile unit s) := by
  unfold execOpComplete
  apply answers_done
  try dsimp only
  repeat' with_reducible first
    | assumption | apply kept_State_tile | apply kept_State_opDone | simp only [State.keeps_mk, State.keeps_fold]
    | split

theorem kept_execHeapCollect {pq : List Instr} (tag query : Nat) (s : State) (h_s : State.keeps pq s) :
    Answers pq (execHeapCollect tag query s) := by
  unfold execHeapCollect
  apply answers_done
  split
  · exact h_s
  · split
    · exact h_s
    · rename_i j _
      split
      · exact h_s
      · rename_i x _
        split
        · exact h_s
        · rename_i c _
          split
          · have h1 := kept_State_checkReads s tag [(x.2.1, c.heapAddr, 16 * c.held)] h_s
            split
            · rename_i s1 m a v h
              rw [h] at h1
              exact kept_State_laneFault _ _ _ _ _ h1
            · rename_i s1 h
              rw [h] at h1
              exact kept_State_collect _ _ _ _ h1
          · exact h_s

theorem kept_execBatonFillDone {pq : List Instr} (tile latch : Nat) (r : FillResult) (s : State) (h_s : State.keeps
    pq s) :
    Answers pq (execBatonFillDone tile latch r s) := by
  unfold execBatonFillDone
  apply answers_done
  try dsimp only
  repeat' with_reducible first
    | assumption | apply kept_State_tile | apply kept_State_fillEnds | apply kept_State_setTile
    | apply kept_Tile_fillFails | simp only [State.keeps_mk, State.keeps_fold] | split

theorem kept_execTileClrCnt {pq : List Instr} (tile : Nat) (s : State) (h_s : State.keeps pq s) :
    Answers pq (execTileClrCnt tile s) := by
  unfold execTileClrCnt
  apply answers_done
  try dsimp only
  repeat' with_reducible first
    | assumption | apply kept_State_tile | apply kept_State_setTile
    | simp only [State.keeps_mk, State.keeps_fold, Tile.inForm_mk, Tile.inForm_fold] | split

theorem kept_execTileLmWdata {pq : List Instr} (tile : Nat) (v : W32) (s : State) (h_s : State.keeps pq s) :
    Answers pq (execTileLmWdata tile v s) := by
  unfold execTileLmWdata
  apply answers_done
  try dsimp only
  repeat' with_reducible first
    | assumption | apply kept_State_tile | apply kept_State_setTile | apply kept_Tile_put
    | simp only [State.keeps_mk, State.keeps_fold, Tile.inForm_mk, Tile.inForm_fold] | split

theorem kept_State_portRead {pq : List Instr} (s : State) (n : Nat) (h_s : State.keeps pq s) :
    State.keeps pq (State.portRead s n).2 := by
  unfold State.portRead
  try dsimp only
  repeat' with_reducible first
    | assumption | apply kept_State_tile | apply kept_State_laneUncorr | apply kept_State_setTile
    | apply kept_State_postContained | apply kept_State_laneCorrect
    | simp only [State.keeps_mk, State.keeps_fold, Tile.inForm_mk, Tile.inForm_fold] | split

theorem kept_execTileLmRdata {pq : List Instr} (tile : Nat) (s : State) (h_s : State.keeps pq s) :
    Answers pq (execTileLmRdata tile s) := by
  unfold execTileLmRdata
  apply answers_done
  try dsimp only
  repeat' with_reducible first
    | assumption | apply kept_State_tile | apply kept_State_portRead | apply kept_State_setTile
    | simp only [State.keeps_mk, State.keeps_fold, Tile.inForm_mk, Tile.inForm_fold] | split

/-! ## Beat -/

theorem kept_State_haltPhase {pq : List Instr} (s : State) (h_s : State.keeps pq s) :
    State.keeps pq (State.haltPhase s) := by
  unfold State.haltPhase
  try dsimp only
  repeat' with_reducible first | assumption | simp only [State.keeps_mk, State.keeps_fold] | split

theorem kept_State_countBeat {pq : List Instr} (s : State) (b : BoundaryInfo) (h_s : State.keeps pq s) :
    State.keeps pq (State.countBeat s b) := by
  unfold State.countBeat
  try dsimp only
  repeat' with_reducible first
    | assumption | apply kept_State_replayed
    | simp only [State.keeps_mk, State.keeps_fold, Sl.inForm_mk, Sl.inForm_fold, Fl.inForm_mk, Fl.inForm_fold] | split

theorem kept_State_wakeTiles {pq : List Instr} (s : State) (squad : Nat) (h_s : State.keeps pq s) :
    State.keeps pq (State.wakeTiles s squad) := by
  unfold State.wakeTiles
  try dsimp only
  repeat' with_reducible first
    | assumption | apply kept_State_pumpTile
    | simp only [State.keeps_mk, State.keeps_fold, Tile.inForm_mk, Tile.inForm_fold] | (apply kept_foldl; intro _ _ _)
    | split | apply And.intro | apply State.keeps.pending | apply State.keeps.sl (p := pq)
    | apply State.keeps.rl (p := pq) | apply State.keeps.se (p := pq) | apply State.keeps.sw (p := pq)
    | apply State.keeps.lp (p := pq) | apply State.keeps.fl (p := pq) | apply State.keeps.tiles (p := pq)
    | apply State.keeps.jd (p := pq) | apply tilesInForm_put | (apply tilesInForm_mapVals; intro _ _ _)

theorem kept_State_beginLap {pq : List Instr} (s : State) (squad : Nat) (h_s : State.keeps pq s) :
    State.keeps pq (State.beginLap s squad) := by
  unfold State.beginLap
  try dsimp only
  repeat' with_reducible first
    | assumption | apply kept_State_startLap | apply kept_State_setLaps | apply kept_State_wakeTiles
    | simp only [State.keeps_mk, State.keeps_fold, Tile.inForm_mk, Tile.inForm_fold] | split

theorem kept_State_beginJob {pq : List Instr} (s : State) (j : Job) (h_s : State.keeps pq s) :
    State.keeps pq (State.beginJob s j) := by
  unfold State.beginJob
  try dsimp only
  repeat' with_reducible first
    | assumption | apply kept_State_issueExtents | apply kept_State_startSearch
    | simp only [State.keeps_mk, State.keeps_fold] | split

theorem kept_State_startWork {pq : List Instr} (s : State) (b : BoundaryInfo) (h_s : State.keeps pq s) :
    State.keeps pq (State.startWork s b) := by
  unfold State.startWork
  try dsimp only
  repeat' with_reducible first
    | assumption | apply kept_State_noteQuiet | apply kept_State_planLap | apply kept_State_grant
    | apply kept_State_beginLap | apply kept_State_beginJob | simp only [State.keeps_mk, State.keeps_fold]
    | (apply kept_foldl; intro _ _ _) | split

theorem kept_State_boundary {pq : List Instr} (s : State) (b : BoundaryInfo) (h_s : State.keeps pq s) :
    State.keeps pq (State.boundary s b) := by
  unfold State.boundary
  try dsimp only
  repeat' with_reducible first
    | assumption | apply kept_State_settleCommits | apply kept_State_countBeat | apply kept_State_haltPhase
    | apply kept_State_thermalStep | apply kept_State_bandJudge | apply kept_State_takeEffect
    | apply kept_State_readyCommits | apply kept_State_promoteAll | apply kept_State_startWork
    | simp only [State.keeps_mk, State.keeps_fold] | split

theorem kept_State_setTemp {pq : List Instr} (s : State) (n t : Nat) (h_s : State.keeps pq s) :
    State.keeps pq (State.setTemp s n t) := by
  unfold State.setTemp
  try dsimp only
  repeat' with_reducible first | assumption | apply kept_Tile_put | simp only [State.keeps_mk, State.keeps_fold]

theorem kept_State_postThermal {pq : List Instr} (s : State) (n t : Nat) (h_s : State.keeps pq s) :
    State.keeps pq (State.postThermal s n t) := by
  unfold State.postThermal
  try dsimp only
  repeat' with_reducible first | assumption | apply kept_State_postOnce

theorem kept_State_startCeiling {pq : List Instr} (s : State) (n : Nat) (h_s : State.keeps pq s) :
    State.keeps pq (State.startCeiling s n) := by
  unfold State.startCeiling
  try dsimp only
  repeat' with_reducible first | assumption | simp only [State.keeps_mk, State.keeps_fold] | split

theorem kept_execBeatBoundary {pq : List Instr} (b : BoundaryInfo) (s : State) (h_s : State.keeps pq s) :
    Answers pq (execBeatBoundary b s) := by
  unfold execBeatBoundary
  apply answers_done
  try dsimp only
  repeat' with_reducible first
    | assumption | apply kept_State_boundary | simp only [State.keeps_mk, State.keeps_fold] | split

theorem kept_execThermalTrigger {pq : List Instr} (sensor temp : Nat) (s : State) (h_s : State.keeps pq s) :
    Answers pq (execThermalTrigger sensor temp s) := by
  unfold execThermalTrigger
  apply answers_done
  try dsimp only
  repeat' with_reducible first
    | assumption | apply kept_State_setTemp | apply kept_State_postThermal | apply kept_State_startCeiling
    | apply kept_State_alert | simp only [State.keeps_mk, State.keeps_fold] | split

theorem kept_execThermalCeilingEnd {pq : List Instr} (temps : List (Nat × Nat)) (s : State) (h_s : State.keeps pq s) :
    Answers pq (execThermalCeilingEnd temps s) := by
  unfold execThermalCeilingEnd
  apply answers_done
  try dsimp only
  repeat' with_reducible first
    | assumption | apply kept_State_setTemp | simp only [State.keeps_mk, State.keeps_fold]
    | (apply kept_foldl; intro _ _ _) | split

theorem kept_execThermalShutdown {pq : List Instr} (sensor temp : Nat) (s : State) (h_s : State.keeps pq s) :
    Answers pq (execThermalShutdown sensor temp s) := by
  unfold execThermalShutdown
  apply answers_done
  try dsimp only
  repeat' with_reducible first
    | assumption | apply kept_State_setTemp | apply kept_State_postFatal
    | simp only [State.keeps_mk, State.keeps_fold] | split

theorem kept_execOutletAlert {pq : List Instr} (temp : Nat) (s : State) (h_s : State.keeps pq s) :
    Answers pq (execOutletAlert temp s) := by
  unfold execOutletAlert
  apply answers_done
  try dsimp only
  repeat' with_reducible first
    | assumption | apply kept_State_setTemp | apply kept_State_postThermal | apply kept_State_alert
    | simp only [State.keeps_mk, State.keeps_fold] | split

theorem kept_execOutletAlertEnd {pq : List Instr} (temp : Nat) (s : State) (h_s : State.keeps pq s) :
    Answers pq (execOutletAlertEnd temp s) := by
  unfold execOutletAlertEnd
  apply answers_done
  try dsimp only
  repeat' with_reducible first
    | assumption | apply kept_State_setTemp | apply kept_State_alert | simp only [State.keeps_mk, State.keeps_fold]
    | split

theorem kept_execDramHotRefresh {pq : List Instr} (stack temp : Nat) (s : State) (h_s : State.keeps pq s) :
    Answers pq (execDramHotRefresh stack temp s) := by
  unfold execDramHotRefresh
  apply answers_done
  try dsimp only
  repeat' with_reducible first
    | assumption | apply kept_State_setTemp | simp only [State.keeps_mk, State.keeps_fold] | split

/-! ## Near -/

theorem kept_Rl_flipGone (r : Rl) (o : Nat) (h_r : Rl.inForm r) :
    Rl.inForm (Rl.flipGone r o) := by
  unfold Rl.flipGone
  try dsimp only
  repeat' with_reducible first | assumption | simp only [Rl.inForm_mk, Rl.inForm_fold] | split

theorem kept_State_countNtCorr {pq : List Instr} (s : State) (k : Nat) (h_s : State.keeps pq s) :
    State.keeps pq (State.countNtCorr s k) := by
  unfold State.countNtCorr
  try dsimp only
  repeat' with_reducible first
    | assumption | apply kept_Tile_put
    | simp only [State.keeps_mk, State.keeps_fold, Rl.inForm_mk, Rl.inForm_fold, Tile.inForm_mk, Tile.inForm_fold]

theorem kept_State_granuleCorrected {pq : List Instr} (s : State) (o : Nat) (g : ProbeGranule) (h_s : State.keeps pq
    s) :
    State.keeps pq (State.granuleCorrected s o g) := by
  unfold State.granuleCorrected
  try dsimp only
  repeat' with_reducible first
    | assumption | apply kept_Rl_flipGone | apply kept_Tile_put | apply kept_State_countNtCorr
    | apply kept_State_postOnce
    | simp only [State.keeps_mk, State.keeps_fold, Rl.inForm_mk, Rl.inForm_fold, Tile.inForm_mk, Tile.inForm_fold]
    | split | apply And.intro | apply State.keeps.pending | apply State.keeps.sl (p := pq)
    | apply State.keeps.rl (p := pq) | apply State.keeps.se (p := pq) | apply State.keeps.sw (p := pq)
    | apply State.keeps.lp (p := pq) | apply State.keeps.fl (p := pq) | apply State.keeps.tiles (p := pq)
    | apply State.keeps.jd (p := pq)

theorem kept_State_readProbe {pq : List Instr} (s : State) (o : Nat) (port : Bool) (h_s : State.keeps pq s) :
    State.keeps pq (State.readProbe s o port) := by
  unfold State.readProbe
  try dsimp only
  repeat' with_reducible first
    | assumption | apply kept_State_granuleCorrected | apply kept_State_countNtUncorr | apply kept_State_postCorr
    | apply kept_State_postFatal | apply kept_State_postContained | simp only [State.keeps_mk, State.keeps_fold]
    | split

theorem kept_execRlProbeWrite {pq : List Instr} (s : State) (h_s : State.keeps pq s) :
    Answers pq (execRlProbeWrite s) := by
  unfold execRlProbeWrite
  apply answers_done
  try dsimp only
  repeat' with_reducible first
    | assumption | apply kept_Rl_flipGone | apply kept_Tile_put
    | simp only [State.keeps_mk, State.keeps_fold, Rl.inForm_mk, Rl.inForm_fold, Tile.inForm_mk, Tile.inForm_fold]
    | split | apply And.intro | apply State.keeps.pending | apply State.keeps.sl (p := pq)
    | apply State.keeps.rl (p := pq) | apply State.keeps.se (p := pq) | apply State.keeps.sw (p := pq)
    | apply State.keeps.lp (p := pq) | apply State.keeps.fl (p := pq) | apply State.keeps.tiles (p := pq)
    | apply State.keeps.jd (p := pq)

theorem kept_execRlProbeRead {pq : List Instr} (s : State) (h_s : State.keeps pq s) :
    Answers pq (execRlProbeRead s) := by
  unfold execRlProbeRead
  apply answers_done
  try dsimp only
  repeat' with_reducible first
    | assumption | apply kept_State_readProbe
    | simp only [State.keeps_mk, State.keeps_fold, Rl.inForm_mk, Rl.inForm_fold] | split

theorem kept_execNtPatrolScrub {pq : List Instr} (addr : Nat) (s : State) (h_s : State.keeps pq s) :
    Answers pq (execNtPatrolScrub addr s) := by
  unfold execNtPatrolScrub
  apply answers_done
  try dsimp only
  repeat' with_reducible first
    | assumption | apply kept_State_readProbe | simp only [State.keeps_mk, State.keeps_fold] | split

theorem kept_execRlLookup {pq : List Instr} (v : W32) (s : State) (h_s : State.keeps pq s) :
    Answers pq (execRlLookup v s) := by
  unfold execRlLookup
  apply answers_done
  try dsimp only
  repeat' with_reducible first
    | assumption | simp only [State.keeps_mk, State.keeps_fold, Rl.inForm_mk, Rl.inForm_fold] | split

/-! ## Ronnel -/

theorem kept_State_lpAdvance {pq : List Instr} (s : State) (f : LpFrame) (h_s : State.keeps pq s) :
    State.keeps pq (State.lpAdvance s f) := by
  unfold State.lpAdvance
  try dsimp only
  repeat' with_reducible first
    | assumption | simp only [State.keeps_mk, State.keeps_fold, Lp.inForm_mk, Lp.inForm_fold]

theorem kept_State_lpBad {pq : List Instr} (s : State) (f : LpFrame) (code : Nat) (nak : Bool) (h_s : State.keeps pq
    s) :
    State.keeps pq (State.lpBad s f code nak) := by
  unfold State.lpBad
  try dsimp only
  repeat' with_reducible first
    | assumption | apply kept_State_lpViolation | apply kept_State_lpSend
    | simp only [State.keeps_mk, State.keeps_fold] | split

theorem kept_State_lpSkip {pq : List Instr} (x0 : Nat) (x1 : State) (h_x1 : State.keeps pq x1) :
    State.keeps pq (State.lpSkip x0 x1) := by
  induction x0 generalizing x1 with
  | zero =>
    unfold State.lpSkip
    try dsimp only
    repeat' with_reducible first | assumption
  | succ _ ih =>
    unfold State.lpSkip
    try dsimp only
    repeat' with_reducible first
      | assumption | apply ih | apply kept_State_lpBad | apply kept_Lp_note | apply kept_State_lpAdvance
      | simp only [State.keeps_mk, State.keeps_fold, Lp.inForm_mk, Lp.inForm_fold] | split | apply And.intro
      | apply State.keeps.pending | apply State.keeps.sl (p := pq) | apply State.keeps.rl (p := pq)
      | apply State.keeps.se (p := pq) | apply State.keeps.sw (p := pq) | apply State.keeps.lp (p := pq)
      | apply State.keeps.fl (p := pq) | apply State.keeps.tiles (p := pq) | apply State.keeps.jd (p := pq)

theorem kept_State_lpSkipAll {pq : List Instr} (s : State) (h_s : State.keeps pq s) :
    State.keeps pq (State.lpSkipAll s) := by
  unfold State.lpSkipAll
  try dsimp only
  repeat' with_reducible first | assumption | apply kept_State_lpSkip

theorem kept_State_lpTake {pq : List Instr} (s : State) (mine : LpFrame → Bool) (act : LpFrame → State → State) (h_s
    : State.keeps pq s) (h_act : ∀ z y, State.keeps pq y → State.keeps pq (act z y)) :
    State.keeps pq (State.lpTake s mine act) := by
  unfold State.lpTake
  try dsimp only
  repeat' with_reducible first
    | assumption | apply h_act | apply kept_State_lpBad | apply kept_State_lpAdvance | apply kept_State_lpSkipAll
    | simp only [State.keeps_mk, State.keeps_fold] | split

theorem kept_State_lpOpen {pq : List Instr} (s0 : State) (f : LpFrame) (h_s0 : State.keeps pq s0) :
    State.keeps pq (State.lpOpen s0 f) := by
  unfold State.lpOpen
  try dsimp only
  repeat' with_reducible first
    | assumption | apply kept_State_takeTurn | apply kept_Tile_put
    | simp only [State.keeps_mk, State.keeps_fold, Lp.inForm_mk, Lp.inForm_fold, Tile.inForm_mk, Tile.inForm_fold]

theorem kept_State_lpCommand {pq : List Instr} (s : State) (ops : Nat → Bool) (run : LpFrame → State → State) (h_s :
    State.keeps pq s) (h_run : ∀ z y, State.keeps pq y → State.keeps pq (run z y)) :
    State.keeps pq (State.lpCommand s ops run) := by
  unfold State.lpCommand
  try dsimp only
  repeat' with_reducible first
    | assumption | apply h_run | apply kept_State_lpTake | apply kept_State_lpBad | apply kept_State_lpOpen
    | apply kept_State_lpEnd | simp only [State.keeps_mk, State.keeps_fold] | split | (intro _ _ _)

theorem kept_State_lpStore {pq : List Instr} (s : State) (f : LpFrame) (op : StoreOp) (h_s : State.keeps pq s) :
    State.keeps pq (State.lpStore s f op) := by
  unfold State.lpStore
  try dsimp only
  repeat' with_reducible first | assumption | apply kept_State_takeStore

theorem kept_State_lpStop {pq : List Instr} (s : State) (tag code : Nat) (h_s : State.keeps pq s) :
    State.keeps pq (State.lpStop s tag code) := by
  unfold State.lpStop
  try dsimp only
  repeat' with_reducible first
    | assumption | apply kept_State_lpEnd | apply kept_State_applyPieces | apply kept_State_settleFlushes
    | simp only [State.keeps_mk, State.keeps_fold] | split

theorem kept_Lp_unsend (l : Lp) (tag : Nat) (h_l : Lp.inForm l) :
    Lp.inForm (Lp.unsend l tag) := by
  unfold Lp.unsend
  try dsimp only
  repeat' with_reducible first | assumption | simp only [Lp.inForm_mk, Lp.inForm_fold]

theorem kept_State_lpWindowData {pq : List Instr} (s : State) (f : LpFrame) (c : LpCmd) (h_s : State.keeps pq s) :
    State.keeps pq (State.lpWindowData s f c) := by
  unfold State.lpWindowData
  try dsimp only
  repeat' with_reducible first
    | assumption | apply kept_State_lpBad | apply kept_State_lpStop | apply kept_Tile_put
    | simp only [State.keeps_mk, State.keeps_fold, Lp.inForm_mk, Lp.inForm_fold, Tile.inForm_mk, Tile.inForm_fold]
    | split

theorem kept_State_lpDataFrame {pq : List Instr} (s : State) (f : LpFrame) (h_s : State.keeps pq s) :
    State.keeps pq (State.lpDataFrame s f) := by
  unfold State.lpDataFrame
  try dsimp only
  repeat' with_reducible first
    | assumption | apply kept_State_lpBad | apply kept_State_lpStop | apply kept_State_lpWindowData
    | apply kept_Tile_put
    | simp only [State.keeps_mk, State.keeps_fold, Lp.inForm_mk, Lp.inForm_fold, Tile.inForm_mk, Tile.inForm_fold]
    | split

theorem kept_State_windowLands {pq : List Instr} (s : State) (k : StoreCmd) (n : Namespace) (c : LpCmd) (h_s :
    State.keeps pq s) :
    State.keeps pq (State.windowLands s k n c) := by
  unfold State.windowLands
  try dsimp only
  repeat' with_reducible first
    | assumption | apply kept_Tile_put | apply kept_State_onStore | apply kept_State_lpGrant
    | simp only [State.keeps_mk, State.keeps_fold, Lp.inForm_mk, Lp.inForm_fold, Tile.inForm_mk, Tile.inForm_fold]
    | split

theorem kept_execLpReqProdWrite {pq : List Instr} (v : W32) (s : State) (h_s : State.keeps pq s) :
    Answers pq (execLpReqProdWrite v s) := by
  unfold execLpReqProdWrite
  apply answers_done
  try dsimp only
  repeat' with_reducible first
    | assumption | apply kept_State_lpViolation | apply kept_State_lpSkipAll
    | simp only [State.keeps_mk, State.keeps_fold, Lp.inForm_mk, Lp.inForm_fold] | split

theorem kept_execLpRplConsWrite {pq : List Instr} (v : W32) (s : State) (h_s : State.keeps pq s) :
    Answers pq (execLpRplConsWrite v s) := by
  unfold execLpRplConsWrite
  apply answers_done
  try dsimp only
  repeat' with_reducible first
    | assumption | apply kept_State_lpViolation | apply kept_State_lpSend | apply kept_State_lpSkipAll
    | simp only [State.keeps_mk, State.keeps_fold, Lp.inForm_mk, Lp.inForm_fold] | split

theorem kept_execLpCtlReset {pq : List Instr} (s : State) (v : W32) (h_s : State.keeps pq s) :
    Answers pq (execLpCtlReset s v) := by
  unfold execLpCtlReset
  apply answers_done
  try dsimp only
  repeat' with_reducible first
    | assumption | apply kept_State_resetLp
    | simp only [State.keeps_mk, State.keeps_fold, Lp.inForm_mk, Lp.inForm_fold] | split

theorem kept_execLpVolMapWrite {pq : List Instr} (volume : Nat) (v : W32) (writes : List Bool) (s : State) (h_s :
    State.keeps pq s) :
    Answers pq (execLpVolMapWrite volume v writes s) := by
  unfold execLpVolMapWrite
  apply answers_done
  try dsimp only
  repeat' with_reducible first
    | assumption | apply kept_State_logWrite
    | simp only [State.keeps_mk, State.keeps_fold, Lp.inForm_mk, Lp.inForm_fold] | split

theorem kept_execLpRead {pq : List Instr} (s : State) (h_s : State.keeps pq s) :
    Answers pq (execLpRead s) := by
  unfold execLpRead
  apply answers_done
  try dsimp only
  repeat' with_reducible first
    | assumption | apply kept_State_lpCommand | apply kept_State_lpStore
    | simp only [State.keeps_mk, State.keeps_fold] | split | (intro _ _ _)

theorem kept_execLpWrite {pq : List Instr} (s : State) (h_s : State.keeps pq s) :
    Answers pq (execLpWrite s) := by
  unfold execLpWrite
  apply answers_done
  try dsimp only
  repeat' with_reducible first
    | assumption | apply kept_State_lpCommand | apply kept_State_lpStore
    | simp only [State.keeps_mk, State.keeps_fold] | split | (intro _ _ _)

theorem kept_execLpFlush {pq : List Instr} (s : State) (h_s : State.keeps pq s) :
    Answers pq (execLpFlush s) := by
  unfold execLpFlush
  apply answers_done
  try dsimp only
  repeat' with_reducible first
    | assumption | apply kept_State_lpCommand | apply kept_State_lpStore
    | simp only [State.keeps_mk, State.keeps_fold] | split | (intro _ _ _)

theorem kept_execLpTrim {pq : List Instr} (s : State) (h_s : State.keeps pq s) :
    Answers pq (execLpTrim s) := by
  unfold execLpTrim
  apply answers_done
  try dsimp only
  repeat' with_reducible first
    | assumption | apply kept_State_lpCommand | apply kept_State_lpStore
    | simp only [State.keeps_mk, State.keeps_fold] | split | (intro _ _ _)

theorem kept_execLpInquire {pq : List Instr} (s : State) (h_s : State.keeps pq s) :
    Answers pq (execLpInquire s) := by
  unfold execLpInquire
  apply answers_done
  try dsimp only
  repeat' with_reducible first
    | assumption | apply kept_State_lpCommand | apply kept_State_lpEnd | apply kept_State_lpSend
    | simp only [State.keeps_mk, State.keeps_fold] | split | (intro _ _ _)

theorem kept_execLpUnsupported {pq : List Instr} (s : State) (h_s : State.keeps pq s) :
    Answers pq (execLpUnsupported s) := by
  unfold execLpUnsupported
  apply answers_done
  try dsimp only
  repeat' with_reducible first
    | assumption | apply kept_State_lpCommand | apply kept_State_lpEnd | simp only [State.keeps_mk, State.keeps_fold]
    | split | (intro _ _ _)

theorem kept_execLpData {pq : List Instr} (s : State) (h_s : State.keeps pq s) :
    Answers pq (execLpData s) := by
  unfold execLpData
  apply answers_done
  try dsimp only
  repeat' with_reducible first
    | assumption | apply kept_State_lpTake | apply kept_State_lpDataFrame
    | simp only [State.keeps_mk, State.keeps_fold] | split | (intro _ _ _)

theorem kept_execLpAbort {pq : List Instr} (s : State) (h_s : State.keeps pq s) :
    Answers pq (execLpAbort s) := by
  unfold execLpAbort
  apply answers_done
  try dsimp only
  repeat' with_reducible first
    | assumption | apply kept_State_lpTake | apply kept_State_lpStop | apply kept_Lp_unsend | apply kept_State_lpSend
    | simp only [State.keeps_mk, State.keeps_fold, Lp.inForm_mk, Lp.inForm_fold] | split | apply And.intro
    | apply State.keeps.pending | apply State.keeps.sl (p := pq) | apply State.keeps.rl (p := pq)
    | apply State.keeps.se (p := pq) | apply State.keeps.sw (p := pq) | apply State.keeps.lp (p := pq)
    | apply State.keeps.fl (p := pq) | apply State.keeps.tiles (p := pq) | apply State.keeps.jd (p := pq)
    | exact Lp.inForm_reset | (intro _ _ _)

theorem kept_execLpPad {pq : List Instr} (s : State) (h_s : State.keeps pq s) :
    Answers pq (execLpPad s) := by
  unfold execLpPad
  apply answers_done
  try dsimp only
  repeat' with_reducible first
    | assumption | apply kept_State_lpTake | simp only [State.keeps_mk, State.keeps_fold] | split | (intro _ _ _)

theorem kept_execLpWindowLanded {pq : List Instr} (tag : Nat) (s : State) (h_s : State.keeps pq s) :
    Answers pq (execLpWindowLanded tag s) := by
  unfold execLpWindowLanded
  apply answers_done
  try dsimp only
  repeat' with_reducible first
    | assumption | apply kept_State_stage | apply kept_State_windowLands
    | simp only [State.keeps_mk, State.keeps_fold] | split

theorem kept_execLpXferTimeout {pq : List Instr} (tag : Nat) (s : State) (h_s : State.keeps pq s) :
    Answers pq (execLpXferTimeout tag s) := by
  unfold execLpXferTimeout
  apply answers_done
  try dsimp only
  repeat' with_reducible first
    | assumption | apply kept_State_lpViolation | apply kept_State_lpStop
    | simp only [State.keeps_mk, State.keeps_fold] | split

/-! ## Registers -/

theorem kept_execReg64LowRead {pq : List Instr} (a : BarAddr) (s : State) (h_s : State.keeps pq s) :
    Answers pq (execReg64LowRead a s) := by
  unfold execReg64LowRead
  apply answers_done
  try dsimp only
  repeat' with_reducible first
    | assumption | apply kept_Tile_put | simp only [State.keeps_mk, State.keeps_fold] | split

theorem kept_State_writeNvme {pq : List Instr} (s : State) (o : Nat) (v : W32) (h_s : State.keeps pq s) :
    State.keeps pq (State.writeNvme s o v) := by
  unfold State.writeNvme
  try dsimp only
  repeat' with_reducible first | assumption | simp only [State.keeps_mk, State.keeps_fold] | split

theorem kept_State_writeMc {pq : List Instr} (s : State) (o : Nat) (v : W32) (h_s : State.keeps pq s) :
    State.keeps pq (State.writeMc s o v) := by
  unfold State.writeMc
  try dsimp only
  repeat' with_reducible first | assumption | simp only [State.keeps_mk, State.keeps_fold] | split

theorem kept_State_writeFl {pq : List Instr} (s : State) (o : Nat) (v : W32) (h_s : State.keeps pq s) :
    State.keeps pq (State.writeFl s o v) := by
  unfold State.writeFl
  try dsimp only
  repeat' with_reducible first
    | assumption | simp only [State.keeps_mk, State.keeps_fold, Fl.inForm_mk, Fl.inForm_fold] | split

theorem kept_State_writeNs {pq : List Instr} (s : State) (o : Nat) (v : W32) (h_s : State.keeps pq s) :
    State.keeps pq (State.writeNs s o v) := by
  unfold State.writeNs
  try dsimp only
  repeat' with_reducible first
    | assumption | apply kept_State_onNsSq | simp only [State.keeps_mk, State.keeps_fold] | split

theorem kept_State_writeSl {pq : List Instr} (s : State) (o : Nat) (v : W32) (h_s : State.keeps pq s) :
    State.keeps pq (State.writeSl s o v) := by
  unfold State.writeSl
  try dsimp only
  repeat' with_reducible first
    | assumption | simp only [State.keeps_mk, State.keeps_fold, Sl.inForm_mk, Sl.inForm_fold] | split

theorem kept_Rl_write (r : Rl) (o : Nat) (v : W32) (h_r : Rl.inForm r) :
    Rl.inForm (Rl.write r o v) := by
  unfold Rl.write
  try dsimp only
  repeat' with_reducible first | assumption | simp only [Rl.inForm_mk, Rl.inForm_fold] | split

theorem kept_Jd_write (j : Jd) (o : Nat) (v : W32) (h_j : Jd.inForm j) :
    Jd.inForm (Jd.write j o v) := by
  unfold Jd.write
  try dsimp only
  repeat' with_reducible first | assumption | simp only [Jd.inForm_mk, Jd.inForm_fold] | split

theorem kept_Se_write (e : Se) (o : Nat) (v : W32) (h_e : Se.inForm e) :
    Se.inForm (Se.write e o v) := by
  unfold Se.write
  try dsimp only
  repeat' with_reducible first | assumption | simp only [Se.inForm_mk, Se.inForm_fold] | split

theorem kept_Sw_write (w : Sw) (o : Nat) (v : W32) (h_w : Sw.inForm w) :
    Sw.inForm (Sw.write w o v) := by
  unfold Sw.write
  try dsimp only
  repeat' with_reducible first | assumption | simp only [Sw.inForm_mk, Sw.inForm_fold] | split

theorem kept_State_writeEm {pq : List Instr} (s : State) (o : Nat) (v : W32) (h_s : State.keeps pq s) :
    State.keeps pq (State.writeEm s o v) := by
  unfold State.writeEm
  try dsimp only
  repeat' with_reducible first
    | assumption | apply kept_State_setTile | apply kept_State_tile | apply kept_Tile_put
    | simp only [State.keeps_mk, State.keeps_fold, Rl.inForm_mk, Rl.inForm_fold, Tile.inForm_mk, Tile.inForm_fold]
    | split

theorem kept_State_writeTile {pq : List Instr} (s : State) (n o : Nat) (v : W32) (h_s : State.keeps pq s) :
    State.keeps pq (State.writeTile s n o v) := by
  unfold State.writeTile
  try dsimp only
  repeat' with_reducible first
    | assumption | apply kept_State_tile | apply kept_State_setTile
    | simp only [State.keeps_mk, State.keeps_fold, Tile.inForm_mk, Tile.inForm_fold] | split

theorem kept_State_writeVendor {pq : List Instr} (s : State) (off : Nat) (v : W32) (h_s : State.keeps pq s) :
    State.keeps pq (State.writeVendor s off v) := by
  unfold State.writeVendor
  try dsimp only
  repeat' with_reducible first
    | assumption | apply kept_State_writeTile | apply kept_State_writeMc | apply kept_Rl_write | apply kept_Jd_write
    | apply kept_Se_write | apply kept_Sw_write | apply kept_State_writeFl | apply kept_State_writeNs
    | apply kept_State_writeSl | apply kept_State_writeEm
    | simp only [State.keeps_mk, State.keeps_fold, Rl.inForm_mk, Rl.inForm_fold, Se.inForm_mk, Se.inForm_fold, Sw.inForm_mk, Sw.inForm_fold, Tile.inForm_mk, Tile.inForm_fold, Jd.inForm_mk, Jd.inForm_fold]
    | split | apply And.intro | apply State.keeps.pending | apply State.keeps.sl (p := pq)
    | apply State.keeps.rl (p := pq) | apply State.keeps.se (p := pq) | apply State.keeps.sw (p := pq)
    | apply State.keeps.lp (p := pq) | apply State.keeps.fl (p := pq) | apply State.keeps.tiles (p := pq)
    | apply State.keeps.jd (p := pq)

theorem kept_Lp_write (l : Lp) (o : Nat) (v : W32) (h_l : Lp.inForm l) :
    Lp.inForm (Lp.write l o v) := by
  unfold Lp.write
  try dsimp only
  repeat' with_reducible first | assumption | simp only [Lp.inForm_mk, Lp.inForm_fold] | split

theorem kept_State_writeF1 {pq : List Instr} (s : State) (off : Nat) (data : List Byte) (h_s : State.keeps pq s) :
    State.keeps pq (State.writeF1 s off data) := by
  unfold State.writeF1
  try dsimp only
  repeat' with_reducible first
    | assumption | apply kept_Rl_write | apply kept_Jd_write | apply kept_Se_write | apply kept_Sw_write
    | apply kept_Lp_write
    | simp only [State.keeps_mk, State.keeps_fold, Rl.inForm_mk, Rl.inForm_fold, Se.inForm_mk, Se.inForm_fold, Sw.inForm_mk, Sw.inForm_fold, Lp.inForm_mk, Lp.inForm_fold, Jd.inForm_mk, Jd.inForm_fold]
    | split | apply And.intro | apply State.keeps.pending | apply State.keeps.sl (p := pq)
    | apply State.keeps.rl (p := pq) | apply State.keeps.se (p := pq) | apply State.keeps.sw (p := pq)
    | apply State.keeps.lp (p := pq) | apply State.keeps.fl (p := pq) | apply State.keeps.tiles (p := pq)
    | apply State.keeps.jd (p := pq) | apply Rl.inForm.near | apply Rl.inForm.far | exact Rl.inForm_reset
    | exact Se.inForm_reset | exact Lp.inForm_reset | exact Jd.inForm_reset | apply Jd.inForm.jobs | apply jobs_filter
    | apply jobs_succ | apply cellsWf_writeCells

theorem kept_State_writeF0 {pq : List Instr} (s : State) (off : Nat) (data : List Byte) (h_s : State.keeps pq s) :
    State.keeps pq (State.writeF0 s off data) := by
  unfold State.writeF0
  try dsimp only
  repeat' with_reducible first
    | assumption | apply kept_State_writeVendor | apply kept_State_writeNvme
    | simp only [State.keeps_mk, State.keeps_fold] | split

theorem kept_execRegisterWrite {pq : List Instr} (a : BarAddr) (data : List Byte) (s : State) (h_s : State.keeps pq
    s) :
    Answers pq (execRegisterWrite a data s) := by
  unfold execRegisterWrite
  apply answers_done
  try dsimp only
  repeat' with_reducible first
    | assumption | apply kept_State_writeF0 | apply kept_State_writeF1 | simp only [State.keeps_mk, State.keeps_fold]
    | split

end Sys2Proof.Machine
end

