-- ==== Sys2Proof/Laws/State.lean ====
section
/-! SUPPORT. What each named update of the state leaves unchanged: one lemma for each field of State. -/

namespace Sys2Proof.Machine

@[simp] theorem State.draw_pending (s : State) : s.draw.2.pending = s.pending := rfl
@[simp] theorem State.draw_latchHi (s : State) : s.draw.2.latchHi = s.latchHi := rfl
@[simp] theorem State.draw_busRead (s : State) : s.draw.2.busRead = s.busRead := rfl
@[simp] theorem State.draw_hostOut (s : State) : s.draw.2.hostOut = s.hostOut := rfl
@[simp] theorem State.draw_power (s : State) : s.draw.2.power = s.power := rfl
@[simp] theorem State.draw_mc (s : State) : s.draw.2.mc = s.mc := rfl
@[simp] theorem State.draw_pc (s : State) : s.draw.2.pc = s.pc := rfl
@[simp] theorem State.draw_fl (s : State) : s.draw.2.fl = s.fl := rfl
@[simp] theorem State.draw_qe (s : State) : s.draw.2.qe = s.qe := rfl
@[simp] theorem State.draw_sl (s : State) : s.draw.2.sl = s.sl := rfl
@[simp] theorem State.draw_rl (s : State) : s.draw.2.rl = s.rl := rfl
@[simp] theorem State.draw_mm (s : State) : s.draw.2.mm = s.mm := rfl
@[simp] theorem State.draw_jd (s : State) : s.draw.2.jd = s.jd := rfl
@[simp] theorem State.draw_idx (s : State) : s.draw.2.idx = s.idx := rfl
@[simp] theorem State.draw_tiles (s : State) : s.draw.2.tiles = s.tiles := rfl
@[simp] theorem State.draw_ns (s : State) : s.draw.2.ns = s.ns := rfl
@[simp] theorem State.draw_se (s : State) : s.draw.2.se = s.se := rfl
@[simp] theorem State.draw_sw (s : State) : s.draw.2.sw = s.sw := rfl
@[simp] theorem State.draw_lp (s : State) : s.draw.2.lp = s.lp := rfl

@[simp] theorem State.drawNat_pending (s : State) : s.drawNat.2.pending = s.pending := rfl
@[simp] theorem State.drawNat_latchHi (s : State) : s.drawNat.2.latchHi = s.latchHi := rfl
@[simp] theorem State.drawNat_busRead (s : State) : s.drawNat.2.busRead = s.busRead := rfl
@[simp] theorem State.drawNat_hostOut (s : State) : s.drawNat.2.hostOut = s.hostOut := rfl
@[simp] theorem State.drawNat_power (s : State) : s.drawNat.2.power = s.power := rfl
@[simp] theorem State.drawNat_mc (s : State) : s.drawNat.2.mc = s.mc := rfl
@[simp] theorem State.drawNat_pc (s : State) : s.drawNat.2.pc = s.pc := rfl
@[simp] theorem State.drawNat_fl (s : State) : s.drawNat.2.fl = s.fl := rfl
@[simp] theorem State.drawNat_qe (s : State) : s.drawNat.2.qe = s.qe := rfl
@[simp] theorem State.drawNat_sl (s : State) : s.drawNat.2.sl = s.sl := rfl
@[simp] theorem State.drawNat_rl (s : State) : s.drawNat.2.rl = s.rl := rfl
@[simp] theorem State.drawNat_mm (s : State) : s.drawNat.2.mm = s.mm := rfl
@[simp] theorem State.drawNat_jd (s : State) : s.drawNat.2.jd = s.jd := rfl
@[simp] theorem State.drawNat_idx (s : State) : s.drawNat.2.idx = s.idx := rfl
@[simp] theorem State.drawNat_tiles (s : State) : s.drawNat.2.tiles = s.tiles := rfl
@[simp] theorem State.drawNat_ns (s : State) : s.drawNat.2.ns = s.ns := rfl
@[simp] theorem State.drawNat_se (s : State) : s.drawNat.2.se = s.se := rfl
@[simp] theorem State.drawNat_sw (s : State) : s.drawNat.2.sw = s.sw := rfl
@[simp] theorem State.drawNat_lp (s : State) : s.drawNat.2.lp = s.lp := rfl

@[simp] theorem State.complete_pending (s : State) (c : CmdId) (st a b : Nat) (d : List (List Byte)) : (s.complete c st a b d).pending = s.pending := rfl
@[simp] theorem State.complete_tick (s : State) (c : CmdId) (st a b : Nat) (d : List (List Byte)) : (s.complete c st a b d).tick = s.tick := rfl
@[simp] theorem State.complete_latchHi (s : State) (c : CmdId) (st a b : Nat) (d : List (List Byte)) : (s.complete c st a b d).latchHi = s.latchHi := rfl
@[simp] theorem State.complete_busRead (s : State) (c : CmdId) (st a b : Nat) (d : List (List Byte)) : (s.complete c st a b d).busRead = s.busRead := rfl
@[simp] theorem State.complete_hostOut (s : State) (c : CmdId) (st a b : Nat) (d : List (List Byte)) : (s.complete c st a b d).hostOut = s.hostOut := rfl
@[simp] theorem State.complete_power (s : State) (c : CmdId) (st a b : Nat) (d : List (List Byte)) : (s.complete c st a b d).power = s.power := rfl
@[simp] theorem State.complete_mc (s : State) (c : CmdId) (st a b : Nat) (d : List (List Byte)) : (s.complete c st a b d).mc = s.mc := rfl
@[simp] theorem State.complete_pc (s : State) (c : CmdId) (st a b : Nat) (d : List (List Byte)) : (s.complete c st a b d).pc = s.pc := rfl
@[simp] theorem State.complete_fl (s : State) (c : CmdId) (st a b : Nat) (d : List (List Byte)) : (s.complete c st a b d).fl = s.fl := rfl
@[simp] theorem State.complete_sl (s : State) (c : CmdId) (st a b : Nat) (d : List (List Byte)) : (s.complete c st a b d).sl = s.sl := rfl
@[simp] theorem State.complete_rl (s : State) (c : CmdId) (st a b : Nat) (d : List (List Byte)) : (s.complete c st a b d).rl = s.rl := rfl
@[simp] theorem State.complete_mm (s : State) (c : CmdId) (st a b : Nat) (d : List (List Byte)) : (s.complete c st a b d).mm = s.mm := rfl
@[simp] theorem State.complete_jd (s : State) (c : CmdId) (st a b : Nat) (d : List (List Byte)) : (s.complete c st a b d).jd = s.jd := rfl
@[simp] theorem State.complete_idx (s : State) (c : CmdId) (st a b : Nat) (d : List (List Byte)) : (s.complete c st a b d).idx = s.idx := rfl
@[simp] theorem State.complete_tiles (s : State) (c : CmdId) (st a b : Nat) (d : List (List Byte)) : (s.complete c st a b d).tiles = s.tiles := rfl
@[simp] theorem State.complete_ns (s : State) (c : CmdId) (st a b : Nat) (d : List (List Byte)) : (s.complete c st a b d).ns = s.ns := rfl
@[simp] theorem State.complete_se (s : State) (c : CmdId) (st a b : Nat) (d : List (List Byte)) : (s.complete c st a b d).se = s.se := rfl
@[simp] theorem State.complete_sw (s : State) (c : CmdId) (st a b : Nat) (d : List (List Byte)) : (s.complete c st a b d).sw = s.sw := rfl
@[simp] theorem State.complete_lp (s : State) (c : CmdId) (st a b : Nat) (d : List (List Byte)) : (s.complete c st a b d).lp = s.lp := rfl

@[simp] theorem State.fetch_pending (s : State) (c : CmdId) : (s.fetch c).pending = s.pending := rfl
@[simp] theorem State.fetch_tick (s : State) (c : CmdId) : (s.fetch c).tick = s.tick := rfl
@[simp] theorem State.fetch_latchHi (s : State) (c : CmdId) : (s.fetch c).latchHi = s.latchHi := rfl
@[simp] theorem State.fetch_busRead (s : State) (c : CmdId) : (s.fetch c).busRead = s.busRead := rfl
@[simp] theorem State.fetch_hostOut (s : State) (c : CmdId) : (s.fetch c).hostOut = s.hostOut := rfl
@[simp] theorem State.fetch_power (s : State) (c : CmdId) : (s.fetch c).power = s.power := rfl
@[simp] theorem State.fetch_mc (s : State) (c : CmdId) : (s.fetch c).mc = s.mc := rfl
@[simp] theorem State.fetch_pc (s : State) (c : CmdId) : (s.fetch c).pc = s.pc := rfl
@[simp] theorem State.fetch_fl (s : State) (c : CmdId) : (s.fetch c).fl = s.fl := rfl
@[simp] theorem State.fetch_sl (s : State) (c : CmdId) : (s.fetch c).sl = s.sl := rfl
@[simp] theorem State.fetch_rl (s : State) (c : CmdId) : (s.fetch c).rl = s.rl := rfl
@[simp] theorem State.fetch_mm (s : State) (c : CmdId) : (s.fetch c).mm = s.mm := rfl
@[simp] theorem State.fetch_jd (s : State) (c : CmdId) : (s.fetch c).jd = s.jd := rfl
@[simp] theorem State.fetch_idx (s : State) (c : CmdId) : (s.fetch c).idx = s.idx := rfl
@[simp] theorem State.fetch_tiles (s : State) (c : CmdId) : (s.fetch c).tiles = s.tiles := rfl
@[simp] theorem State.fetch_ns (s : State) (c : CmdId) : (s.fetch c).ns = s.ns := rfl
@[simp] theorem State.fetch_se (s : State) (c : CmdId) : (s.fetch c).se = s.se := rfl
@[simp] theorem State.fetch_sw (s : State) (c : CmdId) : (s.fetch c).sw = s.sw := rfl
@[simp] theorem State.fetch_lp (s : State) (c : CmdId) : (s.fetch c).lp = s.lp := rfl

@[simp] theorem State.setTile_pending (s : State) (n : Nat) (t : Tile) : (s.setTile n t).pending = s.pending := rfl
@[simp] theorem State.setTile_tick (s : State) (n : Nat) (t : Tile) : (s.setTile n t).tick = s.tick := rfl
@[simp] theorem State.setTile_latchHi (s : State) (n : Nat) (t : Tile) : (s.setTile n t).latchHi = s.latchHi := rfl
@[simp] theorem State.setTile_busRead (s : State) (n : Nat) (t : Tile) : (s.setTile n t).busRead = s.busRead := rfl
@[simp] theorem State.setTile_hostOut (s : State) (n : Nat) (t : Tile) : (s.setTile n t).hostOut = s.hostOut := rfl
@[simp] theorem State.setTile_power (s : State) (n : Nat) (t : Tile) : (s.setTile n t).power = s.power := rfl
@[simp] theorem State.setTile_mc (s : State) (n : Nat) (t : Tile) : (s.setTile n t).mc = s.mc := rfl
@[simp] theorem State.setTile_pc (s : State) (n : Nat) (t : Tile) : (s.setTile n t).pc = s.pc := rfl
@[simp] theorem State.setTile_fl (s : State) (n : Nat) (t : Tile) : (s.setTile n t).fl = s.fl := rfl
@[simp] theorem State.setTile_qe (s : State) (n : Nat) (t : Tile) : (s.setTile n t).qe = s.qe := rfl
@[simp] theorem State.setTile_sl (s : State) (n : Nat) (t : Tile) : (s.setTile n t).sl = s.sl := rfl
@[simp] theorem State.setTile_rl (s : State) (n : Nat) (t : Tile) : (s.setTile n t).rl = s.rl := rfl
@[simp] theorem State.setTile_mm (s : State) (n : Nat) (t : Tile) : (s.setTile n t).mm = s.mm := rfl
@[simp] theorem State.setTile_jd (s : State) (n : Nat) (t : Tile) : (s.setTile n t).jd = s.jd := rfl
@[simp] theorem State.setTile_idx (s : State) (n : Nat) (t : Tile) : (s.setTile n t).idx = s.idx := rfl
@[simp] theorem State.setTile_ns (s : State) (n : Nat) (t : Tile) : (s.setTile n t).ns = s.ns := rfl
@[simp] theorem State.setTile_se (s : State) (n : Nat) (t : Tile) : (s.setTile n t).se = s.se := rfl
@[simp] theorem State.setTile_sw (s : State) (n : Nat) (t : Tile) : (s.setTile n t).sw = s.sw := rfl
@[simp] theorem State.setTile_lp (s : State) (n : Nat) (t : Tile) : (s.setTile n t).lp = s.lp := rfl

@[simp] theorem State.onSquad_pending (s : State) (n : Nat) (f : Squad → Squad) : (s.onSquad n f).pending = s.pending := rfl
@[simp] theorem State.onSquad_tick (s : State) (n : Nat) (f : Squad → Squad) : (s.onSquad n f).tick = s.tick := rfl
@[simp] theorem State.onSquad_latchHi (s : State) (n : Nat) (f : Squad → Squad) : (s.onSquad n f).latchHi = s.latchHi := rfl
@[simp] theorem State.onSquad_busRead (s : State) (n : Nat) (f : Squad → Squad) : (s.onSquad n f).busRead = s.busRead := rfl
@[simp] theorem State.onSquad_hostOut (s : State) (n : Nat) (f : Squad → Squad) : (s.onSquad n f).hostOut = s.hostOut := rfl
@[simp] theorem State.onSquad_power (s : State) (n : Nat) (f : Squad → Squad) : (s.onSquad n f).power = s.power := rfl
@[simp] theorem State.onSquad_mc (s : State) (n : Nat) (f : Squad → Squad) : (s.onSquad n f).mc = s.mc := rfl
@[simp] theorem State.onSquad_pc (s : State) (n : Nat) (f : Squad → Squad) : (s.onSquad n f).pc = s.pc := rfl
@[simp] theorem State.onSquad_fl (s : State) (n : Nat) (f : Squad → Squad) : (s.onSquad n f).fl = s.fl := rfl
@[simp] theorem State.onSquad_qe (s : State) (n : Nat) (f : Squad → Squad) : (s.onSquad n f).qe = s.qe := rfl
@[simp] theorem State.onSquad_rl (s : State) (n : Nat) (f : Squad → Squad) : (s.onSquad n f).rl = s.rl := rfl
@[simp] theorem State.onSquad_mm (s : State) (n : Nat) (f : Squad → Squad) : (s.onSquad n f).mm = s.mm := rfl
@[simp] theorem State.onSquad_jd (s : State) (n : Nat) (f : Squad → Squad) : (s.onSquad n f).jd = s.jd := rfl
@[simp] theorem State.onSquad_idx (s : State) (n : Nat) (f : Squad → Squad) : (s.onSquad n f).idx = s.idx := rfl
@[simp] theorem State.onSquad_tiles (s : State) (n : Nat) (f : Squad → Squad) : (s.onSquad n f).tiles = s.tiles := rfl
@[simp] theorem State.onSquad_ns (s : State) (n : Nat) (f : Squad → Squad) : (s.onSquad n f).ns = s.ns := rfl
@[simp] theorem State.onSquad_se (s : State) (n : Nat) (f : Squad → Squad) : (s.onSquad n f).se = s.se := rfl
@[simp] theorem State.onSquad_sw (s : State) (n : Nat) (f : Squad → Squad) : (s.onSquad n f).sw = s.sw := rfl
@[simp] theorem State.onSquad_lp (s : State) (n : Nat) (f : Squad → Squad) : (s.onSquad n f).lp = s.lp := rfl

@[simp] theorem State.nearWrite_pending (s : State) (a : Nat) (d : List Byte) : (s.nearWrite a d).pending = s.pending := rfl
@[simp] theorem State.nearWrite_tick (s : State) (a : Nat) (d : List Byte) : (s.nearWrite a d).tick = s.tick := rfl
@[simp] theorem State.nearWrite_latchHi (s : State) (a : Nat) (d : List Byte) : (s.nearWrite a d).latchHi = s.latchHi := rfl
@[simp] theorem State.nearWrite_busRead (s : State) (a : Nat) (d : List Byte) : (s.nearWrite a d).busRead = s.busRead := rfl
@[simp] theorem State.nearWrite_hostOut (s : State) (a : Nat) (d : List Byte) : (s.nearWrite a d).hostOut = s.hostOut := rfl
@[simp] theorem State.nearWrite_power (s : State) (a : Nat) (d : List Byte) : (s.nearWrite a d).power = s.power := rfl
@[simp] theorem State.nearWrite_mc (s : State) (a : Nat) (d : List Byte) : (s.nearWrite a d).mc = s.mc := rfl
@[simp] theorem State.nearWrite_pc (s : State) (a : Nat) (d : List Byte) : (s.nearWrite a d).pc = s.pc := rfl
@[simp] theorem State.nearWrite_fl (s : State) (a : Nat) (d : List Byte) : (s.nearWrite a d).fl = s.fl := rfl
@[simp] theorem State.nearWrite_qe (s : State) (a : Nat) (d : List Byte) : (s.nearWrite a d).qe = s.qe := rfl
@[simp] theorem State.nearWrite_sl (s : State) (a : Nat) (d : List Byte) : (s.nearWrite a d).sl = s.sl := rfl
@[simp] theorem State.nearWrite_mm (s : State) (a : Nat) (d : List Byte) : (s.nearWrite a d).mm = s.mm := rfl
@[simp] theorem State.nearWrite_jd (s : State) (a : Nat) (d : List Byte) : (s.nearWrite a d).jd = s.jd := rfl
@[simp] theorem State.nearWrite_idx (s : State) (a : Nat) (d : List Byte) : (s.nearWrite a d).idx = s.idx := rfl
@[simp] theorem State.nearWrite_tiles (s : State) (a : Nat) (d : List Byte) : (s.nearWrite a d).tiles = s.tiles := rfl
@[simp] theorem State.nearWrite_ns (s : State) (a : Nat) (d : List Byte) : (s.nearWrite a d).ns = s.ns := rfl
@[simp] theorem State.nearWrite_se (s : State) (a : Nat) (d : List Byte) : (s.nearWrite a d).se = s.se := rfl
@[simp] theorem State.nearWrite_sw (s : State) (a : Nat) (d : List Byte) : (s.nearWrite a d).sw = s.sw := rfl
@[simp] theorem State.nearWrite_lp (s : State) (a : Nat) (d : List Byte) : (s.nearWrite a d).lp = s.lp := rfl

@[simp] theorem State.hostWrite_pending (s : State) (a : Nat) (d : List Byte) : (s.hostWrite a d).pending = s.pending := rfl
@[simp] theorem State.hostWrite_tick (s : State) (a : Nat) (d : List Byte) : (s.hostWrite a d).tick = s.tick := rfl
@[simp] theorem State.hostWrite_latchHi (s : State) (a : Nat) (d : List Byte) : (s.hostWrite a d).latchHi = s.latchHi := rfl
@[simp] theorem State.hostWrite_busRead (s : State) (a : Nat) (d : List Byte) : (s.hostWrite a d).busRead = s.busRead := rfl
@[simp] theorem State.hostWrite_power (s : State) (a : Nat) (d : List Byte) : (s.hostWrite a d).power = s.power := rfl
@[simp] theorem State.hostWrite_mc (s : State) (a : Nat) (d : List Byte) : (s.hostWrite a d).mc = s.mc := rfl
@[simp] theorem State.hostWrite_pc (s : State) (a : Nat) (d : List Byte) : (s.hostWrite a d).pc = s.pc := rfl
@[simp] theorem State.hostWrite_fl (s : State) (a : Nat) (d : List Byte) : (s.hostWrite a d).fl = s.fl := rfl
@[simp] theorem State.hostWrite_qe (s : State) (a : Nat) (d : List Byte) : (s.hostWrite a d).qe = s.qe := rfl
@[simp] theorem State.hostWrite_sl (s : State) (a : Nat) (d : List Byte) : (s.hostWrite a d).sl = s.sl := rfl
@[simp] theorem State.hostWrite_rl (s : State) (a : Nat) (d : List Byte) : (s.hostWrite a d).rl = s.rl := rfl
@[simp] theorem State.hostWrite_mm (s : State) (a : Nat) (d : List Byte) : (s.hostWrite a d).mm = s.mm := rfl
@[simp] theorem State.hostWrite_jd (s : State) (a : Nat) (d : List Byte) : (s.hostWrite a d).jd = s.jd := rfl
@[simp] theorem State.hostWrite_idx (s : State) (a : Nat) (d : List Byte) : (s.hostWrite a d).idx = s.idx := rfl
@[simp] theorem State.hostWrite_tiles (s : State) (a : Nat) (d : List Byte) : (s.hostWrite a d).tiles = s.tiles := rfl
@[simp] theorem State.hostWrite_ns (s : State) (a : Nat) (d : List Byte) : (s.hostWrite a d).ns = s.ns := rfl
@[simp] theorem State.hostWrite_se (s : State) (a : Nat) (d : List Byte) : (s.hostWrite a d).se = s.se := rfl
@[simp] theorem State.hostWrite_sw (s : State) (a : Nat) (d : List Byte) : (s.hostWrite a d).sw = s.sw := rfl
@[simp] theorem State.hostWrite_lp (s : State) (a : Nat) (d : List Byte) : (s.hostWrite a d).lp = s.lp := rfl

@[simp] theorem State.alert_pending (s : State) : s.alert.pending = s.pending := by
  unfold State.alert
  simp only []
  split <;> rfl
@[simp] theorem State.alert_tick (s : State) : s.alert.tick = s.tick := by
  unfold State.alert
  simp only []
  split <;> rfl
@[simp] theorem State.alert_latchHi (s : State) : s.alert.latchHi = s.latchHi := by
  unfold State.alert
  simp only []
  split <;> rfl
@[simp] theorem State.alert_busRead (s : State) : s.alert.busRead = s.busRead := by
  unfold State.alert
  simp only []
  split <;> rfl
@[simp] theorem State.alert_hostOut (s : State) : s.alert.hostOut = s.hostOut := by
  unfold State.alert
  simp only []
  split <;> rfl
@[simp] theorem State.alert_mc (s : State) : s.alert.mc = s.mc := by
  unfold State.alert
  simp only []
  split <;> rfl
@[simp] theorem State.alert_pc (s : State) : s.alert.pc = s.pc := by
  unfold State.alert
  simp only []
  split <;> rfl
@[simp] theorem State.alert_fl (s : State) : s.alert.fl = s.fl := by
  unfold State.alert
  simp only []
  split <;> rfl
@[simp] theorem State.alert_qe (s : State) : s.alert.qe = s.qe := by
  unfold State.alert
  simp only []
  split <;> rfl
@[simp] theorem State.alert_sl (s : State) : s.alert.sl = s.sl := by
  unfold State.alert
  simp only []
  split <;> rfl
@[simp] theorem State.alert_rl (s : State) : s.alert.rl = s.rl := by
  unfold State.alert
  simp only []
  split <;> rfl
@[simp] theorem State.alert_mm (s : State) : s.alert.mm = s.mm := by
  unfold State.alert
  simp only []
  split <;> rfl
@[simp] theorem State.alert_jd (s : State) : s.alert.jd = s.jd := by
  unfold State.alert
  simp only []
  split <;> rfl
@[simp] theorem State.alert_idx (s : State) : s.alert.idx = s.idx := by
  unfold State.alert
  simp only []
  split <;> rfl
@[simp] theorem State.alert_tiles (s : State) : s.alert.tiles = s.tiles := by
  unfold State.alert
  simp only []
  split <;> rfl
@[simp] theorem State.alert_ns (s : State) : s.alert.ns = s.ns := by
  unfold State.alert
  simp only []
  split <;> rfl
@[simp] theorem State.alert_se (s : State) : s.alert.se = s.se := by
  unfold State.alert
  simp only []
  split <;> rfl
@[simp] theorem State.alert_sw (s : State) : s.alert.sw = s.sw := by
  unfold State.alert
  simp only []
  split <;> rfl
@[simp] theorem State.alert_lp (s : State) : s.alert.lp = s.lp := by
  unfold State.alert
  simp only []
  split <;> rfl

@[simp] theorem State.writeRecord_pending (s : State) (r : Record) : (s.writeRecord r).pending = s.pending := by
  unfold State.writeRecord
  simp only []
  repeat' split
  all_goals rfl
@[simp] theorem State.writeRecord_tick (s : State) (r : Record) : (s.writeRecord r).tick = s.tick := by
  unfold State.writeRecord
  simp only []
  repeat' split
  all_goals rfl
@[simp] theorem State.writeRecord_latchHi (s : State) (r : Record) : (s.writeRecord r).latchHi = s.latchHi := by
  unfold State.writeRecord
  simp only []
  repeat' split
  all_goals rfl
@[simp] theorem State.writeRecord_busRead (s : State) (r : Record) : (s.writeRecord r).busRead = s.busRead := by
  unfold State.writeRecord
  simp only []
  repeat' split
  all_goals rfl
@[simp] theorem State.writeRecord_hostOut (s : State) (r : Record) : (s.writeRecord r).hostOut = s.hostOut := by
  unfold State.writeRecord
  simp only []
  repeat' split
  all_goals rfl
@[simp] theorem State.writeRecord_power (s : State) (r : Record) : (s.writeRecord r).power = s.power := by
  unfold State.writeRecord
  simp only []
  repeat' split
  all_goals rfl
@[simp] theorem State.writeRecord_pc (s : State) (r : Record) : (s.writeRecord r).pc = s.pc := by
  unfold State.writeRecord
  simp only []
  repeat' split
  all_goals rfl
@[simp] theorem State.writeRecord_qe (s : State) (r : Record) : (s.writeRecord r).qe = s.qe := by
  unfold State.writeRecord
  simp only []
  repeat' split
  all_goals rfl
@[simp] theorem State.writeRecord_sl (s : State) (r : Record) : (s.writeRecord r).sl = s.sl := by
  unfold State.writeRecord
  simp only []
  repeat' split
  all_goals rfl
@[simp] theorem State.writeRecord_rl (s : State) (r : Record) : (s.writeRecord r).rl = s.rl := by
  unfold State.writeRecord
  simp only []
  repeat' split
  all_goals rfl
@[simp] theorem State.writeRecord_mm (s : State) (r : Record) : (s.writeRecord r).mm = s.mm := by
  unfold State.writeRecord
  simp only []
  repeat' split
  all_goals rfl
@[simp] theorem State.writeRecord_jd (s : State) (r : Record) : (s.writeRecord r).jd = s.jd := by
  unfold State.writeRecord
  simp only []
  repeat' split
  all_goals rfl
@[simp] theorem State.writeRecord_idx (s : State) (r : Record) : (s.writeRecord r).idx = s.idx := by
  unfold State.writeRecord
  simp only []
  repeat' split
  all_goals rfl
@[simp] theorem State.writeRecord_tiles (s : State) (r : Record) : (s.writeRecord r).tiles = s.tiles := by
  unfold State.writeRecord
  simp only []
  repeat' split
  all_goals rfl
@[simp] theorem State.writeRecord_ns (s : State) (r : Record) : (s.writeRecord r).ns = s.ns := by
  unfold State.writeRecord
  simp only []
  repeat' split
  all_goals rfl
@[simp] theorem State.writeRecord_se (s : State) (r : Record) : (s.writeRecord r).se = s.se := by
  unfold State.writeRecord
  simp only []
  repeat' split
  all_goals rfl
@[simp] theorem State.writeRecord_sw (s : State) (r : Record) : (s.writeRecord r).sw = s.sw := by
  unfold State.writeRecord
  simp only []
  repeat' split
  all_goals rfl
@[simp] theorem State.writeRecord_lp (s : State) (r : Record) : (s.writeRecord r).lp = s.lp := by
  unfold State.writeRecord
  simp only []
  repeat' split
  all_goals rfl

@[simp] theorem State.post_pending (s : State) (a b c : Nat) (x : W64) (p q r w : W32) : (s.post a b c x p q r w).pending = s.pending := by
  unfold State.post
  simp only []
  split <;> simp
@[simp] theorem State.post_tick (s : State) (a b c : Nat) (x : W64) (p q r w : W32) : (s.post a b c x p q r w).tick = s.tick := by
  unfold State.post
  simp only []
  split <;> simp
@[simp] theorem State.post_latchHi (s : State) (a b c : Nat) (x : W64) (p q r w : W32) : (s.post a b c x p q r w).latchHi = s.latchHi := by
  unfold State.post
  simp only []
  split <;> simp
@[simp] theorem State.post_busRead (s : State) (a b c : Nat) (x : W64) (p q r w : W32) : (s.post a b c x p q r w).busRead = s.busRead := by
  unfold State.post
  simp only []
  split <;> simp
@[simp] theorem State.post_hostOut (s : State) (a b c : Nat) (x : W64) (p q r w : W32) : (s.post a b c x p q r w).hostOut = s.hostOut := by
  unfold State.post
  simp only []
  split <;> simp
@[simp] theorem State.post_power (s : State) (a b c : Nat) (x : W64) (p q r w : W32) : (s.post a b c x p q r w).power = s.power := by
  unfold State.post
  simp only []
  split <;> simp
@[simp] theorem State.post_pc (s : State) (a b c : Nat) (x : W64) (p q r w : W32) : (s.post a b c x p q r w).pc = s.pc := by
  unfold State.post
  simp only []
  split <;> simp
@[simp] theorem State.post_sl (s : State) (a b c : Nat) (x : W64) (p q r w : W32) : (s.post a b c x p q r w).sl = s.sl := by
  unfold State.post
  simp only []
  split <;> simp
@[simp] theorem State.post_rl (s : State) (a b c : Nat) (x : W64) (p q r w : W32) : (s.post a b c x p q r w).rl = s.rl := by
  unfold State.post
  simp only []
  split <;> simp
@[simp] theorem State.post_mm (s : State) (a b c : Nat) (x : W64) (p q r w : W32) : (s.post a b c x p q r w).mm = s.mm := by
  unfold State.post
  simp only []
  split <;> simp
@[simp] theorem State.post_jd (s : State) (a b c : Nat) (x : W64) (p q r w : W32) : (s.post a b c x p q r w).jd = s.jd := by
  unfold State.post
  simp only []
  split <;> simp
@[simp] theorem State.post_idx (s : State) (a b c : Nat) (x : W64) (p q r w : W32) : (s.post a b c x p q r w).idx = s.idx := by
  unfold State.post
  simp only []
  split <;> simp
@[simp] theorem State.post_tiles (s : State) (a b c : Nat) (x : W64) (p q r w : W32) : (s.post a b c x p q r w).tiles = s.tiles := by
  unfold State.post
  simp only []
  split <;> simp
@[simp] theorem State.post_ns (s : State) (a b c : Nat) (x : W64) (p q r w : W32) : (s.post a b c x p q r w).ns = s.ns := by
  unfold State.post
  simp only []
  split <;> simp
@[simp] theorem State.post_se (s : State) (a b c : Nat) (x : W64) (p q r w : W32) : (s.post a b c x p q r w).se = s.se := by
  unfold State.post
  simp only []
  split <;> simp
@[simp] theorem State.post_sw (s : State) (a b c : Nat) (x : W64) (p q r w : W32) : (s.post a b c x p q r w).sw = s.sw := by
  unfold State.post
  simp only []
  split <;> simp
@[simp] theorem State.post_lp (s : State) (a b c : Nat) (x : W64) (p q r w : W32) : (s.post a b c x p q r w).lp = s.lp := by
  unfold State.post
  simp only []
  split <;> simp

@[simp] theorem State.postCorr_pending (s : State) (a b : Nat) (x : W64) (p q r w : W32) : (s.postCorr a b x p q r w).pending = s.pending := by simp [State.postCorr]
@[simp] theorem State.postCorr_tick (s : State) (a b : Nat) (x : W64) (p q r w : W32) : (s.postCorr a b x p q r w).tick = s.tick := by simp [State.postCorr]
@[simp] theorem State.postCorr_latchHi (s : State) (a b : Nat) (x : W64) (p q r w : W32) : (s.postCorr a b x p q r w).latchHi = s.latchHi := by simp [State.postCorr]
@[simp] theorem State.postCorr_busRead (s : State) (a b : Nat) (x : W64) (p q r w : W32) : (s.postCorr a b x p q r w).busRead = s.busRead := by simp [State.postCorr]
@[simp] theorem State.postCorr_hostOut (s : State) (a b : Nat) (x : W64) (p q r w : W32) : (s.postCorr a b x p q r w).hostOut = s.hostOut := by simp [State.postCorr]
@[simp] theorem State.postCorr_power (s : State) (a b : Nat) (x : W64) (p q r w : W32) : (s.postCorr a b x p q r w).power = s.power := by simp [State.postCorr]
@[simp] theorem State.postCorr_pc (s : State) (a b : Nat) (x : W64) (p q r w : W32) : (s.postCorr a b x p q r w).pc = s.pc := by simp [State.postCorr]
@[simp] theorem State.postCorr_sl (s : State) (a b : Nat) (x : W64) (p q r w : W32) : (s.postCorr a b x p q r w).sl = s.sl := by simp [State.postCorr]
@[simp] theorem State.postCorr_rl (s : State) (a b : Nat) (x : W64) (p q r w : W32) : (s.postCorr a b x p q r w).rl = s.rl := by simp [State.postCorr]
@[simp] theorem State.postCorr_mm (s : State) (a b : Nat) (x : W64) (p q r w : W32) : (s.postCorr a b x p q r w).mm = s.mm := by simp [State.postCorr]
@[simp] theorem State.postCorr_jd (s : State) (a b : Nat) (x : W64) (p q r w : W32) : (s.postCorr a b x p q r w).jd = s.jd := by simp [State.postCorr]
@[simp] theorem State.postCorr_idx (s : State) (a b : Nat) (x : W64) (p q r w : W32) : (s.postCorr a b x p q r w).idx = s.idx := by simp [State.postCorr]
@[simp] theorem State.postCorr_tiles (s : State) (a b : Nat) (x : W64) (p q r w : W32) : (s.postCorr a b x p q r w).tiles = s.tiles := by simp [State.postCorr]
@[simp] theorem State.postCorr_ns (s : State) (a b : Nat) (x : W64) (p q r w : W32) : (s.postCorr a b x p q r w).ns = s.ns := by simp [State.postCorr]
@[simp] theorem State.postCorr_se (s : State) (a b : Nat) (x : W64) (p q r w : W32) : (s.postCorr a b x p q r w).se = s.se := by simp [State.postCorr]
@[simp] theorem State.postCorr_sw (s : State) (a b : Nat) (x : W64) (p q r w : W32) : (s.postCorr a b x p q r w).sw = s.sw := by simp [State.postCorr]
@[simp] theorem State.postCorr_lp (s : State) (a b : Nat) (x : W64) (p q r w : W32) : (s.postCorr a b x p q r w).lp = s.lp := by simp [State.postCorr]

@[simp] theorem State.postOnce_pending (s : State) (a b c : Nat) (x : W64) (p q r w : W32) : (s.postOnce a b c x p q r w).pending = s.pending := by
  unfold State.postOnce
  split <;> simp
@[simp] theorem State.postOnce_tick (s : State) (a b c : Nat) (x : W64) (p q r w : W32) : (s.postOnce a b c x p q r w).tick = s.tick := by
  unfold State.postOnce
  split <;> simp
@[simp] theorem State.postOnce_latchHi (s : State) (a b c : Nat) (x : W64) (p q r w : W32) : (s.postOnce a b c x p q r w).latchHi = s.latchHi := by
  unfold State.postOnce
  split <;> simp
@[simp] theorem State.postOnce_busRead (s : State) (a b c : Nat) (x : W64) (p q r w : W32) : (s.postOnce a b c x p q r w).busRead = s.busRead := by
  unfold State.postOnce
  split <;> simp
@[simp] theorem State.postOnce_hostOut (s : State) (a b c : Nat) (x : W64) (p q r w : W32) : (s.postOnce a b c x p q r w).hostOut = s.hostOut := by
  unfold State.postOnce
  split <;> simp
@[simp] theorem State.postOnce_power (s : State) (a b c : Nat) (x : W64) (p q r w : W32) : (s.postOnce a b c x p q r w).power = s.power := by
  unfold State.postOnce
  split <;> simp
@[simp] theorem State.postOnce_pc (s : State) (a b c : Nat) (x : W64) (p q r w : W32) : (s.postOnce a b c x p q r w).pc = s.pc := by
  unfold State.postOnce
  split <;> simp
@[simp] theorem State.postOnce_sl (s : State) (a b c : Nat) (x : W64) (p q r w : W32) : (s.postOnce a b c x p q r w).sl = s.sl := by
  unfold State.postOnce
  split <;> simp
@[simp] theorem State.postOnce_rl (s : State) (a b c : Nat) (x : W64) (p q r w : W32) : (s.postOnce a b c x p q r w).rl = s.rl := by
  unfold State.postOnce
  split <;> simp
@[simp] theorem State.postOnce_mm (s : State) (a b c : Nat) (x : W64) (p q r w : W32) : (s.postOnce a b c x p q r w).mm = s.mm := by
  unfold State.postOnce
  split <;> simp
@[simp] theorem State.postOnce_jd (s : State) (a b c : Nat) (x : W64) (p q r w : W32) : (s.postOnce a b c x p q r w).jd = s.jd := by
  unfold State.postOnce
  split <;> simp
@[simp] theorem State.postOnce_idx (s : State) (a b c : Nat) (x : W64) (p q r w : W32) : (s.postOnce a b c x p q r w).idx = s.idx := by
  unfold State.postOnce
  split <;> simp
@[simp] theorem State.postOnce_tiles (s : State) (a b c : Nat) (x : W64) (p q r w : W32) : (s.postOnce a b c x p q r w).tiles = s.tiles := by
  unfold State.postOnce
  split <;> simp
@[simp] theorem State.postOnce_ns (s : State) (a b c : Nat) (x : W64) (p q r w : W32) : (s.postOnce a b c x p q r w).ns = s.ns := by
  unfold State.postOnce
  split <;> simp
@[simp] theorem State.postOnce_se (s : State) (a b c : Nat) (x : W64) (p q r w : W32) : (s.postOnce a b c x p q r w).se = s.se := by
  unfold State.postOnce
  split <;> simp
@[simp] theorem State.postOnce_sw (s : State) (a b c : Nat) (x : W64) (p q r w : W32) : (s.postOnce a b c x p q r w).sw = s.sw := by
  unfold State.postOnce
  split <;> simp
@[simp] theorem State.postOnce_lp (s : State) (a b c : Nat) (x : W64) (p q r w : W32) : (s.postOnce a b c x p q r w).lp = s.lp := by
  unfold State.postOnce
  split <;> simp

@[simp] theorem State.swProgram_pending (s : State) (a : Nat) (l : List Byte) : (s.swProgram a l).pending = s.pending := by
  unfold State.swProgram
  rfl
@[simp] theorem State.swProgram_latchHi (s : State) (a : Nat) (l : List Byte) : (s.swProgram a l).latchHi = s.latchHi := by
  unfold State.swProgram
  rfl
@[simp] theorem State.swProgram_busRead (s : State) (a : Nat) (l : List Byte) : (s.swProgram a l).busRead = s.busRead := by
  unfold State.swProgram
  rfl
@[simp] theorem State.swProgram_hostOut (s : State) (a : Nat) (l : List Byte) : (s.swProgram a l).hostOut = s.hostOut := by
  unfold State.swProgram
  rfl
@[simp] theorem State.swProgram_power (s : State) (a : Nat) (l : List Byte) : (s.swProgram a l).power = s.power := by
  unfold State.swProgram
  rfl
@[simp] theorem State.swProgram_mc (s : State) (a : Nat) (l : List Byte) : (s.swProgram a l).mc = s.mc := by
  unfold State.swProgram
  rfl
@[simp] theorem State.swProgram_pc (s : State) (a : Nat) (l : List Byte) : (s.swProgram a l).pc = s.pc := by
  unfold State.swProgram
  rfl
@[simp] theorem State.swProgram_fl (s : State) (a : Nat) (l : List Byte) : (s.swProgram a l).fl = s.fl := by
  unfold State.swProgram
  rfl
@[simp] theorem State.swProgram_qe (s : State) (a : Nat) (l : List Byte) : (s.swProgram a l).qe = s.qe := by
  unfold State.swProgram
  rfl
@[simp] theorem State.swProgram_sl (s : State) (a : Nat) (l : List Byte) : (s.swProgram a l).sl = s.sl := by
  unfold State.swProgram
  rfl
@[simp] theorem State.swProgram_rl (s : State) (a : Nat) (l : List Byte) : (s.swProgram a l).rl = s.rl := by
  unfold State.swProgram
  rfl
@[simp] theorem State.swProgram_mm (s : State) (a : Nat) (l : List Byte) : (s.swProgram a l).mm = s.mm := by
  unfold State.swProgram
  rfl
@[simp] theorem State.swProgram_jd (s : State) (a : Nat) (l : List Byte) : (s.swProgram a l).jd = s.jd := by
  unfold State.swProgram
  rfl
@[simp] theorem State.swProgram_idx (s : State) (a : Nat) (l : List Byte) : (s.swProgram a l).idx = s.idx := by
  unfold State.swProgram
  rfl
@[simp] theorem State.swProgram_tiles (s : State) (a : Nat) (l : List Byte) : (s.swProgram a l).tiles = s.tiles := by
  unfold State.swProgram
  rfl
@[simp] theorem State.swProgram_ns (s : State) (a : Nat) (l : List Byte) : (s.swProgram a l).ns = s.ns := by
  unfold State.swProgram
  rfl
@[simp] theorem State.swProgram_se (s : State) (a : Nat) (l : List Byte) : (s.swProgram a l).se = s.se := by
  unfold State.swProgram
  rfl
@[simp] theorem State.swProgram_lp (s : State) (a : Nat) (l : List Byte) : (s.swProgram a l).lp = s.lp := by
  unfold State.swProgram
  rfl

@[simp] theorem State.swErase_pending (s : State) (k : Nat) : (s.swErase k).pending = s.pending := by
  unfold State.swErase
  rfl
@[simp] theorem State.swErase_latchHi (s : State) (k : Nat) : (s.swErase k).latchHi = s.latchHi := by
  unfold State.swErase
  rfl
@[simp] theorem State.swErase_busRead (s : State) (k : Nat) : (s.swErase k).busRead = s.busRead := by
  unfold State.swErase
  rfl
@[simp] theorem State.swErase_hostOut (s : State) (k : Nat) : (s.swErase k).hostOut = s.hostOut := by
  unfold State.swErase
  rfl
@[simp] theorem State.swErase_power (s : State) (k : Nat) : (s.swErase k).power = s.power := by
  unfold State.swErase
  rfl
@[simp] theorem State.swErase_mc (s : State) (k : Nat) : (s.swErase k).mc = s.mc := by
  unfold State.swErase
  rfl
@[simp] theorem State.swErase_pc (s : State) (k : Nat) : (s.swErase k).pc = s.pc := by
  unfold State.swErase
  rfl
@[simp] theorem State.swErase_fl (s : State) (k : Nat) : (s.swErase k).fl = s.fl := by
  unfold State.swErase
  rfl
@[simp] theorem State.swErase_qe (s : State) (k : Nat) : (s.swErase k).qe = s.qe := by
  unfold State.swErase
  rfl
@[simp] theorem State.swErase_sl (s : State) (k : Nat) : (s.swErase k).sl = s.sl := by
  unfold State.swErase
  rfl
@[simp] theorem State.swErase_rl (s : State) (k : Nat) : (s.swErase k).rl = s.rl := by
  unfold State.swErase
  rfl
@[simp] theorem State.swErase_mm (s : State) (k : Nat) : (s.swErase k).mm = s.mm := by
  unfold State.swErase
  rfl
@[simp] theorem State.swErase_jd (s : State) (k : Nat) : (s.swErase k).jd = s.jd := by
  unfold State.swErase
  rfl
@[simp] theorem State.swErase_idx (s : State) (k : Nat) : (s.swErase k).idx = s.idx := by
  unfold State.swErase
  rfl
@[simp] theorem State.swErase_tiles (s : State) (k : Nat) : (s.swErase k).tiles = s.tiles := by
  unfold State.swErase
  rfl
@[simp] theorem State.swErase_ns (s : State) (k : Nat) : (s.swErase k).ns = s.ns := by
  unfold State.swErase
  rfl
@[simp] theorem State.swErase_se (s : State) (k : Nat) : (s.swErase k).se = s.se := by
  unfold State.swErase
  rfl
@[simp] theorem State.swErase_lp (s : State) (k : Nat) : (s.swErase k).lp = s.lp := by
  unfold State.swErase
  rfl

/-- ALERT# and its interrupts touch nothing but their own two fields (R477). -/
theorem State.alert_eq (s : State) :
    s.alert = { s with power := { s.power with alertSeen := s.alertCauses, ibis := s.alert.power.ibis } } := by
  unfold State.alert
  dsimp only
  split <;> rfl

/-- A fetch does not change which classes the phase serves. -/
@[simp] theorem State.gate_fetch (s : State) (c : CmdId) (g : Gate) : (s.fetch c).gate g = s.gate g := rfl

/-- A command that QE can fetch and the phase serves has its own effect. -/
theorem State.command_served {s : State} {c : CmdId} {g : Gate} (f : State → State) (h : s.canFetch c = true)
    (hg : s.gate g = none) : s.command c g f = f (s.fetch c) := by
  unfold State.command
  rw [if_pos h, State.gate_fetch, hg]

end Sys2Proof.Machine
end

