-- ==== Sys2Proof/Laws/Ops.lean ====
section
/-! SUPPORT. What the shared operations do, said once each: posting a record, entering MARKS, stopping every block. -/

namespace Sys2Proof.Machine

/-! ## Records (R398 to R402, R419) -/

/-- Posting touches one counter of MC, the records dropped (R384). -/
theorem State.post_mc (s : State) (a b c : Nat) (x : W64) (p q r w : W32) :
    (s.post a b c x p q r w).mc = { s.mc with dropped := (s.post a b c x p q r w).mc.dropped } := by
  have h : ∀ y : Record, (s.writeRecord y).mc = { s.mc with dropped := (s.writeRecord y).mc.dropped } := by
    intro y
    unfold State.writeRecord
    dsimp only
    repeat' split
    all_goals rfl
  unfold State.post
  dsimp only
  split <;> exact h _

theorem State.postCorr_mc (s : State) (a b : Nat) (x : W64) (p q r w : W32) :
    (s.postCorr a b x p q r w).mc = { s.mc with dropped := (s.postCorr a b x p q r w).mc.dropped } :=
  State.post_mc s a b 0 x p q r w

/-- With the near tier ready, a record goes into the slot of its number and is counted. -/
theorem State.post_written (s : State) (a b c : Nat) (x : W64) (p q r w : W32) (h : s.ntAll = true) :
    (s.post a b c x p q r w).fl.ring = s.fl.ring.put (s.fl.posted % 65536) (s.mkRecord a b c x p q r w) ∧
    (s.post a b c x p q r w).fl.posted = s.fl.posted + 1 ∧ (s.post a b c x p q r w).mc = s.mc ∧
    (s.post a b c x p q r w).fl.standing = s.fl.standing := by
  have k : ∀ (f : Fl) (n : Nat), (f.countClass n).ring = f.ring ∧ (f.countClass n).posted = f.posted ∧
      (f.countClass n).standing = f.standing := by
    intro f n
    unfold Fl.countClass
    split <;> exact ⟨rfl, rfl, rfl⟩
  unfold State.post
  dsimp only
  have e : s.writeRecord (s.mkRecord a b c x p q r w) = { s with fl := (Fl.ringWrite { s.fl with
      seqs := s.fl.seqs.put a (((s.fl.seqOf a).1 + 1) % 65536, (s.fl.seqOf a).2) } (s.mkRecord a b c x p q r w)).countClass c } := by
    unfold State.writeRecord
    dsimp only
    rw [if_pos h]
    rfl
  rw [e]
  split <;> exact ⟨(k _ _).1, (k _ _).2.1, rfl, (k _ _).2.2⟩

/-- The record a post makes stands in the ring, whatever else changes besides. -/
theorem State.post_recordWritten (s : State) (a b c : Nat) (x : W64) (p q r w : W32) (h : s.ntAll = true) :
    RecordWritten s (s.post a b c x p q r w) a b c x p q r w := by
  obtain ⟨h1, h2, _⟩ := State.post_written s a b c x p q r w h
  exact ⟨by rw [h1, KMap.find_put_self], h2⟩

/-- With the near tier ready, a corrected record changes FL alone. -/
theorem State.postCorr_eq (s : State) (a b : Nat) (x : W64) (p q r w : W32) (h : s.ntAll = true) :
    s.postCorr a b x p q r w = { s with fl := (s.postCorr a b x p q r w).fl } := by
  unfold State.postCorr State.post State.writeRecord
  dsimp only
  rw [if_pos h]
  rfl

/-- With the near tier ready, the first event of its code in a beat posts its record (R402). -/
theorem State.postOnce_recordWritten (s : State) (a b k : Nat) (x : W64) (p q r w : W32) (h : s.ntAll = true)
    (hk : (a, b, k) ∉ s.fl.beatPosts) : RecordWritten s (s.postOnce a b k x p q r w) a b 0 x p q r w := by
  obtain ⟨h1, h2⟩ := State.post_recordWritten s a b 0 x p q r w h
  unfold State.postOnce
  rw [if_neg (by simpa using hk)]
  exact ⟨h1, h2⟩

/-- With the near tier ready, a record of one beat changes FL alone. -/
theorem State.postOnce_eq (s : State) (a b k : Nat) (x : W64) (p q r w : W32) (h : s.ntAll = true) :
    s.postOnce a b k x p q r w = { s with fl := (s.postOnce a b k x p q r w).fl } := by
  unfold State.postOnce
  split
  · rfl
  · rw [State.postCorr_eq s a b x p q r w h]

/-- A second event of its code in a beat is suppressed: its source counts it, and nothing else changes (R402). -/
theorem State.postOnce_suppressed (s : State) (a b k : Nat) (x : W64) (p q r w : W32) (hk : (a, b, k) ∈ s.fl.beatPosts) :
    s.postOnce a b k x p q r w = { s with fl := s.fl.suppress a } := by
  unfold State.postOnce
  rw [if_pos (by simpa using hk)]

/-! ## Entry to MARKS (R5, R378, R380) -/

/-- What an entry to MARKS leaves: every block at reset but for what is sticky or not volatile. -/
theorem State.enterMarks_spec (s : State) (e : Nat) :
    (s.enterMarks e).mc = { s.mc.toMarks e with dropped := (s.enterMarks e).mc.dropped } ∧
    (s.enterMarks e).power = { s.power with
      perst := false, pwrGood := true, hostRail := true, flashRail := true, dramRail := true, tileSupply := false,
      refresh2x := [], alertSeen := (s.enterMarks e).power.alertSeen, ibis := (s.enterMarks e).power.ibis } ∧
    (s.enterMarks e).pc = s.pc.toMarks ∧ (s.enterMarks e).tiles = [] ∧ (s.enterMarks e).jd = Jd.reset ∧
    (s.enterMarks e).rl = { Rl.reset with dir := homedOnly s.rl.dir, far := s.rl.far } ∧
    (s.enterMarks e).mm = s.mm.toMarks ∧ (s.enterMarks e).sw = s.sw.toMarks ∧ (s.enterMarks e).sl = Sl.reset ∧
    (s.enterMarks e).lp = Lp.reset ∧ (s.enterMarks e).hostOut = s.hostOut := by
  unfold State.enterMarks
  dsimp only
  rw [State.alert_eq]
  dsimp only
  split
  · refine ⟨?_, rfl, rfl, rfl, rfl, rfl, rfl, rfl, rfl, rfl, rfl⟩
    exact State.postCorr_mc ..
  · exact ⟨rfl, rfl, rfl, rfl, rfl, rfl, rfl, rfl, rfl, rfl, rfl⟩

/-- What stopping every block leaves (R332, R378). -/
theorem State.stopAll_spec (s : State) :
    s.stopAll.mc.phase = .off ∧ s.stopAll.tiles = [] ∧ s.stopAll.rl.near = [] ∧ s.stopAll.jd = Jd.reset ∧
    s.stopAll.qe.fetched = [] ∧ s.stopAll.sl = Sl.reset ∧ s.stopAll.fl = Fl.reset := by
  unfold State.stopAll
  dsimp only
  split <;> exact ⟨rfl, rfl, rfl, rfl, rfl, rfl, rfl⟩

/-- Cutting the internal path short touches neither MC nor the Pacer. -/
theorem State.cutInternal_keeps (s : State) : s.cutInternal.mc = s.mc ∧ s.cutInternal.pc = s.pc := by
  unfold State.cutInternal State.programFwFail
  dsimp only
  cases s.se.commit <;> cases h : s.sl.persist <;> simp [State.draw, h]

/-- A fatal record outside BLOCKS and GO, with no clear waiting: the record, its standing cause and ALERT# (R411, R420, R477). -/
theorem State.postFatal_spec (s : State) (a b : Nat) (x : W64) (p q r w : W32) (h : s.ntAll = true)
    (hb : s.inBlocks = false) (hg : s.inGo = false) (hc : s.mc.fatalClear = none) :
    RecordWritten s (s.postFatal a b x p q r w) a b 2 x p q r w ∧ (s.postFatal a b x p q r w).fl.fatalStands = true ∧
    (s.postFatal a b x p q r w).power = { s.power with
      alertSeen := (s.postFatal a b x p q r w).power.alertSeen, ibis := (s.postFatal a b x p q r w).power.ibis } := by
  obtain ⟨h1, h2, h3, h4⟩ := State.post_written s a b 2 x p q r w h
  have hp : (s.post a b 2 x p q r w).power = s.power := by simp
  have hm : (s.mkRecord a b 2 x p q r w).cls = 2 := rfl
  have e : s.postFatal a b x p q r w =
      State.alert { s.post a b 2 x p q r w with fl := (s.post a b 2 x p q r w).fl.stand (s.mkRecord a b 2 x p q r w) none } := by
    unfold State.postFatal State.cutFatalClear
    dsimp only
    simp only [hb, hg, Bool.or_self, Bool.false_eq_true, if_false]
    rw [h3, hc]
  have hs : ∀ f : Fl, (f.stand (s.mkRecord a b 2 x p q r w) none).ring = f.ring ∧
      (f.stand (s.mkRecord a b 2 x p q r w) none).posted = f.posted ∧
      (f.stand (s.mkRecord a b 2 x p q r w) none).fatalStands = true := by
    intro f
    unfold Fl.stand Fl.fatalStands
    split <;> simp [hm]
  rw [e, State.alert_eq]
  refine ⟨⟨?_, ?_⟩, (hs _).2.2, ?_⟩
  · show (Fl.ring (Fl.stand _ _ _)).find _ = _
    rw [(hs _).1, h1, KMap.find_put_self]
  · show Fl.posted (Fl.stand _ _ _) = _
    rw [(hs _).2.1, h2]
  · show _ = _
    rw [hp]

/-! ## Commands (R317, R318) -/

/-- A completion is posted, or waits for its queue. -/
theorem Qe.post_mem (q : Qe) (k : Completion) : k ∈ (q.post k).posted ∨ k ∈ (q.post k).cqWait := by
  unfold Qe.post
  dsimp only
  split
  · exact Or.inr (List.mem_append_right _ (List.mem_singleton.mpr rfl))
  · exact Or.inl (List.mem_cons_self ..)

@[simp] theorem Qe.post_fetched (q : Qe) (k : Completion) : (q.post k).fetched = q.fetched := by
  unfold Qe.post
  dsimp only
  split <;> rfl

/-- Completing a fetched command. -/
theorem State.complete_completed (s : State) (c : CmdId) (st dw0 dw1 : Nat) (data : List (List Byte))
    (h : c ∈ s.qe.fetched) : Completed (s.complete c st dw0 dw1 data) c st dw0 dw1 data := by
  have e : (s.complete c st dw0 dw1 data).qe = (s.qe.release c).post (mkCompletion c st dw0 dw1 data) := by
    show s.qe.complete c st dw0 dw1 data = _
    unfold Qe.complete
    rw [if_pos (by simpa using h)]
  unfold Completed
  rw [e]
  refine ⟨Qe.post_mem _ _, ?_⟩
  rw [Qe.post_fetched]
  unfold Qe.release
  simp

theorem State.mem_fetch (s : State) (c : CmdId) : c ∈ (s.fetch c).qe.fetched :=
  List.mem_append_right _ (List.mem_singleton.mpr rfl)

/-- A command answered is completed. -/
theorem State.answered_completed (s : State) (c : CmdId) (st dw0 dw1 : Nat) (data : List (List Byte)) :
    Completed (s.answered c st dw0 dw1 data) c st dw0 dw1 data :=
  State.complete_completed _ _ _ _ _ _ (State.mem_fetch s c)

end Sys2Proof.Machine
end

