-- ==== Sys2Proof/WellFormed.lean ====
section
/-! DEFINITION. Well-formed commands: every operand fits the field, the unit or the format that carries it. `exec` does
not rest on it: an ill-formed command has a meaning too. -/

namespace Sys2Proof

/-- A value of a `w`-bit field. -/
def fits (w n : Nat) : Bool := decide (n < 2 ^ w)

/-- Units of the module (R12): tiles, squads (R22), stacks, channels, dies, flash blocks, parity groups, boards, cores. -/
def isTile (n : Nat) : Bool := decide (n < 1024)
def isSquad (n : Nat) : Bool := decide (n < 64)
def isStackId (n : Nat) : Bool := decide (n < 16)
def isChannel (n : Nat) : Bool := decide (n < 128)
def isDie (n : Nat) : Bool := decide (n < 32)
def isBlock (n : Nat) : Bool := decide (n < 32768)
def isGroup (n : Nat) : Bool := decide (n < 208)
def isBoard (n : Nat) : Bool := decide (n < 2)
def isCore (n : Nat) : Bool := decide (n < 8)

/-- A model slot (R283), a firmware slot or none (R458). -/
def isSlot (n : Nat) : Bool := decide (n < 64)

/-- A volume of function 1 (R347). -/
def isVolume (n : Nat) : Bool := decide (1 ≤ n ∧ n ≤ 16)

/-- A latch, and a unit, of a tile (R57, R71). -/
def isLatch (n : Nat) : Bool := decide (n < 2)
def isUnit (n : Nat) : Bool := decide (n < 4)

/-- An op descriptor (R57). -/
def isDescriptor (l : List Byte) : Bool := l.length == 64

/-- The bytes of one 4 KiB block, trailing zeros left out. -/
def isBlockData (l : List Byte) : Bool := decide (l.length ≤ 4096)

/-- The admin queue or one of the 512 I/O queues (R312), and a 16-bit identifier. -/
def CmdId.wf (c : CmdId) : Bool := decide (c.sq ≤ 512) && fits 16 c.cid

def Dwords.wf (d : Dwords) : Bool := fits 32 d.nsid

/-- A job descriptor has 256 bytes (R320). -/
def Submit.wf (s : Submit) : Bool := fits 64 s.prp1 && s.desc.length == 256

/-- Sources are 12 bits and kinds and classes 8 (R398). -/
def FaultMsg.wf (m : FaultMsg) : Bool := fits 12 m.source && fits 8 m.kind && decide (m.cls ≤ 2)

/-- BAR0 or BAR2 of function 0, BAR0 of function 1, with the sizes of R9. -/
def BarAddr.wf (a : BarAddr) : Bool :=
  (a.fn == 0 && a.bar == 0 && decide (a.off < 0x04000000)) || (a.fn == 0 && a.bar == 2 && decide (a.off < 0x08000000))
  || (a.fn == 1 && a.bar == 0 && decide (a.off < 0x00100000))

/-- A cycle lies in the BAR2 window and carries 1 to 4 bytes or a longer access (R435). -/
def SwCycle.wf (c : SwCycle) : Bool := decide (c.off < 0x08000000) && decide (1 ≤ c.len)

/-- The table names 1,024 distinct ones of the 1,056 physical positions (R75). -/
def FuseMap.wf (m : FuseMap) : Bool :=
  m.phys.length == 1024 && ((List.range 1056).filter (fun p => m.phys.contains p)).length == 1024

/-- A well-formed command. -/
def Instr.wf (i : Instr) : Bool :=
  match i with
  | .vinAccepted v10mV => fits 16 v10mV
  | .holdUpBankCharged => true
  | .inputOutOfRange v10mV => fits 16 v10mV
  | .powerFail v10mV => fits 16 v10mV
  | .powerFailRailsOff => true
  | .modEnAssert => true
  | .modEnDeassert => true
  | .railFault _ _ v10mV => fits 16 v10mV
  | .perstAssert => true
  | .perstDeassert => true
  | .fuseReadDone map => map.wf
  | .panelPowerDone => true
  | .settingsStoreReadDone _ _ => true
  | .enterBlocks _ => true
  | .dramTrainingDone stack _ => isStackId stack
  | .ntSweepDone stack => isStackId stack
  | .bootImageApply => true
  | .mapReplayDone _ => true
  | .directoryRebuildDone => true
  | .fcPathPrimed => true
  | .enterGo _ => true
  | .ps4Exit => true
  | .beatEdge highNs sinceBoundary sinceEdge => fits 64 highNs && fits 64 sinceBoundary && fits 64 sinceEdge
  | .missedBeat => true
  | .freerunEntry => true
  | .freerunBoundary => true
  | .beatBoundary _ => true
  | .setpoint endpoint _ => fits 8 endpoint
  | .period endpoint _ => fits 8 endpoint
  | .setpointTakeEffect => true
  | .reportTimer => true
  | .thermalTrigger _ _ => true
  | .thermalCeilingEnd _ => true
  | .thermalShutdown _ _ => true
  | .outletAlert _ => true
  | .dramHotRefresh stack _ => isStackId stack
  | .flashThrottle board _ => isBoard board
  | .flashThrottleEnd _ _ => true
  | .flashBandChange _ _ => true
  | .sqTailDoorbell sq tail => fits 16 sq && fits 16 tail
  | .cqHeadDoorbell cq head => fits 16 cq && fits 16 head
  | .controllerEnable => true
  | .controllerReset => true
  | .flrFunction0 => true
  | .flrFunction1 => true
  | .hlPcieError _ _ => true
  | .dataTransferError c _ => c.wf
  | .createIoSq c sqid _ _ cqid _ => c.wf && fits 16 sqid && fits 16 cqid
  | .createIoCq c cqid _ _ _ _ => c.wf && fits 16 cqid
  | .deleteIoSq c sqid => c.wf && fits 16 sqid
  | .deleteIoCq c cqid => c.wf && fits 16 cqid
  | .identify c _ nsid => c.wf && fits 32 nsid
  | .getLogPage c _ _ _ _ _ => c.wf
  | .abort c sqid cid => c.wf && fits 16 sqid && fits 16 cid
  | .setFeatures c _ _ _ => c.wf
  | .setFeaturesPowerManagement c _ => c.wf
  | .getFeatures c _ => c.wf
  | .asyncEventRequest c => c.wf
  | .namespaceCreate c _ _ => c.wf
  | .namespaceDelete c nsid => c.wf && fits 32 nsid
  | .namespaceAttachment c nsid _ _ => c.wf && fits 32 nsid
  | .formatNvm c nsid => c.wf && fits 32 nsid
  | .formatNvmCryptoErase c nsid _ => c.wf && fits 32 nsid
  | .firmwareImageDownload c _ _ => c.wf
  | .firmwareCommit c slot _ _ _ => c.wf && isSlot slot
  | .firmwareCommitDone _ _ => true
  | .read c nsid slba len => c.wf && fits 32 nsid && fits 64 slba && fits 32 len.nlb
  | .write c nsid slba nlb data => c.wf && fits 32 nsid && fits 64 slba && fits 32 nlb && data.all isBlockData
  | .writeZeroes c nsid slba nlb _ => c.wf && fits 32 nsid && fits 64 slba && fits 32 nlb
  | .datasetManagementDeallocate c nsid _ => c.wf && fits 32 nsid
  | .verify c nsid slba len => c.wf && fits 32 nsid && fits 64 slba && fits 32 len.nlb
  | .flush c nsid => c.wf && fits 32 nsid
  | .rangeLockGranted => true
  | .overlapWaitEnd c => c.wf
  | .landingStripeClose => true
  | .landingStripeVerified _ => true
  | .writeResumeLanding c => c.wf
  | .writeResumeSnapshot c => c.wf
  | .foldRow group block _ => isGroup group && isBlock block
  | .landingAgeLimit => true
  | .garbageCollection group victim dest => isGroup group && isBlock victim && isBlock dest
  | .wearLevelMove group src dest => isGroup group && isBlock src && isBlock dest
  | .scrubRead channel die block _ _ => isChannel channel && isDie die && isBlock block
  | .refresh channel die block dest => isChannel channel && isDie die && isBlock block && isBlock dest
  | .mapCheckpoint => true
  | .progFail channel die block dest => isChannel channel && isDie die && isBlock block && isBlock dest
  | .eraseFail channel die block => isChannel channel && isDie die && isBlock block
  | .retryExhausted channel _ => isChannel channel
  | .rebuildDone channel nsid _ _ => isChannel channel && fits 32 nsid
  | .ntPatrolScrub addr => fits 64 addr
  | .jobCancel c sqid cid => c.wf && fits 16 sqid && fits 16 cid
  | .scan c sub => c.wf && sub.wf
  | .embed c sub => c.wf && sub.wf
  | .search c sub _ => c.wf && sub.wf
  | .insert c sub _ => c.wf && sub.wf
  | .delete c sub _ => c.wf && sub.wf
  | .commit c sub => c.wf && sub.wf
  | .merge c sub _ => c.wf && sub.wf
  | .serveOpen c sub => c.wf && sub.wf
  | .serveAppend c sub _ => c.wf && sub.wf
  | .serveClose c sub => c.wf && sub.wf
  | .train c sub => c.wf && sub.wf
  | .jobAdmit tag => fits 32 tag
  | .commitTakeEffect nsid => fits 32 nsid
  | .jobRestart tag => fits 32 tag
  | .extentDone tag _ _ => fits 32 tag
  | .heapCollect tag _ => fits 32 tag
  | .lapHurdle squad _ => isSquad squad
  | .decodeCapRise slot => isSlot slot
  | .updateRatioCheck tag _ => fits 32 tag
  | .matmul tile desc => isTile tile && isDescriptor desc
  | .xorpop tile desc => isTile tile && isDescriptor desc
  | .reduce tile desc => isTile tile && isDescriptor desc
  | .eltwise tile desc => isTile tile && isDescriptor desc
  | .eltwiseQuant tile desc => isTile tile && isDescriptor desc
  | .gather tile desc => isTile tile && isDescriptor desc
  | .scatter tile desc => isTile tile && isDescriptor desc
  | .filter tile desc => isTile tile && isDescriptor desc
  | .topk tile desc => isTile tile && isDescriptor desc
  | .loadBaton tile desc => isTile tile && isDescriptor desc
  | .hurdleFence tile desc => isTile tile && isDescriptor desc
  | .stats tile desc => isTile tile && isDescriptor desc
  | .statsReport tile desc => isTile tile && isDescriptor desc
  | .calRendezvousDone squad tensor => isSquad squad && fits 32 tensor
  | .opComplete tile unit => isTile tile && isUnit unit
  | .batonFillDone tile latch _ => isTile tile && isLatch latch
  | .tileSweepDone tile => isTile tile
  | .objPlaceHost c d _ => c.wf && d.wf
  | .objPlaceLba c d => c.wf && d.wf
  | .objPlaceFar c d => c.wf && d.wf
  | .objPlaceNear c d => c.wf && d.wf
  | .placeCopyDone object _ => fits 32 object
  | .objEvict c d => c.wf && d.wf
  | .objEvictDiscard c d => c.wf && d.wf
  | .objPublishHost c d _ => c.wf && d.wf
  | .objPublishNear c d => c.wf && d.wf
  | .publishDone object => fits 32 object
  | .pinsReachZero object version => fits 32 object && fits 32 version
  | .structureLoadStage c d _ => c.wf && d.wf
  | .structureLoadApply c d => c.wf && d.wf
  | .structureLoadDiscard c d => c.wf && d.wf
  | .applyVerifyDone _ => true
  | .applyConfigure => true
  | .persistDone _ => true
  | .squadRetire c d => c.wf && d.wf
  | .squadRetireForce c d => c.wf && d.wf
  | .drainComplete squad => isSquad squad
  | .drainSlow => true
  | .versionNegotiateOffer c d _ _ => c.wf && d.wf
  | .versionNegotiateCommit c d _ => c.wf && d.wf
  | .versionNegotiateQuery c d => c.wf && d.wf
  | .faultClearFatal c d _ => c.wf && d.wf
  | .faultClearSquad c d _ => c.wf && d.wf
  | .faultClearAllContained c d _ => c.wf && d.wf
  | .flClearFatal _ => true
  | .flClearSquad _ _ => true
  | .flClearAllContained _ => true
  | .fenceClearApply => true
  | .faultMessage m => m.wf
  | .mgWatchdogExpiry core => isCore core
  | .powerStateChange => true
  | .apstIdleExpiry _ => true
  | .peerWindowWrite _ _ => true
  | .qeP2pFlush => true
  | .qeP2pCfgWrite _ => true
  | .qeP2pBaseWrite _ _ => true
  | .lpReqProdWrite _ => true
  | .lpRplConsWrite _ => true
  | .lpCtlReset _ => true
  | .lpVolMapWrite volume _ _ => isVolume volume
  | .lpRead => true
  | .lpWrite => true
  | .lpFlush => true
  | .lpTrim => true
  | .lpInquire => true
  | .lpUnsupported => true
  | .lpData => true
  | .lpAbort => true
  | .lpPad => true
  | .lpWindowLanded tag => fits 32 tag
  | .lpXferTimeout tag => fits 32 tag
  | .swWindowRead _ _ => true
  | .wordProgram cycles => cycles.all SwCycle.wf
  | .pageProgram cycles => cycles.all SwCycle.wf
  | .sectorErase cycles => cycles.all SwCycle.wf
  | .identifyMode cycles => cycles.all SwCycle.wf
  | .swAbort _ => true
  | .swOpDone _ _ => true
  | .swQueuedStart => true
  | .swProtectSet _ _ => true
  | .maintenanceGrant _ _ _ => true
  | .keyRequest _ _ _ => true
  | .attestation => true
  | .topTreeDone => true
  | .attestDone _ _ => true
  | .rlProbeWrite => true
  | .rlProbeRead => true
  | .rlLookup _ => true
  | .nsLookup _ => true
  | .resetSquad squad => isSquad squad
  | .resetAll => true
  | .nsClrCnt => true
  | .modelRegister _ _ => true
  | .modelUnregister _ => true
  | .jdSplitSel _ => true
  | .tileClrCnt tile => isTile tile
  | .tileLmWdata tile _ => isTile tile
  | .tileLmRdata tile => isTile tile
  | .mmFlashTempRead => true
  | .reg64LowRead a => a.wf
  | .registerWrite a _ => a.wf
  | .sideListMerge nsid _ => fits 32 nsid
  | .indexCompaction nsid => fits 32 nsid
  | .nvmeShutdown => true
  | .nvmeMiMessage _ _ _ k => fits 32 k.nsid && fits 64 k.arg && fits 32 k.off && fits 32 k.len
  | .setEndpointId eid => fits 8 eid
  | .setdasa addr => fits 64 addr
  | .inputInRange v10mV => fits 16 v10mV
  | .outletAlertEnd _ => true

/-- A command is well formed. -/
def WellFormed (i : Instr) : Prop := i.wf = true

end Sys2Proof
end

