-- ==== Sys2Proof/Tests/Slice0.lean ====
section
/-! SUPPORT. Tests: ill-formed commands that each check refuses, small steps with values from the spec's examples, and for each
statement a state and operands that meet its hypotheses. -/

namespace Sys2Proof.Tests

set_option Elab.async false
set_option linter.unusedVariables false

open Sys2Proof.Machine

/-- The CRC-32C register over natural numbers, as the kernel evaluates it fast. -/
def crcBitN (c : Nat) : Nat := if c % 2 = 1 then (c / 2) ^^^ 0x82F63B78 else c / 2

/-- One byte into that register. -/
def crcByteN (c b : Nat) : Nat :=
  crcBitN (crcBitN (crcBitN (crcBitN (crcBitN (crcBitN (crcBitN (crcBitN (c ^^^ b))))))))

theorem crcBit_toNat (c : W32) : (crcBit c).toNat = crcBitN c.toNat := by
  have h : c.getLsbD 0 = decide (c.toNat % 2 = 1) := by
    rw [← BitVec.testBit_toNat, Nat.testBit_zero]
  unfold crcBit crcBitN
  rw [h]
  by_cases hc : c.toNat % 2 = 1 <;> simp [hc, Nat.shiftRight_eq_div_pow]

theorem crcByte_toNat (c : W32) (b : Byte) : (crcByte c b).toNat = crcByteN c.toNat b.toNat := by
  unfold crcByte crcByteN
  have : b.toNat < 4294967296 := by omega
  simp only [crcBit_toNat]
  simp [Nat.mod_eq_of_lt this]

theorem crc_foldl (l : List Byte) (c : W32) :
    (l.foldl crcByte c).toNat = l.foldl (fun c b => crcByteN c b.toNat) c.toNat := by
  induction l generalizing c with
  | nil => rfl
  | cons b l ih => rw [List.foldl_cons, List.foldl_cons, ih, crcByte_toNat]

theorem crc32c_toNat (l : List Byte) : (crc32c l).toNat = 0xFFFFFFFF - l.foldl (fun c b => crcByteN c b.toNat) 0xFFFFFFFF := by
  unfold crc32c
  rw [BitVec.toNat_not, crc_foldl]
  rfl
/-- A 128-byte record (R428) with its crc over natural numbers. -/
def record128N (tag seq : Nat) (payload : List Byte) : List Byte :=
  let p := payload ++ List.replicate (104 - payload.length) 0xFF
  let body := leBytes tag 2 ++ leBytes payload.length 2 ++ leBytes seq 4 ++ p ++ List.replicate 12 0xFF
  body ++ leBytes (0xFFFFFFFF - body.foldl (fun c b => crcByteN c b.toNat) 0xFFFFFFFF) 4

theorem record128N_eq (tag seq : Nat) (payload : List Byte) : record128N tag seq payload = mkRecord128 tag seq payload := by
  simp only [record128N, mkRecord128, crc32c_toNat]

theorem recordOk_eq (tag : Nat) (l : List Byte) : recordOk tag l = (u16At l 0 == tag &&
    u32At l 124 == 0xFFFFFFFF - (l.take 124).foldl (fun c b => crcByteN c b.toNat) 0xFFFFFFFF) := by
  unfold recordOk
  rw [crc32c_toNat]

/-- A boot log (R429) naming 2,732 bytes of firmware, with an update marker. -/
def bootRec (updating : Nat) : List Byte :=
  record128N 0x5A01 1 ({ selector := 0xFF, updating := updating, fwBytes := 2732, slot0 := 0, slot1 := 0 } : BootLog).payload

/-- A firmware image (R456): a header, no code and room for the signature. -/
def fwImg : List Byte :=
  leBytes 0x5746535A 4 ++ leBytes 1 2 ++ leBytes 0 2 ++ leBytes 2732 4 ++ leBytes 4 4 ++ leBytes 0xC0 8 ++ leBytes 0 8
    ++ leBytes 64 4 ++ leBytes 2668 4 ++ List.replicate 2692 0

/-- A settings store whose boot log stands in its first slot; the firmware region holds a header. -/
def swBoot (updating : Nat) : Sw := (Sw.reset.putBytes 0x2000 (bootRec updating)).putBytes fwAddr fwImg

theorem readCells_in (d : Byte) (m : List Host.Cell) (a n : Nat) (l : List Byte) (h : l.length = n) :
    readCells d (writeCells d m a l) a n = l := by
  subst h
  unfold readCells
  refine List.ext_getElem (by simp) (fun i h1 h2 => ?_)
  simp [readCell_writeCells_in d m a l i h2]

theorem readCells_out (d : Byte) (m : List Host.Cell) (a b n : Nat) (l : List Byte) (h : b + n ≤ a ∨ a + l.length ≤ b) :
    readCells d (writeCells d m a l) b n = readCells d m b n := by
  unfold readCells
  refine List.map_congr_left (fun i hi => ?_)
  have := List.mem_range.mp hi
  exact readCell_writeCells_out d m a l _ (by omega)

/-- One valid record in slot 0 of a pair, and nothing else there: it governs. -/
theorem governs_first {w : Sw} {g : LogId} (h0 : (!blank (w.slot g 0) && recordOk g.tag (w.slot g 0)) = true)
    (h : ∀ i, 1 ≤ i ∧ i < 64 → blank (w.slot g i) = true) : w.governs g = some 0 := by
  have step : ∀ l : List Nat, (∀ i ∈ l, 1 ≤ i ∧ i < 64) → l.foldl (fun b i =>
      let l := w.slot g i
      if !blank l && recordOk g.tag l then
        match b with
        | none => some i
        | some j => if u32At (w.slot g j) 4 ≤ u32At l 4 then some i else some j
      else b) (some 0) = some 0 := by
    intro l
    induction l with
    | nil => intro _; rfl
    | cons a l ih =>
      intro hl
      have ha := hl a (List.mem_cons_self ..)
      have hb : blank (w.slot g a) = true := h a ha
      rw [List.foldl_cons]
      simp only [hb, Bool.not_true, Bool.false_and, Bool.false_eq_true, if_false]
      exact ih (fun i hi => hl i (List.mem_cons_of_mem _ hi))
  unfold Sw.governs
  have e : List.range 64 = 0 :: (List.range 63).map (· + 1) := by decide
  rw [e, List.foldl_cons]
  simp only [h0, if_true]
  refine step _ (fun i hi => ?_)
  obtain ⟨j, hj, rfl⟩ := List.mem_map.mp hi
  have := List.mem_range.mp hj
  omega

/-- An empty store is blank. -/
theorem blank_empty (g : LogId) (i : Nat) : blank (Sw.reset.slot g i) = true := by
  unfold blank Sw.slot Sw.bytes readCells
  rw [List.all_eq_true]
  intro b hb
  obtain ⟨j, hj, rfl⟩ := List.mem_map.mp hb
  rfl

theorem slot_swBoot (u : Nat) (h : (bootRec u).length = 128) : (swBoot u).slot logBoot 0 = bootRec u := by
  unfold Sw.slot Sw.bytes swBoot Sw.putBytes
  rw [readCells_out _ _ _ _ _ _ (by decide)]
  exact readCells_in _ _ _ _ _ h

theorem blank_swBoot (u : Nat) (h : (bootRec u).length = 128) (i : Nat) (hi : 1 ≤ i ∧ i < 64) :
    blank ((swBoot u).slot logBoot i) = true := by
  have e : (swBoot u).slot logBoot i = Sw.reset.slot logBoot i := by
    unfold Sw.slot Sw.bytes swBoot Sw.putBytes
    have : slotAddr logBoot i = 0x2000 + 128 * i := rfl
    rw [readCells_out _ _ _ _ _ _ (by rw [this]; unfold fwAddr; omega), readCells_out _ _ _ _ _ _ (by rw [this, h]; omega)]
  rw [e]
  exact blank_empty _ _

/-- What the boot log of that store says. -/
theorem bootLog_swBoot (u : Nat) (h : (bootRec u).length = 128)
    (h0 : (!blank (bootRec u) && recordOk 0x5A01 (bootRec u)) = true) :
    (swBoot u).bootLog = (let p := sliceZ (bootRec u) 8 104
      { selector := byteAt p 0, updating := byteAt p 1, fwBytes := u32At p 4, slot0 := u32At p 8, slot1 := u32At p 12 }) := by
  have g : (swBoot u).governs logBoot = some 0 :=
    governs_first (by rw [slot_swBoot u h]; exact h0) (fun i hi => blank_swBoot u h i hi)
  unfold Sw.bootLog Sw.payload
  rw [g, Option.map_some, slot_swBoot u h]

set_option maxRecDepth 100000 in
theorem bootLog_swBoot0 : (swBoot 0).bootLog.updating = 0 ∧ (swBoot 0).bootLog.fwBytes = 2732 ∧
    (swBoot 0).bootLog.selector = 0xFF := by
  rw [bootLog_swBoot 0 (by decide +kernel) (by rw [recordOk_eq]; decide +kernel)]
  decide +kernel

set_option maxRecDepth 100000 in
theorem bootLog_swBoot1 : (swBoot 1).bootLog.updating = 1 := by
  rw [bootLog_swBoot 1 (by decide +kernel) (by rw [recordOk_eq]; decide +kernel)]
  decide +kernel

/-- The boot ROM reads the store in MARKS. -/
def marksWith (w : Sw) : State := { State.reset with mc := { Mc.reset with phase := .marks, fuseDone := true }, sw := w }

theorem bootLog_marksWith (w : Sw) : (marksWith w).readParams.sw.bootLog = w.bootLog := rfl

theorem bytes_marksWith (w : Sw) (a n : Nat) : (marksWith w).readParams.sw.bytes a n = w.bytes a n := rfl

set_option maxRecDepth 100000 in
theorem fwHeaderOk_swBoot0 : fwHeaderOk ((marksWith (swBoot 0)).readParams.sw.bytes fwAddr
    (marksWith (swBoot 0)).readParams.sw.bootLog.fwBytes) (marksWith (swBoot 0)).readParams.sw.bootLog.fwBytes = true := by
  rw [bootLog_marksWith, bootLog_swBoot0.2.1, bytes_marksWith]
  have e : (swBoot 0).bytes fwAddr 2732 = fwImg := readCells_in _ _ _ _ _ (by decide +kernel)
  rw [e]
  decide +kernel

theorem bootImage_swBoot0 : (marksWith (swBoot 0)).readParams.sw.bootImage = [] := by
  have e := congrArg BootLog.selector (bootLog_marksWith (swBoot 0))
  unfold Sw.bootImage
  simp only [e, bootLog_swBoot0.2.2]
  rfl

/-- A pair of blank sectors has no governing record. -/
theorem governs_none {w : Sw} {g : LogId} (h : ∀ i, i < 64 → blank (w.slot g i) = true) : w.governs g = none := by
  unfold Sw.governs
  have : ∀ l : List Nat, (∀ i ∈ l, i < 64) → l.foldl (fun b i =>
    let l := w.slot g i
    if !blank l && recordOk g.tag l then
      match b with
      | none => some i
      | some j => if u32At (w.slot g j) 4 ≤ u32At l 4 then some i else some j
    else b) none = none := by
    intro l
    induction l with
    | nil => intro _; rfl
    | cons a l ih =>
      intro hl
      rw [List.foldl_cons]
      simp only [h a (hl a (List.mem_cons_self ..)), Bool.not_true, Bool.false_and, Bool.false_eq_true, if_false]
      exact ih (fun i hi => hl i (List.mem_cons_of_mem _ hi))
  exact this _ (fun i hi => List.mem_range.mp hi)

/-- An empty store has no boot log. -/
theorem bootLog_empty : (marksWith Sw.reset).readParams.sw.bootLog.updating = 0 ∧
    (marksWith Sw.reset).readParams.sw.bootLog.fwBytes = 0 := by
  rw [bootLog_marksWith]
  unfold Sw.bootLog Sw.payload
  rw [governs_none (fun i _ => blank_empty logBoot i)]
  exact ⟨rfl, rfl⟩

/-- A key register record (R446) that makes owner key 0 active, its crc over natural numbers. -/
def keyRec : List Byte :=
  let b : List Byte := leBytes 0x5A05 2 ++ [1, 0] ++ List.replicate 4 0xFF ++ leBytes 1 8 ++ List.replicate 60 0x11
    ++ List.replicate 48 0xFF
  b ++ leBytes (0xFFFFFFFF - b.foldl (fun c b => crcByteN c b.toNat) 0xFFFFFFFF) 4

/-- A store that holds that record alone. -/
def swKey : Sw := Sw.reset.putBytes 0x1000 keyRec

set_option maxRecDepth 100000 in
theorem length_keyRec : keyRec.length = 128 := by decide +kernel

set_option maxRecDepth 100000 in
theorem recordOk_keyRec : recordOk 0x5A05 keyRec = true := by rw [recordOk_eq]; decide +kernel

/-- Key 0 is active in it. -/
theorem ownerKeys_swKey : (swKey.ownerKeys.find 0).isSome = true := by
  have h0 : keySlot swKey 0 = keyRec := by
    unfold keySlot Sw.bytes swKey Sw.putBytes
    exact readCells_in _ _ _ _ _ length_keyRec
  have hi : ∀ i, 1 ≤ i → keySlot swKey i = List.replicate 128 0xFF := by
    intro i h
    unfold keySlot Sw.bytes swKey Sw.putBytes
    rw [readCells_out _ _ _ _ _ _ (by rw [length_keyRec]; omega)]
    unfold readCells
    refine List.ext_getElem (by simp) (fun j h1 h2 => ?_)
    simp [readCell, KMap.findD, Sw.reset]
  have step : ∀ (l : List Nat) (k : KMap (List Byte)), (∀ i ∈ l, 1 ≤ i) →
      l.foldl (fun k i => applyKey k (keySlot swKey i)) k = k := by
    intro l
    induction l with
    | nil => intro k _; rfl
    | cons a l ih =>
      intro k hl
      rw [List.foldl_cons, hi a (hl a (List.mem_cons_self ..))]
      have : applyKey k (List.replicate 128 0xFF) = k := by
        have : recordOk 0x5A05 (List.replicate 128 0xFF) = false := by
          unfold recordOk
          have : (u16At (List.replicate 128 0xFF) 0 == 0x5A05) = false := by decide
          rw [this, Bool.false_and]
        unfold applyKey
        rw [this]
        rfl
      rw [this]
      exact ih k (fun i hi => hl i (List.mem_cons_of_mem _ hi))
  unfold Sw.ownerKeys
  have e : List.range 32 = 0 :: (List.range 31).map (· + 1) := by decide
  rw [e, List.foldl_cons, h0, step _ _ (fun i hi => by obtain ⟨j, _, rfl⟩ := List.mem_map.mp hi; omega)]
  unfold applyKey
  rw [recordOk_keyRec]
  rfl

/-- No grant has been accepted in it. -/
theorem grantCounter_swKey : swKey.grantCounter = 0 := by
  have h : ∀ i, i < 64 → blank (swKey.slot logGrant i) = true := by
    intro i h
    have e : swKey.slot logGrant i = Sw.reset.slot logGrant i := by
      unfold Sw.slot Sw.bytes swKey Sw.putBytes
      have : slotAddr logGrant i = 0x10000 + 128 * i := rfl
      rw [readCells_out _ _ _ _ _ _ (by rw [length_keyRec]; omega)]
    rw [e]
    exact blank_empty _ _
  unfold Sw.grantCounter Sw.payload
  rw [governs_none h]
  rfl

/-- Every tile swept. -/
@[irreducible] def sweptTiles : KMap Tile := (List.range 1024).map (fun n => (n, { Tile.reset with swept := true }))

theorem find_sweptTiles (l : List Nat) (v : Tile) (n : Nat) (h : n ∈ l) :
    KMap.find (l.map (fun n => (n, v))) n = some v := by
  induction l with
  | nil => cases h
  | cons a l ih =>
    simp only [List.map_cons, KMap.find]
    split
    · rfl
    · rename_i hn
      rcases List.mem_cons.mp h with h | h
      · exact absurd h.symm hn
      · exact ih h

/-- A state with every tile swept has TILES_SWEPT set. -/
theorem allSwept_sweptTiles (s : State) (h : s.tiles = sweptTiles) : s.allSwept = true := by
  unfold State.allSwept
  rw [List.all_eq_true]
  intro n hn
  unfold State.tile KMap.findD
  rw [h]
  unfold sweptTiles
  rw [find_sweptTiles _ _ n hn]
  rfl

/-- The near tier is ready, every tile is swept, and the module is in BLOCKS. -/
def blocksReady : State :=
  { State.reset with
    mc := { Mc.reset with phase := .blocks }, rl := { Rl.reset with ntReady := List.range 16 }, tiles := sweptTiles }

/-- Every condition of GO holds. -/
def goReady : State :=
  { blocksReady with
    mc := { Mc.reset with phase := .blocks, imageDone := true, fcPath := true }, mm := { Mm.reset with replayed := true }
    rl := { Rl.reset with ntReady := List.range 16, ftReady := true } }

theorem mayGo_goReady : goReady.mayGo = true := by
  have h : goReady.allSwept = true := allSwept_sweptTiles _ rfl
  unfold State.mayGo
  rw [h]
  decide


theorem mem_pickColumns : ∀ (n seed : Nat) (cols : List Nat), n ≤ cols.length → ∀ c ∈ pickColumns n seed cols, c ∈ cols := by
  intro n
  induction n with
  | zero => intro seed cols _ c h; cases h
  | succ n ih =>
    intro seed cols hn c h
    have hl : seed % max cols.length 1 < cols.length := by
      have := Nat.mod_lt seed (show 0 < max cols.length 1 by omega)
      omega
    have hm : cols.getD (seed % max cols.length 1) 0 ∈ cols := by
      rw [List.getD_eq_getElem _ _ hl]
      exact List.getElem_mem hl
    rcases List.mem_cons.mp h with rfl | h
    · exact hm
    · exact List.mem_of_mem_erase (ih _ _ (by rw [List.length_erase_of_mem hm]; omega) c h)

/-- An even or full syndrome is uncorrectable whichever columns the part uses. -/
theorem synOf_31 : synOf 31 = .uncorr := by
  have h : dataColumns.findIdx? (fun c => c == (31 : BitVec 5).toNat) = none := by
    rw [List.findIdx?_eq_none_iff]
    intro c hc
    have := mem_pickColumns 8 _ _ (by decide) c hc
    revert this
    revert c
    intro c _ h2
    have : ∀ c ∈ weight3, (c == (31 : BitVec 5).toNat) = false := by decide
    exact this c h2
  unfold synOf
  rw [h]
  rfl

/-- A job of a squad. -/
def jobOf (tag kind squad : Nat) (st : JobState) : Job :=
  { tag := tag, c := { sq := 1, cid := tag }, opcode := 0xC0, kind := kind, squad := squad, cmdset := 0x31, desc := [],
    data := [], lists := [], state := st, snapshot := 0, attempt := 0, admitBeat := 0, pins := [], stop := none,
    scan := ScanProg.blank, search := SearchProg.blank, lap := LapProg.blank }

/-- In GO, with command 7 waiting in the admin queue. -/
def goAdmin : State :=
  { State.reset with
    mc := { Mc.reset with phase := .go }
    qe := { Qe.reset with
      enabled := true, ready := true
      sqs := [(0, { size := 32, prio := 0, cq := 0, tail := 1, head := 0, blocked := none })]
      cqs := [(0, { size := 32, vector := 0, ien := true, head := 0, tail := 0 })] } }

/-- That command. -/
def c7 : CmdId := { sq := 0, cid := 7 }

/-- A maintenance grant (R432) by key 0, counter 1, for identity zero, that opens every sector and writes no map. -/
def grantBytes : List Byte :=
  leBytes 0x4757535A 4 ++ leBytes 1 2 ++ leBytes 0 2 ++ leBytes 0 4 ++ leBytes 0 4 ++ leBytes 1 8 ++ List.replicate 296 0

/-- In GO, with owner key 0 active. -/
def goKey : State :=
  { State.reset with
    mc := { Mc.reset with phase := .go }, sw := swKey, se := { Se.reset with identity := List.replicate 32 0 } }

theorem key_grantBytes : (goKey.sw.ownerKeys.find (u32At grantBytes 8)).isSome = true := by
  have e : u32At grantBytes 8 = 0 := by decide +kernel
  rw [e]
  exact ownerKeys_swKey

theorem counter_grantBytes : goKey.sw.grantCounter < u64At grantBytes 16 := by
  show swKey.grantCounter < _
  rw [grantCounter_swKey]
  decide +kernel

/-- In GO, with namespace 1 of one granule mapped to volume 1 and one frame on the request ring. -/
def lpWith (f : List Byte) : State :=
  { State.reset with
    mc := { Mc.reset with phase := .go }
    mm := { Mm.reset with
      replayed := true
      namespaces := [(1, { granules := [0], blocks := 262144, attached := true, readOnly := false, key := 1 })] }
    rl := { Rl.reset with ntReady := List.range 16 }
    lp := { Lp.reset with
      enable := true, reqProd := f.length / 64, volMap := 1 :: List.replicate 15 0
      ring := writeCells 0 [] (reqOff 0) f } }

/-- A pool with more copies than it may hold has no room. -/
theorem poolRoom_full {s : State} {n : Namespace} {ps : List Piece} (h : poolCopies < s.mm.pool.length) :
    s.poolRoom n ps = false := by
  unfold State.poolRoom Mm.poolRoom
  rw [decide_eq_false_iff_not]
  omega

/-- A CMD frame of tag 5 on volume 1. -/
def lpCmdFrame (op count lba : Nat) : List Byte := lpFrame 1 0 1 5 (op + 256 + 2 ^ 32 * count) (leBytes lba 8)

/-- A squad of function `f` on tiles `l`, with no programs. -/
def squad (f : Nat) (l : List Nat) : Squad :=
  { func := f, flags := 0, lapMin := 1, lapMax := 8, overrun := 0, jobRetry := 0, maxJobs := 4,
    numerics := { index := 0, wfmt := 1, afmt := 1, accum := 0, history := 1, margin := 0, satLimit := 6, uwrHi := 0, uwrAct := 0 },
    tiles := l, programIx := 0, templates := [], layouts := [], state := .active }

/-- A directory entry with one version of 16 batons. -/
def objAt (v : Nat) (near : Option Nat) (h : Home) (st : DirState) : DirEntry :=
  { cur := Version.fresh v 16 7 near h, old := none, state := st, evictPending := false, discardPending := false, damaged := false,
    mark := 0, waits := [], segment := false, condemned := false }

/-- A lap of a job. -/
def lapOf (i j : Nat) : Lap :=
  { num := 1, start := 0, planned := 2, invoc := i, decode := [], prefill := [], examples := 0, filler := none, recalls := 0,
    joins := 0, swap := false, preempt := false, relayB := false, kvFree := 0, jobTag := j, update := false }

/-- A JOB_SUBMIT of kind `k` for squad 2, with the rest of its descriptor. -/
def subOf (k : Nat) (rest : List Byte) : Submit :=
  { prp1 := 0, d10 := BitVec.ofNat 32 (k + 0x300), desc := [BitVec.ofNat 8 k, 3, 0, 0, 2, 0, 0, 0] ++ rest }

/-- A job of squad 2 with tag 1. -/
def jobWith (k : Nat) (c : CmdId) (st : JobState) (rest : List Byte) : Job :=
  { State.reset.newJob c k 2 (subOf k rest) [] [] with tag := 1, state := st }

/-- GO with squad 2 of function `f` on tile 3, jobs `js`, and command 9 of queue 0 fetched. -/
def goJobs (f : Nat) (js : List Job) : State :=
  { State.reset with
    mc := { Mc.reset with phase := .go }
    qe := { Qe.reset with
      enabled := true, ready := true, fetched := [{ sq := 0, cid := 9 }]
      sqs := [(0, { size := 32, prio := 0, cq := 0, tail := 1, head := 0, blocked := none })]
      cqs := [(0, { size := 32, vector := 0, ien := true, head := 0, tail := 0 })] }
    sl := { Sl.reset with set_ := { SquadSet.empty with squads := [(2, squad f [3])] } }
    jd := { Jd.reset with jobs := js, nextTag := 5 } }

/-- The rest of a SCAN's descriptor: `n` blocks of namespace 1 in extents of 1 MiB, output `out`, result of `len` bytes. -/
def scanRest (n out len : Nat) : List Byte :=
  leBytes 0 16 ++ leBytes 4096 8 ++ leBytes len 8 ++ leBytes 0 24 ++ leBytes 1 4 ++ leBytes 0 2 ++ leBytes 0xFFFF 2 ++ leBytes 0 8
    ++ leBytes n 8 ++ leBytes 0 8 ++ [20, BitVec.ofNat 8 out] ++ leBytes 0 2 ++ List.replicate 16 0xFF ++ leBytes 0 124

/-- A layout section: one FIXED layout of 2,048-byte records with one 4-byte integer field. -/
def layoutsFix : List Byte :=
  leBytes 1 2 ++ leBytes 0 14 ++ leBytes 20 4 ++ leBytes 0 4 ++ leBytes 2048 4 ++ leBytes 1 2 ++ leBytes 0 10 ++ leBytes 0xFFFF 2
    ++ leBytes 0 10 ++ [1, 4] ++ leBytes 0 14

/-- GO with squad 2 of function `f` and that layout, namespace 1, and jobs `js`. -/
def goScan (js : List Job) : State :=
  { goJobs 1 js with
    mm := { Mm.reset with
      replayed := true, epoch := 6
      namespaces := [(1, { granules := [0], blocks := 262144, attached := true, readOnly := false, key := 1 })] }
    sl := { Sl.reset with set_ := { SquadSet.empty with squads := [(2, { squad 1 [3] with layouts := layoutsFix })] } } }

/-- A SCAN of squad 2 with an extent in flight. -/
def scanning (n out : Nat) : Job :=
  { jobWith 1 { sq := 0, cid := 9 } .admitted (scanRest n out 4096) with
    scan := { ScanProg.blank with issued := [0], nextExt := 1, aggs := [] } }

/-- An EMBED of squad 2 into a side list, with its second extent in flight. -/
def embedSide : Job :=
  { jobWith 2 { sq := 0, cid := 9 } .admitted (scanRest 512 2 0) with
    desc := spliceZ (jobWith 2 { sq := 0, cid := 9 } .admitted (scanRest 512 2 0)).desc 5 [2]
    scan := { ScanProg.blank with issued := [1], nextExt := 2 } }

/-- A queued EMBED of squad 2 with object 9. -/
def embedNine : Job :=
  { jobWith 2 { sq := 0, cid := 9 } .queued [] with
    desc := spliceZ (jobWith 2 { sq := 0, cid := 9 } .queued (scanRest 512 1 4096)).desc 100
      (leBytes 0 2 ++ leBytes 16 2 ++ leBytes 9 4 ++ leBytes 0xFFFFFFFF 4 ++ leBytes 64 2 ++ leBytes 0 2) }

/-- The same with OFFSETS output and room for 64 KiB. -/
def scanWide : Job := { scanning 512 1 with desc := (jobWith 1 { sq := 0, cid := 9 } .admitted (scanRest 512 1 65536)).desc }

/-- The layout that it uses. -/
def layoutFix : Layout := parseLayout layoutsFix 20

/-- A format-4 superblock of 128-bit codes with no list, a log of 16 blocks at LBA 8. -/
def superBlk : List Byte :=
  spliceZ (spliceZ (spliceZ (List.replicate 88 0) 4 (leBytes 4 2)) 8 (leBytes 128 2)) 72 (leBytes 8 8 ++ leBytes 16 8)

/-- A pending item. -/
def itemOne : SideItem := { id := 7, attr := 0, code := List.replicate 16 0, commit := none, death := none }

/-- The index of namespace 1 attached for squad 2 in region 7. -/
def idxWith (open_ : List Change) : Index :=
  { squad := 2, region := 7, super := superBlk, slot := 0, lists := [], segments := [], nextSeg := 0, open_ := open_, dead := [],
    deadMask := [], tombs := [], logUsed := 0, commit := none, waiting := [] }

/-- GO with squad 2 of function 2, region 7 for its index, namespace 1, and that index. -/
def goIndex (x : Index) (js : List Job) : State :=
  { goJobs 2 js with
    mm := { Mm.reset with
      replayed := true, epoch := 6
      namespaces := [(1, { granules := [0], blocks := 262144, attached := true, readOnly := false, key := 1 })] }
    sl := { Sl.reset with set_ := { SquadSet.empty with
      squads := [(2, squad 2 [3])]
      regions := [{ id := 7, tier := 0, kind := 6, owner := 2, access := 0, base := 0x40000, size := 0x4000000 }] } }
    idx := [(1, x)] }

/-- The rest of an INSERT's or DELETE's descriptor: `n` entries for namespace 1 and region 7, codes of `bits` bits. -/
def appendRest (bits n : Nat) : List Byte := leBytes 0 56 ++ leBytes 1 4 ++ leBytes 7 2 ++ leBytes bits 2 ++ leBytes n 4

/-- A COMMIT in landing whose pieces were on the medium at epoch 5. -/
def pendingAt5 : PendingCommit :=
  { tag := 1, items := [itemOne], tombs := [], taken := 1, pieces := [], medium := some 5, newSuper := none, rebase := false,
    logEnd := 1 }

/-- A REBASE ready at epoch 6. -/
def rebaseAt6 : PendingCommit :=
  { pendingAt5 with rebase := true, newSuper := some (superBlk, 1), tab := (0x40000, 0), ready := some 6 }

/-- A sealed segment of one item. -/
def segOne (o : Nat) : Segment := { items := [{ itemOne with commit := some 3 }], addr := 0x80000, object := o, gone := false }

/-- A MERGE source in host memory: an empty block for query 0. -/
def sourceOne : List Byte :=
  leBytes 0 16 ++ blockBytes 2 ⟨1, 0, 0, 128, 0, 0, 0, 0, 0, 0, false⟩ []

/-- A SEARCH of squad 2 with two DONE contexts on tile 3. -/
def searching : Job :=
  { jobWith 3 { sq := 0, cid := 9 } .admitted (leBytes 0 56 ++ leBytes 1 4) with
    search := { SearchProg.blank with ctxs := [(0, 3, 4), (1, 3, 5)], started := true, fmt := 2 } }

/-- Such a context. -/
def ctxDone (q : Nat) : Ctx :=
  { state := 4, exhausted := false, k := 1, tag := 1, epoch := 0, queryAddr := 0x140000, bits := 128, qindex := q, probeAddr := 0xC0000,
    count := 0, next := 0, heapAddr := 0x144000, held := 0, worst := 0, seen := 0, pred := 0xFFFF, maxDist := 0, left := [],
    wants := none }

/-- A model record for slot 0 on squad 2: weights in object 9, pages of 32 KiB in region 7, context 64, 100 tokens. -/
def modelRec : List Byte :=
  [0, 2] ++ leBytes 0 2 ++ leBytes 9 4 ++ leBytes 1 2 ++ leBytes 7 2 ++ leBytes 32768 4 ++ leBytes 64 4 ++ leBytes 100 4
    ++ leBytes 1 2 ++ leBytes 64 2 ++ leBytes 8 2 ++ leBytes 0 2 ++ leBytes 0 96

/-- That model as registered. -/
def modelOne : Model :=
  { squad := 2, record := modelRec, cap := 8, bound := false, clean := 0, lastJoin := 0, filler := none, nextJoin := 1, queue := [] }

/-- A sequence of it. -/
def seqOne : Sequence :=
  { model := 0, tokens := [5], tkv := 1, pages := [0], sample := [], rand := 0, join := 1, ready := true, append := none,
    closing := [], recalled := false }

/-- GO with squad 2 of function 3, the model's region and weights, sequences `qs` and jobs `js`. -/
def goServe (ms : KMap Model) (qs : KMap Sequence) (js : List Job) : State :=
  { goJobs 3 js with
    rl := { Rl.reset with dir := [(9, objAt 1 (some 0x100000) .none .resident)], ntReady := List.range 16 }
    sl := { Sl.reset with set_ := { SquadSet.empty with
      squads := [(2, { squad 3 [3] with templates := [[0]] })]
      regions := [{ id := 7, tier := 0, kind := 3, owner := 2, access := 0, base := 0x40000, size := 0x40000 }] } }
    jd := { Jd.reset with
      jobs := js, nextTag := 5, models := ms, seqs := qs, nextSeqId := 4, pools := [(7, { total := 8, free := [1, 2, 3, 4, 5, 6, 7], atPlan := 7 })] } }

/-- The same with a lap in flight. -/
def inLap (l : Lap) (s : State) : State :=
  { s with jd := { s.jd with laps := [(2, { LapState.blank with flight := some l })] } }

/-- OBJ command words: object 9, near-tier region 7, source `src`, one baton, source region 7. -/
def objWords (region src : Nat) : Dwords :=
  { nsid := 1, d10 := 9, d11 := BitVec.ofNat 32 region, d12 := BitVec.ofNat 32 src, d13 := 0, d14 := 1, d15 := 7 }

/-- GO with near-tier OBJECTS region 7, far-tier region 8, a namespace, directory `m` and copies `cs`. -/
def goObj (m : KMap DirEntry) (cs : List Copy) : State :=
  { goJobs 2 [] with
    mm := { Mm.reset with
      replayed := true, epoch := 6
      namespaces := [(1, { granules := [0], blocks := 262144, attached := true, readOnly := false, key := 1 })] }
    rl := { Rl.reset with dir := m, copies := cs, ntReady := List.range 16, ftReady := true }
    sl := { Sl.reset with set_ := { SquadSet.empty with
      regions := [{ id := 7, tier := 0, kind := 1, owner := 0, access := 0, base := 0x40000, size := 0x400000 },
        { id := 8, tier := 1, kind := 1, owner := 0, access := 0, base := 0, size := 0x8000000 }] } } }

/-- A copy of object 9 that command 9 began. -/
def copyOf (publish : Bool) (src : Nat) : Copy :=
  { object := 9, cmd := some ⟨{ sq := 0, cid := 9 }, publish, src, objWords (if publish then 8 else 7) 0, [1, 2, 3]⟩,
    publish := publish, region := if publish then 8 else 7, base := if publish then 0 else 0x40000, batons := 1, version := 1,
    snap := none, tag := 3, begun := 0 }


/-- Words of a STRUCTURE_LOAD or SQUAD_RETIRE command. -/
def loadWords (d10 d11 d12 : Nat) : Dwords :=
  { nsid := 0, d10 := BitVec.ofNat 32 d10, d11 := BitVec.ofNat 32 d11, d12 := BitVec.ofNat 32 d12, d13 := 0, d14 := 0, d15 := 0 }

/-- A format-4 image (R23 to R25) of no squads: five sections, of which PROGRAMS holds one template of one op. -/
def imageBytes : List Byte :=
  leBytes 0x4D49535A 4 ++ leBytes 4 2 ++ leBytes 0 2 ++ leBytes 368 4 ++ leBytes 5 4 ++ leBytes 77 8 ++ leBytes 0 8 ++ leBytes 64 4
    ++ leBytes 320 4 ++ leBytes 48 4 ++ leBytes 0 20
    ++ leBytes 1 2 ++ leBytes 192 2 ++ leBytes 192 4 ++ leBytes 0 8
    ++ leBytes 2 2 ++ leBytes 24 2 ++ leBytes 192 4 ++ leBytes 0 8
    ++ leBytes 3 2 ++ leBytes 32 2 ++ leBytes 192 4 ++ leBytes 0 8
    ++ leBytes 5 2 ++ leBytes 16 2 ++ leBytes 192 4 ++ leBytes 0 8
    ++ leBytes 6 2 ++ leBytes 0 2 ++ leBytes 192 4 ++ leBytes 128 4 ++ leBytes 0 4
    ++ leBytes 0 48
    ++ leBytes 1 4 ++ leBytes 0 12 ++ leBytes 64 4 ++ leBytes 1 4 ++ leBytes 0 40 ++ leBytes 0 64 ++ leBytes 0 48

/-- A running APPLY of command 9 for an image, at a step. -/
def loadOf (img : List Byte) (st : LoadStep) (next : SquadSet) (fresh : List Nat) : Load :=
  { c := { sq := 0, cid := 9 }, image := img, force := false, persist := false, step := st, next := next, fresh := fresh, changed := [],
    removed := [], retires := [] }

/-- GO with set `x`, an APPLY `l`, a retire `r`, tiles `ts` and owner key 0 active. -/
def goLoad (x : SquadSet) (l : Option Load) (r : Option Retire) (ts : KMap Tile) : State :=
  { goJobs 1 [] with
    sl := { Sl.reset with set_ := x, load := l, retire := r }, tiles := ts, rl := { Rl.reset with ntReady := List.range 16 }
    sw := swKey }

theorem key_imageBytes : ((goLoad SquadSet.empty none none []).sw.ownerKeys.find (imKey imageBytes)).isSome = true := by
  have e : imKey imageBytes = 0 := by decide +kernel
  rw [e]
  exact ownerKeys_swKey


/-- GO with squad 2 of function `f` on tiles 3 and 4, tile 3 as `t`, tile 4 as `u`, route 1 to the squad, route 2 to near tier
regions, route 3 to the host, region 7 of the squad, and a job with tag 1 that holds a pin of object 9. -/
def goTile (f : Nat) (t u : Tile) : State :=
  { goJobs f [{ jobWith 1 { sq := 0, cid := 9 } .admitted (scanRest 8 0 4096) with pins := [{ object := 9, version := 1, near := true }] }] with
    sl := { Sl.reset with set_ := { SquadSet.empty with
      squads := [(2, { squad f [3, 4] with layouts := layoutsFix })]
      routes := [{ id := 1, squad := 2, destKind := 0, dest := 2, vc := 0, express := 0, credits := 4 },
        { id := 2, squad := 2, destKind := 1, dest := 1, vc := 0, express := 0, credits := 4 },
        { id := 3, squad := 2, destKind := 3, dest := 0, vc := 0, express := 0, credits := 4 }]
      regions := [{ id := 7, tier := 0, kind := 3, owner := 2, access := 0, base := 0x40000, size := 0x200000 }] } }
    rl := { Rl.reset with dir := [(9, objAt 1 (some 0x100000) .none .resident)], ntReady := List.range 16, near := [(0x40005, 9)] }
    tiles := [(3, t), (4, u)] }

/-- A swept tile of squad 2 with a few bytes at 0x100 and 0x200. -/
def tileIn : Tile :=
  { Tile.reset with swept := true, squad := some 2, lane := [(0x100, 1), (0x101, 2), (0x104, 3), (0x200, 4), (0x204, 5), (0x205, 1)] }

/-- Such a tile with latch 0 full of ones. -/
def tileLatched : Tile :=
  { tileIn with latches := [{ Latch.reset with state := .full, data := List.replicate 2048 1, object := 9 }, Latch.reset] }

/-- A descriptor: its first 16 bytes for a kind under job tag 1, and the rest. -/
def opWords (kind : Nat) (rest : List Byte) : List Byte := padTo 64 (leBytes kind 4 ++ leBytes 1 4 ++ leBytes 0 8 ++ rest)

/-- MATMUL of 4 rows, 2 weight tiles from tile 0 of latch 0, DEQUANT output with AMAX. -/
def opMatmul (mode flags : Nat) : List Byte :=
  opWords 1 (leBytes 0x100 4 ++ leBytes 32 4 ++ leBytes 0x1000 4 ++ leBytes 256 4 ++ leBytes 4 2 ++ leBytes 2 1 ++ leBytes 0 1
    ++ leBytes 0 1 ++ leBytes mode 1 ++ leBytes flags 2 ++ leBytes 0x3F000000 4)

/-- XORPOP of 2 queries and 3 codes of 64 bits, in a mode. -/
def opXorpop (mode map : Nat) : List Byte :=
  opWords 2 (leBytes 0x100 4 ++ leBytes 0x1000 4 ++ leBytes 3 2 ++ leBytes 1 2 ++ leBytes 64 2 ++ leBytes 2 1 ++ leBytes 0 1
    ++ leBytes mode 4 ++ leBytes map 4)

/-- XORPOP of 1 query and 3 codes of 64 bits into context 0. -/
def opXorpopOne : List Byte :=
  opWords 2 (leBytes 0x100 4 ++ leBytes 0x1000 4 ++ leBytes 3 2 ++ leBytes 1 2 ++ leBytes 64 2 ++ leBytes 1 1 ++ leBytes 0 1
    ++ leBytes 1 4 ++ leBytes 1 4)

/-- REDUCE of 2 words in a scope over route 1. -/
def opReduce (op scope : Nat) : List Byte :=
  opWords 3 (leBytes 0x100 4 ++ leBytes 0x1000 4 ++ leBytes 2 4 ++ leBytes op 1 ++ leBytes 0 1 ++ leBytes scope 1 ++ leBytes 0 1
    ++ leBytes 3 2 ++ leBytes 1 2)

/-- ELTWISE of 2 elements. -/
def opElt (func it ot imm : Nat) : List Byte :=
  opWords 4 (leBytes 0x100 4 ++ leBytes 0x200 4 ++ leBytes 0x1000 4 ++ leBytes 2 4 ++ leBytes func 1 ++ leBytes it 1 ++ leBytes ot 2
    ++ leBytes imm 4)

/-- GATHER of 64 bytes from a source. -/
def opGather (kind route tile : Nat) : List Byte :=
  opWords 5 (leBytes 0x1000 4 ++ leBytes 64 4 ++ leBytes kind 2 ++ leBytes route 2 ++ leBytes tile 2 ++ leBytes 7 2 ++ leBytes 0 8)

/-- SCATTER of 32 bytes to a destination. -/
def opScatter (kind route tile off : Nat) : List Byte :=
  opWords 6 (leBytes 0x100 4 ++ leBytes 32 4 ++ leBytes kind 2 ++ leBytes route 2 ++ leBytes tile 2 ++ leBytes 7 2 ++ leBytes off 8)

/-- FILTER of 4,096 bytes with layout 0 and no predicate. -/
def opFilter (mode : Nat) : List Byte :=
  opWords 7 (leBytes 0x100 4 ++ leBytes 4096 4 ++ leBytes 0x4000 4 ++ leBytes 0x2000 4 ++ leBytes 0 2 ++ leBytes 0xFFFF 2
    ++ leBytes mode 4 ++ leBytes 0x8000 4)

/-- The same over `n` bytes, and with room for `cap` output bytes. -/
def opFilterOf (mode n : Nat) : List Byte :=
  opWords 7 (leBytes 0x100 4 ++ leBytes n 4 ++ leBytes 0x4000 4 ++ leBytes 0x2000 4 ++ leBytes 0 2 ++ leBytes 0xFFFF 2
    ++ leBytes mode 4 ++ leBytes 0x8000 4)
def opFilterCap (mode cap : Nat) : List Byte :=
  opWords 7 (leBytes 0x100 4 ++ leBytes 4096 4 ++ leBytes 0x4000 4 ++ leBytes cap 4 ++ leBytes 0 2 ++ leBytes 0xFFFF 2
    ++ leBytes mode 4 ++ leBytes 0x8000 4)

/-- Tile 3 with context 0 as `x`, latch 0 full of a block of object 9, the code object of the index its job searches. -/
def goSearchTile (x : Ctx) : State :=
  let s := goTile 1 { tileLatched with ctxs := [(0, x)], lane := [(0x001E0000, 7)] } tileIn
  { s with jd := { s.jd with jobs := s.jd.jobs.map (fun j => { j with search := { j.search with
      base := List.replicate 32 0 ++ leBytes 9 4 } }) } }

/-- TOPK of the 2 best of 3 keys into a list. -/
def opTopk (type out : Nat) : List Byte :=
  opWords 8 (leBytes 0x100 4 ++ leBytes 0x200 4 ++ leBytes 3 4 ++ leBytes 2 2 ++ leBytes out 1 ++ leBytes 5 1 ++ leBytes 0x1000 4
    ++ leBytes type 4)

/-- LOAD_BATON of baton `b` of object 9 into latch 1. -/
def opLoad (b : Nat) : List Byte := opWords 9 (leBytes 9 4 ++ leBytes b 4 ++ leBytes 1 1)

/-- STATS of 2 rows of 2 INT32 columns for tensor 6. -/
def opStats (mode : Nat) : List Byte :=
  opWords 0x0B (leBytes 0x100 4 ++ leBytes 2 4 ++ leBytes 4 4 ++ leBytes 2 1 ++ leBytes 2 1 ++ leBytes mode 2 ++ leBytes 6 2)

/-- The first 32 bytes of the header (R161) of baton 3 of object 9, version 1. -/
def headStart : List Byte := leBytes 9 4 ++ leBytes 3 4 ++ leBytes 1 4 ++ leBytes 0 20

/-- The bytes its CRC covers, with a payload and column scales of zeros. -/
def crcBytes : List Byte := List.replicate 65536 0 ++ List.replicate 256 0 ++ headStart

/-- A header with CRC `c`. -/
def headWith (c : Nat) : List Byte := headStart ++ leBytes c 4 ++ List.replicate 284 0

/-- A LOAD_BATON of that baton in flight. -/
def fillOne : OpInFlight := { unit := 3, idx := 0, desc := opLoad 3, reads := [], writes := [], gives := none, counts := none }

/-- Tile 3 waits for the baton, whose header stands in the near tier. -/
def goFill : State :=
  let s := goTile 1 { tileIn with flight := [fillOne] } tileIn
  { s with rl := { s.rl with near := writeCells 0 [] (0x100000 + 960) (headWith (crc32c crcBytes).toNat) } }

/-- The pin its job holds. -/
def pinNine : Pin := { object := 9, version := 1, near := true }

set_option maxRecDepth 10000 in
theorem headWith_fields (c : Nat) (h : c < 4294967296) :
    (headWith c).length = 320 ∧ u32At (headWith c) 32 = c ∧ u32At (headWith c) 0 = 9 ∧ u32At (headWith c) 4 = 3 ∧
    u32At (headWith c) 8 = 1 ∧ sliceZ (headWith c) 64 256 = List.replicate 256 0 ∧ (headWith c).take 32 = headStart := by
  have e : leBytes c 4 = [BitVec.ofNat 8 c, BitVec.ofNat 8 (c / 256), BitVec.ofNat 8 (c / 256 / 256),
      BitVec.ofNat 8 (c / 256 / 256 / 256)] := rfl
  unfold headWith
  rw [e]
  refine ⟨rfl, ?_, rfl, rfl, rfl, rfl, rfl⟩
  show (BitVec.ofNat 8 c).toNat + 256 * ((BitVec.ofNat 8 (c / 256)).toNat + 256 * ((BitVec.ofNat 8 (c / 256 / 256)).toNat
    + 256 * ((BitVec.ofNat 8 (c / 256 / 256 / 256)).toNat + 256 * 0))) = c
  simp only [BitVec.toNat_ofNat]
  omega

theorem readCells_nil (a n : Nat) : readCells 0 [] a n = List.replicate n 0 := by
  unfold readCells
  exact List.ext_getElem (by simp) (fun i h1 h2 => by simp [readCell, KMap.findD, KMap.find])

/-- The baton's bytes as the relay reads them. -/
theorem batonBytes_goFill : goFill.batonBytes pinNine 0 3 = (headWith (crc32c crcBytes).toNat, List.replicate 65536 0) := by
  have h := headWith_fields (crc32c crcBytes).toNat (by omega)
  have e1 : goFill.batonBytes pinNine 0 3 =
      (readCells 0 goFill.rl.near (0x100000 + 960) 320, readCells 0 goFill.rl.near (0x100000 + 262144) 65536) := rfl
  have e2 : goFill.rl.near = writeCells 0 [] (0x100000 + 960) (headWith (crc32c crcBytes).toNat) := rfl
  have r1 := readCells_in 0 [] (0x100000 + 960) 320 _ h.1
  have r2 := readCells_out 0 [] (0x100000 + 960) (0x100000 + 262144) 65536 (headWith (crc32c crcBytes).toNat) (by rw [h.1]; omega)
  rw [e1, e2, r1, r2, readCells_nil]

/-- That baton is good. -/
theorem batonOk_goFill : batonOk (goFill.batonBytes pinNine 0 3).1 (goFill.batonBytes pinNine 0 3).2 9 3 1 = true := by
  rw [batonBytes_goFill]
  obtain ⟨_, h1, h2, h3, h4, h5, h6⟩ := headWith_fields (crc32c crcBytes).toNat (by omega)
  unfold batonOk
  rw [h1, h2, h3, h4, h5, h6]
  have hc : List.replicate 65536 0 ++ List.replicate 256 0 ++ headStart = crcBytes := by unfold crcBytes; exact Eq.refl _
  rw [hc]
  simp only [beq_self_eq_true, Bool.and_self]

/-- Tile 3 waits for the baton, and the near tier holds no header. -/
def goBad : State :=
  let s := goTile 1 { tileIn with flight := [fillOne] } tileIn
  { s with jd := { Jd.reset with jobs := [{ jobWith 1 { sq := 0, cid := 9 } .admitted (scanRest 8 0 4096) with
    squad := 9, pins := [pinNine] }] } }

/-- That baton is not good. -/
theorem badBaton : batonOk (goBad.batonBytes pinNine 0 3).1 (goBad.batonBytes pinNine 0 3).2 9 3 1 = false := by
  have h : (u32At (goBad.batonBytes pinNine 0 3).1 0 == 9) = false := by decide +kernel
  unfold batonOk
  rw [h]
  simp only [Bool.and_false, Bool.false_and]

/-- A fault message with no address or detail word but `d0`. -/
def msgOf (source kind cls d0 : Nat) (squad tile : Option Nat) : FaultMsg :=
  { source := source, kind := kind, cls := cls, addr := 64, d0 := BitVec.ofNat 32 d0, d1 := 0, d2 := 0, d3 := 0, squad := squad,
    tile := tile, jobs := [], object := none }

/-- The record of such a message. -/
def recOf (source kind cls : Nat) : Record :=
  { source := source, kind := kind, cls := cls, seq := 0, beat := 0, addr := 64, d0 := 0, d1 := 0, d2 := 0, d3 := 0 }

/-- GO with squad 2 on tile 3, command 9 fetched, squad 2 as `q`, standing causes `l` and a clear that runs. -/
def goFault (q : SquadState) (l : List Standing) (k : Option ClearOp) : State :=
  { goJobs 1 [] with
    rl := { Rl.reset with ntReady := List.range 16 }
    sl := { Sl.reset with set_ := { SquadSet.empty with squads := [(2, { squad 1 [3] with state := q })] } }
    tiles := [(3, { tileIn with halted := true, lane := [(1, 1)] })]
    fl := { Fl.reset with standing := l, clear := k } }

/-- The same with the module HALTED. -/
def haltedWith (l : List Standing) : State := { goFault .active l none with mc := { Mc.reset with phase := .halted } }
/-- A TRAIN job at its pass 1 under STOP: its one layer holds one weight that is not 0, and its learning rate is 0. -/
def stopTrain : Job :=
  { jobWith 0x20 { sq := 0, cid := 9 } .admitted (leBytes 0 96 ++ leBytes 5 4 ++ leBytes 1 2 ++ leBytes 1 2
      ++ leBytes 0 32 ++ leBytes 7 2 ++ leBytes 0 2 ++ leBytes 9 4 ++ leBytes 0xFFFFFFFF 4) with
    pins := [{ object := 9, version := 1, near := true }], lap := { LapProg.blank with step := 1 } }

/-- GO with that job, its master copies in region 7 and its weights in object 9. -/
def stopState : State :=
  inLap { lapOf 0xFF 1 with update := true } { goJobs 4 [stopTrain] with
    rl := { Rl.reset with
      ntReady := List.range 16, dir := [(9, objAt 1 (some 0x100000) .none .resident)]
      near := [(0x40002, 0x80), (0x40003, 0x3F), (0x100010, 1)] }
    sl := { Sl.reset with set_ := { SquadSet.empty with
      squads := [(2, squad 4 [3])]
      regions := [{ id := 7, tier := 0, kind := 2, owner := 2, access := 0, base := 0x40000, size := 0x40000 }] } }
    ns := { Ns.reset with squads := [(2, { NsSquad.reset with uwrHi := 0xBF800000, ctl := 2 })] } }

/-- Its layer. -/
def stopSpan : LayerSpan := { layer := 6, tensor := 1, first := 0, count := 1, depth := 1 }

/-- What its passes read. -/
def stopTraining : Training :=
  { job := stopTrain, squad := squad 4 [3], pin := { object := 9, version := 1, near := true }
    ver := Version.fresh 1 16 7 (some 0x100000) .none
    region := { id := 7, tier := 0, kind := 2, owner := 2, access := 0, base := 0x40000, size := 0x40000 }, bank := 0x40000 }

/-- The invariant of a sum of which at most the member `v` is not 0. -/
theorem sumSome_one {w : Nat} (add : BitVec w → BitVec w → BitVec w) (pick : Nat → Nat) (v : BitVec w)
    (h00 : add 0 0 = 0) (h10 : add v 0 = v) (h01 : add 0 v = v) :
    ∀ (n : Nat) (l : List (BitVec w)), l.length = n + 1 →
      (l.Perm (List.replicate (n + 1) 0) → sumSome add pick n l = 0) ∧
      (l.Perm (v :: List.replicate n 0) → sumSome add pick n l = v) := by
  intro n
  induction n with
  | zero =>
    intro l hl
    obtain ⟨a, rfl⟩ := List.length_eq_one_iff.mp hl
    constructor
    · intro h; simpa [sumSome] using h
    · intro h; simpa [sumSome] using h
  | succ n ih =>
    intro l hl
    have key : ∀ i < l.length, l.Perm (l.getD i 0 :: l.eraseIdx i) := by
      intro i hi
      rw [List.getD_eq_getElem _ _ hi]
      exact (List.getElem_cons_eraseIdx_perm hi).symm
    generalize hi : pick (2 * n) % max 1 l.length = i
    have hil : i < l.length := by
      rw [← hi]; have := Nat.mod_lt (pick (2 * n)) (show 0 < max 1 l.length by omega); omega
    generalize hr : l.eraseIdx i = r
    have hrl : r.length = n + 1 := by rw [← hr, List.length_eraseIdx_of_lt hil]; omega
    generalize hk : pick (2 * n + 1) % max 1 r.length = k
    have hkl : k < r.length := by
      rw [← hk]; have := Nat.mod_lt (pick (2 * n + 1)) (show 0 < max 1 r.length by omega); omega
    have p1 : l.Perm (l.getD i 0 :: r) := hr ▸ key i hil
    have p2 : r.Perm (r.getD k 0 :: r.eraseIdx k) := by
      rw [List.getD_eq_getElem _ _ hkl]
      exact (List.getElem_cons_eraseIdx_perm hkl).symm
    have p3 : l.Perm (l.getD i 0 :: r.getD k 0 :: r.eraseIdx k) := p1.trans (List.Perm.cons _ p2)
    have e : addSome add (pick (2 * n)) (pick (2 * n + 1)) l = add (l.getD i 0) (r.getD k 0) :: r.eraseIdx k := by
      unfold addSome
      simp only [hi, hr, hk]
    have el : (add (l.getD i 0) (r.getD k 0) :: r.eraseIdx k).length = n + 1 := by
      rw [List.length_cons, List.length_eraseIdx_of_lt hkl]; omega
    have hs : sumSome add pick (n + 1) l = sumSome add pick n (add (l.getD i 0) (r.getD k 0) :: r.eraseIdx k) := by
      show sumSome add pick n _ = _
      rw [e]
    obtain ⟨i0, i1⟩ := ih _ el
    have zeros : ∀ (a : BitVec w) (m : List (BitVec w)) (q : Nat), (a :: m).Perm (List.replicate (q + 1) 0) →
        a = 0 ∧ m.Perm (List.replicate q 0) := by
      intro a m q h
      have ha : a = 0 := List.eq_of_mem_replicate (h.mem_iff.mp (List.mem_cons_self ..))
      subst ha
      exact ⟨rfl, (List.perm_cons 0).mp h⟩
    constructor
    · intro h
      rw [hs]
      obtain ⟨a0, h1⟩ := zeros _ _ _ (p3.symm.trans h)
      obtain ⟨b0, h2⟩ := zeros _ _ _ h1
      apply i0
      rw [a0, b0, h00]
      exact List.Perm.cons _ h2
    · intro h
      rw [hs]
      have h1 := p3.symm.trans h
      rcases List.mem_cons.mp (h1.mem_iff.mp (List.mem_cons_self ..)) with ha | ha
      · rw [ha] at h1
        obtain ⟨b0, h2⟩ := zeros _ _ _ ((List.perm_cons v).mp h1)
        apply i1
        rw [ha, b0, h10]
        exact List.Perm.cons _ h2
      · have ha := List.eq_of_mem_replicate ha
        rw [ha] at h1
        have h3 : (r.getD k 0 :: r.eraseIdx k).Perm (v :: List.replicate n 0) :=
          (List.perm_cons 0).mp (h1.trans (List.Perm.swap 0 v (List.replicate n 0)))
        rcases List.mem_cons.mp (h3.mem_iff.mp (List.mem_cons_self ..)) with hb | hb
        · rw [hb] at h3
          apply i1
          rw [ha, hb, h01]
          exact h3
        · have hb := List.eq_of_mem_replicate hb
          rw [hb] at h3
          apply i1
          rw [ha, hb, h00]
          exact h3

theorem near_stop (i : Nat) (h : 1 ≤ i ∧ i < 1024) : stopState.nearRead (0x40000 + 12 * i) 12 = List.replicate 12 0 := by
  show readCells 0 _ _ _ = _
  unfold readCells
  refine List.ext_getElem (by simp) (fun j h1 h2 => ?_)
  have hj : j < 12 := by simpa using h1
  simp only [List.getElem_map, List.getElem_range, List.getElem_replicate, readCell, KMap.findD]
  have e : stopState.rl.near = [(0x40002, 0x80), (0x40003, 0x3F), (0x100010, 1)] := rfl
  rw [e]
  simp only [KMap.find]
  rw [if_neg (by omega), if_neg (by omega), if_neg (by omega)]
  rfl

theorem gradient_stop (i : Nat) : stopState.gradient stopTraining i = 0 := by
  unfold State.gradient
  have e : ∀ a, (stopState.tile (stopTraining.squad.tiles.getD (i / max 1 stopTraining.perTile) 0)).bytes a 4 = [0, 0, 0, 0] := by
    intro a
    have : (stopState.tile (stopTraining.squad.tiles.getD (i / max 1 stopTraining.perTile) 0)) = Tile.reset := rfl
    rw [this]
    rfl
  rw [e]
  rfl

/-- Masters of zeros. -/
def noMaster : Master := { w := 0, m := 0, v := 0 }

theorem master_stop (i : Nat) (h : 1 ≤ i ∧ i < 1024) : stopState.master stopTraining i = noMaster := by
  unfold State.master
  rw [show stopTraining.bank = 0x40000 from rfl, near_stop i h]
  rfl

theorem update_stop (i : Nat) (h : 1 ≤ i ∧ i < 1024) :
    stopState.updateOf stopTraining i = stopTraining.job.update stopTraining.job.lap.step 0 noMaster := by
  unfold State.updateOf
  rw [gradient_stop, master_stop i h]

theorem map_split {α : Type} (f : Nat → α) (z : α) (n : Nat) (h : ∀ i, 1 ≤ i ∧ i < n + 1 → f i = z) :
    (List.range (n + 1)).map f = f 0 :: List.replicate n z := by
  rw [List.range_succ_eq_map, List.map_cons, List.map_map]
  congr 1
  refine List.ext_getElem (by simp) (fun j h1 h2 => ?_)
  have hj : j < n := by simpa using h1
  simp only [List.getElem_map, List.getElem_range, List.getElem_replicate, Function.comp]
  exact h _ (by omega)

theorem training_stop : stopState.training stopTrain = some stopTraining := by rfl

theorem elems_stop : stopState.layerElems stopTraining stopSpan = List.range 1024 := by decide +kernel

/-- Its pass 1 sums. -/
theorem pass1_stop : stopState.pass1Sums stopTrain [stopSpan] = [{ layer := 6, sumDw := 0, sumW := 0x3F800000 }] := by
  unfold State.pass1Sums
  rw [training_stop]
  show [stopState.layerSums stopTraining stopSpan 0] = _
  unfold State.layerSums
  simp only [elems_stop]
  rw [map_split (fun i => f32Mul (stopState.updateOf stopTraining i).2 (stopState.updateOf stopTraining i).2) 0 1023
    (fun i h => by simp only [update_stop i h]; decide +kernel)]
  rw [map_split (fun i => f32Mul (stopState.master stopTraining i).w (stopState.master stopTraining i).w) 0 1023
    (fun i h => by simp only [master_stop i h]; decide +kernel)]
  have d0 : f32Mul (stopState.updateOf stopTraining 0).2 (stopState.updateOf stopTraining 0).2 = 0 := by decide +kernel
  have w0 : f32Mul (stopState.master stopTraining 0).w (stopState.master stopTraining 0).w = 0x3F800000 := by decide +kernel
  rw [d0, w0]
  have s0 := fun p => (sumSome_one f32Add p 0x3F800000 (by decide +kernel) (by decide +kernel) (by decide +kernel) 1023
    (0 :: List.replicate 1023 0) (by rw [List.length_cons, List.length_replicate])).1 (List.Perm.refl _)
  have s1 := fun p => (sumSome_one f32Add p 0x3F800000 (by decide +kernel) (by decide +kernel) (by decide +kernel) 1023
    (0x3F800000 :: List.replicate 1023 0) (by rw [List.length_cons, List.length_replicate])).2 (List.Perm.refl _)
  unfold sum32
  simp only [List.length_cons, List.length_replicate, Nat.add_sub_cancel]
  rw [s0, s1]
  rfl

/-- The same job under HOLD. -/
def holdState : State :=
  { stopState with ns := { Ns.reset with squads := [(2, { NsSquad.reset with uwrHi := 0xBF800000, ctl := 1 })] } }

theorem training_hold : holdState.training stopTrain = some stopTraining := by rfl

theorem layerSums_hold : holdState.layerSums stopTraining stopSpan 0 = stopState.layerSums stopTraining stopSpan 0 := by
  have e : holdState.layerElems stopTraining stopSpan = stopState.layerElems stopTraining stopSpan := by
    rw [elems_stop]; decide +kernel
  unfold State.layerSums
  simp only [e]
  rfl

theorem pass1_hold : holdState.pass1Sums stopTrain [stopSpan] = [{ layer := 6, sumDw := 0, sumW := 0x3F800000 }] := by
  rw [← pass1_stop]
  unfold State.pass1Sums
  rw [training_hold, training_stop]
  show [holdState.layerSums stopTraining stopSpan 0] = [stopState.layerSums stopTraining stopSpan 0]
  rw [layerSums_hold]

/-- A directory with every entry in use. -/
@[irreducible] def fullDir : KMap DirEntry := (List.range 262144).map (fun i => (i + 100, objAt 1 none (.far 0) .home))

theorem length_fullDir : fullDir.length = 262144 := by
  unfold fullDir
  rw [List.length_map, List.length_range]

theorem find9_fullDir : KMap.find fullDir 9 = none := by
  have h : ∀ (l : List Nat) (v : DirEntry), KMap.find (l.map (fun i => (i + 100, v))) 9 = none := by
    intro l v
    induction l with
    | nil => rfl
    | cons a l ih =>
      simp only [List.map_cons, KMap.find]
      rw [if_neg (by omega)]
      exact ih
  unfold fullDir
  exact h _ _

theorem dir_goObj (m : KMap DirEntry) : (goObj m []).rl.dir.find (Dwords.object (objWords 7 0)) = KMap.find m 9 := rfl

theorem taken_goObj (m : KMap DirEntry) : m.length ≤ (goObj m []).dirTaken := Nat.le_add_right _ _

theorem busy_goObj (m : KMap DirEntry) (h : KMap.find m 9 = none) :
    (goObj m []).objBusy (Dwords.object (objWords 7 0)) = false := by
  unfold State.objBusy
  rw [dir_goObj, h]
  rfl

theorem find_fullDir : (goObj fullDir []).rl.dir.find (Dwords.object (objWords 7 0)) = none :=
  (dir_goObj fullDir).trans find9_fullDir

theorem taken_fullDir : 262144 ≤ (goObj fullDir []).dirTaken := length_fullDir ▸ taken_goObj fullDir

theorem busy_fullDir : (goObj fullDir []).objBusy (Dwords.object (objWords 7 0)) = false := busy_goObj fullDir find9_fullDir

/-! ## Ill-formed commands -/

/-- A voltage past its 16-bit field. -/
theorem test_wf_fits : Instr.wf (.vinAccepted 0x10000) = false := by decide +kernel

/-- Stacks are numbered 0 to 15 (R12). -/
theorem test_wf_stack : Instr.wf (.ntSweepDone 16) = false := by decide +kernel

/-- There are two flash boards. -/
theorem test_wf_board : Instr.wf (.flashThrottle 2 0) = false := by decide +kernel

/-- Queues are numbered 0 to 512 (R312). -/
theorem test_wf_queue : Instr.wf (.asyncEventRequest { sq := 513, cid := 7 }) = false := by decide +kernel

/-- A command identifier has 16 bits. -/
theorem test_wf_cid : Instr.wf (.asyncEventRequest { sq := 0, cid := 0x10000 }) = false := by decide +kernel

/-- A slot past the last. -/
theorem test_wf_slot : Instr.wf (.firmwareCommit { sq := 0, cid := 7 } 64 0 true []) = false := by decide +kernel

/-- A block holds 4,096 bytes. -/
theorem test_wf_blockData : Instr.wf (.write { sq := 0, cid := 7 } 1 0 0 [List.replicate 4097 0]) = false := by decide +kernel

/-- Parity groups are numbered 0 to 207 (R177). -/
theorem test_wf_group : Instr.wf (.foldRow 208 0 []) = false := by decide +kernel

/-- Channels are numbered 0 to 127. -/
theorem test_wf_channel : Instr.wf (.retryExhausted 128 0) = false := by decide +kernel

/-- A channel has 32 dies. -/
theorem test_wf_die : Instr.wf (.eraseFail 0 32 0) = false := by decide +kernel

/-- A die has 32,768 blocks. -/
theorem test_wf_block : Instr.wf (.eraseFail 0 0 32768) = false := by decide +kernel

/-- A job descriptor has 256 bytes (R320). -/
theorem test_wf_descriptor : Instr.wf (.scan { sq := 0, cid := 7 } { prp1 := 0, d10 := 0, desc := [] }) = false := by decide +kernel

/-- Squads are numbered 0 to 63 (R25). -/
theorem test_wf_squad : Instr.wf (.resetSquad 64) = false := by decide +kernel

/-- Tiles are numbered 0 to 1,023 (R55). -/
theorem test_wf_tile : Instr.wf (.tileSweepDone 1024) = false := by decide +kernel

/-- An op descriptor has 64 bytes (R57). -/
theorem test_wf_opBytes : Instr.wf (.matmul 0 []) = false := by decide +kernel

/-- A tile has four units. -/
theorem test_wf_unit : Instr.wf (.opComplete 0 4) = false := by decide +kernel

/-- A tile has two latches (R71). -/
theorem test_wf_latch : Instr.wf (.batonFillDone 0 2 .readable) = false := by decide +kernel

/-- A namespace id has 32 bits. -/
theorem test_wf_dwords : Instr.wf (.objEvict { sq := 0, cid := 7 } { nsid := 0x100000000, d10 := 0, d11 := 0, d12 := 0, d13 := 0, d14 := 0, d15 := 0 }) = false := by decide +kernel

/-- There are eight management cores. -/
theorem test_wf_core : Instr.wf (.mgWatchdogExpiry 8) = false := by decide +kernel

/-- Volumes are numbered 1 to 16. -/
theorem test_wf_volume : Instr.wf (.lpVolMapWrite 17 0 []) = false := by decide +kernel

/-- A source id has 12 bits (R398). -/
theorem test_wf_message : Instr.wf (.faultMessage { source := 0x1000, kind := 1, cls := 0, addr := 0, d0 := 0, d1 := 0, d2 := 0, d3 := 0, squad := none, tile := none, jobs := [], object := none }) = false := by decide +kernel

/-- A cycle carries at least one byte. -/
theorem test_wf_cycle : Instr.wf (.wordProgram [{ off := 0, word := 0, len := 0 }]) = false := by decide +kernel

/-- A cycle lies in the window of 128 MiB (R423). -/
theorem test_wf_cycleAddr : Instr.wf (.wordProgram [{ off := 0x08000000, word := 0, len := 4 }]) = false := by decide +kernel

/-- Physical positions are numbered 0 to 1,055 (R134). -/
theorem test_wf_fuse : Instr.wf (.fuseReadDone { FuseMap.blank with phys := [1056] }) = false := by decide +kernel

/-- Function 0 has BAR0 and BAR2 (R9). -/
theorem test_wf_address : Instr.wf (.reg64LowRead { fn := 0, bar := 1, off := 0 }) = false := by decide +kernel

/-! ## Values from the spec -/

/-- Tile T(5,3) has id 101 (the example after R10). -/
theorem test_tile_id : tileId 5 3 = 101 := by decide

/-- A DATA frame of 16,384 bytes takes 257 cells (the example after R355). -/
theorem test_data_frame_cells : ((lpDataFrames 7 (List.replicate 16384 1) 1 0).map List.length) = [257 * 64] := by decide +kernel

/-- LP_ID reads protocol version 1.4 (R356). -/
theorem test_lp_id : State.reset.readLp 0 = 0x0104 := by decide

/-- Code 70 of 256-bit codes begins at byte 2,144 of its latch (the example of chapter 04). -/
theorem test_code_place : (codeAt 256 (fun k => if k = 2144 then 0x5C else 0) 70).head? = some 0x5C := by decide

/-- 0xB6 and 0x5C differ in 5 bits (the same example). -/
theorem test_hamming : hamming [0x5C] [0xB6] 8 = 5 := by decide

/-- A reference of 6.35 with margin 1 gives an INT8 factor of 10 (the example of chapter 05). -/
theorem test_quant_factor : quantFactor 1 1 (some 0x40CB3333) = 0x41200000 := by decide +kernel

/-- At that factor 6.35 ties to the even code 64, 0.42 gives 4, and 0.05 flushes (the same example). -/
theorem test_quant : (quantEl 0 0 0x41200000 (f32 0x40CB3333)).1 = 64 ∧ (quantEl 0 0 0x41200000 (f32 0x3ED70A3D)).1 = 4 ∧
    quantEl 0 0 0x41200000 (f32 0x3D4CCCCC) = (0, 2) := by decide +kernel

/-- The record of the example of chapter 05 names tensor 17 of squad 1 (R124). -/
theorem test_keeper_address : nsAddr 17 1 0xFFFF = 0x000000FFFF010011 := by decide

/-- Pieces 0, 1 and 3 on the medium read 0x0B in log page 0xC1 (the example of chapter 11). -/
theorem test_on_medium : bitsOf ([true, true, false, true].map (fun m =>
    { num := 0, slba := 0, blocks := [], zeros := 0, stripe := none, off := 0, onMedium := m })) = 0x0B := by decide

/-- The record of the example of chapter 15: source 0x025, kind 0x02, class 1, sequence 0x0412, beat 12,400. -/
def exampleRecord : Record := ⟨0x25, 2, 1, 0x412, 12400, 0x1C3A0, 12, 0, 0, 0⟩

/-- Its head is the one the example gives. -/
theorem test_record_head : u64At exampleRecord.bytes 0 = 0x000C1C0104902025 := by decide +kernel

/-- The MATMUL of the example of chapter 03 passes decode on a tile of a squad: 256 rows from latch 1, raw. -/
def exampleMatmul : List Byte :=
  [0x01, 0, 5, 0, 0x2A, 0, 0, 0, 1, 1, 3, 0, 0, 0, 0, 0, 0, 0, 0, 0, 0, 4, 0, 0, 0, 0, 4, 0, 0, 1, 0, 0, 0, 1, 0x40, 0, 1, 0, 0, 0]
    ++ List.replicate 24 0

theorem test_example_matmul : State.reset.decodeOk (squad 1 [3]) 2 3 exampleMatmul = true ∧ opLatch exampleMatmul = some 1 ∧
    opTag exampleMatmul = 42 ∧ (State.reset.opWrites (squad 1 [3]) 3 exampleMatmul).getLast? = some (3, 0x4FF00, 256) := by decide +kernel

/-- The CRC-32C of the nine digits, its published check value. -/
theorem test_crc32c : 0xFFFFFFFF - ([0x31, 0x32, 0x33, 0x34, 0x35, 0x36, 0x37, 0x38, 0x39] : List Byte).foldl
    (fun c b => crcByteN c b.toNat) 0xFFFFFFFF = 0xE3069283 := by decide +kernel

/-! ## Steps -/

/-- A step takes the front command and leaves the rest. -/
theorem test_step_front : step { State.reset with pending := [.nsClrCnt, .resetAll] } =
    exec .nsClrCnt { State.reset with pending := [.resetAll] } := by rfl

/-- On an empty queue the module idles. -/
theorem test_step_idle : step State.reset = .next State.reset := by rfl

/-- A beat of the Pacer is counted from 0 (R361). -/
theorem test_reset_beat : State.reset.pc.beat = 0 := by decide

/-- An Asynchronous Event Request waits in GO. -/
theorem test_aer_waits : (match exec (.asyncEventRequest c7) goAdmin with
    | .next t => t.qe.aers
    | _ => []) = [c7] := by decide +kernel

/-! ## Witnesses -/

/-- The hypotheses of StepRunsTheFrontCommand are met. -/
theorem witness_StepRunsTheFrontCommand :
    (∃ (s : State), (s.pending = [])) :=
  ⟨State.reset, by decide +kernel⟩

/-- The hypotheses of EveryStepKeepsMemoriesTablesAndQueue are met. -/
theorem witness_EveryStepKeepsMemoriesTablesAndQueue :
    (∃ (s : State), (s.inForm)) :=
  ⟨State.reset, State.inForm_reset⟩

/-- The hypotheses of InputPowerEvents are met. -/
theorem witness_InputPowerEvents :
    (∃ (v : Nat) (s : State), (s.power.vinAccepted = false) ∧ (s.power.failing = false) ∧ (3950 ≤ v ∧ v ≤ 6400)) ∧
    (∃ (s : State), (s.power.vinAccepted = true) ∧ (s.power.bankCharged = false) ∧ (s.power.failing = false) ∧ (s.power.modEn = false)) ∧
    (∃ (s : State), (s.power.vinAccepted = true) ∧ (s.power.bankCharged = false) ∧ (s.power.failing = false) ∧ (s.power.modEn = true) ∧ (s.power.perst = false)) ∧
    (∃ (s : State), (s.power.vinAccepted = true) ∧ (s.power.bankCharged = false) ∧ (s.power.failing = false) ∧ (s.power.modEn = true) ∧ (s.power.perst = true)) ∧
    (∃ (v : Nat) (s : State), (s.power.vinAccepted = true) ∧ (s.power.failing = false) ∧ (v < 4000 ∨ 6000 < v) ∧ (s.linkUp = true) ∧ (s.ntAll = true)) ∧
    (∃ (v : Nat) (s : State), (s.power.vinAccepted = true) ∧ (4000 ≤ v ∧ v ≤ 6000)) ∧
    (∃ (v : Nat) (s : State), (s.power.vinAccepted = true) ∧ (s.power.failing = false)) ∧
    (∃ (s : State), (s.power.failing = true)) :=
  ⟨⟨3950, { State.reset with power := { Power.reset with vinAccepted := false } }, by decide +kernel⟩,
   ⟨{ State.reset with power := { Power.reset with bankCharged := false, modEn := false } }, by decide +kernel⟩,
   ⟨{ State.reset with power := { Power.reset with bankCharged := false } }, by decide +kernel⟩,
   ⟨{ State.reset with power := { Power.reset with bankCharged := false, perst := true } }, by decide +kernel⟩,
   ⟨3999, { State.reset with rl := { Rl.reset with ntReady := List.range 16 } }, by decide +kernel⟩,
   ⟨4000, State.reset, by decide +kernel⟩,
   ⟨3799, State.reset, by decide +kernel⟩,
   ⟨{ State.reset with power := { Power.reset with failing := true } }, by decide +kernel⟩⟩

/-- The hypotheses of clause 1 of PinEvents are met. -/
theorem witness_PinEvents_1 :
    (∃ (s : State), (s.power.modEn = false) ∧ (s.power.vinAccepted = true) ∧ (s.power.bankCharged = true) ∧ (s.power.failing = false) ∧ (s.power.perst = false)) :=
  ⟨{ State.reset with power := { Power.reset with modEn := false } }, by decide +kernel⟩

/-- The hypotheses of clause 2 of PinEvents are met. -/
theorem witness_PinEvents_2 :
    (∃ (s : State), (s.power.modEn = false) ∧ (s.power.vinAccepted = true) ∧ (s.power.bankCharged = true) ∧ (s.power.failing = false) ∧ (s.power.perst = true)) :=
  ⟨{ State.reset with power := { Power.reset with modEn := false, perst := true } }, by decide +kernel⟩

/-- The hypotheses of clause 3 of PinEvents are met. -/
theorem witness_PinEvents_3 :
    (∃ (s : State), (s.power.modEn = false) ∧ (s.power.vinAccepted = false ∨ s.power.bankCharged = false ∨ s.power.failing = true)) :=
  ⟨{ State.reset with power := { Power.reset with modEn := false, bankCharged := false } }, by decide +kernel⟩

/-- The hypotheses of clause 4 of PinEvents are met. -/
theorem witness_PinEvents_4 :
    (∃ (s : State), (s.power.modEn = true)) :=
  ⟨State.reset, by decide +kernel⟩

/-- The hypotheses of clause 5 of PinEvents are met. -/
theorem witness_PinEvents_5 :
    (∃ (s : State), (s.power.modEn = true) ∧ (s.power.failing = false) ∧ (s.power.pwrGood = true)) :=
  ⟨State.reset, by decide +kernel⟩

/-- The hypotheses of clause 6 of PinEvents are met. -/
theorem witness_PinEvents_6 :
    (∃ (s : State), (s.power.modEn = true) ∧ (s.power.failing = true ∨ s.power.pwrGood = false)) :=
  ⟨{ State.reset with power := { Power.reset with pwrGood := false } }, by decide +kernel⟩

/-- The hypotheses of clause 7 of PinEvents are met. -/
theorem witness_PinEvents_7 :
    (∃ (s : State), (s.power.modEn = false)) :=
  ⟨{ State.reset with power := { Power.reset with modEn := false } }, by decide +kernel⟩

/-- The hypotheses of clause 8 of PinEvents are met. -/
theorem witness_PinEvents_8 :
    (∃ (s : State), (s.power.perst = false) ∧ (s.power.pwrGood = true) ∧ (s.mc.phase ≠ .off)) :=
  ⟨State.reset, by decide +kernel⟩

/-- The hypotheses of clause 9 of PinEvents are met. -/
theorem witness_PinEvents_9 :
    (∃ (s : State), (s.power.perst = false) ∧ (s.power.pwrGood = false ∨ s.mc.phase = .off)) :=
  ⟨{ State.reset with power := { Power.reset with pwrGood := false } }, by decide +kernel⟩

/-- The hypotheses of clause 10 of PinEvents are met. -/
theorem witness_PinEvents_10 :
    (∃ (s : State), (s.power.perst = true)) :=
  ⟨{ State.reset with power := { Power.reset with perst := true } }, by decide +kernel⟩

/-- The hypotheses of clause 11 of PinEvents are met. -/
theorem witness_PinEvents_11 :
    (∃ (s : State), (s.power.perst = true) ∧ (s.power.pwrGood = true)) :=
  ⟨{ State.reset with power := { Power.reset with perst := true } }, by decide +kernel⟩

/-- The hypotheses of clause 12 of PinEvents are met. -/
theorem witness_PinEvents_12 :
    (∃ (s : State), (s.power.perst = true) ∧ (s.power.pwrGood = false)) :=
  ⟨{ State.reset with power := { Power.reset with perst := true, pwrGood := false } }, by decide +kernel⟩

/-- The hypotheses of clause 13 of PinEvents are met. -/
theorem witness_PinEvents_13 :
    (∃ (s : State), (s.power.perst = false)) :=
  ⟨State.reset, by decide +kernel⟩

/-- The hypotheses of clause 14 of PinEvents are met. -/
theorem witness_PinEvents_14 :
    (∃ (rail v : Nat) (kind : RailKind) (s : State), (s.linkUp = true)) :=
  ⟨0, 4800, .tile, State.reset, by decide +kernel⟩

/-- The hypotheses of clause 15 of PinEvents are met. -/
theorem witness_PinEvents_15 :
    (∃ (rail v : Nat) (kind : RailKind) (s : State), (s.linkUp = true) ∧ (s.ntAll = true) ∧ (s.inBlocks = false) ∧ (s.inGo = false) ∧ (s.mc.fatalClear = none)) :=
  ⟨0, 4800, .tile, { State.reset with rl := { Rl.reset with ntReady := List.range 16 } }, by decide +kernel⟩

/-- The hypotheses of clause 16 of PinEvents are met. -/
theorem witness_PinEvents_16 :
    (∃ (rail v : Nat) (kind : RailKind) (s : State), (s.linkUp = false)) :=
  ⟨0, 4800, .tile, { State.reset with mc := { Mc.reset with phase := .off } }, by decide +kernel⟩

set_option maxRecDepth 100000 in
/-- The hypotheses of MarksSteps are met. -/
theorem witness_MarksSteps :
    (∃ (m : FuseMap) (s : State), (s.mc.phase = .marks) ∧ (s.mc.fuseDone = false) ∧ (m.ok = true) ∧ (s.mc.recoveryNext = false)) ∧
    (∃ (m : FuseMap) (s : State), (s.mc.phase = .marks) ∧ (s.mc.fuseDone = false) ∧ (m.ok = false)) ∧
    (∃ (m : FuseMap) (s : State), (s.mc.phase = .marks) ∧ (s.mc.fuseDone = false) ∧ (m.ok = true) ∧ (s.mc.recoveryNext = true)) ∧
    (∃ (s : State), (s.mc.phase = .marks ∨ s.mc.phase = .blocks) ∧ (s.mc.fuseDone = true) ∧ (s.mc.panelDone = false)) ∧
    (∃ (a b : Bool) (s : State), (s.mc.phase = .marks) ∧ (s.mc.fuseDone = true) ∧ (s.mc.storeDone = false) ∧ (s.readParams.sw.bootLog.updating ≠ 1) ∧ (s.readParams.sw.bootLog.fwBytes = 0)) ∧
    (∃ (a b : Bool) (s : State), (s.mc.phase = .marks) ∧ (s.mc.fuseDone = true) ∧ (s.mc.storeDone = false) ∧ (s.readParams.sw.bootLog.updating = 1)) ∧
    (∃ (b : Bool) (s : State), (s.mc.phase = .marks) ∧ (s.mc.fuseDone = true) ∧ (s.mc.storeDone = false) ∧ (s.readParams.sw.bootLog.updating ≠ 1) ∧ (s.readParams.sw.bootLog.fwBytes ≠ 0)) ∧
    (∃ (b : Bool) (s : State), (s.mc.phase = .marks) ∧ (s.mc.fuseDone = true) ∧ (s.mc.storeDone = false) ∧ (s.readParams.sw.bootLog.updating = 0) ∧ (s.readParams.sw.bootLog.fwBytes ≠ 0) ∧ (fwHeaderOk (s.readParams.sw.bytes fwAddr s.readParams.sw.bootLog.fwBytes) s.readParams.sw.bootLog.fwBytes = true) ∧ (s.readParams.sw.bootImage = [])) :=
  ⟨⟨{ FuseMap.blank with ok := true }, State.reset, by decide +kernel⟩,
   ⟨FuseMap.blank, State.reset, by decide +kernel⟩,
   ⟨{ FuseMap.blank with ok := true }, { State.reset with mc := { Mc.reset with recoveryNext := true } }, by decide +kernel⟩,
   ⟨{ State.reset with mc := { Mc.reset with phase := .marks, fuseDone := true } }, by decide +kernel⟩,
   ⟨true, true, marksWith Sw.reset, rfl, rfl, rfl, by rw [bootLog_empty.1]; decide, bootLog_empty.2⟩,
   ⟨true, true, marksWith (swBoot 1), rfl, rfl, rfl, bootLog_swBoot1⟩,
   ⟨true, marksWith (swBoot 0), rfl, rfl, rfl, by rw [bootLog_marksWith, bootLog_swBoot0.1]; decide, by rw [bootLog_marksWith, bootLog_swBoot0.2.1]; decide⟩,
   ⟨true, marksWith (swBoot 0), rfl, rfl, rfl, bootLog_swBoot0.1, by rw [bootLog_marksWith, bootLog_swBoot0.2.1]; decide, fwHeaderOk_swBoot0, bootImage_swBoot0⟩⟩

/-- The hypotheses of clause 1 of BlocksSteps are met. -/
theorem witness_BlocksSteps_1 :
    (∃ (ms : Nat) (s : State), (s.mc.phase = .marks) ∧ (s.mc.storeDone = true) ∧ (s.fl.fatalStands = false)) :=
  ⟨1500, { State.reset with mc := { Mc.reset with storeDone := true } }, by decide +kernel⟩

/-- The hypotheses of clause 2 of BlocksSteps are met. -/
theorem witness_BlocksSteps_2 :
    (∃ (k : Nat) (s : State), (s.inBlocks = true) ∧ (k < 16) ∧ (k ∉ s.rl.ntReady) ∧ (k ∉ s.mc.trained) ∧ (s.mc.attempts.findD k 0 < 3)) :=
  ⟨15, { State.reset with mc := { Mc.reset with phase := .blocks } }, by decide +kernel⟩

/-- The hypotheses of clause 3 of BlocksSteps are met. -/
theorem witness_BlocksSteps_3 :
    (∃ (k : Nat) (s : State), (s.inBlocks = true) ∧ (k < 16) ∧ (k ∉ s.rl.ntReady) ∧ (k ∉ s.mc.trained) ∧ (s.mc.attempts.findD k 0 < 2)) :=
  ⟨0, { State.reset with mc := { Mc.reset with phase := .blocks } }, by decide +kernel⟩

/-- The hypotheses of clause 4 of BlocksSteps are met. -/
theorem witness_BlocksSteps_4 :
    (∃ (k : Nat) (s : State), (s.inBlocks = true) ∧ (k ∈ s.mc.trained)) :=
  ⟨3, { State.reset with mc := { Mc.reset with phase := .blocks, trained := [3] } }, by decide +kernel⟩

/-- The hypotheses of clause 5 of BlocksSteps are met. -/
theorem witness_BlocksSteps_5 :
    (∃ (s : State), (s.inBlocks = true) ∧ (s.ntAll = true) ∧ (s.allSwept = true) ∧ (s.mc.imageDone = false) ∧ (s.mc.bootImage = [])) :=
  ⟨blocksReady, by decide, by decide, allSwept_sweptTiles _ rfl, by decide, by decide⟩

/-- The hypotheses of clause 6 of BlocksSteps are met. -/
theorem witness_BlocksSteps_6 :
    (∃ (s : State), (s.inBlocks = true) ∧ (s.ntAll = true) ∧ (s.allSwept = true) ∧ (s.mc.imageDone = false) ∧ (s.mc.bootImage ≠ [])) :=
  ⟨{ blocksReady with mc := { Mc.reset with phase := .blocks, bootImage := [0] } }, by decide, by decide, allSwept_sweptTiles _ rfl, by decide, by decide⟩

/-- The hypotheses of clause 7 of BlocksSteps are met. -/
theorem witness_BlocksSteps_7 :
    (∃ (ms : Nat) (s : State), (s.inBlocks = true) ∧ (s.ntAll = true) ∧ (s.mm.replayed = false) ∧ (s.qe.store = []) ∧ (s.mm.replayMap.lostWrites = [])) :=
  ⟨70000, { State.reset with mc := { Mc.reset with phase := .blocks }, rl := { Rl.reset with ntReady := List.range 16 } }, by decide +kernel⟩

/-- The hypotheses of clause 8 of BlocksSteps are met. -/
theorem witness_BlocksSteps_8 :
    (∃ (s : State), (s.inBlocks = true) ∧ (s.mm.replayed = true) ∧ (s.rl.ftReady = false)) :=
  ⟨{ State.reset with mc := { Mc.reset with phase := .blocks }, mm := { Mm.reset with replayed := true } }, by decide +kernel⟩

/-- The hypotheses of clause 9 of BlocksSteps are met. -/
theorem witness_BlocksSteps_9 :
    (∃ (s : State), (s.inBlocks = true) ∧ (s.mm.replayed = true) ∧ (s.mc.fcPath = false)) :=
  ⟨{ State.reset with mc := { Mc.reset with phase := .blocks }, mm := { Mm.reset with replayed := true } }, by decide +kernel⟩

/-- The hypotheses of clause 10 of BlocksSteps are met. -/
theorem witness_BlocksSteps_10 :
    (∃ (ms : Nat) (s : State), (s.mayGo = true) ∧ (s.qe.ps = s.qe.psAtGo)) :=
  ⟨4000, goReady, mayGo_goReady, by decide⟩

/-- The hypotheses of clause 11 of BlocksSteps are met. -/
theorem witness_BlocksSteps_11 :
    (∃ (n : Nat) (s : State), (s.inGo = true) ∧ (s.qe.ps = 4) ∧ (s.qe.psWant = some n) ∧ (n ≠ 4)) :=
  ⟨0, { State.reset with mc := { Mc.reset with phase := .go }, qe := { Qe.reset with ps := 4, psWant := some 0 } }, by decide +kernel⟩

/-- The hypotheses of clause 12 of BlocksSteps are met. -/
theorem witness_BlocksSteps_12 :
    (∃ (ms : Nat) (b : ClearBy) (s : State), (s.mc.phase ≠ .marks) ∧ (s.mc.fatalClear = some b) ∧ (s.halted = true) ∧ (s.mc.retrain = [])) :=
  ⟨0, .register, { State.reset with mc := { Mc.reset with phase := .halted, fatalClear := some .register } }, by decide +kernel⟩

/-- The hypotheses of PacerEdges are met. -/
theorem witness_PacerEdges :
    (∃ (h a b : Nat) (s : State), (s.mc.phase ≠ .off) ∧ (s.pc.mode = .freerun) ∧ (1000 ≤ h)) ∧
    (∃ (h a b : Nat) (s : State), (s.mc.phase ≠ .off) ∧ (s.pc.mode = .acquire) ∧ (1000 ≤ h) ∧ (b < 200000 ∨ 5000000 < b)) ∧
    (∃ (h a b : Nat) (s : State), (s.mc.phase ≠ .off) ∧ (s.pc.mode = .acquire) ∧ (1000 ≤ h) ∧ (200000 ≤ b ∧ b ≤ 5000000) ∧ (s.pc.acquired.length = 7) ∧ (∀ x ∈ b :: s.pc.acquired, 800 * x ≤ 101 * (b :: s.pc.acquired).sum ∧ 99 * (b :: s.pc.acquired).sum ≤ 800 * x)) ∧
    (∃ (h a b : Nat) (s : State), (s.mc.phase ≠ .off) ∧ (s.pc.mode = .locked) ∧ (1000 ≤ h) ∧ (875 * s.pc.periodNs ≤ 1000 * a ∧ 1000 * a ≤ 1125 * s.pc.periodNs) ∧ (s.pc.lastByEdge = true)) ∧
    (∃ (h a b : Nat) (s : State), (s.mc.phase ≠ .off) ∧ (s.pc.mode = .locked) ∧ (1000 ≤ h) ∧ (875 * s.pc.periodNs ≤ 1000 * a ∧ 1000 * a ≤ 1125 * s.pc.periodNs) ∧ (s.pc.lastByEdge = false)) ∧
    (∃ (h a b : Nat) (s : State), (s.mc.phase ≠ .off) ∧ (s.pc.mode = .locked) ∧ (h < 1000 ∨ 1000 * a < 875 * s.pc.periodNs) ∧ (s.ntAll = true) ∧ ((srcPC, kFalseStart, 0) ∉ s.fl.beatPosts)) ∧
    (∃ (s : State), (s.mc.phase ≠ .off) ∧ (s.pc.mode = .locked) ∧ (s.pc.missRun < 4)) ∧
    (∃ (s : State), (s.mc.phase ≠ .off) ∧ (s.pc.mode = .locked) ∧ (s.pc.missRun = 4)) ∧
    (∃ (s : State), (s.mc.phase ≠ .off) ∧ (s.pc.mode ≠ .locked)) :=
  ⟨⟨1000, 0, 0, { State.reset with mc := { Mc.reset with phase := .go }, pc := { Pacer.reset with mode := .freerun } }, by decide +kernel⟩,
   ⟨1000, 0, 199999, { State.reset with mc := { Mc.reset with phase := .go }, pc := { Pacer.reset with mode := .acquire } }, by decide +kernel⟩,
   ⟨1000, 0, 1000000, { State.reset with mc := { Mc.reset with phase := .go }, pc := { Pacer.reset with mode := .acquire, acquired := List.replicate 7 1005000 } }, by decide +kernel⟩,
   ⟨1000, 875000, 0, { State.reset with mc := { Mc.reset with phase := .go }, pc := { Pacer.reset with mode := .locked, periodNs := 1000000, lastByEdge := true } }, by decide +kernel⟩,
   ⟨1000, 1125000, 0, { State.reset with mc := { Mc.reset with phase := .go }, pc := { Pacer.reset with mode := .locked, periodNs := 1000000, lastByEdge := false } }, by decide +kernel⟩,
   ⟨999, 0, 0, { State.reset with mc := { Mc.reset with phase := .go }, pc := { Pacer.reset with mode := .locked, periodNs := 1000000 }, rl := { Rl.reset with ntReady := List.range 16 } }, by decide +kernel⟩,
   ⟨{ State.reset with mc := { Mc.reset with phase := .go }, pc := { Pacer.reset with mode := .locked, missRun := 3 } }, by decide +kernel⟩,
   ⟨{ State.reset with mc := { Mc.reset with phase := .go }, pc := { Pacer.reset with mode := .locked, missRun := 4, periodNs := 500000 } }, by decide +kernel⟩,
   ⟨{ State.reset with mc := { Mc.reset with phase := .go }, pc := { Pacer.reset with mode := .freerun } }, by decide +kernel⟩⟩

/-- The hypotheses of CadenceMessages are met. -/
theorem witness_CadenceMessages :
    (∃ (ep : Nat) (b : List Byte) (s : State), (s.mc.phase ≠ .off) ∧ (s.power.eid ≠ none) ∧ (setpointOk b = true)) ∧
    (∃ (ep : Nat) (b : List Byte) (s : State), (s.mc.phase ≠ .off) ∧ (s.power.eid ≠ none) ∧ (periodOk b = true)) ∧
    (∃ (ep : Nat) (b : List Byte) (s : State), (s.mc.phase ≠ .off) ∧ (s.power.eid ≠ none) ∧ (setpointOk b = false) ∧ (periodOk b = false) ∧ (s.ntAll = true) ∧ ((srcPC, kProtocol, 0) ∉ s.fl.beatPosts)) ∧
    (∃ (ep : Nat) (b : List Byte) (s : State), (s.mc.phase = .off ∨ s.power.eid = none)) ∧
    (∃ (n us : Nat) (s : State), (s.mc.phase ≠ .off) ∧ (s.pc.scheduled = [(n, .period us)]) ∧ (n ≤ s.pc.beat) ∧ (s.pc.bandState = s.bandNow)) ∧
    (∃ (n g w : Nat) (s : State), (s.mc.phase ≠ .off) ∧ (s.pc.scheduled = [(n, .setpoint true true g w)]) ∧ (n ≤ s.pc.beat) ∧ (s.pc.srcHost = false) ∧ (s.qe.ps < 2)) ∧
    (∃ (s : State), (s.mc.phase ≠ .off) ∧ (0 < bitsW s.pc.bandCtl 31 16) ∧ (bitsW s.pc.bandCtl 31 16 ≤ s.pc.reportCount)) :=
  ⟨⟨8, (leBytes 0x1F2C 2 ++ [1, 1] ++ leBytes 0 4 ++ leBytes 5000 8 ++ leBytes 5010 8 ++ leBytes 3000 2 ++ leBytes 100 2 ++ [1, 0, 0, 0]), { State.reset with mc := { Mc.reset with phase := .go }, pc := { Pacer.reset with beat := 5000 }, power := { Power.reset with eid := some 9 } }, by decide +kernel⟩,
   ⟨8, (leBytes 0x1F2C 2 ++ [2, 3] ++ leBytes 0 4 ++ leBytes 5000 8 ++ leBytes 5010 8 ++ List.replicate 8 0 ++ leBytes 500 4 ++ leBytes 0 4), { State.reset with mc := { Mc.reset with phase := .go }, pc := { Pacer.reset with beat := 5000 }, power := { Power.reset with eid := some 9 } }, by decide +kernel⟩,
   ⟨8, [0], { State.reset with mc := { Mc.reset with phase := .go }, pc := { Pacer.reset with beat := 5000 }, power := { Power.reset with eid := some 9 }, rl := { Rl.reset with ntReady := List.range 16 } }, by decide +kernel⟩,
   ⟨8, (leBytes 0x1F2C 2 ++ [1, 1] ++ leBytes 0 4 ++ leBytes 5000 8 ++ leBytes 5010 8 ++ leBytes 3000 2 ++ leBytes 100 2 ++ [1, 0, 0, 0]), { State.reset with mc := { Mc.reset with phase := .go } }, by decide +kernel⟩,
   ⟨7, 500, { State.reset with mc := { Mc.reset with phase := .go }, pc := { Pacer.reset with beat := 7, scheduled := [(7, .period 500)] }, power := { Power.reset with eid := some 9 } }, by decide +kernel⟩,
   ⟨7, 3000, 100, { State.reset with mc := { Mc.reset with phase := .go }, pc := { Pacer.reset with beat := 7, scheduled := [(7, .setpoint true true 3000 100)] }, power := { Power.reset with eid := some 9 } }, by decide +kernel⟩,
   ⟨{ State.reset with mc := { Mc.reset with phase := .go }, pc := { Pacer.reset with bandCtl := 0x00010000, reportCount := 1, endpoint := some 8 }, power := { Power.reset with eid := some 9 } }, by decide +kernel⟩⟩

/-- The hypotheses of BeatBoundaries are met. -/
theorem witness_BeatBoundaries :
    (∃ (b : BoundaryInfo) (s : State), (s.mc.phase = .marks ∨ s.mc.phase = .recovery ∨ s.mc.phase = .halted) ∧ (s.pc.thermalCeil = none) ∧ (s.commitsIdle)) ∧
    (∃ (b : BoundaryInfo) (s : State), (s.mc.phase = .blocks ∨ s.mc.phase = .go) ∧ (s.fl.fatalStands = true) ∧ (s.commitsIdle)) ∧
    (∃ (b : BoundaryInfo) (s : State), (s.inGo = true) ∧ (s.sl.set_.squads = []) ∧ (s.jd.jobs = []) ∧ (s.bandActive = false) ∧ (s.pc.thermalCeil = none) ∧ (s.fl.fatalStands = false) ∧ (s.commitsIdle) ∧ (∀ e ∈ s.rl.dir, e.2.state ≠ .promoting)) ∧
    (∃ (b : BoundaryInfo) (c : Nat) (s : State), (s.mc.phase = .marks ∨ s.mc.phase = .recovery ∨ s.mc.phase = .halted) ∧ (s.pc.thermalCeil = some c)) :=
  ⟨⟨{ meanW := 500, durNs := 1000000, idleW := 50, inFlight := [], urgentW := 0, reqs := [], filler := [] }, { State.reset with mc := { Mc.reset with phase := .halted } }, by decide +kernel⟩,
   ⟨{ meanW := 500, durNs := 1000000, idleW := 50, inFlight := [], urgentW := 0, reqs := [], filler := [] }, { State.reset with mc := { Mc.reset with phase := .go }, fl := { Fl.reset with standing := [{ record := (State.reset.mkRecord 1 2 2 0 0 0 0 0), squad := none, entry := true }] } }, by decide +kernel⟩,
   ⟨{ meanW := 500, durNs := 1000000, idleW := 50, inFlight := [], urgentW := 0, reqs := [], filler := [] }, { State.reset with mc := { Mc.reset with phase := .go } }, by decide +kernel⟩,
   ⟨{ meanW := 500, durNs := 1000000, idleW := 50, inFlight := [], urgentW := 0, reqs := [], filler := [] }, 1000, { State.reset with mc := { Mc.reset with phase := .halted }, pc := { Pacer.reset with thermalCeil := some 1000, rising := true } }, by decide +kernel⟩⟩

/-- The hypotheses of ThermalEvents are met. -/
theorem witness_ThermalEvents :
    (∃ (n x l : Nat) (s : State), (s.linkUp = true) ∧ (triggerAt n = some l) ∧ (l ≤ x) ∧ (n ≠ 1) ∧ (s.pc.thermalCeil = none) ∧ (s.ntAll = true) ∧ ((srcThermal, kThermal, n) ∉ s.fl.beatPosts)) ∧
    (∃ (x l c : Nat) (n : Nat) (s : State), (s.linkUp = true) ∧ (triggerAt n = some l) ∧ (l ≤ x) ∧ (s.pc.thermalCeil = some c)) ∧
    (∃ (xs : List (Nat × Nat)) (c : Nat) (s : State), (s.pc.thermalCeil = some c) ∧ ((∀ n l, triggerAt n = some l → (xs.foldl (fun m x => m.put x.1 x.2) s.power.temps).findD n 0 + 30 ≤ l))) ∧
    (∃ (n x : Nat) (s : State), (s.linkUp = true) ∧ (isJunction n = true) ∧ (1150 ≤ x) ∧ (s.ntAll = true) ∧ (s.inBlocks = false) ∧ (s.inGo = false) ∧ (s.mc.fatalClear = none)) ∧
    (∃ (n x : Nat) (s : State), (s.mc.phase = .go) ∧ (s.inGo = true) ∧ (isJunction n = true) ∧ (1150 ≤ x) ∧ (s.ntAll = true)) ∧
    (∃ (x : Nat) (s : State), (s.linkUp = true) ∧ (s.power.vinAccepted = true) ∧ (s.power.failing = false) ∧ (780 ≤ x) ∧ (s.ntAll = true) ∧ ((srcThermal, kThermal, 1) ∉ s.fl.beatPosts)) ∧
    (∃ (x : Nat) (s : State), (s.power.vinAccepted = true) ∧ (x < 780)) ∧
    (∃ (k x : Nat) (s : State), (s.linkUp = true) ∧ (k < 16)) :=
  ⟨⟨18, 1050, 1050, { State.reset with mc := { Mc.reset with phase := .go }, pc := { Pacer.reset with beatW := 4000 }, rl := { Rl.reset with ntReady := List.range 16 } }, by decide +kernel⟩,
   ⟨950, 950, 3000, 2, { State.reset with mc := { Mc.reset with phase := .go }, pc := { Pacer.reset with thermalCeil := some 3000 } }, by decide +kernel⟩,
   ⟨[(18, 1020)], 3000, { State.reset with mc := { Mc.reset with phase := .go }, pc := { Pacer.reset with thermalCeil := some 3000, triggers := [18] } }, rfl, by
    intro n l hl
    simp only [triggerAt] at hl
    have hl' : 800 ≤ l ∧ (n = 18 → l = 1050) := by
      split at hl
      · cases hl; omega
      · split at hl
        · cases hl; omega
        · split at hl
          · cases hl; omega
          · cases hl
    simp only [List.foldl, State.reset, Power.reset, KMap.put, KMap.findD, KMap.find]
    split <;> simp <;> omega⟩,
   ⟨55, 1150, { State.reset with mc := { Mc.reset with phase := .halted }, rl := { Rl.reset with ntReady := List.range 16 } }, by decide +kernel⟩,
   ⟨55, 1150, { State.reset with mc := { Mc.reset with phase := .go }, rl := { Rl.reset with ntReady := List.range 16 } }, by decide +kernel⟩,
   ⟨780, { State.reset with mc := { Mc.reset with phase := .halted }, rl := { Rl.reset with ntReady := List.range 16 } }, by decide +kernel⟩,
   ⟨779, State.reset, by decide +kernel⟩,
   ⟨15, 851, { State.reset with mc := { Mc.reset with phase := .go } }, by decide +kernel⟩⟩

/-- The hypotheses of CommandsAnswered are met. -/
theorem witness_CommandsAnswered :
    (∃ (c : CmdId) (st d0 d1 : Nat) (x : List (List Byte)) (s : State), (s.canFetch c = true)) ∧
    (∃ (c : CmdId) (g : Gate) (f : State → State) (s : State), (s.canFetch c = false)) ∧
    (∃ (c : CmdId) (g : Gate) (f : State → State) (st : Nat) (s : State), (s.canFetch c = true) ∧ (s.gate g = some st)) ∧
    (∃ (g : Gate) (s : State), (s.mc.phase = .recovery)) ∧
    (∃ (g : Gate) (s : State), (s.halted = true) ∧ (s.mc.phase ≠ .recovery)) ∧
    (∃ (g : Gate) (s : State), (s.inGo = true)) ∧
    (∃ (i : Instr) (c : CmdId) (g : Option Gate) (s : State), (hostCommand i = some (c, g)) ∧ (s.canFetch c = false)) ∧
    (∃ (i : Instr) (c : CmdId) (g : Gate) (st : Nat) (s : State), (hostCommand i = some (c, some g)) ∧ (s.canFetch c = true) ∧ (s.gate g = some st)) :=
  ⟨⟨{ sq := 0, cid := 7 }, 0, 0, 0, [], { State.reset with mc := { Mc.reset with phase := .go }, qe := { Qe.reset with enabled := true, ready := true, sqs := [(0, { size := 32, prio := 0, cq := 0, tail := 1, head := 0, blocked := none })], cqs := [(0, { size := 32, vector := 0, ien := true, head := 0, tail := 0 })] } }, by decide +kernel⟩,
   ⟨{ sq := 0, cid := 7 }, .served, id, State.reset, by decide +kernel⟩,
   ⟨{ sq := 0, cid := 7 }, .manage, id, stNotReadyBlocks, { State.reset with mc := { Mc.reset with phase := .blocks }, qe := { Qe.reset with enabled := true, ready := true, sqs := [(0, { size := 32, prio := 0, cq := 0, tail := 1, head := 0, blocked := none })], cqs := [(0, { size := 32, vector := 0, ien := true, head := 0, tail := 0 })] } }, by decide +kernel⟩,
   ⟨.served, { State.reset with mc := { Mc.reset with phase := .recovery }, qe := { Qe.reset with enabled := true, ready := true, sqs := [(0, { size := 32, prio := 0, cq := 0, tail := 1, head := 0, blocked := none })], cqs := [(0, { size := 32, vector := 0, ien := true, head := 0, tail := 0 })] } }, by decide +kernel⟩,
   ⟨.manage, { State.reset with mc := { Mc.reset with phase := .halted }, qe := { Qe.reset with enabled := true, ready := true, sqs := [(0, { size := 32, prio := 0, cq := 0, tail := 1, head := 0, blocked := none })], cqs := [(0, { size := 32, vector := 0, ien := true, head := 0, tail := 0 })] } }, by decide +kernel⟩,
   ⟨.job, { State.reset with mc := { Mc.reset with phase := .go }, qe := { Qe.reset with enabled := true, ready := true, sqs := [(0, { size := 32, prio := 0, cq := 0, tail := 1, head := 0, blocked := none })], cqs := [(0, { size := 32, vector := 0, ien := true, head := 0, tail := 0 })] } }, by decide +kernel⟩,
   ⟨.flush { sq := 0, cid := 7 } 1, { sq := 0, cid := 7 }, some .io, State.reset, by decide +kernel⟩,
   ⟨.namespaceDelete { sq := 0, cid := 7 } 1, { sq := 0, cid := 7 }, .manage, stNotReadyBlocks, { State.reset with mc := { Mc.reset with phase := .blocks }, qe := { Qe.reset with enabled := true, ready := true, sqs := [(0, { size := 32, prio := 0, cq := 0, tail := 1, head := 0, blocked := none })], cqs := [(0, { size := 32, vector := 0, ien := true, head := 0, tail := 0 })] } }, by decide +kernel⟩⟩

/-- The hypotheses of QueueDoorbells are met. -/
theorem witness_QueueDoorbells :
    (∃ (n v : Nat) (q : Sq) (s : State), (s.linkUp = true) ∧ (s.qe.sqs.find n = some q) ∧ (v < q.size) ∧ (v ≠ q.head)) ∧
    (∃ (n v : Nat) (k : Cq) (s : State), (s.linkUp = true) ∧ (s.qe.cqs.find n = some k) ∧ (v < k.size) ∧ (s.qe.cqWait = [])) ∧
    (∃ (n v : Nat) (k : Cq) (x : Completion) (s : State), (s.linkUp = true) ∧ (s.qe.cqs.find n = some k) ∧ (v < k.size) ∧ (s.qe.cqWait = [x]) ∧ (s.qe.cqOf x.c = n) ∧ ((k.tail + 1) % max k.size 1 ≠ v)) ∧
    (∃ (n v : Nat) (q : Sq) (s : State), (s.linkUp = true) ∧ (s.qe.sqs.find n = some q) ∧ (v < q.size) ∧ (v = q.head)) ∧
    (∃ (n v : Nat) (s : State), (s.linkUp = false ∨ s.qe.sqs.find n = none ∨ (∃ q, s.qe.sqs.find n = some q ∧ q.size ≤ v))) ∧
    (∃ (n v : Nat) (s : State), (s.linkUp = false ∨ s.qe.cqs.find n = none ∨ (∃ k, s.qe.cqs.find n = some k ∧ k.size ≤ v))) :=
  ⟨⟨1, 15, { size := 16, prio := 0, cq := 1, tail := 0, head := 0, blocked := none }, { State.reset with mc := { Mc.reset with phase := .go }, qe := { Qe.reset with enabled := true, ready := true, sqs := [(0, { size := 32, prio := 0, cq := 0, tail := 1, head := 0, blocked := none }), (1, { size := 16, prio := 0, cq := 1, tail := 0, head := 0, blocked := none })], cqs := [(0, { size := 32, vector := 0, ien := true, head := 0, tail := 0 }), (1, { size := 16, vector := 1, ien := true, head := 0, tail := 0 })] } }, by decide +kernel⟩,
   ⟨1, 15, { size := 16, vector := 1, ien := true, head := 0, tail := 0 }, { State.reset with mc := { Mc.reset with phase := .go }, qe := { Qe.reset with enabled := true, ready := true, sqs := [(0, { size := 32, prio := 0, cq := 0, tail := 1, head := 0, blocked := none }), (1, { size := 16, prio := 0, cq := 1, tail := 0, head := 0, blocked := none })], cqs := [(0, { size := 32, vector := 0, ien := true, head := 0, tail := 0 }), (1, { size := 16, vector := 1, ien := true, head := 0, tail := 0 })] } }, by decide +kernel⟩,
   ⟨1, 2, { size := 16, vector := 1, ien := true, head := 1, tail := 0 }, { c := { sq := 1, cid := 0 }, sct := 0, sc := 0, dnr := false, dw0 := 0, dw1 := 0, data := [] }, { State.reset with mc := { Mc.reset with phase := .go }, qe := { Qe.reset with sqs := [(1, { size := 16, prio := 0, cq := 1, tail := 0, head := 0, blocked := none })], cqs := [(1, { size := 16, vector := 1, ien := true, head := 1, tail := 0 })], cqWait := [{ c := { sq := 1, cid := 0 }, sct := 0, sc := 0, dnr := false, dw0 := 0, dw1 := 0, data := [] }] } }, by decide +kernel⟩,
   ⟨1, 0, { size := 16, prio := 0, cq := 1, tail := 0, head := 0, blocked := none }, { State.reset with mc := { Mc.reset with phase := .go }, qe := { Qe.reset with enabled := true, ready := true, sqs := [(0, { size := 32, prio := 0, cq := 0, tail := 1, head := 0, blocked := none }), (1, { size := 16, prio := 0, cq := 1, tail := 0, head := 0, blocked := none })], cqs := [(0, { size := 32, vector := 0, ien := true, head := 0, tail := 0 }), (1, { size := 16, vector := 1, ien := true, head := 0, tail := 0 })] } }, by decide +kernel⟩,
   ⟨2, 0, State.reset, Or.inr (Or.inl rfl)⟩,
   ⟨2, 0, State.reset, Or.inr (Or.inl rfl)⟩⟩

/-- The hypotheses of clause 1 of ControllerLifecycle are met. -/
theorem witness_ControllerLifecycle_1 :
    (∃ (s : State), (s.linkUp = true) ∧ (s.qe.enabled = false)) :=
  ⟨{ State.reset with mc := { Mc.reset with phase := .go } }, by decide +kernel⟩

/-- The hypotheses of clause 2 of ControllerLifecycle are met. -/
theorem witness_ControllerLifecycle_2 :
    (∃ (s : State), (s.linkUp = true)) :=
  ⟨{ State.reset with mc := { Mc.reset with phase := .go }, qe := { Qe.reset with enabled := true, ready := true, sqs := [(0, { size := 32, prio := 0, cq := 0, tail := 1, head := 0, blocked := none })], cqs := [(0, { size := 32, vector := 0, ien := true, head := 0, tail := 0 })] } }, by decide +kernel⟩

/-- The hypotheses of clause 3 of ControllerLifecycle are met. -/
theorem witness_ControllerLifecycle_3 :
    (∃ (s : State), (s.linkUp = true) ∧ (s.jd.jobs = [])) :=
  ⟨{ State.reset with mc := { Mc.reset with phase := .go }, qe := { Qe.reset with enabled := true, ready := true, sqs := [(0, { size := 32, prio := 0, cq := 0, tail := 1, head := 0, blocked := none })], cqs := [(0, { size := 32, vector := 0, ien := true, head := 0, tail := 0 })] } }, by decide +kernel⟩

/-- The hypotheses of clause 4 of ControllerLifecycle are met. -/
theorem witness_ControllerLifecycle_4 :
    (∃ (s : State), (s.linkUp = true)) :=
  ⟨{ State.reset with mc := { Mc.reset with phase := .go }, qe := { Qe.reset with enabled := true, ready := true, sqs := [(0, { size := 32, prio := 0, cq := 0, tail := 1, head := 0, blocked := none })], cqs := [(0, { size := 32, vector := 0, ien := true, head := 0, tail := 0 })] } }, by decide +kernel⟩

/-- The hypotheses of clause 5 of ControllerLifecycle are met. -/
theorem witness_ControllerLifecycle_5 :
    (∃ (s : State), (s.linkUp = true)) :=
  ⟨{ State.reset with mc := { Mc.reset with phase := .go }, qe := { Qe.reset with enabled := true, ready := true, sqs := [(0, { size := 32, prio := 0, cq := 0, tail := 1, head := 0, blocked := none })], cqs := [(0, { size := 32, vector := 0, ien := true, head := 0, tail := 0 })] } }, by decide +kernel⟩

/-- The hypotheses of clause 6 of ControllerLifecycle are met. -/
theorem witness_ControllerLifecycle_6 :
    (∃ (s : State), (s.linkUp = true) ∧ (∀ k ∈ s.qe.store, k.c.sq ≠ lpQueue) ∧ (∀ x ∈ s.qe.held, x.sq ≠ lpQueue)) :=
  ⟨{ State.reset with mc := { Mc.reset with phase := .go }, qe := { Qe.reset with enabled := true, ready := true, sqs := [(0, { size := 32, prio := 0, cq := 0, tail := 1, head := 0, blocked := none })], cqs := [(0, { size := 32, vector := 0, ien := true, head := 0, tail := 0 })] } }, by decide +kernel⟩

/-- The hypotheses of clause 7 of ControllerLifecycle are met. -/
theorem witness_ControllerLifecycle_7 :
    (∃ (v : W32) (s : State), (s.vendorLive = true)) :=
  ⟨3, { State.reset with mc := { Mc.reset with phase := .go }, qe := { Qe.reset with enabled := true, ready := true, sqs := [(0, { size := 32, prio := 0, cq := 0, tail := 1, head := 0, blocked := none })], cqs := [(0, { size := 32, vector := 0, ien := true, head := 0, tail := 0 })] } }, by decide +kernel⟩

/-- The hypotheses of clause 8 of ControllerLifecycle are met. -/
theorem witness_ControllerLifecycle_8 :
    (∃ (s : State), (s.linkUp = true) ∧ (s.qe.enabled = true)) :=
  ⟨{ State.reset with mc := { Mc.reset with phase := .go }, qe := { Qe.reset with enabled := true, ready := true, sqs := [(0, { size := 32, prio := 0, cq := 0, tail := 1, head := 0, blocked := none })], cqs := [(0, { size := 32, vector := 0, ien := true, head := 0, tail := 0 })] } }, by decide +kernel⟩

/-- The hypotheses of clause 9 of ControllerLifecycle are met. -/
theorem witness_ControllerLifecycle_9 :
    (∃ (s : State), (s.linkUp = false ∨ s.qe.enabled = true)) :=
  ⟨{ State.reset with mc := { Mc.reset with phase := .go }, qe := { Qe.reset with enabled := true, ready := true, sqs := [(0, { size := 32, prio := 0, cq := 0, tail := 1, head := 0, blocked := none })], cqs := [(0, { size := 32, vector := 0, ien := true, head := 0, tail := 0 })] } }, by decide +kernel⟩

/-- The hypotheses of clause 10 of ControllerLifecycle are met. -/
theorem witness_ControllerLifecycle_10 :
    (∃ (s : State), (s.linkUp = false ∨ s.qe.enabled = false)) :=
  ⟨State.reset, by decide +kernel⟩

/-- The hypotheses of clause 11 of ControllerLifecycle are met. -/
theorem witness_ControllerLifecycle_11 :
    (∃ (v : W32) (s : State), (s.linkUp = false)) :=
  ⟨1, { State.reset with mc := { Mc.reset with phase := .off } }, by decide +kernel⟩

/-- The hypotheses of clause 1 of QueueCommands are met. -/
theorem witness_QueueCommands_1 :
    (∃ (c : CmdId) (n z v : Nat) (i : Bool) (s : State), (s.serves c .served) ∧ (1 ≤ n ∧ n ≤ 512) ∧ (s.qe.cqs.find n = none) ∧ (0 < z ∧ z ≤ 4095) ∧ (v ≤ 512)) :=
  ⟨{ sq := 0, cid := 7 }, 512, 4095, 512, true, { State.reset with mc := { Mc.reset with phase := .go }, qe := { Qe.reset with enabled := true, ready := true, sqs := [(0, { size := 32, prio := 0, cq := 0, tail := 1, head := 0, blocked := none })], cqs := [(0, { size := 32, vector := 0, ien := true, head := 0, tail := 0 })] } }, by decide +kernel⟩

/-- The hypotheses of clause 2 of QueueCommands are met. -/
theorem witness_QueueCommands_2 :
    (∃ (c : CmdId) (n z p k : Nat) (s : State), (s.serves c .served) ∧ (1 ≤ n ∧ n ≤ 512) ∧ (s.qe.sqs.find n = none) ∧ (0 < z ∧ z ≤ 4095) ∧ (p < 4) ∧ (1 ≤ k ∧ k ≤ 512) ∧ ((s.qe.cqs.find k).isSome = true)) :=
  ⟨{ sq := 0, cid := 7 }, 2, 15, 3, 1, { State.reset with mc := { Mc.reset with phase := .go }, qe := { Qe.reset with enabled := true, ready := true, sqs := [(0, { size := 32, prio := 0, cq := 0, tail := 1, head := 0, blocked := none }), (1, { size := 16, prio := 0, cq := 1, tail := 0, head := 0, blocked := none })], cqs := [(0, { size := 32, vector := 0, ien := true, head := 0, tail := 0 }), (1, { size := 16, vector := 1, ien := true, head := 0, tail := 0 })] } }, by decide +kernel⟩

/-- The hypotheses of clause 3 of QueueCommands are met. -/
theorem witness_QueueCommands_3 :
    (∃ (c : CmdId) (n : Nat) (s : State), (s.serves c .served) ∧ (c.sq = 0) ∧ (1 ≤ n ∧ n ≤ 512) ∧ ((s.qe.sqs.find n).isSome = true)) :=
  ⟨{ sq := 0, cid := 7 }, 1, { State.reset with mc := { Mc.reset with phase := .go }, qe := { Qe.reset with enabled := true, ready := true, sqs := [(0, { size := 32, prio := 0, cq := 0, tail := 1, head := 0, blocked := none }), (1, { size := 16, prio := 0, cq := 1, tail := 0, head := 0, blocked := none })], cqs := [(0, { size := 32, vector := 0, ien := true, head := 0, tail := 0 }), (1, { size := 16, vector := 1, ien := true, head := 0, tail := 0 })] } }, by decide +kernel⟩

/-- The hypotheses of clause 4 of QueueCommands are met. -/
theorem witness_QueueCommands_4 :
    (∃ (c : CmdId) (n : Nat) (s : State), (s.serves c .served) ∧ (1 ≤ n ∧ n ≤ 512) ∧ ((s.qe.cqs.find n).isSome = true) ∧ ((∀ q ∈ KMap.vals s.qe.sqs, q.cq ≠ n))) :=
  ⟨{ sq := 0, cid := 7 }, 1, { State.reset with mc := { Mc.reset with phase := .go }, qe := { Qe.reset with enabled := true, ready := true, sqs := [(0, { size := 32, prio := 0, cq := 0, tail := 1, head := 0, blocked := none })], cqs := [(0, { size := 32, vector := 0, ien := true, head := 0, tail := 0 }), (1, { size := 16, vector := 1, ien := true, head := 0, tail := 0 })] } }, by decide +kernel⟩

/-- The hypotheses of clause 5 of QueueCommands are met. -/
theorem witness_QueueCommands_5 :
    (∃ (c : CmdId) (n : Nat) (q : Sq) (s : State), (s.serves c .served) ∧ (1 ≤ n ∧ n ≤ 512) ∧ ((s.qe.cqs.find n).isSome = true) ∧ (q ∈ KMap.vals s.qe.sqs) ∧ (q.cq = n)) :=
  ⟨{ sq := 0, cid := 7 }, 1, { size := 16, prio := 0, cq := 1, tail := 0, head := 0, blocked := none }, { State.reset with mc := { Mc.reset with phase := .go }, qe := { Qe.reset with enabled := true, ready := true, sqs := [(0, { size := 32, prio := 0, cq := 0, tail := 1, head := 0, blocked := none }), (1, { size := 16, prio := 0, cq := 1, tail := 0, head := 0, blocked := none })], cqs := [(0, { size := 32, vector := 0, ien := true, head := 0, tail := 0 }), (1, { size := 16, vector := 1, ien := true, head := 0, tail := 0 })] } }, by decide +kernel⟩

/-- The hypotheses of clause 6 of QueueCommands are met. -/
theorem witness_QueueCommands_6 :
    (∃ (f b : Nat) (s : State), (s.linkUp = true) ∧ (s.ntAll = true) ∧ ((srcHL, kProtocol, f * 32 + b) ∉ s.fl.beatPosts)) :=
  ⟨1, 14, { State.reset with mc := { Mc.reset with phase := .go }, pc := { Pacer.reset with beat := 1 }, rl := { Rl.reset with ntReady := List.range 16 } }, by decide +kernel⟩

/-- The hypotheses of clause 7 of QueueCommands are met. -/
theorem witness_QueueCommands_7 :
    (∃ (c : CmdId) (a : W64) (s : State), (c ∈ s.qe.fetched) ∧ (s.ntAll = true) ∧ (s.storeCmd c = none) ∧ (s.jd.jobs = []) ∧ (s.rl.copies = [])) :=
  ⟨{ sq := 0, cid := 7 }, 0x1000, { State.reset with mc := { Mc.reset with phase := .go }, qe := { Qe.reset with enabled := true, ready := true, sqs := [(0, { size := 32, prio := 0, cq := 0, tail := 1, head := 0, blocked := none })], cqs := [(0, { size := 32, vector := 0, ien := true, head := 0, tail := 0 })], fetched := [{ sq := 0, cid := 7 }] }, rl := { Rl.reset with ntReady := List.range 16 } }, by decide +kernel⟩

/-- The hypotheses of clause 8 of QueueCommands are met. -/
theorem witness_QueueCommands_8 :
    (∃ (c : CmdId) (a : W64) (s : State), (c ∈ s.qe.fetched) ∧ (s.ntAll = true)) :=
  ⟨{ sq := 0, cid := 7 }, 0x1000, { State.reset with mc := { Mc.reset with phase := .go }, qe := { Qe.reset with enabled := true, ready := true, sqs := [(0, { size := 32, prio := 0, cq := 0, tail := 1, head := 0, blocked := none })], cqs := [(0, { size := 32, vector := 0, ien := true, head := 0, tail := 0 })], fetched := [{ sq := 0, cid := 7 }] }, rl := { Rl.reset with ntReady := List.range 16 } }, by decide +kernel⟩

/-- The hypotheses of clause 9 of QueueCommands are met. -/
theorem witness_QueueCommands_9 :
    (∃ (c : CmdId) (a : W64) (s : State), (c ∉ s.qe.fetched)) :=
  ⟨{ sq := 0, cid := 7 }, 0x1000, State.reset, by decide +kernel⟩

/-- The hypotheses of clause 10 of QueueCommands are met. -/
theorem witness_QueueCommands_10 :
    (∃ (f b : Nat) (s : State), (s.linkUp = true) ∧ ((srcHL, kProtocol, f * 32 + b) ∈ s.fl.beatPosts)) :=
  ⟨1, 14, { State.reset with fl := { Fl.reset with beatPosts := [(srcHL, kProtocol, 46)] } }, by decide +kernel⟩

/-- The hypotheses of clause 11 of QueueCommands are met. -/
theorem witness_QueueCommands_11 :
    (∃ (f b : Nat) (s : State), (s.linkUp = false)) :=
  ⟨1, 14, { State.reset with mc := { Mc.reset with phase := .off } }, by decide +kernel⟩

/-- The hypotheses of clause 12 of QueueCommands are met. -/
theorem witness_QueueCommands_12 :
    (∃ (c : CmdId) (n z p k v : Nat) (i x : Bool) (s : State), (s.canFetch c = false)) :=
  ⟨{ sq := 0, cid := 7 }, 1, 1, 1, 1, 1, true, true, State.reset, by decide +kernel⟩

/-- The hypotheses of AdminReads are met. -/
theorem witness_AdminReads :
    (∃ (c : CmdId) (k n : Nat) (d : List Byte) (s : State), (s.serves c .recovery) ∧ (s.identifyData k n = .inr d)) ∧
    (∃ (c : CmdId) (k n st : Nat) (s : State), (s.serves c .recovery) ∧ (s.identifyData k n = .inl st)) ∧
    (∃ (c : CmdId) (p l o z : Nat) (r : Bool) (d : List Byte) (s : State), (s.serves c .recovery) ∧ (o % 4 = 0) ∧ ((s.fetch c).logPage p o z = some d)) ∧
    (∃ (c : CmdId) (p l o z : Nat) (r : Bool) (s : State), (s.serves c .recovery) ∧ (o % 4 ≠ 0 ∨ (s.fetch c).logPage p o z = none)) ∧
    (∃ (c : CmdId) (k : Nat) (v : W32) (s : State), (s.serves c .served) ∧ (featureAsked k v = true)) ∧
    (∃ (c : CmdId) (k : Nat) (v : W32) (s : State), (s.serves c .served) ∧ (featureAsked k v = false)) :=
  ⟨⟨c7, 0x13, 1, padTo 4096 (leBytes 1 2), goAdmin, by decide +kernel, rfl⟩,
   ⟨{ sq := 0, cid := 7 }, 0x20, 1, stInvalidField, { State.reset with mc := { Mc.reset with phase := .go }, qe := { Qe.reset with enabled := true, ready := true, sqs := [(0, { size := 32, prio := 0, cq := 0, tail := 1, head := 0, blocked := none })], cqs := [(0, { size := 32, vector := 0, ien := true, head := 0, tail := 0 })] } }, by decide +kernel⟩,
   ⟨c7, 0xC1, 1, 0, 4, false, (goAdmin.fetch c7).qe.pageC1 0 4, goAdmin, by decide +kernel, by decide, rfl⟩,
   ⟨{ sq := 0, cid := 7 }, 0xCF, 0, 2, 4, false, { State.reset with mc := { Mc.reset with phase := .go }, qe := { Qe.reset with enabled := true, ready := true, sqs := [(0, { size := 32, prio := 0, cq := 0, tail := 1, head := 0, blocked := none })], cqs := [(0, { size := 32, vector := 0, ien := true, head := 0, tail := 0 })] } }, by decide +kernel⟩,
   ⟨{ sq := 0, cid := 7 }, 1, 0, { State.reset with mc := { Mc.reset with phase := .go }, qe := { Qe.reset with enabled := true, ready := true, sqs := [(0, { size := 32, prio := 0, cq := 0, tail := 1, head := 0, blocked := none })], cqs := [(0, { size := 32, vector := 0, ien := true, head := 0, tail := 0 })] } }, by decide +kernel⟩,
   ⟨{ sq := 0, cid := 7 }, 6, 0, { State.reset with mc := { Mc.reset with phase := .go }, qe := { Qe.reset with enabled := true, ready := true, sqs := [(0, { size := 32, prio := 0, cq := 0, tail := 1, head := 0, blocked := none })], cqs := [(0, { size := 32, vector := 0, ien := true, head := 0, tail := 0 })] } }, by decide +kernel⟩⟩

/-- The hypotheses of clause 1 of AdminActs are met. -/
theorem witness_AdminActs_1 :
    (∃ (c : CmdId) (k : Nat) (v : W32) (x : List Byte) (s : State), (s.serves c .served) ∧ (k = 1 ∨ k = 8 ∨ k = 10 ∨ k = 11)) :=
  ⟨{ sq := 0, cid := 7 }, 1, 0x01020304, [], { State.reset with mc := { Mc.reset with phase := .go }, qe := { Qe.reset with enabled := true, ready := true, sqs := [(0, { size := 32, prio := 0, cq := 0, tail := 1, head := 0, blocked := none })], cqs := [(0, { size := 32, vector := 0, ien := true, head := 0, tail := 0 })] } }, by decide +kernel⟩

/-- The hypotheses of clause 2 of AdminActs are met. -/
theorem witness_AdminActs_2 :
    (∃ (c : CmdId) (v : W32) (x : List Byte) (s : State), (s.serves c .served)) :=
  ⟨{ sq := 0, cid := 7 }, 0x00020155, [], { State.reset with mc := { Mc.reset with phase := .go }, qe := { Qe.reset with enabled := true, ready := true, sqs := [(0, { size := 32, prio := 0, cq := 0, tail := 1, head := 0, blocked := none })], cqs := [(0, { size := 32, vector := 0, ien := true, head := 0, tail := 0 })] } }, by decide +kernel⟩

/-- The hypotheses of clause 3 of AdminActs are met. -/
theorem witness_AdminActs_3 :
    (∃ (c : CmdId) (v : W32) (x : List Byte) (s : State), (s.serves c .served)) :=
  ⟨{ sq := 0, cid := 7 }, 1, [], { State.reset with mc := { Mc.reset with phase := .go }, qe := { Qe.reset with enabled := true, ready := true, sqs := [(0, { size := 32, prio := 0, cq := 0, tail := 1, head := 0, blocked := none })], cqs := [(0, { size := 32, vector := 0, ien := true, head := 0, tail := 0 })] } }, by decide +kernel⟩

/-- The hypotheses of clause 4 of AdminActs are met. -/
theorem witness_AdminActs_4 :
    (∃ (c : CmdId) (k : Nat) (v : W32) (x : List Byte) (s : State), (s.serves c .served) ∧ (featureKnown k = false)) :=
  ⟨{ sq := 0, cid := 7 }, 6, 0, [], { State.reset with mc := { Mc.reset with phase := .go }, qe := { Qe.reset with enabled := true, ready := true, sqs := [(0, { size := 32, prio := 0, cq := 0, tail := 1, head := 0, blocked := none })], cqs := [(0, { size := 32, vector := 0, ien := true, head := 0, tail := 0 })] } }, by decide +kernel⟩

/-- The hypotheses of clause 5 of AdminActs are met. -/
theorem witness_AdminActs_5 :
    (∃ (c d : CmdId) (s : State), (s.serves c .served) ∧ (d ∈ s.qe.aers) ∧ (d ∈ s.qe.fetched) ∧ (c ≠ d)) :=
  ⟨{ sq := 0, cid := 7 }, { sq := 0, cid := 3 }, { State.reset with mc := { Mc.reset with phase := .go }, qe := { Qe.reset with enabled := true, ready := true, sqs := [(0, { size := 32, prio := 0, cq := 0, tail := 1, head := 0, blocked := none })], cqs := [(0, { size := 32, vector := 0, ien := true, head := 0, tail := 0 })], fetched := [{ sq := 0, cid := 3 }], aers := [{ sq := 0, cid := 3 }] } }, by decide +kernel⟩

/-- The hypotheses of clause 6 of AdminActs are met. -/
theorem witness_AdminActs_6 :
    (∃ (c d : CmdId) (s : State), (s.serves c .served) ∧ (d ∉ s.qe.aers)) :=
  ⟨{ sq := 0, cid := 7 }, { sq := 0, cid := 3 }, { State.reset with mc := { Mc.reset with phase := .go }, qe := { Qe.reset with enabled := true, ready := true, sqs := [(0, { size := 32, prio := 0, cq := 0, tail := 1, head := 0, blocked := none })], cqs := [(0, { size := 32, vector := 0, ien := true, head := 0, tail := 0 })] } }, by decide +kernel⟩

/-- The hypotheses of clause 7 of AdminActs are met. -/
theorem witness_AdminActs_7 :
    (∃ (c : CmdId) (s : State), (s.serves c .served) ∧ (s.qe.aers.length < 16) ∧ (s.qe.events = [])) :=
  ⟨{ sq := 0, cid := 7 }, { State.reset with mc := { Mc.reset with phase := .go }, qe := { Qe.reset with enabled := true, ready := true, sqs := [(0, { size := 32, prio := 0, cq := 0, tail := 1, head := 0, blocked := none })], cqs := [(0, { size := 32, vector := 0, ien := true, head := 0, tail := 0 })] } }, by decide +kernel⟩

/-- The hypotheses of clause 8 of AdminActs are met. -/
theorem witness_AdminActs_8 :
    (∃ (c : CmdId) (p : Nat) (es : List Nat) (s : State), (s.serves c .served) ∧ (s.qe.aers = []) ∧ (s.qe.events = p :: es) ∧ (p ∉ s.qe.masked) ∧ (p ∉ es)) :=
  ⟨{ sq := 0, cid := 7 }, 0xC0, [], { State.reset with mc := { Mc.reset with phase := .go }, qe := { Qe.reset with enabled := true, ready := true, sqs := [(0, { size := 32, prio := 0, cq := 0, tail := 1, head := 0, blocked := none })], cqs := [(0, { size := 32, vector := 0, ien := true, head := 0, tail := 0 })], events := [0xC0] } }, by decide +kernel⟩

/-- The hypotheses of clause 9 of AdminActs are met. -/
theorem witness_AdminActs_9 :
    (∃ (c : CmdId) (s : State), (s.serves c .served) ∧ (16 ≤ s.qe.aers.length)) :=
  ⟨{ sq := 0, cid := 7 }, { State.reset with mc := { Mc.reset with phase := .go }, qe := { Qe.reset with enabled := true, ready := true, sqs := [(0, { size := 32, prio := 0, cq := 0, tail := 1, head := 0, blocked := none })], cqs := [(0, { size := 32, vector := 0, ien := true, head := 0, tail := 0 })], aers := List.replicate 16 { sq := 0, cid := 1 } } }, by decide +kernel⟩

/-- The hypotheses of clause 10 of AdminActs are met. -/
theorem witness_AdminActs_10 :
    (∃ (c : CmdId) (n : Nat) (s : State), (s.serves c .served) ∧ (n ≤ 4) ∧ (s.inGo = true) ∧ (n < 3 ∨ s.anyAdmitted = false)) :=
  ⟨{ sq := 0, cid := 7 }, 4, { State.reset with mc := { Mc.reset with phase := .go }, qe := { Qe.reset with enabled := true, ready := true, sqs := [(0, { size := 32, prio := 0, cq := 0, tail := 1, head := 0, blocked := none })], cqs := [(0, { size := 32, vector := 0, ien := true, head := 0, tail := 0 })] } }, by decide +kernel⟩

/-- The hypotheses of clause 11 of AdminActs are met. -/
theorem witness_AdminActs_11 :
    (∃ (c : CmdId) (n : Nat) (s : State), (s.serves c .served) ∧ (3 ≤ n ∧ n ≤ 4) ∧ (s.inGo = true) ∧ (s.anyAdmitted = true)) :=
  ⟨c7, 3, { goAdmin with jd := { Jd.reset with jobs := [jobOf 1 1 0 .admitted] } }, by decide +kernel⟩

/-- The hypotheses of clause 12 of AdminActs are met. -/
theorem witness_AdminActs_12 :
    (∃ (c : CmdId) (n : Nat) (s : State), (s.serves c .served) ∧ (n ≤ 4) ∧ (s.inGo = false)) :=
  ⟨{ sq := 0, cid := 7 }, 4, { State.reset with mc := { Mc.reset with phase := .blocks }, qe := { Qe.reset with enabled := true, ready := true, sqs := [(0, { size := 32, prio := 0, cq := 0, tail := 1, head := 0, blocked := none })], cqs := [(0, { size := 32, vector := 0, ien := true, head := 0, tail := 0 })] } }, by decide +kernel⟩

/-- The hypotheses of clause 13 of AdminActs are met. -/
theorem witness_AdminActs_13 :
    (∃ (c : CmdId) (n : Nat) (s : State), (s.serves c .served) ∧ (4 < n)) :=
  ⟨{ sq := 0, cid := 7 }, 5, { State.reset with mc := { Mc.reset with phase := .go }, qe := { Qe.reset with enabled := true, ready := true, sqs := [(0, { size := 32, prio := 0, cq := 0, tail := 1, head := 0, blocked := none })], cqs := [(0, { size := 32, vector := 0, ien := true, head := 0, tail := 0 })] } }, by decide +kernel⟩

/-- The hypotheses of clause 1 of NamespaceCommands are met. -/
theorem witness_NamespaceCommands_1 :
    (∃ (c : CmdId) (g : Nat) (s : State), (s.serves c .manage) ∧ (s.mm.namespaces.sorted = true) ∧ (s.mm.namespaces.length < 128) ∧ (∀ i ∈ s.mm.namespaces.keys, 1 ≤ i) ∧ (s.mm.granulesUsed.Nodup) ∧ (∀ x ∈ s.mm.granulesUsed, x < 720896) ∧ (s.mm.granulesUsed.length + g ≤ 720896)) :=
  ⟨{ sq := 0, cid := 7 }, 3, { State.reset with mc := { Mc.reset with phase := .go }, qe := { Qe.reset with enabled := true, ready := true, sqs := [(0, { size := 32, prio := 0, cq := 0, tail := 1, head := 0, blocked := none })], cqs := [(0, { size := 32, vector := 0, ien := true, head := 0, tail := 0 })] }, mm := { Mm.reset with replayed := true, namespaces := [(1, { granules := [0], blocks := 262144, attached := true, readOnly := false, key := 1 })], nextKey := 2 } }, by decide +kernel⟩

/-- The hypotheses of clause 2 of NamespaceCommands are met. -/
theorem witness_NamespaceCommands_2 :
    (∃ (c : CmdId) (g : Nat) (s : State), (s.serves c .manage)) :=
  ⟨{ sq := 0, cid := 7 }, 720897, { State.reset with mc := { Mc.reset with phase := .go }, qe := { Qe.reset with enabled := true, ready := true, sqs := [(0, { size := 32, prio := 0, cq := 0, tail := 1, head := 0, blocked := none })], cqs := [(0, { size := 32, vector := 0, ien := true, head := 0, tail := 0 })] } }, by decide +kernel⟩

/-- The hypotheses of clause 3 of NamespaceCommands are met. -/
theorem witness_NamespaceCommands_3 :
    (∃ (c : CmdId) (z k : Nat) (s : State), (s.serves c .manage) ∧ (z ≠ k ∨ z % 262144 ≠ 0)) :=
  ⟨{ sq := 0, cid := 7 }, 262145, 262145, { State.reset with mc := { Mc.reset with phase := .go }, qe := { Qe.reset with enabled := true, ready := true, sqs := [(0, { size := 32, prio := 0, cq := 0, tail := 1, head := 0, blocked := none })], cqs := [(0, { size := 32, vector := 0, ien := true, head := 0, tail := 0 })] } }, by decide +kernel⟩

/-- The hypotheses of clause 4 of NamespaceCommands are met. -/
theorem witness_NamespaceCommands_4 :
    (∃ (c : CmdId) (n : Nat) (x : Namespace) (s : State), (s.serves c .manage) ∧ (n ≠ 0xFFFFFFFF) ∧ (s.mm.namespaces.find n = some x) ∧ (s.nsInUse n = false)) :=
  ⟨{ sq := 0, cid := 7 }, 1, { granules := [0], blocks := 262144, attached := true, readOnly := false, key := 1 }, { State.reset with mc := { Mc.reset with phase := .go }, qe := { Qe.reset with enabled := true, ready := true, sqs := [(0, { size := 32, prio := 0, cq := 0, tail := 1, head := 0, blocked := none })], cqs := [(0, { size := 32, vector := 0, ien := true, head := 0, tail := 0 })] }, mm := { Mm.reset with replayed := true, namespaces := [(1, { granules := [0], blocks := 262144, attached := true, readOnly := false, key := 1 })], nextKey := 2 } }, by decide +kernel⟩

/-- The hypotheses of clause 5 of NamespaceCommands are met. -/
theorem witness_NamespaceCommands_5 :
    (∃ (c : CmdId) (n : Nat) (s : State), (s.serves c .manage) ∧ (n ≠ 0xFFFFFFFF) ∧ ((s.mm.namespaces.find n).isSome = true) ∧ (s.nsInUse n = true)) :=
  ⟨c7, 1, { goAdmin with mm := { Mm.reset with replayed := true, namespaces := [(1, { granules := [0], blocks := 262144, attached := true, readOnly := false, key := 1 })] }, jd := { Jd.reset with jobs := [{ jobOf 1 1 0 .admitted with desc := List.replicate 64 0 ++ leBytes 1 4 ++ List.replicate 60 0 }] } }, by decide +kernel⟩

/-- The hypotheses of clause 6 of NamespaceCommands are met. -/
theorem witness_NamespaceCommands_6 :
    (∃ (c : CmdId) (n : Nat) (a : Bool) (x : Namespace) (s : State), (s.serves c .manage) ∧ (s.mm.namespaces.find n = some x) ∧ (x.attached = !a)) :=
  ⟨{ sq := 0, cid := 7 }, 1, true, { granules := [0], blocks := 262144, attached := false, readOnly := false, key := 1 }, { State.reset with mc := { Mc.reset with phase := .go }, qe := { Qe.reset with enabled := true, ready := true, sqs := [(0, { size := 32, prio := 0, cq := 0, tail := 1, head := 0, blocked := none })], cqs := [(0, { size := 32, vector := 0, ien := true, head := 0, tail := 0 })] }, mm := { Mm.reset with replayed := true, namespaces := [(1, { granules := [0], blocks := 262144, attached := false, readOnly := false, key := 1 })], nextKey := 2 } }, by decide +kernel⟩

/-- The hypotheses of clause 7 of NamespaceCommands are met. -/
theorem witness_NamespaceCommands_7 :
    (∃ (c : CmdId) (n : Nat) (x : Namespace) (s : State), (s.serves c .manage) ∧ (s.mm.namespaces.find n = some x) ∧ (s.nsInUse n = false)) :=
  ⟨{ sq := 0, cid := 7 }, 1, { granules := [0], blocks := 262144, attached := true, readOnly := false, key := 1 }, { State.reset with mc := { Mc.reset with phase := .go }, qe := { Qe.reset with enabled := true, ready := true, sqs := [(0, { size := 32, prio := 0, cq := 0, tail := 1, head := 0, blocked := none })], cqs := [(0, { size := 32, vector := 0, ien := true, head := 0, tail := 0 })] }, mm := { Mm.reset with replayed := true, namespaces := [(1, { granules := [0], blocks := 262144, attached := true, readOnly := false, key := 1 })], nextKey := 2 } }, by decide +kernel⟩

/-- The hypotheses of clause 8 of NamespaceCommands are met. -/
theorem witness_NamespaceCommands_8 :
    (∃ (c : CmdId) (n z : Nat) (x : Namespace) (s : State), (s.serves c .manage) ∧ (z ≤ 2) ∧ (s.mm.namespaces.find n = some x) ∧ (s.nsInUse n = false) ∧ (s.qe.store = [])) :=
  ⟨{ sq := 0, cid := 7 }, 1, 2, { granules := [0], blocks := 262144, attached := true, readOnly := false, key := 1 }, { State.reset with mc := { Mc.reset with phase := .go }, qe := { Qe.reset with enabled := true, ready := true, sqs := [(0, { size := 32, prio := 0, cq := 0, tail := 1, head := 0, blocked := none })], cqs := [(0, { size := 32, vector := 0, ien := true, head := 0, tail := 0 })] }, mm := { Mm.reset with replayed := true, namespaces := [(1, { granules := [0], blocks := 262144, attached := true, readOnly := false, key := 1 })], nextKey := 2 } }, by decide +kernel⟩

/-- The hypotheses of clause 9 of NamespaceCommands are met. -/
theorem witness_NamespaceCommands_9 :
    (∃ (c : CmdId) (s : State), (s.serves c .manage) ∧ (∀ i ∈ s.mm.namespaces.keys, s.nsInUse i = false)) :=
  ⟨{ sq := 0, cid := 7 }, { State.reset with mc := { Mc.reset with phase := .go }, qe := { Qe.reset with enabled := true, ready := true, sqs := [(0, { size := 32, prio := 0, cq := 0, tail := 1, head := 0, blocked := none })], cqs := [(0, { size := 32, vector := 0, ien := true, head := 0, tail := 0 })] }, mm := { Mm.reset with replayed := true, namespaces := [(1, { granules := [0], blocks := 262144, attached := true, readOnly := false, key := 1 })], nextKey := 2 } }, by decide +kernel⟩

/-- The hypotheses of clause 10 of NamespaceCommands are met. -/
theorem witness_NamespaceCommands_10 :
    (∃ (c : CmdId) (n z : Nat) (a : Bool) (s : State), (s.serves c .manage) ∧ (n ≠ 0xFFFFFFFF) ∧ (s.mm.namespaces.find n = none) ∧ (z ≤ 2)) :=
  ⟨{ sq := 0, cid := 7 }, 2, 1, true, { State.reset with mc := { Mc.reset with phase := .go }, qe := { Qe.reset with enabled := true, ready := true, sqs := [(0, { size := 32, prio := 0, cq := 0, tail := 1, head := 0, blocked := none })], cqs := [(0, { size := 32, vector := 0, ien := true, head := 0, tail := 0 })] }, mm := { Mm.reset with replayed := true, namespaces := [(1, { granules := [0], blocks := 262144, attached := true, readOnly := false, key := 1 })], nextKey := 2 } }, by decide +kernel⟩

/-- The hypotheses of clause 11 of NamespaceCommands are met. -/
theorem witness_NamespaceCommands_11 :
    (∃ (c : CmdId) (n k z : Nat) (a : Bool) (x : Namespace) (s : State), (s.serves c .manage) ∧ (s.mm.namespaces.find n = some x)) :=
  ⟨{ sq := 0, cid := 7 }, 1, 1, 3, true, { granules := [0], blocks := 262144, attached := true, readOnly := false, key := 1 }, { State.reset with mc := { Mc.reset with phase := .go }, qe := { Qe.reset with enabled := true, ready := true, sqs := [(0, { size := 32, prio := 0, cq := 0, tail := 1, head := 0, blocked := none })], cqs := [(0, { size := 32, vector := 0, ien := true, head := 0, tail := 0 })] }, mm := { Mm.reset with replayed := true, namespaces := [(1, { granules := [0], blocks := 262144, attached := true, readOnly := false, key := 1 })], nextKey := 2 } }, by decide +kernel⟩

/-- The hypotheses of clause 1 of VersionsAndSideband are met. -/
theorem witness_VersionsAndSideband_1 :
    (∃ (c : CmdId) (d : Dwords) (o : List Byte) (w : List Bool) (a b r x : Nat) (s : State), (s.serves c .served) ∧ (negotiateOk d = true) ∧ (zerosAt o 8 24 = true) ∧ (offered o = some (a, b, r, x)) ∧ (∀ e ∈ s.idx, sbFormat e.2.super ≤ min s.qe.versions.index x) ∧ (w.getD 0 true = true)) :=
  ⟨{ sq := 0, cid := 7 }, { nsid := 0, d10 := 0, d11 := 0, d12 := 0, d13 := 0, d14 := 0, d15 := 0 }, (leBytes 0x20 1 ++ leBytes 0x31 1 ++ leBytes 4 1 ++ leBytes 5 1 ++ leBytes 1 1 ++ leBytes 2 1 ++ leBytes 3 1 ++ leBytes 4 1 ++ List.replicate 24 0), [], 0x31, 5, 2, 4, { State.reset with mc := { Mc.reset with phase := .go }, qe := { Qe.reset with enabled := true, ready := true, sqs := [(0, { size := 32, prio := 0, cq := 0, tail := 1, head := 0, blocked := none })], cqs := [(0, { size := 32, vector := 0, ien := true, head := 0, tail := 0 })] } }, by decide +kernel⟩

/-- The hypotheses of clause 2 of VersionsAndSideband are met. -/
theorem witness_VersionsAndSideband_2 :
    (∃ (c : CmdId) (d : Dwords) (o : List Byte) (w : List Bool) (s : State), (s.serves c .served) ∧ (negotiateOk d = true) ∧ (zerosAt o 8 24 = true) ∧ (offered o = none)) :=
  ⟨{ sq := 0, cid := 7 }, { nsid := 0, d10 := 0, d11 := 0, d12 := 0, d13 := 0, d14 := 0, d15 := 0 }, List.replicate 32 0, [], { State.reset with mc := { Mc.reset with phase := .go }, qe := { Qe.reset with enabled := true, ready := true, sqs := [(0, { size := 32, prio := 0, cq := 0, tail := 1, head := 0, blocked := none })], cqs := [(0, { size := 32, vector := 0, ien := true, head := 0, tail := 0 })] } }, by decide +kernel⟩

/-- The hypotheses of clause 3 of VersionsAndSideband are met. -/
theorem witness_VersionsAndSideband_3 :
    (∃ (c : CmdId) (d : Dwords) (w : List Bool) (s : State), (s.serves c .served) ∧ (negotiateOk d = true) ∧ (w.getD 0 true = true)) :=
  ⟨{ sq := 0, cid := 7 }, { nsid := 0, d10 := 1, d11 := 0, d12 := 0, d13 := 0, d14 := 0, d15 := 0 }, [], { State.reset with mc := { Mc.reset with phase := .go }, qe := { Qe.reset with enabled := true, ready := true, sqs := [(0, { size := 32, prio := 0, cq := 0, tail := 1, head := 0, blocked := none })], cqs := [(0, { size := 32, vector := 0, ien := true, head := 0, tail := 0 })] } }, by decide +kernel⟩

/-- The hypotheses of clause 4 of VersionsAndSideband are met. -/
theorem witness_VersionsAndSideband_4 :
    (∃ (c : CmdId) (d : Dwords) (s : State), (s.serves c .served) ∧ (negotiateOk d = true)) :=
  ⟨{ sq := 0, cid := 7 }, { nsid := 0, d10 := 2, d11 := 0, d12 := 0, d13 := 0, d14 := 0, d15 := 0 }, { State.reset with mc := { Mc.reset with phase := .go }, qe := { Qe.reset with enabled := true, ready := true, sqs := [(0, { size := 32, prio := 0, cq := 0, tail := 1, head := 0, blocked := none })], cqs := [(0, { size := 32, vector := 0, ien := true, head := 0, tail := 0 })] } }, by decide +kernel⟩

/-- The hypotheses of clause 5 of VersionsAndSideband are met. -/
theorem witness_VersionsAndSideband_5 :
    (∃ (a : Bool) (o n k i z : Nat) (s : State), (s.power.vinAccepted = true) ∧ (s.power.failing = false) ∧ (s.power.eid ≠ none)) :=
  ⟨true, 6, 0, 1, 0, 64, { State.reset with power := { Power.reset with eid := some 9 } }, by decide +kernel⟩

/-- The hypotheses of clause 6 of VersionsAndSideband are met. -/
theorem witness_VersionsAndSideband_6 :
    (∃ (e : Nat) (s : State), (s.power.vinAccepted = true) ∧ (s.power.failing = false) ∧ (0 < e ∧ e < 255)) :=
  ⟨9, State.reset, by decide +kernel⟩

/-- The hypotheses of clause 7 of VersionsAndSideband are met. -/
theorem witness_VersionsAndSideband_7 :
    (∃ (a : Nat) (s : State), (s.power.vinAccepted = true) ∧ (s.power.failing = false) ∧ (s.power.dynAddr = none) ∧ (a < 128)) :=
  ⟨0x30, State.reset, by decide +kernel⟩

/-- The hypotheses of clause 8 of VersionsAndSideband are met. -/
theorem witness_VersionsAndSideband_8 :
    (∃ (m : Nat) (a : Bool) (o n k i z : Nat) (s : State), (m ≠ 4 ∨ s.power.eid = none ∨ s.power.vinAccepted = false ∨ s.power.failing = true)) :=
  ⟨3, true, 6, 0, 1, 0, 64, State.reset, by decide +kernel⟩

/-- The hypotheses of clause 9 of VersionsAndSideband are met. -/
theorem witness_VersionsAndSideband_9 :
    (∃ (e : Nat) (s : State), (e = 0 ∨ 255 ≤ e ∨ s.power.vinAccepted = false ∨ s.power.failing = true)) :=
  ⟨255, State.reset, by decide +kernel⟩

/-- The hypotheses of clause 10 of VersionsAndSideband are met. -/
theorem witness_VersionsAndSideband_10 :
    (∃ (a : Nat) (s : State), (s.power.dynAddr ≠ none ∨ s.power.vinAccepted = false ∨ s.power.failing = true)) :=
  ⟨0, { State.reset with power := { Power.reset with dynAddr := some 8 } }, by decide +kernel⟩

/-- The hypotheses of clause 11 of VersionsAndSideband are met. -/
theorem witness_VersionsAndSideband_11 :
    (∃ (c : CmdId) (d : Dwords) (o : List Byte) (w : List Bool) (s : State), (s.serves c .served)) :=
  ⟨{ sq := 0, cid := 7 }, { nsid := 0, d10 := 3, d11 := 0, d12 := 0, d13 := 0, d14 := 0, d15 := 0 }, [], [], { State.reset with mc := { Mc.reset with phase := .go }, qe := { Qe.reset with enabled := true, ready := true, sqs := [(0, { size := 32, prio := 0, cq := 0, tail := 1, head := 0, blocked := none })], cqs := [(0, { size := 32, vector := 0, ien := true, head := 0, tail := 0 })] } }, by decide +kernel⟩

/-- The hypotheses of clause 1 of FirmwareUpdate are met. -/
theorem witness_FirmwareUpdate_1 :
    (∃ (c : CmdId) (o : Nat) (d : List Byte) (s : State), (s.serves c .image) ∧ (s.se.commit = none) ∧ (o + d.length ≤ 33554432)) :=
  ⟨{ sq := 0, cid := 7 }, 0, [1, 2, 3, 4], { State.reset with mc := { Mc.reset with phase := .go }, qe := { Qe.reset with enabled := true, ready := true, sqs := [(0, { size := 32, prio := 0, cq := 0, tail := 1, head := 0, blocked := none })], cqs := [(0, { size := 32, vector := 0, ien := true, head := 0, tail := 0 })] } }, by decide +kernel⟩

/-- The hypotheses of clause 2 of FirmwareUpdate are met. -/
theorem witness_FirmwareUpdate_2 :
    (∃ (c : CmdId) (o : Nat) (d : List Byte) (s : State), (s.serves c .image) ∧ (s.se.commit ≠ none ∨ 33554432 < o + d.length)) :=
  ⟨{ sq := 0, cid := 7 }, 33554432, [1], { State.reset with mc := { Mc.reset with phase := .go }, qe := { Qe.reset with enabled := true, ready := true, sqs := [(0, { size := 32, prio := 0, cq := 0, tail := 1, head := 0, blocked := none })], cqs := [(0, { size := 32, vector := 0, ien := true, head := 0, tail := 0 })] } }, by decide +kernel⟩

/-- The hypotheses of clause 3 of FirmwareUpdate are met. -/
theorem witness_FirmwareUpdate_3 :
    (∃ (c : CmdId) (p a : Nat) (w : List Bool) (s : State), (s.serves c .fwCommit) ∧ (s.se.commit = none) ∧ (s.mc.phase = .go ∨ s.mc.cause ≠ 5) ∧ (p ≤ 1) ∧ (a ≤ 1) ∧ (fwHeaderOk (readCells 0 s.se.fwBuf 0 64) s.se.fwLen = true) ∧ (w.getD 0 true = true)) :=
  ⟨{ sq := 0, cid := 7 }, 0, 0, [], { State.reset with mc := { Mc.reset with phase := .go }, qe := { Qe.reset with enabled := true, ready := true, sqs := [(0, { size := 32, prio := 0, cq := 0, tail := 1, head := 0, blocked := none })], cqs := [(0, { size := 32, vector := 0, ien := true, head := 0, tail := 0 })] }, se := { Se.reset with fwBuf := writeCells 0 [] 0 (fwImg.take 64), fwLen := 2732 } }, by decide +kernel⟩

/-- The hypotheses of clause 4 of FirmwareUpdate are met. -/
theorem witness_FirmwareUpdate_4 :
    (∃ (c : CmdId) (p a : Nat) (w : List Bool) (s : State), (s.serves c .fwCommit) ∧ (s.se.commit = none) ∧ (s.mc.phase = .go ∨ s.mc.cause ≠ 5) ∧ (p ≤ 1) ∧ (a ≤ 1) ∧ (fwHeaderOk (readCells 0 s.se.fwBuf 0 64) s.se.fwLen = true) ∧ (s.ntAll = true)) :=
  ⟨{ sq := 0, cid := 7 }, 0, 0, [], { State.reset with mc := { Mc.reset with phase := .go }, qe := { Qe.reset with enabled := true, ready := true, sqs := [(0, { size := 32, prio := 0, cq := 0, tail := 1, head := 0, blocked := none })], cqs := [(0, { size := 32, vector := 0, ien := true, head := 0, tail := 0 })] }, rl := { Rl.reset with ntReady := List.range 16 }, se := { Se.reset with fwBuf := writeCells 0 [] 0 (fwImg.take 64), fwLen := 2732 } }, by decide +kernel⟩

/-- The hypotheses of clause 5 of FirmwareUpdate are met. -/
theorem witness_FirmwareUpdate_5 :
    (∃ (k : FwCommit) (w : List Bool) (s : State), (s.se.commit = some k) ∧ (s.mc.phase = .go) ∧ (k.c ∈ s.qe.fetched) ∧ (w.getD 0 true = true)) :=
  ⟨{ c := { sq := 0, cid := 7 }, action := 1, image := [1, 2, 3, 4] }, [], { State.reset with mc := { Mc.reset with phase := .go }, qe := { Qe.reset with enabled := true, ready := true, sqs := [(0, { size := 32, prio := 0, cq := 0, tail := 1, head := 0, blocked := none })], cqs := [(0, { size := 32, vector := 0, ien := true, head := 0, tail := 0 })], fetched := [{ sq := 0, cid := 7 }] }, se := { Se.reset with commit := some { c := { sq := 0, cid := 7 }, action := 1, image := [1, 2, 3, 4] } } }, by decide +kernel⟩

/-- The hypotheses of clause 6 of FirmwareUpdate are met. -/
theorem witness_FirmwareUpdate_6 :
    (∃ (k : FwCommit) (w : List Bool) (s : State), (s.se.commit = some k) ∧ (k.c ∈ s.qe.fetched)) :=
  ⟨{ c := { sq := 0, cid := 7 }, action := 1, image := [1, 2, 3, 4] }, [], { State.reset with mc := { Mc.reset with phase := .go }, qe := { Qe.reset with enabled := true, ready := true, sqs := [(0, { size := 32, prio := 0, cq := 0, tail := 1, head := 0, blocked := none })], cqs := [(0, { size := 32, vector := 0, ien := true, head := 0, tail := 0 })], fetched := [{ sq := 0, cid := 7 }] }, se := { Se.reset with commit := some { c := { sq := 0, cid := 7 }, action := 1, image := [1, 2, 3, 4] } } }, by decide +kernel⟩

/-- The hypotheses of clause 7 of FirmwareUpdate are met. -/
theorem witness_FirmwareUpdate_7 :
    (∃ (c : CmdId) (p a : Nat) (g : Bool) (w : List Bool) (s : State), (s.serves c .fwCommit)) :=
  ⟨{ sq := 0, cid := 7 }, 0, 0, true, [], { State.reset with mc := { Mc.reset with phase := .go }, qe := { Qe.reset with enabled := true, ready := true, sqs := [(0, { size := 32, prio := 0, cq := 0, tail := 1, head := 0, blocked := none })], cqs := [(0, { size := 32, vector := 0, ien := true, head := 0, tail := 0 })] } }, by decide +kernel⟩

/-- The hypotheses of clause 8 of FirmwareUpdate are met. -/
theorem witness_FirmwareUpdate_8 :
    (∃ (c : CmdId) (p a : Nat) (w : List Bool) (s : State), (s.serves c .fwCommit) ∧ (s.se.commit = none) ∧ (s.mc.phase = .go ∨ s.mc.cause ≠ 5) ∧ (p ≤ 1) ∧ (a ≤ 1) ∧ (fwHeaderOk (readCells 0 s.se.fwBuf 0 64) s.se.fwLen = true) ∧ (w.getD 0 true = false) ∧ (w.getD 1 true = false)) :=
  ⟨{ sq := 0, cid := 7 }, 0, 0, [false, false], { State.reset with mc := { Mc.reset with phase := .go }, qe := { Qe.reset with enabled := true, ready := true, sqs := [(0, { size := 32, prio := 0, cq := 0, tail := 1, head := 0, blocked := none })], cqs := [(0, { size := 32, vector := 0, ien := true, head := 0, tail := 0 })] }, se := { Se.reset with fwBuf := writeCells 0 [] 0 (fwImg.take 64), fwLen := 2732 } }, by decide +kernel⟩

/-- The hypotheses of clause 9 of FirmwareUpdate are met. -/
theorem witness_FirmwareUpdate_9 :
    (∃ (k : FwCommit) (w : List Bool) (s : State), (s.se.commit = some k) ∧ (s.mc.phase = .recovery) ∧ (w.getD 0 true = true)) :=
  ⟨{ c := { sq := 0, cid := 7 }, action := 1, image := [1, 2, 3, 4] }, [], { State.reset with mc := { Mc.reset with phase := .recovery }, qe := { Qe.reset with enabled := true, ready := true, sqs := [(0, { size := 32, prio := 0, cq := 0, tail := 1, head := 0, blocked := none })], cqs := [(0, { size := 32, vector := 0, ien := true, head := 0, tail := 0 })], fetched := [{ sq := 0, cid := 7 }] }, se := { Se.reset with commit := some { c := { sq := 0, cid := 7 }, action := 1, image := [1, 2, 3, 4] } } }, by decide +kernel⟩

/-- The hypotheses of clause 10 of FirmwareUpdate are met. -/
theorem witness_FirmwareUpdate_10 :
    (∃ (k : FwCommit) (w : List Bool) (s : State), (s.se.commit = some k) ∧ (k.c ∈ s.qe.fetched) ∧ (w.getD 0 true = false) ∧ (w.getD 1 true = false)) :=
  ⟨{ c := { sq := 0, cid := 7 }, action := 1, image := [1, 2, 3, 4] }, [false, false], { State.reset with mc := { Mc.reset with phase := .go }, qe := { Qe.reset with enabled := true, ready := true, sqs := [(0, { size := 32, prio := 0, cq := 0, tail := 1, head := 0, blocked := none })], cqs := [(0, { size := 32, vector := 0, ien := true, head := 0, tail := 0 })], fetched := [{ sq := 0, cid := 7 }] }, se := { Se.reset with commit := some { c := { sq := 0, cid := 7 }, action := 1, image := [1, 2, 3, 4] } } }, by decide +kernel⟩

/-- The hypotheses of clause 11 of FirmwareUpdate are met. -/
theorem witness_FirmwareUpdate_11 :
    (∃ (x : Bool) (w : List Bool) (s : State), (s.se.commit = none)) :=
  ⟨true, [], State.reset, by decide +kernel⟩

/-- The hypotheses of clause 1 of KeysAndAttestation are met. -/
theorem witness_KeysAndAttestation_1 :
    (∃ (r : List Byte) (g : Bool) (w : List Bool) (s : State), (s.vendorLive = true) ∧ (keyFormatOk r = false)) :=
  ⟨[], true, [], { State.reset with mc := { Mc.reset with phase := .go }, qe := { Qe.reset with enabled := true, ready := true, sqs := [(0, { size := 32, prio := 0, cq := 0, tail := 1, head := 0, blocked := none })], cqs := [(0, { size := 32, vector := 0, ien := true, head := 0, tail := 0 })] } }, by decide +kernel⟩

/-- The hypotheses of clause 2 of KeysAndAttestation are met. -/
theorem witness_KeysAndAttestation_2 :
    (∃ (r : List Byte) (g : Bool) (w : List Bool) (s : State), (s.vendorLive = true) ∧ (keyFormatOk r = true) ∧ (u32At r 8 = 0xFFFFFFFF) ∧ (byteAt r 6 = 1) ∧ (s.sw.ownerKeys = []) ∧ (sliceZ r 24 32 ≠ s.se.identity)) :=
  ⟨(leBytes 0x4B4F535A 4 ++ leBytes 1 2 ++ [1, 0] ++ leBytes 0xFFFFFFFF 4 ++ leBytes 0 4 ++ leBytes 1 8 ++ List.replicate 32 0 ++ ([0, 0, 0, 1, 0, 0, 0, 6, 0, 0, 0, 4] : List Byte) ++ List.replicate 48 0x11 ++ List.replicate 12 0), true, [], { State.reset with mc := { Mc.reset with phase := .go }, qe := { Qe.reset with enabled := true, ready := true, sqs := [(0, { size := 32, prio := 0, cq := 0, tail := 1, head := 0, blocked := none })], cqs := [(0, { size := 32, vector := 0, ien := true, head := 0, tail := 0 })] }, se := { Se.reset with identity := List.replicate 32 1 } }, by decide +kernel⟩

/-- The hypotheses of clause 3 of KeysAndAttestation are met. -/
theorem witness_KeysAndAttestation_3 :
    (∃ (r : List Byte) (g : Bool) (w : List Bool) (s : State), (s.vendorLive = true) ∧ (keyFormatOk r = true) ∧ (u32At r 8 = 0xFFFFFFFF) ∧ (byteAt r 6 = 1) ∧ (s.sw.ownerKeys = []) ∧ (sliceZ r 24 32 = s.se.identity) ∧ (u64At r 16 ≤ s.sw.keyCounter)) :=
  ⟨(leBytes 0x4B4F535A 4 ++ leBytes 1 2 ++ [1, 0] ++ leBytes 0xFFFFFFFF 4 ++ leBytes 0 4 ++ leBytes 0 8 ++ List.replicate 32 0 ++ ([0, 0, 0, 1, 0, 0, 0, 6, 0, 0, 0, 4] : List Byte) ++ List.replicate 48 0x11 ++ List.replicate 12 0), true, [], { State.reset with mc := { Mc.reset with phase := .go }, qe := { Qe.reset with enabled := true, ready := true, sqs := [(0, { size := 32, prio := 0, cq := 0, tail := 1, head := 0, blocked := none })], cqs := [(0, { size := 32, vector := 0, ien := true, head := 0, tail := 0 })] }, se := { Se.reset with identity := List.replicate 32 0 } }, by decide +kernel⟩

/-- The hypotheses of clause 4 of KeysAndAttestation are met. -/
theorem witness_KeysAndAttestation_4 :
    (∃ (r : List Byte) (g : Bool) (w : List Bool) (i : Nat) (s : State), (s.vendorLive = true) ∧ (keyFormatOk r = true) ∧ ((u32At r 8 = 0xFFFFFFFF ∧ byteAt r 6 = 1 ∧ s.sw.ownerKeys = []) ∨ (u32At r 8 ≠ 0xFFFFFFFF ∧ (s.sw.ownerKeys.find (u32At r 8)).isSome = true ∧ g = true)) ∧ (sliceZ r 24 32 = s.se.identity) ∧ (s.sw.keyCounter < u64At r 16) ∧ ((byteAt r 6 = 1 ∧ s.sw.ownerKeys.find (byteAt r 7) = none) ∨ (byteAt r 6 = 2 ∧ (s.sw.ownerKeys.find (byteAt r 7)).isSome = true ∧ s.sw.ownerKeys.length ≠ 1)) ∧ (s.sw.freeKeySlot 0 = some i) ∧ (w.getD 0 true = true)) :=
  ⟨(leBytes 0x4B4F535A 4 ++ leBytes 1 2 ++ [1, 0] ++ leBytes 0xFFFFFFFF 4 ++ leBytes 0 4 ++ leBytes 1 8 ++ List.replicate 32 0 ++ ([0, 0, 0, 1, 0, 0, 0, 6, 0, 0, 0, 4] : List Byte) ++ List.replicate 48 0x11 ++ List.replicate 12 0), true, [], 0, { State.reset with mc := { Mc.reset with phase := .go }, qe := { Qe.reset with enabled := true, ready := true, sqs := [(0, { size := 32, prio := 0, cq := 0, tail := 1, head := 0, blocked := none })], cqs := [(0, { size := 32, vector := 0, ien := true, head := 0, tail := 0 })] }, se := { Se.reset with identity := List.replicate 32 0 } }, by decide +kernel⟩

/-- The hypotheses of clause 5 of KeysAndAttestation are met. -/
theorem witness_KeysAndAttestation_5 :
    (∃ (r : List Byte) (g : Bool) (w : List Bool) (s : State), (s.vendorLive = true) ∧ (keyFormatOk r = true) ∧ ((u32At r 8 = 0xFFFFFFFF ∧ byteAt r 6 = 1 ∧ s.sw.ownerKeys = []) ∨ (u32At r 8 ≠ 0xFFFFFFFF ∧ (s.sw.ownerKeys.find (u32At r 8)).isSome = true ∧ g = true)) ∧ (sliceZ r 24 32 = s.se.identity) ∧ (s.sw.keyCounter < u64At r 16) ∧ ((byteAt r 6 = 1 ∧ s.sw.ownerKeys.find (byteAt r 7) = none) ∨ (byteAt r 6 = 2 ∧ (s.sw.ownerKeys.find (byteAt r 7)).isSome = true ∧ s.sw.ownerKeys.length ≠ 1))) :=
  ⟨(leBytes 0x4B4F535A 4 ++ leBytes 1 2 ++ [1, 0] ++ leBytes 0xFFFFFFFF 4 ++ leBytes 0 4 ++ leBytes 1 8 ++ List.replicate 32 0 ++ ([0, 0, 0, 1, 0, 0, 0, 6, 0, 0, 0, 4] : List Byte) ++ List.replicate 48 0x11 ++ List.replicate 12 0), true, [false, false], { State.reset with mc := { Mc.reset with phase := .go }, qe := { Qe.reset with enabled := true, ready := true, sqs := [(0, { size := 32, prio := 0, cq := 0, tail := 1, head := 0, blocked := none })], cqs := [(0, { size := 32, vector := 0, ien := true, head := 0, tail := 0 })] }, se := { Se.reset with identity := List.replicate 32 0 } }, by decide +kernel⟩

/-- The hypotheses of clause 6 of KeysAndAttestation are met. -/
theorem witness_KeysAndAttestation_6 :
    (∃ (r : List Byte) (g : Bool) (w : List Bool) (s : State), (s.vendorLive = true) ∧ (keyFormatOk r = true)) :=
  ⟨(leBytes 0x4B4F535A 4 ++ leBytes 1 2 ++ [1, 0] ++ leBytes 0xFFFFFFFF 4 ++ leBytes 0 4 ++ leBytes 1 8 ++ List.replicate 32 0 ++ ([0, 0, 0, 1, 0, 0, 0, 6, 0, 0, 0, 4] : List Byte) ++ List.replicate 48 0x11 ++ List.replicate 12 0), true, [], { State.reset with mc := { Mc.reset with phase := .go }, qe := { Qe.reset with enabled := true, ready := true, sqs := [(0, { size := 32, prio := 0, cq := 0, tail := 1, head := 0, blocked := none })], cqs := [(0, { size := 32, vector := 0, ien := true, head := 0, tail := 0 })] }, se := { Se.reset with identity := List.replicate 32 0 } }, by decide +kernel⟩

/-- The hypotheses of clause 7 of KeysAndAttestation are met. -/
theorem witness_KeysAndAttestation_7 :
    (∃ (s : State), (s.vendorLive = true)) :=
  ⟨{ State.reset with mc := { Mc.reset with phase := .go }, qe := { Qe.reset with enabled := true, ready := true, sqs := [(0, { size := 32, prio := 0, cq := 0, tail := 1, head := 0, blocked := none })], cqs := [(0, { size := 32, vector := 0, ien := true, head := 0, tail := 0 })] } }, by decide +kernel⟩

/-- The hypotheses of clause 8 of KeysAndAttestation are met. -/
theorem witness_KeysAndAttestation_8 :
    (∃ (w : List Bool) (x : Bool) (r n : Nat) (s : State), (s.vendorLive = true) ∧ (s.se.attesting = true) ∧ (s.se.topReady = true) ∧ (s.se.block = some (r, n)) ∧ (n < 1024)) :=
  ⟨[], true, 3, 1023, { State.reset with mc := { Mc.reset with phase := .go }, qe := { Qe.reset with enabled := true, ready := true, sqs := [(0, { size := 32, prio := 0, cq := 0, tail := 1, head := 0, blocked := none })], cqs := [(0, { size := 32, vector := 0, ien := true, head := 0, tail := 0 })] }, se := { Se.reset with attesting := true, topReady := true, block := some (3, 1023) } }, by decide +kernel⟩

/-- The hypotheses of clause 9 of KeysAndAttestation are met. -/
theorem witness_KeysAndAttestation_9 :
    (∃ (w : List Bool) (x : Bool) (s : State), (s.vendorLive = true) ∧ (s.se.attesting = true) ∧ (s.se.topReady = true) ∧ (s.se.block = none ∨ 1024 ≤ (s.se.block.getD (0, 0)).2)) :=
  ⟨[], true, { State.reset with mc := { Mc.reset with phase := .go }, qe := { Qe.reset with enabled := true, ready := true, sqs := [(0, { size := 32, prio := 0, cq := 0, tail := 1, head := 0, blocked := none })], cqs := [(0, { size := 32, vector := 0, ien := true, head := 0, tail := 0 })] }, se := { Se.reset with attesting := true, topReady := true } }, by decide +kernel⟩

/-- The hypotheses of clause 10 of KeysAndAttestation are met. -/
theorem witness_KeysAndAttestation_10 :
    (∃ (w : List Bool) (x : Bool) (s : State), (s.vendorLive = false ∨ s.se.attesting = false ∨ s.se.topReady = false)) :=
  ⟨[], true, { State.reset with mc := { Mc.reset with phase := .go }, qe := { Qe.reset with enabled := true, ready := true, sqs := [(0, { size := 32, prio := 0, cq := 0, tail := 1, head := 0, blocked := none })], cqs := [(0, { size := 32, vector := 0, ien := true, head := 0, tail := 0 })] } }, by decide +kernel⟩

/-- The hypotheses of clause 11 of KeysAndAttestation are met. -/
theorem witness_KeysAndAttestation_11 :
    (∃ (r : List Byte) (g : Bool) (w : List Bool) (s : State), (s.vendorLive = false)) :=
  ⟨(leBytes 0x4B4F535A 4 ++ leBytes 1 2 ++ [1, 0] ++ leBytes 0xFFFFFFFF 4 ++ leBytes 0 4 ++ leBytes 1 8 ++ List.replicate 32 0 ++ ([0, 0, 0, 1, 0, 0, 0, 6, 0, 0, 0, 4] : List Byte) ++ List.replicate 48 0x11 ++ List.replicate 12 0), true, [], State.reset, by decide +kernel⟩

/-- The hypotheses of clause 1 of StoreWindowSequences are met. -/
theorem witness_StoreWindowSequences_1 :
    (∃ (a : Nat) (v : W32) (s : State), (s.linkUp = true) ∧ (s.sw.seq = .idle) ∧ (s.sw.busy = false) ∧ (s.sw.queued = none) ∧ (s.sw.run = none) ∧ (a % 4 = 0 ∧ a < storeBytes) ∧ (v ≠ cmdWord 0xE1) ∧ (s.sw.protected (sectorOf a) = false) ∧ (s.sw.notErased (.program a [(a, v)]) = false) ∧ (s.sw.unchanged (.program a [(a, v)]) = false)) :=
  ⟨0x20000, 0x12345678, { State.reset with mc := { Mc.reset with phase := .go }, sw := { Sw.reset with opened := [32], busyBoot := false } }, by decide +kernel⟩

/-- The hypotheses of clause 2 of StoreWindowSequences are met. -/
theorem witness_StoreWindowSequences_2 :
    (∃ (a : Nat) (v : W32) (s : State), (s.linkUp = true) ∧ (s.sw.seq = .idle) ∧ (s.sw.busy = false) ∧ (s.sw.queued = none) ∧ (s.sw.run = none) ∧ (a % 4 = 0 ∧ a < storeBytes) ∧ (v ≠ cmdWord 0xE1) ∧ (s.sw.protected (sectorOf a) = true)) :=
  ⟨0x30000, 0x12345678, { State.reset with mc := { Mc.reset with phase := .go }, sw := { Sw.reset with opened := [32], busyBoot := false } }, by decide +kernel⟩

/-- The hypotheses of clause 3 of StoreWindowSequences are met. -/
theorem witness_StoreWindowSequences_3 :
    (∃ (a b : Nat) (v w : W32) (s : State), (s.linkUp = true) ∧ (s.sw.seq = .idle) ∧ (s.sw.busy = false) ∧ (s.sw.queued = none) ∧ (s.sw.run = none) ∧ (a % 4 = 0 ∧ a < storeBytes) ∧ (b % 4 = 0 ∧ b < storeBytes) ∧ (a / 256 = b / 256) ∧ (v ≠ cmdWord 0xE1) ∧ (s.sw.protected (sectorOf (256 * (a / 256))) = false) ∧ (s.sw.notErased (.program (256 * (a / 256)) [(a, v)]) = false) ∧ (s.sw.unchanged (.program (256 * (a / 256)) [(a, v)]) = false)) :=
  ⟨0x20004, 0x20000, 0x12345678, 0, { State.reset with mc := { Mc.reset with phase := .go }, sw := { Sw.reset with opened := [32], busyBoot := false } }, by decide +kernel⟩

/-- The hypotheses of clause 4 of StoreWindowSequences are met. -/
theorem witness_StoreWindowSequences_4 :
    (∃ (a : Nat) (s : State), (s.linkUp = true) ∧ (s.sw.seq = .idle) ∧ (s.sw.busy = false) ∧ (s.sw.queued = none) ∧ (s.sw.run = none) ∧ (a % 4 = 0 ∧ a < storeBytes) ∧ (s.sw.protected (sectorOf a) = false)) :=
  ⟨0x20000, { State.reset with mc := { Mc.reset with phase := .go }, sw := { Sw.reset with opened := [32], busyBoot := false } }, by decide +kernel⟩

/-- The hypotheses of clause 5 of StoreWindowSequences are met. -/
theorem witness_StoreWindowSequences_5 :
    (∃ (s : State), (s.linkUp = true) ∧ (s.sw.seq = .idle)) :=
  ⟨{ State.reset with mc := { Mc.reset with phase := .go }, sw := { Sw.reset with opened := [32], busyBoot := false } }, by decide +kernel⟩

/-- The hypotheses of clause 6 of StoreWindowSequences are met. -/
theorem witness_StoreWindowSequences_6 :
    (∃ (o : Nat) (s : State), (s.linkUp = true) ∧ (o % 4 = 0 ∧ o < storeBytes)) :=
  ⟨0, { State.reset with mc := { Mc.reset with phase := .go }, sw := { Sw.reset with opened := [32], busyBoot := false } }, by decide +kernel⟩

/-- The hypotheses of clause 7 of StoreWindowSequences are met. -/
theorem witness_StoreWindowSequences_7 :
    (∃ (x : SwCycle) (s : State), (s.linkUp = true) ∧ (s.sw.seq = .idle) ∧ (x.len = 4 ∧ x.off % 4 = 0 ∧ x.off < storeBytes) ∧ (x.word ≠ cmdWord 0xE1) ∧ (x.off ≠ 0xF00 ∨ x.word ≠ cmdWord 0x5A)) :=
  ⟨{ off := 0, len := 4, word := 0 }, { State.reset with mc := { Mc.reset with phase := .go }, sw := { Sw.reset with opened := [32], busyBoot := false } }, by decide +kernel⟩

/-- The hypotheses of clause 8 of StoreWindowSequences are met. -/
theorem witness_StoreWindowSequences_8 :
    (∃ (o n : Nat) (s : State), (s.linkUp = true) ∧ (n ≤ 64) ∧ (s.sw.busy = false) ∧ (s.sw.ident = false)) :=
  ⟨0x20000, 64, { State.reset with mc := { Mc.reset with phase := .go }, sw := { Sw.reset with opened := [32], busyBoot := false } }, by decide +kernel⟩

/-- The hypotheses of clause 9 of StoreWindowSequences are met. -/
theorem witness_StoreWindowSequences_9 :
    (∃ (o n : Nat) (s : State), (s.linkUp = true) ∧ (n ≤ 64) ∧ (s.sw.busy = true)) :=
  ⟨0x20000, 64, { State.reset with mc := { Mc.reset with phase := .go }, sw := { Sw.reset with internal := true } }, by decide +kernel⟩

/-- The hypotheses of clause 10 of StoreWindowSequences are met. -/
theorem witness_StoreWindowSequences_10 :
    (∃ (a : Nat) (v : W32) (s : State), (s.linkUp = true) ∧ (s.sw.seq = .idle) ∧ (a % 4 = 0 ∧ a < storeBytes) ∧ (v ≠ cmdWord 0xE1)) :=
  ⟨0x20000, 0, { State.reset with mc := { Mc.reset with phase := .go }, sw := { Sw.reset with opened := [32], busyBoot := false } }, by decide +kernel⟩

/-- The hypotheses of clause 11 of StoreWindowSequences are met. -/
theorem witness_StoreWindowSequences_11 :
    (∃ (q : Nat) (x : Nat × W32) (xs : List (Nat × W32)) (b : Nat) (s : State), (s.linkUp = true) ∧ (s.sw.seq = .idle) ∧ (∀ y ∈ x :: xs, y.1 % 4 = 0 ∧ y.1 < storeBytes ∧ y.1 / 256 = q ∧ y.2 ≠ cmdWord 0xE1) ∧ (∀ y ∈ xs, y.2 ≠ cmdWord 0x3E) ∧ (((x :: xs).map Prod.fst).Nodup) ∧ (b % 4 = 0 ∧ b < storeBytes ∧ b / 256 = q)) :=
  ⟨0x200, (0x20000, 1), [(0x20004, 2)], 0x20000, { State.reset with mc := { Mc.reset with phase := .go }, sw := { Sw.reset with opened := [32], busyBoot := false } }, by decide +kernel⟩

/-- The hypotheses of clause 12 of StoreWindowSequences are met. -/
theorem witness_StoreWindowSequences_12 :
    (∃ (a : Nat) (s : State), (s.linkUp = true) ∧ (s.sw.seq = .idle) ∧ (a % 4 = 0 ∧ a < storeBytes)) :=
  ⟨0x20000, { State.reset with mc := { Mc.reset with phase := .go }, sw := { Sw.reset with opened := [32], busyBoot := false } }, by decide +kernel⟩

/-- The hypotheses of clause 13 of StoreWindowSequences are met. -/
theorem witness_StoreWindowSequences_13 :
    (∃ (o : Nat) (s : State), (s.linkUp = true) ∧ (o % 4 ≠ 0 ∨ storeBytes ≤ o)) :=
  ⟨1, { State.reset with mc := { Mc.reset with phase := .go }, sw := { Sw.reset with opened := [32], busyBoot := false } }, by decide +kernel⟩

/-- The hypotheses of clause 14 of StoreWindowSequences are met. -/
theorem witness_StoreWindowSequences_14 :
    (∃ (x : SwCycle) (s : State), (s.linkUp = true) ∧ (x.len ≠ 4 ∨ x.off % 4 ≠ 0 ∨ storeBytes ≤ x.off)) :=
  ⟨{ off := 0, len := 8, word := 0 }, { State.reset with mc := { Mc.reset with phase := .go }, sw := { Sw.reset with opened := [32], busyBoot := false } }, by decide +kernel⟩

/-- The hypotheses of clause 15 of StoreWindowSequences are met. -/
theorem witness_StoreWindowSequences_15 :
    (∃ (o n : Nat) (s : State), (s.linkUp = true) ∧ (n ≤ 64) ∧ (s.sw.busy = false) ∧ (s.sw.ident = true)) :=
  ⟨0, 64, { State.reset with mc := { Mc.reset with phase := .go }, sw := { Sw.reset with ident := true, busyBoot := false } }, by decide +kernel⟩

/-- The hypotheses of clause 16 of StoreWindowSequences are met. -/
theorem witness_StoreWindowSequences_16 :
    (∃ (xs : List SwCycle) (o n : Nat) (s : State), (s.linkUp = false)) :=
  ⟨[], 0, 4, { State.reset with mc := { Mc.reset with phase := .off } }, by decide +kernel⟩

/-- The hypotheses of clause 1 of StoreOperations are met. -/
theorem witness_StoreOperations_1 :
    (∃ (a p : Nat) (ws : List (Nat × W32)) (f : Bool) (s : State), (s.sw.run = some (.program a ws, f)) ∧ ((ws.map Prod.fst).Nodup) ∧ (∀ x ∈ ws, x.1 % 4 = 0)) :=
  ⟨0x20000, 3, [(0x20000, 0x12345678), (0x20004, 5)], false, { State.reset with mc := { Mc.reset with phase := .go }, sw := { Sw.reset with run := some (.program 0x20000 [(0x20000, 0x12345678), (0x20004, 5)], false) } }, by decide +kernel⟩

/-- The hypotheses of clause 2 of StoreOperations are met. -/
theorem witness_StoreOperations_2 :
    (∃ (a p : Nat) (f : Bool) (s : State), (s.sw.run = some (.erase a, f)) ∧ (a < storeBytes)) :=
  ⟨0x20000, 3, false, { State.reset with mc := { Mc.reset with phase := .go }, sw := { Sw.reset with run := some (.erase 0x20000, false) } }, by decide +kernel⟩

/-- The hypotheses of clause 3 of StoreOperations are met. -/
theorem witness_StoreOperations_3 :
    (∃ (a p : Nat) (ws : List (Nat × W32)) (f : Bool) (s : State), (s.sw.run = some (.program a ws, f)) ∧ (s.ntAll = true)) :=
  ⟨0x20000, 3, [(0x20000, 0)], false, { State.reset with mc := { Mc.reset with phase := .go }, rl := { Rl.reset with ntReady := List.range 16 }, sw := { Sw.reset with run := some (.program 0x20000 [(0x20000, 0)], false) } }, by decide +kernel⟩

/-- The hypotheses of clause 4 of StoreOperations are met. -/
theorem witness_StoreOperations_4 :
    (∃ (o : SwOp) (s : State), (s.sw.queued = some o) ∧ (s.sw.run = none) ∧ (s.sw.busyBoot = false) ∧ (s.sw.protected (sectorOf o.addr) = false) ∧ (s.sw.notErased o = false) ∧ (s.sw.unchanged o = false)) :=
  ⟨.erase 0x20000, { State.reset with mc := { Mc.reset with phase := .go }, sw := { Sw.reset with opened := [32], queued := some (.erase 0x20000), busyBoot := false } }, by decide +kernel⟩

/-- The hypotheses of clause 5 of StoreOperations are met. -/
theorem witness_StoreOperations_5 :
    (∃ (k : Nat) (v : W32) (s : State), (s.linkUp = true) ∧ (k < 65)) :=
  ⟨1, 1, { State.reset with mc := { Mc.reset with phase := .go }, sw := { Sw.reset with opened := [32], busyBoot := false } }, by decide +kernel⟩

/-- The hypotheses of clause 6 of StoreOperations are met. -/
theorem witness_StoreOperations_6 :
    (∃ (g : List Byte) (x : Bool) (w : List Bool) (s : State), (s.linkUp = true) ∧ (grantFormatOk g = false)) :=
  ⟨[], true, [], { State.reset with mc := { Mc.reset with phase := .go }, sw := { Sw.reset with opened := [32], busyBoot := false } }, by decide +kernel⟩

/-- The hypotheses of clause 7 of StoreOperations are met. -/
theorem witness_StoreOperations_7 :
    (∃ (g : List Byte) (w : List Bool) (s : State), (s.linkUp = true) ∧ (grantFormatOk g = true) ∧ ((s.sw.ownerKeys.find (u32At g 8)).isSome = true) ∧ (sliceZ g 24 32 = s.se.identity) ∧ (s.sw.grantCounter < u64At g 16) ∧ (w.getD 0 true = true) ∧ (w.getD 2 true = true)) :=
  ⟨grantBytes, [], goKey, by decide, by decide +kernel, key_grantBytes, by decide +kernel, counter_grantBytes, by decide +kernel, rfl⟩

/-- The hypotheses of clause 8 of StoreOperations are met. -/
theorem witness_StoreOperations_8 :
    (∃ (g : List Byte) (w : List Bool) (s : State), (s.linkUp = true) ∧ (grantFormatOk g = true) ∧ ((s.sw.ownerKeys.find (u32At g 8)).isSome = true)) :=
  ⟨grantBytes, [], goKey, by decide, by decide +kernel, key_grantBytes⟩

/-- The hypotheses of clause 9 of StoreOperations are met. -/
theorem witness_StoreOperations_9 :
    (∃ (g : List Byte) (x : Bool) (w : List Bool) (s : State), (s.linkUp = true) ∧ (grantFormatOk g = true) ∧ (s.sw.ownerKeys.find (u32At g 8) = none)) :=
  ⟨grantBytes, true, [], { State.reset with mc := { Mc.reset with phase := .go }, sw := { Sw.reset with opened := [32], busyBoot := false } }, by decide, by decide +kernel⟩

/-- The hypotheses of clause 10 of StoreOperations are met. -/
theorem witness_StoreOperations_10 :
    (∃ (g : List Byte) (w : List Bool) (s : State), (s.linkUp = true) ∧ (grantFormatOk g = true) ∧ ((s.sw.ownerKeys.find (u32At g 8)).isSome = true)) :=
  ⟨grantBytes, [], goKey, by decide, by decide +kernel, key_grantBytes⟩

/-- The hypotheses of clause 11 of StoreOperations are met. -/
theorem witness_StoreOperations_11 :
    (∃ (a p : Nat) (f : Bool) (s : State), (s.sw.run = some (.erase a, f)) ∧ (s.ntAll = true) ∧ (a < storeBytes)) :=
  ⟨0x20000, 3, false, { State.reset with mc := { Mc.reset with phase := .go }, rl := { Rl.reset with ntReady := List.range 16 }, sw := { Sw.reset with run := some (.erase 0x20000, false) } }, by decide +kernel⟩

/-- The hypotheses of clause 12 of StoreOperations are met. -/
theorem witness_StoreOperations_12 :
    (∃ (p : Nat) (x : Bool) (s : State), (s.sw.run = none)) :=
  ⟨3, true, State.reset, by decide +kernel⟩

/-- The hypotheses of clause 13 of StoreOperations are met. -/
theorem witness_StoreOperations_13 :
    (∃ (o : SwOp) (s : State), (s.sw.queued = some o) ∧ (s.sw.run = none) ∧ (s.sw.busyBoot = false)) :=
  ⟨.erase 0x30000, { State.reset with mc := { Mc.reset with phase := .go }, sw := { Sw.reset with queued := some (.erase 0x30000), busyBoot := false } }, by decide +kernel⟩

/-- The hypotheses of clause 14 of StoreOperations are met. -/
theorem witness_StoreOperations_14 :
    (∃ (s : State), (s.sw.queued = none ∨ s.sw.run ≠ none ∨ s.sw.busyBoot = true)) :=
  ⟨State.reset, by decide +kernel⟩

/-- The hypotheses of clause 15 of StoreOperations are met. -/
theorem witness_StoreOperations_15 :
    (∃ (k : Nat) (v : W32) (g : List Byte) (x : Bool) (w : List Bool) (s : State), (s.linkUp = false)) :=
  ⟨1, 1, [], true, [], { State.reset with mc := { Mc.reset with phase := .off } }, by decide +kernel⟩

/-- The hypotheses of clause 1 of RonnelCommands are met. -/
theorem witness_RonnelCommands_1 :
    (∃ (n : Namespace) (s : State), (s.lpRuns) ∧ (s.mm.replayed = true) ∧ (s.qe.store = []) ∧ (s.qe.held = []) ∧ (s.lp.head.opcode = 1) ∧ (s.mm.namespaces.find (s.lp.volume s.lp.head.volume) = some n) ∧ (n.attached = true) ∧ (s.lp.head.lba + s.lp.head.count ≤ n.blocks) ∧ (s.mm.anyBad (s.lp.volume s.lp.head.volume) s.lp.head.lba s.lp.head.count = false)) :=
  ⟨{ granules := [0], blocks := 262144, attached := true, readOnly := false, key := 1 }, lpWith (lpCmdFrame 1 3 9), by decide +kernel⟩

/-- The hypotheses of clause 2 of RonnelCommands are met. -/
theorem witness_RonnelCommands_2 :
    (∃ (n : Namespace) (s : State), (s.lpRuns) ∧ (s.mm.replayed = true) ∧ (s.qe.store = []) ∧ (s.qe.held = []) ∧ (s.lp.head.opcode = 1) ∧ (s.lp.head.count = 1) ∧ (s.mm.namespaces.find (s.lp.volume s.lp.head.volume) = some n) ∧ (n.attached = true) ∧ (s.lp.head.lba + s.lp.head.count ≤ n.blocks) ∧ (s.mm.anyBad (s.lp.volume s.lp.head.volume) s.lp.head.lba 1 = false) ∧ (s.lp.rplProd + 66 ≤ rplCells) ∧ (66 ≤ s.lp.free)) :=
  ⟨{ granules := [0], blocks := 262144, attached := true, readOnly := false, key := 1 }, lpWith (lpCmdFrame 1 1 9), by decide +kernel⟩

/-- The hypotheses of clause 3 of RonnelCommands are met. -/
theorem witness_RonnelCommands_3 :
    (∃ (n : Namespace) (s : State), (s.lpRuns) ∧ (s.mm.replayed = true) ∧ (s.qe.store = []) ∧ (s.qe.held = []) ∧ (s.lp.head.opcode = 2) ∧ (s.mm.namespaces.find (s.lp.volume s.lp.head.volume) = some n) ∧ (n.attached = true) ∧ (s.lp.head.lba + s.lp.head.count ≤ n.blocks) ∧ (n.readOnly = false) ∧ (s.idx.find (s.lp.volume s.lp.head.volume) = none) ∧ (s.qe.locksUsed < 4096) ∧ (s.lp.rplProd < rplCells) ∧ (1 ≤ s.lp.free)) :=
  ⟨{ granules := [0], blocks := 262144, attached := true, readOnly := false, key := 1 }, lpWith (lpCmdFrame 2 100 8), by decide +kernel⟩

/-- The hypotheses of clause 4 of RonnelCommands are met. -/
theorem witness_RonnelCommands_4 :
    (∃ (n : Namespace) (s : State), (s.lpRuns) ∧ (s.mm.replayed = true) ∧ (s.qe.store = []) ∧ (s.qe.held = []) ∧ (s.lp.head.opcode = 3) ∧ (s.mm.namespaces.find (s.lp.volume s.lp.head.volume) = some n) ∧ (n.attached = true) ∧ (s.lp.rplProd < rplCells) ∧ (1 ≤ s.lp.free)) :=
  ⟨{ granules := [0], blocks := 262144, attached := true, readOnly := false, key := 1 }, lpWith (lpCmdFrame 3 0 0), by decide +kernel⟩

/-- The hypotheses of clause 5 of RonnelCommands are met. -/
theorem witness_RonnelCommands_5 :
    (∃ (n : Namespace) (s : State), (s.lpRuns) ∧ (s.mm.replayed = true) ∧ (s.qe.store = []) ∧ (s.qe.held = []) ∧ (s.lp.head.opcode = 4) ∧ (s.mm.namespaces.find (s.lp.volume s.lp.head.volume) = some n) ∧ (n.attached = true) ∧ (s.lp.head.lba + s.lp.head.count ≤ n.blocks) ∧ (s.lp.head.lba % 8 = 0 ∧ s.lp.head.count % 8 = 0) ∧ (n.readOnly = false) ∧ (s.idx.find (s.lp.volume s.lp.head.volume) = none) ∧ (s.qe.locksUsed < 4096) ∧ (s.liveSnaps = []) ∧ (s.mm.pool.length ≤ poolCopies) ∧ (s.lp.rplProd < rplCells) ∧ (1 ≤ s.lp.free)) :=
  ⟨{ granules := [0], blocks := 262144, attached := true, readOnly := false, key := 1 }, lpWith (lpCmdFrame 4 16 8), by decide +kernel⟩

/-- The hypotheses of clause 6 of RonnelCommands are met. -/
theorem witness_RonnelCommands_6 :
    (∃ (n : Namespace) (s : State), (s.lpRuns) ∧ (s.lp.head.opcode = 5) ∧ (s.mm.namespaces.find (s.lp.volume s.lp.head.volume) = some n) ∧ (s.lp.rplProd + 66 ≤ rplCells) ∧ (66 ≤ s.lp.free)) :=
  ⟨{ granules := [0], blocks := 262144, attached := true, readOnly := false, key := 1 }, lpWith (lpCmdFrame 5 0 0), by decide +kernel⟩

/-- The hypotheses of clause 7 of RonnelCommands are met. -/
theorem witness_RonnelCommands_7 :
    (∃ (s : State), (s.lpFrameWaits) ∧ (s.arbiter lpQueue = true) ∧ (s.qe.fetched.length < 65536) ∧ (s.lp.tagUsed s.lp.head.tag = false) ∧ (s.lp.head.type = 1) ∧ (s.lp.enable = true) ∧ (s.fl.fatalStands = false) ∧ (s.lp.head.opcode = 0 ∨ 5 < s.lp.head.opcode) ∧ (s.lp.rplProd < rplCells) ∧ (1 ≤ s.lp.free)) :=
  ⟨lpWith (lpCmdFrame 6 0 0), by decide +kernel⟩

/-- The hypotheses of clause 8 of RonnelCommands are met. -/
theorem witness_RonnelCommands_8 :
    (∃ (s : State), (s.lpFrameWaits) ∧ (s.arbiter lpQueue = true) ∧ (s.qe.fetched.length < 65536) ∧ (s.lp.tagUsed s.lp.head.tag = false) ∧ (s.lp.head.type = 1) ∧ (s.lp.enable = false) ∧ (s.lp.head.opcode = 1) ∧ (s.lp.rplProd < rplCells) ∧ (1 ≤ s.lp.free)) :=
  ⟨{ lpWith (lpCmdFrame 1 1 0) with lp := { (lpWith (lpCmdFrame 1 1 0)).lp with enable := false } }, by decide +kernel⟩

/-- The hypotheses of clause 9 of RonnelCommands are met. -/
theorem witness_RonnelCommands_9 :
    (∃ (st : Nat) (s : State), (s.lpFrameWaits) ∧ (s.arbiter lpQueue = true) ∧ (s.qe.fetched.length < 65536) ∧ (s.lp.tagUsed s.lp.head.tag = false) ∧ (s.lp.head.type = 1) ∧ (s.lpEarly s.lp.head = some st) ∧ (s.lp.rplProd < rplCells) ∧ (1 ≤ s.lp.free)) :=
  ⟨lpNotReady, { lpWith (lpCmdFrame 1 1 0) with lp := { (lpWith (lpCmdFrame 1 1 0)).lp with enable := false } }, by decide +kernel⟩

/-- The hypotheses of clause 10 of RonnelCommands are met. -/
theorem witness_RonnelCommands_10 :
    (∃ (s : State), (s.vendorLive = false ∨ s.lp.avail = 0 ∨ s.lp.head.type ≠ 1 ∨ s.arbiter lpQueue = false ∨ 65536 ≤ s.qe.fetched.length)) :=
  ⟨State.reset, by decide +kernel⟩

/-- The hypotheses of clause 1 of RonnelFrames are met. -/
theorem witness_RonnelFrames_1 :
    (∃ (c : LpCmd) (s : State), (s.lpFrameWaits) ∧ (s.lp.head.type = 3) ∧ (s.lp.cmds.find s.lp.head.tag = some c) ∧ (c.opcode = 2) ∧ (c.granted = true) ∧ (1 ≤ bitsN s.lp.head.arg 63 40 ∧ bitsN s.lp.head.arg 63 40 ≤ 16384) ∧ (262144 * c.window ≤ s.lp.head.arg % 2 ^ 40 ∧ s.lp.head.arg % 2 ^ 40 + bitsN s.lp.head.arg 63 40 ≤ 262144 * c.window + c.windowLen) ∧ (s.lp.head.cells = (16 + bitsN s.lp.head.arg 63 40 + 63) / 64) ∧ (s.lp.head.last = true → (c.add (s.lp.head.arg % 2 ^ 40 - 262144 * c.window) (sliceZ s.lp.head.bytes 16 (bitsN s.lp.head.arg 63 40))).got.length = c.windowLen)) :=
  ⟨{ opcode := 2, nsid := 1, lba := 8, blocks := 1, window := 0, granted := true, got := [], data := [], falses := 0 }, { lpWith (lpFrame 3 0 2 5 (2 ^ 40 * 100) (List.replicate 100 7)) with lp := { (lpWith (lpFrame 3 0 2 5 (2 ^ 40 * 100) (List.replicate 100 7))).lp with cmds := [(5, { opcode := 2, nsid := 1, lba := 8, blocks := 1, window := 0, granted := true, got := [], data := [], falses := 0 })] } }, by decide +kernel⟩

/-- The hypotheses of clause 2 of RonnelFrames are met. -/
theorem witness_RonnelFrames_2 :
    (∃ (s : State), (s.lpFrameWaits) ∧ (s.lp.head.type = 3) ∧ (s.lp.cmds.find s.lp.head.tag = none) ∧ (s.ntAll = true) ∧ ((srcLP, kProtocol, 0x0A) ∉ s.fl.beatPosts) ∧ (s.lp.rplProd < rplCells) ∧ (1 ≤ s.lp.free)) :=
  ⟨lpWith (lpFrame 3 0 2 5 (2 ^ 40 * 100) (List.replicate 100 7)), by decide +kernel⟩

/-- The hypotheses of clause 3 of RonnelFrames are met. -/
theorem witness_RonnelFrames_3 :
    (∃ (s : State), (s.lpFrameWaits) ∧ (s.lp.head.type = 5) ∧ ((s.lp.cmds.find s.lp.head.tag).isSome = true) ∧ ((∀ k ∈ s.qe.store, k.c ≠ { sq := lpQueue, cid := s.lp.head.tag })) ∧ (s.lp.rplProd < rplCells) ∧ (1 ≤ s.lp.free)) :=
  ⟨{ lpWith (lpFrame 5 0 1 5 0 []) with lp := { (lpWith (lpFrame 5 0 1 5 0 [])).lp with cmds := [(5, { opcode := 2, nsid := 1, lba := 8, blocks := 1, window := 0, granted := true, got := [], data := [], falses := 0 })] } }, by decide +kernel⟩

/-- The hypotheses of clause 4 of RonnelFrames are met. -/
theorem witness_RonnelFrames_4 :
    (∃ (s : State), (s.lpFrameWaits) ∧ (s.lp.head.type = 5) ∧ (s.lp.tagUsed s.lp.head.tag = false) ∧ (s.lp.rplProd < rplCells) ∧ (1 ≤ s.lp.free)) :=
  ⟨lpWith (lpFrame 5 0 1 5 0 []), by decide +kernel⟩

/-- The hypotheses of clause 5 of RonnelFrames are met. -/
theorem witness_RonnelFrames_5 :
    (∃ (s : State), (s.lpFrameWaits) ∧ (s.lp.head.type = 0)) :=
  ⟨{ lpWith [] with lp := { (lpWith []).lp with ring := writeCells 0 [] (reqOff 8120) (lpFrame 0 0 8 0 0 []), reqCons := 8120, reqProd := 0 } }, by decide +kernel⟩

/-- The hypotheses of clause 6 of RonnelFrames are met. -/
theorem witness_RonnelFrames_6 :
    (∃ (v : W32) (s : State), (s.vendorLive = true) ∧ (reqCells ≤ bitsW v 12 0) ∧ (s.ntAll = true) ∧ ((srcLP, kProtocol, 8) ∉ s.fl.beatPosts)) :=
  ⟨8128, lpWith [], by decide +kernel⟩

/-- The hypotheses of clause 7 of RonnelFrames are met. -/
theorem witness_RonnelFrames_7 :
    (∃ (v : W32) (s : State), (s.vendorLive = true) ∧ (bitsW v 12 0 < reqCells) ∧ (s.lp.avail ≤ (bitsW v 12 0 + reqCells - s.lp.reqCons) % reqCells) ∧ (s.lp.outq ≠ [])) :=
  ⟨3, { lpWith [] with lp := { (lpWith []).lp with outq := [[]] } }, by decide +kernel⟩

/-- The hypotheses of clause 8 of RonnelFrames are met. -/
theorem witness_RonnelFrames_8 :
    (∃ (v : W32) (s : State), (s.vendorLive = true) ∧ (bitsW v 12 0 < reqCells) ∧ (s.lp.reqCons < reqCells) ∧ (s.lp.avail = 0) ∧ (s.lp.outq = []) ∧ (0 < (bitsW v 12 0 + reqCells - s.lp.reqCons) % reqCells) ∧ (s.lp.head.type = 1) ∧ (1 ≤ s.lp.head.cells ∧ s.lp.head.cells ≤ 257) ∧ (s.lp.reqCons + s.lp.head.cells ≤ reqCells) ∧ (s.lp.head.cells ≤ (bitsW v 12 0 + reqCells - s.lp.reqCons) % reqCells)) :=
  ⟨1, { lpWith (lpCmdFrame 1 1 0) with lp := { (lpWith (lpCmdFrame 1 1 0)).lp with reqProd := 0 } }, by decide +kernel⟩

/-- The hypotheses of clause 9 of RonnelFrames are met. -/
theorem witness_RonnelFrames_9 :
    (∃ (v : W32) (s : State), (s.vendorLive = true) ∧ ((bitsW v 12 0 + rplCells - s.lp.rplCons) % rplCells ≤ (s.lp.rplProd + rplCells - s.lp.rplCons) % rplCells) ∧ (s.lp.outq = []) ∧ (s.lp.avail = 0)) :=
  ⟨2, { lpWith [] with lp := { (lpWith []).lp with rplProd := 3 } }, by decide +kernel⟩

/-- The hypotheses of clause 10 of RonnelFrames are met. -/
theorem witness_RonnelFrames_10 :
    (∃ (v : W32) (s : State), (s.vendorLive = true) ∧ ((s.lp.rplProd + rplCells - s.lp.rplCons) % rplCells < (bitsW v 12 0 + rplCells - s.lp.rplCons) % rplCells) ∧ (s.ntAll = true) ∧ ((srcLP, kProtocol, 8) ∉ s.fl.beatPosts)) :=
  ⟨4, { lpWith [] with lp := { (lpWith []).lp with rplProd := 3 } }, by decide +kernel⟩

/-- The hypotheses of clause 11 of RonnelFrames are met. -/
theorem witness_RonnelFrames_11 :
    (∃ (n : Nat) (v : W32) (w : List Bool) (s : State), (s.vendorLive = true) ∧ (1 ≤ n ∧ n ≤ 16)) :=
  ⟨16, 7, [], lpWith [], by decide +kernel⟩

/-- The hypotheses of clause 12 of RonnelFrames are met. -/
theorem witness_RonnelFrames_12 :
    (∃ (n : Nat) (c : LpCmd) (s : State), (s.vendorLive = true) ∧ (0 < s.lp.timeout) ∧ (s.lp.cmds.find n = some c) ∧ (c.granted = true) ∧ (n < 256) ∧ ((∀ k ∈ s.qe.store, k.c ≠ { sq := lpQueue, cid := n })) ∧ (s.lp.outq = []) ∧ (s.ntAll = true) ∧ ((srcLP, kProtocol, 7) ∉ s.fl.beatPosts) ∧ (s.lp.rplProd < rplCells) ∧ (1 ≤ s.lp.free)) :=
  ⟨5, { opcode := 2, nsid := 1, lba := 8, blocks := 1, window := 0, granted := true, got := [], data := [], falses := 0 }, { lpWith ([]) with lp := { (lpWith ([])).lp with timeout := 1000, cmds := [(5, { opcode := 2, nsid := 1, lba := 8, blocks := 1, window := 0, granted := true, got := [], data := [], falses := 0 })] } }, by decide +kernel⟩

/-- The hypotheses of clause 13 of RonnelFrames are met. -/
theorem witness_RonnelFrames_13 :
    (∃ (s : State), (s.lpFrameWaits) ∧ (s.lp.head.type = 5) ∧ ((s.lp.cmds.find s.lp.head.tag).isSome = true)) :=
  ⟨{ lpWith (lpFrame 5 0 1 5 0 []) with lp := { (lpWith (lpFrame 5 0 1 5 0 [])).lp with cmds := [(5, { opcode := 2, nsid := 1, lba := 8, blocks := 1, window := 0, granted := true, got := [], data := [], falses := 0 })] } }, by decide +kernel⟩

/-- The hypotheses of clause 14 of RonnelFrames are met. -/
theorem witness_RonnelFrames_14 :
    (∃ (v : W32) (s : State), (s.vendorLive = true) ∧ (bitsW v 12 0 < reqCells) ∧ ((bitsW v 12 0 + reqCells - s.lp.reqCons) % reqCells < s.lp.avail) ∧ (s.ntAll = true) ∧ ((srcLP, kProtocol, 8) ∉ s.fl.beatPosts)) :=
  ⟨1, { lpWith [] with lp := { (lpWith []).lp with reqProd := 3 } }, by decide +kernel⟩

/-- The hypotheses of clause 15 of RonnelFrames are met. -/
theorem witness_RonnelFrames_15 :
    (∃ (v : W32) (s : State), (s.vendorLive = true)) :=
  ⟨3, lpWith [], by decide +kernel⟩

/-- The hypotheses of clause 16 of RonnelFrames are met. -/
theorem witness_RonnelFrames_16 :
    (∃ (s : State), (s.vendorLive = false ∨ s.lp.avail = 0)) :=
  ⟨State.reset, by decide +kernel⟩

/-- The hypotheses of clause 17 of RonnelFrames are met. -/
theorem witness_RonnelFrames_17 :
    (∃ (n : Nat) (v : W32) (w : List Bool) (s : State), (s.vendorLive = false ∨ n = 0 ∨ 16 < n)) :=
  ⟨17, 7, [], lpWith [], by decide +kernel⟩

/-- The hypotheses of clause 18 of RonnelFrames are met. -/
theorem witness_RonnelFrames_18 :
    (∃ (n : Nat) (s : State), (s.vendorLive = false ∨ s.lp.timeout = 0 ∨ s.lp.cmds.find n = none ∨ (∃ c, s.lp.cmds.find n = some c ∧ c.granted = false))) :=
  ⟨5, State.reset, Or.inr (Or.inr (Or.inl rfl))⟩

/-- The hypotheses of clause 19 of RonnelFrames are met. -/
theorem witness_RonnelFrames_19 :
    (∃ (n : Nat) (c : LpCmd) (s : State), (s.vendorLive = true) ∧ (0 < s.lp.timeout) ∧ (s.lp.cmds.find n = some c) ∧ (c.granted = true)) :=
  ⟨5, { opcode := 2, nsid := 1, lba := 8, blocks := 1, window := 0, granted := true, got := [], data := [], falses := 0 }, { lpWith ([]) with lp := { (lpWith ([])).lp with timeout := 1000, cmds := [(5, { opcode := 2, nsid := 1, lba := 8, blocks := 1, window := 0, granted := true, got := [], data := [], falses := 0 })] } }, by decide +kernel⟩

/-- The hypotheses of RonnelWindows are met. -/
theorem witness_RonnelWindows :
    (∃ (n : Nat) (c : LpCmd) (k : StoreCmd) (x : Namespace) (s : State), (s.mediaRuns = true) ∧ (s.lp.cmds.find n = some c) ∧ (c.windowDone = true) ∧ (s.qe.store = [k]) ∧ (k.c = { sq := lpQueue, cid := n }) ∧ (k.silent = false) ∧ (k.stage = .running) ∧ (k.op = .write) ∧ (s.mm.namespaces.find k.nsid = some x) ∧ (s.landingWaits [c.piece k] = false) ∧ (s.poolRoom x [c.piece k] = true)) ∧
    (∃ (n : Nat) (c : LpCmd) (k : StoreCmd) (x : Namespace) (s : State), (s.mediaRuns = true) ∧ (s.lp.cmds.find n = some c) ∧ (c.windowDone = true) ∧ (s.qe.store = [k]) ∧ (k.c = { sq := lpQueue, cid := n }) ∧ (k.silent = false) ∧ (k.stage = .running) ∧ (k.op = .write) ∧ (s.mm.namespaces.find k.nsid = some x) ∧ (s.landingWaits [c.piece k] = true)) ∧
    (∃ (n : Nat) (c : LpCmd) (k : StoreCmd) (x : Namespace) (s : State), (s.mediaRuns = true) ∧ (s.lp.cmds.find n = some c) ∧ (c.windowDone = true) ∧ (s.qe.store = [k]) ∧ (k.c = { sq := lpQueue, cid := n }) ∧ (k.silent = false) ∧ (k.stage = .running) ∧ (k.op = .write) ∧ (s.mm.namespaces.find k.nsid = some x) ∧ (s.landingWaits [c.piece k] = false) ∧ (s.poolRoom x [c.piece k] = false)) ∧
    (∃ (n : Nat) (s : State), (s.mediaRuns = false ∨ s.lp.cmds.find n = none ∨ (∃ c, s.lp.cmds.find n = some c ∧ c.windowDone = false) ∨ ∀ k ∈ s.qe.store, k.c ≠ { sq := lpQueue, cid := n } ∨ k.silent = true ∨ k.stage ≠ .running)) :=
  ⟨⟨5, { opcode := 2, nsid := 1, lba := 8, blocks := 1, window := 0, granted := false, got := (List.range 4096).map (fun i => (i, 7)), data := [], falses := 0 }, { c := { sq := lpQueue, cid := 5 }, op := .write, nsid := 1, ranges := [(8, 1)], stage := .running, locks := 1, pieces := [], reads := [], before := [], silent := false, order := 0 }, { granules := [0], blocks := 262144, attached := true, readOnly := false, key := 1 }, { lpWith ([]) with lp := { (lpWith ([])).lp with cmds := [(5, { opcode := 2, nsid := 1, lba := 8, blocks := 1, window := 0, granted := false, got := (List.range 4096).map (fun i => (i, 7)), data := [], falses := 0 })] }, qe := { Qe.reset with store := [{ c := { sq := lpQueue, cid := 5 }, op := .write, nsid := 1, ranges := [(8, 1)], stage := .running, locks := 1, pieces := [], reads := [], before := [], silent := false, order := 0 }] } }, by decide +kernel, rfl, by simp [LpCmd.windowDone, LpCmd.windowLen], rfl, rfl, rfl, rfl, rfl, rfl, by decide +kernel⟩,
   ⟨5, { opcode := 2, nsid := 1, lba := 8, blocks := 1, window := 0, granted := false, got := (List.range 4096).map (fun i => (i, 7)), data := [], falses := 0 }, { c := { sq := lpQueue, cid := 5 }, op := .write, nsid := 1, ranges := [(8, 1)], stage := .running, locks := 1, pieces := [], reads := [], before := [], silent := false, order := 0 }, { granules := [0], blocks := 262144, attached := true, readOnly := false, key := 1 }, { lpWith ([]) with lp := { (lpWith ([])).lp with cmds := [(5, { opcode := 2, nsid := 1, lba := 8, blocks := 1, window := 0, granted := false, got := (List.range 4096).map (fun i => (i, 7)), data := [], falses := 0 })] }, mm := { (lpWith []).mm with outSets := List.range 16 }, qe := { Qe.reset with store := [{ c := { sq := lpQueue, cid := 5 }, op := .write, nsid := 1, ranges := [(8, 1)], stage := .running, locks := 1, pieces := [], reads := [], before := [], silent := false, order := 0 }] } }, by decide +kernel, rfl, by simp [LpCmd.windowDone, LpCmd.windowLen], rfl, rfl, rfl, rfl, rfl, rfl, by decide +kernel⟩,
   ⟨5, { opcode := 2, nsid := 1, lba := 8, blocks := 1, window := 0, granted := false, got := (List.range 4096).map (fun i => (i, 7)), data := [], falses := 0 }, { c := { sq := lpQueue, cid := 5 }, op := .write, nsid := 1, ranges := [(8, 1)], stage := .running, locks := 1, pieces := [], reads := [], before := [], silent := false, order := 0 }, { granules := [0], blocks := 262144, attached := true, readOnly := false, key := 1 }, { lpWith ([]) with lp := { (lpWith ([])).lp with cmds := [(5, { opcode := 2, nsid := 1, lba := 8, blocks := 1, window := 0, granted := false, got := (List.range 4096).map (fun i => (i, 7)), data := [], falses := 0 })] }, mm := { (lpWith []).mm with pool := List.replicate 524289 { page := 0, lo := 0, hi := 0, units := [] } }, qe := { Qe.reset with store := [{ c := { sq := lpQueue, cid := 5 }, op := .write, nsid := 1, ranges := [(8, 1)], stage := .running, locks := 1, pieces := [], reads := [], before := [], silent := false, order := 0 }] } }, by decide +kernel, rfl, by simp [LpCmd.windowDone, LpCmd.windowLen], rfl, rfl, rfl, rfl, rfl, rfl, by decide +kernel, poolRoom_full (by show 524288 < (List.replicate 524289 _).length; rw [List.length_replicate]; omega)⟩,
   ⟨5, State.reset, Or.inr (Or.inl rfl)⟩⟩

/-- The hypotheses of StorageReads are met. -/
theorem witness_StorageReads :
    (∃ (c : CmdId) (n a z : Nat) (x : Namespace) (rs : List CodewordRead) (s : State), (s.storeIdle c n x) ∧ (1 ≤ z ∧ z ≤ 512) ∧ (a + z ≤ x.blocks) ∧ (s.mm.anyBad n a z = false)) ∧
    (∃ (c : CmdId) (n a z : Nat) (x : Namespace) (rs : List CodewordRead) (s : State), (s.storeIdle c n x) ∧ (1 ≤ z ∧ z ≤ 512) ∧ (a + z ≤ x.blocks) ∧ (s.mm.anyBad n a z = true)) ∧
    (∃ (c : CmdId) (n a f e g : Nat) (x : Namespace) (s : State), (s.storeIdle c n x) ∧ (a < x.blocks) ∧ (s.mm.anyBad n a 1 = false) ∧ (s.mm.flashOf (s.mm.locOf (x.unit (a / 8))) (a % 8) = some f)) ∧
    (∃ (c : CmdId) (n a z : Nat) (x : Namespace) (rs : List CodewordRead) (s : State), (s.storeIdle c n x) ∧ (1 ≤ z ∧ z ≤ 512) ∧ (a + z ≤ x.blocks) ∧ (s.mm.anyBad n a z = false) ∧ (∀ i, i < z → s.mm.locOf (x.unit ((a + i) / 8)) = .unmapped)) ∧
    (∃ (c : CmdId) (n : Nat) (x : Namespace) (s : State), (s.storeIdle c n x)) ∧
    (∃ (c : CmdId) (n a z : Nat) (x : Namespace) (rs : List CodewordRead) (d : List (List Byte)) (s : State), (s.storeIdle c n x) ∧ (z = 0 ∨ 512 < z)) ∧
    (∃ (c : CmdId) (n a z : Nat) (x : Namespace) (rs : List CodewordRead) (d : List (List Byte)) (s : State), (s.storeIdle c n x) ∧ (1 ≤ z ∧ z ≤ 512) ∧ (x.blocks < a + z)) ∧
    (∃ (c : CmdId) (n a z : Nat) (x : Namespace) (d : List (List Byte)) (s : State), (s.storeIdle c n x) ∧ (1 ≤ z ∧ z ≤ 512) ∧ (a + z ≤ x.blocks) ∧ (x.readOnly = true)) ∧
    (∃ (c : CmdId) (n a z : Nat) (rs : List CodewordRead) (d : List (List Byte)) (s : State), (s.serves c .io) ∧ (s.mm.replayed = true) ∧ (s.qe.store = []) ∧ (s.qe.held = []) ∧ (c.sq ≠ lpQueue) ∧ (n ≠ 0xFFFFFFFF) ∧ (s.mm.namespaces.find n = none ∨ (∃ x, s.mm.namespaces.find n = some x ∧ x.attached = false))) :=
  ⟨⟨{ sq := 1, cid := 7 }, 1, 8, 3, { granules := [0], blocks := 262144, attached := true, readOnly := false, key := 1 }, [], { State.reset with mc := { Mc.reset with phase := .go }, mm := { Mm.reset with replayed := true, namespaces := [(1, { granules := [0], blocks := 262144, attached := true, readOnly := false, key := 1 })] }, qe := { Qe.reset with enabled := true, ready := true, sqs := [(0, { size := 32, prio := 0, cq := 0, tail := 0, head := 0, blocked := none }), (1, { size := 16, prio := 0, cq := 1, tail := 3, head := 0, blocked := none })], cqs := [(0, { size := 32, vector := 0, ien := true, head := 0, tail := 0 }), (1, { size := 16, vector := 1, ien := true, head := 0, tail := 0 })] } }, by decide +kernel⟩,
   ⟨{ sq := 1, cid := 7 }, 1, 8, 3, { granules := [0], blocks := 262144, attached := true, readOnly := false, key := 1 }, [], { State.reset with mc := { Mc.reset with phase := .go }, mm := { Mm.reset with replayed := true, namespaces := [(1, { granules := [0], blocks := 262144, attached := true, readOnly := false, key := 1 })], badBlocks := [(1, 9)] }, qe := { Qe.reset with enabled := true, ready := true, sqs := [(0, { size := 32, prio := 0, cq := 0, tail := 0, head := 0, blocked := none }), (1, { size := 16, prio := 0, cq := 1, tail := 3, head := 0, blocked := none })], cqs := [(0, { size := 32, vector := 0, ien := true, head := 0, tail := 0 }), (1, { size := 16, vector := 1, ien := true, head := 0, tail := 0 })] } }, by decide +kernel⟩,
   ⟨{ sq := 1, cid := 7 }, 1, 8, blockKey 0 6 3, 12, 40, { granules := [0], blocks := 262144, attached := true, readOnly := false, key := 1 }, { State.reset with mc := { Mc.reset with phase := .go }, mm := { Mm.reset with replayed := true, namespaces := [(1, { granules := [0], blocks := 262144, attached := true, readOnly := false, key := 1 })], pages := [(0, { stamp := 0, units := [(1, .bulk (bulkLoc 0 6 3 0))], dirty := false })] }, qe := { Qe.reset with enabled := true, ready := true, sqs := [(0, { size := 32, prio := 0, cq := 0, tail := 0, head := 0, blocked := none }), (1, { size := 16, prio := 0, cq := 1, tail := 3, head := 0, blocked := none })], cqs := [(0, { size := 32, vector := 0, ien := true, head := 0, tail := 0 }), (1, { size := 16, vector := 1, ien := true, head := 0, tail := 0 })] } }, by decide +kernel⟩,
   ⟨{ sq := 1, cid := 7 }, 1, 8, 2, { granules := [0], blocks := 262144, attached := true, readOnly := false, key := 1 }, [], { State.reset with mc := { Mc.reset with phase := .go }, mm := { Mm.reset with replayed := true, namespaces := [(1, { granules := [0], blocks := 262144, attached := true, readOnly := false, key := 1 })] }, qe := { Qe.reset with enabled := true, ready := true, sqs := [(0, { size := 32, prio := 0, cq := 0, tail := 0, head := 0, blocked := none }), (1, { size := 16, prio := 0, cq := 1, tail := 3, head := 0, blocked := none })], cqs := [(0, { size := 32, vector := 0, ien := true, head := 0, tail := 0 }), (1, { size := 16, vector := 1, ien := true, head := 0, tail := 0 })] } }, by decide +kernel, by decide, by decide, by decide, by intro i hi; rfl⟩,
   ⟨{ sq := 1, cid := 7 }, 1, { granules := [0], blocks := 262144, attached := true, readOnly := false, key := 1 }, { State.reset with mc := { Mc.reset with phase := .go }, mm := { Mm.reset with replayed := true, namespaces := [(1, { granules := [0], blocks := 262144, attached := true, readOnly := false, key := 1 })] }, qe := { Qe.reset with enabled := true, ready := true, sqs := [(0, { size := 32, prio := 0, cq := 0, tail := 0, head := 0, blocked := none }), (1, { size := 16, prio := 0, cq := 1, tail := 3, head := 0, blocked := none })], cqs := [(0, { size := 32, vector := 0, ien := true, head := 0, tail := 0 }), (1, { size := 16, vector := 1, ien := true, head := 0, tail := 0 })] } }, by decide +kernel⟩,
   ⟨{ sq := 1, cid := 7 }, 1, 8, 513, { granules := [0], blocks := 262144, attached := true, readOnly := false, key := 1 }, [], [], { State.reset with mc := { Mc.reset with phase := .go }, mm := { Mm.reset with replayed := true, namespaces := [(1, { granules := [0], blocks := 262144, attached := true, readOnly := false, key := 1 })] }, qe := { Qe.reset with enabled := true, ready := true, sqs := [(0, { size := 32, prio := 0, cq := 0, tail := 0, head := 0, blocked := none }), (1, { size := 16, prio := 0, cq := 1, tail := 3, head := 0, blocked := none })], cqs := [(0, { size := 32, vector := 0, ien := true, head := 0, tail := 0 }), (1, { size := 16, vector := 1, ien := true, head := 0, tail := 0 })] } }, by decide +kernel⟩,
   ⟨{ sq := 1, cid := 7 }, 1, 262144, 1, { granules := [0], blocks := 262144, attached := true, readOnly := false, key := 1 }, [], [], { State.reset with mc := { Mc.reset with phase := .go }, mm := { Mm.reset with replayed := true, namespaces := [(1, { granules := [0], blocks := 262144, attached := true, readOnly := false, key := 1 })] }, qe := { Qe.reset with enabled := true, ready := true, sqs := [(0, { size := 32, prio := 0, cq := 0, tail := 0, head := 0, blocked := none }), (1, { size := 16, prio := 0, cq := 1, tail := 3, head := 0, blocked := none })], cqs := [(0, { size := 32, vector := 0, ien := true, head := 0, tail := 0 }), (1, { size := 16, vector := 1, ien := true, head := 0, tail := 0 })] } }, by decide +kernel⟩,
   ⟨{ sq := 1, cid := 7 }, 1, 8, 1, { granules := [0], blocks := 262144, attached := true, readOnly := true, key := 1 }, [], { State.reset with mc := { Mc.reset with phase := .go }, mm := { Mm.reset with replayed := true, namespaces := [(1, { granules := [0], blocks := 262144, attached := true, readOnly := true, key := 1 })] }, qe := { Qe.reset with enabled := true, ready := true, sqs := [(0, { size := 32, prio := 0, cq := 0, tail := 0, head := 0, blocked := none }), (1, { size := 16, prio := 0, cq := 1, tail := 3, head := 0, blocked := none })], cqs := [(0, { size := 32, vector := 0, ien := true, head := 0, tail := 0 }), (1, { size := 16, vector := 1, ien := true, head := 0, tail := 0 })] } }, by decide +kernel⟩,
   ⟨{ sq := 1, cid := 7 }, 2, 8, 1, [], [], { State.reset with mc := { Mc.reset with phase := .go }, mm := { Mm.reset with replayed := true, namespaces := [(1, { granules := [0], blocks := 262144, attached := true, readOnly := false, key := 1 })] }, qe := { Qe.reset with enabled := true, ready := true, sqs := [(0, { size := 32, prio := 0, cq := 0, tail := 0, head := 0, blocked := none }), (1, { size := 16, prio := 0, cq := 1, tail := 3, head := 0, blocked := none })], cqs := [(0, { size := 32, vector := 0, ien := true, head := 0, tail := 0 }), (1, { size := 16, vector := 1, ien := true, head := 0, tail := 0 })] } }, by decide +kernel, rfl, rfl, rfl, by decide, by decide, Or.inl rfl⟩⟩

/-- The hypotheses of clause 1 of StorageWrites are met. -/
theorem witness_StorageWrites_1 :
    (∃ (c : CmdId) (n a z : Nat) (x : Namespace) (d : List (List Byte)) (s : State), (s.storeIdle c n x) ∧ (1 ≤ z ∧ z ≤ 512) ∧ (a + z ≤ x.blocks) ∧ (x.readOnly = false) ∧ (s.indexDenies n [(a, z)] = false) ∧ (s.qe.locksUsed < 4096) ∧ (s.roomFor x (cutPieces (ceilDiv z 64) 0 a (hostBlocks d z)))) :=
  ⟨{ sq := 1, cid := 7 }, 1, 8, 9, { granules := [0], blocks := 262144, attached := true, readOnly := false, key := 1 }, [[1, 2, 3]], { State.reset with mc := { Mc.reset with phase := .go }, mm := { Mm.reset with replayed := true, namespaces := [(1, { granules := [0], blocks := 262144, attached := true, readOnly := false, key := 1 })] }, qe := { Qe.reset with enabled := true, ready := true, sqs := [(0, { size := 32, prio := 0, cq := 0, tail := 0, head := 0, blocked := none }), (1, { size := 16, prio := 0, cq := 1, tail := 3, head := 0, blocked := none })], cqs := [(0, { size := 32, vector := 0, ien := true, head := 0, tail := 0 }), (1, { size := 16, vector := 1, ien := true, head := 0, tail := 0 })] } }, by decide +kernel⟩

/-- The hypotheses of clause 2 of StorageWrites are met. -/
theorem witness_StorageWrites_2 :
    (∃ (c : CmdId) (n a z : Nat) (x : Namespace) (e : Bool) (s : State), (s.storeIdle c n x) ∧ (1 ≤ z ∧ z ≤ 64) ∧ (a + z ≤ x.blocks) ∧ (x.readOnly = false) ∧ (s.indexDenies n [(a, z)] = false) ∧ (s.qe.locksUsed < 4096) ∧ (s.roomFor x [⟨0, a, [], z, none, 0, false⟩]) ∧ (a % 8 ≠ 0 ∨ z % 8 ≠ 0)) :=
  ⟨{ sq := 1, cid := 7 }, 1, 3, 9, { granules := [0], blocks := 262144, attached := true, readOnly := false, key := 1 }, true, { State.reset with mc := { Mc.reset with phase := .go }, mm := { Mm.reset with replayed := true, namespaces := [(1, { granules := [0], blocks := 262144, attached := true, readOnly := false, key := 1 })] }, qe := { Qe.reset with enabled := true, ready := true, sqs := [(0, { size := 32, prio := 0, cq := 0, tail := 0, head := 0, blocked := none }), (1, { size := 16, prio := 0, cq := 1, tail := 3, head := 0, blocked := none })], cqs := [(0, { size := 32, vector := 0, ien := true, head := 0, tail := 0 }), (1, { size := 16, vector := 1, ien := true, head := 0, tail := 0 })] } }, by decide +kernel⟩

/-- The hypotheses of clause 3 of StorageWrites are met. -/
theorem witness_StorageWrites_3 :
    (∃ (c : CmdId) (n a z : Nat) (x : Namespace) (e : Bool) (s : State), (s.storeIdle c n x) ∧ (0 < z) ∧ (a % 8 = 0 ∧ z % 8 = 0) ∧ (a + z ≤ x.blocks) ∧ (x.readOnly = false) ∧ (s.indexDenies n [(a, z)] = false) ∧ (s.qe.locksUsed < 4096) ∧ (s.poolRoom x [⟨0, a, [], z, none, 0, false⟩] = true)) :=
  ⟨{ sq := 1, cid := 7 }, 1, 8, 16, { granules := [0], blocks := 262144, attached := true, readOnly := false, key := 1 }, true, { State.reset with mc := { Mc.reset with phase := .go }, mm := { Mm.reset with replayed := true, namespaces := [(1, { granules := [0], blocks := 262144, attached := true, readOnly := false, key := 1 })] }, qe := { Qe.reset with enabled := true, ready := true, sqs := [(0, { size := 32, prio := 0, cq := 0, tail := 0, head := 0, blocked := none }), (1, { size := 16, prio := 0, cq := 1, tail := 3, head := 0, blocked := none })], cqs := [(0, { size := 32, vector := 0, ien := true, head := 0, tail := 0 }), (1, { size := 16, vector := 1, ien := true, head := 0, tail := 0 })] } }, by decide +kernel⟩

/-- The hypotheses of clause 4 of StorageWrites are met. -/
theorem witness_StorageWrites_4 :
    (∃ (c : CmdId) (n a z : Nat) (x : Namespace) (d : List (List Byte)) (s : State), (s.serves c .io) ∧ (s.mm.replayed = true) ∧ (s.qe.store = []) ∧ (s.mm.namespaces.find n = some x) ∧ (x.attached = true) ∧ (c.sq ≠ lpQueue) ∧ (1 ≤ z ∧ z ≤ 512) ∧ (a + z ≤ x.blocks) ∧ (x.readOnly = false) ∧ (s.indexDenies n [(a, z)] = false) ∧ (s.qe.held ≠ [] ∨ 4096 ≤ s.qe.locksUsed)) :=
  ⟨{ sq := 1, cid := 7 }, 1, 8, 9, { granules := [0], blocks := 262144, attached := true, readOnly := false, key := 1 }, [[1, 2, 3]], { State.reset with mc := { Mc.reset with phase := .go }, mm := { Mm.reset with replayed := true, namespaces := [(1, { granules := [0], blocks := 262144, attached := true, readOnly := false, key := 1 })] }, qe := { Qe.reset with enabled := true, ready := true, sqs := [(0, { size := 32, prio := 0, cq := 0, tail := 0, head := 0, blocked := none }), (1, { size := 16, prio := 0, cq := 1, tail := 3, head := 0, blocked := none })], cqs := [(0, { size := 32, vector := 0, ien := true, head := 0, tail := 0 }), (1, { size := 16, vector := 1, ien := true, head := 0, tail := 0 })], locksUsed := 4096 } }, by decide +kernel⟩

/-- The hypotheses of clause 5 of StorageWrites are met. -/
theorem witness_StorageWrites_5 :
    (∃ (c : CmdId) (n a z : Nat) (x : Namespace) (d : List (List Byte)) (s : State), (s.storeIdle c n x) ∧ (1 ≤ z ∧ z ≤ 512) ∧ (a + z ≤ x.blocks) ∧ (x.readOnly = false) ∧ (s.indexDenies n [(a, z)] = false) ∧ (s.qe.locksUsed < 4096)) :=
  ⟨{ sq := 1, cid := 7 }, 1, 8, 9, { granules := [0], blocks := 262144, attached := true, readOnly := false, key := 1 }, [[1, 2, 3]], { State.reset with mc := { Mc.reset with phase := .go }, mm := { Mm.reset with replayed := true, namespaces := [(1, { granules := [0], blocks := 262144, attached := true, readOnly := false, key := 1 })], outSets := List.range 16 }, qe := { Qe.reset with enabled := true, ready := true, sqs := [(0, { size := 32, prio := 0, cq := 0, tail := 0, head := 0, blocked := none }), (1, { size := 16, prio := 0, cq := 1, tail := 3, head := 0, blocked := none })], cqs := [(0, { size := 32, vector := 0, ien := true, head := 0, tail := 0 }), (1, { size := 16, vector := 1, ien := true, head := 0, tail := 0 })] } }, by decide +kernel⟩

/-- The hypotheses of clause 6 of StorageWrites are met. -/
theorem witness_StorageWrites_6 :
    (∃ (c : CmdId) (k : StoreCmd) (x : Namespace) (p : Piece) (s : State), (s.mediaRuns = true) ∧ (s.qe.held = [c]) ∧ (s.qe.store = [k]) ∧ (k.c = c) ∧ (k.stage = .holding) ∧ (k.op = .write) ∧ (k.pieces = [p]) ∧ (p.onMedium = false ∧ p.stripe = none ∧ p.zeros = 0 ∧ p.blocks ≠ []) ∧ (s.qe.locksUsed + k.ranges.length ≤ 4096) ∧ (s.mm.namespaces.find k.nsid = some x) ∧ (s.roomFor x [p]) ∧ (c.sq ≠ lpQueue)) :=
  ⟨{ sq := 1, cid := 7 }, { c := { sq := 1, cid := 7 }, op := .write, nsid := 1, ranges := [(8, 1)], stage := .holding, locks := 0, pieces := [⟨0, 8, [[1]], 0, none, 0, false⟩], reads := [], before := [], silent := false, order := 0 }, { granules := [0], blocks := 262144, attached := true, readOnly := false, key := 1 }, ⟨0, 8, [[1]], 0, none, 0, false⟩, { State.reset with mc := { Mc.reset with phase := .go }, mm := { Mm.reset with replayed := true, namespaces := [(1, { granules := [0], blocks := 262144, attached := true, readOnly := false, key := 1 })] }, qe := { Qe.reset with enabled := true, ready := true, sqs := [(0, { size := 32, prio := 0, cq := 0, tail := 0, head := 0, blocked := none }), (1, { size := 16, prio := 0, cq := 1, tail := 3, head := 0, blocked := none })], cqs := [(0, { size := 32, vector := 0, ien := true, head := 0, tail := 0 }), (1, { size := 16, vector := 1, ien := true, head := 0, tail := 0 })], held := [{ sq := 1, cid := 7 }], store := [{ c := { sq := 1, cid := 7 }, op := .write, nsid := 1, ranges := [(8, 1)], stage := .holding, locks := 0, pieces := [⟨0, 8, [[1]], 0, none, 0, false⟩], reads := [], before := [], silent := false, order := 0 }] } }, by decide +kernel⟩

/-- The hypotheses of clause 7 of StorageWrites are met. -/
theorem witness_StorageWrites_7 :
    (∃ (c : CmdId) (s : State), (s.mediaRuns = false ∨ s.qe.held = [] ∨ ∃ c ∈ s.qe.held.head?, ∃ k, s.qe.store.find? (fun k => k.c == c && k.stage == .holding) = some k ∧ 4096 < s.qe.locksUsed + k.ranges.length)) :=
  ⟨{ sq := 1, cid := 7 }, State.reset, Or.inl rfl⟩

/-- The hypotheses of clause 8 of StorageWrites are met. -/
theorem witness_StorageWrites_8 :
    (∃ (c : CmdId) (k : StoreCmd) (x : Namespace) (s : State), (s.mediaRuns = true) ∧ (s.qe.held = []) ∧ (s.qe.store = [k]) ∧ (k.c = c) ∧ (k.stage = .overlap) ∧ (k.op = .read) ∧ (k.silent = false) ∧ (s.mm.namespaces.find k.nsid = some x) ∧ (c.sq ≠ lpQueue) ∧ (c ∈ s.qe.fetched) ∧ (s.qe.fetched.Nodup)) :=
  ⟨{ sq := 1, cid := 7 }, { c := { sq := 1, cid := 7 }, op := .read, nsid := 1, ranges := [(8, 1)], stage := .overlap, locks := 0, pieces := [], reads := [], before := [], silent := false, order := 0 }, { granules := [0], blocks := 262144, attached := true, readOnly := false, key := 1 }, { State.reset with mc := { Mc.reset with phase := .go }, mm := { Mm.reset with replayed := true, namespaces := [(1, { granules := [0], blocks := 262144, attached := true, readOnly := false, key := 1 })] }, qe := { Qe.reset with enabled := true, ready := true, sqs := [(0, { size := 32, prio := 0, cq := 0, tail := 0, head := 0, blocked := none }), (1, { size := 16, prio := 0, cq := 1, tail := 3, head := 0, blocked := none })], cqs := [(0, { size := 32, vector := 0, ien := true, head := 0, tail := 0 }), (1, { size := 16, vector := 1, ien := true, head := 0, tail := 0 })], fetched := [{ sq := 1, cid := 7 }], store := [{ c := { sq := 1, cid := 7 }, op := .read, nsid := 1, ranges := [(8, 1)], stage := .overlap, locks := 0, pieces := [], reads := [], before := [], silent := false, order := 0 }] } }, by decide +kernel⟩

/-- The hypotheses of clause 9 of StorageWrites are met. -/
theorem witness_StorageWrites_9 :
    (∃ (c : CmdId) (s : State), (s.mediaRuns = false ∨ ∀ k ∈ s.qe.store, k.c = c → k.stage = .overlap → s.qe.waitsFor k ≠ [])) :=
  ⟨{ sq := 1, cid := 7 }, State.reset, Or.inl rfl⟩

/-- The hypotheses of clause 10 of StorageWrites are met. -/
theorem witness_StorageWrites_10 :
    (∃ (c : CmdId) (k : StoreCmd) (x : Namespace) (p : Piece) (s : State), (s.mediaRuns = true) ∧ (s.qe.store = [k]) ∧ (k.c = c) ∧ (k.stage = .landing) ∧ (k.op = .write) ∧ (k.pieces = [p]) ∧ (p.onMedium = false ∧ p.stripe = none ∧ p.zeros = 0 ∧ p.blocks ≠ []) ∧ (s.mm.namespaces.find k.nsid = some x) ∧ (s.roomFor x [p])) :=
  ⟨{ sq := 1, cid := 7 }, { c := { sq := 1, cid := 7 }, op := .write, nsid := 1, ranges := [(8, 1)], stage := .landing, locks := 1, pieces := [⟨0, 8, [[1]], 0, none, 0, false⟩], reads := [], before := [], silent := false, order := 0 }, { granules := [0], blocks := 262144, attached := true, readOnly := false, key := 1 }, ⟨0, 8, [[1]], 0, none, 0, false⟩, { State.reset with mc := { Mc.reset with phase := .go }, mm := { Mm.reset with replayed := true, namespaces := [(1, { granules := [0], blocks := 262144, attached := true, readOnly := false, key := 1 })] }, qe := { Qe.reset with enabled := true, ready := true, sqs := [(0, { size := 32, prio := 0, cq := 0, tail := 0, head := 0, blocked := none }), (1, { size := 16, prio := 0, cq := 1, tail := 3, head := 0, blocked := none })], cqs := [(0, { size := 32, vector := 0, ien := true, head := 0, tail := 0 }), (1, { size := 16, vector := 1, ien := true, head := 0, tail := 0 })], store := [{ c := { sq := 1, cid := 7 }, op := .write, nsid := 1, ranges := [(8, 1)], stage := .landing, locks := 1, pieces := [⟨0, 8, [[1]], 0, none, 0, false⟩], reads := [], before := [], silent := false, order := 0 }] } }, by decide +kernel⟩

/-- The hypotheses of clause 11 of StorageWrites are met. -/
theorem witness_StorageWrites_11 :
    (∃ (c : CmdId) (k : StoreCmd) (x : Namespace) (p : Piece) (s : State), (s.mediaRuns = true) ∧ (s.qe.store = [k]) ∧ (k.c = c) ∧ (k.stage = .snapshot) ∧ (k.op = .write) ∧ (k.pieces = [p]) ∧ (p.onMedium = false ∧ p.stripe = none ∧ p.zeros = 0 ∧ p.blocks ≠ []) ∧ (s.mm.namespaces.find k.nsid = some x) ∧ (s.roomFor x [p])) :=
  ⟨{ sq := 1, cid := 7 }, { c := { sq := 1, cid := 7 }, op := .write, nsid := 1, ranges := [(8, 1)], stage := .snapshot, locks := 1, pieces := [⟨0, 8, [[1]], 0, none, 0, false⟩], reads := [], before := [], silent := false, order := 0 }, { granules := [0], blocks := 262144, attached := true, readOnly := false, key := 1 }, ⟨0, 8, [[1]], 0, none, 0, false⟩, { State.reset with mc := { Mc.reset with phase := .go }, mm := { Mm.reset with replayed := true, namespaces := [(1, { granules := [0], blocks := 262144, attached := true, readOnly := false, key := 1 })] }, qe := { Qe.reset with enabled := true, ready := true, sqs := [(0, { size := 32, prio := 0, cq := 0, tail := 0, head := 0, blocked := none }), (1, { size := 16, prio := 0, cq := 1, tail := 3, head := 0, blocked := none })], cqs := [(0, { size := 32, vector := 0, ien := true, head := 0, tail := 0 }), (1, { size := 16, vector := 1, ien := true, head := 0, tail := 0 })], store := [{ c := { sq := 1, cid := 7 }, op := .write, nsid := 1, ranges := [(8, 1)], stage := .snapshot, locks := 1, pieces := [⟨0, 8, [[1]], 0, none, 0, false⟩], reads := [], before := [], silent := false, order := 0 }] } }, by decide +kernel⟩

/-- The hypotheses of clause 12 of StorageWrites are met. -/
theorem witness_StorageWrites_12 :
    (∃ (c : CmdId) (k : StoreCmd) (x : Namespace) (p : Piece) (s : State), (s.mediaRuns = true) ∧ (s.qe.store = [k]) ∧ (k.c = c) ∧ (k.stage = .landing ∨ k.stage = .snapshot) ∧ (k.op = .write) ∧ (k.pieces = [p]) ∧ (p.onMedium = false ∧ p.stripe = none ∧ p.zeros = 0 ∧ p.blocks ≠ []) ∧ (s.mm.namespaces.find k.nsid = some x) ∧ (s.landingWaits [p] = true)) :=
  ⟨{ sq := 1, cid := 7 }, { c := { sq := 1, cid := 7 }, op := .write, nsid := 1, ranges := [(8, 1)], stage := .landing, locks := 1, pieces := [⟨0, 8, [[1]], 0, none, 0, false⟩], reads := [], before := [], silent := false, order := 0 }, { granules := [0], blocks := 262144, attached := true, readOnly := false, key := 1 }, ⟨0, 8, [[1]], 0, none, 0, false⟩, { State.reset with mc := { Mc.reset with phase := .go }, mm := { Mm.reset with replayed := true, namespaces := [(1, { granules := [0], blocks := 262144, attached := true, readOnly := false, key := 1 })], outSets := List.range 16 }, qe := { Qe.reset with enabled := true, ready := true, sqs := [(0, { size := 32, prio := 0, cq := 0, tail := 0, head := 0, blocked := none }), (1, { size := 16, prio := 0, cq := 1, tail := 3, head := 0, blocked := none })], cqs := [(0, { size := 32, vector := 0, ien := true, head := 0, tail := 0 }), (1, { size := 16, vector := 1, ien := true, head := 0, tail := 0 })], store := [{ c := { sq := 1, cid := 7 }, op := .write, nsid := 1, ranges := [(8, 1)], stage := .landing, locks := 1, pieces := [⟨0, 8, [[1]], 0, none, 0, false⟩], reads := [], before := [], silent := false, order := 0 }] } }, by decide +kernel, rfl, rfl, Or.inl rfl, by decide +kernel⟩

/-- The hypotheses of clause 13 of StorageWrites are met. -/
theorem witness_StorageWrites_13 :
    (∃ (c : CmdId) (s : State), (s.mediaRuns = false ∨ ∀ k ∈ s.qe.store, k.c = c → k.stage ≠ .landing ∧ k.stage ≠ .snapshot)) :=
  ⟨{ sq := 1, cid := 7 }, State.reset, Or.inl rfl⟩

/-- The hypotheses of WritesLand are met. -/
theorem witness_WritesLand :
    (∃ (k : Nat) (y : Stripe) (w : StoreCmd) (p : Piece) (x : Namespace) (s : State), (s.power.failing = false) ∧ (s.mm.stripes.find k = some y) ∧ (y.closed = true) ∧ (y.verified = false) ∧ (s.qe.store = [w]) ∧ (w.op = .write) ∧ (w.stage = .running) ∧ (w.silent = false) ∧ (w.c.sq ≠ lpQueue) ∧ (w.c ∈ s.qe.fetched) ∧ (s.qe.fetched.Nodup) ∧ (w.pieces = [p]) ∧ (p.stripe = some k) ∧ (p.zeros = 0) ∧ (s.mm.holdsPiece p) ∧ (s.mm.namespaces.find w.nsid = some x) ∧ (s.commitsIdle) ∧ (s.poolRoom x [p] = true) ∧ (p.slba % 8 = 0) ∧ (p.blocks.length = 8) ∧ (w.ranges = [(p.slba, 8)])) ∧
    (∃ (k : Nat) (y : Stripe) (w : StoreCmd) (p : Piece) (x : Namespace) (s : State), (s.power.failing = false) ∧ (s.mm.stripes.find k = some y) ∧ (y.closed = true) ∧ (y.verified = false) ∧ (s.qe.store = [w]) ∧ (w.op = .write) ∧ (w.stage = .running) ∧ (w.silent = false) ∧ (w.c.sq ≠ lpQueue) ∧ (w.c ∈ s.qe.fetched) ∧ (s.qe.fetched.Nodup) ∧ (w.pieces = [p]) ∧ (p.stripe = some k) ∧ (p.zeros = 0) ∧ (s.mm.holdsPiece p) ∧ (s.mm.namespaces.find w.nsid = some x) ∧ (s.commitsIdle) ∧ (s.poolRoom x [p] = true) ∧ (p.blocks.length = 1) ∧ (w.ranges = [(p.slba, 1)]) ∧ (s.mm.index.find (lowestFree s.mm.index.keys 0) = none) ∧ (∀ i e, s.mm.locOf (x.unit (p.slba / 8)) = .merged i → s.mm.index.find i = some e → e.blocks.length = 8)) ∧
    (∃ (k : Nat) (y : Stripe) (w : StoreCmd) (p : Piece) (x : Namespace) (s : State), (s.power.failing = false) ∧ (s.mm.stripes.find k = some y) ∧ (y.closed = true) ∧ (y.verified = false) ∧ (s.qe.store = [w]) ∧ (w.op = .write) ∧ (w.stage = .running) ∧ (w.silent = false) ∧ (w.c.sq ≠ lpQueue) ∧ (w.c ∈ s.qe.fetched) ∧ (s.qe.fetched.Nodup) ∧ (w.pieces = [p]) ∧ (p.stripe = some k) ∧ (p.zeros = 0) ∧ (s.mm.holdsPiece p) ∧ (s.mm.namespaces.find w.nsid = some x) ∧ (s.commitsIdle) ∧ (s.poolRoom x [p] = false) ∧ (w.ranges = [(p.slba, p.blocks.length)]) ∧ (1 ≤ p.blocks.length ∧ p.blocks.length ≤ 64)) ∧
    (∃ (k : Nat) (y : Stripe) (s : State), (s.mediaRuns = true) ∧ (s.mm.openStripe = some k) ∧ (s.mm.stripes.find k = some y)) ∧
    (∃ (k : Nat) (s : State), (s.mm.stripes.find k = none ∨ ∃ y, s.mm.stripes.find k = some y ∧ (y.closed = false ∨ y.verified = true))) ∧
    (∃ (s : State), (s.mediaRuns = false ∨ s.mm.openStripe = none)) :=
  ⟨⟨0, { used := 8, seq := 0, pages := [], closed := true, verified := false, parity := [], due := false }, { c := { sq := 1, cid := 7 }, op := .write, nsid := 1, ranges := [(8, 8)], stage := .running, locks := 1, pieces := [⟨0, 8, [[1], [2], [3], [4], [5], [6], [7], [8]], 0, some 0, 0, false⟩], reads := [], before := [], silent := false, order := 0 }, ⟨0, 8, [[1], [2], [3], [4], [5], [6], [7], [8]], 0, some 0, 0, false⟩, { granules := [0], blocks := 262144, attached := true, readOnly := false, key := 1 }, { State.reset with mc := { Mc.reset with phase := .go }, mm := { Mm.reset with replayed := true, namespaces := [(1, { granules := [0], blocks := 262144, attached := true, readOnly := false, key := 1 })], stripes := [(0, { used := 8, seq := 0, pages := [], closed := true, verified := false, parity := [], due := false })], landing := (List.range 8).map (fun i => (i, { data := [BitVec.ofNat 8 (i + 1)], key := 1 })) }, qe := { Qe.reset with enabled := true, ready := true, sqs := [(0, { size := 32, prio := 0, cq := 0, tail := 0, head := 0, blocked := none }), (1, { size := 16, prio := 0, cq := 1, tail := 3, head := 0, blocked := none })], cqs := [(0, { size := 32, vector := 0, ien := true, head := 0, tail := 0 }), (1, { size := 16, vector := 1, ien := true, head := 0, tail := 0 })], fetched := [{ sq := 1, cid := 7 }], locksUsed := 1, store := [{ c := { sq := 1, cid := 7 }, op := .write, nsid := 1, ranges := [(8, 8)], stage := .running, locks := 1, pieces := [⟨0, 8, [[1], [2], [3], [4], [5], [6], [7], [8]], 0, some 0, 0, false⟩], reads := [], before := [], silent := false, order := 0 }] } },
    by decide +kernel, rfl, rfl, rfl, rfl, rfl, rfl, rfl, by decide, by decide, by decide, rfl, rfl, rfl, by decide +kernel, rfl, by decide +kernel⟩,
   ⟨0, { used := 8, seq := 0, pages := [], closed := true, verified := false, parity := [], due := false }, { c := { sq := 1, cid := 7 }, op := .write, nsid := 1, ranges := [(9, 1)], stage := .running, locks := 1, pieces := [⟨0, 9, [[5]], 0, some 0, 0, false⟩], reads := [], before := [], silent := false, order := 0 }, ⟨0, 9, [[5]], 0, some 0, 0, false⟩, { granules := [0], blocks := 262144, attached := true, readOnly := false, key := 1 }, { State.reset with mc := { Mc.reset with phase := .go }, mm := { Mm.reset with replayed := true, namespaces := [(1, { granules := [0], blocks := 262144, attached := true, readOnly := false, key := 1 })], stripes := [(0, { used := 8, seq := 0, pages := [], closed := true, verified := false, parity := [], due := false })], landing := [(0, { data := [5], key := 1 })] }, qe := { Qe.reset with enabled := true, ready := true, sqs := [(0, { size := 32, prio := 0, cq := 0, tail := 0, head := 0, blocked := none }), (1, { size := 16, prio := 0, cq := 1, tail := 3, head := 0, blocked := none })], cqs := [(0, { size := 32, vector := 0, ien := true, head := 0, tail := 0 }), (1, { size := 16, vector := 1, ien := true, head := 0, tail := 0 })], fetched := [{ sq := 1, cid := 7 }], locksUsed := 1, store := [{ c := { sq := 1, cid := 7 }, op := .write, nsid := 1, ranges := [(9, 1)], stage := .running, locks := 1, pieces := [⟨0, 9, [[5]], 0, some 0, 0, false⟩], reads := [], before := [], silent := false, order := 0 }] } },
    by decide +kernel, rfl, rfl, rfl, rfl, rfl, rfl, rfl, by decide, by decide, by decide, rfl, rfl, rfl, by decide +kernel, rfl, by decide +kernel, by decide +kernel, rfl, rfl, rfl, fun i e h _ => by cases h⟩,
   ⟨0, { used := 8, seq := 0, pages := [], closed := true, verified := false, parity := [], due := false }, { c := { sq := 1, cid := 7 }, op := .write, nsid := 1, ranges := [(9, 1)], stage := .running, locks := 1, pieces := [⟨0, 9, [[5]], 0, some 0, 0, false⟩], reads := [], before := [], silent := false, order := 0 }, ⟨0, 9, [[5]], 0, some 0, 0, false⟩, { granules := [0], blocks := 262144, attached := true, readOnly := false, key := 1 }, { State.reset with mc := { Mc.reset with phase := .go }, mm := { Mm.reset with replayed := true, namespaces := [(1, { granules := [0], blocks := 262144, attached := true, readOnly := false, key := 1 })], stripes := [(0, { used := 8, seq := 0, pages := [], closed := true, verified := false, parity := [], due := false })], landing := [(0, { data := [5], key := 1 })], pool := List.replicate 524289 { page := 0, lo := 0, hi := 0, units := [] } }, qe := { Qe.reset with enabled := true, ready := true, sqs := [(0, { size := 32, prio := 0, cq := 0, tail := 0, head := 0, blocked := none }), (1, { size := 16, prio := 0, cq := 1, tail := 3, head := 0, blocked := none })], cqs := [(0, { size := 32, vector := 0, ien := true, head := 0, tail := 0 }), (1, { size := 16, vector := 1, ien := true, head := 0, tail := 0 })], fetched := [{ sq := 1, cid := 7 }], locksUsed := 1, store := [{ c := { sq := 1, cid := 7 }, op := .write, nsid := 1, ranges := [(9, 1)], stage := .running, locks := 1, pieces := [⟨0, 9, [[5]], 0, some 0, 0, false⟩], reads := [], before := [], silent := false, order := 0 }] } },
    by decide +kernel, rfl, rfl, rfl, rfl, rfl, rfl, rfl, by decide, by decide, by decide, rfl, rfl, rfl, by decide +kernel, rfl, by decide +kernel, poolRoom_full (by show 524288 < (List.replicate 524289 _).length; rw [List.length_replicate]; omega), rfl, by decide⟩,
   ⟨0, { used := 8, seq := 0, pages := [], closed := false, verified := false, parity := [], due := false }, { State.reset with mc := { Mc.reset with phase := .go }, mm := { Mm.reset with replayed := true, namespaces := [(1, { granules := [0], blocks := 262144, attached := true, readOnly := false, key := 1 })], openStripe := some 0, stripes := [(0, { used := 8, seq := 0, pages := [], closed := false, verified := false, parity := [], due := false })] }, qe := { Qe.reset with enabled := true, ready := true, sqs := [(0, { size := 32, prio := 0, cq := 0, tail := 0, head := 0, blocked := none }), (1, { size := 16, prio := 0, cq := 1, tail := 3, head := 0, blocked := none })], cqs := [(0, { size := 32, vector := 0, ien := true, head := 0, tail := 0 }), (1, { size := 16, vector := 1, ien := true, head := 0, tail := 0 })] } }, by decide +kernel⟩,
   ⟨0, State.reset, Or.inl rfl⟩,
   ⟨State.reset, Or.inl rfl⟩⟩

/-- The hypotheses of FoldAndCheckpointKeepData are met. -/
theorem witness_FoldAndCheckpointKeepData :
    (∃ (g b : Nat) (us : List Nat) (s : State), (s.mediaRuns = true) ∧ (g < 208) ∧ (s.mm.usable g b = true) ∧ ((s.mm.blk (groupKey g b)).rows < 64) ∧ (s.mm.isFoldRow us = true) ∧ (s.mm.foldUrgent = true ∨ s.mayRun 0 g = true) ∧ (s.mm.rowsFree g b)) ∧
    (∃ (g v d : Nat) (s : State), (s.mediaRuns = true) ∧ (g < 208) ∧ (s.mm.isVictim g v = true) ∧ (s.mm.takesUnits g v d = true) ∧ (s.mm.gcUrgentIn g = true ∨ s.mayRun 1 g = true) ∧ (s.mm.rowsFree g d)) ∧
    (∃ (s : State), (s.mediaRuns = true)) ∧
    (∃ (g b u : Nat) (s : State), (s.mediaRuns = true) ∧ (g < 208) ∧ (s.mm.usable g b = true) ∧ ((s.mm.blk (groupKey g b)).rows < 64) ∧ (s.mm.isFoldRow [u] = true) ∧ (s.mm.foldUrgent = true ∨ s.mayRun 0 g = true) ∧ (s.mm.landedOf u = [s.mm.locOf u])) :=
  ⟨⟨0, 5, [0], { State.reset with mc := { Mc.reset with phase := .go }, mm := { Mm.reset with replayed := true, namespaces := [(1, { granules := [0], blocks := 262144, attached := true, readOnly := false, key := 1 })], pages := [(0, { stamp := 0, units := [(0, .landing 0)], dirty := true })], landing := (List.range 8).map (fun i => (i, { data := [7], key := 1 })), stripes := [(0, { used := 8, seq := 0, pages := [0], closed := true, verified := true, parity := [], due := false })], agedTo := 1 }, qe := { Qe.reset with enabled := true, ready := true, sqs := [(0, { size := 32, prio := 0, cq := 0, tail := 0, head := 0, blocked := none }), (1, { size := 16, prio := 0, cq := 1, tail := 3, head := 0, blocked := none })], cqs := [(0, { size := 32, vector := 0, ien := true, head := 0, tail := 0 }), (1, { size := 16, vector := 1, ien := true, head := 0, tail := 0 })] } }, by decide +kernel, by decide, by decide +kernel, by decide +kernel, by decide +kernel, Or.inl (by decide +kernel), by intro l h; exact absurd h List.not_mem_nil⟩,
   ⟨0, 1, 2, { State.reset with mc := { Mc.reset with phase := .go }, mm := { Mm.reset with replayed := true, namespaces := [(1, { granules := [0], blocks := 262144, attached := true, readOnly := false, key := 1 })], blocks := [(groupKey 0 1, { FlashBlock.blank with erases := 3, rows := 64 })] }, qe := { Qe.reset with enabled := true, ready := true, sqs := [(0, { size := 32, prio := 0, cq := 0, tail := 0, head := 0, blocked := none }), (1, { size := 16, prio := 0, cq := 1, tail := 3, head := 0, blocked := none })], cqs := [(0, { size := 32, vector := 0, ien := true, head := 0, tail := 0 }), (1, { size := 16, vector := 1, ien := true, head := 0, tail := 0 })] }, pc := { Pacer.reset with bgRun := [(1, 0)] } }, by decide +kernel, by decide, by decide +kernel, by decide +kernel, Or.inr (by decide +kernel), by intro l h; exact absurd h List.not_mem_nil⟩,
   ⟨{ State.reset with mc := { Mc.reset with phase := .go }, mm := { Mm.reset with replayed := true, namespaces := [(1, { granules := [0], blocks := 262144, attached := true, readOnly := false, key := 1 })], pages := [(0, { stamp := 0, units := [(0, .landing 0)], dirty := true })], landing := (List.range 8).map (fun i => (i, { data := [7], key := 1 })), stripes := [(0, { used := 8, seq := 0, pages := [0], closed := true, verified := true, parity := [], due := false })], agedTo := 1 }, qe := { Qe.reset with enabled := true, ready := true, sqs := [(0, { size := 32, prio := 0, cq := 0, tail := 0, head := 0, blocked := none }), (1, { size := 16, prio := 0, cq := 1, tail := 3, head := 0, blocked := none })], cqs := [(0, { size := 32, vector := 0, ien := true, head := 0, tail := 0 }), (1, { size := 16, vector := 1, ien := true, head := 0, tail := 0 })] } }, by decide +kernel⟩,
   ⟨0, 5, 0, { State.reset with mc := { Mc.reset with phase := .go }, mm := { Mm.reset with replayed := true, namespaces := [(1, { granules := [0], blocks := 262144, attached := true, readOnly := false, key := 1 })], pages := [(0, { stamp := 0, units := [(0, .landing 0)], dirty := true })], landing := (List.range 8).map (fun i => (i, { data := [7], key := 1 })), stripes := [(0, { used := 8, seq := 0, pages := [0], closed := true, verified := true, parity := [], due := false })], agedTo := 1 }, qe := { Qe.reset with enabled := true, ready := true, sqs := [(0, { size := 32, prio := 0, cq := 0, tail := 0, head := 0, blocked := none }), (1, { size := 16, prio := 0, cq := 1, tail := 3, head := 0, blocked := none })], cqs := [(0, { size := 32, vector := 0, ien := true, head := 0, tail := 0 }), (1, { size := 16, vector := 1, ien := true, head := 0, tail := 0 })] } }, by decide +kernel, by decide, by decide +kernel, by decide +kernel, by decide +kernel, Or.inl (by decide +kernel), by decide +kernel⟩⟩

/-- The hypotheses of MediumCare are met. -/
theorem witness_MediumCare :
    (∃ (g v d : Nat) (s : State), (s.mediaRuns = true) ∧ (g < 208) ∧ (s.mm.isVictim g v = true) ∧ (s.mm.takesUnits g v d = true) ∧ (s.mm.gcUrgentIn g = true ∨ s.mayRun 1 g = true)) ∧
    (∃ (g v d : Nat) (s : State), (s.mediaRuns = true) ∧ (g < 208) ∧ (s.mm.isLevelMove g v d = true) ∧ (s.mm.takesUnits g v d = true) ∧ (s.mayRun 1 g = true)) ∧
    (∃ (g v : Nat) (s : State), (s.mediaRuns = true) ∧ (g < 208) ∧ (v < 15616) ∧ (s.mm.eraseQ = [groupKey g v]) ∧ (s.mm.occupied (inGroupBlock g v) = false) ∧ (∀ p ∈ s.mm.pages.vals ++ s.mm.ckpt.vals, ∀ l ∈ p.units.vals, ∀ a, placeIn s.mm.index l = some a → inGroupBlock g v a = false)) ∧
    (∃ (c d b e n : Nat) (s : State), (s.mediaRuns = true) ∧ (c < 128) ∧ (d < 32) ∧ (b < 16640) ∧ (s.mayRun 4 (32 * c + d) = true)) ∧
    (∃ (c d b x y : Nat) (s : State), (s.mediaRuns = true) ∧ (blockKey c d b ∈ s.mm.refreshQ) ∧ (s.mayRun 4 (32 * c + d) = true) ∧ ((s.mm.blk (blockKey c d b)).refreshes = 0)) ∧
    (∃ (c d b x y : Nat) (s : State), (s.mediaRuns = true) ∧ (blockKey c d b ∈ s.mm.refreshQ) ∧ (s.mayRun 4 (32 * c + d) = true) ∧ (1 ≤ (s.mm.blk (blockKey c d b)).refreshes) ∧ (d < 4) ∧ (1 < s.mm.spare (spareKey c d)) ∧ (spareKey c d = 512 + 4 * c + d) ∧ (s.mm.spareFor c d = some y)) ∧
    (∃ (s : State), (s.mediaRuns = true)) :=
  ⟨⟨0, 1, 2, { State.reset with mc := { Mc.reset with phase := .go }, mm := { Mm.reset with replayed := true, namespaces := [(1, { granules := [0], blocks := 262144, attached := true, readOnly := false, key := 1 })], blocks := [(groupKey 0 1, { FlashBlock.blank with erases := 3, rows := 64 })] }, qe := { Qe.reset with enabled := true, ready := true, sqs := [(0, { size := 32, prio := 0, cq := 0, tail := 0, head := 0, blocked := none }), (1, { size := 16, prio := 0, cq := 1, tail := 3, head := 0, blocked := none })], cqs := [(0, { size := 32, vector := 0, ien := true, head := 0, tail := 0 }), (1, { size := 16, vector := 1, ien := true, head := 0, tail := 0 })] }, pc := { Pacer.reset with bgRun := [(1, 0)] } }, by decide +kernel, by decide, by decide +kernel, by decide +kernel, Or.inr (by decide +kernel)⟩,
   ⟨0, 1, 2, { State.reset with mc := { Mc.reset with phase := .go }, mm := { Mm.reset with replayed := true, namespaces := [(1, { granules := [0], blocks := 262144, attached := true, readOnly := false, key := 1 })], blocks := [(groupKey 0 1, { FlashBlock.blank with erases := 3, rows := 64 }), (groupKey 0 2, { FlashBlock.blank with erases := 3000, rows := 0 })] }, qe := { Qe.reset with enabled := true, ready := true, sqs := [(0, { size := 32, prio := 0, cq := 0, tail := 0, head := 0, blocked := none }), (1, { size := 16, prio := 0, cq := 1, tail := 3, head := 0, blocked := none })], cqs := [(0, { size := 32, vector := 0, ien := true, head := 0, tail := 0 }), (1, { size := 16, vector := 1, ien := true, head := 0, tail := 0 })] }, pc := { Pacer.reset with bgRun := [(1, 0)] } }, by decide +kernel⟩,
   ⟨0, 1, { State.reset with mc := { Mc.reset with phase := .go }, mm := { Mm.reset with replayed := true, namespaces := [(1, { granules := [0], blocks := 262144, attached := true, readOnly := false, key := 1 })], eraseQ := [groupKey 0 1] }, qe := { Qe.reset with enabled := true, ready := true, sqs := [(0, { size := 32, prio := 0, cq := 0, tail := 0, head := 0, blocked := none }), (1, { size := 16, prio := 0, cq := 1, tail := 3, head := 0, blocked := none })], cqs := [(0, { size := 32, vector := 0, ien := true, head := 0, tail := 0 }), (1, { size := 16, vector := 1, ien := true, head := 0, tail := 0 })] } }, by decide +kernel, by decide, by decide, rfl, by decide +kernel, by intro p h; exact absurd h List.not_mem_nil⟩,
   ⟨127, 31, 16639, 15, 0, { State.reset with mc := { Mc.reset with phase := .go }, mm := { Mm.reset with replayed := true, namespaces := [(1, { granules := [0], blocks := 262144, attached := true, readOnly := false, key := 1 })] }, qe := { Qe.reset with enabled := true, ready := true, sqs := [(0, { size := 32, prio := 0, cq := 0, tail := 0, head := 0, blocked := none }), (1, { size := 16, prio := 0, cq := 1, tail := 3, head := 0, blocked := none })], cqs := [(0, { size := 32, vector := 0, ien := true, head := 0, tail := 0 }), (1, { size := 16, vector := 1, ien := true, head := 0, tail := 0 })] }, pc := { Pacer.reset with bgRun := [(4, 4095)] } }, by decide +kernel⟩,
   ⟨0, 0, 3, 0, blockKey 0 0 16384, { State.reset with mc := { Mc.reset with phase := .go }, mm := { Mm.reset with replayed := true, namespaces := [(1, { granules := [0], blocks := 262144, attached := true, readOnly := false, key := 1 })], refreshQ := [blockKey 0 0 3] }, qe := { Qe.reset with enabled := true, ready := true, sqs := [(0, { size := 32, prio := 0, cq := 0, tail := 0, head := 0, blocked := none }), (1, { size := 16, prio := 0, cq := 1, tail := 3, head := 0, blocked := none })], cqs := [(0, { size := 32, vector := 0, ien := true, head := 0, tail := 0 }), (1, { size := 16, vector := 1, ien := true, head := 0, tail := 0 })] }, pc := { Pacer.reset with bgRun := [(4, 0)] } }, by decide +kernel⟩,
   ⟨0, 0, 3, 0, blockKey 0 0 16384, { State.reset with mc := { Mc.reset with phase := .go }, mm := { Mm.reset with replayed := true, namespaces := [(1, { granules := [0], blocks := 262144, attached := true, readOnly := false, key := 1 })], refreshQ := [blockKey 0 0 3], blocks := [(blockKey 0 0 3, { FlashBlock.blank with refreshes := 1 })] }, qe := { Qe.reset with enabled := true, ready := true, sqs := [(0, { size := 32, prio := 0, cq := 0, tail := 0, head := 0, blocked := none }), (1, { size := 16, prio := 0, cq := 1, tail := 3, head := 0, blocked := none })], cqs := [(0, { size := 32, vector := 0, ien := true, head := 0, tail := 0 }), (1, { size := 16, vector := 1, ien := true, head := 0, tail := 0 })] }, pc := { Pacer.reset with bgRun := [(4, 0)] } }, by decide +kernel⟩,
   ⟨{ State.reset with mc := { Mc.reset with phase := .go }, mm := { Mm.reset with replayed := true, namespaces := [(1, { granules := [0], blocks := 262144, attached := true, readOnly := false, key := 1 })], stripes := [(0, { used := 8, seq := 0, pages := [], closed := true, verified := false, parity := [], due := false })] }, qe := { Qe.reset with enabled := true, ready := true, sqs := [(0, { size := 32, prio := 0, cq := 0, tail := 0, head := 0, blocked := none }), (1, { size := 16, prio := 0, cq := 1, tail := 3, head := 0, blocked := none })], cqs := [(0, { size := 32, vector := 0, ien := true, head := 0, tail := 0 }), (1, { size := 16, vector := 1, ien := true, head := 0, tail := 0 })] } }, by decide +kernel⟩⟩

/-- The hypotheses of clause 1 of MediumFailures are met. -/
theorem witness_MediumFailures_1 :
    (∃ (c d b x : Nat) (s : State), (s.mediaRuns = true) ∧ (c < 128) ∧ (d < 32) ∧ (b < 16640) ∧ (s.ntAll = true) ∧ (spareLowAt (spareKey c d) < s.mm.spare (spareKey c d))) :=
  ⟨0, 6, 9, 0, { State.reset with mc := { Mc.reset with phase := .go }, mm := { Mm.reset with replayed := true, namespaces := [(1, { granules := [0], blocks := 262144, attached := true, readOnly := false, key := 1 })] }, qe := { Qe.reset with enabled := true, ready := true, sqs := [(0, { size := 32, prio := 0, cq := 0, tail := 0, head := 0, blocked := none }), (1, { size := 16, prio := 0, cq := 1, tail := 3, head := 0, blocked := none })], cqs := [(0, { size := 32, vector := 0, ien := true, head := 0, tail := 0 }), (1, { size := 16, vector := 1, ien := true, head := 0, tail := 0 })] }, rl := { Rl.reset with ntReady := List.range 16 } }, by decide +kernel⟩

/-- The hypotheses of clause 2 of MediumFailures are met. -/
theorem witness_MediumFailures_2 :
    (∃ (c d b x : Nat) (s : State), (s.mediaRuns = true) ∧ (c < 128) ∧ (d < 32) ∧ (b < 16640) ∧ (s.mm.spare (spareKey c d) ≠ 0)) :=
  ⟨0, 6, 9, 0, { State.reset with mc := { Mc.reset with phase := .go }, mm := { Mm.reset with replayed := true, namespaces := [(1, { granules := [0], blocks := 262144, attached := true, readOnly := false, key := 1 })] }, qe := { Qe.reset with enabled := true, ready := true, sqs := [(0, { size := 32, prio := 0, cq := 0, tail := 0, head := 0, blocked := none }), (1, { size := 16, prio := 0, cq := 1, tail := 3, head := 0, blocked := none })], cqs := [(0, { size := 32, vector := 0, ien := true, head := 0, tail := 0 }), (1, { size := 16, vector := 1, ien := true, head := 0, tail := 0 })] }, rl := { Rl.reset with ntReady := List.range 16 } }, by decide +kernel⟩

/-- The hypotheses of clause 3 of MediumFailures are met. -/
theorem witness_MediumFailures_3 :
    (∃ (c d b x : Nat) (s : State), (s.mediaRuns = true) ∧ (c < 128) ∧ (d < 32) ∧ (b < 16640) ∧ (s.mm.spare (spareKey c d) ≠ 0)) :=
  ⟨0, 4, 9, 0, { State.reset with mc := { Mc.reset with phase := .go }, mm := { Mm.reset with replayed := true, namespaces := [(1, { granules := [0], blocks := 262144, attached := true, readOnly := false, key := 1 })] }, qe := { Qe.reset with enabled := true, ready := true, sqs := [(0, { size := 32, prio := 0, cq := 0, tail := 0, head := 0, blocked := none }), (1, { size := 16, prio := 0, cq := 1, tail := 3, head := 0, blocked := none })], cqs := [(0, { size := 32, vector := 0, ien := true, head := 0, tail := 0 }), (1, { size := 16, vector := 1, ien := true, head := 0, tail := 0 })] }, rl := { Rl.reset with ntReady := List.range 16 } }, by decide +kernel⟩

/-- The hypotheses of clause 4 of MediumFailures are met. -/
theorem witness_MediumFailures_4 :
    (∃ (c d b x : Nat) (s : State), (s.mediaRuns = true) ∧ (c < 128) ∧ (d < 32) ∧ (b < 16640) ∧ (6 ≤ d) ∧ (s.mm.occupied (inGroupBlock (groupOf c d) b) = true) ∧ (s.mm.takesUnits (groupOf c d) b x = true) ∧ (s.mm.rowsFree (groupOf c d) x)) :=
  ⟨0, 6, 9, 7, { State.reset with mc := { Mc.reset with phase := .go }, mm := { Mm.reset with replayed := true, namespaces := [(1, { granules := [0], blocks := 262144, attached := true, readOnly := false, key := 1 })], pages := [(0, { stamp := 0, units := [(0, .bulk (bulkLoc 0 6 9 0))], dirty := false })], blocks := [(groupKey 0 9, { FlashBlock.blank with erases := 0, rows := 1 })] }, qe := { Qe.reset with enabled := true, ready := true, sqs := [(0, { size := 32, prio := 0, cq := 0, tail := 0, head := 0, blocked := none }), (1, { size := 16, prio := 0, cq := 1, tail := 3, head := 0, blocked := none })], cqs := [(0, { size := 32, vector := 0, ien := true, head := 0, tail := 0 }), (1, { size := 16, vector := 1, ien := true, head := 0, tail := 0 })] }, rl := { Rl.reset with ntReady := List.range 16 } }, by decide +kernel, by decide, by decide, by decide, by decide, by decide +kernel⟩

/-- The hypotheses of clause 5 of MediumFailures are met. -/
theorem witness_MediumFailures_5 :
    (∃ (c d b x : Nat) (s : State), (s.mediaRuns = true) ∧ (c < 128) ∧ (d < 32) ∧ (b < 16640) ∧ (s.mm.spare (spareKey c d) = 0)) :=
  ⟨0, 6, 9, 0, { State.reset with mc := { Mc.reset with phase := .go }, mm := { Mm.reset with replayed := true, namespaces := [(1, { granules := [0], blocks := 262144, attached := true, readOnly := false, key := 1 })], spares := [(0, 0)] }, qe := { Qe.reset with enabled := true, ready := true, sqs := [(0, { size := 32, prio := 0, cq := 0, tail := 0, head := 0, blocked := none }), (1, { size := 16, prio := 0, cq := 1, tail := 3, head := 0, blocked := none })], cqs := [(0, { size := 32, vector := 0, ien := true, head := 0, tail := 0 }), (1, { size := 16, vector := 1, ien := true, head := 0, tail := 0 })] }, rl := { Rl.reset with ntReady := List.range 16 } }, by decide +kernel⟩

/-- The hypotheses of clause 6 of MediumFailures are met. -/
theorem witness_MediumFailures_6 :
    (∃ (c : Nat) (a : W64) (s : State), (s.mediaRuns = true) ∧ (c < 128)) :=
  ⟨127, 5, { State.reset with mc := { Mc.reset with phase := .go }, mm := { Mm.reset with replayed := true, namespaces := [(1, { granules := [0], blocks := 262144, attached := true, readOnly := false, key := 1 })] }, qe := { Qe.reset with enabled := true, ready := true, sqs := [(0, { size := 32, prio := 0, cq := 0, tail := 0, head := 0, blocked := none }), (1, { size := 16, prio := 0, cq := 1, tail := 3, head := 0, blocked := none })], cqs := [(0, { size := 32, vector := 0, ien := true, head := 0, tail := 0 }), (1, { size := 16, vector := 1, ien := true, head := 0, tail := 0 })] }, rl := { Rl.reset with ntReady := List.range 16 } }, by decide +kernel⟩

/-- The hypotheses of clause 7 of MediumFailures are met. -/
theorem witness_MediumFailures_7 :
    (∃ (c n l k : Nat) (x : Namespace) (s : State), (s.mediaRuns = true) ∧ (c < 128) ∧ (s.mm.namespaces.find n = some x) ∧ (s.mm.flashOf (s.mm.locOf (x.unit (l / 8))) (l % 8) = some k)) :=
  ⟨0, 1, 9, blockKey 0 6 3, { granules := [0], blocks := 262144, attached := true, readOnly := false, key := 1 }, { State.reset with mc := { Mc.reset with phase := .go }, mm := { Mm.reset with replayed := true, namespaces := [(1, { granules := [0], blocks := 262144, attached := true, readOnly := false, key := 1 })], pages := [(0, { stamp := 0, units := [(1, .bulk (bulkLoc 0 6 3 0))], dirty := false })] }, qe := { Qe.reset with enabled := true, ready := true, sqs := [(0, { size := 32, prio := 0, cq := 0, tail := 0, head := 0, blocked := none }), (1, { size := 16, prio := 0, cq := 1, tail := 3, head := 0, blocked := none })], cqs := [(0, { size := 32, vector := 0, ien := true, head := 0, tail := 0 }), (1, { size := 16, vector := 1, ien := true, head := 0, tail := 0 })] } }, by decide +kernel⟩

/-- The hypotheses of clause 8 of MediumFailures are met. -/
theorem witness_MediumFailures_8 :
    (∃ (c n l : Nat) (s : State), (s.mediaRuns = true) ∧ (c < 128)) :=
  ⟨0, 1, 9, { State.reset with mc := { Mc.reset with phase := .go }, mm := { Mm.reset with replayed := true, namespaces := [(1, { granules := [0], blocks := 262144, attached := true, readOnly := false, key := 1 })] }, qe := { Qe.reset with enabled := true, ready := true, sqs := [(0, { size := 32, prio := 0, cq := 0, tail := 0, head := 0, blocked := none }), (1, { size := 16, prio := 0, cq := 1, tail := 3, head := 0, blocked := none })], cqs := [(0, { size := 32, vector := 0, ien := true, head := 0, tail := 0 }), (1, { size := 16, vector := 1, ien := true, head := 0, tail := 0 })] }, rl := { Rl.reset with ntReady := List.range 16 } }, by decide +kernel⟩

/-- The hypotheses of clause 9 of MediumFailures are met. -/
theorem witness_MediumFailures_9 :
    (∃ (b x : Nat) (s : State), (s.vendorLive = true)) :=
  ⟨0, 90, { State.reset with mc := { Mc.reset with phase := .go }, mm := { Mm.reset with replayed := true, namespaces := [(1, { granules := [0], blocks := 262144, attached := true, readOnly := false, key := 1 })] }, qe := { Qe.reset with enabled := true, ready := true, sqs := [(0, { size := 32, prio := 0, cq := 0, tail := 0, head := 0, blocked := none }), (1, { size := 16, prio := 0, cq := 1, tail := 3, head := 0, blocked := none })], cqs := [(0, { size := 32, vector := 0, ien := true, head := 0, tail := 0 }), (1, { size := 16, vector := 1, ien := true, head := 0, tail := 0 })] }, rl := { Rl.reset with ntReady := List.range 16 } }, by decide +kernel⟩

/-- The hypotheses of clause 10 of MediumFailures are met. -/
theorem witness_MediumFailures_10 :
    (∃ (a b : Nat) (s : State), (s.vendorLive = true) ∧ (a < 78) ∧ (b < 78)) :=
  ⟨77, 60, { State.reset with mc := { Mc.reset with phase := .go }, mm := { Mm.reset with replayed := true, namespaces := [(1, { granules := [0], blocks := 262144, attached := true, readOnly := false, key := 1 })], throttle := 1 }, qe := { Qe.reset with enabled := true, ready := true, sqs := [(0, { size := 32, prio := 0, cq := 0, tail := 0, head := 0, blocked := none }), (1, { size := 16, prio := 0, cq := 1, tail := 3, head := 0, blocked := none })], cqs := [(0, { size := 32, vector := 0, ien := true, head := 0, tail := 0 }), (1, { size := 16, vector := 1, ien := true, head := 0, tail := 0 })] } }, by decide +kernel⟩

/-- The hypotheses of clause 11 of MediumFailures are met. -/
theorem witness_MediumFailures_11 :
    (∃ (a b : Nat) (s : State), (s.vendorLive = true)) :=
  ⟨73, 60, { State.reset with mc := { Mc.reset with phase := .go }, mm := { Mm.reset with replayed := true, namespaces := [(1, { granules := [0], blocks := 262144, attached := true, readOnly := false, key := 1 })] }, qe := { Qe.reset with enabled := true, ready := true, sqs := [(0, { size := 32, prio := 0, cq := 0, tail := 0, head := 0, blocked := none }), (1, { size := 16, prio := 0, cq := 1, tail := 3, head := 0, blocked := none })], cqs := [(0, { size := 32, vector := 0, ien := true, head := 0, tail := 0 }), (1, { size := 16, vector := 1, ien := true, head := 0, tail := 0 })] } }, by decide +kernel⟩

/-- The hypotheses of clause 12 of MediumFailures are met. -/
theorem witness_MediumFailures_12 :
    (∃ (s : State), (s.vendorLive = true)) :=
  ⟨{ State.reset with mc := { Mc.reset with phase := .go }, mm := { Mm.reset with replayed := true, namespaces := [(1, { granules := [0], blocks := 262144, attached := true, readOnly := false, key := 1 })] }, qe := { Qe.reset with enabled := true, ready := true, sqs := [(0, { size := 32, prio := 0, cq := 0, tail := 0, head := 0, blocked := none }), (1, { size := 16, prio := 0, cq := 1, tail := 3, head := 0, blocked := none })], cqs := [(0, { size := 32, vector := 0, ien := true, head := 0, tail := 0 }), (1, { size := 16, vector := 1, ien := true, head := 0, tail := 0 })] } }, by decide +kernel⟩

/-- The hypotheses of NearTierProbe are met. -/
theorem witness_NearTierProbe :
    (∃ (s : State), (s.probeLive = true)) ∧
    (∃ (s : State), (s.probeLive = true) ∧ ((s.rl.probeAt s.rl.probeAddr).decoded = .clean)) ∧
    (∃ (s : State), (s.probeLive = true) ∧ ((s.rl.probeAt s.rl.probeAddr).decoded = .one) ∧ (s.ntAll = true) ∧ ((srcStack (probeStack s.rl.probeAddr), kEccCorr, 0) ∉ s.fl.beatPosts)) ∧
    (∃ (s : State), (s.probeLive = true) ∧ (s.ntAll = true)) ∧
    (∃ (a : Nat) (s : State), (s.vendorLive = true) ∧ (0xFC00000000 ≤ a) ∧ (a < 0xFC00010000) ∧ (probeStack (a - 0xFC00000000) ∈ s.rl.ntReady) ∧ ((s.rl.probeAt ((a - 0xFC00000000) / 32 * 32)).decoded = .clean)) ∧
    (∃ (a : Nat) (s : State), (s.vendorLive = true) ∧ (0xFC00000000 ≤ a) ∧ (a < 0xFC00010000) ∧ (a % 32 = 0) ∧ (probeStack (a - 0xFC00000000) ∈ s.rl.ntReady) ∧ ((s.rl.probeAt (a - 0xFC00000000)).decoded = .one) ∧ (s.ntAll = true) ∧ ((srcStack (probeStack (a - 0xFC00000000)), kEccCorr, 0) ∉ s.fl.beatPosts)) ∧
    (∃ (v : W32) (e : DirEntry) (s : State), (s.vendorLive = true) ∧ (s.rl.dir.find v.toNat = some e)) ∧
    (∃ (v : W32) (s : State), (s.vendorLive = true) ∧ (s.rl.dir.find v.toNat = none)) ∧
    (∃ (a : Nat) (s : State), (s.vendorLive = true) ∧ (0xFC00000000 ≤ a) ∧ (a < 0xFC00010000) ∧ (a % 32 = 0) ∧ (probeStack (a - 0xFC00000000) ∈ s.rl.ntReady) ∧ (s.ntAll = true)) :=
  ⟨⟨{ State.reset with mc := { Mc.reset with phase := .go }, qe := { Qe.reset with enabled := true, ready := true, sqs := [(0, { size := 32, prio := 0, cq := 0, tail := 1, head := 0, blocked := none })], cqs := [(0, { size := 32, vector := 0, ien := true, head := 0, tail := 0 })] }, rl := { Rl.reset with ntReady := List.range 16, probeAddr := 4096, flipMask := [(1, 0x00000305)] } }, by decide +kernel⟩,
   ⟨{ State.reset with mc := { Mc.reset with phase := .go }, qe := { Qe.reset with enabled := true, ready := true, sqs := [(0, { size := 32, prio := 0, cq := 0, tail := 1, head := 0, blocked := none })], cqs := [(0, { size := 32, vector := 0, ien := true, head := 0, tail := 0 })] }, rl := { Rl.reset with ntReady := List.range 16, probeAddr := 64 } }, by decide +kernel⟩,
   ⟨{ State.reset with mc := { Mc.reset with phase := .go }, qe := { Qe.reset with enabled := true, ready := true, sqs := [(0, { size := 32, prio := 0, cq := 0, tail := 1, head := 0, blocked := none })], cqs := [(0, { size := 32, vector := 0, ien := true, head := 0, tail := 0 })] }, rl := { Rl.reset with ntReady := List.range 16, probeAddr := 0x1020, probe := [(0x1020, { data := List.replicate 32 9, errs := [(3, 1)], flip := false })] } }, by decide +kernel⟩,
   ⟨{ State.reset with mc := { Mc.reset with phase := .go }, qe := { Qe.reset with enabled := true, ready := true, sqs := [(0, { size := 32, prio := 0, cq := 0, tail := 1, head := 0, blocked := none })], cqs := [(0, { size := 32, vector := 0, ien := true, head := 0, tail := 0 })] }, rl := { Rl.reset with ntReady := List.range 16, probeAddr := 0x1020, probe := [(0x1020, { data := List.replicate 32 9, errs := [], flip := true })] } }, by decide +kernel⟩,
   ⟨0xFC0000FFFF, { State.reset with mc := { Mc.reset with phase := .go }, qe := { Qe.reset with enabled := true, ready := true, sqs := [(0, { size := 32, prio := 0, cq := 0, tail := 1, head := 0, blocked := none })], cqs := [(0, { size := 32, vector := 0, ien := true, head := 0, tail := 0 })] }, rl := { Rl.reset with ntReady := List.range 16 } }, by decide +kernel⟩,
   ⟨0xFC00001020, { State.reset with mc := { Mc.reset with phase := .go }, qe := { Qe.reset with enabled := true, ready := true, sqs := [(0, { size := 32, prio := 0, cq := 0, tail := 1, head := 0, blocked := none })], cqs := [(0, { size := 32, vector := 0, ien := true, head := 0, tail := 0 })] }, rl := { Rl.reset with ntReady := List.range 16, probe := [(0x1020, { data := List.replicate 32 9, errs := [(3, 1)], flip := false })] } }, by decide +kernel⟩,
   ⟨7, objAt 1 none .none .home, { State.reset with mc := { Mc.reset with phase := .go }, qe := { Qe.reset with enabled := true, ready := true, sqs := [(0, { size := 32, prio := 0, cq := 0, tail := 1, head := 0, blocked := none })], cqs := [(0, { size := 32, vector := 0, ien := true, head := 0, tail := 0 })] }, rl := { Rl.reset with ntReady := List.range 16, dir := [(7, objAt 1 none .none .home)] } }, by decide +kernel⟩,
   ⟨7, { State.reset with mc := { Mc.reset with phase := .go }, qe := { Qe.reset with enabled := true, ready := true, sqs := [(0, { size := 32, prio := 0, cq := 0, tail := 1, head := 0, blocked := none })], cqs := [(0, { size := 32, vector := 0, ien := true, head := 0, tail := 0 })] }, rl := { Rl.reset with ntReady := List.range 16 } }, by decide +kernel⟩,
   ⟨0xFC00001020, { State.reset with mc := { Mc.reset with phase := .go }, qe := { Qe.reset with enabled := true, ready := true, sqs := [(0, { size := 32, prio := 0, cq := 0, tail := 1, head := 0, blocked := none })], cqs := [(0, { size := 32, vector := 0, ien := true, head := 0, tail := 0 })] }, rl := { Rl.reset with ntReady := List.range 16, probe := [(0x1020, { data := List.replicate 32 9, errs := [], flip := true })] } }, by decide +kernel⟩⟩

/-- The hypotheses of PeerWindow are met. -/
theorem witness_PeerWindow :
    (∃ (w : Nat) (d : List Byte) (r : Region) (s : State), (s.vendorLive = true) ∧ (0x4000 ≤ w) ∧ (w + d.length ≤ 0x100000) ∧ (d.length = 32) ∧ (bitW s.qe.p2pCfg 31 = true) ∧ (s.region (bitsW s.qe.p2pCfg 9 0) = some r) ∧ (r.kind = 5 ∧ r.tier = 0) ∧ (s.qe.p2pBase.toNat + (w - 0x4000) + 32 ≤ r.size) ∧ ((r.base + (s.qe.p2pBase.toNat + (w - 0x4000))) % 32 = 0) ∧ (s.qe.p2pOpen = [])) ∧
    (∃ (w : Nat) (d : List Byte) (s : State), (s.vendorLive = true) ∧ (0x4000 ≤ w) ∧ (w + d.length ≤ 0x100000) ∧ (bitW s.qe.p2pCfg 31 = false ∨ s.region (bitsW s.qe.p2pCfg 9 0) = none ∨ ∃ r, s.region (bitsW s.qe.p2pCfg 9 0) = some r ∧ (r.kind ≠ 5 ∨ r.size < s.qe.p2pBase.toNat + (w - 0x4000) + d.length))) ∧
    (∃ (w : Nat) (d : List Byte) (r : Region) (s : State), (s.vendorLive = true) ∧ (0x4000 ≤ w) ∧ (w + d.length ≤ 0x100000) ∧ (bitW s.qe.p2pCfg 31 = true) ∧ (s.region (bitsW s.qe.p2pCfg 9 0) = some r) ∧ (r.kind = 5 ∧ r.tier = 0) ∧ (s.qe.p2pBase.toNat + (w - 0x4000) + d.length ≤ r.size) ∧ (0 < d.length) ∧ ((r.base + (s.qe.p2pBase.toNat + (w - 0x4000))) % 32 + d.length < 32)) ∧
    (∃ (s : State), (s.vendorLive = true)) ∧
    (∃ (v : W32) (s : State), (s.vendorLive = true) ∧ (s.qe.p2pOpen = [])) ∧
    (∃ (hi : Bool) (v : W32) (s : State), (s.vendorLive = true)) :=
  ⟨⟨0xFFFE0, List.replicate 32 5, { id := 7, tier := 0, kind := 5, owner := 0, access := 0, base := 0x40000, size := 0xFC000 }, { State.reset with mc := { Mc.reset with phase := .go }, qe := { Qe.reset with enabled := true, ready := true, sqs := [(0, { size := 32, prio := 0, cq := 0, tail := 1, head := 0, blocked := none })], cqs := [(0, { size := 32, vector := 0, ien := true, head := 0, tail := 0 })], p2pCfg := 0x80000007 }, sl := { Sl.reset with set_ := { SquadSet.empty with regions := [{ id := 7, tier := 0, kind := 5, owner := 0, access := 0, base := 0x40000, size := 0xFC000 }] } } }, by decide +kernel⟩,
   ⟨0x4000, [1], { State.reset with mc := { Mc.reset with phase := .go }, qe := { Qe.reset with enabled := true, ready := true, sqs := [(0, { size := 32, prio := 0, cq := 0, tail := 1, head := 0, blocked := none })], cqs := [(0, { size := 32, vector := 0, ien := true, head := 0, tail := 0 })] } }, by decide +kernel, by decide, by decide, Or.inl (by decide +kernel)⟩,
   ⟨0x4003, [5, 6], { id := 7, tier := 0, kind := 5, owner := 0, access := 0, base := 0x40000, size := 0xFC000 }, { State.reset with mc := { Mc.reset with phase := .go }, qe := { Qe.reset with enabled := true, ready := true, sqs := [(0, { size := 32, prio := 0, cq := 0, tail := 1, head := 0, blocked := none })], cqs := [(0, { size := 32, vector := 0, ien := true, head := 0, tail := 0 })], p2pCfg := 0x80000007 }, sl := { Sl.reset with set_ := { SquadSet.empty with regions := [{ id := 7, tier := 0, kind := 5, owner := 0, access := 0, base := 0x40000, size := 0xFC000 }] } } }, by decide +kernel⟩,
   ⟨{ State.reset with mc := { Mc.reset with phase := .go }, qe := { Qe.reset with enabled := true, ready := true, sqs := [(0, { size := 32, prio := 0, cq := 0, tail := 1, head := 0, blocked := none })], cqs := [(0, { size := 32, vector := 0, ien := true, head := 0, tail := 0 })], p2pOpen := [{ addr := 64, bytes := [(3, 9)] }] } }, by decide +kernel⟩,
   ⟨0xFFFFFFFF, { State.reset with mc := { Mc.reset with phase := .go }, qe := { Qe.reset with enabled := true, ready := true, sqs := [(0, { size := 32, prio := 0, cq := 0, tail := 1, head := 0, blocked := none })], cqs := [(0, { size := 32, vector := 0, ien := true, head := 0, tail := 0 })] } }, by decide +kernel⟩,
   ⟨true, 5, { State.reset with mc := { Mc.reset with phase := .go }, qe := { Qe.reset with enabled := true, ready := true, sqs := [(0, { size := 32, prio := 0, cq := 0, tail := 1, head := 0, blocked := none })], cqs := [(0, { size := 32, vector := 0, ien := true, head := 0, tail := 0 })], p2pOpen := [{ addr := 64, bytes := [(3, 9)] }] } }, by decide +kernel⟩⟩

/-- The hypotheses of KeeperCommands are met. -/
theorem witness_KeeperCommands :
    (∃ (q : Nat) (s : State), (s.vendorLive = true) ∧ (q < 64)) ∧
    (∃ (s : State), (s.vendorLive = true)) ∧
    (∃ (v : W32) (e : Keeper) (s : State), (s.vendorLive = true) ∧ (s.ns.table.find (v.toNat % 4194304) = some e)) ∧
    (∃ (v : W32) (s : State), (s.vendorLive = true) ∧ (s.ns.table.find (v.toNat % 4194304) = none)) ∧
    (∃ (q n : Nat) (e : Keeper) (x : Squad) (s : State), (s.ns.table.find (keeperKey q n) = some e) ∧ (s.squadOf q = some x) ∧ (e.waiting ≠ []) ∧ (∀ i ∈ x.tiles, i ∈ e.waiting)) ∧
    (∃ (q n i : Nat) (e : Keeper) (x : Squad) (s : State), (s.ns.table.find (keeperKey q n) = some e) ∧ (s.squadOf q = some x) ∧ (i ∈ x.tiles) ∧ (i ∉ e.waiting)) :=
  ⟨⟨63, { State.reset with mc := { Mc.reset with phase := .go }, qe := { Qe.reset with enabled := true, ready := true, sqs := [(0, { size := 32, prio := 0, cq := 0, tail := 1, head := 0, blocked := none })], cqs := [(0, { size := 32, vector := 0, ien := true, head := 0, tail := 0 })] } }, by decide +kernel⟩,
   ⟨{ State.reset with mc := { Mc.reset with phase := .go }, qe := { Qe.reset with enabled := true, ready := true, sqs := [(0, { size := 32, prio := 0, cq := 0, tail := 1, head := 0, blocked := none })], cqs := [(0, { size := 32, vector := 0, ien := true, head := 0, tail := 0 })] }, ns := { Ns.reset with table := [(131073, { Keeper.fresh with step := some 0x40000000, waiting := [3], hist := [], lastMax := 5 })], satCnt := 5, full := true } }, by decide +kernel⟩,
   ⟨131073, { Keeper.fresh with step := some 0x40000000, waiting := [3], hist := [], lastMax := 5 }, { State.reset with mc := { Mc.reset with phase := .go }, qe := { Qe.reset with enabled := true, ready := true, sqs := [(0, { size := 32, prio := 0, cq := 0, tail := 1, head := 0, blocked := none })], cqs := [(0, { size := 32, vector := 0, ien := true, head := 0, tail := 0 })] }, ns := { Ns.reset with table := [(131073, { Keeper.fresh with step := some 0x40000000, waiting := [3], hist := [], lastMax := 5 })] } }, by decide +kernel⟩,
   ⟨0x3FFFFF, { State.reset with mc := { Mc.reset with phase := .go }, qe := { Qe.reset with enabled := true, ready := true, sqs := [(0, { size := 32, prio := 0, cq := 0, tail := 1, head := 0, blocked := none })], cqs := [(0, { size := 32, vector := 0, ien := true, head := 0, tail := 0 })] } }, by decide +kernel⟩,
   ⟨2, 1, { Keeper.fresh with step := some 0x40000000, waiting := [3], hist := [], lastMax := 5 }, squad 0 [3], { State.reset with mc := { Mc.reset with phase := .go }, qe := { Qe.reset with enabled := true, ready := true, sqs := [(0, { size := 32, prio := 0, cq := 0, tail := 1, head := 0, blocked := none })], cqs := [(0, { size := 32, vector := 0, ien := true, head := 0, tail := 0 })] }, ns := { Ns.reset with table := [(131073, { Keeper.fresh with step := some 0x40000000, waiting := [3], hist := [], lastMax := 5 })] }, sl := { Sl.reset with set_ := { SquadSet.empty with squads := [(2, squad 0 [3])] } } }, by decide +kernel, by decide +kernel, by decide, by decide⟩,
   ⟨2, 1, 4, { Keeper.fresh with step := some 0x40000000, waiting := [3], hist := [], lastMax := 5 }, squad 0 [3, 4], { State.reset with mc := { Mc.reset with phase := .go }, qe := { Qe.reset with enabled := true, ready := true, sqs := [(0, { size := 32, prio := 0, cq := 0, tail := 1, head := 0, blocked := none })], cqs := [(0, { size := 32, vector := 0, ien := true, head := 0, tail := 0 })] }, ns := { Ns.reset with table := [(131073, { Keeper.fresh with step := some 0x40000000, waiting := [3], hist := [], lastMax := 5 })] }, sl := { Sl.reset with set_ := { SquadSet.empty with squads := [(2, squad 0 [3, 4])] } } }, by decide +kernel, by decide +kernel, by decide, by decide⟩⟩

/-- The hypotheses of TilePort are met. -/
theorem witness_TilePort :
    (∃ (n : Nat) (v : W32) (s : State), (s.vendorLive = true) ∧ (n < 1024) ∧ ((s.tile n).portOpen = true) ∧ ((s.tile n).flip = 0)) ∧
    (∃ (n : Nat) (v : W32) (s : State), (s.vendorLive = true) ∧ (n < 1024) ∧ ((s.tile n).squad ≠ none ∨ (s.tile n).swept = false)) ∧
    (∃ (n : Nat) (s : State), (s.vendorLive = true) ∧ (n < 1024) ∧ ((s.tile n).portOpen = true) ∧ ((s.tile n).bad.find (s.tile n).lmAddr = none)) ∧
    (∃ (n : Nat) (s : State), (s.vendorLive = true) ∧ (n < 1024) ∧ ((s.tile n).squad ≠ none ∨ (s.tile n).swept = false)) ∧
    (∃ (n : Nat) (v : W32) (s : State), (s.vendorLive = true) ∧ (n < 1024)) ∧
    (∃ (n : Nat) (v : W32) (s : State), (s.vendorLive = true) ∧ (n < 1024) ∧ ((s.tile n).portOpen = true) ∧ (bitsW (s.tile n).flip 12 0 ≠ 0)) ∧
    (∃ (n : Nat) (s : State), (s.vendorLive = true) ∧ (n < 1024) ∧ ((s.tile n).portOpen = true) ∧ (synOf ((s.tile n).bad.findD (s.tile n).lmAddr 0) = .uncorr)) ∧
    (∃ (n i : Nat) (s : State), (s.vendorLive = true) ∧ (n < 1024) ∧ ((s.tile n).portOpen = true) ∧ (synOf ((s.tile n).bad.findD (s.tile n).lmAddr 0) = .data i ∨ synOf ((s.tile n).bad.findD (s.tile n).lmAddr 0) = .check) ∧ ((s.tile n).flip = 0)) :=
  ⟨⟨5, 0x1FF, { State.reset with mc := { Mc.reset with phase := .go }, qe := { Qe.reset with enabled := true, ready := true, sqs := [(0, { size := 32, prio := 0, cq := 0, tail := 1, head := 0, blocked := none })], cqs := [(0, { size := 32, vector := 0, ien := true, head := 0, tail := 0 })] }, tiles := [(5, { Tile.reset with swept := true, lmAddr := 100, corrCnt := 3, stall := 9, bad := [(200, 3)] })] }, by decide +kernel⟩,
   ⟨1023, 7, { State.reset with mc := { Mc.reset with phase := .go }, qe := { Qe.reset with enabled := true, ready := true, sqs := [(0, { size := 32, prio := 0, cq := 0, tail := 1, head := 0, blocked := none })], cqs := [(0, { size := 32, vector := 0, ien := true, head := 0, tail := 0 })] } }, by decide +kernel⟩,
   ⟨5, { State.reset with mc := { Mc.reset with phase := .go }, qe := { Qe.reset with enabled := true, ready := true, sqs := [(0, { size := 32, prio := 0, cq := 0, tail := 1, head := 0, blocked := none })], cqs := [(0, { size := 32, vector := 0, ien := true, head := 0, tail := 0 })] }, tiles := [(5, { Tile.reset with swept := true, lmAddr := 100, corrCnt := 3, stall := 9, bad := [(200, 3)] })] }, by decide +kernel⟩,
   ⟨0, { State.reset with mc := { Mc.reset with phase := .go }, qe := { Qe.reset with enabled := true, ready := true, sqs := [(0, { size := 32, prio := 0, cq := 0, tail := 1, head := 0, blocked := none })], cqs := [(0, { size := 32, vector := 0, ien := true, head := 0, tail := 0 })] } }, by decide +kernel⟩,
   ⟨5, 0x12345, { State.reset with mc := { Mc.reset with phase := .go }, qe := { Qe.reset with enabled := true, ready := true, sqs := [(0, { size := 32, prio := 0, cq := 0, tail := 1, head := 0, blocked := none })], cqs := [(0, { size := 32, vector := 0, ien := true, head := 0, tail := 0 })] }, tiles := [(5, { Tile.reset with swept := true, lmAddr := 100, corrCnt := 3, stall := 9, bad := [(200, 3)] })] }, by decide +kernel⟩,
   ⟨5, 7, { State.reset with mc := { Mc.reset with phase := .go }, qe := { Qe.reset with enabled := true, ready := true, sqs := [(0, { size := 32, prio := 0, cq := 0, tail := 1, head := 0, blocked := none })], cqs := [(0, { size := 32, vector := 0, ien := true, head := 0, tail := 0 })] }, tiles := [(5, { Tile.reset with swept := true, lmAddr := 100, corrCnt := 3, stall := 9, flip := 0x101, bad := [(200, 3)] })] }, by decide +kernel⟩,
   ⟨5, { State.reset with mc := { Mc.reset with phase := .go }, qe := { Qe.reset with enabled := true, ready := true, sqs := [(0, { size := 32, prio := 0, cq := 0, tail := 1, head := 0, blocked := none })], cqs := [(0, { size := 32, vector := 0, ien := true, head := 0, tail := 0 })] }, tiles := [(5, { Tile.reset with swept := true, lmAddr := 100, corrCnt := 3, stall := 9, bad := [(100, 31)] })], rl := { Rl.reset with ntReady := List.range 16 } }, by decide +kernel, by decide, by decide +kernel, synOf_31⟩,
   ⟨5, 0, { State.reset with mc := { Mc.reset with phase := .go }, qe := { Qe.reset with enabled := true, ready := true, sqs := [(0, { size := 32, prio := 0, cq := 0, tail := 1, head := 0, blocked := none })], cqs := [(0, { size := 32, vector := 0, ien := true, head := 0, tail := 0 })] }, tiles := [(5, { Tile.reset with swept := true, lmAddr := 100, corrCnt := 3, stall := 9, bad := [(100, 1)] })] }, by decide +kernel, by decide, by decide +kernel, Or.inr (by decide +kernel), by decide +kernel⟩⟩

/-- The hypotheses of RegisterReadsAndWrites are met. -/
theorem witness_RegisterReadsAndWrites :
    (∃ (f : Nat) (s : State), (isLow f = true) ∧ (s.answers f = true)) ∧
    (∃ (f : Nat) (s t u : State), (isLow f = true) ∧ (s.answers f = true) ∧ (exec (.reg64LowRead { fn := 0, bar := 0, off := f }) s = .next t) ∧ (u.latchHi = t.latchHi) ∧ (u.answers (f + 4) = true)) ∧
    (∃ (v : W32) (s : State), (s.vendorLive = true)) ∧
    (∃ (f : Nat) (d : List Byte) (s : State), (isVendor f = true) ∧ (d.length ≠ 4 ∨ f % 4 ≠ 0 ∨ s.answers f = false)) ∧
    (∃ (f : Nat) (d : List Byte) (s : State), (s.vendorLive = true) ∧ (0x1000 ≤ f) ∧ (f + d.length ≤ 0x100000)) ∧
    (∃ (n : Nat) (s : State), (s.vendorLive = true) ∧ (n < 1024)) ∧
    (∃ (v : W32) (r : List W32) (s : State), (s.vendorLive = true) ∧ ((s.lapsOf (bitsW v 5 0)).split[bitsW v 15 8]? = some r)) :=
  ⟨⟨0x180050, { State.reset with mc := { Mc.reset with phase := .go }, qe := { Qe.reset with enabled := true, ready := true, sqs := [(0, { size := 32, prio := 0, cq := 0, tail := 1, head := 0, blocked := none })], cqs := [(0, { size := 32, vector := 0, ien := true, head := 0, tail := 0 })] } }, by decide +kernel⟩,
   ⟨0x180050, { State.reset with mc := { Mc.reset with phase := .go }, qe := { Qe.reset with enabled := true, ready := true, sqs := [(0, { size := 32, prio := 0, cq := 0, tail := 1, head := 0, blocked := none })], cqs := [(0, { size := 32, vector := 0, ien := true, head := 0, tail := 0 })] } }, { { State.reset with mc := { Mc.reset with phase := .go }, qe := { Qe.reset with enabled := true, ready := true, sqs := [(0, { size := 32, prio := 0, cq := 0, tail := 1, head := 0, blocked := none })], cqs := [(0, { size := 32, vector := 0, ien := true, head := 0, tail := 0 })] } } with busRead := leBytes 0 4, latchHi := [(0x180054, 0)] }, { { State.reset with mc := { Mc.reset with phase := .go }, qe := { Qe.reset with enabled := true, ready := true, sqs := [(0, { size := 32, prio := 0, cq := 0, tail := 1, head := 0, blocked := none })], cqs := [(0, { size := 32, vector := 0, ien := true, head := 0, tail := 0 })] } } with latchHi := [(0x180054, 0)], mm := { Mm.reset with hostWritten := 2 ^ 32 } }, by decide +kernel, by decide +kernel, by rfl, by rfl, by decide +kernel⟩,
   ⟨0x12345678, { State.reset with mc := { Mc.reset with phase := .go }, qe := { Qe.reset with enabled := true, ready := true, sqs := [(0, { size := 32, prio := 0, cq := 0, tail := 1, head := 0, blocked := none })], cqs := [(0, { size := 32, vector := 0, ien := true, head := 0, tail := 0 })] } }, by decide +kernel⟩,
   ⟨0x110024, [1, 2, 3, 4, 5, 6, 7, 8], State.reset, by decide +kernel⟩,
   ⟨0xFFFFF, [9], { State.reset with mc := { Mc.reset with phase := .go }, qe := { Qe.reset with enabled := true, ready := true, sqs := [(0, { size := 32, prio := 0, cq := 0, tail := 1, head := 0, blocked := none })], cqs := [(0, { size := 32, vector := 0, ien := true, head := 0, tail := 0 })] } }, by decide +kernel⟩,
   ⟨5, { State.reset with mc := { Mc.reset with phase := .go }, qe := { Qe.reset with enabled := true, ready := true, sqs := [(0, { size := 32, prio := 0, cq := 0, tail := 1, head := 0, blocked := none })], cqs := [(0, { size := 32, vector := 0, ien := true, head := 0, tail := 0 })] }, tiles := [(5, { Tile.reset with swept := true, lmAddr := 100, corrCnt := 3, stall := 9, bad := [(200, 3)] })] }, by decide +kernel⟩,
   ⟨0, [1, 2, 3, 4, 5, 6, 7, 8], { State.reset with mc := { Mc.reset with phase := .go }, qe := { Qe.reset with enabled := true, ready := true, sqs := [(0, { size := 32, prio := 0, cq := 0, tail := 1, head := 0, blocked := none })], cqs := [(0, { size := 32, vector := 0, ien := true, head := 0, tail := 0 })] }, jd := { Jd.reset with laps := [(0, { LapState.blank with split := [[1, 2, 3, 4, 5, 6, 7, 8]] })] } }, by decide +kernel⟩⟩

/-- The hypotheses of PowerStates are met. -/
theorem witness_PowerStates :
    (∃ (n : Nat) (s : State), (s.inGo = true) ∧ (s.qe.psWant = some n) ∧ (n ≠ s.qe.ps) ∧ (s.qe.ps ≠ 4) ∧ (s.qe.psAuto = false ∨ n < 3 ∨ s.apstRuns = true) ∧ (2 ≤ n → s.panelIdle = true) ∧ (3 ≤ n → s.anyAdmitted = false)) ∧
    (∃ (s : State), (s.inGo = true) ∧ (s.qe.psWant = some 4) ∧ (s.qe.ps ≠ 4) ∧ (s.qe.psAuto = false) ∧ (s.panelIdle = true) ∧ (s.anyAdmitted = false)) ∧
    (∃ (n : Nat) (s : State), (s.inGo = true) ∧ (s.qe.psWant = some n)) ∧
    (∃ (n : Nat) (s : State), (s.inGo = true) ∧ (s.qe.psWant = some n) ∧ (n ≠ s.qe.ps) ∧ (s.qe.psAuto = false) ∧ ((2 ≤ n ∧ s.panelIdle = false) ∨ (3 ≤ n ∧ s.anyAdmitted = true))) ∧
    (∃ (s : State), (s.inGo = false ∨ s.qe.psWant = none)) ∧
    (∃ (n k : Nat) (s : State), (s.apstRuns = true) ∧ (n = 3 ∨ n = 4) ∧ (s.qe.apst.find s.qe.ps = some (n, k))) ∧
    (∃ (n : Nat) (s : State), (s.apstRuns = false ∨ n ≠ 3 ∧ n ≠ 4 ∨ (s.qe.apst.find s.qe.ps).map Prod.fst ≠ some n)) :=
  ⟨⟨2, { State.reset with mc := { Mc.reset with phase := .go }, qe := { Qe.reset with enabled := true, ready := true, sqs := [(0, { size := 32, prio := 0, cq := 0, tail := 1, head := 0, blocked := none })], cqs := [(0, { size := 32, vector := 0, ien := true, head := 0, tail := 0 })], psWant := some 2 } }, by decide +kernel⟩,
   ⟨{ State.reset with mc := { Mc.reset with phase := .go }, qe := { Qe.reset with enabled := true, ready := true, sqs := [(0, { size := 32, prio := 0, cq := 0, tail := 1, head := 0, blocked := none })], cqs := [(0, { size := 32, vector := 0, ien := true, head := 0, tail := 0 })], psWant := some 4 } }, by decide +kernel⟩,
   ⟨4, { State.reset with mc := { Mc.reset with phase := .go }, qe := { Qe.reset with enabled := true, ready := true, sqs := [(0, { size := 32, prio := 0, cq := 0, tail := 1, head := 0, blocked := none })], cqs := [(0, { size := 32, vector := 0, ien := true, head := 0, tail := 0 })], psWant := some 4, ps := 4 } }, by decide +kernel⟩,
   ⟨2, { { State.reset with mc := { Mc.reset with phase := .go }, qe := { Qe.reset with enabled := true, ready := true, sqs := [(0, { size := 32, prio := 0, cq := 0, tail := 1, head := 0, blocked := none })], cqs := [(0, { size := 32, vector := 0, ien := true, head := 0, tail := 0 })], psWant := some 2 } } with jd := { Jd.reset with laps := [(0, { LapState.blank with flight := some (lapOf 0 1) })] } }, by decide +kernel, by decide +kernel, by decide, by decide +kernel, Or.inl ⟨by decide, by decide +kernel⟩⟩,
   ⟨State.reset, by decide +kernel⟩,
   ⟨3, 100, { State.reset with mc := { Mc.reset with phase := .go }, qe := { Qe.reset with enabled := true, ready := true, sqs := [(0, { size := 32, prio := 0, cq := 0, tail := 1, head := 0, blocked := none })], cqs := [(0, { size := 32, vector := 0, ien := true, head := 0, tail := 0 })], apstOn := true, apst := [(0, (3, 100))] } }, by decide +kernel⟩,
   ⟨3, { State.reset with mc := { Mc.reset with phase := .go }, qe := { Qe.reset with enabled := true, ready := true, sqs := [(0, { size := 32, prio := 0, cq := 0, tail := 1, head := 0, blocked := none })], cqs := [(0, { size := 32, vector := 0, ien := true, head := 0, tail := 0 })] } }, Or.inl rfl⟩⟩

/-- The hypotheses of JobSubmission are met. -/
theorem witness_JobSubmission :
    (∃ (c : CmdId) (sub : Submit) (n : Nat) (s : State), (s.submits c 1 sub n)) ∧
    (∃ (c : CmdId) (sub : Submit) (n : Nat) (s : State), (s.submits c 2 sub n)) ∧
    (∃ (c : CmdId) (sub : Submit) (n : Nat) (s : State), (s.submits c 0x20 sub n)) ∧
    (∃ (c : CmdId) (sub : Submit) (qs : List (List Byte)) (n : Nat) (q : Squad) (s : State), (s.submits c 3 sub n) ∧ (s.squadOf n = some q) ∧ (s.job s.jd.nextTag = none) ∧ ((s.pickContexts (s.newJob c 3 n sub [] qs) q).isSome = true)) ∧
    (∃ (c : CmdId) (sub : Submit) (qs : List (List Byte)) (n : Nat) (q : Squad) (s : State), (s.submits c 3 sub n) ∧ (s.squadOf n = some q) ∧ (s.job s.jd.nextTag = none) ∧ (searchForm (s.newJob c 3 n sub [] qs) = true) ∧ (s.pickContexts (s.newJob c 3 n sub [] qs) q = none)) ∧
    (∃ (c : CmdId) (sub : Submit) (qs : List (List Byte)) (n : Nat) (s : State), (s.serves c .io) ∧ (s.inBlocks = true) ∧ (s.submitCheck c 3 sub = .inr n) ∧ (s.job s.jd.nextTag = none)) ∧
    (∃ (c : CmdId) (sub : Submit) (qs : List (List Byte)) (s : State), (s.canFetch c = true) ∧ (s.job s.jd.nextTag = none) ∧ (s.inGo = true)) ∧
    (∃ (c : CmdId) (sub : Submit) (qs : List (List Byte)) (st : Nat) (s : State), (s.canFetch c = true) ∧ (s.job s.jd.nextTag = none)) :=
  ⟨⟨{ sq := 0, cid := 7 }, subOf 1 (scanRest 512 1 4096), 2, goScan [], by decide +kernel⟩,
   ⟨{ sq := 0, cid := 7 }, subOf 2 [], 2, goScan [], by decide +kernel⟩,
   ⟨{ sq := 0, cid := 7 }, subOf 0x20 [], 2, goJobs 4 [], by decide +kernel⟩,
   ⟨{ sq := 0, cid := 7 }, subOf 3 (leBytes 0 62 ++ [1, 0] ++ leBytes 1 2 ++ leBytes 1 2 ++ leBytes 128 2), [[]], 2, squad 2 [3], goJobs 2 [], by decide +kernel⟩,
   ⟨{ sq := 0, cid := 7 }, subOf 3 (leBytes 0 62 ++ [64, 0] ++ leBytes 1 2 ++ leBytes 1 2 ++ leBytes 128 2), [[]], 2, squad 2 [3], goJobs 2 [], by decide +kernel⟩,
   ⟨{ sq := 0, cid := 7 }, subOf 3 (leBytes 0 62 ++ [1, 0] ++ leBytes 1 2 ++ leBytes 1 2 ++ leBytes 128 2), [[]], 2, { goJobs 2 [] with mc := { Mc.reset with phase := .blocks }, mm := { Mm.reset with replayed := true } }, by decide +kernel⟩,
   ⟨{ sq := 0, cid := 7 }, { prp1 := 0, d10 := 0x201, desc := [1, 2] }, [], goScan [], by decide +kernel⟩,
   ⟨{ sq := 0, cid := 7 }, subOf 1 [], [], 0, { goJobs 1 [] with mc := { Mc.reset with phase := .halted } }, by decide +kernel⟩⟩

/-- The hypotheses of clause 1 of JobAdmissionCancelAndRestart are met. -/
theorem witness_JobAdmissionCancelAndRestart_1 :
    (∃ (tag : Nat) (j : Job) (s : State), (s.job tag = some j) ∧ (j.kind = 1 ∨ j.kind = 2) ∧ (j.state = .queued) ∧ (s.mayAdmit j = true) ∧ (s.itsTurn j = true) ∧ (s.scanChecks j = true) ∧ (j.snapField = 0 ∨ s.snapFloor ≤ j.snapField ∧ j.snapField ≤ s.mm.epoch) ∧ (s.objectsReady j.embedObjects = true)) :=
  ⟨1, jobWith 1 { sq := 0, cid := 9 } .queued (scanRest 512 1 4096), goScan [jobWith 1 { sq := 0, cid := 9 } .queued (scanRest 512 1 4096)], by decide +kernel, Or.inl (by decide +kernel), by decide +kernel⟩

/-- The hypotheses of clause 2 of JobAdmissionCancelAndRestart are met. -/
theorem witness_JobAdmissionCancelAndRestart_2 :
    (∃ (tag : Nat) (j : Job) (s : State), (s.job tag = some j) ∧ (j.kind = 1 ∨ j.kind = 2) ∧ (j.state = .queued) ∧ (s.mayAdmit j = true) ∧ (s.itsTurn j = true) ∧ (s.scanChecks j = false ∨ (j.snapField ≠ 0 ∧ (j.snapField < s.snapFloor ∨ s.mm.epoch < j.snapField))) ∧ (j.c ∈ s.qe.fetched) ∧ (s.qe.fetched.Nodup)) :=
  ⟨1, jobWith 1 { sq := 0, cid := 9 } .queued (scanRest 512 7 4096), goScan [jobWith 1 { sq := 0, cid := 9 } .queued (scanRest 512 7 4096)], by decide +kernel, Or.inl (by decide +kernel), by decide +kernel, by decide +kernel, by decide +kernel, Or.inl (by decide +kernel), by decide +kernel⟩

/-- The hypotheses of clause 3 of JobAdmissionCancelAndRestart are met. -/
theorem witness_JobAdmissionCancelAndRestart_3 :
    (∃ (tag : Nat) (j : Job) (s : State), (s.job tag = some j) ∧ (j.kind = 2) ∧ (s.scanChecks j = true) ∧ (s.snapshotFor j = some s.mm.epoch) ∧ (s.objectsReady j.embedObjects = false)) :=
  ⟨1, embedNine, { goScan [embedNine] with sl := { Sl.reset with set_ := { SquadSet.empty with squads := [(2, { squad 1 [3] with layouts := layoutsFix, templates := [[]] })] } }, rl := { Rl.reset with dir := [(9, { objAt 1 none .none .home with discardPending := true })] } }, by decide +kernel⟩

/-- The hypotheses of clause 4 of JobAdmissionCancelAndRestart are met. -/
theorem witness_JobAdmissionCancelAndRestart_4 :
    (∃ (tag : Nat) (j : Job) (s : State), (s.job tag = some j) ∧ (j.state ≠ .queued ∨ s.mayAdmit j = false ∨ s.itsTurn j = false)) :=
  ⟨1, jobWith 1 { sq := 0, cid := 9 } .queued (scanRest 512 1 4096), goJobs 2 [jobWith 1 { sq := 0, cid := 9 } .queued (scanRest 512 1 4096), jobWith 1 { sq := 0, cid := 9 } .restart []], by decide +kernel⟩

/-- The hypotheses of clause 5 of JobAdmissionCancelAndRestart are met. -/
theorem witness_JobAdmissionCancelAndRestart_5 :
    (∃ (c x : CmdId) (s : State), (s.serves c .io) ∧ (∀ j ∈ s.jd.jobs, j.c ≠ x)) :=
  ⟨{ sq := 0, cid := 7 }, { sq := 0, cid := 9 }, goScan [], by decide +kernel⟩

/-- The hypotheses of clause 6 of JobAdmissionCancelAndRestart are met. -/
theorem witness_JobAdmissionCancelAndRestart_6 :
    (∃ (c : CmdId) (j : Job) (s : State), (s.serves c .io) ∧ (s.jd.jobs = [j]) ∧ (j.state = .queued) ∧ (j.stop = none) ∧ (j.c ∈ s.qe.fetched)) :=
  ⟨{ sq := 0, cid := 7 }, jobWith 2 { sq := 0, cid := 9 } .queued [], goScan [jobWith 2 { sq := 0, cid := 9 } .queued []], by decide +kernel⟩

/-- The hypotheses of clause 7 of JobAdmissionCancelAndRestart are met. -/
theorem witness_JobAdmissionCancelAndRestart_7 :
    (∃ (c : CmdId) (j : Job) (s : State), (s.serves c .io) ∧ (s.jd.jobs = [j]) ∧ (j.state = .admitted) ∧ (j.kind = 1 ∨ j.kind = 2 ∨ j.kind = 3) ∧ (j.c ∈ s.qe.fetched) ∧ (s.qe.fetched.Nodup)) :=
  ⟨{ sq := 0, cid := 7 }, scanning 512 1, goScan [scanning 512 1], by decide +kernel, by decide +kernel, by decide +kernel, Or.inl (by decide +kernel), by decide +kernel⟩

/-- The hypotheses of clause 8 of JobAdmissionCancelAndRestart are met. -/
theorem witness_JobAdmissionCancelAndRestart_8 :
    (∃ (tag : Nat) (j : Job) (s : State), (s.job tag = some j) ∧ (j.state = .restart) ∧ (s.mayAdmit j = true) ∧ (j.kind ≠ 3)) :=
  ⟨1, jobWith 1 { sq := 0, cid := 9 } .restart (scanRest 512 1 4096), goScan [jobWith 1 { sq := 0, cid := 9 } .restart (scanRest 512 1 4096)], by decide +kernel⟩

/-- The hypotheses of clause 9 of JobAdmissionCancelAndRestart are met. -/
theorem witness_JobAdmissionCancelAndRestart_9 :
    (∃ (tag : Nat) (j : Job) (q : Squad) (s : State), (s.job tag = some j) ∧ (j.state = .restart) ∧ (s.mayAdmit j = true) ∧ (j.kind = 3) ∧ (s.squadOf j.squad = some q)) :=
  ⟨1, jobWith 3 { sq := 0, cid := 9 } .restart (leBytes 0 56 ++ leBytes 1 4), squad 2 [3], goJobs 2 [jobWith 3 { sq := 0, cid := 9 } .restart (leBytes 0 56 ++ leBytes 1 4)], by decide +kernel⟩

/-- The hypotheses of clause 10 of JobAdmissionCancelAndRestart are met. -/
theorem witness_JobAdmissionCancelAndRestart_10 :
    (∃ (tag : Nat) (s : State), (∀ j, s.job tag = some j → j.state ≠ .restart ∨ s.mayAdmit j = false)) :=
  ⟨9, State.reset, by intro j h; cases h⟩

/-- The hypotheses of ScanExtents are met. -/
theorem witness_ScanExtents :
    (∃ (tag e : Nat) (es : List EmbedOut) (j : Job) (y : Layout) (o : ExtentOut) (s : State), (s.extentRuns tag e j y) ∧ (o = s.extentOut j y (s.passing j (s.extentRecs j y e).1) es) ∧ (j.kind = 1) ∧ (j.u8 97 = 3) ∧ (j.target = 0) ∧ (j.stop = none) ∧ (∃ k, k < j.extents ∧ k ≠ e ∧ k ∉ j.scan.delivered)) ∧
    (∃ (tag e : Nat) (es : List EmbedOut) (j : Job) (y : Layout) (o : ExtentOut) (s : State), (s.extentRuns tag e j y) ∧ (o = s.extentOut j y (s.passing j (s.extentRecs j y e).1) es) ∧ (j.kind = 1 ∨ j.kind = 2) ∧ (j.isAggregate = false) ∧ (j.target = 0) ∧ (j.stop = none) ∧ (o.items.flatten.length + 32 + 31 ≤ 262144) ∧ (j.scan.bytesOut + (chunkBytes e (j.extentStart e) (if j.kind = 1 then j.u8 97 else 4) j.attempt (1 + 2 * b2n ((s.extentRecs j y e).2 != 0)) (s.extentRecs j y e).2 o.items).length ≤ j.resultLen) ∧ (∃ k, k < j.extents ∧ k ≠ e ∧ k ∉ j.scan.delivered)) ∧
    (∃ (tag e : Nat) (es : List EmbedOut) (j : Job) (y : Layout) (o : ExtentOut) (s : State), (s.extentRuns tag e j y) ∧ (o = s.extentOut j y (s.passing j (s.extentRecs j y e).1) es) ∧ (j.kind = 1 ∨ j.kind = 2) ∧ (j.isAggregate = false) ∧ (j.target = 0) ∧ (j.stop = none ∨ j.stop = some 3) ∧ (o.items.flatten.length + 32 + 31 ≤ 262144) ∧ (j.scan.bytesOut + (chunkBytes e (j.extentStart e) (if j.kind = 1 then j.u8 97 else 4) j.attempt (1 + 2 * b2n ((s.extentRecs j y e).2 != 0)) (s.extentRecs j y e).2 o.items).length ≤ j.resultLen) ∧ (j.extents ≤ lowestFree (insertNat e j.scan.delivered) 0) ∧ (j.c ∈ s.qe.fetched) ∧ (s.qe.fetched.Nodup)) ∧
    (∃ (tag e : Nat) (es : List EmbedOut) (j : Job) (y : Layout) (o : ExtentOut) (s : State), (s.extentRuns tag e j y) ∧ (o = s.extentOut j y (s.passing j (s.extentRecs j y e).1) es) ∧ (j.kind = 1 ∨ j.kind = 2) ∧ (j.isAggregate = false) ∧ (j.target = 0) ∧ (j.stop = none) ∧ (o.items.flatten.length + 32 + 31 ≤ 262144) ∧ (j.resultLen < j.scan.bytesOut + (chunkBytes e (j.extentStart e) (if j.kind = 1 then j.u8 97 else 4) j.attempt (1 + 2 * b2n ((s.extentRecs j y e).2 != 0)) (s.extentRecs j y e).2 o.items).length) ∧ (j.scan.issued = [e]) ∧ (j.allDelivered = false) ∧ (j.c ∈ s.qe.fetched) ∧ (s.qe.fetched.Nodup)) ∧
    (∃ (tag e : Nat) (es : List EmbedOut) (j : Job) (y : Layout) (o : ExtentOut) (s : State), (s.extentRuns tag e j y) ∧ (o = s.extentOut j y (s.passing j (s.extentRecs j y e).1) es) ∧ (j.kind = 2) ∧ (j.target = 2) ∧ (j.stop = none) ∧ (j.allDelivered = false)) ∧
    (∃ (tag e : Nat) (es : List EmbedOut) (j : Job) (y : Layout) (a : Nat) (s : State), (s.jobsRun = true) ∧ (s.job tag = some j) ∧ (e ∈ j.scan.issued) ∧ (s.jobLayout j = some y) ∧ (s.extentBad j y e (s.extentRecs j y e).1 = some a) ∧ (j.kind = 1 ∨ j.kind = 2) ∧ (j.c ∈ s.qe.fetched) ∧ (s.qe.fetched.Nodup)) ∧
    (∃ (tag e : Nat) (es : List EmbedOut) (s : State), (s.jobsRun = false ∨ ∀ j, s.job tag = some j → e ∉ j.scan.issued)) :=
  ⟨⟨1, 0, [], scanning 512 3, layoutFix, _, goScan [scanning 512 3], by decide +kernel, rfl, by decide +kernel, by decide +kernel, by decide +kernel, by decide +kernel, ⟨1, (by decide +kernel), by decide, by decide +kernel⟩⟩,
   ⟨1, 0, [], scanWide, layoutFix, _, goScan [scanWide], by decide +kernel, rfl, Or.inl (by decide +kernel), by decide +kernel, by decide +kernel, by decide +kernel, by decide +kernel, (by decide +kernel), ⟨1, by decide +kernel, by decide, by decide +kernel⟩⟩,
   ⟨1, 0, [], scanning 1 1, layoutFix, _, goScan [scanning 1 1], by decide +kernel, rfl, Or.inl (by decide +kernel), by decide +kernel, by decide +kernel, Or.inl (by decide +kernel), by decide +kernel⟩,
   ⟨1, 0, [], { scanning 1 1 with desc := (jobWith 1 { sq := 0, cid := 9 } .admitted (scanRest 1 1 0)).desc }, layoutFix, _, goScan [{ scanning 1 1 with desc := (jobWith 1 { sq := 0, cid := 9 } .admitted (scanRest 1 1 0)).desc }], by decide +kernel, rfl, Or.inl (by decide +kernel), by decide +kernel⟩,
   ⟨1, 1, [], embedSide, layoutFix, _, goScan [embedSide], by decide +kernel, rfl, by decide +kernel⟩,
   ⟨1, 0, [], scanning 1 1, layoutFix, 0, { goScan [scanning 1 1] with mm := { (goScan []).mm with badBlocks := [(1, 0)] } }, by decide +kernel, by decide +kernel, by decide +kernel, by decide +kernel, by decide +kernel, Or.inl (by decide +kernel), (by decide +kernel)⟩,
   ⟨1, 5, [], goScan [scanning 1 1], Or.inr (by decide +kernel)⟩⟩

/-- The hypotheses of clause 1 of IndexChanges are met. -/
theorem witness_IndexChanges_1 :
    (∃ (c : CmdId) (sub : Submit) (d : List Byte) (n : Nat) (x : Index) (j : Job) (s : State), (s.submits c 4 sub n) ∧ (j = s.newJob c 4 n sub d []) ∧ (s.admitsAtOnce j) ∧ (s.idx.find (j.u32 64) = some x) ∧ (s.admitAppend j = .inr s) ∧ (s.fits { x with open_ := x.open_ ++ j.changes (sbBits x.super) } (s.stagedItems x.region) 0 = true)) :=
  ⟨{ sq := 0, cid := 7 }, subOf 4 (appendRest 128 1), leBytes 7 32, 2, idxWith [], (goIndex (idxWith []) []).newJob { sq := 0, cid := 7 } 4 2 (subOf 4 (appendRest 128 1)) (leBytes 7 32) [], goIndex (idxWith []) [], by decide +kernel, rfl, ⟨fun _ hj => absurd hj List.not_mem_nil, by decide +kernel, by decide +kernel⟩, by decide +kernel, by rfl, by decide +kernel⟩

/-- The hypotheses of clause 2 of IndexChanges are met. -/
theorem witness_IndexChanges_2 :
    (∃ (c : CmdId) (sub : Submit) (d : List Byte) (n : Nat) (x : Index) (j : Job) (s : State), (s.submits c 5 sub n) ∧ (j = s.newJob c 5 n sub d []) ∧ (s.admitsAtOnce j) ∧ (s.idx.find (j.u32 64) = some x) ∧ (s.admitAppend j = .inr s) ∧ (s.fits { x with open_ := x.open_ ++ j.changes (sbBits x.super) } (s.stagedItems x.region) 0 = true)) :=
  ⟨{ sq := 0, cid := 7 }, subOf 5 (appendRest 0 1), leBytes 7 8, 2, idxWith [], (goIndex (idxWith []) []).newJob { sq := 0, cid := 7 } 5 2 (subOf 5 (appendRest 0 1)) (leBytes 7 8) [], goIndex (idxWith []) [], by decide +kernel, rfl, ⟨fun _ hj => absurd hj List.not_mem_nil, by decide +kernel, by decide +kernel⟩, by decide +kernel, by rfl, by decide +kernel⟩

/-- The hypotheses of clause 3 of IndexChanges are met. -/
theorem witness_IndexChanges_3 :
    (∃ (c : CmdId) (sub : Submit) (d : List Byte) (n : Nat) (x : Index) (j : Job) (k : Nat) (s : State), (s.submits c 4 sub n) ∧ (j = s.newJob c 4 n sub d []) ∧ (s.admitsAtOnce j) ∧ (s.idx.find (j.u32 64) = some x) ∧ (s.admitAppend j = .inr s) ∧ (k < j.u32 72) ∧ (s.fits { x with open_ := x.open_ ++ (j.changes (sbBits x.super)).take k } (s.stagedItems x.region) 0 = true) ∧ (s.fits { x with open_ := x.open_ ++ (j.changes (sbBits x.super)).take (k + 1) } (s.stagedItems x.region) 0 = false)) :=
  ⟨{ sq := 0, cid := 7 }, subOf 4 (appendRest 128 1), leBytes 7 32, 2, idxWith [], ({ goIndex (idxWith []) [] with sl := { Sl.reset with set_ := { SquadSet.empty with squads := [(2, squad 2 [3])], regions := [{ id := 7, tier := 0, kind := 6, owner := 2, access := 0, base := 0x40000, size := 0x1000 }] } } }).newJob { sq := 0, cid := 7 } 4 2 (subOf 4 (appendRest 128 1)) (leBytes 7 32) [], 0, { goIndex (idxWith []) [] with sl := { Sl.reset with set_ := { SquadSet.empty with squads := [(2, squad 2 [3])], regions := [{ id := 7, tier := 0, kind := 6, owner := 2, access := 0, base := 0x40000, size := 0x1000 }] } } }, by decide +kernel, rfl, ⟨fun _ hj => absurd hj List.not_mem_nil, by decide +kernel, by decide +kernel⟩, by decide +kernel, by rfl, by decide +kernel⟩

/-- The hypotheses of clause 4 of IndexChanges are met. -/
theorem witness_IndexChanges_4 :
    (∃ (c : CmdId) (sub : Submit) (d : List Byte) (n : Nat) (x : Index) (j : Job) (k : Nat) (s : State), (s.submits c 5 sub n) ∧ (j = s.newJob c 5 n sub d []) ∧ (s.admitsAtOnce j) ∧ (s.idx.find (j.u32 64) = some x) ∧ (s.admitAppend j = .inr s) ∧ (k < j.u32 72) ∧ (s.fits { x with open_ := x.open_ ++ (j.changes (sbBits x.super)).take k } (s.stagedItems x.region) 0 = true) ∧ (s.fits { x with open_ := x.open_ ++ (j.changes (sbBits x.super)).take (k + 1) } (s.stagedItems x.region) 0 = false)) :=
  ⟨{ sq := 0, cid := 7 }, subOf 5 (appendRest 0 1), leBytes 7 8, 2, idxWith [], ({ goIndex (idxWith []) [] with sl := { Sl.reset with set_ := { SquadSet.empty with squads := [(2, squad 2 [3])], regions := [{ id := 7, tier := 0, kind := 6, owner := 2, access := 0, base := 0x40000, size := 0x1000 }] } } }).newJob { sq := 0, cid := 7 } 5 2 (subOf 5 (appendRest 0 1)) (leBytes 7 8) [], 0, { goIndex (idxWith []) [] with sl := { Sl.reset with set_ := { SquadSet.empty with squads := [(2, squad 2 [3])], regions := [{ id := 7, tier := 0, kind := 6, owner := 2, access := 0, base := 0x40000, size := 0x1000 }] } } }, by decide +kernel, rfl, ⟨fun _ hj => absurd hj List.not_mem_nil, by decide +kernel, by decide +kernel⟩, by decide +kernel, by rfl, by decide +kernel⟩

/-- The hypotheses of clause 5 of IndexChanges are met. -/
theorem witness_IndexChanges_5 :
    (∃ (c : CmdId) (sub : Submit) (d : List Byte) (n : Nat) (x : Index) (j : Job) (st : Nat) (s : State), (s.submits c 4 sub n) ∧ (j = s.newJob c 4 n sub d []) ∧ (s.admitsAtOnce j) ∧ (s.idx.find (j.u32 64) = some x) ∧ (s.admitAppend j = .inl st)) :=
  ⟨{ sq := 0, cid := 7 }, subOf 4 (appendRest 128 0), leBytes 7 32, 2, idxWith [], (goIndex (idxWith []) []).newJob { sq := 0, cid := 7 } 4 2 (subOf 4 (appendRest 128 0)) (leBytes 7 32) [], stInvalidField, goIndex (idxWith []) [], by decide +kernel, rfl, ⟨fun _ hj => absurd hj List.not_mem_nil, by decide +kernel, by decide +kernel⟩, by decide +kernel, by rfl⟩

/-- The hypotheses of clause 6 of IndexChanges are met. -/
theorem witness_IndexChanges_6 :
    (∃ (c : CmdId) (sub : Submit) (d : List Byte) (n : Nat) (x : Index) (j : Job) (st : Nat) (s : State), (s.submits c 5 sub n) ∧ (j = s.newJob c 5 n sub d []) ∧ (s.admitsAtOnce j) ∧ (s.idx.find (j.u32 64) = some x) ∧ (s.admitAppend j = .inl st)) :=
  ⟨{ sq := 0, cid := 7 }, subOf 5 (appendRest 0 0), leBytes 7 8, 2, idxWith [], (goIndex (idxWith []) []).newJob { sq := 0, cid := 7 } 5 2 (subOf 5 (appendRest 0 0)) (leBytes 7 8) [], stInvalidField, goIndex (idxWith []) [], by decide +kernel, rfl, ⟨fun _ hj => absurd hj List.not_mem_nil, by decide +kernel, by decide +kernel⟩, by decide +kernel, by rfl⟩

/-- The hypotheses of clause 7 of IndexChanges are met. -/
theorem witness_IndexChanges_7 :
    (∃ (c : CmdId) (sub : Submit) (n : Nat) (x : Index) (j : Job) (s : State), (s.submits c 6 sub n) ∧ (j = s.newJob c 6 n sub [] []) ∧ (s.admitsAtOnce j) ∧ (s.idx.find (j.u32 64) = some x) ∧ (x.squad = n ∧ x.region = j.u16 68) ∧ (x.commit = none ∧ x.waiting = []) ∧ (zerosAt j.desc 80 176 = true ∧ s.commonOk j = true ∧ j.target ≠ 2 ∧ j.u16 70 < 4) ∧ (j.u16 70 % 2 = 1)) :=
  ⟨{ sq := 0, cid := 7 }, subOf 6 (appendRest 1 0), 2, idxWith [.item itemOne], (goIndex (idxWith [.item itemOne]) []).newJob { sq := 0, cid := 7 } 6 2 (subOf 6 (appendRest 1 0)) [] [], goIndex (idxWith [.item itemOne]) [], by decide +kernel, rfl, ⟨fun _ hj => absurd hj List.not_mem_nil, by decide +kernel, by decide +kernel⟩, by decide +kernel⟩

/-- The hypotheses of clause 8 of IndexChanges are met. -/
theorem witness_IndexChanges_8 :
    (∃ (c : CmdId) (sub : Submit) (n : Nat) (x : Index) (j : Job) (y : Namespace) (s : State), (s.submits c 6 sub n) ∧ (j = s.newJob c 6 n sub [] []) ∧ (s.admitsAtOnce j) ∧ (s.idx.find (j.u32 64) = some x) ∧ (x.squad = n ∧ x.region = j.u16 68) ∧ (x.commit = none ∧ x.waiting = []) ∧ (zerosAt j.desc 80 176 = true ∧ s.commonOk j = true ∧ j.target ≠ 2 ∧ j.u16 70 < 4) ∧ (j.u16 70 = 0) ∧ (s.mm.namespaces.find (j.u32 64) = some y) ∧ (y.readOnly = false) ∧ (sbFormat x.super = 4) ∧ (s.mm.landingFull = false) ∧ (x.live.length + ceilDiv (resolveChanges x.open_ [] []).1.length (segCap (sbBits x.super)) ≤ 1024) ∧ (ceilDiv (recordBytes (sbBits x.super) (resolveChanges x.open_ [] []).1.length (resolveChanges x.open_ [] []).2.length) 4096 ≤ sbLogBlocks x.super - x.logUsed)) :=
  ⟨{ sq := 0, cid := 7 }, subOf 6 (appendRest 0 0), 2, idxWith [.item itemOne], (goIndex (idxWith [.item itemOne]) []).newJob { sq := 0, cid := 7 } 6 2 (subOf 6 (appendRest 0 0)) [] [], { granules := [0], blocks := 262144, attached := true, readOnly := false, key := 1 }, goIndex (idxWith [.item itemOne]) [], by decide +kernel, rfl, ⟨fun _ hj => absurd hj List.not_mem_nil, by decide +kernel, by decide +kernel⟩, by decide +kernel⟩

/-- The hypotheses of clause 9 of IndexChanges are met. -/
theorem witness_IndexChanges_9 :
    (∃ (c : CmdId) (sub : Submit) (n : Nat) (x : Index) (j : Job) (s : State), (s.submits c 6 sub n) ∧ (j = s.newJob c 6 n sub [] []) ∧ (s.admitsAtOnce j) ∧ (s.idx.find (j.u32 64) = some x) ∧ (x.squad = n ∧ x.region = j.u16 68) ∧ (x.commit = none ∧ x.waiting = []) ∧ (zerosAt j.desc 80 176 = true ∧ s.commonOk j = true ∧ j.target ≠ 2 ∧ j.u16 70 < 4) ∧ (j.u16 70 = 0) ∧ (sbFormat x.super = 4) ∧ (∀ y, s.mm.namespaces.find (j.u32 64) = some y → y.readOnly = false) ∧ (sbLogBlocks x.super - x.logUsed < ceilDiv (recordBytes (sbBits x.super) (resolveChanges x.open_ [] []).1.length (resolveChanges x.open_ [] []).2.length) 4096)) :=
  ⟨{ sq := 0, cid := 7 }, subOf 6 (appendRest 0 0), 2, { idxWith [.item itemOne] with logUsed := 16 }, (goIndex ({ idxWith [.item itemOne] with logUsed := 16 }) []).newJob { sq := 0, cid := 7 } 6 2 (subOf 6 (appendRest 0 0)) [] [], goIndex ({ idxWith [.item itemOne] with logUsed := 16 }) [], by decide +kernel, rfl, ⟨fun _ hj => absurd hj List.not_mem_nil, by decide +kernel, by decide +kernel⟩, by decide +kernel, by decide +kernel, (by decide +kernel), by decide +kernel, by decide +kernel, by decide +kernel, by intro y hy; cases hy; rfl, by decide +kernel⟩

/-- The hypotheses of clause 10 of IndexChanges are met. -/
theorem witness_IndexChanges_10 :
    (∃ (c : CmdId) (sub : Submit) (n : Nat) (x : Index) (j : Job) (s : State), (s.submits c 6 sub n) ∧ (j = s.newJob c 6 n sub [] []) ∧ (s.admitsAtOnce j) ∧ (s.idx.find (j.u32 64) = some x) ∧ (x.squad = n ∧ x.region = j.u16 68) ∧ (zerosAt j.desc 80 176 = true ∧ s.commonOk j = true ∧ j.target ≠ 2) ∧ (j.u16 70 = 0) ∧ (sbFormat x.super = 4) ∧ (∀ y, s.mm.namespaces.find (j.u32 64) = some y → y.readOnly = false) ∧ (x.commit.isSome = true ∨ x.waiting = [] ∧ ceilDiv (recordBytes (sbBits x.super) (resolveChanges x.open_ [] []).1.length (resolveChanges x.open_ [] []).2.length) 4096 ≤ sbLogBlocks x.super - x.logUsed ∧ (1024 < x.live.length + ceilDiv (resolveChanges x.open_ [] []).1.length (segCap (sbBits x.super)) ∨ s.mm.landingFull = true))) :=
  ⟨{ sq := 0, cid := 7 }, subOf 6 (appendRest 0 0), 2, { idxWith [.item itemOne] with commit := some pendingAt5 }, (goIndex ({ idxWith [.item itemOne] with commit := some pendingAt5 }) []).newJob { sq := 0, cid := 7 } 6 2 (subOf 6 (appendRest 0 0)) [] [], goIndex ({ idxWith [.item itemOne] with commit := some pendingAt5 }) [], by decide +kernel, rfl, ⟨fun _ hj => absurd hj List.not_mem_nil, by decide +kernel, by decide +kernel⟩, by decide +kernel, by decide +kernel, (by decide +kernel), by decide +kernel, by decide +kernel, by intro y hy; cases hy; rfl, Or.inl (by decide +kernel)⟩

/-- The hypotheses of clause 11 of IndexChanges are met. -/
theorem witness_IndexChanges_11 :
    (∃ (c : CmdId) (sub : Submit) (n : Nat) (x : Index) (j : Job) (st : Nat) (s : State), (s.submits c 6 sub n) ∧ (j = s.newJob c 6 n sub [] []) ∧ (s.admitsAtOnce j) ∧ (s.idx.find (j.u32 64) = some x) ∧ (x.commit = none ∧ x.waiting = []) ∧ (st = stInvalidField ∧ (zerosAt j.desc 80 176 = false ∨ s.commonOk j = false ∨ j.target = 2 ∨ 4 ≤ j.u16 70 ∨ x.squad ≠ n ∨ x.region ≠ j.u16 68 ∨
      j.u16 70 = 2 ∧ s.rebaseOk (j.u32 64) (j.u64 72) x = false ∧
        (∀ y, s.mm.namespaces.find (j.u32 64) = some y → y.readOnly = false)) ∨
    st = stWriteProtected ∧ zerosAt j.desc 80 176 = true ∧ s.commonOk j = true ∧ j.target ≠ 2 ∧ (j.u16 70 = 0 ∨ j.u16 70 = 2) ∧
      x.squad = n ∧ x.region = j.u16 68 ∧ (s.mm.namespaces.find (j.u32 64)).map Namespace.readOnly = some true)) :=
  ⟨{ sq := 0, cid := 7 }, subOf 6 (appendRest 4 0), 2, idxWith [.item itemOne], (goIndex (idxWith [.item itemOne]) []).newJob { sq := 0, cid := 7 } 6 2 (subOf 6 (appendRest 4 0)) [] [], stInvalidField, goIndex (idxWith [.item itemOne]) [], by decide +kernel, rfl, ⟨fun _ hj => absurd hj List.not_mem_nil, by decide +kernel, by decide +kernel⟩, by decide +kernel, by decide +kernel, Or.inl ⟨rfl, Or.inr (Or.inr (Or.inr (Or.inl (by decide +kernel))))⟩⟩

/-- The hypotheses of clause 12 of IndexChanges are met. -/
theorem witness_IndexChanges_12 :
    (∃ (n : Nat) (x : Index) (k : PendingCommit) (j : Job) (s : State), (s.inGo = true ∨ s.halted = true ∧ s.commitForced n = true) ∧ (s.idx.find n = some x) ∧ (x.commit = some k) ∧ (k.ready = some s.mm.epoch) ∧ (s.commitDue n x k = true) ∧ (k.rebase = false) ∧ (x.waiting = []) ∧ (s.job k.tag = some j) ∧ (j.kind = 6) ∧ (j.c ∈ s.qe.fetched) ∧ (s.qe.fetched.Nodup)) :=
  ⟨1, { idxWith [.item itemOne] with commit := some { pendingAt5 with ready := some 6 } }, { pendingAt5 with ready := some 6 }, jobWith 6 { sq := 0, cid := 9 } .commitWait [], goIndex { idxWith [.item itemOne] with commit := some { pendingAt5 with ready := some 6 } } [jobWith 6 { sq := 0, cid := 9 } .commitWait []], Or.inl (by decide +kernel), by decide +kernel⟩

/-- The hypotheses of clause 13 of IndexChanges are met. -/
theorem witness_IndexChanges_13 :
    (∃ (n : Nat) (x : Index) (k : PendingCommit) (j : Job) (b : List Byte) (o : Nat) (s : State), (s.inGo = true ∨ s.halted = true ∧ s.commitForced n = true) ∧ (s.idx.find n = some x) ∧ (x.commit = some k) ∧ (k.ready = some s.mm.epoch) ∧ (s.commitDue n x k = true) ∧ (k.rebase = true) ∧ (k.newSuper = some (b, o)) ∧ (x.waiting = []) ∧ (s.job k.tag = some j) ∧ (j.kind = 6) ∧ (j.c ∈ s.qe.fetched) ∧ (s.qe.fetched.Nodup)) :=
  ⟨1, { idxWith [.item itemOne] with commit := some rebaseAt6 }, rebaseAt6, jobWith 6 { sq := 0, cid := 9 } .commitWait [], superBlk, 1, goIndex { idxWith [.item itemOne] with commit := some rebaseAt6 } [jobWith 6 { sq := 0, cid := 9 } .commitWait []], Or.inl (by decide +kernel), by decide +kernel⟩

/-- The hypotheses of clause 14 of IndexChanges are met. -/
theorem witness_IndexChanges_14 :
    (∃ (n : Nat) (x : Index) (k : PendingCommit) (s : State), (s.inGo = true) ∧ (s.idx.find n = some x) ∧ (x.commit = some k) ∧ (k.ready = some s.mm.epoch) ∧ (s.commitDue n x k = false)) :=
  ⟨1, { idxWith [] with commit := some { pendingAt5 with medium := some 6, ready := some 6 } }, { pendingAt5 with medium := some 6, ready := some 6 }, goIndex { idxWith [] with commit := some { pendingAt5 with medium := some 6, ready := some 6 } } [], by decide +kernel⟩

/-- The hypotheses of clause 15 of IndexChanges are met. -/
theorem witness_IndexChanges_15 :
    (∃ (n : Nat) (s : State), ((s.inGo = false ∧ (s.halted = false ∨ s.commitForced n = false)) ∨ s.idx.find n = none ∨ ∃ x, s.idx.find n = some x ∧ ((∃ k, x.commit = some k ∧ k.ready ≠ some s.mm.epoch) ∨ x.commit = none ∧ x.waiting = []))) :=
  ⟨1, goIndex (idxWith []) [], Or.inr (Or.inr ⟨idxWith [], by decide +kernel, Or.inr (by decide +kernel)⟩)⟩

/-- The hypotheses of SearchResults are met. -/
theorem witness_SearchResults :
    (∃ (tag q : Nat) (j : Job) (x : Nat × Nat × Nat) (c : Ctx) (s : State), (s.jobsRun = true) ∧ (s.job tag = some j) ∧ (j.search.ctxs.find? (fun y => y.1 == q) = some x) ∧ ((s.tile x.2.1).ctxs.find x.2.2 = some c) ∧ (c.state = 4) ∧ (j.search.started = true) ∧ ((s.tile x.2.1).badIn c.heapAddr (16 * c.held) = []) ∧ (j.target = 0) ∧ (c.k ≤ 1024) ∧ (q < 64) ∧ (2 ≤ j.search.ctxs.length)) ∧
    (∃ (tag q : Nat) (j : Job) (x : Nat × Nat × Nat) (c : Ctx) (s : State), (s.jobsRun = true) ∧ (s.job tag = some j) ∧ (j.search.ctxs.find? (fun y => y.1 == q) = some x) ∧ ((s.tile x.2.1).ctxs.find x.2.2 = some c) ∧ (c.state = 4) ∧ (j.search.started = true) ∧ ((s.tile x.2.1).badIn c.heapAddr (16 * c.held) = []) ∧ (j.target = 0) ∧ (c.k ≤ 1024) ∧ (q < 64) ∧ (j.search.ctxs.length = 1) ∧ (j.kind = 3) ∧ (j.c ∈ s.qe.fetched) ∧ (s.qe.fetched.Nodup)) ∧
    (∃ (tag q : Nat) (j : Job) (x : Nat × Nat × Nat) (c : Ctx) (a : Nat) (v : BitVec 5) (l : List (Nat × BitVec 5)) (s : State), (s.jobsRun = true) ∧ (s.job tag = some j) ∧ (j.search.ctxs.find? (fun y => y.1 == q) = some x) ∧ ((s.tile x.2.1).ctxs.find x.2.2 = some c) ∧ (c.state = 4) ∧ (j.search.started = true) ∧ ((s.tile x.2.1).badIn c.heapAddr (16 * c.held) = (a, v) :: l) ∧ (synOf v = .uncorr)) ∧
    (∃ (tag q : Nat) (s : State), (s.jobsRun = false ∨ s.job tag = none ∨ ∃ j, s.job tag = some j ∧ (j.search.started = false ∨ j.search.ctxs.find? (fun y => y.1 == q) = none ∨ ∃ x, j.search.ctxs.find? (fun y => y.1 == q) = some x ∧ ∀ c, (s.tile x.2.1).ctxs.find x.2.2 = some c → c.state ≠ 4))) ∧
    (∃ (c : CmdId) (sub : Submit) (srcs : List (List Byte)) (n : Nat) (j : Job) (s : State), (s.submits c 7 sub n) ∧ (j = s.newJob c 7 n sub [] srcs) ∧ (s.admitsAtOnce j) ∧ (s.mergeForm j = true) ∧ (s.mergeReadsWindow j = false) ∧ (j.target = 0) ∧ (∀ q, q < j.u8 68 → (s.mergeEntries srcs q (u16At (s.sourceBytes (srcs.headD []) 0 16) 14)).isSome = true)) ∧
    (∃ (c : CmdId) (sub : Submit) (srcs : List (List Byte)) (n : Nat) (j : Job) (s : State), (s.submits c 7 sub n) ∧ (j = s.newJob c 7 n sub [] srcs) ∧ (s.admitsAtOnce j) ∧ (s.mergeForm j = true) ∧ (s.mergeReadsWindow j = false) ∧ (∃ q, q < j.u8 68 ∧ s.mergeEntries srcs q (u16At (s.sourceBytes (srcs.headD []) 0 16) 14) = none)) ∧
    (∃ (c : CmdId) (sub : Submit) (srcs : List (List Byte)) (n : Nat) (j : Job) (s : State), (s.submits c 7 sub n) ∧ (j = s.newJob c 7 n sub [] srcs) ∧ (s.admitsAtOnce j) ∧ (s.mergeForm j = false) ∧ (s.mergeReadsWindow j = false)) ∧
    (∃ (n : Nat) (x : Index) (s : State), (s.inGo = true) ∧ (s.mayRun 3 n = true) ∧ (s.purgeSegments.idx.find n = some x)) ∧
    (∃ (n : Nat) (l : List Nat) (x : Index) (items : List SideItem) (s : State), (s.inGo = true) ∧ (s.atBoundary n = true) ∧ (s.mayRun 2 n = true) ∧ (s.purgeSegments.idx.find n = some x) ∧ (x.commit = none ∧ x.waiting = []) ∧ (items = ((KMap.vals (x.live.filter (fun g => l.contains g.1))).flatMap Segment.items).filter (fun i => i.death.all (fun e => s.snapFloor < e)))) :=
  ⟨⟨1, 1, searching, (1, 3, 5), ctxDone 1, { goJobs 2 [searching] with tiles := [(3, { Tile.reset with ctxs := [(4, ctxDone 0), (5, ctxDone 1)] })] }, by decide +kernel⟩,
   ⟨1, 1, { searching with search := { searching.search with ctxs := [(1, 3, 5)] } }, (1, 3, 5), ctxDone 1, { goJobs 2 [{ searching with search := { searching.search with ctxs := [(1, 3, 5)] } }] with tiles := [(3, { Tile.reset with ctxs := [(4, ctxDone 0), (5, ctxDone 1)] })] }, by decide +kernel⟩,
   ⟨1, 1, searching, (1, 3, 5), { ctxDone 1 with held := 1 }, 0x144000, 31, [], { goJobs 2 [searching] with tiles := [(3, { Tile.reset with ctxs := [(5, { ctxDone 1 with held := 1 })], bad := [(0x144000, 31)] })] }, by decide +kernel, by decide +kernel, by decide +kernel, by decide +kernel, by decide +kernel, (by decide +kernel), by decide +kernel, synOf_31⟩,
   ⟨1, 3, { goJobs 2 [searching] with tiles := [(3, { Tile.reset with ctxs := [(4, ctxDone 0), (5, ctxDone 1)] })] }, Or.inr (Or.inr ⟨searching, by decide +kernel, Or.inr (Or.inl (by decide +kernel))⟩)⟩,
   ⟨{ sq := 0, cid := 7 }, subOf 7 (leBytes 0 16 ++ leBytes 0 8 ++ leBytes 4096 8 ++ leBytes 0 24 ++ leBytes 2 2 ++ leBytes 1 2 ++ [1]), [sourceOne, sourceOne], 2, (goJobs 2 []).newJob { sq := 0, cid := 7 } 7 2 (subOf 7 (leBytes 0 16 ++ leBytes 0 8 ++ leBytes 4096 8 ++ leBytes 0 24 ++ leBytes 2 2 ++ leBytes 1 2 ++ [1])) [] [sourceOne, sourceOne], goJobs 2 [], by decide +kernel, rfl, ⟨fun _ hj => absurd hj List.not_mem_nil, by decide +kernel, by decide +kernel⟩, by decide +kernel⟩,
   ⟨{ sq := 0, cid := 7 }, subOf 7 (leBytes 0 16 ++ leBytes 0 8 ++ leBytes 4096 8 ++ leBytes 0 24 ++ leBytes 2 2 ++ leBytes 1 2 ++ [1]), [sourceOne, leBytes 0 96], 2, (goJobs 2 []).newJob { sq := 0, cid := 7 } 7 2 (subOf 7 (leBytes 0 16 ++ leBytes 0 8 ++ leBytes 4096 8 ++ leBytes 0 24 ++ leBytes 2 2 ++ leBytes 1 2 ++ [1])) [] [sourceOne, leBytes 0 96], goJobs 2 [], by decide +kernel, rfl, ⟨fun _ hj => absurd hj List.not_mem_nil, by decide +kernel, by decide +kernel⟩, by decide +kernel⟩,
   ⟨{ sq := 0, cid := 7 }, subOf 7 (leBytes 0 16 ++ leBytes 0 8 ++ leBytes 4096 8 ++ leBytes 0 24 ++ leBytes 1 2 ++ leBytes 1 2 ++ [1]), [sourceOne], 2, (goJobs 2 []).newJob { sq := 0, cid := 7 } 7 2 (subOf 7 (leBytes 0 16 ++ leBytes 0 8 ++ leBytes 4096 8 ++ leBytes 0 24 ++ leBytes 1 2 ++ leBytes 1 2 ++ [1])) [] [sourceOne], goJobs 2 [], by decide +kernel, rfl, ⟨fun _ hj => absurd hj List.not_mem_nil, by decide +kernel, by decide +kernel⟩, by decide +kernel⟩,
   ⟨1, { idxWith [] with dead := [(7, 2), (9, 60)] }, { goIndex { idxWith [] with dead := [(7, 2), (9, 60)] } [] with pc := { Pacer.reset with bgRun := [(3, 1)] } }, by decide +kernel⟩,
   ⟨1, [0, 1], { idxWith [] with segments := [(0, segOne 50), (1, segOne 51)], nextSeg := 2 }, [{ itemOne with commit := some 3 }, { itemOne with commit := some 3 }], { goIndex { idxWith [] with segments := [(0, segOne 50), (1, segOne 51)], nextSeg := 2 } [] with pc := { Pacer.reset with bgRun := [(2, 1)] } }, by decide +kernel⟩⟩

set_option maxRecDepth 100000 in
/-- The hypotheses of clause 1 of Sequences are met. -/
theorem witness_Sequences_1 :
    (∃ (c : CmdId) (sub : Submit) (n : Nat) (j : Job) (m : Model) (i : Nat) (s : State), (s.submits c 0x10 sub n) ∧ (j = s.newJob c 0x10 n sub [] []) ∧ (s.admitsAtOnce j) ∧ (s.model (j.u8 64) = some m) ∧ (openForm j = true) ∧ (m.squad = n) ∧ (s.jd.seqs.length < 16384) ∧ (i = s.issueSeqId s.jd.seqs.length s.jd.nextSeqId)) :=
  ⟨{ sq := 0, cid := 7 }, subOf 0x10 [], 2, (goServe [(0, modelOne)] [] []).newJob { sq := 0, cid := 7 } 0x10 2 (subOf 0x10 []) [] [], modelOne, 4, goServe [(0, modelOne)] [] [], by decide +kernel, rfl, ⟨fun _ hj => absurd hj List.not_mem_nil, by decide +kernel, by decide +kernel⟩, by decide +kernel⟩

set_option maxRecDepth 100000 in
/-- The hypotheses of clause 2 of Sequences are met. -/
theorem witness_Sequences_2 :
    (∃ (c : CmdId) (sub : Submit) (n : Nat) (j : Job) (m : Model) (s : State), (s.submits c 0x10 sub n) ∧ (j = s.newJob c 0x10 n sub [] []) ∧ (s.admitsAtOnce j) ∧ (s.model (j.u8 64) = some m) ∧ (openForm j = true) ∧ (m.squad = n) ∧ (16384 ≤ s.jd.seqs.length)) :=
  ⟨{ sq := 0, cid := 7 }, subOf 0x10 [], 2, ({ goServe [(0, modelOne)] [] [] with jd := { (goServe [(0, modelOne)] [] []).jd with seqs := (List.range 16384).map (fun i => (i, seqOne)) } }).newJob { sq := 0, cid := 7 } 0x10 2 (subOf 0x10 []) [] [], modelOne, { goServe [(0, modelOne)] [] [] with jd := { (goServe [(0, modelOne)] [] []).jd with seqs := (List.range 16384).map (fun i => (i, seqOne)) } }, by decide +kernel, rfl, ⟨fun _ hj => absurd hj List.not_mem_nil, by decide +kernel, by decide +kernel⟩, by decide +kernel, by decide +kernel, (by decide +kernel), by show 16384 ≤ ((List.range 16384).map (fun i => (i, seqOne))).length; rw [List.length_map, List.length_range]⟩

set_option maxRecDepth 100000 in
/-- The hypotheses of clause 3 of Sequences are met. -/
theorem witness_Sequences_3 :
    (∃ (c : CmdId) (sub : Submit) (n : Nat) (j : Job) (s : State), (s.submits c 0x10 sub n) ∧ (j = s.newJob c 0x10 n sub [] []) ∧ (s.admitsAtOnce j) ∧ (s.model (j.u8 64) = none ∨ openForm j = false ∨ (s.model (j.u8 64)).map Model.squad ≠ some n)) :=
  ⟨{ sq := 0, cid := 7 }, subOf 0x10 (leBytes 0 56 ++ [1]), 2, (goServe [(0, modelOne)] [] []).newJob { sq := 0, cid := 7 } 0x10 2 (subOf 0x10 (leBytes 0 56 ++ [1])) [] [], goServe [(0, modelOne)] [] [], by decide +kernel, rfl, ⟨fun _ hj => absurd hj List.not_mem_nil, by decide +kernel, by decide +kernel⟩, Or.inl (by decide +kernel)⟩

set_option maxRecDepth 100000 in
/-- The hypotheses of clause 4 of Sequences are met. -/
theorem witness_Sequences_4 :
    (∃ (c : CmdId) (sub : Submit) (d : List Nat) (n : Nat) (j : Job) (q : Sequence) (m : Model) (e : DirEntry) (s : State), (s.submits c 0x11 sub n) ∧ (j = s.newJob c 0x11 n sub (d.flatMap (fun x => leBytes x 4)) []) ∧ (s.admitsAtOnce j) ∧ (s.appendCheck j = none) ∧ (s.seq (j.u32 64) = some q) ∧ (s.model q.model = some m) ∧ (s.rl.dir.find m.weightObject = some e) ∧ (e.pinnable = true)) :=
  ⟨{ sq := 0, cid := 7 }, subOf 0x11 (leBytes 0 16 ++ leBytes 4096 8 ++ leBytes 4096 8 ++ leBytes 0 24 ++ leBytes 3 4 ++ leBytes 1 4 ++ leBytes 0 8 ++ leBytes 5 4), [7], 2, (goServe [(0, modelOne)] [(3, seqOne)] []).newJob { sq := 0, cid := 7 } 0x11 2 (subOf 0x11 (leBytes 0 16 ++ leBytes 4096 8 ++ leBytes 4096 8 ++ leBytes 0 24 ++ leBytes 3 4 ++ leBytes 1 4 ++ leBytes 0 8 ++ leBytes 5 4)) (leBytes 7 4) [], seqOne, modelOne, objAt 1 (some 0x100000) .none .resident, goServe [(0, modelOne)] [(3, seqOne)] [], by decide +kernel, rfl, ⟨fun _ hj => absurd hj List.not_mem_nil, by decide +kernel, by decide +kernel⟩, by decide +kernel⟩

set_option maxRecDepth 100000 in
/-- The hypotheses of clause 5 of Sequences are met. -/
theorem witness_Sequences_5 :
    (∃ (c : CmdId) (sub : Submit) (d : List Nat) (n : Nat) (j : Job) (st : Nat) (s : State), (s.submits c 0x11 sub n) ∧ (j = s.newJob c 0x11 n sub (d.flatMap (fun x => leBytes x 4)) []) ∧ (s.admitsAtOnce j) ∧ (s.appendCheck j = some st ∨ st = stInvalidField ∧ s.appendCheck j = none ∧ ∃ q m, s.seq (j.u32 64) = some q ∧ s.model q.model = some m ∧ s.rl.dir.find m.weightObject = none)) :=
  ⟨{ sq := 0, cid := 7 }, subOf 0x11 (leBytes 0 16 ++ leBytes 4096 8 ++ leBytes 4096 8 ++ leBytes 0 24 ++ leBytes 3 4 ++ leBytes 1 4 ++ leBytes 0 8 ++ leBytes 2000 4), [7], 2, (goServe [(0, modelOne)] [(3, seqOne)] []).newJob { sq := 0, cid := 7 } 0x11 2 (subOf 0x11 (leBytes 0 16 ++ leBytes 4096 8 ++ leBytes 4096 8 ++ leBytes 0 24 ++ leBytes 3 4 ++ leBytes 1 4 ++ leBytes 0 8 ++ leBytes 2000 4)) (leBytes 7 4) [], stInvalidField, goServe [(0, modelOne)] [(3, seqOne)] [], by decide +kernel, rfl, ⟨fun _ hj => absurd hj List.not_mem_nil, by decide +kernel, by decide +kernel⟩, Or.inl (by decide +kernel)⟩

set_option maxRecDepth 100000 in
/-- The hypotheses of clause 6 of Sequences are met. -/
theorem witness_Sequences_6 :
    (∃ (c : CmdId) (sub : Submit) (d : List Nat) (n : Nat) (j : Job) (q : Sequence) (m : Model) (e : DirEntry) (s : State), (s.submits c 0x11 sub n) ∧ (j = s.newJob c 0x11 n sub (d.flatMap (fun x => leBytes x 4)) []) ∧ (s.admitsAtOnce j) ∧ (s.appendCheck j = none) ∧ (s.seq (j.u32 64) = some q) ∧ (s.model q.model = some m) ∧ (s.rl.dir.find m.weightObject = some e) ∧ (e.pinnable = false)) :=
  ⟨{ sq := 0, cid := 7 }, subOf 0x11 (leBytes 0 16 ++ leBytes 4096 8 ++ leBytes 4096 8 ++ leBytes 0 24 ++ leBytes 3 4 ++ leBytes 1 4 ++ leBytes 0 8 ++ leBytes 5 4), [7], 2, ({ goServe [(0, modelOne)] [(3, seqOne)] [] with rl := { Rl.reset with dir := [(9, { objAt 1 (some 0x100000) .none .resident with discardPending := true })] } }).newJob { sq := 0, cid := 7 } 0x11 2 (subOf 0x11 (leBytes 0 16 ++ leBytes 4096 8 ++ leBytes 4096 8 ++ leBytes 0 24 ++ leBytes 3 4 ++ leBytes 1 4 ++ leBytes 0 8 ++ leBytes 5 4)) (leBytes 7 4) [], seqOne, modelOne, { objAt 1 (some 0x100000) .none .resident with discardPending := true }, { goServe [(0, modelOne)] [(3, seqOne)] [] with rl := { Rl.reset with dir := [(9, { objAt 1 (some 0x100000) .none .resident with discardPending := true })] } }, by decide +kernel, rfl, ⟨fun _ hj => absurd hj List.not_mem_nil, by decide +kernel, by decide +kernel⟩, by decide +kernel⟩

set_option maxRecDepth 100000 in
/-- The hypotheses of clause 7 of Sequences are met. -/
theorem witness_Sequences_7 :
    (∃ (c : CmdId) (sub : Submit) (n : Nat) (j : Job) (q : Sequence) (m : Model) (s : State), (s.submits c 0x12 sub n) ∧ (j = s.newJob c 0x12 n sub [] []) ∧ (s.admitsAtOnce j) ∧ (s.seq (j.u32 64) = some q) ∧ (s.model q.model = some m) ∧ (m.squad = n) ∧ (zerosAt j.desc 40 24 = true ∧ zerosAt j.desc 68 188 = true ∧ j.flags / 2 = 0) ∧ (s.lapBusy n = false) ∧ (q.append = none ∧ q.closing = [])) :=
  ⟨{ sq := 0, cid := 7 }, subOf 0x12 (leBytes 0 56 ++ leBytes 3 4), 2, (goServe [(0, modelOne)] [(3, seqOne)] []).newJob { sq := 0, cid := 7 } 0x12 2 (subOf 0x12 (leBytes 0 56 ++ leBytes 3 4)) [] [], seqOne, modelOne, goServe [(0, modelOne)] [(3, seqOne)] [], by decide +kernel, rfl, ⟨fun _ hj => absurd hj List.not_mem_nil, by decide +kernel, by decide +kernel⟩, by decide +kernel⟩

set_option maxRecDepth 100000 in
/-- The hypotheses of clause 8 of Sequences are met. -/
theorem witness_Sequences_8 :
    (∃ (c : CmdId) (sub : Submit) (n : Nat) (j : Job) (q : Sequence) (m : Model) (g : Nat) (k : Job) (s : State), (s.submits c 0x12 sub n) ∧ (j = s.newJob c 0x12 n sub [] []) ∧ (s.admitsAtOnce j) ∧ (s.seq (j.u32 64) = some q) ∧ (s.model q.model = some m) ∧ (m.squad = n) ∧ (zerosAt j.desc 40 24 = true ∧ zerosAt j.desc 68 188 = true ∧ j.flags / 2 = 0) ∧ (s.lapBusy n = false) ∧ (q.append = some g ∧ q.closing = []) ∧ (s.job g = some k) ∧ (k.kind = 0x11) ∧ (k.c ∈ s.qe.fetched) ∧ (s.qe.fetched.Nodup)) :=
  ⟨{ sq := 0, cid := 7 }, subOf 0x12 (leBytes 0 56 ++ leBytes 3 4), 2, (goServe [(0, modelOne)] [(3, { seqOne with append := some 1 })] [jobWith 0x11 { sq := 0, cid := 9 } .admitted (leBytes 0 16 ++ leBytes 4096 8 ++ leBytes 4096 8 ++ leBytes 0 24 ++ leBytes 3 4 ++ leBytes 1 4 ++ leBytes 0 8 ++ leBytes 5 4)]).newJob { sq := 0, cid := 7 } 0x12 2 (subOf 0x12 (leBytes 0 56 ++ leBytes 3 4)) [] [], { seqOne with append := some 1 }, modelOne, 1, jobWith 0x11 { sq := 0, cid := 9 } .admitted (leBytes 0 16 ++ leBytes 4096 8 ++ leBytes 4096 8 ++ leBytes 0 24 ++ leBytes 3 4 ++ leBytes 1 4 ++ leBytes 0 8 ++ leBytes 5 4), goServe [(0, modelOne)] [(3, { seqOne with append := some 1 })] [jobWith 0x11 { sq := 0, cid := 9 } .admitted (leBytes 0 16 ++ leBytes 4096 8 ++ leBytes 4096 8 ++ leBytes 0 24 ++ leBytes 3 4 ++ leBytes 1 4 ++ leBytes 0 8 ++ leBytes 5 4)], by decide +kernel, rfl, ⟨by unfold Jd.inForm; decide +kernel, by decide +kernel, by decide +kernel⟩, by decide +kernel⟩

set_option maxRecDepth 100000 in
/-- The hypotheses of clause 9 of Sequences are met. -/
theorem witness_Sequences_9 :
    (∃ (c : CmdId) (sub : Submit) (n : Nat) (j : Job) (q : Sequence) (m : Model) (s : State), (s.submits c 0x12 sub n) ∧ (j = s.newJob c 0x12 n sub [] []) ∧ (s.admitsAtOnce j) ∧ (s.seq (j.u32 64) = some q) ∧ (s.model q.model = some m) ∧ (m.squad = n) ∧ (zerosAt j.desc 40 24 = true ∧ zerosAt j.desc 68 188 = true ∧ j.flags / 2 = 0) ∧ (s.lapBusy n = true)) :=
  ⟨{ sq := 0, cid := 7 }, subOf 0x12 (leBytes 0 56 ++ leBytes 3 4), 2, (inLap (lapOf 0 1) (goServe [(0, modelOne)] [(3, seqOne)] [])).newJob { sq := 0, cid := 7 } 0x12 2 (subOf 0x12 (leBytes 0 56 ++ leBytes 3 4)) [] [], seqOne, modelOne, inLap (lapOf 0 1) (goServe [(0, modelOne)] [(3, seqOne)] []), by decide +kernel, rfl, ⟨fun _ hj => absurd hj List.not_mem_nil, by decide +kernel, by decide +kernel⟩, by decide +kernel⟩

set_option maxRecDepth 100000 in
/-- The hypotheses of clause 10 of Sequences are met. -/
theorem witness_Sequences_10 :
    (∃ (c : CmdId) (sub : Submit) (n : Nat) (j : Job) (s : State), (s.submits c 0x12 sub n) ∧ (j = s.newJob c 0x12 n sub [] []) ∧ (s.admitsAtOnce j) ∧ ((s.seq (j.u32 64) = none ∨ zerosAt j.desc 40 24 = false ∨ zerosAt j.desc 68 188 = false ∨ j.flags / 2 ≠ 0 ∨ ∃ q m, s.seq (j.u32 64) = some q ∧ s.model q.model = some m ∧ m.squad ≠ n))) :=
  ⟨{ sq := 0, cid := 7 }, subOf 0x12 (leBytes 0 56 ++ leBytes 9 4), 2, (goServe [(0, modelOne)] [(3, seqOne)] []).newJob { sq := 0, cid := 7 } 0x12 2 (subOf 0x12 (leBytes 0 56 ++ leBytes 9 4)) [] [], goServe [(0, modelOne)] [(3, seqOne)] [], by decide +kernel, rfl, ⟨fun _ hj => absurd hj List.not_mem_nil, by decide +kernel, by decide +kernel⟩, Or.inl (by decide +kernel)⟩

/-- The hypotheses of ModelRegistration are met. -/
theorem witness_ModelRegistration :
    (∃ (v : W32) (r : List Byte) (g : Region) (s : State), (s.vendorLive = true) ∧ (s.inGo = true) ∧ (bitW v 16 = true) ∧ (s.registerCode (bitsW v 5 0) r = 0) ∧ (s.region (u16At r 10) = some g)) ∧
    (∃ (v : W32) (r : List Byte) (s : State), (s.vendorLive = true) ∧ (s.inGo = true) ∧ (bitW v 16 = true) ∧ (s.registerCode (bitsW v 5 0) r ≠ 0)) ∧
    (∃ (v : W32) (m : Model) (s : State), (s.vendorLive = true) ∧ (s.inGo = true) ∧ (bitW v 16 = true) ∧ (s.model (bitsW v 5 0) = some m) ∧ (∀ e ∈ s.jd.seqs, e.2.model ≠ bitsW v 5 0)) ∧
    (∃ (v : W32) (s : State), (s.vendorLive = true) ∧ (s.inGo = true) ∧ (bitW v 16 = true) ∧ (s.model (bitsW v 5 0) = none)) ∧
    (∃ (v : W32) (e : Nat × Sequence) (s : State), (s.vendorLive = true) ∧ (s.inGo = true) ∧ (bitW v 16 = true) ∧ ((s.model (bitsW v 5 0)).isSome = true) ∧ (e ∈ s.jd.seqs) ∧ (e.2.model = bitsW v 5 0)) ∧
    (∃ (v : W32) (r : List Byte) (s : State), (s.vendorLive = true) ∧ (bitW v 16 = false ∨ s.inGo = false)) ∧
    (∃ (v : W32) (r : List Byte) (s : State), (s.vendorLive = false)) ∧
    (∃ (i : Nat) (m : Model) (s : State), (s.model i = some m) ∧ (m.bound = true) ∧ (64 ≤ m.clean)) ∧
    (∃ (i : Nat) (s : State), (∀ m, s.model i = some m → m.bound = false ∨ m.clean < 64)) :=
  ⟨⟨0x10000, modelRec, { id := 7, tier := 0, kind := 3, owner := 2, access := 0, base := 0x40000, size := 0x40000 }, goServe [] [] [], by decide +kernel⟩,
   ⟨0x10001, modelRec, goServe [] [] [], by decide +kernel⟩,
   ⟨0x10000, modelOne, goServe [(0, modelOne)] [] [], by decide +kernel⟩,
   ⟨0x1003F, goServe [(0, modelOne)] [] [], by decide +kernel⟩,
   ⟨0x10000, (3, seqOne), goServe [(0, modelOne)] [(3, seqOne)] [], by decide +kernel⟩,
   ⟨0x3F, [], goServe [] [] [], by decide +kernel⟩,
   ⟨0x1003F, [], State.reset, by decide +kernel⟩,
   ⟨0, { modelOne with bound := true, clean := 64, cap := 3 }, goServe [(0, { modelOne with bound := true, clean := 64, cap := 3 })] [] [], by decide +kernel⟩,
   ⟨0, goServe [(0, modelOne)] [] [], by intro m h; cases h; exact Or.inl rfl⟩⟩

/-- The hypotheses of LapHurdles are met. -/
theorem witness_LapHurdles :
    (∃ (q : Nat) (x : Squad) (l : Lap) (h : HurdleInfo) (j : Job) (a k : Nat) (s : State), (s.inGo = true) ∧ (s.squadOf q = some x) ∧ ((s.lapsOf q).flight = some l) ∧ (s.atHurdle x = true) ∧ (x.func = 4) ∧ (l.invoc = 0xFF) ∧ (s.job l.jobTag = some j) ∧ (j.stop = none) ∧ (j.state = .admitted) ∧ (a = s.pc.beat + 1 - l.start) ∧ (k = overrunKind a l.planned x.overrun (stallBeats h.stallCycles s.pc.periodNs)) ∧ (l.update = false) ∧ (l.examples = j.u16 110) ∧ (j.lap.stepsDone < j.u32 104) ∧ (s.dataOut (s.lapTaken j l.examples) = false)) ∧
    (∃ (q : Nat) (x : Squad) (l : Lap) (h : HurdleInfo) (j : Job) (a k : Nat) (s : State), (s.inGo = true) ∧ (s.squadOf q = some x) ∧ ((s.lapsOf q).flight = some l) ∧ (s.atHurdle x = true) ∧ (x.func = 4) ∧ (l.invoc = 0xFF) ∧ (s.job l.jobTag = some j) ∧ (j.stop = none) ∧ (j.state = .admitted) ∧ (a = s.pc.beat + 1 - l.start) ∧ (k = overrunKind a l.planned x.overrun (stallBeats h.stallCycles s.pc.periodNs)) ∧ (l.update = false) ∧ (l.examples < j.u16 110) ∧ (j.u32 152 = 0xFFFFFFFF) ∧ (j.kind = 0x20) ∧ (j.c ∈ s.qe.fetched) ∧ (s.qe.fetched.Nodup)) ∧
    (∃ (q : Nat) (x : Squad) (l : Lap) (h : HurdleInfo) (j : Job) (a k : Nat) (s : State), (s.inGo = true) ∧ (s.squadOf q = some x) ∧ ((s.lapsOf q).flight = some l) ∧ (s.atHurdle x = true) ∧ (x.func = 4) ∧ (l.invoc = 0xFF) ∧ (s.job l.jobTag = some j) ∧ (j.stop = none) ∧ (j.state = .admitted) ∧ (a = s.pc.beat + 1 - l.start) ∧ (k = overrunKind a l.planned x.overrun (stallBeats h.stallCycles s.pc.periodNs)) ∧ (l.update = true) ∧ (s.mayStep j = true) ∧ (j.u32 152 = 0xFFFFFFFF) ∧ (j.lap.stepsDone + 1 < j.u32 104) ∧ (s.dataOut { j with lap := { j.lap with lapInStep := 0 } } = false)) ∧
    (∃ (q i : Nat) (x : Squad) (l : Lap) (h : HurdleInfo) (a : Sequence) (m : Model) (g w : Nat) (j : Job) (s : State), (s.inGo = true) ∧ (s.squadOf q = some x) ∧ ((s.lapsOf q).flight = some l) ∧ (s.atHurdle x = true) ∧ (x.state = .active) ∧ (x.func = 3) ∧ (l.invoc ≠ 0xFF) ∧ (∀ e ∈ s.jd.seqs, e.1 ≠ i → e.2.append = none ∧ e.2.closing = []) ∧ (s.seq i = some a) ∧ (s.model a.model = some m) ∧ (a.append = some g) ∧ (a.closing = []) ∧ (s.job g = some j) ∧ (j.stop = none) ∧ (l.decode = [i]) ∧ (l.prefill = [] ∧ l.filler = none) ∧ (w = (s.tokenFor h m.vocab i a).1) ∧ (j.lap.tokensOut + 1 < j.u32 80) ∧ (∀ k, k < j.u8 86 → j.u32 (88 + 4 * k) ≠ w) ∧ (a.tokens.length + 1 < m.maxContext)) ∧
    (∃ (q i : Nat) (x : Squad) (l : Lap) (h : HurdleInfo) (a : Sequence) (m : Model) (g w r : Nat) (j : Job) (s : State), (s.inGo = true) ∧ (s.squadOf q = some x) ∧ ((s.lapsOf q).flight = some l) ∧ (s.atHurdle x = true) ∧ (x.state = .active) ∧ (x.func = 3) ∧ (l.invoc ≠ 0xFF) ∧ (∀ e ∈ s.jd.seqs, e.1 ≠ i → e.2.append = none ∧ e.2.closing = []) ∧ (s.seq i = some a) ∧ (s.model a.model = some m) ∧ (a.append = some g) ∧ (a.closing = []) ∧ (s.job g = some j) ∧ (j.stop = none) ∧ (l.decode = [i]) ∧ (l.prefill = [] ∧ l.filler = none) ∧ (w = (s.tokenFor h m.vocab i a).1) ∧ (a.tokens.length < m.maxContext ∧ j.u32 80 ≠ 0) ∧ (j.kind = 0x11 ∧ j.c ∈ s.qe.fetched ∧ s.qe.fetched.Nodup) ∧ (r = 0 ∧ j.u32 80 ≤ j.lap.tokensOut + 1 ∨ j.lap.tokensOut + 1 < j.u32 80 ∧ (r = 1 ∧ (∃ k, k < j.u8 86 ∧ j.u32 (88 + 4 * k) = w) ∨ r = 2 ∧ (∀ k, k < j.u8 86 → j.u32 (88 + 4 * k) ≠ w) ∧ a.tokens.length + 1 = m.maxContext))) ∧
    (∃ (q i : Nat) (x : Squad) (l : Lap) (h : HurdleInfo) (a : Sequence) (m : Model) (g n : Nat) (j : Job) (s : State), (s.inGo = true) ∧ (s.squadOf q = some x) ∧ ((s.lapsOf q).flight = some l) ∧ (s.atHurdle x = true) ∧ (x.state = .active) ∧ (x.func = 3) ∧ (l.invoc ≠ 0xFF) ∧ (∀ e ∈ s.jd.seqs, e.1 ≠ i → e.2.append = none ∧ e.2.closing = []) ∧ (s.seq i = some a) ∧ (s.model a.model = some m) ∧ (a.append = some g) ∧ (a.closing = []) ∧ (s.job g = some j) ∧ (j.stop = none) ∧ (l.decode = []) ∧ (l.prefill = [(i, n)] ∧ l.filler = none) ∧ (a.tkv + n < a.tokens.length)) ∧
    (∃ (q i : Nat) (x : Squad) (l : Lap) (h : HurdleInfo) (a : Sequence) (m : Model) (g : Nat) (j : Job) (s : State), (s.inGo = true) ∧ (s.squadOf q = some x) ∧ ((s.lapsOf q).flight = some l) ∧ (s.atHurdle x = true) ∧ (x.state = .draining) ∧ (x.func = 3) ∧ (l.invoc ≠ 0xFF) ∧ (l.decode = [] ∧ l.prefill = [] ∧ l.filler = none) ∧ (s.jd.seqs = [(i, a)]) ∧ (s.model a.model = some m) ∧ (m.squad = q) ∧ (a.append = some g) ∧ (a.closing = []) ∧ (s.job g = some j) ∧ (j.stop = none) ∧ (j.kind = 0x11) ∧ (j.c ∈ s.qe.fetched) ∧ (s.qe.fetched.Nodup)) ∧
    (∃ (q : Nat) (x : Squad) (h : HurdleInfo) (s : State), (s.inGo = true) ∧ (s.squadOf q = some x) ∧ ((s.lapsOf q).flight = none) ∧ ((s.lapsOf q).passed = false) ∧ (s.atHurdle x = true) ∧ (s.embeds q = false)) ∧
    (∃ (q : Nat) (h : HurdleInfo) (s : State), (s.inGo = false ∨ s.squadOf q = none ∨ ∃ x, s.squadOf q = some x ∧ (s.atHurdle x = false ∨ (s.lapsOf q).flight = none ∧ (s.lapsOf q).passed = true ∨ ∃ l, (s.lapsOf q).flight = some l ∧ s.mayEndLap l = false))) :=
  ⟨⟨2, squad 4 [3], { lapOf 0xFF 1 with examples := 2 }, { stallCycles := 0, logits := [], fillerWaits := 0, loss := 7 }, jobWith 0x20 { sq := 0, cid := 9 } .admitted (leBytes 0 56 ++ leBytes 0 32 ++ leBytes 1000 4 ++ leBytes 0 4 ++ leBytes 5 4 ++ leBytes 4 2 ++ leBytes 2 2 ++ leBytes 0 40 ++ leBytes 0xFFFFFFFF 4), 1, 0, inLap ({ lapOf 0xFF 1 with examples := 2 }) { goJobs 4 [jobWith 0x20 { sq := 0, cid := 9 } .admitted (leBytes 0 56 ++ leBytes 0 32 ++ leBytes 1000 4 ++ leBytes 0 4 ++ leBytes 5 4 ++ leBytes 4 2 ++ leBytes 2 2 ++ leBytes 0 40 ++ leBytes 0xFFFFFFFF 4)] with tiles := [(3, { Tile.reset with hurdle := true })], rl := { Rl.reset with ntReady := List.range 16 } }, by decide +kernel⟩,
   ⟨2, squad 4 [3], lapOf 0xFF 1, { stallCycles := 0, logits := [], fillerWaits := 0, loss := 7 }, jobWith 0x20 { sq := 0, cid := 9 } .admitted (leBytes 0 56 ++ leBytes 0 32 ++ leBytes 1000 4 ++ leBytes 0 4 ++ leBytes 5 4 ++ leBytes 4 2 ++ leBytes 2 2 ++ leBytes 0 40 ++ leBytes 0xFFFFFFFF 4), 1, 0, inLap (lapOf 0xFF 1) { goJobs 4 [jobWith 0x20 { sq := 0, cid := 9 } .admitted (leBytes 0 56 ++ leBytes 0 32 ++ leBytes 1000 4 ++ leBytes 0 4 ++ leBytes 5 4 ++ leBytes 4 2 ++ leBytes 2 2 ++ leBytes 0 40 ++ leBytes 0xFFFFFFFF 4)] with tiles := [(3, { Tile.reset with hurdle := true })], rl := { Rl.reset with ntReady := List.range 16 } }, by decide +kernel⟩,
   ⟨2, squad 4 [3], { lapOf 0xFF 1 with update := true }, { stallCycles := 0, logits := [], fillerWaits := 0, loss := 7 }, { jobWith 0x20 { sq := 0, cid := 9 } .admitted (leBytes 0 56 ++ leBytes 0 32 ++ leBytes 1000 4 ++ leBytes 0 4 ++ leBytes 5 4 ++ leBytes 4 2 ++ leBytes 2 2 ++ leBytes 0 40 ++ leBytes 0xFFFFFFFF 4) with lap := { LapProg.blank with pass1 := true } }, 1, 0, inLap ({ lapOf 0xFF 1 with update := true }) { goJobs 4 [{ jobWith 0x20 { sq := 0, cid := 9 } .admitted (leBytes 0 56 ++ leBytes 0 32 ++ leBytes 1000 4 ++ leBytes 0 4 ++ leBytes 5 4 ++ leBytes 4 2 ++ leBytes 2 2 ++ leBytes 0 40 ++ leBytes 0xFFFFFFFF 4) with lap := { LapProg.blank with pass1 := true } }] with tiles := [(3, { Tile.reset with hurdle := true })], rl := { Rl.reset with ntReady := List.range 16 } }, by decide +kernel⟩,
   ⟨2, 3, { squad 3 [3] with templates := [[0]] }, { lapOf 0 1 with decode := [3] }, { stallCycles := 0, logits := [(3, (List.range 100).map (fun i => if i = 42 then 0x40000000 else 0))], fillerWaits := 0, loss := 0 }, { seqOne with append := some 1, ready := true }, modelOne, 1, 42, jobWith 0x11 { sq := 0, cid := 9 } .admitted (leBytes 0 16 ++ leBytes 4096 8 ++ leBytes 4096 8 ++ leBytes 0 24 ++ leBytes 3 4 ++ leBytes 1 4 ++ leBytes 0 8 ++ leBytes 5 4), inLap ({ lapOf 0 1 with decode := [3] }) { goServe [(0, modelOne)] [(3, { seqOne with append := some 1, ready := true })] [jobWith 0x11 { sq := 0, cid := 9 } .admitted (leBytes 0 16 ++ leBytes 4096 8 ++ leBytes 4096 8 ++ leBytes 0 24 ++ leBytes 3 4 ++ leBytes 1 4 ++ leBytes 0 8 ++ leBytes 5 4)] with tiles := [(3, { Tile.reset with hurdle := true })] }, by decide +kernel⟩,
   ⟨2, 3, { squad 3 [3] with templates := [[0]] }, { lapOf 0 1 with decode := [3] }, { stallCycles := 0, logits := [(3, (List.range 100).map (fun i => if i = 42 then 0x40000000 else 0))], fillerWaits := 0, loss := 0 }, { seqOne with append := some 1, ready := true }, modelOne, 1, 42, 0, jobWith 0x11 { sq := 0, cid := 9 } .admitted (leBytes 0 16 ++ leBytes 4096 8 ++ leBytes 4096 8 ++ leBytes 0 24 ++ leBytes 3 4 ++ leBytes 1 4 ++ leBytes 0 8 ++ leBytes 1 4), inLap ({ lapOf 0 1 with decode := [3] }) { goServe [(0, modelOne)] [(3, { seqOne with append := some 1, ready := true })] [jobWith 0x11 { sq := 0, cid := 9 } .admitted (leBytes 0 16 ++ leBytes 4096 8 ++ leBytes 4096 8 ++ leBytes 0 24 ++ leBytes 3 4 ++ leBytes 1 4 ++ leBytes 0 8 ++ leBytes 1 4)] with tiles := [(3, { Tile.reset with hurdle := true })] }, by decide +kernel, by decide +kernel, by decide +kernel, by decide +kernel, by decide +kernel, (by decide +kernel), by decide +kernel, by decide +kernel, by decide +kernel, by decide +kernel, by decide +kernel, (by decide +kernel), by decide +kernel, by decide +kernel, by decide +kernel, by decide +kernel, by decide +kernel, (by decide +kernel), by decide +kernel, Or.inl (by decide +kernel)⟩,
   ⟨2, 3, { squad 3 [3] with templates := [[0]] }, { lapOf 0 1 with prefill := [(3, 2)] }, { stallCycles := 0, logits := [], fillerWaits := 0, loss := 7 }, { seqOne with tokens := [5, 6, 7, 8], append := some 1, ready := false }, modelOne, 1, 2, jobWith 0x11 { sq := 0, cid := 9 } .admitted (leBytes 0 16 ++ leBytes 4096 8 ++ leBytes 4096 8 ++ leBytes 0 24 ++ leBytes 3 4 ++ leBytes 1 4 ++ leBytes 0 8 ++ leBytes 5 4), inLap ({ lapOf 0 1 with prefill := [(3, 2)] }) { goServe [(0, modelOne)] [(3, { seqOne with tokens := [5, 6, 7, 8], append := some 1, ready := false })] [jobWith 0x11 { sq := 0, cid := 9 } .admitted (leBytes 0 16 ++ leBytes 4096 8 ++ leBytes 4096 8 ++ leBytes 0 24 ++ leBytes 3 4 ++ leBytes 1 4 ++ leBytes 0 8 ++ leBytes 5 4)] with tiles := [(3, { Tile.reset with hurdle := true })] }, by decide +kernel⟩,
   ⟨2, 3, { { squad 3 [3] with templates := [[0]] } with state := .draining }, lapOf 0 1, { stallCycles := 0, logits := [], fillerWaits := 0, loss := 7 }, { seqOne with append := some 1 }, modelOne, 1, jobWith 0x11 { sq := 0, cid := 9 } .admitted (leBytes 0 16 ++ leBytes 4096 8 ++ leBytes 4096 8 ++ leBytes 0 24 ++ leBytes 3 4 ++ leBytes 1 4 ++ leBytes 0 8 ++ leBytes 5 4), { inLap (lapOf 0 1) { goServe [(0, modelOne)] [(3, { seqOne with append := some 1 })] [jobWith 0x11 { sq := 0, cid := 9 } .admitted (leBytes 0 16 ++ leBytes 4096 8 ++ leBytes 4096 8 ++ leBytes 0 24 ++ leBytes 3 4 ++ leBytes 1 4 ++ leBytes 0 8 ++ leBytes 5 4)] with tiles := [(3, { Tile.reset with hurdle := true })] } with sl := { Sl.reset with set_ := { SquadSet.empty with squads := [(2, { { squad 3 [3] with templates := [[0]] } with state := .draining })] } } }, by decide +kernel⟩,
   ⟨2, squad 1 [3], { stallCycles := 0, logits := [], fillerWaits := 0, loss := 7 }, { goJobs 1 [] with tiles := [(3, { Tile.reset with hurdle := true, sems := List.replicate 16 1 })] }, by decide +kernel⟩,
   ⟨2, { stallCycles := 0, logits := [], fillerWaits := 0, loss := 7 }, goJobs 4 [], Or.inr (Or.inr ⟨squad 4 [3], by decide +kernel, Or.inl (by decide +kernel)⟩)⟩⟩

/-- The hypotheses of UpdateRatioMonitor are met. -/
theorem witness_UpdateRatioMonitor :
    (∃ (g : Nat) (ls : List LayerSpan) (hi ctl : W32) (l : Lap) (j : Job) (z : NsSquad) (xs : List (Nat × W32 × Nat)) (s : State), (s.inGo = true) ∧ (s.job g = some j) ∧ ((s.lapsOf j.squad).flight = some l) ∧ (l.jobTag = g) ∧ (l.update = true) ∧ (j.lap.pass1 = false) ∧ (j.state = .admitted) ∧ (s.nsSq j.squad = z) ∧ (hi = z.uwrNext.getD z.uwrHi) ∧ (ctl = z.ctlNext.getD z.ctl) ∧ (xs = (s.pass1Sums j ls).filterMap (fun y => (layerRatio y).bind (fun r => if crosses hi r then some (y.layer, r, ratioAction (bitsW ctl 1 0) r) else none))) ∧ (∀ x ∈ xs, x.2.2 ≠ 2)) ∧
    (∃ (g : Nat) (ls : List LayerSpan) (hi ctl : W32) (l : Lap) (j : Job) (z : NsSquad) (x : Nat × W32 × Nat) (xs : List (Nat × W32 × Nat)) (s : State), (s.inGo = true) ∧ (s.job g = some j) ∧ ((s.lapsOf j.squad).flight = some l) ∧ (l.jobTag = g) ∧ (l.update = true) ∧ (j.lap.pass1 = false) ∧ (j.state = .admitted) ∧ (s.nsSq j.squad = z) ∧ (hi = z.uwrNext.getD z.uwrHi) ∧ (ctl = z.ctlNext.getD z.ctl) ∧ (xs = (s.pass1Sums j ls).filterMap (fun y => (layerRatio y).bind (fun r => if crosses hi r then some (y.layer, r, ratioAction (bitsW ctl 1 0) r) else none))) ∧ (x ∈ xs) ∧ (x.2.2 = 2) ∧ (j.u32 152 = 0xFFFFFFFF) ∧ (j.kind = 0x20) ∧ (j.c ∈ s.qe.fetched) ∧ (s.qe.fetched.Nodup)) ∧
    (∃ (g : Nat) (ls : List LayerSpan) (s : State), (∀ j l, s.job g = some j → (s.lapsOf j.squad).flight = some l → s.inGo = false ∨ l.jobTag ≠ g ∨ l.update = false ∨ j.lap.pass1 = true ∨ j.state ≠ .admitted)) :=
  ⟨⟨1, [stopSpan], 0xBF800000, 1, { lapOf 0xFF 1 with update := true }, stopTrain, { NsSquad.reset with uwrHi := 0xBF800000, ctl := 1 }, [(6, 0, 1)], holdState, by decide +kernel, by decide +kernel, by decide +kernel, by decide +kernel, by decide +kernel, (by decide +kernel), by decide +kernel, by decide +kernel, by decide +kernel, by decide +kernel, (by rw [pass1_hold]; decide +kernel), by decide +kernel⟩,
   ⟨1, [stopSpan], 0xBF800000, 2, { lapOf 0xFF 1 with update := true }, stopTrain, { NsSquad.reset with uwrHi := 0xBF800000, ctl := 2 }, (6, 0, 2), [(6, 0, 2)], stopState, by decide +kernel, by decide +kernel, by decide +kernel, by decide +kernel, by decide +kernel, (by decide +kernel), by decide +kernel, by decide +kernel, by decide +kernel, by decide +kernel, (by rw [pass1_stop]; decide +kernel), by decide +kernel⟩,
   ⟨1, [], goJobs 4 [], by intro j l h; cases h⟩⟩

/-- The hypotheses of clause 1 of ObjectPlacement are met. -/
theorem witness_ObjectPlacement_1 :
    (∃ (c : CmdId) (d : Dwords) (x : List Byte) (r : Region) (a : Nat) (s : State), (s.serves c .job) ∧ (s.placeFits d r a)) :=
  ⟨{ sq := 0, cid := 7 }, objWords 7 0, [5], { id := 7, tier := 0, kind := 1, owner := 0, access := 0, base := 0x40000, size := 0x400000 }, 0x40000, goObj [] [], by decide +kernel, ⟨by decide +kernel, by decide +kernel, fun _ h => absurd h List.not_mem_nil, by simp [goObj], by decide +kernel, by decide +kernel, by decide, by decide, by decide +kernel⟩⟩

/-- The hypotheses of clause 2 of ObjectPlacement are met. -/
theorem witness_ObjectPlacement_2 :
    (∃ (c : CmdId) (d : Dwords) (r q : Region) (a : Nat) (s : State), (s.serves c .job) ∧ (s.placeFits d r a) ∧ (s.region (Dwords.srcRegion d) = some q) ∧ (q.tier = 0) ∧ (Dwords.source d + footprint (Dwords.batons d) ≤ q.size)) :=
  ⟨{ sq := 0, cid := 7 }, objWords 7 0, { id := 7, tier := 0, kind := 1, owner := 0, access := 0, base := 0x40000, size := 0x400000 }, { id := 7, tier := 0, kind := 1, owner := 0, access := 0, base := 0x40000, size := 0x400000 }, 0x40000, goObj [] [], by decide +kernel, ⟨by decide +kernel, by decide +kernel, fun _ h => absurd h List.not_mem_nil, by simp [goObj], by decide +kernel, by decide +kernel, by decide, by decide, by decide +kernel⟩, (by decide +kernel), by decide, by decide +kernel⟩

/-- The hypotheses of clause 3 of ObjectPlacement are met. -/
theorem witness_ObjectPlacement_3 :
    (∃ (c : CmdId) (d : Dwords) (r : Region) (a : Nat) (n : Namespace) (s : State), (s.serves c .job) ∧ (s.placeFits d r a) ∧ (s.storeIdle c d.nsid n) ∧ (Dwords.source d + footprint (Dwords.batons d) / 4096 ≤ n.blocks)) :=
  ⟨{ sq := 0, cid := 7 }, objWords 7 0, { id := 7, tier := 0, kind := 1, owner := 0, access := 0, base := 0x40000, size := 0x400000 }, 0x40000, { granules := [0], blocks := 262144, attached := true, readOnly := false, key := 1 }, goObj [] [], by decide +kernel, ⟨by decide +kernel, by decide +kernel, fun _ h => absurd h List.not_mem_nil, by simp [goObj], by decide +kernel, by decide +kernel, by decide, by decide, by decide +kernel⟩, (by decide +kernel)⟩

/-- The hypotheses of clause 4 of ObjectPlacement are met. -/
theorem witness_ObjectPlacement_4 :
    (∃ (c : CmdId) (d : Dwords) (x : List Byte) (s : State), (s.serves c .job) ∧ (Dwords.object d ≠ 0xFFFFFFFF) ∧ (s.objClosed (Dwords.object d) = false) ∧ (s.objBusy (Dwords.object d) = true ∨ (∃ w ∈ s.rl.waiting, Dwords.object w.d = Dwords.object d))) :=
  ⟨{ sq := 0, cid := 7 }, objWords 7 0, [5], goObj [] [copyOf false 0], by decide +kernel, by decide, by decide +kernel, Or.inl (by decide +kernel)⟩

/-- The hypotheses of clause 5 of ObjectPlacement are met. -/
theorem witness_ObjectPlacement_5 :
    (∃ (c : CmdId) (d : Dwords) (x : List Byte) (s : State), (s.serves c .job) ∧ (Dwords.object d = 0xFFFFFFFF ∨ s.objClosed (Dwords.object d) = true ∨ (s.region (Dwords.region d)).filter Region.placeable = none) ∧ (s.objBusy (Dwords.object d) = false) ∧ (∀ w ∈ s.rl.waiting, Dwords.object w.d ≠ Dwords.object d)) :=
  ⟨{ sq := 0, cid := 7 }, objWords 9 0, [5], goObj [] [], by decide +kernel, Or.inr (Or.inr (by decide +kernel)), by decide +kernel, fun _ h => absurd h List.not_mem_nil⟩

/-- The hypotheses of clause 6 of ObjectPlacement are met. -/
theorem witness_ObjectPlacement_6 :
    (∃ (c : CmdId) (d : Dwords) (x : List Byte) (r : Region) (st : Nat) (s : State), (s.serves c .job) ∧ (Dwords.object d ≠ 0xFFFFFFFF) ∧ (s.objClosed (Dwords.object d) = false) ∧ (s.objBusy (Dwords.object d) = false) ∧ (∀ w ∈ s.rl.waiting, Dwords.object w.d ≠ Dwords.object d) ∧ (s.region (Dwords.region d) = some r) ∧ (r.placeable = true) ∧ (st = stInvalidField ∧ Dwords.batons d = 0 ∨ Dwords.batons d ≠ 0 ∧ st = stCapacity ∧
       ((s.rl.dir.find (Dwords.object d)).isSome = true ∨ s.dirTaken < 262144) ∧ s.allocNear r (footprint (Dwords.batons d)) = none)) :=
  ⟨{ sq := 0, cid := 7 }, { objWords 7 0 with d14 := 0 }, [5], { id := 7, tier := 0, kind := 1, owner := 0, access := 0, base := 0x40000, size := 0x400000 }, stInvalidField, goObj [] [], by decide +kernel, by decide, by decide +kernel, by decide +kernel, fun _ h => absurd h List.not_mem_nil, by decide +kernel, by decide, Or.inl (by decide)⟩

/-- The hypotheses of clause 7 of ObjectPlacement are met. -/
theorem witness_ObjectPlacement_7 :
    (∃ (c : CmdId) (d : Dwords) (r : Region) (s : State), (s.serves c .job) ∧ (Dwords.object d ≠ 0xFFFFFFFF) ∧ (s.objClosed (Dwords.object d) = false) ∧ (s.objBusy (Dwords.object d) = false) ∧ (∀ w ∈ s.rl.waiting, Dwords.object w.d ≠ Dwords.object d) ∧ (s.region (Dwords.region d) = some r) ∧ (r.placeable = true) ∧ (Dwords.batons d ≠ 0)) :=
  ⟨{ sq := 0, cid := 7 }, { objWords 7 0 with d15 := 9, nsid := 5 }, { id := 7, tier := 0, kind := 1, owner := 0, access := 0, base := 0x40000, size := 0x400000 }, goObj [] [], by decide +kernel, by decide, by decide +kernel, by decide +kernel, fun _ h => absurd h List.not_mem_nil, by decide +kernel⟩

/-- The hypotheses of clause 8 of ObjectPlacement are met. -/
theorem witness_ObjectPlacement_8 :
    (∃ (c : CmdId) (d : Dwords) (x : List Byte) (r : Region) (s : State), (s.serves c .job) ∧ (Dwords.object d ≠ 0xFFFFFFFF) ∧ (s.objBusy (Dwords.object d) = false) ∧ (∀ w ∈ s.rl.waiting, Dwords.object w.d ≠ Dwords.object d) ∧ (s.region (Dwords.region d) = some r) ∧ (r.placeable = true) ∧ (Dwords.batons d ≠ 0) ∧ (s.rl.dir.find (Dwords.object d) = none) ∧ (262144 ≤ s.dirTaken)) :=
  ⟨{ sq := 0, cid := 7 }, objWords 7 0, [5], { id := 7, tier := 0, kind := 1, owner := 0, access := 0, base := 0x40000, size := 0x400000 }, goObj fullDir [], by decide +kernel, by decide, busy_fullDir, fun _ h => absurd h List.not_mem_nil, by decide +kernel, by decide, by decide, find_fullDir, taken_fullDir⟩

/-- The hypotheses of clause 9 of ObjectPlacement are met. -/
theorem witness_ObjectPlacement_9 :
    (∃ (c : CmdId) (d : Dwords) (r : Region) (e : DirEntry) (f g a : Nat) (s : State), (s.serves c .job) ∧ (Dwords.object d ≠ 0xFFFFFFFF) ∧ (s.region (Dwords.region d) = some r) ∧ (r.placeable = true) ∧ (s.rl.dir.find (Dwords.object d) = some e) ∧ (e.discardPending = false) ∧ (e.segment = false) ∧ (e.state = .home) ∧ (e.damaged = false) ∧ (e.cur.home = .far f ∨ e.cur.home = .ns f g) ∧ (s.allocNear r (footprint e.cur.batons) = some a)) :=
  ⟨{ sq := 0, cid := 7 }, objWords 7 0, { id := 7, tier := 0, kind := 1, owner := 0, access := 0, base := 0x40000, size := 0x400000 }, objAt 1 none (.far 0) .home, 0, 0, 0x40000, goObj [(9, objAt 1 none (.far 0) .home)] [], by decide +kernel, by decide +kernel, by decide +kernel, by decide +kernel, by decide +kernel, (by decide +kernel), by decide +kernel, by decide +kernel, by decide +kernel, Or.inl (by decide +kernel), by decide +kernel⟩

/-- The hypotheses of clause 10 of ObjectPlacement are met. -/
theorem witness_ObjectPlacement_10 :
    (∃ (c : CmdId) (d : Dwords) (r : Region) (e : DirEntry) (s : State), (s.serves c .job) ∧ (Dwords.object d ≠ 0xFFFFFFFF) ∧ (s.region (Dwords.region d) = some r) ∧ (s.rl.dir.find (Dwords.object d) = some e) ∧ (e.discardPending = false) ∧ (e.segment = false) ∧ (e.state = .resident) ∧ (e.cur.home ≠ .none)) :=
  ⟨{ sq := 0, cid := 7 }, objWords 7 0, { id := 7, tier := 0, kind := 1, owner := 0, access := 0, base := 0x40000, size := 0x400000 }, objAt 3 (some 0x40000) (.far 0) .resident, goObj [(9, objAt 3 (some 0x40000) (.far 0) .resident)] [], by decide +kernel⟩

/-- The hypotheses of clause 11 of ObjectPlacement are met. -/
theorem witness_ObjectPlacement_11 :
    (∃ (c : CmdId) (d : Dwords) (s : State), (s.serves c .job) ∧ (Dwords.object d = 0xFFFFFFFF ∨ s.objClosed (Dwords.object d) = true ∨ (∀ e, s.rl.dir.find (Dwords.object d) = some e → e.cur.home = .none ∨ e.state = .home ∧ e.damaged = false ∧ (s.region (Dwords.region d)).filter Region.placeable = none))) :=
  ⟨{ sq := 0, cid := 7 }, objWords 7 0, goObj [(9, objAt 3 (some 0x40000) .none .resident)] [], by decide +kernel, Or.inr (Or.inr (by intro e h; cases h; exact Or.inl rfl))⟩

/-- The hypotheses of clause 12 of ObjectPlacement are met. -/
theorem witness_ObjectPlacement_12 :
    (∃ (c : CmdId) (d : Dwords) (r : Region) (e : DirEntry) (s : State), (s.serves c .job) ∧ (Dwords.object d ≠ 0xFFFFFFFF) ∧ (s.region (Dwords.region d) = some r) ∧ (r.placeable = true) ∧ (s.rl.dir.find (Dwords.object d) = some e) ∧ (e.discardPending = false) ∧ (e.segment = false) ∧ (e.cur.home ≠ .none)) :=
  ⟨{ sq := 0, cid := 7 }, objWords 7 0, { id := 7, tier := 0, kind := 1, owner := 0, access := 0, base := 0x40000, size := 0x400000 }, { objAt 1 (some 0x40000) (.far 0) .evicting with waits := [.evict { sq := 0, cid := 9 } false] }, goObj [(9, { objAt 1 (some 0x40000) (.far 0) .evicting with waits := [.evict { sq := 0, cid := 9 } false] })] [], by decide +kernel⟩

/-- The hypotheses of clause 1 of CopiesThatEnd are met. -/
theorem witness_CopiesThatEnd_1 :
    (∃ (k : Copy) (q : ObjCmd) (s : State), (s.relayRuns = true) ∧ (s.rl.copies.find? (fun x => x.object == k.object && !x.publish) = some k) ∧ (k.cmd = some q) ∧ (q.src ≠ 1 ∧ s.storeCmd q.c = none ∨ q.src = 1 ∧ (s.storeCmd q.c).map StoreCmd.stage = some .running) ∧ (q.src = 1 → s.mm.anyBad q.d.nsid (Dwords.source q.d) (footprint k.batons / 4096) = false) ∧ (s.oldDrains k.object = false) ∧ (∀ e, s.rl.dir.find k.object = some e → e.waits = []) ∧ (s.rl.waiting = []) ∧ (q.c ∈ s.qe.fetched)) :=
  ⟨copyOf false 0, { c := { sq := 0, cid := 9 }, publish := false, src := 0, d := objWords 7 0, data := [1, 2, 3] }, goObj [] [copyOf false 0], by decide +kernel, by decide +kernel, by decide +kernel, Or.inl (by decide +kernel), by decide, by decide +kernel, (by intro e h; cases h), by decide +kernel⟩

/-- The hypotheses of clause 2 of CopiesThatEnd are met. -/
theorem witness_CopiesThatEnd_2 :
    (∃ (k : Copy) (q : ObjCmd) (r : CopyResult) (s : State), (s.relayRuns = true) ∧ (s.rl.copies.find? (fun x => x.object == k.object && !x.publish) = some k) ∧ (k.cmd = some q) ∧ (q.src ≠ 1 ∧ s.storeCmd q.c = none ∨ q.src = 1 ∧ (s.storeCmd q.c).map StoreCmd.stage = some .running) ∧ (r ≠ .ok ∨ q.src = 1 ∧ s.mm.anyBad q.d.nsid (Dwords.source q.d) (footprint k.batons / 4096) = true) ∧ (s.oldDrains k.object = false) ∧ (s.rl.waiting = []) ∧ (q.c ∈ s.qe.fetched)) :=
  ⟨copyOf false 0, { c := { sq := 0, cid := 9 }, publish := false, src := 0, d := objWords 7 0, data := [1, 2, 3] }, .readFail, goObj [] [copyOf false 0], by decide +kernel, by decide +kernel, by decide +kernel, Or.inl (by decide +kernel), Or.inl (by decide), by decide +kernel⟩

/-- The hypotheses of clause 3 of CopiesThatEnd are met. -/
theorem witness_CopiesThatEnd_3 :
    (∃ (k : Copy) (q : ObjCmd) (r : CopyResult) (s : State), (s.relayRuns = true) ∧ (s.rl.copies.find? (fun x => x.object == k.object && !x.publish) = some k) ∧ (k.cmd = some q) ∧ (s.oldDrains k.object = true ∨ ((s.storeCmd q.c).map StoreCmd.stage).any (fun x => x != .running) = true)) :=
  ⟨copyOf false 0, { c := { sq := 0, cid := 9 }, publish := false, src := 0, d := objWords 7 0, data := [1, 2, 3] }, .ok, goObj [(9, { objAt 1 (some 0x200000) .none .resident with old := some (Version.fresh 1 16 7 none .none) })] [copyOf false 0], by decide +kernel, by decide +kernel, by decide +kernel, Or.inl (by decide +kernel)⟩

/-- The hypotheses of clause 4 of CopiesThatEnd are met. -/
theorem witness_CopiesThatEnd_4 :
    (∃ (k : Copy) (r : CopyResult) (j : Job) (s : State), (s.relayRuns = true) ∧ (s.rl.copies.find? (fun x => x.object == k.object && !x.publish) = some k) ∧ (k.cmd = none) ∧ (s.job k.tag = some j) ∧ (j.state = .admitted) ∧ (j.lap.pubDue = false) ∧ (s.oldDrains k.object = false) ∧ (∀ e, s.rl.dir.find k.object = some e → e.waits = []) ∧ (s.rl.waiting = []) ∧ (∀ p ∈ k.pins, p.object ≠ k.object)) :=
  ⟨{ copyOf false 0 with cmd := none, tag := 1 }, .ok, jobWith 0x20 { sq := 0, cid := 9 } .admitted [], { goObj [] [{ copyOf false 0 with cmd := none, tag := 1 }] with jd := { Jd.reset with jobs := [jobWith 0x20 { sq := 0, cid := 9 } .admitted []] } }, by decide +kernel, by decide +kernel, by decide +kernel, by decide +kernel, by decide +kernel, (by decide +kernel), by decide +kernel, (by intro e h; cases h), by decide +kernel⟩

/-- The hypotheses of clause 5 of CopiesThatEnd are met. -/
theorem witness_CopiesThatEnd_5 :
    (∃ (o a : Nat) (c : CmdId) (j : Bool) (e : DirEntry) (s : State), (s.relayRuns = true) ∧ (∀ k ∈ s.rl.copies, k.object ≠ o ∨ k.publish = true) ∧ (s.rl.dir.find o = some e) ∧ (e.state = .promoting) ∧ (e.cur.near = some a) ∧ (s.rl.ftShare % 512 ≠ 0 ∨ e.cur.home.isFar = false) ∧ (e.evictPending = false) ∧ (e.waits = [.place c j]) ∧ (c ∈ s.qe.fetched)) :=
  ⟨9, 0x40000, { sq := 0, cid := 9 }, false, { objAt 1 (some 0x40000) (.far 0) .promoting with waits := [.place { sq := 0, cid := 9 } false] }, goObj [(9, { objAt 1 (some 0x40000) (.far 0) .promoting with waits := [.place { sq := 0, cid := 9 } false] })] [], by decide +kernel, (fun _ h => absurd h List.not_mem_nil), by decide +kernel, by decide +kernel, by decide +kernel, Or.inl (by decide +kernel), by decide +kernel⟩

/-- The hypotheses of clause 6 of CopiesThatEnd are met. -/
theorem witness_CopiesThatEnd_6 :
    (∃ (o a : Nat) (c : CmdId) (e : DirEntry) (s : State), (s.relayRuns = true) ∧ (∀ k ∈ s.rl.copies, k.object ≠ o ∨ k.publish = true) ∧ (s.rl.dir.find o = some e) ∧ (e.state = .promoting) ∧ (e.cur.near = some a) ∧ (s.rl.ftShare % 512 ≠ 0) ∧ (e.evictPending = true) ∧ (e.discardPending = false) ∧ (e.cur.home ≠ .none) ∧ (e.cur.pins = 0) ∧ (e.waits = [.evict c true]) ∧ (c ∈ s.qe.fetched)) :=
  ⟨9, 0x40000, { sq := 0, cid := 9 }, { objAt 1 (some 0x40000) (.far 0) .promoting with evictPending := true, waits := [.evict { sq := 0, cid := 9 } true] }, goObj [(9, { objAt 1 (some 0x40000) (.far 0) .promoting with evictPending := true, waits := [.evict { sq := 0, cid := 9 } true] })] [], by decide +kernel, (fun _ h => absurd h List.not_mem_nil), by decide +kernel⟩

/-- The hypotheses of clause 7 of CopiesThatEnd are met. -/
theorem witness_CopiesThatEnd_7 :
    (∃ (o : Nat) (c : CmdId) (j : Bool) (r : CopyResult) (e : DirEntry) (s : State), (s.relayRuns = true) ∧ (∀ k ∈ s.rl.copies, k.object ≠ o ∨ k.publish = true) ∧ (s.rl.dir.find o = some e) ∧ (e.state = .promoting) ∧ (r ≠ .ok) ∧ (e.evictPending = false) ∧ (e.waits = [.place c j]) ∧ (c ∈ s.qe.fetched)) :=
  ⟨9, { sq := 0, cid := 9 }, false, .damaged 3 0x1000, { objAt 1 (some 0x40000) (.far 0) .promoting with waits := [.place { sq := 0, cid := 9 } false] }, goObj [(9, { objAt 1 (some 0x40000) (.far 0) .promoting with waits := [.place { sq := 0, cid := 9 } false] })] [], by decide +kernel, (fun _ h => absurd h List.not_mem_nil), by decide +kernel, by decide +kernel, by decide, by decide +kernel⟩

/-- The hypotheses of clause 8 of CopiesThatEnd are met. -/
theorem witness_CopiesThatEnd_8 :
    (∃ (c : CmdId) (d : Dwords) (x : List Byte) (r : Region) (s : State), (s.serves c .job) ∧ (Dwords.object d ≠ 0xFFFFFFFF) ∧ (s.objClosed (Dwords.object d) = false) ∧ (s.objBusy (Dwords.object d) = false) ∧ (∀ w ∈ s.rl.waiting, Dwords.object w.d ≠ Dwords.object d) ∧ ((s.rl.dir.find (Dwords.object d)).isSome = true ∨ s.dirTaken < 262144) ∧ (s.region (Dwords.region d) = some r) ∧ (r.tier = 1) ∧ (Dwords.source d % 0x4000000 = 0) ∧ (Dwords.batons d ≠ 0) ∧ (Dwords.source d + 0x4000000 * chunksOf (Dwords.batons d) ≤ r.size) ∧ (s.homeTaken (r.base + Dwords.source d) (0x4000000 * chunksOf (Dwords.batons d)) = false) ∧ (∀ i, i < chunksOf (Dwords.batons d) → s.mm.chunkFailed ((r.base + Dwords.source d) / 0x4000000 + i) = false)) :=
  ⟨{ sq := 0, cid := 7 }, objWords 8 0, [5], { id := 8, tier := 1, kind := 1, owner := 0, access := 0, base := 0, size := 0x8000000 }, goObj [] [], by decide +kernel, by decide, by decide +kernel, by decide +kernel, (fun _ h => absurd h List.not_mem_nil), Or.inr (by decide +kernel), by decide +kernel⟩

/-- The hypotheses of clause 9 of CopiesThatEnd are met. -/
theorem witness_CopiesThatEnd_9 :
    (∃ (c : CmdId) (d : Dwords) (r : Region) (e : DirEntry) (s : State), (s.serves c .job) ∧ (Dwords.object d ≠ 0xFFFFFFFF) ∧ (s.rl.dir.find (Dwords.object d) = some e) ∧ (e.discardPending = false) ∧ (e.segment = false) ∧ (e.state = .resident) ∧ (s.region (Dwords.region d) = some r) ∧ (r.tier = 1) ∧ (Dwords.source d % 0x4000000 = 0) ∧ (e.cur.batons ≠ 0) ∧ (Dwords.source d + 0x4000000 * chunksOf e.cur.batons ≤ r.size) ∧ (s.homeTaken (r.base + Dwords.source d) (0x4000000 * chunksOf e.cur.batons) = false) ∧ (∀ i, i < chunksOf e.cur.batons → s.mm.chunkFailed ((r.base + Dwords.source d) / 0x4000000 + i) = false)) :=
  ⟨{ sq := 0, cid := 7 }, objWords 8 0, { id := 8, tier := 1, kind := 1, owner := 0, access := 0, base := 0, size := 0x8000000 }, objAt 3 (some 0x40000) .none .resident, goObj [(9, objAt 3 (some 0x40000) .none .resident)] [], by decide +kernel⟩

/-- The hypotheses of clause 10 of CopiesThatEnd are met. -/
theorem witness_CopiesThatEnd_10 :
    (∃ (c : CmdId) (d : Dwords) (x : List Byte) (s : State), (s.serves c .job) ∧ (Dwords.object d = 0xFFFFFFFF ∨ s.objClosed (Dwords.object d) = true ∨ s.objBusy (Dwords.object d) = false ∧ (∀ w ∈ s.rl.waiting, Dwords.object w.d ≠ Dwords.object d) ∧ s.region (Dwords.region d) = none ∧ ((s.rl.dir.find (Dwords.object d)).isSome = true ∨ s.dirTaken < 262144)) ∧ (s.objBusy (Dwords.object d) = false ∧ ∀ w ∈ s.rl.waiting, Dwords.object w.d ≠ Dwords.object d)) :=
  ⟨{ sq := 0, cid := 7 }, objWords 9 0, [5], goObj [] [], by decide +kernel, Or.inr (Or.inr ⟨by decide +kernel, (fun _ h => absurd h List.not_mem_nil), by decide +kernel, Or.inr (by decide +kernel)⟩), by decide +kernel, (fun _ h => absurd h List.not_mem_nil)⟩

/-- The hypotheses of clause 11 of CopiesThatEnd are met. -/
theorem witness_CopiesThatEnd_11 :
    (∃ (c : CmdId) (d : Dwords) (s : State), (s.serves c .job) ∧ (Dwords.object d ≠ 0xFFFFFFFF) ∧ (s.objClosed (Dwords.object d) = false)) :=
  ⟨{ sq := 0, cid := 7 }, objWords 8 0, goObj [(9, objAt 1 (some 0x40000) (.far 0) .promoting)] [], by decide +kernel⟩

/-- The hypotheses of clause 12 of CopiesThatEnd are met. -/
theorem witness_CopiesThatEnd_12 :
    (∃ (k : Copy) (q : ObjCmd) (s : State), (s.relayRuns = true) ∧ (s.rl.copies.find? (fun x => x.object == k.object && x.publish) = some k) ∧ (k.cmd = some q) ∧ (q.src = 0) ∧ (s.oldDrains k.object = false) ∧ (∀ e, s.rl.dir.find k.object = some e → e.waits = []) ∧ (s.rl.waiting = []) ∧ (q.c ∈ s.qe.fetched)) :=
  ⟨copyOf true 0, { c := { sq := 0, cid := 9 }, publish := true, src := 0, d := objWords 8 0, data := [1, 2, 3] }, goObj [] [copyOf true 0], by decide +kernel, by decide +kernel, by decide +kernel, by decide +kernel, by decide +kernel, (by intro e h; cases h), (by decide +kernel)⟩

/-- The hypotheses of clause 13 of CopiesThatEnd are met. -/
theorem witness_CopiesThatEnd_13 :
    (∃ (k : Copy) (q : ObjCmd) (e : DirEntry) (s : State), (s.relayRuns = true) ∧ (s.rl.copies.find? (fun x => x.object == k.object && x.publish) = some k) ∧ (k.cmd = some q) ∧ (q.src = 3) ∧ (s.rl.dir.find k.object = some e) ∧ (e.cur.num = k.version) ∧ (s.rl.waiting = []) ∧ (q.c ∈ s.qe.fetched)) :=
  ⟨copyOf true 3, { c := { sq := 0, cid := 9 }, publish := true, src := 3, d := objWords 8 0, data := [1, 2, 3] }, { objAt 1 (some 0x40000) .none .resident with cur := { Version.fresh 1 16 7 (some 0x40000) .none with pinsNear := 1 } }, goObj [(9, { objAt 1 (some 0x40000) .none .resident with cur := { Version.fresh 1 16 7 (some 0x40000) .none with pinsNear := 1 } })] [copyOf true 3], by decide +kernel⟩

/-- The hypotheses of clause 1 of Evictions are met. -/
theorem witness_Evictions_1 :
    (∃ (c : CmdId) (d : Dwords) (e : DirEntry) (s : State), (s.serves c .job) ∧ (s.rl.dir.find (Dwords.object d) = some e) ∧ (e.segment = false) ∧ (s.rl.waiting = []) ∧ (e.state = .resident) ∧ (e.cur.home ≠ .none) ∧ (e.cur.pins = 0) ∧ (e.discardPending = false) ∧ (e.waits = [])) :=
  ⟨{ sq := 0, cid := 7 }, objWords 7 0, objAt 1 (some 0x40000) (.far 0) .resident, goObj [(9, objAt 1 (some 0x40000) (.far 0) .resident)] [], by decide +kernel⟩

/-- The hypotheses of clause 2 of Evictions are met. -/
theorem witness_Evictions_2 :
    (∃ (c : CmdId) (d : Dwords) (e : DirEntry) (s : State), (s.serves c .job) ∧ (s.rl.dir.find (Dwords.object d) = some e) ∧ (e.segment = false) ∧ (s.rl.waiting = []) ∧ (e.state = .resident) ∧ (e.cur.home ≠ .none) ∧ (e.cur.pins ≠ 0)) :=
  ⟨{ sq := 0, cid := 7 }, objWords 7 0, { objAt 1 (some 0x40000) (.far 0) .resident with cur := { Version.fresh 1 16 7 (some 0x40000) (.far 0) with pinsNear := 2 } }, goObj [(9, { objAt 1 (some 0x40000) (.far 0) .resident with cur := { Version.fresh 1 16 7 (some 0x40000) (.far 0) with pinsNear := 2 } })] [], by decide +kernel⟩

/-- The hypotheses of clause 3 of Evictions are met. -/
theorem witness_Evictions_3 :
    (∃ (c : CmdId) (d : Dwords) (e : DirEntry) (s : State), (s.serves c .job) ∧ (s.rl.dir.find (Dwords.object d) = some e) ∧ (e.segment = false) ∧ (s.rl.waiting = []) ∧ (e.cur.home ≠ .none)) :=
  ⟨{ sq := 0, cid := 7 }, objWords 7 0, objAt 1 (some 0x40000) (.far 0) .promoting, goObj [(9, objAt 1 (some 0x40000) (.far 0) .promoting)] [], by decide +kernel⟩

/-- The hypotheses of clause 4 of Evictions are met. -/
theorem witness_Evictions_4 :
    (∃ (c : CmdId) (d : Dwords) (e : DirEntry) (s : State), (s.serves c .job) ∧ (s.rl.dir.find (Dwords.object d) = some e) ∧ (e.segment = false) ∧ (s.rl.waiting = []) ∧ (e.state = .home) ∧ (e.cur.home ≠ .none)) :=
  ⟨{ sq := 0, cid := 7 }, objWords 7 0, objAt 1 none (.far 0) .home, goObj [(9, objAt 1 none (.far 0) .home)] [], by decide +kernel⟩

/-- The hypotheses of clause 5 of Evictions are met. -/
theorem witness_Evictions_5 :
    (∃ (c : CmdId) (d : Dwords) (s : State), (s.serves c .job) ∧ (s.rl.dir.find (Dwords.object d) = none)) :=
  ⟨{ sq := 0, cid := 7 }, objWords 7 0, goObj [] [], by decide +kernel⟩

/-- The hypotheses of clause 6 of Evictions are met. -/
theorem witness_Evictions_6 :
    (∃ (c : CmdId) (d : Dwords) (e : DirEntry) (s : State), (s.serves c .job) ∧ (s.rl.dir.find (Dwords.object d) = some e)) :=
  ⟨{ sq := 0, cid := 7 }, objWords 7 0, objAt 1 (some 0x40000) .none .resident, goObj [(9, objAt 1 (some 0x40000) .none .resident)] [], by decide +kernel⟩

/-- The hypotheses of clause 7 of Evictions are met. -/
theorem witness_Evictions_7 :
    (∃ (c : CmdId) (d : Dwords) (e : DirEntry) (s : State), (s.serves c .job) ∧ (s.rl.dir.find (Dwords.object d) = some e) ∧ (e.segment = false) ∧ (s.rl.waiting = []) ∧ (e.state ≠ .promoting) ∧ (e.cur.pins = 0 ∧ e.old = none) ∧ (e.waits = [])) :=
  ⟨{ sq := 0, cid := 7 }, objWords 7 0, objAt 1 (some 0x40000) (.far 0) .resident, goObj [(9, objAt 1 (some 0x40000) (.far 0) .resident)] [], by decide +kernel⟩

/-- The hypotheses of clause 8 of Evictions are met. -/
theorem witness_Evictions_8 :
    (∃ (c : CmdId) (d : Dwords) (e : DirEntry) (s : State), (s.serves c .job) ∧ (s.rl.dir.find (Dwords.object d) = some e) ∧ (e.segment = false) ∧ (s.rl.waiting = []) ∧ (e.cur.pins ≠ 0 ∨ e.old.isSome = true)) :=
  ⟨{ sq := 0, cid := 7 }, objWords 7 0, { objAt 1 (some 0x40000) (.far 0) .home with cur := { Version.fresh 1 16 7 (some 0x40000) (.far 0) with pinsHome := 1 } }, goObj [(9, { objAt 1 (some 0x40000) (.far 0) .home with cur := { Version.fresh 1 16 7 (some 0x40000) (.far 0) with pinsHome := 1 } })] [], by decide +kernel⟩

/-- The hypotheses of clause 9 of Evictions are met. -/
theorem witness_Evictions_9 :
    (∃ (o : Nat) (c : CmdId) (p : Bool) (e : DirEntry) (s : State), (s.relayRuns = true) ∧ (s.rl.dir.find o = some e) ∧ (e.state = .evicting) ∧ (e.cur.pinsNear = 0) ∧ (e.condemned = false) ∧ (e.waits = [.evict c p]) ∧ (s.rl.waiting = []) ∧ (c ∈ s.qe.fetched)) :=
  ⟨9, { sq := 0, cid := 9 }, false, { objAt 1 (some 0x40000) (.far 0) .evicting with waits := [.evict { sq := 0, cid := 9 } false] }, goObj [(9, { objAt 1 (some 0x40000) (.far 0) .evicting with waits := [.evict { sq := 0, cid := 9 } false] })] [], by decide +kernel⟩

/-- The hypotheses of clause 10 of Evictions are met. -/
theorem witness_Evictions_10 :
    (∃ (o : Nat) (e : DirEntry) (v : Version) (s : State), (s.relayRuns = true) ∧ (s.rl.dir.find o = some e) ∧ (e.old = some v) ∧ (v.num ≠ e.cur.num) ∧ (v.pins = 0) ∧ (e.state ≠ .evicting ∧ e.discardPending = false) ∧ (e.waits = []) ∧ (s.rl.waiting = [])) :=
  ⟨9, { objAt 2 (some 0x60000) .none .resident with old := some (Version.fresh 1 16 7 (some 0x40000) .none) }, Version.fresh 1 16 7 (some 0x40000) .none, goObj [(9, { objAt 2 (some 0x60000) .none .resident with old := some (Version.fresh 1 16 7 (some 0x40000) .none) })] [], by decide +kernel⟩

/-- The hypotheses of clause 11 of Evictions are met. -/
theorem witness_Evictions_11 :
    (∃ (o : Nat) (e : DirEntry) (s : State), (s.relayRuns = true) ∧ (s.rl.dir.find o = some e) ∧ (e.condemned = true) ∧ (e.cur.pins = 0) ∧ (e.waits = []) ∧ (e.discardPending = false) ∧ (s.rl.waiting = [])) :=
  ⟨9, { objAt 1 (some 0x40000) (.far 0) .resident with condemned := true }, goObj [(9, { objAt 1 (some 0x40000) (.far 0) .resident with condemned := true })] [], by decide +kernel⟩

/-- The hypotheses of clause 12 of Evictions are met. -/
theorem witness_Evictions_12 :
    (∃ (o v : Nat) (s : State), (s.relayRuns = false ∨ s.rl.dir.find o = none ∨ ∃ e, s.rl.dir.find o = some e ∧ (e.cur.num = v ∧ e.condemned = false ∧ (e.state = .resident ∨ e.state = .promoting ∨ e.state = .evicting ∧ e.cur.pinsNear ≠ 0) ∨ e.cur.num ≠ v ∧ (∀ w, e.old = some w → w.num ≠ v ∨ w.pins ≠ 0)))) :=
  ⟨9, 1, goObj [] [], Or.inr (Or.inl (by decide +kernel))⟩

set_option maxRecDepth 100000 in
/-- The hypotheses of clause 1 of ImageStagingAndVerification are met. -/
theorem witness_ImageStagingAndVerification_1 :
    (∃ (c : CmdId) (d : Dwords) (x : List Byte) (s : State), (s.serves c .stage) ∧ (s.slBusy = false) ∧ (loadOpOk d = true) ∧ (d.d11.toNat % 4 = 0) ∧ (4 * (d.d12.toNat + 1) ≤ 0x200000) ∧ (d.d11.toNat + 4 * (d.d12.toNat + 1) ≤ 33554432)) :=
  ⟨{ sq := 0, cid := 7 }, loadWords 0 4 1, [9, 8, 7, 6, 5], goLoad SquadSet.empty none none [], by decide +kernel⟩

set_option maxRecDepth 100000 in
/-- The hypotheses of clause 2 of ImageStagingAndVerification are met. -/
theorem witness_ImageStagingAndVerification_2 :
    (∃ (c : CmdId) (d : Dwords) (x : List Byte) (s : State), (s.serves c .stage) ∧ (s.slBusy = false) ∧ (loadOpOk d = false ∨ d.d11.toNat % 4 ≠ 0 ∨ 0x200000 < 4 * (d.d12.toNat + 1) ∨ 33554432 < d.d11.toNat + 4 * (d.d12.toNat + 1))) :=
  ⟨{ sq := 0, cid := 7 }, loadWords 0 0x1FFFFFC 1, [5], goLoad SquadSet.empty none none [], by decide +kernel, by decide +kernel, Or.inr (Or.inr (Or.inr (by decide)))⟩

set_option maxRecDepth 100000 in
/-- The hypotheses of clause 3 of ImageStagingAndVerification are met. -/
theorem witness_ImageStagingAndVerification_3 :
    (∃ (c : CmdId) (d : Dwords) (x : List Byte) (s : State), (s.serves c .stage) ∧ (s.slBusy = true)) :=
  ⟨{ sq := 0, cid := 7 }, loadWords 0 0 0, [5], goLoad SquadSet.empty none (some { cs := [{ sq := 0, cid := 9 }], squad := 2, force := false, drained := 0, aborted := 0 }) [], by decide +kernel⟩

set_option maxRecDepth 100000 in
/-- The hypotheses of clause 4 of ImageStagingAndVerification are met. -/
theorem witness_ImageStagingAndVerification_4 :
    (∃ (c : CmdId) (d : Dwords) (s : State), (s.serves c .manage) ∧ (s.slBusy = true ∨ s.sl.persist.isSome = true)) :=
  ⟨{ sq := 0, cid := 7 }, loadWords 1 0 0, goLoad SquadSet.empty none (some { cs := [{ sq := 0, cid := 9 }], squad := 2, force := false, drained := 0, aborted := 0 }) [], by decide +kernel, Or.inl (by decide +kernel)⟩

set_option maxRecDepth 100000 in
/-- The hypotheses of clause 5 of ImageStagingAndVerification are met. -/
theorem witness_ImageStagingAndVerification_5 :
    (∃ (c : CmdId) (d : Dwords) (s : State), (s.serves c .stage) ∧ (s.slBusy = false) ∧ (loadOpOk d = true)) :=
  ⟨{ sq := 0, cid := 7 }, loadWords 2 0 0, goLoad SquadSet.empty none none [], by decide +kernel⟩

set_option maxRecDepth 100000 in
/-- The hypotheses of clause 6 of ImageStagingAndVerification are met. -/
theorem witness_ImageStagingAndVerification_6 :
    (∃ (c : CmdId) (d : Dwords) (s : State), (s.serves c .manage) ∧ (s.slBusy = false) ∧ (s.sl.persist = none) ∧ (loadOpOk d = true)) :=
  ⟨{ sq := 0, cid := 7 }, loadWords 0x201 0 0, goLoad SquadSet.empty none none [], by decide +kernel⟩

set_option maxRecDepth 100000 in
/-- The hypotheses of clause 7 of ImageStagingAndVerification are met. -/
theorem witness_ImageStagingAndVerification_7 :
    (∃ (c : CmdId) (d : Dwords) (s : State), (s.serves c .manage) ∧ (s.slBusy = false) ∧ (s.sl.persist = none) ∧ (loadOpOk d = false)) :=
  ⟨{ sq := 0, cid := 7 }, loadWords 7 0 0, goLoad SquadSet.empty none none [], by decide +kernel⟩

set_option maxRecDepth 100000 in
/-- The hypotheses of clause 8 of ImageStagingAndVerification are met. -/
theorem witness_ImageStagingAndVerification_8 :
    (∃ (l : Load) (next : SquadSet) (s : State), (s.inGo = true) ∧ (s.sl.load = some l) ∧ (l.step = .verify) ∧ ((s.sw.ownerKeys.find (imKey l.image)).isSome = true) ∧ (verifyImage s.sl.set_ s.sl.gen s.qe.versions.image false true l.image = .inr next)) :=
  ⟨loadOf imageBytes .verify SquadSet.empty [], { squads := [], routes := [], regions := [], bindings := [{ first := 1, last := 512, scan := 0xFF, search := 0xFF, serve := 0xFF, train := 0xFF }] }, goLoad { SquadSet.empty with squads := [(2, squad 1 [3])] } (some (loadOf imageBytes .verify SquadSet.empty [])) none [], by decide +kernel, by decide +kernel, by decide, key_imageBytes, by decide +kernel⟩

set_option maxRecDepth 100000 in
/-- The hypotheses of clause 9 of ImageStagingAndVerification are met. -/
theorem witness_ImageStagingAndVerification_9 :
    (∃ (l : Load) (next : SquadSet) (s : State), (s.inGo = true) ∧ (s.sl.load = some l) ∧ (l.step = .verify) ∧ ((s.sw.ownerKeys.find (imKey l.image)).isSome = true) ∧ (verifyImage s.sl.set_ s.sl.gen s.qe.versions.image false true l.image = .inr next) ∧ (removedIn s.sl.set_ next = []) ∧ (changedIn s.sl.set_ next (imFormat l.image == 5 && imPartial l.image) (imNamed l.image) = [])) :=
  ⟨loadOf imageBytes .verify SquadSet.empty [], { squads := [], routes := [], regions := [], bindings := [{ first := 1, last := 512, scan := 0xFF, search := 0xFF, serve := 0xFF, train := 0xFF }] }, goLoad SquadSet.empty (some (loadOf imageBytes .verify SquadSet.empty [])) none [], by decide +kernel, by decide +kernel, by decide, key_imageBytes, by decide +kernel⟩

set_option maxRecDepth 100000 in
/-- The hypotheses of clause 10 of ImageStagingAndVerification are met. -/
theorem witness_ImageStagingAndVerification_10 :
    (∃ (g : Bool) (l : Load) (f : LoadFail) (s : State), (s.inGo = true) ∧ (s.sl.load = some l) ∧ (l.step = .verify) ∧ (verifyImage s.sl.set_ s.sl.gen s.qe.versions.image false (g && (s.sw.ownerKeys.find (imKey l.image)).isSome) l.image = .inl f) ∧ (f.1 ≠ 3) ∧ (l.c ∈ s.qe.fetched)) :=
  ⟨false, loadOf [1, 2, 3] .verify SquadSet.empty [], (1, 0, 0), goLoad SquadSet.empty (some (loadOf [1, 2, 3] .verify SquadSet.empty [])) none [], by decide +kernel, by decide +kernel, by decide, by decide +kernel, by decide, by decide⟩

set_option maxRecDepth 100000 in
/-- The hypotheses of clause 11 of ImageStagingAndVerification are met. -/
theorem witness_ImageStagingAndVerification_11 :
    (∃ (l : Load) (s : State), (s.inGo = true) ∧ (s.sl.load = some l) ∧ (l.step = .verify) ∧ (checkHeader l.image = true) ∧ (formatOk s.qe.versions.image false l.image = true) ∧ (l.c ∈ s.qe.fetched) ∧ (s.ntAll = true)) :=
  ⟨loadOf imageBytes .verify SquadSet.empty [], goLoad SquadSet.empty (some (loadOf imageBytes .verify SquadSet.empty [])) none [], by decide +kernel⟩

set_option maxRecDepth 100000 in
/-- The hypotheses of clause 12 of ImageStagingAndVerification are met. -/
theorem witness_ImageStagingAndVerification_12 :
    (∃ (g : Bool) (s : State), (s.inGo = false ∨ s.sl.load.map Load.step ≠ some .verify)) :=
  ⟨true, State.reset, Or.inl (by decide)⟩

/-- The hypotheses of clause 1 of AppliesRetiresAndSweeps are met. -/
theorem witness_AppliesRetiresAndSweeps_1 :
    (∃ (l : Load) (s : State), (s.inGo = true) ∧ (s.sl.load = some l) ∧ (l.step = .drain) ∧ (∀ n ∈ l.changed ++ l.removed, s.drainedAtBeat n = true)) :=
  ⟨{ loadOf imageBytes .drain { SquadSet.empty with squads := [(2, squad 1 [3])] } [] with changed := [2] }, ({ goLoad { SquadSet.empty with squads := [(2, squad 1 [3])] } (some { loadOf imageBytes .drain { SquadSet.empty with squads := [(2, squad 1 [3])] } [] with changed := [2] }) none [] with sl := { (goLoad { SquadSet.empty with squads := [(2, squad 1 [3])] } (some { loadOf imageBytes .drain { SquadSet.empty with squads := [(2, squad 1 [3])] } [] with changed := [2] }) none []).sl with quiet := [(2, true)] } } : State), by decide +kernel⟩

/-- The hypotheses of clause 2 of AppliesRetiresAndSweeps are met. -/
theorem witness_AppliesRetiresAndSweeps_2 :
    (∃ (l : Load) (m : Nat) (q : Squad) (n : Nat) (s : State), (s.inGo = true) ∧ (s.sl.load = some l) ∧ (l.step = .drain) ∧ (l.changed = []) ∧ (l.removed = []) ∧ (l.fresh = [m]) ∧ (l.next.squads = [(m, q)]) ∧ (n ∈ q.tiles) ∧ (s.squadOf m = none) ∧ (∀ e ∈ s.tiles, e.2.squad ≠ some m)) :=
  ⟨loadOf imageBytes .drain { SquadSet.empty with squads := [(2, squad 1 [3])] } [2], 2, squad 1 [3], 3, goLoad SquadSet.empty (some (loadOf imageBytes .drain { SquadSet.empty with squads := [(2, squad 1 [3])] } [2])) none [], by decide +kernel⟩

/-- The hypotheses of clause 3 of AppliesRetiresAndSweeps are met. -/
theorem witness_AppliesRetiresAndSweeps_3 :
    (∃ (l : Load) (s : State), (s.inGo = true) ∧ (s.sl.load = some l) ∧ (l.step = .drain) ∧ (l.changed = []) ∧ (l.removed = []) ∧ (l.fresh = []) ∧ (l.next = s.sl.set_) ∧ (∀ e ∈ s.sl.set_.squads, e.2.state = .active ∧ e.2.tiles = []) ∧ (l.retires = []) ∧ (l.c ∈ s.qe.fetched)) :=
  ⟨loadOf imageBytes .drain SquadSet.empty [], goLoad SquadSet.empty (some (loadOf imageBytes .drain SquadSet.empty [])) none [], by decide +kernel⟩

/-- The hypotheses of clause 4 of AppliesRetiresAndSweeps are met. -/
theorem witness_AppliesRetiresAndSweeps_4 :
    (∃ (s : State), (s.inGo = false ∨ s.sl.load.map Load.step ≠ some .drain ∨ (∃ l n, s.sl.load = some l ∧ n ∈ l.changed ++ l.removed ∧ s.drainedAtBeat n = false))) :=
  ⟨State.reset, Or.inl (by decide)⟩

/-- The hypotheses of clause 5 of AppliesRetiresAndSweeps are met. -/
theorem witness_AppliesRetiresAndSweeps_5 :
    (∃ (img : List Byte) (s : State), (s.sl.persist = some img) ∧ (img.length ≤ 33554432)) :=
  ⟨[1, 2, 3], { State.reset with sl := { Sl.reset with persist := some [1, 2, 3] } }, by decide +kernel⟩

/-- The hypotheses of clause 6 of AppliesRetiresAndSweeps are met. -/
theorem witness_AppliesRetiresAndSweeps_6 :
    (∃ (img : List Byte) (s : State), (s.sl.persist = some img)) :=
  ⟨[1, 2, 3], { State.reset with sl := { Sl.reset with persist := some [1, 2, 3] } }, by decide +kernel⟩

/-- The hypotheses of clause 7 of AppliesRetiresAndSweeps are met. -/
theorem witness_AppliesRetiresAndSweeps_7 :
    (∃ (ok : Bool) (s : State), (s.sl.persist = none)) :=
  ⟨true, State.reset, by decide +kernel⟩

/-- The hypotheses of clause 8 of AppliesRetiresAndSweeps are met. -/
theorem witness_AppliesRetiresAndSweeps_8 :
    (∃ (c : CmdId) (d : Dwords) (q : Squad) (s : State), (s.serves c .manage) ∧ (s.slBusy = false) ∧ (bitW d.d10 8 = false) ∧ (s.squadOf (bitsW d.d10 5 0) = some q) ∧ (q.state ≠ .fenced) ∧ (s.jobsOf (bitsW d.d10 5 0) = []) ∧ (s.seqsOn (bitsW d.d10 5 0) = [])) :=
  ⟨{ sq := 0, cid := 7 }, loadWords 2 0 0, squad 1 [3], goLoad { SquadSet.empty with squads := [(2, squad 1 [3])] } none none [], by decide +kernel⟩

/-- The hypotheses of clause 9 of AppliesRetiresAndSweeps are met. -/
theorem witness_AppliesRetiresAndSweeps_9 :
    (∃ (c : CmdId) (d : Dwords) (q : Squad) (s : State), (s.serves c .manage) ∧ (s.slBusy = false) ∧ (s.squadOf (bitsW d.d10 5 0) = some q) ∧ (q.state ≠ .fenced) ∧ (s.jobsOf (bitsW d.d10 5 0) = []) ∧ (s.seqsOn (bitsW d.d10 5 0) = [])) :=
  ⟨{ sq := 0, cid := 7 }, loadWords 2 0 0, squad 1 [3], goLoad { SquadSet.empty with squads := [(2, squad 1 [3])] } none none [(3, { Tile.reset with swept := true, squad := some 2, lane := [(5, 6)] })], by decide +kernel⟩

/-- The hypotheses of clause 10 of AppliesRetiresAndSweeps are met. -/
theorem witness_AppliesRetiresAndSweeps_10 :
    (∃ (c : CmdId) (d : Dwords) (q : Squad) (s : State), (s.serves c .manage) ∧ (s.slBusy = false) ∧ (s.squadOf (bitsW d.d10 5 0) = some q) ∧ (q.state = .fenced) ∧ (s.jobsOf (bitsW d.d10 5 0) = []) ∧ (s.seqsOn (bitsW d.d10 5 0) = [])) :=
  ⟨{ sq := 0, cid := 7 }, loadWords 2 0 0, { squad 1 [3] with state := .fenced }, goLoad { SquadSet.empty with squads := [(2, { squad 1 [3] with state := .fenced })] } none none [(3, { Tile.reset with swept := true, squad := some 2, lane := [(5, 6)] })], by decide +kernel⟩

/-- The hypotheses of clause 11 of AppliesRetiresAndSweeps are met. -/
theorem witness_AppliesRetiresAndSweeps_11 :
    (∃ (c : CmdId) (d : Dwords) (s : State), (bitW d.d10 8 = true)) :=
  ⟨{ sq := 0, cid := 1 }, loadWords 0x102 0 0, State.reset, by decide +kernel⟩

/-- The hypotheses of clause 12 of AppliesRetiresAndSweeps are met. -/
theorem witness_AppliesRetiresAndSweeps_12 :
    (∃ (c : CmdId) (d : Dwords) (r : Retire) (s : State), (s.serves c .manage) ∧ (s.sl.retire = some r) ∧ (r.squad = bitsW d.d10 5 0) ∧ (s.jobsOf (bitsW d.d10 5 0) = []) ∧ (s.seqsOn (bitsW d.d10 5 0) = []) ∧ (s.sl.load = none)) :=
  ⟨{ sq := 0, cid := 7 }, loadWords 2 0 0, { cs := [{ sq := 0, cid := 9 }], squad := 2, force := false, drained := 0, aborted := 0 }, goLoad { SquadSet.empty with squads := [(2, squad 1 [3])] } none (some { cs := [{ sq := 0, cid := 9 }], squad := 2, force := false, drained := 0, aborted := 0 }) [], by decide +kernel⟩

/-- The hypotheses of clause 13 of AppliesRetiresAndSweeps are met. -/
theorem witness_AppliesRetiresAndSweeps_13 :
    (∃ (c : CmdId) (d : Dwords) (s : State), (s.serves c .manage) ∧ (s.slBusy = true)) :=
  ⟨{ sq := 0, cid := 7 }, loadWords 3 0 0, goLoad { SquadSet.empty with squads := [(2, squad 1 [3])] } none (some { cs := [{ sq := 0, cid := 9 }], squad := 2, force := false, drained := 0, aborted := 0 }) [], by decide +kernel⟩

/-- The hypotheses of clause 14 of AppliesRetiresAndSweeps are met. -/
theorem witness_AppliesRetiresAndSweeps_14 :
    (∃ (c : CmdId) (d : Dwords) (s : State), (s.serves c .manage) ∧ (s.slBusy = false) ∧ (s.squadOf (bitsW d.d10 5 0) = none)) :=
  ⟨{ sq := 0, cid := 7 }, loadWords 0x102 0 0, goLoad SquadSet.empty none none [], by decide +kernel⟩

/-- The hypotheses of clause 15 of AppliesRetiresAndSweeps are met. -/
theorem witness_AppliesRetiresAndSweeps_15 :
    (∃ (c : CmdId) (r : Retire) (s : State), (s.inGo = true) ∧ (s.sl.retire = some r) ∧ (s.drainedAtBeat r.squad = true ∨ r.force = false ∧ s.drained r.squad = true) ∧ (∀ e ∈ s.sl.set_.squads, e.2.state ≠ .starting) ∧ (s.sl.load = none) ∧ (∀ e ∈ s.rl.dir, e.2.waits = []) ∧ (r.cs = [c]) ∧ (c ∈ s.qe.fetched) ∧ (s.jobsOf r.squad = [])) :=
  ⟨{ sq := 0, cid := 9 }, { cs := [{ sq := 0, cid := 9 }], squad := 2, force := false, drained := 0, aborted := 0 }, ({ goLoad { SquadSet.empty with squads := [(2, squad 1 [3])] } none (some { cs := [{ sq := 0, cid := 9 }], squad := 2, force := false, drained := 0, aborted := 0 }) [(3, { Tile.reset with swept := true, squad := some 2 })] with sl := { (goLoad { SquadSet.empty with squads := [(2, squad 1 [3])] } none (some { cs := [{ sq := 0, cid := 9 }], squad := 2, force := false, drained := 0, aborted := 0 }) [(3, { Tile.reset with swept := true, squad := some 2 })]).sl with quiet := [(2, false)] } } : State), by decide +kernel, by decide +kernel, Or.inr ⟨rfl, by decide +kernel⟩, by decide +kernel⟩

/-- The hypotheses of clause 16 of AppliesRetiresAndSweeps are met. -/
theorem witness_AppliesRetiresAndSweeps_16 :
    (∃ (c : CmdId) (r : Retire) (j : Job) (s : State), (s.inGo = true) ∧ (s.sl.retire = some r) ∧ (s.drainedAtBeat r.squad = true ∨ r.force = false ∧ s.drained r.squad = true) ∧ (∀ e ∈ s.sl.set_.squads, e.2.state ≠ .starting) ∧ (s.sl.load = none) ∧ (∀ e ∈ s.rl.dir, e.2.waits = []) ∧ (r.cs = [c]) ∧ (c ∈ s.qe.fetched) ∧ (j.c ∈ s.qe.fetched) ∧ (j.c ≠ c) ∧ (s.jd.jobs = [j]) ∧ (j.squad = r.squad) ∧ (j.state = .queued) ∧ (s.fenced r.squad = false) ∧ (j.pins = [])) :=
  ⟨{ sq := 0, cid := 9 }, { cs := [{ sq := 0, cid := 9 }], squad := 2, force := false, drained := 0, aborted := 0 }, { jobWith 1 { sq := 0, cid := 10 } .queued (scanRest 8 0 4096) with squad := 2 }, ({ { goLoad { SquadSet.empty with squads := [(2, squad 1 [3])] } none (some { cs := [{ sq := 0, cid := 9 }], squad := 2, force := false, drained := 0, aborted := 0 }) [(3, { Tile.reset with swept := true, squad := some 2 })] with jd := { (goJobs 1 [{ jobWith 1 { sq := 0, cid := 10 } .queued (scanRest 8 0 4096) with squad := 2 }]).jd with nextTag := 2 }, qe := { (goJobs 1 [{ jobWith 1 { sq := 0, cid := 10 } .queued (scanRest 8 0 4096) with squad := 2 }]).qe with fetched := [{ sq := 0, cid := 9 }, { sq := 0, cid := 10 }] } } with sl := { ({ goLoad { SquadSet.empty with squads := [(2, squad 1 [3])] } none (some { cs := [{ sq := 0, cid := 9 }], squad := 2, force := false, drained := 0, aborted := 0 }) [(3, { Tile.reset with swept := true, squad := some 2 })] with jd := { (goJobs 1 [{ jobWith 1 { sq := 0, cid := 10 } .queued (scanRest 8 0 4096) with squad := 2 }]).jd with nextTag := 2 }, qe := { (goJobs 1 [{ jobWith 1 { sq := 0, cid := 10 } .queued (scanRest 8 0 4096) with squad := 2 }]).qe with fetched := [{ sq := 0, cid := 9 }, { sq := 0, cid := 10 }] } }).sl with quiet := [(2, false)] } } : State), by decide +kernel, by decide +kernel, Or.inr ⟨rfl, by decide +kernel⟩, by decide +kernel⟩

/-- The hypotheses of clause 17 of AppliesRetiresAndSweeps are met. -/
theorem witness_AppliesRetiresAndSweeps_17 :
    (∃ (n : Nat) (s : State), (s.inGo = true) ∧ (s.sl.retire = none) ∧ (s.applyDrains n = true) ∧ (s.drained n = true)) :=
  ⟨2, ({ goLoad { SquadSet.empty with squads := [(2, squad 1 [3])] } (some { loadOf imageBytes .drain { SquadSet.empty with squads := [(2, squad 1 [3])] } [] with changed := [2] }) none [] with sl := { (goLoad { SquadSet.empty with squads := [(2, squad 1 [3])] } (some { loadOf imageBytes .drain { SquadSet.empty with squads := [(2, squad 1 [3])] } [] with changed := [2] }) none []).sl with quiet := [(2, true)] } } : State), by decide +kernel⟩

/-- The hypotheses of clause 18 of AppliesRetiresAndSweeps are met. -/
theorem witness_AppliesRetiresAndSweeps_18 :
    (∃ (n : Nat) (s : State), (s.inGo = false ∨ s.drained n = false ∨ s.sl.retire = none ∧ s.applyDrains n = false ∨ (∃ r, s.sl.retire = some r ∧ (r.squad ≠ n ∨ r.force = true ∧ s.drainedAtBeat n = false)))) :=
  ⟨2, State.reset, Or.inl (by decide)⟩

/-- The hypotheses of clause 19 of AppliesRetiresAndSweeps are met. -/
theorem witness_AppliesRetiresAndSweeps_19 :
    (∃ (s : State), (s.sl.retire.isSome = true ∨ (s.sl.load.map Load.step) = some .drain) ∧ (s.sl.timeout ≠ 0) ∧ (s.sl.timeout ≤ s.sl.drainBeats) ∧ (s.sl.drainSlow = false)) :=
  ⟨{ State.reset with sl := { Sl.reset with retire := some { cs := [{ sq := 0, cid := 9 }], squad := 2, force := false, drained := 0, aborted := 0 }, drainBeats := 2048 } }, by decide +kernel⟩

/-- The hypotheses of clause 20 of AppliesRetiresAndSweeps are met. -/
theorem witness_AppliesRetiresAndSweeps_20 :
    (∃ (s : State), ((s.sl.retire = none ∧ (s.sl.load.map Load.step) ≠ some .drain) ∨ s.sl.timeout = 0 ∨ s.sl.drainBeats < s.sl.timeout ∨ s.sl.drainSlow = true)) :=
  ⟨State.reset, Or.inl ⟨rfl, by decide⟩⟩

/-- The hypotheses of clause 21 of AppliesRetiresAndSweeps are met. -/
theorem witness_AppliesRetiresAndSweeps_21 :
    (∃ (n : Nat) (s : State), (n < 1024) ∧ (s.power.tileSupply = true) ∧ (s.vendorLive = true) ∧ (s.qe.ps < 2 ∨ s.mc.phase = .blocks) ∧ ((s.tile n).swept = false) ∧ (s.sl.load = none) ∧ (∀ e ∈ s.sl.set_.squads, e.2.state ≠ .starting)) :=
  ⟨1023, { goLoad SquadSet.empty none none [(1023, { Tile.reset with lane := [(1, 2)] })] with power := { Power.reset with tileSupply := true } }, by decide +kernel⟩

/-- The hypotheses of clause 22 of AppliesRetiresAndSweeps are met. -/
theorem witness_AppliesRetiresAndSweeps_22 :
    (∃ (n : Nat) (s : State), (1024 ≤ n ∨ s.power.tileSupply = false ∨ s.vendorLive = false ∨ (s.tile n).swept = true ∨ 2 ≤ s.qe.ps ∧ s.mc.phase ≠ .blocks)) :=
  ⟨1024, State.reset, Or.inl (by decide)⟩

/-- The hypotheses of clause 23 of AppliesRetiresAndSweeps are met. -/
theorem witness_AppliesRetiresAndSweeps_23 :
    (∃ (n m : Nat) (q : Squad) (l : Load) (s : State), (n < 1024) ∧ (s.power.tileSupply = true) ∧ (s.vendorLive = true) ∧ (s.qe.ps < 2) ∧ ((s.tile n).swept = false) ∧ (s.sl.set_.squads = [(m, q)]) ∧ (q.state = .starting) ∧ (∀ i ∈ q.tiles, i = n ∨ (s.tile i).swept = true) ∧ (s.sl.load = some l) ∧ (l.step = .sweep) ∧ (l.retires = []) ∧ (l.c ∈ s.qe.fetched)) :=
  ⟨3, 2, { squad 1 [3] with state := .starting }, loadOf imageBytes .sweep SquadSet.empty [2], { goLoad { SquadSet.empty with squads := [(2, { squad 1 [3] with state := .starting })] } (some (loadOf imageBytes .sweep SquadSet.empty [2])) none [(3, { Tile.reset with squad := some 2 })] with power := { Power.reset with tileSupply := true } }, by decide +kernel⟩

/-- The hypotheses of clause 1 of TileArithmetic are met. -/
theorem witness_TileArithmetic_1 :
    (∃ (n m : Nat) (d : List Byte) (q : Squad) (s : State), (s.tileIssues n d m q) ∧ (opKind d = 0x01) ∧ (opWfmt q d = 1) ∧ (byteAt d 37 = 0) ∧ (byteAt d 38 = 0) ∧ (256 ≤ u32At d 28)) :=
  ⟨3, 2, opMatmul 0 0, { squad 1 [3, 4] with layouts := layoutsFix }, goTile 1 tileLatched tileIn, by decide +kernel⟩

/-- The hypotheses of clause 2 of TileArithmetic are met. -/
theorem witness_TileArithmetic_2 :
    (∃ (n m : Nat) (d : List Byte) (q : Squad) (s : State), (s.tileIssues n d m q) ∧ (opKind d = 0x01) ∧ (64 * mmSize (byteAt d 37) ≤ u32At d 28)) :=
  ⟨3, 2, opMatmul 1 2, { squad 1 [3, 4] with layouts := layoutsFix }, goTile 1 tileLatched tileIn, by decide +kernel⟩

/-- The hypotheses of clause 3 of TileArithmetic are met. -/
theorem witness_TileArithmetic_3 :
    (∃ (n m : Nat) (d : List Byte) (q : Squad) (s : State), (s.tileIssues n d m q) ∧ (opKind d = 0x02) ∧ (byteAt d 32 = 0)) :=
  ⟨3, 2, opXorpop 0 0, { squad 1 [3, 4] with layouts := layoutsFix }, goTile 1 tileLatched tileIn, by decide +kernel⟩

/-- The hypotheses of clause 4 of TileArithmetic are met. -/
theorem witness_TileArithmetic_4 :
    (∃ (n m : Nat) (d : List Byte) (q : Squad) (i c k : Nat) (x : Ctx) (s : State), (s.tileIssues n d m q) ∧ (opKind d = 0x02) ∧ (byteAt d 32 = 1) ∧ ((ctxMap d)[i]? = some c) ∧ ((s.tile n).ctxs.find c = some x) ∧ (s.feeds n d x k) ∧ (∃ b z, (s.tile n).ctxs.find b = some z ∧ z.state = 2)) :=
  ⟨3, 2, opXorpop 1 3, { squad 1 [3, 4] with layouts := layoutsFix }, 0, 0, 0, { ctxDone 0 with maxDist := 1024, k := 2, state := 2, left := [(0, 9)] }, goSearchTile { ctxDone 0 with maxDist := 1024, k := 2, state := 2, left := [(0, 9)] }, by decide +kernel, by decide +kernel, by decide +kernel, by decide +kernel, by decide +kernel, ⟨by decide +kernel, (by decide +kernel)⟩, ⟨0, { ctxDone 0 with maxDist := 1024, k := 2, state := 2, left := [(0, 9)] }, by decide +kernel, rfl⟩⟩

/-- The hypotheses of clause 5 of TileArithmetic are met. -/
theorem witness_TileArithmetic_5 :
    (∃ (n m : Nat) (d : List Byte) (q : Squad) (c k : Nat) (x : Ctx) (s : State), (s.tileIssues n d m q) ∧ (opKind d = 0x02) ∧ (byteAt d 32 = 1) ∧ (ctxMap d = [c]) ∧ ((s.tile n).ctxs.find c = some x) ∧ (s.feeds n d x k) ∧ (x.held ≤ x.k)) :=
  ⟨3, 2, opXorpopOne, { squad 1 [3, 4] with layouts := layoutsFix }, 0, 0, { ctxDone 0 with maxDist := 1024, k := 2, state := 2, left := [(0, 9)] }, goSearchTile { ctxDone 0 with maxDist := 1024, k := 2, state := 2, left := [(0, 9)] }, by decide +kernel, by decide +kernel, by decide +kernel, by decide +kernel, by decide +kernel, ⟨by decide +kernel, (by decide +kernel)⟩, by decide⟩

/-- The hypotheses of clause 6 of TileArithmetic are met. -/
theorem witness_TileArithmetic_6 :
    (∃ (n m : Nat) (d : List Byte) (q : Squad) (c : Nat) (x : Ctx) (s : State), (s.tileIssues n d m q) ∧ (opKind d = 0x02) ∧ (byteAt d 32 = 1) ∧ ((s.tile n).ctxs.find c = some x) ∧ (∀ k, ¬ s.feeds n d x k) ∧ (∃ b z, (s.tile n).ctxs.find b = some z ∧ z.state = 2)) :=
  ⟨3, 2, opXorpopOne, { squad 1 [3, 4] with layouts := layoutsFix }, 0, { { ctxDone 0 with maxDist := 1024, k := 2, state := 2, left := [(0, 9)] } with left := [] }, goSearchTile { { ctxDone 0 with maxDist := 1024, k := 2, state := 2, left := [(0, 9)] } with left := [] }, by decide +kernel, by decide +kernel, by decide +kernel, by decide +kernel, fun _ h => absurd h.2 (by simp [Ctx.takes, KMap.find]), ⟨0, { { ctxDone 0 with maxDist := 1024, k := 2, state := 2, left := [(0, 9)] } with left := [] }, by decide +kernel, rfl⟩⟩

/-- The hypotheses of clause 7 of TileArithmetic are met. -/
theorem witness_TileArithmetic_7 :
    (∃ (n m : Nat) (d : List Byte) (q : Squad) (s : State), (s.tileIssues n d m q) ∧ (opKind d = 0x03) ∧ (byteAt d 30 = 0) ∧ (byteAt d 28 = 0) ∧ (byteAt d 29 = 0) ∧ (-2147483648 ≤ ((List.range (u32At d 24)).map (fun j => signedN 32 (u32At (readCells 0 (s.tile n).lane (u32At d 16) (4 * u32At d 24)) (4 * j)))).sum) ∧ (((List.range (u32At d 24)).map (fun j => signedN 32 (u32At (readCells 0 (s.tile n).lane (u32At d 16) (4 * u32At d 24)) (4 * j)))).sum ≤ 2147483647)) :=
  ⟨3, 2, opReduce 0 0, { squad 1 [3, 4] with layouts := layoutsFix }, goTile 1 tileLatched tileIn, by decide +kernel⟩

/-- The hypotheses of clause 8 of TileArithmetic are met. -/
theorem witness_TileArithmetic_8 :
    (∃ (n m : Nat) (d : List Byte) (q : Squad) (s : State), (s.tileIssues n d m q) ∧ (opKind d = 0x03) ∧ (byteAt d 30 = 0)) :=
  ⟨3, 2, opReduce 3 0, { squad 1 [3, 4] with layouts := layoutsFix }, goTile 1 tileLatched tileIn, by decide +kernel⟩

/-- The hypotheses of clause 9 of TileArithmetic are met. -/
theorem witness_TileArithmetic_9 :
    (∃ (n m : Nat) (d : List Byte) (q : Squad) (s : State), (s.tileIssues n d m q) ∧ (opKind d = 0x04) ∧ (byteAt d 32 ≠ 0x0B)) :=
  ⟨3, 2, opElt 0xA 2 4 0, { squad 1 [3, 4] with layouts := layoutsFix }, goTile 1 tileLatched tileIn, by decide +kernel⟩

/-- The hypotheses of clause 10 of TileArithmetic are met. -/
theorem witness_TileArithmetic_10 :
    (∃ (n m : Nat) (d : List Byte) (q : Squad) (j : Nat) (s : State), (s.tileIssues n d m q) ∧ (opKind d = 0x04) ∧ (byteAt d 32 = 1) ∧ (byteAt d 33 = 2) ∧ (byteAt d 34 = 2) ∧ (j < u32At d 28) ∧ (-2147483648 ≤ signedN 32 (u32At (readCells 0 (s.tile n).lane (u32At d 16 + 4 * j) 4) 0) + signedN 32 (u32At (readCells 0 (s.tile n).lane (u32At d 20 + 4 * j) 4) 0)) ∧ (signedN 32 (u32At (readCells 0 (s.tile n).lane (u32At d 16 + 4 * j) 4) 0) + signedN 32 (u32At (readCells 0 (s.tile n).lane (u32At d 20 + 4 * j) 4) 0) ≤ 2147483647)) :=
  ⟨3, 2, opElt 1 2 2 0, { squad 1 [3, 4] with layouts := layoutsFix }, 1, goTile 1 tileLatched tileIn, by decide +kernel⟩

/-- The hypotheses of clause 11 of TileArithmetic are met. -/
theorem witness_TileArithmetic_11 :
    (∃ (n m : Nat) (d : List Byte) (q : Squad) (s : State), (s.tileIssues n d m q) ∧ (opKind d = 0x04) ∧ (byteAt d 32 = 0x0B)) :=
  ⟨3, 2, opElt 0xB 2 0 0x3F800000, { squad 1 [3, 4] with layouts := layoutsFix }, goTile 1 tileLatched tileIn, by decide +kernel⟩

/-- The hypotheses of clause 12 of TileArithmetic are met. -/
theorem witness_TileArithmetic_12 :
    (∃ (n m : Nat) (d : List Byte) (q : Squad) (y : Layout) (r : List Rec) (o : List Byte) (s : State), (s.tileIssues n d m q) ∧ (opKind d = 0x07) ∧ ((layoutsOf q.layouts).find? (fun y => y.num == u16At d 32) = some y) ∧ (s.filterParse n d y = (r, none)) ∧ (o = filterOut (byteAt d 36) (r.map (fun x => (x, q.filterPasses d x)))) ∧ (o.length ≤ u32At d 28)) :=
  ⟨3, 2, opFilter 2, { squad 1 [3, 4] with layouts := layoutsFix }, layoutFix, ((goTile 1 tileIn tileIn).filterParse 3 (opFilter 2) layoutFix).1, _, goTile 1 tileIn tileIn, by decide +kernel, by decide +kernel, by decide +kernel, by decide +kernel, rfl, by decide +kernel⟩

/-- The hypotheses of clause 13 of TileArithmetic are met. -/
theorem witness_TileArithmetic_13 :
    (∃ (n m : Nat) (d : List Byte) (q : Squad) (y : Layout) (r : List Rec) (o : List Byte) (p : Nat) (s : State), (s.tileIssues n d m q) ∧ (opKind d = 0x07) ∧ ((layoutsOf q.layouts).find? (fun y => y.num == u16At d 32) = some y) ∧ (s.filterParse n d y = (r, some p)) ∧ (o = filterOut (byteAt d 36) (r.map (fun x => (x, q.filterPasses d x)))) ∧ (o.length ≤ u32At d 28) ∧ (u32At d 24 + o.length ≤ u32At d 40 ∨ u32At d 40 + (u32At d 20 - p) ≤ u32At d 24)) :=
  ⟨3, 2, opFilterOf 2 3000, { squad 1 [3, 4] with layouts := layoutsFix }, layoutFix, ((goTile 1 tileIn tileIn).filterParse 3 (opFilterOf 2 3000) layoutFix).1, _, 2048, goTile 1 tileIn tileIn, by decide +kernel, by decide +kernel, by decide +kernel, by decide +kernel, rfl, by decide +kernel⟩

/-- The hypotheses of clause 14 of TileArithmetic are met. -/
theorem witness_TileArithmetic_14 :
    (∃ (n m : Nat) (d : List Byte) (q : Squad) (y : Layout) (r : List Rec) (s : State), (s.tileIssues n d m q) ∧ (opKind d = 0x07) ∧ ((layoutsOf q.layouts).find? (fun y => y.num == u16At d 32) = some y) ∧ (s.filterParse n d y = (r, none)) ∧ (u32At d 28 < (filterOut (byteAt d 36) (r.map (fun x => (x, q.filterPasses d x)))).length)) :=
  ⟨3, 2, opFilterCap 2 4, { squad 1 [3, 4] with layouts := layoutsFix }, layoutFix, ((goTile 1 tileIn tileIn).filterParse 3 (opFilterCap 2 4) layoutFix).1, goTile 1 tileIn tileIn, by decide +kernel⟩

/-- The hypotheses of clause 15 of TileArithmetic are met. -/
theorem witness_TileArithmetic_15 :
    (∃ (n m : Nat) (d : List Byte) (q : Squad) (s : State), (s.tileIssues n d m q) ∧ (opKind d = 0x08) ∧ (byteAt d 30 = 1) ∧ (byteAt d 36 = 0)) :=
  ⟨3, 2, opTopk 0 1, { squad 1 [3, 4] with layouts := layoutsFix }, goTile 1 tileLatched tileIn, by decide +kernel⟩

/-- The hypotheses of clause 16 of TileArithmetic are met. -/
theorem witness_TileArithmetic_16 :
    (∃ (n m : Nat) (d : List Byte) (q : Squad) (s : State), (s.tileIssues n d m q) ∧ (opKind d = 0x08) ∧ (byteAt d 30 = 1)) :=
  ⟨3, 2, opTopk 1 1, { squad 1 [3, 4] with layouts := layoutsFix }, goTile 1 tileLatched tileIn, by decide +kernel⟩

/-- The hypotheses of clause 17 of TileArithmetic are met. -/
theorem witness_TileArithmetic_17 :
    (∃ (n m : Nat) (d : List Byte) (q : Squad) (x : Ctx) (s : State), (s.tileIssues n d m q) ∧ (opKind d = 0x08) ∧ (byteAt d 30 = 0) ∧ (byteAt d 36 = 0) ∧ ((s.tile n).ctxs.find (byteAt d 31) = some x) ∧ (x.held = 0)) :=
  ⟨3, 2, opTopk 0 0, { squad 1 [3, 4] with layouts := layoutsFix }, { ctxDone 0 with k := 2 }, goTile 1 ({ tileLatched with ctxs := [(5, { ctxDone 0 with k := 2 })] }) tileIn, by decide +kernel⟩

/-- The hypotheses of clause 18 of TileArithmetic are met. -/
theorem witness_TileArithmetic_18 :
    (∃ (n m : Nat) (d : List Byte) (q : Squad) (s : State), (s.tileIssues n d m q) ∧ (opKind d = 0x0B) ∧ (byteAt d 30 ≠ 2)) :=
  ⟨3, 2, opStats 0, { squad 1 [3, 4] with layouts := layoutsFix }, goTile 1 tileLatched tileIn, by decide +kernel⟩

/-- The hypotheses of clause 19 of TileArithmetic are met. -/
theorem witness_TileArithmetic_19 :
    (∃ (n : Nat) (d : List Byte) (s : State), (d.length ≠ 64 ∨ s.takesOps n = false)) :=
  ⟨3, [], State.reset, Or.inl (by decide)⟩

/-- The hypotheses of clause 20 of TileArithmetic are met. -/
theorem witness_TileArithmetic_20 :
    (∃ (n m : Nat) (d : List Byte) (q : Squad) (i : Instr) (s : State), (i ∈ opRows n d) ∧ (s.tileQueues n d m q)) :=
  ⟨3, 2, opMatmul 1 2, { squad 1 [3, 4] with layouts := layoutsFix }, .matmul 3 (opMatmul 1 2), goTile 1 tileIn tileIn, by decide +kernel⟩

set_option maxRecDepth 100000 in
/-- The hypotheses of clause 1 of TileTransfersAndCompletions are met. -/
theorem witness_TileTransfersAndCompletions_1 :
    (∃ (n m : Nat) (d : List Byte) (q : Squad) (g : Route) (s : State), (s.tileIssues n d m q) ∧ (opKind d = 0x05) ∧ (s.sl.set_.routes.find? (fun r => r.id == u16At d 26) = some g)) :=
  ⟨3, 2, opGather 1 2 0, { squad 1 [3, 4] with layouts := layoutsFix }, { id := 2, squad := 2, destKind := 1, dest := 1, vc := 0, express := 0, credits := 4 }, goTile 1 tileLatched tileIn, by decide +kernel⟩

set_option maxRecDepth 100000 in
/-- The hypotheses of clause 2 of TileTransfersAndCompletions are met. -/
theorem witness_TileTransfersAndCompletions_2 :
    (∃ (n m : Nat) (d : List Byte) (q : Squad) (g : Route) (s : State), (s.tileIssues n d m q) ∧ (opKind d = 0x06) ∧ (byteAt d 24 = 0) ∧ (u16At d 28 ≠ n) ∧ (s.sl.set_.routes.find? (fun r => r.id == u16At d 26) = some g)) :=
  ⟨3, 2, opScatter 0 1 4 0x80, { squad 1 [3, 4] with layouts := layoutsFix }, { id := 1, squad := 2, destKind := 0, dest := 2, vc := 0, express := 0, credits := 4 }, goTile 1 tileLatched tileIn, by decide +kernel⟩

set_option maxRecDepth 100000 in
/-- The hypotheses of clause 3 of TileTransfersAndCompletions are met. -/
theorem witness_TileTransfersAndCompletions_3 :
    (∃ (n m : Nat) (d : List Byte) (q : Squad) (g : Route) (s : State), (s.tileIssues n d m q) ∧ (opKind d = 0x06) ∧ (byteAt d 24 = 0) ∧ (u16At d 28 = n) ∧ (s.sl.set_.routes.find? (fun r => r.id == u16At d 26) = some g)) :=
  ⟨3, 2, opScatter 0 1 3 0x8000, { squad 1 [3, 4] with layouts := layoutsFix }, { id := 1, squad := 2, destKind := 0, dest := 2, vc := 0, express := 0, credits := 4 }, goTile 1 tileLatched tileIn, by decide +kernel⟩

set_option maxRecDepth 100000 in
/-- The hypotheses of clause 4 of TileTransfersAndCompletions are met. -/
theorem witness_TileTransfersAndCompletions_4 :
    (∃ (n m : Nat) (d : List Byte) (q : Squad) (g : Route) (r : Region) (s : State), (s.tileIssues n d m q) ∧ (opKind d = 0x06) ∧ (byteAt d 24 = 1) ∧ (s.sl.set_.routes.find? (fun r => r.id == u16At d 26) = some g) ∧ (s.region (u16At d 30) = some r)) :=
  ⟨3, 2, opScatter 1 2 0 64, { squad 1 [3, 4] with layouts := layoutsFix }, { id := 2, squad := 2, destKind := 1, dest := 1, vc := 0, express := 0, credits := 4 }, { id := 7, tier := 0, kind := 3, owner := 2, access := 0, base := 0x40000, size := 0x200000 }, goTile 1 tileLatched tileIn, by decide +kernel⟩

set_option maxRecDepth 100000 in
/-- The hypotheses of clause 5 of TileTransfersAndCompletions are met. -/
theorem witness_TileTransfersAndCompletions_5 :
    (∃ (n m : Nat) (d : List Byte) (q : Squad) (g : Route) (j : Job) (s : State), (s.tileIssues n d m q) ∧ (opKind d = 0x06) ∧ (byteAt d 24 = 2) ∧ (s.sl.set_.routes.find? (fun r => r.id == u16At d 26) = some g) ∧ (s.job (opTag d) = some j)) :=
  ⟨3, 2, opScatter 2 3 0 64, { squad 1 [3, 4] with layouts := layoutsFix }, { id := 3, squad := 2, destKind := 3, dest := 0, vc := 0, express := 0, credits := 4 }, { jobWith 1 { sq := 0, cid := 9 } .admitted (scanRest 8 0 4096) with pins := [{ object := 9, version := 1, near := true }] }, goTile 1 tileLatched tileIn, by decide +kernel⟩

set_option maxRecDepth 100000 in
/-- The hypotheses of clause 6 of TileTransfersAndCompletions are met. -/
theorem witness_TileTransfersAndCompletions_6 :
    (∃ (n m : Nat) (d : List Byte) (q : Squad) (p : Nat) (s : State), (s.tileIssues n d m q) ∧ (opKind d = 0x03) ∧ (byteAt d 30 ≠ 0) ∧ (p ∈ q.tiles) ∧ (p ≠ n) ∧ (s.waitsAt p d = none)) :=
  ⟨3, 2, opReduce 0 1, { squad 1 [3, 4] with layouts := layoutsFix }, 4, goTile 1 tileLatched tileIn, by decide +kernel⟩

set_option maxRecDepth 100000 in
/-- The hypotheses of clause 7 of TileTransfersAndCompletions are met. -/
theorem witness_TileTransfersAndCompletions_7 :
    (∃ (n m : Nat) (d : List Byte) (q : Squad) (j p : Nat) (f : OpInFlight) (s : State), (s.tileIssues n d m q) ∧ (opKind d = 0x03) ∧ (byteAt d 30 ≠ 0) ∧ (byteAt d 28 = 0) ∧ (byteAt d 29 = 0) ∧ (s.waitsAt n d = none) ∧ (n ∈ q.tiles) ∧ (∀ i ∈ q.tiles, i = n ∨ (s.waitsAt i d).isSome = true) ∧ (p ∈ q.tiles) ∧ (p ≠ n) ∧ (s.waitsAt p d = some f) ∧ (byteAt f.desc 30 = 1 ∨ u16At f.desc 32 = p) ∧ (j < u32At d 24) ∧ (-2147483648 ≤ ((q.tiles.map (fun p => signedN 32 (u32At (if p = n then readCells 0 (s.tile n).lane (u32At d 16) (4 * u32At d 24) else ((s.waitsAt p d).bind OpInFlight.gives).getD []) (4 * j)))).sum)) ∧ (((q.tiles.map (fun p => signedN 32 (u32At (if p = n then readCells 0 (s.tile n).lane (u32At d 16) (4 * u32At d 24) else ((s.waitsAt p d).bind OpInFlight.gives).getD []) (4 * j)))).sum) ≤ 2147483647)) :=
  ⟨3, 2, opReduce 0 1, { squad 1 [3, 4] with layouts := layoutsFix }, 1, 4, { unit := 2, idx := 0, desc := opReduce 0 1, reads := [], writes := [], gives := some [1, 0, 0, 0, 0, 0, 0, 128], counts := none }, goTile 1 tileLatched ({ tileIn with flight := [{ unit := 2, idx := 0, desc := opReduce 0 1, reads := [], writes := [], gives := some [1, 0, 0, 0, 0, 0, 0, 128], counts := none }] }), by decide +kernel⟩

set_option maxRecDepth 100000 in
/-- The hypotheses of clause 8 of TileTransfersAndCompletions are met. -/
theorem witness_TileTransfersAndCompletions_8 :
    (∃ (n m : Nat) (d : List Byte) (q : Squad) (j p : Nat) (f : OpInFlight) (s : State), (s.tileIssues n d m q) ∧ (opKind d = 0x03) ∧ (byteAt d 30 ≠ 0) ∧ (s.waitsAt n d = none) ∧ (n ∈ q.tiles) ∧ (∀ i ∈ q.tiles, i = n ∨ (s.waitsAt i d).isSome = true) ∧ (p ∈ q.tiles) ∧ (p ≠ n) ∧ (s.waitsAt p d = some f) ∧ (byteAt f.desc 30 = 1 ∨ u16At f.desc 32 = p) ∧ (j < u32At d 24)) :=
  ⟨3, 2, opReduce 3 1, { squad 1 [3, 4] with layouts := layoutsFix }, 1, 4, { unit := 2, idx := 0, desc := opReduce 3 1, reads := [], writes := [], gives := some [1, 0, 0, 0, 0, 0, 0, 128], counts := none }, goTile 1 tileLatched ({ tileIn with flight := [{ unit := 2, idx := 0, desc := opReduce 3 1, reads := [], writes := [], gives := some [1, 0, 0, 0, 0, 0, 0, 128], counts := none }] }), by decide +kernel⟩

set_option maxRecDepth 100000 in
/-- The hypotheses of clause 9 of TileTransfersAndCompletions are met. -/
theorem witness_TileTransfersAndCompletions_9 :
    (∃ (n m : Nat) (d : List Byte) (q : Squad) (p : Pin) (s : State), (s.tileIssues n d m q) ∧ (opKind d = 0x09) ∧ (s.pinOf (opTag d) (u32At d 16) = some p) ∧ (u32At d 20 < s.pinBatons p)) :=
  ⟨3, 2, opLoad 3, { squad 1 [3, 4] with layouts := layoutsFix }, { object := 9, version := 1, near := true }, goTile 1 tileLatched tileIn, by decide +kernel⟩

set_option maxRecDepth 100000 in
/-- The hypotheses of clause 10 of TileTransfersAndCompletions are met. -/
theorem witness_TileTransfersAndCompletions_10 :
    (∃ (n m : Nat) (d : List Byte) (q : Squad) (s : State), (s.tileIssues n d m q) ∧ (opKind d = 0x09) ∧ (s.pinOf (opTag d) (u32At d 16) = none) ∧ (s.ntAll = true) ∧ (q.state = .active) ∧ (s.jobsOf m = []) ∧ (s.seqsOn m = []) ∧ (s.job (opTag d) = none)) :=
  ⟨3, 2, opLoad 3, { squad 1 [3, 4] with layouts := layoutsFix }, { goTile 1 tileLatched tileIn with jd := Jd.reset }, by decide +kernel⟩

set_option maxRecDepth 100000 in
/-- The hypotheses of clause 11 of TileTransfersAndCompletions are met. -/
theorem witness_TileTransfersAndCompletions_11 :
    (∃ (n m : Nat) (d : List Byte) (q : Squad) (s : State), (s.tileIssues n d m q) ∧ (opKind d = 0x0A) ∧ (byteAt d 11 = 0 ∨ byteAt d 16 = 1 ∨ (((s.tile n).take d).sems.getD (byteAt d 11 - 1) 0) < 255)) :=
  ⟨3, 2, opWords 10 [], { squad 1 [3, 4] with layouts := layoutsFix }, goTile 1 tileLatched tileIn, by decide +kernel, by decide, by decide +kernel⟩

set_option maxRecDepth 100000 in
/-- The hypotheses of clause 12 of TileTransfersAndCompletions are met. -/
theorem witness_TileTransfersAndCompletions_12 :
    (∃ (n m : Nat) (d : List Byte) (q : Squad) (s : State), (s.tileIssues n d m q) ∧ (opKind d = 0x0B) ∧ (byteAt d 30 = 2) ∧ (s.ns.table.length < 65536) ∧ (s.ns.table.find (keeperKey m (u16At d 32)) = none)) :=
  ⟨3, 2, opStats 2, { squad 1 [3, 4] with layouts := layoutsFix }, goTile 1 tileLatched tileIn, by decide +kernel⟩

set_option maxRecDepth 100000 in
/-- The hypotheses of clause 13 of TileTransfersAndCompletions are met. -/
theorem witness_TileTransfersAndCompletions_13 :
    (∃ (n m : Nat) (d : List Byte) (q : Squad) (k : Keeper) (s : State), (s.tileIssues n d m q) ∧ (opKind d = 0x0B) ∧ (byteAt d 30 = 2) ∧ (s.ns.table.find (keeperKey m (u16At d 32)) = some k)) :=
  ⟨3, 2, opStats 2, { squad 1 [3, 4] with layouts := layoutsFix }, { Keeper.fresh with step := some 5, met := true }, { goTile 1 tileLatched tileIn with ns := { Ns.reset with table := [(keeperKey 2 6, { Keeper.fresh with step := some 5, met := true })] } }, by decide +kernel⟩

set_option maxRecDepth 100000 in
/-- The hypotheses of clause 14 of TileTransfersAndCompletions are met. -/
theorem witness_TileTransfersAndCompletions_14 :
    (∃ (n u : Nat) (f : OpInFlight) (s : State), ((s.tile n).flight.find? (fun f => f.unit == u) = some f) ∧ (u ≠ 3) ∧ (f.gives = none) ∧ (s.calWaits n f = false) ∧ ((s.tile n).queue = []) ∧ (f.counts = none) ∧ (opKind f.desc ≠ 0x06 ∨ byteAt f.desc 24 ≠ 0) ∧ (byteAt f.desc 11 = 0 ∨ (s.tile n).sems.getD (byteAt f.desc 11 - 1) 0 < 255)) :=
  ⟨3, 1, { unit := 1, idx := 4, desc := opElt 1 2 2 0, reads := [], writes := [], gives := none, counts := none }, goTile 1 ({ tileIn with flight := [{ unit := 1, idx := 4, desc := opElt 1 2 2 0, reads := [], writes := [], gives := none, counts := none }] }) tileIn, by decide +kernel, by decide, by decide, by decide +kernel, by decide +kernel, by decide, by decide +kernel⟩

set_option maxRecDepth 100000 in
/-- The hypotheses of clause 15 of TileTransfersAndCompletions are met. -/
theorem witness_TileTransfersAndCompletions_15 :
    (∃ (n u m tn fm el sa un : Nat) (f : OpInFlight) (s : State), ((s.tile n).flight.find? (fun f => f.unit == u) = some f) ∧ (u ≠ 3) ∧ (f.gives = none) ∧ (s.calWaits n f = false) ∧ ((s.tile n).queue = []) ∧ (f.counts = some (tn, fm, el, sa, un)) ∧ ((s.tile n).squad = some m) ∧ (opKind f.desc ≠ 0x06) ∧ (byteAt f.desc 11 = 0 ∨ (s.tile n).sems.getD (byteAt f.desc 11 - 1) 0 < 255)) :=
  ⟨3, 1, 2, 6, 0, 2, 1, 0, { unit := 1, idx := 4, desc := opElt 1 2 2 0, reads := [], writes := [], gives := none, counts := some (6, 0, 2, 1, 0) }, { goTile 1 ({ tileIn with flight := [{ unit := 1, idx := 4, desc := opElt 1 2 2 0, reads := [], writes := [], gives := none, counts := some (6, 0, 2, 1, 0) }] }) tileIn with ns := { Ns.reset with table := [(keeperKey 2 6, Keeper.fresh)] } }, by decide +kernel, by decide, by decide, by decide +kernel, by decide +kernel, by decide, by decide +kernel⟩

set_option maxRecDepth 100000 in
/-- The hypotheses of clause 16 of TileTransfersAndCompletions are met. -/
theorem witness_TileTransfersAndCompletions_16 :
    (∃ (n u m : Nat) (f : OpInFlight) (s : State), ((s.tile n).flight.find? (fun f => f.unit == u) = some f) ∧ (u ≠ 3) ∧ (f.gives = none) ∧ (s.calWaits n f = false) ∧ ((s.tile n).queue = []) ∧ (f.counts = none) ∧ (opKind f.desc = 0x06) ∧ (byteAt f.desc 24 = 0) ∧ (byteAt f.desc 11 = 0) ∧ (byteAt f.desc 25 ≠ 0) ∧ (u16At f.desc 28 = m) ∧ (m ≠ n) ∧ ((s.tile m).queue = []) ∧ ((s.tile m).sems.getD (byteAt f.desc 25 - 1) 0 < 255)) :=
  ⟨3, 2, 4, { unit := 2, idx := 4, desc := (opScatter 0 1 4 0x80).set 25 1, reads := [], writes := [], gives := none, counts := none }, goTile 1 ({ tileIn with flight := [{ unit := 2, idx := 4, desc := (opScatter 0 1 4 0x80).set 25 1, reads := [], writes := [], gives := none, counts := none }] }) tileIn, by decide +kernel⟩

set_option maxRecDepth 100000 in
/-- The hypotheses of clause 17 of TileTransfersAndCompletions are met. -/
theorem witness_TileTransfersAndCompletions_17 :
    (∃ (n u m : Nat) (q : Squad) (f : OpInFlight) (s : State), ((s.tile n).flight.find? (fun f => f.unit == u) = some f) ∧ (u ≠ 3) ∧ (f.gives = none) ∧ (s.calWaits n f = false) ∧ ((s.tile n).queue = []) ∧ (f.counts = none) ∧ (opKind f.desc ≠ 0x06) ∧ (byteAt f.desc 11 ≠ 0) ∧ (255 ≤ (s.tile n).sems.getD (byteAt f.desc 11 - 1) 0) ∧ ((s.tile n).squad = some m) ∧ (s.squadOf m = some q) ∧ (q.state = .active) ∧ (s.ntAll = true) ∧ (s.inGo = true) ∧ (s.jobsOf m = [])) :=
  ⟨3, 1, 2, { squad 1 [3, 4] with layouts := layoutsFix }, { unit := 1, idx := 4, desc := (opElt 1 2 2 0).set 11 1, reads := [], writes := [], gives := none, counts := none }, { goTile 1 ({ tileIn with flight := [{ unit := 1, idx := 4, desc := (opElt 1 2 2 0).set 11 1, reads := [], writes := [], gives := none, counts := none }], sems := List.replicate 16 255 }) tileIn with jd := Jd.reset }, by decide +kernel⟩

set_option maxRecDepth 100000 in
/-- The hypotheses of clause 18 of TileTransfersAndCompletions are met. -/
theorem witness_TileTransfersAndCompletions_18 :
    (∃ (n u : Nat) (s : State), ((s.tile n).flight.find? (fun f => f.unit == u) = none ∨ u = 3 ∨ (∃ f, (s.tile n).flight.find? (fun f => f.unit == u) = some f ∧ (f.gives.isSome = true ∨ s.calWaits n f = true)))) :=
  ⟨4, 2, State.reset, Or.inl (by decide)⟩

set_option maxRecDepth 100000 in
/-- The hypotheses of clause 19 of TileTransfersAndCompletions are met. -/
theorem witness_TileTransfersAndCompletions_19 :
    (∃ (n l m : Nat) (f : OpInFlight) (j : Job) (p : Pin) (e : DirEntry) (s : State), ((s.tile n).flight = [f]) ∧ (f.unit = 3) ∧ (byteAt f.desc 24 = l) ∧ ((s.tile n).squad = some m) ∧ (s.job (opTag f.desc) = some j) ∧ (s.pinOf (opTag f.desc) (u32At f.desc 16) = some p) ∧ (l < (s.tile n).latches.length) ∧ (s.rl.dir.find p.object = some e) ∧ (s.rl.ftShare % 512 ≠ 0 ∨ e.usesNear p (u32At f.desc 20) = true) ∧ ((s.tile n).queue = []) ∧ (byteAt f.desc 11 = 0 ∨ (s.tile n).sems.getD (byteAt f.desc 11 - 1) 0 < 255) ∧ (batonOk (s.batonBytes p j.snapshot (u32At f.desc 20)).1 (s.batonBytes p j.snapshot (u32At f.desc 20)).2 (u32At f.desc 16) (u32At f.desc 20) p.version = true)) :=
  ⟨3, 1, 2, { unit := 3, idx := 0, desc := opLoad 3, reads := [], writes := [], gives := none, counts := none }, { jobWith 1 { sq := 0, cid := 9 } .admitted (scanRest 8 0 4096) with pins := [{ object := 9, version := 1, near := true }] }, { object := 9, version := 1, near := true }, objAt 1 (some 0x100000) .none .resident, goFill, by decide +kernel, by decide +kernel, by decide +kernel, by decide +kernel, by decide +kernel, (by decide +kernel), by decide +kernel, by decide +kernel, by decide +kernel, by decide +kernel, by decide +kernel, batonOk_goFill⟩

set_option maxRecDepth 100000 in
/-- The hypotheses of clause 20 of TileTransfersAndCompletions are met. -/
theorem witness_TileTransfersAndCompletions_20 :
    (∃ (n l m : Nat) (f : OpInFlight) (j : Job) (p : Pin) (e : DirEntry) (s : State), ((s.tile n).flight = [f]) ∧ (f.unit = 3) ∧ (byteAt f.desc 24 = l) ∧ ((s.tile n).squad = some m) ∧ (s.job (opTag f.desc) = some j) ∧ (s.pinOf (opTag f.desc) (u32At f.desc 16) = some p) ∧ (l < (s.tile n).latches.length) ∧ (s.rl.dir.find p.object = some e) ∧ (s.rl.ftShare % 512 ≠ 0 ∨ e.usesNear p (u32At f.desc 20) = true) ∧ (batonOk (s.batonBytes p j.snapshot (u32At f.desc 20)).1 (s.batonBytes p j.snapshot (u32At f.desc 20)).2 (u32At f.desc 16) (u32At f.desc 20) p.version = false) ∧ (s.ntAll = true) ∧ (s.inGo = true) ∧ ((s.squadOf m).map Squad.state = some .active) ∧ (s.jobsOf m = [])) :=
  ⟨3, 1, 2, { unit := 3, idx := 0, desc := opLoad 3, reads := [], writes := [], gives := none, counts := none }, { { jobWith 1 { sq := 0, cid := 9 } .admitted (scanRest 8 0 4096) with pins := [{ object := 9, version := 1, near := true }] } with squad := 9 }, { object := 9, version := 1, near := true }, objAt 1 (some 0x100000) .none .resident, goBad, by decide +kernel, by decide +kernel, by decide +kernel, by decide +kernel, by decide +kernel, (by decide +kernel), by decide +kernel, by decide +kernel, by decide +kernel, badBaton, by decide +kernel⟩

set_option maxRecDepth 100000 in
/-- The hypotheses of clause 21 of TileTransfersAndCompletions are met. -/
theorem witness_TileTransfersAndCompletions_21 :
    (∃ (n l a m : Nat) (f : OpInFlight) (j : Job) (p : Pin) (s : State), ((s.tile n).flight = [f]) ∧ (f.unit = 3) ∧ (byteAt f.desc 24 = l) ∧ ((s.tile n).squad = some m) ∧ (s.job (opTag f.desc) = some j) ∧ (s.pinOf (opTag f.desc) (u32At f.desc 16) = some p) ∧ (s.rl.ftShare % 512 ≠ 0) ∧ (s.ntAll = true) ∧ (s.inGo = true) ∧ ((s.squadOf m).map Squad.state = some .active) ∧ (s.jobsOf m = [])) :=
  ⟨3, 1, 0x100000, 2, { unit := 3, idx := 0, desc := opLoad 3, reads := [], writes := [], gives := none, counts := none }, { { jobWith 1 { sq := 0, cid := 9 } .admitted (scanRest 8 0 4096) with pins := [{ object := 9, version := 1, near := true }] } with squad := 9 }, { object := 9, version := 1, near := true }, { goTile 1 ({ tileIn with flight := [{ unit := 3, idx := 0, desc := opLoad 3, reads := [], writes := [], gives := none, counts := none }] }) tileIn with jd := { Jd.reset with jobs := [{ { jobWith 1 { sq := 0, cid := 9 } .admitted (scanRest 8 0 4096) with pins := [{ object := 9, version := 1, near := true }] } with squad := 9 }] } }, by decide +kernel⟩

set_option maxRecDepth 100000 in
/-- The hypotheses of clause 22 of TileTransfersAndCompletions are met. -/
theorem witness_TileTransfersAndCompletions_22 :
    (∃ (n l ch a m : Nat) (f : OpInFlight) (j : Job) (p : Pin) (s : State), ((s.tile n).flight = [f]) ∧ (f.unit = 3) ∧ (byteAt f.desc 24 = l) ∧ ((s.tile n).squad = some m) ∧ (s.job (opTag f.desc) = some j) ∧ (s.pinOf (opTag f.desc) (u32At f.desc 16) = some p) ∧ (s.rl.ftShare % 512 ≠ 0) ∧ (s.ntAll = true) ∧ (s.inGo = true) ∧ ((s.squadOf m).map Squad.state = some .active) ∧ (s.jobsOf m = [])) :=
  ⟨3, 1, 2, 0x100000, 2, { unit := 3, idx := 0, desc := opLoad 3, reads := [], writes := [], gives := none, counts := none }, { { jobWith 1 { sq := 0, cid := 9 } .admitted (scanRest 8 0 4096) with pins := [{ object := 9, version := 1, near := true }] } with squad := 9 }, { object := 9, version := 1, near := true }, { goTile 1 ({ tileIn with flight := [{ unit := 3, idx := 0, desc := opLoad 3, reads := [], writes := [], gives := none, counts := none }] }) tileIn with jd := { Jd.reset with jobs := [{ { jobWith 1 { sq := 0, cid := 9 } .admitted (scanRest 8 0 4096) with pins := [{ object := 9, version := 1, near := true }] } with squad := 9 }] } }, by decide +kernel⟩

set_option maxRecDepth 100000 in
/-- The hypotheses of clause 23 of TileTransfersAndCompletions are met. -/
theorem witness_TileTransfersAndCompletions_23 :
    (∃ (n l ch v b m : Nat) (f : OpInFlight) (j : Job) (p : Pin) (s : State), ((s.tile n).flight = [f]) ∧ (f.unit = 3) ∧ (byteAt f.desc 24 = l) ∧ ((s.tile n).squad = some m) ∧ (s.job (opTag f.desc) = some j) ∧ (s.pinOf (opTag f.desc) (u32At f.desc 16) = some p) ∧ (s.rl.ftShare % 512 ≠ 0) ∧ (s.ntAll = true) ∧ (s.inGo = true) ∧ (j.c ∈ s.qe.fetched)) :=
  ⟨3, 1, 2, 1, 7, 2, { unit := 3, idx := 0, desc := opLoad 3, reads := [], writes := [], gives := none, counts := none }, { jobWith 1 { sq := 0, cid := 9 } .admitted (scanRest 8 0 4096) with pins := [{ object := 9, version := 1, near := true }] }, { object := 9, version := 1, near := true }, goTile 1 ({ tileIn with flight := [{ unit := 3, idx := 0, desc := opLoad 3, reads := [], writes := [], gives := none, counts := none }] }) tileIn, by decide +kernel⟩

set_option maxRecDepth 100000 in
/-- The hypotheses of clause 24 of TileTransfersAndCompletions are met. -/
theorem witness_TileTransfersAndCompletions_24 :
    (∃ (n l : Nat) (r : FillResult) (s : State), ((s.tile n).flight.find? (fun f => f.unit == 3 && byteAt f.desc 24 == l) = none)) :=
  ⟨3, 1, .readable, State.reset, by decide +kernel⟩

set_option maxRecDepth 100000 in
/-- The hypotheses of clause 25 of TileTransfersAndCompletions are met. -/
theorem witness_TileTransfersAndCompletions_25 :
    (∃ (n l m : Nat) (f : OpInFlight) (j : Job) (p : Pin) (e : DirEntry) (r : FillResult) (s : State), ((s.tile n).flight = [f]) ∧ (f.unit = 3) ∧ (byteAt f.desc 24 = l) ∧ ((s.tile n).squad = some m) ∧ (s.job (opTag f.desc) = some j) ∧ (s.pinOf (opTag f.desc) (u32At f.desc 16) = some p) ∧ (s.rl.ftShare % 512 = 0) ∧ (s.rl.dir.find p.object = some e) ∧ (e.usesNear p (u32At f.desc 20) = false) ∧ ((e.ver p.version).map (fun v => v.home.isFar) = some true)) :=
  ⟨3, 1, 2, { unit := 3, idx := 0, desc := opLoad 3, reads := [], writes := [], gives := none, counts := none }, { { jobWith 1 { sq := 0, cid := 9 } .admitted (scanRest 8 0 4096) with pins := [{ object := 9, version := 1, near := true }] } with squad := 9, pins := [{ object := 9, version := 1, near := false }] }, { object := 9, version := 1, near := false }, objAt 1 none (.far 0) .home, .readable, { goTile 1 ({ tileIn with flight := [{ unit := 3, idx := 0, desc := opLoad 3, reads := [], writes := [], gives := none, counts := none }] }) tileIn with jd := { Jd.reset with jobs := [{ { jobWith 1 { sq := 0, cid := 9 } .admitted (scanRest 8 0 4096) with pins := [{ object := 9, version := 1, near := true }] } with squad := 9, pins := [{ object := 9, version := 1, near := false }] }] }, rl := { Rl.reset with dir := [(9, objAt 1 none (.far 0) .home)], ftShare := 0 } }, by decide +kernel⟩

set_option maxRecDepth 100000 in
/-- The hypotheses of clause 26 of TileTransfersAndCompletions are met. -/
theorem witness_TileTransfersAndCompletions_26 :
    (∃ (n m : Nat) (d : List Byte) (q : Squad) (i : Instr) (s : State), (i ∈ opRows n d) ∧ (d.length = 64) ∧ (s.takesOps n = true) ∧ ((s.tile n).queue = []) ∧ ((s.tile n).held = []) ∧ ((s.tile n).hurdle = false) ∧ ((s.tile n).squad = some m) ∧ (s.squadOf m = some q) ∧ (q.state = .active) ∧ (s.instantiate d = d) ∧ (s.decodeOk q m n d = false) ∧ (s.ntAll = true) ∧ (s.jobsRun = true) ∧ (s.jobsOf m = [])) :=
  ⟨3, 2, opMatmul 3 0, { squad 1 [3, 4] with layouts := layoutsFix }, .matmul 3 (opMatmul 3 0), { goTile 1 tileLatched tileIn with jd := Jd.reset }, by decide +kernel⟩

/-- The hypotheses of clause 1 of FaultMessagesAndTheirEffects are met. -/
theorem witness_FaultMessagesAndTheirEffects_1 :
    (∃ (m : FaultMsg) (s : State), (s.linkUp = true) ∧ (posts m.source m.kind m.cls (bitW m.d1 0) = true) ∧ (m.cls = 0) ∧ (limitCode m = none) ∧ (s.ntAll = true)) :=
  ⟨msgOf srcMG kSpareLow 0 5 none none, goFault .active [] none, by decide +kernel⟩

/-- The hypotheses of clause 2 of FaultMessagesAndTheirEffects are met. -/
theorem witness_FaultMessagesAndTheirEffects_2 :
    (∃ (m : FaultMsg) (k : Nat) (s : State), (s.linkUp = true) ∧ (posts m.source m.kind m.cls (bitW m.d1 0) = true) ∧ (m.cls = 0) ∧ (limitCode m = some k) ∧ ((m.source, m.kind, k) ∉ s.fl.beatPosts) ∧ (s.ntAll = true)) :=
  ⟨msgOf srcHL kProtocol 0 1 none none, 32, goFault .active [] none, by decide +kernel⟩

/-- The hypotheses of clause 3 of FaultMessagesAndTheirEffects are met. -/
theorem witness_FaultMessagesAndTheirEffects_3 :
    (∃ (m : FaultMsg) (k : Nat) (s : State), (s.linkUp = true) ∧ (posts m.source m.kind m.cls (bitW m.d1 0) = true) ∧ (m.cls = 0) ∧ (limitCode m = some k) ∧ ((m.source, m.kind, k) ∈ s.fl.beatPosts)) :=
  ⟨msgOf srcHL kProtocol 0 1 none none, 32, { goFault .active [] none with fl := { Fl.reset with beatPosts := [(srcHL, kProtocol, 32)] } }, by decide +kernel⟩

/-- The hypotheses of clause 4 of FaultMessagesAndTheirEffects are met. -/
theorem witness_FaultMessagesAndTheirEffects_4 :
    (∃ (m : FaultMsg) (s : State), (s.linkUp = true) ∧ (posts m.source m.kind m.cls (bitW m.d1 0) = true) ∧ (m.cls = 0) ∧ (m.kind = kEccCorr) ∧ (m.source < 0x400)) :=
  ⟨msgOf 3 kEccCorr 0 7 none none, goFault .active [] none, by decide +kernel⟩

/-- The hypotheses of clause 5 of FaultMessagesAndTheirEffects are met. -/
theorem witness_FaultMessagesAndTheirEffects_5 :
    (∃ (m : FaultMsg) (s : State), (s.linkUp = true) ∧ (posts m.source m.kind m.cls (bitW m.d1 0) = true) ∧ (0x480 ≤ m.source) ∧ (m.source < 0x490) ∧ (m.cls = 0 ∧ m.kind = kEccCorr ∨ m.cls = 1 ∧ m.kind = kEccUncorr) ∧ (m.squad = none) ∧ (m.jobs = [])) :=
  ⟨msgOf 0x483 kEccUncorr 1 2 none none, goFault .active [] none, by decide +kernel, by decide +kernel, by decide, by decide, Or.inr ⟨rfl, rfl⟩, rfl, rfl⟩

/-- The hypotheses of clause 6 of FaultMessagesAndTheirEffects are met. -/
theorem witness_FaultMessagesAndTheirEffects_6 :
    (∃ (m : FaultMsg) (n : Nat) (q : Squad) (s : State), (s.linkUp = true) ∧ (posts m.source m.kind m.cls (bitW m.d1 0) = true) ∧ (m.cls = 1) ∧ (m.source < 0x400) ∧ (m.tile = some m.source) ∧ (m.squad = some n) ∧ (s.squadOf n = some q) ∧ (q.state = .active) ∧ (s.ntAll = true) ∧ (s.halted = false) ∧ ((s.fl.standing.filter Standing.entry).length < 256)) :=
  ⟨msgOf 3 kEccUncorr 1 7 (some 2) (some 3), 2, squad 1 [3], goFault .active [] none, by decide +kernel⟩

/-- The hypotheses of clause 7 of FaultMessagesAndTheirEffects are met. -/
theorem witness_FaultMessagesAndTheirEffects_7 :
    (∃ (m : FaultMsg) (n : Nat) (j : Job) (q : Squad) (s : State), (s.linkUp = true) ∧ (posts m.source m.kind m.cls (bitW m.d1 0) = true) ∧ (m.cls = 1) ∧ (m.source < 0x400) ∧ (m.tile = some m.source) ∧ (m.squad = some n) ∧ (s.squadOf n = some q) ∧ (q.state = .active) ∧ (s.halted = false) ∧ (j.tag ∈ m.jobs) ∧ (s.jd.jobs = [j]) ∧ (j.kind = 1) ∧ (j.squad = n) ∧ (j.state = .admitted) ∧ (j.c ∈ s.qe.fetched) ∧ (s.ntAll = true)) :=
  ⟨{ msgOf 3 kEccUncorr 1 7 (some 2) (some 3) with jobs := [1] }, 2, jobWith 1 { sq := 0, cid := 9 } .admitted (scanRest 8 0 4096), squad 1 [3], { goFault .active [] none with jd := { Jd.reset with jobs := [jobWith 1 { sq := 0, cid := 9 } .admitted (scanRest 8 0 4096)], nextTag := 2 } }, by decide +kernel⟩

/-- The hypotheses of clause 8 of FaultMessagesAndTheirEffects are met. -/
theorem witness_FaultMessagesAndTheirEffects_8 :
    (∃ (m : FaultMsg) (n : Nat) (q : Squad) (s : State), (s.linkUp = true) ∧ (posts m.source m.kind m.cls (bitW m.d1 0) = true) ∧ (m.cls = 1) ∧ (m.source < 0x400) ∧ (m.tile = some m.source) ∧ (m.squad = some n) ∧ (s.squadOf n = some q) ∧ (q.state = .fenced) ∧ (s.ntAll = true) ∧ (s.halted = false) ∧ ((s.fl.standing.filter Standing.entry).length < 256)) :=
  ⟨msgOf 3 kEccUncorr 1 7 (some 2) (some 3), 2, { squad 1 [3] with state := .fenced }, goFault .fenced [] none, by decide +kernel⟩

/-- The hypotheses of clause 9 of FaultMessagesAndTheirEffects are met. -/
theorem witness_FaultMessagesAndTheirEffects_9 :
    (∃ (m : FaultMsg) (n : Nat) (q : Squad) (s : State), (s.linkUp = true) ∧ (posts m.source m.kind m.cls (bitW m.d1 0) = true) ∧ (m.cls = 1) ∧ (m.source < 0x400) ∧ (m.tile = some m.source) ∧ (m.squad = some n) ∧ (s.squadOf n = some q) ∧ (q.state = .draining) ∧ (s.ntAll = true) ∧ (s.halted = false)) :=
  ⟨msgOf 3 kEccUncorr 1 7 (some 2) (some 3), 2, { squad 1 [3] with state := .draining }, goFault .draining [] none, by decide +kernel⟩

/-- The hypotheses of clause 10 of FaultMessagesAndTheirEffects are met. -/
theorem witness_FaultMessagesAndTheirEffects_10 :
    (∃ (m : FaultMsg) (s : State), (s.linkUp = true) ∧ (posts m.source m.kind m.cls (bitW m.d1 0) = true) ∧ (m.cls = 1) ∧ (0x400 ≤ m.source) ∧ (m.source < 0x480) ∧ (m.jobs = []) ∧ (s.ntAll = true)) :=
  ⟨msgOf 0x40F kEccUncorr 1 16 none none, goFault .active [] none, by decide +kernel⟩

/-- The hypotheses of clause 11 of FaultMessagesAndTheirEffects are met. -/
theorem witness_FaultMessagesAndTheirEffects_11 :
    (∃ (m : FaultMsg) (j : Job) (s : State), (s.linkUp = true) ∧ (posts m.source m.kind m.cls (bitW m.d1 0) = true) ∧ (m.cls = 1) ∧ (m.kind = kEccUncorr) ∧ (0x400 ≤ m.source) ∧ (m.source < 0x480) ∧ (bitN m.addr.toNat 63 = false) ∧ (m.jobs = [j.tag]) ∧ (s.job j.tag = some j) ∧ (j.kind = 1) ∧ (j.state = .admitted) ∧ (j.c ∈ s.qe.fetched) ∧ (s.halted = false) ∧ (s.ntAll = true)) :=
  ⟨{ msgOf 0x40F kEccUncorr 1 16 none none with jobs := [1] }, jobWith 1 { sq := 0, cid := 9 } .admitted (scanRest 8 0 4096), { goFault .active [] none with jd := { Jd.reset with jobs := [jobWith 1 { sq := 0, cid := 9 } .admitted (scanRest 8 0 4096)], nextTag := 2 } }, by decide +kernel⟩

/-- The hypotheses of clause 12 of FaultMessagesAndTheirEffects are met. -/
theorem witness_FaultMessagesAndTheirEffects_12 :
    (∃ (m : FaultMsg) (s : State), (s.linkUp = true) ∧ (posts m.source m.kind m.cls (bitW m.d1 0) = true) ∧ (m.cls = 2) ∧ (s.inBlocks = true ∨ s.inGo = true) ∧ (s.ntAll = true) ∧ ((s.fl.standing.filter Standing.entry).length < 256) ∧ (∀ e ∈ s.idx, e.2.commit = none)) :=
  ⟨msgOf 0x4A3 kEccUncorr 2 0 none none, { goFault .active [] none with jd := { Jd.reset with jobs := [jobWith 1 { sq := 0, cid := 9 } .admitted (scanRest 8 0 4096)] } }, by decide +kernel, by decide +kernel, by decide, Or.inr (by decide +kernel), by decide +kernel⟩

/-- The hypotheses of clause 13 of FaultMessagesAndTheirEffects are met. -/
theorem witness_FaultMessagesAndTheirEffects_13 :
    (∃ (m : FaultMsg) (s : State), (s.linkUp = true) ∧ (posts m.source m.kind m.cls (bitW m.d1 0) = true) ∧ (m.cls = 2) ∧ (s.inBlocks = false) ∧ (s.inGo = false) ∧ (s.ntAll = true) ∧ ((s.fl.standing.filter Standing.entry).length < 256) ∧ (s.mc.fatalClear = none)) :=
  ⟨msgOf 0x4A3 kEccUncorr 2 0 none none, haltedWith [], by decide +kernel⟩

/-- The hypotheses of clause 14 of FaultMessagesAndTheirEffects are met. -/
theorem witness_FaultMessagesAndTheirEffects_14 :
    (∃ (m : FaultMsg) (s : State), (s.linkUp = false ∨ posts m.source m.kind m.cls (bitW m.d1 0) = false)) :=
  ⟨msgOf srcMG kThermal 2 0 none none, goFault .active [] none, Or.inr (by decide +kernel)⟩

/-- The hypotheses of clause 15 of FaultMessagesAndTheirEffects are met. -/
theorem witness_FaultMessagesAndTheirEffects_15 :
    (∃ (k : Nat) (s : State), (s.vendorLive = true) ∧ (s.ntAll = true) ∧ (s.inBlocks = true ∨ s.inGo = true) ∧ ((s.fl.standing.filter Standing.entry).length < 256)) :=
  ⟨7, goFault .active [] none, by decide +kernel, by decide +kernel, Or.inr (by decide +kernel), by decide +kernel⟩

/-- The hypotheses of clause 16 of FaultMessagesAndTheirEffects are met. -/
theorem witness_FaultMessagesAndTheirEffects_16 :
    (∃ (k : Nat) (s : State), (s.vendorLive = false)) :=
  ⟨3, State.reset, by decide +kernel⟩

/-- The hypotheses of clause 1 of FaultClears are met. -/
theorem witness_FaultClears_1 :
    (∃ (c : CmdId) (d : Dwords) (l : List Recheck) (s : State), (s.serves c .served) ∧ (bitsW d.d10 1 0 ≠ 3) ∧ (s.clearBusy = false) ∧ (∀ x ∈ s.fl.standing, x.record.cls ≠ 2)) :=
  ⟨{ sq := 0, cid := 7 }, loadWords 0 0 0, [], goFault .active [] none, by decide +kernel⟩

/-- The hypotheses of clause 2 of FaultClears are met. -/
theorem witness_FaultClears_2 :
    (∃ (c : CmdId) (d : Dwords) (l : List Recheck) (s : State), (s.serves c .served) ∧ (bitsW d.d10 1 0 ≠ 3) ∧ (s.clearBusy = false) ∧ (∃ x ∈ s.fl.standing, x.record.cls = 2) ∧ (∀ x ∈ s.fl.standing, x.record.cls = 2 → x.stack = false → s.persists l x = false)) :=
  ⟨{ sq := 0, cid := 7 }, loadWords 0 0 0, [], haltedWith [{ record := recOf srcMG kProtocol 2, squad := none, entry := true }, { record := recOf 0x482 kAddrCode 2, squad := none, entry := true }], by decide +kernel⟩

/-- The hypotheses of clause 3 of FaultClears are met. -/
theorem witness_FaultClears_3 :
    (∃ (c : CmdId) (d : Dwords) (l : List Recheck) (x : Standing) (s : State), (s.serves c .served) ∧ (bitsW d.d10 1 0 ≠ 3) ∧ (s.clearBusy = false) ∧ (s.fl.standing = [x]) ∧ (x.record.cls = 2) ∧ (x.stack = false) ∧ (s.persists l x = true) ∧ (s.mc.phase = .halted) ∧ (s.ntAll = true) ∧ (x.entry = true) ∧ (c ∉ s.qe.aers)) :=
  ⟨{ sq := 0, cid := 7 }, loadWords 0 0 0, [{ source := 0x4A1, kind := kEccUncorr, persists := true }], { record := recOf 0x4A1 kEccUncorr 2, squad := none, entry := true }, haltedWith [{ record := recOf 0x4A1 kEccUncorr 2, squad := none, entry := true }], by decide +kernel⟩

/-- The hypotheses of clause 4 of FaultClears are met. -/
theorem witness_FaultClears_4 :
    (∃ (c : CmdId) (d : Dwords) (l : List Recheck) (s : State), (s.serves c .served) ∧ (bitsW d.d10 1 0 ≠ 3) ∧ (s.clearBusy = false) ∧ (s.fenced (bitsW d.d10 13 8) = false)) :=
  ⟨{ sq := 0, cid := 7 }, loadWords 0x301 0 0, [], goFault .active [] none, by decide +kernel⟩

/-- The hypotheses of clause 5 of FaultClears are met. -/
theorem witness_FaultClears_5 :
    (∃ (c : CmdId) (d : Dwords) (l : List Recheck) (s : State), (s.serves c .served) ∧ (bitsW d.d10 1 0 ≠ 3) ∧ (s.clearBusy = false) ∧ (s.fenced (bitsW d.d10 13 8) = true) ∧ (∀ x ∈ s.fl.standing, s.persists l x = false)) :=
  ⟨{ sq := 0, cid := 7 }, loadWords 0x201 0 0, [], goFault .fenced [{ record := recOf 3 kProtocol 1, squad := some 2, entry := true }] none, by decide +kernel⟩

/-- The hypotheses of clause 6 of FaultClears are met. -/
theorem witness_FaultClears_6 :
    (∃ (c : CmdId) (d : Dwords) (l : List Recheck) (x : Standing) (q : Squad) (s : State), (s.serves c .served) ∧ (bitsW d.d10 1 0 ≠ 3) ∧ (s.clearBusy = false) ∧ (s.squadOf (bitsW d.d10 13 8) = some q) ∧ (q.state = .fenced) ∧ (s.fl.standing = [x]) ∧ (x.record.cls = 1) ∧ (x.squad = some (bitsW d.d10 13 8)) ∧ (x.record.source < 0x400) ∧ (x.record.kind = kEccUncorr) ∧ (s.persists l x = true) ∧ (s.halted = false) ∧ (s.ntAll = true)) :=
  ⟨{ sq := 0, cid := 7 }, loadWords 0x201 0 0, [{ source := 3, kind := kEccUncorr, persists := true }], { record := recOf 3 kEccUncorr 1, squad := some 2, entry := true }, { squad 1 [3] with state := .fenced }, goFault .fenced [{ record := recOf 3 kEccUncorr 1, squad := some 2, entry := true }] none, by decide +kernel⟩

/-- The hypotheses of clause 7 of FaultClears are met. -/
theorem witness_FaultClears_7 :
    (∃ (c : CmdId) (d : Dwords) (l : List Recheck) (s : State), (s.serves c .served) ∧ (bitsW d.d10 1 0 ≠ 3) ∧ (s.clearBusy = false) ∧ (s.fencedSquads = []) ∧ (∀ x ∈ s.fl.standing, x.record.cls ≠ 1 ∨ x.squad ≠ none)) :=
  ⟨{ sq := 0, cid := 7 }, loadWords 2 0 0, [], goFault .active [] none, by decide +kernel⟩

/-- The hypotheses of clause 8 of FaultClears are met. -/
theorem witness_FaultClears_8 :
    (∃ (c : CmdId) (d : Dwords) (l : List Recheck) (s : State), (s.serves c .served) ∧ (bitsW d.d10 1 0 ≠ 3) ∧ (s.clearBusy = false) ∧ (s.fencedSquads ≠ []) ∧ (∀ x ∈ s.fl.standing, s.persists l x = false)) :=
  ⟨{ sq := 0, cid := 7 }, loadWords 2 0 0, [], goFault .fenced [{ record := recOf 3 kProtocol 1, squad := some 2, entry := true }] none, by decide +kernel⟩

/-- The hypotheses of clause 9 of FaultClears are met. -/
theorem witness_FaultClears_9 :
    (∃ (c : CmdId) (d : Dwords) (l : List Recheck) (s : State), (s.serves c .served) ∧ (bitsW d.d10 1 0 ≠ 3) ∧ (s.clearBusy = true)) :=
  ⟨{ sq := 0, cid := 7 }, loadWords 2 0 0, [], goFault .fenced [{ record := recOf 3 kProtocol 1, squad := some 2, entry := true }] (some { by_ := .register, squads := [2], persists := [] }), by decide +kernel⟩

/-- The hypotheses of clause 10 of FaultClears are met. -/
theorem witness_FaultClears_10 :
    (∃ (c : CmdId) (d : Dwords) (l : List Recheck) (s : State), (s.serves c .served) ∧ (bitsW d.d10 1 0 = 3)) :=
  ⟨{ sq := 0, cid := 7 }, loadWords 3 0 0, [], goFault .active [] none, by decide +kernel⟩

/-- The hypotheses of clause 11 of FaultClears are met. -/
theorem witness_FaultClears_11 :
    (∃ (v : W32) (l : List Recheck) (s : State), (s.vendorLive = false)) :=
  ⟨7, [], State.reset, by decide +kernel⟩

/-- The hypotheses of clause 12 of FaultClears are met. -/
theorem witness_FaultClears_12 :
    (∃ (v : W32) (l : List Recheck) (s : State), (s.vendorLive = true) ∧ (s.clearBusy = false)) :=
  ⟨0x304, [], goFault .active [] none, by decide +kernel⟩

/-- The hypotheses of clause 13 of FaultClears are met. -/
theorem witness_FaultClears_13 :
    (∃ (v : W32) (l : List Recheck) (s : State), (s.vendorLive = true) ∧ (s.clearBusy = false) ∧ (∃ x ∈ s.fl.standing, x.record.cls = 2) ∧ (∀ x ∈ s.fl.standing, x.record.cls = 2 → x.stack = false → s.persists l x = false)) :=
  ⟨1, [], haltedWith [{ record := recOf srcMG kProtocol 2, squad := none, entry := true }, { record := recOf 0x482 kAddrCode 2, squad := none, entry := true }], by decide +kernel⟩

/-- The hypotheses of clause 14 of FaultClears are met. -/
theorem witness_FaultClears_14 :
    (∃ (v : W32) (l : List Recheck) (s : State), (s.vendorLive = true) ∧ (s.clearBusy = false) ∧ (s.fenced (bitsW v 13 8) = true) ∧ (∀ x ∈ s.fl.standing, s.persists l x = false)) :=
  ⟨0x202, [], goFault .fenced [{ record := recOf 3 kProtocol 1, squad := some 2, entry := true }] none, by decide +kernel⟩

/-- The hypotheses of clause 15 of FaultClears are met. -/
theorem witness_FaultClears_15 :
    (∃ (v : W32) (l : List Recheck) (s : State), (s.vendorLive = true) ∧ (s.clearBusy = false) ∧ (s.fencedSquads ≠ []) ∧ (∀ x ∈ s.fl.standing, s.persists l x = false)) :=
  ⟨4, [], goFault .fenced [{ record := recOf 3 kProtocol 1, squad := some 2, entry := true }] none, by decide +kernel⟩

/-- The hypotheses of clause 16 of FaultClears are met. -/
theorem witness_FaultClears_16 :
    (∃ (n : Nat) (q : Squad) (c : CmdId) (s : State), (s.fl.clear = some { by_ := .command c, squads := [n], persists := [] }) ∧ (∀ x ∈ s.fl.standing, x.squad ≠ some n) ∧ (s.squadOf n = some q) ∧ (q.state = .fenced) ∧ (c ∈ s.qe.fetched)) :=
  ⟨2, { squad 1 [3] with state := .fenced }, { sq := 0, cid := 9 }, goFault .fenced [] (some { by_ := .command { sq := 0, cid := 9 }, squads := [2], persists := [] }), by decide +kernel⟩

/-- The hypotheses of clause 17 of FaultClears are met. -/
theorem witness_FaultClears_17 :
    (∃ (k : ClearOp) (s : State), (s.fl.clear = some k) ∧ (k.by_ = .register) ∧ (k.persists ≠ [])) :=
  ⟨{ by_ := .register, squads := [2], persists := [2] }, goFault .fenced [{ record := recOf 3 kProtocol 1, squad := some 2, entry := true }] (some { by_ := .register, squads := [2], persists := [2] }), by decide +kernel⟩

/-- The hypotheses of clause 18 of FaultClears are met. -/
theorem witness_FaultClears_18 :
    (∃ (s : State), (s.fl.clear = none)) :=
  ⟨State.reset, by decide +kernel⟩

/-- The hypotheses of OneLoadOrRetireAtATime are met. -/
theorem witness_OneLoadOrRetireAtATime :
    (∃ (c : CmdId) (d : Dwords) (x : List Byte) (s : State), (s.serves c .stage) ∧ (s.sl.load.isSome = true ∨ s.sl.retire.isSome = true)) ∧
    (∃ (c : CmdId) (d : Dwords) (s : State), (s.serves c .manage) ∧ (s.sl.load.isSome = true ∨ s.sl.retire.isSome = true ∨ s.sl.persist.isSome = true)) ∧
    (∃ (c : CmdId) (d : Dwords) (s : State), (s.serves c .manage) ∧ (s.sl.load.isSome = true ∨ s.sl.retire.isSome = true) ∧ (bitW d.d10 8 = false)) ∧
    (∃ (c : CmdId) (d : Dwords) (s : State), (s.serves c .manage) ∧ (s.sl.load.isSome = true ∨ s.sl.retire.isSome = true) ∧ (s.sl.retire.map Retire.squad ≠ some (bitsW d.d10 5 0)) ∧ (s.applyDrains (bitsW d.d10 5 0) = false)) ∧
    (∃ (c : CmdId) (d : Dwords) (s : State), (s.serves c .manage) ∧ (s.sl.load = none) ∧ (s.sl.retire.map Retire.squad = some (bitsW d.d10 5 0))) :=
  ⟨⟨{ sq := 0, cid := 7 }, loadWords 0 0 0, [1], goLoad { SquadSet.empty with squads := [(2, squad 1 [3])] } none (some { cs := [{ sq := 0, cid := 9 }], squad := 2, force := false, drained := 0, aborted := 0 }) [], by decide +kernel, Or.inr (by decide)⟩,
   ⟨{ sq := 0, cid := 7 }, loadWords 1 0 0, goLoad { SquadSet.empty with squads := [(2, squad 1 [3])] } (some (loadOf [] .verify SquadSet.empty [])) none [], by decide +kernel, Or.inl (by decide)⟩,
   ⟨{ sq := 0, cid := 7 }, loadWords 2 0 0, goLoad { SquadSet.empty with squads := [(2, squad 1 [3])] } none (some { cs := [{ sq := 0, cid := 9 }], squad := 2, force := false, drained := 0, aborted := 0 }) [], by decide +kernel, Or.inr (by decide), by decide⟩,
   ⟨{ sq := 0, cid := 7 }, loadWords 0x103 0 0, goLoad { SquadSet.empty with squads := [(2, squad 1 [3])] } none (some { cs := [{ sq := 0, cid := 9 }], squad := 2, force := false, drained := 0, aborted := 0 }) [], by decide +kernel, Or.inr (by decide), by decide, by decide⟩,
   ⟨{ sq := 0, cid := 7 }, loadWords 2 0 0, goLoad { SquadSet.empty with squads := [(2, squad 1 [3])] } none (some { cs := [{ sq := 0, cid := 9 }], squad := 2, force := false, drained := 0, aborted := 0 }) [], by decide +kernel⟩⟩

/-- The hypotheses of EarlyRecords are met. -/
theorem witness_EarlyRecords :
    (∃ (r k l : Nat) (a : W64) (d0 d1 d2 d3 : W32) (s : State), (s.ntAll = false)) ∧
    (∃ (m : FaultMsg) (s : State), (s.linkUp = true) ∧ (posts m.source m.kind 0 (bitW m.d1 0) = true) ∧ (m.cls = 0) ∧ (limitCode m = none) ∧ (s.ntAll = false) ∧ (s.fl.buffer.length < 256)) ∧
    (∃ (m : FaultMsg) (s : State), (s.linkUp = true) ∧ (posts m.source m.kind 0 (bitW m.d1 0) = true) ∧ (m.cls = 0) ∧ (limitCode m = none) ∧ (s.ntAll = false) ∧ (256 ≤ s.fl.buffer.length) ∧ (s.mc.entries < 65536)) ∧
    (∃ (k : Nat) (s : State), (s.inBlocks = true) ∧ (k ∈ s.mc.trained) ∧ (∃ i, i < 16 ∧ i ≠ k ∧ i ∉ s.rl.ntReady)) ∧
    (∃ (k : Nat) (s : State), (s.inBlocks = true) ∧ (k ∈ s.mc.trained) ∧ (∀ i, i < 16 → i ≠ k → i ∈ s.rl.ntReady) ∧ (s.fl.buffer.length ≤ 256) ∧ (s.fl.buffer.length ≤ s.fl.posted)) :=
  ⟨⟨3, kEccUncorr, 1, 0, 0, 0, 0, 0, { State.reset with fl := { Fl.reset with buffer := List.replicate 256 (recOf srcMG kSpareLow 0), posted := 256 } }, by decide +kernel⟩,
   ⟨msgOf srcMG kSpareLow 0 5 none none, State.reset, by decide +kernel⟩,
   ⟨msgOf srcMG kSpareLow 0 5 none none, { State.reset with fl := { Fl.reset with buffer := List.replicate 256 (recOf srcMG kSpareLow 0), posted := 256 } }, by decide +kernel⟩,
   ⟨15, { State.reset with mc := { Mc.reset with phase := .blocks, trained := [15] } }, by decide +kernel, by decide, ⟨3, by decide, by decide, by decide⟩⟩,
   ⟨15, { State.reset with mc := { Mc.reset with phase := .blocks, trained := [15] }, rl := { Rl.reset with ntReady := List.range 15 }, fl := { Fl.reset with buffer := [recOf srcMG kSpareLow 0, recOf 0x400 kProgFail 0], posted := 65537 } }, by decide +kernel⟩⟩

end Sys2Proof.Tests
end

section
/-! The life of the controller and of function 1 (R5, R215, R312, R332, R355, R378, R383): what CC.EN, the resets of
the two functions, a shutdown and LP_CTL's RESET do to the state. -/

namespace Sys2Proof.Machine

/-! ## The commands where they act, and where they do not -/

theorem exec_controllerEnable_disabled {s : State} (hl : s.linkUp = true) (he : s.qe.enabled = false) :
    exec .controllerEnable s = .next s.controllerEnable := by
  change execControllerEnable s = _
  simp [execControllerEnable, hl, he]

theorem exec_controllerEnable_idle {s : State} (h : s.linkUp = false ∨ s.qe.enabled = true) :
    exec .controllerEnable s = .next s := by
  change execControllerEnable s = _
  rcases h with h | h <;> simp [execControllerEnable, h]

theorem exec_controllerReset_linkUp {s : State} (hl : s.linkUp = true) :
    exec .controllerReset s = .next s.controllerReset := by
  change execControllerReset s = _
  simp [execControllerReset, hl]

theorem exec_controllerReset_linkDown {s : State} (hl : s.linkUp = false) : exec .controllerReset s = .next s := by
  change execControllerReset s = _
  simp [execControllerReset, hl]

theorem exec_flrFunction0_linkUp {s : State} (hl : s.linkUp = true) :
    exec .flrFunction0 s =
      .next { s.controllerReset with qe := { s.controllerReset.qe with aqa := 0, asq := 0, acq := 0 } } := by
  change execFlrFunction0 s = _
  simp [execFlrFunction0, hl]

theorem exec_flrFunction0_linkDown {s : State} (hl : s.linkUp = false) : exec .flrFunction0 s = .next s := by
  change execFlrFunction0 s = _
  simp [execFlrFunction0, hl]

theorem exec_flrFunction1_linkUp {s : State} (hl : s.linkUp = true) : exec .flrFunction1 s = .next s.resetLp := by
  change execFlrFunction1 s = _
  simp [execFlrFunction1, hl]

theorem exec_flrFunction1_linkDown {s : State} (hl : s.linkUp = false) : exec .flrFunction1 s = .next s := by
  change execFlrFunction1 s = _
  simp [execFlrFunction1, hl]

theorem exec_nvmeShutdown_enabled {s : State} (hl : s.linkUp = true) (he : s.qe.enabled = true) :
    exec .nvmeShutdown s = .next { s with qe := { s.qe with shst := 2 } } := by
  change execNvmeShutdown s = _
  simp [execNvmeShutdown, hl, he]

theorem exec_nvmeShutdown_idle {s : State} (h : s.linkUp = false ∨ s.qe.enabled = false) :
    exec .nvmeShutdown s = .next s := by
  change execNvmeShutdown s = _
  rcases h with h | h <;> simp [execNvmeShutdown, h]

theorem exec_lpCtlReset_live (v : W32) {s : State} (hv : s.vendorLive = true) :
    exec (.lpCtlReset v) s = .next { s.resetLp with lp := { s.resetLp.lp with enable := bitW v 0 } } := by
  change execLpCtlReset s v = _
  simp [execLpCtlReset, hv]

theorem exec_lpCtlReset_notLive (v : W32) {s : State} (hv : s.vendorLive = false) :
    exec (.lpCtlReset v) s = .next s := by
  change execLpCtlReset s v = _
  simp [execLpCtlReset, hv]

/-- LP answers only in phases in which the link is up (R378, R383). -/
theorem State.linkUp_of_vendorLive {s : State} (hv : s.vendorLive = true) : s.linkUp = true := by
  unfold State.vendorLive at hv
  unfold State.linkUp
  cases hp : s.mc.phase <;> simp_all

theorem State.vendorLive_of_linkDown {s : State} (hl : s.linkUp = false) : s.vendorLive = false := by
  cases hv : s.vendorLive with
  | false => rfl
  | true => exact absurd (State.linkUp_of_vendorLive hv) (by simp [hl])

/-! ## A controller reset -/

@[simp] theorem State.orphan_jobs_length (s : State) (p : Nat → Bool) :
    (s.orphan p).jd.jobs.length = s.jd.jobs.length := by
  simp [State.orphan, State.mapCmds]

/-- With no job there is none to stop: a reset of function 0 acts on QE's commands and on the settings window alone. -/
theorem State.stopQe_of_noJobs {s : State} (h : s.jd.jobs = []) :
    s.stopQe =
      { (s.orphan (fun _ => true)).resetStore false with
        qe := { ((s.orphan (fun _ => true)).resetStore false).qe with aers := [], cqWait := [] }
        sw := s.sw.endSeq } := by
  have hj : (s.orphan (fun _ => true)).jd.jobs = [] :=
    List.eq_nil_of_length_eq_zero (by simp [h])
  unfold State.stopQe
  simp only [hj, List.foldl_nil]
  rfl

theorem State.controllerReset_cleared (s : State) :
    s.controllerReset.qe.enabled = false ∧ s.controllerReset.qe.ready = false ∧ s.controllerReset.qe.cc = 0 ∧
      s.controllerReset.qe.sqs = [] ∧ s.controllerReset.qe.cqs = [] ∧ s.controllerReset.qe.aers = [] ∧
      s.controllerReset.qe.cqWait = [] ∧ s.controllerReset.qe.features = [] ∧ s.controllerReset.qe.apst = [] ∧
      s.controllerReset.qe.apstOn = false ∧ s.controllerReset.qe.shst = 0 ∧ s.controllerReset.qe.masked = [] ∧
      s.controllerReset.qe.events = [] :=
  ⟨rfl, rfl, rfl, rfl, rfl, rfl, rfl, rfl, rfl, rfl, rfl, rfl, rfl⟩

theorem State.controllerReset_frame {s : State} (h : s.jd.jobs = []) :
    s.controllerReset.mm = s.mm ∧ s.controllerReset.fl.ring = s.fl.ring ∧
      s.controllerReset.fl.standing = s.fl.standing ∧ s.controllerReset.pc = s.pc ∧
      s.controllerReset.power = s.power ∧ s.controllerReset.tiles = s.tiles ∧ s.controllerReset.lp = s.lp ∧
      s.controllerReset.qe.aqa = s.qe.aqa ∧ s.controllerReset.qe.asq = s.qe.asq ∧
      s.controllerReset.qe.acq = s.qe.acq ∧ s.controllerReset.mc.phase = s.mc.phase := by
  unfold State.controllerReset
  rw [State.stopQe_of_noJobs h]
  exact ⟨rfl, rfl, rfl, rfl, rfl, rfl, rfl, rfl, rfl, rfl, rfl⟩

/-! ## A reset of function 1 -/

theorem State.resetLp_lp_indices (s : State) :
    s.resetLp.lp.reqProd = 0 ∧ s.resetLp.lp.reqCons = 0 ∧ s.resetLp.lp.rplProd = 0 ∧ s.resetLp.lp.rplCons = 0 ∧
      s.resetLp.lp.cmds = [] ∧ s.resetLp.lp.outq = [] :=
  ⟨rfl, rfl, rfl, rfl, rfl, rfl⟩

theorem State.resetLp_fetched (s : State) {c : CmdId} (h : c ∈ s.resetLp.qe.fetched) : c.sq ≠ lpQueue := by
  obtain ⟨_, hc⟩ := List.mem_filter.mp h
  simpa using hc

/-- A reset of function 1 leaves the storage commands of function 0 as they are. -/
theorem State.resetStore_lp_of_none {s : State} (hs : ∀ k ∈ s.qe.store, k.c.sq ≠ lpQueue)
    (hh : ∀ x ∈ s.qe.held, x.sq ≠ lpQueue) : s.resetStore true = s := by
  have hmine : ∀ k ∈ s.qe.store, (k.c.sq == lpQueue) = false := fun k hk => by simpa using hs k hk
  have hkept : s.qe.store.filter
      (fun k => !((k.c.sq == lpQueue) == true) || k.locks != 0 || k.silent || k.op == .objRead) = s.qe.store :=
    List.filter_eq_self.mpr fun k hk => by simp [hmine k hk]
  have hsame : s.qe.store.map (fun k =>
      if ((k.c.sq == lpQueue) == true) && k.op != .objRead then { k with silent := true } else k) = s.qe.store := by
    conv_rhs => rw [← List.map_id s.qe.store]
    exact List.map_congr_left fun k hk => by simp [hmine k hk]
  have hheld : s.qe.held.filter (fun c => (c.sq == lpQueue) != true) = s.qe.held :=
    List.filter_eq_self.mpr fun x hx => by simpa using hh x hx
  unfold State.resetStore
  simp only [hkept, hsame, hheld]

/-- With no storage command of function 1 no write of its own is finished by its reset. -/
theorem State.resetLp_of_none {s : State} (hs : ∀ k ∈ s.qe.store, k.c.sq ≠ lpQueue)
    (hh : ∀ x ∈ s.qe.held, x.sq ≠ lpQueue) :
    s.resetLp = { s with
      qe := { s.qe with fetched := s.qe.fetched.filter (fun c => c.sq != lpQueue) }
      lp := { s.lp with reqProd := 0, reqCons := 0, rplProd := 0, rplCons := 0, cmds := [], outq := [] } } := by
  have hnone : s.qe.store.filter (fun k => k.c.sq == lpQueue && k.silent && k.op == .write
      && (k.stage != .running || k.landed)) = [] :=
    List.filter_eq_nil_iff.mpr fun k hk => by simp [hs k hk]
  unfold State.resetLp
  simp only [State.resetStore_lp_of_none hs hh, hnone, List.foldl_nil]

/-! ## The obligation -/

/-- Settles O16: each command is its operation where it acts, and the operations' own lemmas give the rest. -/
theorem controllerLifecycle : Obligations.ControllerLifecycle := by
  unfold Obligations.ControllerLifecycle
  refine ⟨?enable, ?reset, ?resetFrame, ?flr0, ?flr1, ?flr1Frame, ?lpCtl, ?shutdown, ?enableIdle, ?shutdownIdle, ?down⟩
  case enable => exact fun s hl he => exec_controllerEnable_disabled hl he
  case reset => exact fun s hl => ⟨_, exec_controllerReset_linkUp hl, s.controllerReset_cleared⟩
  case resetFrame => exact fun s hl hj => ⟨_, exec_controllerReset_linkUp hl, State.controllerReset_frame hj⟩
  case flr0 => exact fun s hl => ⟨_, exec_controllerReset_linkUp hl, exec_flrFunction0_linkUp hl⟩
  case flr1 =>
    intro s hl
    obtain ⟨hrp, hrc, hpp, hpc, hcmds, houtq⟩ := s.resetLp_lp_indices
    exact ⟨_, exec_flrFunction1_linkUp hl, hrp, hrc, hpp, hpc, hcmds, houtq, fun _ hc => s.resetLp_fetched hc⟩
  case flr1Frame =>
    intro s hl hs hh
    rw [exec_flrFunction1_linkUp hl, State.resetLp_of_none hs hh]
  case lpCtl =>
    exact fun v s hv =>
      ⟨_, exec_flrFunction1_linkUp (State.linkUp_of_vendorLive hv), exec_lpCtlReset_live v hv⟩
  case shutdown => exact fun s hl he => exec_nvmeShutdown_enabled hl he
  case enableIdle => exact fun s h => exec_controllerEnable_idle h
  case shutdownIdle => exact fun s h => exec_nvmeShutdown_idle h
  case down =>
    exact fun v s hl => ⟨exec_controllerReset_linkDown hl, exec_flrFunction0_linkDown hl,
      exec_flrFunction1_linkDown hl, exec_lpCtlReset_notLive v (State.vendorLive_of_linkDown hl)⟩

end Sys2Proof.Machine
end

section
/-! A beat boundary (R15, R19, R196, R361, R363, R366, R371, R373, R374, R377, R379, R411): its parts, one after the other, and
what they come to where no work starts and in GO with nothing set up. -/

namespace Sys2Proof.Machine

/-! ## What the Pacer's part of a boundary reads -/

/-- What a change of jobs, indexes and objects leaves of the state for the Pacer to read at a boundary: its own block, sensors
and pins, the phase, and the power state. -/
def State.pacerView (s : State) : Pacer × Power × Mc × Nat := (s.pc, s.power, s.mc, s.qe.ps)

theorem foldl_pacerView {α : Type} (f : State → α → State) (h : ∀ s a, (f s a).pacerView = s.pacerView) (l : List α) (s : State) :
    (l.foldl f s).pacerView = s.pacerView :=
  kept_foldl (P := fun t => t.pacerView = s.pacerView) (fun t a ht => (h t a).trans ht) rfl

@[simp] theorem Qe.complete_ps (q : Qe) (c : CmdId) (st a b : Nat) (d : List (List Byte)) : (q.complete c st a b d).ps = q.ps := by
  unfold Qe.complete Qe.post
  dsimp only
  split
  · split <;> rfl
  · rfl

@[simp] theorem State.complete_pacerView (s : State) (c : CmdId) (st a b : Nat) (d : List (List Byte)) :
    (s.complete c st a b d).pacerView = s.pacerView := by
  simp [State.pacerView, State.complete]

@[simp] theorem State.setTile_pacerView (s : State) (n : Nat) (t : Tile) : (s.setTile n t).pacerView = s.pacerView := rfl

@[simp] theorem State.onJob_pacerView (s : State) (tag : Nat) (f : Job → Job) : (s.onJob tag f).pacerView = s.pacerView := rfl

/-! ### A job that ends -/

@[simp] theorem State.writeResult_pacerView (s : State) (j : Job) (o : Nat) (d : List Byte) :
    (s.writeResult j o d).pacerView = s.pacerView := by
  unfold State.writeResult
  repeat' split
  all_goals rfl

@[simp] theorem State.writeAgg_pacerView (s : State) (j : Job) : (s.writeAgg j).pacerView = s.pacerView := by
  unfold State.writeAgg
  split
  · rw [State.onJob_pacerView, State.writeResult_pacerView]
    rfl
  · rfl

@[simp] theorem State.releasePins_pacerView (s : State) (ps : List Pin) : (s.releasePins ps).pacerView = s.pacerView := by
  unfold State.releasePins
  exact foldl_pacerView State.releasePin (fun _ _ => rfl) ps s

@[simp] theorem State.freeContexts_pacerView (s : State) (j : Job) : (s.freeContexts j).pacerView = s.pacerView := by
  unfold State.freeContexts
  exact foldl_pacerView _ (fun _ _ => State.setTile_pacerView ..) _ s

@[simp] theorem State.writeProgress_pacerView (s : State) (p : Progress) : (s.writeProgress p).pacerView = s.pacerView := rfl

@[simp] theorem State.withJd_pacerView (s : State) (d : Jd) : State.pacerView { s with jd := d } = s.pacerView := rfl

@[simp] theorem State.withIdx_pacerView (s : State) (d : KMap Index) : State.pacerView { s with idx := d } = s.pacerView := rfl

@[simp] theorem State.countEnd_pacerView (s : State) (n st : Nat) : (s.countEnd n st).pacerView = s.pacerView := rfl

@[simp] theorem State.trimPool_pacerView (s : State) : s.trimPool.pacerView = s.pacerView := rfl

@[simp] theorem State.finishJob_pacerView (s : State) (tag st a b : Nat) : (s.finishJob tag st a b).pacerView = s.pacerView := by
  unfold State.finishJob
  split
  · rfl
  · dsimp only
    rw [State.complete_pacerView, State.trimPool_pacerView, State.countEnd_pacerView, State.withJd_pacerView,
      State.writeProgress_pacerView, State.freeContexts_pacerView, State.releasePins_pacerView, State.writeAgg_pacerView]

@[simp] theorem State.stopJob_pacerView (s : State) (tag stop st a b : Nat) :
    (s.stopJob tag stop st a b).pacerView = s.pacerView := by
  unfold State.stopJob
  rw [State.finishJob_pacerView, State.onJob_pacerView]

/-! ### A COMMIT -/

theorem State.ite_pacerView {p : Prop} [Decidable p] {a b s : State} (ha : a.pacerView = s.pacerView)
    (hb : b.pacerView = s.pacerView) : (if p then a else b).pacerView = s.pacerView := by
  split
  · exact ha
  · exact hb

@[simp] theorem State.nextCommit_pacerView (s : State) (n : Nat) : (s.nextCommit n).pacerView = s.pacerView := by
  unfold State.nextCommit
  split
  · rfl
  split
  · split
    · rfl
    · refine State.ite_pacerView ?_ (State.ite_pacerView ?_ (State.ite_pacerView ?_ (State.ite_pacerView rfl rfl)))
      · exact (State.finishJob_pacerView ..).trans rfl
      · exact (State.stopJob_pacerView ..).trans rfl
      · exact (State.stopJob_pacerView ..).trans rfl
  · rfl

@[simp] theorem State.sealOne_pacerView (s : State) (n : Nat) (is : List SideItem) :
    (s.sealOne n is).pacerView = s.pacerView := by
  unfold State.sealOne
  split
  · rfl
  · split <;> rfl

@[simp] theorem State.seal_pacerView (s : State) (n cap f : Nat) (is : List SideItem) :
    (s.seal n cap f is).pacerView = s.pacerView := by
  induction f generalizing s is with
  | zero => rfl
  | succ f ih =>
    unfold State.seal
    split
    · rfl
    · rw [ih, State.sealOne_pacerView]

@[simp] theorem State.retireSegment_pacerView (s : State) (n k : Nat) : (s.retireSegment n k).pacerView = s.pacerView := by
  unfold State.retireSegment
  dsimp only
  repeat' split
  all_goals rfl

@[simp] theorem State.homeCode_pacerView (s : State) (n : Nat) (b : List Byte) : (s.homeCode n b).pacerView = s.pacerView := by
  unfold State.homeCode
  repeat' split
  all_goals rfl

@[simp] theorem State.syncTables_pacerView (s : State) (n : Nat) : (s.syncTables n).pacerView = s.pacerView := by
  unfold State.syncTables
  split <;> rfl

@[simp] theorem State.writeDead_pacerView (s : State) (n : Nat) : (s.writeDead n).pacerView = s.pacerView := by
  unfold State.writeDead
  dsimp only
  split
  · rfl
  · exact foldl_pacerView _ (fun _ _ => State.setTile_pacerView ..) _ s

@[simp] theorem State.keepDead_pacerView (s : State) (n : Nat) (d : List (Nat × Nat)) : (s.keepDead n d).pacerView = s.pacerView := rfl

@[simp] theorem State.rebase_pacerView (s : State) (n : Nat) (b : List Byte) (k a : Nat) (is : List SideItem) :
    (s.rebase n b k a is).pacerView = s.pacerView := by
  unfold State.rebase
  split
  · rfl
  · dsimp only
    rw [State.syncTables_pacerView, State.seal_pacerView, State.homeCode_pacerView, State.withIdx_pacerView,
      foldl_pacerView _ (fun _ _ => State.retireSegment_pacerView ..), State.keepDead_pacerView]

@[simp] theorem State.applyCommit_pacerView (s : State) (n : Nat) (x : Index) (k : PendingCommit) (c : Nat) :
    (s.applyCommit n x k c).pacerView = s.pacerView := by
  have hsync : ∀ (l : KMap Segment) (t : State), (l.foldl (fun s g => if (x.segments.find g.1) = some g.2 then s
      else s.syncSegment x.super g.2) t).pacerView = t.pacerView := fun l t =>
    foldl_pacerView _ (fun _ _ => by split <;> rfl) l t
  unfold State.applyCommit
  dsimp only
  rw [State.nextCommit_pacerView, State.finishJob_pacerView, State.onJob_pacerView, State.writeDead_pacerView]
  split
  · rw [State.rebase_pacerView, hsync, State.withIdx_pacerView]
  · rw [State.seal_pacerView, hsync, State.withIdx_pacerView]

theorem State.commitEffect_pacerView (s : State) (n : Nat) : (s.commitEffect n).pacerView = s.pacerView := by
  unfold State.commitEffect
  split
  · rfl
  split
  · exact State.nextCommit_pacerView s n
  split
  · rfl
  split
  · exact State.applyCommit_pacerView ..
  · rfl

theorem State.settleCommits_pacerView (s : State) : s.settleCommits.pacerView = s.pacerView :=
  foldl_pacerView State.commitEffect State.commitEffect_pacerView _ s

/-- A boundary marks the COMMITs that are to take effect, in their indexes alone (R271). -/
theorem State.readyCommits_idx (s : State) : ∃ i, s.readyCommits = { s with idx := i } := by
  suffices h : ∀ (l : KMap Index) (t : State), (∃ i, t = { s with idx := i }) →
      ∃ i, l.foldl (fun s e => match e.2.commit with
        | none => s
        | some k => if s.commitDue e.1 e.2 k then s.onCommit e.1 (fun k => { k with ready := some s.mm.epoch }) else s) t
          = { s with idx := i } from h s.idx s ⟨_, rfl⟩
  intro l
  induction l with
  | nil => exact fun t ht => ht
  | cons e l ih =>
    rintro t ⟨i, rfl⟩
    refine ih _ ?_
    dsimp only
    split
    · exact ⟨i, rfl⟩
    · split <;> exact ⟨_, rfl⟩

/-! ### No COMMIT in line -/

theorem KMap.mem_of_find {α : Type} {m : KMap α} {n : Nat} {v : α} (h : m.find n = some v) : (n, v) ∈ m := by
  induction m with
  | nil => cases h
  | cons e m ih =>
    obtain ⟨k, w⟩ := e
    rw [KMap.find_cons] at h
    split at h
    · cases h
      subst_vars
      exact List.mem_cons_self ..
    · exact List.mem_cons_of_mem _ (ih h)

theorem State.nextCommit_idle {s : State} (h : s.commitsIdle) (n : Nat) : s.nextCommit n = s := by
  unfold State.nextCommit
  split
  · rfl
  · next x hx =>
    have hc : x.commit = none := (h _ (KMap.mem_of_find hx)).1
    have hw : x.waiting = [] := (h _ (KMap.mem_of_find hx)).2
    simp only [hc, hw]

theorem State.commitEffect_idle {s : State} (h : s.commitsIdle) (n : Nat) : s.commitEffect n = s := by
  unfold State.commitEffect
  split
  · rfl
  · next x hx =>
    have hc : x.commit = none := (h _ (KMap.mem_of_find hx)).1
    simp only [hc, State.nextCommit_idle h]

theorem foldl_fixed_of_mem {α β : Type} {f : β → α → β} {b : β} {l : List α} (h : ∀ a ∈ l, f b a = b) : l.foldl f b = b := by
  induction l with
  | nil => rfl
  | cons a l ih =>
    rw [List.foldl_cons, h a (List.mem_cons_self ..)]
    exact ih fun x hx => h x (List.mem_cons_of_mem _ hx)

theorem State.settleCommits_idle {s : State} (h : s.commitsIdle) : s.settleCommits = s :=
  foldl_fixed_of_mem fun n _ => State.commitEffect_idle h n

theorem State.readyCommits_idle {s : State} (h : s.commitsIdle) : s.readyCommits = s :=
  foldl_fixed_of_mem fun e he => by simp only [(h e he).1]

/-! ## Contents that fall due, and the band state shown (R363, R371) -/

theorem State.bandFollows_pc (s : State) :
    ∃ r n, s.bandFollows = { s with pc := { s.pc with bandState := s.bandNow, reports := r, reportSeq := n } } := by
  unfold State.bandFollows
  split
  · next h => exact ⟨s.pc.reports, s.pc.reportSeq, by rw [← h]⟩
  · unfold State.report
    split <;> exact ⟨_, _, rfl⟩

/-- A band state that is shown stays the one to show. -/
theorem State.bandNow_shown (s : State) (r : List Report) (n : Nat) :
    State.bandNow { s with pc := { s.pc with bandState := s.bandNow, reports := r, reportSeq := n } } = s.bandNow := by
  change (if s.bandActive then (if s.bandNow = 0 || 0 < s.pc.settle then 1 else s.bandNow)
    else if s.pc.bandOn && 2 ≤ s.qe.ps && !s.qe.psAuto && capOf s.qe.ps + s.pc.tol < s.pc.target then 2 else 0) = s.bandNow
  unfold State.bandNow
  cases s.bandActive with
  | false => rfl
  | true =>
    by_cases h : (decide (s.pc.bandState = 0) || decide (0 < s.pc.settle)) = true <;> simp [h]

/-- `q` is `p` once the contents that were due have taken effect and the band state is shown. -/
def Pacer.opens (p q : Pacer) : Prop :=
  q = { p with
    scheduled := p.scheduled.filter (fun x => !(x.1 ≤ p.beat))
    lowDemand := q.lowDemand, bandCtl := q.bandCtl, targetW := q.targetW, tolW := q.tolW, settle := q.settle,
    periodNs := q.periodNs, meanOf := q.meanOf, freeNs := q.freeNs
    bandState := q.bandState, reports := q.reports, reportSeq := q.reportSeq }

/-- The content of a cadence message sets nothing else. -/
theorem Pacer.opens_applyContent {p q : Pacer} (h : p.opens q) (c : CadenceContent) : p.opens (q.applyContent c) := by
  unfold Pacer.opens at h ⊢
  rw [h]
  unfold Pacer.applyContent
  split
  · unfold Pacer.applySetpoint
    dsimp only
    split
    · rfl
    · split
      · split <;> rfl
      · rfl
  · unfold Pacer.applyPeriod
    dsimp only
    split <;> rfl

theorem Pacer.opens_takeDue (p : Pacer) : p.opens p.takeDue := by
  unfold Pacer.takeDue
  exact kept_foldl (P := p.opens) (fun q x hq => Pacer.opens_applyContent hq x.2) rfl

theorem Pacer.opens_shown {p q : Pacer} (h : p.opens q) (b : Nat) (r : List Report) (n : Nat) :
    p.opens { q with bandState := b, reports := r, reportSeq := n } := by
  unfold Pacer.opens at h ⊢
  rw [h]

theorem State.lowDemandExit_psWant (s : State) (was : Bool) :
    ∃ w, s.lowDemandExit was = { s with qe := { s.qe with psWant := w } } := by
  unfold State.lowDemandExit
  split <;> exact ⟨_, rfl⟩

/-- What the contents due and the band state shown leave of the state: the Pacer's settings, and a state asked for (R363,
R365, R372). -/
theorem State.takeEffect_opens (s : State) :
    ∃ p w, s.takeEffect = { s with pc := p, qe := { s.qe with psWant := w } } ∧ s.pc.opens p ∧
      p.bandState = State.bandNow { s with pc := p, qe := { s.qe with psWant := w } } := by
  obtain ⟨w, hw⟩ := State.lowDemandExit_psWant { s with pc := s.pc.takeDue } s.pc.lowDemand
  obtain ⟨v, hv⟩ : ∃ v : State, v = { s with pc := s.pc.takeDue, qe := { s.qe with psWant := w } } := ⟨_, rfl⟩
  obtain ⟨r, n, hb⟩ := v.bandFollows_pc
  have hn := v.bandNow_shown r n
  refine ⟨{ v.pc with bandState := v.bandNow, reports := r, reportSeq := n }, w, ?_, ?_, ?_⟩
  · unfold State.takeEffect
    rw [hw, ← hv, hb, hv]
  · rw [hv]
    exact Pacer.opens_shown s.pc.opens_takeDue _ r n
  · subst hv
    exact hn.symm

/-- The same where a band state is shown first, as it is while no band is judged (R371). -/
theorem State.bandFollows_takeEffect (s : State) :
    ∃ p w, s.bandFollows.takeEffect = { s with pc := p, qe := { s.qe with psWant := w } } ∧ s.pc.opens p ∧
      p.bandState = State.bandNow { s with pc := p, qe := { s.qe with psWant := w } } := by
  obtain ⟨r, n, hb⟩ := s.bandFollows_pc
  rw [hb]
  exact State.takeEffect_opens _

/-! ## Phases in which no work starts -/

theorem State.noteQuiet_foldl (l : List Nat) (s : State) :
    ∃ q, l.foldl (fun s n => s.noteQuiet true n) s = { s with sl := { s.sl with quiet := q } } := by
  induction l generalizing s with
  | nil => exact ⟨_, rfl⟩
  | cons n l ih =>
    obtain ⟨q, hq⟩ := ih (s.noteQuiet true n)
    exact ⟨q, by rw [List.foldl_cons, hq]; rfl⟩

/-- Where no work starts, a boundary ends every grant and sets the ceiling (R366, R377). -/
theorem State.startWork_rests {s : State} (hg : s.inGo = false) (hb : s.inBlocks = false) (b : BoundaryInfo) :
    ∃ q, s.startWork b = { s with
      pc := { s.pc with granted := [], fillerRun := [], bgRun := [], ceilingW := s.ceiling }
      sl := { s.sl with quiet := q } } := by
  obtain ⟨q, hq⟩ := State.noteQuiet_foldl s.sl.set_.squads.keys s
  have hg' : ∀ (l : Sl) (p : Pacer), State.inGo { s with sl := l, pc := p } = false := fun _ _ => hg
  have hb' : ∀ (l : Sl) (p : Pacer), State.inBlocks { s with sl := l, pc := p } = false := fun _ _ => hb
  refine ⟨q, ?_⟩
  unfold State.startWork
  dsimp only
  rw [hq]
  simp only [hg', hb', Bool.false_and, Bool.or_self, Bool.false_eq_true, if_false]
  rfl

/-! ## The parts of a boundary -/

theorem State.pacerView_iff {s t : State} :
    s.pacerView = t.pacerView ↔ s.pc = t.pc ∧ s.power = t.power ∧ s.mc = t.mc ∧ s.qe.ps = t.qe.ps := by
  simp [State.pacerView]

/-- What the contents due and the band state shown keep of the Pacer. -/
theorem Pacer.opens_keeps {p q : Pacer} (h : p.opens q) :
    q.beat = p.beat ∧ q.beatW = p.beatW ∧ q.energyMJ = p.energyMJ ∧ q.energyFrac = p.energyFrac ∧
      q.thermalCeil = p.thermalCeil ∧ q.scheduled = p.scheduled.filter (fun x => !(x.1 ≤ p.beat)) := by
  unfold Pacer.opens at h
  refine ⟨?_, ?_, ?_, ?_, ?_, ?_⟩ <;> rw [h]

theorem State.thermalStep_pc (s : State) :
    ∃ c r, s.thermalStep = { s with pc := { s.pc with thermalCeil := c, rising := r } } := by
  unfold State.thermalStep
  split
  · exact ⟨_, _, rfl⟩
  · dsimp only
    split
    · split <;> exact ⟨_, _, rfl⟩
    · split <;> exact ⟨_, _, rfl⟩

theorem State.thermalStep_none {s : State} (h : s.pc.thermalCeil = none) : s.thermalStep = s := by
  unfold State.thermalStep
  rw [h]

/-- How a standing thermal ceiling moves at a boundary (R373). -/
theorem State.thermalStep_some {s : State} {c : Nat} (h : s.pc.thermalCeil = some c) :
    s.thermalStep.pc.thermalCeil =
      if s.pc.rising = false then (if s.pc.triggers.any s.atTrigger = true then some (c * 95 / 100) else some c)
      else if capOf s.qe.ps < c + (2 * c + 99) / 100 then none
      else some (c + (2 * c + 99) / 100) := by
  have hn : ceilDiv (2 * c) 100 = (2 * c + 99) / 100 := by simp [ceilDiv]
  unfold State.thermalStep
  rw [h]
  dsimp only
  rw [hn]
  cases hr : s.pc.rising with
  | true =>
    simp only [if_true, Bool.true_eq_false, if_false]
    split <;> rfl
  | false =>
    simp only [Bool.false_eq_true, if_false, if_true]
    split
    · rfl
    · exact h

/-- The band is judged only where it is active, in GO (R371). -/
theorem State.bandJudge_unjudged {s : State} (h : s.bandActive = false ∨ s.inGo = false) :
    s.bandJudge = s.bandFollows := by
  unfold State.bandJudge
  rw [if_pos]
  rcases h with h | h <;> simp [h]

/-- The boundary from the thermal ceiling on, in a phase in which no work starts (R363, R366, R371, R373, R377). -/
theorem State.boundary_rests {s x : State} {b : BoundaryInfo} (hx : (s.settleCommits.countBeat b).haltPhase = x)
    (hg : x.inGo = false) (hb : x.inBlocks = false) (hr : x.relayRuns = false) :
    ∃ p w i q,
      s.boundary b = { x with
        pc := { p with
          granted := [], fillerRun := [], bgRun := []
          ceilingW := State.ceiling { x with pc := p, qe := { x.qe with psWant := w } } }
        qe := { x.qe with psWant := w }, idx := i, sl := { x.sl with quiet := q } } ∧
      x.thermalStep.pc.opens p ∧ (x.commitsIdle → i = x.idx) := by
  obtain ⟨c, r, ht⟩ := x.thermalStep_pc
  obtain ⟨v, hv⟩ : ∃ v : State, v = { x with pc := { x.pc with thermalCeil := c, rising := r } } := ⟨_, rfl⟩
  have hvg : v.inGo = false := by rw [hv]; exact hg
  obtain ⟨p, w, hp, ho, -⟩ := v.bandFollows_takeEffect
  obtain ⟨y, hy⟩ : ∃ y : State, y = { v with pc := p, qe := { v.qe with psWant := w } } := ⟨_, rfl⟩
  obtain ⟨i, hi⟩ := y.readyCommits_idx
  obtain ⟨z, hz⟩ : ∃ z : State, z = { y with idx := i } := ⟨_, rfl⟩
  have hzr : z.relayRuns = false := by rw [hz, hy, hv]; exact hr
  have hzg : z.inGo = false := by rw [hz, hy, hv]; exact hg
  have hzb : z.inBlocks = false := by rw [hz, hy, hv]; exact hb
  obtain ⟨q, hq⟩ := State.startWork_rests hzg hzb b
  refine ⟨p, w, i, q, ?_, ?_, ?_⟩
  · have hj : ((((s.settleCommits.countBeat b).haltPhase.thermalStep).bandJudge).takeEffect.readyCommits) = z := by
      rw [hx, ht, ← hv, State.bandJudge_unjudged (Or.inr hvg), hp, ← hy, hi, hz]
    unfold State.boundary
    rw [hj]
    dsimp only
    rw [hzr, if_neg Bool.false_ne_true, hq, hz, hy, hv]
    rfl
  · rw [ht, ← hv]
    exact ho
  · intro hc
    have hyi : y.idx = x.idx := by rw [hy, hv]
    have hid : y.readyCommits = y := State.readyCommits_idle (by unfold State.commitsIdle; rw [hyi]; exact hc)
    have : y.idx = i := by rw [hid] at hi; rw [hi]
    rw [← this, hyi]

/-! ## What a boundary counts -/

/-- The beat, its energy and its mean power are counted (R361, R374). -/
theorem Pacer.turn_energy (p : Pacer) (w d : Nat) :
    1000000 * (p.turn w d).energyMJ + (p.turn w d).energyFrac = 1000000 * p.energyMJ + p.energyFrac + w * d ∧
      (p.turn w d).energyFrac < 1000000 := by
  unfold Pacer.turn
  dsimp only
  omega

/-- `s` with a beat counted: its medium is `m`, and a drain has lasted `n` beats. -/
def State.counted (s : State) (b : BoundaryInfo) (m : Mm) (n : Nat) : State :=
  { s with
    pc := s.pc.turn b.meanW b.durNs, fl := { s.fl with beatPosts := [] }, mm := m, sl := { s.sl with drainBeats := n } }

/-- What a boundary counts: the beat, its records, the beats of a drain, and the medium's epoch, clock and samples (R196,
R216, R361, R374, R402). -/
theorem State.countBeat_eq (s : State) (b : BoundaryInfo) : ∃ m n, s.countBeat b = s.counted b m n ∧
    m = { s.mm with
      epoch := if s.mm.replayed then s.mm.epoch + 1 else s.mm.epoch, clockNs := s.mm.clockNs + b.durNs
      pool := m.pool, beatOld := m.beatOld, retries := m.retries, loops := m.loops, retireLog := m.retireLog } := by
  have hm : (s.countBeat b).mm = if s.mm.replayed then
      { (s.mm.endBeat s.liveSnaps).ageSamples b.durNs with epoch := s.mm.epoch + 1 } else s.mm.ageSamples b.durNs := rfl
  refine ⟨(s.countBeat b).mm, (s.countBeat b).sl.drainBeats, ?_, ?_⟩
  · unfold State.countBeat State.counted
    dsimp only
    split <;> rfl
  · rw [hm]
    split <;> rfl

theorem exec_beatBoundary_runs {s : State} (h : s.pacerRuns = true) (b : BoundaryInfo) :
    exec (.beatBoundary b) s = .next (s.boundary b) := by
  change execBeatBoundary b s = _
  simp [execBeatBoundary, h]

/-! ## Phases -/

/-- In MARKS, RECOVERY and HALTED no work starts, and a boundary does not change the phase (R377, R379). -/
theorem State.rests {s : State} (h : s.mc.phase = .marks ∨ s.mc.phase = .recovery ∨ s.mc.phase = .halted) :
    s.inGo = false ∧ s.inBlocks = false ∧ s.relayRuns = false ∧ s.pacerRuns = true ∧ s.haltPhase = s := by
  rcases h with h | h | h <;>
    simp [State.inGo, State.inBlocks, State.relayRuns, State.pacerRuns, State.haltPhase, h]

/-- The phase reads HALTED from the boundary after a fatal record (R379, R411). -/
theorem State.haltPhase_fatal {s : State} (h : s.mc.phase = .blocks ∨ s.mc.phase = .go) (hf : s.fl.fatalStands = true) :
    s.haltPhase = { s with mc := { s.mc with phase := .halted, event := setEv s.mc.event 2 } } := by
  unfold State.haltPhase
  rw [if_pos]
  rcases h with h | h <;> simp [h, hf]

/-! ## GO with nothing set up -/

theorem State.promoteOn_idle {s : State} {o : Nat} (h : ∀ e ∈ s.rl.dir, e.2.state ≠ .promoting) (room : Nat) :
    s.promoteOn o room = (s, room) := by
  unfold State.promoteOn
  split
  · rfl
  · next e he =>
    have hs : e.state ≠ .promoting := h (o, e) (KMap.mem_of_find he)
    simp [hs]

theorem State.promoteAll_idle {s : State} (h : ∀ e ∈ s.rl.dir, e.2.state ≠ .promoting) (ns : Nat) : s.promoteAll ns = s := by
  unfold State.promoteAll
  rw [foldl_fixed_of_mem fun o _ => State.promoteOn_idle h _]

/-- The Pacer's grants change its own block alone, and set the ceiling (R366 to R369). -/
theorem State.grant_pc (s : State) (b : BoundaryInfo) : ∃ r d g f k m o, s.grant b = { s with pc := { s.pc with
    ratios := r, ceilingW := s.ceiling, deferCnt := d, granted := g, fillerRun := f, bgRun := k, forecastW := m
    forecasts := o } } := by
  unfold State.grant Pacer.noteRatios
  exact ⟨_, _, _, _, _, _, _, rfl⟩

theorem State.startWork_empty {s : State} (hg : s.inGo = true) (hs : s.sl.set_.squads = []) (hj : s.jd.jobs = [])
    (b : BoundaryInfo) : s.startWork b = s.grant b := by
  obtain ⟨r, d, g, f, k, m, o, h⟩ := s.grant_pc b
  have hk : s.sl.set_.squads.keys = [] := by rw [hs]; rfl
  have hgj : (s.grant b).jd.jobs = [] := by rw [h]; exact hj
  unfold State.startWork
  simp only [hk, List.foldl_nil, hg, ite_self, Bool.true_or, if_true, hgj]

/-! ## The obligation -/

/-- Settles O12: a boundary is its parts, each with the lemma that says what it does. -/
theorem beatBoundaries : Obligations.BeatBoundaries := by
  unfold Obligations.BeatBoundaries
  refine ⟨?rests, ?fatal, ?go, ?thermal⟩
  case rests =>
    intro b s hph ht hc
    obtain ⟨hg, hb, hr, hrun, -⟩ := s.rests hph
    obtain ⟨m, n, hcb, hm⟩ := s.countBeat_eq b
    have hx : (s.settleCommits.countBeat b).haltPhase = s.counted b m n := by
      obtain ⟨-, -, -, -, hh⟩ := State.rests (s := s.counted b m n) hph
      rw [State.settleCommits_idle hc, hcb, hh]
    obtain ⟨p, w, i, q, hbd, ho, hi⟩ := State.boundary_rests hx hg hb hr
    rw [State.thermalStep_none (s := s.counted b m n) ht] at ho
    obtain rfl := hi hc
    obtain ⟨hbeat, hW, hmj, hfrac, -, hsch⟩ := Pacer.opens_keeps ho
    obtain ⟨he, hlt⟩ := s.pc.turn_energy b.meanW b.durNs
    refine ⟨_, (exec_beatBoundary_runs hrun b).trans (congrArg _ hbd), hbeat, hW, ?_, ?_, rfl, ?_, rfl, hm, rfl⟩
    · exact (congrArg₂ (fun x y => 1000000 * x + y) hmj hfrac).trans he
    · exact lt_of_eq_of_lt hfrac hlt
    · intro x hx
      have hx' : x ∈ p.scheduled := hx
      rw [hsch] at hx'
      obtain ⟨hmem, hdue⟩ := List.mem_filter.mp hx'
      rw [Bool.not_eq_true', decide_eq_false_iff_not, not_le] at hdue
      exact ⟨hmem, hdue⟩
  case fatal =>
    intro b s hph hf hc
    obtain ⟨m, n, hcb, -⟩ := s.countBeat_eq b
    obtain ⟨x, hx⟩ : ∃ x : State, x = { s.counted b m n with
      mc := { s.mc with phase := .halted, event := setEv s.mc.event 2 } } := ⟨_, rfl⟩
    have hh : (s.settleCommits.countBeat b).haltPhase = x := by
      rw [State.settleCommits_idle hc, hcb, hx]
      exact State.haltPhase_fatal (s := s.counted b m n) hph hf
    have hrun : s.pacerRuns = true := by rcases hph with h | h <;> simp [State.pacerRuns, h]
    obtain ⟨hg, hb, hr, -⟩ := State.rests (s := x) (by simp [hx])
    obtain ⟨p, w, i, q, hbd, ho, -⟩ := State.boundary_rests hh hg hb hr
    obtain ⟨c, r, ht⟩ := x.thermalStep_pc
    rw [ht] at ho
    have hbeat := (Pacer.opens_keeps ho).1
    subst hx
    exact ⟨_, (exec_beatBoundary_runs hrun b).trans (congrArg _ hbd), rfl, hbeat, rfl, rfl, rfl, rfl⟩
  case go =>
    intro b s hg hs hj hband ht hf hc hdir
    obtain ⟨m, n, hcb, hm⟩ := s.countBeat_eq b
    obtain ⟨x, hx⟩ : ∃ x : State, x = s.counted b m n := ⟨_, rfl⟩
    have hxb : x.bandActive = false := by rw [hx]; exact hband
    have hxh : x.haltPhase = x := by
      rw [hx]
      unfold State.haltPhase
      have hf' : (s.counted b m n).fl.fatalStands = false := hf
      simp [hf']
    have hxt : x.thermalStep = x := State.thermalStep_none (by rw [hx]; exact ht)
    obtain ⟨p, w, hp, ho, hn⟩ := x.bandFollows_takeEffect
    obtain ⟨y, hy⟩ : ∃ y : State, y = { x with pc := p, qe := { x.qe with psWant := w } } := ⟨_, rfl⟩
    have hyc : y.readyCommits = y := State.readyCommits_idle (by rw [hy, hx]; exact hc)
    have hyg : y.inGo = true := by rw [hy, hx]; exact hg
    have hyp : y.promoteAll b.durNs = y := State.promoteAll_idle (by rw [hy, hx]; exact hdir) _
    have hyw : y.startWork b = y.grant b := State.startWork_empty hyg (by rw [hy, hx]; exact hs) (by rw [hy, hx]; exact hj) b
    obtain ⟨r, d, g, f, k, e, o, hgr⟩ := y.grant_pc b
    have hbd : s.boundary b = y.grant b := by
      unfold State.boundary
      rw [State.settleCommits_idle hc, hcb, ← hx, hxh, hxt, State.bandJudge_unjudged (Or.inl hxb), hp, ← hy, hyc]
      dsimp only
      rw [hyp, ite_self, hyw]
    have hrun : s.pacerRuns = true := by
      have hgo : s.mc.phase = .go := by simpa using (Bool.and_eq_true_iff.mp hg).1
      simp [State.pacerRuns, hgo]
    obtain ⟨hbeat, hW, -⟩ := Pacer.opens_keeps ho
    subst hy hx
    exact ⟨_, (exec_beatBoundary_runs hrun b).trans (congrArg _ (hbd.trans hgr)), hbeat, hW, rfl, hn, hm, rfl⟩
  case thermal =>
    intro b c s hph ht
    obtain ⟨-, -, -, hrun, -⟩ := s.rests hph
    obtain ⟨v, hv⟩ : ∃ v : State, v = s.settleCommits := ⟨_, rfl⟩
    obtain ⟨hvp, hvw, hvm, hvs⟩ := State.pacerView_iff.mp (hv ▸ s.settleCommits_pacerView)
    obtain ⟨m, n, hcb, -⟩ := v.countBeat_eq b
    obtain ⟨x, hx⟩ : ∃ x : State, x = v.counted b m n := ⟨_, rfl⟩
    obtain ⟨hg, hb, hr, -, hh⟩ := State.rests (s := x) (by rw [hx]; exact hvm ▸ hph)
    have hxh : (s.settleCommits.countBeat b).haltPhase = x := by rw [← hv, hcb, ← hx, hh]
    obtain ⟨p, w, i, q, hbd, ho, -⟩ := State.boundary_rests hxh hg hb hr
    obtain ⟨hbeat, -, -, -, hceil, -⟩ := Pacer.opens_keeps ho
    obtain ⟨c', r, hstep⟩ := x.thermalStep_pc
    have hxp : x.pc = s.pc.turn b.meanW b.durNs := by rw [hx, ← hvp]; rfl
    have hxw : x.power = s.power := by rw [hx]; exact hvw
    have hxs : x.qe.ps = s.qe.ps := by rw [hx]; exact hvs
    have hat : x.atTrigger = s.atTrigger := by funext k; unfold State.atTrigger; rw [hxw]
    have hxc : x.pc.thermalCeil = some c := by rw [hxp]; exact ht
    rw [State.thermalStep_some hxc, hat, hxs, hxp] at hceil
    rw [hstep, hxp] at hbeat
    exact ⟨_, (exec_beatBoundary_runs hrun b).trans (congrArg _ hbd), hbeat, hceil⟩

end Sys2Proof.Machine
end

section
/-! Counterexamples among the states with one job (R228, R245, R306). JOB_ADMIT of a job that fails its checks: its completion
reports the malformed records it has counted, and a queued job of an arbitrary state may have counted some. LAP_HURDLE of a serving
lap: an update lap waits for its job's pass 1, whatever the squad's function, and a serving lap of an arbitrary state may carry
the mark of an update lap. -/

namespace Sys2Proof.Machine

/-! ## One squad, one job -/

/-- A squad of one function, without tiles, templates or layouts. -/
def bareSquad (f : Nat) (st : SquadState) : Squad :=
  { func := f, flags := 0, lapMin := 1, lapMax := 8, overrun := 0, jobRetry := 0, maxJobs := 1,
    numerics := { index := 0, wfmt := 1, afmt := 1, accum := 0, history := 1, margin := 0, satLimit := 6, uwrHi := 0, uwrAct := 0 },
    tiles := [], programIx := 0, templates := [], layouts := [], state := st }

/-- Job 1, of squad 2, with all of its descriptor 0. -/
def bareJob (kind : Nat) (st : JobState) : Job :=
  { tag := 1, c := { sq := 0, cid := 9 }, opcode := 0x81, kind := kind, squad := 2, cmdset := 0x30, desc := [], data := [],
    lists := [], state := st, snapshot := 0, attempt := 0, admitBeat := 0, pins := [], stop := none, scan := ScanProg.blank,
    search := SearchProg.blank, lap := LapProg.blank }

/-- GO with squad 2 and its job, whose command is fetched. -/
def goBare (q : Squad) (j : Job) : State :=
  { State.reset with
    mc := { Mc.reset with phase := .go }
    qe := { Qe.reset with fetched := [j.c] }
    sl := { Sl.reset with set_ := { SquadSet.empty with squads := [(2, q)] } }
    jd := { Jd.reset with jobs := [j] } }

/-! ## A refused SCAN with a malformed record -/

/-- A queued SCAN that counts a malformed record. -/
def scanMalformed : Job := { bareJob 1 .queued with scan := { ScanProg.blank with malformed := 1 } }

/-- That SCAN on a compute squad. -/
def goScanMalformed : State := goBare (bareSquad 1 .active) scanMalformed

theorem exec_jobAdmit (tag : Nat) (s : State) : exec (.jobAdmit tag) s = .next (s.tryAdmit tag) := rfl

/-- Nothing keeps it from its turn. -/
theorem goScanMalformed_turn :
    goScanMalformed.mayAdmit scanMalformed = true ∧ goScanMalformed.itsTurn scanMalformed = true := by
  decide

/-- Its squad has no layout for it. -/
theorem goScanMalformed_checks : goScanMalformed.scanChecks scanMalformed = false := by
  decide

/-- It ends with the malformed bit in dword 0. -/
theorem goScanMalformed_completes : (goScanMalformed.tryAdmit 1).qe.cqWait = [] ∧
    (goScanMalformed.tryAdmit 1).qe.posted = [mkCompletion scanMalformed.c stInvalidField scanMalformed.malformedBit 0 []] := by
  decide

theorem scanMalformed_malformedBit : scanMalformed.malformedBit = 2 := rfl

/-- Refutes O42: a refused SCAN that has counted a malformed record completes with 2 in dword 0, not with 0; no hypothesis of the
statement says that a queued job has counted none. -/
theorem not_jobAdmissionCancelAndRestart : ¬ Obligations.JobAdmissionCancelAndRestart := by
  unfold Obligations.JobAdmissionCancelAndRestart
  rintro ⟨-, hrefused, -⟩
  obtain ⟨hmay, hturn⟩ := goScanMalformed_turn
  obtain ⟨hwait, hposted⟩ := goScanMalformed_completes
  obtain ⟨t, ht, ⟨hdone, -⟩, -⟩ := hrefused 1 scanMalformed goScanMalformed rfl (Or.inl rfl) rfl hmay hturn
    (Or.inl goScanMalformed_checks) (List.mem_singleton_self _) (List.nodup_singleton _)
  rw [exec_jobAdmit] at ht
  cases ht
  rw [hwait, hposted, scanMalformed_malformedBit] at hdone
  revert hdone
  decide

/-! ## A serving lap with the mark of an update lap -/

/-- An empty lap of model slot 0 that is marked as an update lap of job 1. -/
def lapServeUpdate : Lap :=
  { num := 1, start := 0, planned := 2, invoc := 0, decode := [], prefill := [], examples := 0, filler := none, recalls := 0,
    joins := 0, swap := false, preempt := false, relayB := false, kvFree := 0, jobTag := 1, update := true }

/-- A sequence that job 1 appends to. -/
def seqAppending : Sequence :=
  { model := 0, tokens := [], tkv := 0, pages := [], sample := [], rand := 0, join := 0, ready := false, append := some 1,
    closing := [], recalled := false }

/-- The model of squad 2 that it belongs to. -/
def modelServed : Model :=
  { squad := 2, record := [], cap := 1, bound := false, clean := 0, lastJoin := 0, filler := none, nextJoin := 1, queue := [] }

/-- A draining serving squad with that lap in flight; job 1 is its SERVE_APPEND. -/
def goServeUpdate : State :=
  let s := goBare (bareSquad 3 .draining) (bareJob 0x11 .admitted)
  { s with jd := { s.jd with
      models := [(0, modelServed)], seqs := [(0, seqAppending)]
      laps := [(2, { LapState.blank with flight := some lapServeUpdate })] } }

/-- A lap that may not end holds its squad at the hurdle (R63, R306). -/
theorem exec_lapHurdle_held {s : State} {n : Nat} {q : Squad} {l : Lap} (hq : s.squadOf n = some q)
    (hl : (s.lapsOf n).flight = some l) (hend : s.mayEndLap l = false) (h : HurdleInfo) : exec (.lapHurdle n h) s = .next s := by
  change execLapHurdle n h s = _
  simp [execLapHurdle, done, hq, hl, hend]

theorem goServeUpdate_flight : (goServeUpdate.lapsOf 2).flight = some lapServeUpdate := rfl

/-- Pass 1 of its job is not over, so that the lap may not end. -/
theorem goServeUpdate_mayEndLap : goServeUpdate.mayEndLap lapServeUpdate = false := by
  decide

/-- Refutes O48: the hurdle of a draining squad's lap that is marked as an update lap changes nothing, where the statement ends
the squad's sequence and its SERVE_APPEND; no hypothesis of its serving clauses says that the lap is not marked. -/
theorem not_lapHurdles : ¬ Obligations.LapHurdles := by
  unfold Obligations.LapHurdles
  rintro ⟨-, -, -, -, -, -, hdrains, -⟩
  obtain ⟨t, ht, hseqs, -⟩ := hdrains 2 0 (bareSquad 3 .draining) lapServeUpdate ⟨0, [], 0, 0⟩ seqAppending modelServed 1
    (bareJob 0x11 .admitted) goServeUpdate rfl rfl goServeUpdate_flight rfl rfl rfl (by decide) ⟨rfl, rfl, rfl⟩ rfl rfl rfl rfl rfl
    rfl rfl rfl (List.mem_singleton_self _) (List.nodup_singleton _)
  rw [exec_lapHurdle_held rfl goServeUpdate_flight goServeUpdate_mayEndLap] at ht
  cases ht
  cases hseqs

end Sys2Proof.Machine
end

section
/-! The form of every memory and every table (R36, R67, R70, R134, R146, R320, R345, R384, R419, R420, R423, R456): reset meets
it, and every step keeps it and takes one command of the queue. -/

namespace Sys2Proof.Machine

/-- Every command keeps the queue that it leaves waiting and the form of every memory and table: each by the lemma about its own
meaning. -/
theorem exec_keeps {p : List Instr} {s : State} (hs : s.keeps p) (i : Instr) : Answers p (exec i s) :=
  match i with
  | .vinAccepted v10mV => kept_execVinAccepted v10mV s hs
  | .holdUpBankCharged => kept_execHoldUpBankCharged s hs
  | .inputOutOfRange v10mV => kept_execInputOutOfRange v10mV s hs
  | .powerFail v10mV => kept_execPowerFail v10mV s hs
  | .powerFailRailsOff => kept_execPowerFailRailsOff s hs
  | .modEnAssert => kept_execModEnAssert s hs
  | .modEnDeassert => kept_execModEnDeassert s hs
  | .railFault rail kind v10mV => kept_execRailFault rail kind v10mV s hs
  | .perstAssert => kept_execPerstAssert s hs
  | .perstDeassert => kept_execPerstDeassert s hs
  | .fuseReadDone map => kept_execFuseReadDone map s hs
  | .panelPowerDone => kept_execPanelPowerDone s hs
  | .settingsStoreReadDone fwSigOk bootSigOk => kept_execSettingsStoreReadDone fwSigOk bootSigOk s hs
  | .enterBlocks ms => kept_execEnterBlocks ms s hs
  | .dramTrainingDone stack ok => kept_execDramTrainingDone stack ok s hs
  | .ntSweepDone stack => kept_execNtSweepDone stack s hs
  | .bootImageApply => kept_execBootImageApply s hs
  | .mapReplayDone ms => kept_execMapReplayDone ms s hs
  | .directoryRebuildDone => kept_execDirectoryRebuildDone s hs
  | .fcPathPrimed => kept_execFcPathPrimed s hs
  | .enterGo ms => kept_execEnterGo ms s hs
  | .ps4Exit => kept_execPs4Exit s hs
  | .beatEdge highNs sinceBoundary sinceEdge => kept_execBeatEdge highNs sinceBoundary sinceEdge s hs
  | .missedBeat => kept_execMissedBeat s hs
  | .freerunEntry => kept_execFreerunEntry s hs
  | .freerunBoundary => kept_execFreerunBoundary s hs
  | .beatBoundary b => kept_execBeatBoundary b s hs
  | .setpoint endpoint body => kept_execSetpoint endpoint body s hs
  | .period endpoint body => kept_execPeriod endpoint body s hs
  | .setpointTakeEffect => kept_execSetpointTakeEffect s hs
  | .reportTimer => kept_execReportTimer s hs
  | .thermalTrigger sensor temp => kept_execThermalTrigger sensor temp s hs
  | .thermalCeilingEnd temps => kept_execThermalCeilingEnd temps s hs
  | .thermalShutdown sensor temp => kept_execThermalShutdown sensor temp s hs
  | .outletAlert temp => kept_execOutletAlert temp s hs
  | .dramHotRefresh stack temp => kept_execDramHotRefresh stack temp s hs
  | .flashThrottle board temp => kept_execFlashThrottle board temp s hs
  | .flashThrottleEnd tempA tempB => kept_execFlashThrottleEnd tempA tempB s hs
  | .flashBandChange tempA tempB => kept_execFlashBandChange tempA tempB s hs
  | .sqTailDoorbell sq tail => kept_execSqTailDoorbell sq tail s hs
  | .cqHeadDoorbell cq head => kept_execCqHeadDoorbell cq head s hs
  | .controllerEnable => kept_execControllerEnable s hs
  | .controllerReset => kept_execControllerReset s hs
  | .flrFunction0 => kept_execFlrFunction0 s hs
  | .flrFunction1 => kept_execFlrFunction1 s hs
  | .hlPcieError fn bit => kept_execHlPcieError fn bit s hs
  | .dataTransferError c addr => kept_execDataTransferError c addr s hs
  | .createIoSq c sqid size prio cqid pc => kept_execCreateIoSq c sqid size prio cqid pc s hs
  | .createIoCq c cqid size vector ien pc => kept_execCreateIoCq c cqid size vector ien pc s hs
  | .deleteIoSq c sqid => kept_execDeleteIoSq c sqid s hs
  | .deleteIoCq c cqid => kept_execDeleteIoCq c cqid s hs
  | .identify c cns nsid => kept_execIdentify c cns nsid s hs
  | .getLogPage c page lsf rae offset len => kept_execGetLogPage c page lsf rae offset len s hs
  | .abort c sqid cid => kept_execAbort c sqid cid s hs
  | .setFeatures c fid value data => kept_execSetFeatures c fid value data s hs
  | .setFeaturesPowerManagement c ps => kept_execSetFeaturesPowerManagement c ps s hs
  | .getFeatures c ask => kept_execGetFeatures c ask s hs
  | .asyncEventRequest c => kept_execAsyncEventRequest c s hs
  | .namespaceCreate c nsze ncap => kept_execNamespaceCreate c nsze ncap s hs
  | .namespaceDelete c nsid => kept_execNamespaceDelete c nsid s hs
  | .namespaceAttachment c nsid attach ctrl => kept_execNamespaceAttachment c nsid attach ctrl s hs
  | .formatNvm c nsid => kept_execFormatNvm c nsid s hs
  | .formatNvmCryptoErase c nsid ses => kept_execFormatNvmCryptoErase c nsid ses s hs
  | .firmwareImageDownload c offset data => kept_execFirmwareImageDownload c offset data s hs
  | .firmwareCommit c slot action sigOk writes => kept_execFirmwareCommit c slot action sigOk writes s hs
  | .firmwareCommitDone ok writes => kept_execFirmwareCommitDone ok writes s hs
  | .read c nsid slba len => kept_execRead c nsid slba len s hs
  | .write c nsid slba nlb data => kept_execWrite c nsid slba nlb data s hs
  | .writeZeroes c nsid slba nlb deac => kept_execWriteZeroes c nsid slba nlb deac s hs
  | .datasetManagementDeallocate c nsid ranges => kept_execDatasetManagementDeallocate c nsid ranges s hs
  | .verify c nsid slba len => kept_execVerify c nsid slba len s hs
  | .flush c nsid => kept_execFlush c nsid s hs
  | .rangeLockGranted => kept_execRangeLockGranted s hs
  | .overlapWaitEnd c => kept_execOverlapWaitEnd c s hs
  | .landingStripeClose => kept_execLandingStripeClose s hs
  | .landingStripeVerified stripe => kept_execLandingStripeVerified stripe s hs
  | .writeResumeLanding c => kept_execWriteResumeLanding c s hs
  | .writeResumeSnapshot c => kept_execWriteResumeSnapshot c s hs
  | .foldRow group block units => kept_execFoldRow group block units s hs
  | .landingAgeLimit => kept_execLandingAgeLimit s hs
  | .garbageCollection group victim dest => kept_execGarbageCollection group victim dest s hs
  | .wearLevelMove group src dest => kept_execWearLevelMove group src dest s hs
  | .scrubRead channel die block step bits => kept_execScrubRead channel die block step bits s hs
  | .refresh channel die block dest => kept_execRefresh channel die block dest s hs
  | .mapCheckpoint => kept_execMapCheckpoint s hs
  | .progFail channel die block dest => kept_execProgFail channel die block dest s hs
  | .eraseFail channel die block => kept_execEraseFail channel die block s hs
  | .retryExhausted channel addr => kept_execRetryExhausted channel addr s hs
  | .rebuildDone channel nsid lba ok => kept_execRebuildDone channel nsid lba ok s hs
  | .ntPatrolScrub addr => kept_execNtPatrolScrub addr s hs
  | .jobCancel c sqid cid => kept_execJobCancel c sqid cid s hs
  | .scan c sub => kept_execScan c sub s hs
  | .embed c sub => kept_execEmbed c sub s hs
  | .search c sub queries => kept_execSearch c sub queries s hs
  | .insert c sub data => kept_execInsert c sub data s hs
  | .delete c sub data => kept_execDelete c sub data s hs
  | .commit c sub => kept_execCommit c sub s hs
  | .merge c sub sources => kept_execMerge c sub sources s hs
  | .serveOpen c sub => kept_execServeOpen c sub s hs
  | .serveAppend c sub tokens => kept_execServeAppend c sub tokens s hs
  | .serveClose c sub => kept_execServeClose c sub s hs
  | .train c sub => kept_execTrain c sub s hs
  | .jobAdmit tag => kept_execJobAdmit tag s hs
  | .commitTakeEffect nsid => kept_execCommitTakeEffect nsid s hs
  | .jobRestart tag => kept_execJobRestart tag s hs
  | .extentDone tag extent embeds => kept_execExtentDone tag extent embeds s hs
  | .heapCollect tag query => kept_execHeapCollect tag query s hs
  | .lapHurdle squad h => kept_execLapHurdle squad h s hs
  | .decodeCapRise slot => kept_execDecodeCapRise slot s hs
  | .updateRatioCheck tag layers => kept_execUpdateRatioCheck tag layers s hs
  | .matmul tile desc => kept_execMatmul tile desc s hs
  | .xorpop tile desc => kept_execXorpop tile desc s hs
  | .reduce tile desc => kept_execReduce tile desc s hs
  | .eltwise tile desc => kept_execEltwise tile desc s hs
  | .eltwiseQuant tile desc => kept_execEltwiseQuant tile desc s hs
  | .gather tile desc => kept_execGather tile desc s hs
  | .scatter tile desc => kept_execScatter tile desc s hs
  | .filter tile desc => kept_execFilter tile desc s hs
  | .topk tile desc => kept_execTopk tile desc s hs
  | .loadBaton tile desc => kept_execLoadBaton tile desc s hs
  | .hurdleFence tile desc => kept_execHurdleFence tile desc s hs
  | .stats tile desc => kept_execStats tile desc s hs
  | .statsReport tile desc => kept_execStatsReport tile desc s hs
  | .calRendezvousDone squad tensor => kept_execCalRendezvousDone squad tensor s hs
  | .opComplete tile unit => kept_execOpComplete tile unit s hs
  | .batonFillDone tile latch r => kept_execBatonFillDone tile latch r s hs
  | .tileSweepDone tile => kept_execTileSweepDone tile s hs
  | .objPlaceHost c d data => kept_execObjPlaceHost c d data s hs
  | .objPlaceLba c d => kept_execObjPlaceLba c d s hs
  | .objPlaceFar c d => kept_execObjPlaceFar c d s hs
  | .objPlaceNear c d => kept_execObjPlaceNear c d s hs
  | .placeCopyDone object r => kept_execPlaceCopyDone object r s hs
  | .objEvict c d => kept_execObjEvict c d s hs
  | .objEvictDiscard c d => kept_execObjEvictDiscard c d s hs
  | .objPublishHost c d data => kept_execObjPublishHost c d data s hs
  | .objPublishNear c d => kept_execObjPublishNear c d s hs
  | .publishDone object => kept_execPublishDone object s hs
  | .pinsReachZero object version => kept_execPinsReachZero object version s hs
  | .structureLoadStage c d data => kept_execStructureLoadStage c d data s hs
  | .structureLoadApply c d => kept_execStructureLoadApply c d s hs
  | .structureLoadDiscard c d => kept_execStructureLoadDiscard c d s hs
  | .applyVerifyDone sigOk => kept_execApplyVerifyDone sigOk s hs
  | .applyConfigure => kept_execApplyConfigure s hs
  | .persistDone ok => kept_execPersistDone ok s hs
  | .squadRetire c d => kept_execSquadRetire c d s hs
  | .squadRetireForce c d => kept_execSquadRetireForce c d s hs
  | .drainComplete squad => kept_execDrainComplete squad s hs
  | .drainSlow => kept_execDrainSlow s hs
  | .versionNegotiateOffer c d offer writes => kept_execVersionNegotiateOffer c d offer writes s hs
  | .versionNegotiateCommit c d writes => kept_execVersionNegotiateCommit c d writes s hs
  | .versionNegotiateQuery c d => kept_execVersionNegotiateQuery c d s hs
  | .faultClearFatal c d checks => kept_execFaultClearFatal c d checks s hs
  | .faultClearSquad c d checks => kept_execFaultClearSquad c d checks s hs
  | .faultClearAllContained c d checks => kept_execFaultClearAllContained c d checks s hs
  | .flClearFatal w => kept_execFlClearFatal w s hs
  | .flClearSquad v checks => kept_execFlClearSquad v checks s hs
  | .flClearAllContained w => kept_execFlClearAllContained w s hs
  | .fenceClearApply => kept_execFenceClearApply s hs
  | .faultMessage m => kept_execFaultMessage m s hs
  | .mgWatchdogExpiry core => kept_execMgWatchdogExpiry core s hs
  | .powerStateChange => kept_execPowerStateChange s hs
  | .apstIdleExpiry ps => kept_execApstIdleExpiry ps s hs
  | .peerWindowWrite off data => kept_execPeerWindowWrite off data s hs
  | .qeP2pFlush => kept_execQeP2pFlush s hs
  | .qeP2pCfgWrite v => kept_execQeP2pCfgWrite v s hs
  | .qeP2pBaseWrite hi v => kept_execQeP2pBaseWrite hi v s hs
  | .lpReqProdWrite v => kept_execLpReqProdWrite v s hs
  | .lpRplConsWrite v => kept_execLpRplConsWrite v s hs
  | .lpCtlReset v => kept_execLpCtlReset s v hs
  | .lpVolMapWrite volume v writes => kept_execLpVolMapWrite volume v writes s hs
  | .lpRead => kept_execLpRead s hs
  | .lpWrite => kept_execLpWrite s hs
  | .lpFlush => kept_execLpFlush s hs
  | .lpTrim => kept_execLpTrim s hs
  | .lpInquire => kept_execLpInquire s hs
  | .lpUnsupported => kept_execLpUnsupported s hs
  | .lpData => kept_execLpData s hs
  | .lpAbort => kept_execLpAbort s hs
  | .lpPad => kept_execLpPad s hs
  | .lpWindowLanded tag => kept_execLpWindowLanded tag s hs
  | .lpXferTimeout tag => kept_execLpXferTimeout tag s hs
  | .swWindowRead off len => kept_execSwWindowRead off len s hs
  | .wordProgram cycles => kept_execWordProgram cycles s hs
  | .pageProgram cycles => kept_execPageProgram cycles s hs
  | .sectorErase cycles => kept_execSectorErase cycles s hs
  | .identifyMode cycles => kept_execIdentifyMode cycles s hs
  | .swAbort off => kept_execSwAbort off s hs
  | .swOpDone pulses ok => kept_execSwOpDone pulses ok s hs
  | .swQueuedStart => kept_execSwQueuedStart s hs
  | .swProtectSet word v => kept_execSwProtectSet word v s hs
  | .maintenanceGrant grant sigOk writes => kept_execMaintenanceGrant grant sigOk writes s hs
  | .keyRequest request sigOk writes => kept_execKeyRequest request sigOk writes s hs
  | .attestation => kept_execAttestation s hs
  | .topTreeDone => kept_execTopTreeDone s hs
  | .attestDone slotWrites transferOk => kept_execAttestDone slotWrites transferOk s hs
  | .rlProbeWrite => kept_execRlProbeWrite s hs
  | .rlProbeRead => kept_execRlProbeRead s hs
  | .rlLookup v => kept_execRlLookup v s hs
  | .nsLookup v => kept_execNsLookup v s hs
  | .resetSquad squad => kept_execResetSquad squad s hs
  | .resetAll => kept_execResetAll s hs
  | .nsClrCnt => kept_execNsClrCnt s hs
  | .modelRegister v record => kept_execModelRegister v record s hs
  | .modelUnregister v => kept_execModelUnregister v s hs
  | .jdSplitSel v => kept_execJdSplitSel v s hs
  | .tileClrCnt tile => kept_execTileClrCnt tile s hs
  | .tileLmWdata tile v => kept_execTileLmWdata tile v s hs
  | .tileLmRdata tile => kept_execTileLmRdata tile s hs
  | .mmFlashTempRead => kept_execMmFlashTempRead s hs
  | .reg64LowRead a => kept_execReg64LowRead a s hs
  | .registerWrite a data => kept_execRegisterWrite a data s hs
  | .sideListMerge nsid segments => kept_execSideListMerge nsid segments s hs
  | .indexCompaction nsid => kept_execIndexCompaction nsid s hs
  | .nvmeShutdown => kept_execNvmeShutdown s hs
  | .nvmeMiMessage msgType admin opcode ask => kept_execNvmeMiMessage msgType admin opcode ask s hs
  | .setEndpointId eid => kept_execSetEndpointId eid s hs
  | .setdasa addr => kept_execSetdasa addr s hs
  | .inputInRange v10mV => kept_execInputInRange v10mV s hs
  | .outletAlertEnd temp => kept_execOutletAlertEnd temp s hs

/-- Settles O4. -/
theorem resetIsInForm : Obligations.ResetIsInForm := by
  unfold Obligations.ResetIsInForm
  exact ⟨State.inForm_reset, rfl⟩

/-- Settles O3: a step on an empty queue is none, and any other runs the front command on the rest of the queue. -/
theorem everyStepKeepsMemoriesTablesAndQueue : Obligations.EveryStepKeepsMemoriesTablesAndQueue := by
  unfold Obligations.EveryStepKeepsMemoriesTablesAndQueue
  intro s h
  unfold step
  split
  next hq => exact ⟨s, rfl, h, by rw [hq, List.tail_nil]⟩
  next c cs hq =>
    have hk : State.keeps cs { s with pending := cs } := ⟨rfl, h⟩
    obtain ⟨t, ht, hp, hf⟩ := exec_keeps hk c
    exact ⟨t, ht, hf, by rw [hq, hp, List.tail_cons]⟩

end Sys2Proof.Machine
end

section
/-! SL runs one load or retire at a time (R38): what a STRUCTURE_LOAD or a SQUAD_RETIRE meets while SL is busy, and what the
abort of a squad keeps of the retire that a forced SQUAD_RETIRE joins (R51). -/

namespace Sys2Proof.Machine

/-! ## The four commands where QE serves them -/

theorem exec_structureLoadStage_served {s : State} {c : CmdId} (h : s.serves c .stage) (d : Dwords) (x : List Byte) :
    exec (.structureLoadStage c d x) s = .next ((s.fetch c).stage c d x) :=
  congrArg done (State.command_served _ h.1 h.2)

theorem exec_structureLoadDiscard_served {s : State} {c : CmdId} (h : s.serves c .stage) (d : Dwords) :
    exec (.structureLoadDiscard c d) s = .next ((s.fetch c).discardStage c d) :=
  congrArg done (State.command_served _ h.1 h.2)

theorem exec_structureLoadApply_served {s : State} {c : CmdId} (h : s.serves c .manage) (d : Dwords) :
    exec (.structureLoadApply c d) s = .next ((s.fetch c).startApply c d) :=
  congrArg done (State.command_served _ h.1 h.2)

theorem exec_squadRetire_served {s : State} {c : CmdId} (h : s.serves c .manage) (d : Dwords) :
    exec (.squadRetire c d) s = .next ((s.fetch c).retireSquad c d false) :=
  congrArg done (State.command_served _ h.1 h.2)

theorem exec_squadRetireForce_served {s : State} {c : CmdId} (h : s.serves c .manage) (d : Dwords) :
    exec (.squadRetireForce c d) s = .next ((s.fetch c).retireSquad c d true) :=
  congrArg done (State.command_served _ h.1 h.2)

/-! ## While SL is busy -/

theorem State.slBusy_iff (s : State) : s.slBusy = true ↔ s.sl.load.isSome = true ∨ s.sl.retire.isSome = true := by
  simp [State.slBusy]

theorem State.stage_busy {s : State} (h : s.slBusy = true) (c : CmdId) (d : Dwords) (x : List Byte) :
    s.stage c d x = s.complete c stSequence := by
  simp [State.stage, h]

theorem State.discardStage_busy {s : State} (h : s.slBusy = true) (c : CmdId) (d : Dwords) :
    s.discardStage c d = s.complete c stSequence := by
  simp [State.discardStage, h]

theorem State.startApply_busy {s : State} (h : s.slBusy = true ∨ s.sl.persist.isSome = true) (c : CmdId) (d : Dwords) :
    s.startApply c d = s.complete c stSequence := by
  have : (s.slBusy || s.sl.persist.isSome) = true := by simpa using h
  simp [State.startApply, this]

/-- A SQUAD_RETIRE that is not forced, or not of the squad that drains, finds SL busy. -/
theorem State.retireSquad_busy {s : State} {d : Dwords} {forced : Bool} (h : s.slBusy = true)
    (hf : (forced || bitW d.d10 8) = false ∨
      s.sl.retire.map Retire.squad ≠ some (bitsW d.d10 5 0) ∧ s.applyDrains (bitsW d.d10 5 0) = false) (c : CmdId) :
    s.retireSquad c d forced = s.complete c stSequence := by
  unfold State.retireSquad
  dsimp only
  rw [if_neg ?joins, if_pos h]
  case joins =>
    rcases hf with hf | ⟨hr, ha⟩
    · simp [hf]
    · simp [hr, ha]

/-! ## What the end of a job keeps of the retire -/

/-- A retire without its counts of ended jobs. -/
def Retire.uncounted (r : Retire) : Retire := { r with drained := 0, aborted := 0 }

/-- The retire that runs: its commands, its squad and whether it is forced. -/
def State.retireOpen (s : State) : Option Retire := s.sl.retire.map Retire.uncounted

theorem State.retireOpen_of_sl {s t : State} (h : t.sl = s.sl) : t.retireOpen = s.retireOpen := by
  simp [State.retireOpen, h]

theorem foldl_retireOpen {α : Type} {f : State → α → State} (h : ∀ s a, (f s a).retireOpen = s.retireOpen) (l : List α)
    (s : State) : (l.foldl f s).retireOpen = s.retireOpen :=
  kept_foldl (P := fun t => t.retireOpen = s.retireOpen) (fun t a ht => (h t a).trans ht) rfl

theorem foldl_sl {α : Type} {f : State → α → State} (h : ∀ s a, (f s a).sl = s.sl) (l : List α) (s : State) :
    (l.foldl f s).sl = s.sl :=
  kept_foldl (P := fun t => t.sl = s.sl) (fun t a ht => (h t a).trans ht) rfl

@[simp] theorem State.onJob_sl (s : State) (tag : Nat) (f : Job → Job) : (s.onJob tag f).sl = s.sl := rfl

@[simp] theorem State.writeResult_sl (s : State) (j : Job) (o : Nat) (b : List Byte) : (s.writeResult j o b).sl = s.sl := by
  unfold State.writeResult
  repeat' split
  all_goals rfl

@[simp] theorem State.writeAgg_sl (s : State) (j : Job) : (s.writeAgg j).sl = s.sl := by
  unfold State.writeAgg
  split
  · rw [State.onJob_sl, State.writeResult_sl]
  · rfl

@[simp] theorem State.releasePins_sl (s : State) (ps : List Pin) : (s.releasePins ps).sl = s.sl :=
  foldl_sl (f := State.releasePin) (fun _ _ => rfl) ps s

@[simp] theorem State.freeContexts_sl (s : State) (j : Job) : (s.freeContexts j).sl = s.sl :=
  foldl_sl (fun _ _ => State.setTile_sl ..) j.search.ctxs s

@[simp] theorem State.countEnd_retireOpen (s : State) (n st : Nat) : (s.countEnd n st).retireOpen = s.retireOpen := by
  unfold State.countEnd State.retireOpen
  simp only [Option.map_map]
  congr 1
  funext r
  simp only [Function.comp_apply]
  split <;> rfl

@[simp] theorem State.finishJob_retireOpen (s : State) (tag st a b : Nat) :
    (s.finishJob tag st a b).retireOpen = s.retireOpen := by
  unfold State.finishJob
  split
  · rfl
  next j _ =>
    dsimp only
    refine (State.retireOpen_of_sl (State.complete_sl ..)).trans ?_
    refine Eq.trans (State.retireOpen_of_sl rfl) ((State.countEnd_retireOpen _ _ _).trans (State.retireOpen_of_sl ?_))
    exact (State.freeContexts_sl ..).trans ((State.releasePins_sl ..).trans (State.writeAgg_sl s j))

@[simp] theorem State.stopJob_retireOpen (s : State) (tag stop st a b : Nat) :
    (s.stopJob tag stop st a b).retireOpen = s.retireOpen :=
  (State.finishJob_retireOpen ..).trans (State.retireOpen_of_sl (State.onJob_sl ..))

/-! ## What an abort keeps of the retire (R50) -/

@[simp] theorem State.noteLen_sl (s : State) (id : Nat) : (s.noteLen id).sl = s.sl := by
  unfold State.noteLen
  repeat' split
  all_goals rfl

@[simp] theorem State.leaveBatch_sl (s : State) (id : Nat) : (s.leaveBatch id).sl = s.sl := by
  unfold State.leaveBatch
  repeat' split
  all_goals rfl

@[simp] theorem State.closeCut_retireOpen (s : State) (id code st a : Nat) :
    (s.closeCut id code st a).retireOpen = s.retireOpen := by
  have hleft : ∀ d : Jd, State.retireOpen { (s.noteLen id).leaveBatch id with jd := d } = s.retireOpen := fun _ =>
    State.retireOpen_of_sl ((State.leaveBatch_sl ..).trans (State.noteLen_sl ..))
  unfold State.closeCut
  split
  · rfl
  · dsimp only
    refine (foldl_retireOpen (fun _ _ => State.finishJob_retireOpen ..) _ _).trans ?_
    split
    · exact hleft _
    · exact (State.stopJob_retireOpen ..).trans (hleft _)

@[simp] theorem State.closeSeq_retireOpen (s : State) (id : Nat) : (s.closeSeq id).retireOpen = s.retireOpen := by
  have hleft : ∀ d : Jd, State.retireOpen { (s.noteLen id).leaveBatch id with jd := d } = s.retireOpen := fun _ =>
    State.retireOpen_of_sl ((State.leaveBatch_sl ..).trans (State.noteLen_sl ..))
  unfold State.closeSeq
  split
  · rfl
  · dsimp only
    refine (foldl_retireOpen (fun _ _ => State.finishJob_retireOpen ..) _ _).trans ?_
    split
    · exact hleft _
    · exact (State.finishJob_retireOpen ..).trans ((State.retireOpen_of_sl (State.onJob_sl ..)).trans (hleft _))

@[simp] theorem State.stopCommit_retireOpen (s : State) (tag code st : Nat) :
    (s.stopCommit tag code st).retireOpen = s.retireOpen := by
  unfold State.stopCommit
  split
  · exact State.retireOpen_of_sl (State.onJob_sl ..)
  · exact (State.stopJob_retireOpen ..).trans (State.retireOpen_of_sl rfl)

@[simp] theorem State.abortJob_retireOpen (s : State) (j : Job) : (s.abortJob false j).retireOpen = s.retireOpen := by
  unfold State.abortJob
  split
  · exact State.stopCommit_retireOpen ..
  · exact State.closeCut_retireOpen ..
  · exact State.closeSeq_retireOpen ..
  · exact (State.stopJob_retireOpen ..).trans (State.retireOpen_of_sl rfl)

@[simp] theorem State.discardTiles_sl (s : State) (n : Nat) : (s.discardTiles n).sl = s.sl := by
  unfold State.discardTiles
  split <;> rfl

/-- An abort of a squad keeps the commands of the retire, its squad and whether it is forced. -/
theorem State.abortSquad_retireOpen (s : State) (n : Nat) : (s.abortSquad n false).retireOpen = s.retireOpen := by
  have hjobs : ∀ (l : List Job) (t : State),
      (l.foldl (fun s j => if j.admitted then s.abortJob false j else s) t).retireOpen = t.retireOpen := fun l t =>
    foldl_retireOpen (fun s j => by split <;> simp) l t
  unfold State.abortSquad
  dsimp only
  rw [if_neg Bool.false_ne_true]
  refine (State.retireOpen_of_sl (State.discardTiles_sl ..)).trans ?_
  refine (State.retireOpen_of_sl rfl).trans ((foldl_retireOpen (fun _ _ => State.closeCut_retireOpen ..) _ _).trans ?_)
  exact (hjobs _ _).trans rfl

/-- A forced SQUAD_RETIRE of the squad that drains joins its retire, which is forced from then on (R51). -/
theorem State.retireSquad_joins {s : State} {d : Dwords} {r : Retire} (hr : s.sl.retire = some r)
    (hn : r.squad = bitsW d.d10 5 0) (c : CmdId) :
    (s.retireSquad c d true).retireOpen = some ({ r with cs := r.cs ++ [c], force := true } : Retire).uncounted := by
  unfold State.retireSquad
  dsimp only
  rw [if_pos (by simp [hr, hn])]
  unfold State.forceDrain
  rw [hr]
  exact State.abortSquad_retireOpen ..

/-! ## The obligation -/

/-- Settles O59: a busy SL answers each of the commands alone, and a forced retire of the squad that drains joins it. -/
theorem oneLoadOrRetireAtATime : Obligations.OneLoadOrRetireAtATime := by
  unfold Obligations.OneLoadOrRetireAtATime
  refine ⟨?stage, ?apply, ?unforced, ?other, ?joins⟩
  case stage =>
    intro c d x s hs hb
    have hb : (s.fetch c).slBusy = true := s.slBusy_iff.mpr hb
    rw [exec_structureLoadStage_served hs, exec_structureLoadDiscard_served hs, State.stage_busy hb, State.discardStage_busy hb]
    exact ⟨rfl, rfl⟩
  case apply =>
    intro c d s hs hb
    have hb : (s.fetch c).slBusy = true ∨ (s.fetch c).sl.persist.isSome = true :=
      (or_assoc.mpr hb).imp_left s.slBusy_iff.mpr
    rw [exec_structureLoadApply_served hs, State.startApply_busy hb]
    rfl
  case unforced =>
    intro c d s hs hb hf
    have hb : (s.fetch c).slBusy = true := s.slBusy_iff.mpr hb
    rw [exec_squadRetire_served hs, State.retireSquad_busy hb (Or.inl (by simp [hf]))]
    rfl
  case other =>
    intro c d s hs hb hr ha
    have hb : (s.fetch c).slBusy = true := s.slBusy_iff.mpr hb
    rw [exec_squadRetireForce_served hs, exec_squadRetire_served hs, State.retireSquad_busy hb (Or.inr ⟨hr, ha⟩),
      State.retireSquad_busy hb (Or.inr ⟨hr, ha⟩)]
    exact ⟨rfl, rfl⟩
  case joins =>
    intro c d s hs _ hn
    obtain ⟨r, hr, hn⟩ := Option.map_eq_some_iff.mp hn
    obtain ⟨k, hk, hopen⟩ := Option.map_eq_some_iff.mp (State.retireSquad_joins (s := s.fetch c) hr hn c)
    have hcs : k.cs = r.cs ++ [c] := congrArg Retire.cs hopen
    have hforce : k.force = true := congrArg Retire.force hopen
    have hsquad : k.squad = r.squad := (congrArg Retire.squad hopen :)
    refine ⟨_, exec_squadRetireForce_served hs d, ?_, ?_, ?_⟩
    · rw [hk, hr, Option.map_some, Option.map_some, hcs]
    · rw [hk, Option.map_some, hforce]
    · rw [hk, Option.map_some, hsquad, hn]

end Sys2Proof.Machine
end

section
/-! JOB_SUBMIT of the kinds that wait for JOB_ADMIT (R26, R217, R261, R268, R320, R322, R388, R409): a job of its squad, or a
status and a progress record. -/

namespace Sys2Proof.Machine

/-! ## A fetched JOB_SUBMIT -/

theorem exec_scan_fetched {s : State} {c : CmdId} (h : s.canFetch c = true) (sub : Submit) :
    exec (.scan c sub) s = .next ((s.fetch c).takeJob c 1 sub [] []) :=
  congrArg done (if_pos h)

theorem exec_embed_fetched {s : State} {c : CmdId} (h : s.canFetch c = true) (sub : Submit) :
    exec (.embed c sub) s = .next ((s.fetch c).takeJob c 2 sub [] []) :=
  congrArg done (if_pos h)

theorem exec_train_fetched {s : State} {c : CmdId} (h : s.canFetch c = true) (sub : Submit) :
    exec (.train c sub) s = .next ((s.fetch c).takeJob c 0x20 sub [] []) :=
  congrArg done (if_pos h)

theorem exec_search_fetched {s : State} {c : CmdId} (h : s.canFetch c = true) (sub : Submit) (qs : List (List Byte)) :
    exec (.search c sub qs) s = .next (((s.fetch c).takeJob c 3 sub [] qs).holdSearch s.jd.nextTag) :=
  congrArg done (if_pos h)

/-- The class of a job's kind: BLOCKS serves a SEARCH as an I/O command (R268, R388). -/
def kindGate (kind : Nat) : Gate := if kind = 3 then .io else .job

/-- GO, with no fatal cause standing. -/
theorem State.phase_of_inGo {s : State} (h : s.inGo = true) : s.mc.phase = .go ∧ s.halted = false := by
  simpa [State.inGo] using h

/-- In GO every class is served (R388, R413). -/
theorem State.gate_of_inGo {s : State} (h : s.inGo = true) (g : Gate) : s.gate g = none := by
  obtain ⟨hgo, hh⟩ := s.phase_of_inGo h
  simp [State.gate, hgo, hh]

theorem State.inBlocks_of_inGo {s : State} (h : s.inGo = true) : s.inBlocks = false := by
  simp [State.inBlocks, (s.phase_of_inGo h).1]

/-! ## What QE and JD find at once (R26, R217, R320, R322, R409) -/

theorem State.submitCheck_submits {s : State} {c : CmdId} {kind n : Nat} {sub : Submit} (h : s.submits c kind sub n) :
    s.submitCheck c kind sub = .inr n := by
  obtain ⟨-, -, hprp, hk, hc, hk', hc', hv, hb, hf⟩ := h
  unfold State.submitCheck
  simp [hprp, hk, hc, hk', hc', hv, hb, hf]

theorem State.submitCheck_badForm {s : State} {c : CmdId} {kind : Nat} {sub : Submit}
    (h : sub.prp1 % 256 ≠ 0 ∨ bitsW sub.d10 7 0 ≠ byteAt sub.desc 0 ∨ bitsW sub.d10 15 8 ≠ byteAt sub.desc 1 ∨
      byteAt sub.desc 0 ≠ kind) : s.submitCheck c kind sub = .inl stInvalidField :=
  if_pos h

/-- The descriptor lies at a multiple of 256 bytes, and dword 10 and the command name its kind and command set (R320). -/
abbrev wellPlaced (sub : Submit) (kind : Nat) : Prop :=
  sub.prp1 % 256 = 0 ∧ bitsW sub.d10 7 0 = byteAt sub.desc 0 ∧ bitsW sub.d10 15 8 = byteAt sub.desc 1 ∧ byteAt sub.desc 0 = kind

theorem State.submitCheck_version {s : State} {c : CmdId} {kind : Nat} {sub : Submit} (h : wellPlaced sub kind)
    (hv : byteAt sub.desc 1 ≠ s.qe.versions.cmdset / 16 ∨ byteAt sub.desc 1 = 2 ∧ 0x10 ≤ kind) :
    s.submitCheck c kind sub = .inl stVersion := by
  obtain ⟨hprp, hk, hc, hk'⟩ := h
  unfold State.submitCheck
  rw [if_neg (by simp [hprp, hk, hc, hk'])]
  by_cases hcs : byteAt sub.desc 1 = s.qe.versions.cmdset / 16
  · rw [if_neg (not_not_intro hcs), if_pos (hv.resolve_left (not_not_intro hcs))]
  · rw [if_pos hcs]

/-- Under its own command set, a command for which no squad of its kind is bound is refused (R26). -/
theorem State.submitCheck_unbound {s : State} {c : CmdId} {kind : Nat} {sub : Submit} (h : wellPlaced sub kind)
    (hv : byteAt sub.desc 1 = s.qe.versions.cmdset / 16) (hset : ¬ (byteAt sub.desc 1 = 2 ∧ 0x10 ≤ kind))
    (hb : s.bindSquad c.sq kind (byteAt sub.desc 4) = none) : s.submitCheck c kind sub = .inl stInvalidField := by
  obtain ⟨hprp, hk, hc, hk'⟩ := h
  unfold State.submitCheck
  rw [if_neg (by simp [hprp, hk, hc, hk']), if_neg (not_not_intro hv), if_neg hset, hb]

/-- The same of a command bound to a fenced squad (R409). -/
theorem State.submitCheck_fenced {s : State} {c : CmdId} {kind n : Nat} {sub : Submit} (h : wellPlaced sub kind)
    (hv : byteAt sub.desc 1 = s.qe.versions.cmdset / 16) (hset : ¬ (byteAt sub.desc 1 = 2 ∧ 0x10 ≤ kind))
    (hb : s.bindSquad c.sq kind (byteAt sub.desc 4) = some n) (hf : s.fenced n = true) :
    s.submitCheck c kind sub = .inl stFenced := by
  obtain ⟨hprp, hk, hc, hk'⟩ := h
  unfold State.submitCheck
  rw [if_neg (by simp [hprp, hk, hc, hk']), if_neg (not_not_intro hv), if_neg hset, hb]
  exact if_pos hf

/-! ## A job of its squad -/

theorem State.submit_bound {s : State} {c : CmdId} {kind n : Nat} {sub : Submit} (h : s.submitCheck c kind sub = .inr n)
    (data : List Byte) (lists : List (List Byte)) :
    s.submit c kind sub data lists =
      { s with jd := { s.jd with jobs := s.jd.jobs ++ [s.newJob c kind n sub data lists], nextTag := s.jd.nextTag + 1 } } := by
  unfold State.submit
  rw [h]

/-- Where the phase serves the kind and the checks pass, the fetched command becomes the last job (R320). -/
theorem State.takeJob_fetch_bound {s : State} {c : CmdId} {kind n : Nat} {sub : Submit} {data : List Byte}
    {lists : List (List Byte)} (hg : s.gate (kindGate kind) = none) (hc : s.submitCheck c kind sub = .inr n)
    (hb : s.inBlocks = true → s.blocksSearchOk (s.newJob c kind n sub data lists) = true) :
    (s.fetch c).takeJob c kind sub data lists = s.withJob c (s.newJob c kind n sub data lists) := by
  have hg' : (s.fetch c).gate (if kind = 3 then .io else .job) = none := hg
  have hc' : (s.fetch c).submitCheck c kind sub = .inr n := hc
  have hb' : ((s.fetch c).inBlocks && !(s.fetch c).blocksSearchOk ((s.fetch c).newJob c kind n sub data lists)) = false := by
    rw [Bool.and_eq_false_iff, Bool.not_eq_false']
    exact (Bool.eq_false_or_eq_true s.inBlocks).symm.imp_right hb
  unfold State.takeJob
  rw [hg']
  dsimp only
  rw [hc']
  dsimp only
  rw [hb', if_neg Bool.false_ne_true, State.submit_bound hc']
  rfl

theorem State.takeJob_fetch_submits {s : State} {c : CmdId} {kind n : Nat} {sub : Submit} (h : s.submits c kind sub n)
    (data : List Byte) (lists : List (List Byte)) :
    (s.fetch c).takeJob c kind sub data lists = s.withJob c (s.newJob c kind n sub data lists) := by
  obtain ⟨-, hgo, -⟩ := id h
  refine State.takeJob_fetch_bound (State.gate_of_inGo hgo _) (State.submitCheck_submits h) fun hb => ?_
  rw [State.inBlocks_of_inGo hgo] at hb
  cases hb

/-! ## A status and a progress record -/

/-- The phase, or the first check that fails, ends the command with a status. -/
def State.refuses (s : State) (c : CmdId) (kind : Nat) (sub : Submit) (st : Nat) : Prop :=
  s.gate (kindGate kind) = some st ∨ s.gate (kindGate kind) = none ∧ s.submitCheck c kind sub = .inl st

theorem State.takeJob_refused {s : State} {c : CmdId} {kind st : Nat} {sub : Submit} (h : s.refuses c kind sub st)
    (data : List Byte) (lists : List (List Byte)) : s.takeJob c kind sub data lists = s.refuseJob c kind sub st := by
  have hgate : ∀ g, s.gate (kindGate kind) = g → s.gate (if kind = 3 then .io else .job) = g := fun _ h => h
  unfold State.takeJob
  rcases h with h | ⟨h, hc⟩
  · rw [hgate _ h]
  · rw [hgate _ h]
    dsimp only
    rw [hc]

/-- In BLOCKS a SEARCH whose squad and index do not serve it there is refused (R268). -/
theorem State.takeJob_notInBlocks {s : State} {c : CmdId} {n : Nat} {sub : Submit} {lists : List (List Byte)}
    (hg : s.gate .io = none) (hc : s.submitCheck c 3 sub = .inr n) (hb : s.inBlocks = true)
    (hok : s.blocksSearchOk (s.newJob c 3 n sub [] lists) = false) :
    s.takeJob c 3 sub [] lists = s.refuseJob c 3 sub stNotReadyBlocks := by
  unfold State.takeJob
  rw [if_pos rfl, hg]
  dsimp only
  rw [hc]
  dsimp only
  rw [hb, hok]
  rfl

/-- A refused command completes with its status and leaves a record of it at the front of the log, and takes a tag (R320). -/
theorem State.refuseJob_spec {s : State} {c : CmdId} (h : c ∈ s.qe.fetched) (kind : Nat) (sub : Submit) (st : Nat) :
    Completed (s.refuseJob c kind sub st) c st 0 0 [] ∧ (s.refuseJob c kind sub st).jd.jobs = s.jd.jobs ∧
      (s.refuseJob c kind sub st).jd.nextTag = s.jd.nextTag + 1 ∧
      s.refuseJob c kind sub st = { s with qe := (s.refuseJob c kind sub st).qe, jd := (s.refuseJob c kind sub st).jd } ∧
      ∃ p, (s.refuseJob c kind sub st).jd.progress.head? = some p ∧ p.status = st ∧ p.c = c ∧ p.kind = kind ∧
        p.tag = s.jd.nextTag :=
  ⟨State.complete_completed _ _ _ _ _ _ h, rfl, rfl, rfl, _, rfl, rfl, rfl, rfl, rfl⟩

/-! ## A SEARCH that holds its submission queue (R261) -/

theorem State.holdSearch_noJob {s : State} {tag : Nat} (h : s.job tag = none) : s.holdSearch tag = s := by
  unfold State.holdSearch
  rw [h]

/-- A new job is found by its tag. -/
theorem State.job_withJob {s : State} (h : s.job s.jd.nextTag = none) (c : CmdId) {j : Job} (hj : j.tag = s.jd.nextTag) :
    (s.withJob c j).job s.jd.nextTag = some j := by
  have h : s.jd.jobs.find? (fun k => k.tag == s.jd.nextTag) = none := h
  change (s.jd.jobs ++ [j]).find? (fun k => k.tag == s.jd.nextTag) = some j
  rw [List.find?_append, h]
  simp [hj]

/-- With contexts free, or no squad, a new SEARCH waits in its squad alone. -/
theorem State.holdSearch_withJob_free {s : State} {c : CmdId} {j : Job} (h : s.job s.jd.nextTag = none)
    (hj : j.tag = s.jd.nextTag) (hp : ∀ q, s.squadOf j.squad = some q → (s.pickContexts j q).isSome = true) :
    (s.withJob c j).holdSearch s.jd.nextTag = s.withJob c j := by
  unfold State.holdSearch
  rw [State.job_withJob h c hj]
  dsimp only
  split
  · rfl
  next q hq =>
    have hq : ((s.withJob c j).pickContexts j q).isNone = false := by
      rw [Option.isNone_eq_false_iff]
      exact hp q hq
    rw [hq, Bool.and_false, if_neg Bool.false_ne_true]

/-- Without them it also holds its submission queue. -/
theorem State.holdSearch_withJob_held {s : State} {c : CmdId} {j : Job} {q : Squad} (h : s.job s.jd.nextTag = none)
    (hj : j.tag = s.jd.nextTag) (hq : s.squadOf j.squad = some q) (hf : searchForm j = true) (hp : s.pickContexts j q = none) :
    (s.withJob c j).holdSearch s.jd.nextTag = { s.withJob c j with qe := { (s.fetch c).qe with
      sqs := (s.fetch c).qe.sqs.adjust j.c.sq (fun x => { x with blocked := some j.c }) } } := by
  have hq' : (s.withJob c j).squadOf j.squad = some q := hq
  have hp' : (s.withJob c j).pickContexts j q = none := hp
  unfold State.holdSearch
  rw [State.job_withJob h c hj]
  dsimp only
  rw [hq']
  dsimp only
  rw [hf, hp']
  rfl

theorem KMap.find_adjust_self {α : Type} {m : KMap α} {n : Nat} {v : α} (h : m.find n = some v) (f : α → α) :
    (m.adjust n f).find n = some (f v) := by
  induction m with
  | nil => cases h
  | cons e m ih =>
    obtain ⟨k, w⟩ := e
    rw [KMap.find_cons] at h
    change KMap.find ((if k = n then (k, f w) else (k, w)) :: KMap.adjust m n f) n = _
    split at h
    next hk =>
      cases h
      rw [if_pos hk, KMap.find_cons, if_pos hk]
    next hk => rw [if_neg hk, KMap.find_cons, if_neg hk, ih h]

/-! ## The four rows -/

/-- A refused command of any of the four kinds has the refusal's effect alone. -/
theorem exec_refused {s : State} {c : CmdId} {sub : Submit} {qs : List (List Byte)} {st : Nat} (hc : s.canFetch c = true)
    (hj : s.job s.jd.nextTag = none) :
    ∀ i ∈ [(1, Instr.scan c sub), (2, .embed c sub), (3, .search c sub qs), (0x20, .train c sub)], s.refuses c i.1 sub st →
      exec i.2 s = .next ((s.fetch c).refuseJob c i.1 sub st) := by
  have htake : ∀ {kind} (lists : List (List Byte)), s.refuses c kind sub st →
      (s.fetch c).takeJob c kind sub [] lists = (s.fetch c).refuseJob c kind sub st := fun lists h =>
    State.takeJob_refused (s := s.fetch c) h [] lists
  intro i hi h
  simp only [List.mem_cons, List.not_mem_nil, or_false] at hi
  rcases hi with rfl | rfl | rfl | rfl
  · rw [exec_scan_fetched hc, htake [] h]
  · rw [exec_embed_fetched hc, htake [] h]
  · rw [exec_search_fetched hc, htake qs h]
    exact congrArg _ (State.holdSearch_noJob hj)
  · rw [exec_train_fetched hc, htake [] h]

/-- What a refused command of any of the four kinds leaves. -/
theorem exec_refused_spec {s : State} {c : CmdId} {sub : Submit} {qs : List (List Byte)} {st : Nat} (hc : s.canFetch c = true)
    (hj : s.job s.jd.nextTag = none) :
    ∀ i ∈ [(1, Instr.scan c sub), (2, .embed c sub), (3, .search c sub qs), (0x20, .train c sub)], s.refuses c i.1 sub st →
      ∃ t p, exec i.2 s = .next t ∧ Completed t c st 0 0 [] ∧ t.jd.jobs = s.jd.jobs ∧ t.jd.progress.head? = some p ∧
        p.status = st ∧ p.c = c ∧ p.kind = i.1 ∧ p.tag = s.jd.nextTag ∧ t.jd.nextTag = s.jd.nextTag + 1 ∧
        t = { s with qe := t.qe, jd := t.jd } := by
  intro i hi h
  obtain ⟨hcomp, hjobs, htag, hframe, p, hp, hst, hpc, hpk, hpt⟩ := State.refuseJob_spec (State.mem_fetch s c) i.1 sub st
  exact ⟨_, p, exec_refused hc hj i hi h, hcomp, hjobs, hp, hst, hpc, hpk, hpt, htag, hframe⟩

/-! ## The obligation -/

/-- Settles O41: where the checks pass the command is the last job, and where one fails it is refused. -/
theorem jobSubmission : Obligations.JobSubmission := by
  unfold Obligations.JobSubmission
  refine ⟨?scan, ?embed, ?train, ?search, ?held, ?blocks, ?checks, ?phase⟩
  case scan =>
    intro c sub n s h
    rw [exec_scan_fetched h.1, State.takeJob_fetch_submits h]
  case embed =>
    intro c sub n s h
    rw [exec_embed_fetched h.1, State.takeJob_fetch_submits h]
  case train =>
    intro c sub n s h
    rw [exec_train_fetched h.1, State.takeJob_fetch_submits h]
  case search =>
    intro c sub qs n q s h hq hj hp
    rw [exec_search_fetched h.1, State.takeJob_fetch_submits h, State.holdSearch_withJob_free hj rfl]
    intro r hr
    rwa [Option.some.inj (hr.symm.trans hq)]
  case held =>
    intro c sub qs n q s h hq hj hf hp
    refine ⟨_, exec_search_fetched h.1 sub qs, ?_⟩
    rw [State.takeJob_fetch_submits h, State.holdSearch_withJob_held hj rfl hq hf hp]
    exact ⟨rfl, fun x hx => KMap.find_adjust_self hx (fun x => { x with blocked := some c })⟩
  case blocks =>
    rintro c sub qs n s ⟨hc, hg⟩ hb hn hj
    refine ⟨fun hok hp => ?_, fun hok => ?_⟩
    · rw [exec_search_fetched hc, State.takeJob_fetch_bound hg hn fun _ => hok, State.holdSearch_withJob_free hj rfl hp]
    · obtain ⟨hcomp, hjobs, -, -, p, hp, hst, hpc, -, -⟩ :=
        State.refuseJob_spec (State.mem_fetch s c) 3 sub stNotReadyBlocks
      have hex : exec (.search c sub qs) s = .next ((s.fetch c).refuseJob c 3 sub stNotReadyBlocks) := by
        rw [exec_search_fetched hc, State.takeJob_notInBlocks (s := s.fetch c) hg hn hb hok]
        exact congrArg _ (State.holdSearch_noJob hj)
      exact ⟨_, p, hex, hcomp, hjobs, hp, hst, hpc⟩
  case checks =>
    intro c sub qs s hc hj hgo i hi st hst
    refine exec_refused_spec hc hj i hi (Or.inr ⟨State.gate_of_inGo hgo _, ?_⟩)
    rcases hst with ⟨rfl, hform⟩ | ⟨hprp, hk, hset, hk', hst⟩
    · exact State.submitCheck_badForm hform
    have hplace : wellPlaced sub i.1 := ⟨hprp, hk, hset, hk'⟩
    rcases hst with ⟨rfl, hv⟩ | ⟨hv, hset, hst⟩
    · exact State.submitCheck_version hplace hv
    rcases hst with ⟨rfl, hnone⟩ | ⟨rfl, n, hn, hfenced⟩
    · exact State.submitCheck_unbound hplace hv hset hnone
    · exact State.submitCheck_fenced hplace hv hset hn hfenced
  case phase =>
    intro c sub qs st s hc hj
    refine ⟨fun hg => ?_, fun hg => ?_⟩
    · have hrow : ∀ k i, k ≠ 3 → (k, i) ∈ [(1, Instr.scan c sub), (2, .embed c sub), (3, .search c sub qs), (0x20, .train c sub)] →
          ∃ t p, exec i s = .next t ∧ Completed t c st 0 0 [] ∧ t.jd.jobs = s.jd.jobs ∧ t.jd.progress.head? = some p ∧
            p.status = st ∧ p.c = c := by
        intro k i hk hi
        obtain ⟨t, p, ht, hcomp, hjobs, hp, hst, hpc, -⟩ :=
          exec_refused_spec hc hj _ hi (Or.inl ((congrArg s.gate (if_neg hk)).trans hg))
        exact ⟨t, p, ht, hcomp, hjobs, hp, hst, hpc⟩
      intro i hi
      simp only [List.mem_cons, List.not_mem_nil, or_false] at hi
      rcases hi with rfl | rfl | rfl
      · exact hrow 1 _ (by decide) (by simp)
      · exact hrow 2 _ (by decide) (by simp)
      · exact hrow 0x20 _ (by decide) (by simp)
    · obtain ⟨t, p, ht, hcomp, hjobs, hp, hst, hpc, -⟩ := exec_refused_spec (sub := sub) (qs := qs) hc hj (3, .search c sub qs)
        (by simp) (Or.inl hg)
      exact ⟨t, p, ht, hcomp, hjobs, hp, hst, hpc⟩

end Sys2Proof.Machine
end

section
/-! A counterexample for the APPLY whose image changes no squad (R37, R38, R40): SL writes the classes it found over those that the
load carried, and a load of an arbitrary state that is still being verified may carry some. -/

namespace Sys2Proof.Machine

/-! ## A verified image -/

theorem exec_applyVerifyDone_inGo {s : State} (h : s.inGo = true) (g : Bool) :
    exec (.applyVerifyDone g) s = .next (s.verified g) :=
  congrArg done (if_pos h)

theorem State.verified_good {s : State} {l : Load} {next : SquadSet} (hl : s.sl.load = some l) (hstep : l.step = .verify)
    (hkey : (s.sw.ownerKeys.find (imKey l.image)).isSome = true)
    (hv : verifyImage s.sl.set_ s.sl.gen s.qe.versions.image false true l.image = .inr next) :
    s.verified true = s.beginApply l next := by
  unfold State.verified
  simp only [hl, hstep, hkey, Bool.and_true, hv, bne_self_eq_false, Bool.false_eq_true, if_false]

/-- With no squad changed or removed, no drain begins, and the load names none. -/
theorem State.beginApply_undrained {s : State} {l : Load} {next : SquadSet} (hrm : removedIn s.sl.set_ next = [])
    (hch : changedIn s.sl.set_ next (imFormat l.image == 5 && imPartial l.image) (imNamed l.image) = []) :
    (s.beginApply l next).sl.load.map Load.changed = some [] := by
  unfold State.beginApply
  simp only [hrm, hch, List.append_nil, List.foldl_nil, Option.map_some]

/-! ## A store with an owner key (R446) -/

theorem leAt_append (a l : List Byte) (o n : Nat) : leAt (a ++ l) (a.length + o) n = leAt l o n := by
  induction n generalizing o with
  | zero => rfl
  | succ n ih =>
    have hb : byteAt (a ++ l) (a.length + o) = byteAt l o := by
      unfold byteAt
      rw [List.getD_append_right _ _ _ _ (Nat.le_add_right ..), Nat.add_sub_cancel_left]
    rw [leAt, leAt, hb, Nat.add_assoc, ih]

theorem leAt_leBytes (v n : Nat) : leAt (leBytes v n) 0 n = v % 256 ^ n := by
  induction n generalizing v with
  | zero => rw [leAt, Nat.pow_zero, Nat.mod_one]
  | succ n ih =>
    have htail : leAt (leBytes v (n + 1)) 1 n = v / 256 % 256 ^ n :=
      (leAt_append [BitVec.ofNat 8 v] (leBytes (v / 256) n) 0 n).trans (ih _)
    have hhead : byteAt (leBytes v (n + 1)) 0 = v % 256 := BitVec.toNat_ofNat v 8
    rw [leAt, hhead, htail, Nat.pow_succ', Nat.mod_mul]

/-- A record that names owner key 0 active, without its crc. -/
def ownerKeyBody : List Byte := leBytes 0x5A05 2 ++ [1, 0] ++ List.replicate 120 0xFF

/-- The record with its crc. -/
def ownerKeyRecord : List Byte := ownerKeyBody ++ leBytes (crc32c ownerKeyBody).toNat 4

theorem ownerKeyBody_length : ownerKeyBody.length = 124 := rfl

theorem ownerKeyRecord_length : ownerKeyRecord.length = 128 := by
  rw [ownerKeyRecord, List.length_append, ownerKeyBody_length]
  rfl

theorem recordOk_ownerKeyRecord : recordOk 0x5A05 ownerKeyRecord = true := by
  have htag : u16At ownerKeyRecord 0 = 0x5A05 := rfl
  have htake : ownerKeyRecord.take 124 = ownerKeyBody := List.take_left' ownerKeyBody_length
  have hcrc : u32At ownerKeyRecord 124 = (crc32c ownerKeyBody).toNat :=
    (leAt_append ownerKeyBody _ 0 4).trans ((leAt_leBytes _ 4).trans (Nat.mod_eq_of_lt (crc32c ownerKeyBody).isLt))
  unfold recordOk
  rw [htake, htag, hcrc]
  simp

/-- A store that holds that record alone. -/
def ownerKeyStore : Sw := Sw.reset.putBytes 0x1000 ownerKeyRecord

theorem keySlot_ownerKeyStore_zero : keySlot ownerKeyStore 0 = ownerKeyRecord := by
  refine List.ext_getElem (by simp [keySlot, Sw.bytes, readCells, ownerKeyRecord_length]) fun i _ hi => ?_
  simp only [keySlot, Sw.bytes, readCells, List.getElem_map, List.getElem_range]
  exact readCell_writeCells_in 0xFF [] 0x1000 ownerKeyRecord i hi

/-- Every other slot of the register is blank. -/
theorem keySlot_ownerKeyStore_succ (i : Nat) : keySlot ownerKeyStore (i + 1) = List.replicate 128 0xFF := by
  refine List.ext_getElem (by simp [keySlot, Sw.bytes, readCells]) fun j _ hj => ?_
  simp only [keySlot, Sw.bytes, readCells, List.getElem_map, List.getElem_range, List.getElem_replicate]
  exact readCell_writeCells_out 0xFF [] 0x1000 ownerKeyRecord _ (Or.inr (by rw [ownerKeyRecord_length]; omega))

theorem applyKey_blank (k : KMap (List Byte)) : applyKey k (List.replicate 128 0xFF) = k := by
  have htag : u16At (List.replicate 128 0xFF) 0 = 0xFFFF := rfl
  unfold applyKey recordOk
  rw [htag]
  rfl

theorem ownerKeys_ownerKeyStore : (ownerKeyStore.ownerKeys.find 0).isSome = true := by
  have hfirst : applyKey [] ownerKeyRecord = KMap.put [] 0 (sliceZ ownerKeyRecord 16 60) := by
    unfold applyKey
    rw [if_pos recordOk_ownerKeyRecord]
    rfl
  have hrest : ∀ k : KMap (List Byte), ∀ i ∈ (List.range 31).map Nat.succ, applyKey k (keySlot ownerKeyStore i) = k := by
    intro k i hi
    obtain ⟨j, -, rfl⟩ := List.mem_map.mp hi
    rw [Nat.succ_eq_add_one, keySlot_ownerKeyStore_succ, applyKey_blank]
  unfold Sw.ownerKeys
  rw [List.range_succ_eq_map, List.foldl_cons, foldl_fixed_of_mem (hrest _), keySlot_ownerKeyStore_zero, hfirst,
    KMap.find_put_self]
  rfl

/-! ## An image that changes no squad (R23, R24, R40) -/

/-- A partial image of format 5 for generation 0 and owner key 0: one empty ROUTES section, and four bytes of signature. -/
def imageOfNothing : List Byte :=
  leBytes imMagic 4 ++ leBytes 5 2 ++ leBytes 1 2 ++ leBytes 84 4 ++ leBytes 1 4 ++ leBytes 0 16 ++ leBytes 64 4 ++ leBytes 80 4
    ++ leBytes 4 4 ++ leBytes 0 20 ++ leBytes 2 2 ++ leBytes 32 2 ++ leBytes 64 4 ++ leBytes 0 8 ++ leBytes 0 4

/-- An APPLY of it that names squad 0 as changed while SL still verifies. -/
def loadNamingSquad : Load :=
  { c := { sq := 0, cid := 9 }, image := imageOfNothing, force := false, persist := false, step := .verify, next := SquadSet.empty,
    fresh := [], changed := [0], removed := [], retires := [] }

/-- GO with no squad, that APPLY, and owner key 0 active. -/
def goVerifying : State :=
  { State.reset with
    mc := { Mc.reset with phase := .go }, sl := { Sl.reset with load := some loadNamingSquad }, sw := ownerKeyStore }

theorem goVerifying_inGo : goVerifying.inGo = true := by
  decide

theorem goVerifying_key : (goVerifying.sw.ownerKeys.find (imKey loadNamingSquad.image)).isSome = true :=
  ownerKeys_ownerKeyStore

/-- The image passes every check, and leaves the set empty. -/
theorem goVerifying_verifies :
    verifyImage goVerifying.sl.set_ goVerifying.sl.gen goVerifying.qe.versions.image false true loadNamingSquad.image =
      .inr SquadSet.empty := by
  decide

/-- Refutes O53: the load that begins its drains names no changed squad, where the statement keeps the one it named before; no
hypothesis of the statement says that an APPLY being verified names none. -/
theorem not_imageStagingAndVerification : ¬ Obligations.ImageStagingAndVerification := by
  unfold Obligations.ImageStagingAndVerification
  rintro ⟨-, -, -, -, -, -, -, -, hnone, -⟩
  obtain ⟨k, hex, hk⟩ := hnone loadNamingSquad SquadSet.empty goVerifying goVerifying_inGo rfl rfl goVerifying_key
    goVerifying_verifies rfl rfl
  rw [exec_applyVerifyDone_inGo goVerifying_inGo, State.verified_good rfl rfl goVerifying_key goVerifying_verifies] at hex
  have hfound := State.beginApply_undrained (s := goVerifying) (l := loadNamingSquad) (next := SquadSet.empty) rfl rfl
  rw [Host.Outcome.next.inj hex, hk] at hfound
  cases hfound

end Sys2Proof.Machine
end

section
/-! A counterexample for the end of a retire (R43, R46): two squads of an arbitrary state may list one tile, and the tile that the
retired squad gives up then joins the other. -/

namespace Sys2Proof.Machine

/-- A compute squad of tile 7 alone. -/
def squadOfTile7 (st : SquadState) : Squad := { bareSquad 1 st with tiles := [7] }

/-- An unforced retire of squad 1 by one command. -/
def retireOfSquad1 : Retire := { cs := [{ sq := 0, cid := 9 }], squad := 1, force := false, drained := 0, aborted := 0 }

/-- GO with squads 1 and 2, which both list tile 7; the tile is squad 1's, whose retire has drained. -/
def goTileShared : State :=
  { State.reset with
    mc := { Mc.reset with phase := .go }
    qe := { Qe.reset with fetched := [{ sq := 0, cid := 9 }] }
    sl := { Sl.reset with
      set_ := { SquadSet.empty with squads := [(1, squadOfTile7 .draining), (2, squadOfTile7 .active)] }
      quiet := [(1, true)], retire := some retireOfSquad1 }
    tiles := [(7, { Tile.reset with squad := some 1 })] }

theorem exec_drainComplete_inGo {s : State} (h : s.inGo = true) (n : Nat) : exec (.drainComplete n) s = .next (s.drainEnds n) :=
  congrArg done (if_pos h)

theorem goTileShared_inGo : goTileShared.inGo = true := by
  decide

theorem goTileShared_drained : goTileShared.drained 1 = true := by
  decide

/-- With squad 1 gone, tile 7 is squad 2's. -/
theorem goTileShared_joins : ((goTileShared.drainEnds 1).tile 7).squad = some 2 := by
  decide

/-- Refutes O54: the tile of the retired squad joins the other squad that lists it, where the statement leaves it without one; no
hypothesis of the statement says that squads share no tile. -/
theorem not_appliesRetiresAndSweeps : ¬ Obligations.AppliesRetiresAndSweeps := by
  unfold Obligations.AppliesRetiresAndSweeps
  rintro ⟨-, -, -, -, -, -, -, -, -, -, -, -, -, -, hends, -⟩
  obtain ⟨t, hex, -, -, -, -, -, -, -, hfree, -⟩ := hends { sq := 0, cid := 9 } retireOfSquad1 goTileShared goTileShared_inGo rfl
    (Or.inr ⟨rfl, goTileShared_drained⟩) (by decide) rfl (by decide) rfl (List.mem_singleton_self _) rfl
  have hnone : (t.tile 7).squad = none := hfree 7 rfl
  rw [← Host.Outcome.next.inj ((exec_drainComplete_inGo goTileShared_inGo 1).symm.trans hex), goTileShared_joins] at hnone
  cases hnone

end Sys2Proof.Machine
end

section
/-! Lane memory through `Tile.put`, and the test port of a tile (R67, R68, R77 to R80). -/

namespace Sys2Proof

theorem readCell_writeCell_self (d : Byte) (m : List Host.Cell) (a : Nat) (b : Byte) :
    readCell d (writeCell d m a b) a = b := by
  unfold readCell writeCell
  split
  · next h =>
    unfold KMap.findD KMap.del
    rw [KMap.find_filter m (fun k => !(k == a)) a, h]
    simp
  · exact KMap.findD_put_self ..

theorem readCell_writeCell_ne (d : Byte) (m : List Host.Cell) {a k : Nat} (b : Byte) (h : k ≠ a) :
    readCell d (writeCell d m a b) k = readCell d m k := by
  unfold readCell writeCell
  split
  · unfold KMap.findD KMap.del
    rw [KMap.find_filter m (fun x => !(x == a)) k, if_pos (by simpa using h)]
  · exact KMap.findD_put_ne _ _ _ _ _ h

end Sys2Proof

namespace Sys2Proof.Machine

/-! ## Tiles of a state -/

@[simp] theorem State.tile_setTile_self (s : State) (n : Nat) (t : Tile) : (s.setTile n t).tile n = t :=
  KMap.findD_put_self ..

theorem State.tile_setTile_ne (s : State) {n m : Nat} (t : Tile) (h : m ≠ n) : (s.setTile n t).tile m = s.tile m :=
  KMap.findD_put_ne _ _ _ _ _ h

theorem State.tile_of_tiles {s t : State} (h : t.tiles = s.tiles) (n : Nat) : t.tile n = s.tile n :=
  congrArg (fun m : KMap Tile => m.findD n Tile.reset) h

/-! ## What a write leaves in lane memory -/

/-- Syndromes that stand after a write of `l` at `a`: those outside the bytes written. -/
def badOutside (bad : KMap (BitVec 5)) (a : Nat) (l : List Byte) : KMap (BitVec 5) :=
  bad.filter (fun e => e.1 < a || a + l.length ≤ e.1)

theorem find_badOutside_self (bad : KMap (BitVec 5)) (a : Nat) (b : Byte) : (badOutside bad a [b]).find a = none := by
  unfold badOutside
  rw [KMap.find_filter bad (fun k => decide (k < a) || decide (a + [b].length ≤ k)) a, if_neg (by simp)]

theorem find_badOutside_out (bad : KMap (BitVec 5)) {a : Nat} {l : List Byte} {k : Nat} (h : k < a ∨ a + l.length ≤ k) :
    (badOutside bad a l).find k = bad.find k := by
  unfold badOutside
  rw [KMap.find_filter bad (fun k => decide (k < a) || decide (a + l.length ≤ k)) k, if_pos (by simpa using h)]

/-- With no flip armed, a write stores its bytes and clears their syndromes. -/
theorem Tile.put_unarmed {t : Tile} (h : t.flip = 0) (a : Nat) (l : List Byte) :
    t.put a l = { t with lane := writeCells 0 t.lane a l, bad := badOutside t.bad a l } := by
  unfold Tile.put badOutside
  cases l with
  | nil => rfl
  | cons b l =>
    dsimp only
    rw [h, if_pos ⟨rfl, rfl⟩]

/-- The data bits and the check bits of a flip mask. -/
def flipData (m : W32) : Byte := m.setWidth 8
def flipCheck (m : W32) : BitVec 5 := (m >>> 8).setWidth 5

/-- The syndromes a byte at `a` leaves when the armed mask is stored with it. -/
def badFlipped (bad : KMap (BitVec 5)) (a : Nat) (v : BitVec 5) : KMap (BitVec 5) := if v = 0 then bad else bad.put a v

theorem find_badFlipped_ne (bad : KMap (BitVec 5)) {a k : Nat} (v : BitVec 5) (h : k ≠ a) :
    (badFlipped bad a v).find k = bad.find k := by
  unfold badFlipped
  split
  · rfl
  · exact KMap.find_put_ne _ _ _ _ h

/-- An armed flip is stored into the byte written and clears. -/
theorem Tile.put_armed {t : Tile} (h : ¬(flipData t.flip = 0 ∧ flipCheck t.flip = 0)) (a : Nat) (b : Byte) :
    t.put a [b] = { t with
      lane := writeCell 0 (writeCells 0 t.lane a [b]) a (b ^^^ flipData t.flip)
      bad := badFlipped (badOutside t.bad a [b]) a (flipSyndrome (flipData t.flip) (flipCheck t.flip)), flip := 0 } := by
  unfold Tile.put
  dsimp only
  exact if_neg h

/-- A mask of which some bit of [12:0] is set arms a flip. -/
theorem flip_armed {m : W32} (h : bitsW m 12 0 ≠ 0) : ¬(flipData m = 0 ∧ flipCheck m = 0) := by
  rintro ⟨hd, hc⟩
  have h1 := congrArg BitVec.toNat hd
  have h2 := congrArg BitVec.toNat hc
  simp only [flipData, flipCheck, BitVec.toNat_setWidth, BitVec.toNat_ushiftRight, Nat.shiftRight_eq_div_pow,
    show (BitVec.toNat (0 : Byte)) = 0 from rfl, show (BitVec.toNat (0 : BitVec 5)) = 0 from rfl] at h1 h2
  apply h
  unfold bitsW bitsN
  omega

/-- A byte reads the same where neither its cell nor its syndrome changed. -/
theorem Tile.laneByte_congr {t u : Tile} {a : Nat} (hl : readCell 0 t.lane a = readCell 0 u.lane a)
    (hb : t.bad.find a = u.bad.find a) : t.laneByte a = u.laneByte a := by
  unfold Tile.laneByte KMap.findD
  rw [hl, hb]

theorem synOf_zero : synOf 0 = .clean := rfl

/-- A clean byte reads as stored. -/
theorem Tile.laneByte_clean {t : Tile} {a : Nat} (h : t.bad.find a = none) : t.laneByte a = readCell 0 t.lane a := by
  unfold Tile.laneByte KMap.findD
  rw [h, Option.getD_none, synOf_zero]

/-- The byte written reads back clean. -/
theorem Tile.laneByte_put_self {t : Tile} (h : t.flip = 0) (a : Nat) (b : Byte) : (t.put a [b]).laneByte a = b := by
  rw [Tile.put_unarmed h, Tile.laneByte_clean (find_badOutside_self t.bad a b)]
  exact readCell_writeCells_in 0 t.lane a [b] 0 Nat.one_pos

/-- Any other byte reads as before. -/
theorem Tile.laneByte_put_ne {t : Tile} {a k : Nat} (b : Byte) (hk : k ≠ a) : (t.put a [b]).laneByte k = t.laneByte k := by
  have hout : k < a ∨ a + [b].length ≤ k := by rw [List.length_singleton]; omega
  by_cases h : flipData t.flip = 0 ∧ flipCheck t.flip = 0
  · have hput : t.put a [b] = { t with lane := writeCells 0 t.lane a [b], bad := badOutside t.bad a [b] } := if_pos h
    rw [hput]
    exact Tile.laneByte_congr (readCell_writeCells_out 0 t.lane a [b] k hout) (find_badOutside_out t.bad hout)
  · rw [Tile.put_armed h]
    refine Tile.laneByte_congr ?_ ?_
    · exact (readCell_writeCell_ne 0 _ _ hk).trans (readCell_writeCells_out 0 t.lane a [b] k hout)
    · exact (find_badFlipped_ne _ _ hk).trans (find_badOutside_out t.bad hout)

/-! ## The port (R78) -/

theorem Tile.portOpen_false {t : Tile} (h : t.squad ≠ none ∨ t.swept = false) : t.portOpen = false := by
  unfold Tile.portOpen
  rcases h with h | h
  · obtain ⟨m, hm⟩ := Option.ne_none_iff_exists'.mp h
    rw [hm]
    rfl
  · rw [h, Bool.and_false]

theorem Tile.portOpen_iff (t : Tile) : t.portOpen = true ↔ t.squad = none ∧ t.swept = true := by
  unfold Tile.portOpen
  rw [Bool.and_eq_true, Option.isNone_iff_eq_none]

theorem exec_tileLmWdata_live {s : State} (hv : s.vendorLive = true) {n : Nat} (hn : n < 1024) (v : W32) :
    exec (.tileLmWdata n v) s = .next (s.setTile n (if (s.tile n).portOpen then (s.tile n).put (s.tile n).lmAddr [v.setWidth 8]
      else { s.tile n with lmStatus := setEv (s.tile n).lmStatus 2 })) :=
  congrArg done (if_pos (by rw [hv]; exact decide_eq_true hn))

theorem exec_tileLmRdata_live {s : State} (hv : s.vendorLive = true) {n : Nat} (hn : n < 1024) :
    exec (.tileLmRdata n) s = .next (if (s.tile n).portOpen then
        { (s.portRead n).2 with busRead := leBytes (s.portRead n).1.toNat 4 }
      else { s.setTile n { s.tile n with lmStatus := setEv (s.tile n).lmStatus 2 } with busRead := leBytes 0 4 }) :=
  congrArg done (if_pos (by rw [hv]; exact decide_eq_true hn))

/-- A write of TILE_LM_ADDR reaches the tile of its window. -/
theorem exec_registerWrite_lmAddr {s : State} (hv : s.vendorLive = true) {n : Nat} (hn : n < 1024) (v : W32) :
    exec (.registerWrite { fn := 0, bar := 0, off := 0x1000040 + 0x4000 * n } (leBytes v.toNat 4)) s =
      .next (s.writeTile n 0x40 v) := by
  have hword : BitVec.ofNat 32 (u32At (leBytes v.toNat 4) 0) = v := by
    rw [u32At, leAt_leBytes, Nat.mod_eq_of_lt (show v.toNat < 256 ^ 4 from v.isLt), BitVec.ofNat_toNat, BitVec.setWidth_eq]
  have hvendor : isVendor (0x1000040 + 0x4000 * n) = true := by
    unfold isVendor
    simp only [Bool.or_eq_true, Bool.and_eq_true, decide_eq_true_eq]
    omega
  have hanswers : s.answers (0x1000040 + 0x4000 * n) = true := by
    unfold State.answers
    rw [State.linkUp_of_vendorLive hv, hv, Bool.or_true, Bool.and_self]
  have htile : (0x1000040 + 0x4000 * n - 0x1000000) / 0x4000 = n := by omega
  have hoff : (0x1000040 + 0x4000 * n) % 0x4000 = 0x40 := by omega
  refine congrArg done ((if_pos ⟨rfl, rfl⟩).trans ?_)
  unfold State.writeF0
  dsimp only
  rw [if_pos hvendor, if_pos ⟨rfl, by omega, hanswers⟩, hword]
  unfold State.writeVendor
  dsimp only
  rw [if_pos (by omega), htile, hoff]

/-- What a port read of a clean byte gives. -/
theorem State.portRead_clean {s : State} {n : Nat} (h : (s.tile n).bad.find (s.tile n).lmAddr = none) :
    s.portRead n = (readCell 0 (s.tile n).lane (s.tile n).lmAddr, s) := by
  unfold State.portRead KMap.findD
  dsimp only
  rw [h, Option.getD_none, synOf_zero, Tile.laneByte_clean h]

/-- Tile `t` once a port read met an uncorrectable byte. -/
def Tile.portUncorr (t : Tile) : Tile := { t with
  uncorrCnt := sat32 (t.uncorrCnt + 1), eccLast := eccLastWord t.lmAddr (t.bad.findD t.lmAddr 0) true
  lmStatus := setEv t.lmStatus 1 }

/-- Tile `t` once a port read corrected its byte. -/
def Tile.portCorr (t : Tile) : Tile := { t.put t.lmAddr [t.laneByte t.lmAddr] with
  corrCnt := sat32 (t.corrCnt + 1), eccLast := eccLastWord t.lmAddr (t.bad.findD t.lmAddr 0) false
  lmStatus := setEv t.lmStatus 0 }

theorem KMap.put_put {α : Type} (m : KMap α) (n : Nat) (v w : α) : (m.put n v).put n w = m.put n w := by
  induction m with
  | nil => simp [KMap.put]
  | cons e m ih =>
    obtain ⟨k, x⟩ := e
    simp only [KMap.put]
    split
    · simp [KMap.put]
    · split
      · simp [KMap.put]
      · next h1 h2 => simp [KMap.put, h1, h2, ih]

theorem State.setTile_setTile (s : State) (n : Nat) (t u : Tile) : (s.setTile n t).setTile n u = s.setTile n u :=
  congrArg (fun m => { s with tiles := m }) (KMap.put_put ..)

/-- A contained record without a squad and without jobs only posts. -/
theorem State.postContained_nothing (s : State) (a b : Nat) (x : W64) (p q r w : W32) :
    s.postContained a b x p q r w none [] = s.post a b 1 x p q r w := by
  unfold State.postContained
  exact ite_self _

theorem State.portRead_uncorr {s : State} {n : Nat} (h : synOf ((s.tile n).bad.findD (s.tile n).lmAddr 0) = .uncorr) :
    s.portRead n = (readCell 0 (s.tile n).lane (s.tile n).lmAddr,
      (s.setTile n (s.tile n).portUncorr).post (srcTile n) kEccUncorr 1 (BitVec.ofNat 64 (s.tile n).lmAddr)
        (((s.tile n).bad.findD (s.tile n).lmAddr 0).setWidth 32) 0 0 0) := by
  unfold State.portRead
  dsimp only
  rw [h]
  dsimp only
  rw [State.postContained_nothing]
  unfold State.laneUncorr
  dsimp only
  rw [State.tile_setTile_self, State.setTile_setTile]
  rfl

/-- A corrected byte: it is returned, written back and counted. -/
theorem State.portRead_corr {s : State} {n i : Nat} (h : synOf ((s.tile n).bad.findD (s.tile n).lmAddr 0) = .data i ∨
    synOf ((s.tile n).bad.findD (s.tile n).lmAddr 0) = .check) :
    (s.portRead n).1 = (s.tile n).laneByte (s.tile n).lmAddr ∧ (s.portRead n).2.tile n = (s.tile n).portCorr := by
  unfold State.portRead
  dsimp only
  rcases h with h | h <;>
  · rw [h]
    refine ⟨rfl, ?_⟩
    dsimp only
    rw [State.tile_setTile_self, State.laneCorrect, State.tile_of_tiles (State.postOnce_tiles ..), State.tile_setTile_self]
    rfl

/-- Settles O38: the port's five forms, through what a write of one byte leaves in lane memory. -/
theorem tilePort : Obligations.TilePort := by
  unfold Obligations.TilePort
  refine ⟨fun n v s hv hn hopen hflip => ?write, fun n v s hv hn hshut => ?writeDenied, fun n s hv hn hopen hclean => ?read,
    fun n s hv hn hshut => ?readDenied, fun n v s hv hn => ?address, fun n v s hv hn hopen hflip => ?writeArmed,
    fun n s hv hn hopen hsyn => ?readUncorr, fun n i s hv hn hopen hsyn hflip => ?readCorr⟩
  case write =>
    refine ⟨_, exec_tileLmWdata_live hv hn v, ?_⟩
    rw [if_pos hopen]
    refine ⟨?_, fun a ha => ?_, fun m hm => State.tile_setTile_ne s _ hm, ?_, rfl⟩
    · rw [State.tile_setTile_self, Tile.laneByte_put_self hflip]
    · rw [State.tile_setTile_self, Tile.laneByte_put_ne _ ha]
    · rw [State.tile_setTile_self, Tile.put_unarmed hflip]
  case writeDenied => rw [exec_tileLmWdata_live hv hn, if_neg (by rw [Tile.portOpen_false hshut]; exact Bool.false_ne_true)]
  case read => rw [exec_tileLmRdata_live hv hn, if_pos hopen, State.portRead_clean hclean]
  case readDenied =>
    rw [exec_tileLmRdata_live hv hn, if_neg (by rw [Tile.portOpen_false hshut]; exact Bool.false_ne_true)]
    rfl
  case address =>
    rw [exec_registerWrite_lmAddr hv hn]
    simp only [State.writeTile, Tile.portOpen_iff]
  case writeArmed =>
    have harmed := flip_armed hflip
    refine ⟨_, exec_tileLmWdata_live hv hn v, ?_⟩
    rw [if_pos hopen]
    refine ⟨?_, ?_, fun a ha => ?_, fun m hm => State.tile_setTile_ne s _ hm, ?_, rfl⟩
    · rw [State.tile_setTile_self, Tile.put_armed harmed]
    · rw [State.tile_setTile_self, Tile.put_armed harmed]
      exact readCell_writeCell_self ..
    · rw [State.tile_setTile_self, Tile.laneByte_put_ne _ ha]
    · rw [State.tile_setTile_self, Tile.put_armed harmed]
  case readUncorr =>
    refine ⟨_, exec_tileLmRdata_live hv hn, ?_⟩
    rw [if_pos hopen, State.portRead_uncorr hsyn]
    dsimp only
    have htile : ∀ m, State.tile { (s.setTile n (s.tile n).portUncorr).post (srcTile n) kEccUncorr 1
        (BitVec.ofNat 64 (s.tile n).lmAddr) (((s.tile n).bad.findD (s.tile n).lmAddr 0).setWidth 32) 0 0 0 with
        busRead := leBytes (readCell 0 (s.tile n).lane (s.tile n).lmAddr).toNat 4 } m =
        (s.setTile n (s.tile n).portUncorr).tile m := fun m => State.tile_of_tiles (State.post_tiles ..) m
    have hself := (htile n).trans (State.tile_setTile_self s n _)
    refine ⟨rfl, ?_, ?_, ?_, ?_, fun m hm => ?_, fun hready => ?_, ?_, ?_⟩
    · rw [hself]; rfl
    · rw [hself]; rfl
    · rw [hself]; rfl
    · rw [hself]; rfl
    · rw [htile, State.tile_setTile_ne s _ hm]
    · exact State.post_recordWritten (s.setTile n (s.tile n).portUncorr) _ _ _ _ _ _ _ _ hready
    · simp
    · simp
  case readCorr =>
    obtain ⟨hbyte, htile⟩ := State.portRead_corr hsyn
    refine ⟨_, exec_tileLmRdata_live hv hn, ?_⟩
    rw [if_pos hopen, hbyte]
    have htile' : State.tile { (s.portRead n).2 with busRead := leBytes ((s.tile n).laneByte (s.tile n).lmAddr).toNat 4 } n =
      (s.tile n).portCorr := htile
    refine ⟨rfl, ?_, ?_, fun a => ?_, ?_⟩
    · rw [htile']; rfl
    · rw [htile']; rfl
    · rw [htile']
      by_cases ha : a = (s.tile n).lmAddr
      · rw [ha]
        exact Tile.laneByte_put_self hflip ..
      · exact Tile.laneByte_put_ne _ ha
    · rw [htile']
      show (Tile.put _ _ _).bad.find _ = none
      rw [Tile.put_unarmed hflip]
      exact find_badOutside_self ..

end Sys2Proof.Machine
end

section
/-! The steps of BLOCKS, the entry to GO, and the ways back to BLOCKS from PS4 and from a fatal clear (R383 to R396, R414, R429). -/

namespace Sys2Proof.Machine

/-! ## The commands where they act -/

theorem exec_enterBlocks_cold {s : State} (hp : s.mc.phase = .marks) (hs : s.mc.storeDone = true) (ms : Nat) :
    exec (.enterBlocks ms) s = .next (s.blocksCold ms) :=
  congrArg done (if_pos (by rw [hp, hs]; rfl))

theorem exec_enterBlocks_fatal {s : State} {b : ClearBy} (hp : s.mc.phase ≠ .marks) (hb : s.mc.fatalClear = some b)
    (hh : s.halted = true) (ms : Nat) : exec (.enterBlocks ms) s = .next (s.blocksFatal b) := by
  have hm : ¬((s.mc.phase == .marks && s.mc.storeDone) = true) := fun h =>
    hp (beq_iff_eq.mp (Bool.and_eq_true_iff.mp h).1)
  refine congrArg done ((if_neg hm).trans ?_)
  rw [hb]
  exact if_pos hh

theorem exec_dramTrainingDone_waits {s : State} {k : Nat} (hb : s.inBlocks = true) (hk : k < 16) (hr : k ∉ s.rl.ntReady)
    (ht : k ∉ s.mc.trained) (ha : s.mc.attempts.findD k 0 < 3) (ok : Bool) :
    exec (.dramTrainingDone k ok) s = .next (s.trained k ok) :=
  congrArg done (if_pos (by simp [hb, hk, hr, ht, ha]))

theorem exec_ntSweepDone_trained {s : State} {k : Nat} (hb : s.inBlocks = true) (ht : k ∈ s.mc.trained) :
    exec (.ntSweepDone k) s = .next (s.stackSwept k) :=
  congrArg done (if_pos (by simp [hb, ht]))

theorem exec_bootImageApply_ready {s : State} (hb : s.inBlocks = true) (hn : s.ntAll = true) (ht : s.allSwept = true)
    (hi : s.mc.imageDone = false) : exec .bootImageApply s = .next s.applyBoot :=
  congrArg done (if_pos (by rw [hb, hn, ht, hi]; rfl))

theorem exec_mapReplayDone_ready {s : State} (hb : s.inBlocks = true) (hn : s.ntAll = true) (hr : s.mm.replayed = false)
    (ms : Nat) : exec (.mapReplayDone ms) s = .next (s.replayed ms) :=
  congrArg done (if_pos (by rw [hb, hn, hr]; rfl))

theorem exec_enterGo_may {s : State} (h : s.mayGo = true) (ms : Nat) : exec (.enterGo ms) s = .next (s.enterGo ms) :=
  congrArg done (if_pos h)

theorem exec_ps4Exit_wanted {s : State} {n : Nat} (hg : s.inGo = true) (h4 : s.qe.ps = 4) (hw : s.qe.psWant = some n) (hn : n ≠ 4) :
    exec .ps4Exit s = .next (s.blocksPs4 n) := by
  have hc : (s.inGo && s.qe.ps == 4 && n != 4) = true := by simp [hg, h4, hn]
  refine congrArg done ?_
  rw [hw]
  exact if_pos hc

/-! ## What the steps do -/

/-- ENTER_BLOCKS with no fatal cause standing (R383). -/
theorem State.blocksCold_eq {s : State} (hf : s.fl.fatalStands = false) (ms : Nat) :
    s.blocksCold ms = { s with
      mc := { s.mc with phase := .blocks, marksMs := ms % 65536, path := .cold, event := setEv s.mc.event 1 }
      sw := s.sw.cleanPairs
      qe := { s.qe with ready := s.qe.enabled } } := by
  have hn : ¬(s.fl.fatalStands = true) := by rw [hf]; exact Bool.false_ne_true
  unfold State.blocksCold State.takeReady
  dsimp only
  rw [if_neg hn]

/-- A training that fails for the first or second time is only counted (R385). -/
theorem State.trained_false {s : State} {k : Nat} (h : s.mc.attempts.findD k 0 < 2) :
    s.trained k false = { s with mc := { s.mc with attempts := s.mc.attempts.put k (s.mc.attempts.findD k 0 + 1) } } := by
  unfold State.trained
  dsimp only
  rw [if_neg Bool.false_ne_true, if_neg (by omega)]

/-- A swept stack is ready, waits for nothing, and its bytes are gone; FL moves its buffered records once every stack is. -/
theorem State.stackSwept_spec (s : State) (k : Nat) :
    (s.stackSwept k).rl = { s.rl with
      ntReady := k :: s.rl.ntReady, near := s.rl.near.filter (fun e => e.1 / 4096 % 16 != k)
      probe := s.rl.probe.filter (fun e => e.1 / 4096 % 16 != k), flipLast := s.rl.flipLast.adjust k (fun w => w &&& 0x7FFFFFFF) } ∧
    (s.stackSwept k).mc = { s.mc with trained := s.mc.trained.filter (fun x => x != k) } ∧
    s.stackSwept k = { s with mc := (s.stackSwept k).mc, rl := (s.stackSwept k).rl, fl := (s.stackSwept k).fl } ∧
    ((s.stackSwept k).ntAll = false → (s.stackSwept k).fl = s.fl) := by
  unfold State.stackSwept
  dsimp only
  split
  · next h => exact ⟨rfl, rfl, rfl, fun hn => absurd (h.symm.trans hn) Bool.true_eq_false_eq_False⟩
  · exact ⟨rfl, rfl, rfl, fun _ => rfl⟩

/-- A byte of the near tier after the sweep of stack `k` (R385). -/
theorem readCell_swept (m : List Host.Cell) (k a : Nat) :
    readCell 0 (m.filter (fun e => e.1 / 4096 % 16 != k)) a = if a / 4096 % 16 = k then 0 else readCell 0 m a := by
  unfold readCell KMap.findD
  rw [KMap.find_filter m (fun x => x / 4096 % 16 != k) a]
  by_cases h : a / 4096 % 16 = k <;> simp [h]

/-- Step B4 without a boot image (R386). -/
theorem State.applyBoot_none {s : State} (h : s.mc.bootImage = []) :
    s.applyBoot = { s with mc := { s.mc with imageDone := true, noImage := true } } := by
  unfold State.applyBoot
  rw [h]
  rfl

/-- Step B4 with a boot image (R386). -/
theorem State.applyBoot_image {s : State} (h : s.mc.bootImage ≠ []) :
    s.applyBoot.sl.gen = 1 ∧ s.applyBoot.sl.imageId = BitVec.ofNat 64 (imId s.mc.bootImage) ∧
    s.applyBoot.sl.format = imFormat s.mc.bootImage ∧ s.applyBoot.se.measure = List.replicate 32 0 := by
  unfold State.applyBoot
  dsimp only
  rw [if_neg (by simpa using h)]
  exact ⟨rfl, rfl, rfl, rfl⟩

/-- Pacing is noted in two fields of MM. -/
theorem Mm.repace_eq (m : Mm) : m.repace = { m with paced := m.repace.paced, event := m.repace.event } := by
  unfold Mm.repace
  split
  · split <;> rfl
  · rfl

/-- With no store command held and no write lost, replay changes MM alone. -/
theorem State.replayed_eq {s : State} (hstore : s.qe.store = []) (hlost : s.mm.replayMap.lostWrites = []) (ms : Nat) :
    s.replayed ms = { s with mm := (s.replayed ms).mm } := by
  unfold State.replayed State.serveHeld Qe.addLost
  dsimp only
  rw [hlost]
  simp [hstore]

/-- What replay leaves in MM (R195, R394). -/
theorem State.replayed_mm {s : State} (hstore : s.qe.store = []) (hlost : s.mm.replayMap.lostWrites = []) (ms : Nat) :
    (s.replayed ms).mm.replayed = true ∧ (s.replayed ms).mm.replayMs = satTo 0xFFFF ms ∧
    (s.replayed ms).mm.epoch = (if s.mc.path = .cold then s.mm.replayMap.mediumEpoch + 1
      else max s.mm.replayMap.epoch (s.mm.replayMap.mediumEpoch + 1)) ∧
    (s.replayed ms).mm.stripes = s.mm.replayMap.stripes.filter (fun x => x.2.verified) ∧
    (s.replayed ms).mm.openStripe = none ∧
    (s.replayed ms).mm.clean = ((s.mm.replayMap.stripes.filter (fun x => x.2.verified)).length == s.mm.replayMap.stripes.length
      && !s.mm.replayMap.lossDirty) ∧
    (s.replayed ms).mm.pages = s.mm.replayMap.pages ∧ (s.replayed ms).mm.bulk = s.mm.replayMap.bulk := by
  unfold State.replayed State.serveHeld Qe.addLost
  dsimp only
  rw [hlost]
  simp only [List.isEmpty_nil, if_true, hstore, List.filter_nil, List.foldl_nil]
  rw [Mm.repace_eq]
  exact ⟨rfl, rfl, rfl, rfl, rfl, rfl, rfl, rfl⟩

/-- ENTER_GO in the power state GO has (R387, R396). -/
theorem State.enterGo_eq {s : State} (h : s.qe.ps = s.qe.psAtGo) (ms : Nat) :
    s.enterGo ms = { s with
      mc := { s.mc with phase := .go, blocksMs := satTo 0xFFFF ms, event := setEv s.mc.event 0 }
      ns := { s.ns with table := [], full := false }
      pc := if s.pc.bandOn then s.pc.settleBand else s.pc } :=
  if_pos h

/-- Every tile a panel sweep leaves is one that waits for its sweep (R70). -/
theorem State.resweep_unswept (s : State) : ∀ e ∈ s.resweep.tiles, e.2.swept = false := by
  intro e he
  obtain ⟨x, -, rfl⟩ := List.mem_map.mp he
  rfl

theorem State.clearEnds_zero_fl (s : State) (b : ClearBy) :
    (s.clearEnds b 0).fl = { s.fl with result := 0, done := true } := by
  unfold State.clearEnds
  cases b <;> rfl

theorem State.clearEnds_eq (s : State) (b : ClearBy) (r : Nat) :
    s.clearEnds b r = { s with fl := (s.clearEnds b r).fl, qe := (s.clearEnds b r).qe } := by
  unfold State.clearEnds
  cases b <;> rfl

/-- The BLOCKS state a fatal clear without a retraining begins, before the panel waits for its sweep (R414). -/
def State.fatalCleared (s : State) : State := { s with
  fl := { s.fl with
    standing := s.fl.standing.filter (fun x => x.record.cls != 2)
    standingFull := (s.fl.standing.filter (fun x => x.record.cls != 2)).any (fun y => !y.entry), critFatal := false }
  mc := { s.mc with phase := .blocks, entry := 4, path := .fatalKept, fatalClear := none, retrain := [], event := setEv s.mc.event 1 }
  power := { s.power with tileSupply := true, dramRail := true, badRails := [] } }

theorem State.blocksFatal_eq {s : State} (h : s.mc.retrain = []) (b : ClearBy) :
    s.blocksFatal b = (s.fatalCleared.resweep.clearEnds b 0).alert := by
  unfold State.blocksFatal State.fatalCleared
  rw [h]
  rfl

/-- Settles O9: each step where its conditions hold. -/
theorem blocksSteps : Obligations.BlocksSteps := by
  unfold Obligations.BlocksSteps
  refine ⟨fun ms s hp hs hf => ?cold, fun k s hb hk hr ht ha => ?trains, fun k s hb hk hr ht ha => ?fails,
    fun k s hb ht => ?swept, fun s hb hn ht hi himg => ?noImage, fun s hb hn ht hi himg => ?image,
    fun ms s hb hn hr hstore hlost => ?replay, fun s hb hr hf => ?directory, fun s hb hr hf => ?fcPath,
    fun ms s hg hps => ?go, fun n s hg h4 hw hn => ?ps4, fun ms b s hp hb hh hr => ?fatal⟩
  case cold => rw [exec_enterBlocks_cold hp hs, State.blocksCold_eq hf]
  case trains => exact exec_dramTrainingDone_waits hb hk hr ht ha true
  case fails => rw [exec_dramTrainingDone_waits hb hk hr ht (by omega), State.trained_false ha]
  case swept =>
    obtain ⟨hrl, hmc, hframe, hfl⟩ := State.stackSwept_spec s k
    refine ⟨_, exec_ntSweepDone_trained hb ht, ?_, ?_, fun a => ?_, ?_, ?_, hframe, hfl⟩
    · rw [hrl]
    · rw [hmc]
      simp
    · rw [hrl]
      exact readCell_swept ..
    · rw [hrl]
    · rw [hrl]
  case noImage => rw [exec_bootImageApply_ready hb hn ht hi, State.applyBoot_none himg]
  case image => exact ⟨_, exec_bootImageApply_ready hb hn ht hi, State.applyBoot_image himg⟩
  case replay =>
    obtain ⟨hrep, hms, hepoch, hstripes, hopen, hclean, hpages, hbulk⟩ := State.replayed_mm hstore hlost ms
    exact ⟨_, exec_mapReplayDone_ready hb hn hr ms, hrep, hms, hepoch, hstripes, hopen, hclean, hpages, hbulk,
      State.replayed_eq hstore hlost ms⟩
  case directory => exact congrArg done (if_pos (by rw [hb, hr, hf]; rfl))
  case fcPath => exact congrArg done (if_pos (by rw [hb, hr, hf]; rfl))
  case go =>
    refine ⟨_, exec_enterGo_may hg ms, ?_⟩
    rw [State.enterGo_eq hps]
    exact ⟨rfl, rfl, rfl, rfl, fun hband => if_neg (by rw [hband]; exact Bool.false_ne_true)⟩
  case ps4 => exact ⟨_, exec_ps4Exit_wanted hg h4 hw hn, rfl, rfl, rfl, rfl, rfl, rfl, State.resweep_unswept _, rfl, rfl, rfl, rfl, rfl⟩
  case fatal =>
    refine ⟨_, exec_enterBlocks_fatal hp hb hh ms, ?_⟩
    rw [State.blocksFatal_eq hr, State.alert_eq, State.clearEnds_eq]
    dsimp only
    rw [State.clearEnds_zero_fl]
    exact ⟨rfl, rfl, rfl, rfl, rfl, rfl, rfl, rfl, rfl, State.resweep_unswept _⟩

end Sys2Proof.Machine
end

section
/-! A counterexample for the side-list merge (R274): an arbitrary index may hold a segment whose number is not below the next segment
number, and the merge leaves it there. -/

namespace Sys2Proof.Machine

/-- An item committed at epoch 3 and not deleted. -/
def keptItem : SideItem := { id := 7, attr := 0, code := [], commit := some 3, death := none }

/-- A live segment with those items. -/
def segmentOf (items : List SideItem) (object : Nat) : Segment := { items := items, addr := 0, object := object, gone := false }

/-- Segment 0 is empty, segment 5 holds an item, and the next segment number is 1. -/
def indexNumberedAhead : Index :=
  { squad := 2, region := 7, super := [], slot := 0, lists := [], segments := [(0, segmentOf [] 9), (5, segmentOf [keptItem] 10)],
    nextSeg := 1, open_ := [], dead := [], deadMask := [], tombs := [], logUsed := 0, commit := none, waiting := [] }

/-- GO with that index, whose side-list merge is granted. -/
def goNumberedAhead : State :=
  { State.reset with
    mc := { Mc.reset with phase := .go }, pc := { Pacer.reset with bgRun := [(2, 1)] }, idx := [(1, indexNumberedAhead)] }

theorem exec_sideListMerge_granted {s : State} {n : Nat} (hg : s.inGo = true) (hb : s.atBoundary n = true)
    (hr : s.mayRun 2 n = true) (l : List Nat) :
    exec (.sideListMerge n l) s = .next ((s.purgeSegments.mergeSegments n l).endBg 2 n) :=
  congrArg done (if_pos (by rw [hg, hb, hr]; rfl))

theorem goNumberedAhead_inGo : goNumberedAhead.inGo = true := by
  decide

/-- The merge of segment 0 leaves segment 5 in place. -/
theorem goNumberedAhead_merges :
    ((goNumberedAhead.purgeSegments.mergeSegments 1 [0]).endBg 2 1).idx.find 1 =
      some { indexNumberedAhead with segments := [(5, segmentOf [keptItem] 10)] } := by
  decide

/-- Refutes O45: a segment numbered above the next segment number stays through the merge, where the statement gives every such
segment to the merged items; no hypothesis of the statement says that the numbers in use lie below the next one. -/
theorem not_searchResults : ¬ Obligations.SearchResults := by
  unfold Obligations.SearchResults
  rintro ⟨-, -, -, -, -, -, -, -, hmerge, -⟩
  obtain ⟨hfits, -⟩ := hmerge 1 [0] indexNumberedAhead [] goNumberedAhead goNumberedAhead_inGo (by decide) (by decide) (by decide)
    ⟨rfl, rfl⟩ (by decide)
  obtain ⟨t, y, hex, hfind, -, -, -, hnew, -⟩ := hfits (by decide) (by decide)
  rw [← Host.Outcome.next.inj ((exec_sideListMerge_granted goNumberedAhead_inGo (by decide) (by decide) [0]).symm.trans hex),
    goNumberedAhead_merges] at hfind
  obtain rfl := Option.some.inj hfind
  exact absurd (hnew 5 (segmentOf [keptItem] 10) (by decide) rfl keptItem (List.mem_singleton_self _)) List.not_mem_nil

end Sys2Proof.Machine
end

section
/-! A counterexample for a baton fill that meets unreadable namespace data (R162, R410): the job may be one with effects, which ends
as aborted and not as one whose data could not be recovered. -/

namespace Sys2Proof.Machine

/-- A LOAD_BATON of job 1 for object 9, into latch 0. -/
def loadOfJob1 : List Byte := padTo 64 (leBytes 0x09 4 ++ leBytes 1 4 ++ leBytes 0 8 ++ leBytes 9 4)

/-- That op, in flight on the relay unit. -/
def fillOfJob1 : OpInFlight :=
  { unit := 3, idx := 0, desc := loadOfJob1, reads := [], writes := [], gives := none, counts := none }

/-- An admitted TRAIN, which pins object 9. -/
def trainPinning : Job := { bareJob 0x20 .admitted with pins := [{ object := 9, version := 1, near := true }] }

/-- GO with that job, and its LOAD_BATON in flight on tile 5 of its squad. -/
def goTrainFill : State :=
  { goBare { bareSquad 4 .active with tiles := [5] } trainPinning with
    rl := { Rl.reset with ntReady := List.range 16 }
    tiles := [(5, { Tile.reset with swept := true, squad := some 2, flight := [fillOfJob1] })] }

theorem exec_batonFillDone_ends {s : State} {n l m : Nat} {f : OpInFlight} {j : Job} {p : Pin}
    (hf : (s.tile n).flight.find? (fun f => f.unit == 3 && byteAt f.desc 24 == l) = some f) (hm : (s.tile n).squad = some m)
    (hj : s.job (opTag f.desc) = some j) (hp : s.pinOf (opTag f.desc) (u32At f.desc 16) = some p) (hs : s.rl.ftShare % 512 ≠ 0)
    (r : FillResult) : exec (.batonFillDone n l r) s = .next (s.fillEnds m n l f j p r) := by
  refine congrArg done ?_
  rw [hf, hm]
  dsimp only
  rw [hj, hp]
  dsimp only
  rw [beq_eq_false_iff_ne.mpr hs]
  rfl

/-- The TRAIN's command completes as aborted. -/
theorem goTrainFill_aborts :
    (goTrainFill.fillEnds 2 5 0 fillOfJob1 trainPinning { object := 9, version := 1, near := true } (.nsUncorr 0 1 0)).qe.posted =
      [mkCompletion trainPinning.c stJobAborted 0 0 []] ∧
    (goTrainFill.fillEnds 2 5 0 fillOfJob1 trainPinning { object := 9, version := 1, near := true } (.nsUncorr 0 1 0)).qe.cqWait =
      [] := by
  decide

theorem stUnrecovered_ne_stJobAborted (c : CmdId) (dw : Nat) :
    mkCompletion c stUnrecovered dw 0 [] ≠ mkCompletion c stJobAborted 0 0 [] := by
  intro h
  have hcode : (0x81 : Nat) = 0x80 := congrArg Completion.sc h
  omega

/-- Refutes O56: a TRAIN whose baton fill meets unreadable namespace data ends with JOB_ABORTED_FAULT, where the statement gives
every job the status of unrecovered data. -/
theorem not_tileTransfersAndCompletions : ¬ Obligations.TileTransfersAndCompletions := by
  unfold Obligations.TileTransfersAndCompletions
  rintro ⟨-, -, -, -, -, -, -, -, -, -, -, -, -, -, -, -, -, -, -, -, -, -, hlost, -⟩
  obtain ⟨t, dw, hex, -, -, -, -, -, -, hdone, -⟩ := hlost 5 0 0 1 0 2 fillOfJob1 trainPinning
    { object := 9, version := 1, near := true } goTrainFill rfl rfl rfl rfl rfl rfl (by decide) (by decide) (by decide) (by decide)
  obtain ⟨hposted, hwait⟩ := goTrainFill_aborts
  rw [← Host.Outcome.next.inj ((exec_batonFillDone_ends (f := fillOfJob1) (j := trainPinning)
    (p := { object := 9, version := 1, near := true }) rfl rfl rfl rfl (by decide) (.nsUncorr 0 1 0)).symm.trans hex),
    hposted, hwait] at hdone
  rcases hdone with h | h
  · exact stUnrecovered_ne_stJobAborted _ _ (List.mem_singleton.mp h)
  · exact List.not_mem_nil h

end Sys2Proof.Machine
end

section
/-! A counterexample for a contained message on a fenced squad (R408, R409): the message may name an object, whose near-tier copy goes
with what waits on it, and a publish that waits for it ends through JD. -/

namespace Sys2Proof.Machine

/-- An object in promotion, not pinned, with a publish that waits for its near-tier copy. -/
def promotingObject : DirEntry :=
  { cur := Version.fresh 1 1 7 (some 0) .none, old := none, state := .promoting, evictPending := false, discardPending := false,
    damaged := false, mark := 0
    waits := [.publishNear { sq := 0, cid := 9 } { nsid := 0, d10 := 0, d11 := 0, d12 := 0, d13 := 0, d14 := 0, d15 := 0 }]
    segment := false, condemned := false }

/-- GO with squad 2 fenced, and object 9 in promotion. -/
def goFencedPromoting : State :=
  { State.reset with
    mc := { Mc.reset with phase := .go }
    qe := { Qe.reset with fetched := [{ sq := 0, cid := 9 }] }
    sl := { Sl.reset with set_ := { SquadSet.empty with squads := [(2, bareSquad 1 .fenced)] } }
    rl := { Rl.reset with ntReady := List.range 16, dir := [(9, promotingObject)] } }

/-- Tile 5 of squad 2 reports a PROTOCOL error that touches object 9. -/
def messageOfObject9 : FaultMsg :=
  { source := 5, kind := kProtocol, cls := 1, addr := 0, d0 := 0, d1 := 0, d2 := 0, d3 := 0, squad := some 2, tile := some 5,
    jobs := [], object := some 9 }

theorem exec_faultMessage_posts {s : State} {m : FaultMsg} (hl : s.linkUp = true)
    (hp : posts m.source m.kind m.cls (bitW m.d1 0) = true) : exec (.faultMessage m) s = .next (s.faultMessage m) :=
  congrArg done (if_neg (by rw [hl, hp]; exact Bool.false_ne_true))

/-- The publish ends with a progress record. -/
theorem goFencedPromoting_refuses : (goFencedPromoting.faultMessage messageOfObject9).jd.nextTag = 1 := by
  decide

/-- Refutes O57: the message takes the near-tier copy of the object it names, and JD ends the publish that waits for it, where the
statement leaves JD as it is. -/
theorem not_faultMessagesAndTheirEffects : ¬ Obligations.FaultMessagesAndTheirEffects := by
  unfold Obligations.FaultMessagesAndTheirEffects
  rintro ⟨-, -, -, -, -, -, -, hfenced, -⟩
  obtain ⟨t, hex, -, -, hjd, -⟩ := hfenced messageOfObject9 2 (bareSquad 1 .fenced) goFencedPromoting (by decide) (by decide) rfl
    (by decide) rfl rfl rfl rfl (by decide) (by decide) (by decide)
  have htag : t.jd.nextTag = 0 := congrArg Jd.nextTag hjd
  rw [← Host.Outcome.next.inj ((exec_faultMessage_posts (by decide) (by decide)).symm.trans hex), goFencedPromoting_refuses] at htag
  cases htag

end Sys2Proof.Machine
end

section
/-! How a tile issues an op at once (R60, R61, R65, R68): what the decoder and the hazard checks see is the same before and after the
queue takes the descriptor, and nothing else moves but the op's own effect. -/

namespace Sys2Proof.Machine

/-! ## What the checks see of a tile -/

/-- Two tiles agree on all that decode, reads and hazard checks look at. -/
structure Tile.Sees (t u : Tile) : Prop where
  squad : t.squad = u.squad
  lane : t.lane = u.lane
  bad : t.bad = u.bad
  latches : t.latches = u.latches
  ctxs : t.ctxs = u.ctxs
  flight : t.flight = u.flight

theorem Tile.Sees.bytes {t u : Tile} (h : t.Sees u) : t.bytes = u.bytes := by
  funext a n
  unfold Tile.bytes Tile.laneByte
  rw [h.bad, h.lane]

theorem Tile.Sees.latchReady {t u : Tile} (h : t.Sees u) (d : List Byte) : t.latchReady d = u.latchReady d := by
  unfold Tile.latchReady
  rw [h.latches, h.flight]

theorem Tile.Sees.unitFree {t u : Tile} (h : t.Sees u) (d : List Byte) : t.unitFree d = u.unitFree d := by
  unfold Tile.unitFree
  rw [h.flight]

theorem Tile.Sees.mayIssue {t u : Tile} (h : t.Sees u) (hs : t.sems = u.sems) (d : List Byte) : t.mayIssue d = u.mayIssue d := by
  unfold Tile.mayIssue Tile.semReady
  rw [h.latchReady, h.flight, hs]

/-- A property of a tile that the new tile shares is the same of every tile. -/
theorem State.tile_setTile_apply {α : Type} (f : Tile → α) {s : State} {n : Nat} {u : Tile} (h : f u = f (s.tile n)) (x : Nat) :
    f ((s.setTile n u).tile x) = f (s.tile x) := by
  by_cases hx : x = n
  · rw [hx, State.tile_setTile_self, h]
  · rw [State.tile_setTile_ne s u hx]

section
variable {s : State} {n : Nat} {u : Tile}

theorem State.gatherPieces_setTile (h : u.Sees (s.tile n)) (k : Nat) (d : List Byte) :
    (s.setTile n u).gatherPieces k d = s.gatherPieces k d := by
  unfold State.gatherPieces State.gatherAddrs
  rw [State.tile_setTile_apply Tile.bytes h.bytes]

theorem State.routeOk_setTile (h : u.Sees (s.tile n)) (m id kind k : Nat) :
    (s.setTile n u).routeOk m id kind k = s.routeOk m id kind k := by
  unfold State.routeOk
  rw [State.tile_setTile_apply Tile.squad h.squad, State.setTile_sl]

theorem State.xorReads_setTile (h : u.Sees (s.tile n)) (k : Nat) (d : List Byte) :
    (s.setTile n u).xorReads k d = s.xorReads k d := by
  unfold State.xorReads Tile.heapReads
  dsimp only
  rw [State.tile_setTile_apply Tile.latches h.latches, State.tile_setTile_apply Tile.ctxs h.ctxs]
  rfl

theorem State.opReads_setTile (h : u.Sees (s.tile n)) (q : Squad) (k : Nat) (d : List Byte) :
    (s.setTile n u).opReads q k d = s.opReads q k d := by
  unfold State.opReads Tile.heapReads
  rw [State.tile_setTile_apply Tile.ctxs h.ctxs, State.xorReads_setTile h, State.gatherPieces_setTile h]

theorem State.opWrites_setTile (h : u.Sees (s.tile n)) (q : Squad) (k : Nat) (d : List Byte) :
    (s.setTile n u).opWrites q k d = s.opWrites q k d := by
  unfold State.opWrites Tile.heapWrites
  rw [State.tile_setTile_apply Tile.ctxs h.ctxs]

theorem State.piecesOk_setTile (h : u.Sees (s.tile n)) (m k : Nat) (d : List Byte) :
    (s.setTile n u).piecesOk m k d = s.piecesOk m k d := by
  unfold State.piecesOk
  rw [State.gatherPieces_setTile h]
  rfl

theorem State.decodeOk_setTile (h : u.Sees (s.tile n)) (q : Squad) (m k : Nat) (d : List Byte) :
    (s.setTile n u).decodeOk q m k d = s.decodeOk q m k d := by
  unfold State.decodeOk State.matmulOk State.reduceOk State.gatherOk State.scatterOk State.filterOk State.topkOk State.statsOk
  simp only [State.opReads_setTile h, State.opWrites_setTile h, State.routeOk_setTile h]
  rfl

/-- Every op in flight afterwards was in flight before. -/
theorem State.mem_flights_setTile (h : u.Sees (s.tile n)) {k unit : Nat} {f : OpInFlight}
    (hf : f ∈ (s.setTile n u).flights k unit) : f ∈ s.flights k unit := by
  unfold State.flights at hf ⊢
  obtain ⟨e, he, hfe⟩ := List.mem_flatMap.mp hf
  rcases mem_put_val he with rfl | he
  · dsimp only at hfe
    rw [h.flight] at hfe
    cases hfind : s.tiles.find n with
    | none =>
      have hnone : s.tile n = Tile.reset := by
        unfold State.tile KMap.findD
        rw [hfind, Option.getD_none]
      rw [hnone] at hfe
      split at hfe <;> exact absurd hfe List.not_mem_nil
    | some t =>
      have hsome : s.tile n = t := by
        unfold State.tile KMap.findD
        rw [hfind, Option.getD_some]
      rw [hsome] at hfe
      exact List.mem_flatMap.mpr ⟨(n, t), KMap.mem_of_find hfind, hfe⟩
  · exact List.mem_flatMap.mpr ⟨e, he, hfe⟩

theorem State.racedReads_setTile (h : u.Sees (s.tile n)) {k : Nat} {d : List Byte} {rd : List (Nat × Nat × Nat)}
    (hr : s.racedReads k d rd = []) : (s.setTile n u).racedReads k d rd = [] := by
  unfold State.racedReads at hr ⊢
  rw [List.filter_eq_nil_iff] at hr ⊢
  intro w hw
  obtain ⟨f, hf, hwf⟩ := List.mem_flatMap.mp hw
  exact hr w (List.mem_flatMap.mpr ⟨f, State.mem_flights_setTile h hf, hwf⟩)

theorem anyMeet_mono {as bs cs : List (Nat × Nat × Nat)} (h : ∀ x ∈ bs, x ∈ cs) (hm : anyMeet as bs = true) :
    anyMeet as cs = true := by
  unfold anyMeet at hm ⊢
  obtain ⟨a, ha, hab⟩ := List.any_eq_true.mp hm
  obtain ⟨b, hb, hmeet⟩ := List.any_eq_true.mp hab
  exact List.any_eq_true.mpr ⟨a, ha, List.any_eq_true.mpr ⟨b, h b hb, hmeet⟩⟩

theorem State.racedWrites_setTile (h : u.Sees (s.tile n)) {k : Nat} {d : List Byte} {rd wr : List (Nat × Nat × Nat)}
    (hw : s.racedWrites k d rd wr = []) : (s.setTile n u).racedWrites k d rd wr = [] := by
  unfold State.racedWrites at hw ⊢
  dsimp only at hw ⊢
  obtain ⟨hown, hothers⟩ := List.append_eq_nil_iff.mp hw
  refine List.append_eq_nil_iff.mpr ⟨?_, ?_⟩
  · split
    · next hc =>
      rw [if_pos] at hown
      · exact hown
      · rw [Bool.or_eq_true] at hc ⊢
        refine hc.imp_left (anyMeet_mono fun w hwm => ?_)
        obtain ⟨f, hf, hwf⟩ := List.mem_flatMap.mp hwm
        exact List.mem_flatMap.mpr ⟨f, State.mem_flights_setTile h hf, hwf⟩
    · rfl
  · rw [List.flatMap_eq_nil_iff] at hothers ⊢
    intro f hf
    obtain ⟨hmem, hmeet⟩ := List.mem_filter.mp hf
    exact hothers f (List.mem_filter.mpr ⟨State.mem_flights_setTile h hmem, hmeet⟩)

end

/-! ## Lane memory without a flipped bit -/

/-- No byte of the tile is flipped and no flip is armed. -/
def Tile.Whole (t : Tile) : Prop := t.bad = [] ∧ t.flip = 0

theorem State.whole_tile {s : State} (h : ∀ e ∈ s.tiles, e.2.bad = [] ∧ e.2.flip = 0) (n : Nat) : (s.tile n).Whole := by
  unfold State.tile KMap.findD
  cases hf : s.tiles.find n with
  | none => exact ⟨rfl, rfl⟩
  | some t => exact h (n, t) (KMap.mem_of_find hf)

theorem Tile.Whole.bytes {t : Tile} (h : t.Whole) (a n : Nat) : t.bytes a n = readCells 0 t.lane a n := by
  unfold Tile.bytes
  rw [h.1]
  rfl

theorem Tile.Whole.put {t : Tile} (h : t.Whole) (a : Nat) (l : List Byte) :
    t.put a l = { t with lane := writeCells 0 t.lane a l } := by
  rw [Tile.put_unarmed h.2, show badOutside t.bad a l = t.bad by rw [h.1]; rfl]

/-- A read of whole tiles meets no error. -/
theorem State.checkReads_whole {s : State} (h : ∀ n, (s.tile n).Whole) (tag : Nat) (l : List (Nat × Nat × Nat)) :
    s.checkReads tag l = (s, none) := by
  induction l with
  | nil => rfl
  | cons r l ih =>
    have hbad : (s.tile r.1).badIn r.2.1 r.2.2 = [] := by
      unfold Tile.badIn
      rw [(h r.1).1]
      rfl
    rw [State.checkReads, hbad]
    exact ih

/-! ## From the queue to the unit -/

/-- Tile `n` of `s` has taken `d` off its queue. -/
def State.taken (s : State) (n : Nat) (d : List Byte) : State := s.setTile n ((s.tile n).take d)

theorem Tile.take_sees (t : Tile) (d : List Byte) : (t.take d).Sees t := ⟨rfl, rfl, rfl, rfl, rfl, rfl⟩

theorem State.tile_taken (s : State) (n : Nat) (d : List Byte) : (s.taken n d).tile n = (s.tile n).take d :=
  State.tile_setTile_self ..

theorem State.whole_taken {s : State} (h : ∀ n, (s.tile n).Whole) (n : Nat) (d : List Byte) (k : Nat) :
    ((s.taken n d).tile k).Whole := by
  by_cases hk : k = n
  · rw [hk, State.tile_taken]
    exact h n
  · rw [State.taken, State.tile_setTile_ne _ _ hk]
    exact h k

/-- What a tile with nothing queued and nothing held back takes off its queue. -/
theorem Tile.take_empty {t : Tile} (hq : t.queue = []) (hh : t.held = []) (d : List Byte) :
    t.take d = { t with
      nextIdx := (t.nextIdx + 1) % 512
      sems := if byteAt d 10 = 0 then t.sems else t.sems.modify (byteAt d 10 - 1) (fun v => v - 1) } := by
  unfold Tile.take Tile.refill
  dsimp only
  rw [hq, hh]
  rfl

/-- The queue of a tile with nothing queued takes a descriptor. -/
theorem Tile.refill_one {t : Tile} (hq : t.queue = []) (hh : t.held = []) (d : List Byte) :
    Tile.refill { t with held := t.held ++ [d] } = { t with queue := [d] } := by
  unfold Tile.refill
  dsimp only
  rw [hq, hh]
  rfl

theorem Tile.take_queued {t : Tile} (hq : t.queue = []) (hh : t.held = []) (d : List Byte) :
    Tile.take { t with queue := [d] } d = t.take d := by
  rw [Tile.take_empty hq hh]
  unfold Tile.take Tile.refill
  dsimp only
  rw [hh, hq]
  rfl

theorem State.halted_of_jobsRun {s : State} (h : s.jobsRun = true) : s.halted = false := by
  unfold State.jobsRun State.inGo State.inBlocks at h
  cases hh : s.halted with
  | false => rfl
  | true => simp [hh] at h

/-- A tile that takes ops is in range, not halted, and its squad is not fenced. -/
theorem State.takesOps_spec {s : State} {n m : Nat} {q : Squad} (h : s.takesOps n = true) (hm : (s.tile n).squad = some m)
    (hq : s.squadOf m = some q) : (s.tile n).halted = false ∧ s.halted = false ∧ (q.state == .fenced) = false := by
  unfold State.takesOps at h
  dsimp only at h
  rw [hm, Option.bind_some, hq] at h
  simp only [Bool.and_eq_true, decide_eq_true_eq, Bool.not_eq_true', bne_iff_ne] at h
  obtain ⟨⟨⟨⟨⟨hrun, -⟩, -⟩, -⟩, hhalt⟩, hfence⟩ := h
  exact ⟨hhalt, State.halted_of_jobsRun hrun, beq_eq_false_iff_ne.mpr hfence⟩

theorem State.pump_empty {s : State} {n : Nat} (h : (s.tile n).queue = []) (k : Nat) : s.pump k n = s := by
  cases k with
  | zero => rfl
  | succ k =>
    rw [State.pump, h]

/-- An op at the head of the queue that decodes, may issue, and whose unit is free issues. -/
theorem State.pump_issues {s : State} {n m : Nat} {q : Squad} {d : List Byte} {ds : List (List Byte)}
    (hqueue : (s.tile n).queue = d :: ds) (hm : (s.tile n).squad = some m) (hq : s.squadOf m = some q)
    (hfree : ((s.tile n).halted || (s.tile n).hurdle || q.state == .fenced || s.halted) = false)
    (hdec : s.decodeOk q m n d = true) (hmay : (s.tile n).mayIssue d = true) (hunit : (s.tile n).unitFree d = true)
    (hpieces : s.piecesOk m n d = true) (k : Nat) : s.pump (k + 1) n = (s.issue q m n d).pump k n := by
  rw [State.pump, hqueue, hm, Option.bind_some, hq, Option.map_some]
  simp only [hfree, hdec, hmay, hunit, hpieces, Bool.not_true, Bool.false_or, Bool.false_eq_true, if_false,
    if_true]
  rfl

/-- An op at the head of the queue that decodes and may not issue yet waits. -/
theorem State.pump_waits {s : State} {n m : Nat} {q : Squad} {d : List Byte} {ds : List (List Byte)}
    (hqueue : (s.tile n).queue = d :: ds) (hm : (s.tile n).squad = some m) (hq : s.squadOf m = some q)
    (hdec : s.decodeOk q m n d = true) (hmay : (s.tile n).mayIssue d = false) (k : Nat) : s.pump k n = s := by
  cases k with
  | zero => rfl
  | succ k =>
    rw [State.pump, hqueue, hm, Option.bind_some, hq, Option.map_some]
    simp only [hdec, hmay, Bool.not_true, Bool.not_false, Bool.true_or, Bool.false_eq_true, if_false, if_true]
    exact ite_self _

/-- `d` stands in the queue of tile `n` of `s`. -/
def State.queued (s : State) (n : Nat) (d : List Byte) : State := s.setTile n { s.tile n with queue := [d] }

theorem State.queued_sees (s : State) (n : Nat) (d : List Byte) : Tile.Sees { s.tile n with queue := [d] } (s.tile n) :=
  ⟨rfl, rfl, rfl, rfl, rfl, rfl⟩

theorem State.writeOp_queued {s : State} {n : Nat} {d : List Byte} (hlen : d.length = 64) (htakes : s.takesOps n = true)
    (hq : (s.tile n).queue = []) (hh : (s.tile n).held = []) (hinst : s.instantiate d = d) {mine : Bool}
    (hmine : mine = true ∨ opKind d = 0 ∨ 0x0B < opKind d) : s.writeOp n d mine = (s.queued n d).pump 2 n := by
  unfold State.writeOp
  rw [if_pos ⟨hlen, hmine, htakes⟩]
  dsimp only
  rw [hinst, Tile.refill_one hq hh]
  unfold State.pumpTile State.queued
  rw [State.tile_setTile_self]
  dsimp only
  rw [hh]
  rfl

theorem State.writeOp_refused {s : State} {n : Nat} {d : List Byte} (h : d.length ≠ 64 ∨ s.takesOps n = false) (mine : Bool) :
    s.writeOp n d mine = s := by
  refine if_neg ?_
  rintro ⟨hlen, -, htakes⟩
  rcases h with h | h
  · exact h hlen
  · exact absurd (h.symm.trans htakes) Bool.false_ne_true

/-- The op that goes in flight as tile `n` of squad `m` issues `d`. -/
def State.launched (s : State) (q : Squad) (m n : Nat) (d : List Byte) : OpInFlight :=
  { unit := opUnit d, idx := (s.tile n).nextIdx, desc := d, reads := s.opReads q n d, writes := s.opWrites q n d, gives := none,
    counts := (s.taken n d).quantCountsOf (s.taken n d) m n d }

/-- `s` with `k` as the number of its next free draw. -/
def State.atTick (s : State) (k : Nat) : State := { s with tick := k }

/-- The state that an op issued at once runs on: it has been taken off the queue. -/
def State.running (s : State) (n : Nat) (d : List Byte) : State := (s.taken n d).atTick (s.tick + s.tick)

/-- A tile that issues an op other than a HURDLE, a LOAD_BATON or a squad-wide REDUCE runs it and puts it in flight. -/
theorem State.issue_eq {s : State} {n m : Nat} {d : List Byte} {q : Squad} (h : s.tileIssues n d m q) (h9 : opKind d ≠ 0x09)
    (hA : opKind d ≠ 0x0A) (hmeet : opMeets d = false) :
    (s.queued n d).issue q m n d = ((s.running n d).runOp (s.taken n d) q m n d).fly n (s.launched q m n d) := by
  obtain ⟨-, -, hqueue, -, -, -, -, -, -, hheld, -, -, hwhole, hraced, hracedw⟩ := h
  have htaken : (s.queued n d).setTile n (((s.queued n d).tile n).take d) = s.taken n d := by
    rw [State.queued, State.tile_setTile_self, State.setTile_setTile, Tile.take_queued hqueue hheld]
    rfl
  have hsees : ((s.tile n).take d).Sees (s.tile n) := Tile.take_sees ..
  have hreads : (s.taken n d).opReads q n d = s.opReads q n d := State.opReads_setTile hsees ..
  have hwrites : (s.taken n d).opWrites q n d = s.opWrites q n d := State.opWrites_setTile hsees ..
  have hlane : (s.queued n d).issue q m n d = (s.taken n d).issueLane q m n (s.tile n).nextIdx d := by
    unfold State.issue
    dsimp only
    rw [htaken]
    have hidx : ((s.queued n d).tile n).nextIdx = (s.tile n).nextIdx := by
      rw [State.queued, State.tile_setTile_self]
    rw [hidx]
    split
    · next hk => exact absurd hk hA
    · next hk => exact absurd hk h9
    · rfl
  rw [hlane]
  unfold State.issueLane
  dsimp only
  rw [State.checkReads_whole (State.whole_taken (State.whole_tile hwhole) n d)]
  dsimp only
  rw [hreads, hwrites, hmeet, State.taken, State.racedReads_setTile hsees hraced, State.racedWrites_setTile hsees hracedw]
  rfl

end Sys2Proof.Machine
end
section
/-! Little-endian fields of byte lists, and bytes of a memory read as fields (R8). -/

namespace Sys2Proof.Machine

@[simp] theorem length_readCells (d : Byte) (m : List Host.Cell) (a n : Nat) : (readCells d m a n).length = n := by
  unfold readCells
  rw [List.length_map, List.length_range]

@[simp] theorem length_leBytes (v n : Nat) : (leBytes v n).length = n := by
  induction n generalizing v with
  | zero => rfl
  | succ n ih => rw [leBytes, List.length_cons, ih]

/-- A field depends on its own bytes alone. -/
theorem leAt_congr {l r : List Byte} {o p n : Nat} (h : ∀ i, i < n → byteAt l (o + i) = byteAt r (p + i)) :
    leAt l o n = leAt r p n := by
  induction n generalizing o p with
  | zero => rfl
  | succ n ih =>
    have hhead : byteAt l o = byteAt r p := h 0 (Nat.succ_pos n)
    have htail : leAt l (o + 1) n = leAt r (p + 1) n := ih fun i hi => by
      rw [Nat.add_assoc o, Nat.add_assoc p, Nat.add_comm 1]
      exact h (i + 1) (Nat.succ_lt_succ hi)
    rw [leAt, leAt, hhead, htail]

theorem byteAt_append_left {l r : List Byte} {i : Nat} (h : i < l.length) : byteAt (l ++ r) i = byteAt l i := by
  unfold byteAt
  rw [List.getD_append _ _ _ _ h]

/-- A field inside the front part. -/
theorem leAt_append_left {l r : List Byte} {o n : Nat} (h : o + n ≤ l.length) : leAt (l ++ r) o n = leAt l o n :=
  leAt_congr fun i hi => byteAt_append_left (by omega)

theorem leAt_lt (l : List Byte) (o n : Nat) : leAt l o n < 256 ^ n := by
  induction n generalizing o with
  | zero => exact Nat.one_pos
  | succ n ih =>
    have hbyte : byteAt l o < 256 := (l.getD o 0).isLt
    have htail := ih (o + 1)
    rw [leAt, Nat.pow_succ]
    omega

/-- A field of entry `i` of a table of entries of `w` bytes. -/
theorem leAt_flatMap {α : Type} {f : α → List Byte} {w : Nat} (hw : ∀ x, (f x).length = w) (l : List α) {i : Nat}
    (hi : i < l.length) {o n : Nat} (h : o + n ≤ w) : leAt (l.flatMap f) (w * i + o) n = leAt (f l[i]) o n := by
  induction l generalizing i with
  | nil => exact absurd hi (Nat.not_lt_zero i)
  | cons x l ih =>
    rw [List.flatMap_cons]
    cases i with
    | zero =>
      rw [Nat.mul_zero, Nat.zero_add]
      exact leAt_append_left (by rw [hw]; exact h)
    | succ i =>
      have hoff : w * (i + 1) + o = (f x).length + (w * i + o) := by rw [hw, Nat.mul_succ]; omega
      rw [hoff, leAt_append]
      exact ih (Nat.lt_of_succ_lt_succ hi)

theorem length_flatMap_const {α : Type} {f : α → List Byte} {w : Nat} (hw : ∀ x, (f x).length = w) (l : List α) :
    (l.flatMap f).length = w * l.length := by
  induction l with
  | nil => rfl
  | cons x l ih => rw [List.flatMap_cons, List.length_append, hw, ih, List.length_cons, Nat.mul_succ, Nat.add_comm]

/-- Number `i` of a table of numbers of `w` bytes. -/
theorem leAt_table (w : Nat) (l : List Nat) {i : Nat} (hi : i < l.length) :
    leAt (l.flatMap (fun x => leBytes x w)) (w * i) w = l[i] % 256 ^ w := by
  have h := leAt_flatMap (f := fun x => leBytes x w) (fun x => length_leBytes x w) l hi (o := 0) (n := w) (by omega)
  rw [Nat.add_zero] at h
  rw [h, leAt_leBytes]

theorem byteAt_readCells (d : Byte) (m : List Host.Cell) (a : Nat) {n i : Nat} (h : i < n) :
    byteAt (readCells d m a n) i = (readCell d m (a + i)).toNat := by
  unfold byteAt readCells
  rw [List.getD_eq_getElem _ _ (by simpa using h)]
  simp

/-- A field of bytes read is a field of the memory. -/
theorem leAt_readCells (d : Byte) (m : List Host.Cell) (a : Nat) {n o k : Nat} (h : o + k ≤ n) :
    leAt (readCells d m a n) o k = leAt (readCells d m (a + o) k) 0 k :=
  leAt_congr fun i hi => by
    rw [byteAt_readCells _ _ _ (by omega), byteAt_readCells _ _ _ (by omega), Nat.zero_add, Nat.add_assoc]

theorem readCells_congr {d : Byte} {m k : List Host.Cell} {a n : Nat}
    (h : ∀ i, i < n → readCell d m (a + i) = readCell d k (a + i)) : readCells d m a n = readCells d k a n :=
  List.map_congr_left fun i hi => h i (List.mem_range.mp hi)

end Sys2Proof.Machine
end

section
/-! What an op issued at once leaves (R57, R60): one effect on its tile, the op in flight, and nothing else. -/

namespace Sys2Proof.Machine

/-- Tile `u` after tile `t` has taken `d` off its queue, with `lane` as its lane memory. -/
def Tile.issuing (u t : Tile) (d : List Byte) (lane : List Host.Cell) : Tile :=
  { u with nextIdx := (t.nextIdx + 1) % 512, sems := (t.take d).sems, lane := lane }

theorem Tile.take_issuing {t : Tile} (hq : t.queue = []) (hh : t.held = []) (d : List Byte) :
    t.take d = t.issuing t d t.lane := by
  rw [Tile.issuing, Tile.take_empty hq hh]

/-- What `t` is once tile `n` of `s` has issued `d`, with `u` for the registers the op changes and `lane` for its lane memory. -/
structure State.Issued (s t : State) (n : Nat) (d : List Byte) (u : Tile) (lane : List Host.Cell) : Prop where
  lane : (t.tile n).lane = lane
  ctxs : (t.tile n).ctxs = u.ctxs
  amax : (t.tile n).amax = u.amax
  scale : (t.tile n).scale = u.scale
  runs : RunsOn s t n d u
  others : ∀ i, i ≠ n → t.tile i = s.tile i
  frame : t = { s with tiles := t.tiles, tick := t.tick }

/-- The ops that have an effect of their own on the tile that issues them. -/
def opRuns (d : List Byte) : Prop := opKind d ≠ 0x09 ∧ opKind d ≠ 0x0A ∧ opMeets d = false

theorem State.tile_atTick (s : State) (k n : Nat) : (s.atTick k).tile n = s.tile n := rfl

theorem State.setTile_atTick (s : State) (k n : Nat) (u : Tile) : (s.atTick k).setTile n u = (s.setTile n u).atTick k := rfl

theorem State.fly_setTile (s : State) (n k : Nat) (u : Tile) (f : OpInFlight) :
    ((s.setTile n u).atTick k).fly n f = (s.setTile n { u with flight := u.flight ++ [f] }).atTick k := by
  unfold State.fly
  rw [State.tile_atTick, State.tile_setTile_self, State.setTile_atTick, State.setTile_setTile]

theorem State.tile_queued (s : State) (n : Nat) (d : List Byte) : (s.queued n d).tile n = { s.tile n with queue := [d] } :=
  State.tile_setTile_self ..

theorem State.halted_setTile (s : State) (n : Nat) (u : Tile) : (s.setTile n u).halted = s.halted := rfl

section
variable {s : State} {n m : Nat} {d : List Byte} {q : Squad}

/-- An op that `tileIssues` describes goes from the queue to its unit. -/
theorem State.pump_queued (h : s.tileIssues n d m q) : (s.queued n d).pump 2 n = ((s.queued n d).issue q m n d).pump 1 n := by
  obtain ⟨-, htakes, -, hhurdle, hsquad, hq, hdec, hmay, hunit, -, -, hpieces, -, -, -⟩ := h
  obtain ⟨hhalt, hshalt, hfence⟩ := State.takesOps_spec htakes hsquad hq
  have hsees := State.queued_sees s n d
  have htile := State.tile_queued s n d
  have hfree : (((s.queued n d).tile n).halted || ((s.queued n d).tile n).hurdle || q.state == .fenced ||
      (s.queued n d).halted) = false := by
    rw [htile, State.queued, State.halted_setTile, hshalt, hfence, hhalt, hhurdle]
    rfl
  have hmay' : ((s.queued n d).tile n).mayIssue d = true := by
    rw [htile, hsees.mayIssue rfl]
    exact hmay
  have hunit' : ((s.queued n d).tile n).unitFree d = true := by
    rw [htile, hsees.unitFree]
    exact hunit
  refine State.pump_issues (s := s.queued n d) (ds := []) ?_ ?_ hq hfree ?_ hmay' hunit' ?_ 1
  · rw [htile]
  · rw [htile]
    exact hsquad
  · exact (State.decodeOk_setTile hsees ..).trans hdec
  · exact (State.piecesOk_setTile hsees ..).trans hpieces

theorem State.writeOp_issues (h : s.tileIssues n d m q) (hr : opRuns d) {mine : Bool} (hmine : mine = true) {u : Tile} {k : Nat}
    (hrun : (s.running n d).runOp (s.taken n d) q m n d = (s.setTile n u).atTick k) (hu : u.queue = []) :
    s.writeOp n d mine = (s.setTile n { u with flight := u.flight ++ [s.launched q m n d] }).atTick k := by
  have hissue := State.issue_eq h hr.1 hr.2.1 hr.2.2
  have hpump := State.pump_queued h
  obtain ⟨hlen, htakes, hqueue, -, -, -, -, -, -, hheld, hinst, -⟩ := h
  rw [State.writeOp_queued hlen htakes hqueue hheld hinst (Or.inl hmine), hpump, hissue, hrun, State.fly_setTile]
  refine State.pump_empty ?_ 1
  rw [State.tile_atTick, State.tile_setTile_self]
  exact hu

/-- An op whose effect is one change of its tile. -/
theorem State.issued_of_run (h : s.tileIssues n d m q) (hr : opRuns d) {mine : Bool} (hmine : mine = true) {u : Tile}
    {lane : List Host.Cell} {k : Nat}
    (hrun : (s.running n d).runOp (s.taken n d) q m n d = (s.setTile n (u.issuing (s.tile n) d lane)).atTick k)
    (hq : u.queue = []) (hf : u.flight = (s.tile n).flight) : s.Issued (s.writeOp n d mine) n d u lane := by
  have heq := State.writeOp_issues h hr hmine hrun hq
  have htile : (s.writeOp n d mine).tile n =
      { u.issuing (s.tile n) d lane with flight := u.flight ++ [s.launched q m n d] } := by
    rw [heq, State.tile_atTick, State.tile_setTile_self]
    rfl
  have hflight : ((s.writeOp n d mine).tile n).flight = (s.tile n).flight ++ [s.launched q m n d] := by
    rw [htile, ← hf]
  refine ⟨by rw [htile]; rfl, by rw [htile]; rfl, by rw [htile]; rfl, by rw [htile]; rfl, ⟨?_, ?_, ?_⟩, fun i hi => ?_, ?_⟩
  · rw [htile]
    rfl
  · rw [hflight, List.dropLast_concat]
  · rw [hflight, List.getLast?_concat]
    rfl
  · rw [heq, State.tile_atTick]
    exact State.tile_setTile_ne s _ hi
  · rw [heq]
    rfl

theorem State.tileIssues_empty (h : s.tileIssues n d m q) : (s.tile n).queue = [] ∧ (s.tile n).held = [] := by
  obtain ⟨-, -, hqueue, -, -, -, -, -, -, hheld, -⟩ := h
  exact ⟨hqueue, hheld⟩

theorem State.tileIssues_whole (h : s.tileIssues n d m q) (k : Nat) : (s.tile k).Whole := by
  obtain ⟨-, -, -, -, -, -, -, -, -, -, -, -, hwhole, -, -⟩ := h
  exact State.whole_tile hwhole k

theorem State.tileIssues_decodes (h : s.tileIssues n d m q) : s.decodeOk q m n d = true := by
  obtain ⟨-, -, -, -, -, -, hdec, -⟩ := h
  exact hdec

/-- A store of an op at the head of the queue. -/
theorem State.lanePut_taken (h : s.tileIssues n d m q) (a k : Nat) (l : List Byte) :
    ((s.taken n d).atTick k).lanePut n a l =
      (s.setTile n ((s.tile n).issuing (s.tile n) d (writeCells 0 (s.tile n).lane a l))).atTick k := by
  obtain ⟨hqueue, hheld⟩ := State.tileIssues_empty h
  unfold State.lanePut
  rw [State.tile_atTick, State.tile_taken, Tile.Whole.put (t := (s.tile n).take d) (State.tileIssues_whole h n),
    Tile.take_issuing hqueue hheld, State.setTile_atTick, State.taken, State.setTile_setTile]
  rfl

/-- An op whose effect is to store bytes in lane memory. -/
theorem State.issued_of_store (h : s.tileIssues n d m q) (hr : opRuns d) {mine : Bool} (hmine : mine = true) {a k : Nat}
    {l : List Byte} (hrun : (s.running n d).runOp (s.taken n d) q m n d = ((s.taken n d).atTick k).lanePut n a l) :
    s.Issued (s.writeOp n d mine) n d (s.tile n) (writeCells 0 (s.tile n).lane a l) :=
  State.issued_of_run h hr hmine (hrun.trans (State.lanePut_taken h a k l)) (State.tileIssues_empty h).1 rfl

end

end Sys2Proof.Machine
end
section
/-! The vector unit's ops and the distances of an XORPOP, as an op issued at once leaves them (R58, R66, R98 to R100, R112 to R115,
R221 to R226). -/

namespace Sys2Proof.Machine

/-! ## What an op reads -/

section
variable {s : State} {n m : Nat} {d : List Byte} {q : Squad}

theorem State.bytes_taken (h : s.tileIssues n d m q) (a k : Nat) :
    ((s.taken n d).tile n).bytes a k = readCells 0 (s.tile n).lane a k := by
  rw [State.tile_taken]
  exact Tile.Whole.bytes (t := (s.tile n).take d) (State.tileIssues_whole h n) a k

theorem State.distances_taken (s : State) (n : Nat) (d : List Byte) (i : Nat) : (s.taken n d).distances n d i = s.distances n d i := by
  unfold State.distances
  rw [State.tile_taken]
  rfl

/-- The distances of query `i` of an XORPOP. -/
theorem State.distances_eq (hw : (s.tile n).Whole) (i : Nat) :
    s.distances n d i = (List.range (u16At d 24)).map (fun j =>
      hamming (codeAt (u16At d 28) (fun k => ((s.tile n).latches.getD (byteAt d 31) Latch.reset).data.getD k 0) (u16At d 26 + j))
        (readCells 0 (s.tile n).lane (u32At d 16 + i * (u16At d 28 / 8)) (u16At d 28 / 8)) (u16At d 28)) := by
  unfold State.distances
  dsimp only
  rw [hw.bytes]

end

theorem hamming_le (a b : List Byte) (bits : Nat) : hamming a b bits ≤ bits := by
  have hsum : ∀ l : List Nat, (∀ x ∈ l, x ≤ 8) → l.sum ≤ 8 * l.length := by
    intro l hl
    have := List.sum_le_card_nsmul l 8 hl
    rwa [smul_eq_mul, Nat.mul_comm] at this
  have h := hsum ((List.range (bits / 8)).map (fun i =>
    ((List.range 8).filter (fun k => ((a.getD i 0) ^^^ (b.getD i 0)).getLsbD k)).length)) (by
      intro x hx
      obtain ⟨i, -, rfl⟩ := List.mem_map.mp hx
      exact (List.length_filter_le _ _).trans (by rw [List.length_range]))
  rw [List.length_map, List.length_range] at h
  unfold hamming
  omega

/-- A width that decode takes fits a distance field. -/
theorem xorpopOk_bits {n : Nat} {d : List Byte} (h : xorpopOk n d = true) : u16At d 28 ≤ 1024 := by
  unfold xorpopOk at h
  simp only [Bool.and_eq_true, decide_eq_true_eq] at h
  omega

theorem State.decodeOk_xorpop {s : State} {q : Squad} {m n : Nat} {d : List Byte} (hk : opKind d = 0x02)
    (h : s.decodeOk q m n d = true) : xorpopOk n d = true := by
  unfold State.decodeOk at h
  rw [hk] at h
  exact (Bool.and_eq_true_iff.mp h).2

/-- Entry `j` of row `i` of a table of rows of `c` entries. -/
theorem getElem?_flatMap_row {α β : Type} {f : α → List β} {c : Nat} (hf : ∀ x, (f x).length = c) (l : List α) (i : Nat) {j : Nat}
    (hj : j < c) : (l.flatMap f)[i * c + j]? = l[i]?.bind (fun x => (f x)[j]?) := by
  induction l generalizing i with
  | nil => simp
  | cons x l ih =>
    rw [List.flatMap_cons]
    cases i with
    | zero => rw [Nat.zero_mul, Nat.zero_add, List.getElem?_append_left (by rw [hf]; exact hj)]; rfl
    | succ i =>
      rw [List.getElem?_append_right (by rw [hf, Nat.succ_mul]; omega), hf,
        show (i + 1) * c + j - c = i * c + j by rw [Nat.succ_mul]; omega, ih]
      rfl

/-! ## Ops that store one range -/

theorem opRuns_of_kind {d : List Byte} {k : Nat} (hk : opKind d = k) (h9 : k ≠ 0x09) (hA : k ≠ 0x0A) (h3 : k ≠ 0x03) : opRuns d := by
  refine ⟨hk ▸ h9, hk ▸ hA, ?_⟩
  unfold opMeets
  rw [beq_eq_false_iff_ne.mpr (hk ▸ h3), Bool.false_and]

theorem opRuns_of_reduce {d : List Byte} (hk : opKind d = 0x03) (h0 : byteAt d 30 = 0) : opRuns d := by
  refine ⟨by rw [hk]; decide, by rw [hk]; decide, ?_⟩
  unfold opMeets
  rw [h0, bne_self_eq_false, Bool.and_false]

section
variable {s : State} {n m : Nat} {d : List Byte} {q : Squad}

/-- The distances an XORPOP stores, row after row. -/
def State.distanceBytes (s : State) (n : Nat) (d : List Byte) : List Byte :=
  ((List.range (byteAt d 30)).flatMap (s.distances n d)).flatMap (fun x => leBytes x 2)

theorem State.xorpop_issued (h : s.tileIssues n d m q) (hk : opKind d = 0x02) (h0 : byteAt d 32 = 0) {mine : Bool}
    (hmine : mine = true) :
    s.Issued (s.writeOp n d mine) n d (s.tile n) (writeCells 0 (s.tile n).lane (u32At d 20) (s.distanceBytes n d)) := by
  refine State.issued_of_store h (opRuns_of_kind hk (by decide) (by decide) (by decide)) hmine (k := s.tick + s.tick) ?_
  unfold State.runOp State.runXorpop State.distanceBytes
  rw [hk, if_pos h0, List.flatMap_assoc]
  simp only [State.distances_taken]
  rfl

theorem State.length_distances (s : State) (n : Nat) (d : List Byte) (i : Nat) : (s.distances n d i).length = u16At d 24 := by
  unfold State.distances
  rw [List.length_map, List.length_range]

/-- Distance `j` of query `i` in the table that an XORPOP stores. -/
theorem State.u16At_distanceBytes (h : s.tileIssues n d m q) (hk : opKind d = 0x02) {i j : Nat} (hi : i < byteAt d 30)
    (hj : j < u16At d 24) : u16At (s.distanceBytes n d) (2 * (i * u16At d 24 + j)) = (s.distances n d i).getD j 0 := by
  have hbits := xorpopOk_bits (State.decodeOk_xorpop hk (State.tileIssues_decodes h))
  have hget : ((List.range (byteAt d 30)).flatMap (s.distances n d))[i * u16At d 24 + j]? = (s.distances n d i)[j]? := by
    rw [getElem?_flatMap_row (State.length_distances s n d) _ _ hj, List.getElem?_range hi, Option.bind_some]
  have hsmall : (s.distances n d i).getD j 0 < 256 ^ 2 := by
    rw [State.distances_eq (State.tileIssues_whole h n), List.getD_eq_getElem _ _ (by simpa using hj), List.getElem_map]
    exact Nat.lt_of_le_of_lt (hamming_le _ _ _) (by omega)
  have hj' : j < (s.distances n d i).length := by rw [State.length_distances]; exact hj
  obtain ⟨hlt, heq⟩ := List.getElem?_eq_some_iff.mp (hget.trans (List.getElem?_eq_getElem hj'))
  rw [State.distanceBytes, u16At, leAt_table 2 _ hlt, heq, ← List.getD_eq_getElem _ 0 hj', Nat.mod_eq_of_lt hsmall]

theorem State.length_distanceBytes (s : State) (n : Nat) (d : List Byte) :
    (s.distanceBytes n d).length = 2 * (byteAt d 30 * u16At d 24) := by
  rw [State.distanceBytes, length_flatMap_const (fun x => length_leBytes x 2)]
  congr 1
  rw [List.length_flatMap]
  simp [State.length_distances]

end

/-! ## REDUCE of a tile (R66) -/

/-- A value that is an integer with exponent 0. -/
def FV.isInt (v : FV) (i : Int) : Prop := ∃ b k, v = .fin b k 0 ∧ signedM b k = i

theorem signedM_natAbs (i : Int) : signedM (i < 0) i.natAbs = i := by
  unfold signedM
  split
  · next h =>
    have hneg : i < 0 := of_decide_eq_true h
    omega
  · next h =>
    have hpos : ¬ i < 0 := fun hneg => h (decide_eq_true hneg)
    omega

theorem isInt_fvInt (i : Int) : FV.isInt (fvInt i) i := ⟨_, _, rfl, signedM_natAbs i⟩

theorem FV.isInt.add {u v : FV} {i j : Int} (hu : FV.isInt u i) (hv : FV.isInt v j) : FV.isInt (u.add v) (i + j) := by
  obtain ⟨b, k, rfl, rfl⟩ := hu
  obtain ⟨c, l, rfl, rfl⟩ := hv
  unfold FV.add
  simp only [min_self, sub_self, Int.toNat_zero, pow_zero, Nat.cast_one, mul_one]
  split
  · next h => exact ⟨_, _, rfl, by rw [h]; unfold signedM; split <;> rfl⟩
  · exact ⟨_, _, rfl, signedM_natAbs _⟩

theorem FV.isInt.toInt {v : FV} {i : Int} (h : FV.isInt v i) : v.toInt = some i := by
  obtain ⟨b, k, rfl, rfl⟩ := h
  have hround : divRne k 1 = k := by
    unfold divRne
    simp [Nat.mod_one]
  unfold FV.toInt shiftQ signedM
  simp [hround]

theorem FV.isInt.not_nan {v : FV} {i : Int} (h : FV.isInt v i) : v.isNan = false := by
  obtain ⟨b, k, rfl, -⟩ := h
  rfl

/-- The exact sum of integers. -/
theorem isInt_sum (l : List Int) {v : FV} {i : Int} (hv : FV.isInt v i) : FV.isInt ((l.map fvInt).foldl FV.add v) (i + l.sum) := by
  induction l generalizing v i with
  | nil => rw [List.sum_nil, add_zero]; exact hv
  | cons x l ih =>
    rw [List.map_cons, List.foldl_cons, List.sum_cons, ← add_assoc]
    exact ih (hv.add (isInt_fvInt x))

theorem signedN_ofInt {i : Int} (hlo : -2147483648 ≤ i) (hhi : i ≤ 2147483647) : signedN 32 (BitVec.ofInt 32 i).toNat = i := by
  have hmod : ((BitVec.ofInt 32 i).toNat : Int) = i % 4294967296 := by
    rw [BitVec.toNat_ofInt]
    exact Int.toNat_of_nonneg (Int.emod_nonneg i (by decide))
  have hlt := (BitVec.ofInt 32 i).isLt
  unfold signedN
  split <;> omega

theorem satInt_inRange {i : Int} (hlo : -2147483648 ≤ i) (hhi : i ≤ 2147483647) : satInt 32 i = i := by
  unfold satInt clampZ
  omega

/-- A sum of INT32 elements that fits (R66). -/
theorem reduceEls_sum (pick : Nat → Nat) (w : W32) (es : List W32) {i : Int}
    (hi : (es.map (fun e => signedN 32 e.toNat)).sum = i) (hlo : -2147483648 ≤ i) (hhi : i ≤ 2147483647) :
    reduceEls 0 0 pick w es = BitVec.ofInt 32 i := by
  have hsum : FV.isInt ((es.map (fun e => fvInt (signedN 32 e.toNat))).foldl FV.add (.fin false 0 0)) i := by
    have h := isInt_sum (es.map (fun e => signedN 32 e.toNat)) (v := .fin false 0 0) (i := 0) ⟨false, 0, rfl, rfl⟩
    rwa [List.map_map, zero_add, hi] at h
  unfold reduceEls
  simp only [if_true]
  rw [hsum.not_nan, hsum.toInt, Option.getD_some, satInt_inRange hlo hhi]
  simp

/-- Element `j` of a list of words. -/
theorem words_toNat (m : List Host.Cell) (a c : Nat) :
    (words (readCells 0 m a (4 * c)) c).map (fun e => signedN 32 e.toNat) =
      (List.range c).map (fun j => signedN 32 (u32At (readCells 0 m a (4 * c)) (4 * j))) := by
  unfold words
  rw [List.map_map]
  refine List.map_congr_left fun j _ => ?_
  show signedN 32 (BitVec.ofNat 32 _).toNat = _
  rw [BitVec.toNat_ofNat, Nat.mod_eq_of_lt (show u32At _ _ < 2 ^ 32 from leAt_lt _ _ 4)]

section
variable {s : State} {n m : Nat} {d : List Byte} {q : Squad}

/-- The reduction a REDUCE of a tile stores, with the draws it may take. -/
def State.reduced (s : State) (n : Nat) (d : List Byte) : W32 :=
  reduceEls (byteAt d 28) (byteAt d 29) (fun i => Config.freeNat (s.tick + s.tick + 1 + i))
    (Config.freeWord (s.tick + s.tick) 0) (words (readCells 0 (s.tile n).lane (u32At d 16) (4 * u32At d 24)) (u32At d 24))

theorem State.reduce_issued (h : s.tileIssues n d m q) (hk : opKind d = 0x03) (h0 : byteAt d 30 = 0) {mine : Bool}
    (hmine : mine = true) :
    s.Issued (s.writeOp n d mine) n d (s.tile n) (writeCells 0 (s.tile n).lane (u32At d 20) (leBytes (s.reduced n d).toNat 4)) := by
  refine State.issued_of_store h (opRuns_of_reduce hk h0) hmine (k := s.tick + s.tick + 1 + 2 * u32At d 24) ?_
  unfold State.runOp State.runReduceLocal State.reduced
  rw [hk]
  dsimp only
  rw [if_pos h0, State.bytes_taken h]
  rfl

/-! ## ELTWISE and QUANT (R58, R114, R115) -/

theorem eltBytes_length (tick it ot func : Nat) (imm imm2 : W32) (a b : List Byte) (c : Nat) :
    (eltBytes tick it ot func imm imm2 a b c).length = c * elSize ot := by
  unfold eltBytes
  rw [length_flatMap_const (fun i => length_leBytes _ (elSize ot)), List.length_range, Nat.mul_comm]

/-- The operands of an ELTWISE. -/
def State.eltA (s : State) (n : Nat) (d : List Byte) : List Byte :=
  readCells 0 (s.tile n).lane (u32At d 16) (u32At d 28 * elSize (byteAt d 33))
def State.eltB (s : State) (n : Nat) (d : List Byte) : List Byte :=
  readCells 0 (s.tile n).lane (u32At d 20) (if eltTwo (byteAt d 32) then u32At d 28 * elSize (byteAt d 33) else 0)

/-- What an ELTWISE stores. -/
def State.eltStored (s : State) (n : Nat) (d : List Byte) : List Byte :=
  eltBytes (s.tick + s.tick) (byteAt d 33) (byteAt d 34) (byteAt d 32) (BitVec.ofNat 32 (u32At d 36)) (BitVec.ofNat 32 (u32At d 40))
    (s.eltA n d) (s.eltB n d) (u32At d 28)

theorem State.eltB_taken (h : s.tileIssues n d m q) :
    (if eltTwo (byteAt d 32) then ((s.taken n d).tile n).bytes (u32At d 20) (u32At d 28 * elSize (byteAt d 33)) else []) =
      s.eltB n d := by
  unfold State.eltB
  split
  · rw [State.bytes_taken h]
  · rfl

theorem State.eltwise_issued (h : s.tileIssues n d m q) (hk : opKind d = 0x04) (hf : byteAt d 32 ≠ 0x0B) {mine : Bool}
    (hmine : mine = true) :
    s.Issued (s.writeOp n d mine) n d (s.tile n) (writeCells 0 (s.tile n).lane (u32At d 24) (s.eltStored n d)) := by
  refine State.issued_of_store h (opRuns_of_kind hk (by decide) (by decide) (by decide)) hmine (k := s.tick + s.tick + 1) ?_
  unfold State.runOp State.runEltwise State.eltStored
  rw [hk]
  dsimp only
  rw [if_neg hf, State.bytes_taken h, State.eltB_taken h]
  rfl

/-- What a QUANT stores. -/
def State.quantStored (s : State) (m n : Nat) (d : List Byte) : List Byte :=
  (quantEls (byteAt d 33) (byteAt d 34) (s.quantFactorOf m n d) (s.eltA n d) (u32At d 28)).flatMap
    (fun e => leBytes e.1 (elSize (byteAt d 34)))

theorem State.quantFactorOf_running (s : State) (m n : Nat) (d : List Byte) :
    (s.running n d).quantFactorOf m n d = s.quantFactorOf m n d := by
  unfold State.quantFactorOf
  rw [State.running, State.tile_atTick, State.tile_taken]
  rfl

theorem State.quant_issued (h : s.tileIssues n d m q) (hk : opKind d = 0x04) (hf : byteAt d 32 = 0x0B) {mine : Bool}
    (hmine : mine = true) :
    s.Issued (s.writeOp n d mine) n d (s.tile n) (writeCells 0 (s.tile n).lane (u32At d 24) (s.quantStored m n d)) := by
  refine State.issued_of_store h (opRuns_of_kind hk (by decide) (by decide) (by decide)) hmine (k := s.tick + s.tick + 1) ?_
  unfold State.runOp State.runEltwise State.quantOf State.quantStored
  rw [hk]
  dsimp only
  rw [if_pos hf, State.bytes_taken h, State.quantFactorOf_running]
  rfl

theorem State.quantStored_length (s : State) (m n : Nat) (d : List Byte) :
    (s.quantStored m n d).length = u32At d 28 * elSize (byteAt d 34) := by
  unfold State.quantStored quantEls
  rw [length_flatMap_const (fun e => length_leBytes _ _), List.length_map, List.length_range, Nat.mul_comm]

/-- The sum of two INT32 elements that fits. -/
theorem eltVal_add {a b : Int} (hlo : -2147483648 ≤ a + b) (hhi : a + b ≤ 2147483647) (p : Nat) (x y : W32) :
    ∃ v, eltVal 2 1 p x y (fvInt a) (fvInt b) = some v ∧ FV.isInt v (a + b) := by
  have hadd : FV.isInt ((fvInt a).add (fvInt b)) (a + b) := (isInt_fvInt a).add (isInt_fvInt b)
  refine ⟨_, ?_, hadd⟩
  show intFunc 32 1 _ _ = _
  have hfits : ((((fvInt a).add (fvInt b)).toInt.map (fun i => satInt 32 i == i)).getD false) = true := by
    rw [hadd.toInt, Option.map_some, satInt_inRange hlo hhi, Option.getD_some]
    exact beq_self_eq_true _
  exact if_pos hfits

theorem toEl_isInt {v : FV} {i : Int} (h : FV.isInt v i) (hlo : -2147483648 ≤ i) (hhi : i ≤ 2147483647) (w : W32) :
    toEl 2 w v = wrapZ 32 i := by
  have hint := h.toInt
  obtain ⟨b, k, rfl, -⟩ := h
  show wrapZ 32 (satInt 32 _) = _
  rw [hint, Option.getD_some, satInt_inRange hlo hhi]

theorem signedN_wrapZ {i : Int} (hlo : -2147483648 ≤ i) (hhi : i ≤ 2147483647) : signedN 32 (wrapZ 32 i) = i := by
  have hmod : (wrapZ 32 i : Int) = i % 4294967296 := Int.toNat_of_nonneg (Int.emod_nonneg i (by decide))
  unfold signedN
  split <;> omega

theorem wrapZ_lt (w : Nat) (i : Int) : wrapZ w i < 2 ^ w := by
  have hpos : (0 : Int) < (2 ^ w : Nat) := by exact_mod_cast Nat.two_pow_pos w
  have hlt := Int.emod_lt_of_pos i hpos
  unfold wrapZ
  omega

end

end Sys2Proof.Machine
end
section
/-! FILTER and STATS, and the clauses of the ops that store one range (R58, R66, R112, R221 to R226). -/

namespace Sys2Proof.Machine

section
variable {s : State} {n m : Nat} {d : List Byte} {q : Squad}

/-! ## FILTER -/

theorem State.taken_eq (h : s.tileIssues n d m q) : s.taken n d = s.setTile n ((s.tile n).issuing (s.tile n) d (s.tile n).lane) := by
  obtain ⟨hqueue, hheld⟩ := State.tileIssues_empty h
  rw [State.taken, Tile.take_issuing hqueue hheld]

/-- A further store of an op. -/
theorem State.lanePut_issuing {u t : Tile} (hw : u.Whole) (lane : List Host.Cell) (k a : Nat) (l : List Byte) :
    ((s.setTile n (u.issuing t d lane)).atTick k).lanePut n a l =
      (s.setTile n (u.issuing t d (writeCells 0 lane a l))).atTick k := by
  unfold State.lanePut
  rw [State.tile_atTick, State.tile_setTile_self, Tile.Whole.put (t := u.issuing t d lane) hw, State.setTile_atTick,
    State.setTile_setTile]
  rfl

theorem State.laneFree_eq (s : State) (n a len : Nat) :
    s.laneFree n a len = (s.atTick (s.tick + 1)).lanePut n a (freeBytes s.tick len) := rfl

/-- What a FILTER puts out of the records `r`. -/
def filterBytes (q : Squad) (d : List Byte) (r : List Rec) : List Byte :=
  filterOut (byteAt d 36) (r.map (fun x => (x, q.filterPasses d x)))

/-- A FILTER whose source parses into `r`, with the cut record at `c`. -/
theorem State.runFilter_eq (h : s.tileIssues n d m q) {y : Layout} {r : List Rec} {c : Option Nat}
    (hy : (layoutsOf q.layouts).find? (fun y => y.num == u16At d 32) = some y) (hp : s.filterParse n d y = (r, c))
    {s1 : State} (hs1 : s1 = if (filterBytes q d r).length ≤ u32At d 28 then
      (s.running n d).lanePut n (u32At d 24) (filterBytes q d r) else (s.running n d).laneFree n (u32At d 24) (u32At d 28)) :
    (s.running n d).runFilter (s.taken n d) q n d = c.elim s1 (fun p =>
      s1.lanePut n (u32At d 40) (s.filterSource n d p (u32At d 20 - p))) := by
  have hrd : (fun o k => ((s.taken n d).tile n).bytes (u32At d 16 + o) (min k (u32At d 20 - o))) = s.filterSource n d := by
    funext o k
    exact State.bytes_taken h ..
  have hparse : filterRecs y (s.filterSource n d) (u32At d 20) (u32At d 20 + 1) 0 = (r, c) := hp
  unfold State.runFilter
  rw [hy]
  dsimp only
  rw [hrd, hparse]
  dsimp only
  subst hs1
  cases c with
  | none => rfl
  | some p =>
    dsimp only
    rw [State.bytes_taken h]
    rfl

theorem filter_opRuns (hk : opKind d = 0x07) : opRuns d := opRuns_of_kind hk (by decide) (by decide) (by decide)

theorem State.runOp_filter (hk : opKind d = 0x07) (a b : State) : a.runOp b q m n d = a.runFilter b q n d := by
  unfold State.runOp
  rw [hk]
  rfl

/-- A FILTER whose output fits. -/
theorem State.filter_issued (h : s.tileIssues n d m q) (hk : opKind d = 0x07) {y : Layout} {r : List Rec}
    (hy : (layoutsOf q.layouts).find? (fun y => y.num == u16At d 32) = some y) (hp : s.filterParse n d y = (r, none))
    (hfits : (filterBytes q d r).length ≤ u32At d 28) {mine : Bool} (hmine : mine = true) :
    s.Issued (s.writeOp n d mine) n d (s.tile n) (writeCells 0 (s.tile n).lane (u32At d 24) (filterBytes q d r)) := by
  refine State.issued_of_store h (filter_opRuns hk) hmine (k := s.tick + s.tick) ?_
  rw [State.runOp_filter hk, State.runFilter_eq h hy hp rfl, if_pos hfits]
  rfl

/-- A FILTER whose output fits, and that carries the record its source's end cuts at `p`. -/
theorem State.filterCarry_issued (h : s.tileIssues n d m q) (hk : opKind d = 0x07) {y : Layout} {r : List Rec} {p : Nat}
    (hy : (layoutsOf q.layouts).find? (fun y => y.num == u16At d 32) = some y) (hp : s.filterParse n d y = (r, some p))
    (hfits : (filterBytes q d r).length ≤ u32At d 28) {mine : Bool} (hmine : mine = true) :
    s.Issued (s.writeOp n d mine) n d (s.tile n) (writeCells 0 (writeCells 0 (s.tile n).lane (u32At d 24) (filterBytes q d r))
      (u32At d 40) (s.filterSource n d p (u32At d 20 - p))) := by
  refine State.issued_of_run h (filter_opRuns hk) hmine (k := s.tick + s.tick) ?_ (State.tileIssues_empty h).1 rfl
  rw [State.runOp_filter hk, State.runFilter_eq h hy hp rfl, if_pos hfits, Option.elim_some, State.running, State.lanePut_taken h,
    State.lanePut_issuing (State.tileIssues_whole h n)]

/-- A FILTER whose output does not fit leaves free bytes in the room it has. -/
theorem State.filterOver_issued (h : s.tileIssues n d m q) (hk : opKind d = 0x07) {y : Layout} {r : List Rec}
    (hy : (layoutsOf q.layouts).find? (fun y => y.num == u16At d 32) = some y) (hp : s.filterParse n d y = (r, none))
    (hover : u32At d 28 < (filterBytes q d r).length) {mine : Bool} (hmine : mine = true) :
    s.Issued (s.writeOp n d mine) n d (s.tile n)
      (writeCells 0 (s.tile n).lane (u32At d 24) (freeBytes (s.tick + s.tick) (u32At d 28))) := by
  refine State.issued_of_store h (filter_opRuns hk) hmine (k := s.tick + s.tick + 1) ?_
  rw [State.runOp_filter hk, State.runFilter_eq h hy hp rfl, if_neg (Nat.not_le.mpr hover), State.laneFree_eq]
  rfl

/-! ## STATS -/

theorem State.statsFold_taken (s : State) (n : Nat) (d : List Byte) (am : List W32) :
    (s.taken n d).statsFold n d am = s.statsFold n d am := by
  unfold State.statsFold
  rw [State.tile_taken]
  rfl

/-- The max-abs registers after a STATS in mode RESET or ACCUMULATE. -/
def State.statsAmax (s : State) (n : Nat) (d : List Byte) : List W32 :=
  s.statsFold n d
    (if byteAt d 30 = 0 then List.replicate (byteAt d 28) 0 ++ (s.tile n).amax.drop (byteAt d 28) else (s.tile n).amax)

theorem State.stats_issued (h : s.tileIssues n d m q) (hk : opKind d = 0x0B) (h2 : byteAt d 30 ≠ 2) {mine : Bool}
    (hmine : mine = true) :
    s.Issued (s.writeOp n d mine) n d { s.tile n with amax := s.statsAmax n d, tensor := some (u16At d 32) } (s.tile n).lane := by
  refine State.issued_of_run h (opRuns_of_kind hk (by decide) (by decide) (by decide)) hmine (k := s.tick + s.tick) ?_
    (State.tileIssues_empty h).1 rfl
  unfold State.runOp State.runStats
  rw [hk]
  dsimp only
  rw [if_neg h2, if_neg h2, State.running, State.statsFold_taken, State.tile_atTick, State.setTile_atTick, State.taken_eq h,
    State.setTile_setTile, State.tile_setTile_self]
  rfl

/-! ## The clauses -/

theorem exec_matmul (n : Nat) (d : List Byte) (s : State) : exec (.matmul n d) s = .next (s.writeOp n d (opKind d == 0x01)) := rfl
theorem exec_xorpop (n : Nat) (d : List Byte) (s : State) : exec (.xorpop n d) s = .next (s.writeOp n d (opKind d == 0x02)) := rfl
theorem exec_reduce (n : Nat) (d : List Byte) (s : State) : exec (.reduce n d) s = .next (s.writeOp n d (opKind d == 0x03)) := rfl
theorem exec_eltwise (n : Nat) (d : List Byte) (s : State) :
    exec (.eltwise n d) s = .next (s.writeOp n d (opKind d == 0x04 && byteAt d 32 != 0x0B)) := rfl
theorem exec_eltwiseQuant (n : Nat) (d : List Byte) (s : State) :
    exec (.eltwiseQuant n d) s = .next (s.writeOp n d (opKind d == 0x04 && byteAt d 32 == 0x0B)) := rfl
theorem exec_filter (n : Nat) (d : List Byte) (s : State) : exec (.filter n d) s = .next (s.writeOp n d (opKind d == 0x07)) := rfl
theorem exec_topk (n : Nat) (d : List Byte) (s : State) : exec (.topk n d) s = .next (s.writeOp n d (opKind d == 0x08)) := rfl
theorem exec_stats (n : Nat) (d : List Byte) (s : State) :
    exec (.stats n d) s = .next (s.writeOp n d (opKind d == 0x0B && byteAt d 30 != 2)) := rfl
theorem exec_statsReport (n : Nat) (d : List Byte) (s : State) :
    exec (.statsReport n d) s = .next (s.writeOp n d (opKind d == 0x0B && byteAt d 30 == 2)) := rfl

/-- A row that is not the descriptor's, or a tile that takes no ops: nothing changes (R59). -/
theorem exec_opRow_refused (h : d.length ≠ 64 ∨ s.takesOps n = false) :
    ∀ i ∈ [Instr.matmul n d, .xorpop n d, .reduce n d, .eltwise n d, .eltwiseQuant n d, .gather n d, .scatter n d, .filter n d,
      .topk n d, .loadBaton n d, .hurdleFence n d, .stats n d, .statsReport n d], exec i s = .next s := by
  have hstay : ∀ mine, done (s.writeOp n d mine) = .next s := fun mine => congrArg done (State.writeOp_refused h mine)
  simp only [List.forall_mem_cons, List.not_mem_nil, false_imp_iff, implies_true, and_true]
  exact ⟨hstay _, hstay _, hstay _, hstay _, hstay _, hstay _, hstay _, hstay _, hstay _, hstay _, hstay _, hstay _, hstay _⟩

/-- Each row that may write `d` writes it. -/
theorem exec_opRows {i : Instr} (hi : i ∈ opRows n d) :
    ∃ mine, exec i s = .next (s.writeOp n d mine) ∧ (mine = true ∨ opKind d = 0 ∨ 0x0B < opKind d) := by
  unfold opRows at hi
  split at hi
  case h_1 hk => exact ⟨_, List.mem_singleton.mp hi ▸ rfl, Or.inl (beq_iff_eq.mpr hk)⟩
  case h_2 hk => exact ⟨_, List.mem_singleton.mp hi ▸ rfl, Or.inl (beq_iff_eq.mpr hk)⟩
  case h_3 hk => exact ⟨_, List.mem_singleton.mp hi ▸ rfl, Or.inl (beq_iff_eq.mpr hk)⟩
  case h_4 hk =>
    rw [List.mem_singleton.mp hi]
    split
    · next hf => exact ⟨_, exec_eltwiseQuant n d s, Or.inl (by rw [hk, hf]; rfl)⟩
    · next hf => exact ⟨_, exec_eltwise n d s, Or.inl (by rw [hk, bne_iff_ne.mpr hf]; rfl)⟩
  case h_5 hk => exact ⟨_, List.mem_singleton.mp hi ▸ rfl, Or.inl (beq_iff_eq.mpr hk)⟩
  case h_6 hk => exact ⟨_, List.mem_singleton.mp hi ▸ rfl, Or.inl (beq_iff_eq.mpr hk)⟩
  case h_7 hk => exact ⟨_, List.mem_singleton.mp hi ▸ rfl, Or.inl (beq_iff_eq.mpr hk)⟩
  case h_8 hk => exact ⟨_, List.mem_singleton.mp hi ▸ rfl, Or.inl (beq_iff_eq.mpr hk)⟩
  case h_9 hk => exact ⟨_, List.mem_singleton.mp hi ▸ rfl, Or.inl (beq_iff_eq.mpr hk)⟩
  case h_10 hk => exact ⟨_, List.mem_singleton.mp hi ▸ rfl, Or.inl (beq_iff_eq.mpr hk)⟩
  case h_11 hk =>
    rw [List.mem_singleton.mp hi]
    split
    · next hf => exact ⟨_, exec_statsReport n d s, Or.inl (by rw [hk, hf]; rfl)⟩
    · next hf => exact ⟨_, exec_stats n d s, Or.inl (by rw [hk, bne_iff_ne.mpr hf]; rfl)⟩
  case h_12 h1 h2 h3 h4 h5 h6 h7 h8 h9 hA hB =>
    have hnone : opKind d = 0 ∨ 0x0B < opKind d := by
      simp only [imp_false] at h1 h2 h3 h4 h5 h6 h7 h8 h9 hA hB
      omega
    simp only [List.mem_cons, List.not_mem_nil, or_false] at hi
    rcases hi with rfl | rfl | rfl | rfl | rfl | rfl | rfl | rfl | rfl | rfl | rfl | rfl | rfl <;> exact ⟨_, rfl, Or.inr hnone⟩

/-- An op that decodes and may not issue yet waits in the queue (R60). -/
theorem State.writeOp_waits (h : s.tileQueues n d m q) {mine : Bool} (hmine : mine = true ∨ opKind d = 0 ∨ 0x0B < opKind d) :
    s.writeOp n d mine = s.queued n d := by
  obtain ⟨hlen, htakes, hqueue, hheld, -, hsquad, hq, hinst, hdec, hmay⟩ := h
  have htile := State.tile_queued s n d
  have hsees := State.queued_sees s n d
  rw [State.writeOp_queued hlen htakes hqueue hheld hinst hmine]
  refine State.pump_waits (s := s.queued n d) (ds := []) (m := m) (q := q) ?_ ?_ hq ((State.decodeOk_setTile hsees ..).trans hdec) ?_ 2
  · rw [htile]
  · rw [htile]
    exact hsquad
  · rw [htile, hsees.mayIssue rfl]
    exact hmay

end

end Sys2Proof.Machine
end
section
/-! MATMUL (R83, R101 to R104, R110): the rows it stores, and the dot products of the INT8 form. -/

namespace Sys2Proof.Machine

/-! ## Rows at a stride -/

/-- `m` with rows 0 to `k` - 1 written at a stride. -/
def writeRows (m : List Host.Cell) (base stride : Nat) (row : Nat → List Byte) (k : Nat) : List Host.Cell :=
  (List.range k).foldl (fun m i => writeCells 0 m (base + i * stride) (row i)) m

theorem writeRows_succ (m : List Host.Cell) (base stride : Nat) (row : Nat → List Byte) (k : Nat) :
    writeRows m base stride row (k + 1) = writeCells 0 (writeRows m base stride row k) (base + k * stride) (row k) := by
  unfold writeRows
  rw [List.range_succ, List.foldl_append, List.foldl_cons, List.foldl_nil]

section
variable {m : List Host.Cell} {base stride len : Nat} {row : Nat → List Byte} (hlen : ∀ i, (row i).length = len)
include hlen

/-- A byte outside every row reads as before. -/
theorem readCell_writeRows_out {k a : Nat} (h : ∀ i, i < k → a < base + i * stride ∨ base + i * stride + len ≤ a) :
    readCell 0 (writeRows m base stride row k) a = readCell 0 m a := by
  induction k with
  | zero => rfl
  | succ k ih =>
    rw [writeRows_succ, readCell_writeCells_out 0 _ _ _ _ (by rw [hlen]; exact h k (Nat.lt_succ_self k))]
    exact ih fun i hi => h i (Nat.lt_succ_of_lt hi)

/-- Rows that do not overlap read back. -/
theorem readCells_writeRows_in (hstride : len ≤ stride) {k i : Nat} (hi : i < k) :
    readCells 0 (writeRows m base stride row k) (base + i * stride) len = row i := by
  induction k with
  | zero => exact absurd hi (Nat.not_lt_zero i)
  | succ k ih =>
    rw [writeRows_succ]
    rcases Nat.lt_succ_iff_lt_or_eq.mp hi with hik | rfl
    · have hrow : base + i * stride + len ≤ base + k * stride := by
        have := Nat.mul_le_mul_right stride (Nat.succ_le_of_lt hik)
        rw [Nat.succ_mul] at this
        omega
      rw [Tests.readCells_out 0 _ _ _ _ _ (Or.inl hrow)]
      exact ih hik
    · exact Tests.readCells_in 0 _ _ _ _ (hlen i)

/-- What lies at and past row `k` is as before once the rows below it are written. -/
theorem readCells_writeRows_past (hstride : len ≤ stride) (k n : Nat) :
    readCells 0 (writeRows m base stride row k) (base + k * stride) n = readCells 0 m (base + k * stride) n := by
  refine readCells_congr fun i _ => readCell_writeRows_out hlen fun j hj => Or.inr ?_
  have := Nat.mul_le_mul_right stride (Nat.succ_le_of_lt hj)
  rw [Nat.succ_mul] at this
  omega

end

/-! ## The rows of a MATMUL -/

section
variable {s : State} {n m : Nat} {d : List Byte} {q : Squad}

/-- The column scales a MATMUL leaves (R110). -/
def State.mmScale (s : State) (n : Nat) (d : List Byte) : List W32 :=
  if byteAt d 37 = 0 then (s.tile n).scale
  else (((s.tile n).latches.getD (byteAt d 36) Latch.reset).shadow).getD (s.tile n).scale

/-- The bytes of output row `i`. -/
def State.mmBytes (s : State) (m n : Nat) (q : Squad) (d : List Byte) (i : Nat) : List Byte :=
  (s.mmRowAt m n q d (s.mmScale n d) i).flatMap (fun (x : Nat × W32) => leBytes x.1 (mmSize (byteAt d 37)))

theorem State.length_mmBytes (s : State) (m n : Nat) (q : Squad) (d : List Byte) (i : Nat) :
    (s.mmBytes m n q d i).length = 64 * mmSize (byteAt d 37) := by
  unfold State.mmBytes State.mmRowAt mmRowOf
  rw [length_flatMap_const (fun x => length_leBytes _ _), List.length_map, List.length_range, Nat.mul_comm]

/-- The max-abs registers after `k` rows. -/
def State.mmAmax (s : State) (m n : Nat) (q : Squad) (d : List Byte) (k : Nat) : List W32 :=
  if bitN (byteAt d 38) 1 then (List.range k).foldl (fun am i =>
    foldAmax am ((s.mmRowAt m n q d (s.mmScale n d) i).map Prod.snd)) (s.tile n).amax
  else (s.tile n).amax

theorem State.mmAmax_succ (s : State) (m n : Nat) (q : Squad) (d : List Byte) (k : Nat) :
    s.mmAmax m n q d (k + 1) = if bitN (byteAt d 38) 1 then
      foldAmax (s.mmAmax m n q d k) ((s.mmRowAt m n q d (s.mmScale n d) k).map Prod.snd) else s.mmAmax m n q d k := by
  unfold State.mmAmax
  split
  · rw [List.range_succ, List.foldl_append, List.foldl_cons, List.foldl_nil]
  · rfl

/-- The tile after `k` rows of a MATMUL that does not overlap its rows. -/
def State.mmTile (s : State) (m n : Nat) (q : Squad) (d : List Byte) (k : Nat) : Tile :=
  Tile.issuing { s.tile n with scale := s.mmScale n d, amax := s.mmAmax m n q d k } (s.tile n) d
    (writeRows (s.tile n).lane (u32At d 24) (u32At d 28) (s.mmBytes m n q d) k)

theorem State.mmTile_put (hw : (s.tile n).Whole) (hstride : 64 * mmSize (byteAt d 37) ≤ u32At d 28) (k : Nat) :
    (s.mmTile m n q d k).bytes (u32At d 24 + k * u32At d 28) 256 =
      readCells 0 (s.tile n).lane (u32At d 24 + k * u32At d 28) 256 ∧
    (let t1 := (s.mmTile m n q d k).put (u32At d 24 + k * u32At d 28) (s.mmBytes m n q d k)
     (if bitN (byteAt d 38) 1 then
       { t1 with amax := foldAmax t1.amax ((s.mmRowAt m n q d (s.mmScale n d) k).map Prod.snd) } else t1) =
      s.mmTile m n q d (k + 1)) := by
  have hwhole : (s.mmTile m n q d k).Whole := hw
  refine ⟨?_, ?_⟩
  · rw [hwhole.bytes]
    exact readCells_writeRows_past (State.length_mmBytes s m n q d) hstride k 256
  · dsimp only
    rw [hwhole.put]
    unfold State.mmTile
    rw [writeRows_succ, State.mmAmax_succ]
    split <;> rfl

theorem State.runMatmul_eq (h : s.tileIssues n d m q) (hstride : 64 * mmSize (byteAt d 37) ≤ u32At d 28) :
    (s.running n d).runMatmul (s.taken n d) q m n d =
      (s.setTile n (s.mmTile m n q d (u16At d 32))).atTick (s.tick + s.tick) := by
  have hw := State.tileIssues_whole h n
  have hfold : ∀ k, (List.range k).foldl (fun t i =>
      let out := u32At d 24 + i * u32At d 28
      let r := mmRowOf (opWfmt q d) (opAfmt q d)
        (fun i => ((s.tile n).latches.getD (byteAt d 36) Latch.reset).data.getD i 0) d
        (readCells 0 (s.tile n).lane (u32At d 16 + i * u32At d 20) (mmRow q d)) (t.bytes out 256) (s.mmScale n d) (s.mmFactor m q d)
      let t1 := t.put out (r.flatMap (fun (x : Nat × W32) => leBytes x.1 (mmSize (byteAt d 37))))
      if bitN (byteAt d 38) 1 then { t1 with amax := foldAmax t1.amax (r.map Prod.snd) } else t1) (s.mmTile m n q d 0) =
      s.mmTile m n q d k := by
    intro k
    induction k with
    | zero => rfl
    | succ k ih =>
      obtain ⟨hold, hput⟩ := State.mmTile_put (m := m) (q := q) hw hstride k
      rw [List.range_succ, List.foldl_append, ih, List.foldl_cons, List.foldl_nil]
      dsimp only
      rw [hold]
      exact hput
  have hzero : ({ (s.tile n).issuing (s.tile n) d (s.tile n).lane with scale := s.mmScale n d } : Tile) = s.mmTile m n q d 0 := by
    unfold State.mmTile State.mmAmax
    split <;> rfl
  unfold State.runMatmul
  rw [State.running, State.taken_eq h, State.tile_atTick, State.tile_setTile_self, State.setTile_atTick, State.setTile_setTile,
    ← hfold, ← hzero]
  dsimp only
  simp only [Tile.Whole.bytes (t := (s.tile n).issuing (s.tile n) d (s.tile n).lane) hw]
  rfl

theorem State.matmul_issued (h : s.tileIssues n d m q) (hk : opKind d = 0x01) (hstride : 64 * mmSize (byteAt d 37) ≤ u32At d 28)
    {mine : Bool} (hmine : mine = true) :
    s.Issued (s.writeOp n d mine) n d { s.tile n with scale := s.mmScale n d, amax := s.mmAmax m n q d (u16At d 32) }
      (writeRows (s.tile n).lane (u32At d 24) (u32At d 28) (s.mmBytes m n q d) (u16At d 32)) := by
  refine State.issued_of_run h (opRuns_of_kind hk (by decide) (by decide) (by decide)) hmine (k := s.tick + s.tick) ?_
    (State.tileIssues_empty h).1 rfl
  unfold State.runOp
  rw [hk]
  exact State.runMatmul_eq h hstride

/-! ## The INT8 form -/

/-- A sum in groups of 16. -/
theorem sum_groups (f : Nat → Nat → Int) (k : Nat) :
    ((List.range k).map (fun t => ((List.range 16).map (f t)).sum)).sum =
      ((List.range (16 * k)).map (fun j => f (j / 16) (j % 16))).sum := by
  induction k with
  | zero => rfl
  | succ k ih =>
    rw [List.range_succ (n := k), List.map_append, List.sum_append, ih, Nat.mul_succ, List.range_add, List.map_append, List.sum_append,
      List.map_map, List.map_singleton, List.sum_singleton]
    congr 2
    refine List.map_congr_left fun r hr => ?_
    have hlt := List.mem_range.mp hr
    show _ = f ((16 * k + r) / 16) ((16 * k + r) % 16)
    congr 1 <;> omega

theorem accIntOf_int8 (pl : Nat → Byte) (lane : List Host.Cell) (a first k c : Nat) :
    accIntOf 1 pl (readCells 0 lane a (16 * k)) first k c =
      ((List.range (16 * k)).map (fun j => signedN 8 (pl (1024 * (first + j / 16) + 64 * (j % 16) + c)).toNat *
        signedN 8 (readCell 0 lane (a + j)).toNat)).sum := by
  unfold accIntOf
  simp only [show (1 : Nat) ≠ 6 by decide, show (1 : Nat) ≠ 2 by decide, if_false]
  rw [sum_groups (fun t r => signedN 8 (weightAt 1 pl (first + t) r c) * signedN 8 (byteAt (readCells 0 lane a (16 * k)) (16 * t + r)))]
  refine congrArg List.sum (List.map_congr_left fun j hj => ?_)
  rw [Nat.div_add_mod, byteAt_readCells _ _ _ (List.mem_range.mp hj)]
  rfl

theorem mmOut_int8 (i : Int) (sc a : W32) : (mmOut 0 (.inl i) sc a none).1 = wrapZ 32 (clampZ (-2147483648) 2147483647 i) := by
  show wrapZ 32 (satInt 32 (i + 0)) = _
  rw [add_zero]
  rfl

/-- Column `c` of row `i` of an INT8 MATMUL with raw output. -/
theorem State.u32At_mmBytes_int8 (hw : opWfmt q d = 1) (hraw : byteAt d 37 = 0) (hacc : byteAt d 38 = 0) (i : Nat) {c : Nat}
    (hc : c < 64) : u32At (s.mmBytes m n q d i) (4 * c) =
      wrapZ 32 (clampZ (-2147483648) 2147483647 ((List.range (16 * byteAt d 34)).map (fun k =>
        signedN 8 (((s.tile n).latches.getD (byteAt d 36) Latch.reset).data.getD
          (1024 * (byteAt d 35 + k / 16) + 64 * (k % 16) + c) 0).toNat *
        signedN 8 (readCell 0 (s.tile n).lane (u32At d 16 + i * u32At d 20 + k)).toNat)).sum) := by
  have hnone : mmAccum d = false := by
    unfold mmAccum
    rw [hacc]
    rfl
  have hrow : mmRow q d = 16 * byteAt d 34 := by
    unfold mmRow
    rw [hw]
    rfl
  unfold State.mmBytes State.mmRowAt mmRowOf
  dsimp only
  rw [List.flatMap_map, hraw]
  have hat := leAt_flatMap (f := fun c => leBytes (mmOut 0 (accOf (opWfmt q d) (opAfmt q d)
      (fun k => ((s.tile n).latches.getD (byteAt d 36) Latch.reset).data.getD k 0)
      (readCells 0 (s.tile n).lane (u32At d 16 + i * u32At d 20) (mmRow q d)) (byteAt d 35) (byteAt d 34) c)
      ((s.mmScale n d).getD c 0x3F800000) (s.mmFactor m q d) none).1 4) (fun x => length_leBytes _ 4) (List.range 64)
      (i := c) (by simpa using hc) (o := 0) (n := 4) (by omega)
  rw [Nat.add_zero, leAt_leBytes, List.getElem_range] at hat
  simp only [hnone, Bool.false_eq_true, if_false]
  refine hat.trans ?_
  rw [hw, hrow]
  show (mmOut 0 (.inl (accIntOf 1 _ _ _ _ _)) _ _ none).1 % 256 ^ 4 = _
  rw [mmOut_int8, accIntOf_int8]
  exact Nat.mod_eq_of_lt (wrapZ_lt 32 _)

end

end Sys2Proof.Machine
end
section
/-! TOPK into lane memory (R64, R73): the entries it stores are those of the best keys, in order. -/

namespace Sys2Proof.Machine

/-! ## The nearest of a list -/

/-- Order by distance, and among equals by a free draw. -/
def nearer (tick : Nat) (dist : α → Nat) (a b : α × Nat) : Bool :=
  dist a.1 < dist b.1 || (dist a.1 == dist b.1 && Config.freeNat (tick + a.2) ≤ Config.freeNat (tick + b.2))

theorem nearer_iff {α : Type} (tick : Nat) (dist : α → Nat) (a b : α × Nat) : nearer tick dist a b = true ↔
    dist a.1 < dist b.1 ∨ (dist a.1 = dist b.1 ∧ Config.freeNat (tick + a.2) ≤ Config.freeNat (tick + b.2)) := by
  unfold nearer
  simp only [Bool.or_eq_true, Bool.and_eq_true, decide_eq_true_eq, beq_iff_eq]

theorem nearer_trans {α : Type} (tick : Nat) (dist : α → Nat) (a b c : α × Nat) (hab : nearer tick dist a b = true)
    (hbc : nearer tick dist b c = true) : nearer tick dist a c = true := by
  rw [nearer_iff] at *
  omega

theorem nearer_total {α : Type} (tick : Nat) (dist : α → Nat) (a b : α × Nat) :
    (nearer tick dist a b || nearer tick dist b a) = true := by
  rw [Bool.or_eq_true, nearer_iff, nearer_iff]
  omega

theorem zipIdx_map_range {α : Type} (g : Nat → α) (c : Nat) :
    ((List.range c).map g).zipIdx = (List.range c).map (fun i => (g i, i)) := by
  refine List.ext_getElem (by simp) fun i _ _ => ?_
  simp

/-- The nearest of the elements `g 0` to `g (c - 1)` are those of the first indices of an order by distance. -/
theorem nearestK_range {α : Type} (tick k c : Nat) (g : Nat → α) (dist : α → Nat) :
    ∃ l : List Nat, l.Perm (List.range c) ∧ l.Pairwise (fun a b => dist (g a) ≤ dist (g b)) ∧
      nearestK tick k dist ((List.range c).map g) = (l.take k).map g := by
  refine ⟨(List.range c).mergeSort (fun a b => nearer tick dist (g a, a) (g b, b)), List.mergeSort_perm .., ?_, ?_⟩
  · refine (List.pairwise_mergeSort (le := fun a b => nearer tick dist (g a, a) (g b, b))
      (fun a b c => nearer_trans tick dist (g a, a) (g b, b) (g c, c)) (fun a b => nearer_total tick dist (g a, a) (g b, b))
      (List.range c)).imp ?_
    intro a b hab
    rw [nearer_iff] at hab
    dsimp only at hab
    omega
  · have hsort := List.map_mergeSort (r := fun a b => nearer tick dist (g a, a) (g b, b)) (s := nearer tick dist)
      (f := fun i => (g i, i)) (l := List.range c) (fun _ _ _ _ => rfl)
    unfold nearestK
    rw [zipIdx_map_range]
    show (((List.map _ _).mergeSort (nearer tick dist)).map Prod.fst).take k = _
    rw [← hsort, List.map_map, List.map_take]
    rfl

/-- An ordered list is its own order. -/
theorem mergeSort_eq_of_perm {l r : List Nat} (hl : l.Pairwise (· ≤ ·)) (hp : l.Perm r) :
    r.mergeSort (fun a b => a ≤ b) = l := by
  have hsorted := List.pairwise_mergeSort (le := fun a b : Nat => decide (a ≤ b))
    (fun a b c hab hbc => decide_eq_true ((of_decide_eq_true hab).trans (of_decide_eq_true hbc)))
    (fun a b => by rw [Bool.or_eq_true, decide_eq_true_eq, decide_eq_true_eq]; exact Nat.le_total a b) r
  exact List.Perm.eq_of_pairwise (le := (· ≤ ·)) (fun _ _ _ _ => Nat.le_antisymm) (hsorted.imp of_decide_eq_true) hl
    ((List.mergeSort_perm ..).trans hp.symm)

/-! ## The entries -/

section
variable {s : State} {n m : Nat} {d : List Byte} {q : Squad}

/-- Bytes of a key. -/
def topkWidth (d : List Byte) : Nat := if byteAt d 36 = 0 then 2 else 4

/-- Id `i` of a TOPK, and its key with its entry. -/
def State.topkId (s : State) (n : Nat) (d : List Byte) (i : Nat) : Nat :=
  u64At (readCells 0 (s.tile n).lane (u32At d 20) (8 * u32At d 24)) (8 * i)
def State.topkItem (s : State) (n : Nat) (d : List Byte) (i : Nat) : Nat × HeapEntry :=
  let key := leAt (readCells 0 (s.tile n).lane (u32At d 16) (topkWidth d * u32At d 24)) (topkWidth d * i) (topkWidth d)
  let fr := Config.freeWord s.tick i
  (keyRank (byteAt d 36) (Config.freeWord (s.tick + 1) key) key,
    { loc := s.topkId n d i, dist := if byteAt d 36 = 0 then key else fr.toNat % 65536, list := bitsW fr 23 0, side := bitW fr 24 })

theorem State.topkItems_taken (h : s.tileIssues n d m q) :
    ((s.taken n d).topkItems n d).map (fun x =>
      (keyRank (byteAt d 36) (Config.freeWord ((s.taken n d).tick + 1) x.1) x.1, x.2)) =
      (List.range (u32At d 24)).map (s.topkItem n d) := by
  unfold State.topkItems
  dsimp only
  rw [State.bytes_taken h, State.bytes_taken h, List.map_map]
  rfl

theorem topk_opRuns (hk : opKind d = 0x08) : opRuns d := opRuns_of_kind hk (by decide) (by decide) (by decide)

/-- A heap entry as TOPK stores it. -/
def HeapEntry.stored (e : HeapEntry) : ResEntry := { id := e.loc, dist := e.dist, list := e.list, side := e.side, cut := false }

/-- The entries of the items `l`. -/
def State.topkBytes (s : State) (n : Nat) (d : List Byte) (l : List Nat) : List Byte :=
  l.flatMap (fun i => entryBytes 2 (s.topkItem n d i).2.stored)

/-- A TOPK into lane memory stores the entries of its best items. -/
theorem State.topk_issued (h : s.tileIssues n d m q) (hk : opKind d = 0x08) (h1 : byteAt d 30 = 1) {mine : Bool}
    (hmine : mine = true) : ∃ l : List Nat, l.Perm (List.range (u32At d 24)) ∧
      l.Pairwise (fun a b => (s.topkItem n d a).1 ≤ (s.topkItem n d b).1) ∧
      s.Issued (s.writeOp n d mine) n d (s.tile n)
        (writeCells 0 (s.tile n).lane (u32At d 32) (s.topkBytes n d (l.take (u16At d 28)))) := by
  obtain ⟨l, hperm, hsorted, hbest⟩ := nearestK_range (s.tick + s.tick + 2) (u16At d 28) (u32At d 24) (s.topkItem n d) Prod.fst
  refine ⟨l, hperm, hsorted, State.issued_of_store h (topk_opRuns hk) hmine (k := s.tick + s.tick + 2 + u32At d 24) ?_⟩
  unfold State.runOp State.runTopk
  rw [hk]
  dsimp only
  rw [State.topkItems_taken h, if_pos h1, List.length_map, List.length_range]
  have hbest' : nearestK ((s.running n d).tick + 2) (u16At d 28) Prod.fst ((List.range (u32At d 24)).map (s.topkItem n d)) =
    (l.take (u16At d 28)).map (s.topkItem n d) := hbest
  rw [hbest', List.flatMap_map]
  rfl

theorem length_entryBytes (e : ResEntry) : (entryBytes 2 e).length = 16 := by
  unfold entryBytes
  rw [if_pos rfl]
  simp

theorem entryBytes_fields (e : ResEntry) : u64At (entryBytes 2 e) 0 = e.id % 256 ^ 8 ∧ u16At (entryBytes 2 e) 8 = e.dist % 256 ^ 2 := by
  unfold entryBytes
  rw [if_pos rfl]
  simp only [List.append_assoc]
  constructor
  · rw [u64At, leAt_append_left (by simp), leAt_leBytes]
  · have hat := leAt_append (leBytes e.id 8) (leBytes e.dist 2 ++
      (leBytes e.list 3 ++ (leBytes (b2n e.side + 2 * b2n e.cut) 1 ++ leBytes 0 2))) 0 2
    rw [length_leBytes] at hat
    rw [u16At, hat, leAt_append_left (by simp), leAt_leBytes]

theorem State.length_topkBytes (s : State) (n : Nat) (d : List Byte) (l : List Nat) : (s.topkBytes n d l).length = 16 * l.length :=
  length_flatMap_const (fun _ => length_entryBytes _) l

/-- The ids and the distances in the stored entries. -/
theorem State.topkBytes_fields (s : State) (n : Nat) (d : List Byte) (l : List Nat) {j : Nat} (hj : j < l.length) :
    u64At (s.topkBytes n d l) (16 * j) = s.topkId n d l[j] ∧
    u16At (s.topkBytes n d l) (16 * j + 8) = (s.topkItem n d l[j]).2.dist % 256 ^ 2 := by
  have hfields := entryBytes_fields (s.topkItem n d l[j]).2.stored
  obtain ⟨hid, hdist⟩ := hfields
  constructor
  · have hat := leAt_flatMap (f := fun i => entryBytes 2 (s.topkItem n d i).2.stored) (fun i => length_entryBytes _) l hj (o := 0)
      (n := 8) (by omega)
    rw [Nat.add_zero] at hat
    refine hat.trans (hid.trans (Nat.mod_eq_of_lt ?_))
    exact leAt_lt _ _ 8
  · exact (leAt_flatMap (fun i => length_entryBytes _) l hj (o := 8) (n := 2) (by omega)).trans hdist

/-- The rank and the key of an item. -/
theorem State.topkItem_rank (s : State) (n : Nat) (d : List Byte) {i : Nat} (hi : i < u32At d 24) :
    (s.topkItem n d i).1 = keyRank (byteAt d 36) (Config.freeWord (s.tick + 1) (s.topkKey n d i)) (s.topkKey n d i) := by
  have hkey : leAt (readCells 0 (s.tile n).lane (u32At d 16) (topkWidth d * u32At d 24)) (topkWidth d * i) (topkWidth d) =
      s.topkKey n d i := by
    refine leAt_readCells 0 _ _ ?_
    have := Nat.mul_le_mul_left (topkWidth d) (Nat.succ_le_of_lt hi)
    rw [Nat.mul_succ] at this
    exact this
  unfold State.topkItem
  dsimp only
  rw [hkey]

/-- Distance `i` of a TOPK of distances, its rank and its entry's. -/
def State.topkDist (s : State) (n : Nat) (d : List Byte) (i : Nat) : Nat :=
  u16At (readCells 0 (s.tile n).lane (u32At d 16) (2 * u32At d 24)) (2 * i)

theorem State.topkItem_dist (s : State) (n : Nat) {d : List Byte} (h0 : byteAt d 36 = 0) (i : Nat) :
    (s.topkItem n d i).1 = s.topkDist n d i ∧ (s.topkItem n d i).2.dist = s.topkDist n d i := by
  have hw : topkWidth d = 2 := if_pos h0
  unfold State.topkItem keyRank
  dsimp only
  rw [if_pos h0, if_pos h0, hw]
  exact ⟨rfl, rfl⟩

end

end Sys2Proof.Machine
end
section
/-! Heaps of nearest codes (R73, R100): what taking one entry does, and what stays of many. -/

namespace Sys2Proof.Machine

/-! ## Entries in lane memory -/

theorem HeapEntry.length_bytes (e : HeapEntry) : e.bytes.length = 16 := by
  unfold HeapEntry.bytes
  simp

/-- An entry as it reads back. -/
def HeapEntry.back (e : HeapEntry) : HeapEntry := HeapEntry.ofBytes e.bytes

/-- Fields of an entry's bytes. -/
theorem HeapEntry.back_eq (e : HeapEntry) :
    e.back = { loc := e.loc % 256 ^ 8, dist := e.dist % 256 ^ 2, list := e.list % 256 ^ 3, side := e.side } := by
  have hloc : leAt e.bytes 0 8 = e.loc % 256 ^ 8 := by
    unfold HeapEntry.bytes
    simp only [List.append_assoc]
    rw [leAt_append_left (by simp), leAt_leBytes]
  have hdist : leAt e.bytes 8 2 = e.dist % 256 ^ 2 := by
    have hat := leAt_append (leBytes e.loc 8) (leBytes e.dist 2 ++ (leBytes e.list 3 ++ (leBytes (b2n e.side) 1 ++ leBytes 0 2))) 0 2
    rw [length_leBytes] at hat
    unfold HeapEntry.bytes
    simp only [List.append_assoc]
    exact hat.trans ((leAt_append_left (by simp)).trans (leAt_leBytes ..))
  have hlist : leAt e.bytes 10 3 = e.list % 256 ^ 3 := by
    have hat := leAt_append (leBytes e.loc 8 ++ leBytes e.dist 2) (leBytes e.list 3 ++ (leBytes (b2n e.side) 1 ++ leBytes 0 2)) 0 3
    rw [List.length_append, length_leBytes, length_leBytes] at hat
    unfold HeapEntry.bytes
    simp only [List.append_assoc] at hat ⊢
    exact hat.trans ((leAt_append_left (by simp)).trans (leAt_leBytes ..))
  have hside : byteAt e.bytes 13 = b2n e.side := by
    have hat := leAt_append (leBytes e.loc 8 ++ leBytes e.dist 2 ++ leBytes e.list 3) (leBytes (b2n e.side) 1 ++ leBytes 0 2) 0 1
    rw [List.length_append, List.length_append, length_leBytes, length_leBytes, length_leBytes] at hat
    have hbyte : leAt e.bytes 13 1 = byteAt e.bytes 13 := by rw [leAt, leAt, Nat.mul_zero, Nat.add_zero]
    rw [← hbyte]
    unfold HeapEntry.bytes
    simp only [List.append_assoc] at hat ⊢
    refine hat.trans ((leAt_append_left (by simp)).trans ((leAt_leBytes ..).trans ?_))
    cases e.side <;> rfl
  unfold HeapEntry.back HeapEntry.ofBytes u64At u16At
  rw [hloc, hdist, hlist, hside]
  cases e.side <;> rfl

/-- An entry read from lane memory reads back as it is. -/
theorem HeapEntry.back_ofBytes (l : List Byte) : (HeapEntry.ofBytes l).back = HeapEntry.ofBytes l := by
  rw [HeapEntry.back_eq]
  have hloc : u64At l 0 < 256 ^ 8 := leAt_lt l 0 8
  have hdist : u16At l 8 < 256 ^ 2 := leAt_lt l 8 2
  unfold HeapEntry.ofBytes
  dsimp only
  rw [Nat.mod_eq_of_lt hloc, Nat.mod_eq_of_lt hdist, Nat.mod_eq_of_lt (leAt_lt l 10 3)]

theorem HeapEntry.back_dist {e : HeapEntry} (h : e.dist < 65536) : e.back.dist = e.dist := by
  rw [HeapEntry.back_eq]
  exact Nat.mod_eq_of_lt h

/-- Entry `i` of a table of entries of `w` bytes just written. -/
theorem readCells_entry {α : Type} {f : α → List Byte} {w : Nat} (hw : ∀ x, (f x).length = w) (m : List Host.Cell) (a : Nat)
    (l : List α) {i : Nat} (hi : i < l.length) : readCells 0 (writeCells 0 m a (l.flatMap f)) (a + w * i) w = f l[i] := by
  refine List.ext_getElem (by rw [length_readCells, hw]) fun j hj hj' => ?_
  rw [length_readCells] at hj
  have hget : (l.flatMap f)[w * i + j]? = some (f l[i])[j] := by
    rw [Nat.mul_comm, getElem?_flatMap_row hw l i hj, List.getElem?_eq_getElem hi, Option.bind_some, List.getElem?_eq_getElem hj']
  obtain ⟨hlt, heq⟩ := List.getElem?_eq_some_iff.mp hget
  simp only [readCells, List.getElem_map, List.getElem_range]
  rw [Nat.add_assoc, readCell_writeCells_in 0 m a _ _ hlt, heq]

/-- A heap just written reads back, entry by entry. -/
theorem Tile.heap_written {t : Tile} (hw : t.Whole) {x : Ctx} {h : List HeapEntry} {m : List Host.Cell}
    (hlane : t.lane = writeCells 0 m x.heapAddr (h.flatMap HeapEntry.bytes)) (hheld : x.held = h.length) :
    t.heap x = h.map HeapEntry.back := by
  unfold Tile.heap
  refine List.ext_getElem (by simp [hheld]) fun i hi _ => ?_
  have hlt : i < h.length := by simpa [hheld] using hi
  rw [List.getElem_map, List.getElem_map, List.getElem_range, hw.bytes, hlane,
    readCells_entry HeapEntry.length_bytes m x.heapAddr h hlt]
  rfl

/-- Every entry of a heap in lane memory reads back as it is. -/
theorem Tile.back_of_mem_heap {t : Tile} {x : Ctx} {e : HeapEntry} (h : e ∈ t.heap x) : e.back = e ∧ e.dist < 65536 := by
  obtain ⟨i, -, rfl⟩ := List.mem_map.mp h
  exact ⟨HeapEntry.back_ofBytes _, leAt_lt _ 8 2⟩

theorem Tile.length_heap (t : Tile) (x : Ctx) : (t.heap x).length = x.held := by
  unfold Tile.heap
  rw [List.length_map, List.length_range]

/-! ## Taking one entry -/

theorem foldl_max_le {l : List HeapEntry} {b : Nat} :
    b ≤ l.foldl (fun m x => max m x.dist) b ∧ ∀ x ∈ l, x.dist ≤ l.foldl (fun m x => max m x.dist) b := by
  induction l generalizing b with
  | nil => exact ⟨Nat.le_refl b, fun x hx => absurd hx List.not_mem_nil⟩
  | cons y l ih =>
    obtain ⟨hb, hl⟩ := ih (b := max b y.dist)
    rw [List.foldl_cons]
    refine ⟨(Nat.le_max_left ..).trans hb, fun x hx => ?_⟩
    rcases List.mem_cons.mp hx with rfl | hx
    · exact (Nat.le_max_right ..).trans hb
    · exact hl x hx

theorem foldl_max_mem {l : List HeapEntry} {b : Nat} :
    l.foldl (fun m x => max m x.dist) b = b ∨ ∃ x ∈ l, x.dist = l.foldl (fun m x => max m x.dist) b := by
  induction l generalizing b with
  | nil => exact Or.inl rfl
  | cons y l ih =>
    rw [List.foldl_cons]
    rcases ih (b := max b y.dist) with h | ⟨x, hx, h⟩
    · rw [h]
      rcases Nat.le_total b y.dist with hle | hle
      · exact Or.inr ⟨y, List.mem_cons_self .., (Nat.max_eq_right hle).symm⟩
      · exact Or.inl (Nat.max_eq_left hle)
    · exact Or.inr ⟨x, List.mem_cons_of_mem _ hx, h⟩

/-- An entry the heap takes is put in, in the place of a worst one where the heap is full. -/
theorem heapInsert_taken {k tick : Nat} {h : List HeapEntry} {e : HeapEntry} (ht : heapTakes k h e.dist = true) :
    (h.length < k ∧ heapInsert tick k h e = h ++ [e]) ∨
    (k ≤ h.length ∧ ∃ v ∈ h, (∀ x ∈ h, x.dist ≤ v.dist) ∧ e.dist < v.dist ∧ heapInsert tick k h e = h.erase v ++ [e]) := by
  unfold heapInsert
  by_cases hk : h.length < k
  · exact Or.inl ⟨hk, if_pos hk⟩
  · refine Or.inr ⟨Nat.le_of_not_lt hk, ?_⟩
    rw [if_neg hk]
    dsimp only
    obtain ⟨-, hmax⟩ := foldl_max_le (l := h) (b := 0)
    unfold heapTakes at ht
    rw [decide_eq_false hk, Bool.false_or, List.any_eq_true] at ht
    obtain ⟨x, hx, hless⟩ := ht
    have hlt : e.dist < h.foldl (fun m x => max m x.dist) 0 := Nat.lt_of_lt_of_le (of_decide_eq_true hless) (hmax x hx)
    rw [if_pos hlt]
    have hat : h.filter (fun x => x.dist == h.foldl (fun m x => max m x.dist) 0) ≠ [] := by
      rcases foldl_max_mem (l := h) (b := 0) with h0 | ⟨y, hy, heq⟩
      · rw [h0] at hlt
        exact absurd hlt (Nat.not_lt_zero _)
      · exact List.ne_nil_of_mem (List.mem_filter.mpr ⟨hy, beq_iff_eq.mpr heq⟩)
    have hpos : 0 < (h.filter (fun x => x.dist == h.foldl (fun m x => max m x.dist) 0)).length := List.length_pos_of_ne_nil hat
    have hidx := Nat.mod_lt (Config.freeNat tick) (Nat.lt_of_lt_of_le Nat.one_pos (Nat.le_max_right
      (h.filter (fun x => x.dist == h.foldl (fun m x => max m x.dist) 0)).length 1))
    rw [Nat.max_eq_left hpos] at hidx ⊢
    rw [List.getD_eq_getElem _ _ hidx]
    obtain ⟨hmem, hdist⟩ := List.mem_filter.mp (List.getElem_mem hidx)
    rw [beq_iff_eq] at hdist
    exact ⟨_, hmem, fun x hx => (hmax x hx).trans_eq hdist.symm, hlt.trans_eq hdist.symm, rfl⟩

/-- One entry comes to a heap of at most `k`, or not. -/
def heapStep (k tick : Nat) (comes : Bool) (h : List HeapEntry) (e : HeapEntry) : List HeapEntry :=
  if comes && heapTakes k h e.dist then heapInsert tick k h e else h

/-- What one entry does: nothing, or it is put in, with or without a worst one leaving. -/
theorem heapStep_cases (k tick : Nat) (comes : Bool) (h : List HeapEntry) (e : HeapEntry) :
    (heapStep k tick comes h e = h ∧ (comes = false ∨ k ≤ h.length ∧ ∀ x ∈ h, x.dist ≤ e.dist)) ∨
    (comes = true ∧ h.length < k ∧ heapStep k tick comes h e = h ++ [e]) ∨
    (comes = true ∧ k ≤ h.length ∧ ∃ v ∈ h, (∀ x ∈ h, x.dist ≤ v.dist) ∧ e.dist < v.dist ∧
      heapStep k tick comes h e = h.erase v ++ [e]) := by
  unfold heapStep
  cases comes with
  | false => exact Or.inl ⟨rfl, Or.inl rfl⟩
  | true =>
    rw [Bool.true_and]
    cases ht : heapTakes k h e.dist with
    | false =>
      refine Or.inl ⟨rfl, Or.inr ?_⟩
      unfold heapTakes at ht
      simp only [Bool.or_eq_false_iff, decide_eq_false_iff_not, Nat.not_lt, List.any_eq_false, decide_eq_true_eq] at ht
      exact ht
    | true =>
      rw [if_pos rfl]
      rcases heapInsert_taken (tick := tick) ht with ⟨hk, heq⟩ | ⟨hk, v, hv, hmax, hlt, heq⟩
      · exact Or.inr (Or.inl ⟨rfl, hk, heq⟩)
      · exact Or.inr (Or.inr ⟨rfl, hk, v, hv, hmax, hlt, heq⟩)

theorem length_evict {h : List HeapEntry} {v : HeapEntry} (hv : v ∈ h) (e : HeapEntry) : (h.erase v ++ [e]).length = h.length := by
  have hpos := List.length_pos_of_mem hv
  rw [List.length_append, List.length_erase_of_mem hv, List.length_singleton]
  omega

theorem heapStep_length (k tick : Nat) (comes : Bool) (h : List HeapEntry) (e : HeapEntry) :
    (heapStep k tick comes h e).length ≤ max h.length k := by
  rcases heapStep_cases k tick comes h e with ⟨heq, -⟩ | ⟨-, hk, heq⟩ | ⟨-, -, v, hv, -, -, heq⟩
  · rw [heq]
    exact Nat.le_max_left ..
  · rw [heq, List.length_append, List.length_singleton]
    exact (Nat.succ_le_of_lt hk).trans (Nat.le_max_right ..)
  · rw [heq, length_evict hv]
    exact Nat.le_max_left ..

theorem heapStep_mem {k tick : Nat} {comes : Bool} {h : List HeapEntry} {e x : HeapEntry} (hx : x ∈ heapStep k tick comes h e) :
    x ∈ h ∨ (comes = true ∧ x = e) := by
  rcases heapStep_cases k tick comes h e with ⟨heq, -⟩ | ⟨hc, -, heq⟩ | ⟨hc, -, v, -, -, -, heq⟩
  · exact Or.inl (heq ▸ hx)
  · rw [heq, List.mem_append, List.mem_singleton] at hx
    exact hx.imp_right (fun h => ⟨hc, h⟩)
  · rw [heq, List.mem_append, List.mem_singleton] at hx
    exact hx.imp List.mem_of_mem_erase (fun h => ⟨hc, h⟩)

/-- A heap of `k` holds distance `b`, or only distances up to it. -/
def keepsDist (k b : Nat) (h : List HeapEntry) : Prop :=
  (∃ e ∈ h, e.dist = b) ∨ (h.length = k ∧ ∀ e ∈ h, e.dist ≤ b)

theorem heapStep_keeps {k tick b : Nat} {comes : Bool} {h : List HeapEntry} {e : HeapEntry} (hk : h.length ≤ k)
    (hb : keepsDist k b h) : keepsDist k b (heapStep k tick comes h e) := by
  rcases heapStep_cases k tick comes h e with ⟨heq, -⟩ | ⟨-, hless, heq⟩ | ⟨-, hfull, v, hv, hmax, hlt, heq⟩
  · rwa [heq]
  · rw [heq]
    rcases hb with ⟨x, hx, hdist⟩ | ⟨hlen, -⟩
    · exact Or.inl ⟨x, List.mem_append_left _ hx, hdist⟩
    · exact absurd hlen (Nat.ne_of_lt hless)
  · rw [heq]
    have hall : ∀ c, v.dist ≤ c → ∀ x ∈ h.erase v ++ [e], x.dist ≤ c := by
      intro c hc x hx
      rcases List.mem_append.mp hx with hx | hx
      · exact (hmax x (List.mem_of_mem_erase hx)).trans hc
      · rw [List.mem_singleton.mp hx]
        exact hlt.le.trans hc
    have hlen : (h.erase v ++ [e]).length = k := (length_evict hv e).trans (Nat.le_antisymm hk hfull)
    rcases hb with ⟨x, hx, hdist⟩ | ⟨-, hle⟩
    · by_cases hxv : x = v
      · exact Or.inr ⟨hlen, hall b (hxv ▸ hdist.le)⟩
      · exact Or.inl ⟨x, List.mem_append_left _ ((List.mem_erase_of_ne hxv).mpr hx), hdist⟩
    · exact Or.inr ⟨hlen, hall b (hle v hv)⟩

/-- After an entry came, the heap keeps its distance. -/
theorem heapStep_came {k tick : Nat} {h : List HeapEntry} {e : HeapEntry} (hk : h.length ≤ k) :
    keepsDist k e.dist (heapStep k tick true h e) := by
  rcases heapStep_cases k tick true h e with ⟨heq, hc | ⟨hfull, hle⟩⟩ | ⟨-, -, heq⟩ | ⟨-, -, v, -, -, -, heq⟩
  · exact absurd hc Bool.true_eq_false_eq_False
  · rw [heq]
    exact Or.inr ⟨Nat.le_antisymm hk hfull, hle⟩
  · rw [heq]
    exact Or.inl ⟨e, List.mem_append_right _ (List.mem_singleton_self e), rfl⟩
  · rw [heq]
    exact Or.inl ⟨e, List.mem_append_right _ (List.mem_singleton_self e), rfl⟩

/-! ## Taking many -/

section
variable {α : Type} (k : Nat) (tick : α → Nat) (comes : α → Bool) (entry : α → HeapEntry)

/-- The heap after each of `l` came or not. -/
def heapFold (h : List HeapEntry) (l : List α) : List HeapEntry :=
  l.foldl (fun h j => heapStep k (tick j) (comes j) h (entry j)) h

theorem heapFold_cons (h : List HeapEntry) (j : α) (l : List α) : heapFold k tick comes entry h (j :: l) =
    heapFold k tick comes entry (heapStep k (tick j) (comes j) h (entry j)) l := rfl

theorem heapFold_length (h : List HeapEntry) (l : List α) : (heapFold k tick comes entry h l).length ≤ max h.length k := by
  induction l generalizing h with
  | nil => exact Nat.le_max_left ..
  | cons j l ih =>
    have hstep := heapStep_length k (tick j) (comes j) h (entry j)
    rw [heapFold_cons]
    exact (ih _).trans (by omega)

theorem heapFold_mem {h : List HeapEntry} {l : List α} {e : HeapEntry} (he : e ∈ heapFold k tick comes entry h l) :
    e ∈ h ∨ ∃ j ∈ l, comes j = true ∧ e = entry j := by
  induction l generalizing h with
  | nil => exact Or.inl he
  | cons j l ih =>
    rw [heapFold_cons] at he
    rcases ih he with hmem | ⟨i, hi, hc, heq⟩
    · rcases heapStep_mem hmem with hmem | ⟨hc, heq⟩
      · exact Or.inl hmem
      · exact Or.inr ⟨j, List.mem_cons_self .., hc, heq⟩
    · exact Or.inr ⟨i, List.mem_cons_of_mem _ hi, hc, heq⟩

theorem heapFold_keeps {h : List HeapEntry} {l : List α} {b : Nat} (hk : h.length ≤ k) (hb : keepsDist k b h) :
    keepsDist k b (heapFold k tick comes entry h l) := by
  induction l generalizing h with
  | nil => exact hb
  | cons j l ih =>
    have hstep := heapStep_length k (tick j) (comes j) h (entry j)
    rw [heapFold_cons]
    exact ih (by omega) (heapStep_keeps hk hb)

/-- Every distance that came is kept. -/
theorem heapFold_came {h : List HeapEntry} {l : List α} {j : α} (hk : h.length ≤ k) (hj : j ∈ l) (hc : comes j = true) :
    keepsDist k (entry j).dist (heapFold k tick comes entry h l) := by
  induction l generalizing h with
  | nil => exact absurd hj List.not_mem_nil
  | cons i l ih =>
    have hstep := heapStep_length k (tick i) (comes i) h (entry i)
    rw [heapFold_cons]
    rcases List.mem_cons.mp hj with rfl | hj
    · refine heapFold_keeps k tick comes entry (by omega) ?_
      rw [hc]
      exact heapStep_came hk
    · exact ih (by omega) hj

end

/-! ## The least of many -/

/-- `h` holds `k` least of the distances `ds`, the others being `rest`. -/
def leastOf (k : Nat) (ds : List Nat) (h : List HeapEntry) : Prop :=
  ∃ rest : List Nat, ds.Perm (h.map HeapEntry.dist ++ rest) ∧ h.length ≤ k ∧ (rest ≠ [] → h.length = k) ∧
    ∀ e ∈ h, ∀ b ∈ rest, e.dist ≤ b

theorem heapStep_least {k tick : Nat} {ds : List Nat} {h : List HeapEntry} {e : HeapEntry} (hl : leastOf k ds h) :
    leastOf k (ds ++ [e.dist]) (heapStep k tick true h e) := by
  obtain ⟨rest, hperm, hk, hfull, hle⟩ := hl
  rcases heapStep_cases k tick true h e with ⟨heq, hc | ⟨hlen, hmax⟩⟩ | ⟨-, hless, heq⟩ | ⟨-, hlen, v, hv, hmax, hlt, heq⟩
  · exact absurd hc Bool.true_eq_false_eq_False
  · rw [heq]
    refine ⟨rest ++ [e.dist], ?_, hk, fun _ => Nat.le_antisymm hk hlen, fun x hx b hb => ?_⟩
    · rw [← List.append_assoc]
      exact hperm.append_right _
    · rcases List.mem_append.mp hb with hb | hb
      · exact hle x hx b hb
      · rw [List.mem_singleton.mp hb]
        exact hmax x hx
  · have hrest : rest = [] := by
      by_contra hne
      exact Nat.ne_of_lt hless (hfull hne)
    rw [heq]
    refine ⟨[], ?_, ?_, fun hne => absurd rfl hne, fun _ _ _ hb => absurd hb List.not_mem_nil⟩
    · rw [hrest, List.append_nil] at hperm
      rw [List.append_nil, List.map_append]
      exact hperm.append_right _
    · rw [List.length_append, List.length_singleton]
      exact hless
  · rw [heq]
    refine ⟨v.dist :: rest, ?_, ?_, fun _ => (length_evict hv e).trans (Nat.le_antisymm hk hlen), fun x hx b hb => ?_⟩
    · have hv' : (h.map HeapEntry.dist).Perm (v.dist :: (h.erase v).map HeapEntry.dist) :=
        (List.perm_cons_erase hv).map HeapEntry.dist
      rw [List.map_append, List.map_singleton, List.append_assoc, List.singleton_append]
      calc (ds ++ [e.dist]).Perm (h.map HeapEntry.dist ++ rest ++ [e.dist]) := hperm.append_right _
        _ |>.Perm (e.dist :: (h.map HeapEntry.dist ++ rest)) := List.perm_append_singleton ..
        _ |>.Perm (e.dist :: (v.dist :: (h.erase v).map HeapEntry.dist ++ rest)) := (hv'.append_right rest).cons _
        _ |>.Perm ((h.erase v).map HeapEntry.dist ++ e.dist :: v.dist :: rest) := by
          refine List.Perm.trans ?_ List.perm_middle.symm
          exact List.Perm.cons _ List.perm_middle.symm
    · rw [length_evict hv]
      exact hk
    · have hxv : x.dist ≤ v.dist := by
        rcases List.mem_append.mp hx with hx | hx
        · exact hmax x (List.mem_of_mem_erase hx)
        · rw [List.mem_singleton.mp hx]
          exact hlt.le
      rcases List.mem_cons.mp hb with rfl | hb
      · exact hxv
      · exact hxv.trans (hle v hv b hb)

theorem heapFold_least {α : Type} (k : Nat) (tick : α → Nat) (entry : α → HeapEntry) (l : List α) {ds : List Nat}
    {h : List HeapEntry} (hl : leastOf k ds h) :
    leastOf k (ds ++ l.map (fun j => (entry j).dist)) (heapFold k tick (fun _ => true) entry h l) := by
  induction l generalizing ds h with
  | nil => rw [List.map_nil, List.append_nil]; exact hl
  | cons j l ih =>
    have h1 := ih (heapStep_least (tick := tick j) (e := entry j) hl)
    rw [List.append_assoc, List.singleton_append] at h1
    exact h1

/-- The least `k` of a list, in order. -/
theorem leastOf_sorted {k : Nat} {ds : List Nat} {h : List HeapEntry} (hl : leastOf k ds h) :
    (h.map HeapEntry.dist).mergeSort (fun a b => a ≤ b) = (ds.mergeSort (fun a b => a ≤ b)).take k ∧ h.length = min k ds.length := by
  obtain ⟨rest, hperm, hk, hfull, hle⟩ := hl
  have hsorted : ∀ l : List Nat, (l.mergeSort (fun a b => a ≤ b)).Pairwise (· ≤ ·) := fun l =>
    (List.pairwise_mergeSort (le := fun a b : Nat => decide (a ≤ b))
      (fun a b c hab hbc => decide_eq_true ((of_decide_eq_true hab).trans (of_decide_eq_true hbc)))
      (fun a b => by rw [Bool.or_eq_true, decide_eq_true_eq, decide_eq_true_eq]; exact Nat.le_total a b) l).imp of_decide_eq_true
  have hall : ds.mergeSort (fun a b => a ≤ b) =
      (h.map HeapEntry.dist).mergeSort (fun a b => a ≤ b) ++ rest.mergeSort (fun a b => a ≤ b) := by
    refine mergeSort_eq_of_perm ?_ ?_
    · refine List.pairwise_append.mpr ⟨hsorted _, hsorted _, fun a ha b hb => ?_⟩
      obtain ⟨e, he, rfl⟩ := List.mem_map.mp ((List.mergeSort_perm ..).mem_iff.mp ha)
      exact hle e he b ((List.mergeSort_perm ..).mem_iff.mp hb)
    · exact ((List.mergeSort_perm ..).append (List.mergeSort_perm ..)).trans hperm.symm
  have hlen := hperm.length_eq
  rw [List.length_append, List.length_map] at hlen
  rw [hall]
  by_cases hne : rest = []
  · subst hne
    rw [List.length_nil, Nat.add_zero] at hlen
    rw [List.mergeSort_nil, List.append_nil, List.take_of_length_le (by rw [List.length_mergeSort, List.length_map]; exact hk)]
    exact ⟨rfl, by omega⟩
  · rw [List.take_left' (by rw [List.length_mergeSort, List.length_map]; exact hfull hne)]
    exact ⟨rfl, by have := hfull hne; omega⟩

end Sys2Proof.Machine
end
section
/-! XORPOP into contexts (R73, R74, R100, R264 to R266): what it leaves of each context and of its heap. -/

namespace Sys2Proof.Machine

/-! ## Maps of contexts -/

theorem KMap.find_adjust_ne {α : Type} (m : KMap α) {n k : Nat} (h : k ≠ n) (f : α → α) : (m.adjust n f).find k = m.find k := by
  induction m with
  | nil => rfl
  | cons e m ih =>
    unfold KMap.adjust at ih ⊢
    rw [List.map_cons]
    by_cases he : e.1 = n
    · rw [if_pos he, KMap.find_cons, KMap.find_cons e.1 e.2, ih, if_neg fun hk => h (hk.symm.trans he),
        if_neg fun hk => h (hk.symm.trans he)]
    · rw [if_neg he, KMap.find_cons e.1 e.2, KMap.find_cons e.1 e.2, ih]

/-- A tile with a RUNNING context does not switch. -/
theorem Tile.switch_running {t : Tile} {b : Nat} {z : Ctx} (h : t.ctxs.find b = some z) (hz : z.state = 2) : t.switch = t := by
  have hany : t.ctxs.any (fun e => e.2.state == 2) = true :=
    List.any_eq_true.mpr ⟨(b, z), KMap.mem_of_find h, by rw [hz]; rfl⟩
  unfold Tile.switch
  rw [if_pos hany]

/-- A switch moves a context's state and the number of the one that ran last, and nothing else. -/
theorem Tile.switch_frame (t : Tile) : t.switch = { t with ctxs := t.switch.ctxs, ran := t.switch.ran } := by
  unfold Tile.switch
  split
  · rfl
  · split <;> rfl

theorem Tile.switch_find {t : Tile} {c : Nat} {z : Ctx} (h : t.ctxs.find c = some z) :
    ∃ st, t.switch.ctxs.find c = some { z with state := st } := by
  unfold Tile.switch
  split
  · exact ⟨z.state, h⟩
  · split
    · exact ⟨z.state, h⟩
    · next i _ =>
      by_cases hc : c = i
      · subst hc
        exact ⟨2, KMap.find_adjust_self h (fun x => { x with state := 2 })⟩
      · exact ⟨z.state, (KMap.find_adjust_ne _ hc (fun x => { x with state := 2 })).trans h⟩

theorem Tile.Whole.setHeap {t : Tile} (h : t.Whole) (c : Nat) (x : Ctx) (l : List HeapEntry) : t.setHeap c x l = { t with
    ctxs := t.ctxs.put c (x.withHeap l)
    lane := writeCells 0 t.lane x.heapAddr (l.flatMap HeapEntry.bytes) } := by
  unfold Tile.setHeap
  rw [Tile.Whole.put (t := { t with ctxs := t.ctxs.put c (x.withHeap l) }) h]

/-! ## One context -/

section
variable (X v : State) (n : Nat) (d : List Byte)

/-- Tile `t` compares block `k` for context `x` now. -/
def State.feedsFrom (t : Tile) (x : Ctx) (k : Nat) : Prop :=
  X.blockKey x.tag (t.latches.getD (byteAt d 31) Latch.reset).object (t.latches.getD (byteAt d 31) Latch.reset).baton = some k ∧
  x.takes k = true

/-- The context once block `k` is compared, its heap and its probe list aside. -/
def Ctx.compared (x : Ctx) (k : Nat) : Ctx := { x with
  seen := x.seen + u16At d 24, left := x.leftAfter k (u16At d 24), wants := x.wants.filter (fun w => w != k)
  state := if x.state = 2 ∨ (x.state = 3 ∧ x.wants ≠ some k) then x.state else 1 }

/-- The context after a feed that leaves heap `h` and probe list entry `p` next. -/
def Ctx.afterFeed (x : Ctx) (k p : Nat) (h : List HeapEntry) : Ctx :=
  { x.compared d k with next := p, exhausted := (x.compared d k).left.isEmpty && h.length < x.k }

/-- What one feed does: nothing, or the context takes what came and its heap. -/
theorem State.feedCtx_cases (t : Tile) (i c : Nat) :
    ((X.setTile n t).feedCtx v n d i c = X.setTile n t ∧ ∀ x k, t.ctxs.find c = some x → ¬ X.feedsFrom d t x k) ∨
    ∃ x k, t.ctxs.find c = some x ∧ X.feedsFrom d t x k ∧ (X.setTile n t).feedCtx v n d i c =
      X.setTile n (t.setHeap c (x.afterFeed d k (X.nextProbe t (x.compared d k)) (X.fedHeap v n d i x)) (X.fedHeap v n d i x)) := by
  unfold State.feedCtx State.feedsFrom
  dsimp only
  rw [State.tile_setTile_self]
  cases hx : t.ctxs.find c with
  | none => exact Or.inl ⟨rfl, fun x k h => absurd h (by simp)⟩
  | some x =>
    dsimp only
    have hkey : (X.setTile n t).blockKey x.tag (t.latches.getD (byteAt d 31) Latch.reset).object
      (t.latches.getD (byteAt d 31) Latch.reset).baton = X.blockKey x.tag (t.latches.getD (byteAt d 31) Latch.reset).object
      (t.latches.getD (byteAt d 31) Latch.reset).baton := rfl
    rw [hkey]
    cases hk : X.blockKey x.tag (t.latches.getD (byteAt d 31) Latch.reset).object
      (t.latches.getD (byteAt d 31) Latch.reset).baton with
    | none =>
      refine Or.inl ⟨rfl, fun y k h => ?_⟩
      rintro ⟨hkey, -⟩
      rw [← Option.some.inj h, hk] at hkey
      exact absurd hkey (by simp)
    | some k =>
      dsimp only
      cases ht : x.takes k with
      | false =>
        refine Or.inl ⟨rfl, fun y l h => ?_⟩
        rintro ⟨hkey, htakes⟩
        rw [← Option.some.inj h] at hkey htakes
        rw [← Option.some.inj (hk.symm.trans hkey), ht] at htakes
        exact Bool.false_ne_true htakes
      | true =>
        refine Or.inr ⟨x, k, rfl, ⟨hk, ht⟩, ?_⟩
        exact (State.setTile_setTile ..)

/-! ## The heap of one feed -/

/-- The locator of code `j`. -/
def State.fedLoc (j : Nat) : Nat :=
  let lt := (v.tile n).latches.getD (byteAt d 31) Latch.reset
  match X.segmentOf lt.object with
  | some g => 2 ^ 63 + 65536 * g + (u16At d 26 + j)
  | none => 65536 * lt.baton + (u16At d 26 + j)

/-- Code `j` comes, at distance `j.1`. -/
def State.fedComes (x : Ctx) (j : Nat × Nat) : Bool :=
  let side := X.segmentOf ((v.tile n).latches.getD (byteAt d 31) Latch.reset).object
  (v.tile n).codePasses (window (byteAt d 31)) (u16At d 26 + j.2) j.1 side ((v.tile n).terms x) x &&
    (side.isSome || !X.deadTo (v.tile n) x (X.fedLoc v n d j.2))

/-- The entry of code `j`. -/
def State.fedEntry (j : Nat × Nat) : HeapEntry :=
  let lt := (v.tile n).latches.getD (byteAt d 31) Latch.reset
  let ix := lt.index.toNat
  { loc := X.fedLoc v n d j.2, dist := j.1,
    list := if (X.segmentOf lt.object).isSome then 0xFFFFFF else if bitsN ix 63 60 = 3 then ix % 65536 else ix % 2 ^ 24,
    side := (X.segmentOf lt.object).isSome }

theorem State.fedHeap_eq (i : Nat) (x : Ctx) : X.fedHeap v n d i x =
    heapFold x.k (fun j => X.tick + 65536 * i + j.2) (X.fedComes v n d x) (X.fedEntry v n d) ((v.tile n).heap x)
      ((v.distances n d i).zipIdx) := by
  have hstep : ∀ (p h e : Bool), (p && h && e) = (p && e && h) := by decide
  unfold State.fedHeap heapFold heapStep State.fedComes State.fedEntry State.fedLoc
  dsimp only
  simp only [hstep] <;> rfl

theorem State.length_fedHeap (i : Nat) (x : Ctx) : (X.fedHeap v n d i x).length ≤ max x.held x.k := by
  rw [State.fedHeap_eq]
  refine (heapFold_length ..).trans_eq ?_
  rw [Tile.length_heap]

end

/-! ## Many contexts -/

section
variable {X v : State} {n : Nat} {d : List Byte}

/-- What feeds of the contexts and queries `l` leave of tile `t`. -/
structure State.Fed (X v : State) (n : Nat) (d : List Byte) (t T : Tile) (l : List (Nat × Nat)) : Prop where
  frame : T = { t with ctxs := T.ctxs, lane := T.lane }
  others : ∀ c, c ∉ l.map Prod.fst → T.ctxs.find c = t.ctxs.find c
  unfed : ∀ c x, t.ctxs.find c = some x → (∀ k, ¬ X.feedsFrom d t x k) → T.ctxs.find c = some x
  fed : ∀ c x k, c ∈ l.map Prod.fst → t.ctxs.find c = some x → X.feedsFrom d t x k → ∃ p h,
    h.length ≤ max x.held x.k ∧ T.ctxs.find c = some ((x.afterFeed d k p h).withHeap h)
  lane : ∀ a, (∀ b z, b ∈ l.map Prod.fst → t.ctxs.find b = some z →
    a < z.heapAddr ∨ z.heapAddr + 16 * max z.held z.k ≤ a) → readCell 0 T.lane a = readCell 0 t.lane a

/-- A feed of one context. -/
theorem State.fed_one {t : Tile} (hw : t.Whole) (c i : Nat) :
    ∃ T, (X.setTile n t).feedCtx v n d i c = X.setTile n T ∧ X.Fed v n d t T [(c, i)] := by
  rcases X.feedCtx_cases v n d t i c with ⟨heq, hno⟩ | ⟨x, k, hx, hk, heq⟩
  · refine ⟨t, heq, rfl, fun _ _ => rfl, fun _ _ hx _ => hx, fun b x k hmem hx hk => ?_, fun _ _ => rfl⟩
    obtain rfl := List.mem_singleton.mp hmem
    exact absurd hk (hno x k hx)
  · rw [hw.setHeap] at heq
    refine ⟨_, heq, rfl, fun b hb => ?_, fun b y hy hno => ?_, fun b y l hmem hy hl => ?_, fun a ha => ?_⟩
    · exact KMap.find_put_ne _ _ _ _ fun hbc => hb (by rw [hbc]; exact List.mem_singleton_self c)
    · have hbc : b ≠ c := by
        rintro rfl
        rw [Option.some.inj (hx.symm.trans hy)] at hk
        exact hno k hk
      exact (KMap.find_put_ne _ _ _ _ hbc).trans hy
    · obtain rfl := List.mem_singleton.mp hmem
      obtain rfl := Option.some.inj (hx.symm.trans hy)
      obtain rfl := Option.some.inj (hk.1.symm.trans hl.1)
      exact ⟨_, _, X.length_fedHeap v n d i x, KMap.find_put_self ..⟩
    · have hlen := X.length_fedHeap v n d i x
      have hout := ha c x (List.mem_singleton_self c) hx
      refine readCell_writeCells_out 0 _ _ _ _ ?_
      rw [length_flatMap_const HeapEntry.length_bytes]
      show a < x.heapAddr ∨ x.heapAddr + _ ≤ a
      omega

/-- Feeds of one context after another, each once. -/
theorem State.fed_all {l : List (Nat × Nat)} (hnodup : (l.map Prod.fst).Nodup) {t : Tile} (hw : t.Whole) :
    ∃ T, l.foldl (fun s y => s.feedCtx v n d y.2 y.1) (X.setTile n t) = X.setTile n T ∧ X.Fed v n d t T l := by
  induction l generalizing t with
  | nil => exact ⟨t, rfl, rfl, fun _ _ => rfl, fun _ _ hx _ => hx, fun _ _ _ h => absurd h List.not_mem_nil, fun _ _ => rfl⟩
  | cons p l ih =>
    obtain ⟨hp, hl⟩ := List.nodup_cons.mp hnodup
    obtain ⟨U, hU, hone⟩ := State.fed_one (X := X) (v := v) (n := n) (d := d) hw p.1 p.2
    have hUw : U.Whole := by
      rw [hone.frame]
      exact hw
    have hfeeds : ∀ x k, X.feedsFrom d U x k ↔ X.feedsFrom d t x k := by
      intro x k
      rw [hone.frame]
      exact Iff.rfl
    have hback : ∀ c, c ≠ p.1 → U.ctxs.find c = t.ctxs.find c := fun c hc =>
      hone.others c fun hmem => hc (List.mem_singleton.mp hmem)
    have hne : ∀ c, c ∈ l.map Prod.fst → c ≠ p.1 := fun c hc heq => hp (heq ▸ hc)
    obtain ⟨T, hT, hrest⟩ := ih hl hUw
    refine ⟨T, ?_, ?_, fun c hc => ?_, fun c x hx hno => ?_, fun c x k hmem hx hk => ?_, fun a ha => ?_⟩
    · rw [List.foldl_cons, hU, hT]
    · rw [hrest.frame, hone.frame]
    · rw [List.map_cons, List.mem_cons, not_or] at hc
      exact (hrest.others c hc.2).trans (hback c hc.1)
    · exact hrest.unfed c x (hone.unfed c x hx hno) fun k hk => hno k ((hfeeds x k).mp hk)
    · rcases List.mem_cons.mp hmem with rfl | hmem
      · obtain ⟨r, e, hlen, hr⟩ := hone.fed _ x k (List.mem_singleton_self _) hx hk
        exact ⟨r, e, hlen, (hrest.others _ hp).trans hr⟩
      · have hc := hne c hmem
        exact hrest.fed c x k hmem ((hback c hc).trans hx) ((hfeeds x k).mpr hk)
    · refine (hrest.lane a fun b z hb hz => ?_).trans (hone.lane a fun b z hb hz => ?_)
      · exact ha b z (List.mem_cons_of_mem _ hb) ((hback b (hne b hb)).symm.trans hz)
      · exact ha b z (by rw [List.mem_singleton.mp hb]; exact List.mem_cons_self ..) hz

end

/-! ## The op -/

section
variable {s : State} {n m : Nat} {d : List Byte} {q : Squad}

theorem ctxMap_nodup (d : List Byte) : (((ctxMap d).zipIdx).map Prod.fst).Nodup := by
  rw [List.zipIdx_map_fst]
  exact List.nodup_range.filter _

/-- The tile an XORPOP into contexts leaves, before a switch: each context it feeds with its part, and the rest as it was. -/
theorem State.xorpopFeed_issued (h : s.tileIssues n d m q) (hk : opKind d = 0x02) (h1 : byteAt d 32 = 1) {mine : Bool}
    (hmine : mine = true) : ∃ T : Tile,
      (ctxMap d).zipIdx.foldl (fun r y => r.feedCtx (s.taken n d) n d y.2 y.1) (s.running n d) =
        (s.atTick (s.tick + s.tick)).setTile n T ∧
      (s.atTick (s.tick + s.tick)).Fed (s.taken n d) n d ((s.tile n).take d) T (ctxMap d).zipIdx ∧
      s.Issued (s.writeOp n d mine) n d { s.tile n with ctxs := T.switch.ctxs, ran := T.switch.ran } T.lane := by
  obtain ⟨hqueue, hheld⟩ := State.tileIssues_empty h
  obtain ⟨T, hT, hfed⟩ := State.fed_all (X := s.atTick (s.tick + s.tick)) (v := s.taken n d) (n := n) (d := d) (ctxMap_nodup d)
    (t := (s.tile n).take d) (State.tileIssues_whole h n)
  have hrunning : s.running n d = (s.atTick (s.tick + s.tick)).setTile n ((s.tile n).take d) := rfl
  rw [← hrunning] at hT
  refine ⟨T, hT, hfed, State.issued_of_run h (opRuns_of_kind hk (by decide) (by decide) (by decide)) hmine
    (k := s.tick + s.tick + 65536 * 64) ?_ hqueue rfl⟩
  have hswitch : T.switch =
      Tile.issuing { s.tile n with ctxs := T.switch.ctxs, ran := T.switch.ran } (s.tile n) d T.lane := by
    refine T.switch_frame.trans ?_
    generalize T.switch.ctxs = cs
    generalize T.switch.ran = r
    rw [hfed.frame, Tile.take_issuing hqueue hheld]
    rfl
  rw [← hswitch]
  unfold State.runOp State.runXorpop
  rw [hk]
  dsimp only
  rw [if_neg (by rw [h1]; decide), hT, State.tile_setTile_self]
  show ((s.setTile n T).setTile n T.switch).atTick _ = _
  rw [State.setTile_setTile]
  rfl

end

end Sys2Proof.Machine
end
section
/-! The contexts and the heaps that an XORPOP or a TOPK issued at once leaves (R64, R73, R74, R98 to R100, R264 to R266). -/

namespace Sys2Proof.Machine

section
variable {s t : State} {n m : Nat} {d : List Byte} {q : Squad} {u : Tile} {lane : List Host.Cell}

/-- An op that arms no flip and flips no byte leaves lane memory whole. -/
theorem State.Issued.whole (h : s.Issued t n d u lane) (hu : u.Whole) : (t.tile n).Whole := by
  rw [h.runs.1]
  exact hu

/-- Distances that fit their fields read back. -/
theorem map_back_dist {h : List HeapEntry} (hd : ∀ e ∈ h, e.dist < 65536) :
    (h.map HeapEntry.back).map HeapEntry.dist = h.map HeapEntry.dist := by
  rw [List.map_map]
  exact List.map_congr_left fun e he => HeapEntry.back_dist (hd e he)

theorem foldl_max_map (h : List HeapEntry) (b : Nat) :
    h.foldl (fun a e => max a e.dist) b = (h.map HeapEntry.dist).foldl max b := by
  rw [List.foldl_map]

/-! ## XORPOP with a RUNNING context -/

/-- A RUNNING context stays RUNNING through the feeds. -/
theorem State.Fed.running {X v : State} {t T : Tile} {l : List (Nat × Nat)} (h : X.Fed v n d t T l) {b : Nat} {z : Ctx}
    (hz : t.ctxs.find b = some z) (h2 : z.state = 2) : T.switch = T := by
  by_cases hno : ∀ k, ¬ X.feedsFrom d t z k
  · exact Tile.switch_running (h.unfed b z hz hno) h2
  · obtain ⟨k, hk⟩ := not_forall_not.mp hno
    by_cases hb : b ∈ l.map Prod.fst
    · obtain ⟨p, e, -, hp⟩ := h.fed b z k hb hz hk
      exact Tile.switch_running hp (if_pos (Or.inl h2) |>.trans h2)
    · exact Tile.switch_running ((h.others b hb).trans hz) h2

/-- An XORPOP into contexts while one is RUNNING: each context it feeds with its part, and the rest as it was. -/
theorem State.xorpopFeed_running (h : s.tileIssues n d m q) (hk : opKind d = 0x02) (h1 : byteAt d 32 = 1) {mine : Bool}
    (hmine : mine = true) (hrun : ∃ b z, (s.tile n).ctxs.find b = some z ∧ z.state = 2) :
    ∃ T : Tile, (s.atTick (s.tick + s.tick)).Fed (s.taken n d) n d ((s.tile n).take d) T (ctxMap d).zipIdx ∧
      s.Issued (s.writeOp n d mine) n d { s.tile n with ctxs := T.ctxs } T.lane := by
  obtain ⟨T, -, hfed, hI⟩ := State.xorpopFeed_issued h hk h1 hmine
  obtain ⟨b, z, hz, h2⟩ := hrun
  have hran := congrArg Tile.ran hfed.frame
  rw [hfed.running hz h2, hran] at hI
  exact ⟨T, hfed, hI⟩

theorem Ctx.withHeap_worst {x : Ctx} {h : List HeapEntry} (hk : h.length = x.k) :
    (x.withHeap h).worst = h.foldl (fun a e => max a e.dist) 0 := if_pos hk

/-! ## XORPOP into one context -/

/-- Every distance of an XORPOP fits its field. -/
theorem State.distance_lt (h : s.tileIssues n d m q) (hk : opKind d = 0x02) {i x : Nat} (hx : x ∈ s.distances n d i) : x < 65536 := by
  have hbits := xorpopOk_bits (State.decodeOk_xorpop hk (State.tileIssues_decodes h))
  rw [State.distances_eq (State.tileIssues_whole h n)] at hx
  obtain ⟨j, -, rfl⟩ := List.mem_map.mp hx
  exact Nat.lt_of_le_of_lt (hamming_le _ _ _) (by omega)

/-- Code `j` and its distance. -/
theorem State.mem_distances {p : Nat × Nat} {i : Nat} (h : p ∈ (s.distances n d i).zipIdx) :
    p.2 < u16At d 24 ∧ p.1 = (s.distances n d i).getD p.2 0 ∧ p.1 ∈ s.distances n d i := by
  have hget : (s.distances n d i)[p.2]? = some p.1 := List.mk_mem_zipIdx_iff_getElem?.mp h
  obtain ⟨hlt, heq⟩ := List.getElem?_eq_some_iff.mp hget
  refine ⟨by rwa [State.length_distances] at hlt, ?_, List.mem_of_getElem? hget⟩
  rw [List.getD_eq_getElem _ _ hlt, heq]

/-- The heap of context `x` after the distances of query 0. -/
def State.heap0 (s : State) (n : Nat) (d : List Byte) (x : Ctx) : List HeapEntry :=
  (s.atTick (s.tick + s.tick)).fedHeap (s.taken n d) n d 0 x

theorem State.heap0_eq (s : State) (n : Nat) (d : List Byte) (x : Ctx) : s.heap0 n d x =
    heapFold x.k (fun j => s.tick + s.tick + 65536 * 0 + j.2) ((s.atTick (s.tick + s.tick)).fedComes (s.taken n d) n d x)
      ((s.atTick (s.tick + s.tick)).fedEntry (s.taken n d) n d) ((s.tile n).heap x) (s.distances n d 0).zipIdx := by
  rw [State.heap0, State.fedHeap_eq, State.distances_taken, State.tile_taken]
  rfl

theorem State.heap0_mem {x : Ctx} {e : HeapEntry} (he : e ∈ s.heap0 n d x) : e ∈ (s.tile n).heap x ∨
    ∃ p ∈ (s.distances n d 0).zipIdx, e.dist = p.1 ∧ p.1 ≤ x.maxDist := by
  rw [State.heap0_eq] at he
  refine (heapFold_mem _ _ _ _ he).imp_right ?_
  rintro ⟨p, hp, hc, rfl⟩
  refine ⟨p, hp, rfl, ?_⟩
  unfold State.fedComes Tile.codePasses at hc
  simp only [Bool.and_eq_true, decide_eq_true_eq] at hc
  exact hc.1.1.2

theorem State.heap0_lt (h : s.tileIssues n d m q) (hk : opKind d = 0x02) {x : Ctx} {e : HeapEntry} (he : e ∈ s.heap0 n d x) :
    e.dist < 65536 := by
  rcases State.heap0_mem he with hmem | ⟨p, hp, heq, -⟩
  · exact (Tile.back_of_mem_heap hmem).2
  · rw [heq]
    exact State.distance_lt h hk (State.mem_distances hp).2.2

/-- A code that comes is kept, or only nearer ones are. -/
theorem State.heap0_came {x : Ctx} {j : Nat} (hj : j < u16At d 24) (hc : s.codeComes n d x 0 j) (hheld : x.held ≤ x.k) :
    keepsDist x.k ((s.distances n d 0).getD j 0) (s.heap0 n d x) := by
  have hlt : j < (s.distances n d 0).length := by rwa [State.length_distances]
  have hmem : ((s.distances n d 0).getD j 0, j) ∈ (s.distances n d 0).zipIdx := by
    rw [List.getD_eq_getElem _ _ hlt]
    exact List.mk_mem_zipIdx_iff_getElem?.mpr (List.getElem?_eq_getElem hlt)
  have hcomes : (s.atTick (s.tick + s.tick)).fedComes (s.taken n d) n d x ((s.distances n d 0).getD j 0, j) = true := by
    obtain ⟨hpass, hdead⟩ := hc
    unfold State.fedComes State.fedLoc
    rw [State.tile_taken]
    dsimp only
    have hside : (s.atTick (s.tick + s.tick)).segmentOf (((s.tile n).take d).latches.getD (byteAt d 31) Latch.reset).object =
      s.segmentOf ((s.tile n).latches.getD (byteAt d 31) Latch.reset).object := rfl
    rw [hside]
    refine Bool.and_eq_true_iff.mpr ⟨hpass, ?_⟩
    cases hg : s.segmentOf ((s.tile n).latches.getD (byteAt d 31) Latch.reset).object with
    | some g => rfl
    | none =>
      have hlive := hdead hg
      rw [Option.isSome_none, Bool.false_or, Bool.not_eq_true']
      exact hlive
  rw [State.heap0_eq]
  exact heapFold_came (entry := (s.atTick (s.tick + s.tick)).fedEntry (s.taken n d) n d) _ _ _
    (by rw [Tile.length_heap]; exact hheld) hmem hcomes

/-- An XORPOP into one context that takes the block: the context and its heap in lane memory. -/
theorem State.xorpopOne_issued (h : s.tileIssues n d m q) (hk : opKind d = 0x02) (h1 : byteAt d 32 = 1) {mine : Bool}
    (hmine : mine = true) {c k : Nat} {x : Ctx} (hmap : ctxMap d = [c]) (hx : (s.tile n).ctxs.find c = some x)
    (hfeeds : s.feeds n d x k) : ∃ st, ∃ y : Ctx,
      y = { (x.afterFeed d k (s.nextProbe (s.tile n) (x.compared d k)) (s.heap0 n d x)).withHeap (s.heap0 n d x) with state := st } ∧
      ((s.writeOp n d mine).tile n).ctxs.find c = some y ∧
      ((s.writeOp n d mine).tile n).heap y = (s.heap0 n d x).map HeapEntry.back := by
  obtain ⟨T, hT, -, hI⟩ := State.xorpopFeed_issued h hk h1 hmine
  have hw : ((s.tile n).take d).Whole := State.tileIssues_whole h n
  have hrunning : s.running n d = (s.atTick (s.tick + s.tick)).setTile n ((s.tile n).take d) := rfl
  rw [hmap, hrunning] at hT
  have hT : ((s.atTick (s.tick + s.tick)).setTile n ((s.tile n).take d)).feedCtx (s.taken n d) n d 0 c =
    (s.atTick (s.tick + s.tick)).setTile n T := hT
  rcases State.feedCtx_cases (s.atTick (s.tick + s.tick)) (s.taken n d) n d ((s.tile n).take d) 0 c with
    ⟨-, hno⟩ | ⟨x', k', hx', hk', heq⟩
  · exact absurd hfeeds (hno x k hx)
  · obtain rfl : x = x' := Option.some.inj (hx.symm.trans hx')
    obtain rfl : k = k' := Option.some.inj (hfeeds.1.symm.trans hk'.1)
    have hT' : ((s.atTick (s.tick + s.tick)).setTile n T).tile n = _ := congrArg (fun r => State.tile r n) (hT.symm.trans heq)
    rw [State.tile_setTile_self, State.tile_setTile_self, hw.setHeap] at hT'
    have hfind : T.ctxs.find c = some ((x.afterFeed d k (s.nextProbe (s.tile n) (x.compared d k)) (s.heap0 n d x)).withHeap
        (s.heap0 n d x)) := by
      rw [hT']
      exact KMap.find_put_self ..
    obtain ⟨st, hst⟩ := Tile.switch_find hfind
    refine ⟨st, _, rfl, by rw [hI.ctxs]; exact hst, ?_⟩
    refine Tile.heap_written (hI.whole (State.tileIssues_whole h n)) (m := (s.tile n).lane) ?_ rfl
    rw [hI.lane, hT']
    rfl

/-! ## TOPK into a context -/

/-- The heap of an empty context `x` after a TOPK. -/
def State.topkHeap (s : State) (n : Nat) (d : List Byte) (x : Ctx) : List HeapEntry :=
  heapFold x.k (fun e => s.tick + s.tick + 2 + e.2) (fun _ => true) (fun e => e.1.2) []
    ((List.range (u32At d 24)).map (fun i => (s.topkItem n d i, i)))

/-- The distances of a TOPK. -/
def State.topkDists (s : State) (n : Nat) (d : List Byte) : List Nat := (List.range (u32At d 24)).map (s.topkDist n d)

theorem State.length_topkDists (s : State) (n : Nat) (d : List Byte) : (s.topkDists n d).length = u32At d 24 := by
  rw [State.topkDists, List.length_map, List.length_range]

/-- The heap holds the least distances. -/
theorem State.topkHeap_least (h0 : byteAt d 36 = 0) (x : Ctx) : leastOf x.k (s.topkDists n d) (s.topkHeap n d x) := by
  have hnil : leastOf x.k [] [] :=
    ⟨[], List.Perm.refl _, Nat.zero_le _, fun h => absurd rfl h, fun e he => absurd he List.not_mem_nil⟩
  have hleast := heapFold_least x.k (fun e : (Nat × HeapEntry) × Nat => s.tick + s.tick + 2 + e.2) (fun e => e.1.2)
    ((List.range (u32At d 24)).map (fun i => (s.topkItem n d i, i))) hnil
  rw [List.nil_append, List.map_map] at hleast
  have hdists : (List.range (u32At d 24)).map ((fun e : (Nat × HeapEntry) × Nat => e.1.2.dist) ∘ fun i => (s.topkItem n d i, i)) =
      s.topkDists n d := List.map_congr_left fun i _ => (State.topkItem_dist s n h0 i).2
  rwa [hdists] at hleast

theorem State.topkHeap_lt (h0 : byteAt d 36 = 0) {x : Ctx} {e : HeapEntry} (he : e ∈ s.topkHeap n d x) : e.dist < 65536 := by
  rcases heapFold_mem _ _ _ _ he with hmem | ⟨p, hp, -, rfl⟩
  · exact absurd hmem List.not_mem_nil
  · obtain ⟨i, -, rfl⟩ := List.mem_map.mp hp
    dsimp only
    rw [(State.topkItem_dist s n h0 i).2]
    exact leAt_lt _ _ 2

theorem State.runTopk_eq (h : s.tileIssues n d m q) (h0 : byteAt d 30 = 0) {x : Ctx}
    (hx : (s.tile n).ctxs.find (byteAt d 31) = some x) (hheld : x.held = 0) :
    (s.running n d).runTopk (s.taken n d) n d = (s.setTile n (Tile.issuing
      { s.tile n with ctxs := (s.tile n).ctxs.put (byteAt d 31) (x.withHeap (s.topkHeap n d x)) } (s.tile n) d
      (writeCells 0 (s.tile n).lane x.heapAddr ((s.topkHeap n d x).flatMap HeapEntry.bytes)))).atTick
        (s.tick + s.tick + 2 + u32At d 24) := by
  obtain ⟨hqueue, hheldQ⟩ := State.tileIssues_empty h
  have hw : ((s.tile n).take d).Whole := State.tileIssues_whole h n
  have hnil : ((s.taken n d).tile n).heap x = [] := List.eq_nil_of_length_eq_zero ((Tile.length_heap ..).trans hheld)
  have htile : (s.running n d).tile n = (s.tile n).take d := State.tile_taken s n d
  have hheap : (((List.range (u32At d 24)).map (s.topkItem n d)).zipIdx).foldl (fun h e =>
      if heapTakes x.k h e.1.2.dist then heapInsert ((s.running n d).tick + 2 + e.2) x.k h e.1.2 else h) [] =
      s.topkHeap n d x := by
    rw [zipIdx_map_range]
    rfl
  have hx' : ((s.tile n).take d).ctxs.find (byteAt d 31) = some x := hx
  unfold State.runTopk
  dsimp only
  rw [if_neg (by rw [h0]; decide), State.topkItems_taken h]
  rw [show ∀ k, ({ s.running n d with tick := k } : State).tile n = (s.tile n).take d from fun _ => htile, hx']
  dsimp only
  rw [hnil, hheap, hw.setHeap, Tile.take_issuing hqueue hheldQ, List.length_map, List.length_range]
  show ((s.taken n d).setTile n _).atTick _ = _
  rw [State.taken, State.setTile_setTile]
  rfl

/-- A TOPK into an empty context. -/
theorem State.topkCtx_issued (h : s.tileIssues n d m q) (hk : opKind d = 0x08) (h0 : byteAt d 30 = 0) {mine : Bool}
    (hmine : mine = true) {x : Ctx} (hx : (s.tile n).ctxs.find (byteAt d 31) = some x) (hheld : x.held = 0) :
    s.Issued (s.writeOp n d mine) n d
      { s.tile n with ctxs := (s.tile n).ctxs.put (byteAt d 31) (x.withHeap (s.topkHeap n d x)) }
      (writeCells 0 (s.tile n).lane x.heapAddr ((s.topkHeap n d x).flatMap HeapEntry.bytes)) := by
  refine State.issued_of_run h (topk_opRuns hk) hmine (k := s.tick + s.tick + 2 + u32At d 24) ?_ (State.tileIssues_empty h).1 rfl
  unfold State.runOp
  rw [hk]
  exact State.runTopk_eq h h0 hx hheld

end

end Sys2Proof.Machine
end
section
/-! What an op issued at once leaves in the lane memory and the registers of its tile (R57, R58, R60): the statements. -/

namespace Sys2Proof.Machine

section
variable {s t : State} {n m : Nat} {d : List Byte} {q : Squad} {u : Tile} {lane : List Host.Cell} {a k : Nat} {l : List Byte}

/-! ## A stored range -/

theorem State.Issued.stored (h : s.Issued t n d u (writeCells 0 lane a l)) (hl : l.length = k) :
    readCells 0 (t.tile n).lane a k = l := by
  rw [h.lane]
  exact Tests.readCells_in 0 _ _ _ _ hl

theorem State.Issued.kept (h : s.Issued t n d u (writeCells 0 lane a l)) (hl : l.length = k) :
    ∀ b, b < a ∨ a + k ≤ b → readCell 0 (t.tile n).lane b = readCell 0 lane b := by
  intro b hb
  rw [h.lane]
  exact readCell_writeCells_out 0 _ _ _ _ (by rw [hl]; exact hb)

/-! ## Fields of what is stored -/

/-- The INT32 sum that a REDUCE stores, where it fits (R66). -/
theorem State.reduced_sum (h28 : byteAt d 28 = 0) (h29 : byteAt d 29 = 0)
    (hlo : -2147483648 ≤ ((List.range (u32At d 24)).map (fun j =>
      signedN 32 (u32At (readCells 0 (s.tile n).lane (u32At d 16) (4 * u32At d 24)) (4 * j)))).sum)
    (hhi : ((List.range (u32At d 24)).map (fun j =>
      signedN 32 (u32At (readCells 0 (s.tile n).lane (u32At d 16) (4 * u32At d 24)) (4 * j)))).sum ≤ 2147483647) :
    signedN 32 (u32At (leBytes (s.reduced n d).toNat 4) 0) = ((List.range (u32At d 24)).map (fun j =>
      signedN 32 (u32At (readCells 0 (s.tile n).lane (u32At d 16) (4 * u32At d 24)) (4 * j)))).sum := by
  unfold State.reduced
  rw [h28, h29, reduceEls_sum _ _ _ (congrArg List.sum (words_toNat ..)) hlo hhi, u32At, leAt_leBytes,
    Nat.mod_eq_of_lt (show _ < 256 ^ 4 from BitVec.isLt _)]
  exact signedN_ofInt hlo hhi

/-- Element `j` of an ELTWISE whose value the spec fixes. -/
theorem leAt_eltBytes {tick it func j c : Nat} {imm imm2 : W32} {x y : List Byte} {v : FV} (ot : Nat) (hj : j < c)
    (hv : eltVal it func (Config.freeWord tick j).toNat imm imm2 (elAt it x j) (elAt it y j) = some v) :
    leAt (eltBytes tick it ot func imm imm2 x y c) (elSize ot * j) (elSize ot) =
      toEl ot (Config.freeWord tick j) v % 256 ^ elSize ot := by
  unfold eltBytes
  dsimp only
  rw [← Nat.add_zero (elSize ot * j), leAt_flatMap (fun i => length_leBytes _ _) _ (by simpa using hj) (by omega), List.getElem_range,
    hv, leAt_leBytes]

/-- The INT32 sum that an ELTWISE stores, where it fits (R115). -/
theorem State.eltStored_sum (h32 : byteAt d 32 = 1) (h33 : byteAt d 33 = 2) (h34 : byteAt d 34 = 2) {j : Nat} (hj : j < u32At d 28)
    {x y : Int} (hx : signedN 32 (u32At (readCells 0 (s.tile n).lane (u32At d 16 + 4 * j) 4) 0) = x)
    (hy : signedN 32 (u32At (readCells 0 (s.tile n).lane (u32At d 20 + 4 * j) 4) 0) = y) (hlo : -2147483648 ≤ x + y)
    (hhi : x + y ≤ 2147483647) : signedN 32 (leAt (s.eltStored n d) (4 * j) 4) = x + y := by
  have helt : ∀ base, elAt 2 (readCells 0 (s.tile n).lane base (u32At d 28 * elSize 2)) j =
      fvInt (signedN 32 (u32At (readCells 0 (s.tile n).lane (base + 4 * j) 4) 0)) := by
    intro base
    refine congrArg (fun v => fvInt (signedN 32 v)) (leAt_readCells 0 _ _ ?_)
    show 4 * j + 4 ≤ u32At d 28 * 4
    omega
  have ha : elAt 2 (s.eltA n d) j = fvInt x := by
    unfold State.eltA
    rw [h33, helt, hx]
  have hb : elAt 2 (s.eltB n d) j = fvInt y := by
    unfold State.eltB
    rw [h32, h33, if_pos (show eltTwo 1 = true from rfl), helt, hy]
  obtain ⟨v, hval, hint⟩ := eltVal_add hlo hhi (Config.freeWord (s.tick + s.tick) j).toNat (BitVec.ofNat 32 (u32At d 36))
    (BitVec.ofNat 32 (u32At d 40))
  have hstored : leAt (s.eltStored n d) (4 * j) 4 = wrapZ 32 (x + y) := by
    unfold State.eltStored
    rw [h32, h33, h34]
    refine (leAt_eltBytes 2 hj (by rw [ha, hb]; exact hval)).trans ?_
    rw [toEl_isInt hint hlo hhi]
    exact Nat.mod_eq_of_lt (wrapZ_lt 32 _)
  rw [hstored, signedN_wrapZ hlo hhi]

/-- A list whose elements are told by their places. -/
theorem map_range_eq {α β : Type} {l : List α} {f : Nat → β} {g : α → β} {c : Nat} (hc : l.length = c)
    (h : ∀ j (hj : j < l.length), f j = g l[j]) : (List.range c).map f = l.map g := by
  subst hc
  refine List.ext_getElem (by simp) fun j _ hj => ?_
  rw [List.length_map] at hj
  rw [List.getElem_map, List.getElem_map, List.getElem_range]
  exact h j hj

/-- How many items a TOPK of `u16At d 28` stores. -/
theorem length_take_topk {l : List Nat} (hperm : l.Perm (List.range (u32At d 24))) :
    (l.take (u16At d 28)).length = min (u16At d 28) (u32At d 24) := by
  rw [List.length_take, hperm.length_eq, List.length_range]

/-- The distances of an order of the items are those of the TOPK, in order. -/
theorem State.topkDists_sorted (h0 : byteAt d 36 = 0) {l : List Nat} (hperm : l.Perm (List.range (u32At d 24)))
    (hsorted : l.Pairwise (fun a b => (s.topkItem n d a).1 ≤ (s.topkItem n d b).1)) :
    (s.topkDists n d).mergeSort (fun a b => a ≤ b) = l.map (s.topkDist n d) := by
  refine mergeSort_eq_of_perm (List.pairwise_map.mpr (hsorted.imp fun {a b} hab => ?_)) (hperm.map _)
  rwa [(State.topkItem_dist s n h0 a).1, (State.topkItem_dist s n h0 b).1] at hab

end

end Sys2Proof.Machine
end

section
open Sys2Proof Sys2Proof.Machine

/-- Settles O55: each op is taken off the queue at once, runs its own effect on its tile, and is then in flight; what it stores is
read back from the one range or the rows that it writes. -/
theorem tileArithmetic : Obligations.TileArithmetic := by
  unfold Obligations.TileArithmetic
  refine ⟨?matmulInt8, ?matmul, ?xorpop, ?feed, ?feedOne, ?unfed, ?reduceSum, ?reduce, ?eltwise, ?eltwiseSum, ?quant, ?filter,
    ?filterCarry, ?filterOver, ?topkDist, ?topk, ?topkCtx, ?stats, ?refused, ?waits⟩
  case matmulInt8 =>
    intro n m d q s h hk hw hraw hacc hstride
    have hsize : 64 * mmSize (byteAt d 37) = 256 := by rw [hraw]; rfl
    have hI := State.matmul_issued h hk (hsize ▸ hstride) (beq_iff_eq.mpr hk)
    have hlen : ∀ i, (s.mmBytes m n q d i).length = 256 := fun i => (State.length_mmBytes s m n q d i).trans hsize
    have hscale : s.mmScale n d = (s.tile n).scale := if_pos hraw
    have hamax : s.mmAmax m n q d (u16At d 32) = (s.tile n).amax := if_neg (by rw [hacc]; decide)
    rw [hscale, hamax] at hI
    refine ⟨_, exec_matmul n d s, fun i hi c hc => ?_, fun a ha => ?_, hI.runs, hI.others, hI.frame⟩
    · rw [hI.lane, readCells_writeRows_in hlen hstride hi]
      exact State.u32At_mmBytes_int8 hw hraw hacc i hc
    · rw [hI.lane]
      exact readCell_writeRows_out hlen ha
  case matmul =>
    intro n m d q s h hk hstride
    have hI := State.matmul_issued h hk hstride (beq_iff_eq.mpr hk)
    refine ⟨_, exec_matmul n d s, fun i hi => ?_, fun a ha => ?_, hI.scale, ?_, ?_, hI.others, hI.frame⟩
    · rw [hI.scale, hI.lane, readCells_writeRows_in (State.length_mmBytes s m n q d) hstride hi]
      rfl
    · rw [hI.lane]
      exact readCell_writeRows_out (State.length_mmBytes s m n q d) ha
    · rw [hI.amax, hI.scale]
      rfl
    · rw [hI.amax, hI.scale]
      exact hI.runs
  case xorpop =>
    intro n m d q s h hk h0
    have hI := State.xorpop_issued h hk h0 (beq_iff_eq.mpr hk)
    have hlen := State.length_distanceBytes s n d
    refine ⟨_, exec_xorpop n d s, fun i hi j hj => ?_, hI.kept hlen, hI.runs, hI.others, hI.frame⟩
    rw [hI.stored hlen, State.u16At_distanceBytes h hk hi hj, State.distances_eq (State.tileIssues_whole h n),
      List.getD_eq_getElem _ _ (by simpa using hj), List.getElem_map, List.getElem_range]
  case feed =>
    intro n m d q i c k x s h hk h1 hi hx hfeeds hrun
    obtain ⟨T, hfed, hI⟩ := State.xorpopFeed_running h hk h1 (beq_iff_eq.mpr hk) hrun
    have hmem : c ∈ (ctxMap d).zipIdx.map Prod.fst := by
      rw [List.zipIdx_map_fst]
      exact List.mem_of_getElem? hi
    obtain ⟨p, e, hlen, hp⟩ := hfed.fed c x k hmem hx hfeeds
    refine ⟨_, (x.afterFeed d k p e).withHeap e, exec_xorpop n d s, by rw [hI.ctxs]; exact hp, rfl, rfl, rfl, rfl, hlen, rfl, rfl,
      fun b hb => ?_, fun a ha => ?_, ?_, hI.others, hI.frame⟩
    · rw [hI.ctxs]
      exact hfed.others b (by rwa [List.zipIdx_map_fst])
    · rw [hI.lane]
      refine hfed.lane a fun b z hb hz => ha b z ?_ hz
      rwa [List.zipIdx_map_fst] at hb
    · rw [hI.ctxs]
      exact hI.runs
  case feedOne =>
    intro n m d q c k x s h hk h1 hmap hx hfeeds hheld
    obtain ⟨st, y, hy, hfind, hheap⟩ := State.xorpopOne_issued h hk h1 (beq_iff_eq.mpr hk) hmap hx hfeeds
    have hback : ∀ e ∈ s.heap0 n d x, e.back.dist = e.dist := fun e he => HeapEntry.back_dist (State.heap0_lt h hk he)
    have hyheld : y.held = (s.heap0 n d x).length := by rw [hy]; rfl
    refine ⟨_, y, exec_xorpop n d s, hfind, Tile.length_heap .., fun e he => ?_, fun j hj hc => ?_, by rw [hy]; rfl, fun hfull => ?_⟩
    · rw [hheap] at he
      obtain ⟨f, hf, rfl⟩ := List.mem_map.mp he
      rcases State.heap0_mem hf with hmem | ⟨p, hp, hdist, hmax⟩
      · exact Or.inl ((Tile.back_of_mem_heap hmem).1.symm ▸ hmem)
      · obtain ⟨hlt, heq, -⟩ := State.mem_distances hp
        rw [hback f hf, hdist]
        exact Or.inr ⟨p.2, hlt, heq, hmax⟩
    · rw [hheap, hyheld]
      rcases State.heap0_came hj hc hheld with ⟨e, he, hdist⟩ | ⟨hlen, hle⟩
      · exact Or.inl ⟨e.back, List.mem_map_of_mem he, (hback e he).trans hdist⟩
      · refine Or.inr ⟨hlen, List.forall_mem_map.mpr fun e he => ?_⟩
        rw [hback e he]
        exact hle e he
    · rw [hheap, foldl_max_map, map_back_dist (fun e he => State.heap0_lt h hk he), ← foldl_max_map, hy]
      exact Ctx.withHeap_worst (hyheld.symm.trans hfull)
  case unfed =>
    intro n m d q c x s h hk h1 hx hno hrun
    obtain ⟨T, hfed, hI⟩ := State.xorpopFeed_running h hk h1 (beq_iff_eq.mpr hk) hrun
    refine ⟨_, exec_xorpop n d s, ?_, ?_⟩
    · rw [hI.ctxs]
      exact hfed.unfed c x hx hno
    · rw [hI.ctxs]
      exact hI.runs
  case reduceSum =>
    intro n m d q s h hk h0 h28 h29 hlo hhi
    have hI := State.reduce_issued h hk h0 (beq_iff_eq.mpr hk)
    have hlen := length_leBytes (s.reduced n d).toNat 4
    refine ⟨_, exec_reduce n d s, ?_, hI.kept hlen, hI.runs, hI.others, hI.frame⟩
    rw [hI.stored hlen]
    exact State.reduced_sum h28 h29 hlo hhi
  case reduce =>
    intro n m d q s h hk h0
    have hI := State.reduce_issued h hk h0 (beq_iff_eq.mpr hk)
    have hlen := length_leBytes (s.reduced n d).toNat 4
    exact ⟨_, exec_reduce n d s, hI.kept hlen, ⟨_, _, hI.stored hlen⟩, hI.runs, hI.others, hI.frame⟩
  case eltwise =>
    intro n m d q s h hk hf
    have hI := State.eltwise_issued h hk hf (mine := opKind d == 0x04 && byteAt d 32 != 0x0B) (by rw [hk, bne_iff_ne.mpr hf]; rfl)
    have hlen : (s.eltStored n d).length = u32At d 28 * elSize (byteAt d 34) := eltBytes_length ..
    exact ⟨_, exec_eltwise n d s, hI.kept hlen, ⟨_, hI.stored hlen⟩, hI.runs, hI.others, hI.frame⟩
  case eltwiseSum =>
    intro n m d q j s h hk h32 h33 h34 hj hlo hhi
    have hf : byteAt d 32 ≠ 0x0B := by rw [h32]; decide
    have hI := State.eltwise_issued h hk hf (mine := opKind d == 0x04 && byteAt d 32 != 0x0B) (by rw [hk, bne_iff_ne.mpr hf]; rfl)
    have hlen : (s.eltStored n d).length = u32At d 28 * 4 := (eltBytes_length ..).trans (by rw [h34]; rfl)
    refine ⟨_, exec_eltwise n d s, ?_⟩
    have hat := leAt_readCells 0 ((s.writeOp n d (opKind d == 0x04 && byteAt d 32 != 0x0B)).tile n).lane (u32At d 24)
      (n := u32At d 28 * 4) (o := 4 * j) (k := 4) (by omega)
    rw [hI.stored hlen] at hat
    rw [u32At, ← hat]
    exact State.eltStored_sum h32 h33 h34 hj rfl rfl hlo hhi
  case quant =>
    intro n m d q s h hk hf
    have hI := State.quant_issued h hk hf (mine := opKind d == 0x04 && byteAt d 32 == 0x0B) (by rw [hk, hf]; rfl)
    have hlen := State.quantStored_length s m n d
    exact ⟨_, exec_eltwiseQuant n d s, hI.kept hlen, hI.stored hlen, hI.runs, hI.others, hI.frame⟩
  case filter =>
    rintro n m d q y r o s h hk hy hp rfl hfits
    have hI := State.filter_issued h hk hy hp hfits (beq_iff_eq.mpr hk)
    exact ⟨_, exec_filter n d s, hI.stored rfl, hI.kept rfl, hI.runs, hI.others, hI.frame⟩
  case filterCarry =>
    rintro n m d q y r o p s h hk hy hp rfl hfits hapart
    have hI := State.filterCarry_issued h hk hy hp hfits (beq_iff_eq.mpr hk)
    have hlen : (s.filterSource n d p (u32At d 20 - p)).length = u32At d 20 - p := by
      unfold State.filterSource
      rw [length_readCells, Nat.min_self]
    refine ⟨_, exec_filter n d s, ?_, hI.stored hlen, fun a hout hcut => ?_, hI.runs, hI.others, hI.frame⟩
    · rw [hI.lane, Tests.readCells_out 0 _ _ _ _ _ (by rw [hlen]; exact hapart)]
      exact Tests.readCells_in 0 _ _ _ _ rfl
    · rw [hI.kept hlen a hcut]
      exact readCell_writeCells_out 0 _ _ _ _ hout
  case filterOver =>
    intro n m d q y r s h hk hy hp hover
    have hI := State.filterOver_issued h hk hy hp hover (beq_iff_eq.mpr hk)
    exact ⟨_, exec_filter n d s, hI.kept (by simp [freeBytes]), hI.runs, hI.others, hI.frame⟩
  case topkDist =>
    intro n m d q s h hk h1 h0
    obtain ⟨l, hperm, hsorted, hI⟩ := State.topk_issued h hk h1 (beq_iff_eq.mpr hk)
    have htake := length_take_topk hperm
    have hlen := (State.length_topkBytes s n d (l.take (u16At d 28))).trans (congrArg (16 * ·) htake)
    refine ⟨_, exec_topk n d s, ?_, hI.kept hlen, hI.runs, hI.others, hI.frame⟩
    have hdists : ∀ j (hj : j < (l.take (u16At d 28)).length),
        u16At (s.topkBytes n d (l.take (u16At d 28))) (16 * j + 8) = s.topkDist n d (l.take (u16At d 28))[j] := by
      intro j hj
      rw [(State.topkBytes_fields s n d _ hj).2, (State.topkItem_dist s n h0 _).2]
      exact Nat.mod_eq_of_lt (leAt_lt _ _ 2)
    rw [hI.stored hlen, map_range_eq htake hdists]
    refine Eq.trans ?_ (congrArg (List.take _) (State.topkDists_sorted h0 hperm hsorted).symm)
    rw [List.map_take, List.take_eq_take_iff, List.length_map, hperm.length_eq, List.length_range, Nat.min_assoc, Nat.min_self]
  case topk =>
    intro n m d q s h hk h1
    obtain ⟨l, hperm, hsorted, hI⟩ := State.topk_issued h hk h1 (beq_iff_eq.mpr hk)
    have htake := length_take_topk hperm
    have hlen := (State.length_topkBytes s n d (l.take (u16At d 28))).trans (congrArg (16 * ·) htake)
    have hlt : ∀ a ∈ l, a < u32At d 24 := fun a ha => List.mem_range.mp (hperm.mem_iff.mp ha)
    refine ⟨_, fun a => Config.freeWord (s.tick + 1) (s.topkKey n d a), l, exec_topk n d s, hperm,
      hsorted.imp_of_mem fun {a b} ha hb hab => ?_, ?_, hI.kept hlen, hI.runs, hI.others, hI.frame⟩
    · rwa [State.topkItem_rank s n d (hlt a ha), State.topkItem_rank s n d (hlt b hb)] at hab
    · rw [hI.stored hlen]
      exact map_range_eq htake fun j hj => (State.topkBytes_fields s n d _ hj).1
  case topkCtx =>
    intro n m d q x s h hk h0 h36 hx hheld
    have hI := State.topkCtx_issued h hk h0 (beq_iff_eq.mpr hk) hx hheld
    have hleast := State.topkHeap_least (s := s) (n := n) h36 x
    have hdist : ∀ e ∈ s.topkHeap n d x, e.dist < 65536 := fun e he => State.topkHeap_lt h36 he
    generalize s.topkHeap n d x = r at hI hleast hdist
    obtain ⟨hsort, hcount⟩ := leastOf_sorted hleast
    have hheap := Tile.heap_written (hI.whole (State.tileIssues_whole h n)) (x := x.withHeap r) hI.lane rfl
    have hnow : min x.k (u32At d 24) = (x.withHeap r).held := by rw [← State.length_topkDists s n d]; exact hcount.symm
    refine ⟨_, x.withHeap r, exec_topk n d s, ?_, ?_, ?_, fun b hb => ?_, hI.kept (length_flatMap_const HeapEntry.length_bytes r), ?_,
      hI.others, hI.frame⟩
    · rw [hI.ctxs]
      exact KMap.find_put_self ..
    · rw [hnow]
      rfl
    · rw [hheap, map_back_dist hdist]
      exact hsort
    · rw [hI.ctxs]
      exact KMap.find_put_ne _ _ _ _ hb
    · rw [hI.ctxs]
      exact hI.runs
  case stats =>
    intro n m d q s h hk h2
    have hI := State.stats_issued h hk h2 (mine := opKind d == 0x0B && byteAt d 30 != 2) (by rw [hk, bne_iff_ne.mpr h2]; rfl)
    refine ⟨_, exec_stats n d s, hI.amax, hI.lane, ?_, hI.others, hI.frame⟩
    rw [hI.amax]
    exact hI.runs
  case refused => exact fun n d s h => exec_opRow_refused h
  case waits =>
    intro n m d q i s hi h
    obtain ⟨mine, hexec, hmine⟩ := exec_opRows hi
    rw [hexec, State.writeOp_waits h hmine]
    rfl

end

section
/-! The commands of the scale keeper (R118, R125, R133): its resets, the clearing of its counters, its look-up, and the rendezvous of
a calibrating tensor. -/

namespace Sys2Proof.Machine

/-! ## The register commands where the vendor blocks answer, and where they do not -/

theorem exec_resetSquad_live {s : State} (h : s.vendorLive = true) (q : Nat) :
    exec (.resetSquad q) s = .next (s.onNsSq (q % 64) (fun z => { z with resetDue := true })) :=
  congrArg done (if_pos h)

theorem exec_resetAll_live {s : State} (h : s.vendorLive = true) : exec .resetAll s = .next s.dropAllKeepers :=
  congrArg done (if_pos h)

theorem exec_nsClrCnt_live {s : State} (h : s.vendorLive = true) :
    exec .nsClrCnt s = .next { s with ns := { s.ns with satCnt := 0, underCnt := 0, zeroCnt := 0, calCnt := 0 } } :=
  congrArg done (if_pos h)

theorem exec_keeperRegisters_dead {s : State} (h : s.vendorLive = false) (q : Nat) (v : W32) :
    exec (.resetSquad q) s = .next s ∧ exec .resetAll s = .next s ∧ exec .nsClrCnt s = .next s ∧
      exec (.nsLookup v) s = .next s := by
  have hn : ¬ s.vendorLive = true := ne_true_of_eq_false h
  exact ⟨congrArg done (if_neg hn), congrArg done (if_neg hn), congrArg done (if_neg hn),
    congrArg done (if_pos (congrArg (!·) h))⟩

/-! ## The NS values of a squad -/

@[simp] theorem State.nsSq_onNsSq_self (s : State) (n : Nat) (f : NsSquad → NsSquad) : (s.onNsSq n f).nsSq n = f (s.nsSq n) :=
  KMap.findD_put_self ..

theorem State.nsSq_onNsSq_ne (s : State) {n p : Nat} (h : p ≠ n) (f : NsSquad → NsSquad) :
    (s.onNsSq n f).nsSq p = s.nsSq p :=
  KMap.findD_put_ne _ _ _ _ _ h

/-! ## The look-up -/

/-- The squad and the tensor of NS_LOOKUP are the key of the entry, its low 22 bits. -/
theorem keeperKey_of_lookup (v : W32) :
    keeperKey (bitsW (v &&& 0x3FFFFF) 21 16) (bitsW (v &&& 0x3FFFFF) 15 0) = v.toNat % 4194304 := by
  have hmask : (v &&& 0x3FFFFF).toNat = v.toNat % 4194304 := by
    rw [BitVec.toNat_and]
    exact Nat.and_two_pow_sub_one_eq_mod v.toNat 22
  unfold keeperKey bitsW bitsN
  rw [hmask]
  omega

theorem exec_nsLookup_found {s : State} (h : s.vendorLive = true) {v : W32} {e : Keeper}
    (he : s.ns.table.find (v.toNat % 4194304) = some e) :
    exec (.nsLookup v) s = .next { s with ns := { s.ns with
      lookup := v &&& 0x3FFFFF
      lookupWords :=
        [packW [(0, 1), (1, 1), (2, b2n (!e.hist.isEmpty)), (3, b2n e.aRef.isNone), (4, e.hist.length), (11, e.event)],
         e.aRef.getD 0, e.lastMax, BitVec.ofNat 32 e.lastEl, BitVec.ofNat 32 e.lastSat, BitVec.ofNat 32 e.lastUn,
         BitVec.ofNat 32 e.steps] } } := by
  change execNsLookup v s = _
  unfold execNsLookup
  dsimp only
  rw [keeperKey_of_lookup, he, h]
  rfl

theorem exec_nsLookup_absent {s : State} (h : s.vendorLive = true) {v : W32}
    (he : s.ns.table.find (v.toNat % 4194304) = none) :
    exec (.nsLookup v) s =
      .next { s with ns := { s.ns with lookup := v &&& 0x3FFFFF, lookupWords := [1, 0, 0, 0, 0, 0, 0] } } := by
  change execNsLookup v s = _
  unfold execNsLookup
  dsimp only
  rw [keeperKey_of_lookup, he, h]
  rfl

/-! ## The rendezvous -/

/-- The reference magnitude of a rendezvous: the greatest report of the step, or the one before where every report is 0. -/
theorem Keeper.met_aRef (e : Keeper) :
    (if e.step.getD 0 = 0 then e.aRef else some (e.step.getD 0)) = if e.step.getD 0 = 0 then e.aRef else e.step := by
  cases e.step <;> rfl

theorem State.rendezvousDone_met {s : State} {q n : Nat} {e : Keeper} {x : Squad}
    (he : s.ns.table.find (keeperKey q n) = some e) (hx : s.squadOf q = some x) (hw : e.waiting ≠ [])
    (hall : ∀ i ∈ x.tiles, i ∈ e.waiting) :
    s.rendezvousDone q n = { s with ns := { s.ns with
      table := s.ns.table.put (keeperKey q n)
        { e with waiting := [], met := true, aRef := if e.step.getD 0 = 0 then e.aRef else e.step } } } := by
  have hc : (!e.waiting.isEmpty && x.tiles.all (fun t => e.waiting.contains t)) = true := by simpa [hw] using hall
  unfold State.rendezvousDone
  rw [he, hx]
  dsimp only
  rw [if_pos hc, e.met_aRef]

theorem State.rendezvousDone_short {s : State} {q n i : Nat} {e : Keeper} {x : Squad}
    (he : s.ns.table.find (keeperKey q n) = some e) (hx : s.squadOf q = some x) (hi : i ∈ x.tiles) (hn : i ∉ e.waiting) :
    s.rendezvousDone q n = s := by
  have hc : ¬ (!e.waiting.isEmpty && x.tiles.all (fun t => e.waiting.contains t)) = true := by
    simpa using fun _ => ⟨i, hi, hn⟩
  unfold State.rendezvousDone
  rw [he, hx]
  dsimp only
  rw [if_neg hc]

theorem State.rendezvousDone_missing {s : State} {q n : Nat}
    (h : s.ns.table.find (keeperKey q n) = none ∨ s.squadOf q = none) : s.rendezvousDone q n = s := by
  unfold State.rendezvousDone
  rcases h with h | h
  · rw [h]
  · rw [h]
    cases s.ns.table.find (keeperKey q n) <;> rfl

theorem exec_calRendezvousDone (q n : Nat) (s : State) :
    exec (.calRendezvousDone q n) s = .next (s.rendezvousDone q n) := rfl

/-! ## The obligation -/

/-- Settles O37: each register command where the vendor blocks answer, and the rendezvous by who waits at it. -/
theorem keeperCommands : Obligations.KeeperCommands := by
  unfold Obligations.KeeperCommands
  refine ⟨?resetSquad, ?resetAll, ?found, ?absent, ?met, ?short, ?idle⟩
  case resetSquad =>
    intro q s h hq
    rw [exec_resetSquad_live h, Nat.mod_eq_of_lt hq]
    exact ⟨_, rfl, s.nsSq_onNsSq_self .., fun p hp => s.nsSq_onNsSq_ne hp _, rfl⟩
  case resetAll => exact fun s h => ⟨exec_resetAll_live h, exec_nsClrCnt_live h⟩
  case found =>
    intro v e s h he
    exact ⟨_, exec_nsLookup_found h he, rfl, rfl⟩
  case absent => exact fun v s h he => exec_nsLookup_absent h he
  case met =>
    intro q n e x s he hx hw hall
    rw [exec_calRendezvousDone, State.rendezvousDone_met he hx hw hall]
    exact ⟨_, rfl, KMap.find_put_self .., fun k hk => KMap.find_put_ne _ _ _ _ hk, rfl⟩
  case short =>
    intro q n i e x s he hx hi hn
    rw [exec_calRendezvousDone, State.rendezvousDone_short he hx hi hn]
  case idle =>
    intro q n v s
    refine ⟨fun h => ?_, fun h => exec_keeperRegisters_dead h q v⟩
    rw [exec_calRendezvousDone, State.rendezvousDone_missing h]

end Sys2Proof.Machine
end

section
/-! A counterexample for the update-ratio check under STOP (R130, R307): the job ends after its last publish, and an arbitrary state may
hold a copy that names the job, though the job has no serving object; the job then waits for that copy. -/

namespace Sys2Proof.Machine

/-! ## What pass 1 comes to -/

/-- The check of the layers of a job, at the values that take effect at its pass 1 (R129, R133). -/
def State.monitored (s : State) (j : Job) (ls : List LayerSpan) : State × List Nat × Bool :=
  ({ s with tick := s.tick + 2 * ls.length }.takeUwr j.squad).ratioCheck j.squad (s.pass1Sums j ls)

/-- A check that STOP ends, ends the job. -/
theorem exec_updateRatioCheck_stops {s : State} {g : Nat} {ls : List LayerSpan} {j : Job} {l : Lap} (hg : s.inGo = true)
    (hj : s.job g = some j) (hl : (s.lapsOf j.squad).flight = some l) (htag : l.jobTag = g) (hup : l.update = true)
    (hpass : j.lap.pass1 = false) (hst : j.state = .admitted) (hstop : (s.monitored j ls).2.2 = true) :
    exec (.updateRatioCheck g ls) s = .next ((s.monitored j ls).1.endTrain g stJobAborted 7) := by
  change execUpdateRatioCheck g ls s = _
  unfold execUpdateRatioCheck
  unfold State.monitored at hstop ⊢
  simp [done, hj, hl, hg, htag, hup, hpass, hst, hstop]

/-- A check posts records and counts them; it touches neither the jobs nor the relay. -/
theorem State.ratioCheck_keeps (n : Nat) (ls : List LayerSums) (s : State) :
    (s.ratioCheck n ls).1.jd = s.jd ∧ (s.ratioCheck n ls).1.rl = s.rl := by
  induction ls generalizing s with
  | nil => exact ⟨rfl, rfl⟩
  | cons l ls ih =>
    unfold State.ratioCheck
    dsimp only
    split
    · exact ih s
    · split
      · refine ⟨(ih _).1.trans ?_, (ih _).2.trans ?_⟩ <;> simp [State.onNsSq]
      · exact ih s

theorem State.monitored_keeps (s : State) (j : Job) (ls : List LayerSpan) :
    (s.monitored j ls).1.jd = s.jd ∧ (s.monitored j ls).1.rl = s.rl :=
  State.ratioCheck_keeps ..

/-- Pass 1 judges by the values written, or by those in force where none is (R133). -/
theorem State.nsSq_takeUwr (s : State) (n : Nat) : (s.takeUwr n).nsSq n = { s.nsSq n with
    uwrHi := (s.nsSq n).uwrNext.getD (s.nsSq n).uwrHi, uwrNext := none
    ctl := (s.nsSq n).ctlNext.getD (s.nsSq n).ctl, ctlNext := none } :=
  State.nsSq_onNsSq_self ..

/-- A layer that crosses under STOP ends the check's job. -/
theorem State.ratioCheck_stops {s : State} {n : Nat} {l : LayerSums} {r : W32} (hr : layerRatio l = some r)
    (hc : crosses (s.nsSq n).uwrHi r = true) (ha : ratioAction (bitsW (s.nsSq n).ctl 1 0) r = 2) (ls : List LayerSums) :
    (s.ratioCheck n (l :: ls)).2.2 = true := by
  unfold State.ratioCheck
  simp [hr, hc, ha]

/-! ## A job that ends while a copy names it -/

theorem State.job_onJob {s : State} {tag : Nat} {j : Job} (h : s.job tag = some j) (f : Job → Job) :
    (s.onJob tag f).job tag = some { f j with tag := tag } := by
  have htag : j.tag = tag := by simpa using List.find?_some h
  have hsame : (fun k : Job => k.tag == tag) ∘ (fun k => if k.tag = tag then { f k with tag := tag } else k) =
      fun k => k.tag == tag := by
    funext k
    by_cases hk : k.tag = tag <;> simp [hk]
  change (s.jd.jobs.map _).find? _ = _
  rw [List.find?_map, hsame]
  change (s.job tag).map _ = _
  rw [h, Option.map_some, if_pos htag]

theorem State.lastPublish_waits {s : State} {tag : Nat} (h : s.publishing tag = true) (st : Nat) : s.lastPublish tag st = s := by
  unfold State.lastPublish
  split
  · rfl
  · simp [h]

/-- While a copy names it, a job that ends stays, FINISHING (R307). -/
theorem State.endTrain_waits {s : State} {tag : Nat} {j : Job} (hj : s.job tag = some j) (h : s.publishing tag = true)
    (st reason : Nat) : ((s.endTrain tag st reason).job tag).map Job.state = some .finishing := by
  unfold State.endTrain
  rw [State.lastPublish_waits (s := s.onJob tag _) h, State.job_onJob hj]
  rfl

/-! ## The state -/

/-- A serving copy of job 1. -/
def copyOfJob1 : Copy :=
  { object := 9, cmd := none, publish := false, region := 7, base := 0x40000, batons := 1, version := 2, snap := none, tag := 1,
    begun := 0, pins := [] }

/-- A TRAIN without a serving object at its pass 1 under STOP, and that copy. -/
def goStopCopying : State := { Tests.stopState with rl := { Tests.stopState.rl with copies := [copyOfJob1] } }

/-- No sum of pass 1 depends on the copies. -/
theorem State.pass1Sums_withCopies (s : State) (cs : List Copy) (j : Job) (ls : List LayerSpan) :
    State.pass1Sums { s with rl := { s.rl with copies := cs } } j ls = s.pass1Sums j ls := rfl

/-- The job's one layer has the ratio 0, and the threshold is below. -/
theorem goStopCopying_crosses : layerRatio { layer := 6, sumDw := 0, sumW := 0x3F800000 } = some 0 ∧
    crosses 0xBF800000 0 = true ∧ ratioAction (bitsW 2 1 0) 0 = 2 := by
  decide +kernel

theorem goStopCopying_pass1 :
    goStopCopying.pass1Sums Tests.stopTrain [Tests.stopSpan] = [{ layer := 6, sumDw := 0, sumW := 0x3F800000 }] :=
  (Tests.stopState.pass1Sums_withCopies _ _ _).trans Tests.pass1_stop

theorem goStopCopying_stops : (goStopCopying.monitored Tests.stopTrain [Tests.stopSpan]).2.2 = true := by
  obtain ⟨hr, hc, ha⟩ := goStopCopying_crosses
  unfold State.monitored
  rw [goStopCopying_pass1]
  exact State.ratioCheck_stops hr (by rw [State.nsSq_takeUwr]; exact hc) (by rw [State.nsSq_takeUwr]; exact ha) []

theorem goStopCopying_waits :
    (((goStopCopying.monitored Tests.stopTrain [Tests.stopSpan]).1.endTrain 1 stJobAborted 7).job 1).map Job.state =
      some .finishing := by
  obtain ⟨hjd, hrl⟩ := goStopCopying.monitored_keeps Tests.stopTrain [Tests.stopSpan]
  refine State.endTrain_waits (j := Tests.stopTrain) ?_ ?_ _ _
  · unfold State.job
    rw [hjd]
    rfl
  · unfold State.publishing
    rw [hrl]
    rfl

/-- The one layer of pass 1 crosses, and its action is STOP. -/
theorem goStopCopying_crossing :
    [(6, 0, 2)] = (goStopCopying.pass1Sums Tests.stopTrain [Tests.stopSpan]).filterMap (fun y => (layerRatio y).bind (fun r =>
      if crosses 0xBF800000 r then some (y.layer, r, ratioAction (bitsW 2 1 0) r) else none)) := by
  obtain ⟨hr, hc, ha⟩ := goStopCopying_crosses
  simp only [goStopCopying_pass1, List.filterMap_cons, List.filterMap_nil, hr, hc, ha, Option.bind_some, if_true]

theorem stopTrain_serves_nothing : Tests.stopTrain.u32 152 = 0xFFFFFFFF := by
  decide

/-- That job's update lap waits for its pass 1, and its command is fetched. -/
theorem goStopCopying_pass1Due : goStopCopying.inGo = true ∧ goStopCopying.job 1 = some Tests.stopTrain ∧
    (goStopCopying.lapsOf 2).flight = some { Tests.lapOf 0xFF 1 with update := true } ∧
    goStopCopying.nsSq 2 = { NsSquad.reset with uwrHi := 0xBF800000, ctl := 2 } ∧
    goStopCopying.qe.fetched = [Tests.stopTrain.c] := by
  decide +kernel

/-- Refutes O49: a job that STOP ends while a copy names it stays, FINISHING, where the statement completes it; no hypothesis of the
statement says that a job without a serving object has no copy. -/
theorem not_updateRatioMonitor : ¬ Obligations.UpdateRatioMonitor := by
  unfold Obligations.UpdateRatioMonitor
  rintro ⟨-, hstop, -⟩
  obtain ⟨hgo, hjob, hlap, hns, hfetched⟩ := goStopCopying_pass1Due
  obtain ⟨t, hex, -, hgone, -⟩ := hstop 1 [Tests.stopSpan] 0xBF800000 2 { Tests.lapOf 0xFF 1 with update := true } Tests.stopTrain
    { NsSquad.reset with uwrHi := 0xBF800000, ctl := 2 } (6, 0, 2) [(6, 0, 2)] goStopCopying hgo hjob hlap rfl rfl rfl rfl hns
    rfl rfl goStopCopying_crossing (List.mem_singleton_self _) rfl stopTrain_serves_nothing rfl
    (by rw [hfetched]; exact List.mem_singleton_self _) (by rw [hfetched]; exact List.nodup_singleton _)
  have hends := exec_updateRatioCheck_stops hgo hjob hlap rfl rfl rfl rfl goStopCopying_stops
  have hwaits := goStopCopying_waits
  rw [Host.Outcome.next.inj (hends.symm.trans hex), hgone] at hwaits
  cases hwaits

end Sys2Proof.Machine
end
section
/-! A counterexample for OBJ_PLACE from namespace blocks (R163, R197). A Data Transfer Error ends the storage read of a placement and
the placement's command, and the copy stays; the storage read of a later placement with that command identifier then gives the copy
left over a new snapshot too. -/

namespace Sys2Proof.Machine

/-- The identifier of the two placements. -/
def placeId : CmdId := { sq := 0, cid := 7 }

/-- The words of a placement of object `o` from block 0 of namespace 1 into region 7. -/
def placeWords (o : Nat) : Dwords := { Tests.objWords 7 0 with d10 := BitVec.ofNat 32 o }

/-- GO with two commands in the submission queue. -/
def goTwoCommands : State :=
  { Tests.goObj [] [] with qe := { (Tests.goObj [] []).qe with
      sqs := [(0, { size := 32, prio := 0, cq := 0, tail := 2, head := 0, blocked := none })] } }

/-- A placement of object 9 began and met a Data Transfer Error. -/
def goPlaceCut : State :=
  (goTwoCommands.objCommand { c := placeId, publish := false, src := 1, d := placeWords 9, data := [] }).transferFails placeId

/-- The same, once MM has begun its next epoch. -/
def goPlaceCutLater : State := { goPlaceCut with mm := { goPlaceCut.mm with epoch := 7 } }

/-- The copy of object 9 stays, with the snapshot at which it began. -/
theorem goPlaceCut_copies : goPlaceCut.rl.copies.map (fun k => (k.object, k.snap)) = [(9, some 6)] := by
  decide +kernel

/-- The place of object 10 follows that of object 9. -/
theorem goPlaceCutLater_fits : goPlaceCutLater.placeFits (placeWords 10)
    { id := 7, tier := 0, kind := 1, owner := 0, access := 0, base := 0x40000, size := 0x400000 } 0x60000 := by
  have hwaiting : goPlaceCutLater.rl.waiting = [] := by decide +kernel
  have hdir : goPlaceCutLater.rl.dir.find (Dwords.object (placeWords 10)) = none := by decide +kernel
  refine ⟨by decide, by decide +kernel, fun w hw => ?_, fun e he => ?_, Or.inr (by decide +kernel), by decide +kernel, by decide,
    by decide, by decide +kernel⟩
  · rw [hwaiting] at hw
    cases hw
  · rw [hdir] at he
    cases he

theorem goPlaceCutLater_serves : goPlaceCutLater.serves placeId .job := by
  decide +kernel

theorem goPlaceCutLater_storeIdle : goPlaceCutLater.storeIdle placeId (placeWords 10).nsid
    { granules := [0], blocks := 262144, attached := true, readOnly := false, key := 1 } := by
  decide +kernel

/-- The second placement's storage read gives both copies the present epoch. -/
theorem goPlaceCutLater_places : (goPlaceCutLater.objCommand
    { c := placeId, publish := false, src := 1, d := placeWords 10, data := [] }).rl.copies.map (fun k => (k.object, k.snap)) =
      [(9, some 7), (10, some 7)] := by
  decide +kernel

/-- Refutes O50: a placement from blocks moves the snapshot of a copy that an ended command of the same identifier left, where the
statement keeps every copy; no hypothesis of the statement says that a copy's command is still fetched. -/
theorem not_objectPlacement : ¬ Obligations.ObjectPlacement := by
  unfold Obligations.ObjectPlacement
  rintro ⟨-, -, hblocks, -⟩
  obtain ⟨t, hex, hrl, -⟩ := hblocks placeId (placeWords 10) _ 0x60000 _ goPlaceCutLater goPlaceCutLater_serves
    goPlaceCutLater_fits goPlaceCutLater_storeIdle (by decide)
  have ht : goPlaceCutLater.objCommand { c := placeId, publish := false, src := 1, d := placeWords 10, data := [] } = t :=
    Host.Outcome.next.inj hex
  have hmoved := goPlaceCutLater_places
  rw [ht, hrl] at hmoved
  change (goPlaceCut.rl.copies ++ _).map _ = _ at hmoved
  rw [List.map_append, goPlaceCut_copies] at hmoved
  cases hmoved

end Sys2Proof.Machine
end
section
/-! OBJ_EVICT and the release of an object's last pin (R164, R166, R169 to R172, R408): what an eviction does to the object's
entry, by the entry's state, and which commands it completes. -/

namespace Sys2Proof.Machine

/-! ## Entries of the directory -/

theorem KMap.find_del_self {α : Type} (m : KMap α) (n : Nat) : (m.del n).find n = none := by
  rw [KMap.del, KMap.find_filter m (fun k => !(k == n)) n]
  simp

theorem KMap.find_del_ne {α : Type} (m : KMap α) {n k : Nat} (h : k ≠ n) : (m.del n).find k = m.find k := by
  rw [KMap.del, KMap.find_filter m (fun k => !(k == n)) k]
  simp [h]

@[simp] theorem State.onDir_qe (s : State) (o : Nat) (f : DirEntry → DirEntry) : (s.onDir o f).qe = s.qe := rfl

@[simp] theorem State.dropEntry_qe (s : State) (o : Nat) : (s.dropEntry o).qe = s.qe := rfl

theorem State.onDir_find_self {s : State} {o : Nat} {e : DirEntry} (h : s.rl.dir.find o = some e) (f : DirEntry → DirEntry) :
    (s.onDir o f).rl.dir.find o = some (f e) :=
  KMap.find_adjust_self h f

theorem State.onDir_find_ne (s : State) {o p : Nat} (h : p ≠ o) (f : DirEntry → DirEntry) :
    (s.onDir o f).rl.dir.find p = s.rl.dir.find p :=
  KMap.find_adjust_ne _ h f

theorem State.dropEntry_find_self (s : State) (o : Nat) : (s.dropEntry o).rl.dir.find o = none :=
  KMap.find_del_self _ o

theorem State.dropEntry_find_ne (s : State) {o p : Nat} (h : p ≠ o) : (s.dropEntry o).rl.dir.find p = s.rl.dir.find p :=
  KMap.find_del_ne _ h

/-- With no command waiting for its turn, none takes it. -/
theorem State.nextObj_of_noneWaits {s : State} (h : s.rl.waiting = []) (o : Nat) : s.nextObj o = s := by
  unfold State.nextObj
  rw [h]
  rfl

/-! ## Waiting evictions -/

/-- The evictions that end touch QE and the event bits of RL alone. -/
theorem State.endEvicts_eq (s : State) (ws : List DirWait) : s.endEvicts ws = { s with
    qe := (s.endEvicts ws).qe, rl := { s.rl with event := (s.endEvicts ws).rl.event } } := by
  unfold State.endEvicts
  refine kept_foldl (P := fun t : State => t = { s with qe := t.qe, rl := { s.rl with event := t.rl.event } })
    (fun t w ht => ?_) rfl
  rw [ht]
  cases w with
  | evict c p => cases p <;> rfl
  | place c j => rfl
  | publishNear c d => rfl

@[simp] theorem State.endEvicts_nil (s : State) : s.endEvicts [] = s := rfl

@[simp] theorem State.endEvicts_dir (s : State) (ws : List DirWait) : (s.endEvicts ws).rl.dir = s.rl.dir :=
  congrArg (fun t => t.rl.dir) (s.endEvicts_eq ws)

@[simp] theorem State.endEvicts_waiting (s : State) (ws : List DirWait) : (s.endEvicts ws).rl.waiting = s.rl.waiting :=
  congrArg (fun t => t.rl.waiting) (s.endEvicts_eq ws)

/-- An eviction that waits alone completes with DONE, or with DEFERRED when it waited for the promotion. -/
theorem State.endEvicts_completed {s : State} {c : CmdId} (h : c ∈ s.qe.fetched) (p : Bool) :
    Completed (s.endEvicts [.evict c p]) c stOk (b2n p) 0 [] := by
  cases p
  · exact s.complete_completed c _ _ _ _ h
  · exact State.complete_completed { s with rl := { s.rl with event := setEv s.rl.event 1 } } c _ _ _ _ h

/-! ## An entry that loses its near copy -/

/-- The entry at HOME, its near copy gone. -/
def DirEntry.atHome (e : DirEntry) : DirEntry := { e with state := .home, cur := { e.cur with near := none } }

/-- The entry in EVICTING, every pin reading the near copy. -/
def DirEntry.startsEvicting (e : DirEntry) : DirEntry := { e with state := .evicting, cur := e.cur.evictStarts }

/-- The entry with one more eviction that waits. -/
def DirEntry.awaitsEvict (e : DirEntry) (c : CmdId) (deferred discard : Bool) : DirEntry :=
  { e with discardPending := e.discardPending || discard, waits := e.waits ++ [.evict c deferred] }

theorem State.evicted_homed {s : State} {o : Nat} {e : DirEntry} (h : s.rl.dir.find o = some e)
    (hd : (e.discardPending && e.idle) = false) (hh : e.cur.home ≠ .none) : s.evicted o = (s.onDir o (fun x => { x.atHome with
      evictPending := false, condemned := false, waits := e.waits.filter (fun w => !isEvict w) })).endEvicts e.waits := by
  unfold State.evicted
  rw [h]
  simp [hd, hh, DirEntry.atHome]

theorem State.evicted_removed {s : State} {o : Nat} {e : DirEntry} (h : s.rl.dir.find o = some e)
    (hd : (e.discardPending && e.idle) = true) : s.evicted o = (s.dropEntry o).endEvicts e.waits := by
  unfold State.evicted
  rw [h]
  simp [hd]

/-- On entry to EVICTING the pins that jobs hold on the version were taken before it. -/
theorem State.startEvicting_eq {s : State} {o : Nat} {e : DirEntry} (h : s.rl.dir.find o = some e) :
    s.startEvicting o = { s.onDir o DirEntry.startsEvicting with
      jd := { s.jd with jobs := s.jd.jobs.map (fun j => { j with pins := j.pins.map (fun p =>
        if p.object = o ∧ p.version = e.cur.num then { p with near := true } else p) }) } } := by
  unfold State.startEvicting
  rw [h]
  rfl

theorem State.startEvicting_find_self {s : State} {o : Nat} {e : DirEntry} (h : s.rl.dir.find o = some e) :
    (s.startEvicting o).rl.dir.find o = some e.startsEvicting := by
  rw [State.startEvicting_eq h]
  exact State.onDir_find_self h _

theorem State.startEvicting_find_ne {s : State} {o p : Nat} {e : DirEntry} (h : s.rl.dir.find o = some e) (hp : p ≠ o) :
    (s.startEvicting o).rl.dir.find p = s.rl.dir.find p := by
  rw [State.startEvicting_eq h]
  exact State.onDir_find_ne s hp _

/-! ## OBJ_EVICT at an entry, by its state -/

section
variable {s : State} {o : Nat} {e : DirEntry}

theorem State.evictAt_discarded (hs : e.state ≠ .promoting) (hi : e.idle = true) (c : CmdId) :
    s.evictAt c o true e = ((s.dropEntry o).endEvicts e.waits).complete c stOk := by
  unfold State.evictAt
  cases hst : e.state <;> simp_all

theorem State.evictAt_resident_unpinned (hs : e.state = .resident) (hp : e.cur.pins = 0) (c : CmdId) :
    s.evictAt c o false e = (s.evicted o).complete c stOk := by
  simp [State.evictAt, hs, hp]

/-- A RESIDENT object becomes EVICTING while pins read it, or, under DISCARD, while any version is not idle. -/
theorem State.evictAt_resident_waits {discard : Bool} (hs : e.state = .resident)
    (hp : discard = false ∧ e.cur.pins ≠ 0 ∨ discard = true ∧ e.idle = false) (c : CmdId) :
    s.evictAt c o discard e = (s.startEvicting o).onDir o (fun e => e.awaitsEvict c false discard) := by
  unfold State.evictAt DirEntry.awaitsEvict
  rcases hp with ⟨rfl, hp⟩ | ⟨rfl, hp⟩ <;> simp [hs, hp]

theorem State.evictAt_promoting (hs : e.state = .promoting) (c : CmdId) (discard : Bool) :
    s.evictAt c o discard e =
      (s.onDir o (fun e => { e with evictPending := true })).onDir o (fun e => e.awaitsEvict c true discard) := by
  simp [State.evictAt, hs, DirEntry.awaitsEvict]

/-- An eviction joins the one that waits. -/
theorem State.evictAt_joins {discard : Bool} (hs : e.state = .evicting ∨ discard = true ∧ e.state = .home)
    (hp : discard = false ∨ e.idle = false) (c : CmdId) :
    s.evictAt c o discard e = s.onDir o (fun x => x.awaitsEvict c e.joinsDeferred discard) := by
  unfold State.evictAt DirEntry.awaitsEvict
  rcases hs with hs | ⟨rfl, hs⟩ <;> rcases hp with hp | hp <;> simp_all

theorem State.evictAt_home (hs : e.state = .home) (c : CmdId) : s.evictAt c o false e = s.complete c stOk 3 := by
  simp [State.evictAt, hs]

/-- No eviction changes which commands wait for their turn. -/
theorem State.evictAt_waiting (h : s.rl.dir.find o = some e) (c : CmdId) (discard : Bool) :
    (s.evictAt c o discard e).rl.waiting = s.rl.waiting := by
  have hevicted : (s.evicted o).rl.waiting = s.rl.waiting := by
    unfold State.evicted
    rw [h]
    simp only [State.endEvicts_waiting]
    split <;> rfl
  have hstarts : (s.startEvicting o).rl.waiting = s.rl.waiting := by
    rw [State.startEvicting_eq h]
    rfl
  have hgone : ((s.dropEntry o).endEvicts e.waits).rl.waiting = s.rl.waiting := State.endEvicts_waiting ..
  unfold State.evictAt
  dsimp only
  split
  · rfl
  · split
    · exact hgone
    · split
      · exact hevicted
      · exact hstarts
  · split
    · exact hgone
    · rfl
  · split
    · rfl
    · split
      · exact hgone
      · rfl

end

/-! ## OBJ_EVICT where QE serves it -/

section
variable {s : State} {c : CmdId} {d : Dwords} {e : DirEntry} (h : s.serves c .job)
include h

theorem State.objEvict_absent (hf : s.rl.dir.find (Dwords.object d) = none) (discard : Bool) :
    s.objEvict c d discard = s.answered c stOk 3 0 [] := by
  unfold State.objEvict
  rw [State.command_served _ h.1 h.2, State.fetch_rl, hf]
  rfl

theorem State.objEvict_refused {discard : Bool} (hf : s.rl.dir.find (Dwords.object d) = some e)
    (hr : e.segment = true ∨ discard = false ∧ e.cur.home = .none) :
    s.objEvict c d discard = s.answered c stInvalidField 0 0 [] := by
  unfold State.objEvict
  rw [State.command_served _ h.1 h.2, State.fetch_rl, hf]
  dsimp only
  rw [if_pos (by rcases hr with hr | ⟨rfl, hr⟩ <;> simp [hr])]
  rfl

/-- Where no other command waits for its turn, the eviction acts at the object's entry alone. -/
theorem State.objEvict_taken {discard : Bool} (hf : s.rl.dir.find (Dwords.object d) = some e) (hs : e.segment = false)
    (hw : s.rl.waiting = []) (hh : discard = true ∨ e.cur.home ≠ .none) :
    s.objEvict c d discard = (s.fetch c).evictAt c (Dwords.object d) discard e := by
  unfold State.objEvict
  rw [State.command_served _ h.1 h.2, State.fetch_rl, hf]
  dsimp only
  rw [if_neg (by rcases hh with rfl | hh <;> simp [*])]
  exact State.nextObj_of_noneWaits ((State.evictAt_waiting (s := s.fetch c) hf c discard).trans hw) _

end

/-! ## Pins that reach 0 -/

section
variable {s : State} {o : Nat} {e : DirEntry} (h : s.rl.dir.find o = some e)
include h

theorem State.pinsZero_evicting (hs : e.state = .evicting) (hp : e.cur.pinsNear = 0) (hc : e.condemned = false)
    (hd : e.discardPending = false ∨ e.idle = true) : s.pinsZero o e.cur.num = s.evicted o := by
  unfold State.pinsZero
  rw [h]
  rcases hd with hd | hd <;> simp [hs, hp, hc, hd]

/-- A discard that waits for an earlier version leaves the object at HOME. -/
theorem State.pinsZero_discardWaits (hs : e.state = .evicting) (hp : e.cur.pinsNear = 0) (hc : e.condemned = false)
    (hd : e.discardPending = true) (hi : e.idle = false) (hh : e.cur.home ≠ .none) :
    s.pinsZero o e.cur.num = s.onDir o (fun x => x.atHome) := by
  unfold State.pinsZero
  rw [h]
  simp [hs, hp, hc, hd, hi, hh, DirEntry.atHome]

theorem State.pinsZero_condemned (hc : e.condemned = true) (hp : e.cur.pins = 0) : s.pinsZero o e.cur.num = s.nearLost o := by
  unfold State.pinsZero
  rw [h]
  simp [hc, hp]

/-- An earlier version without pins goes. -/
theorem State.pinsZero_old {v : Version} (ho : e.old = some v) (hn : v.num ≠ e.cur.num) (hp : v.pins = 0)
    (hs : e.state ≠ .evicting) (hd : e.discardPending = false) (hwaits : e.waits = []) (hw : s.rl.waiting = []) :
    s.pinsZero o v.num = s.onDir o (fun x => { x with old := none, waits := x.waits.filter (fun w => !isEvict w) }) := by
  unfold State.pinsZero
  rw [h]
  dsimp only
  rw [if_neg (Ne.symm hn), ho]
  dsimp only
  rw [if_pos ⟨rfl, hp⟩]
  simp only [hd, hwaits, beq_eq_false_iff_ne.mpr hs, Bool.or_false, Bool.false_eq_true, if_false, Bool.false_and,
    State.endEvicts_nil]
  exact State.nextObj_of_noneWaits (s := s.onDir o _) hw o

/-- Any other release changes nothing. -/
theorem State.pinsZero_nothing {v : Nat} (hv : e.cur.num = v ∧ e.condemned = false ∧
      (e.state = .resident ∨ e.state = .promoting ∨ e.state = .evicting ∧ e.cur.pinsNear ≠ 0) ∨
    e.cur.num ≠ v ∧ ∀ w, e.old = some w → w.num ≠ v ∨ w.pins ≠ 0) : s.pinsZero o v = s := by
  unfold State.pinsZero
  rw [h]
  dsimp only
  rcases hv with ⟨hv, hc, hs⟩ | ⟨hv, hw⟩
  · rw [if_pos hv]
    rcases hs with hs | hs | ⟨hs, hp⟩ <;> simp [*]
  · rw [if_neg hv]
    split
    · rfl
    next w ho => rw [if_neg (fun hg => (hw w ho).elim (· hg.1) (· hg.2))]

theorem State.nearLost_homed (hd : e.discardPending = false) (hwaits : e.waits = []) (hw : s.rl.waiting = [])
    (hh : e.cur.home ≠ .none) :
    s.nearLost o = s.onDir o (fun x => { x.atHome with evictPending := false, condemned := false, waits := [] }) := by
  unfold State.nearLost
  rw [h]
  simp only [hwaits, hd, hh, decide_false, Bool.false_and, Bool.or_false, Bool.false_eq_true, if_false,
    List.map_nil, List.foldl_nil]
  exact State.nextObj_of_noneWaits (s := s.onDir o _) hw o

theorem State.nearLost_removed (hwaits : e.waits = []) (hw : s.rl.waiting = []) (hh : e.cur.home = .none) :
    s.nearLost o = s.dropEntry o := by
  unfold State.nearLost
  rw [h]
  simp only [hwaits, hh, decide_true, Bool.true_or, if_true, List.map_nil, List.foldl_nil]
  exact State.nextObj_of_noneWaits (s := s.dropEntry o) hw o

end

theorem exec_pinsReachZero_runs {s : State} (h : s.relayRuns = true) (o v : Nat) :
    exec (.pinsReachZero o v) s = .next (s.pinsZero o v) :=
  congrArg done (if_pos h)

/-! ## The obligation -/

/-- Settles O52: each clause reads the entry off the equation of its case. -/
theorem evictions : Obligations.Evictions := by
  unfold Obligations.Evictions
  refine ⟨?unpinned, ?pinned, ?pending, ?home, ?absent, ?refused, ?discarded, ?discardWaits, ?nearUnread, ?oldGone, ?condemned,
    ?nothing⟩
  case unpinned =>
    intro c d e s hserves hf hseg hw hst hhome hp hd hwaits
    have heq : s.objEvict c d false = ((s.fetch c).onDir (Dwords.object d) (fun x => { x.atHome with
        evictPending := false, condemned := false, waits := [] })).complete c stOk := by
      rw [State.objEvict_taken hserves hf hseg hw (Or.inr hhome), State.evictAt_resident_unpinned hst hp,
        State.evicted_homed (s := s.fetch c) hf (by simp [hd]) hhome, hwaits, State.endEvicts_nil]
      rfl
    refine ⟨_, _, congrArg done heq, State.onDir_find_self (s := s.fetch c) hf _, ?_, fun o ho =>
      State.onDir_find_ne (s.fetch c) ho _, State.complete_completed ((s.fetch c).onDir _ _) c _ _ _ _
        (by simpa using s.mem_fetch c), by simp [State.onDir], by simp [State.onDir], by simp [State.onDir]⟩
    rw [← hwaits]
    rfl
  case pinned =>
    intro c d e s hserves hf hseg hw hst hhome hp
    have heq : s.objEvict c d false = _ := (State.objEvict_taken hserves hf hseg hw (Or.inr hhome)).trans
      (State.evictAt_resident_waits hst (Or.inl ⟨rfl, hp⟩) c)
    rw [State.startEvicting_eq (s := s.fetch c) hf] at heq
    refine ⟨_, _, congrArg done heq, State.onDir_find_self (State.onDir_find_self (s := s.fetch c) hf _) _, ?_, fun o ho =>
      (State.onDir_find_ne _ ho _).trans (State.onDir_find_ne (s.fetch c) ho _), rfl, s.mem_fetch c, rfl, rfl⟩
    simp [DirEntry.awaitsEvict, DirEntry.startsEvicting]
  case pending =>
    intro c d e s hserves hf hseg hw hhome
    have htaken := State.objEvict_taken (discard := false) hserves hf hseg hw (Or.inr hhome)
    refine ⟨fun hst => ?_, fun hst => ?_⟩
    · refine ⟨_, congrArg done (htaken.trans (State.evictAt_promoting hst c false)), ?_, s.mem_fetch c, fun o ho =>
        (State.onDir_find_ne _ ho _).trans (State.onDir_find_ne (s.fetch c) ho _)⟩
      rw [State.onDir_find_self (State.onDir_find_self (s := s.fetch c) hf _)]
      simp [DirEntry.awaitsEvict]
    · refine ⟨_, congrArg done (htaken.trans (State.evictAt_joins (Or.inl hst) (Or.inl rfl) c)), ?_, s.mem_fetch c, fun o ho =>
        State.onDir_find_ne (s.fetch c) ho _⟩
      rw [State.onDir_find_self (s := s.fetch c) hf]
      simp [DirEntry.awaitsEvict]
  case home =>
    intro c d e s hserves hf hseg hw hst hhome
    exact congrArg done ((State.objEvict_taken hserves hf hseg hw (Or.inr hhome)).trans (State.evictAt_home hst c))
  case absent =>
    intro c d s hserves hf
    exact ⟨congrArg done (State.objEvict_absent hserves hf false), congrArg done (State.objEvict_absent hserves hf true)⟩
  case refused =>
    intro c d e s hserves hf
    exact ⟨fun hr => congrArg done (State.objEvict_refused hserves hf (hr.imp_right (⟨rfl, ·⟩))),
      fun hseg => congrArg done (State.objEvict_refused hserves hf (Or.inl hseg))⟩
  case discarded =>
    intro c d e s hserves hf hseg hw hst hidle hwaits
    have hidle : e.idle = true := by simp [DirEntry.idle, hidle]
    have heq : s.objEvict c d true = ((s.fetch c).dropEntry (Dwords.object d)).complete c stOk := by
      rw [State.objEvict_taken hserves hf hseg hw (Or.inl rfl), State.evictAt_discarded hst hidle, hwaits,
        State.endEvicts_nil]
    exact ⟨_, congrArg done heq, State.dropEntry_find_self (s.fetch c) _, fun o ho => State.dropEntry_find_ne (s.fetch c) ho,
      State.complete_completed ((s.fetch c).dropEntry _) c _ _ _ _ (by simpa using s.mem_fetch c),
      by simp [State.dropEntry], by simp [State.dropEntry], by simp [State.dropEntry]⟩
  case discardWaits =>
    intro c d e s hserves hf hseg hw hbusy
    have hidle : e.idle = false := by
      rcases hbusy with hp | ho
      · simp [DirEntry.idle, hp]
      · obtain ⟨v, hv⟩ := Option.isSome_iff_exists.mp ho
        simp [DirEntry.idle, hv]
    have htaken := State.objEvict_taken (discard := true) hserves hf hseg hw (Or.inl rfl)
    refine ⟨fun hst => ?_, fun hst => ?_, fun hst => ?_⟩
    · have heq : s.objEvict c d true = _ := htaken.trans (State.evictAt_resident_waits hst (Or.inr ⟨rfl, hidle⟩) c)
      rw [State.startEvicting_eq (s := s.fetch c) hf] at heq
      refine ⟨_, _, congrArg done heq, State.onDir_find_self (State.onDir_find_self (s := s.fetch c) hf _) _, ?_, s.mem_fetch c,
        fun o ho => (State.onDir_find_ne _ ho _).trans (State.onDir_find_ne (s.fetch c) ho _)⟩
      simp [DirEntry.awaitsEvict, DirEntry.startsEvicting]
    · refine ⟨_, congrArg done (htaken.trans (State.evictAt_joins (hst.imp_right (⟨rfl, ·⟩)) (Or.inr hidle) c)), ?_,
        s.mem_fetch c, fun o ho => State.onDir_find_ne (s.fetch c) ho _⟩
      rw [State.onDir_find_self (s := s.fetch c) hf]
      simp [DirEntry.awaitsEvict]
    · refine ⟨_, congrArg done (htaken.trans (State.evictAt_promoting hst c true)), ?_, s.mem_fetch c, fun o ho =>
        (State.onDir_find_ne _ ho _).trans (State.onDir_find_ne (s.fetch c) ho _)⟩
      rw [State.onDir_find_self (State.onDir_find_self (s := s.fetch c) hf _)]
      simp [DirEntry.awaitsEvict]
  case nearUnread =>
    intro o c p e s hruns hf hst hp hc hwaits hw hfetched
    refine ⟨fun hd hhome => ?_, fun hd hidle => ?_, fun hd hidle hhome => ?_⟩
    · have heq : s.pinsZero o e.cur.num = (s.onDir o (fun x => { x.atHome with
          evictPending := false, condemned := false, waits := [] })).endEvicts [.evict c p] := by
        rw [State.pinsZero_evicting hf hst hp hc (Or.inl hd), State.evicted_homed hf (by simp [hd]) hhome, hwaits]
        rfl
      refine ⟨_, _, (exec_pinsReachZero_runs hruns o _).trans (congrArg done heq),
        (congrArg (·.find o) (State.endEvicts_dir ..)).trans (State.onDir_find_self hf _), ?_,
        State.endEvicts_completed (s := s.onDir o _) hfetched p, fun x hx => ?_⟩
      · rw [← hc]
        rfl
      · rw [State.endEvicts_dir]
        exact State.onDir_find_ne s hx _
    · have heq : s.pinsZero o e.cur.num = (s.dropEntry o).endEvicts [.evict c p] := by
        rw [State.pinsZero_evicting hf hst hp hc (Or.inr hidle), State.evicted_removed hf (by simp [hd, hidle]), hwaits]
      refine ⟨_, (exec_pinsReachZero_runs hruns o _).trans (congrArg done heq), ?_,
        State.endEvicts_completed (s := s.dropEntry o) hfetched p,
        fun x hx => ?_⟩
      · rw [State.endEvicts_dir]
        exact s.dropEntry_find_self o
      · rw [State.endEvicts_dir]
        exact s.dropEntry_find_ne hx
    · exact ⟨_, _, (exec_pinsReachZero_runs hruns o _).trans
        (congrArg done (State.pinsZero_discardWaits hf hst hp hc hd hidle hhome)), State.onDir_find_self hf _, rfl, hfetched⟩
  case oldGone =>
    intro o e v s hruns hf ho hn hp hst hwaits hw
    refine ⟨_, (exec_pinsReachZero_runs hruns o _).trans
      (congrArg done (State.pinsZero_old hf ho hn hp hst.1 hst.2 hwaits hw)), ?_, fun p hp => State.onDir_find_ne s hp _, rfl⟩
    rw [State.onDir_find_self hf, hwaits]
    rfl
  case condemned =>
    intro o e s hruns hf hc hp hwaits hd hw
    have hlost := (exec_pinsReachZero_runs hruns o e.cur.num).trans (congrArg done (State.pinsZero_condemned hf hc hp))
    refine ⟨fun hhome => ?_, fun hhome => ?_⟩
    · rw [State.nearLost_homed hf hd hwaits hw hhome] at hlost
      refine ⟨_, _, hlost, State.onDir_find_self hf _, ?_, rfl⟩
      rw [← hwaits]
      rfl
    · rw [State.nearLost_removed hf hwaits hw hhome] at hlost
      exact ⟨_, hlost, s.dropEntry_find_self o, rfl⟩
  case nothing =>
    intro o v s hv
    cases hruns : s.relayRuns
    case false => exact congrArg done (if_neg (by simp [hruns]))
    case true =>
      refine (exec_pinsReachZero_runs hruns o v).trans (congrArg done ?_)
      rcases hv with hv | hf | ⟨e, hf, hv⟩
      · exact absurd hruns (by simp [hv])
      · unfold State.pinsZero
        rw [hf]
      · exact State.pinsZero_nothing hf hv

end Sys2Proof.Machine
end
section
/-! A fatal stop (R411, R412) makes no record: everything it does to jobs, object commands, storage commands and function 1 leaves
the fault collector as it stands, but for the note of the fault itself. -/

namespace Sys2Proof.Machine

theorem foldl_fl {α : Type} {f : State → α → State} (h : ∀ s a, (f s a).fl = s.fl) (l : List α) (s : State) :
    (l.foldl f s).fl = s.fl :=
  kept_foldl (P := fun t => t.fl = s.fl) (fun t a ht => (h t a).trans ht) rfl

/-! ## Jobs -/

@[simp] theorem State.onJob_fl (s : State) (tag : Nat) (f : Job → Job) : (s.onJob tag f).fl = s.fl := rfl

@[simp] theorem State.onDir_fl (s : State) (o : Nat) (f : DirEntry → DirEntry) : (s.onDir o f).fl = s.fl := rfl

@[simp] theorem State.onSeq_fl (s : State) (id : Nat) (f : Sequence → Sequence) : (s.onSeq id f).fl = s.fl := rfl

@[simp] theorem State.onModel_fl (s : State) (k : Nat) (f : Model → Model) : (s.onModel k f).fl = s.fl := rfl

@[simp] theorem State.releasePin_fl (s : State) (p : Pin) : (s.releasePin p).fl = s.fl := rfl

@[simp] theorem State.releasePins_fl (s : State) (ps : List Pin) : (s.releasePins ps).fl = s.fl :=
  foldl_fl (fun s p => s.releasePin_fl p) ps s

@[simp] theorem State.freeContexts_fl (s : State) (j : Job) : (s.freeContexts j).fl = s.fl :=
  foldl_fl (fun _ _ => State.setTile_fl ..) j.search.ctxs s

@[simp] theorem State.writeResult_fl (s : State) (j : Job) (o : Nat) (b : List Byte) : (s.writeResult j o b).fl = s.fl := by
  unfold State.writeResult
  split
  · split
    · rfl
    · exact State.nearWrite_fl ..
  · exact State.hostWrite_fl ..

@[simp] theorem State.writeAgg_fl (s : State) (j : Job) : (s.writeAgg j).fl = s.fl := by
  unfold State.writeAgg
  split
  · simp
  · rfl

@[simp] theorem State.finishJob_fl (s : State) (tag st a b : Nat) : (s.finishJob tag st a b).fl = s.fl := by
  have hends : ∀ (t : State) (p : Progress) (d : Jd) (n : Nat),
      (({ t.writeProgress p with jd := d }.countEnd n st).trimPool).fl = t.fl := fun _ _ _ _ => rfl
  unfold State.finishJob
  split
  · rfl
  · simp only [State.complete_fl, hends, State.freeContexts_fl, State.releasePins_fl, State.writeAgg_fl]

@[simp] theorem State.stopJob_fl (s : State) (tag stop st a b : Nat) : (s.stopJob tag stop st a b).fl = s.fl := by
  simp [State.stopJob]

@[simp] theorem State.stopCommit_fl (s : State) (tag code st : Nat) : (s.stopCommit tag code st).fl = s.fl := by
  unfold State.stopCommit State.dropCommit
  split <;> simp

/-! ## Sequences and squads -/

@[simp] theorem State.noteLen_fl (s : State) (id : Nat) : (s.noteLen id).fl = s.fl := by
  unfold State.noteLen
  repeat' split
  all_goals rfl

@[simp] theorem State.leaveBatch_fl (s : State) (id : Nat) : (s.leaveBatch id).fl = s.fl := by
  unfold State.leaveBatch
  repeat' split
  all_goals rfl

@[simp] theorem State.cutAppend_fl (s : State) (id code st a : Nat) : (s.cutAppend id code st a).fl = s.fl := by
  unfold State.cutAppend
  split <;> simp

@[simp] theorem State.closeSeq_fl (s : State) (id : Nat) : (s.closeSeq id).fl = s.fl := by
  unfold State.closeSeq
  split
  · rfl
  · dsimp only
    refine (foldl_fl (fun _ _ => State.finishJob_fl ..) _ _).trans ?_
    split <;> simp

@[simp] theorem State.recall_fl (s : State) (id : Nat) : (s.recall id).fl = s.fl := by
  unfold State.recall State.requeue
  split
  · rfl
  · dsimp only
    split <;> simp

@[simp] theorem State.abortJob_fl (s : State) (j : Job) : (s.abortJob true j).fl = s.fl := by
  have hdropped : (s.dropCopies j.tag).fl = s.fl := rfl
  unfold State.abortJob
  split
  · exact State.stopCommit_fl ..
  · simp only [if_true, State.cutAppend_fl]
    split
    · exact State.recall_fl ..
    · rfl
  · exact State.closeSeq_fl ..
  · exact (State.stopJob_fl ..).trans hdropped

@[simp] theorem State.discardTiles_fl (s : State) (n : Nat) : (s.discardTiles n).fl = s.fl := by
  unfold State.discardTiles
  split <;> rfl

@[simp] theorem State.abortSquad_fl (s : State) (n : Nat) : (s.abortSquad n true).fl = s.fl := by
  have hjobs : ∀ (l : List Job) (t : State),
      (l.foldl (fun s j => if j.admitted then s.abortJob true j else s) t).fl = t.fl :=
    fun l t => foldl_fl (fun s j => by split <;> simp) l t
  unfold State.abortSquad
  dsimp only
  rw [if_pos rfl]
  change (State.discardTiles _ n).fl = _
  exact (State.discardTiles_fl ..).trans ((hjobs _ _).trans rfl)

@[simp] theorem State.failJobs_fl (s : State) : s.failJobs.fl = s.fl := by
  unfold State.failJobs
  refine (foldl_fl (fun s j => ?_) _ _).trans (foldl_fl (fun s n => s.abortSquad_fl n) _ s)
  split <;> simp

/-! ## Storage commands -/

@[simp] theorem State.onStore_fl (s : State) (k : Nat) (f : StoreCmd → StoreCmd) : (s.onStore k f).fl = s.fl := rfl

@[simp] theorem State.lpSend_fl (s : State) (fs : List (List Byte)) : (s.lpSend fs).fl = s.fl := rfl

@[simp] theorem State.lpEnd_fl (s : State) (tag code n : Nat) : (s.lpEnd tag code n).fl = s.fl := rfl

@[simp] theorem State.awaitPool_fl (s : State) (k : StoreCmd) (ps : List Piece) : (s.awaitPool k ps).fl = s.fl := rfl

@[simp] theorem State.awaitLanding_fl (s : State) (k : StoreCmd) (ps : List Piece) : (s.awaitLanding k ps).fl = s.fl := rfl

@[simp] theorem State.readCodewords_fl (s : State) (k : StoreCmd) (n : Namespace) : (s.readCodewords k n).fl = s.fl := rfl

@[simp] theorem State.applyPieces_fl (s : State) (n : Nat) (ps : List Piece) : (s.applyPieces n ps).fl = s.fl := by
  unfold State.applyPieces
  split <;> rfl

@[simp] theorem State.settleFlushes_fl (s : State) : s.settleFlushes.fl = s.fl := by
  refine foldl_fl (fun s k => ?_) _ s
  split
  · dsimp only
    split
    · rfl
    · exact State.complete_fl ..
  · rfl

@[simp] theorem State.endStore_fl (s : State) (k : StoreCmd) (st : Nat) (data : List (List Byte)) :
    (s.endStore k st data).fl = s.fl := by
  unfold State.endStore
  simp only [State.settleFlushes_fl, apply_ite State.fl, State.lpEnd_fl, State.complete_fl, State.applyPieces_fl, ite_self]

@[simp] theorem State.finishWrite_fl (s : State) (k : StoreCmd) : (s.finishWrite k).fl = s.fl := by
  unfold State.finishWrite
  split
  · simp
  · split <;> simp

@[simp] theorem State.placeWrite_fl (s : State) (k : StoreCmd) (n : Namespace) (ps : List Piece) :
    (s.placeWrite k n ps).fl = s.fl := by
  unfold State.placeWrite
  simp only [apply_ite State.fl, State.finishWrite_fl, State.onStore_fl, State.awaitLanding_fl, State.awaitPool_fl, ite_self]

@[simp] theorem State.lpGrant_fl (s : State) (tag w : Nat) : (s.lpGrant tag w).fl = s.fl := by
  unfold State.lpGrant
  split <;> rfl

@[simp] theorem State.lpReadEnds_fl (s : State) (k : StoreCmd) (n : Namespace) : (s.lpReadEnds k n).fl = s.fl := by
  unfold State.lpReadEnds
  simp only [apply_ite State.fl, State.lpEnd_fl, State.lpSend_fl, ite_self]

@[simp] theorem State.startStore_fl (s : State) (k : StoreCmd) (data : List (List Byte)) : (s.startStore k data).fl = s.fl := by
  unfold State.startStore
  split
  · simp
  · split <;> simp [apply_ite State.fl]

@[simp] theorem State.proceed_fl (s : State) (k : StoreCmd) (data : List (List Byte)) : (s.proceed k data).fl = s.fl := by
  unfold State.proceed
  dsimp only
  split <;> simp

@[simp] theorem State.takeStore_fl (s : State) (c : CmdId) (op : StoreOp) (n : Nat) (rs : List (Nat × Nat))
    (data : List (List Byte)) (reads : List CodewordRead) : (s.takeStore c op n rs data reads).fl = s.fl := by
  unfold State.takeStore State.serveStore
  dsimp only
  split
  · split
    · simp
    · simp [apply_ite State.fl]
  · rfl

@[simp] theorem State.failStore_fl (s : State) : s.failStore.fl = s.fl :=
  foldl_fl (fun _ _ => State.endStore_fl ..) _ s

/-! ## Object commands -/

@[simp] theorem State.endPublish_fl (s : State) (k : ObjCmd) (tag a b c d st dw : Nat) :
    (s.endPublish k tag a b c d st dw).fl = s.fl :=
  State.complete_fl ..

@[simp] theorem State.refuseObj_fl (s : State) (k : ObjCmd) (st : Nat) : (s.refuseObj k st).fl = s.fl := by
  unfold State.refuseObj
  split <;> simp

@[simp] theorem State.dirFullEnd_fl (s : State) (k : ObjCmd) : (s.dirFullEnd k).fl = s.fl :=
  State.refuseObj_fl ..

@[simp] theorem State.endEvicts_fl (s : State) (ws : List DirWait) : (s.endEvicts ws).fl = s.fl :=
  congrArg (fun t => t.fl) (s.endEvicts_eq ws)

@[simp] theorem State.endPlaces_fl (s : State) (ws : List DirWait) (st v : Nat) : (s.endPlaces ws st v).fl = s.fl :=
  foldl_fl (fun s w => by cases w <;> rfl) ws s

@[simp] theorem State.promote_fl (s : State) (k : ObjCmd) (e : DirEntry) (r : Option Region) : (s.promote k e r).fl = s.fl := by
  unfold State.promote
  dsimp only
  split
  · simp
  · simp
  · refine (State.complete_fl ..).trans ((foldl_fl (fun s w => by cases w <;> rfl) _ _).trans (State.onDir_fl ..))
  · split
    · simp
    · split
      · simp
      · split <;> simp

@[simp] theorem State.startPlace_fl (s : State) (k : ObjCmd) (r : Region) : (s.startPlace k r).fl = s.fl := by
  unfold State.startPlace
  dsimp only
  split
  · simp
  · split
    · simp
    · split
      · simp
      · split <;> simp

@[simp] theorem State.takePin_fl (s : State) (o : Nat) : (s.takePin o).1.fl = s.fl := by
  unfold State.takePin
  split <;> rfl

@[simp] theorem State.startPublish_fl (s : State) (k : ObjCmd) (b v : Nat) : (s.startPublish k b v).fl = s.fl := by
  unfold State.startPublish
  dsimp only
  split
  · simp
  · split
    · simp
    · split
      · simp
      · split <;> simp

@[simp] theorem State.runObj_fl (s : State) (k : ObjCmd) : (s.runObj k).fl = s.fl := by
  unfold State.runObj
  dsimp only
  repeat' split
  all_goals simp

@[simp] theorem State.nextObj_fl (s : State) (o : Nat) : (s.nextObj o).fl = s.fl := by
  unfold State.nextObj
  repeat' split
  all_goals simp

@[simp] theorem State.nearLost_fl (s : State) (o : Nat) : (s.nearLost o).fl = s.fl := by
  unfold State.nearLost
  split
  · rfl
  · dsimp only
    refine (State.nextObj_fl ..).trans ((foldl_fl (fun s w => by cases w <;> simp) _ _).trans ?_)
    rw [State.endPlaces_fl, State.endEvicts_fl]
    split <;> rfl

@[simp] theorem State.abortPublish_fl (s : State) (c : Copy) (k : ObjCmd) : (s.abortPublish c k).fl = s.fl := by
  unfold State.abortPublish
  refine (State.endPublish_fl ..).trans ?_
  split <;> rfl

@[simp] theorem State.failCopies_fl (s : State) : s.failCopies.fl = s.fl := by
  unfold State.failCopies
  dsimp only
  refine (foldl_fl (fun s (e : Nat × DirEntry) => s.nearLost_fl e.1) _ _).trans
    ((foldl_fl (fun s k => s.refuseObj_fl k stInternal) _ _).trans (foldl_fl (fun s c => ?_) _ s))
  split
  · rfl
  · split
    · exact State.abortPublish_fl ..
    · exact State.complete_fl ..

/-! ## The stop -/

/-- A fatal stop notes the fault, and makes no record (R411). -/
theorem State.fatalStop_fl (s : State) : s.fatalStop.fl = { s.fl with critFatal := true } := by
  have hstop : ∀ l : List Nat, (l.foldl (fun s tag => s.lpEnd tag lpInternal 0) s.failJobs.failCopies.failStore).fl = s.fl :=
    fun l => (foldl_fl (fun s tag => s.lpEnd_fl tag lpInternal 0) l _).trans (by simp)
  unfold State.fatalStop
  rw [State.alert_fl]
  dsimp only
  rw [hstop]

end Sys2Proof.Machine
end
section
/-! The probe port of the near tier, its patrol scrub and the directory look-up (R149, R151, R153 to R155, R175): what a read of a
granule does for each result of the decoder. -/

namespace Sys2Proof.Machine

/-! ## Fatal records in every phase (R411, R420) -/

/-- A fatal record that takes a standing entry, or stands without one, leaves the ring. -/
theorem Fl.stand_fatal (f : Fl) {r : Record} (h : r.cls = 2) (n : Option Nat) :
    (f.stand r n).fatalStands = true ∧ (f.stand r n).ring = f.ring := by
  unfold Fl.stand Fl.fatalStands
  split <;> simp [h]

/-- A clear that a new fatal cause meets reports its result, and touches neither the ring nor what stands. -/
theorem State.cutFatalClear_fl (s : State) :
    s.cutFatalClear.fl.fatalStands = s.fl.fatalStands ∧ s.cutFatalClear.fl.ring = s.fl.ring := by
  unfold State.cutFatalClear State.clearEnds
  split
  · exact ⟨rfl, rfl⟩
  next b _ => cases b <;> exact ⟨rfl, rfl⟩

/-- With the near tier ready, a fatal record stands, and is in the ring, whatever it stops. -/
theorem State.postFatal_stands (s : State) (a b : Nat) (x : W64) (p q r w : W32) (h : s.ntAll = true) :
    (s.postFatal a b x p q r w).fl.fatalStands = true ∧
    (s.postFatal a b x p q r w).fl.ring.find (s.fl.posted % 65536) = some (s.mkRecord a b 2 x p q r w) := by
  obtain ⟨hring, -⟩ := s.post_recordWritten a b 2 x p q r w h
  obtain ⟨hstands, hkept⟩ := (s.post a b 2 x p q r w).fl.stand_fatal (r := s.mkRecord a b 2 x p q r w) rfl none
  rw [← hkept] at hring
  unfold State.postFatal
  dsimp only
  split
  · rw [State.fatalStop_fl]
    exact ⟨hstands, hring⟩
  · obtain ⟨hcleared, hring'⟩ := State.cutFatalClear_fl
      { s.post a b 2 x p q r w with fl := (s.post a b 2 x p q r w).fl.stand (s.mkRecord a b 2 x p q r w) none }
    rw [State.alert_fl, hcleared, hring']
    exact ⟨hstands, hring⟩

/-! ## A read of a granule, by what the decoder finds (R149, R155) -/

theorem Rl.flipGone_eq (r : Rl) (o : Nat) : r.flipGone o = { r with flipLast := (r.flipGone o).flipLast } := by
  unfold Rl.flipGone
  split <;> rfl

theorem ProbeGranule.delivered_clean {g : ProbeGranule} (h : g.decoded = .clean) : g.delivered = g.stored := by
  simp [ProbeGranule.delivered, h]

theorem ProbeGranule.delivered_one {g : ProbeGranule} (h : g.decoded = .one) : g.delivered = padTo 32 g.data := by
  simp [ProbeGranule.delivered, h]

section
variable {s : State} {o : Nat}

theorem State.readProbe_clean (h : (s.rl.probeAt o).decoded = .clean) (port : Bool) : s.readProbe o port = s := by
  simp [State.readProbe, h]

theorem State.readProbe_one (h : (s.rl.probeAt o).decoded = .one) (port : Bool) :
    s.readProbe o port = s.granuleCorrected o (s.rl.probeAt o) := by
  simp [State.readProbe, h]

theorem State.readProbe_other (h : (s.rl.probeAt o).decoded = .other) (port : Bool) :
    s.readProbe o port = (s.countNtUncorr (probeStack o)).post (srcStack (probeStack o)) kEccUncorr 1
      (BitVec.ofNat 64 (probeBase + o)) 2 0 0 0 := by
  simp [State.readProbe, h, State.postContained_nothing]

/-- An address error that a flip mask left is corrected at the port. -/
theorem State.readProbe_masked (h : (s.rl.probeAt o).decoded = .addr) (hf : s.rl.flipNames o = true) :
    s.readProbe o true = (s.countNtUncorr (probeStack o)).postCorr (srcStack (probeStack o)) kAddrCode
      (BitVec.ofNat 64 (probeBase + o)) 3 1 0 0 := by
  simp [State.readProbe, h, hf]

/-- Any other address error is fatal. -/
theorem State.readProbe_addr {port : Bool} (h : (s.rl.probeAt o).decoded = .addr) (hf : (port && s.rl.flipNames o) = false) :
    s.readProbe o port = (s.countNtUncorr (probeStack o)).postFatal (srcStack (probeStack o)) kAddrCode
      (BitVec.ofNat 64 (probeBase + o)) 3 0 0 0 := by
  simp [State.readProbe, h, hf]

/-- A corrected granule: it is rewritten and counted, and the first of its stack in a beat is recorded. -/
theorem State.granuleCorrected_spec (g : ProbeGranule) (h : s.ntAll = true)
    (hk : (srcStack (probeStack o), kEccCorr, 0) ∉ s.fl.beatPosts) : ∃ f : Fl,
    s.granuleCorrected o g = { s with
      rl := { s.rl with
        probe := s.rl.probe.put o { g with errs := [], flip := false }
        flipLast := (s.rl.flipGone o).flipLast
        corr := s.rl.corr.put (probeStack o) (sat32 (s.rl.corr.findD (probeStack o) 0 + 1)) }
      fl := f } ∧
    f.ring.find (s.fl.posted % 65536) = some (s.mkRecord (srcStack (probeStack o)) kEccCorr 0
      (BitVec.ofNat 64 (probeBase + o)) 1 0 0 0) ∧ f.posted = s.fl.posted + 1 := by
  unfold State.granuleCorrected
  rw [Rl.flipGone_eq]
  exact ⟨_, State.postOnce_eq _ _ _ _ _ _ _ _ _ h, State.postOnce_recordWritten _ _ _ _ _ _ _ _ _ h hk⟩

end

theorem Rl.probeAt_put_self (r : Rl) (o : Nat) (g : ProbeGranule) : Rl.probeAt { r with probe := r.probe.put o g } o = g :=
  KMap.findD_put_self ..

/-! ## The probe port (R153 to R155) -/

/-- What a probe write leaves in RL. -/
def Rl.probeWritten (r : Rl) : Rl :=
  let k := probeStack r.probeAddr
  let w := r.flipMask.findD k 0
  let g : ProbeGranule := ⟨r.probeData.flatMap (fun v => leBytes v.toNat 4), maskErrs w, bitW w 28⟩
  let r1 : Rl := { r.flipGone r.probeAddr with probe := (r.flipGone r.probeAddr).probe.put r.probeAddr g, probeDone := true }
  if w = 0 then r1 else
    { r1 with flipMask := r1.flipMask.put k 0, flipLast := r1.flipLast.put k (BitVec.ofNat 32 (2 ^ 31 + r.probeAddr)) }

theorem exec_rlProbeWrite_live {s : State} (h : s.probeLive = true) :
    exec .rlProbeWrite s = .next { s with rl := s.rl.probeWritten } := by
  change execRlProbeWrite s = _
  unfold execRlProbeWrite
  rw [if_neg (by simp [h])]
  rfl

/-- A probe write changes the granules, the flags of the port and the masks alone. -/
theorem Rl.probeWritten_eq (r : Rl) : r.probeWritten = { r with
    probe := r.probeWritten.probe, probeDone := true
    flipMask := r.probeWritten.flipMask, flipLast := r.probeWritten.flipLast } := by
  unfold Rl.probeWritten
  rw [Rl.flipGone_eq]
  dsimp only
  split <;> rfl

theorem Rl.probeWritten_probe (r : Rl) : r.probeWritten.probe = r.probe.put r.probeAddr
    ⟨r.probeData.flatMap (fun v => leBytes v.toNat 4), maskErrs (r.flipMask.findD (probeStack r.probeAddr) 0),
      bitW (r.flipMask.findD (probeStack r.probeAddr) 0) 28⟩ := by
  unfold Rl.probeWritten
  rw [Rl.flipGone_eq]
  dsimp only
  split <;> rfl

/-- The mask is clear after the write. -/
theorem Rl.probeWritten_flipMask (r : Rl) : r.probeWritten.flipMask.findD (probeStack r.probeAddr) 0 = 0 := by
  unfold Rl.probeWritten
  rw [Rl.flipGone_eq]
  dsimp only
  split
  next hw => exact hw
  · exact KMap.findD_put_self ..

/-- A write under a mask names its granule. -/
theorem Rl.probeWritten_flipLast {r : Rl} (h : r.flipMask.findD (probeStack r.probeAddr) 0 ≠ 0) :
    r.probeWritten.flipLast.findD (probeStack r.probeAddr) 0 = BitVec.ofNat 32 (2 ^ 31 + r.probeAddr) := by
  unfold Rl.probeWritten
  dsimp only
  rw [if_neg h]
  exact KMap.findD_put_self ..

/-- The state a probe read delivers into, before what it finds acts. -/
def State.probeRead (s : State) : State :=
  { s with rl := { s.rl with
    probeData := (List.range 8).map (fun i => BitVec.ofNat 32 (u32At (s.rl.probeAt s.rl.probeAddr).delivered (4 * i)))
    probeDone := true
    probeBits := (s.rl.probeAt s.rl.probeAddr).decoded.bit s.rl.probeBits } }

theorem exec_rlProbeRead_live {s : State} (h : s.probeLive = true) :
    exec .rlProbeRead s = .next (s.probeRead.readProbe s.rl.probeAddr true) := by
  change execRlProbeRead s = _
  unfold execRlProbeRead
  rw [if_neg (by simp [h])]
  rfl

/-! ## The patrol scrub (R151) -/

theorem exec_ntPatrolScrub_ready {s : State} {a : Nat} (hv : s.vendorLive = true) (hlo : 0xFC00000000 ≤ a)
    (hhi : a < 0xFC00010000) (hr : probeStack (a - 0xFC00000000) ∈ s.rl.ntReady) :
    exec (.ntPatrolScrub a) s = .next (s.readProbe ((a - 0xFC00000000) / 32 * 32) false) :=
  congrArg done (if_pos (by simp [hv, hlo, hhi, hr, probeBase]))

/-- The scrub of an aligned address reads the granule there. -/
theorem exec_ntPatrolScrub_aligned {s : State} {a : Nat} (hv : s.vendorLive = true) (hlo : 0xFC00000000 ≤ a)
    (hhi : a < 0xFC00010000) (ha : a % 32 = 0) (hr : probeStack (a - 0xFC00000000) ∈ s.rl.ntReady) :
    exec (.ntPatrolScrub a) s = .next (s.readProbe (a - 0xFC00000000) false) := by
  rw [exec_ntPatrolScrub_ready hv hlo hhi hr, show (a - 0xFC00000000) / 32 * 32 = a - 0xFC00000000 by omega]

theorem exec_ntPatrolScrub_outside {s : State} {a : Nat} (h : s.vendorLive = false ∨ a < 0xFC00000000 ∨ 0xFC00010000 ≤ a) :
    exec (.ntPatrolScrub a) s = .next s := by
  refine congrArg done (if_neg ?_)
  rcases h with h | h | h
  · simp [h]
  · simp [show ¬ probeBase ≤ a by unfold probeBase; omega]
  · simp [show ¬ a < probeBase + 65536 by unfold probeBase; omega]

/-! ## The look-up (R175) -/

theorem exec_rlLookup_live {s : State} (h : s.vendorLive = true) (v : W32) :
    exec (.rlLookup v) s = .next { s with rl := { s.rl with
      lookup := v
      lookupWords := ((s.rl.dir.find v.toNat).map DirEntry.lookup).getD
        [1, 0, 0, 0, 0xFFFFFFFF, 0xFFFFFFFF, 0xFFFFFFFF, 0xFFFFFFFF] } } := by
  change execRlLookup v s = _
  unfold execRlLookup
  rw [if_neg (by simp [h])]
  cases s.rl.dir.find v.toNat <;> rfl

/-! ## The obligation -/

/-- Settles O35: a probe write through what it leaves in RL, and each read through its case of the decoder. -/
theorem nearTierProbe : Obligations.NearTierProbe := by
  unfold Obligations.NearTierProbe
  refine ⟨?write, ?readClean, ?readOne, ?readOthers, ?scrubClean, ?scrubOne, ?lookup, ?lookupNone, ?scrubOthers, ?idle⟩
  case write =>
    intro s h
    refine ⟨_, exec_rlProbeWrite_live h, ?_, fun o ho => ?_, ?_, s.rl.probeWritten_flipMask, Rl.probeWritten_flipLast,
      congrArg (fun r => { s with rl := r }) s.rl.probeWritten_eq⟩
    · dsimp only
      rw [Rl.probeAt, Rl.probeWritten_probe]
      exact KMap.findD_put_self ..
    · dsimp only
      rw [Rl.probeAt, Rl.probeWritten_probe]
      exact KMap.findD_put_ne _ _ _ _ _ ho
    · dsimp only
      rw [Rl.probeWritten_eq]
  case readClean =>
    intro s h hd
    rw [exec_rlProbeRead_live h, State.readProbe_clean (s := s.probeRead) hd]
    unfold State.probeRead
    rw [ProbeGranule.delivered_clean hd, hd]
    rfl
  case readOne =>
    intro s h hd hready hfirst
    obtain ⟨f, heq, hring, hposted⟩ := State.granuleCorrected_spec (s := s.probeRead) (o := s.rl.probeAddr)
      (s.rl.probeAt s.rl.probeAddr) hready hfirst
    have hex := (exec_rlProbeRead_live h).trans
      (congrArg done ((State.readProbe_one (s := s.probeRead) hd true).trans heq))
    refine ⟨_, hex, ?_, rfl, ?_, ⟨hring, hposted⟩, Rl.probeAt_put_self .., KMap.findD_put_self .., rfl⟩
    · rw [← ProbeGranule.delivered_one hd]
      rfl
    · change (s.rl.probeAt s.rl.probeAddr).decoded.bit s.rl.probeBits = _
      rw [hd]
      rfl
  case readOthers =>
    intro s h hready
    have hbits : ∀ x : Decoded, (s.rl.probeAt s.rl.probeAddr).decoded = x → s.probeRead.rl.probeBits = x.bit s.rl.probeBits :=
      fun x hx => congrArg (Decoded.bit · s.rl.probeBits) hx
    have hex := exec_rlProbeRead_live h
    refine ⟨fun hd => ?_, fun hd hf => ?_, fun hd hf => ?_⟩
    · rw [State.readProbe_other (s := s.probeRead) hd] at hex
      refine ⟨_, hex, ?_, ?_, State.post_recordWritten (s.probeRead.countNtUncorr _) _ _ _ _ _ _ _ _ hready, ?_, ?_⟩
      all_goals rw [State.post_rl]
      · rfl
      · exact hbits _ hd
      · exact KMap.findD_put_self ..
      · rfl
    · rw [State.readProbe_masked (s := s.probeRead) hd hf] at hex
      obtain ⟨-, -, hmc, hstanding⟩ := State.post_written (s.probeRead.countNtUncorr (probeStack s.rl.probeAddr))
        (srcStack (probeStack s.rl.probeAddr)) kAddrCode 0 (BitVec.ofNat 64 (probeBase + s.rl.probeAddr)) 3 1 0 0 hready
      refine ⟨_, hex, ?_, ?_, State.post_recordWritten (s.probeRead.countNtUncorr _) _ _ _ _ _ _ _ _ hready, hstanding, hmc⟩
      all_goals unfold State.postCorr; rw [State.post_rl]
      · rfl
      · exact hbits _ hd
    · rw [State.readProbe_addr (s := s.probeRead) hd (by rw [Bool.true_and]; exact hf)] at hex
      exact ⟨_, hex, State.postFatal_stands (s.probeRead.countNtUncorr _) _ _ _ _ _ _ _ hready⟩
  case scrubClean =>
    intro a s hv hlo hhi hr hd
    rw [exec_ntPatrolScrub_ready hv hlo hhi hr, State.readProbe_clean hd]
  case scrubOne =>
    intro a s hv hlo hhi ha hr hd hready hfirst
    obtain ⟨f, heq, hring, hposted⟩ := State.granuleCorrected_spec (s.rl.probeAt (a - 0xFC00000000)) hready hfirst
    have hex := (exec_ntPatrolScrub_aligned hv hlo hhi ha hr).trans (congrArg done ((State.readProbe_one hd false).trans heq))
    rw [show probeBase + (a - 0xFC00000000) = a by unfold probeBase; omega] at hring
    exact ⟨_, hex, ⟨hring, hposted⟩, Rl.probeAt_put_self .., KMap.findD_put_self .., rfl⟩
  case lookup =>
    intro v e s h hf
    rw [exec_rlLookup_live h, hf]
    rfl
  case lookupNone =>
    intro v s h hf
    rw [exec_rlLookup_live h, hf]
    rfl
  case scrubOthers =>
    intro a s hv hlo hhi ha hr hready
    have hex := exec_ntPatrolScrub_aligned hv hlo hhi ha hr
    refine ⟨fun hd => ?_, fun hd => ?_⟩
    · rw [State.readProbe_other hd, show probeBase + (a - 0xFC00000000) = a by unfold probeBase; omega] at hex
      refine ⟨_, hex, State.post_recordWritten (s.countNtUncorr _) _ _ _ _ _ _ _ _ hready, ?_, ?_⟩
      all_goals rw [State.post_rl]
      · exact KMap.findD_put_self ..
      · rfl
    · rw [State.readProbe_addr hd (Bool.false_and _)] at hex
      exact ⟨_, hex, (State.postFatal_stands (s.countNtUncorr _) _ _ _ _ _ _ _ hready).1⟩
  case idle =>
    intro a v s
    exact ⟨fun h => ⟨congrArg done (if_pos (by simp [h])), congrArg done (if_pos (by simp [h]))⟩,
      fun h => ⟨exec_ntPatrolScrub_outside (Or.inl h), congrArg done (if_pos (by simp [h]))⟩,
      fun h => exec_ntPatrolScrub_outside (Or.inr h)⟩

end Sys2Proof.Machine
end
section
/-! Counterexamples on the flash medium. The statements speak of every state, and their hypotheses leave in states whose map names
a landing index entry that is not listed (R191), states with a stripe in a slot beyond the landing area (R178, R185), and the
module before its near tier is ready, with the record buffer full (R384). -/

namespace Sys2Proof.Machine

/-! ## A medium in GO -/

/-- A namespace of one granule: global units 0 to 32,767. -/
def firstGranule : Namespace := { granules := [0], blocks := 262144, attached := true, readOnly := false, key := 1 }

/-- GO with that namespace, its map replayed, and the rest of the medium as `m` has it. -/
def goMedium (m : Mm) : State :=
  { State.reset with
    mc := { Mc.reset with phase := .go }, mm := { m with replayed := true, namespaces := [(1, firstGranule)] } }

/-- A closed stripe of 64 blocks. -/
def closedStripe (verified : Bool) (pages : List Nat) : Stripe :=
  { used := 64, seq := 0, pages := pages, closed := true, verified := verified, parity := [], due := false }

/-! ## A write over a landing index entry that does not exist (R191) -/

/-- One block at LBA 9, first in stripe 0. -/
def pieceAt9 : Piece := { num := 0, slba := 9, blocks := [[5]], zeros := 0, stripe := some 0, off := 0, onMedium := false }

/-- The write of that block, running. -/
def writeAt9 : StoreCmd :=
  { c := { sq := 1, cid := 7 }, op := .write, nsid := 1, ranges := [(9, 1)], stage := .running, locks := 1, pieces := [pieceAt9],
    reads := [], before := [], silent := false, order := 0 }

/-- Unit 1, changed in this beat, lies at landing index entry 0, and the landing index is empty. -/
def danglingMap : Mm :=
  { Mm.reset with
    pages := [(0, { stamp := 1, units := [(1, .merged 0)], dirty := true })]
    stripes := [(0, closedStripe false [])], landing := [(0, { data := [5], key := 1 })] }

/-- GO with that map and that write in QE. -/
def goDanglingMap : State :=
  { goMedium danglingMap with qe := { Qe.reset with fetched := [writeAt9.c], locksUsed := 1, store := [writeAt9] } }

theorem exec_landingStripeVerified (k : Nat) (s : State) : exec (.landingStripeVerified k) s = .next (s.stripeVerified k) := rfl

/-- The entry made for the write has the number of the one that is missing, and goes with it: the block reads as zeros. -/
theorem goDanglingMap_reads_zeros : (goDanglingMap.stripeVerified 0).mm.readLba firstGranule 9 = [] := by
  decide

theorem goDanglingMap_poolRoom : goDanglingMap.poolRoom firstGranule [pieceAt9] = true := by
  decide

/-- Refutes O31: the live map of an arbitrary state may name a landing index entry that does not exist, and a one-block write then
gets an entry of that number, which is freed as the unit's old one; no hypothesis of the statement says that the entry of a merged
unit is listed. -/
theorem not_writesLand : ¬ Obligations.WritesLand := by
  unfold Obligations.WritesLand
  rintro ⟨-, hpart, -⟩
  have hheld : goDanglingMap.mm.holdsPiece pieceAt9 := by decide
  have hidle : goDanglingMap.commitsIdle := fun e he => absurd he List.not_mem_nil
  obtain ⟨t, hex, -, -, -, hread, -⟩ := hpart 0 (closedStripe false []) writeAt9 pieceAt9 firstGranule goDanglingMap rfl rfl rfl rfl
    rfl rfl rfl rfl (by decide) (List.mem_singleton_self _) (List.nodup_singleton _) rfl rfl rfl hheld rfl hidle
    goDanglingMap_poolRoom rfl rfl rfl (fun i e _ he => by cases he)
  rw [← Host.Outcome.next.inj ((exec_landingStripeVerified 0 goDanglingMap).symm.trans hex)] at hread
  exact absurd (goDanglingMap_reads_zeros.symm.trans hread) (by decide)

/-! ## A stripe beyond the landing area (R178, R185, R186) -/

/-- A slot beyond the 52,428,800 of R185: by R178's turns one of its program units would lie in block 65,536 of die 4 on channel 0,
and the block table's key for that is the one of block 0 of die 6, where parity group 0 begins. -/
def farSlot : Nat := 214748352

/-- Unit 0 lies in landing and is due for fold, and a stripe that nothing points into stands in the far slot. -/
def foldBesideFarStripe : Mm :=
  { Mm.reset with
    pages := [(0, { stamp := 0, units := [(0, .landing 0)], dirty := true })]
    stripes := [(0, closedStripe true [0]), (farSlot, closedStripe true [])], agedTo := 1 }

theorem exec_foldRow_urgent {s : State} {g b : Nat} {us : List Nat} (hm : s.mediaRuns = true) (hg : g < 208)
    (hu : s.mm.usable g b = true) (hr : (s.mm.blk (groupKey g b)).rows < 64) (hf : s.mm.isFoldRow us = true)
    (hd : s.mm.foldUrgent = true) : exec (.foldRow g b us) s = .next ({ s with mm := s.mm.foldUnits g b us }.endBg 0 g) :=
  congrArg done (if_pos (by
    have hrows : (s.mm.blk (groupKey g b)).rows < modeQlc.rows := hr
    simp [hm, hg, hu, hrows, hf, hd]))

@[simp] theorem State.endBg_mm (s : State) (work key : Nat) : (s.endBg work key).mm = s.mm := rfl

/-- Fold is urgent for unit 0, whose row block 0 of group 0 can take: nothing is programmed there. -/
theorem foldBesideFarStripe_mayFold :
    (goMedium foldBesideFarStripe).mediaRuns = true ∧ (goMedium foldBesideFarStripe).mm.usable 0 0 = true ∧
    ((goMedium foldBesideFarStripe).mm.blk (groupKey 0 0)).rows = 0 ∧ (goMedium foldBesideFarStripe).mm.isFoldRow [0] = true ∧
    (goMedium foldBesideFarStripe).mm.foldUrgent = true := by
  decide

/-- The row is programmed, and the release of the far stripe erases its block. -/
theorem foldBesideFarStripe_rows : (((goMedium foldBesideFarStripe).mm.foldUnits 0 0 [0]).blk (groupKey 0 0)).rows = 0 := by
  decide

/-- Refutes O32: the stripes of an arbitrary state may stand in slots beyond the landing area, and a fold then erases, with such a
stripe, the block that it programs; no hypothesis of the statement bounds the slots. -/
theorem not_foldAndCheckpointKeepData : ¬ Obligations.FoldAndCheckpointKeepData := by
  unfold Obligations.FoldAndCheckpointKeepData
  rintro ⟨hfold, -⟩
  obtain ⟨hruns, husable, hblank, hrow, hurgent⟩ := foldBesideFarStripe_mayFold
  have hleft : ((goMedium foldBesideFarStripe).mm.blk (groupKey 0 0)).rows < 64 := by rw [hblank]; decide
  obtain ⟨t, hex, -, -, -, -, hrows, -⟩ := hfold 0 0 [0] (goMedium foldBesideFarStripe) hruns (by decide) husable hleft hrow
    (Or.inl hurgent) (fun l hl => absurd hl List.not_mem_nil)
  have hfolded : t.mm = (goMedium foldBesideFarStripe).mm.foldUnits 0 0 [0] :=
    (congrArg State.mm (Host.Outcome.next.inj (hex.symm.trans
      (exec_foldRow_urgent hruns (by decide) husable hleft hrow hurgent)))).trans (State.endBg_mm ..)
  rw [hfolded, foldBesideFarStripe_rows, hblank] at hrows
  cases hrows

/-- Block 0 of parity group 0 waits for its erase, and a stripe that nothing points into stands in the far slot. -/
def eraseBesideFarStripe : Mm :=
  { Mm.reset with stripes := [(farSlot, closedStripe true [])], eraseQ := [groupKey 0 0] }

theorem exec_mapCheckpoint_runs {s : State} (h : s.mediaRuns = true) :
    exec .mapCheckpoint s = .next { s with mm := s.mm.checkpoint } :=
  congrArg done (if_pos h)

/-- One erase is for the block's own wait, one for the release of the far stripe. -/
theorem eraseBesideFarStripe_erases : ((goMedium eraseBesideFarStripe).mm.checkpoint.blk (groupKey 0 0)).erases = 2 := by
  decide

/-- Refutes O33: with a stripe in a slot beyond the landing area, a checkpoint erases a bulk block a second time; no hypothesis of
the statement bounds the slots. -/
theorem not_mediumCare : ¬ Obligations.MediumCare := by
  unfold Obligations.MediumCare
  rintro ⟨-, -, hcheckpoint, -⟩
  have hruns : (goMedium eraseBesideFarStripe).mediaRuns = true := by decide
  obtain ⟨t, hex, -, herases, -⟩ := hcheckpoint 0 0 (goMedium eraseBesideFarStripe) hruns (by decide) (by decide) rfl rfl
    (fun p hp => absurd hp List.not_mem_nil)
  have hdone : t.mm = (goMedium eraseBesideFarStripe).mm.checkpoint :=
    congrArg State.mm (Host.Outcome.next.inj (hex.symm.trans (exec_mapCheckpoint_runs hruns)))
  rw [hdone, eraseBesideFarStripe_erases] at herases
  cases herases

/-! ## A record that is dropped (R384) -/

/-- Before the near tier is ready, a corrected record that finds the buffer full is dropped, and MC counts it. -/
theorem State.postCorr_dropped {s : State} (hn : s.ntAll = false) (hb : 256 ≤ s.fl.buffer.length) (a b : Nat) (x : W64)
    (p q r w : W32) : (s.postCorr a b x p q r w).mc.dropped = sat32 (s.mc.dropped + 1) := by
  have hfull : ¬ s.fl.buffer.length < 256 := Nat.not_lt.mpr hb
  unfold State.postCorr State.post State.writeRecord
  simp [hn, hfull]

/-- Board A that rises into a range of R206 posts THERMAL, which is dropped there. -/
theorem State.flashTemps_dropped {s : State} (hn : s.ntAll = false) (hb : 256 ≤ s.fl.buffer.length) {x : Nat}
    (hx : throttleOf s.mm.tempA < throttleOf x) : (s.flashTemps x s.mm.tempB).mc.dropped = sat32 (s.mc.dropped + 1) := by
  unfold State.flashTemps
  dsimp only
  rw [if_neg (Nat.lt_irrefl _), if_pos hx]
  exact State.postCorr_dropped (by exact hn) (by exact hb) ..

theorem exec_flashThrottle_boardA {s : State} (h : s.vendorLive = true) (x : Nat) :
    exec (.flashThrottle 0 x) s = .next (s.flashTemps x s.mm.tempB) :=
  congrArg done (if_pos h)

/-- BLOCKS before the near tier is ready, with 256 records in the buffer. -/
def blocksBufferFull : State :=
  { State.reset with
    mc := { Mc.reset with phase := .blocks }
    fl := { Fl.reset with buffer := List.replicate 256 (State.reset.mkRecord srcThermal kThermal 0 0 1 0 0 0), posted := 256 } }

/-- Refutes O34: in BLOCKS the near tier may not be ready and the record buffer full, and the THERMAL record of a rise is then
dropped and counted in MC, where the statement leaves MC as it is. -/
theorem not_mediumFailures : ¬ Obligations.MediumFailures := by
  unfold Obligations.MediumFailures
  rintro ⟨-, -, -, -, -, -, -, -, hthrottle, -⟩
  have hlive : blocksBufferFull.vendorLive = true := rfl
  obtain ⟨t, hex, -, -, -, -, -, -, hframe⟩ := hthrottle 0 90 blocksBufferFull hlive
  have hkept : t.mc.dropped = blocksBufferFull.mc.dropped := congrArg (fun s => s.mc.dropped) hframe
  have hdropped := State.flashTemps_dropped (s := blocksBufferFull) rfl List.length_replicate.ge (x := 90) (by decide)
  rw [Host.Outcome.next.inj ((exec_flashThrottle_boardA hlive 90).symm.trans hex), hkept] at hdropped
  cases hdropped

end Sys2Proof.Machine
end
section
/-! EXTENT_DONE (R230, R231, R236 to R242, R245, R248): what counting an extent, delivering its output and closing it do to the
job, and the statement about them. -/

namespace Sys2Proof.Machine

/-! ## What a step of a squad leaves -/

/-- The jobs, the commands, the bytes written to the host, and the indexes. -/
def State.jobView (s : State) : Jd × Qe × List HostWrite × KMap Index := (s.jd, s.qe, s.hostOut, s.idx)

theorem State.jobView_eq {s t : State} (h : t.jobView = s.jobView) :
    t.jd = s.jd ∧ t.qe = s.qe ∧ t.hostOut = s.hostOut ∧ t.idx = s.idx := by
  simpa only [State.jobView, Prod.mk.injEq] using h

theorem foldl_jobView {α : Type} {f : State → α → State} (h : ∀ s a, (f s a).jobView = s.jobView) (l : List α) (s : State) :
    (l.foldl f s).jobView = s.jobView :=
  kept_foldl (P := fun t => t.jobView = s.jobView) (fun t a ht => (h t a).trans ht) rfl

/-- A corrected record reports no event (R326). -/
@[simp] theorem State.postCorr_jobView (s : State) (a b : Nat) (x : W64) (p q r w : W32) :
    (s.postCorr a b x p q r w).jobView = s.jobView := by
  have hqe : (s.postCorr a b x p q r w).qe = s.qe := by simp [State.postCorr, State.post]
  simp [State.jobView, hqe]

@[simp] theorem State.withNs_jobView (s : State) (n : Ns) : State.jobView { s with ns := n } = s.jobView := rfl

theorem State.closeTensor_jobView (s : State) (n x : Nat) (e : Keeper) (cur : W32) :
    (s.closeTensor n x e cur).jobView = s.jobView := by
  unfold State.closeTensor
  simp only [apply_ite State.jobView, State.postCorr_jobView, State.withNs_jobView, ite_self]

theorem State.stepClose_jobView (s : State) (n : Nat) : (s.stepClose n).jobView = s.jobView := by
  have hclose : ∀ (s : State) (e : Nat × Keeper), (match e.2.step with
      | none => s
      | some cur => s.closeTensor n (e.1 % 65536) e.2 cur).jobView = s.jobView := by
    intro s e
    split
    · rfl
    · exact State.closeTensor_jobView ..
  unfold State.stepClose
  dsimp only
  split
  · exact foldl_jobView hclose _ _
  · exact foldl_jobView hclose _ _

/-! ## Jobs by their tag -/

theorem State.job_congr {s t : State} (h : t.jd = s.jd) (tag : Nat) : t.job tag = s.job tag := by
  unfold State.job
  rw [h]

theorem State.tag_of_job {s : State} {tag : Nat} {j : Job} (h : s.job tag = some j) : j.tag = tag := by
  simpa using List.find?_some h

/-- Two changes of one job are one. -/
theorem State.onJob_onJob (s : State) (tag : Nat) {f g h : Job → Job}
    (hfg : ∀ k, { g { f k with tag := tag } with tag := tag } = ({ h k with tag := tag } : Job)) :
    (s.onJob tag f).onJob tag g = s.onJob tag h := by
  unfold State.onJob
  dsimp only
  rw [List.map_map]
  congr 3
  funext k
  by_cases hk : k.tag = tag <;> simp [hk, hfg]

/-- What is read of the jobs alike before and after a change of one of them. -/
theorem State.onJob_filterMap {α : Type} (s : State) (tag : Nat) {f : Job → Job} {p : Job → Bool} {g : Job → α}
    (hp : ∀ k, p { f k with tag := tag } = p k) (hg : ∀ k, g { f k with tag := tag } = g k) :
    ((s.onJob tag f).jd.jobs.filter p).map g = (s.jd.jobs.filter p).map g := by
  have hpf : p ∘ (fun k : Job => if k.tag = tag then { f k with tag := tag } else k) = p := by
    funext k
    by_cases hk : k.tag = tag <;> simp [hk, hp]
  have hgf : g ∘ (fun k : Job => if k.tag = tag then { f k with tag := tag } else k) = g := by
    funext k
    by_cases hk : k.tag = tag <;> simp [hk, hg]
  change ((s.jd.jobs.map _).filter p).map g = _
  rw [List.filter_map, hpf, List.map_map, hgf]

/-! ## A job that ends -/

/-- Job `j` is no longer in JD, and QE has completed its command; the indexes stay, and the host's memory but for an
AGGREGATE chunk. -/
structure State.JobEnds (s t : State) (j : Job) (st dw0 : Nat) : Prop where
  completed : Completed t j.c st dw0 0 []
  gone : t.job j.tag = none
  idx : t.idx = s.idx
  host : j.isAggregate = false → t.hostOut = s.hostOut

theorem State.writeResult_spec (s : State) (j : Job) (o : Nat) (d : List Byte) :
    (s.writeResult j o d).jd = s.jd ∧ (s.writeResult j o d).qe = s.qe ∧ (s.writeResult j o d).idx = s.idx := by
  unfold State.writeResult
  split
  · split <;> exact ⟨rfl, rfl, rfl⟩
  · exact ⟨rfl, rfl, rfl⟩

/-- The AGGREGATE chunk of a job that ends counts among its bytes. -/
theorem State.writeAgg_spec {s : State} {tag : Nat} {j : Job} (h : s.job tag = some j) :
    (s.writeAgg j).qe = s.qe ∧ (s.writeAgg j).idx = s.idx ∧ (j.isAggregate = false → (s.writeAgg j).hostOut = s.hostOut) ∧
    ∃ n, (s.writeAgg j).job tag = some { j with scan := { j.scan with bytesOut := n } } := by
  obtain rfl := State.tag_of_job h
  unfold State.writeAgg
  split
  next hagg =>
    generalize s.tick + _ = n
    obtain ⟨hjd, hqe, hidx⟩ := State.writeResult_spec { s with tick := n } j j.scan.bytesOut (j.aggChunk s.tick)
    exact ⟨hqe, hidx, fun hn => by simp [hn] at hagg, j.scan.bytesOut + j.aggReserve,
      State.job_onJob ((State.job_congr hjd j.tag).trans h) _⟩
  next => exact ⟨rfl, rfl, fun _ => rfl, j.scan.bytesOut, h⟩

theorem State.releasePins_jobView (s : State) (ps : List Pin) : (s.releasePins ps).jobView = s.jobView :=
  foldl_jobView (f := State.releasePin) (fun _ _ => rfl) ps s

theorem State.setTile_jobView (s : State) (n : Nat) (t : Tile) : (s.setTile n t).jobView = s.jobView := rfl

theorem State.freeContexts_jobView (s : State) (j : Job) : (s.freeContexts j).jobView = s.jobView := by
  unfold State.freeContexts
  exact foldl_jobView (fun _ _ => State.setTile_jobView ..) _ s

/-- JD without the job of a tag, whose record is written. -/
def State.withoutJob (s : State) (tag : Nat) (p : Progress) (squad st : Nat) : State :=
  ({ s.writeProgress p with jd := { (s.writeProgress p).jd with
      jobs := (s.writeProgress p).jd.jobs.filter (fun k => !(k.tag == tag)) } }.countEnd squad st).trimPool

theorem State.withoutJob_spec (s : State) (tag : Nat) (p : Progress) (squad st : Nat) :
    (s.withoutJob tag p squad st).qe = s.qe ∧ (s.withoutJob tag p squad st).hostOut = s.hostOut ∧
      (s.withoutJob tag p squad st).idx = s.idx ∧ (s.withoutJob tag p squad st).job tag = none := by
  refine ⟨rfl, rfl, rfl, ?_⟩
  change (s.jd.jobs.filter (fun k => !(k.tag == tag))).find? (fun k => k.tag == tag) = none
  simp

/-- What a job holds is free once it ends. -/
def State.released (s : State) (j : Job) : State := (s.releasePins j.pins).freeContexts j

theorem State.released_jobView (s : State) (j : Job) : (s.released j).jobView = s.jobView :=
  (State.freeContexts_jobView ..).trans (State.releasePins_jobView ..)

theorem State.finishJob_eq {s : State} {tag : Nat} {j k : Job} (h : s.job tag = some j) (hk : (s.writeAgg j).job tag = some k)
    (st dw0 : Nat) : s.finishJob tag st dw0 = (((s.writeAgg j).released k).withoutJob tag
      (((s.writeAgg j).released k).jobRecord k st) k.squad st).complete k.c st (dw0 + k.malformedBit) := by
  unfold State.finishJob
  simp only [h, hk, Option.getD_some]
  rfl

/-- A job that ends leaves JD, and its command completes with the malformed bit (R245). -/
theorem State.finishJob_ends {s : State} {j : Job} (h : s.job j.tag = some j) (hc : j.c ∈ s.qe.fetched) (st dw0 : Nat) :
    s.JobEnds (s.finishJob j.tag st dw0) j st (dw0 + j.malformedBit) := by
  obtain ⟨hqe, hidx, hout, n, hj⟩ := State.writeAgg_spec h
  rw [State.finishJob_eq h hj]
  generalize hw : State.withoutJob _ _ _ _ _ = w
  obtain ⟨-, hqe1, hout1, hidx1⟩ := State.jobView_eq
    ((s.writeAgg j).released_jobView { j with scan := { j.scan with bytesOut := n } })
  obtain ⟨hqe2, hout2, hidx2, hgone⟩ := hw ▸ State.withoutJob_spec ..
  refine ⟨State.complete_completed _ _ _ _ _ _ ?_, hgone, ?_, fun hn => ?_⟩
  · rw [hqe2, hqe1, hqe]
    exact hc
  · exact hidx2.trans (hidx1.trans hidx)
  · exact hout2.trans (hout1.trans (hout hn))

/-- A job that a stop ends (R245). -/
theorem State.stopJob_ends {s : State} {j : Job} (h : s.job j.tag = some j) (hc : j.c ∈ s.qe.fetched) (stop st : Nat) :
    s.JobEnds (s.stopJob j.tag stop st) j st j.malformedBit := by
  obtain ⟨hdone, hgone, hidx, hout⟩ :=
    State.finishJob_ends (j := j.stopped stop) (State.job_onJob h (fun k => k.stopped stop)) hc st 0
  rw [Nat.zero_add] at hdone
  exact ⟨hdone, hgone, hidx, hout⟩

/-! ## The end of an extent (R230, R242, R245) -/

/-- The job with other extents in flight. -/
def Job.withIssued (k : Job) (is : List Nat) (n : Nat) : Job := { k with scan := { k.scan with issued := is, nextExt := n } }

theorem State.issueExtents_noJob {s : State} {tag : Nat} (h : s.job tag = none) (f : Nat) : s.issueExtents tag f = s := by
  cases f with
  | zero => rfl
  | succ f =>
    unfold State.issueExtents
    rw [h]

/-- Issuing extents changes which are in flight alone. -/
theorem State.issueExtents_spec (f : Nat) {s : State} {k : Job} (h : s.job k.tag = some k) :
    (∃ is n, (s.issueExtents k.tag f).job k.tag = some (k.withIssued is n)) ∧
      (s.issueExtents k.tag f).hostOut = s.hostOut ∧ (s.issueExtents k.tag f).idx = s.idx := by
  induction f generalizing s k with
  | zero => exact ⟨⟨k.scan.issued, k.scan.nextExt, h⟩, rfl, rfl⟩
  | succ f ih =>
    unfold State.issueExtents
    simp only [h]
    split
    · obtain ⟨⟨is, n, hjob⟩, hout, hidx⟩ := ih (k := k.withIssued (k.scan.issued ++ [k.scan.nextExt]) (k.scan.nextExt + 1))
        (State.job_onJob h (fun k => k.withIssued (k.scan.issued ++ [k.scan.nextExt]) (k.scan.nextExt + 1)))
      exact ⟨⟨is, n, hjob⟩, hout, hidx⟩
    · exact ⟨⟨k.scan.issued, k.scan.nextExt, h⟩, rfl, rfl⟩

/-- The squad's step is over where it has one: a SCAN's extent is one (R116). -/
def State.closesStep (s : State) (j : Job) : State := if j.kind = 1 then s.stepClose j.squad else s

theorem State.closesStep_jobView (s : State) (j : Job) : (s.closesStep j).jobView = s.jobView := by
  unfold State.closesStep
  split
  · exact State.stepClose_jobView ..
  · rfl

theorem State.closesStep_spec {s : State} {j k : Job} (htag : k.tag = j.tag) (h : s.job j.tag = some k) :
    (s.closesStep j).job k.tag = some k ∧ (s.closesStep j).qe = s.qe := by
  obtain ⟨hjd, hqe, -, -⟩ := State.jobView_eq (s.closesStep_jobView j)
  rw [htag]
  exact ⟨(State.job_congr hjd _).trans h, hqe⟩

/-- What follows the delivery of an extent: its step is over, the job ends or goes on, and further extents are issued. -/
def State.closesExtent (s : State) (j : Job) : State :=
  let u := (s.closesStep j).endScan j.tag
  if u.grantedNow j.squad j.tag then u.issueExtents j.tag 1024 else u

theorem State.endScan_waits {s : State} {k : Job} (h : s.job k.tag = some k) (hmiss : k.allDelivered = false)
    (hgo : k.stop = none ∨ k.scan.issued ≠ []) : s.endScan k.tag = s := by
  unfold State.endScan
  simp only [h, hmiss, Bool.false_eq_true, if_false]
  split
  next hnone =>
    rw [hgo.resolve_right (by simpa using hnone)]
  next => rfl

/-- With an extent missing, a job that no stop reached goes on, and so does one that waits for others in flight. -/
theorem State.closesExtent_goesOn {s : State} {j k : Job} (htag : k.tag = j.tag) (h : s.job j.tag = some k)
    (hmiss : k.allDelivered = false) (hgo : k.stop = none ∨ k.scan.issued ≠ []) :
    (∃ is n, (s.closesExtent j).job j.tag = some (k.withIssued is n)) ∧
      (s.closesExtent j).hostOut = s.hostOut ∧ (s.closesExtent j).idx = s.idx := by
  obtain ⟨hjd, -, hout, hidx⟩ := State.jobView_eq (s.closesStep_jobView j)
  rw [← htag] at h
  have hstep : (s.closesStep j).job k.tag = some k := (State.job_congr hjd _).trans h
  unfold State.closesExtent
  rw [← htag, State.endScan_waits hstep hmiss hgo]
  dsimp only
  split
  · obtain ⟨hjob, hout', hidx'⟩ := State.issueExtents_spec 1024 hstep
    exact ⟨hjob, hout'.trans hout, hidx'.trans hidx⟩
  · exact ⟨⟨k.scan.issued, k.scan.nextExt, hstep⟩, hout, hidx⟩

/-- A job that ends with its extent has none issued after it. -/
theorem State.closesExtent_ends {s : State} {j k : Job} {st dw0 : Nat} (htag : k.tag = j.tag)
    (h : (s.closesStep j).JobEnds ((s.closesStep j).endScan j.tag) k st dw0) : s.JobEnds (s.closesExtent j) k st dw0 := by
  obtain ⟨hdone, hgone, hidx, hout⟩ := h
  obtain ⟨-, -, hout', hidx'⟩ := State.jobView_eq (s.closesStep_jobView j)
  have hsame : s.closesExtent j = (s.closesStep j).endScan j.tag := by
    unfold State.closesExtent
    dsimp only
    rw [State.issueExtents_noJob (htag ▸ hgone), ite_self]
  rw [hsame]
  exact ⟨hdone, hgone, hidx.trans hidx', fun hn => (hout hn).trans hout'⟩

/-- A job with every extent delivered: no stop stands. -/
def Job.unstopped (k : Job) : Job := { k with stop := none, scan := { k.scan with outFull := false } }

/-- Once every extent is delivered, the job completes, whatever stop reached it. -/
theorem State.endScan_delivered {s : State} {k : Job} (h : s.job k.tag = some k) (hc : k.c ∈ s.qe.fetched)
    (hall : k.allDelivered = true) : s.JobEnds (s.endScan k.tag) k stOk k.malformedBit := by
  unfold State.endScan
  simp only [h, hall, if_true]
  obtain ⟨hdone, hgone, hidx, hout⟩ := State.finishJob_ends (j := k.unstopped) (State.job_onJob h Job.unstopped) hc stOk 0
  rw [Nat.zero_add] at hdone
  exact ⟨hdone, hgone, hidx, hout⟩

/-- With its output full and no extent in flight, the job completes with Output Full. -/
theorem State.endScan_full {s : State} {k : Job} (h : s.job k.tag = some k) (hc : k.c ∈ s.qe.fetched)
    (hmiss : k.allDelivered = false) (hnone : k.scan.issued = []) (hstop : k.stop = some 1) :
    s.JobEnds (s.endScan k.tag) k stOk (1 + k.malformedBit) := by
  unfold State.endScan
  simp only [h, hmiss, hnone, hstop, Bool.false_eq_true, if_false, List.isEmpty_nil, if_true]
  exact State.finishJob_ends h hc stOk 1

/-- The last extent ends its job. -/
theorem State.closesExtent_delivered {s : State} {j k : Job} (htag : k.tag = j.tag) (h : s.job j.tag = some k)
    (hc : k.c ∈ s.qe.fetched) (hall : k.allDelivered = true) : s.JobEnds (s.closesExtent j) k stOk k.malformedBit := by
  obtain ⟨hstep, hqe⟩ := State.closesStep_spec htag h
  exact State.closesExtent_ends htag (htag ▸ State.endScan_delivered hstep (hqe.symm ▸ hc) hall)

/-- The only extent in flight ends a job whose output is full. -/
theorem State.closesExtent_full {s : State} {j k : Job} (htag : k.tag = j.tag) (h : s.job j.tag = some k)
    (hc : k.c ∈ s.qe.fetched) (hmiss : k.allDelivered = false) (hnone : k.scan.issued = []) (hstop : k.stop = some 1) :
    s.JobEnds (s.closesExtent j) k stOk (1 + k.malformedBit) := by
  obtain ⟨hstep, hqe⟩ := State.closesStep_spec htag h
  exact State.closesExtent_ends htag (htag ▸ State.endScan_full hstep (hqe.symm ▸ hc) hmiss hnone hstop)

/-! ## Extents in order -/

/-- A number that is not in the list is no less than the lowest free one. -/
theorem lowestFree_le {l : List Nat} {n k : Nat} (hn : n ≤ k) (h : k ∉ l) : lowestFree l n ≤ k := by
  induction l generalizing n with
  | nil => exact hn
  | cons m l ih =>
    rw [List.mem_cons, not_or] at h
    unfold lowestFree
    split
    · exact ih (by omega) h.2
    · exact hn

theorem mem_insertNat {k n : Nat} {l : List Nat} (h : k ∈ insertNat n l) : k = n ∨ k ∈ l := by
  induction l with
  | nil => exact Or.inl (List.mem_singleton.mp h)
  | cons m l ih =>
    unfold insertNat at h
    split_ifs at h
    · exact List.mem_cons.mp h
    · exact Or.inr h
    · rcases List.mem_cons.mp h with rfl | h
      · exact Or.inr (List.mem_cons_self ..)
      · exact (ih h).imp_right (List.mem_cons_of_mem _)

/-- An extent short of the job's end that is not delivered is one that is missing. -/
theorem Job.allDelivered_eq_false {k : Job} {n : Nat} (hn : n < k.extents) (h : n ∉ k.scan.delivered) :
    k.allDelivered = false :=
  decide_eq_false (Nat.not_le.mpr ((lowestFree_le (Nat.zero_le n) h).trans_lt hn))

/-! ## Counting an extent (R225, R248) -/

/-- The fields of a job's predicate. -/
def State.predFields (s : State) (j : Job) : List Nat := ((s.jobPred j).map (fun p => p.terms.map Term.field)).getD []

/-- The job once extent `e` is counted; `terms` are the fields of its predicate. -/
def Job.counts (k : Job) (e : Nat) (r : List Rec × Nat) (ms : List Rec) (terms : List Nat) (o : ExtentOut) : Job :=
  { k with scan := { k.scan with
    issued := k.scan.issued.filter (fun i => i != e), seen := k.scan.seen + r.1.length, matched := k.scan.matched + ms.length
    malformed := k.scan.malformed + r.2
    parseErr := k.scan.parseErr + (r.1.map (fun x => badFields x terms)).sum
      + (ms.map (fun x => badFields x (k.outFields.filter (fun f => !terms.contains f)))).sum
    skipped := k.scan.skipped + o.skipped, truncated := k.scan.truncated + o.cut } }

/-- The state once extent `e` is counted. -/
def State.extentCounted (s : State) (j : Job) (e : Nat) (r : List Rec × Nat) (ms : List Rec) (o : ExtentOut) : State :=
  (State.onJob { s with tick := s.tick + 1 } j.tag (fun k => { k with scan := { k.scan with
    issued := k.scan.issued.filter (fun i => i != e) } })).countExtent j r ms o

theorem State.extentCounted_eq (s : State) (j : Job) (e : Nat) (r : List Rec × Nat) (ms : List Rec) (o : ExtentOut) :
    s.extentCounted j e r ms o =
      State.onJob { s with tick := s.tick + 1 } j.tag (fun k => k.counts e r ms (s.predFields j) o) :=
  State.onJob_onJob _ _ (fun _ => rfl)

theorem State.segsFit_congr {s t : State} (h : t.sl = s.sl) (x : Index) (n : Nat) (used : List (Nat × Nat)) :
    t.segsFit x n used = s.segsFit x n used := by
  have hfit : ∀ used, t.fitIn x used segBytes = s.fitIn x used segBytes := by
    intro used
    unfold State.fitIn State.regionBase State.regionSize State.region
    rw [h]
  induction n generalizing used with
  | zero => rfl
  | succ n ih =>
    unfold State.segsFit
    rw [hfit]
    split
    · rfl
    · exact ih _

/-- Whether a batch fits is read of the batches staged, not of the counts. -/
theorem State.stageFits_counts (s : State) (tick tag : Nat) (e : Nat) (r : List Rec × Nat) (ms : List Rec)
    (terms : List Nat) (o : ExtentOut) (j : Job) (n : Nat) :
    (State.onJob { s with tick := tick } tag (fun k => k.counts e r ms terms o)).stageFits j n = s.stageFits j n := by
  generalize ht : State.onJob { s with tick := tick } tag (fun k => k.counts e r ms terms o) = t
  have hstaged : t.stagedItems j.region = s.stagedItems j.region :=
    ht ▸ congrArg List.sum (State.onJob_filterMap { s with tick := tick } tag (fun _ => rfl) (fun _ => rfl))
  have htables : ∀ g, t.jobTables g = s.jobTables g :=
    ht ▸ fun g => State.onJob_filterMap { s with tick := tick } tag (fun _ => rfl) (fun _ => rfl)
  have hused : ∀ x, t.indexUsed x = s.indexUsed x := by
    intro x
    unfold State.indexUsed
    rw [htables, ← ht]
    rfl
  have hidx : t.idx = s.idx := ht ▸ rfl
  have hsl : t.sl = s.sl := ht ▸ rfl
  unfold State.stageFits State.fits
  simp only [hidx, hstaged, hused, State.segsFit_congr hsl]

/-- Counting an extent changes the job's counts and its extents in flight, and neither commands nor the host's memory. -/
theorem State.extentCounted_spec {s : State} {j : Job} (hj : s.job j.tag = some j) (e : Nat) (r : List Rec × Nat)
    (ms : List Rec) (o : ExtentOut) :
    (s.extentCounted j e r ms o).job j.tag = some (j.counts e r ms (s.predFields j) o) ∧
    (s.extentCounted j e r ms o).qe = s.qe ∧ (s.extentCounted j e r ms o).hostOut = s.hostOut ∧
    (s.extentCounted j e r ms o).idx = s.idx ∧
    ∀ n, (s.extentCounted j e r ms o).stageFits j n = s.stageFits j n := by
  rw [State.extentCounted_eq]
  exact ⟨State.job_onJob (s := { s with tick := s.tick + 1 }) hj _, rfl, rfl, rfl, State.stageFits_counts _ _ _ _ _ _ _ _ _⟩

/-! ## Delivering an extent (R236, R238, R239, R241) -/

/-- Items of at most 262,144 bytes with the header and the zeros make one chunk. -/
theorem chunkItems_one {l cur : List (List Byte)} (h : (cur.map List.length).sum + l.flatten.length + 32 + 31 ≤ 262144) :
    chunkItems l cur = [cur ++ l] := by
  induction l generalizing cur with
  | nil => rw [List.append_nil]; rfl
  | cons i l ih =>
    rw [List.flatten_cons, List.length_append] at h
    have hfits : 32 + ceilDiv ((cur.map List.length).sum + i.length) 32 * 32 ≤ 262144 := by
      unfold ceilDiv
      omega
    unfold chunkItems
    have hrest : ((cur ++ [i]).map List.length).sum + l.flatten.length + 32 + 31 ≤ 262144 := by
      rw [List.map_append, List.sum_append, List.map_singleton, List.sum_singleton]
      omega
    rw [if_pos (by simp [hfits]), ih hrest, List.append_assoc]
    rfl

/-- The one chunk of an extent's items. -/
def Job.chunk (k : Job) (e bad : Nat) (items : List (List Byte)) : List Byte :=
  chunkBytes e (k.extentStart e) (if k.kind = 1 then k.u8 97 else 4) k.attempt (1 + 2 * b2n (bad != 0)) bad items

/-- The job once a chunk of `n` bytes of extent `e` is written. -/
def Job.wrote (k : Job) (e n : Nat) : Job :=
  { k with scan := { k.scan with bytesOut := k.scan.bytesOut + n, delivered := insertNat e k.scan.delivered } }

/-- The job once an AGGREGATE extent `e` is added. -/
def Job.aggregated (k : Job) (free : W64) (e : Nat) (ms : List Rec) : Job :=
  { k with scan := { k.scan with
    aggs := aggFold free k.aggregates k.scan.aggs ms, floats := aggFloats k.aggregates k.scan.floats ms
    delivered := insertNat e k.scan.delivered } }

/-- An AGGREGATE job writes no chunk for an extent. -/
theorem State.deliver_aggregates {s : State} {j : Job} (hj : j.target ≠ 2) (ha : j.isAggregate = true) (tick e bad : Nat)
    (ms : List Rec) (o : ExtentOut) : s.deliver tick j e bad ms o =
      s.onJob j.tag (fun k => k.aggregated (Config.freeBits tick) e ms) := by
  unfold State.deliver
  rw [if_neg hj, if_pos ha]
  rfl

/-- A batch without room in the side list stops the job. -/
theorem State.deliver_noRoom {s : State} {j : Job} (hj : j.target = 2) {o : ExtentOut}
    (hfull : s.stageFits j o.batch.length = false) (tick e bad : Nat) (ms : List Rec) :
    s.deliver tick j e bad ms o = s.onJob j.tag Job.fills := by
  unfold State.deliver
  rw [if_pos hj, if_neg (by simp [hfull])]

/-- A chunk is written at the job's next result byte where it fits (R239). -/
theorem State.writeChunks_one {s : State} {tag : Nat} {k : Job} (hk : s.job tag = some k) (e bad : Nat) (c : List (List Byte)) :
    s.writeChunks tag e bad [c] = if k.resultLen < k.scan.bytesOut + (k.chunk e bad c).length then (s, false)
      else ((s.writeResult k k.scan.bytesOut (k.chunk e bad c)).onJob tag (fun k' => { k' with scan := { k'.scan with
        bytesOut := k'.scan.bytesOut + (k.chunk e bad c).length } }), true) := by
  unfold State.writeChunks
  simp only [hk]
  rfl

section
variable {s : State} {j k : Job} (hk : s.job j.tag = some k)
include hk

/-- The only chunk of an extent is written for the host where it fits. -/
theorem State.deliver_fits (hj : j.target = 0) (ha : j.isAggregate = false) (hkj : k.target = 0) {o : ExtentOut}
    (hone : o.items.flatten.length + 32 + 31 ≤ 262144) (tick e bad : Nat) (ms : List Rec)
    (hfits : k.scan.bytesOut + (k.chunk e bad o.items).length ≤ k.resultLen) :
    (s.deliver tick j e bad ms o).job j.tag = some (k.wrote e (k.chunk e bad o.items).length) ∧
    (s.deliver tick j e bad ms o).hostOut = ⟨k.resultAddr + k.scan.bytesOut, k.chunk e bad o.items⟩ :: s.hostOut ∧
    (s.deliver tick j e bad ms o).qe = s.qe := by
  have hwrites : s.deliver tick j e bad ms o = (s.hostWrite (k.resultAddr + k.scan.bytesOut) (k.chunk e bad o.items)).onJob
      j.tag (fun k' => k'.wrote e (k.chunk e bad o.items).length) := by
    have hhost : ∀ b, s.writeResult k k.scan.bytesOut b = s.hostWrite (k.resultAddr + k.scan.bytesOut) b :=
      fun b => if_neg (by omega)
    unfold State.deliver
    rw [if_neg (by omega), if_neg (by simp [ha]), chunkItems_one (cur := []) (by simpa using hone), List.nil_append,
      State.writeChunks_one hk, if_neg (Nat.not_lt.mpr hfits), hhost]
    exact (if_pos rfl).trans (State.onJob_onJob _ _ (fun _ => rfl))
  have htag := State.tag_of_job hk
  rw [hwrites]
  refine ⟨?_, rfl, rfl⟩
  rw [State.job_onJob (s := s.hostWrite _ _) hk, ← htag]
  rfl

/-- A chunk that does not fit is not written, and output is full. -/
theorem State.deliver_full (hj : j.target = 0) (ha : j.isAggregate = false) {o : ExtentOut}
    (hone : o.items.flatten.length + 32 + 31 ≤ 262144) (tick e bad : Nat) (ms : List Rec)
    (hfull : k.resultLen < k.scan.bytesOut + (k.chunk e bad o.items).length) :
    s.deliver tick j e bad ms o = s.onJob j.tag Job.fills := by
  unfold State.deliver
  rw [if_neg (by omega), if_neg (by simp [ha]), chunkItems_one (cur := []) (by simpa using hone), List.nil_append,
    State.writeChunks_one hk, if_pos hfull]
  rfl

/-- Nothing is linked while no batch of the first missing extent is staged (R238). -/
theorem State.linkBatches_waits (h : ∀ b ∈ k.scan.staged, b.1 ≠ k.firstMissing) (f : Nat) : s.linkBatches j.tag f = s := by
  cases f with
  | zero => rfl
  | succ f =>
    have hnone : k.scan.staged.find? (fun b => b.1 == k.firstMissing) = none := List.find?_eq_none.mpr (by simpa using h)
    unfold State.linkBatches
    simp only [hk, hnone]

end

/-- The job once a batch of extent `e` is staged. -/
def Job.stages (k : Job) (e : Nat) (b : List (W64 × W64 × List Byte)) : Job :=
  { k with scan := { k.scan with staged := k.scan.staged ++ [(e, b)] } }

/-- A batch that fits is staged, and linked no sooner than those before it. -/
theorem State.deliver_stages {s : State} {j k : Job} (hk : s.job j.tag = some k) (hj : j.target = 2) {o : ExtentOut} {e : Nat}
    (hfits : s.stageFits j o.batch.length = true) (he : e ≠ k.firstMissing)
    (hwaits : ∀ b ∈ k.scan.staged, b.1 ≠ k.firstMissing) (tick bad : Nat) (ms : List Rec) :
    s.deliver tick j e bad ms o = s.onJob j.tag (fun k => k.stages e o.batch) := by
  have hall : ∀ b ∈ k.scan.staged ++ [(e, o.batch)], b.1 ≠ k.firstMissing := by
    intro b hb
    rcases List.mem_append.mp hb with hb | hb
    · exact hwaits b hb
    · rw [List.mem_singleton.mp hb]
      exact he
  unfold State.deliver
  rw [if_pos hj, if_pos hfits]
  exact State.linkBatches_waits (State.job_onJob hk (fun k => k.stages e o.batch)) hall _

/-! ## The command -/

/-- The job once an extent meets the unreadable LBA `a`. -/
def Job.meets (k : Job) (a : Nat) : Job := { k with scan := { k.scan with badLba := some a, staged := [], issued := [] } }

/-- An extent that meets an unreadable block ends its job. -/
theorem exec_extentDone_bad {s : State} {tag e : Nat} {j : Job} {y : Layout} {a : Nat} (hruns : s.jobsRun = true)
    (hj : s.job tag = some j) (he : e ∈ j.scan.issued) (hy : s.jobLayout j = some y)
    (hbad : s.extentBad j y e (s.extentRecs j y e).1 = some a) (es : List EmbedOut) :
    exec (.extentDone tag e es) s = .next ((s.onJob j.tag (fun k => k.meets a)).stopJob j.tag 5
      (if j.target = 2 then stJobAborted else stUnrecovered)) := by
  change execExtentDone tag e es s = _
  unfold execExtentDone State.extentEnds
  simp [done, hruns, hj, he, hy, hbad, Job.meets]

theorem State.extentBad_none {s : State} {j : Job} (h : ∀ b ∈ s.mm.badBlocks, b.1 ≠ j.u32 64) (y : Layout) (e : Nat)
    (rs : List Rec) : s.extentBad j y e rs = none := by
  unfold State.extentBad
  dsimp only
  rw [List.filter_eq_nil_iff.mpr (fun b hb => by simp [h b hb])]
  rfl

theorem exec_extentDone_nothing {s : State} {tag e : Nat} (h : s.jobsRun = false ∨ ∀ j, s.job tag = some j → e ∉ j.scan.issued)
    (es : List EmbedOut) : exec (.extentDone tag e es) s = .next s := by
  change execExtentDone tag e es s = _
  unfold execExtentDone
  rcases h with h | h
  · simp [done, h]
  · cases hj : s.job tag with
    | none => simp [done]
    | some j => simp [done, h j hj]

/-- Another extent than `e` that was not delivered is missing once `e` is. -/
theorem Job.allDelivered_insert {k : Job} {e : Nat} {l : List Nat} (hl : k.scan.delivered = insertNat e l)
    (h : ∃ n, n < k.extents ∧ n ≠ e ∧ n ∉ l) : k.allDelivered = false := by
  obtain ⟨n, hn, hne, hnot⟩ := h
  exact Job.allDelivered_eq_false hn (fun hmem => (mem_insertNat (hl ▸ hmem)).elim hne hnot)

/-- An extent that is in flight once, and not alone, leaves others in flight. -/
theorem filter_ne_nil_of_erase {l : List Nat} {e : Nat} (he : e ∈ l) (hne : l ≠ [e]) (honce : e ∉ l.erase e) :
    l.filter (fun i => i != e) ≠ [] := by
  have hperm := List.perm_cons_erase he
  cases hrest : l.erase e with
  | nil => exact absurd (List.perm_singleton.mp (hrest ▸ hperm)) hne
  | cons x xs =>
    have hx : x ∈ l.erase e := hrest ▸ List.mem_cons_self ..
    exact List.ne_nil_of_mem (List.mem_filter.mpr ⟨List.mem_of_mem_erase hx, by simpa using ne_of_mem_of_not_mem hx honce⟩)

/-- SCAN and EMBED report malformed records in bit 1. -/
theorem Job.malformedBit_eq {k : Job} (h : k.kind = 1 ∨ k.kind = 2) : k.malformedBit = 2 * b2n (k.scan.malformed != 0) :=
  if_pos (by omega)

section
variable {s : State} {e : Nat} {j : Job} {y : Layout} {r : List Rec × Nat} {ms : List Rec} {es : List EmbedOut} {o : ExtentOut}
  (h : s.extentRuns j.tag e j y) (hr : r = s.extentRecs j y e) (hms : ms = s.passing j r.1) (ho : o = s.extentOut j y ms es)
include h hr hms ho

/-- An extent that is read is counted, its output delivered, and its step closed. -/
theorem exec_extentDone_runs : exec (.extentDone j.tag e es) s =
    .next (((s.extentCounted j e r ms o).deliver s.tick j e r.2 ms o).closesExtent j) := by
  obtain ⟨hruns, hj, he, hy, hgood⟩ := h
  subst hr hms ho
  change execExtentDone j.tag e es s = _
  unfold execExtentDone State.extentEnds
  simp only [done, hruns, hj, List.contains_iff_mem.mpr he, hy, State.extentBad_none hgood, Bool.not_true, Bool.false_eq_true,
    if_false]
  rfl

/-- An AGGREGATE extent short of the last is added, and its job goes on. -/
theorem exec_extentDone_aggregates (ha : j.isAggregate = true) (htarget : j.target ≠ 2) (hstop : j.stop = none)
    (hmiss : ∃ n, n < j.extents ∧ n ≠ e ∧ n ∉ j.scan.delivered) :
    ∃ t is n, exec (.extentDone j.tag e es) s = .next t ∧ t.job j.tag = some (((j.counts e r ms (s.predFields j) o).aggregated
      (Config.freeBits s.tick) e ms).withIssued is n) ∧ t.hostOut = s.hostOut := by
  obtain ⟨hjob, -, hout, -⟩ := State.extentCounted_spec h.2.1 e r ms o
  obtain ⟨⟨is, n, hk⟩, hout', -⟩ := State.closesExtent_goesOn (by rfl)
    (State.job_onJob hjob (fun k => k.aggregated (Config.freeBits s.tick) e ms)) (Job.allDelivered_insert rfl hmiss)
    (Or.inl hstop)
  have hex := exec_extentDone_runs h hr hms ho
  rw [State.deliver_aggregates htarget ha] at hex
  exact ⟨_, is, n, hex, hk, hout'.trans hout⟩

/-- An extent whose output is one chunk that fits has it written for the host. -/
theorem exec_extentDone_writes (ha : j.isAggregate = false) (htarget : j.target = 0)
    (hone : o.items.flatten.length + 32 + 31 ≤ 262144)
    (hfits : j.scan.bytesOut + (j.chunk e r.2 o.items).length ≤ j.resultLen) :
    ∃ d : State, exec (.extentDone j.tag e es) s = .next (d.closesExtent j) ∧
      d.job j.tag = some ((j.counts e r ms (s.predFields j) o).wrote e (j.chunk e r.2 o.items).length) ∧
      d.hostOut = ⟨j.resultAddr + j.scan.bytesOut, j.chunk e r.2 o.items⟩ :: s.hostOut ∧ d.qe = s.qe := by
  obtain ⟨hjob, hqe, hout, -⟩ := State.extentCounted_spec h.2.1 e r ms o
  obtain ⟨hjob', hout', hqe'⟩ := State.deliver_fits hjob htarget ha htarget hone s.tick e r.2 ms hfits
  exact ⟨_, exec_extentDone_runs h hr hms ho, hjob', hout'.trans (congrArg _ hout), hqe'.trans hqe⟩

/-- The job goes on while another extent is missing. -/
theorem exec_extentDone_writesOne (ha : j.isAggregate = false) (htarget : j.target = 0) (hstop : j.stop = none)
    (hone : o.items.flatten.length + 32 + 31 ≤ 262144)
    (hfits : j.scan.bytesOut + (j.chunk e r.2 o.items).length ≤ j.resultLen)
    (hmiss : ∃ n, n < j.extents ∧ n ≠ e ∧ n ∉ j.scan.delivered) :
    ∃ t is n, exec (.extentDone j.tag e es) s = .next t ∧ t.job j.tag = some (((j.counts e r ms (s.predFields j) o).wrote e
      (j.chunk e r.2 o.items).length).withIssued is n) ∧
      t.hostOut = ⟨j.resultAddr + j.scan.bytesOut, j.chunk e r.2 o.items⟩ :: s.hostOut := by
  obtain ⟨d, hex, hjob, hout, -⟩ := exec_extentDone_writes h hr hms ho ha htarget hone hfits
  obtain ⟨⟨is, n, hk⟩, hout', -⟩ := State.closesExtent_goesOn (by rfl) hjob (Job.allDelivered_insert rfl hmiss) (Or.inl hstop)
  exact ⟨_, is, n, hex, hk, hout'.trans hout⟩

/-- The job completes with the last extent, whether or not a stop reached it. -/
theorem exec_extentDone_writesLast (ha : j.isAggregate = false) (htarget : j.target = 0)
    (hone : o.items.flatten.length + 32 + 31 ≤ 262144)
    (hfits : j.scan.bytesOut + (j.chunk e r.2 o.items).length ≤ j.resultLen)
    (hall : j.extents ≤ lowestFree (insertNat e j.scan.delivered) 0) (hc : j.c ∈ s.qe.fetched) :
    ∃ t, exec (.extentDone j.tag e es) s = .next t ∧
      t.hostOut = ⟨j.resultAddr + j.scan.bytesOut, j.chunk e r.2 o.items⟩ :: s.hostOut ∧
      Completed t j.c stOk (j.counts e r ms (s.predFields j) o).malformedBit 0 [] ∧ t.job j.tag = none := by
  obtain ⟨d, hex, hjob, hout, hqe⟩ := exec_extentDone_writes h hr hms ho ha htarget hone hfits
  obtain ⟨hdone, hgone, -, hout'⟩ := State.closesExtent_delivered (by rfl) hjob (hqe.symm ▸ hc) (by exact decide_eq_true hall)
  exact ⟨_, hex, (hout' ha).trans hout, hdone, hgone⟩

/-- The only extent in flight finds output full, and its job completes without it. -/
theorem exec_extentDone_full (ha : j.isAggregate = false) (htarget : j.target = 0) (hstop : j.stop = none)
    (hone : o.items.flatten.length + 32 + 31 ≤ 262144)
    (hfull : j.resultLen < j.scan.bytesOut + (j.chunk e r.2 o.items).length) (hissued : j.scan.issued = [e])
    (hmiss : j.allDelivered = false) (hc : j.c ∈ s.qe.fetched) :
    ∃ t, exec (.extentDone j.tag e es) s = .next t ∧ t.hostOut = s.hostOut ∧
      Completed t j.c stOk (1 + (j.counts e r ms (s.predFields j) o).malformedBit) 0 [] ∧ t.job j.tag = none := by
  obtain ⟨hjob, hqe, hout, -⟩ := State.extentCounted_spec h.2.1 e r ms o
  have hex := exec_extentDone_runs h hr hms ho
  rw [State.deliver_full hjob htarget ha hone _ _ _ _ hfull] at hex
  have hnone : j.scan.issued.filter (fun i => i != e) = [] := by simp [hissued]
  have hfills : some (j.stop.getD 1) = some 1 := by rw [hstop]; rfl
  obtain ⟨hdone, hgone, -, hout'⟩ := State.closesExtent_full (by rfl) (State.job_onJob hjob Job.fills) (hqe.symm ▸ hc)
    (by exact hmiss) (by exact hnone) (by exact hfills)
  exact ⟨_, hex, (hout' ha).trans hout, hdone, hgone⟩

/-- A batch out of order is staged, and its job goes on. -/
theorem exec_extentDone_stages (htarget : j.target = 2) (hstop : j.stop = none) (hmiss : j.allDelivered = false)
    (hfits : s.stageFits j o.batch.length = true) (he : e ≠ j.firstMissing)
    (hwaits : ∀ b ∈ j.scan.staged, b.1 ≠ j.firstMissing) :
    ∃ t is n, exec (.extentDone j.tag e es) s = .next t ∧ t.job j.tag = some (((j.counts e r ms (s.predFields j) o).stages e
      o.batch).withIssued is n) ∧ t.idx = s.idx := by
  obtain ⟨hjob, -, -, hidx, hroom⟩ := State.extentCounted_spec h.2.1 e r ms o
  have hex := exec_extentDone_runs h hr hms ho
  rw [State.deliver_stages hjob htarget ((hroom _).trans hfits) he hwaits] at hex
  obtain ⟨⟨is, n, hk⟩, -, hidx'⟩ := State.closesExtent_goesOn (by rfl)
    (State.job_onJob hjob (fun k => k.stages e o.batch)) hmiss (Or.inl hstop)
  exact ⟨_, is, n, hex, hk, hidx'.trans hidx⟩

/-- A batch without room stops its job, which waits for the other extents in flight. -/
theorem exec_extentDone_noRoom (htarget : j.target = 2) (hmiss : j.allDelivered = false)
    (hfull : s.stageFits j o.batch.length = false) (hissued : j.scan.issued ≠ [e]) (honce : e ∉ j.scan.issued.erase e) :
    ∃ t is n, exec (.extentDone j.tag e es) s = .next t ∧ t.job j.tag = some ((j.counts e r ms
      (s.predFields j) o).fills.withIssued is n) ∧ t.idx = s.idx := by
  obtain ⟨hjob, -, -, hidx, hroom⟩ := State.extentCounted_spec h.2.1 e r ms o
  have hex := exec_extentDone_runs h hr hms ho
  rw [State.deliver_noRoom htarget ((hroom _).trans hfull)] at hex
  obtain ⟨⟨is, n, hk⟩, -, hidx'⟩ := State.closesExtent_goesOn (by rfl) (State.job_onJob hjob Job.fills) hmiss
    (Or.inr (filter_ne_nil_of_erase h.2.2.1 hissued honce))
  exact ⟨_, is, n, hex, hk, hidx'.trans hidx⟩

end

/-- Settles O43: an extent that is read is counted and delivered, and its job then goes on or ends. -/
theorem scanExtents : Obligations.ScanExtents := by
  unfold Obligations.ScanExtents
  refine ⟨?_, ?_, ?_, ?_, ?_, ?_, fun _ _ es _ h => exec_extentDone_nothing h es⟩
  · intro tag e es j y o s h ho hkind hagg htarget hstop hmiss
    obtain rfl := State.tag_of_job h.2.1
    obtain ⟨t, is, n, hex, hk, hout⟩ := exec_extentDone_aggregates h rfl rfl ho (by simp [Job.isAggregate, hkind, hagg])
      (by omega) hstop hmiss
    exact ⟨t, _, hex, hk, rfl, rfl, rfl, rfl, rfl, rfl, rfl, rfl, hout⟩
  · intro tag e es j y o s h ho _ ha htarget hstop hone hfits hmiss
    obtain rfl := State.tag_of_job h.2.1
    obtain ⟨t, is, n, hex, hk, hout⟩ := exec_extentDone_writesOne h rfl rfl ho ha htarget hstop hone hfits hmiss
    exact ⟨t, _, hex, hk, rfl, rfl, rfl, rfl, rfl, rfl, rfl, hout⟩
  · intro tag e es j y o s h ho hkind ha htarget _ hone hfits hall hc _
    obtain rfl := State.tag_of_job h.2.1
    obtain ⟨t, hex, hout, hdone, hgone⟩ := exec_extentDone_writesLast h rfl rfl ho ha htarget hone hfits hall hc
    rw [Job.malformedBit_eq (by exact hkind)] at hdone
    exact ⟨t, hex, congrArg List.head? hout, hdone, hgone⟩
  · intro tag e es j y o s h ho hkind ha htarget hstop hone hfull hissued hmiss hc _
    obtain rfl := State.tag_of_job h.2.1
    obtain ⟨t, hex, hout, hdone, hgone⟩ := exec_extentDone_full h rfl rfl ho ha htarget hstop hone hfull hissued hmiss hc
    rw [Job.malformedBit_eq (by exact hkind)] at hdone
    exact ⟨t, hex, hout, hdone, hgone⟩
  · intro tag e es j y o s h ho _ htarget hstop hmiss
    obtain rfl := State.tag_of_job h.2.1
    constructor
    · intro hfits he hwaits
      obtain ⟨t, is, n, hex, hk, hidx⟩ := exec_extentDone_stages h rfl rfl ho htarget hstop hmiss hfits he hwaits
      exact ⟨t, _, hex, hk, rfl, rfl, hidx⟩
    · intro hfull hissued honce
      obtain ⟨t, is, n, hex, hk, hidx⟩ := exec_extentDone_noRoom h rfl rfl ho htarget hmiss hfull hissued honce
      have hfills : some (j.stop.getD 1) = some 1 := by rw [hstop]; rfl
      exact ⟨t, _, hex, hk, hfills, rfl, hidx⟩
  · intro tag e es j y a s hruns hj he hy hbad hkind hc _
    obtain rfl := State.tag_of_job hj
    obtain ⟨hdone, hgone, hidx, -⟩ := State.stopJob_ends (j := j.meets a)
      (State.job_onJob hj (fun k => k.meets a)) hc 5 (if j.target = 2 then stJobAborted else stUnrecovered)
    rw [Job.malformedBit_eq (by exact hkind)] at hdone
    exact ⟨_, exec_extentDone_bad hruns hj he hy hbad es, hdone, hgone, hidx⟩

end Sys2Proof.Machine
end

section
/-! Jobs that are admitted as they arrive (INSERT, DELETE, COMMIT and others; R21, R42, R246, R320): the job's turn, and a job that
ends at once. -/

namespace Sys2Proof.Machine

/-! ## A job that is admitted as it arrives (R21, R42, R246, R320) -/

theorem State.newJob_spec {s : State} {c : CmdId} {kind n : Nat} {sub : Submit} {d : List Byte} {ls : List (List Byte)} {j : Job}
    (hj : j = s.newJob c kind n sub d ls) :
    j.tag = s.jd.nextTag ∧ j.c = c ∧ j.kind = kind ∧ j.squad = n ∧ j.pins = [] ∧ j.search.ctxs = [] := by
  subst hj
  exact ⟨rfl, rfl, rfl, rfl, rfl, rfl⟩

theorem State.job_nextTag {s : State} (h : s.jd.inForm) : s.job s.jd.nextTag = none := by
  refine List.find?_eq_none.mpr fun k hk => ?_
  have := h k hk
  simp only [beq_iff_eq]
  omega

/-- A change of the job that came last. -/
theorem State.withJob_onJob {s : State} (h : s.jd.inForm) (c : CmdId) {j : Job} (htag : j.tag = s.jd.nextTag) (f : Job → Job) :
    (s.withJob c j).onJob j.tag f = s.withJob c { f j with tag := j.tag } := by
  have hold : s.jd.jobs.map (fun k => if k.tag = j.tag then { f k with tag := j.tag } else k) = s.jd.jobs :=
    (List.map_congr_left fun k hk => if_neg (by have := h k hk; omega)).trans (List.map_id _)
  unfold State.onJob State.withJob
  rw [List.map_append, hold, List.map_singleton, if_pos rfl]

theorem State.jobsOf_withJob (s : State) (c : CmdId) (j : Job) : (s.withJob c j).jobsOf j.squad = s.jobsOf j.squad ++ [j] := by
  change (s.jd.jobs ++ [j]).filter _ = _
  rw [List.filter_append, List.filter_singleton, beq_self_eq_true, cond_true]
  rfl

/-- A job that waits counts for nothing in what JD may take on. -/
theorem State.mayAdmit_withJob (s : State) (c : CmdId) {j : Job} (hj : j.admitted = false) :
    (s.withJob c j).mayAdmit j = s.mayAdmit j := by
  unfold State.mayAdmit
  rw [State.jobsOf_withJob, List.filter_append, List.filter_singleton, hj, cond_false, List.append_nil]
  rfl

/-- Behind admitted jobs alone, it is the new job's turn. -/
theorem State.itsTurn_withJob {s : State} (c : CmdId) {j : Job} (hq : j.state = .queued)
    (h : ∀ k ∈ s.jobsOf j.squad, k.admitted = true) : (s.withJob c j).itsTurn j = true := by
  have hstate : ∀ k ∈ s.jobsOf j.squad, k.state ≠ .queued ∧ k.state ≠ .restart := fun k hk => by
    simpa [Job.admitted] using h k hk
  have hrestart : (s.jobsOf j.squad ++ [j]).any (fun k => k.state == .restart) = false := by
    simpa [hq] using fun k hk => (hstate k hk).2
  have hearlier : (s.jobsOf j.squad ++ [j]).any (fun k => k.state == .queued && k.tag < j.tag && !(s.withJob c j).heldSearch k) =
      false := by
    simpa using fun k hk hk' => absurd hk' (hstate k hk).1
  unfold State.itsTurn
  rw [State.jobsOf_withJob, hrestart, hearlier]
  simp

/-- A JOB_SUBMIT that its squad may take at once is admitted as its kind gives. -/
theorem State.jobAtOnce_admits {s : State} {c : CmdId} {kind n : Nat} {sub : Submit} {d : List Byte} {ls : List (List Byte)}
    {j : Job} (h : s.submits c kind sub n) (hj : j = s.newJob c kind n sub d ls) (ha : s.admitsAtOnce j) :
    s.jobAtOnce c kind sub d ls = (s.withJob c j).admitNow j := by
  obtain ⟨hform, hmay, hidle⟩ := ha
  have htag : j.tag = s.jd.nextTag := by rw [hj]; rfl
  have hq : j.state = .queued := by rw [hj]; rfl
  have hturn : ((s.withJob c j).mayAdmit j && (s.withJob c j).itsTurn j) = true := by
    rw [State.mayAdmit_withJob s c (by simp [Job.admitted, hq]), hmay, State.itsTurn_withJob c hq hidle]
    rfl
  unfold State.jobAtOnce
  rw [if_pos h.1, State.takeJob_fetch_submits h, ← hj]
  unfold State.tryAdmit
  rw [State.job_withJob (State.job_nextTag hform) c htag]
  simp only [hq, beq_self_eq_true, Bool.true_and, hturn, if_true]

/-! ## A job that ends at once -/

/-- JD has the jobs it had, command `c` has completed with a status, which the last record gives, and nothing else of tiles,
objects, indexes and the host's memory is changed. -/
structure State.Answers (s t : State) (c : CmdId) (st : Nat) : Prop where
  completed : Completed t c st 0 0 []
  jobs : t.jd.jobs = s.jd.jobs
  status : t.jd.progress.head?.map Progress.status = some st
  idx : t.idx = s.idx
  rl : t.rl = s.rl
  tiles : t.tiles = s.tiles
  host : t.hostOut = s.hostOut
  epoch : t.mm.epoch = s.mm.epoch
  landing : t.mm.landing = s.mm.landing

/-- The same, but that index `n` becomes `y`. -/
structure State.AnswersAt (s t : State) (n : Nat) (y : Index) (c : CmdId) (st : Nat) : Prop where
  self : t.idx.find n = some y
  others : ∀ m, m ≠ n → t.idx.find m = s.idx.find m
  answers : State.Answers { s with idx := t.idx } t c st

theorem State.Answers.onIndex {s t : State} {i : KMap Index} {n : Nat} {y : Index} {c : CmdId} {st : Nat}
    (h : State.Answers { s with idx := i } t c st) (hself : i.find n = some y) (hothers : ∀ m, m ≠ n → i.find m = s.idx.find m) :
    s.AnswersAt t n y c st := by
  obtain rfl : t.idx = i := h.idx
  exact ⟨hself, hothers, h⟩

/-- A job of no SCAN or EMBED that holds neither pins nor contexts. -/
abbrev Job.bare (j : Job) : Prop := 2 < j.kind ∧ j.pins = [] ∧ j.search.ctxs = []

theorem Job.malformedBit_none {j : Job} (h : 2 < j.kind) : j.malformedBit = 0 := if_neg (by omega)

theorem State.writeAgg_none {j : Job} (h : 2 < j.kind) (s : State) : s.writeAgg j = s := by
  have hk : j.isAggregate = false := by
    unfold Job.isAggregate
    rw [Bool.and_eq_false_iff]
    exact Or.inl (by simp; omega)
  unfold State.writeAgg
  rw [hk, Bool.false_and, if_neg Bool.false_ne_true]

@[simp] theorem State.withJob_idx (s : State) (c : CmdId) (j : Job) : (s.withJob c j).idx = s.idx := rfl
@[simp] theorem State.withJob_rl (s : State) (c : CmdId) (j : Job) : (s.withJob c j).rl = s.rl := rfl
@[simp] theorem State.withJob_tiles (s : State) (c : CmdId) (j : Job) : (s.withJob c j).tiles = s.tiles := rfl
@[simp] theorem State.withJob_hostOut (s : State) (c : CmdId) (j : Job) : (s.withJob c j).hostOut = s.hostOut := rfl
@[simp] theorem State.withJob_mm (s : State) (c : CmdId) (j : Job) : (s.withJob c j).mm = s.mm := rfl

section
variable (s : State) (tag : Nat) (p : Progress) (squad st : Nat)

@[simp] theorem State.withoutJob_idx : (s.withoutJob tag p squad st).idx = s.idx := rfl
@[simp] theorem State.withoutJob_rl : (s.withoutJob tag p squad st).rl = s.rl := rfl
@[simp] theorem State.withoutJob_tiles : (s.withoutJob tag p squad st).tiles = s.tiles := rfl
@[simp] theorem State.withoutJob_hostOut : (s.withoutJob tag p squad st).hostOut = s.hostOut := rfl
@[simp] theorem State.withoutJob_epoch : (s.withoutJob tag p squad st).mm.epoch = s.mm.epoch := rfl
@[simp] theorem State.withoutJob_landing : (s.withoutJob tag p squad st).mm.landing = s.mm.landing := rfl

end

/-- JD without the job that came last. -/
theorem State.withJob_withoutJob {s : State} (h : s.jd.inForm) (c : CmdId) {j : Job} (htag : j.tag = s.jd.nextTag)
    (p : Progress) (squad st : Nat) :
    s.Answers (((s.withJob c j).withoutJob j.tag p squad st).complete c p.status) c p.status := by
  have hjobs : (s.jd.jobs ++ [j]).filter (fun k => !(k.tag == j.tag)) = s.jd.jobs := by
    rw [List.filter_append, List.filter_eq_self.mpr fun k hk => by have := h k hk; simp; omega]
    simp
  have hfetched : c ∈ ((s.withJob c j).withoutJob j.tag p squad st).qe.fetched := State.mem_fetch s c
  exact ⟨State.complete_completed _ _ _ _ _ _ hfetched, hjobs, rfl, by simp, by simp, by simp, by simp, by simp, by simp⟩

theorem State.finishJob_answers {s : State} (h : s.jd.inForm) {c : CmdId} {j : Job} (htag : j.tag = s.jd.nextTag) (hc : j.c = c)
    (hb : j.bare) (st : Nat) : s.Answers ((s.withJob c j).finishJob j.tag st) c st := by
  obtain ⟨hkind, hpins, hctxs⟩ := hb
  have hjob : (s.withJob c j).job j.tag = some j := htag ▸ State.job_withJob (State.job_nextTag h) c htag
  have hagg := State.writeAgg_none hkind (s.withJob c j)
  have hrel : (s.withJob c j).released j = s.withJob c j := by
    unfold State.released State.freeContexts
    rw [hpins, hctxs]
    rfl
  rw [State.finishJob_eq hjob (hagg.symm ▸ hjob), hagg, hrel, Job.malformedBit_none hkind, hc]
  exact State.withJob_withoutJob h c htag ((s.withJob c j).jobRecord j st) j.squad st

theorem State.stopJob_answers {s : State} (h : s.jd.inForm) {c : CmdId} {j : Job} (htag : j.tag = s.jd.nextTag) (hc : j.c = c)
    (hb : j.bare) (stop st : Nat) : s.Answers ((s.withJob c j).stopJob j.tag stop st) c st := by
  unfold State.stopJob
  rw [State.withJob_onJob h c htag]
  exact State.finishJob_answers (j := j.stopped stop) h htag hc hb st

/-- The job as JD admits it with no object of its own. -/
def State.admitted (s : State) (j : Job) : Job :=
  { j with state := .admitted, snapshot := s.mm.epoch, admitBeat := s.pc.beat, pins := [] }

theorem State.withJob_admitJob {s : State} (h : s.jd.inForm) (c : CmdId) {j : Job} (htag : j.tag = s.jd.nextTag) :
    (s.withJob c j).admitJob j.tag (s.withJob c j).mm.epoch [] = s.withJob c (s.admitted j) :=
  State.withJob_onJob h c htag _

end Sys2Proof.Machine
end

section
/-! INSERT and DELETE (R238, R255, R270, R274): the room that pending changes need, the checks, and what is appended. -/

namespace Sys2Proof.Machine

/-! ## Room in the region of an index (R270, R274) -/

theorem ceilDiv_mono {a b : Nat} (h : a ≤ b) (n : Nat) : ceilDiv a n ≤ ceilDiv b n :=
  Nat.div_le_div_right (by omega)

/-- The index with further changes pending. -/
def Index.appends (x : Index) (cs : List Change) : Index := { x with open_ := x.open_ ++ cs }

@[simp] theorem Index.appends_nil (x : Index) : x.appends [] = x := by
  unfold Index.appends
  rw [List.append_nil]

theorem Index.appends_cons (x : Index) (a : Change) (cs : List Change) : x.appends (a :: cs) = (x.appends [a]).appends cs := by
  unfold Index.appends
  rw [List.append_cons]

/-- Further changes may need more room. -/
theorem Index.need_le_appends (x : Index) (cs : List Change) (staged : Nat) : x.need staged ≤ (x.appends cs).need staged := by
  have hitems : (x.open_.filter Change.isItem).length ≤ x.open_.length := List.length_filter_le ..
  have hitems' : (cs.filter Change.isItem).length ≤ cs.length := List.length_filter_le ..
  unfold Index.need Index.appends
  dsimp only
  rw [List.filter_append, List.length_append, List.length_append]
  gcongr ?_ + _ + ?_ + _
  · exact ceilDiv_mono (by omega) _
  · exact ceilDiv_mono (by omega) _

theorem State.segsFit_of_le {s : State} {x : Index} {k n : Nat} (h : k ≤ n) {used : List (Nat × Nat)}
    (hn : s.segsFit x n used = true) : s.segsFit x k used = true := by
  induction k generalizing n used with
  | zero => rfl
  | succ k ih =>
    obtain ⟨m, rfl⟩ : ∃ m, n = m + 1 := ⟨n - 1, by omega⟩
    unfold State.segsFit at hn ⊢
    split at hn
    · cases hn
    · exact ih (by omega) hn

theorem State.segsFit_region (s : State) {x y : Index} (h : y.region = x.region) (k : Nat) (used : List (Nat × Nat)) :
    s.segsFit y k used = s.segsFit x k used := by
  have hfit : ∀ used, s.fitIn y used segBytes = s.fitIn x used segBytes := fun used => by
    unfold State.fitIn
    rw [h]
  induction k generalizing used with
  | zero => rfl
  | succ k ih =>
    unfold State.segsFit
    rw [hfit]
    split
    · rfl
    · exact ih _

/-- Where further changes fit, the index fits without them. -/
theorem State.fits_of_appends {s : State} {x : Index} {cs : List Change} {staged : Nat}
    (h : s.fits (x.appends cs) staged 0 = true) : s.fits x staged 0 = true := by
  have hmore : s.segsFit x ((x.appends cs).need staged + 0) (s.indexUsed x) = true :=
    (State.segsFit_region s (x := x) (y := x.appends cs) rfl _ _).symm.trans h
  exact State.segsFit_of_le (Nat.add_le_add_right (x.need_le_appends cs staged) 0) hmore

/-- Squads' regions, objects and the tables of running jobs say what fits. -/
theorem State.fits_congr {s t : State} (hsl : t.sl = s.sl) (hrl : t.rl = s.rl) (x : Index)
    (htab : t.jobTables x.region = s.jobTables x.region) (staged more : Nat) : t.fits x staged more = s.fits x staged more := by
  have hused : t.indexUsed x = s.indexUsed x := by
    unfold State.indexUsed State.nearUsed
    rw [htab, hrl]
  unfold State.fits
  rw [hused, State.segsFit_congr hsl]

/-- A job of no EMBED stages no item. -/
theorem State.stagedItems_withJob (s : State) (c : CmdId) {j : Job} (h : 3 < j.kind) (r : Nat) :
    (s.withJob c j).stagedItems r = s.stagedItems r := by
  have hj : ([j].filter fun j => j.kind == 2 && j.target == 2 && j.region == r) = [] := by
    simp only [List.filter_singleton, beq_eq_false_iff_ne.mpr (by omega : j.kind ≠ 2), Bool.false_and, cond_false]
  unfold State.stagedItems
  change (((s.jd.jobs ++ [j]).filter _).map _).sum = _
  rw [List.filter_append, hj, List.append_nil]

/-- A job of no SEARCH uses no table. -/
theorem State.jobTables_withJob (s : State) (c : CmdId) {j : Job} (h : 3 < j.kind) (r : Nat) :
    (s.withJob c j).jobTables r = s.jobTables r := by
  have hj : ([j].filter fun j => j.kind == 3 && j.u16 68 == r && j.search.tab.2 != 0) = [] := by
    simp only [List.filter_singleton, beq_eq_false_iff_ne.mpr (by omega : j.kind ≠ 3), Bool.false_and, cond_false]
  unfold State.jobTables
  change ((s.jd.jobs ++ [j]).filter _).map _ = _
  rw [List.filter_append, hj, List.append_nil]

/-! ## Appending (R270) -/

/-- The index `n` becomes `y`, and nothing else changes. -/
structure State.Reindexes (s t : State) (n : Nat) (y : Index) : Prop where
  frame : t = { s with idx := t.idx }
  self : t.idx.find n = some y
  others : ∀ m, m ≠ n → t.idx.find m = s.idx.find m

/-- Of the changes, the first `k` find room, and the next one does not. -/
def State.roomForFirst (s : State) (x : Index) (cs : List Change) (k : Nat) : Prop :=
  s.fits (x.appends (cs.take k)) (s.stagedItems x.region) 0 = true ∧
  (k < cs.length → s.fits (x.appends (cs.take (k + 1))) (s.stagedItems x.region) 0 = false)

theorem State.roomForFirst_cons {s : State} {x : Index} {a : Change} {cs : List Change} {k : Nat}
    (h : s.roomForFirst x (a :: cs) (k + 1)) :
    s.fits (x.appends [a]) (s.stagedItems x.region) 0 = true ∧ s.roomForFirst (x.appends [a]) cs k := by
  obtain ⟨hfit, hnext⟩ := h
  rw [List.take_succ_cons, Index.appends_cons] at hfit
  refine ⟨State.fits_of_appends hfit, hfit, fun hk => ?_⟩
  have hno := hnext (Nat.succ_lt_succ hk)
  rwa [List.take_succ_cons, Index.appends_cons] at hno

theorem State.roomForFirst_congr {s t : State} (hsl : t.sl = s.sl) (hrl : t.rl = s.rl) {x : Index}
    (htab : t.jobTables x.region = s.jobTables x.region) (hstaged : t.stagedItems x.region = s.stagedItems x.region)
    {cs : List Change} {k : Nat} (h : s.roomForFirst x cs k) : t.roomForFirst x cs k := by
  have hfits : ∀ (l : List Change) (n : Nat), t.fits (x.appends l) n 0 = s.fits (x.appends l) n 0 :=
    fun l n => State.fits_congr hsl hrl (x.appends l) htab n 0
  unfold State.roomForFirst at h ⊢
  rwa [hfits, hfits, hstaged]

theorem State.appendChanges_cons {s : State} {n : Nat} {x : Index} (hx : s.idx.find n = some x) (a : Change) (cs : List Change) :
    s.appendChanges n (a :: cs) =
      if s.fits (x.appends [a]) (s.stagedItems x.region) 0 then
        let r := State.appendChanges { s with idx := s.idx.put n (x.appends [a]) } n cs
        (r.1, r.2 + 1)
      else (s, 0) := by
  rw [State.appendChanges, hx]
  rfl

/-- The changes that find room are appended, and no others. -/
theorem State.appendChanges_spec {s : State} {n : Nat} {x : Index} (hx : s.idx.find n = some x) {cs : List Change} {k : Nat}
    (hroom : s.roomForFirst x cs k) (hk : k ≤ cs.length) :
    (s.appendChanges n cs).2 = k ∧ s.Reindexes (s.appendChanges n cs).1 n (x.appends (cs.take k)) := by
  induction cs generalizing s x k with
  | nil =>
    obtain rfl : k = 0 := by simpa using hk
    exact ⟨rfl, rfl, by simpa [State.appendChanges] using hx, fun _ _ => rfl⟩
  | cons a cs ih =>
    rw [State.appendChanges_cons hx]
    cases k with
    | zero =>
      have hno : s.fits (x.appends [a]) (s.stagedItems x.region) 0 = false := hroom.2 (Nat.succ_pos _)
      rw [if_neg (by simp [hno])]
      exact ⟨rfl, rfl, by simpa using hx, fun _ _ => rfl⟩
    | succ k =>
      obtain ⟨hone, hrest⟩ := State.roomForFirst_cons hroom
      rw [if_pos hone]
      have hrest' : State.roomForFirst { s with idx := s.idx.put n (x.appends [a]) } (x.appends [a]) cs k :=
        State.roomForFirst_congr (s := s) (t := { s with idx := s.idx.put n (x.appends [a]) }) rfl rfl rfl rfl hrest
      obtain ⟨hlen, hframe, hself, hothers⟩ := ih (KMap.find_put_self ..) hrest' (Nat.le_of_succ_le_succ hk)
      refine ⟨congrArg (· + 1) hlen, hframe, ?_, fun m hm => (hothers m hm).trans (KMap.find_put_ne _ _ _ _ hm)⟩
      exact hself.trans (congrArg some (Index.appends_cons x a (cs.take k)).symm)

/-! ## The checks of an INSERT or DELETE (R255, R270) -/

theorem State.attachIndex_attached {s : State} {n : Nat} {x : Index} (hx : s.idx.find n = some x) (squad region : Nat) :
    s.attachIndex squad n region = if x.squad = squad ∧ x.region = region then .inr s else .inl stInvalidField := by
  unfold State.attachIndex
  rw [hx]

/-- An INSERT gives the code width of the index and ids that may be used, a DELETE no width. -/
def Job.dataOk (j : Job) (x : Index) : Bool :=
  let w := 16 + sbBits x.super / 8
  !((if j.kind == 4 then j.u16 70 != sbBits x.super else j.u16 70 != 0) || (j.kind == 4 && (List.range (j.u32 72)).any (fun i =>
    u64At j.data (w * i) == 0xFFFFFFFFFFFFFFFF || (sbFormat x.super == 3 && u32At j.data (w * i + 12) != 0))))

/-- Every check of an INSERT or DELETE on an attached index but for write protection. -/
def State.appendOk (s : State) (j : Job) (x : Index) : Bool :=
  (zerosAt j.desc 76 4 && zerosAt j.desc 88 168 && s.commonOk j && j.target != 2)
  && (j.u32 72 != 0 && decide (j.u32 72 ≤ 65536)) && (x.squad == j.squad && x.region == j.u16 68) && j.dataOk x

/-- The namespace of an index is write protected. -/
def State.idxProtected (s : State) (n : Nat) : Bool := ((s.mm.namespaces.find n).map Namespace.readOnly).getD false

theorem State.admitAppend_attached {s : State} {j : Job} {x : Index} (hx : s.idx.find (j.u32 64) = some x) :
    s.admitAppend j = if s.appendOk j x then (if s.idxProtected (j.u32 64) then .inl stWriteProtected else .inr s)
      else .inl stInvalidField := by
  unfold State.admitAppend State.appendOk State.idxProtected
  rw [State.attachIndex_attached hx]
  generalize (zerosAt j.desc 76 4 && zerosAt j.desc 88 168 && s.commonOk j && j.target != 2) = common
  have hform : (!common || j.u32 72 == 0 || decide (65536 < j.u32 72)) =
      !(common && (j.u32 72 != 0 && decide (j.u32 72 ≤ 65536))) := by
    rw [Bool.not_and, Bool.not_and, bne, Bool.not_not, ← decide_not, Bool.or_assoc]
    simp only [Nat.not_le]
  rw [hform]
  cases common && (j.u32 72 != 0 && decide (j.u32 72 ≤ 65536))
  case false => rfl
  case true =>
    by_cases hown : x.squad = j.squad ∧ x.region = j.u16 68
    · rw [if_pos hown]
      simp only [hx, hown.1, hown.2, beq_self_eq_true, Bool.and_self, Bool.true_and, Bool.not_true, Bool.false_eq_true, if_false]
      unfold Job.dataOk
      simp only [Bool.not_eq_true', ← Bool.not_eq_true, ite_not]
    · simp [hown]

theorem State.admitAppend_withJob {s : State} {j : Job} {x : Index} (hx : s.idx.find (j.u32 64) = some x) (c : CmdId) (k : Job) :
    (s.withJob c k).admitAppend j = (s.admitAppend j).map id fun _ => s.withJob c k := by
  have hok : (s.withJob c k).appendOk j x = s.appendOk j x := rfl
  have hprot : (s.withJob c k).idxProtected (j.u32 64) = s.idxProtected (j.u32 64) := rfl
  rw [State.admitAppend_attached hx, State.admitAppend_attached (s := s.withJob c k) hx, hok, hprot]
  split
  · split <;> rfl
  · rfl

/-- The status of an INSERT or DELETE that fails a check. -/
theorem State.admitAppend_status {s : State} {j : Job} {x : Index} {st : Nat} (hx : s.idx.find (j.u32 64) = some x)
    (h : s.admitAppend j = .inl st) :
    (s.appendOk j x = false → st = stInvalidField) ∧ (st = stInvalidField ∨ st = stWriteProtected) := by
  rw [State.admitAppend_attached hx] at h
  split at h
  next hok =>
    split at h
    · exact ⟨fun hno => by simp [hok] at hno, Or.inr (Sum.inl.inj h).symm⟩
    · cases h
  next => exact ⟨fun _ => (Sum.inl.inj h).symm, Or.inl (Sum.inl.inj h).symm⟩

/-- An INSERT or DELETE fails on its size, its target, the common checks, the owner or the region of the index, or its data. -/
theorem State.appendOk_false {s : State} {j : Job} {x : Index}
    (h : j.u32 72 = 0 ∨ 65536 < j.u32 72 ∨ j.target = 2 ∨ s.commonOk j = false ∨ x.squad ≠ j.squad ∨ x.region ≠ j.u16 68 ∨
      j.dataOk x = false) : s.appendOk j x = false := by
  rw [← Bool.not_eq_true]
  intro hok
  simp only [State.appendOk, Bool.and_eq_true, bne_iff_ne, ne_eq, decide_eq_true_eq, beq_iff_eq] at hok
  obtain ⟨⟨⟨⟨⟨-, hcommon⟩, htarget⟩, hsome, hmax⟩, hsquad, hregion⟩, hdata⟩ := hok
  rcases h with h | h | h | h | h | h | h
  · exact hsome h
  · omega
  · exact htarget h
  · simp [hcommon] at h
  · exact h hsquad
  · exact h hregion
  · simp [hdata] at h

/-- An INSERT that gives another width than its index's fails, as does a DELETE that gives one. -/
theorem Job.dataOk_false {j : Job} {x : Index} (h : j.u16 70 ≠ if j.kind = 4 then sbBits x.super else 0) : j.dataOk x = false := by
  unfold Job.dataOk
  split at h
  next hk => simp [hk, h]
  next hk => simp [hk, h]

/-! ## INSERT and DELETE (R270, R274) -/

theorem State.admitNow_append {j : Job} (h : j.kind = 4 ∨ j.kind = 5) (s : State) : s.admitNow j = s.startAppend j := by
  unfold State.admitNow
  rcases h with h | h <;> simp only [h]

theorem Job.changes_length (j : Job) (bits : Nat) : (j.changes bits).length = j.u32 72 := by
  unfold Job.changes
  rw [List.length_map, List.length_range]

/-- The admitted job `k` of command `c` appends the changes of `j` that find room, and ends. -/
theorem State.runAppend_answers {s : State} (h : s.jd.inForm) {c : CmdId} {j k : Job} (hj : j.tag = s.jd.nextTag)
    (hk : k.tag = s.jd.nextTag) (hc : k.c = c) (hb : k.bare) (hkind : 3 < k.kind) {x : Index}
    (hx : s.idx.find (j.u32 64) = some x) {n : Nat} (hroom : s.roomForFirst x (j.changes (sbBits x.super)) n)
    (hn : n ≤ j.u32 72) :
    s.AnswersAt ((s.withJob c k).runAppend j) (j.u32 64) (x.appends ((j.changes (sbBits x.super)).take n)) c
      (if n = j.u32 72 then stOk else stCapacity) := by
  have hroom' : (s.withJob c k).roomForFirst x (j.changes (sbBits x.super)) n :=
    State.roomForFirst_congr (s := s) (t := s.withJob c k) rfl rfl (State.jobTables_withJob s c hkind _)
      (State.stagedItems_withJob s c hkind _) hroom
  obtain ⟨hlen, hframe, hself, hothers⟩ := State.appendChanges_spec (s := s.withJob c k) hx hroom' (Job.changes_length .. ▸ hn)
  refine State.Answers.onIndex ?_ hself hothers
  unfold State.runAppend
  rw [State.withJob_idx, hx]
  dsimp only
  generalize (s.withJob c k).appendChanges (j.u32 64) (j.changes (sbBits x.super)) = r at *
  have hwith : r.1 = State.withJob { s with idx := r.1.idx } c k := hframe
  rw [hlen, hwith, hj, ← hk, State.withJob_onJob (s := { s with idx := r.1.idx }) h c hk]
  split
  · exact State.finishJob_answers (s := { s with idx := r.1.idx }) h (by exact hk) (by exact hc) (by exact hb) _
  · exact State.stopJob_answers (s := { s with idx := r.1.idx }) h (by exact hk) (by exact hc) (by exact hb) _ _

section
variable {s : State} {c : CmdId} {sub : Submit} {d : List Byte} {kind n : Nat} {x : Index} {j : Job}
  (hkind : kind = 4 ∨ kind = 5) (h : s.submits c kind sub n) (hj : j = s.newJob c kind n sub d []) (ha : s.admitsAtOnce j)
  (hx : s.idx.find (j.u32 64) = some x)
include hkind h hj ha hx

/-- An INSERT or DELETE that passes its checks appends the changes that find room, and completes. -/
theorem State.jobAtOnce_appends (hok : s.admitAppend j = .inr s) {k : Nat}
    (hroom : s.roomForFirst x (j.changes (sbBits x.super)) k) (hk : k ≤ j.u32 72) :
    s.AnswersAt (s.jobAtOnce c kind sub d []) (j.u32 64) (x.appends ((j.changes (sbBits x.super)).take k)) c
      (if k = j.u32 72 then stOk else stCapacity) := by
  obtain ⟨hform, -, -⟩ := id ha
  obtain ⟨htag, hc, hjk, -, -, hctxs⟩ := State.newJob_spec hj
  rw [State.jobAtOnce_admits h hj ha, State.admitNow_append (by omega)]
  unfold State.startAppend
  rw [State.admitAppend_withJob hx, hok, Sum.map_inr]
  dsimp only
  rw [State.withJob_admitJob hform c htag]
  exact State.runAppend_answers (k := s.admitted j) hform htag htag hc ⟨by change 2 < j.kind; omega, rfl, hctxs⟩
    (by change 3 < j.kind; omega) hx hroom hk

theorem State.jobAtOnce_appendsAll (hok : s.admitAppend j = .inr s)
    (hfits : s.fits (x.appends (j.changes (sbBits x.super))) (s.stagedItems x.region) 0 = true) :
    s.AnswersAt (s.jobAtOnce c kind sub d []) (j.u32 64) (x.appends (j.changes (sbBits x.super))) c stOk := by
  have hlen := j.changes_length (sbBits x.super)
  have hroom : s.roomForFirst x (j.changes (sbBits x.super)) (j.u32 72) :=
    ⟨by rw [List.take_of_length_le hlen.le]; exact hfits, fun hlt => absurd hlt (by omega)⟩
  have hans := State.jobAtOnce_appends hkind h hj ha hx hok hroom le_rfl
  rwa [if_pos rfl, List.take_of_length_le hlen.le] at hans

theorem State.jobAtOnce_appendsFirst (hok : s.admitAppend j = .inr s) {k : Nat} (hk : k < j.u32 72)
    (hfits : s.fits (x.appends ((j.changes (sbBits x.super)).take k)) (s.stagedItems x.region) 0 = true)
    (hno : s.fits (x.appends ((j.changes (sbBits x.super)).take (k + 1))) (s.stagedItems x.region) 0 = false) :
    s.AnswersAt (s.jobAtOnce c kind sub d []) (j.u32 64) (x.appends ((j.changes (sbBits x.super)).take k)) c stCapacity := by
  have hans := State.jobAtOnce_appends hkind h hj ha hx hok ⟨hfits, fun _ => hno⟩ hk.le
  rwa [if_neg hk.ne] at hans

omit hkind h ha in
/-- The status is Invalid Field where the size, the target, a common check, the owner, the region or the width is wrong. -/
theorem State.admitAppend_invalid {st : Nat} (hbad : s.admitAppend j = .inl st)
    (hfail : j.u32 72 = 0 ∨ 65536 < j.u32 72 ∨ j.target = 2 ∨ s.commonOk j = false ∨ x.squad ≠ n ∨ x.region ≠ j.u16 68 ∨
      j.u16 70 ≠ if kind = 4 then sbBits x.super else 0) : st = stInvalidField := by
  obtain ⟨-, -, hjk, hsquad, -⟩ := State.newJob_spec hj
  refine (State.admitAppend_status hx hbad).1 (State.appendOk_false ?_)
  rw [← hjk] at hfail
  rw [hsquad]
  exact hfail.imp_right (Or.imp_right (Or.imp_right (Or.imp_right (Or.imp_right (Or.imp_right Job.dataOk_false)))))

/-- One that fails a check completes with its status. -/
theorem State.jobAtOnce_appendFails {st : Nat} (hbad : s.admitAppend j = .inl st) :
    s.Answers (s.jobAtOnce c kind sub d []) c st := by
  obtain ⟨hform, -, -⟩ := id ha
  obtain ⟨htag, hc, hjk, -, hpins, hctxs⟩ := State.newJob_spec hj
  have hbare : j.bare := ⟨by omega, hpins, hctxs⟩
  rw [State.jobAtOnce_admits h hj ha, State.admitNow_append (by omega)]
  unfold State.startAppend
  rw [State.admitAppend_withJob hx, hbad, Sum.map_inl]
  exact State.finishJob_answers hform htag hc hbare st

end

end Sys2Proof.Machine
end

section
/-! COMMIT (R271 to R275): its checks, its place in the line of its index, and its record in landing. -/

namespace Sys2Proof.Machine

/-! ## The line of COMMITs of an index (R271) -/

/-- The index with no COMMIT in progress, and these in line. -/
def Index.withLine (x : Index) (l : List Nat) : Index := { x with commit := none, waiting := l }

/-- Blocks of the side log record of what is pending (R271). -/
def Index.recordBlocks (x : Index) : Nat :=
  ceilDiv (recordBytes (sbBits x.super) (resolveChanges x.open_ [] []).1.length (resolveChanges x.open_ [] []).2.length) 4096

/-- That record, cut into landing pieces behind the blocks of the log in use (R183, R271). -/
def Index.recordPieces (x : Index) : List Piece :=
  cutPieces (ceilDiv x.recordBlocks 64) 0 (sbLog x.super + x.logUsed) ((List.range x.recordBlocks).map (fun i =>
    trimZ (sliceZ (logRecord 4 (sbBits x.super) (resolveChanges x.open_ [] []).1
      ((resolveChanges x.open_ [] []).2.map Prod.fst)) (4096 * i) 4096)))

/-- Pieces placed in landing, where the namespace is there. -/
def State.placesIn (s : State) (n : Nat) (ps : List Piece) : Mm × List Piece :=
  match s.mm.namespaces.find n with
  | none => (s.mm, ps)
  | some y => s.mm.placePieces y ps

/-- COMMIT `tag` of what is pending, its record in the landing pieces `ps`. -/
def Index.pendingCommit (x : Index) (tag : Nat) (ps : List Piece) : PendingCommit :=
  { tag := tag, items := (resolveChanges x.open_ [] []).1, tombs := (resolveChanges x.open_ [] []).2, taken := x.open_.length
    pieces := ps, medium := none, newSuper := none, rebase := false, logEnd := x.logUsed + x.recordBlocks }

/-- A commit waits in line: the index could come to more than 1,024 segments, or landing takes nothing more. -/
def State.commitHeld (s : State) (x : Index) : Bool :=
  1024 < x.live.length + ceilDiv (resolveChanges x.open_ [] []).1.length (segCap (sbBits x.super)) || s.mm.landingFull

theorem State.nextCommit_behind {s : State} {n : Nat} {x : Index} (hx : s.idx.find n = some x)
    (h : x.commit.isSome = true ∨ x.waiting = []) : s.nextCommit n = s := by
  unfold State.nextCommit
  simp only [hx]
  split
  next hc hw => simp [hc, hw] at h
  next => rfl

section
variable {s : State} {n tag : Nat} {l : List Nat} {x : Index} {k : Job} (hx : s.idx.find n = some x) (hc : x.commit = none)
  (hw : x.waiting = tag :: l) (hk : s.job tag = some k)
include hx hc hw hk

/-- A COMMIT with the discard flag empties what is pending. -/
theorem State.nextCommit_discards (hflag : bitN (k.u16 70) 0 = true) :
    s.nextCommit n = State.finishJob { s with idx := s.idx.put n { x.withLine l with open_ := [] } } tag stOk := by
  unfold State.nextCommit
  simp only [hx, hc, hw, hk, hflag, if_true]
  rfl

/-- A REBASE whose checks fail ends. -/
theorem State.nextCommit_rebaseFails (hflag : k.u16 70 = 2) (hbad : s.rebaseOk n (k.u64 72) x = false) :
    s.nextCommit n = State.stopJob { s with idx := s.idx.put n (x.withLine l) } tag 0 stInvalidField := by
  have h0 : bitN 2 0 = false := rfl
  have h1 : bitN 2 1 = true := rfl
  unfold State.nextCommit
  simp only [hx, hc, hw, hk, hflag, h0, h1, hbad, Bool.false_eq_true, if_false, Bool.not_false, Bool.and_self, if_true]
  rfl

/-- Any other COMMIT of an index in format 4 ends, waits on, or stands in landing. -/
theorem State.nextCommit_plain (hflag : k.u16 70 = 0) (hfmt : sbFormat x.super = 4) :
    s.nextCommit n =
      if sbLogBlocks x.super - x.logUsed < x.recordBlocks then
        State.stopJob { s with idx := s.idx.put n (x.withLine l) } tag 6 stCapacity
      else if s.commitHeld x then s
      else { s with
        mm := (s.placesIn n x.recordPieces).1
        idx := s.idx.put n { x.withLine l with commit := some (x.pendingCommit tag (s.placesIn n x.recordPieces).2) } } := by
  have h0 : bitN 0 0 = false := rfl
  have h1 : bitN 0 1 = false := rfl
  have h4 : (4 == 3) = false := rfl
  unfold State.nextCommit
  simp only [hx, hc, hw, hk, hflag, h0, h1, h4, hfmt, Bool.false_eq_true, if_false, Bool.false_and, Bool.and_false, Bool.or_false,
    List.nil_append, List.append_nil, List.length_map, decide_eq_true_eq]
  rfl

end

/-! ## The checks of a COMMIT (R255, R271) -/

/-- Every check of a COMMIT on an attached index but for write protection. -/
def State.commitOk (s : State) (j : Job) (x : Index) : Bool :=
  (zerosAt j.desc 80 176 && s.commonOk j && j.target != 2 && j.u16 70 / 4 == 0) && (x.squad == j.squad && x.region == j.u16 68)

/-- The index with a COMMIT more in line. -/
def Index.lined (x : Index) (tag : Nat) : Index := { x with waiting := x.waiting ++ [tag] }

/-- The state with COMMIT `j` last in line of its index. -/
def State.lines (s : State) (j : Job) : State := { s with idx := s.idx.adjust (j.u32 64) (fun x => x.lined j.tag) }

/-- The COMMIT job as it stands in line. -/
def State.waits (s : State) (j : Job) : Job := { s.admitted j with state := .commitWait }

theorem State.admitCommit_attached {s : State} (hform : s.jd.inForm) (c : CmdId) {j : Job} (htag : j.tag = s.jd.nextTag) {x : Index}
    (hx : s.idx.find (j.u32 64) = some x) :
    (s.withJob c j).admitCommit j = if s.commitOk j x then
        (if !bitN (j.u16 70) 0 && s.idxProtected (j.u32 64) then .inl stWriteProtected
          else .inr (((s.lines j).withJob c (s.waits j)).nextCommit (j.u32 64)))
      else .inl stInvalidField := by
  have hattach := State.attachIndex_attached (s := s.withJob c j) hx j.squad (j.u16 68)
  have hcommon : (s.withJob c j).commonOk j = s.commonOk j := rfl
  have hwaits : ((s.withJob c j).admitJob j.tag (s.withJob c j).mm.epoch []).onJob j.tag
      (fun j => { j with state := .commitWait }) = s.withJob c (s.waits j) := by
    rw [State.withJob_admitJob hform c htag]
    exact State.withJob_onJob (j := s.admitted j) hform c htag _
  unfold State.admitCommit State.commitOk
  rw [hattach, hcommon]
  cases zerosAt j.desc 80 176 && s.commonOk j && j.target != 2 && j.u16 70 / 4 == 0
  case false => rfl
  case true =>
    by_cases hown : x.squad = j.squad ∧ x.region = j.u16 68
    · have hline : ∀ u : State, u = s.withJob c (s.waits j) →
          (u.lines j).nextCommit (j.u32 64) = ((s.lines j).withJob c (s.waits j)).nextCommit (j.u32 64) := by
        rintro u rfl
        rfl
      rw [if_pos hown, hown.1, hown.2, beq_self_eq_true, beq_self_eq_true]
      exact congrArg (fun u => if (!bitN (j.u16 70) 0 && s.idxProtected (j.u32 64)) = true then Sum.inl stWriteProtected
        else Sum.inr u) (hline _ hwaits)
    · simp [hown]

/-! ## COMMIT -/

section
variable {s : State} {c : CmdId} {sub : Submit} {n : Nat} {x : Index} {j : Job} (h : s.submits c 6 sub n)
  (hj : j = s.newJob c 6 n sub [] []) (ha : s.admitsAtOnce j) (hx : s.idx.find (j.u32 64) = some x)
include h hj ha hx

theorem State.jobAtOnce_commit : s.jobAtOnce c 6 sub [] [] =
    if s.commitOk j x then
      (if !bitN (j.u16 70) 0 && s.idxProtected (j.u32 64) then (s.withJob c j).finishJob j.tag stWriteProtected
        else ((s.lines j).withJob c (s.waits j)).nextCommit (j.u32 64))
    else (s.withJob c j).finishJob j.tag stInvalidField := by
  obtain ⟨hform, -, -⟩ := id ha
  obtain ⟨htag, -, hkind, -⟩ := State.newJob_spec hj
  rw [State.jobAtOnce_admits h hj ha]
  unfold State.admitNow
  simp only [hkind]
  rw [State.admitCommit_attached hform c htag hx]
  cases s.commitOk j x
  case false => rfl
  case true =>
    cases !bitN (j.u16 70) 0 && s.idxProtected (j.u32 64)
    case false => rfl
    case true => rfl

end

/-- What stands alone in line and is taken out again leaves the index as it was. -/
theorem Index.lined_withLine {x : Index} (hc : x.commit = none) (hw : x.waiting = []) (tag : Nat) :
    (x.lined tag).withLine [] = x := by
  cases x
  cases hc
  cases hw
  rfl

theorem Index.lined_waiting {x : Index} (hw : x.waiting = []) (tag : Nat) : (x.lined tag).waiting = [tag] := by
  unfold Index.lined
  rw [hw]
  rfl

/-- The fetched COMMIT `j` of command `c`, last in line of its index. -/
def State.inLine (s : State) (c : CmdId) (j : Job) : State := (s.lines j).withJob c (s.waits j)

theorem State.inLine_find {s : State} {j : Job} {x : Index} (hx : s.idx.find (j.u32 64) = some x) (c : CmdId) :
    (s.inLine c j).idx.find (j.u32 64) = some (x.lined j.tag) :=
  KMap.find_adjust_self hx (fun x => x.lined j.tag)

/-- An index that the COMMIT in line changes. -/
theorem State.inLine_put (s : State) (c : CmdId) (j : Job) (y : Index) :
    ((s.inLine c j).idx.put (j.u32 64) y).find (j.u32 64) = some y ∧
      ∀ m, m ≠ j.u32 64 → ((s.inLine c j).idx.put (j.u32 64) y).find m = s.idx.find m :=
  ⟨KMap.find_put_self .., fun _ hm => (KMap.find_put_ne _ _ _ _ hm).trans
    (KMap.find_adjust_ne s.idx hm (fun x => x.lined j.tag))⟩

section
variable {s : State} {c : CmdId} {j : Job} (hform : s.jd.inForm) (htag : j.tag = s.jd.nextTag)
include hform htag

theorem State.inLine_job : (s.inLine c j).job j.tag = some (s.waits j) :=
  htag ▸ State.job_withJob (s := s.lines j) (State.job_nextTag hform) c (by exact htag)

variable (hc : j.c = c) (hb : 2 < j.kind ∧ j.search.ctxs = [])
include hc hb

/-- The COMMIT in line makes its index `y` and ends. -/
theorem State.inLine_finishes (y : Index) (st : Nat) :
    State.Answers { s with idx := (s.inLine c j).idx.put (j.u32 64) y }
      (State.finishJob { s.inLine c j with idx := (s.inLine c j).idx.put (j.u32 64) y } j.tag st) c st :=
  State.finishJob_answers (s := { s with idx := (s.inLine c j).idx.put (j.u32 64) y }) (j := s.waits j) hform htag hc
    ⟨hb.1, rfl, hb.2⟩ st

theorem State.inLine_stops (y : Index) (stop st : Nat) :
    State.Answers { s with idx := (s.inLine c j).idx.put (j.u32 64) y }
      (State.stopJob { s.inLine c j with idx := (s.inLine c j).idx.put (j.u32 64) y } j.tag stop st) c st :=
  State.stopJob_answers (s := { s with idx := (s.inLine c j).idx.put (j.u32 64) y }) (j := s.waits j) hform htag hc
    ⟨hb.1, rfl, hb.2⟩ stop st

end

section
variable {s : State} {c : CmdId} {sub : Submit} {n : Nat} {x : Index} {j : Job} (h : s.submits c 6 sub n)
  (hj : j = s.newJob c 6 n sub [] []) (ha : s.admitsAtOnce j) (hx : s.idx.find (j.u32 64) = some x)
include h hj ha hx

/-- A COMMIT that fails its checks, or on a namespace that is write protected, completes with its status. -/
theorem State.jobAtOnce_commitFails {st : Nat} (hst : st = stInvalidField ∧ s.commitOk j x = false ∨ st = stWriteProtected ∧
    s.commitOk j x = true ∧ bitN (j.u16 70) 0 = false ∧ s.idxProtected (j.u32 64) = true) :
    s.Answers (s.jobAtOnce c 6 sub [] []) c st := by
  obtain ⟨hform, -, -⟩ := id ha
  obtain ⟨htag, hc, hkind, -, hpins, hctxs⟩ := State.newJob_spec hj
  rw [State.jobAtOnce_commit h hj ha hx]
  rcases hst with ⟨rfl, hok⟩ | ⟨rfl, hok, hkeep, hprot⟩
  · rw [if_neg (by simp [hok])]
    exact State.finishJob_answers hform htag hc ⟨by omega, hpins, hctxs⟩ _
  · rw [if_pos hok, if_pos (by simp [hkeep, hprot])]
    exact State.finishJob_answers hform htag hc ⟨by omega, hpins, hctxs⟩ _

variable (hok : s.commitOk j x = true) (hprot : bitN (j.u16 70) 0 = true ∨ s.idxProtected (j.u32 64) = false)
include hok hprot

theorem State.jobAtOnce_commitLines : s.jobAtOnce c 6 sub [] [] = (s.inLine c j).nextCommit (j.u32 64) := by
  rw [State.jobAtOnce_commit h hj ha hx, if_pos hok, if_neg (by rcases hprot with hp | hp <;> simp [hp])]
  rfl

/-- Behind another COMMIT, the job waits in line. -/
theorem State.jobAtOnce_commitBehind (hc : x.commit.isSome = true) : s.jobAtOnce c 6 sub [] [] = s.inLine c j :=
  (State.jobAtOnce_commitLines h hj ha hx hok hprot).trans (State.nextCommit_behind (State.inLine_find hx c) (Or.inl hc))

section
variable (hcommit : x.commit = none) (hwaiting : x.waiting = [])
include hcommit hwaiting

/-- A COMMIT with the discard flag empties what is pending, and completes. -/
theorem State.jobAtOnce_commitDiscards (hflag : bitN (j.u16 70) 0 = true) :
    s.AnswersAt (s.jobAtOnce c 6 sub [] []) (j.u32 64) { x with open_ := [] } c stOk := by
  obtain ⟨hform, -, -⟩ := id ha
  obtain ⟨htag, hc, hkind, -, -, hctxs⟩ := State.newJob_spec hj
  obtain ⟨hself, hothers⟩ := s.inLine_put c j { x with open_ := [] }
  refine State.Answers.onIndex ?_ hself hothers
  rw [State.jobAtOnce_commitLines h hj ha hx hok hprot, State.nextCommit_discards (State.inLine_find hx c) hcommit
    (Index.lined_waiting hwaiting _) (State.inLine_job hform htag) hflag, Index.lined_withLine hcommit hwaiting]
  exact State.inLine_finishes hform htag hc ⟨by omega, hctxs⟩ _ _

/-- A REBASE whose checks fail completes with Invalid Field, and keeps what is pending. -/
theorem State.jobAtOnce_rebaseFails (hflag : j.u16 70 = 2) (hbad : s.rebaseOk (j.u32 64) (j.u64 72) x = false) :
    s.AnswersAt (s.jobAtOnce c 6 sub [] []) (j.u32 64) x c stInvalidField := by
  obtain ⟨hform, -, -⟩ := id ha
  obtain ⟨htag, hc, hkind, -, -, hctxs⟩ := State.newJob_spec hj
  obtain ⟨hself, hothers⟩ := s.inLine_put c j x
  have hbad' : (s.inLine c j).rebaseOk (j.u32 64) ((s.waits j).u64 72) (x.lined j.tag) = false := hbad
  refine State.Answers.onIndex ?_ hself hothers
  rw [State.jobAtOnce_commitLines h hj ha hx hok hprot, State.nextCommit_rebaseFails (State.inLine_find hx c) hcommit
    (Index.lined_waiting hwaiting _) (State.inLine_job hform htag) hflag hbad', Index.lined_withLine hcommit hwaiting]
  exact State.inLine_stops hform htag hc ⟨by omega, hctxs⟩ _ _ _

section
variable (hflag : j.u16 70 = 0) (hfmt : sbFormat x.super = 4)
include hflag hfmt

theorem State.jobAtOnce_commitPlain : s.jobAtOnce c 6 sub [] [] =
    if sbLogBlocks x.super - x.logUsed < x.recordBlocks then
      State.stopJob { s.inLine c j with idx := (s.inLine c j).idx.put (j.u32 64) x } j.tag 6 stCapacity
    else if s.commitHeld x then s.inLine c j
    else { s.inLine c j with
      mm := (s.placesIn (j.u32 64) x.recordPieces).1
      idx := (s.inLine c j).idx.put (j.u32 64)
        { x with commit := some (x.pendingCommit j.tag (s.placesIn (j.u32 64) x.recordPieces).2) } } := by
  obtain ⟨hform, -, -⟩ := id ha
  obtain ⟨htag, -⟩ := State.newJob_spec hj
  rw [State.jobAtOnce_commitLines h hj ha hx hok hprot, State.nextCommit_plain (State.inLine_find hx c) hcommit
    (Index.lined_waiting hwaiting _) (State.inLine_job hform htag) hflag hfmt, Index.lined_withLine hcommit hwaiting]
  rfl

/-- A record that fits is cut into pieces, placed in landing, and waits for the medium. -/
theorem State.jobAtOnce_commitPlaces (hroom : x.recordBlocks ≤ sbLogBlocks x.super - x.logUsed) (hfree : s.commitHeld x = false)
    {y : Namespace} (hns : s.mm.namespaces.find (j.u32 64) = some y) :
    s.jobAtOnce c 6 sub [] [] = { s.inLine c j with
      mm := (s.mm.placePieces y x.recordPieces).1
      idx := (s.inLine c j).idx.put (j.u32 64)
        { x with commit := some (x.pendingCommit s.jd.nextTag (s.mm.placePieces y x.recordPieces).2) } } := by
  have hplaces : s.placesIn (j.u32 64) x.recordPieces = s.mm.placePieces y x.recordPieces := by
    unfold State.placesIn
    rw [hns]
  obtain ⟨htag, -⟩ := State.newJob_spec hj
  rw [State.jobAtOnce_commitPlain h hj ha hx hok hprot hcommit hwaiting hflag hfmt, if_neg (Nat.not_lt.mpr hroom),
    if_neg (by simp [hfree]), hplaces, htag]

/-- A record that does not fit the side log ends its COMMIT, which keeps what is pending. -/
theorem State.jobAtOnce_commitNoRoom (hroom : sbLogBlocks x.super - x.logUsed < x.recordBlocks) :
    s.AnswersAt (s.jobAtOnce c 6 sub [] []) (j.u32 64) x c stCapacity := by
  obtain ⟨hform, -, -⟩ := id ha
  obtain ⟨htag, hc, hkind, -, -, hctxs⟩ := State.newJob_spec hj
  obtain ⟨hself, hothers⟩ := s.inLine_put c j x
  refine State.Answers.onIndex ?_ hself hothers
  rw [State.jobAtOnce_commitPlain h hj ha hx hok hprot hcommit hwaiting hflag hfmt, if_pos hroom]
  exact State.inLine_stops hform htag hc ⟨by omega, hctxs⟩ _ _ _

end

end

/-- A COMMIT waits in line behind another, or while landing or the segments hold it. -/
theorem State.jobAtOnce_commitWaits (hflag : j.u16 70 = 0) (hfmt : sbFormat x.super = 4) (hwait : x.commit.isSome = true ∨
    x.waiting = [] ∧ x.recordBlocks ≤ sbLogBlocks x.super - x.logUsed ∧ s.commitHeld x = true) :
    s.jobAtOnce c 6 sub [] [] = s.inLine c j := by
  cases hc : x.commit with
  | some k => exact State.jobAtOnce_commitBehind h hj ha hx hok hprot (by rw [hc]; rfl)
  | none =>
    rw [hc] at hwait
    obtain ⟨hw, hroom, hheld⟩ := hwait.resolve_left Bool.false_ne_true
    rw [State.jobAtOnce_commitPlain h hj ha hx hok hprot hc hw hflag hfmt, if_neg (Nat.not_lt.mpr hroom), if_pos hheld]

end

theorem State.commitOk_iff {s : State} {j : Job} {x : Index} {n : Nat} (hsquad : j.squad = n) : s.commitOk j x = true ↔
    zerosAt j.desc 80 176 = true ∧ s.commonOk j = true ∧ j.target ≠ 2 ∧ j.u16 70 < 4 ∧ x.squad = n ∧ x.region = j.u16 68 := by
  have hflag : j.u16 70 / 4 = 0 ↔ j.u16 70 < 4 := by omega
  simp only [State.commitOk, hsquad, Bool.and_eq_true, bne_iff_ne, ne_eq, beq_iff_eq, hflag, and_assoc]

/-- The checks that a COMMIT on its own index passes. -/
theorem State.commitOk_true {s : State} {j : Job} {x : Index} {n : Nat} (hsquad : j.squad = n) (hown : x.squad = n ∧ x.region = j.u16 68)
    (hform : zerosAt j.desc 80 176 = true ∧ s.commonOk j = true ∧ j.target ≠ 2) (hflag : j.u16 70 < 4) : s.commitOk j x = true :=
  (State.commitOk_iff hsquad).mpr ⟨hform.1, hform.2.1, hform.2.2, hflag, hown⟩

theorem State.idxProtected_false {s : State} {n : Nat} (h : ∀ y, s.mm.namespaces.find n = some y → y.readOnly = false) :
    s.idxProtected n = false := by
  unfold State.idxProtected
  cases hy : s.mm.namespaces.find n with
  | none => rfl
  | some y => exact h y hy

/-- A COMMIT that a check stops completes with its status, and its index stays. -/
theorem State.jobAtOnce_commitRefuses {s : State} {c : CmdId} {sub : Submit} {n st : Nat} {x : Index} {j : Job}
    (h : s.submits c 6 sub n) (hj : j = s.newJob c 6 n sub [] []) (ha : s.admitsAtOnce j) (hx : s.idx.find (j.u32 64) = some x)
    (hcommit : x.commit = none) (hwaiting : x.waiting = [])
    (hst : (st = stInvalidField ∧ (zerosAt j.desc 80 176 = false ∨ s.commonOk j = false ∨ j.target = 2 ∨ 4 ≤ j.u16 70 ∨
        x.squad ≠ n ∨ x.region ≠ j.u16 68 ∨ j.u16 70 = 2 ∧ s.rebaseOk (j.u32 64) (j.u64 72) x = false ∧
          ∀ y, s.mm.namespaces.find (j.u32 64) = some y → y.readOnly = false) ∨
      st = stWriteProtected ∧ zerosAt j.desc 80 176 = true ∧ s.commonOk j = true ∧ j.target ≠ 2 ∧ (j.u16 70 = 0 ∨ j.u16 70 = 2) ∧
        x.squad = n ∧ x.region = j.u16 68 ∧ (s.mm.namespaces.find (j.u32 64)).map Namespace.readOnly = some true)) :
    s.AnswersAt (s.jobAtOnce c 6 sub [] []) (j.u32 64) x c st := by
  obtain ⟨-, -, -, hsquad, -⟩ := State.newJob_spec hj
  have hfails : s.Answers (s.jobAtOnce c 6 sub [] []) c st → s.AnswersAt (s.jobAtOnce c 6 sub [] []) (j.u32 64) x c st :=
    fun hans => State.Answers.onIndex (i := s.idx) hans hx fun _ _ => rfl
  rcases hst with ⟨rfl, hbad⟩ | ⟨rfl, hzero, hcommon, htarget, hflag, hown, hregion, hprot⟩
  · cases hok : s.commitOk j x with
    | false => exact hfails (State.jobAtOnce_commitFails h hj ha hx (Or.inl ⟨rfl, hok⟩))
    | true =>
      obtain ⟨hzero, hcommon, htarget, hsize, hown, hregion⟩ := (State.commitOk_iff hsquad).mp hok
      obtain ⟨hflag, hbase, hwrite⟩ : j.u16 70 = 2 ∧ s.rebaseOk (j.u32 64) (j.u64 72) x = false ∧
          ∀ y, s.mm.namespaces.find (j.u32 64) = some y → y.readOnly = false := by
        simpa only [hzero, hcommon, htarget, Nat.not_le.mpr hsize, hown, hregion, ne_eq, not_true_eq_false, Bool.true_eq_false,
          false_or] using hbad
      exact State.jobAtOnce_rebaseFails h hj ha hx hok (Or.inr (State.idxProtected_false hwrite)) hcommit hwaiting hflag hbase
  · have hok := State.commitOk_true (s := s) hsquad ⟨hown, hregion⟩ ⟨hzero, hcommon, htarget⟩ (by omega)
    have hkeep : bitN (j.u16 70) 0 = false := by rcases hflag with hf | hf <;> rw [hf] <;> rfl
    have hwrites : s.idxProtected (j.u32 64) = true := by
      unfold State.idxProtected
      rw [hprot]
      rfl
    exact hfails (State.jobAtOnce_commitFails h hj ha hx (Or.inr ⟨rfl, hok, hkeep, hwrites⟩))

/-- What stands of a COMMIT in line. -/
theorem State.inLine_spec {s : State} {j : Job} {x : Index} (hform : s.jd.inForm) (htag : j.tag = s.jd.nextTag)
    (hx : s.idx.find (j.u32 64) = some x) (c : CmdId) :
    (s.inLine c j).idx.find (j.u32 64) = some (x.lined s.jd.nextTag) ∧ (s.inLine c j).job s.jd.nextTag = some (s.waits j) ∧
      c ∈ (s.inLine c j).qe.fetched ∧ (s.inLine c j).mm = s.mm ∧ (s.inLine c j).rl = s.rl ∧ (s.inLine c j).tiles = s.tiles := by
  rw [← htag]
  exact ⟨State.inLine_find hx c, State.inLine_job hform htag, State.mem_fetch (s.lines j) c, rfl, rfl, rfl⟩

end Sys2Proof.Machine
end

section
/-! COMMIT_TAKE_EFFECT (R271, R273, R275, R412): what a commit that takes effect leaves of its index, and the statement about the
changes of an index. -/

namespace Sys2Proof.Machine

/-! ## What sealing and retiring leave of an index (R269, R274) -/

/-- Index `n` becomes one that stands to it as `R` says; tiles and objects may change, and the rest stays. -/
structure State.Evolves (R : Index → Index → Prop) (n : Nat) (s t : State) : Prop where
  frame : t = { s with rl := t.rl, idx := t.idx, tiles := t.tiles }
  index : ∀ x, s.idx.find n = some x → ∃ y, t.idx.find n = some y ∧ R x y

/-- Only segments change. -/
def Index.segmentsChange (x y : Index) : Prop := y = { x with segments := y.segments, nextSeg := y.nextSeg }

/-- Only segments are added, above those numbered already. -/
def Index.sealsOn (x y : Index) : Prop :=
  x.segmentsChange y ∧ x.nextSeg ≤ y.nextSeg ∧ ∀ g, g < x.nextSeg → y.segments.find g = x.segments.find g

theorem Index.segmentsChange_refl (x : Index) : x.segmentsChange x := rfl

theorem Index.segmentsChange_trans (x y z : Index) (h : x.segmentsChange y) (h' : y.segmentsChange z) : x.segmentsChange z := by
  unfold Index.segmentsChange at *
  rw [h']
  rw [h]

theorem Index.sealsOn_refl (x : Index) : x.sealsOn x := ⟨rfl, le_rfl, fun _ _ => rfl⟩

theorem Index.sealsOn_trans (x y z : Index) (h : x.sealsOn y) (h' : y.sealsOn z) : x.sealsOn z := by
  obtain ⟨hsame, hle, hseg⟩ := h
  obtain ⟨hsame', hle', hseg'⟩ := h'
  exact ⟨Index.segmentsChange_trans x y z hsame hsame', hle.trans hle', fun g hg => (hseg' g (by omega)).trans (hseg g hg)⟩

section
variable {R : Index → Index → Prop} {n : Nat} {s t u : State}

theorem State.Evolves.of_idx (hR : ∀ x, R x x) (h : t = { s with rl := t.rl, tiles := t.tiles }) : State.Evolves R n s t :=
  ⟨by rw [h], fun x hx => ⟨x, by rw [h]; exact hx, hR x⟩⟩

theorem State.Evolves.trans (hR : ∀ x y z, R x y → R y z → R x z) (h : State.Evolves R n s t) (h' : State.Evolves R n t u) :
    State.Evolves R n s u := by
  obtain ⟨hframe, hindex⟩ := h
  obtain ⟨hframe', hindex'⟩ := h'
  refine ⟨by rw [hframe', hframe], fun x hx => ?_⟩
  obtain ⟨y, hy, hxy⟩ := hindex x hx
  obtain ⟨z, hz, hyz⟩ := hindex' y hy
  exact ⟨z, hz, hR x y z hxy hyz⟩

theorem State.Evolves.keeps (h : State.Evolves R n s t) : t.jd = s.jd ∧ t.qe = s.qe := by
  rw [h.frame]
  exact ⟨rfl, rfl⟩

theorem State.Evolves.mono {Q : Index → Index → Prop} (hRQ : ∀ x y, R x y → Q x y) (h : State.Evolves R n s t) :
    State.Evolves Q n s t :=
  ⟨h.frame, fun x hx => (h.index x hx).imp fun y hy => ⟨hy.1, hRQ x y hy.2⟩⟩

theorem State.Evolves.foldl (hR : ∀ x, R x x) (hR' : ∀ x y z, R x y → R y z → R x z) {α : Type} {f : State → α → State}
    (hf : ∀ s a, State.Evolves R n s (f s a)) (l : List α) (s : State) : State.Evolves R n s (l.foldl f s) :=
  kept_foldl (P := State.Evolves R n s) (fun t a ht => ht.trans hR' (hf t a)) (State.Evolves.of_idx hR rfl)

end

/-- One segment is added, at the next number. -/
theorem State.sealOne_evolves (s : State) (n : Nat) (is : List SideItem) : State.Evolves Index.sealsOn n s (s.sealOne n is) := by
  unfold State.sealOne
  split
  · exact State.Evolves.of_idx Index.sealsOn_refl rfl
  next x hx =>
    split
    · exact State.Evolves.of_idx Index.sealsOn_refl rfl
    next a ha =>
      refine ⟨rfl, fun x' hx' => ?_⟩
      obtain rfl : x = x' := Option.some.inj (hx.symm.trans hx')
      exact ⟨_, KMap.find_put_self .., rfl, Nat.le_succ _, fun g hg => KMap.find_put_ne _ _ _ _ (by omega)⟩

theorem State.seal_evolves (s : State) (n cap f : Nat) (is : List SideItem) :
    State.Evolves Index.sealsOn n s (s.seal n cap f is) := by
  induction f generalizing s is with
  | zero => exact State.Evolves.of_idx Index.sealsOn_refl rfl
  | succ f ih =>
    unfold State.seal
    split
    · exact State.Evolves.of_idx Index.sealsOn_refl rfl
    · exact (s.sealOne_evolves n _).trans Index.sealsOn_trans (ih _ _)

theorem State.retireSegment_evolves (s : State) (n g : Nat) : State.Evolves Index.segmentsChange n s (s.retireSegment n g) := by
  unfold State.retireSegment
  split
  · exact State.Evolves.of_idx Index.segmentsChange_refl rfl
  next x hx =>
    split
    · exact State.Evolves.of_idx Index.segmentsChange_refl rfl
    next v hv =>
      have hself : ∀ x', s.idx.find n = some x' → x = x' := fun x' hx' => Option.some.inj (hx.symm.trans hx')
      dsimp only
      split
      · refine ⟨rfl, fun x' hx' => ?_⟩
        obtain rfl := hself x' hx'
        exact ⟨_, KMap.find_put_self .., rfl⟩
      · refine ⟨rfl, fun x' hx' => ?_⟩
        obtain rfl := hself x' hx'
        exact ⟨_, KMap.find_put_self .., rfl⟩

theorem State.writeDead_evolves {R : Index → Index → Prop} (hR : ∀ x, R x x) (s : State) (n squad : Nat) :
    State.Evolves R n s (s.writeDead squad) := by
  refine State.Evolves.of_idx hR ?_
  unfold State.writeDead
  dsimp only
  split
  · rfl
  · exact kept_foldl (P := fun t : State => t = { s with rl := t.rl, tiles := t.tiles }) (fun t a ht => by rw [ht]; rfl) rfl

theorem State.homeCode_evolves {R : Index → Index → Prop} (hR : ∀ x, R x x) (s : State) (n : Nat) (b : List Byte) :
    State.Evolves R n s (s.homeCode n b) := by
  refine State.Evolves.of_idx hR ?_
  unfold State.homeCode
  repeat' split
  all_goals rfl

theorem State.syncTables_evolves {R : Index → Index → Prop} (hR : ∀ x, R x x) (s : State) (n : Nat) :
    State.Evolves R n s (s.syncTables n) := by
  refine State.Evolves.of_idx hR ?_
  unfold State.syncTables
  split <;> rfl

/-- Segments written into the region. -/
theorem State.syncSegments_evolves (s : State) (n : Nat) (x : Index) (l : KMap Segment) : State.Evolves Index.sealsOn n s
    (l.foldl (fun s g => if (x.segments.find g.1) = some g.2 then s else s.syncSegment x.super g.2) s) :=
  State.Evolves.foldl Index.sealsOn_refl Index.sealsOn_trans (fun t g => by
    refine State.Evolves.of_idx Index.sealsOn_refl ?_
    split <;> rfl) l s

/-! ## A commit that takes effect (R271) -/

/-- A job that ends leaves JD, and its command completes; the indexes stay. -/
theorem State.finishJob_dwords {s : State} {tag : Nat} {j : Job} (h : s.job tag = some j) (hkind : 2 < j.kind)
    (hc : j.c ∈ s.qe.fetched) (st dw0 dw1 : Nat) :
    Completed (s.finishJob tag st dw0 dw1) j.c st dw0 dw1 [] ∧ (s.finishJob tag st dw0 dw1).job tag = none ∧
      (s.finishJob tag st dw0 dw1).idx = s.idx := by
  have hagg := State.writeAgg_none hkind s
  have heq : s.finishJob tag st dw0 dw1 = ((s.released j).withoutJob tag ((s.released j).jobRecord j st) j.squad st).complete j.c st
      (dw0 + j.malformedBit) dw1 := by
    unfold State.finishJob
    simp only [h, hagg, Option.getD_some]
    rfl
  obtain ⟨hjd, hqe, -, hidx⟩ := State.jobView_eq (s.released_jobView j)
  generalize hw : State.withoutJob _ _ _ _ _ = w at heq
  obtain ⟨hqe', -, hidx', hgone⟩ := hw ▸ State.withoutJob_spec ..
  rw [heq, Job.malformedBit_none hkind]
  exact ⟨State.complete_completed _ _ _ _ _ _ (by rw [hqe', hqe]; exact hc), hgone, hidx'.trans hidx⟩

/-- The COMMIT job once it has taken effect at epoch `c`, with `m` tombstones that found nothing. -/
def Job.takesEffect (c m : Nat) (j : Job) : Job :=
  { j with stop := none, search := { j.search with epoch := some c, notFound := m } }

/-- What follows the change of the index: the COMMIT completes with the epoch, and the next in line may go on. -/
def State.commitDone (s : State) (n tag c m : Nat) : State :=
  ((s.onJob tag (Job.takesEffect c m)).finishJob tag stOk (c % 2 ^ 32) (c / 2 ^ 32)).nextCommit n

theorem State.commitDone_spec {s : State} {n tag : Nat} {j : Job} {y : Index} (hj : s.job tag = some j) (hkind : j.kind = 6)
    (hc : j.c ∈ s.qe.fetched) (hy : s.idx.find n = some y) (hw : y.waiting = []) (c m : Nat) :
    Completed (s.commitDone n tag c m) j.c stOk (c % 2 ^ 32) (c / 2 ^ 32) [] ∧ (s.commitDone n tag c m).job tag = none ∧
      (s.commitDone n tag c m).idx = s.idx := by
  have hjob := State.job_onJob hj (Job.takesEffect c m)
  obtain ⟨hdone, hgone, hidx⟩ := State.finishJob_dwords hjob (by change 2 < j.kind; omega) (by exact hc) stOk (c % 2 ^ 32) (c / 2 ^ 32)
  have hlast := State.nextCommit_behind (n := n) (x := y) (by rw [hidx]; exact hy) (Or.inr hw)
  unfold State.commitDone
  rw [hlast]
  exact ⟨hdone, hgone, hidx⟩

/-- The index of a commit that takes effect, before the items of the commit are sealed. -/
def State.committed (s : State) (x : Index) (k : PendingCommit) (c : Nat) (super : List Byte) (slot : Nat) : Index :=
  { x with
    segments := x.segments.mapVals (fun _ g => { g with items := g.items.map (killItem (k.tombs.map Prod.fst) c) })
    open_ := x.open_.drop k.taken
    dead := x.dead ++ (s.newDead x x.super (k.tombs.map Prod.fst)).map (fun l => (l, c))
    tombs := x.tombs ++ (k.tombs.map Prod.fst).map (fun t => (t.toNat, c))
    logUsed := k.logEnd, commit := none, super := super, slot := slot }

theorem KMap.find_mapVals {α : Type} (m : KMap α) (f : Nat → α → α) (n : Nat) : (m.mapVals f).find n = (m.find n).map (f n) := by
  induction m with
  | nil => rfl
  | cons e m ih =>
    obtain ⟨k, v⟩ := e
    change KMap.find ((k, f k v) :: KMap.mapVals m f) n = _
    rw [KMap.find_cons, KMap.find_cons, ih]
    split
    next hk => rw [hk]; rfl
    next => rfl

/-- What the tombstones of a commit leave of a segment. -/
theorem State.committed_find (s : State) (x : Index) (k : PendingCommit) (c : Nat) (super : List Byte) (slot g : Nat) :
    (s.committed x k c super slot).segments.find g = (x.segments.find g).map (fun v : Segment =>
      { v with items := v.items.map (killItem (k.tombs.map Prod.fst) c) }) :=
  KMap.find_mapVals x.segments (fun _ v => { v with items := v.items.map (killItem (k.tombs.map Prod.fst) c) }) g

/-- The bytes of the segments that the tombstones changed are written. -/
def State.killsIn (s : State) (n : Nat) (x y : Index) : State :=
  y.segments.foldl (fun s g => if (x.segments.find g.1) = some g.2 then s else s.syncSegment x.super g.2)
    { s with idx := s.idx.put n y }

theorem State.applyCommit_plain {k : PendingCommit} (hr : k.rebase = false) (s : State) (n : Nat) (x : Index) (c : Nat) :
    ∃ m, s.applyCommit n x k c =
      ((((s.killsIn n x (s.committed x k c ((k.newSuper.map Prod.fst).getD x.super) ((k.newSuper.map Prod.snd).getD x.slot))).seal n
        (segCap (sbBits x.super)) (k.items.map (fun i => { i with commit := some c })).length
        (k.items.map (fun i => { i with commit := some c }))).writeDead x.squad).commitDone n k.tag c m) := by
  refine ⟨(k.tombs.filter (s.missed x)).length, ?_⟩
  unfold State.applyCommit
  rw [hr]
  cases hn : k.newSuper with
  | none => rfl
  | some b => rfl

theorem State.applyCommit_rebase {k : PendingCommit} (hr : k.rebase = true) {b : List Byte} {o : Nat} (hn : k.newSuper = some (b, o))
    (s : State) (n : Nat) (x : Index) (c : Nat) :
    ∃ m, s.applyCommit n x k c =
      ((((s.killsIn n x (s.committed x k c x.super x.slot)).rebase n b o k.tab.1
        (k.items.map (fun i => { i with commit := some c }))).writeDead x.squad).commitDone n k.tag c m) := by
  refine ⟨(k.tombs.filter (s.missed x)).length, ?_⟩
  unfold State.applyCommit
  rw [hr, hn]
  rfl

theorem State.killsIn_evolves (s : State) (n : Nat) (x y : Index) :
    State.Evolves Index.sealsOn n { s with idx := s.idx.put n y } (s.killsIn n x y) :=
  State.syncSegments_evolves _ n x y.segments

/-- A job of no SEARCH stays as it is where the running jobs keep the dead entries of a base. -/
theorem State.keepDead_job {s : State} {tag : Nat} {j : Job} (h : s.job tag = some j) (hkind : j.kind ≠ 3) (n : Nat)
    (dead : List (Nat × Nat)) : (s.keepDead n dead).job tag = some j := by
  unfold State.job State.keepDead at *
  dsimp only
  rw [List.find?_map]
  have htag : (fun j : Job => j.tag == tag) ∘ (fun j => if j.kind == 3 && j.u32 64 == n && j.search.tab.2 != 0 &&
      j.search.dead.isNone then { j with search := { j.search with dead := some dead } } else j) = fun j => j.tag == tag := by
    funext j
    simp only [Function.comp_apply]
    split <;> rfl
  rw [htag, h, Option.map_some, beq_eq_false_iff_ne.mpr hkind]
  rfl

/-- The index on a new base: superblock, slot and tables are the new ones, and what is pending and in line stays. -/
def Index.rebasesTo (b : List Byte) (o tab : Nat) (x y : Index) : Prop :=
  y = { x with
    super := b, slot := o, tab := tab, lists := y.lists, segments := y.segments, nextSeg := y.nextSeg
    deadMask := y.deadMask, dead := y.dead, tombs := y.tombs }

theorem State.rebase_spec {s : State} {n : Nat} {x : Index} (hx : s.idx.find n = some x) (b : List Byte) (o tab : Nat)
    (is : List SideItem) :
    State.Evolves (Index.rebasesTo b o tab) n (s.keepDead n x.dead) (s.rebase n b o tab is) := by
  unfold State.rebase
  simp only [hx]
  have hretired := State.Evolves.foldl (n := n) Index.segmentsChange_refl Index.segmentsChange_trans
    (f := fun s g => s.retireSegment n g.1) (fun s g => s.retireSegment_evolves n g.1) x.live (s.keepDead n x.dead)
  generalize x.live.foldl _ _ = u at hretired ⊢
  obtain ⟨hframe, hindex⟩ := hretired
  obtain ⟨y, hy, hxy⟩ := hindex x hx
  generalize hg : (fun y : Index => { y with
    super := b, slot := o, lists := s.readTable n b, tab := tab
    deadMask := (s.rebaseDead b (x.tombs.filter (fun t => sbBase b < t.2))).1
    dead := (s.rebaseDead b (x.tombs.filter (fun t => sbBase b < t.2))).2
    tombs := x.tombs.filter (fun t => sbBase b < t.2) }) = g
  have hsealed : ∀ (t : State) (cap : Nat) (is : List SideItem),
      State.Evolves Index.segmentsChange n t ((((t.homeCode n b)).seal n cap is.length is).syncTables n) := fun t cap is =>
    ((State.homeCode_evolves Index.segmentsChange_refl t n b).trans Index.segmentsChange_trans
      ((State.seal_evolves _ n cap _ is).mono (Q := Index.segmentsChange) fun _ _ h => h.1)).trans Index.segmentsChange_trans
      (State.syncTables_evolves Index.segmentsChange_refl _ n)
  obtain ⟨hframe', hindex'⟩ := hsealed { u with idx := u.idx.adjust n g } (segCap (sbBits b)) (keptItems x (sbBase b) ++ is)
  refine ⟨?_, fun x' hx' => ?_⟩
  · exact hframe'.trans (by rw [hframe])
  · obtain rfl : x = x' := Option.some.inj (hx.symm.trans hx')
    obtain ⟨z, hz, hyz⟩ := hindex' (g y) (KMap.find_adjust_self hy g)
    refine ⟨z, hz, ?_⟩
    subst hg
    unfold Index.segmentsChange at hxy hyz
    unfold Index.rebasesTo
    rw [hyz, hxy]

section
variable {s : State} {n : Nat} {x : Index} {k : PendingCommit}

/-- A commit without a new base adds its items in new segments, and completes. -/
theorem State.applyCommit_plain_spec (hr : k.rebase = false) (hw : x.waiting = []) {j : Job} (hj : s.job k.tag = some j)
    (hkind : j.kind = 6) (hc : j.c ∈ s.qe.fetched) (c : Nat) :
    Completed (s.applyCommit n x k c) j.c stOk (c % 2 ^ 32) (c / 2 ^ 32) [] ∧ (s.applyCommit n x k c).job k.tag = none ∧
      ∃ y, (s.applyCommit n x k c).idx.find n = some y ∧
        (s.committed x k c ((k.newSuper.map Prod.fst).getD x.super) ((k.newSuper.map Prod.snd).getD x.slot)).sealsOn y := by
  obtain ⟨m, heq⟩ := State.applyCommit_plain hr s n x c
  rw [heq]
  generalize hx1 : s.committed x k c _ _ = x1
  have hw1 : x1.waiting = [] := by
    rw [← hx1]
    exact hw
  have hu := ((s.killsIn_evolves n x x1).trans Index.sealsOn_trans (State.seal_evolves _ n (segCap (sbBits x.super))
    (k.items.map (fun i => { i with commit := some c })).length (k.items.map (fun i => { i with commit := some c })))).trans
    Index.sealsOn_trans (State.writeDead_evolves Index.sealsOn_refl _ n x.squad)
  generalize State.writeDead _ _ = u at hu ⊢
  obtain ⟨hjd, hqe⟩ := hu.keeps
  obtain ⟨y, hy, hseal⟩ := hu.index x1 (KMap.find_put_self ..)
  have hwy : y.waiting = [] := by
    rw [hseal.1]
    exact hw1
  obtain ⟨hdone, hgone, hidx⟩ := State.commitDone_spec ((State.job_congr hjd _).trans hj) hkind (hqe ▸ hc) hy hwy c m
  exact ⟨hdone, hgone, y, by rw [hidx]; exact hy, hseal⟩

/-- A REBASE switches its index to the new base, and completes. -/
theorem State.applyCommit_rebase_spec (hr : k.rebase = true) {b : List Byte} {o : Nat} (hn : k.newSuper = some (b, o))
    (hw : x.waiting = []) {j : Job} (hj : s.job k.tag = some j) (hkind : j.kind = 6) (hc : j.c ∈ s.qe.fetched) (c : Nat) :
    Completed (s.applyCommit n x k c) j.c stOk (c % 2 ^ 32) (c / 2 ^ 32) [] ∧ (s.applyCommit n x k c).job k.tag = none ∧
      ∃ y, (s.applyCommit n x k c).idx.find n = some y ∧
        Index.rebasesTo b o k.tab.1 (s.committed x k c x.super x.slot) y := by
  obtain ⟨m, heq⟩ := State.applyCommit_rebase hr hn s n x c
  rw [heq]
  generalize hx1 : s.committed x k c _ _ = x1
  have hw1 : x1.waiting = [] := by
    rw [← hx1]
    exact hw
  have hkills := s.killsIn_evolves n x x1
  obtain ⟨hjd, hqe⟩ := hkills.keeps
  obtain ⟨z, hz, hseal⟩ := hkills.index x1 (KMap.find_put_self ..)
  have hrebase := State.rebase_spec hz b o k.tab.1 (k.items.map (fun i => { i with commit := some c }))
  obtain ⟨hjd', hqe'⟩ := hrebase.keeps
  obtain ⟨y, hy, hbase⟩ := hrebase.index z hz
  have hwrite := State.writeDead_evolves (R := Eq) (fun _ => rfl) ((s.killsIn n x x1).rebase n b o k.tab.1
    (k.items.map (fun i => { i with commit := some c }))) n x.squad
  generalize State.writeDead _ _ = u at hwrite ⊢
  obtain ⟨hjd'', hqe''⟩ := hwrite.keeps
  obtain ⟨_, hy', rfl⟩ := hwrite.index y hy
  have hbase1 : Index.rebasesTo b o k.tab.1 x1 y := by
    have hsame := hseal.1
    unfold Index.rebasesTo Index.segmentsChange at *
    rw [hbase, hsame]
  have hju : u.job k.tag = some j := by
    rw [State.job_congr (hjd''.trans hjd')]
    exact State.keepDead_job ((State.job_congr hjd _).trans hj) (by omega) _ _
  have hwy : y.waiting = [] := by
    rw [hbase1]
    exact hw1
  have hqu : u.qe = s.qe := hqe''.trans (hqe'.trans hqe)
  obtain ⟨hdone, hgone, hidx⟩ := State.commitDone_spec hju hkind (hqu ▸ hc) hy' hwy c m
  exact ⟨hdone, hgone, y, by rw [hidx]; exact hy', hbase1⟩

theorem State.onCommit_find (hx : s.idx.find n = some x) (hk : x.commit = some k) (f : PendingCommit → PendingCommit) :
    (s.onCommit n f).idx.find n = some { x with commit := some (f k) } := by
  have hfind : (s.onCommit n f).idx.find n = some { x with commit := x.commit.map f } :=
    KMap.find_adjust_self hx (fun x => { x with commit := x.commit.map f })
  rw [hfind, hk, Option.map_some]

theorem State.commitEffect_of_commit (hx : s.idx.find n = some x) (hk : x.commit = some k) :
    s.commitEffect n = if k.ready = some s.mm.epoch then
        (if s.commitDue n x k then s.applyCommit n x k s.mm.epoch else s.onCommit n (fun k => { k with ready := none }))
      else s := by
  unfold State.commitEffect
  simp only [hx, hk, bne_iff_ne, ne_eq, ite_not]

theorem State.commitEffect_none (h : s.idx.find n = none ∨ ∃ x, s.idx.find n = some x ∧
    ((∃ k, x.commit = some k ∧ k.ready ≠ some s.mm.epoch) ∨ x.commit = none ∧ x.waiting = [])) : s.commitEffect n = s := by
  rcases h with hnone | ⟨x, hx, ⟨k, hk, hready⟩ | ⟨hc, hw⟩⟩
  · unfold State.commitEffect
    rw [hnone]
  · rw [State.commitEffect_of_commit hx hk, if_neg hready]
  · unfold State.commitEffect
    simp only [hx, hc]
    exact State.nextCommit_behind hx (Or.inr hw)

end

/-- Where JD runs, or finishes a commit that a stop has reached (R412), COMMIT_TAKE_EFFECT acts. -/
theorem exec_commitTakeEffect_runs {s : State} {n : Nat} (h : s.inGo = true ∨ s.halted = true ∧ s.commitForced n = true) :
    exec (.commitTakeEffect n) s = .next (s.commitEffect n) :=
  congrArg done (if_pos (by rcases h with h | ⟨h, h'⟩ <;> simp [*]))

theorem exec_commitTakeEffect_idle {s : State} {n : Nat} (h : s.inGo = false ∧ (s.halted = false ∨ s.commitForced n = false)) :
    exec (.commitTakeEffect n) s = .next s :=
  congrArg done (if_neg (by obtain ⟨hgo, h | h⟩ := h <;> simp [*]))

/-! ## The obligation -/

/-- Settles O44: appends, COMMITs and commits that take effect, each by the lemma of its case. -/
theorem indexChanges : Obligations.IndexChanges := by
  unfold Obligations.IndexChanges
  refine ⟨?_, ?_, ?_, ?_, ?_, ?_, ?_, ?_, ?_, ?_, ?_, ?_, ?_, ?_, ?_⟩
  · intro c sub d n x j s h hj ha hx hok hfit
    obtain ⟨hself, hothers, hans⟩ := State.jobAtOnce_appendsAll (Or.inl rfl) h hj ha hx hok hfit
    exact ⟨_, rfl, hself, hothers, hans.completed, hans.jobs, hans.rl, hans.tiles, hans.epoch, hans.host⟩
  · intro c sub d n x j s h hj ha hx hok hfit
    obtain ⟨hself, hothers, hans⟩ := State.jobAtOnce_appendsAll (Or.inr rfl) h hj ha hx hok hfit
    exact ⟨_, rfl, hself, hothers, hans.completed, hans.jobs, hans.rl, hans.tiles, hans.epoch, hans.host⟩
  · intro c sub d n x j k s h hj ha hx hok hk hfit hno
    obtain ⟨hself, hothers, hans⟩ := State.jobAtOnce_appendsFirst (Or.inl rfl) h hj ha hx hok hk hfit hno
    exact ⟨_, rfl, hself, hothers, hans.completed, hans.jobs, hans.status, hans.rl, hans.tiles, hans.host⟩
  · intro c sub d n x j k s h hj ha hx hok hk hfit hno
    obtain ⟨hself, hothers, hans⟩ := State.jobAtOnce_appendsFirst (Or.inr rfl) h hj ha hx hok hk hfit hno
    exact ⟨_, rfl, hself, hothers, hans.completed, hans.jobs, hans.status, hans.rl, hans.tiles, hans.host⟩
  · intro c sub d n x j st s h hj ha hx hbad
    have hans := State.jobAtOnce_appendFails (Or.inl rfl) h hj ha hx hbad
    exact ⟨State.admitAppend_invalid hj hx hbad, (State.admitAppend_status hx hbad).2, _, rfl, hans.completed, hans.idx, hans.jobs,
      hans.status, hans.rl, hans.tiles, hans.host⟩
  · intro c sub d n x j st s h hj ha hx hbad
    have hans := State.jobAtOnce_appendFails (Or.inr rfl) h hj ha hx hbad
    exact ⟨State.admitAppend_invalid hj hx hbad, (State.admitAppend_status hx hbad).2, _, rfl, hans.completed, hans.idx, hans.jobs,
      hans.status, hans.rl, hans.tiles, hans.host⟩
  · intro c sub n x j s h hj ha hx hown hidle hform hflag
    obtain ⟨-, -, -, hsquad, -⟩ := State.newJob_spec hj
    obtain ⟨hzero, hcommon, htarget, hsize⟩ := hform
    have hdiscard : bitN (j.u16 70) 0 = true := by simpa [bitN] using hflag
    obtain ⟨hself, hothers, hans⟩ := State.jobAtOnce_commitDiscards h hj ha hx
      (State.commitOk_true hsquad hown ⟨hzero, hcommon, htarget⟩ hsize) (Or.inl hdiscard) hidle.1 hidle.2 hdiscard
    exact ⟨_, rfl, hself, hothers, hans.completed, hans.jobs, hans.rl, hans.tiles, hans.landing⟩
  · intro c sub n x j y s h hj ha hx hown hidle hform hflag hns hwrite hfmt hland hsegs hroom
    obtain ⟨htag, -, -, hsquad, -⟩ := State.newJob_spec hj
    obtain ⟨hzero, hcommon, htarget, hsize⟩ := hform
    have hprot : s.idxProtected (j.u32 64) = false := State.idxProtected_false fun z hz => by
      obtain rfl : y = z := Option.some.inj (hns.symm.trans hz)
      exact hwrite
    have hfree : s.commitHeld x = false := by simp [State.commitHeld, hland, hsegs]
    have hex := State.jobAtOnce_commitPlaces h hj ha hx (State.commitOk_true hsquad hown ⟨hzero, hcommon, htarget⟩ hsize)
      (Or.inr hprot) hidle.1 hidle.2 hflag hfmt hroom hfree hns
    obtain ⟨-, hjob, hfetched, -, hrl, htiles⟩ := State.inLine_spec ha.1 htag hx c
    exact ⟨_, _, _, congrArg done hex, KMap.find_put_self .., congrArg (Option.bind · Index.commit) (KMap.find_put_self ..), rfl, rfl,
      hjob, rfl, hrl, htiles, hfetched⟩
  · intro c sub n x j s h hj ha hx hown hidle hform hflag hfmt hwrite hroom
    obtain ⟨-, -, -, hsquad, -⟩ := State.newJob_spec hj
    obtain ⟨hzero, hcommon, htarget, hsize⟩ := hform
    obtain ⟨hself, -, hans⟩ := State.jobAtOnce_commitNoRoom h hj ha hx
      (State.commitOk_true hsquad hown ⟨hzero, hcommon, htarget⟩ hsize) (Or.inr (State.idxProtected_false hwrite)) hidle.1 hidle.2
      hflag hfmt hroom
    exact ⟨_, rfl, hself, hans.completed, hans.status, hans.jobs, hans.landing⟩
  · intro c sub n x j s h hj ha hx hown hform hflag hfmt hwrite hwait
    obtain ⟨htag, -, -, hsquad, -⟩ := State.newJob_spec hj
    obtain ⟨hself, hjob, hfetched, hmm, hrl, htiles⟩ := State.inLine_spec ha.1 htag hx c
    have hex := State.jobAtOnce_commitWaits h hj ha hx (State.commitOk_true hsquad hown hform (by omega))
      (Or.inr (State.idxProtected_false hwrite)) hflag hfmt (hwait.imp_right fun ⟨hw, hroom, hheld⟩ => ⟨hw, hroom, by
        simpa [State.commitHeld] using hheld⟩)
    exact ⟨_, _, congrArg done hex, hself, hjob, rfl, hfetched, hmm, hrl, htiles⟩
  · intro c sub n x j st s h hj ha hx hidle hst
    obtain ⟨hself, -, hans⟩ := State.jobAtOnce_commitRefuses h hj ha hx hidle.1 hidle.2 hst
    exact ⟨_, rfl, hself, hans.completed, hans.status, hans.jobs, hans.landing⟩
  · intro n x k j s hgo hx hk hready hdue hr hw hj hkind hc _
    have hex := exec_commitTakeEffect_runs hgo
    rw [State.commitEffect_of_commit hx hk, if_pos hready, if_pos hdue] at hex
    obtain ⟨hdone, hgone, y, hy, hsame, -, hseg⟩ := State.applyCommit_plain_spec (n := n) hr hw hj hkind hc s.mm.epoch
    refine ⟨_, y, hex, hy, hsame.trans ?_, fun g hg => (hseg g hg).trans (State.committed_find ..), hdone, hgone⟩
    unfold State.committed
    rw [List.map_map]
    rfl
  · intro n x k j b o s hgo hx hk hready hdue hr hn hw hj hkind hc _
    have hex := exec_commitTakeEffect_runs hgo
    rw [State.commitEffect_of_commit hx hk, if_pos hready, if_pos hdue] at hex
    obtain ⟨hdone, hgone, y, hy, hbase⟩ := State.applyCommit_rebase_spec (n := n) hr hn hw hj hkind hc s.mm.epoch
    refine ⟨_, y, hex, hy, ?_⟩
    rw [hbase]
    exact ⟨rfl, rfl, rfl, rfl, hw, rfl, rfl, rfl, rfl, hdone, hgone⟩
  · intro n x k s hgo hx hk hready hdue
    have hex := exec_commitTakeEffect_runs (Or.inl hgo) (n := n)
    rw [State.commitEffect_of_commit hx hk, if_pos hready, if_neg (by simp [hdue])] at hex
    exact ⟨_, hex, State.onCommit_find hx hk _, rfl⟩
  · intro n s h
    rcases h with h | h
    · exact exec_commitTakeEffect_idle h
    · by_cases hgo : s.inGo = true ∨ s.halted = true ∧ s.commitForced n = true
      · rw [exec_commitTakeEffect_runs hgo, State.commitEffect_none h]
      · simp only [not_or, not_and_or, Bool.not_eq_true] at hgo
        exact exec_commitTakeEffect_idle hgo

end Sys2Proof.Machine
end

section
/-! A counterexample for a SERVE_CLOSE whose sequence has a SERVE_APPEND pending (R292, R309): its end frees the contexts that the
job holds, and a SERVE_APPEND of an arbitrary state may hold one. -/

namespace Sys2Proof.Machine

/-- A SERVE_APPEND of squad 2 that holds context 0 of tile 5. -/
def appendWithCtx : Job := { bareJob 0x11 .admitted with search := { SearchProg.blank with ctxs := [(0, 5, 0)] } }

/-- The SERVE_CLOSE of sequence 0, for squad 2. -/
def closeSeq0 : Submit := { prp1 := 0, d10 := 0x0312, desc := [0x12, 3, 0, 0, 2] }

/-- GO with a serving squad, that SERVE_APPEND pending on sequence 0, and the SERVE_CLOSE next in the admin queue. -/
def goAppendWithCtx : State :=
  let s := goBare { bareSquad 3 .active with maxJobs := 2 } appendWithCtx
  { s with
    qe := { s.qe with ready := true, sqs := [(0, { size := 8, prio := 0, cq := 0, tail := 1, head := 0, blocked := none })] }
    jd := { s.jd with nextTag := 2, models := [(0, modelServed)], seqs := [(0, seqAppending)] } }

/-- The command of the SERVE_CLOSE. -/
def closeCmd : CmdId := { sq := 0, cid := 5 }

/-- The SERVE_CLOSE as JD takes it on. -/
def closeJob : Job := goAppendWithCtx.newJob closeCmd 0x12 2 closeSeq0 [] []

theorem goAppendWithCtx_submits : goAppendWithCtx.submits closeCmd 0x12 closeSeq0 2 := by
  decide

theorem goAppendWithCtx_admits : goAppendWithCtx.admitsAtOnce closeJob := by
  unfold State.admitsAtOnce Jd.inForm
  decide

/-- No tile was listed; the one whose context became FREE is. -/
theorem goAppendWithCtx_frees : (goAppendWithCtx.jobAtOnce closeCmd 0x12 closeSeq0 [] []).tiles.keys = [5] := by
  decide

/-- Refutes O46: the SERVE_APPEND that a SERVE_CLOSE ends frees a context of a tile, where the statement leaves the tiles as they
are; no hypothesis of the statement says that a SERVE_APPEND holds no context. -/
theorem not_sequences : ¬ Obligations.Sequences := by
  unfold Obligations.Sequences
  rintro ⟨-, -, -, -, -, -, -, hcloses, -⟩
  obtain ⟨t, hex, -, -, -, -, -, htiles⟩ := hcloses closeCmd closeSeq0 2 closeJob seqAppending modelServed 1 appendWithCtx
    goAppendWithCtx goAppendWithCtx_submits rfl goAppendWithCtx_admits rfl rfl rfl (by decide) rfl ⟨rfl, rfl⟩ rfl rfl
    (List.mem_singleton_self _) (List.nodup_singleton _)
  obtain rfl : goAppendWithCtx.jobAtOnce closeCmd 0x12 closeSeq0 [] [] = t := Host.Outcome.next.inj hex
  exact absurd (goAppendWithCtx_frees.symm.trans (congrArg KMap.keys htiles)) (by decide)

end Sys2Proof.Machine
end

section
/-! Registered models (R283 to R285, R300, R311): a write of JD_MODEL_CTL by its phases and codes, and the rise of a decode cap. -/

namespace Sys2Proof.Machine

/-! ## Fields of a padded record (R283) -/

theorem byteAt_padTo {n i : Nat} (h : i < n) (l : List Byte) : byteAt (padTo n l) i = byteAt l i := by
  unfold byteAt padTo
  rw [List.getD_eq_getElem?_getD, List.getElem?_take_of_lt h]
  by_cases hi : i < l.length
  · rw [List.getElem?_append_left hi, List.getD_eq_getElem?_getD]
  · rw [List.getElem?_append_right (by omega), List.getElem?_replicate_of_lt (by omega), List.getD_eq_default _ _ (by omega)]
    rfl

theorem leAt_padTo {n o k : Nat} (h : o + k ≤ n) (l : List Byte) : leAt (padTo n l) o k = leAt l o k :=
  leAt_congr fun i hi => byteAt_padTo (by omega) l

/-- A bit of an event register that was just set. -/
theorem bitW_setEv {i : Nat} (h : i < 32) (w : W32) : bitW (setEv w i) i = true := by
  have hbit : (BitVec.ofNat 32 (1 <<< i)).getLsbD i = true := by simp [BitVec.getLsbD_ofNat, h]
  exact (BitVec.getLsbD_or ..).trans (by simp [hbit])

/-! ## JD_MODEL_CTL (R311) -/

/-- SLOT and OP as a write of JD_MODEL_CTL leaves them. -/
def State.ctlKept (s : State) (slot : Nat) (op : Bool) : State := { s with jd := { s.jd with modelSlot := slot, modelOp := op } }

section
variable {s : State} {v : W32} (hlive : s.vendorLive = true)
include hlive

theorem State.modelCtl_kept (h : bitW v 16 = false ∨ s.inGo = false) (op : Bool) (r : List Byte) :
    s.modelCtl v op r = s.ctlKept (bitsW v 5 0) op := by
  have hidle : (!bitW v 16 || !s.inGo) = true := by rcases h with h | h <;> simp [h]
  unfold State.modelCtl
  rw [hlive, Bool.not_true, if_neg Bool.false_ne_true]
  exact if_pos hidle

theorem State.modelCtl_go (hgo : s.inGo = true) (hv : bitW v 16 = true) (op : Bool) (r : List Byte) :
    s.modelCtl v op r = if op then (s.ctlKept (bitsW v 5 0) op).unregister (bitsW v 5 0)
      else (s.ctlKept (bitsW v 5 0) op).register (bitsW v 5 0) r := by
  have hacts : (!bitW v 16 || !s.inGo) = false := by rw [hv, hgo]; rfl
  unfold State.modelCtl
  rw [hlive, Bool.not_true, if_neg Bool.false_ne_true]
  exact if_neg (by simpa using hacts)

end

theorem State.modelCtl_unserved {s : State} (h : s.vendorLive = false) (v : W32) (op : Bool) (r : List Byte) :
    s.modelCtl v op r = s := by
  unfold State.modelCtl
  rw [h]
  rfl

/-! ## REGISTER (R283 to R285) -/

/-- The model a record registers: its decode cap at decode_max, and nothing of it has run. -/
def Model.ofRecord (r : List Byte) : Model :=
  { squad := byteAt r 1, record := padTo 128 r, cap := u16At r 28, bound := false, clean := 0, lastJoin := 0, filler := none,
    nextJoin := 1, queue := [] }

theorem Model.ofRecord_kvRegion (r : List Byte) : (Model.ofRecord r).kvRegion = u16At r 10 := leAt_padTo (by omega) r

theorem Model.ofRecord_pageBytes (r : List Byte) : (Model.ofRecord r).pageBytes = u32At r 12 := leAt_padTo (by omega) r

/-- The pool of a model's region as its first REGISTER makes it: every page is free. -/
def State.freshPool (s : State) (m : Model) : KvPool :=
  { total := s.regionPages m, free := List.range (s.regionPages m), atPlan := s.regionPages m }

/-- The pools with one for the model's region. -/
def State.poolsWith (s : State) (m : Model) : KMap KvPool :=
  if (s.jd.pools.find m.kvRegion).isSome then s.jd.pools else s.jd.pools.put m.kvRegion (s.freshPool m)

theorem State.poolsWith_isSome (s : State) (m : Model) : ((s.poolsWith m).find m.kvRegion).isSome = true := by
  unfold State.poolsWith
  split
  next h => exact h
  next => rw [KMap.find_put_self]; rfl

theorem State.poolsWith_new {s : State} {m : Model} (h : s.jd.pools.find m.kvRegion = none) :
    (s.poolsWith m).find m.kvRegion = some (s.freshPool m) := by
  unfold State.poolsWith
  rw [h]
  exact KMap.find_put_self ..

theorem State.poolsWith_old {s : State} {m : Model} {i : Nat} (h : i ≠ m.kvRegion ∨ (s.jd.pools.find i).isSome = true) :
    (s.poolsWith m).find i = s.jd.pools.find i := by
  unfold State.poolsWith
  split
  next => rfl
  next hnone =>
    exact KMap.find_put_ne _ _ _ _ (h.elim id fun hi he => hnone (he ▸ hi))

/-- How many pages a region has for a model's page size. -/
theorem State.regionPages_of_region {s : State} {m : Model} {g : Region} (hg : s.region m.kvRegion = some g) (hp : m.pageBytes ≠ 0) :
    s.regionPages m = g.size / m.pageBytes := by
  unfold State.regionPages
  rw [if_neg hp, hg]
  rfl

theorem State.register_good {s : State} {slot : Nat} {r : List Byte} (h : s.registerCode slot r = 0) :
    s.register slot r = ({ s with jd := { s.jd with
      models := s.jd.models.put slot (Model.ofRecord r), pools := s.poolsWith (Model.ofRecord r) } }).modelDone 0 :=
  if_neg (not_not_intro h)

theorem State.register_bad {s : State} {slot : Nat} {r : List Byte} (h : s.registerCode slot r ≠ 0) :
    s.register slot r = s.modelDone (s.registerCode slot r) :=
  if_pos h

/-! ## UNREGISTER (R284) -/

theorem State.unregister_empty {s : State} {slot : Nat} (h : s.model slot = none) : s.unregister slot = s.modelDone 7 := by
  unfold State.unregister
  rw [h]
  rfl

theorem State.unregister_inUse {s : State} {slot : Nat} (h : (s.model slot).isSome = true) {e : Nat × Sequence} (he : e ∈ s.jd.seqs)
    (hm : e.2.model = slot) : s.unregister slot = s.modelDone 6 := by
  have hnone : ¬ (s.model slot).isNone = true := by simpa [Option.isSome_iff_ne_none] using h
  have huses : (!(s.seqsOf slot).isEmpty) = true := by
    have hmem : e ∈ s.seqsOf slot := List.mem_filter.mpr ⟨he, by simp [hm]⟩
    simpa using List.ne_nil_of_mem hmem
  unfold State.unregister
  rw [if_neg hnone, if_pos huses]

theorem State.unregister_free {s : State} {slot : Nat} {m : Model} (h : s.model slot = some m)
    (hfree : ∀ e ∈ s.jd.seqs, e.2.model ≠ slot) : s.unregister slot = (s.dropModel slot).modelDone 0 := by
  have huses : s.seqsOf slot = [] := List.filter_eq_nil_iff.mpr fun e he => by simpa using hfree e he
  unfold State.unregister
  rw [h, huses]
  rfl

theorem State.dropModel_of_model {s : State} {slot : Nat} {m : Model} (h : s.model slot = some m) :
    s.dropModel slot = { s with jd := { s.jd with
      models := s.jd.models.del slot
      pools := if (s.jd.models.del slot).any (fun e => e.2.kvRegion == m.kvRegion) then s.jd.pools
        else s.jd.pools.del m.kvRegion } } := by
  unfold State.dropModel
  rw [h]

/-! ## DECODE_CAP_RISE (R300) -/

theorem State.onModel_model_self {s : State} {i : Nat} {m : Model} (h : s.model i = some m) (f : Model → Model) :
    (s.onModel i f).model i = some (f m) :=
  KMap.find_adjust_self h f

theorem State.onModel_model_ne (s : State) {i k : Nat} (h : k ≠ i) (f : Model → Model) : (s.onModel i f).model k = s.model k :=
  KMap.find_adjust_ne s.jd.models h f

/-- A decode cap an eighth higher, by at least 1, and no higher than decode_max. -/
def Model.capRisen (m : Model) : Nat := min m.decodeMax (m.cap + ceilDiv m.cap 8)

/-- The model at a new decode cap: its clean laps count from 0, and its mark goes where the cap is decode_max. -/
def Model.withCap (m : Model) (cap : Nat) : Model := { m with cap := cap, clean := 0, bound := cap != m.decodeMax }

theorem Model.withCap_bound (m : Model) (cap : Nat) : (m.withCap cap).bound = decide (cap ≠ m.decodeMax) :=
  Bool.eq_iff_iff.mpr (by simp [Model.withCap])

theorem exec_decodeCapRise_rises {s : State} {i : Nat} {m : Model} (h : s.model i = some m) (hb : m.bound = true)
    (hc : 64 ≤ m.clean) : exec (.decodeCapRise i) s = .next (s.onModel i (fun k => k.withCap m.capRisen)) := by
  refine congrArg done ?_
  rw [h]
  exact if_neg (by simpa [hb] using hc)

theorem exec_decodeCapRise_stays {s : State} {i : Nat} (h : ∀ m, s.model i = some m → m.bound = false ∨ m.clean < 64) :
    exec (.decodeCapRise i) s = .next s := by
  refine congrArg done ?_
  split
  next => rfl
  next m hm => exact if_pos (by simpa using h m hm)

/-! ## The obligation -/

theorem exec_modelRegister (v : W32) (r : List Byte) (s : State) : exec (.modelRegister v r) s = .next (s.modelCtl v false r) := rfl

theorem exec_modelUnregister (v : W32) (s : State) : exec (.modelUnregister v) s = .next (s.modelCtl v true []) := rfl

/-- Settles O47, by the phase, GO, and the checks of each operation. -/
theorem modelRegistration : Obligations.ModelRegistration := by
  unfold Obligations.ModelRegistration
  simp only [exec_modelRegister, exec_modelUnregister]
  refine ⟨?good, ?bad, ?free, ?empty, ?inUse, ?kept, ?unserved, ?rises, ?stays⟩
  case good =>
    intro v r g s hlive hgo hv hcode hg
    have hkv := Model.ofRecord_kvRegion r
    have hpage := Model.ofRecord_pageBytes r
    rw [State.modelCtl_go hlive hgo hv, if_neg Bool.false_ne_true, State.register_good (s := s.ctlKept (bitsW v 5 0) false) hcode]
    refine ⟨_, rfl, KMap.find_put_self .., fun i hi => KMap.find_put_ne _ _ _ _ hi, rfl, bitW_setEv (by omega) _, ?_, ?_, ?_, rfl,
      rfl, rfl⟩
    · exact hkv ▸ (s.ctlKept _ false).poolsWith_isSome (Model.ofRecord r)
    · intro hnone hsize
      have hpages : s.regionPages (Model.ofRecord r) = g.size / u32At r 12 :=
        hpage ▸ State.regionPages_of_region (hkv.symm ▸ hg) (hpage.symm ▸ hsize)
      have hnew := State.poolsWith_new (s := s.ctlKept (bitsW v 5 0) false) (m := Model.ofRecord r) (hkv.symm ▸ hnone)
      rw [hkv] at hnew
      rw [← hpages]
      exact hnew
    · intro i hi
      exact State.poolsWith_old (s := s.ctlKept _ false) (hkv.symm ▸ hi)
  case bad =>
    intro v r s hlive hgo hv hcode
    rw [State.modelCtl_go hlive hgo hv, if_neg Bool.false_ne_true, State.register_bad (s := s.ctlKept (bitsW v 5 0) false) hcode]
    rfl
  case free =>
    intro v m s hlive hgo hv hm hfree
    rw [State.modelCtl_go hlive hgo hv, if_pos rfl, State.unregister_free (s := s.ctlKept (bitsW v 5 0) true) hm hfree, State.dropModel_of_model (s := s.ctlKept (bitsW v 5 0) true) hm]
    exact ⟨_, rfl, KMap.find_del_self .., fun i hi => KMap.find_del_ne _ hi, rfl, bitW_setEv (by omega) _, rfl, rfl, rfl, rfl⟩
  case empty =>
    intro v s hlive hgo hv hm
    rw [State.modelCtl_go hlive hgo hv, if_pos rfl, State.unregister_empty (s := s.ctlKept (bitsW v 5 0) true) hm]
    rfl
  case inUse =>
    intro v e s hlive hgo hv hm he hslot
    rw [State.modelCtl_go hlive hgo hv, if_pos rfl, State.unregister_inUse (s := s.ctlKept (bitsW v 5 0) true) hm he hslot]
    rfl
  case kept =>
    intro v r s hlive h
    rw [State.modelCtl_kept hlive h, State.modelCtl_kept hlive h]
    exact ⟨rfl, rfl⟩
  case unserved =>
    intro v r s hlive
    rw [State.modelCtl_unserved hlive, State.modelCtl_unserved hlive]
    exact ⟨rfl, rfl⟩
  case rises =>
    intro i m s hm hb hc
    refine ⟨_, exec_decodeCapRise_rises hm hb hc, ?_, fun k hk => s.onModel_model_ne hk _, rfl⟩
    rw [← Model.capRisen, ← Model.withCap_bound]
    exact State.onModel_model_self hm fun k => k.withCap m.capRisen
  case stays =>
    intro i s h
    exact exec_decodeCapRise_stays h

end Sys2Proof.Machine
end

section
/-! A command of a queue at QE (R317, R318, R323, R388, R391, R413): what fetching it and completing it do, and what the phase makes
of its class. -/

namespace Sys2Proof.Machine

/-! ## Fetching -/

theorem State.not_mem_fetched_of_canFetch {s : State} {c : CmdId} (h : s.canFetch c = true) : c ∉ s.qe.fetched := by
  simp only [State.canFetch, Bool.and_eq_true, Bool.not_eq_true', List.contains_eq_mem, decide_eq_false_iff_not] at h
  obtain ⟨⟨⟨-, hnew⟩, -⟩, -⟩ := h
  exact hnew

theorem State.sqHolds_of_canFetch {s : State} {c : CmdId} (h : s.canFetch c = true) : s.sqHolds c.sq = true := by
  simp only [State.canFetch, Bool.and_eq_true] at h
  obtain ⟨⟨-, hholds⟩, -⟩ := h
  exact hholds

/-- The queue a command is fetched from exists. -/
theorem State.sq_of_canFetch {s : State} {c : CmdId} (h : s.canFetch c = true) : ∃ q, s.qe.sqs.find c.sq = some q := by
  have hholds := State.sqHolds_of_canFetch h
  unfold State.sqHolds at hholds
  cases hq : s.qe.sqs.find c.sq with
  | none => simp [hq] at hholds
  | some q => exact ⟨q, rfl⟩

/-- The head of a queue moves past one command. -/
def Sq.advanced (q : Sq) : Sq := { q with head := (q.head + 1) % max q.size 1 }

@[simp] theorem State.fetch_sqs (s : State) (c : CmdId) : (s.fetch c).qe.sqs = s.qe.sqs.adjust c.sq Sq.advanced := rfl
@[simp] theorem State.fetch_cqs (s : State) (c : CmdId) : (s.fetch c).qe.cqs = s.qe.cqs := rfl
@[simp] theorem State.fetch_fetched (s : State) (c : CmdId) : (s.fetch c).qe.fetched = s.qe.fetched ++ [c] := rfl
@[simp] theorem State.fetch_posted (s : State) (c : CmdId) : (s.fetch c).qe.posted = s.qe.posted := rfl
@[simp] theorem State.fetch_cqWait (s : State) (c : CmdId) : (s.fetch c).qe.cqWait = s.qe.cqWait := rfl

/-! ## Completing -/

theorem Qe.complete_fetched {q : Qe} {c : CmdId} (h : c ∈ q.fetched) (st d0 d1 : Nat) (x : List (List Byte)) :
    q.complete c st d0 d1 x = (q.release c).post (mkCompletion c st d0 d1 x) :=
  if_pos (by simpa using h)

@[simp] theorem Qe.post_sqs (q : Qe) (k : Completion) : (q.post k).sqs = q.sqs := by
  unfold Qe.post
  dsimp only
  split <;> rfl

theorem Qe.post_free {q : Qe} {k : Completion} (h : q.cqFull (q.cqOf k.c) = false) :
    (q.post k).posted = k :: q.posted ∧ (q.post k).cqWait = q.cqWait := by
  unfold Qe.post
  dsimp only
  rw [h]
  exact ⟨rfl, rfl⟩

theorem Qe.post_full {q : Qe} {k : Completion} (h : q.cqFull (q.cqOf k.c) = true) :
    (q.post k).cqWait = q.cqWait ++ [k] ∧ (q.post k).posted = q.posted := by
  unfold Qe.post
  dsimp only
  rw [h]
  exact ⟨rfl, rfl⟩

/-- A queue that the command blocks is fetched from again. -/
def Sq.freed (c : CmdId) (q : Sq) : Sq := if q.blocked = some c then { q with blocked := none } else q

@[simp] theorem Qe.release_sqs (q : Qe) (c : CmdId) : (q.release c).sqs = q.sqs.adjust c.sq (Sq.freed c) := rfl

theorem Sq.freed_of_unblocked {q : Sq} (c : CmdId) (h : q.blocked = none) : q.freed c = q := by
  unfold Sq.freed
  rw [if_neg (by simp [h])]

@[simp] theorem Sq.freed_cq (q : Sq) (c : CmdId) : (q.freed c).cq = q.cq := by
  unfold Sq.freed
  split <;> rfl

theorem filter_ne_append_self {l : List CmdId} {c : CmdId} (h : c ∉ l) : (l ++ [c]).filter (fun d => !(d == c)) = l := by
  have hkept : l.filter (fun d => !(d == c)) = l := List.filter_eq_self.mpr fun d hd => by
    have : d ≠ c := fun e => h (e ▸ hd)
    simpa using this
  rw [List.filter_append, hkept]
  simp

theorem KMap.find_adjust {α : Type} (m : KMap α) (n : Nat) (f : α → α) : (m.adjust n f).find n = (m.find n).map f := by
  cases h : m.find n with
  | some v => exact KMap.find_adjust_self h f
  | none =>
    have hnot : ∀ e ∈ m, e.1 ≠ n := by
      intro e he hen
      have hsome : (KMap.find m n).isSome = true := by
        clear h
        induction m with
        | nil => cases he
        | cons a m ih =>
          obtain ⟨k, v⟩ := a
          rw [KMap.find_cons]
          split
          · rfl
          next hk =>
            rcases List.mem_cons.mp he with rfl | he
            · exact absurd hen hk
            · exact ih he
      rw [h] at hsome
      cases hsome
    have hsame : m.adjust n f = m := by
      conv_rhs => rw [← List.map_id m]
      exact List.map_congr_left fun e he => if_neg (hnot e he)
    rw [hsame, h]
    rfl

/-- The completion queue of a command is the same once it is fetched and released. -/
theorem State.cqOf_fetch_release (s : State) (c : CmdId) : ((s.fetch c).qe.release c).cqOf c = s.qe.cqOf c := by
  unfold Qe.cqOf
  rw [Qe.release_sqs, State.fetch_sqs, KMap.find_adjust, KMap.find_adjust]
  cases s.qe.sqs.find c.sq <;> simp [Sq.advanced]

/-! ## A command fetched and completed -/

/-- `t` differs from `s` in QE alone. -/
abbrev State.qeOnly (s t : State) : Prop := t = { s with qe := t.qe }

theorem State.qeOnly_of {s t : State} {q : Qe} (h : t = { s with qe := q }) : s.qeOnly t := by
  unfold State.qeOnly
  rw [h]

theorem State.qeOnly_fetch (s : State) (c : CmdId) : s.qeOnly (s.fetch c) := State.qeOnly_of rfl

theorem State.qeOnly.withQe {s t : State} (h : s.qeOnly t) (q : Qe) : s.qeOnly { t with qe := q } :=
  State.qeOnly_of (q := q) (congrArg (fun u : State => { u with qe := q }) h)

theorem State.qeOnly.complete {s t : State} (h : s.qeOnly t) (c : CmdId) (st d0 d1 : Nat) (x : List (List Byte)) :
    s.qeOnly (t.complete c st d0 d1 x) := h.withQe _

theorem State.qeOnly_answered (s : State) (c : CmdId) (st d0 d1 : Nat) (x : List (List Byte)) :
    s.qeOnly (s.answered c st d0 d1 x) :=
  (s.qeOnly_fetch c).complete c st d0 d1 x

theorem State.answered_qe (s : State) (c : CmdId) (st d0 d1 : Nat) (x : List (List Byte)) :
    (s.answered c st d0 d1 x).qe = ((s.fetch c).qe.release c).post (mkCompletion c st d0 d1 x) :=
  Qe.complete_fetched (State.mem_fetch s c) st d0 d1 x

theorem State.answered_fetched {s : State} {c : CmdId} (h : s.canFetch c = true) (st d0 d1 : Nat) (x : List (List Byte)) :
    (s.answered c st d0 d1 x).qe.fetched = s.qe.fetched := by
  rw [State.answered_qe, Qe.post_fetched]
  exact filter_ne_append_self (l := s.qe.fetched) (State.not_mem_fetched_of_canFetch h)

theorem State.answered_sq_self {s : State} {c : CmdId} {q : Sq} (hq : s.qe.sqs.find c.sq = some q) (hb : q.blocked = none)
    (st d0 d1 : Nat) (x : List (List Byte)) : (s.answered c st d0 d1 x).qe.sqs.find c.sq = some q.advanced := by
  rw [State.answered_qe, Qe.post_sqs, Qe.release_sqs, State.fetch_sqs,
    KMap.find_adjust_self (KMap.find_adjust_self hq Sq.advanced) (Sq.freed c), Sq.freed_of_unblocked c (by exact hb)]

theorem State.answered_sq_ne (s : State) {c : CmdId} {n : Nat} (hn : n ≠ c.sq) (st d0 d1 : Nat) (x : List (List Byte)) :
    (s.answered c st d0 d1 x).qe.sqs.find n = s.qe.sqs.find n := by
  rw [State.answered_qe, Qe.post_sqs, Qe.release_sqs, State.fetch_sqs, KMap.find_adjust_ne _ hn, KMap.find_adjust_ne _ hn]

theorem State.answered_free {s : State} {c : CmdId} (h : s.qe.cqFull (s.qe.cqOf c) = false) (st d0 d1 : Nat)
    (x : List (List Byte)) : (s.answered c st d0 d1 x).qe.posted = mkCompletion c st d0 d1 x :: s.qe.posted := by
  rw [State.answered_qe]
  exact (Qe.post_free (k := mkCompletion c st d0 d1 x) (by
    rw [show (mkCompletion c st d0 d1 x).c = c from rfl, State.cqOf_fetch_release]
    exact h)).1

theorem State.answered_full {s : State} {c : CmdId} (h : s.qe.cqFull (s.qe.cqOf c) = true) (st d0 d1 : Nat)
    (x : List (List Byte)) : (s.answered c st d0 d1 x).qe.cqWait = s.qe.cqWait ++ [mkCompletion c st d0 d1 x] ∧
      (s.answered c st d0 d1 x).qe.posted = s.qe.posted := by
  rw [State.answered_qe]
  exact Qe.post_full (k := mkCompletion c st d0 d1 x) (by
    rw [show (mkCompletion c st d0 d1 x).c = c from rfl, State.cqOf_fetch_release]
    exact h)

/-! ## The phase (R388, R391, R413) -/

theorem State.command_unfetched {s : State} {c : CmdId} (h : s.canFetch c = false) (g : Gate) (f : State → State) :
    s.command c g f = s :=
  if_neg (by simp [h])

theorem State.command_refused {s : State} {c : CmdId} {g : Gate} {st : Nat} (hc : s.canFetch c = true) (hg : s.gate g = some st)
    (f : State → State) : s.command c g f = s.answered c st 0 0 [] := by
  have hg' : (s.fetch c).gate g = some st := hg
  unfold State.command
  rw [if_pos hc, hg']
  rfl

theorem State.gate_recovery {s : State} (h : s.mc.phase = .recovery) (g : Gate) :
    s.gate g = if g = .recovery ∨ g = .image ∨ g = .fwCommit then none else some stSequence := by
  unfold State.gate
  rw [if_pos h]
  simp only [Bool.or_eq_true, decide_eq_true_eq, or_assoc]

theorem State.gate_halted {s : State} (h : s.halted = true) (hp : s.mc.phase ≠ .recovery) (g : Gate) :
    s.gate g = if g = .served ∨ g = .recovery ∨ g = .image then none else some stInternal := by
  unfold State.gate
  rw [if_neg hp, if_pos h]
  simp only [Bool.or_eq_true, decide_eq_true_eq, or_assoc]

/-! ## Every command of a queue -/

/-- Each command with a class comes to QE as one, with its own effect behind the gate. -/
theorem exec_of_hostCommand {i : Instr} {c : CmdId} {g : Gate} (h : hostCommand i = some (c, some g)) (s : State) :
    ∃ f, exec i s = .next (s.command c g f) := by
  cases i
  case datasetManagementDeallocate d n r =>
    cases h
    by_cases hr : 256 < r.length
    · exact ⟨_, congrArg done (if_pos hr)⟩
    · exact ⟨_, congrArg done (if_neg hr)⟩
  all_goals cases h <;> exact ⟨_, rfl⟩

/-- A job's command that QE cannot fetch changes nothing. -/
theorem exec_jobCommand_unfetched {i : Instr} {c : CmdId} (h : hostCommand i = some (c, none)) {s : State}
    (hc : s.canFetch c = false) : exec i s = .next s := by
  have hnot : ¬ s.canFetch c = true := by simp [hc]
  cases i
  all_goals cases h <;> exact congrArg done (if_neg hnot)

/-- Settles O14: the rules of fetching and completing, and every command of a queue as one of QE's. -/
theorem commandsAnswered : Obligations.CommandsAnswered := by
  unfold Obligations.CommandsAnswered
  refine ⟨?answered, ?unfetched, ?refused, ?recovery, ?halted, ?go, ?everyUnfetched, ?everyRefused⟩
  case answered =>
    intro c st d0 d1 x s hc
    exact ⟨s.answered_completed c st d0 d1 x, fun q hq hb => State.answered_sq_self hq hb st d0 d1 x,
      State.answered_fetched hc st d0 d1 x, fun n hn => s.answered_sq_ne hn st d0 d1 x,
      fun h => State.answered_free h st d0 d1 x, fun h => State.answered_full h st d0 d1 x,
      s.qeOnly_answered c st d0 d1 x⟩
  case unfetched => exact fun c g f s hc => State.command_unfetched hc g f
  case refused => exact fun c g f st s hc hg => State.command_refused hc hg f
  case recovery => exact fun g s h => State.gate_recovery h g
  case halted => exact fun g s h hp => State.gate_halted h hp g
  case go => exact fun g s h => State.gate_of_inGo h g
  case everyUnfetched =>
    rintro i c (- | g) s hi hc
    · exact exec_jobCommand_unfetched hi hc
    · obtain ⟨f, hf⟩ := exec_of_hostCommand hi s
      rw [hf, State.command_unfetched hc]
  case everyRefused =>
    intro i c g st s hi hc hg
    obtain ⟨f, hf⟩ := exec_of_hostCommand hi s
    rw [hf, State.command_refused hc hg]

end Sys2Proof.Machine
end

section
/-! Doorbells (R312, R318, R336). -/

namespace Sys2Proof.Machine

theorem exec_sqTailDoorbell_linkUp {s : State} (h : s.linkUp = true) (n v : Nat) :
    exec (.sqTailDoorbell n v) s = .next (s.sqTail n v) :=
  congrArg done (if_pos h)

theorem exec_cqHeadDoorbell_linkUp {s : State} (h : s.linkUp = true) (n v : Nat) :
    exec (.cqHeadDoorbell n v) s = .next (s.cqHead n v) :=
  congrArg done (if_pos h)

theorem exec_doorbells_linkDown {s : State} (h : s.linkUp = false) (n v : Nat) :
    exec (.sqTailDoorbell n v) s = .next s ∧ exec (.cqHeadDoorbell n v) s = .next s := by
  have hdown : ¬ s.linkUp = true := by simp [h]
  exact ⟨congrArg done (if_neg hdown), congrArg done (if_neg hdown)⟩

/-! ## The tail of a submission queue -/

/-- `s` with the tail of queue `n` set. -/
def State.withTail (s : State) (n v : Nat) (q : Sq) : State :=
  { s with qe := { s.qe with sqs := s.qe.sqs.put n { q with tail := v } } }

theorem State.sqTail_inside {s : State} {n v : Nat} {q : Sq} (hq : s.qe.sqs.find n = some q) (hv : v < q.size) :
    s.sqTail n v = if v = q.head then s.withTail n v q else (s.withTail n v q).wakeIo n := by
  unfold State.sqTail
  rw [hq]
  exact if_neg (Nat.not_le.mpr hv)

theorem State.sqTail_outside {s : State} {n v : Nat}
    (h : s.qe.sqs.find n = none ∨ ∃ q, s.qe.sqs.find n = some q ∧ q.size ≤ v) : s.sqTail n v = s := by
  unfold State.sqTail
  rcases h with h | ⟨q, hq, hv⟩
  · rw [h]
  · rw [hq]
    exact if_pos hv

/-- A command in an I/O queue asks for the last operational state in PS3 and PS4 (R336), and changes nothing else. -/
theorem State.wakeIo_eq (s : State) (n : Nat) : s.wakeIo n = { s with qe := { s.qe with
    psWant := if n ≠ 0 ∧ 3 ≤ s.qe.ps then some s.qe.psLastOp else s.qe.psWant, psAuto := (s.wakeIo n).qe.psAuto } } := by
  unfold State.wakeIo
  by_cases h : n ≠ 0 ∧ 3 ≤ s.qe.ps
  · have hb : (n != 0 && decide (3 ≤ s.qe.ps)) = true := by simpa using h
    rw [if_pos hb, if_pos h]
  · have hb : ¬ (n != 0 && decide (3 ≤ s.qe.ps)) = true := by simpa using h
    rw [if_neg hb, if_neg h]

/-! ## The head of a completion queue -/

/-- `q` with the head of completion queue `n` set. -/
def Qe.withHead (q : Qe) (n v : Nat) (k : Cq) : Qe := { q with cqs := q.cqs.put n { k with head := v } }

theorem State.cqHead_inside {s : State} {n v : Nat} {k : Cq} (hk : s.qe.cqs.find n = some k) (hv : v < k.size) :
    s.cqHead n v = { s with qe := (s.qe.withHead n v k).drainWait } := by
  unfold State.cqHead
  rw [hk]
  exact if_neg (Nat.not_le.mpr hv)

theorem State.cqHead_outside {s : State} {n v : Nat}
    (h : s.qe.cqs.find n = none ∨ ∃ k, s.qe.cqs.find n = some k ∧ k.size ≤ v) : s.cqHead n v = s := by
  unfold State.cqHead
  rcases h with h | ⟨k, hk, hv⟩
  · rw [h]
  · rw [hk]
    exact if_pos hv

theorem Qe.drainWait_nil {q : Qe} (h : q.cqWait = []) : q.drainWait = q := by
  unfold Qe.drainWait
  rw [h, List.foldl_nil, ← h]

theorem Qe.drainWait_one {q : Qe} {x : Completion} (h : q.cqWait = [x]) : q.drainWait = ({ q with cqWait := [] } : Qe).post x := by
  unfold Qe.drainWait
  rw [h, List.foldl_cons, List.foldl_nil]

/-- The tail of a completion queue moves past one entry. -/
def Cq.grown (k : Cq) : Cq := { k with tail := (k.tail + 1) % max k.size 1 }

/-- A completion whose queue has a free entry takes it (R318). -/
theorem Qe.post_taken {q : Qe} {x : Completion} {n : Nat} {k : Cq} (hn : q.cqOf x.c = n) (hk : q.cqs.find n = some k)
    (h : (k.tail + 1) % max k.size 1 ≠ k.head) :
    q.post x = { q with
      posted := x :: q.posted, irqs := q.signal n,
      cqs := q.cqs.adjust n Cq.grown } := by
  have hroom : q.cqFull n = false := by
    unfold Qe.cqFull
    rw [hk]
    simpa using h
  unfold Qe.post
  dsimp only
  rw [hn, hroom]
  rfl

/-- Settles O15: a doorbell inside its queue moves an index, and what waits for that follows. -/
theorem queueDoorbells : Obligations.QueueDoorbells := by
  unfold Obligations.QueueDoorbells
  refine ⟨?tail, ?head, ?drains, ?emptied, ?noSq, ?noCq⟩
  case tail =>
    intro n v q s hl hq hv hne
    refine ⟨_, exec_sqTailDoorbell_linkUp hl n v, ?_⟩
    rw [State.sqTail_inside hq hv, if_neg hne, State.wakeIo_eq]
    exact ⟨rfl, rfl, rfl⟩
  case head =>
    intro n v k s hl hk hv hw
    rw [exec_cqHeadDoorbell_linkUp hl, State.cqHead_inside hk hv, Qe.drainWait_nil (q := s.qe.withHead n v k) hw]
    rfl
  case drains =>
    intro n v k x s hl hk hv hw hx hroom
    have hfind : (s.qe.withHead n v k).cqs.find n = some { k with head := v } := KMap.find_put_self ..
    refine ⟨_, exec_cqHeadDoorbell_linkUp hl n v, ?_⟩
    rw [State.cqHead_inside hk hv, Qe.drainWait_one (q := s.qe.withHead n v k) hw,
      Qe.post_taken (q := { s.qe.withHead n v k with cqWait := [] }) hx hfind hroom]
    exact ⟨rfl, rfl, KMap.find_adjust_self hfind Cq.grown, rfl⟩
  case emptied =>
    intro n v q s hl hq hv he
    rw [exec_sqTailDoorbell_linkUp hl, State.sqTail_inside hq hv, if_pos he]
    rfl
  case noSq =>
    intro n v s h
    rcases h with hl | h
    · exact (exec_doorbells_linkDown hl n v).1
    cases hl : s.linkUp with
    | false => exact (exec_doorbells_linkDown hl n v).1
    | true => rw [exec_sqTailDoorbell_linkUp hl, State.sqTail_outside h]
  case noCq =>
    intro n v s h
    rcases h with hl | h
    · exact (exec_doorbells_linkDown hl n v).2
    cases hl : s.linkUp with
    | false => exact (exec_doorbells_linkDown hl n v).2
    | true => rw [exec_cqHeadDoorbell_linkUp hl, State.cqHead_outside h]

end Sys2Proof.Machine
end

section
/-! Creating and deleting I/O queues, and errors of the link (R312, R317, R332, R404). -/

namespace Sys2Proof.Machine

/-! ## What completing a fetched command leaves of QE -/

theorem State.complete_sqs {s : State} {c : CmdId} (h : c ∈ s.qe.fetched) (st d0 d1 : Nat) (x : List (List Byte)) :
    (s.complete c st d0 d1 x).qe.sqs = s.qe.sqs.adjust c.sq (Sq.freed c) := by
  change (s.qe.complete c st d0 d1 x).sqs = _
  rw [Qe.complete_fetched h, Qe.post_sqs, Qe.release_sqs]

theorem State.complete_fetched {s : State} {c : CmdId} (h : c ∈ s.qe.fetched) (st d0 d1 : Nat) (x : List (List Byte)) :
    (s.complete c st d0 d1 x).qe.fetched = s.qe.fetched.filter (fun d => !(d == c)) := by
  change (s.qe.complete c st d0 d1 x).fetched = _
  rw [Qe.complete_fetched h, Qe.post_fetched]
  rfl

/-- Posting touches the completions, their queues and the vectors alone. -/
theorem Qe.post_keeps (q : Qe) (k : Completion) : q.post k = { q with
    posted := (q.post k).posted, cqWait := (q.post k).cqWait, cqs := (q.post k).cqs, irqs := (q.post k).irqs } := by
  unfold Qe.post
  dsimp only
  split <;> rfl

/-- Completing touches, besides, the queue of the command and the list of those fetched. -/
theorem Qe.complete_keeps (q : Qe) (c : CmdId) (st d0 d1 : Nat) (x : List (List Byte)) :
    q.complete c st d0 d1 x = { q with
      fetched := (q.complete c st d0 d1 x).fetched, sqs := (q.complete c st d0 d1 x).sqs,
      posted := (q.complete c st d0 d1 x).posted, cqWait := (q.complete c st d0 d1 x).cqWait,
      cqs := (q.complete c st d0 d1 x).cqs, irqs := (q.complete c st d0 d1 x).irqs } := by
  unfold Qe.complete
  split
  · rw [Qe.post_keeps]
    rfl
  · rfl

/-! ## The commands where QE serves them -/

theorem exec_createIoCq_served {s : State} {c : CmdId} (h : s.serves c .served) (n z v : Nat) (i x : Bool) :
    exec (.createIoCq c n z v i x) s = .next ((s.fetch c).createCq c n z v i x) :=
  congrArg done (State.command_served _ h.1 h.2)

theorem exec_createIoSq_served {s : State} {c : CmdId} (h : s.serves c .served) (n z p k : Nat) (x : Bool) :
    exec (.createIoSq c n z p k x) s = .next ((s.fetch c).createSq c n z p k x) :=
  congrArg done (State.command_served _ h.1 h.2)

theorem exec_deleteIoSq_served {s : State} {c : CmdId} (h : s.serves c .served) (n : Nat) :
    exec (.deleteIoSq c n) s = .next ((s.fetch c).deleteSq c n) :=
  congrArg done (State.command_served _ h.1 h.2)

theorem exec_deleteIoCq_served {s : State} {c : CmdId} (h : s.serves c .served) (n : Nat) :
    exec (.deleteIoCq c n) s = .next ((s.fetch c).deleteCq c n) :=
  congrArg done (State.command_served _ h.1 h.2)

/-! ## Queues (R312) -/

theorem ioQueueId_of_range {n : Nat} (h : 1 ≤ n ∧ n ≤ 512) : ioQueueId n = true := by
  simpa [ioQueueId] using h

theorem State.createCq_free {s : State} {n z v : Nat} (hn : 1 ≤ n ∧ n ≤ 512) (hfree : s.qe.cqs.find n = none)
    (hz : 0 < z ∧ z ≤ 4095) (hv : v ≤ 512) (c : CmdId) (i : Bool) :
    s.createCq c n z v i true = State.complete { s with qe := { s.qe with
      cqs := s.qe.cqs.put n { size := z + 1, vector := v, ien := i, head := 0, tail := 0 } } } c stOk := by
  have hsize : ¬ (z = 0 ∨ 4095 < z) := by omega
  unfold State.createCq
  simp only [ioQueueId_of_range hn, hfree, hsize, Nat.not_lt.mpr hv, if_false, Bool.not_true, Option.isSome_none,
    Bool.or_self, Bool.false_eq_true]

/-- `s` with submission queue `n` empty. -/
def State.withSq (s : State) (n : Nat) (q : Sq) : State := { s with qe := { s.qe with sqs := s.qe.sqs.put n q } }

theorem State.createSq_free {s : State} {n z p k : Nat} (hn : 1 ≤ n ∧ n ≤ 512) (hfree : s.qe.sqs.find n = none)
    (hz : 0 < z ∧ z ≤ 4095) (hp : p < 4) (hk : 1 ≤ k ∧ k ≤ 512) (hcq : (s.qe.cqs.find k).isSome = true) (c : CmdId) :
    s.createSq c n z p k true =
      (s.withSq n { size := z + 1, prio := p, cq := k, tail := 0, head := 0, blocked := none }).complete c stOk := by
  have hsize : ¬ (z = 0 ∨ 4095 < z) := by omega
  have hnone : (s.qe.cqs.find k).isNone = false := by simpa using hcq
  unfold State.createSq
  simp only [ioQueueId_of_range hn, ioQueueId_of_range hk, hfree, hsize, hnone, Nat.mod_eq_of_lt hp, if_false, Bool.not_true,
    Option.isSome_none, Bool.or_self, Bool.false_eq_true]
  rfl

/-- `s` without submission queue `n`, whose commands run on with no completion (R332). -/
def State.withoutSq (s : State) (n : Nat) : State :=
  { s.orphan (fun q => q == n) with qe := { (s.orphan (fun q => q == n)).qe with
      sqs := s.qe.sqs.del n, quota := s.qe.quota.del n } }

theorem State.deleteSq_known {s : State} {n : Nat} (hn : 1 ≤ n ∧ n ≤ 512) (h : (s.qe.sqs.find n).isSome = true) (c : CmdId) :
    s.deleteSq c n = (s.withoutSq n).complete c stOk := by
  have hnone : (s.qe.sqs.find n).isNone = false := by simpa using h
  unfold State.deleteSq
  simp only [ioQueueId_of_range hn, hnone, Bool.not_true, Bool.or_self, Bool.false_eq_true, if_false]
  rfl

theorem State.withoutSq_frame (s : State) (n : Nat) : (s.withoutSq n).mm = s.mm ∧ (s.withoutSq n).power = s.power ∧
    (s.withoutSq n).pc = s.pc ∧ (s.withoutSq n).tiles = s.tiles :=
  ⟨rfl, rfl, rfl, rfl⟩

/-- No fetched command names the queue any more. -/
theorem State.mem_fetched_withoutSq {s : State} {n : Nat} (hn : n ≤ 512) {d : CmdId} :
    d ∈ (s.withoutSq n).qe.fetched ↔ d ∈ s.qe.fetched ∧ d.sq ≠ n := by
  have hlp : n ≠ lpQueue := by unfold lpQueue; omega
  change d ∈ s.qe.fetched.filter (fun c => !(c.sq == n && c.sq != lpQueue)) ↔ _
  rw [List.mem_filter]
  refine and_congr_right fun _ => ?_
  by_cases hd : d.sq = n
  · simp [hd, hlp]
  · simp [hd]

theorem KMap.any_vals_adjust {α : Type} (m : KMap α) (n : Nat) {f : α → α} {p : α → Bool} (h : ∀ v, p (f v) = p v) :
    (KMap.vals (m.adjust n f)).any p = (KMap.vals m).any p := by
  induction m with
  | nil => rfl
  | cons e m ih =>
    have hhead : p (if e.1 = n then (e.1, f e.2) else e).2 = p e.2 := by split <;> simp [h]
    change (p (if e.1 = n then (e.1, f e.2) else e).2 || (KMap.vals (KMap.adjust m n f)).any p) = (p e.2 || (KMap.vals m).any p)
    rw [hhead, ih]

/-- Fetching a command leaves which completion queues are in use. -/
theorem State.cqUsed_fetch (s : State) (c : CmdId) (n : Nat) :
    (KMap.vals (s.fetch c).qe.sqs).any (fun q => q.cq == n) = (KMap.vals s.qe.sqs).any (fun q => q.cq == n) := by
  rw [State.fetch_sqs]
  exact KMap.any_vals_adjust _ _ fun _ => rfl

theorem State.deleteCq_unused {s : State} {n : Nat} (hn : 1 ≤ n ∧ n ≤ 512) (h : (s.qe.cqs.find n).isSome = true)
    (hu : (KMap.vals s.qe.sqs).any (fun q => q.cq == n) = false) (c : CmdId) :
    s.deleteCq c n = State.complete { s with qe := { s.qe with cqs := s.qe.cqs.del n } } c stOk := by
  have hnone : (s.qe.cqs.find n).isNone = false := by simpa using h
  unfold State.deleteCq
  simp only [ioQueueId_of_range hn, hnone, hu, Bool.not_true, Bool.or_self, Bool.false_eq_true, if_false]

theorem State.deleteCq_used {s : State} {n : Nat} (hn : 1 ≤ n ∧ n ≤ 512) (h : (s.qe.cqs.find n).isSome = true)
    (hu : (KMap.vals s.qe.sqs).any (fun q => q.cq == n) = true) (c : CmdId) : s.deleteCq c n = s.complete c stQueueDelete := by
  have hnone : (s.qe.cqs.find n).isNone = false := by simpa using h
  unfold State.deleteCq
  simp only [ioQueueId_of_range hn, hnone, hu, Bool.not_true, Bool.or_self, Bool.false_eq_true, if_false, if_true]

/-! ## Errors of the link (R404) -/

theorem exec_hlPcieError_linkUp {s : State} (h : s.linkUp = true) (f b : Nat) :
    exec (.hlPcieError f b) s =
      .next (s.postOnce srcHL kProtocol (f * 32 + b) 0 (BitVec.ofNat 32 f) (BitVec.ofNat 32 b) 0 0) :=
  congrArg done (if_pos h)

theorem exec_hlPcieError_linkDown {s : State} (h : s.linkUp = false) (f b : Nat) : exec (.hlPcieError f b) s = .next s :=
  congrArg done (if_neg (by simp [h]))

theorem exec_dataTransferError_fetched {s : State} {c : CmdId} (h : c ∈ s.qe.fetched) (a : W64) :
    exec (.dataTransferError c a) s = .next ((s.postCorr srcQE kProtocol a 0 0 0 0).transferFails c) :=
  congrArg done (if_pos (by simpa using h))

theorem exec_dataTransferError_unfetched {s : State} {c : CmdId} (h : c ∉ s.qe.fetched) (a : W64) :
    exec (.dataTransferError c a) s = .next s :=
  congrArg done (if_neg (by simpa using h))

/-- `s` with FL as it stands after a record. -/
def State.withFl (s : State) (f : Fl) : State := { s with fl := f }

/-- A command that is no storage command, no job and no copy of its own ends at once. -/
theorem State.transferFails_plain {s : State} {c : CmdId} (hs : s.storeCmd c = none) (hj : s.jd.jobs = []) (hc : s.rl.copies = []) :
    s.transferFails c = s.complete c stDataTransfer := by
  unfold State.transferFails
  rw [hs, hj, hc]
  rfl

/-- Settles O17: what each command does where QE serves it, and the records of the link's errors. -/
theorem queueCommands : Obligations.QueueCommands := by
  unfold Obligations.QueueCommands
  refine ⟨?newCq, ?newSq, ?goneSq, ?goneCq, ?usedCq, ?pcie, ?transfer, ?record, ?unfetched, ?again, ?down, ?cannot⟩
  case newCq =>
    intro c n z v i s hs hn hfree hz hv
    rw [exec_createIoCq_served hs, State.createCq_free (s := s.fetch c) hn hfree hz hv]
    rfl
  case newSq =>
    intro c n z p k s hs hn hfree hz hp hk hcq
    obtain ⟨q, hq⟩ := State.sq_of_canFetch hs.1
    have hne : n ≠ c.sq := by
      rintro rfl
      rw [hfree] at hq
      cases hq
    have hfree' : (s.fetch c).qe.sqs.find n = none := by rw [State.fetch_sqs, KMap.find_adjust_ne _ hne, hfree]
    have hmem : c ∈ ((s.fetch c).withSq n
        { size := z + 1, prio := p, cq := k, tail := 0, head := 0, blocked := none }).qe.fetched := State.mem_fetch s c
    rw [exec_createIoSq_served hs, State.createSq_free (s := s.fetch c) hn hfree' hz hp hk hcq]
    refine ⟨_, rfl, State.complete_completed _ _ _ _ _ _ hmem, ?_, fun m hmn hmc => ?_, ?_,
      ((s.qeOnly_fetch c).withQe _).complete ..⟩
    · rw [State.complete_sqs hmem, KMap.find_adjust_ne _ hne]
      exact KMap.find_put_self ..
    · rw [State.complete_sqs hmem, KMap.find_adjust_ne _ hmc]
      refine (KMap.find_put_ne _ _ _ _ hmn).trans ?_
      rw [State.fetch_sqs, KMap.find_adjust_ne _ hmc]
    · rw [State.complete_fetched hmem]
      exact filter_ne_append_self (l := s.qe.fetched) (State.not_mem_fetched_of_canFetch hs.1)
  case goneSq =>
    intro c n s hs hc hn hsome
    have hne : n ≠ c.sq := by omega
    have hsome' : ((s.fetch c).qe.sqs.find n).isSome = true := by rwa [State.fetch_sqs, KMap.find_adjust_ne _ hne]
    have hmem : c ∈ ((s.fetch c).withoutSq n).qe.fetched :=
      (State.mem_fetched_withoutSq hn.2).mpr ⟨State.mem_fetch s c, fun h => hne h.symm⟩
    have hsqs : ((s.fetch c).withoutSq n).qe.sqs = (s.fetch c).qe.sqs.del n := rfl
    rw [exec_deleteIoSq_served hs, State.deleteSq_known hn hsome']
    refine ⟨_, rfl, State.complete_completed _ _ _ _ _ _ hmem, ?_, fun d hd => ?_, fun m hmn hm0 => ?_, (s.fetch c).withoutSq_frame n⟩
    · rw [State.complete_sqs hmem, KMap.find_adjust_ne _ hne, hsqs, KMap.find_del_self]
    · rw [State.complete_fetched hmem] at hd
      exact ((State.mem_fetched_withoutSq hn.2).mp (List.mem_filter.mp hd).1).2
    · have hmc : m ≠ c.sq := hc ▸ hm0
      rw [State.complete_sqs hmem, KMap.find_adjust_ne _ hmc, hsqs, KMap.find_del_ne _ hmn, State.fetch_sqs,
        KMap.find_adjust_ne _ hmc]
  case goneCq =>
    intro c n s hs hn hsome hunused
    have hu : (KMap.vals (s.fetch c).qe.sqs).any (fun q => q.cq == n) = false := by
      rw [State.cqUsed_fetch, List.any_eq_false]
      exact fun q hq => by simpa using hunused q hq
    rw [exec_deleteIoCq_served hs, State.deleteCq_unused (s := s.fetch c) hn hsome hu]
    rfl
  case usedCq =>
    intro c n q s hs hn hsome hq hcq
    have hu : (KMap.vals (s.fetch c).qe.sqs).any (fun q => q.cq == n) = true := by
      rw [State.cqUsed_fetch, List.any_eq_true]
      exact ⟨q, hq, by simpa using hcq⟩
    rw [exec_deleteIoCq_served hs, State.deleteCq_used (s := s.fetch c) hn hsome hu]
    rfl
  case pcie =>
    intro f b s hl hnt hb
    exact ⟨_, exec_hlPcieError_linkUp hl f b, State.postOnce_recordWritten s _ _ _ _ _ _ _ _ hnt hb,
      State.postOnce_eq s _ _ _ _ _ _ _ _ hnt⟩
  case transfer =>
    intro c a s hc hnt hs hj hcopies
    have hrec := State.post_recordWritten s srcQE kProtocol 0 a 0 0 0 0 hnt
    have heq : s.postCorr srcQE kProtocol a 0 0 0 0 = s.withFl (s.postCorr srcQE kProtocol a 0 0 0 0).fl :=
      State.postCorr_eq s srcQE kProtocol a 0 0 0 0 hnt
    refine ⟨_, exec_dataTransferError_fetched hc a, ?_⟩
    rw [heq, State.transferFails_plain (s := s.withFl (s.postCorr srcQE kProtocol a 0 0 0 0).fl) hs hj hcopies]
    exact ⟨State.complete_completed _ _ _ _ _ _ hc, hrec, rfl⟩
  case record =>
    intro c a s hc hnt
    exact ⟨_, State.post_recordWritten s srcQE kProtocol 0 a 0 0 0 0 hnt, State.postCorr_eq s srcQE kProtocol a 0 0 0 0 hnt,
      exec_dataTransferError_fetched hc a⟩
  case unfetched => exact fun c a s hc => exec_dataTransferError_unfetched hc a
  case again =>
    intro f b s hl hb
    rw [exec_hlPcieError_linkUp hl, State.postOnce_suppressed s _ _ _ _ _ _ _ _ hb]
  case down => exact fun f b s hl => exec_hlPcieError_linkDown hl f b
  case cannot =>
    intro c n z p k v i x s hc
    exact ⟨congrArg done (State.command_unfetched hc ..), congrArg done (State.command_unfetched hc ..),
      congrArg done (State.command_unfetched hc ..), congrArg done (State.command_unfetched hc ..)⟩

end Sys2Proof.Machine
end

section
/-! Identify, Get Log Page and Get Features (R312, R313, R324, R326, R333, R391). -/

namespace Sys2Proof.Machine

/-! ## The commands where QE serves them -/

theorem exec_identify_data {s : State} {c : CmdId} (h : s.serves c .recovery) {k n : Nat} {d : List Byte}
    (hd : s.identifyData k n = .inr d) : exec (.identify c k n) s = .next (s.answered c stOk 0 0 [d]) := by
  have hdata : (s.fetch c).identifyData k n = .inr d := hd
  refine (congrArg done (State.command_served _ h.1 h.2)).trans ?_
  rw [hdata]
  rfl

theorem exec_identify_status {s : State} {c : CmdId} (h : s.serves c .recovery) {k n st : Nat}
    (hst : s.identifyData k n = .inl st) : exec (.identify c k n) s = .next (s.answered c st 0 0 []) := by
  have hdata : (s.fetch c).identifyData k n = .inl st := hst
  refine (congrArg done (State.command_served _ h.1 h.2)).trans ?_
  rw [hdata]
  rfl

theorem exec_getLogPage_served {s : State} {c : CmdId} (h : s.serves c .recovery) (p l o z : Nat) (r : Bool) :
    exec (.getLogPage c p l r o z) s = .next ((s.fetch c).getLog c p l r o z) :=
  congrArg done (State.command_served _ h.1 h.2)

theorem exec_getFeatures_served {s : State} {c : CmdId} (h : s.serves c .served) (k : Nat) (v : W32) :
    exec (.getFeatures c ⟨k, v⟩) s = .next ((s.fetch c).getFeature c k v) :=
  congrArg done (State.command_served _ h.1 h.2)

/-! ## Log pages (R324, R326, R333) -/

/-- QE once log page `p` is read: its event is reported again unless RAE is set, and page 0xC1 is emptied where LSF asks it. -/
def Qe.logRead (q : Qe) (p l : Nat) (r : Bool) : Qe :=
  let q1 := if r then q else q.unmask p
  if p = 0xC1 ∧ bitN l 0 then { q1 with wp := [], wpOverflow := false } else q1

theorem Qe.logRead_masked (q : Qe) (p l : Nat) (r : Bool) :
    (q.logRead p l r).masked = if r then q.masked else q.masked.filter (fun x => x != p) := by
  unfold Qe.logRead
  cases r <;> dsimp only <;> split <;> rfl

theorem Qe.logRead_wp (q : Qe) (p l : Nat) (r : Bool) :
    (q.logRead p l r).wp = if p = 0xC1 ∧ bitN l 0 = true then [] else q.wp := by
  unfold Qe.logRead
  cases r <;> dsimp only <;> split <;> rfl

theorem Qe.logRead_fetched (q : Qe) (p l : Nat) (r : Bool) : (q.logRead p l r).fetched = q.fetched := by
  unfold Qe.logRead
  cases r <;> dsimp only <;> split <;> rfl

theorem State.getLog_page {s : State} {p o z : Nat} {d : List Byte} (ho : o % 4 = 0) (h : s.logPage p o z = some d) (c : CmdId)
    (l : Nat) (r : Bool) :
    s.getLog c p l r o z = State.complete { s with qe := s.qe.logRead p l r, tick := s.tick + 1 } c stOk 0 0 [d] := by
  unfold State.getLog
  rw [if_neg (not_not_intro ho), h]
  rfl

theorem State.getLog_refused {s : State} {p o z : Nat} (h : o % 4 ≠ 0 ∨ s.logPage p o z = none) (c : CmdId) (l : Nat) (r : Bool) :
    s.getLog c p l r o z =
      s.complete c (if o % 4 ≠ 0 then stInvalidField else if s.mc.phase = .recovery then stSequence else stLogPage) := by
  unfold State.getLog
  by_cases ho : o % 4 ≠ 0
  · rw [if_pos ho, if_pos ho]
  · rw [if_neg ho, if_neg ho, h.resolve_left ho]

@[simp] theorem Qe.complete_masked (q : Qe) (c : CmdId) (st d0 d1 : Nat) (x : List (List Byte)) :
    (q.complete c st d0 d1 x).masked = q.masked := by
  rw [Qe.complete_keeps]

@[simp] theorem Qe.complete_wp (q : Qe) (c : CmdId) (st d0 d1 : Nat) (x : List (List Byte)) :
    (q.complete c st d0 d1 x).wp = q.wp := by
  rw [Qe.complete_keeps]

/-! ## Features (R313) -/

theorem State.getFeature_asked {k : Nat} {v : W32} (h : featureAsked k v = true) (s : State) (c : CmdId) :
    s.getFeature c k v = State.complete { s with tick := s.tick + 1 } c stOk (s.featureValue k v) 0 (s.featureData k) := by
  unfold State.getFeature
  rw [h]
  rfl

theorem State.getFeature_unknown {k : Nat} {v : W32} (h : featureAsked k v = false) (s : State) (c : CmdId) :
    s.getFeature c k v = s.complete c stInvalidField := by
  unfold State.getFeature
  rw [h]
  rfl

/-- Settles O18: each read is what its own check makes of it. -/
theorem adminReads : Obligations.AdminReads := by
  unfold Obligations.AdminReads
  refine ⟨?identify, ?identifyFails, ?page, ?pageFails, ?feature, ?featureFails⟩
  case identify => exact fun c k n d s hs hd => exec_identify_data hs hd
  case identifyFails => exact fun c k n st s hs hst => exec_identify_status hs hst
  case page =>
    intro c p l o z r d s hs ho hd
    refine ⟨_, exec_getLogPage_served hs p l o z r, ?_⟩
    rw [State.getLog_page ho hd]
    refine ⟨State.complete_completed _ _ _ _ _ _ ?_, ?_, ?_, rfl⟩
    · exact Qe.logRead_fetched (s.fetch c).qe p l r ▸ State.mem_fetch s c
    · exact (Qe.complete_masked ..).trans (Qe.logRead_masked (s.fetch c).qe p l r)
    · exact (Qe.complete_wp ..).trans (Qe.logRead_wp (s.fetch c).qe p l r)
  case pageFails =>
    intro c p l o z r s hs h
    rw [exec_getLogPage_served hs, State.getLog_refused h]
    rfl
  case feature =>
    intro c k v s hs h
    rw [exec_getFeatures_served hs, State.getFeature_asked h]
    rfl
  case featureFails =>
    intro c k v s hs h
    rw [exec_getFeatures_served hs, State.getFeature_unknown h]
    rfl

end Sys2Proof.Machine
end

section
/-! Set Features, Abort, Asynchronous Event Request and the power state a host asks for (R313, R321, R326, R336, R337, R388). -/

namespace Sys2Proof.Machine

/-! ## The commands where QE serves them -/

theorem exec_setFeatures_served {s : State} {c : CmdId} (h : s.serves c .served) (k : Nat) (v : W32) (x : List Byte) :
    exec (.setFeatures c k v x) s = .next ((s.fetch c).setFeature c k v x) :=
  congrArg done (State.command_served _ h.1 h.2)

theorem exec_abort_served {s : State} {c : CmdId} (h : s.serves c .served) (d : CmdId) :
    exec (.abort c d.sq d.cid) s = .next ((s.fetch c).abortCmd c d) :=
  congrArg done (State.command_served _ h.1 h.2)

theorem exec_asyncEventRequest_served {s : State} {c : CmdId} (h : s.serves c .served) :
    exec (.asyncEventRequest c) s = .next ((s.fetch c).eventRequest c) :=
  congrArg done (State.command_served _ h.1 h.2)

theorem exec_setFeaturesPowerManagement_served {s : State} {c : CmdId} (h : s.serves c .served) (n : Nat) :
    exec (.setFeaturesPowerManagement c n) s = .next ((s.fetch c).setPower c n) :=
  congrArg done (State.command_served _ h.1 h.2)

@[simp] theorem Qe.complete_features (q : Qe) (c : CmdId) (st d0 d1 : Nat) (x : List (List Byte)) :
    (q.complete c st d0 d1 x).features = q.features := by
  rw [Qe.complete_keeps]

@[simp] theorem Qe.complete_apst (q : Qe) (c : CmdId) (st d0 d1 : Nat) (x : List (List Byte)) :
    (q.complete c st d0 d1 x).apst = q.apst := by
  rw [Qe.complete_keeps]

@[simp] theorem Qe.complete_apstOn (q : Qe) (c : CmdId) (st d0 d1 : Nat) (x : List (List Byte)) :
    (q.complete c st d0 d1 x).apstOn = q.apstOn := by
  rw [Qe.complete_keeps]

@[simp] theorem Qe.complete_timestamp (q : Qe) (c : CmdId) (st d0 d1 : Nat) (x : List (List Byte)) :
    (q.complete c st d0 d1 x).timestamp = q.timestamp := by
  rw [Qe.complete_keeps]

@[simp] theorem Qe.complete_aers (q : Qe) (c : CmdId) (st d0 d1 : Nat) (x : List (List Byte)) :
    (q.complete c st d0 d1 x).aers = q.aers := by
  rw [Qe.complete_keeps]

@[simp] theorem Qe.complete_events (q : Qe) (c : CmdId) (st d0 d1 : Nat) (x : List (List Byte)) :
    (q.complete c st d0 d1 x).events = q.events := by
  rw [Qe.complete_keeps]

/-! ## Features (R313, R316, R337) -/

/-- `s` with its features set. -/
def State.withFeatures (s : State) (m : KMap W32) : State := { s with qe := { s.qe with features := m } }

/-- What a command leaves that sets features and completes. -/
theorem State.withFeatures_complete (s : State) (c : CmdId) (m : KMap W32) :
    Completed (((s.fetch c).withFeatures m).complete c stOk) c stOk 0 0 [] ∧
    (((s.fetch c).withFeatures m).complete c stOk).qe.features = m ∧
    ((s.fetch c).withFeatures m).complete c stOk = { s with qe := (((s.fetch c).withFeatures m).complete c stOk).qe } :=
  ⟨State.complete_completed _ _ _ _ _ _ (State.mem_fetch s c), Qe.complete_features ..,
    ((s.qeOnly_fetch c).withQe _).complete ..⟩

theorem State.setFeature_unknown {k : Nat} (h : featureKnown k = false) (s : State) (c : CmdId) (v : W32) (x : List Byte) :
    s.setFeature c k v x = s.complete c stInvalidField := by
  unfold State.setFeature
  rw [h]
  rfl

/-- The features that hold one dword under their own number. -/
theorem State.setFeature_plain {k : Nat} (h : k = 1 ∨ k = 8 ∨ k = 10 ∨ k = 11) (s : State) (c : CmdId) (v : W32) (x : List Byte) :
    s.setFeature c k v x = (s.withFeatures (s.qe.features.put k v)).complete c stOk := by
  rcases h with rfl | rfl | rfl | rfl <;> rfl

theorem State.setFeature_threshold {v : W32} (h : thresholdOk v = true) (s : State) (c : CmdId) (x : List Byte) :
    s.setFeature c 4 v x = (s.withFeatures (s.qe.features.put (featureKey 4 v) (v &&& 0xFFFF))).complete c stOk := by
  have hone : thresholdKeys v = [featureKey 4 v] := by
    have hsel : bitsW v 19 16 ≤ 4 := by
      simp only [thresholdOk, Bool.and_eq_true, decide_eq_true_eq] at h
      exact h.1
    exact if_neg (by omega)
  change (if (!thresholdOk v && !(bitsW v 19 16 == 15 && decide (bitsW v 21 20 ≤ 1))) = true then s.complete c stInvalidField
    else (s.withFeatures ((thresholdKeys v).foldl (fun m k => KMap.put m k (v &&& 0xFFFF)) s.qe.features)).complete c stOk) = _
  rw [if_neg (by simp [h]), hone]
  rfl

theorem State.setFeature_badThreshold {v : W32} (h : bitsW v 19 16 ∉ [0, 1, 2, 3, 4, 15] ∨ 1 < bitsW v 21 20) (s : State) (c : CmdId)
    (x : List Byte) : s.setFeature c 4 v x = s.complete c stInvalidField := by
  have hbad : (!thresholdOk v && !(bitsW v 19 16 == 15 && decide (bitsW v 21 20 ≤ 1))) = true := by
    simp only [thresholdOk, Bool.and_eq_true, Bool.not_eq_true', Bool.and_eq_false_iff, decide_eq_false_iff_not, beq_eq_false_iff_ne]
    simp only [List.mem_cons, List.not_mem_nil, or_false, not_or] at h
    omega
  exact if_pos hbad

theorem State.setFeature_vector {v : W32} (h : bitsW v 15 0 ≤ 512) (s : State) (c : CmdId) (x : List Byte) :
    s.setFeature c 9 v x = (s.withFeatures (s.qe.features.put (featureKey 9 v) v)).complete c stOk :=
  if_neg (Nat.not_lt.mpr h)

theorem State.setFeature_badVector {v : W32} (h : 512 < bitsW v 15 0) (s : State) (c : CmdId) (x : List Byte) :
    s.setFeature c 9 v x = s.complete c stInvalidField :=
  if_pos h

/-- The Number of Queues, before an I/O queue exists (R313). -/
theorem State.setFeature_seven (s : State) (c : CmdId) (v : W32) (x : List Byte) :
    s.setFeature c 7 v x =
      if 1 < s.qe.sqs.length || 1 < s.qe.cqs.length then s.complete c stSequence
      else if bitsW v 15 0 = 0xFFFF ∨ bitsW v 31 16 = 0xFFFF then s.complete c stInvalidField
      else s.complete c stOk 0x01FF01FF := rfl

theorem State.setFeature_queues {s : State} {v : W32} (hs : s.qe.sqs.length ≤ 1) (hc : s.qe.cqs.length ≤ 1)
    (hlo : bitsW v 15 0 ≠ 0xFFFF) (hhi : bitsW v 31 16 ≠ 0xFFFF) (c : CmdId) (x : List Byte) :
    s.setFeature c 7 v x = s.complete c stOk 0x01FF01FF := by
  rw [State.setFeature_seven, if_neg (by simpa using ⟨hs, hc⟩), if_neg (not_or.mpr ⟨hlo, hhi⟩)]

theorem State.setFeature_queuesInUse {s : State} (h : 1 < s.qe.sqs.length ∨ 1 < s.qe.cqs.length) (c : CmdId) (v : W32)
    (x : List Byte) : s.setFeature c 7 v x = s.complete c stSequence := by
  rw [State.setFeature_seven, if_pos (by simpa using h)]

@[simp] theorem State.fetch_sqs_length (s : State) (c : CmdId) : (s.fetch c).qe.sqs.length = s.qe.sqs.length :=
  List.length_map ..

/-! ### The APST table (R337) -/

/-- The table an APST Set Features gives: an entry for each state whose idle time is not 0. -/
def apstTable (x : List Byte) : KMap (Nat × Nat) := ((List.range 5).map (fun k => (k, apstEntry x k))).filter (fun e => e.2.2 != 0)

/-- `s` with an APST table and its enable. -/
def State.withApst (s : State) (v : W32) (x : List Byte) : State :=
  { s with qe := { s.qe with apst := apstTable x, apstOn := bitW v 0 } }

/-- A table made of one entry for each number below `n`, of which those that pass are kept. -/
theorem KMap.find_filter_range {α : Type} (f : Nat → α) (p : α → Bool) (n k : Nat) :
    KMap.find (((List.range n).map (fun i => (i, f i))).filter (fun e => p e.2)) k =
      if k < n ∧ p (f k) = true then some (f k) else none := by
  induction n with
  | zero => rfl
  | succ n ih =>
    have hlast : KMap.find (([(n, f n)] : List (Nat × α)).filter (fun e => p e.2)) k =
        if k = n ∧ p (f k) = true then some (f k) else none := by
      by_cases hp : p (f n) = true
      · by_cases hk : k = n
        · subst hk
          simp [hp, KMap.find_cons]
        · simp [hp, hk, Ne.symm hk, KMap.find_cons]
      · rw [List.filter_eq_nil_iff.mpr (by simpa using hp), KMap.find_nil, if_neg]
        rintro ⟨rfl, h⟩
        exact hp h
    rw [List.range_succ, List.map_append, List.filter_append]
    refine (KMap.find_append _ _ k).trans ?_
    rw [ih]
    refine (congrArg _ hlast).trans ?_
    by_cases hp : p (f k) = true
    · have hor : k < n + 1 ↔ k < n ∨ k = n := Nat.lt_succ_iff_lt_or_eq
      by_cases hk : k < n <;> simp [hp, hk, hor]
    · simp [hp]

theorem find_apstTable (x : List Byte) {k : Nat} (h : k < 5) :
    (apstTable x).find k = if (apstEntry x k).2 = 0 then none else some (apstEntry x k) := by
  refine (KMap.find_filter_range (apstEntry x) (fun e => e.2 != 0) 5 k).trans ?_
  by_cases he : (apstEntry x k).2 = 0 <;> simp [h, he]

theorem State.setFeature_twelve (s : State) (c : CmdId) (v : W32) (x : List Byte) :
    s.setFeature c 12 v x =
      if !((List.range 5).map (fun k => (k, apstEntry x k))).all (fun e => apstEntryOk e.2) then s.complete c stInvalidField
      else (s.withApst v x).complete c stOk := rfl

theorem State.setFeature_apst {x : List Byte} (h : ∀ k < 5, apstEntryOk (apstEntry x k) = true) (s : State) (c : CmdId) (v : W32) :
    s.setFeature c 12 v x = (s.withApst v x).complete c stOk := by
  rw [State.setFeature_twelve, if_neg (by simpa using h)]

theorem State.setFeature_badApst {x : List Byte} (h : ∃ k < 5, apstEntryOk (apstEntry x k) = false) (s : State) (c : CmdId)
    (v : W32) : s.setFeature c 12 v x = s.complete c stInvalidField := by
  rw [State.setFeature_twelve, if_pos (by simpa using h)]

/-! ## Events (R326) -/

theorem State.eventRequest_waits {s : State} (ha : s.qe.aers.length < 16) (he : s.qe.events = []) (c : CmdId) :
    s.eventRequest c = { s with qe := { s.qe with aers := s.qe.aers ++ [c] } } := by
  unfold State.eventRequest
  rw [if_neg (Nat.not_le.mpr ha)]
  dsimp only
  rw [he]

/-- `s` as an event of page `p`, the first that stands, is reported. -/
def State.reported (s : State) (p : Nat) (es : List Nat) : State :=
  { s with qe := { s.qe with events := es, aers := [], masked := s.qe.masked ++ [p] } }

theorem State.eventRequest_reports {s : State} {p : Nat} {es : List Nat} (ha : s.qe.aers = []) (he : s.qe.events = p :: es)
    (hm : p ∉ s.qe.masked) (hp : p ∉ es) (c : CmdId) :
    s.eventRequest c = (s.reported p es).complete c stOk (7 + p * 65536) := by
  have hfree : (s.qe.masked.contains p || es.contains p) = false := by simpa using ⟨hm, hp⟩
  unfold State.eventRequest
  rw [if_neg (by simp [ha])]
  dsimp only
  rw [he]
  dsimp only
  unfold Qe.asyncEvent
  dsimp only
  rw [hfree, ha]
  rfl

theorem State.eventRequest_full {s : State} (h : 16 ≤ s.qe.aers.length) (c : CmdId) :
    s.eventRequest c = s.complete c stAerLimit :=
  if_pos h

/-! ## Abort (R321) -/

/-- `s` with a request for events no longer waiting. -/
def State.withoutAer (s : State) (d : CmdId) : State :=
  { s with qe := { s.qe with aers := s.qe.aers.filter (fun e => !(e == d)) } }

theorem State.abortCmd_waiting {s : State} {d : CmdId} (h : d ∈ s.qe.aers) (c : CmdId) :
    s.abortCmd c d = ((s.withoutAer d).complete d stAbortRequested).complete c stOk :=
  if_pos (by simpa using h)

theorem State.abortCmd_other {s : State} {d : CmdId} (h : d ∉ s.qe.aers) (c : CmdId) : s.abortCmd c d = s.complete c stOk 1 :=
  if_neg (by simpa using h)

theorem Qe.post_keeps_completion {q : Qe} {k : Completion} (h : k ∈ q.posted ∨ k ∈ q.cqWait) (l : Completion) :
    k ∈ (q.post l).posted ∨ k ∈ (q.post l).cqWait := by
  unfold Qe.post
  dsimp only
  split
  · exact h.imp_right fun h => List.mem_append_left _ h
  · exact h.imp_left fun h => List.mem_cons_of_mem _ h

/-- A command completed stays so as another one completes. -/
theorem Completed.complete {s : State} {d : CmdId} {st a b : Nat} {x : List (List Byte)} (h : Completed s d st a b x) (c : CmdId)
    (st' a' b' : Nat) (y : List (List Byte)) : Completed (s.complete c st' a' b' y) d st a b x := by
  obtain ⟨hk, hf⟩ := h
  by_cases hc : c ∈ s.qe.fetched
  · refine ⟨?_, fun hd => ?_⟩
    · change _ ∈ (s.qe.complete c st' a' b' y).posted ∨ _ ∈ (s.qe.complete c st' a' b' y).cqWait
      rw [Qe.complete_fetched hc]
      exact Qe.post_keeps_completion (q := s.qe.release c) hk _
    · rw [State.complete_fetched hc] at hd
      exact hf (List.mem_filter.mp hd).1
  · have hsame : s.qe.complete c st' a' b' y = s.qe := if_neg (by simpa using hc)
    unfold Completed
    change ((_ ∈ (s.qe.complete c st' a' b' y).posted ∨ _ ∈ (s.qe.complete c st' a' b' y).cqWait) ∧
      _ ∉ (s.qe.complete c st' a' b' y).fetched)
    rw [hsame]
    exact ⟨hk, hf⟩

/-! ## Power states (R336, R388) -/

theorem State.setPower_above {n : Nat} (h : 4 < n) (s : State) (c : CmdId) : s.setPower c n = s.complete c stInvalidField :=
  if_pos h

theorem State.setPower_outsideGo {s : State} {n : Nat} (h : n ≤ 4) (hg : s.inGo = false) (c : CmdId) :
    s.setPower c n = State.complete { s with qe := { s.qe with psAtGo := n } } c stOk :=
  (if_neg (Nat.not_lt.mpr h)).trans (if_pos (by simp [hg]))

theorem State.setPower_refused {s : State} {n : Nat} (h : 3 ≤ n ∧ n ≤ 4) (hg : s.inGo = true) (ha : s.anyAdmitted = true)
    (c : CmdId) : s.setPower c n = s.complete c stSequence :=
  (if_neg (Nat.not_lt.mpr h.2)).trans ((if_neg (by simp [hg])).trans (if_pos (by simp [h.1, ha])))

theorem State.setPower_kept {s : State} {n : Nat} (h : n ≤ 4) (hg : s.inGo = true) (ha : n < 3 ∨ s.anyAdmitted = false) (c : CmdId) :
    s.setPower c n =
      State.complete { s with qe := { s.qe with psAtGo := n, psWant := some n, psAuto := false } } c stOk := by
  refine (if_neg (Nat.not_lt.mpr h)).trans ((if_neg (by simp [hg])).trans (if_neg ?_))
  rcases ha with ha | ha
  · simp [Nat.not_le.mpr ha]
  · simp [ha]

/-! ## The obligation -/

/-- A waiting request for events that is aborted completes, and so does the Abort. -/
theorem State.abort_waiting_spec {s : State} {c d : CmdId} (hd : d ∈ s.qe.fetched) (hcd : c ≠ d) :
    Completed ((((s.fetch c).withoutAer d).complete d stAbortRequested).complete c stOk) d stAbortRequested 0 0 [] ∧
    Completed ((((s.fetch c).withoutAer d).complete d stAbortRequested).complete c stOk) c stOk 0 0 [] ∧
    d ∉ ((((s.fetch c).withoutAer d).complete d stAbortRequested).complete c stOk).qe.aers := by
  have hmem : d ∈ ((s.fetch c).withoutAer d).qe.fetched := List.mem_append_left _ hd
  have hc : c ∈ (((s.fetch c).withoutAer d).complete d stAbortRequested).qe.fetched := by
    rw [State.complete_fetched hmem, List.mem_filter]
    exact ⟨State.mem_fetch s c, by simpa using hcd⟩
  have haers : ((((s.fetch c).withoutAer d).complete d stAbortRequested).complete c stOk).qe.aers =
      ((s.fetch c).withoutAer d).qe.aers := (Qe.complete_aers ..).trans (Qe.complete_aers ..)
  refine ⟨(State.complete_completed _ _ _ _ _ _ hmem).complete c stOk 0 0 [], State.complete_completed _ _ _ _ _ _ hc, ?_⟩
  rw [haers]
  simp [State.withoutAer]

/-- A request for events that reports one at once. -/
theorem State.reported_complete (s : State) (c : CmdId) (p : Nat) (es : List Nat) :
    Completed (((s.fetch c).reported p es).complete c stOk (7 + p * 65536)) c stOk (7 + p * 65536) 0 [] ∧
    (((s.fetch c).reported p es).complete c stOk (7 + p * 65536)).qe.events = es ∧
    p ∈ (((s.fetch c).reported p es).complete c stOk (7 + p * 65536)).qe.masked ∧
    (((s.fetch c).reported p es).complete c stOk (7 + p * 65536)).qe.aers = [] ∧
    ((s.fetch c).reported p es).complete c stOk (7 + p * 65536) =
      { s with qe := (((s.fetch c).reported p es).complete c stOk (7 + p * 65536)).qe } := by
  have hmasked : (((s.fetch c).reported p es).complete c stOk (7 + p * 65536)).qe.masked = s.qe.masked ++ [p] :=
    Qe.complete_masked ((s.fetch c).reported p es).qe c stOk (7 + p * 65536) 0 []
  refine ⟨State.complete_completed _ _ _ _ _ _ (State.mem_fetch s c), ?_, ?_, ?_, ((s.qeOnly_fetch c).withQe _).complete ..⟩
  · exact Qe.complete_events ((s.fetch c).reported p es).qe c stOk (7 + p * 65536) 0 []
  · rw [hmasked]
    exact List.mem_append_right _ (List.mem_singleton_self p)
  · exact Qe.complete_aers ((s.fetch c).reported p es).qe c stOk (7 + p * 65536) 0 []

/-- Settles O19: what each command does by the values it carries, and the power states by phase. -/
theorem adminActs : Obligations.AdminActs := by
  unfold Obligations.AdminActs
  refine ⟨?plain, ?selected, ?tables, ?unknown, ?abort, ?abortOther, ?waits, ?reports, ?full, ?kept, ?refused, ?outside, ?above⟩
  case plain =>
    intro c k v x s hs hk
    exact ⟨_, (exec_setFeatures_served hs k v x).trans (congrArg _ (State.setFeature_plain hk _ c v x)),
      s.withFeatures_complete c _⟩
  case selected =>
    intro c v x s hs
    refine ⟨fun h => ?_, fun h => ?_, fun h => ?_, fun h => ?_, fun h => ?_, fun h => ?_, rfl⟩
    · exact ⟨_, (exec_setFeatures_served hs 4 v x).trans (congrArg _ (State.setFeature_threshold h _ c x)),
        s.withFeatures_complete c _⟩
    · exact (exec_setFeatures_served hs 4 v x).trans (congrArg _ (State.setFeature_badThreshold h _ c x))
    · exact ⟨_, (exec_setFeatures_served hs 9 v x).trans (congrArg _ (State.setFeature_vector h _ c x)),
        s.withFeatures_complete c _⟩
    · exact (exec_setFeatures_served hs 9 v x).trans (congrArg _ (State.setFeature_badVector h _ c x))
    · obtain ⟨hsqs, hcqs, hlo, hhi⟩ := h
      exact (exec_setFeatures_served hs 7 v x).trans (congrArg _
        (State.setFeature_queues (s := s.fetch c) ((s.fetch_sqs_length c).symm ▸ hsqs) hcqs hlo hhi c x))
    · exact (exec_setFeatures_served hs 7 v x).trans (congrArg _
        (State.setFeature_queuesInUse (s := s.fetch c) ((s.fetch_sqs_length c).symm ▸ h) c v x))
  case tables =>
    intro c v x s hs
    refine ⟨fun h => ?_, fun h => ?_, ?_⟩
    · refine ⟨_, (exec_setFeatures_served hs 12 v x).trans (congrArg _ (State.setFeature_apst h _ c v)), ?_, ?_, fun k hk => ?_,
        ((s.qeOnly_fetch c).withQe _).complete ..⟩
      · exact State.complete_completed _ _ _ _ _ _ (State.mem_fetch s c)
      · exact Qe.complete_apstOn ..
      · exact (congrArg (fun m => KMap.find m k) (Qe.complete_apst ..)).trans (find_apstTable x hk)
    · exact (exec_setFeatures_served hs 12 v x).trans (congrArg _ (State.setFeature_badApst h _ c v))
    · exact ⟨_, exec_setFeatures_served hs 14 v x, State.complete_completed _ _ _ _ _ _ (State.mem_fetch s c),
        Qe.complete_timestamp .., ((s.qeOnly_fetch c).withQe _).complete ..⟩
  case unknown =>
    intro c k v x s hs hk
    exact (exec_setFeatures_served hs k v x).trans (congrArg _ (State.setFeature_unknown hk _ c v x))
  case abort =>
    intro c d s hs ha hd hcd
    obtain ⟨hdone, hdoneC, haers⟩ := State.abort_waiting_spec hd hcd
    exact ⟨_, (exec_abort_served hs d).trans (congrArg _ (State.abortCmd_waiting (s := s.fetch c) ha c)), hdone, hdoneC, haers,
      (((s.qeOnly_fetch c).withQe _).complete ..).complete ..⟩
  case abortOther =>
    intro c d s hs ha
    exact (exec_abort_served hs d).trans (congrArg _ (State.abortCmd_other (s := s.fetch c) ha c))
  case waits =>
    intro c s hs ha he
    exact ⟨_, (exec_asyncEventRequest_served hs).trans (congrArg _ (State.eventRequest_waits (s := s.fetch c) ha he c)), rfl,
      State.mem_fetch s c, rfl, (s.qeOnly_fetch c).withQe _⟩
  case reports =>
    intro c p es s hs ha he hm hp
    exact ⟨_, (exec_asyncEventRequest_served hs).trans
      (congrArg _ (State.eventRequest_reports (s := s.fetch c) ha he hm hp c)), State.reported_complete s c p es⟩
  case full =>
    intro c s hs ha
    exact (exec_asyncEventRequest_served hs).trans (congrArg _ (State.eventRequest_full (s := s.fetch c) ha c))
  case kept =>
    intro c n s hs hn hg ha
    exact (exec_setFeaturesPowerManagement_served hs n).trans (congrArg _ (State.setPower_kept (s := s.fetch c) hn hg ha c))
  case refused =>
    intro c n s hs hn hg ha
    exact (exec_setFeaturesPowerManagement_served hs n).trans (congrArg _ (State.setPower_refused (s := s.fetch c) hn hg ha c))
  case outside =>
    intro c n s hs hn hg
    exact (exec_setFeaturesPowerManagement_served hs n).trans (congrArg _ (State.setPower_outsideGo (s := s.fetch c) hn hg c))
  case above =>
    intro c n s hs hn
    exact (exec_setFeaturesPowerManagement_served hs n).trans (congrArg _ (State.setPower_above hn _ c))

end Sys2Proof.Machine
end

section
/-! Refutation of the statement about namespaces (R315, R316): what a format does to the map where a page lists a unit that is
not its own. -/

namespace Sys2Proof.Machine

/-- A map whose page 0, of granule 0, lists unit 32,768 of granule 1; page 8, which holds that unit, maps it to bulk. -/
def strayUnitMap : Mm :=
  { Mm.reset with
    replayed := true
    namespaces := [(1, { granules := [0], blocks := 262144, attached := true, readOnly := false, key := 1 })]
    pages :=
      [(0, { stamp := 0, units := [(32768, .unmapped)], dirty := false }),
       (8, { stamp := 0, units := [(32768, .bulk 0)], dirty := false })] }

theorem strayUnitMap_locOf : strayUnitMap.locOf 32768 = .bulk 0 := rfl

/-- A format empties every unit that a page of the namespace's granules lists. -/
theorem emptyNs_strayUnitMap_locOf : (strayUnitMap.emptyNs [] 1).locOf 32768 = .unmapped := by
  decide

/-- Refutes O20: FORMAT_NVM of the namespace that holds granule 0 unmaps a unit of granule 1 which a page of granule 0 lists; no
hypothesis of the statement ties the units a page lists to the page's number. -/
theorem not_namespaceCommands : ¬ Obligations.NamespaceCommands := by
  unfold Obligations.NamespaceCommands
  rintro ⟨-, -, -, -, -, -, hformat, -⟩
  obtain ⟨-, -, hother, -⟩ := hformat Tests.c7 1 { granules := [0], blocks := 262144, attached := true, readOnly := false, key := 1 }
    { Tests.goAdmin with mm := strayUnitMap } (by decide +kernel) rfl rfl
  have hkept : (strayUnitMap.emptyNs [] 1).locOf 32768 = strayUnitMap.locOf 32768 := hother 32768 rfl
  rw [emptyNs_strayUnitMap_locOf, strayUnitMap_locOf] at hkept
  cases hkept

end Sys2Proof.Machine
end

section
/-! Refutation of the statement about power states (R336, R371, R384): a change whose cap breaks the band posts POWER_BAND, and
MC counts the record where it is dropped. -/

namespace Sys2Proof.Machine

/-- Before the near tier is ready, the POWER_BAND record of a broken band that finds the buffer full is dropped and counted. -/
theorem State.postBand_dropped {s : State} (hn : s.ntAll = false) (hb : 256 ≤ s.fl.buffer.length) (mean dir : Nat) :
    (s.postBand mean dir).mc.dropped = sat32 (s.mc.dropped + 1) := by
  have hmc : ∀ s : State, s.report.mc = s.mc := fun s => by
    unfold State.report
    split <;> rfl
  unfold State.postBand
  dsimp only
  rw [hmc]
  exact State.postCorr_dropped hn hb ..

/-- A lower state in which nothing is lost and whose cap lies below the band's bottom drops its record there. -/
theorem State.applyPs_dropped {s : State} {n : Nat} (hn : s.ntAll = false) (hb : 256 ≤ s.fl.buffer.length) (hps : n ≠ 4)
    (hbreaks : s.capBreaksBand n = true) : (s.applyPs n).mc.dropped = sat32 (s.mc.dropped + 1) := by
  unfold State.applyPs
  dsimp only
  rw [if_neg hps, if_pos hbreaks]
  exact State.postBand_dropped (by exact hn) (by exact hb) ..

/-- An explicit change to another state, out of any but PS4, is made once nothing it forbids still runs. -/
theorem exec_powerStateChange_made {s : State} {n : Nat} (hgo : s.inGo = true) (hwant : s.qe.psWant = some n) (hne : n ≠ s.qe.ps)
    (hps : s.qe.ps ≠ 4) (hauto : s.qe.psAuto = false) (hidle : s.panelIdle = true) (hadm : s.anyAdmitted = false) :
    exec .powerStateChange s = .next (s.applyPs n) := by
  have hchange : s.powerChange = s.applyPs n := by
    simp [State.powerChange, hwant, hne, hps, hauto, hidle, hadm]
  exact congrArg done ((if_pos hgo).trans hchange)

/-- GO with a band of 4,500 W in force, PS2 asked for, the near tier not ready and 256 records in the buffer. -/
def goBandBufferFull : State :=
  { State.reset with
    mc := { Mc.reset with phase := .go }
    pc := { Pacer.reset with bandCtl := 1, targetW := 4500 }
    qe := { Qe.reset with psWant := some 2 }
    fl := { Fl.reset with buffer := List.replicate 256 (State.reset.mkRecord srcThermal kThermal 0 0 1 0 0 0), posted := 256 } }

/-- Refutes O40: no hypothesis of the statement has the near tier ready in GO or room in the record buffer, and the POWER_BAND
record of an explicit PS2 below the band is then dropped and counted in MC, which the statement leaves as it is. -/
theorem not_powerStates : ¬ Obligations.PowerStates := by
  unfold Obligations.PowerStates
  rintro ⟨hchange, -⟩
  have hmade := exec_powerStateChange_made (s := goBandBufferFull) (n := 2) rfl rfl (by decide) (by decide) rfl rfl rfl
  obtain ⟨t, hex, -, -, -, -, -, -, -, -, -, -, hmc, -⟩ := hchange 2 goBandBufferFull rfl rfl (by decide) (by decide)
    (.inl rfl) (fun _ => rfl) (fun h => absurd h (by decide))
  have hdropped := State.applyPs_dropped (s := goBandBufferFull) (n := 2) rfl List.length_replicate.ge (by decide) (by decide)
  rw [Host.Outcome.next.inj (hmade.symm.trans hex), hmc] at hdropped
  cases hdropped

end Sys2Proof.Machine
end

section
/-! Refutation of the statement about the commands of function 1 (R205, R209, R350): reading a block that lies on the flash notes
the step at which its codeword decoded. -/

namespace Sys2Proof.Machine

/-- LP_READ carries a READ of function 1 to the map and the media (R351). -/
theorem exec_lpRead_eq (s : State) : exec .lpRead s = .next (s.lpCommand (fun o => o == 1) (fun f s => s.lpStore f .read)) := rfl

/-- A READ of one block, LBA 9, at the consumer of the request ring, where the map has unit 1 in bulk. -/
def lpReadOfFlash : State :=
  { Tests.lpWith (Tests.lpCmdFrame 1 1 9) with
    mm := { (Tests.lpWith (Tests.lpCmdFrame 1 1 9)).mm with pages := [(0, { stamp := 0, units := [(1, .bulk 0)], dirty := false })] } }

/-- The read's one codeword enters the retry steps of the last 24 hours (R216). -/
theorem lpReadOfFlash_retries :
    (lpReadOfFlash.lpCommand (fun o => o == 1) (fun f s => s.lpStore f .read)).mm.retries.length = 1 := by
  decide +kernel

/-- Refutes O26: a READ of a block that lies on the flash notes the retry step of its codeword in MM, which the first clause
leaves as it is; no hypothesis has the blocks lie off the flash. -/
theorem not_ronnelCommands : ¬ Obligations.RonnelCommands := by
  unfold Obligations.RonnelCommands
  rintro ⟨hread, -⟩
  have hruns : lpReadOfFlash.lpRuns ∧ lpReadOfFlash.lp.head.opcode = 1 ∧
      lpReadOfFlash.lp.head.lba + lpReadOfFlash.lp.head.count ≤ 262144 := by decide +kernel
  have hnamespace : lpReadOfFlash.mm.namespaces.find (lpReadOfFlash.lp.volume lpReadOfFlash.lp.head.volume) =
      some { granules := [0], blocks := 262144, attached := true, readOnly := false, key := 1 } := by decide +kernel
  obtain ⟨hlp, hopcode, hrange⟩ := hruns
  obtain ⟨t, hex, -, -, -, hmm, -⟩ := hread _ lpReadOfFlash hlp rfl rfl rfl hopcode hnamespace rfl hrange (by decide +kernel)
  have hretries := lpReadOfFlash_retries
  rw [Host.Outcome.next.inj ((exec_lpRead_eq lpReadOfFlash).symm.trans hex), hmm] at hretries
  cases hretries

end Sys2Proof.Machine
end

section
/-! Version negotiation (R340 to R342, R429) and the sideband (R474, R475). -/

namespace Sys2Proof.Machine

/-! ## The commands where QE serves them -/

theorem exec_versionNegotiateOffer_served {s : State} {c : CmdId} (h : s.serves c .served) (d : Dwords) (o : List Byte)
    (w : List Bool) : exec (.versionNegotiateOffer c d o w) s = .next ((s.fetch c).offer c d o w) :=
  congrArg done (State.command_served _ h.1 h.2)

theorem exec_versionNegotiateCommit_served {s : State} {c : CmdId} (h : s.serves c .served) (d : Dwords) (w : List Bool) :
    exec (.versionNegotiateCommit c d w) s = .next ((s.fetch c).commitVersions c d w) :=
  congrArg done (State.command_served _ h.1 h.2)

theorem exec_versionNegotiateQuery_served {s : State} {c : CmdId} (h : s.serves c .served) (d : Dwords) :
    exec (.versionNegotiateQuery c d) s =
      .next (if negotiateOk d then (s.fetch c).versionsDone c else (s.fetch c).complete c stInvalidField) :=
  congrArg done (State.command_served _ h.1 h.2)

/-! ## What writing a record of a pair leaves -/

/-- `t` differs from `s` in QE, the boot store and the count of free draws alone. -/
abbrev State.qeStoreOnly (s t : State) : Prop := t = { s with qe := t.qe, sw := t.sw, tick := t.tick }

theorem State.qeStoreOnly_of {s t : State} {q : Qe} {w : Sw} {n : Nat} (h : t = { s with qe := q, sw := w, tick := n }) :
    s.qeStoreOnly t := by
  unfold State.qeStoreOnly
  rw [h]

theorem State.qeStoreOnly.update {s t : State} (h : s.qeStoreOnly t) (q : Qe) (w : Sw) (n : Nat) :
    s.qeStoreOnly { t with qe := q, sw := w, tick := n } :=
  State.qeStoreOnly_of (q := q) (w := w) (n := n) (congrArg (fun u : State => { u with qe := q, sw := w, tick := n }) h)

theorem State.qeStoreOnly.withQe {s t : State} (h : s.qeStoreOnly t) (q : Qe) : s.qeStoreOnly { t with qe := q } :=
  h.update q t.sw t.tick

theorem State.qeStoreOnly.complete {s t : State} (h : s.qeStoreOnly t) (c : CmdId) (st d0 d1 : Nat) (x : List (List Byte)) :
    s.qeStoreOnly (t.complete c st d0 d1 x) := h.withQe _

theorem State.qeStoreOnly.swErase {s t : State} (h : s.qeStoreOnly t) (k : Nat) : s.qeStoreOnly (t.swErase k) :=
  h.update t.qe (t.swErase k).sw t.tick

theorem State.qeStoreOnly.swProgram {s t : State} (h : s.qeStoreOnly t) (a : Nat) (l : List Byte) :
    s.qeStoreOnly (t.swProgram a l) :=
  h.update t.qe (t.swProgram a l).sw (t.tick + 1)

theorem State.qeStoreOnly_fetch (s : State) (c : CmdId) : s.qeStoreOnly (s.fetch c) := State.qeStoreOnly_of rfl

@[simp] theorem State.swProgramFail_qe (s : State) (a : Nat) (l : List Byte) : (s.swProgramFail a l).qe = s.qe :=
  (State.jobView_eq (State.postCorr_jobView ..)).2.1

/-- Before a record goes into the other sector of a pair, that sector is erased. -/
def State.clearFor (s : State) (n : Nat × Option Nat) : State :=
  match n.2 with
  | none => s
  | some x => s.swErase x

theorem State.qeStoreOnly.clearFor {s t : State} (h : s.qeStoreOnly t) (n : Nat × Option Nat) :
    s.qeStoreOnly (t.clearFor n) := by
  unfold State.clearFor
  split
  · exact h
  · exact h.swErase _

@[simp] theorem State.clearFor_qe (s : State) (n : Nat × Option Nat) : (s.clearFor n).qe = s.qe := by
  unfold State.clearFor
  split
  · rfl
  · exact State.swErase_qe ..

/-- A record whose first program verifies governs. -/
theorem State.logWrite_verified (s : State) (g : LogId) (p : List Byte) {w : List Bool} (h : w.getD 0 true = true) :
    ∃ a l, s.logWrite g p w = ((s.clearFor (s.sw.nextSlot g)).swProgram a l, true) :=
  ⟨_, _, if_pos h⟩

/-- A record of which both programs fail does not govern, and QE is as it was. -/
theorem State.logWrite_failed (s : State) (g : LogId) (p : List Byte) {w : List Bool} (h0 : w.getD 0 true = false)
    (h1 : w.getD 1 true = false) : ∃ t, s.logWrite g p w = (t, false) ∧ t.qe = s.qe := by
  have hne0 : ¬ w.getD 0 true = true := by rw [h0]; exact Bool.false_ne_true
  have hne1 : ¬ w.getD 1 true = true := by rw [h1]; exact Bool.false_ne_true
  refine ⟨_, (if_neg hne0).trans (if_neg hne1), ?_⟩
  rw [State.swProgramFail_qe]
  refine (State.clearFor_qe _ _).trans ?_
  rw [State.swProgramFail_qe]
  exact State.clearFor_qe ..

/-! ## Versions put in force (R341, R342) -/

/-- With the versions `v` in force. -/
def State.withVersions (s : State) (v : Versions) : State := { s with qe := { s.qe with versions := v } }

@[simp] theorem Qe.complete_versions (q : Qe) (c : CmdId) (st d0 d1 : Nat) (x : List (List Byte)) :
    (q.complete c st d0 d1 x).versions = q.versions := by
  rw [Qe.complete_keeps]

/-- Versions whose record is written are in force, and the command completes with them. -/
theorem State.setVersions_written {s : State} {c : CmdId} (hc : c ∈ s.qe.fetched) (v : Versions) {w : List Bool}
    (h : w.getD 0 true = true) :
    (s.setVersions c v w).qe.versions = v ∧
      Completed (s.setVersions c v w) c stOk (v.cmdset + 256 * v.image + 65536 * v.result + 16777216 * v.index)
        (v.agResult + 256 * v.agIndex + 65536 * s.pc.msgVersion) [] ∧
      s.qeStoreOnly (s.setVersions c v w) := by
  obtain ⟨a, l, hlog⟩ := s.logWrite_verified logVersion v.payload h
  obtain ⟨t, ht⟩ : ∃ t, t = (s.clearFor (s.sw.nextSlot logVersion)).swProgram a l := ⟨_, rfl⟩
  have honly : s.qeStoreOnly t := ht ▸ ((State.qeStoreOnly_of rfl : s.qeStoreOnly s).clearFor _).swProgram a l
  have hqe : t.qe = s.qe := by rw [ht, State.swProgram_qe, State.clearFor_qe]
  have hpc : t.pc = s.pc := by rw [honly]
  have hset : s.setVersions c v w = (t.withVersions v).versionsDone c := by
    unfold State.setVersions
    rw [hlog, ← ht]
    rfl
  have hmem : c ∈ (t.withVersions v).qe.fetched := (congrArg Qe.fetched hqe).symm ▸ hc
  rw [hset, ← hpc]
  exact ⟨Qe.complete_versions .., State.complete_completed (t.withVersions v) _ _ _ _ _ hmem,
    (honly.withQe (t.withVersions v).qe).complete ..⟩

/-- Versions whose record cannot be written stay as they were. -/
theorem State.setVersions_unwritten {s : State} {c : CmdId} (hc : c ∈ s.qe.fetched) (v : Versions) {w : List Bool}
    (h0 : w.getD 0 true = false) (h1 : w.getD 1 true = false) :
    Completed (s.setVersions c v w) c stInternal 0 0 [] ∧ (s.setVersions c v w).qe.versions = s.qe.versions := by
  obtain ⟨t, hlog, hqe⟩ := s.logWrite_failed logVersion v.payload h0 h1
  have hset : s.setVersions c v w = t.complete c stInternal := by
    unfold State.setVersions
    rw [hlog]
    rfl
  rw [hset]
  refine ⟨State.complete_completed _ _ _ _ _ _ (by rwa [hqe]), ?_⟩
  rw [← hqe]
  exact Qe.complete_versions ..

/-! ## Offers and agreements (R340, R341) -/

/-- What a well-formed offer puts in force. -/
def Versions.agreed (v : Versions) (a b r x : Nat) : Versions :=
  { cmdset := a, image := b, result := min v.result r, index := min v.index x, agCmdset := a, agImage := b, agResult := r
    agIndex := x }

theorem State.offer_malformed {s : State} {d : Dwords} {o : List Byte} (h : negotiateOk d = false ∨ zerosAt o 8 24 = false)
    (c : CmdId) (w : List Bool) : s.offer c d o w = s.complete c stInvalidField :=
  if_pos (by simpa using h)

theorem State.offer_wellFormed (s : State) {d : Dwords} {o : List Byte} (hd : negotiateOk d = true) (hz : zerosAt o 8 24 = true)
    (c : CmdId) (w : List Bool) :
    s.offer c d o w = match offered o with
      | none => s.complete c stVersion
      | some (a, b, r, x) =>
        if s.idx.any (fun e => min s.qe.versions.index x < sbFormat e.2.super) then s.complete c stSequence
        else s.setVersions c (s.qe.versions.agreed a b r x) w := by
  unfold State.offer
  rw [hd, hz]
  rfl

theorem State.offer_disjoint (s : State) {d : Dwords} {o : List Byte} (hd : negotiateOk d = true) (hz : zerosAt o 8 24 = true)
    (h : offered o = none) (c : CmdId) (w : List Bool) : s.offer c d o w = s.complete c stVersion := by
  rw [s.offer_wellFormed hd hz, h]

theorem State.offer_belowIndex {s : State} {d : Dwords} {o : List Byte} {a b r x : Nat} (hd : negotiateOk d = true)
    (hz : zerosAt o 8 24 = true) (h : offered o = some (a, b, r, x))
    (hidx : ∃ e ∈ s.idx, min s.qe.versions.index x < sbFormat e.2.super) (c : CmdId) (w : List Bool) :
    s.offer c d o w = s.complete c stSequence := by
  rw [s.offer_wellFormed hd hz, h]
  exact if_pos (by simpa using hidx)

theorem State.offer_agreed {s : State} {d : Dwords} {o : List Byte} {a b r x : Nat} (hd : negotiateOk d = true)
    (hz : zerosAt o 8 24 = true) (h : offered o = some (a, b, r, x))
    (hidx : ∀ e ∈ s.idx, sbFormat e.2.super ≤ min s.qe.versions.index x) (c : CmdId) (w : List Bool) :
    s.offer c d o w = s.setVersions c (s.qe.versions.agreed a b r x) w := by
  rw [s.offer_wellFormed hd hz, h]
  refine if_neg ?_
  rw [List.any_eq_true]
  rintro ⟨e, he, hlt⟩
  exact absurd (hidx e he) (Nat.not_le.mpr (of_decide_eq_true hlt))

/-- What COMMIT puts in force. -/
def Versions.raised (v : Versions) : Versions := { v with result := max v.result v.agResult, index := max v.index v.agIndex }

theorem State.commitVersions_wellFormed (s : State) {d : Dwords} (hd : negotiateOk d = true) (c : CmdId) (w : List Bool) :
    s.commitVersions c d w = s.setVersions c s.qe.versions.raised w := by
  unfold State.commitVersions
  rw [hd]
  rfl

theorem State.commitVersions_malformed (s : State) {d : Dwords} (hd : negotiateOk d = false) (c : CmdId) (w : List Bool) :
    s.commitVersions c d w = s.complete c stInvalidField := by
  unfold State.commitVersions
  rw [hd]
  rfl

/-! ## The sideband (R474, R475) -/

theorem State.i3cRuns_of {s : State} (hv : s.power.vinAccepted = true) (hf : s.power.failing = false) : s.i3cRuns = true := by
  simp [State.i3cRuns, hv, hf]

theorem State.i3cRuns_of_noInput {s : State} (h : s.power.vinAccepted = false ∨ s.power.failing = true) : s.i3cRuns = false := by
  rcases h with h | h <;> simp [State.i3cRuns, h]

/-- A command of NVMe-MI's own above the last is no command. -/
theorem State.miReply_ownUnknown (s : State) {o : Nat} (h : 5 < o) (n k i z : Nat) :
    s.miReply false o n k i z = { opcode := o, status := .invalidOpcode, data := [] } :=
  if_neg (Nat.not_le.mpr h)

theorem State.miReply_tunnelUnknown (s : State) {o : Nat} (h2 : o ≠ 2) (h6 : o ≠ 6) (h10 : o ≠ 10) (n k i z : Nat) :
    s.miReply true o n k i z = { opcode := o, status := .invalidOpcode, data := [] } := by
  unfold State.miReply
  rw [if_neg (by simp), if_pos (by simp [h2, h6, h10])]

theorem State.miReply_unready {s : State} {o : Nat} (ho : o = 2 ∨ o = 6 ∨ o = 10) (hp : s.mc.phase = .off ∨ s.mc.phase = .marks)
    (n k i z : Nat) : s.miReply true o n k i z = { opcode := o, status := .notReady, data := [] } := by
  have hknown : ¬ (!([2, 6, 10].contains o)) = true := by rcases ho with rfl | rfl | rfl <;> simp
  unfold State.miReply
  rw [if_neg (by simp), if_neg hknown, if_pos hp]

/-- Identify tunnelled to function 0 returns its data. -/
theorem State.miReply_identify {s : State} (hoff : s.mc.phase ≠ .off) (hmarks : s.mc.phase ≠ .marks) {n k : Nat} {d : List Byte}
    (hd : s.identifyData (k % 256) n = .inr d) (i z : Nat) :
    s.miReply true 6 n k i z = { opcode := 6, status := .success, data := sliceZ d i z } := by
  have hadmin : s.miAdmin 6 n k i z = some (sliceZ d i z) := by
    unfold State.miAdmin
    rw [hd]
    rfl
  unfold State.miReply
  rw [if_neg (by simp), if_neg (by simp), if_neg (not_or.mpr ⟨hoff, hmarks⟩), if_neg (by simp), hadmin]

/-- The reply names the command it answers. -/
theorem State.miReply_opcode (s : State) (a : Bool) (o n k i z : Nat) : (s.miReply a o n k i z).opcode = o := by
  unfold State.miReply
  cases s.miAdmin o n k i z <;> simp only [apply_ite MiReply.opcode, ite_self]

/-! ## The statement -/

/-- Settles O21: what a record of the version log leaves, an offer by its branches, and the sideband's guards. -/
theorem versionsAndSideband : Obligations.VersionsAndSideband := by
  unfold Obligations.VersionsAndSideband
  refine ⟨?agreed, ?disjoint, ?commit, ?query, ?message, ?endpoint, ?address, ?reply, ?noMessage, ?noEndpoint, ?noAddress, ?refused⟩
  case agreed =>
    intro c d o w a b r x s hs hd hz ho hidx hw
    obtain ⟨hver, hdone, honly⟩ :=
      State.setVersions_written (State.mem_fetch s c) ((s.fetch c).qe.versions.agreed a b r x) hw
    rw [exec_versionNegotiateOffer_served hs, State.offer_agreed (s := s.fetch c) hd hz ho hidx]
    refine ⟨_, rfl, hver, ⟨_, _, hdone, rfl, rfl⟩, ?_⟩
    exact State.qeStoreOnly_of (honly.trans rfl)
  case disjoint =>
    intro c d o w s hs hd hz ho
    rw [exec_versionNegotiateOffer_served hs, State.offer_disjoint _ hd hz ho]
    rfl
  case commit =>
    intro c d w s hs hd hw
    obtain ⟨hver, hdone, honly⟩ := State.setVersions_written (State.mem_fetch s c) (s.fetch c).qe.versions.raised hw
    rw [exec_versionNegotiateCommit_served hs, State.commitVersions_wellFormed _ hd]
    exact ⟨_, rfl, hver, ⟨_, _, hdone⟩, State.qeStoreOnly_of (honly.trans rfl)⟩
  case query =>
    intro c d s hs hd
    rw [exec_versionNegotiateQuery_served hs, if_pos hd]
    rfl
  case message =>
    intro a o n k i z s hv hf he
    exact congrArg done (if_pos (by simp [State.i3cRuns_of hv hf, Option.isSome_iff_ne_none.mpr he]))
  case endpoint =>
    intro e s hv hf he
    exact congrArg done (if_pos (by simp [State.i3cRuns_of hv hf, he]))
  case address =>
    intro a s hv hf hn ha
    refine (congrArg done (if_pos (by simp [State.i3cRuns_of hv hf, hn]))).trans ?_
    rw [Nat.mod_eq_of_lt ha]
  case reply =>
    intro a o n k i z s
    refine ⟨State.miReply_opcode .., ?_, ?_, ?_, ?_⟩
    · rintro rfl ho
      rw [State.miReply_ownUnknown s ho]
    · rintro rfl h2 h6 h10
      rw [State.miReply_tunnelUnknown s h2 h6 h10]
    · rintro rfl ho hp
      rw [State.miReply_unready ho hp]
    · rintro d rfl rfl hoff hmarks hd
      exact State.miReply_identify hoff hmarks hd i z
  case noMessage =>
    intro m a o n k i z s h
    refine congrArg done (if_neg ?_)
    rcases h with h | h | h
    · simp [h]
    · simp [h]
    · simp [State.i3cRuns_of_noInput h]
  case noEndpoint =>
    intro e s h
    refine congrArg done (if_neg ?_)
    rcases h with h | h | h
    · simp [h]
    · simp [Nat.not_lt.mpr h]
    · simp [State.i3cRuns_of_noInput h]
  case noAddress =>
    intro a s h
    refine congrArg done (if_neg ?_)
    rcases h with h | h
    · simp [h]
    · simp [State.i3cRuns_of_noInput h]
  case refused =>
    intro c d o w s hs
    rw [exec_versionNegotiateOffer_served hs, exec_versionNegotiateCommit_served hs, exec_versionNegotiateQuery_served hs]
    refine ⟨fun h => ?_, fun hd => ⟨?_, ?_⟩, fun a b r x hd hz ho hidx => ?_, fun hd h0 h1 => ?_⟩
    · rw [State.offer_malformed h]
      rfl
    · rw [State.commitVersions_malformed _ hd]
      rfl
    · rw [hd]
      rfl
    · rw [State.offer_belowIndex (s := s.fetch c) hd hz ho hidx]
      rfl
    · rw [State.commitVersions_wellFormed _ hd]
      obtain ⟨hdone, hver⟩ := State.setVersions_unwritten (State.mem_fetch s c) (s.fetch c).qe.versions.raised h0 h1
      exact ⟨_, rfl, hdone, hver⟩

end Sys2Proof.Machine
end

section
/-! The pins and the converters (R332, R378, R404, R471 to R473). -/

namespace Sys2Proof.Machine

/-! ## MOD_EN and PERST# by their cases -/

theorem exec_modEnAssert_up {s : State} (h : s.power.modEn = false) (hv : s.power.vinAccepted = true)
    (hb : s.power.bankCharged = true) (hf : s.power.failing = false) :
    exec .modEnAssert s = .next (({ s with power := { s.power with modEn := true } } : State).powerUp 1) :=
  congrArg done ((if_neg (by simp [h])).trans (if_pos (by simp [hv, hb, hf])))

theorem exec_modEnAssert_noted {s : State} (h : s.power.modEn = false)
    (hn : s.power.vinAccepted = false ∨ s.power.bankCharged = false ∨ s.power.failing = true) :
    exec .modEnAssert s = .next { s with power := { s.power with modEn := true } } :=
  congrArg done ((if_neg (by simp [h])).trans (if_neg (by rcases hn with hn | hn | hn <;> simp [hn])))

theorem exec_modEnAssert_again {s : State} (h : s.power.modEn = true) : exec .modEnAssert s = .next s :=
  congrArg done (if_pos h)

/-- The main rails off and MOD_EN deasserted, the entry that was held off forgotten. -/
def State.standby (s : State) : State :=
  { s with power := { s.power.railsOff with modEn := false }, mc := { s.mc with deferred := none } }

theorem exec_modEnDeassert_off {s : State} (h : s.power.modEn = true) (hf : s.power.failing = false)
    (hg : s.power.pwrGood = true) : exec .modEnDeassert s = .next s.cutStoreOp.cutInternal.stopAll.standby.alert :=
  congrArg done ((if_neg (by simp [h])).trans (if_neg (by simp [hf, hg])))

theorem exec_modEnDeassert_noted {s : State} (h : s.power.modEn = true) (hn : s.power.failing = true ∨ s.power.pwrGood = false) :
    exec .modEnDeassert s = .next { s with power := { s.power with modEn := false } } :=
  congrArg done ((if_neg (by simp [h])).trans (if_pos (by rcases hn with hn | hn <;> simp [hn])))

theorem exec_modEnDeassert_again {s : State} (h : s.power.modEn = false) : exec .modEnDeassert s = .next s :=
  congrArg done (if_pos (by simp [h]))

/-- The level of PERST#. -/
def State.withPerst (s : State) (b : Bool) : State := { s with power := { s.power with perst := b } }

theorem exec_perstAssert_stops {s : State} (h : s.power.perst = false) (hg : s.power.pwrGood = true) (hp : s.mc.phase ≠ .off) :
    exec .perstAssert s = .next (s.stopAll.withPerst true).alert := by
  have hup : (s.power.pwrGood && s.mc.phase != .off) = true := by simp [hg, hp]
  refine congrArg done ((if_neg (by simp [h])).trans ?_)
  rw [hup]
  rfl

theorem exec_perstAssert_noted {s : State} (h : s.power.perst = false) (hn : s.power.pwrGood = false ∨ s.mc.phase = .off) :
    exec .perstAssert s = .next (s.withPerst true) := by
  have hdown : (s.power.pwrGood && s.mc.phase != .off) = false := by rcases hn with hn | hn <;> simp [hn]
  refine congrArg done ((if_neg (by simp [h])).trans ?_)
  rw [hdown]
  rfl

theorem exec_perstAssert_again {s : State} (h : s.power.perst = true) : exec .perstAssert s = .next s :=
  congrArg done (if_pos h)

theorem exec_perstDeassert_enters {s : State} (h : s.power.perst = true) (hg : s.power.pwrGood = true) :
    exec .perstDeassert s = .next ((s.withPerst false).cutInternal.enterMarks (s.mc.deferred.getD 2)) :=
  congrArg done ((if_neg (by simp [h])).trans (if_pos hg))

theorem exec_perstDeassert_noted {s : State} (h : s.power.perst = true) (hg : s.power.pwrGood = false) :
    exec .perstDeassert s = .next (s.withPerst false) :=
  congrArg done ((if_neg (by simp [h])).trans (if_neg (by simp [hg])))

theorem exec_perstDeassert_again {s : State} (h : s.power.perst = false) : exec .perstDeassert s = .next s :=
  congrArg done (if_pos (by simp [h]))

/-! ## Entry to MARKS with the rails up (R378, R471) -/

/-- The power of a state whose main rails have come up. -/
def Power.railsOn (p : Power) : Power :=
  { p with pwrGood := true, hostRail := true, flashRail := true, dramRail := true, badRails := [] }

theorem State.powerUp_enters {s : State} (h : s.power.perst = false) (e : Nat) :
    s.powerUp e = ({ s with power := s.power.railsOn } : State).enterMarks e :=
  if_neg (by simp [h])

theorem State.powerUp_defers {s : State} (h : s.power.perst = true) (e : Nat) :
    s.powerUp e = { s with power := s.power.railsOn, mc := { s.mc with deferred := some (s.mc.deferred.getD e) } } :=
  if_pos h

/-- The MC of an entry to MARKS, by its fields. -/
theorem State.enterMarks_mc (s : State) (e : Nat) :
    (s.enterMarks e).mc.phase = .marks ∧ (s.enterMarks e).mc.entry = e ∧
      (s.enterMarks e).mc.entries = sat16 (s.mc.entries + 1) ∧ (s.enterMarks e).mc.deferred = none := by
  rw [(s.enterMarks_spec e).1]
  exact ⟨rfl, rfl, rfl, rfl⟩

/-! ## Every block stopped (R332, R378) -/

/-- ALERT# and a change of the pins, rails and deferred entry leave a stopped module stopped. -/
theorem State.stopped_of {s t : State} (htiles : t.tiles = s.stopAll.tiles) (hrl : t.rl = s.stopAll.rl)
    (hjd : t.jd = s.stopAll.jd) (hqe : t.qe = s.stopAll.qe) (hsl : t.sl = s.stopAll.sl) (hfl : t.fl = s.stopAll.fl) :
    t.tiles = [] ∧ t.rl.near = [] ∧ t.jd = Jd.reset ∧ t.qe.fetched = [] ∧ t.sl = Sl.reset ∧ t.fl = Fl.reset := by
  obtain ⟨-, htiles', hnear, hjd', hfetched, hsl', hfl'⟩ := s.stopAll_spec
  exact ⟨htiles.trans htiles', by rw [hrl, hnear], hjd.trans hjd', by rw [hqe, hfetched], hsl.trans hsl', hfl.trans hfl'⟩

/-! ## A failing converter (R404, R472) -/

/-- The power once converter `rail` of kind `k` has failed, the input then at `v`. -/
def Power.failRail (p : Power) (rail : Nat) (k : RailKind) (v : Nat) : Power :=
  { p with
    vin10mV := v, badRails := if p.badRails.contains rail then p.badRails else rail :: p.badRails,
    hostRail := p.hostRail && k != .hostDie, flashRail := p.flashRail && k != .flash,
    tileSupply := p.tileSupply && k != .tile, dramRail := p.dramRail && k != .dram,
    pwrGood := p.pwrGood && k != .hostDie && k != .flash }

theorem Power.mem_failRail (p : Power) (rail : Nat) (k : RailKind) (v : Nat) : rail ∈ (p.failRail rail k v).badRails := by
  unfold Power.failRail
  dsimp only
  split
  next h => exact List.contains_iff_mem.mp h
  next => exact List.mem_cons_self ..

/-- A converter has failed. -/
def State.failRail (s : State) (rail : Nat) (k : RailKind) (v : Nat) : State := { s with power := s.power.failRail rail k v }

theorem exec_railFault_linkUp {s : State} (h : s.linkUp = true) (rail : Nat) (k : RailKind) (v : Nat) :
    exec (.railFault rail k v) s = .next ((s.failRail rail k v).postFatal srcPower kPowerBand 0 (BitVec.ofNat 32 v)
      (BitVec.ofNat 32 (12 + 256 * (rail % 256))) 0 0) :=
  congrArg done (if_neg (by simp [h]))

theorem exec_railFault_linkDown {s : State} (h : s.linkUp = false) (rail : Nat) (k : RailKind) (v : Nat) :
    exec (.railFault rail k v) s = .next s :=
  congrArg done (if_pos (by simp [h]))

/-! ## The statement -/

/-- Settles O7: each pin by the branches of its command, with what an entry to MARKS and a stop of every block leave. -/
theorem pinEvents : Obligations.PinEvents := by
  unfold Obligations.PinEvents
  refine ⟨?modUp, ?modHeld, ?modNoted, ?modAgain, ?modOff, ?modOffNoted, ?modOffAgain, ?perst, ?perstNoted, ?perstAgain, ?release,
    ?releaseNoted, ?releaseAgain, ?rail, ?railRecord, ?railDown⟩
  case modUp =>
    intro s h hv hb hf hp
    obtain ⟨u, hu⟩ : ∃ u : State, u = { s with power := { s.power with modEn := true }.railsOn } := ⟨_, rfl⟩
    have hup : exec .modEnAssert s = .next (u.enterMarks 1) := by
      rw [exec_modEnAssert_up h hv hb hf, State.powerUp_enters (by exact hp), hu]
    obtain ⟨hmc, hpower, hpc, htiles, hjd, hrl, -, hsw, hsl, hlp, -⟩ := u.enterMarks_spec 1
    obtain ⟨hphase, hentry, hentries, -⟩ := u.enterMarks_mc 1
    refine ⟨_, hup, ?_, hphase, hentry, ?_, ?_, htiles, hjd, hsl, hlp, by rw [hrl]; rfl, ?_, ?_, ?_⟩
    · rw [hmc, hu]
    · rw [hentries, hu]
    · refine hpower.trans ?_
      rw [show u.power = { s.power with modEn := true }.railsOn from hu ▸ rfl, ← hp]
      rfl
    · rw [hrl, hu]
    · rw [hsw, hu]
      rfl
    · rw [hpc, hu]
  case modHeld =>
    intro s h hv hb hf hp
    rw [exec_modEnAssert_up h hv hb hf, State.powerUp_defers (by exact hp)]
    rfl
  case modNoted => exact fun s h hn => exec_modEnAssert_noted h hn
  case modAgain => exact fun s h => exec_modEnAssert_again h
  case modOff =>
    intro s h hf hg
    obtain ⟨u, hu⟩ : ∃ u : State, u = s.cutStoreOp.cutInternal := ⟨_, rfl⟩
    have hoff : exec .modEnDeassert s = .next u.stopAll.standby.alert := hu ▸ exec_modEnDeassert_off h hf hg
    have hpower : u.stopAll.standby.alert.power = { u.stopAll.standby.power with
        alertSeen := u.stopAll.standby.alertCauses, ibis := u.stopAll.standby.alert.power.ibis } := by
      rw [State.alert_eq]
    refine ⟨_, hoff, ?_, ?_, ?_, ?_, ?_, ?_, ?_, ?_, ?_, ?_, State.stopped_of (s := u) ?_ ?_ ?_ ?_ ?_ ?_⟩
    iterate 8 rw [hpower]; rfl
    · rw [State.alert_mc]
      exact u.stopAll_spec.1
    · rw [State.alert_mc]
      rfl
    · exact State.alert_tiles _
    · exact State.alert_rl _
    · exact State.alert_jd _
    · exact State.alert_qe _
    · exact State.alert_sl _
    · exact State.alert_fl _
  case modOffNoted => exact fun s h hn => exec_modEnDeassert_noted h hn
  case modOffAgain => exact fun s h => exec_modEnDeassert_again h
  case perst =>
    intro s h hg hp
    refine ⟨_, exec_perstAssert_stops h hg hp, ?_, ?_, State.stopped_of (s := s) ?_ ?_ ?_ ?_ ?_ ?_⟩
    · rw [State.alert_eq]
      rfl
    · rw [State.alert_mc]
      exact s.stopAll_spec.1
    · exact State.alert_tiles _
    · exact State.alert_rl _
    · exact State.alert_jd _
    · exact State.alert_qe _
    · exact State.alert_sl _
    · exact State.alert_fl _
  case perstNoted => exact fun s h hn => exec_perstAssert_noted h hn
  case perstAgain => exact fun s h => exec_perstAssert_again h
  case release =>
    intro s h hg
    obtain ⟨u, hu⟩ : ∃ u : State, u = (s.withPerst false).cutInternal := ⟨_, rfl⟩
    obtain ⟨hkmc, hkpc⟩ := (s.withPerst false).cutInternal_keeps
    rw [← hu] at hkmc hkpc
    obtain ⟨-, hpower, hpc, htiles, hjd, hrl, -, -, hsl, hlp, -⟩ := u.enterMarks_spec (s.mc.deferred.getD 2)
    obtain ⟨hphase, hentry, hentries, hdeferred⟩ := u.enterMarks_mc (s.mc.deferred.getD 2)
    refine ⟨_, hu ▸ exec_perstDeassert_enters h hg, by rw [hpower], hphase, hentry, ?_, hdeferred, ?_, htiles, hjd, hsl, hlp,
      by rw [hrl]; rfl⟩
    · rw [hentries, hkmc]
      rfl
    · rw [hpc, hkpc]
      rfl
  case releaseNoted => exact fun s h hg => exec_perstDeassert_noted h hg
  case releaseAgain => exact fun s h => exec_perstDeassert_again h
  case rail =>
    intro rail v k s h
    exact ⟨s.power.failRail rail k v, rfl, s.power.mem_failRail rail k v, rfl, rfl, rfl, rfl, rfl, exec_railFault_linkUp h rail k v⟩
  case railRecord =>
    intro rail v k s h hnt hb hg hc
    obtain ⟨hrec, hstands, hpower⟩ := (s.failRail rail k v).postFatal_spec srcPower kPowerBand 0 (BitVec.ofNat 32 v)
      (BitVec.ofNat 32 (12 + 256 * (rail % 256))) 0 0 hnt hb hg hc
    refine ⟨_, exec_railFault_linkUp h rail k v, hrec, ?_, ?_, ?_, ?_, ?_, hstands⟩
    · rw [hpower]
      rfl
    · rw [hpower]
      exact s.power.mem_failRail rail k v
    iterate 3 rw [hpower]; rfl
  case railDown => exact fun rail v k s h => exec_railFault_linkDown h rail k v

end Sys2Proof.Machine
end

section
/-! The peer inbound window (R338, R339, R344): a byte in the youngest open granule, bytes that fill one, and a flush. -/

namespace Sys2Proof.Machine

/-! ## The bytes of a granule -/

/-- Bytes as a granule lists them, from its byte `k` on. -/
def windowBytes (k : Nat) (d : List Byte) : KMap Byte := d.mapIdx (fun i b => (k + i, b))

@[simp] theorem windowBytes_nil (k : Nat) : windowBytes k [] = [] := rfl

theorem windowBytes_cons (k : Nat) (b : Byte) (d : List Byte) : windowBytes k (b :: d) = (k, b) :: windowBytes (k + 1) d := by
  unfold windowBytes
  rw [List.mapIdx_cons]
  congr 2
  funext i c
  rw [Nat.add_right_comm, Nat.add_assoc]

@[simp] theorem length_windowBytes (k : Nat) (d : List Byte) : (windowBytes k d).length = d.length := List.length_mapIdx

theorem find_windowBytes (k : Nat) {d : List Byte} {i : Nat} (h : i < d.length) : (windowBytes k d).find (k + i) = some d[i] := by
  induction d generalizing k i with
  | nil => exact absurd h (Nat.not_lt_zero i)
  | cons b d ih =>
    rw [windowBytes_cons, KMap.find_cons]
    cases i with
    | zero => exact if_pos rfl
    | succ i =>
      rw [if_neg (by omega), show k + (i + 1) = k + 1 + i by omega]
      exact ih (k + 1) (Nat.lt_of_succ_lt_succ h)

theorem windowBytes_concat (k : Nat) (d : List Byte) (b : Byte) :
    windowBytes k (d ++ [b]) = windowBytes k d ++ [(k + d.length, b)] := List.mapIdx_concat

/-- The 32 bytes of a granule that was written whole. -/
theorem map_findD_windowBytes {d : List Byte} (h : d.length = 32) :
    (List.range 32).map (fun i => (windowBytes 0 d).findD i 0) = d := by
  refine List.ext_getElem (by simp [h]) (fun i hi hd => ?_)
  have hfind := find_windowBytes 0 hd
  rw [Nat.zero_add] at hfind
  simp [KMap.findD, hfind]

theorem KMap.put_append {α : Type} {m : KMap α} {n : Nat} (h : ∀ e ∈ m, e.1 < n) (v : α) : m.put n v = m ++ [(n, v)] := by
  induction m with
  | nil => rfl
  | cons e m ih =>
    obtain ⟨k, w⟩ := e
    have hk : k < n := h _ (List.mem_cons_self ..)
    unfold KMap.put
    rw [if_neg (by omega), if_neg (by omega), ih (fun e he => h e (List.mem_cons_of_mem _ he))]
    rfl

/-! ## Writing granules out -/

/-- The granules that stand open. -/
def State.withOpen (s : State) (os : List OpenGranule) : State := { s with qe := { s.qe with p2pOpen := os } }

@[simp] theorem State.withOpen_withOpen (s : State) (os ps : List OpenGranule) : (s.withOpen os).withOpen ps = s.withOpen ps := rfl

theorem State.withOpen_self {s : State} {os : List OpenGranule} (h : s.qe.p2pOpen = os) : s.withOpen os = s := by
  subst h
  rfl

theorem State.readCell_writeGranule_in (s : State) (g : OpenGranule) {i : Nat} (h : i < 32) :
    readCell 0 (s.writeGranule g).rl.near (g.addr + i) = g.bytes.findD i 0 := by
  refine (readCell_writeCells_in 0 s.rl.near g.addr _ i (by simpa using h)).trans ?_
  simp

theorem State.readCell_writeGranule_out (s : State) (g : OpenGranule) {a : Nat} (h : a < g.addr ∨ g.addr + 32 ≤ a) :
    readCell 0 (s.writeGranule g).rl.near a = readCell 0 s.rl.near a :=
  readCell_writeCells_out 0 s.rl.near g.addr _ a (by simpa using h)

/-- Writing granules out changes no byte outside them. -/
theorem State.readCell_writeGranules_out (gs : List OpenGranule) (s : State) {a : Nat}
    (h : ∀ g ∈ gs, a < g.addr ∨ g.addr + 32 ≤ a) :
    readCell 0 (gs.foldl State.writeGranule s).rl.near a = readCell 0 s.rl.near a := by
  induction gs generalizing s with
  | nil => rfl
  | cons g gs ih =>
    exact (ih _ (fun x hx => h x (List.mem_cons_of_mem _ hx))).trans
      (s.readCell_writeGranule_out g (h g (List.mem_cons_self ..)))

/-- Granules written out change the near tier's bytes alone. -/
theorem State.writeGranules_nearOnly (gs : List OpenGranule) (s : State) :
    gs.foldl State.writeGranule s = { s with rl := { s.rl with near := (gs.foldl State.writeGranule s).rl.near } } := by
  induction gs generalizing s with
  | nil => rfl
  | cons g gs ih => exact ih (s.writeGranule g)

theorem State.p2pFlush_closed {s : State} (h : s.qe.p2pOpen = []) : s.p2pFlush = s := by
  unfold State.p2pFlush
  rw [h]
  exact State.withOpen_self h

/-- With nothing open there is room. -/
theorem State.p2pRoom_closed {s : State} (h : s.qe.p2pOpen = []) : s.p2pRoom = s := by
  unfold State.p2pRoom
  rw [h]

/-- With 4,096 granules open the oldest goes out. -/
theorem State.p2pRoom_full {s : State} {o : OpenGranule} {os : List OpenGranule} (h : s.qe.p2pOpen = o :: os)
    (hfull : os.length = 4095) : s.p2pRoom = (s.withOpen os).writeGranule o := by
  unfold State.p2pRoom
  rw [h]
  exact if_pos (by rw [List.length_cons, hfull])

/-! ## A byte arrives -/

/-- Granule `base` opened, with room made for it. -/
def State.opened (s : State) (base : Nat) : State := s.p2pRoom.withOpen (s.p2pRoom.qe.p2pOpen ++ [{ addr := base, bytes := [] }])

/-- A byte whose granule is not open opens it. -/
theorem State.p2pByte_opens {s : State} {a : Nat} (h : ∀ g ∈ s.qe.p2pOpen, g.addr ≠ a / 32 * 32) (b : Byte) :
    s.p2pByte a b = (s.opened (a / 32 * 32)).p2pByte a b := by
  have hclosed : ¬ s.qe.p2pOpen.any (fun g => g.addr == a / 32 * 32) = true := by
    rw [List.any_eq_true]
    rintro ⟨g, hg, haddr⟩
    exact h g hg (eq_of_beq haddr)
  have hopen : (s.opened (a / 32 * 32)).qe.p2pOpen.any (fun g => g.addr == a / 32 * 32) = true := by
    simp [State.opened, State.withOpen]
  unfold State.p2pByte
  dsimp only
  rw [if_neg hclosed, if_pos hopen]
  rfl

/-- The granules once a byte has come into the youngest, whose bytes all lie below it. -/
theorem map_put_youngest {os : List OpenGranule} {g : OpenGranule} (hos : ∀ h ∈ os, h.addr ≠ g.addr) {k : Nat}
    (hg : ∀ e ∈ g.bytes, e.1 < k) (b : Byte) :
    (os ++ [g]).map (fun h => if h.addr = g.addr then { h with bytes := h.bytes.put k b } else h) =
      os ++ [{ g with bytes := g.bytes ++ [(k, b)] }] := by
  rw [List.map_append, List.map_cons, List.map_nil, if_pos rfl, KMap.put_append hg]
  congr 1
  exact (List.map_congr_left fun h hh => if_neg (hos h hh)).trans (List.map_id _)

/-- A byte into the youngest granule, as `State.p2pByte` goes on from there. -/
theorem State.p2pByte_youngest {s : State} {os : List OpenGranule} {g : OpenGranule} {k : Nat} (hs : s.qe.p2pOpen = os ++ [g])
    (hos : ∀ h ∈ os, h.addr ≠ g.addr) (haddr : g.addr % 32 = 0) (hk : k < 32) (hg : ∀ e ∈ g.bytes, e.1 < k) (b : Byte) :
    s.p2pByte (g.addr + k) b =
      if 32 ≤ g.bytes.length + 1 then (s.withOpen os).writeGranule { g with bytes := g.bytes ++ [(k, b)] }
      else s.withOpen (os ++ [{ g with bytes := g.bytes ++ [(k, b)] }]) := by
  have hbase : (g.addr + k) / 32 * 32 = g.addr := by omega
  have hoff : (g.addr + k) % 32 = k := by omega
  have hopen : (os ++ [g]).any (fun h => h.addr == g.addr) = true := by simp
  have hnone : os.find? (fun h => h.addr == g.addr && 32 ≤ h.bytes.length) = none :=
    List.find?_eq_none.mpr fun h hh => by simp [hos h hh]
  have hkeep : os.filter (fun h => h.addr != g.addr) = os := List.filter_eq_self.mpr fun h hh => by simpa using hos h hh
  unfold State.p2pByte
  dsimp only
  rw [hbase, hoff, hs, if_pos hopen, hs, map_put_youngest hos hg, List.find?_append, hnone, List.filter_append, hkeep]
  by_cases hfull : 32 ≤ g.bytes.length + 1
  · simp [hfull, State.withOpen]
  · simp [hfull, State.withOpen]

/-- Bytes into the youngest granule that do not fill it. -/
theorem State.p2pBytes_youngest {os : List OpenGranule} (d : List Byte) {s : State} {g : OpenGranule} {k : Nat}
    (hs : s.qe.p2pOpen = os ++ [g]) (hos : ∀ h ∈ os, h.addr ≠ g.addr) (haddr : g.addr % 32 = 0) (hk : k + d.length ≤ 32)
    (hg : ∀ e ∈ g.bytes, e.1 < k) (hroom : g.bytes.length + d.length < 32) :
    s.p2pBytes (g.addr + k) d = s.withOpen (os ++ [{ g with bytes := g.bytes ++ windowBytes k d }]) := by
  induction d generalizing s g k with
  | nil =>
    rw [windowBytes_nil, List.append_nil]
    exact (State.withOpen_self hs).symm
  | cons b d ih =>
    rw [List.length_cons] at hk hroom
    have hbyte := State.p2pByte_youngest hs hos haddr (by omega) hg b
    rw [if_neg (by omega)] at hbyte
    show (s.p2pByte (g.addr + k) b).p2pBytes (g.addr + k + 1) d = _
    rw [hbyte, windowBytes_cons]
    have hrest := ih (s := s.withOpen (os ++ [{ g with bytes := g.bytes ++ [(k, b)] }])) (k := k + 1)
      (g := { g with bytes := g.bytes ++ [(k, b)] }) rfl hos haddr (by omega)
      (fun e he => by
        rcases List.mem_append.mp he with he | he
        · exact Nat.lt_succ_of_lt (hg e he)
        · rw [List.mem_singleton.mp he]
          exact Nat.lt_succ_self k)
      (by rw [List.length_append, List.length_singleton]; omega)
    rw [List.append_assoc, State.withOpen_withOpen] at hrest
    exact hrest

theorem State.p2pBytes_append (s : State) (a : Nat) (d e : List Byte) :
    s.p2pBytes a (d ++ e) = (s.p2pBytes a d).p2pBytes (a + d.length) e := by
  induction d generalizing s a with
  | nil => rfl
  | cons b d ih =>
    rw [List.length_cons, show a + (d.length + 1) = a + 1 + d.length by omega]
    exact ih ..

/-- Bytes whose granule is not open open it. -/
theorem State.p2pBytes_opens {s : State} {a : Nat} (h : ∀ g ∈ s.qe.p2pOpen, g.addr ≠ a / 32 * 32) {d : List Byte}
    (hd : 0 < d.length) : s.p2pBytes a d = (s.opened (a / 32 * 32)).p2pBytes a d := by
  cases d with
  | nil => exact absurd hd (Nat.lt_irrefl 0)
  | cons b d => exact congrArg (fun t : State => t.p2pBytes (a + 1) d) (State.p2pByte_opens h b)

/-- With room made, a write inside one granule leaves it open. -/
theorem State.p2pBytes_part {s : State} {a : Nat} {os : List OpenGranule} (hroom : s.p2pRoom.qe.p2pOpen = os)
    (h : ∀ g ∈ s.qe.p2pOpen, g.addr ≠ a / 32 * 32) (hos : ∀ g ∈ os, g.addr ≠ a / 32 * 32) {d : List Byte} (hd : 0 < d.length)
    (hin : a % 32 + d.length < 32) :
    s.p2pBytes a d = s.p2pRoom.withOpen (os ++ [{ addr := a / 32 * 32, bytes := windowBytes (a % 32) d }]) := by
  have hbytes := State.p2pBytes_youngest d (s := s.opened (a / 32 * 32)) (os := os) (g := { addr := a / 32 * 32, bytes := [] })
    (k := a % 32) (by rw [← hroom]; rfl) hos (Nat.mul_mod_left ..) (by omega) (fun e he => absurd he List.not_mem_nil)
    (by rw [List.length_nil]; omega)
  rw [State.p2pBytes_opens h hd]
  refine Eq.trans ?_ hbytes
  rw [show a / 32 * 32 + a % 32 = a by omega]

/-- A write of one whole granule goes out at once. -/
theorem State.p2pBytes_whole {s : State} {a : Nat} (h : s.qe.p2pOpen = []) {d : List Byte} (hd : d.length = 32)
    (ha : a % 32 = 0) : s.p2pBytes a d = s.writeGranule { addr := a, bytes := windowBytes 0 d } := by
  obtain ⟨e, b, rfl⟩ : ∃ e b, d = e ++ [b] :=
    ⟨d.dropLast, d.getLast (by rintro rfl; cases hd), (List.dropLast_append_getLast _).symm⟩
  rw [List.length_append, List.length_singleton] at hd
  have hlen : e.length = 31 := Nat.succ.inj hd
  have hbase : a / 32 * 32 = a := by omega
  have hopened : s.opened a = s.withOpen [{ addr := a, bytes := [] }] := by
    unfold State.opened
    rw [State.p2pRoom_closed h, h]
    rfl
  have hpart : (s.opened a).p2pBytes a e = s.withOpen [{ addr := a, bytes := windowBytes 0 e }] := by
    rw [hopened]
    exact State.p2pBytes_youngest e (os := []) (g := { addr := a, bytes := [] }) (k := 0) rfl
      (fun g hg => absurd hg List.not_mem_nil) ha (by omega) (fun e he => absurd he List.not_mem_nil)
      (by rw [List.length_nil]; omega)
  have hlast := State.p2pByte_youngest (s := s.withOpen [{ addr := a, bytes := windowBytes 0 e }]) (os := [])
    (g := { addr := a, bytes := windowBytes 0 e }) (k := 31) rfl (fun g hg => absurd hg List.not_mem_nil) ha (by omega)
    (fun x hx => by
      obtain ⟨i, hi, rfl⟩ := List.mem_mapIdx.mp hx
      show 0 + i < 31
      omega) b
  rw [if_pos (by rw [length_windowBytes]; omega), State.withOpen_withOpen, State.withOpen_self h] at hlast
  rw [State.p2pBytes_opens (by rw [h]; exact fun g hg => absurd hg List.not_mem_nil) (by rw [List.length_append]; exact Nat.succ_pos _),
    hbase, State.p2pBytes_append, hpart, windowBytes_concat, hlen]
  exact hlast

/-! ## Where a write of the window lands (R338) -/

theorem State.p2pTarget_lands {s : State} {w n : Nat} {r : Region} (hon : bitW s.qe.p2pCfg 31 = true)
    (hr : s.region (bitsW s.qe.p2pCfg 9 0) = some r) (hkind : r.kind = 5 ∧ r.tier = 0)
    (hfits : s.qe.p2pBase.toNat + (w - 0x4000) + n ≤ r.size) :
    s.p2pTarget w n = some (r.base + (s.qe.p2pBase.toNat + (w - 0x4000))) := by
  unfold State.p2pTarget
  rw [hr]
  exact if_pos (by simp [hon, hkind, hfits])

theorem State.p2pTarget_discards {s : State} {w n : Nat} (h : bitW s.qe.p2pCfg 31 = false ∨
    s.region (bitsW s.qe.p2pCfg 9 0) = none ∨ ∃ r, s.region (bitsW s.qe.p2pCfg 9 0) = some r ∧
      (r.kind ≠ 5 ∨ r.size < s.qe.p2pBase.toNat + (w - 0x4000) + n)) : s.p2pTarget w n = none := by
  unfold State.p2pTarget
  cases hr : s.region (bitsW s.qe.p2pCfg 9 0) with
  | none => rfl
  | some r =>
    refine if_neg ?_
    rcases h with hoff | hnone | ⟨r', hr', hbad⟩
    · simp [hoff]
    · rw [hr] at hnone
      cases hnone
    · obtain rfl : r = r' := Option.some.inj (hr.symm.trans hr')
      rcases hbad with hkind | hsize
      · simp [hkind]
      · simp [Nat.not_le.mpr hsize]

theorem exec_peerWindowWrite_inside {s : State} {w : Nat} {d : List Byte} (hl : s.vendorLive = true) (hlow : 0x4000 ≤ w)
    (hhigh : w + d.length ≤ 0x100000) :
    exec (.peerWindowWrite w d) s = .next (match s.p2pTarget w d.length with
      | some a => s.p2pBytes a d
      | none => { s with qe := { s.qe with p2pDiscard := sat32 (s.qe.p2pDiscard + 1), event := setEv s.qe.event 3 } }) :=
  congrArg done (if_neg (by simp [hl, Nat.not_lt.mpr hlow, Nat.not_lt.mpr hhigh]))

theorem exec_peerWindowWrite_lands {s : State} {w : Nat} {d : List Byte} {r : Region} (hl : s.vendorLive = true)
    (hlow : 0x4000 ≤ w) (hhigh : w + d.length ≤ 0x100000) (hon : bitW s.qe.p2pCfg 31 = true)
    (hr : s.region (bitsW s.qe.p2pCfg 9 0) = some r) (hkind : r.kind = 5 ∧ r.tier = 0)
    (hfits : s.qe.p2pBase.toNat + (w - 0x4000) + d.length ≤ r.size) :
    exec (.peerWindowWrite w d) s = .next (s.p2pBytes (r.base + (s.qe.p2pBase.toNat + (w - 0x4000))) d) := by
  rw [exec_peerWindowWrite_inside hl hlow hhigh, State.p2pTarget_lands hon hr hkind hfits]

theorem exec_peerWindowWrite_none {s : State} {w : Nat} {d : List Byte}
    (h : s.vendorLive = false ∨ w < 0x4000 ∨ 0x100000 < w + d.length) : exec (.peerWindowWrite w d) s = .next s :=
  congrArg done (if_pos (by simpa [or_assoc] using h))

theorem exec_qeP2pFlush_live {s : State} (h : s.vendorLive = true) : exec .qeP2pFlush s = .next s.p2pFlush :=
  congrArg done (if_pos h)

/-- QE_P2P_CFG written, what stood open written out before. -/
theorem exec_qeP2pCfgWrite_live {s : State} (h : s.vendorLive = true) (v : W32) :
    exec (.qeP2pCfgWrite v) s =
      .next { s.p2pFlush with qe := { s.p2pFlush.qe with p2pCfg := v &&& 0x800003FF } } :=
  congrArg done (if_neg (by simp [h]))

/-- A half of QE_P2P_BASE written, what stood open written out before. -/
theorem exec_qeP2pBaseWrite_live {s : State} (h : s.vendorLive = true) (hi : Bool) (v : W32) :
    exec (.qeP2pBaseWrite hi v) s =
      .next { s.p2pFlush with qe := { s.p2pFlush.qe with
        p2pBase := if hi then putHi s.p2pFlush.qe.p2pBase v else putLo s.p2pFlush.qe.p2pBase (v &&& 0xFFFFFFE0) } } :=
  congrArg done (if_neg (by simp [h]))

/-! ## The statement -/

/-- Settles O36: a byte goes into the youngest granule, so a write inside one leaves it open and one that fills it goes out. -/
theorem peerWindow : Obligations.PeerWindow := by
  unfold Obligations.PeerWindow
  refine ⟨?whole, ?discarded, ?part, ?outside, ?flush, ?closed, ?registers⟩
  case whole =>
    intro w d r s hl hlow hhigh hd hon hr hkind hfits haligned hopen
    obtain ⟨a, ha⟩ : ∃ a, a = r.base + (s.qe.p2pBase.toNat + (w - 0x4000)) := ⟨_, rfl⟩
    have hex := exec_peerWindowWrite_lands hl hlow hhigh hon hr hkind (hd.symm ▸ hfits)
    rw [← ha] at hex haligned ⊢
    rw [State.p2pBytes_whole hopen hd haligned] at hex
    refine ⟨_, hex, ?_, fun x hx => s.readCell_writeGranule_out _ hx, rfl⟩
    rw [show (s.writeGranule { addr := a, bytes := windowBytes 0 d }).rl.near = writeCells 0 s.rl.near a d from
      congrArg (writeCells 0 s.rl.near a) (map_findD_windowBytes hd)]
    exact Tests.readCells_in 0 _ a 32 d hd
  case discarded =>
    intro w d s hl hlow hhigh h
    rw [exec_peerWindowWrite_inside hl hlow hhigh, State.p2pTarget_discards h]
  case part =>
    intro w d r s hl hlow hhigh hon hr hkind hfits hd hin
    obtain ⟨a, ha⟩ : ∃ a, a = r.base + (s.qe.p2pBase.toNat + (w - 0x4000)) := ⟨_, rfl⟩
    have hex := exec_peerWindowWrite_lands hl hlow hhigh hon hr hkind hfits
    rw [← ha] at hex hin ⊢
    refine ⟨fun hopen => ?_, fun o os hopen hfull hother => ?_⟩
    · have hnone : ∀ g ∈ ([] : List OpenGranule), g.addr ≠ a / 32 * 32 := fun g hg => absurd hg List.not_mem_nil
      have hroom : s.p2pRoom = s := State.p2pRoom_closed hopen
      have hpart := State.p2pBytes_part (s := s) (os := []) (hroom.symm ▸ hopen) (hopen.symm ▸ hnone) hnone hd hin
      rw [hroom] at hpart
      rw [hpart] at hex
      exact ⟨_, _, hex, rfl, rfl, fun i hi => find_windowBytes _ hi, length_windowBytes .., rfl⟩
    · have hroom : s.p2pRoom = (s.withOpen os).writeGranule o := State.p2pRoom_full hopen hfull
      have hpart := State.p2pBytes_part (s := s) (os := os) (by rw [hroom]; rfl) (hopen.symm ▸ hother)
        (fun g hg => hother g (List.mem_cons_of_mem _ hg)) hd hin
      rw [hroom] at hpart
      rw [hpart] at hex
      exact ⟨_, _, hex, rfl, rfl, fun i hi => (s.withOpen os).readCell_writeGranule_in o hi,
        fun x hx => (s.withOpen os).readCell_writeGranule_out o hx⟩
  case outside =>
    intro w d hi v s
    refine ⟨fun h => exec_peerWindowWrite_none (.inr h), fun hl => ⟨exec_peerWindowWrite_none (.inl hl), ?_, ?_, ?_⟩⟩
    · exact congrArg done (if_neg (by simp [hl]))
    · exact congrArg done (if_pos (by simp [hl]))
    · exact congrArg done (if_pos (by simp [hl]))
  case flush =>
    intro s hl
    refine ⟨_, exec_qeP2pFlush_live hl, rfl, fun a ha => State.readCell_writeGranules_out _ s ha, fun g hg i hi => ?_, ?_⟩
    · have hflush : s.p2pFlush.rl = (s.writeGranule g).rl := by
        unfold State.p2pFlush
        rw [hg]
        rfl
      rw [hflush]
      exact s.readCell_writeGranule_in g hi
    · unfold State.p2pFlush
      dsimp only
      rw [State.writeGranules_nearOnly]
  case closed =>
    intro v s hl hopen
    rw [exec_qeP2pCfgWrite_live hl, exec_qeP2pBaseWrite_live hl, exec_qeP2pBaseWrite_live hl, State.p2pFlush_closed hopen]
    exact ⟨rfl, rfl, rfl⟩
  case registers =>
    intro hi v s hl
    exact ⟨_, _, _, exec_qeP2pCfgWrite_live hl v, exec_qeP2pBaseWrite_live hl hi v, exec_qeP2pFlush_live hl, rfl, rfl, rfl, rfl⟩

end Sys2Proof.Machine
end

section
/-! Storage commands that end at once: reads, Verify and Flush with no other storage command in QE, and the refusals (R205, R209,
R313, R314, R327, R417). -/

namespace Sys2Proof.Machine

/-! ## The codewords a read notes (R205, R209) -/

/-- `m'` differs from `m` in what reads note alone: hints, counts and refresh marks. -/
abbrev Mm.notesOnly (m m' : Mm) : Prop :=
  m' = { m with blocks := m'.blocks, retryCnt := m'.retryCnt, retries := m'.retries, refreshQ := m'.refreshQ }

theorem Mm.notesOnly.trans {m m' m'' : Mm} (h : m.notesOnly m') (h' : m'.notesOnly m'') : m.notesOnly m'' := by
  unfold Mm.notesOnly
  rw [h', h]

theorem Mm.markRefresh_notesOnly (m : Mm) (k : Nat) : m.notesOnly (m.markRefresh k) := by
  unfold Mm.markRefresh
  split <;> rfl

/-- A codeword's retry step noted, but for the refresh it may call for. -/
def Mm.noteStep (m : Mm) (k e : Nat) : Mm :=
  { m.onBlk k (fun b => { b with hint := min 16 e }) with
    retryCnt := if e = 0 then m.retryCnt else sat32 (m.retryCnt + 1)
    retries := m.retries ++ [{ at_ := m.clockNs, pool := keyPool k, value := e }] }

theorem Mm.noteRead_eq (m : Mm) (k e g : Nat) :
    m.noteRead k e g = if (m.noteStep k e).needsRefresh e g then (m.noteStep k e).markRefresh k else m.noteStep k e := rfl

theorem Mm.noteRead_notesOnly (m : Mm) (k e g : Nat) : m.notesOnly (m.noteRead k e g) := by
  have hstep : m.notesOnly (m.noteStep k e) := rfl
  rw [Mm.noteRead_eq]
  split
  · exact hstep.trans (Mm.markRefresh_notesOnly ..)
  · exact hstep

/-- Block `i` of a read from LBA `a` on is read, if it lies on the flash. -/
def Mm.noteBlock (x : Namespace) (a : Nat) (rs : List CodewordRead) (m : Mm) (i : Nat) : Mm :=
  match m.flashOf (m.locOf (x.unit ((a + i) / 8))) ((a + i) % 8) with
  | none => m
  | some key =>
    match rs.find? (fun r => r.block == i) with
    | some r => m.noteRead key (min 16 r.step) r.bits
    | none => m.noteRead key (m.blk key).hint 0

theorem Mm.noteBlock_notesOnly (x : Namespace) (a : Nat) (rs : List CodewordRead) (m : Mm) (i : Nat) :
    m.notesOnly (m.noteBlock x a rs i) := by
  unfold Mm.noteBlock
  split
  · rfl
  · split <;> exact Mm.noteRead_notesOnly ..

/-- The map and media once `z` blocks of a namespace from LBA `a` on are read. -/
def Mm.noteBlocks (m : Mm) (x : Namespace) (a z : Nat) (rs : List CodewordRead) : Mm :=
  (List.range z).foldl (Mm.noteBlock x a rs) m

theorem Mm.noteBlocks_notesOnly (m : Mm) (x : Namespace) (a z : Nat) (rs : List CodewordRead) :
    m.notesOnly (m.noteBlocks x a z rs) :=
  kept_foldl (P := m.notesOnly) (fun m' i h => h.trans (Mm.noteBlock_notesOnly x a rs m' i)) rfl

/-- Blocks whose units lie nowhere note nothing. -/
theorem Mm.noteBlocks_unmapped {m : Mm} {x : Namespace} {a z : Nat}
    (h : ∀ i, i < z → m.locOf (x.unit ((a + i) / 8)) = .unmapped) (rs : List CodewordRead) : m.noteBlocks x a z rs = m := by
  refine foldl_fixed_of_mem fun i hi => ?_
  unfold Mm.noteBlock
  rw [h i (List.mem_range.mp hi)]
  rfl

/-- A block that lies nowhere reads as zeros. -/
theorem Mm.readLba_unmapped {m : Mm} {x : Namespace} {a : Nat} (h : m.locOf (x.unit (a / 8)) = .unmapped) :
    m.readLba x a = [] := by
  unfold Mm.readLba
  rw [h]
  rfl

/-- One block on the flash is read by its codeword. -/
theorem Mm.noteBlocks_one {m : Mm} {x : Namespace} {a f : Nat} (h : m.flashOf (m.locOf (x.unit (a / 8))) (a % 8) = some f)
    (rs : List CodewordRead) :
    m.noteBlocks x a 1 rs = match rs.find? (fun r => r.block == 0) with
      | some r => m.noteRead f (min 16 r.step) r.bits
      | none => m.noteRead f (m.blk f).hint 0 := by
  show m.noteBlock x a rs 0 = _
  unfold Mm.noteBlock
  rw [Nat.add_zero, h]

theorem padTo_nil (n : Nat) : padTo n [] = List.replicate n 0 := by
  simp [padTo]

/-! ## A command alone in QE -/

/-- The storage commands in QE. -/
def State.withStore (s : State) (l : List StoreCmd) : State := { s with qe := { s.qe with store := l } }

/-- The map and media. -/
def State.withMm (s : State) (m : Mm) : State := { s with mm := m }

theorem State.withStore_self {s : State} {l : List StoreCmd} (h : s.qe.store = l) : s.withStore l = s := by
  subst h
  rfl

theorem State.settleFlushes_none {s : State} (h : s.qe.store = []) : s.settleFlushes = s := by
  unfold State.settleFlushes
  rw [h]
  rfl

theorem State.applyPieces_nil (s : State) (n : Nat) : s.applyPieces n [] = s := by
  unfold State.applyPieces
  split <;> rfl

/-- A command that holds no entry leaves a QE in which it is alone. -/
theorem State.dropStore_alone {s : State} {k : StoreCmd} (hstore : s.qe.store = []) (hheld : s.qe.held = [])
    (hlocks : k.locks = 0) : ({ s.withStore [k] with qe := (s.withStore [k]).qe.dropStore k } : State) = s := by
  have hgone : [k].filter (fun l => !(l.order == k.order)) = s.qe.store := by simp [hstore]
  have hkept : s.qe.held.filter (fun c => !(c == k.c)) = s.qe.held := by rw [hheld]; rfl
  have hdrop : (s.withStore [k]).qe.dropStore k = s.qe := by
    unfold Qe.dropStore State.withStore
    dsimp only
    rw [hgone, hkept, hlocks]
    rfl
  rw [hdrop]
  rfl

/-- A command with nothing landed that ends alone in QE does nothing but complete. -/
theorem State.endStore_alone {s : State} {k : StoreCmd} (hstore : s.qe.store = []) (hheld : s.qe.held = [])
    (hlocks : k.locks = 0) (hpieces : k.pieces = []) (hloud : k.silent = false) (hsq : k.c.sq ≠ lpQueue) {st : Nat}
    (hst : k.op ≠ .write ∨ st ≠ stOk) (data : List (List Byte)) :
    (s.withStore [k]).endStore k st data = s.complete k.c st 0 0 data := by
  have hreports : k.reports = false := by simp [StoreCmd.reports, hpieces]
  have hnotWritten : ¬ (k.op == .write && st == stOk) = true := by
    rcases hst with h | h <;> simp [h]
  have hdone : (s.complete k.c st 0 0 data).qe.store = [] := by
    show (s.qe.complete k.c st 0 0 data).store = []
    rw [Qe.complete_keeps]
    exact hstore
  unfold State.endStore
  dsimp only
  rw [hpieces, List.filter_nil, State.applyPieces_nil, ite_self, hreports, Bool.and_false, if_neg Bool.false_ne_true,
    if_neg hnotWritten, hloud, if_neg Bool.false_ne_true, if_neg hsq, State.dropStore_alone hstore hheld hlocks]
  exact State.settleFlushes_none hdone

theorem State.takeStore_alone {s : State} (hr : s.mm.replayed = true) (hstore : s.qe.store = []) (c : CmdId) (op : StoreOp)
    (n : Nat) (ranges : List (Nat × Nat)) (data : List (List Byte)) (rs : List CodewordRead) :
    s.takeStore c op n ranges data rs =
      (s.withStore [mkStore c op n ranges s.qe.fetchOrder rs]).serveStore (mkStore c op n ranges s.qe.fetchOrder rs) data := by
  unfold State.takeStore
  dsimp only
  rw [hstore]
  exact if_pos hr

/-- Nothing earlier is in QE for a command alone there to wait for. -/
theorem State.waitsFor_alone (s : State) (k : StoreCmd) : (s.withStore [k]).qe.waitsFor k = [] := by
  simp [Qe.waitsFor, State.withStore]

theorem State.serveStore_refused {s : State} {k : StoreCmd} {st : Nat} (h : s.storeCheck k = some st) (data : List (List Byte)) :
    s.serveStore k data = s.endStore k st [] := by
  unfold State.serveStore
  rw [h]

theorem State.serveStore_alone {s : State} {k : StoreCmd} (h : s.storeCheck k = none) (hw : k.writes = false)
    (data : List (List Byte)) : (s.withStore [k]).serveStore k data = (s.withStore [k]).startStore k data := by
  have hcheck : (s.withStore [k]).storeCheck k = none := h
  unfold State.serveStore
  rw [hcheck]
  dsimp only
  rw [hw, if_neg Bool.false_ne_true]
  unfold State.proceed
  rw [State.waitsFor_alone]
  rfl

/-! ## The checks (R313, R314) -/

theorem State.storeCheck_unknown {s : State} {k : StoreCmd} (hall : k.nsid ≠ 0xFFFFFFFF)
    (h : s.mm.namespaces.find k.nsid = none ∨ ∃ x, s.mm.namespaces.find k.nsid = some x ∧ x.attached = false) :
    s.storeCheck k = some stInvalidNs := by
  unfold State.storeCheck
  rw [if_neg (fun hk => hall hk.2)]
  rcases h with h | ⟨x, h, hx⟩
  · rw [h]
  · rw [h]
    simp [hx]

theorem State.storeCheck_flush {s : State} {k : StoreCmd} {x : Namespace} (hop : k.op = .flush)
    (h : s.mm.namespaces.find k.nsid = some x) (hx : x.attached = true) : s.storeCheck k = none := by
  unfold State.storeCheck
  rw [h]
  simp [hop, hx]

/-- The commands on one range of blocks. -/
def StoreOp.onRange (op : StoreOp) : Prop := op = .read ∨ op = .verify ∨ op = .write ∨ op = .zeroes

/-- The checks of a command on one range of an attached namespace. -/
theorem State.storeCheck_range {s : State} {c : CmdId} {op : StoreOp} {n : Nat} {x : Namespace} (hop : op.onRange)
    (hc : c.sq ≠ lpQueue) (h : s.mm.namespaces.find n = some x) (hx : x.attached = true) (a z o : Nat) (rs : List CodewordRead) :
    s.storeCheck (mkStore c op n [(a, z)] o rs) =
      if z = 0 ∨ 512 < z then some stInvalidField
      else if x.blocks < a + z then some stLbaRange
      else if (mkStore c op n [(a, z)] o rs).writes && x.readOnly then some stWriteProtected
      else if (mkStore c op n [(a, z)] o rs).writes && s.indexDenies n [(a, z)] then some stAccessDenied
      else none := by
  have hfind : s.mm.namespaces.find (mkStore c op n [(a, z)] o rs).nsid = some x := h
  unfold State.storeCheck
  rw [hfind]
  rcases hop with rfl | rfl | rfl | rfl <;> simp [mkStore, StoreCmd.blocks, Namespace.holds, hx, hc, or_comm]

/-! ## Commands that end at once -/

/-- A storage command that fails a check completes with its status, and nothing else happens. -/
theorem State.storeCommand_refused {s : State} {c : CmdId} (hserves : s.serves c .io) (hreplayed : s.mm.replayed = true)
    (hstore : s.qe.store = []) (hheld : s.qe.held = []) (hsq : c.sq ≠ lpQueue) {op : StoreOp} {n st : Nat}
    {ranges : List (Nat × Nat)} {rs : List CodewordRead} (hst : st ≠ stOk)
    (h : s.storeCheck (mkStore c op n ranges (s.fetch c).qe.fetchOrder rs) = some st) (data : List (List Byte)) :
    s.storeCommand c op n ranges data rs = s.answered c st 0 0 [] := by
  unfold State.storeCommand
  rw [State.command_served _ hserves.1 hserves.2, State.takeStore_alone (s := s.fetch c) hreplayed hstore,
    State.serveStore_refused (by exact h)]
  exact State.endStore_alone (s := s.fetch c) hstore hheld rfl rfl rfl hsq (.inr hst) []

/-- One that passes them and writes nothing starts. -/
theorem State.storeCommand_starts {s : State} {c : CmdId} (hserves : s.serves c .io) (hreplayed : s.mm.replayed = true)
    (hstore : s.qe.store = []) {op : StoreOp} {n : Nat} {ranges : List (Nat × Nat)} {rs : List CodewordRead}
    (h : s.storeCheck (mkStore c op n ranges (s.fetch c).qe.fetchOrder rs) = none)
    (hw : (mkStore c op n ranges (s.fetch c).qe.fetchOrder rs).writes = false) (data : List (List Byte)) :
    s.storeCommand c op n ranges data rs =
      ((s.fetch c).withStore [mkStore c op n ranges (s.fetch c).qe.fetchOrder rs]).startStore
        (mkStore c op n ranges (s.fetch c).qe.fetchOrder rs) data := by
  unfold State.storeCommand
  rw [State.command_served _ hserves.1 hserves.2, State.takeStore_alone (s := s.fetch c) hreplayed hstore]
  exact State.serveStore_alone (s := s.fetch c) h hw data

/-! ## Reads and Verify -/

/-- FC reads the codewords of a command on one range. -/
theorem State.readCodewords_range (s : State) (l : List StoreCmd) (c : CmdId) (op : StoreOp) (n a z o : Nat)
    (rs : List CodewordRead) (x : Namespace) :
    (s.withStore l).readCodewords (mkStore c op n [(a, z)] o rs) x = (s.withMm (s.mm.noteBlocks x a z rs)).withStore l := rfl

theorem State.startStore_verify {s : State} {c : CmdId} {n : Nat} {x : Namespace} (h : s.mm.namespaces.find n = some x)
    (ranges : List (Nat × Nat)) (o : Nat) (rs : List CodewordRead) (data : List (List Byte)) :
    s.startStore (mkStore c .verify n ranges o rs) data = (s.readCodewords (mkStore c .verify n ranges o rs) x).endStore
      (mkStore c .verify n ranges o rs)
      (if s.mm.anyBad n (mkStore c .verify n ranges o rs).slba (mkStore c .verify n ranges o rs).blocks then stUnrecovered else stOk)
      [] := by
  have hfind : s.mm.namespaces.find (mkStore c .verify n ranges o rs).nsid = some x := h
  unfold State.startStore
  rw [hfind]
  rfl

/-- What a read of one range completes with. -/
def State.readStatus (s : State) (n a z : Nat) : Nat := if s.mm.anyBad n a z then stUnrecovered else stOk

def State.readData (s : State) (x : Namespace) (n a z : Nat) : List (List Byte) :=
  if s.mm.anyBad n a z then [] else (List.range z).map (fun i => padTo 4096 (s.mm.readLba x (a + i)))

theorem State.startStore_read {s : State} {c : CmdId} {n : Nat} {x : Namespace} (h : s.mm.namespaces.find n = some x)
    (hc : c.sq ≠ lpQueue) (a z o : Nat) (rs : List CodewordRead) (data : List (List Byte)) :
    s.startStore (mkStore c .read n [(a, z)] o rs) data = (s.readCodewords (mkStore c .read n [(a, z)] o rs) x).endStore
      (mkStore c .read n [(a, z)] o rs) (s.readStatus n a z) (s.readData x n a z) := by
  have hfind : s.mm.namespaces.find (mkStore c .read n [(a, z)] o rs).nsid = some x := h
  unfold State.startStore State.readStatus State.readData
  rw [hfind]
  by_cases hbad : s.mm.anyBad n a z = true
  · rw [if_pos hbad, if_pos hbad]
    exact (if_neg hc).trans (if_pos hbad)
  · rw [if_neg hbad, if_neg hbad]
    exact (if_neg hc).trans (if_neg hbad)

section
variable {s : State} {c : CmdId} {n a z : Nat} {x : Namespace} (hidle : s.storeIdle c n x) (hz : 1 ≤ z ∧ z ≤ 512)
  (hrange : a + z ≤ x.blocks) (rs : List CodewordRead)
include hidle hz hrange

/-- A command that only reads passes the checks of its range. -/
theorem State.storeCheck_reads {op : StoreOp} (hop : op = .read ∨ op = .verify) (o : Nat) :
    s.storeCheck (mkStore c op n [(a, z)] o rs) = none := by
  obtain ⟨-, -, -, -, hfind, hattached, hsq⟩ := hidle
  rw [State.storeCheck_range (hop.imp_right .inl) hsq hfind hattached, if_neg (by omega), if_neg (by omega)]
  rcases hop with rfl | rfl <;> rfl

theorem exec_read_range : exec (.read c n a ⟨z, rs⟩) s =
    .next ((s.withMm (s.mm.noteBlocks x a z rs)).answered c (s.readStatus n a z) 0 0 (s.readData x n a z)) := by
  have hcheck := State.storeCheck_reads hidle hz hrange rs (.inl rfl) (s.fetch c).qe.fetchOrder
  obtain ⟨hserves, hreplayed, hstore, hheld, hfind, -, hsq⟩ := hidle
  refine congrArg done ((State.storeCommand_starts hserves hreplayed hstore hcheck rfl []).trans ?_)
  rw [State.startStore_read (s := (s.fetch c).withStore _) hfind hsq, State.readCodewords_range]
  exact State.endStore_alone (s := (s.fetch c).withMm _) hstore hheld rfl rfl rfl hsq (.inl StoreOp.noConfusion) _

theorem exec_verify_range : exec (.verify c n a ⟨z, rs⟩) s =
    .next ((s.withMm (s.mm.noteBlocks x a z rs)).answered c (s.readStatus n a z) 0 0 []) := by
  have hcheck := State.storeCheck_reads hidle hz hrange rs (.inr rfl) (s.fetch c).qe.fetchOrder
  obtain ⟨hserves, hreplayed, hstore, hheld, hfind, -, hsq⟩ := hidle
  refine congrArg done ((State.storeCommand_starts hserves hreplayed hstore hcheck rfl []).trans ?_)
  rw [State.startStore_verify (s := (s.fetch c).withStore _) hfind, State.readCodewords_range]
  exact State.endStore_alone (s := (s.fetch c).withMm _) hstore hheld rfl rfl rfl hsq (.inl StoreOp.noConfusion) _

end

/-- A Flush with no earlier write completes. -/
theorem State.startStore_flush {s : State} {c : CmdId} {n : Nat} {x : Namespace} (h : s.mm.namespaces.find n = some x) (o : Nat)
    (data : List (List Byte)) : s.startStore (mkStore c .flush n [] o []) data = s.endStore (mkStore c .flush n [] o []) stOk [] := by
  have hfind : s.mm.namespaces.find (mkStore c .flush n [] o []).nsid = some x := h
  unfold State.startStore
  rw [hfind]
  rfl

theorem exec_flush_idle {s : State} {c : CmdId} {n : Nat} {x : Namespace} (hidle : s.storeIdle c n x) :
    exec (.flush c n) s = .next (s.answered c stOk 0 0 []) := by
  obtain ⟨hserves, hreplayed, hstore, hheld, hfind, hattached, hsq⟩ := hidle
  have hcheck : s.storeCheck (mkStore c .flush n [] (s.fetch c).qe.fetchOrder []) = none :=
    State.storeCheck_flush rfl hfind hattached
  refine congrArg done ((State.storeCommand_starts hserves hreplayed hstore hcheck rfl []).trans ?_)
  rw [State.startStore_flush (s := (s.fetch c).withStore _) hfind]
  exact State.endStore_alone (s := s.fetch c) hstore hheld rfl rfl rfl hsq (.inl StoreOp.noConfusion) []

/-! ## The refusals -/

section
variable {s : State} {c : CmdId} {n : Nat} {x : Namespace} (hidle : s.storeIdle c n x) {op : StoreOp} (hop : op.onRange)
  (rs : List CodewordRead) (data : List (List Byte))
include hidle hop

/-- A command on one range fails the check that its range or its namespace fails. -/
theorem State.storeCommand_badCount {a z : Nat} (hz : z = 0 ∨ 512 < z) :
    s.storeCommand c op n [(a, z)] data rs = s.answered c stInvalidField 0 0 [] := by
  obtain ⟨hserves, hreplayed, hstore, hheld, hfind, hattached, hsq⟩ := hidle
  refine State.storeCommand_refused hserves hreplayed hstore hheld hsq (by decide) ?_ data
  rw [State.storeCheck_range hop hsq hfind hattached, if_pos hz]

theorem State.storeCommand_outside {a z : Nat} (hz : 1 ≤ z ∧ z ≤ 512) (hrange : x.blocks < a + z) :
    s.storeCommand c op n [(a, z)] data rs = s.answered c stLbaRange 0 0 [] := by
  obtain ⟨hserves, hreplayed, hstore, hheld, hfind, hattached, hsq⟩ := hidle
  refine State.storeCommand_refused hserves hreplayed hstore hheld hsq (by decide) ?_ data
  rw [State.storeCheck_range hop hsq hfind hattached, if_neg (by omega), if_pos hrange]

theorem State.storeCommand_protected {a z : Nat} (hz : 1 ≤ z ∧ z ≤ 512) (hrange : a + z ≤ x.blocks) (hro : x.readOnly = true)
    (hw : op = .write ∨ op = .zeroes) :
    s.storeCommand c op n [(a, z)] data rs = s.answered c stWriteProtected 0 0 [] := by
  obtain ⟨hserves, hreplayed, hstore, hheld, hfind, hattached, hsq⟩ := hidle
  refine State.storeCommand_refused hserves hreplayed hstore hheld hsq (by decide) ?_ data
  have hwrites : (mkStore c op n [(a, z)] (s.fetch c).qe.fetchOrder rs).writes = true := by rcases hw with rfl | rfl <;> rfl
  rw [State.storeCheck_range hop hsq hfind hattached, if_neg (by omega), if_neg (by omega), hwrites, hro]
  rfl

end

/-! ## The statement -/

/-- Settles O29: with no other storage command in QE one that passes its checks starts at once, and a read changes no more than
its codewords' notes. -/
theorem storageReads : Obligations.StorageReads := by
  unfold Obligations.StorageReads
  refine ⟨?good, ?bad, ?one, ?nowhere, ?flush, ?count, ?outside, ?readOnly, ?unknown⟩
  case good =>
    intro c n a z x rs s hidle hz hrange hgood
    have hread := exec_read_range hidle hz hrange rs
    have hverify := exec_verify_range hidle hz hrange rs
    rw [State.readStatus, hgood, if_neg Bool.false_ne_true] at hread hverify
    rw [State.readData, hgood, if_neg Bool.false_ne_true] at hread
    exact ⟨_, hread, hverify, Mm.noteBlocks_notesOnly ..⟩
  case bad =>
    intro c n a z x rs s hidle hz hrange hbad
    have hread := exec_read_range hidle hz hrange rs
    have hverify := exec_verify_range hidle hz hrange rs
    rw [State.readStatus, if_pos hbad] at hread hverify
    rw [State.readData, if_pos hbad] at hread
    exact ⟨_, hread, hverify, Mm.noteBlocks_notesOnly ..⟩
  case one =>
    intro c n a f e g x s hidle ha hgood hflash
    have hread := fun rs => exec_read_range (z := 1) hidle (by omega) ha rs
    rw [State.readStatus, State.readData, hgood, if_neg Bool.false_ne_true, if_neg Bool.false_ne_true] at hread
    refine ⟨?_, ?_⟩
    · exact (hread _).trans (by rw [Mm.noteBlocks_one hflash]; rfl)
    · exact (hread _).trans (by rw [Mm.noteBlocks_one hflash]; rfl)
  case nowhere =>
    intro c n a z x rs s hidle hz hrange hgood hnone
    have hzeros : (List.range z).map (fun i => padTo 4096 (s.mm.readLba x (a + i))) = List.replicate z (List.replicate 4096 0) := by
      refine List.eq_replicate_iff.mpr ⟨by simp, fun b hb => ?_⟩
      obtain ⟨i, hi, rfl⟩ := List.mem_map.mp hb
      rw [Mm.readLba_unmapped (hnone i (List.mem_range.mp hi))]
      exact padTo_nil 4096
    have hread := exec_read_range hidle hz hrange rs
    rw [State.readStatus, State.readData, hgood, if_neg Bool.false_ne_true, if_neg Bool.false_ne_true, hzeros,
      Mm.noteBlocks_unmapped hnone] at hread
    exact hread
  case flush => exact fun c n x s hidle => exec_flush_idle hidle
  case count =>
    intro c n a z x rs d s hidle hz
    exact ⟨congrArg done (State.storeCommand_badCount hidle (.inl rfl) rs [] hz),
      congrArg done (State.storeCommand_badCount hidle (.inr (.inl rfl)) rs [] hz),
      congrArg done (State.storeCommand_badCount hidle (.inr (.inr (.inl rfl))) [] d hz),
      fun _ => congrArg done (State.storeCommand_badCount hidle (.inr (.inr (.inr rfl))) [] [] hz)⟩
  case outside =>
    intro c n a z x rs d s hidle hz hrange
    exact ⟨congrArg done (State.storeCommand_outside hidle (.inl rfl) rs [] hz hrange),
      congrArg done (State.storeCommand_outside hidle (.inr (.inl rfl)) rs [] hz hrange),
      congrArg done (State.storeCommand_outside hidle (.inr (.inr (.inl rfl))) [] d hz hrange),
      fun _ => congrArg done (State.storeCommand_outside hidle (.inr (.inr (.inr rfl))) [] [] hz hrange)⟩
  case readOnly =>
    intro c n a z x d s hidle hz hrange hro
    exact ⟨congrArg done (State.storeCommand_protected hidle (.inr (.inr (.inl rfl))) [] d hz hrange hro (.inl rfl)),
      fun _ => congrArg done (State.storeCommand_protected hidle (.inr (.inr (.inr rfl))) [] [] hz hrange hro (.inr rfl))⟩
  case unknown =>
    intro c n a z rs d s hserves hreplayed hstore hheld hsq hall hfind
    have hrefused : ∀ (op : StoreOp) (ranges : List (Nat × Nat)) (data : List (List Byte)) (rs : List CodewordRead),
        s.storeCommand c op n ranges data rs = s.answered c stInvalidNs 0 0 [] := fun op ranges data rs =>
      State.storeCommand_refused hserves hreplayed hstore hheld hsq (by decide) (State.storeCheck_unknown hall hfind) data
    exact ⟨congrArg done (hrefused ..), congrArg done (hrefused ..), congrArg done (hrefused ..), congrArg done (hrefused ..),
      fun _ => congrArg done (hrefused ..)⟩

end Sys2Proof.Machine
end

section
/-! The machine's step and the answer of every command (assumption entries 3 and 5). -/

namespace Sys2Proof.Machine

/-- Every meaning answers a next state: the guards of a meaning choose that state and never a fault or a refusal. -/
theorem exec_answers (i : Instr) (s : State) : ∃ t, exec i s = .next t := by
  cases i
  all_goals exact ⟨_, rfl⟩

/-- Settles O1: the queue's front and rest are the two parts a step takes it apart into. -/
theorem stepRunsTheFrontCommand : Obligations.StepRunsTheFrontCommand := by
  unfold Obligations.StepRunsTheFrontCommand
  refine ⟨fun _ _ _ => rfl, fun s h => ?_⟩
  simp only [step, h]

/-- Settles O2. -/
theorem everyCommandAnswersANextState : Obligations.EveryCommandAnswersANextState := by
  unfold Obligations.EveryCommandAnswersANextState
  exact exec_answers

end Sys2Proof.Machine
end

section
/-! Beat edges (R357, R358, R359, R402): what a transition does in each mode of the Pacer, and the boundaries no edge makes. -/

namespace Sys2Proof.Machine

theorem State.pacerRuns_on {s : State} (h : s.mc.phase ≠ .off) : s.pacerRuns = true := by
  simpa [State.pacerRuns] using h

theorem exec_beatEdge_runs {s : State} (h : s.mc.phase ≠ .off) (x a b : Nat) :
    exec (.beatEdge x a b) s = .next (s.edge x a b) := by
  change execBeatEdge x a b s = _
  simp [execBeatEdge, State.pacerRuns_on h]

/-! ## Acquisition -/

theorem Pacer.acquireEdge_outside {p : Pacer} {b : Nat} (h : b < 200000 ∨ 5000000 < b) :
    p.acquireEdge b = { p with acquired := [] } := by
  have hb : intervalOk b = false := by
    unfold intervalOk
    rw [Bool.and_eq_false_iff, decide_eq_false_iff_not, decide_eq_false_iff_not]
    omega
  simp [Pacer.acquireEdge, hb]

/-- Seven intervals and one that agrees with them lock the Pacer at the mean of the eight. -/
theorem Pacer.acquireEdge_locks {p : Pacer} {b : Nat} (hb : 200000 ≤ b ∧ b ≤ 5000000) (hlen : p.acquired.length = 7)
    (hagree : ∀ x ∈ b :: p.acquired, 800 * x ≤ 101 * (b :: p.acquired).sum ∧ 99 * (b :: p.acquired).sum ≤ 800 * x) :
    p.acquireEdge b = { p with
      mode := .locked, acquired := [], meanOf := b :: p.acquired, periodNs := (b :: p.acquired).sum / 8, missRun := 0,
      lastByEdge := true, event := setEv p.event 1 } := by
  have hin : intervalOk b = true := by simp [intervalOk, hb]
  have hall : (b :: p.acquired).take 8 = b :: p.acquired := List.take_of_length_le (by simp [hlen])
  have h8 : (b :: p.acquired).length = 8 := by simp [hlen]
  have hok : agree8 (b :: p.acquired) = true := by
    unfold agree8
    rw [Bool.and_eq_true, List.all_eq_true]
    exact ⟨by simp [hlen], fun x hx => by simpa only [Bool.and_eq_true, decide_eq_true_iff] using hagree x hx⟩
  have hmean : meanNat (b :: p.acquired) = (b :: p.acquired).sum / 8 := by
    unfold meanNat
    rw [h8]
    rfl
  unfold Pacer.acquireEdge
  simp only [hin, hall, hok, hmean, Bool.not_true, Bool.false_eq_true, if_false, if_true]

theorem State.edge_freerun {s : State} (h : s.pc.mode = .freerun) {x : Nat} (hx : 1000 ≤ x) (a b : Nat) :
    s.edge x a b = { s with pc := { s.pc with mode := .acquire, acquired := [] } } := by
  simp [State.edge, h, Nat.not_lt.mpr hx]

theorem State.edge_acquire {s : State} (h : s.pc.mode = .acquire) {x : Nat} (hx : 1000 ≤ x) (a b : Nat) :
    s.edge x a b = { s with pc := s.pc.acquireEdge b } := by
  simp [State.edge, h, Nat.not_lt.mpr hx]

/-! ## A locked Pacer -/

theorem State.edge_inWindow {s : State} (h : s.pc.mode = .locked) {x a : Nat} (hx : 1000 ≤ x)
    (ha : 875 * s.pc.periodNs ≤ 1000 * a ∧ 1000 * a ≤ 1125 * s.pc.periodNs) (b : Nat) :
    s.edge x a b = { s with pc := s.pc.lockedEdge a } := by
  simp [State.edge, h, Nat.not_lt.mpr hx, Nat.not_lt.mpr ha.1, ha.2]

theorem Pacer.lockedEdge_afterEdge {p : Pacer} (h : p.lastByEdge = true) (a : Nat) :
    p.lockedEdge a = { p with
      meanOf := (a :: p.meanOf).take 8
      periodNs := ((a :: p.meanOf).take 8).sum / ((a :: p.meanOf).take 8).length
      missRun := 0 } := by
  obtain ⟨⟩ := p
  subst h
  rfl

theorem Pacer.lockedEdge_afterMiss {p : Pacer} (h : p.lastByEdge = false) (a : Nat) :
    p.lockedEdge a = { p with missRun := 0, lastByEdge := true } := by
  simp [Pacer.lockedEdge, h]

theorem State.edge_false {s : State} (h : s.pc.mode = .locked) {x a : Nat}
    (hx : x < 1000 ∨ 1000 * a < 875 * s.pc.periodNs) (b : Nat) :
    s.edge x a b = { s with pc := { s.pc with cntFalse := sat16 (s.pc.cntFalse + 1) } }.postOnce srcPC kFalseStart 0 0 0 0 0 0 := by
  simp [State.edge, h, hx]

/-- The first event of its code in a beat is noted, so that a second one is suppressed (R402). -/
theorem State.postOnce_noted (s : State) (a b k : Nat) (x : W64) (p q r w : W32) (hk : (a, b, k) ∉ s.fl.beatPosts) :
    (a, b, k) ∈ (s.postOnce a b k x p q r w).fl.beatPosts := by
  unfold State.postOnce
  rw [if_neg (by simpa using hk)]
  exact List.mem_cons_self ..

/-! ## Boundaries without an edge -/

theorem exec_missedBeat_counts {s : State} (h : s.mc.phase ≠ .off) (hm : s.pc.mode = .locked) (hn : s.pc.missRun < 4) :
    exec .missedBeat s = .next { s with pc := { s.pc with
      cntMiss := sat16 (s.pc.cntMiss + 1), missRun := s.pc.missRun + 1, lastByEdge := false } } := by
  change execMissedBeat s = _
  simp [execMissedBeat, State.pacerRuns_on h, hm, hn]

theorem exec_freerunEntry_enters {s : State} (h : s.mc.phase ≠ .off) (hm : s.pc.mode = .locked) (hn : s.pc.missRun = 4) :
    exec .freerunEntry s = .next ({ s with pc := { s.pc with
      mode := .freerun, freeNs := s.pc.periodNs, event := setEv s.pc.event 0, acquired := [], missRun := 0,
      lastByEdge := false } } : State).report := by
  change execFreerunEntry s = _
  simp [execFreerunEntry, State.pacerRuns_on h, hm, hn]

theorem exec_freerunBoundary_unlocked {s : State} (h : s.mc.phase ≠ .off) (hm : s.pc.mode ≠ .locked) :
    exec .freerunBoundary s = .next { s with pc := { s.pc with lastByEdge := false } } := by
  change execFreerunBoundary s = _
  simp [execFreerunBoundary, State.pacerRuns_on h, hm]

/-- A REPORT goes out where an endpoint is known, and nothing but the REPORTs sent and their number changes (R365). -/
theorem State.report_eq (s : State) : ∃ r n, s.report = { s with pc := { s.pc with reports := r, reportSeq := n } } ∧
    r.length = s.pc.reports.length + (if s.pc.endpoint.isSome then 1 else 0) := by
  unfold State.report
  split
  · next h => exact ⟨_, _, rfl, by simp [h]⟩
  · next h => exact ⟨_, _, rfl, by simp [h]⟩

/-- Settles O10: each edge by the mode it meets, and the boundaries without one. -/
theorem pacerEdges : Obligations.PacerEdges := by
  unfold Obligations.PacerEdges
  refine ⟨?starts, ?discards, ?locks, ?afterEdge, ?afterMiss, ?falseStart, ?missed, ?freerun, ?boundary⟩
  case starts =>
    intro x a b s hp hm hx
    rw [exec_beatEdge_runs hp, State.edge_freerun hm hx]
  case discards =>
    intro x a b s hp hm hx hb
    rw [exec_beatEdge_runs hp, State.edge_acquire hm hx, Pacer.acquireEdge_outside hb]
  case locks =>
    intro x a b s hp hm hx hb hlen hagree
    refine ⟨_, exec_beatEdge_runs hp x a b, ?_⟩
    rw [State.edge_acquire hm hx, Pacer.acquireEdge_locks hb hlen hagree]
    exact ⟨rfl, rfl, rfl, rfl, rfl, rfl⟩
  case afterEdge =>
    intro x a b s hp hm hx ha hl
    rw [exec_beatEdge_runs hp, State.edge_inWindow hm hx ha, Pacer.lockedEdge_afterEdge hl]
  case afterMiss =>
    intro x a b s hp hm hx ha hl
    rw [exec_beatEdge_runs hp, State.edge_inWindow hm hx ha, Pacer.lockedEdge_afterMiss hl]
  case falseStart =>
    intro x a b s hp hm hx hn hk
    refine ⟨_, exec_beatEdge_runs hp x a b, ?_⟩
    rw [State.edge_false hm hx]
    have hw := State.postOnce_eq { s with pc := { s.pc with cntFalse := sat16 (s.pc.cntFalse + 1) } } srcPC kFalseStart 0 0 0 0 0 0 hn
    have hpc := congrArg State.pc hw
    exact ⟨hpc, State.postOnce_recordWritten _ _ _ _ _ _ _ _ _ hn hk, State.postOnce_noted _ _ _ _ _ _ _ _ _ hk, by rw [hpc]; exact hw⟩
  case missed => exact fun s hp hm hn => exec_missedBeat_counts hp hm hn
  case freerun =>
    intro s hp hm hn
    refine ⟨_, exec_freerunEntry_enters hp hm hn, ?_⟩
    obtain ⟨r, n, heq, hlen⟩ := State.report_eq { s with pc := { s.pc with
      mode := .freerun, freeNs := s.pc.periodNs, event := setEv s.pc.event 0, acquired := [], missRun := 0,
      lastByEdge := false } }
    rw [heq]
    exact ⟨rfl, rfl, rfl, rfl, rfl, rfl, hlen, rfl⟩
  case boundary => exact fun s hp hm => exec_freerunBoundary_unlocked hp hm

end Sys2Proof.Machine
end

section
/-! Cadence messages (R360, R362 to R365, R475, R488): SETPOINT and PERIOD as they arrive and as they take effect, and the REPORT
timer. -/

namespace Sys2Proof.Machine

/-! ## Arrival -/

theorem exec_setpoint_eq (ep : Nat) (b : List Byte) (s : State) : exec (.setpoint ep b) s = .next (s.cadence ep b) := rfl

theorem exec_period_eq (ep : Nat) (b : List Byte) (s : State) : exec (.period ep b) s = .next (s.cadence ep b) := rfl

/-- A message that passes the checks of its kind is accepted (R362, R364). -/
theorem State.cadence_accepts {s : State} {b : List Byte} (h : s.mc.phase ≠ .off) (he : s.power.eid ≠ none)
    (hb : setpointOk b = true ∨ periodOk b = true) (ep : Nat) : s.cadence ep b = { s with pc := s.pc.accept ep b } := by
  have hid : s.power.eid.isNone = false := Option.isNone_eq_false_iff.mpr (Option.isSome_iff_ne_none.mpr he)
  have hok : (setpointOk b || periodOk b) = true := by simpa using hb
  simp [State.cadence, State.pacerRuns_on h, hid, hok]

theorem State.cadence_discards {s : State} {b : List Byte} (h : s.mc.phase ≠ .off) (he : s.power.eid ≠ none)
    (hs : setpointOk b = false) (hp : periodOk b = false) (ep : Nat) : s.cadence ep b = s.msgBad := by
  have hid : s.power.eid.isNone = false := Option.isNone_eq_false_iff.mpr (Option.isSome_iff_ne_none.mpr he)
  simp [State.cadence, State.pacerRuns_on h, hid, hs, hp]

theorem State.cadence_silent {s : State} (h : s.mc.phase = .off ∨ s.power.eid = none) (ep : Nat) (b : List Byte) :
    s.cadence ep b = s := by
  rcases h with h | h <;> simp [State.cadence, State.pacerRuns, h]

theorem setpointOk_kind {b : List Byte} (h : setpointOk b = true) : byteAt b 3 = 1 := by
  unfold setpointOk at h
  simp only [Bool.and_eq_true, beq_iff_eq] at h
  tauto

theorem periodOk_kind {b : List Byte} (h : periodOk b = true) : byteAt b 2 = 2 ∧ byteAt b 3 = 3 := by
  unfold periodOk at h
  simp only [Bool.and_eq_true, beq_iff_eq] at h
  tauto

theorem Pacer.accept_setpoint {b : List Byte} (h : byteAt b 3 = 1) (p : Pacer) (ep : Nat) :
    p.accept ep b = { p with
      facOffset := BitVec.ofNat 64 (u64At b 8) - BitVec.ofNat 64 p.beat
      msgVersion := byteAt b 2
      endpoint := some ep
      scheduled := p.scheduled ++
        [(effectBeat p.beat (BitVec.ofNat 64 (u64At b 8) - BitVec.ofNat 64 p.beat) (u64At b 16),
          .setpoint (bitN (byteAt b 28) 0) (bitN (byteAt b 28) 1) (min 8191 (u16At b 24)) (min 8191 (u16At b 26)))] } := by
  simp [Pacer.accept, cadenceContent, h]

theorem Pacer.accept_period {b : List Byte} (h : byteAt b 2 = 2 ∧ byteAt b 3 = 3) (p : Pacer) (ep : Nat) :
    p.accept ep b = { p with
      facOffset := BitVec.ofNat 64 (u64At b 8) - BitVec.ofNat 64 p.beat
      msgVersion := 2
      scheduled := p.scheduled ++
        [(effectBeat p.beat (BitVec.ofNat 64 (u64At b 8) - BitVec.ofNat 64 p.beat) (u64At b 16), .period (u32At b 32))] } := by
  simp [Pacer.accept, cadenceContent, h]

/-- A message that fails a check sets PC_EVENT bit 3 and posts PROTOCOL (R364). -/
theorem State.msgBad_spec {s : State} (hn : s.ntAll = true) (hk : (srcPC, kProtocol, 0) ∉ s.fl.beatPosts) :
    s.msgBad.pc = { s.pc with event := setEv s.pc.event 3 } ∧ RecordWritten s s.msgBad srcPC kProtocol 0 0 0 0 0 0 ∧
      s.msgBad = { s with pc := s.msgBad.pc, fl := s.msgBad.fl } := by
  have hw : s.msgBad = { s with pc := { s.pc with event := setEv s.pc.event 3 }, fl := s.msgBad.fl } :=
    State.postOnce_eq { s with pc := { s.pc with event := setEv s.pc.event 3 } } srcPC kProtocol 0 0 0 0 0 0 hn
  have hpc := congrArg State.pc hw
  exact ⟨hpc, State.postOnce_recordWritten { s with pc := { s.pc with event := setEv s.pc.event 3 } } _ _ _ _ _ _ _ _ hn hk,
    by rw [hpc]; exact hw⟩

/-! ## Taking effect -/

theorem exec_setpointTakeEffect_runs {s : State} (h : s.mc.phase ≠ .off) :
    exec .setpointTakeEffect s = .next s.takeEffect := by
  change execSetpointTakeEffect s = _
  simp [execSetpointTakeEffect, State.pacerRuns_on h]

/-- One content that is due takes effect, and nothing stays scheduled. -/
theorem Pacer.takeDue_one {p : Pacer} {n : Nat} {c : CadenceContent} (h : p.scheduled = [(n, c)]) (hn : n ≤ p.beat) :
    p.takeDue = { p with scheduled := [] }.applyContent c := by
  simp [Pacer.takeDue, h, hn]

/-- Contents that leave low demand standing, or as it was, ask for no power state (R337, R372). -/
theorem State.lowDemandExit_stays {s : State} {was : Bool} (h : was = false ∨ s.pc.lowDemand = true ∨ was = s.pc.lowDemand) :
    s.lowDemandExit was = s := by
  have hoff : (was && !s.pc.lowDemand) = false := by
    cases was <;> cases hl : s.pc.lowDemand <;> simp_all
  simp [State.lowDemandExit, hoff]

/-- T and the mean, or T and the free-run period, of an announced period (R360). -/
theorem Pacer.applyPeriod_eq (p : Pacer) (us : Nat) : p.applyPeriod us =
    if p.mode = .locked then { p with periodNs := 1000 * us, meanOf := List.replicate 8 (1000 * us) }
    else { p with periodNs := 1000 * us, freeNs := 1000 * us } := rfl

theorem State.takeEffect_period {s : State} {n us : Nat} (h : s.pc.scheduled = [(n, .period us)]) (hn : n ≤ s.pc.beat)
    (hband : s.pc.bandState = s.bandNow) :
    s.takeEffect = { s with pc := { s.pc with scheduled := [] }.applyPeriod us } := by
  have hdue : s.pc.takeDue = { s.pc with scheduled := [] }.applyPeriod us := Pacer.takeDue_one h hn
  have hsame : ∀ p : Pacer, p = { s.pc with scheduled := [] }.applyPeriod us →
      p.lowDemand = s.pc.lowDemand ∧ p.bandState = State.bandNow { s with pc := p } := by
    intro p hp
    rw [Pacer.applyPeriod_eq] at hp
    split at hp <;> subst hp <;> exact ⟨rfl, hband⟩
  obtain ⟨hlow, hshown⟩ := hsame _ rfl
  unfold State.takeEffect State.bandFollows
  rw [hdue, State.lowDemandExit_stays (.inr (.inr hlow.symm)), if_pos hshown]

/-! ## A band that a SETPOINT turns on -/

/-- Bit 0 of PC_BAND_CTL written 1: the band is on, and every other bit stands. -/
theorem bitW_rwBits_enable (w : W32) : bitW (rwBits w 1 1) 0 = true := by
  unfold bitW rwBits
  simp

theorem bitsW_rwBits_enable (w : W32) : bitsW (rwBits w 1 1) 15 8 = bitsW w 15 8 := by
  have h : (rwBits w 1 1) >>> 8 = w >>> 8 := by
    ext i hi
    simp only [rwBits, BitVec.getElem_ushiftRight, BitVec.getLsbD_or, BitVec.getLsbD_and, BitVec.getLsbD_not]
    by_cases h8 : 8 + i < 32
    · simp [h8]
    · simp [h8, BitVec.getLsbD_of_ge w (8 + i) (by omega)]
  have hn := congrArg BitVec.toNat h
  rw [BitVec.toNat_ushiftRight, BitVec.toNat_ushiftRight, Nat.shiftRight_eq_div_pow, Nat.shiftRight_eq_div_pow] at hn
  unfold bitsW bitsN
  rw [hn]

/-- The band of a SETPOINT that turns it on, and the settling that a change of it starts (R363, R371). -/
theorem Pacer.applySetpoint_on {p : Pacer} (h : p.srcHost = false) (low : Bool) (g w : Nat) :
    ∃ z, p.applySetpoint true low g w =
        { p with lowDemand := low, bandCtl := rwBits p.bandCtl 1 1, targetW := g, tolW := w, settle := z } ∧
      ((p.bandOn = true ∧ p.targetW = g ∧ p.tolW = w) ∨ z = 2 * p.windowBeats) := by
  unfold Pacer.applySetpoint
  simp only [h, Bool.false_eq_true, if_false, if_true]
  split
  · next hsame =>
    simp only [Bool.and_eq_true, decide_eq_true_iff] at hsame
    exact ⟨p.settle, rfl, .inl ⟨hsame.1.1, hsame.1.2, hsame.2⟩⟩
  · refine ⟨_, rfl, .inr ?_⟩
    unfold Pacer.windowBeats
    exact congrArg (fun n => 2 * max 1 n) (bitsW_rwBits_enable p.bandCtl)

theorem State.takeEffect_setpoint {s : State} {n g w : Nat} (h : s.pc.scheduled = [(n, .setpoint true true g w)])
    (hn : n ≤ s.pc.beat) (hsrc : s.pc.srcHost = false) :
    ∃ z b r m, s.takeEffect = { s with pc := { s.pc with
        scheduled := [], lowDemand := true, bandCtl := rwBits s.pc.bandCtl 1 1, targetW := g, tolW := w, settle := z,
        bandState := b, reports := r, reportSeq := m } } ∧
      ((s.pc.bandOn = true ∧ s.pc.targetW = g ∧ s.pc.tolW = w) ∨ z = 2 * s.pc.windowBeats) := by
  obtain ⟨z, hz, hset⟩ := Pacer.applySetpoint_on (p := { s.pc with scheduled := [] }) hsrc true g w
  have hdue : s.pc.takeDue = _ := (Pacer.takeDue_one h hn).trans hz
  obtain ⟨r, m, hb⟩ := State.bandFollows_pc { s with pc := s.pc.takeDue }
  have hlow : s.pc.takeDue.lowDemand = true := congrArg Pacer.lowDemand hdue
  refine ⟨z, State.bandNow { s with pc := s.pc.takeDue }, r, m, ?_, hset⟩
  unfold State.takeEffect
  rw [State.lowDemandExit_stays (.inr (.inl hlow)), hb, hdue]

/-! ## The REPORT timer -/

theorem exec_reportTimer_due {s : State} (h : s.mc.phase ≠ .off) (h0 : 0 < bitsW s.pc.bandCtl 31 16)
    (hd : bitsW s.pc.bandCtl 31 16 ≤ s.pc.reportCount) :
    exec .reportTimer s = .next ({ s with pc := { s.pc with reportCount := 0 } } : State).report := by
  change execReportTimer s = _
  simp [execReportTimer, State.pacerRuns_on h, Nat.pos_iff_ne_zero.mp h0, hd]

theorem State.report_sent {s : State} {ep : Nat} (h : s.pc.endpoint = some ep) :
    s.report = { s with pc := { s.pc with reports := s.mkReport ep :: s.pc.reports, reportSeq := (s.pc.reportSeq + 1) % 65536 } } := by
  unfold State.report
  rw [h]

/-- Settles O11: a message by its checks, a content by its kind, and the timer by its REPORT. -/
theorem cadenceMessages : Obligations.CadenceMessages := by
  unfold Obligations.CadenceMessages
  refine ⟨?setpoint, ?period, ?bad, ?silent, ?periodDue, ?setpointDue, ?timer⟩
  case setpoint =>
    intro ep b s hp he hb
    rw [exec_setpoint_eq, State.cadence_accepts hp he (.inl hb), Pacer.accept_setpoint (setpointOk_kind hb)]
  case period =>
    intro ep b s hp he hb
    rw [exec_period_eq, State.cadence_accepts hp he (.inr hb), Pacer.accept_period (periodOk_kind hb)]
  case bad =>
    intro ep b s hp he hs hb hn hk
    have hbad := congrArg done (State.cadence_discards hp he hs hb ep)
    exact ⟨s.msgBad, hbad, hbad, State.msgBad_spec hn hk⟩
  case silent =>
    intro ep b s h
    have hs := congrArg done (State.cadence_silent h ep b)
    exact ⟨hs, hs⟩
  case periodDue =>
    intro n us s hp h hn hb
    rw [exec_setpointTakeEffect_runs hp, State.takeEffect_period h hn hb, Pacer.applyPeriod_eq]
  case setpointDue =>
    intro n g w s hp h hn hsrc _
    obtain ⟨z, b, r, m, heq, hz⟩ := State.takeEffect_setpoint h hn hsrc
    refine ⟨_, exec_setpointTakeEffect_runs hp, ?_⟩
    rw [heq]
    exact ⟨rfl, rfl, rfl, bitW_rwBits_enable _, rfl, rfl, rfl, hz⟩
  case timer =>
    intro s hp h0 hd
    obtain ⟨r, n, heq, hlen⟩ := State.report_eq { s with pc := { s.pc with reportCount := 0 } }
    refine ⟨_, exec_reportTimer_due hp h0 hd, by rw [heq], by rw [heq], by rw [heq]; exact hlen, fun ep hep => ?_⟩
    rw [State.report_sent (s := { s with pc := { s.pc with reportCount := 0 } }) hep]
    exact ⟨rfl, rfl⟩

end Sys2Proof.Machine
end

section
/-! A fatal stop (R411, R412) moves no rail and no phase: what it does to jobs, object commands, storage commands and function 1
leaves the supplies and MC as they stand. -/

namespace Sys2Proof.Machine

/-- The supplies and pins, and MC with the phase. -/
def State.supplyView (s : State) : Power × Mc := (s.power, s.mc)

theorem State.supplyView_of_pacerView {s t : State} (h : t.pacerView = s.pacerView) : t.supplyView = s.supplyView :=
  congrArg (fun v => (v.2.1, v.2.2.1)) h

theorem State.ite_supplyView {p : Prop} [Decidable p] {a b s : State} (ha : a.supplyView = s.supplyView)
    (hb : b.supplyView = s.supplyView) : (if p then a else b).supplyView = s.supplyView := by
  split
  · exact ha
  · exact hb

@[simp] theorem State.complete_supplyView (s : State) (c : CmdId) (st a b : Nat) (d : List (List Byte)) :
    (s.complete c st a b d).supplyView = s.supplyView := rfl

@[simp] theorem State.withQe_supplyView (s : State) (q : Qe) : State.supplyView { s with qe := q } = s.supplyView := rfl

@[simp] theorem State.withRl_supplyView (s : State) (r : Rl) : State.supplyView { s with rl := r } = s.supplyView := rfl

@[simp] theorem State.withMm_supplyView (s : State) (m : Mm) : State.supplyView { s with mm := m } = s.supplyView := rfl

@[simp] theorem State.withIdx_supplyView (s : State) (x : KMap Index) : State.supplyView { s with idx := x } = s.supplyView := rfl

@[simp] theorem State.withJd_supplyView (s : State) (d : Jd) : State.supplyView { s with jd := d } = s.supplyView := rfl

theorem foldl_supplyView {α : Type} {f : State → α → State} (h : ∀ s a, (f s a).supplyView = s.supplyView) (l : List α)
    (s : State) :
    (l.foldl f s).supplyView = s.supplyView :=
  kept_foldl (P := fun t => t.supplyView = s.supplyView) (fun t a ht => (h t a).trans ht) rfl

/-! ## Jobs -/

@[simp] theorem State.onJob_supplyView (s : State) (tag : Nat) (f : Job → Job) : (s.onJob tag f).supplyView = s.supplyView := rfl

@[simp] theorem State.onDir_supplyView (s : State) (o : Nat) (f : DirEntry → DirEntry) :
    (s.onDir o f).supplyView = s.supplyView := rfl

@[simp] theorem State.onSeq_supplyView (s : State) (id : Nat) (f : Sequence → Sequence) :
    (s.onSeq id f).supplyView = s.supplyView := rfl

@[simp] theorem State.onModel_supplyView (s : State) (k : Nat) (f : Model → Model) :
    (s.onModel k f).supplyView = s.supplyView := rfl

@[simp] theorem State.releasePin_supplyView (s : State) (p : Pin) : (s.releasePin p).supplyView = s.supplyView := rfl

@[simp] theorem State.releasePins_supplyView (s : State) (ps : List Pin) : (s.releasePins ps).supplyView = s.supplyView :=
  State.supplyView_of_pacerView (State.releasePins_pacerView ..)

@[simp] theorem State.freeContexts_supplyView (s : State) (j : Job) : (s.freeContexts j).supplyView = s.supplyView :=
  State.supplyView_of_pacerView (State.freeContexts_pacerView ..)

@[simp] theorem State.writeResult_supplyView (s : State) (j : Job) (o : Nat) (b : List Byte) :
    (s.writeResult j o b).supplyView = s.supplyView :=
  State.supplyView_of_pacerView (State.writeResult_pacerView ..)

@[simp] theorem State.writeAgg_supplyView (s : State) (j : Job) : (s.writeAgg j).supplyView = s.supplyView :=
  State.supplyView_of_pacerView (State.writeAgg_pacerView ..)

@[simp] theorem State.finishJob_supplyView (s : State) (tag st a b : Nat) : (s.finishJob tag st a b).supplyView = s.supplyView :=
  State.supplyView_of_pacerView (State.finishJob_pacerView ..)

@[simp] theorem State.stopJob_supplyView (s : State) (tag stop st a b : Nat) :
    (s.stopJob tag stop st a b).supplyView = s.supplyView :=
  State.supplyView_of_pacerView (State.stopJob_pacerView ..)

@[simp] theorem State.stopCommit_supplyView (s : State) (tag code st : Nat) :
    (s.stopCommit tag code st).supplyView = s.supplyView := by
  unfold State.stopCommit State.dropCommit
  split <;> simp

/-! ## Sequences and squads -/

@[simp] theorem State.noteLen_supplyView (s : State) (id : Nat) : (s.noteLen id).supplyView = s.supplyView := by
  unfold State.noteLen
  repeat' split
  all_goals rfl

@[simp] theorem State.leaveBatch_supplyView (s : State) (id : Nat) : (s.leaveBatch id).supplyView = s.supplyView := by
  unfold State.leaveBatch
  repeat' split
  all_goals rfl

@[simp] theorem State.cutAppend_supplyView (s : State) (id code st a : Nat) :
    (s.cutAppend id code st a).supplyView = s.supplyView := by
  unfold State.cutAppend
  split <;> simp

@[simp] theorem State.closeSeq_supplyView (s : State) (id : Nat) : (s.closeSeq id).supplyView = s.supplyView := by
  unfold State.closeSeq
  split
  · rfl
  · dsimp only
    refine (foldl_supplyView (fun _ _ => State.finishJob_supplyView ..) _ _).trans ?_
    have hleft : ((s.noteLen id).leaveBatch id).supplyView = s.supplyView := by simp
    split
    · exact hleft
    · exact (State.finishJob_supplyView ..).trans hleft

@[simp] theorem State.recall_supplyView (s : State) (id : Nat) : (s.recall id).supplyView = s.supplyView := by
  unfold State.recall
  split
  · rfl
  · dsimp only
    split <;> exact (State.leaveBatch_supplyView s id)

@[simp] theorem State.abortJob_supplyView (s : State) (j : Job) : (s.abortJob true j).supplyView = s.supplyView := by
  have hdropped : (s.dropCopies j.tag).supplyView = s.supplyView := rfl
  unfold State.abortJob
  split
  · exact State.stopCommit_supplyView ..
  · simp only [if_true, State.cutAppend_supplyView]
    split
    · exact State.recall_supplyView ..
    · rfl
  · exact State.closeSeq_supplyView ..
  · exact (State.stopJob_supplyView ..).trans hdropped

@[simp] theorem State.discardTiles_supplyView (s : State) (n : Nat) : (s.discardTiles n).supplyView = s.supplyView := by
  unfold State.discardTiles
  split <;> rfl

@[simp] theorem State.abortSquad_supplyView (s : State) (n : Nat) : (s.abortSquad n true).supplyView = s.supplyView := by
  have hjobs : ∀ (l : List Job) (t : State),
      (l.foldl (fun s j => if j.admitted then s.abortJob true j else s) t).supplyView = t.supplyView :=
    fun l t => foldl_supplyView (fun s j => by split <;> simp) l t
  unfold State.abortSquad
  dsimp only
  rw [if_pos rfl]
  change (State.discardTiles _ n).supplyView = _
  exact (State.discardTiles_supplyView ..).trans ((hjobs _ _).trans rfl)

@[simp] theorem State.failJobs_supplyView (s : State) : s.failJobs.supplyView = s.supplyView := by
  unfold State.failJobs
  refine (foldl_supplyView (fun s j => ?_) _ _).trans (foldl_supplyView (fun s n => s.abortSquad_supplyView n) _ s)
  split <;> simp

/-! ## Storage commands -/

@[simp] theorem State.onStore_supplyView (s : State) (k : Nat) (f : StoreCmd → StoreCmd) :
    (s.onStore k f).supplyView = s.supplyView := rfl

@[simp] theorem State.lpSend_supplyView (s : State) (fs : List (List Byte)) : (s.lpSend fs).supplyView = s.supplyView := rfl

@[simp] theorem State.lpEnd_supplyView (s : State) (tag code n : Nat) : (s.lpEnd tag code n).supplyView = s.supplyView := rfl

@[simp] theorem State.awaitPool_supplyView (s : State) (k : StoreCmd) (ps : List Piece) :
    (s.awaitPool k ps).supplyView = s.supplyView := rfl

@[simp] theorem State.awaitLanding_supplyView (s : State) (k : StoreCmd) (ps : List Piece) :
    (s.awaitLanding k ps).supplyView = s.supplyView := rfl

@[simp] theorem State.readCodewords_supplyView (s : State) (k : StoreCmd) (n : Namespace) :
    (s.readCodewords k n).supplyView = s.supplyView := rfl

@[simp] theorem State.applyPieces_supplyView (s : State) (n : Nat) (ps : List Piece) :
    (s.applyPieces n ps).supplyView = s.supplyView := by
  unfold State.applyPieces
  split <;> rfl

@[simp] theorem State.settleFlushes_supplyView (s : State) : s.settleFlushes.supplyView = s.supplyView := by
  refine foldl_supplyView (fun s k => ?_) _ s
  split
  · dsimp only
    split
    · rfl
    · exact State.complete_supplyView ..
  · rfl

@[simp] theorem State.endStore_supplyView (s : State) (k : StoreCmd) (st : Nat) (data : List (List Byte)) :
    (s.endStore k st data).supplyView = s.supplyView := by
  have hpieces : ∀ l, (s.applyPieces k.nsid l).supplyView = s.supplyView := s.applyPieces_supplyView k.nsid
  unfold State.endStore
  dsimp only
  refine (State.settleFlushes_supplyView _).trans
    (State.ite_supplyView ?_ (State.ite_supplyView ((State.lpEnd_supplyView ..).trans ?_) ((State.complete_supplyView ..).trans ?_)))
  all_goals
    refine State.ite_supplyView ((State.withMm_supplyView ..).trans ?_) ?_
    all_goals
      refine State.ite_supplyView ((State.withQe_supplyView ..).trans ((State.withQe_supplyView ..).trans ?_))
        ((State.withQe_supplyView ..).trans ?_)
      all_goals exact State.ite_supplyView (hpieces _) rfl

@[simp] theorem State.finishWrite_supplyView (s : State) (k : StoreCmd) : (s.finishWrite k).supplyView = s.supplyView := by
  unfold State.finishWrite
  split
  · simp
  · split <;> simp

@[simp] theorem State.placeWrite_supplyView (s : State) (k : StoreCmd) (n : Namespace) (ps : List Piece) :
    (s.placeWrite k n ps).supplyView = s.supplyView := by
  unfold State.placeWrite
  dsimp only
  exact State.ite_supplyView rfl (State.ite_supplyView rfl
    (State.ite_supplyView ((State.finishWrite_supplyView ..).trans rfl) rfl))

@[simp] theorem State.lpGrant_supplyView (s : State) (tag w : Nat) : (s.lpGrant tag w).supplyView = s.supplyView := by
  unfold State.lpGrant
  split <;> rfl

@[simp] theorem State.lpReadEnds_supplyView (s : State) (k : StoreCmd) (n : Namespace) :
    (s.lpReadEnds k n).supplyView = s.supplyView := by
  unfold State.lpReadEnds
  exact State.ite_supplyView rfl rfl

@[simp] theorem State.startStore_supplyView (s : State) (k : StoreCmd) (data : List (List Byte)) :
    (s.startStore k data).supplyView = s.supplyView := by
  unfold State.startStore
  split
  · simp
  · split
    · simp
    · exact (State.endStore_supplyView ..).trans rfl
    · dsimp only
      exact State.ite_supplyView ((State.lpReadEnds_supplyView ..).trans rfl)
        (State.ite_supplyView ((State.endStore_supplyView ..).trans rfl) ((State.endStore_supplyView ..).trans rfl))
    · exact (State.endStore_supplyView ..).trans rfl
    · rfl
    · exact State.ite_supplyView ((State.lpGrant_supplyView ..).trans rfl) (State.placeWrite_supplyView ..)
    · simp

@[simp] theorem State.proceed_supplyView (s : State) (k : StoreCmd) (data : List (List Byte)) :
    (s.proceed k data).supplyView = s.supplyView := by
  unfold State.proceed
  dsimp only
  split <;> simp

@[simp] theorem State.serveStore_supplyView (s : State) (k : StoreCmd) (data : List (List Byte)) :
    (s.serveStore k data).supplyView = s.supplyView := by
  unfold State.serveStore
  split
  · simp
  · split
    · exact State.ite_supplyView rfl ((State.proceed_supplyView ..).trans rfl)
    · simp

@[simp] theorem State.takeStore_supplyView (s : State) (c : CmdId) (op : StoreOp) (n : Nat) (rs : List (Nat × Nat))
    (data : List (List Byte)) (reads : List CodewordRead) : (s.takeStore c op n rs data reads).supplyView = s.supplyView := by
  unfold State.takeStore
  dsimp only
  split
  · exact (State.serveStore_supplyView ..).trans rfl
  · rfl

@[simp] theorem State.failStore_supplyView (s : State) : s.failStore.supplyView = s.supplyView :=
  foldl_supplyView (fun _ _ => State.endStore_supplyView ..) _ s

/-! ## Object commands -/

@[simp] theorem State.endPublish_supplyView (s : State) (k : ObjCmd) (tag a b c d st dw : Nat) :
    (s.endPublish k tag a b c d st dw).supplyView = s.supplyView :=
  State.complete_supplyView ..

@[simp] theorem State.refuseObj_supplyView (s : State) (k : ObjCmd) (st : Nat) : (s.refuseObj k st).supplyView = s.supplyView := by
  unfold State.refuseObj
  split <;> simp

@[simp] theorem State.dirFullEnd_supplyView (s : State) (k : ObjCmd) : (s.dirFullEnd k).supplyView = s.supplyView :=
  State.refuseObj_supplyView ..

@[simp] theorem State.endEvicts_supplyView (s : State) (ws : List DirWait) : (s.endEvicts ws).supplyView = s.supplyView :=
  congrArg (fun t => t.supplyView) (s.endEvicts_eq ws)

@[simp] theorem State.endPlaces_supplyView (s : State) (ws : List DirWait) (st v : Nat) :
    (s.endPlaces ws st v).supplyView = s.supplyView :=
  foldl_supplyView (fun s w => by cases w <;> rfl) ws s

@[simp] theorem State.promote_supplyView (s : State) (k : ObjCmd) (e : DirEntry) (r : Option Region) :
    (s.promote k e r).supplyView = s.supplyView := by
  unfold State.promote
  dsimp only
  split
  · simp
  · simp
  · refine (State.complete_supplyView ..).trans ((foldl_supplyView (fun s w => by cases w <;> rfl) _ _).trans (State.onDir_supplyView ..))
  · split
    · simp
    · split
      · simp
      · split <;> simp

@[simp] theorem State.startPlace_supplyView (s : State) (k : ObjCmd) (r : Region) :
    (s.startPlace k r).supplyView = s.supplyView := by
  unfold State.startPlace
  dsimp only
  split
  · simp
  · split
    · simp
    · split
      · simp
      · split <;> simp

@[simp] theorem State.takePin_supplyView (s : State) (o : Nat) : (s.takePin o).1.supplyView = s.supplyView := by
  unfold State.takePin
  split <;> rfl

@[simp] theorem State.startPublish_supplyView (s : State) (k : ObjCmd) (b v : Nat) :
    (s.startPublish k b v).supplyView = s.supplyView := by
  unfold State.startPublish
  dsimp only
  split
  · simp
  · split
    · simp
    · split
      · simp
      · split
        · exact s.takePin_supplyView _
        · rfl

@[simp] theorem State.runObj_supplyView (s : State) (k : ObjCmd) : (s.runObj k).supplyView = s.supplyView := by
  unfold State.runObj
  dsimp only
  repeat' split
  all_goals simp

@[simp] theorem State.nextObj_supplyView (s : State) (o : Nat) : (s.nextObj o).supplyView = s.supplyView := by
  unfold State.nextObj
  repeat' split
  all_goals simp

@[simp] theorem State.nearLost_supplyView (s : State) (o : Nat) : (s.nearLost o).supplyView = s.supplyView := by
  unfold State.nearLost
  split
  · rfl
  · dsimp only
    refine (State.nextObj_supplyView ..).trans ((foldl_supplyView (fun s w => by cases w <;> simp) _ _).trans ?_)
    rw [State.endPlaces_supplyView, State.endEvicts_supplyView]
    split <;> rfl

@[simp] theorem State.abortPublish_supplyView (s : State) (c : Copy) (k : ObjCmd) :
    (s.abortPublish c k).supplyView = s.supplyView := by
  unfold State.abortPublish
  refine (State.endPublish_supplyView ..).trans ?_
  split <;> rfl

@[simp] theorem State.failCopies_supplyView (s : State) : s.failCopies.supplyView = s.supplyView := by
  unfold State.failCopies
  dsimp only
  refine (foldl_supplyView (fun s (e : Nat × DirEntry) => s.nearLost_supplyView e.1) _ _).trans
    ((foldl_supplyView (fun s k => s.refuseObj_supplyView k stInternal) _ _).trans (foldl_supplyView (fun s c => ?_) _ s))
  split
  · rfl
  · split
    · exact State.abortPublish_supplyView ..
    · exact State.complete_supplyView ..

/-! ## The stop -/

/-- A fatal stop touches ALERT# alone of the supplies, and nothing of MC (R411, R477). -/
theorem State.fatalStop_supply (s : State) : ∃ a i,
    s.fatalStop.power = { s.power with alertSeen := a, ibis := i } ∧ s.fatalStop.mc = s.mc := by
  obtain ⟨t, ht⟩ : ∃ t : State, t = s.failJobs.failCopies.failStore := ⟨_, rfl⟩
  obtain ⟨u, hu⟩ : ∃ u : State, u = t.lp.cmds.keys.foldl (fun s tag => s.lpEnd tag lpInternal 0) t := ⟨_, rfl⟩
  have hview : u.supplyView = s.supplyView := by
    rw [hu, foldl_supplyView (fun s tag => s.lpEnd_supplyView tag lpInternal 0), ht]
    simp
  obtain ⟨hpower, hmc⟩ := Prod.mk.inj hview
  have hstop : s.fatalStop = State.alert { u with fl := { u.fl with critFatal := true } } := by
    rw [hu, ht]
    rfl
  rw [hstop, State.alert_eq]
  exact ⟨_, _, by dsimp only; rw [hpower], hmc⟩

end Sys2Proof.Machine
end

section
/-! Thermal limits (R373, R482, R483): triggers and the ceiling they start, shutdown, the outlet alert, and refresh. -/

namespace Sys2Proof.Machine

/-! ## Readings -/

@[simp] theorem State.setTemp_find (s : State) (n x : Nat) : (s.setTemp n x).power.temps.find n = some x :=
  KMap.find_put_self ..

theorem State.setTemps_eq (xs : List (Nat × Nat)) (s : State) :
    xs.foldl (fun s x => s.setTemp x.1 x.2) s =
      { s with power := { s.power with temps := xs.foldl (fun m x => m.put x.1 x.2) s.power.temps } } := by
  induction xs generalizing s with
  | nil => rfl
  | cons x xs ih => exact ih (s.setTemp x.1 x.2)

/-! ## The ceiling -/

theorem Pacer.mem_triggers (p : Pacer) (n : Nat) : n ∈ if p.triggers.contains n then p.triggers else n :: p.triggers := by
  split
  · next h => exact List.contains_iff_mem.mp h
  · exact List.mem_cons_self ..

theorem State.startCeiling_starts {s : State} (h : s.pc.thermalCeil = none) (n : Nat) :
    s.startCeiling n = { s with pc := { s.pc with
      triggers := if s.pc.triggers.contains n then s.pc.triggers else n :: s.pc.triggers
      rising := false, thermalCeil := some (s.pc.beatW * 95 / 100), event := setEv s.pc.event 4 } } := by
  unfold State.startCeiling
  dsimp only
  rw [h]

theorem State.startCeiling_stands {s : State} {c : Nat} (h : s.pc.thermalCeil = some c) (n : Nat) :
    s.startCeiling n = { s with pc := { s.pc with
      triggers := if s.pc.triggers.contains n then s.pc.triggers else n :: s.pc.triggers, rising := false } } := by
  unfold State.startCeiling
  dsimp only
  rw [h]

theorem exec_thermalTrigger_at {s : State} {n x l : Nat} (hlink : s.linkUp = true) (hl : triggerAt n = some l) (hx : l ≤ x) :
    exec (.thermalTrigger n x) s =
      .next (((if n = 1 then s.setTemp n x else (s.setTemp n x).postThermal n x).startCeiling n).alert) := by
  change execThermalTrigger n x s = _
  simp [execThermalTrigger, hl, hlink, Nat.not_lt.mpr hx]

/-- A trigger posts its record, once in a beat, and starts the ceiling at 95 % of the last beat's mean (R373, R483). -/
theorem exec_thermalTrigger_starts {n x l : Nat} {s : State} (hlink : s.linkUp = true) (hl : triggerAt n = some l)
    (hx : l ≤ x) (hn : n ≠ 1) (hnone : s.pc.thermalCeil = none) (hready : s.ntAll = true)
    (hfirst : (srcThermal, kThermal, n) ∉ s.fl.beatPosts) :
    ∃ t, exec (.thermalTrigger n x) s = .next t ∧ t.power.temps.find n = some x ∧
      RecordWritten s t srcThermal kThermal 0 0 (BitVec.ofNat 32 n) (BitVec.ofNat 32 x) 0 0 ∧
      t.pc.thermalCeil = some (s.pc.beatW * 95 / 100) ∧ t.pc.rising = false ∧ n ∈ t.pc.triggers ∧
      t.pc.event = setEv s.pc.event 4 ∧ t = { s with power := t.power, pc := t.pc, fl := t.fl } := by
  have hwritten := (s.setTemp n x).postOnce_recordWritten srcThermal kThermal n 0 (BitVec.ofNat 32 n) (BitVec.ofNat 32 x) 0 0
    hready hfirst
  have heq := (s.setTemp n x).postOnce_eq srcThermal kThermal n 0 (BitVec.ofNat 32 n) (BitVec.ofNat 32 x) 0 0 hready
  obtain ⟨u, hu⟩ : ∃ u, u = (s.setTemp n x).postThermal n x := ⟨_, rfl⟩
  change u = _ at hu
  unfold State.postThermal at hu
  rw [← hu] at hwritten heq
  refine ⟨(u.startCeiling n).alert, (exec_thermalTrigger_at hlink hl hx).trans (by rw [if_neg hn, hu]; rfl), ?_⟩
  have hceil : u.pc.thermalCeil = none := by rw [heq]; exact hnone
  rw [State.startCeiling_starts hceil, State.alert_eq]
  refine ⟨?temps, hwritten, ?ceil, rfl, Pacer.mem_triggers .., ?event, ?rest⟩
  case temps => dsimp only; rw [heq]; exact s.setTemp_find n x
  case ceil => dsimp only; rw [heq]; rfl
  case event => dsimp only; rw [heq]; rfl
  case rest => dsimp only; rw [heq]; rfl

/-- A trigger while the ceiling stands leaves its height, and stops its rise (R373). -/
theorem exec_thermalTrigger_stands {n x l c : Nat} {s : State} (hlink : s.linkUp = true) (hl : triggerAt n = some l)
    (hx : l ≤ x) (hc : s.pc.thermalCeil = some c) :
    ∃ t, exec (.thermalTrigger n x) s = .next t ∧ t.pc.thermalCeil = some c ∧ t.pc.rising = false ∧ n ∈ t.pc.triggers := by
  refine ⟨_, exec_thermalTrigger_at hlink hl hx, ?_⟩
  obtain ⟨u, hu⟩ : ∃ u, u = if n = 1 then s.setTemp n x else (s.setTemp n x).postThermal n x := ⟨_, rfl⟩
  have hpc : u.pc = s.pc := by
    rw [hu]
    split
    · rfl
    · exact State.postOnce_pc ..
  rw [← hu, State.startCeiling_stands (c := c) (by rw [hpc]; exact hc), State.alert_eq]
  exact ⟨by dsimp only; rw [hpc]; exact hc, rfl, Pacer.mem_triggers ..⟩

theorem exec_thermalCeilingEnd_cooled {xs : List (Nat × Nat)} {c : Nat} {s : State} (hc : s.pc.thermalCeil = some c)
    (hcool : ∀ n l, triggerAt n = some l → (xs.foldl (fun m x => m.put x.1 x.2) s.power.temps).findD n 0 + 30 ≤ l) :
    exec (.thermalCeilingEnd xs) s = .next { s with
      power := { s.power with temps := xs.foldl (fun m x => m.put x.1 x.2) s.power.temps }
      pc := { s.pc with triggers := [], rising := true } } := by
  obtain ⟨u, hu⟩ : ∃ u, u = xs.foldl (fun s x => s.setTemp x.1 x.2) s := ⟨_, rfl⟩
  have hcooled : u.cooled = true := by
    refine List.all_eq_true.mpr fun n _ => ?_
    split
    · rfl
    · next l hl =>
      rw [hu, State.setTemps_eq]
      exact decide_eq_true (hcool n l hl)
  have hends : exec (.thermalCeilingEnd xs) s = .next { u with pc := { u.pc with triggers := [], rising := true } } := by
    rw [hu] at hcooled ⊢
    change execThermalCeilingEnd xs s = _
    exact congrArg done (if_pos (by rw [hc, hcooled]; rfl))
  rw [hends, hu, State.setTemps_eq]

/-! ## Shutdown (R404, R483) -/

/-- The state whose junction at 115 degrees has lost the tile supply. -/
def State.tilesUnpowered (s : State) (n x : Nat) : State :=
  { s with power := { s.power with temps := s.power.temps.put n x, tileSupply := false } }

theorem exec_thermalShutdown_at {s : State} {n x : Nat} (hlink : s.linkUp = true) (hn : isJunction n = true) (hx : 1150 ≤ x) :
    exec (.thermalShutdown n x) s = .next ((s.tilesUnpowered n x).postFatal srcThermal kThermal 0 (BitVec.ofNat 32 n)
      (BitVec.ofNat 32 x) 0 0) := by
  change execThermalShutdown n x s = _
  exact congrArg done (if_neg (by simp [hlink, hn, hx]))

theorem exec_thermalShutdown_startup {n x : Nat} {s : State} (hlink : s.linkUp = true) (hn : isJunction n = true)
    (hx : 1150 ≤ x) (hready : s.ntAll = true) (hblocks : s.inBlocks = false) (hgo : s.inGo = false)
    (hclear : s.mc.fatalClear = none) :
    ∃ t, exec (.thermalShutdown n x) s = .next t ∧ t.power.tileSupply = false ∧ t.power.temps.find n = some x ∧
      RecordWritten s t srcThermal kThermal 2 0 (BitVec.ofNat 32 n) (BitVec.ofNat 32 x) 0 0 ∧ t.fl.fatalStands = true := by
  obtain ⟨hwritten, hstands, hpower⟩ := (s.tilesUnpowered n x).postFatal_spec srcThermal kThermal 0 (BitVec.ofNat 32 n)
    (BitVec.ofNat 32 x) 0 0 hready hblocks hgo hclear
  refine ⟨_, exec_thermalShutdown_at hlink hn hx, ?_, ?_, hwritten, hstands⟩
  · rw [hpower]
    rfl
  · rw [hpower]
    exact KMap.find_put_self ..

/-- A fatal record in GO or BLOCKS stops the work: the supplies but for ALERT#, and MC, stay (R411). -/
theorem State.postFatal_served {s : State} (a b : Nat) (x : W64) (p q r w : W32) (h : s.ntAll = true)
    (hrun : (s.inBlocks || s.inGo) = true) : ∃ e i,
    (s.postFatal a b x p q r w).power = { s.power with alertSeen := e, ibis := i } ∧ (s.postFatal a b x p q r w).mc = s.mc := by
  obtain ⟨-, -, hmc, -⟩ := s.post_written a b 2 x p q r w h
  have hpower : (s.post a b 2 x p q r w).power = s.power := by simp
  unfold State.postFatal
  dsimp only
  rw [if_pos hrun]
  obtain ⟨e, i, hp, hm⟩ := State.fatalStop_supply
    { s.post a b 2 x p q r w with fl := (s.post a b 2 x p q r w).fl.stand (s.mkRecord a b 2 x p q r w) none }
  exact ⟨e, i, hp.trans (by dsimp only; rw [hpower]), hm.trans hmc⟩

theorem State.inGo_linkUp {s : State} (h : s.mc.phase = .go) : s.linkUp = true := by
  simp [State.linkUp, h]

theorem exec_thermalShutdown_go {n x : Nat} {s : State} (hphase : s.mc.phase = .go) (hgo : s.inGo = true)
    (hn : isJunction n = true) (hx : 1150 ≤ x) (hready : s.ntAll = true) :
    ∃ t, exec (.thermalShutdown n x) s = .next t ∧ t.power.tileSupply = false ∧ t.halted = true := by
  obtain ⟨u, hu⟩ : ∃ u, u = s.tilesUnpowered n x := ⟨_, rfl⟩
  have hreadyU : u.ntAll = true := by rw [hu]; exact hready
  have hrunU : (u.inBlocks || u.inGo) = true := by
    rw [hu]
    exact (congrArg (s.inBlocks || ·) hgo).trans (Bool.or_true _)
  obtain ⟨hstands, -⟩ := u.postFatal_stands srcThermal kThermal 0 (BitVec.ofNat 32 n) (BitVec.ofNat 32 x) 0 0 hreadyU
  obtain ⟨e, i, hpower, hmc⟩ := State.postFatal_served srcThermal kThermal 0 (BitVec.ofNat 32 n) (BitVec.ofNat 32 x) 0 0
    hreadyU hrunU
  refine ⟨_, exec_thermalShutdown_at (State.inGo_linkUp hphase) hn hx, ?_⟩
  rw [← hu]
  refine ⟨by rw [hpower, hu]; rfl, ?_⟩
  have hphaseU : u.mc.phase = .go := by rw [hu]; exact hphase
  unfold State.halted
  rw [hmc, hstands, hphaseU]
  rfl

/-! ## The outlet (R477, R483) -/

theorem exec_outletAlert_posts {x : Nat} {s : State} (hlink : s.linkUp = true) (hin : s.power.vinAccepted = true)
    (hok : s.power.failing = false) (hx : 780 ≤ x) (hready : s.ntAll = true)
    (hfirst : (srcThermal, kThermal, 1) ∉ s.fl.beatPosts) :
    ∃ t, exec (.outletAlert x) s = .next t ∧ t.power.outletHot = true ∧ t.power.temps.find 1 = some x ∧
      RecordWritten s t srcThermal kThermal 0 0 1 (BitVec.ofNat 32 x) 0 0 ∧ t = { s with power := t.power, fl := t.fl } := by
  obtain ⟨u, hu⟩ : ∃ u : State, u = { s with power := { s.power with temps := s.power.temps.put 1 x, outletHot := true } } := ⟨_, rfl⟩
  have hrun : exec (.outletAlert x) s = .next ((u.postThermal 1 x).alert) := by
    rw [hu]
    change execOutletAlert x s = _
    refine congrArg done ((if_neg (by simp [hin, hok, hx])).trans ?_)
    exact congrArg State.alert (if_pos hlink)
  have hwritten := u.postOnce_recordWritten srcThermal kThermal 1 0 (BitVec.ofNat 32 1) (BitVec.ofNat 32 x) 0 0
    (by rw [hu]; exact hready) (by rw [hu]; exact hfirst)
  have heq := u.postOnce_eq srcThermal kThermal 1 0 (BitVec.ofNat 32 1) (BitVec.ofNat 32 x) 0 0 (by rw [hu]; exact hready)
  refine ⟨_, hrun, ?_⟩
  rw [State.alert_eq]
  unfold State.postThermal
  obtain ⟨v, hv⟩ : ∃ v, v = u.postOnce srcThermal kThermal 1 0 (BitVec.ofNat 32 1) (BitVec.ofNat 32 x) 0 0 := ⟨_, rfl⟩
  rw [← hv] at hwritten heq ⊢
  rw [hu] at hwritten heq
  refine ⟨?hot, ?temps, hwritten, ?rest⟩
  case hot => dsimp only; rw [heq]
  case temps => dsimp only; rw [heq]; exact KMap.find_put_self ..
  case rest => dsimp only; rw [heq]

theorem exec_outletAlertEnd_ends {x : Nat} {s : State} (hin : s.power.vinAccepted = true) (hx : x < 780) :
    ∃ t, exec (.outletAlertEnd x) s = .next t ∧ t = { s with power := { s.power with
      temps := s.power.temps.put 1 x, outletHot := false, alertSeen := t.power.alertSeen, ibis := t.power.ibis } } := by
  obtain ⟨u, hu⟩ : ∃ u : State, u = { s with power := { s.power with temps := s.power.temps.put 1 x, outletHot := false } } := ⟨_, rfl⟩
  have hrun : exec (.outletAlertEnd x) s = .next u.alert := by
    rw [hu]
    change execOutletAlertEnd x s = _
    exact congrArg done (if_pos (by simp [hin, hx]))
  refine ⟨_, hrun, ?_⟩
  rw [State.alert_eq, hu]

/-! ## Refresh (R483) -/

theorem exec_dramHotRefresh_sets {k x : Nat} {s : State} (hlink : s.linkUp = true) (hk : k < 16) :
    ∃ t, exec (.dramHotRefresh k x) s = .next t ∧ t.power.temps = s.power.temps.put (2 + k) x ∧
      (k ∈ t.power.refresh2x ↔ 850 < x) ∧ (∀ j, j ≠ k → (j ∈ t.power.refresh2x ↔ j ∈ s.power.refresh2x)) ∧
      t = { s with power := { s.power with temps := t.power.temps, refresh2x := t.power.refresh2x } } := by
  refine ⟨{ s with power := { s.power with
      temps := s.power.temps.put (2 + k) x
      refresh2x := if 850 < x then k :: s.power.refresh2x.filter (fun j => j != k)
        else s.power.refresh2x.filter (fun j => j != k) } }, ?_, rfl, ?_, ?_, rfl⟩
  · change execDramHotRefresh k x s = _
    exact congrArg done (if_neg (by simp [hlink, hk]))
  · dsimp only
    split <;> simp_all
  · intro j hj
    dsimp only
    split <;> simp [hj]

/-- Settles O13: a trigger, a shutdown and an outlet alert each post one record, and the supplies and the Pacer's ceiling are all
that changes besides; in GO the fatal record stops the work with the tile supply off. -/
theorem thermalEvents : Obligations.ThermalEvents := by
  unfold Obligations.ThermalEvents
  refine ⟨?starts, ?stands, ?cooled, ?shutdown, ?shutdownGo, ?outlet, ?outletEnd, ?refresh⟩
  case starts => exact fun n x l s hlink hl hx hn hnone hready hfirst =>
    exec_thermalTrigger_starts hlink hl hx hn hnone hready hfirst
  case stands => exact fun x l c n s hlink hl hx hc => exec_thermalTrigger_stands hlink hl hx hc
  case cooled => exact fun xs c s hc hcool => exec_thermalCeilingEnd_cooled hc hcool
  case shutdown => exact fun n x s hlink hn hx hready hblocks hgo hclear =>
    exec_thermalShutdown_startup hlink hn hx hready hblocks hgo hclear
  case shutdownGo => exact fun n x s hphase hgo hn hx hready => exec_thermalShutdown_go hphase hgo hn hx hready
  case outlet => exact fun x s hlink hin hok hx hready hfirst => exec_outletAlert_posts hlink hin hok hx hready hfirst
  case outletEnd => exact fun x s hin hx => exec_outletAlertEnd_ends hin hx
  case refresh => exact fun k x s hlink hk => exec_dramHotRefresh_sets hlink hk

end Sys2Proof.Machine
end

section
/-! The input supply and the hold-up bank (R378, R404, R468 to R471, R477). -/

namespace Sys2Proof.Machine

/-! ## The input, by the branches of its commands -/

/-- An input of `v` accepted, the bank yet to charge. -/
def State.inputAccepted (s : State) (v : Nat) : State :=
  { s with power := { s.power with vin10mV := v, vinAccepted := true, bankCharged := false } }

theorem exec_vinAccepted_standby {v : Nat} {s : State} (h : s.power.vinAccepted = false) (hf : s.power.failing = false)
    (hv : 3950 ≤ v ∧ v ≤ 6400) : exec (.vinAccepted v) s = .next (s.inputAccepted v).alert := by
  refine congrArg done (if_neg ?_)
  simp [h, hf, hv.1, hv.2]

theorem exec_holdUpBankCharged_off {s : State} (h : s.power.vinAccepted = true) (hb : s.power.bankCharged = false)
    (hf : s.power.failing = false) (hm : s.power.modEn = false) :
    exec .holdUpBankCharged s = .next { s with power := { s.power with bankCharged := true } } :=
  congrArg done ((if_pos (by simp [h, hb, hf])).trans (if_neg (by simp [hm])))

theorem exec_holdUpBankCharged_up {s : State} (h : s.power.vinAccepted = true) (hb : s.power.bankCharged = false)
    (hf : s.power.failing = false) (hm : s.power.modEn = true) :
    exec .holdUpBankCharged s = .next (({ s with power := { s.power with bankCharged := true } } : State).powerUp 0) :=
  congrArg done ((if_pos (by simp [h, hb, hf])).trans (if_pos hm))

/-- The bank charges with MOD_EN high and PERST# deasserted: MARKS, from a cold start (R378, R469). -/
theorem exec_holdUpBankCharged_enters {s : State} (h : s.power.vinAccepted = true) (hb : s.power.bankCharged = false)
    (hf : s.power.failing = false) (hm : s.power.modEn = true) (hp : s.power.perst = false) :
    ∃ t, exec .holdUpBankCharged s = .next t ∧ t.mc.phase = .marks ∧ t.mc.entry = 0 ∧
      t.mc.entries = sat16 (s.mc.entries + 1) ∧ t.power.bankCharged = true ∧ t.power.pwrGood = true ∧
      t.power.tileSupply = false ∧ t.tiles = [] ∧ t.rl.near = [] ∧ t.rl.far = s.rl.far ∧ t.sw.store = s.sw.store := by
  obtain ⟨u, hu⟩ : ∃ u : State, u = { s with power := { s.power with bankCharged := true }.railsOn } := ⟨_, rfl⟩
  have hup : exec .holdUpBankCharged s = .next (u.enterMarks 0) := by
    rw [exec_holdUpBankCharged_up h hb hf hm, State.powerUp_enters (by exact hp), hu]
  obtain ⟨-, hpower, -, htiles, -, hrl, -, hsw, -, -, -⟩ := u.enterMarks_spec 0
  obtain ⟨hphase, hentry, hentries, -⟩ := u.enterMarks_mc 0
  refine ⟨_, hup, hphase, hentry, ?entries, ?bank, ?good, ?tile, htiles, ?near, ?far, ?store⟩
  case entries => rw [hentries, hu]
  case bank => rw [hpower, hu]; rfl
  case good => rw [hpower]
  case tile => rw [hpower]
  case near => rw [hrl]; rfl
  case far => rw [hrl, hu]
  case store => rw [hsw, hu]; rfl

/-- The input noted outside its range. -/
def State.inputOut (s : State) (v : Nat) : State :=
  { s with power := { s.power with vin10mV := v, outOfRange := true } }

theorem exec_inputOutOfRange_posts {v : Nat} {s : State} (h : s.power.vinAccepted = true) (hf : s.power.failing = false)
    (hv : v < 4000 ∨ 6000 < v) (hlink : s.linkUp = true) :
    exec (.inputOutOfRange v) s = .next ((s.inputOut v).postCorr srcPower kPowerBand 0 (BitVec.ofNat 32 v)
      (if v < 4000 then 4 else 8) 0 0).alert := by
  have hcode : BitVec.ofNat 32 (4 * if v < 4000 then 1 else 2) = if v < 4000 then 4 else 8 := by
    split <;> rfl
  rw [← hcode]
  refine congrArg done ((if_neg ?_).trans (congrArg State.alert (if_pos hlink)))
  rcases hv with hv | hv <;> simp [h, hf] <;> omega

/-- An input out of range is noted with one record (R404, R468). -/
theorem exec_inputOutOfRange_recorded {v : Nat} {s : State} (h : s.power.vinAccepted = true) (hf : s.power.failing = false)
    (hv : v < 4000 ∨ 6000 < v) (hlink : s.linkUp = true) (hready : s.ntAll = true) :
    ∃ t, exec (.inputOutOfRange v) s = .next t ∧ t.power.vin10mV = v ∧ t.power.outOfRange = true ∧
      RecordWritten s t srcPower kPowerBand 0 0 (BitVec.ofNat 32 v) (if v < 4000 then 4 else 8) 0 0 ∧
      t = { s with power := { s.power with
              vin10mV := v, outOfRange := true, alertSeen := t.power.alertSeen, ibis := t.power.ibis }, fl := t.fl } := by
  obtain ⟨u, hu⟩ : ∃ u, u = (s.inputOut v).postCorr srcPower kPowerBand 0 (BitVec.ofNat 32 v) (if v < 4000 then 4 else 8) 0 0 :=
    ⟨_, rfl⟩
  have hwritten : RecordWritten s u srcPower kPowerBand 0 0 (BitVec.ofNat 32 v) (if v < 4000 then 4 else 8) 0 0 := by
    rw [hu]
    exact (s.inputOut v).post_recordWritten _ _ 0 _ _ _ _ _ hready
  have heq : u = { s.inputOut v with fl := u.fl } := by
    rw [hu]
    exact (s.inputOut v).postCorr_eq _ _ _ _ _ _ _ hready
  refine ⟨u.alert, hu ▸ exec_inputOutOfRange_posts h hf hv hlink, ?_⟩
  rw [State.alert_eq]
  refine ⟨?vin, ?out, hwritten, ?rest⟩
  case vin => dsimp only; rw [heq]; rfl
  case out => dsimp only; rw [heq]; rfl
  case rest => dsimp only; rw [heq]; rfl

/-- The input noted in range again. -/
def State.inputIn (s : State) (v : Nat) : State :=
  { s with power := { s.power with vin10mV := v, outOfRange := false } }

theorem exec_inputInRange_noted {v : Nat} {s : State} (h : s.power.vinAccepted = true) (hv : 4000 ≤ v ∧ v ≤ 6000) :
    exec (.inputInRange v) s = .next (s.inputIn v).alert :=
  congrArg done (if_pos (by simp [h, hv.1, hv.2]))

/-! ## Loss of power (R184, R470) -/

/-- The stripe not yet closed is lost; nothing but MM changes. -/
theorem State.powerLost_eq (s : State) : s.powerLost = { s with mm := s.powerLost.mm } := by
  unfold State.powerLost
  split <;> rfl

theorem exec_powerFail_stops {v : Nat} {s : State} (h : s.power.vinAccepted = true) (hf : s.power.failing = false) :
    exec (.powerFail v) s = .next (s.powerFail v) :=
  congrArg done (if_neg (by simp [h, hf]))

theorem State.powerFail_spec (s : State) (v : Nat) : (s.powerFail v).mc.phase = .off ∧ (s.powerFail v).qe.ready = false ∧
    (s.powerFail v).qe.fetched = [] ∧ (s.powerFail v).power.failing = true ∧ (s.powerFail v).power.vin10mV = v ∧
    (s.powerFail v).power.pwrGood = false ∧ (s.powerFail v).power.tileSupply = false ∧
    (s.powerFail v).power.dramRail = false ∧ (s.powerFail v).power.dynAddr = none ∧ (s.powerFail v).power.eid = none ∧
    (s.powerFail v).lp = Lp.reset ∧ (s.powerFail v).fl = s.fl ∧ (s.powerFail v).sl = s.sl ∧ (s.powerFail v).rl = s.rl ∧
    (s.powerFail v).jd = s.jd ∧ (s.powerFail v).tiles = s.tiles ∧ (s.powerFail v).se = s.se ∧ (s.powerFail v).sw = s.sw := by
  unfold State.powerFail
  dsimp only
  rw [State.powerLost_eq]
  exact ⟨rfl, rfl, rfl, rfl, rfl, rfl, rfl, rfl, rfl, rfl, rfl, rfl, rfl, rfl, rfl, rfl, rfl, rfl⟩

theorem exec_powerFailRailsOff_off {s : State} (hf : s.power.failing = true) : exec .powerFailRailsOff s = .next s.railsOff :=
  congrArg done (if_pos hf)

theorem State.railsOff_spec (s : State) : s.railsOff.mc.phase = .off ∧ s.railsOff.mc.entries = 0 ∧
    s.railsOff.mc.recoveryNext = false ∧ s.railsOff.power.failing = false ∧ s.railsOff.power.vinAccepted = false ∧
    s.railsOff.power.bankCharged = false ∧ s.railsOff.power.pwrGood = false ∧ s.railsOff.tiles = [] ∧
    s.railsOff.rl.near = [] ∧ s.railsOff.qe.wp = [] ∧ s.railsOff.pc.nominalNs = 1000000 := by
  unfold State.railsOff
  exact ⟨rfl, rfl, rfl, rfl, rfl, rfl, rfl, rfl, rfl, rfl, rfl⟩

/-- Settles O6: each supply event by the one branch its hypotheses leave, with what an entry to MARKS, a record, a power fail and
the end of the hold-up time do. -/
theorem inputPowerEvents : Obligations.InputPowerEvents := by
  unfold Obligations.InputPowerEvents
  refine ⟨?accepted, ?charged, ?enters, ?defers, ?outOfRange, ?inRange, ?fails, ?off⟩
  case accepted =>
    intro v s h hf hv
    refine ⟨_, exec_vinAccepted_standby h hf hv, ?_⟩
    rw [State.alert_eq]
    rfl
  case charged => exact fun s h hb hf hm => exec_holdUpBankCharged_off h hb hf hm
  case enters => exact fun s h hb hf hm hp => exec_holdUpBankCharged_enters h hb hf hm hp
  case defers =>
    intro s h hb hf hm hp
    refine ⟨_, exec_holdUpBankCharged_up h hb hf hm, ?_⟩
    rw [State.powerUp_defers (by exact hp)]
    rfl
  case outOfRange => exact fun v s h hf hv hlink hready => exec_inputOutOfRange_recorded h hf hv hlink hready
  case inRange =>
    intro v s h hv
    refine ⟨_, exec_inputInRange_noted h hv, ?_⟩
    rw [State.alert_eq]
    rfl
  case fails => exact fun v s h hf => ⟨_, exec_powerFail_stops h hf, s.powerFail_spec v⟩
  case off => exact fun s hf => ⟨_, exec_powerFailRailsOff_off hf, s.railsOff_spec⟩

end Sys2Proof.Machine
end

section
/-! Records before the near tier is ready (R384): the buffer of 256, and its move into the ring. -/

namespace Sys2Proof.Machine

/-! ## The buffer -/

/-- A record before every stack is ready joins the buffer, or is dropped and counted. -/
theorem State.post_buffered {s : State} (h : s.ntAll = false) (r k l : Nat) (a : W64) (d0 d1 d2 d3 : W32) :
    (s.post r k l a d0 d1 d2 d3).fl.ring = s.fl.ring ∧
    (s.post r k l a d0 d1 d2 d3).fl.buffer =
      (if s.fl.buffer.length < 256 then s.fl.buffer ++ [s.mkRecord r k l a d0 d1 d2 d3] else s.fl.buffer) ∧
    (s.post r k l a d0 d1 d2 d3).fl.posted = (if s.fl.buffer.length < 256 then s.fl.posted + 1 else s.fl.posted) ∧
    (s.post r k l a d0 d1 d2 d3).mc =
      (if s.fl.buffer.length < 256 then s.mc else { s.mc with dropped := sat32 (s.mc.dropped + 1) }) := by
  have hring : ∀ f : Fl, (f.countClass l).ring = f.ring := fun f => by
    unfold Fl.countClass
    split <;> rfl
  have hwrite : s.writeRecord (s.mkRecord r k l a d0 d1 d2 d3) =
      (if s.fl.buffer.length < 256 then
        { s with fl := { Fl.countClass { s.fl with seqs := s.fl.seqs.put r (((s.fl.seqOf r).1 + 1) % 65536, (s.fl.seqOf r).2) } l with
          buffer := s.fl.buffer ++ [s.mkRecord r k l a d0 d1 d2 d3], posted := s.fl.posted + 1 } }
      else { s with
        fl := { s.fl with seqs := s.fl.seqs.put r (((s.fl.seqOf r).1 + 1) % 65536, (s.fl.seqOf r).2) }
        mc := { s.mc with dropped := sat32 (s.mc.dropped + 1) } }) :=
    if_neg (by simp [h])
  unfold State.post
  dsimp only
  rw [hwrite]
  by_cases hroom : s.fl.buffer.length < 256
  · simp only [if_pos hroom]
    split <;> exact ⟨hring _, rfl, rfl, rfl⟩
  · simp only [if_neg hroom]
    split <;> exact ⟨rfl, rfl, rfl, rfl⟩

/-! ## A corrected fault message -/

/-- A corrected message counts in its tile or its stack, and nowhere else. -/
theorem State.countError_corrected {s : State} {m : FaultMsg} (h : m.cls = 0) :
    (s.countError m).fl = s.fl ∧ (s.countError m).mc = s.mc ∧ (s.countError m).pc = s.pc ∧
      (s.countError m).rl.ntReady = s.rl.ntReady := by
  unfold State.countError State.countNtUncorr
  dsimp only
  split
  · exact ⟨rfl, rfl, rfl, rfl⟩
  · split
    · split
      · exact ⟨rfl, rfl, rfl, rfl⟩
      · split <;> exact ⟨rfl, rfl, rfl, rfl⟩
    · rw [if_neg (by simp [h])]
      exact ⟨rfl, rfl, rfl, rfl⟩

theorem exec_faultMessage_corrected {m : FaultMsg} {s : State} (hlink : s.linkUp = true)
    (hposts : posts m.source m.kind 0 (bitW m.d1 0) = true) (hcls : m.cls = 0) (hlimit : limitCode m = none) :
    exec (.faultMessage m) s = .next ((s.countError m).post m.source m.kind 0 m.addr m.d0 m.d1 m.d2 m.d3) := by
  refine congrArg done ((if_neg (by simp [hlink, hcls, hposts])).trans ?_)
  unfold State.faultMessage
  rw [hcls]
  dsimp only
  rw [hlimit]
  rfl

/-- A corrected message before every stack is ready: its record, made by the state before it, waits or is dropped. -/
theorem exec_faultMessage_buffered {m : FaultMsg} {s : State} (hlink : s.linkUp = true)
    (hposts : posts m.source m.kind 0 (bitW m.d1 0) = true) (hcls : m.cls = 0) (hlimit : limitCode m = none)
    (hready : s.ntAll = false) : ∃ t, exec (.faultMessage m) s = .next t ∧ t.fl.ring = s.fl.ring ∧
      t.fl.buffer = (if s.fl.buffer.length < 256 then
        s.fl.buffer ++ [s.mkRecord m.source m.kind 0 m.addr m.d0 m.d1 m.d2 m.d3] else s.fl.buffer) ∧
      t.fl.posted = (if s.fl.buffer.length < 256 then s.fl.posted + 1 else s.fl.posted) ∧
      t.mc = (if s.fl.buffer.length < 256 then s.mc else { s.mc with dropped := sat32 (s.mc.dropped + 1) }) := by
  obtain ⟨hfl, hmc, hpc, hnt⟩ := State.countError_corrected (s := s) hcls
  have hready' : (s.countError m).ntAll = false := by
    unfold State.ntAll
    rw [hnt]
    exact hready
  have hrecord : (s.countError m).mkRecord m.source m.kind 0 m.addr m.d0 m.d1 m.d2 m.d3 =
      s.mkRecord m.source m.kind 0 m.addr m.d0 m.d1 m.d2 m.d3 := by
    unfold State.mkRecord
    rw [hfl, hpc]
  have hpost := State.post_buffered hready' m.source m.kind 0 m.addr m.d0 m.d1 m.d2 m.d3
  rw [hfl, hmc, hrecord] at hpost
  exact ⟨_, exec_faultMessage_corrected hlink hposts hcls hlimit, hpost⟩

/-- MC_BOOT.DROPPED holds up to 0xFF. -/
theorem State.readMc_dropped {s : State} (h : s.mc.entries < 65536) :
    bitsW (s.readMc 0x18) 23 16 = min 255 s.mc.dropped := by
  have hsat : satTo 0xFF s.mc.dropped = min 255 s.mc.dropped := rfl
  have hlow : s.mc.entries / 2 ^ 16 = 0 := Nat.div_eq_of_lt h
  have hdropped : min 255 s.mc.dropped < 2 ^ 8 := Nat.lt_succ_of_le (Nat.min_le_left ..)
  change (packW [(0, s.mc.entries), (16, satTo 0xFF s.mc.dropped)]).toNat / 2 ^ 16 % 2 ^ 8 = _
  rw [hsat]
  unfold packW packW packW
  have hhigh : (s.mc.entries ||| min 255 s.mc.dropped * 2 ^ 16) >>> 16 = min 255 s.mc.dropped := by
    rw [Nat.shiftRight_or_distrib, Nat.shiftRight_eq_div_pow, Nat.shiftRight_eq_div_pow, hlow, Nat.zero_or,
      Nat.mul_div_cancel _ (by decide)]
  have hword : (BitVec.ofNat 32 (s.mc.entries * 2 ^ 0) ||| (BitVec.ofNat 32 (min 255 s.mc.dropped * 2 ^ 16) ||| 0)).toNat =
      s.mc.entries ||| min 255 s.mc.dropped * 2 ^ 16 := by
    simp only [BitVec.toNat_or, BitVec.toNat_ofNat, Nat.pow_zero, Nat.mul_one]
    rw [Nat.mod_eq_of_lt (by omega), Nat.mod_eq_of_lt (by omega)]
    simp
  rw [hword, ← Nat.shiftRight_eq_div_pow, hhigh, Nat.mod_eq_of_lt hdropped]

/-- A counter that saturates above 0xFF shows there what the count without saturation shows. -/
theorem min_sat32 (n : Nat) : min 255 (sat32 n) = min 255 n := by
  unfold sat32 satTo
  omega

/-! ## The move into the ring -/

/-- The ring after records move into the slots from the one of number `n` on. -/
def ringFill (n : Nat) (ring : KMap Record) (l : List (Record × Nat)) : KMap Record :=
  l.foldl (fun m x => m.put ((n + x.2) % 65536) x.1) ring

theorem ringFill_other {n k a : Nat} {ring : KMap Record} (l : List Record)
    (h : ∀ i, i < l.length → a ≠ (n + (k + i)) % 65536) : (ringFill n ring (l.zipIdx k)).find a = ring.find a := by
  induction l generalizing k ring with
  | nil => rfl
  | cons r l ih =>
    have hrest : ∀ i, i < l.length → a ≠ (n + (k + 1 + i)) % 65536 := fun i hi => by
      have := h (i + 1) (by simpa using hi)
      rwa [show k + (i + 1) = k + 1 + i by omega] at this
    have hne : a ≠ (n + k) % 65536 := h 0 (by simp)
    change (ringFill n (ring.put ((n + k) % 65536) r) (l.zipIdx (k + 1))).find a = _
    rw [ih hrest, KMap.find_put_ne _ _ _ _ hne]

theorem ringFill_slot {n k i : Nat} {ring : KMap Record} (l : List Record) (hlen : l.length ≤ 65536) (hi : i < l.length) :
    (ringFill n ring (l.zipIdx k)).find ((n + (k + i)) % 65536) = l[i]? := by
  induction l generalizing k i ring with
  | nil => exact absurd hi (Nat.not_lt_zero i)
  | cons r l ih =>
    have hlen' : l.length + 1 ≤ 65536 := hlen
    change (ringFill n (ring.put ((n + k) % 65536) r) (l.zipIdx (k + 1))).find _ = _
    cases i with
    | zero =>
      rw [ringFill_other l fun i hi => by omega, Nat.add_zero, KMap.find_put_self]
      rfl
    | succ i =>
      rw [show k + (i + 1) = k + 1 + i by omega, ih (by omega) (Nat.lt_of_succ_lt_succ hi)]
      rfl

/-! ## A stack that becomes ready -/

theorem exec_ntSweepDone_swept {k : Nat} {s : State} (hblocks : s.inBlocks = true) (hk : k ∈ s.mc.trained) :
    exec (.ntSweepDone k) s = .next (s.stackSwept k) :=
  congrArg done (if_pos (by simp [hblocks, hk]))

/-- The stacks ready once stack `k` is swept. -/
def State.readyAfter (s : State) (k : Nat) : Bool := (List.range 16).all (fun i => (k :: s.rl.ntReady).contains i)

theorem State.readyAfter_iff (s : State) (k : Nat) :
    s.readyAfter k = true ↔ ∀ i, i < 16 → i ≠ k → i ∈ s.rl.ntReady := by
  simp only [State.readyAfter, List.all_eq_true, List.mem_range, List.contains_iff_mem, List.mem_cons]
  exact ⟨fun h i hi hne => (h i hi).resolve_left hne, fun h i hi => (eq_or_ne i k).imp_right (h i hi)⟩

theorem State.stackSwept_waits {s : State} {k : Nat} (h : s.readyAfter k = false) :
    (s.stackSwept k).fl = s.fl ∧ (s.stackSwept k).ntAll = false ∧ (s.stackSwept k).rl.ntReady = k :: s.rl.ntReady := by
  have hnot : ¬ s.readyAfter k = true := by simp [h]
  unfold State.stackSwept
  dsimp only
  rw [if_neg (by exact hnot)]
  exact ⟨rfl, h, rfl⟩

theorem State.stackSwept_ready {s : State} {k : Nat} (h : s.readyAfter k = true) :
    (s.stackSwept k).fl = s.fl.flushBuffer ∧ (s.stackSwept k).ntAll = true := by
  unfold State.stackSwept
  dsimp only
  rw [if_pos (by exact h)]
  exact ⟨rfl, h⟩

/-- Settles O60: the post in each case of its buffer, and the buffer's move by induction over its records. -/
theorem earlyRecords : Obligations.EarlyRecords := by
  unfold Obligations.EarlyRecords
  refine ⟨?posts, ?buffered, ?dropped, ?waits, ?moves⟩
  case posts =>
    intro r k l a d0 d1 d2 d3 s h
    obtain ⟨hring, hbuffer, -, hmc⟩ := State.post_buffered h r k l a d0 d1 d2 d3
    refine ⟨hring, hbuffer, ?_⟩
    rw [hmc]
    split <;> rfl
  case buffered =>
    intro m s hlink hposts hcls hlimit hready hroom
    obtain ⟨t, hstep, hring, hbuffer, hposted, hmc⟩ := exec_faultMessage_buffered hlink hposts hcls hlimit hready
    rw [if_pos hroom] at hbuffer hposted hmc
    exact ⟨t, hstep, hbuffer, hring, hposted, hmc⟩
  case dropped =>
    intro m s hlink hposts hcls hlimit hready hfull hentries
    obtain ⟨t, hstep, hring, hbuffer, hposted, hmc⟩ := exec_faultMessage_buffered hlink hposts hcls hlimit hready
    rw [if_neg (Nat.not_lt.mpr hfull)] at hbuffer hposted hmc
    refine ⟨t, hstep, hbuffer, hring, hposted, hmc, ?_⟩
    rw [State.readMc_dropped (by rw [hmc]; exact hentries), hmc]
    exact min_sat32 _
  case waits =>
    intro k s hblocks hk ⟨i, hi, hne, hmissing⟩
    have hnot : s.readyAfter k = false := by
      rw [← Bool.not_eq_true, State.readyAfter_iff]
      exact fun h => hmissing (h i hi hne)
    exact ⟨_, exec_ntSweepDone_swept hblocks hk, State.stackSwept_waits hnot⟩
  case moves =>
    intro k s hblocks hk hall hlen hposted
    obtain ⟨hfl, hready⟩ := State.stackSwept_ready ((s.readyAfter_iff k).mpr hall)
    refine ⟨_, exec_ntSweepDone_swept hblocks hk, hready, by rw [hfl]; rfl, ?_, ?_⟩
    · intro i hi
      have hslot := ringFill_slot (n := s.fl.posted - s.fl.buffer.length) (k := 0) (ring := s.fl.ring) s.fl.buffer (by omega) hi
      rw [Nat.zero_add] at hslot
      rw [hfl]
      exact hslot
    · intro a ha
      rw [hfl]
      exact ringFill_other s.fl.buffer fun i hi => by rw [Nat.zero_add]; exact ha i hi

end Sys2Proof.Machine
end

section
/-! Refutation of the statement about fault clears (R326, R405, R414): the clear is itself the Asynchronous Event Request that the
record of the cause that persists completes. -/

namespace Sys2Proof.Machine

/-- The cause that stands: an uncorrectable byte of tile 3, which fenced squad 2. -/
def tile3Standing : Standing :=
  { record := { source := 3, kind := kEccUncorr, cls := 1, seq := 0, beat := 0, addr := 64, d0 := 0, d1 := 0, d2 := 0, d3 := 0 }
    squad := some 2, entry := true }

/-- The re-check of that cause finds it again. -/
def tile3Persists : List Recheck := [{ source := 3, kind := kEccUncorr, persists := true }]

/-- GO with squad 2 fenced, that cause standing, and command 7, not yet fetched, among the pending Asynchronous Event Requests. -/
def goFencedAer : State :=
  { Tests.goAdmin with
    qe := { Tests.goAdmin.qe with aers := [Tests.c7] }
    rl := { Rl.reset with ntReady := List.range 16 }
    sl := { Sl.reset with set_ := { SquadSet.empty with squads := [(2, bareSquad 1 .fenced)] } }
    fl := { Fl.reset with standing := [tile3Standing] } }

/-- The record of the cause that persists reports its event with command 7. -/
theorem goFencedAer_clears :
    (goFencedAer.faultClear Tests.c7 (Tests.loadWords 0x201 0 0) 1 tile3Persists).qe.fetched = [] := by
  decide +kernel

/-- Refutes O58: no hypothesis of the clause about a squad's cause that persists keeps the command from the pending Asynchronous
Event Requests; the contained record then completes it, where the statement has it fetched still. -/
theorem not_faultClears : ¬ Obligations.FaultClears := by
  unfold Obligations.FaultClears
  rintro ⟨-, -, -, -, -, hpersists, -⟩
  have hstep : exec (.faultClearSquad Tests.c7 (Tests.loadWords 0x201 0 0) tile3Persists) goFencedAer =
      .next (goFencedAer.faultClear Tests.c7 (Tests.loadWords 0x201 0 0) 1 tile3Persists) := rfl
  obtain ⟨t, hex, -, -, -, -, hfetched, -⟩ := hpersists Tests.c7 (Tests.loadWords 0x201 0 0) tile3Persists tile3Standing
    (bareSquad 1 .fenced) goFencedAer (by decide +kernel) (by decide) rfl rfl rfl rfl rfl rfl (by decide) rfl rfl rfl rfl
  rw [← Host.Outcome.next.inj (hstep.symm.trans hex), goFencedAer_clears] at hfetched
  cases hfetched

end Sys2Proof.Machine
end

section
/-! The command sequences of the settings window (R434 to R439): one lemma per cycle of a sequence, and a page's data by induction. -/

namespace Sys2Proof.Machine

/-! ## A cycle, by where the sequence stands (R435, R436) -/

/-- A cycle the window takes: one aligned word of the store that is not the abort. -/
structure CycleFits (c : SwCycle) : Prop where
  len : c.len = 4
  aligned : c.off % 4 = 0
  inside : c.off < storeBytes
  word : c.word ≠ cmdWord 0xE1

theorem cycleFits_of {o : Nat} {v : W32} (ho : o % 4 = 0 ∧ o < storeBytes) (hv : v ≠ cmdWord 0xE1) :
    CycleFits { off := o, len := 4, word := v } := ⟨rfl, ho.1, ho.2, hv⟩

theorem Sw.cycle_unfit {c : SwCycle} (h : c.len ≠ 4 ∨ c.off % 4 ≠ 0 ∨ storeBytes ≤ c.off) (w : Sw) : w.cycle c = w.seqErr :=
  if_pos h

theorem Sw.cycle_abort {o : Nat} (ho : o % 4 = 0 ∧ o < storeBytes) (w : Sw) :
    w.cycle { off := o, len := 4, word := cmdWord 0xE1 } = { w with seq := .idle, ident := false } :=
  (if_neg (by simp [ho.1, ho.2])).trans (if_pos rfl)

section
variable {w : Sw} {c : SwCycle} (hc : CycleFits c)
include hc

theorem CycleFits.not_unfit : ¬ (c.len ≠ 4 ∨ c.off % 4 ≠ 0 ∨ storeBytes ≤ c.off) := by
  simp [hc.len, hc.aligned, hc.inside]

theorem Sw.cycle_noSequence (hw : w.seq = .idle) (h : c.off ≠ 0xF00 ∨ c.word ≠ cmdWord 0x5A) : w.cycle c = w.seqErr := by
  unfold Sw.cycle
  rw [if_neg hc.not_unfit, if_neg hc.word, hw]
  rcases h with h | h <;> simp [h]

theorem Sw.cycle_word (hw : w.seq = .word) : w.cycle c = w.final (.program c.off [(c.off, c.word)]) := by
  unfold Sw.cycle
  rw [if_neg hc.not_unfit, if_neg hc.word, hw]

theorem Sw.cycle_pageFirst (hw : w.seq = .page []) : w.cycle c = { w with seq := .page [(c.off, c.word)] } := by
  unfold Sw.cycle
  rw [if_neg hc.not_unfit, if_neg hc.word, hw]

theorem Sw.cycle_pageNext {x : Nat × W32} {xs : List (Nat × W32)} (hw : w.seq = .page (x :: xs)) (hq : c.off / 256 = x.1 / 256)
    (hv : c.word ≠ cmdWord 0x3E) (hnew : ∀ y ∈ x :: xs, y.1 ≠ c.off) :
    w.cycle c = { w with seq := .page (x :: xs ++ [(c.off, c.word)]) } := by
  have hkept : (x :: xs).filter (fun y => !(y.1 == c.off)) = x :: xs :=
    List.filter_eq_self.mpr fun y hy => by simpa using hnew y hy
  unfold Sw.cycle
  rw [if_neg hc.not_unfit, if_neg hc.word, hw]
  simp only [hq, ne_eq, not_true_eq_false, if_false, if_neg hv, hkept]

theorem Sw.cycle_pageLast {x : Nat × W32} {xs : List (Nat × W32)} (hw : w.seq = .page (x :: xs)) (hq : c.off / 256 = x.1 / 256)
    (hv : c.word = cmdWord 0x3E) : w.cycle c = w.final (.program (256 * (x.1 / 256)) (x :: xs)) := by
  unfold Sw.cycle
  rw [if_neg hc.not_unfit, if_neg hc.word, hw]
  simp only [hq, ne_eq, not_true_eq_false, if_false, if_pos hv]

end

section
variable {w : Sw}

theorem Sw.cycle_first (hw : w.seq = .idle) :
    w.cycle { off := 0xF00, len := 4, word := cmdWord 0x5A } = { w with seq := .arm1 } := by
  unfold Sw.cycle
  rw [hw]
  rfl

theorem Sw.cycle_second (hw : w.seq = .arm1) :
    w.cycle { off := 0xF0, len := 4, word := cmdWord 0xC3 } = { w with seq := .armed } := by
  unfold Sw.cycle
  rw [hw]
  rfl

/-! The four commands of an armed window. -/

theorem Sw.cycle_wordCommand (hw : w.seq = .armed) :
    w.cycle { off := 0xF00, len := 4, word := cmdWord 0x31 } = { w with seq := .word } := by
  unfold Sw.cycle
  rw [hw]
  rfl

theorem Sw.cycle_pageCommand (hw : w.seq = .armed) :
    w.cycle { off := 0xF00, len := 4, word := cmdWord 0x3B } = { w with seq := .page [] } := by
  unfold Sw.cycle
  rw [hw]
  rfl

theorem Sw.cycle_eraseCommand (hw : w.seq = .armed) :
    w.cycle { off := 0xF00, len := 4, word := cmdWord 0x6E } = { w with seq := .erase0 } := by
  unfold Sw.cycle
  rw [hw]
  rfl

theorem Sw.cycle_identCommand (hw : w.seq = .armed) :
    w.cycle { off := 0xF00, len := 4, word := cmdWord 0x1D } = { w with seq := .idle, ident := true } := by
  unfold Sw.cycle
  rw [hw]
  rfl

/-! An erase is armed again, and then names its sector. -/

theorem Sw.cycle_eraseFirst (hw : w.seq = .erase0) :
    w.cycle { off := 0xF00, len := 4, word := cmdWord 0x5A } = { w with seq := .eraseArm1 } := by
  unfold Sw.cycle
  rw [hw]
  rfl

theorem Sw.cycle_eraseSecond (hw : w.seq = .eraseArm1) :
    w.cycle { off := 0xF0, len := 4, word := cmdWord 0xC3 } = { w with seq := .eraseArmed } := by
  unfold Sw.cycle
  rw [hw]
  rfl

theorem Sw.cycle_erase (hw : w.seq = .eraseArmed) {a : Nat} (ha : a % 4 = 0 ∧ a < storeBytes) :
    w.cycle { off := a, len := 4, word := cmdWord 0x6D } = w.final (.erase a) := by
  unfold Sw.cycle
  rw [if_neg (by simp [ha.1, ha.2]), if_neg (show cmdWord 0x6D ≠ cmdWord 0xE1 by decide), hw]
  rfl

end

/-! ## Whole sequences -/

/-- The two cycles that arm the window (R435). -/
def armCycles : List SwCycle := [{ off := 0xF00, len := 4, word := cmdWord 0x5A }, { off := 0xF0, len := 4, word := cmdWord 0xC3 }]

theorem Sw.cycles_nil (w : Sw) : w.cycles [] = w := rfl

theorem Sw.cycles_cons (w : Sw) (c : SwCycle) (cs : List SwCycle) : w.cycles (c :: cs) = (w.cycle c).cycles cs := rfl

theorem Sw.cycles_append (w : Sw) (xs ys : List SwCycle) : w.cycles (xs ++ ys) = (w.cycles xs).cycles ys := List.foldl_append ..

theorem Sw.cycles_arm {w : Sw} (hw : w.seq = .idle) : w.cycles armCycles = { w with seq := .armed } := by
  unfold armCycles
  rw [Sw.cycles_cons, Sw.cycle_first hw, Sw.cycles_cons, Sw.cycle_second rfl, Sw.cycles_nil]

theorem Sw.cycles_armErase {w : Sw} (hw : w.seq = .erase0) : w.cycles armCycles = { w with seq := .eraseArmed } := by
  unfold armCycles
  rw [Sw.cycles_cons, Sw.cycle_eraseFirst hw, Sw.cycles_cons, Sw.cycle_eraseSecond rfl, Sw.cycles_nil]

theorem Sw.cycles_word {w : Sw} (hw : w.seq = .idle) {a : Nat} {v : W32} (ha : a % 4 = 0 ∧ a < storeBytes)
    (hv : v ≠ cmdWord 0xE1) :
    w.cycles (armCycles ++ [{ off := 0xF00, len := 4, word := cmdWord 0x31 }, { off := a, len := 4, word := v }]) =
      Sw.final { w with seq := .word } (.program a [(a, v)]) := by
  rw [Sw.cycles_append, Sw.cycles_arm hw, Sw.cycles_cons, Sw.cycle_wordCommand rfl, Sw.cycles_cons,
    Sw.cycle_word (cycleFits_of ha hv) rfl, Sw.cycles_nil]

theorem Sw.cycles_erase {w : Sw} (hw : w.seq = .idle) {a : Nat} (ha : a % 4 = 0 ∧ a < storeBytes) :
    w.cycles (armCycles ++ { off := 0xF00, len := 4, word := cmdWord 0x6E } :: armCycles ++ [{ off := a, len := 4, word := cmdWord 0x6D }]) =
      Sw.final { w with seq := .eraseArmed } (.erase a) := by
  rw [List.append_assoc, Sw.cycles_append, Sw.cycles_arm hw, List.cons_append, Sw.cycles_cons, Sw.cycle_eraseCommand rfl,
    Sw.cycles_append, Sw.cycles_armErase rfl, Sw.cycles_cons, Sw.cycle_erase rfl ha, Sw.cycles_nil]

theorem Sw.cycles_ident {w : Sw} (hw : w.seq = .idle) :
    w.cycles (armCycles ++ [{ off := 0xF00, len := 4, word := cmdWord 0x1D }]) = { w with seq := .idle, ident := true } := by
  rw [Sw.cycles_append, Sw.cycles_arm hw, Sw.cycles_cons, Sw.cycle_identCommand rfl, Sw.cycles_nil]

/-- The data cycle of a word of a page. -/
def dataCycle (y : Nat × W32) : SwCycle := { off := y.1, len := 4, word := y.2 }

/-- The data of a page, each word once, gather in the order they come. -/
theorem Sw.cycles_pageData {q : Nat} {x : Nat × W32} (hx : x.1 / 256 = q) (ys : List (Nat × W32)) : ∀ (xs : List (Nat × W32)) (w : Sw),
    w.seq = .page (x :: xs) →
    (∀ y ∈ ys, y.1 % 4 = 0 ∧ y.1 < storeBytes ∧ y.1 / 256 = q ∧ y.2 ≠ cmdWord 0xE1) → (∀ y ∈ ys, y.2 ≠ cmdWord 0x3E) →
    ((x :: xs ++ ys).map Prod.fst).Nodup → w.cycles (ys.map dataCycle) = { w with seq := .page (x :: xs ++ ys) } := by
  induction ys with
  | nil =>
    intro xs w hw _ _ _
    rw [List.append_nil, ← hw]
    rfl
  | cons y ys ih =>
    intro xs w hw hfit hdata hnodup
    obtain ⟨hal, hin, hq, hv⟩ := hfit y (List.mem_cons_self ..)
    have hnew : ∀ z ∈ x :: xs, z.1 ≠ y.1 := fun z hz => by
      rw [List.map_append] at hnodup
      exact List.disjoint_of_nodup_append hnodup (List.mem_map_of_mem hz) |> fun h heq => h (heq ▸ List.mem_map_of_mem (List.mem_cons_self ..))
    have hstep := Sw.cycle_pageNext (w := w) (c := dataCycle y) (cycleFits_of ⟨hal, hin⟩ hv) hw (hq.trans hx.symm)
      (hdata y (List.mem_cons_self ..)) hnew
    change (w.cycle (dataCycle y)).cycles _ = _
    rw [hstep, ih (xs ++ [y]) _ rfl (fun z hz => hfit z (List.mem_cons_of_mem _ hz))
      (fun z hz => hdata z (List.mem_cons_of_mem _ hz)) (by simpa using hnodup)]
    simp

theorem Sw.cycles_page {w : Sw} (hw : w.seq = .idle) {q b : Nat} {x : Nat × W32} {xs : List (Nat × W32)}
    (hfit : ∀ y ∈ x :: xs, y.1 % 4 = 0 ∧ y.1 < storeBytes ∧ y.1 / 256 = q ∧ y.2 ≠ cmdWord 0xE1)
    (hdata : ∀ y ∈ xs, y.2 ≠ cmdWord 0x3E) (hnodup : ((x :: xs).map Prod.fst).Nodup) (hb : b % 4 = 0 ∧ b < storeBytes)
    (hbq : b / 256 = q) :
    w.cycles (armCycles ++ { off := 0xF00, len := 4, word := cmdWord 0x3B } :: (x :: xs).map dataCycle ++
      [{ off := b, len := 4, word := cmdWord 0x3E }]) = Sw.final { w with seq := .page (x :: xs) } (.program (256 * q) (x :: xs)) := by
  obtain ⟨hal, hin, hq, hv⟩ := hfit x (List.mem_cons_self ..)
  have hwords : ∀ u : Sw, u.seq = .page [] → u.cycles ((x :: xs).map dataCycle) = { u with seq := .page (x :: xs) } := fun u hu => by
    rw [List.map_cons, Sw.cycles_cons, Sw.cycle_pageFirst (c := dataCycle x) (cycleFits_of ⟨hal, hin⟩ hv) hu]
    exact Sw.cycles_pageData hq xs [] _ rfl (fun y hy => hfit y (List.mem_cons_of_mem _ hy)) hdata hnodup
  have hlast : ∀ u : Sw, u.seq = .page (x :: xs) →
      u.cycle { off := b, len := 4, word := cmdWord 0x3E } = u.final (.program (256 * q) (x :: xs)) := fun u hu => by
    rw [Sw.cycle_pageLast (c := { off := b, len := 4, word := cmdWord 0x3E }) (cycleFits_of hb (by decide)) hu
      (hbq.trans hq.symm) rfl, hq]
  rw [List.append_assoc, Sw.cycles_append, Sw.cycles_arm hw, List.cons_append, Sw.cycles_cons, Sw.cycle_pageCommand rfl,
    Sw.cycles_append, hwords _ rfl, Sw.cycles_cons, hlast _ rfl, Sw.cycles_nil]

/-! ## The final cycle (R438, R439) -/

theorem Sw.final_taken {w : Sw} (h : w.queued ≠ none ∨ ∃ x, w.run = some (x, false)) (o : SwOp) : w.final o = w.seqErr := by
  refine if_pos ?_
  rcases h with h | ⟨x, h⟩
  · simp [Option.isSome_iff_ne_none.mpr h]
  · simp [h]

/-- No window operation waits or runs. -/
theorem Sw.windowFree {w : Sw} (hq : w.queued = none) (hr : ∀ x, w.run ≠ some (x, false)) :
    ¬ (w.queued.isSome || (match w.run with | some (_, false) => true | _ => false)) = true := by
  rw [hq]
  cases hrun : w.run with
  | none => simp
  | some p =>
    obtain ⟨x, internal⟩ := p
    cases internal with
    | false => exact absurd hrun (hr x)
    | true => simp

theorem Sw.final_waits {w : Sw} (hq : w.queued = none) (hr : ∀ x, w.run ≠ some (x, false)) (hb : w.busy = true) (o : SwOp) :
    w.final o = { w with seq := .idle, queued := some o } :=
  (if_neg (Sw.windowFree hq hr)).trans (if_pos hb)

theorem Sw.final_starts {w : Sw} (hq : w.queued = none) (hr : w.run = none) (hb : w.busy = false) (o : SwOp) :
    w.final o = w.start o :=
  (if_neg (Sw.windowFree hq (by simp [hr]))).trans (if_neg (by simp [hb]))

theorem Sw.start_protected {w : Sw} {o : SwOp} (hp : w.protected (sectorOf o.addr) = true) : w.start o = { w with
    bits := setEv 0 4, pulses := 0, last := BitVec.ofNat 32 o.addr, seq := .idle, event := setEv (setEv w.event 4) 0 } :=
  if_pos hp

theorem Sw.start_notErased {w : Sw} {o : SwOp} (hp : w.protected (sectorOf o.addr) = false) (he : w.notErased o = true) :
    w.start o = { w with
      bits := setEv 0 1, pulses := 0, last := BitVec.ofNat 32 o.addr, seq := .idle, event := setEv (setEv w.event 1) 0 } :=
  (if_neg (by simp [hp])).trans (if_pos he)

theorem Sw.start_unchanged {w : Sw} {o : SwOp} (hp : w.protected (sectorOf o.addr) = false) (he : w.notErased o = false)
    (hu : w.unchanged o = true) : w.start o = { w with
      bits := 0, pulses := 0, last := BitVec.ofNat 32 o.addr, seq := .idle, event := setEv w.event 0 } :=
  (if_neg (by simp [hp])).trans ((if_neg (by simp [he])).trans (if_pos hu))

theorem Sw.start_runs {w : Sw} {o : SwOp} (hp : w.protected (sectorOf o.addr) = false) (he : w.notErased o = false)
    (hu : w.unchanged o = false) : w.start o = { w with
      bits := 0, pulses := 0, last := BitVec.ofNat 32 o.addr, seq := .idle, run := some (o, false) } :=
  (if_neg (by simp [hp])).trans ((if_neg (by simp [he])).trans (if_neg (by simp [hu])))

/-! ## Commands of the window -/

theorem exec_wordProgram_up {s : State} (h : s.linkUp = true) {cs : List SwCycle} {w : Sw} (hw : s.sw.cycles cs = w) :
    exec (.wordProgram cs) s = .next { s with sw := w } := hw ▸ congrArg done (if_pos h)

theorem exec_pageProgram_up {s : State} (h : s.linkUp = true) {cs : List SwCycle} {w : Sw} (hw : s.sw.cycles cs = w) :
    exec (.pageProgram cs) s = .next { s with sw := w } := hw ▸ congrArg done (if_pos h)

theorem exec_sectorErase_up {s : State} (h : s.linkUp = true) {cs : List SwCycle} {w : Sw} (hw : s.sw.cycles cs = w) :
    exec (.sectorErase cs) s = .next { s with sw := w } := hw ▸ congrArg done (if_pos h)

theorem exec_identifyMode_up {s : State} (h : s.linkUp = true) {cs : List SwCycle} {w : Sw} (hw : s.sw.cycles cs = w) :
    exec (.identifyMode cs) s = .next { s with sw := w } := hw ▸ congrArg done (if_pos h)

theorem exec_swAbort_up {s : State} (h : s.linkUp = true) (o : Nat) :
    exec (.swAbort o) s = .next { s with sw := s.sw.cycle { off := o, len := 4, word := cmdWord 0xE1 } } := congrArg done (if_pos h)

theorem exec_window_down {s : State} (h : s.linkUp = false) (cs : List SwCycle) (o n : Nat) :
    exec (.wordProgram cs) s = .next s ∧ exec (.pageProgram cs) s = .next s ∧ exec (.sectorErase cs) s = .next s ∧
    exec (.identifyMode cs) s = .next s ∧ exec (.swAbort o) s = .next s ∧ exec (.swWindowRead o n) s = .next s := by
  have hcycles : ∀ cs, s.swCycles cs = s := fun cs => if_neg (by simp [h])
  exact ⟨congrArg done (hcycles cs), congrArg done (hcycles cs), congrArg done (hcycles cs), congrArg done (hcycles cs),
    congrArg done (hcycles _), congrArg done (if_neg (by simp [h]))⟩

theorem exec_swWindowRead_up {s : State} (h : s.linkUp = true) {o n : Nat} (hn : n ≤ 64) :
    exec (.swWindowRead o n) s = .next { s with busRead := (s.sw.windowRead o n).1, sw := (s.sw.windowRead o n).2 } :=
  congrArg done (if_pos (by simp [h, hn]))

theorem Sw.windowRead_busy {w : Sw} (h : w.busy = true) (o n : Nat) :
    w.windowRead o n = (List.replicate n 0xFF, { w with event := setEv w.event 6 }) := if_pos h

theorem Sw.windowRead_store {w : Sw} (h : w.busy = false) (hi : w.ident = false) (o n : Nat) :
    w.windowRead o n = ((List.range n).map (fun i => readCell 0xFF w.store (o + i)), w) := by
  refine (if_neg (by simp [h])).trans ?_
  simp [hi]

theorem Sw.windowRead_ident {w : Sw} (h : w.busy = false) (hi : w.ident = true) (o n : Nat) :
    w.windowRead o n =
      ((List.range n).map (fun i => if o + i < 0x40 then identByte (o + i) else readCell 0xFF w.store (o + i)), w) := by
  refine (if_neg (by simp [h])).trans ?_
  simp [hi]

/-- Settles O24: each sequence cycle by cycle to its final cycle, and the final cycle by what it finds. -/
theorem storeWindowSequences : Obligations.StoreWindowSequences := by
  unfold Obligations.StoreWindowSequences
  refine ⟨?word, ?wordProtected, ?page, ?erase, ?ident, ?abort, ?noSequence, ?read, ?readBusy, ?wordFinal, ?pageFinal, ?eraseFinal,
    ?final, ?abortUnfit, ?unfit, ?readIdent, ?down⟩
  case word =>
    intro a v s hlink hseq hbusy hq hr ha hv hp he hu
    refine (exec_wordProgram_up hlink (Sw.cycles_word hseq ha hv)).trans ?_
    rw [Sw.final_starts (by exact hq) (by exact hr) (by exact hbusy), Sw.start_runs (by exact hp) (by exact he) (by exact hu)]
    rfl
  case wordProtected =>
    intro a v s hlink hseq hbusy hq hr ha hv hp
    refine (exec_wordProgram_up hlink (Sw.cycles_word hseq ha hv)).trans ?_
    rw [Sw.final_starts (by exact hq) (by exact hr) (by exact hbusy), Sw.start_protected (by exact hp)]
    rfl
  case page =>
    intro a b v w s hlink hseq hbusy hq hr ⟨ha, hin⟩ hb hpage hv hp he hu
    have hfit : ∀ y ∈ [(a, v)], y.1 % 4 = 0 ∧ y.1 < storeBytes ∧ y.1 / 256 = a / 256 ∧ y.2 ≠ cmdWord 0xE1 := fun y hy => by
      rw [List.mem_singleton.mp hy]
      exact ⟨ha, hin, rfl, hv⟩
    refine (exec_pageProgram_up hlink (Sw.cycles_page hseq hfit (by simp) (by simp) hb hpage.symm)).trans ?_
    rw [Sw.final_starts (by exact hq) (by exact hr) (by exact hbusy), Sw.start_runs (by exact hp) (by exact he) (by exact hu)]
    rfl
  case erase =>
    intro a s hlink hseq hbusy hq hr ha hp
    refine (exec_sectorErase_up hlink (Sw.cycles_erase hseq ha)).trans ?_
    rw [Sw.final_starts (by exact hq) (by exact hr) (by exact hbusy), Sw.start_runs (by exact hp) rfl rfl]
    rfl
  case ident => exact fun s hlink hseq => exec_identifyMode_up hlink (Sw.cycles_ident hseq)
  case abort => exact fun o s hlink ho => by rw [exec_swAbort_up hlink, Sw.cycle_abort ho]
  case noSequence =>
    intro x s hlink hseq ⟨hlen, hal, hin⟩ hv hne
    exact ⟨exec_wordProgram_up hlink (Sw.cycle_noSequence ⟨hlen, hal, hin, hv⟩ hseq hne), rfl, rfl, rfl⟩
  case read =>
    intro o n s hlink hn hbusy hi
    rw [exec_swWindowRead_up hlink hn, Sw.windowRead_store hbusy hi]
  case readBusy =>
    intro o n s hlink hn hbusy
    rw [exec_swWindowRead_up hlink hn, Sw.windowRead_busy hbusy]
  case wordFinal => exact fun a v s hlink hseq ha hv => exec_wordProgram_up hlink (Sw.cycles_word hseq ha hv)
  case pageFinal =>
    intro q x xs b s hlink hseq hfit hdata hnodup ⟨hb, hin, hq⟩
    rw [List.append_assoc]
    exact exec_pageProgram_up hlink (Sw.cycles_page hseq hfit hdata hnodup ⟨hb, hin⟩ hq)
  case eraseFinal => exact fun a s hlink hseq ha => exec_sectorErase_up hlink (Sw.cycles_erase hseq ha)
  case final =>
    intro o w
    refine ⟨fun h => Sw.final_taken h o, fun hq hr hb => Sw.final_waits hq hr hb o, fun hq hr hb => ?_⟩
    rw [Sw.final_starts hq hr hb]
    exact ⟨Sw.start_protected, Sw.start_notErased, Sw.start_unchanged, Sw.start_runs⟩
  case abortUnfit => exact fun o s hlink ho => by rw [exec_swAbort_up hlink, Sw.cycle_unfit (.inr ho)]; rfl
  case unfit => exact fun x s hlink hx => exec_wordProgram_up hlink (Sw.cycle_unfit hx _)
  case readIdent =>
    intro o n s hlink hn hbusy hi
    rw [exec_swWindowRead_up hlink hn, Sw.windowRead_ident hbusy hi]
  case down => exact fun xs o n s hlink => exec_window_down hlink xs o n

end Sys2Proof.Machine
end

section
/-! Programs and erases of the settings store, its protect bits, and maintenance grants (R404, R424, R431 to R433, R438, R439). -/

namespace Sys2Proof.Machine

/-! ## Bytes changed one by one -/

/-- A byte of the store that no written cell names reads as before. -/
theorem readCell_foldl_out {α : Type} (addr : α → Nat) (f : List Host.Cell → α → Byte) {b : Nat} (cs : List α) (m : List Host.Cell)
    (h : ∀ c ∈ cs, addr c ≠ b) :
    readCell 0xFF (cs.foldl (fun m c => writeCell 0xFF m (addr c) (f m c)) m) b = readCell 0xFF m b := by
  induction cs generalizing m with
  | nil => rfl
  | cons c cs ih =>
    rw [List.foldl_cons, ih _ fun d hd => h d (List.mem_cons_of_mem _ hd),
      readCell_writeCell_ne _ _ _ (h c (List.mem_cons_self ..)).symm]

theorem Sw.applyCells_out {b : Nat} {cs : List (Nat × Byte)} (h : ∀ c ∈ cs, c.1 ≠ b) (w : Sw) :
    readCell 0xFF (w.applyCells cs).store b = readCell 0xFF w.store b :=
  readCell_foldl_out Prod.fst (fun m c => readCell 0xFF m c.1 &&& c.2) cs w.store h

/-- Each byte of a program is cleared where its cell is, once. -/
theorem Sw.applyCells_in {c : Nat × Byte} {cs : List (Nat × Byte)} (hnodup : (cs.map Prod.fst).Nodup) (hc : c ∈ cs) (w : Sw) :
    readCell 0xFF (w.applyCells cs).store c.1 = readCell 0xFF w.store c.1 &&& c.2 := by
  induction cs generalizing w with
  | nil => exact absurd hc (List.not_mem_nil)
  | cons d cs ih =>
    obtain ⟨hfresh, hnodup⟩ := List.nodup_cons.mp hnodup
    change readCell 0xFF (Sw.applyCells { w with store := writeCell 0xFF w.store d.1 (readCell 0xFF w.store d.1 &&& d.2) } cs).store c.1 = _
    rcases List.mem_cons.mp hc with hcd | hc
    · rw [hcd, Sw.applyCells_out (b := d.1) fun e he heq => hfresh (heq ▸ List.mem_map_of_mem he)]
      exact readCell_writeCell_self ..
    · rw [ih hnodup hc]
      have hne : c.1 ≠ d.1 := fun heq => hfresh (heq ▸ List.mem_map_of_mem hc)
      exact congrArg (· &&& c.2) (readCell_writeCell_ne _ _ _ hne)

/-- Byte `i` of a word, at its address. -/
def wordCell (x : Nat × W32) (i : Nat) : Nat × Byte := (x.1 + i, (x.2 >>> (8 * i)).setWidth 8)

theorem ofNat_div_pow (v : W32) (i : Nat) : BitVec.ofNat 8 (v.toNat / 256 ^ i) = (v >>> (8 * i)).setWidth 8 := by
  refine BitVec.eq_of_toNat_eq ?_
  rw [BitVec.toNat_setWidth, BitVec.toNat_ushiftRight, BitVec.toNat_ofNat, Nat.shiftRight_eq_div_pow, Nat.pow_mul]

theorem SwOp.cells_program (a : Nat) (ws : List (Nat × W32)) :
    (SwOp.program a ws).cells = ws.flatMap (fun x => (List.range 4).map (wordCell x)) := by
  refine congrArg (List.flatMap · ws) (funext fun x => ?_)
  change [(x.1 + 0, BitVec.ofNat 8 x.2.toNat), (x.1 + 1, BitVec.ofNat 8 (x.2.toNat / 256)),
    (x.1 + 2, BitVec.ofNat 8 (x.2.toNat / 256 / 256)), (x.1 + 3, BitVec.ofNat 8 (x.2.toNat / 256 / 256 / 256))] =
    [wordCell x 0, wordCell x 1, wordCell x 2, wordCell x 3]
  unfold wordCell
  rw [← ofNat_div_pow, ← ofNat_div_pow, ← ofNat_div_pow, ← ofNat_div_pow, Nat.div_div_eq_div_mul, Nat.div_div_eq_div_mul]
  simp

theorem SwOp.mem_cells {a : Nat} {ws : List (Nat × W32)} {x : Nat × W32} (hx : x ∈ ws) {i : Nat} (hi : i < 4) :
    wordCell x i ∈ (SwOp.program a ws).cells := by
  rw [SwOp.cells_program]
  exact List.mem_flatMap.mpr ⟨x, hx, List.mem_map_of_mem (List.mem_range.mpr hi)⟩

/-- A byte outside every word of a program is none of its cells. -/
theorem SwOp.cells_out {a b : Nat} {ws : List (Nat × W32)} (h : ∀ x ∈ ws, b < x.1 ∨ x.1 + 4 ≤ b) :
    ∀ c ∈ (SwOp.program a ws).cells, c.1 ≠ b := by
  intro c hc heq
  rw [SwOp.cells_program] at hc
  obtain ⟨x, hx, hc⟩ := List.mem_flatMap.mp hc
  obtain ⟨i, hi, rfl⟩ := List.mem_map.mp hc
  have hi : i < 4 := List.mem_range.mp hi
  change x.1 + i = b at heq
  have := h x hx
  omega

/-- Aligned words of different addresses share no byte. -/
theorem SwOp.cells_nodup {a : Nat} {ws : List (Nat × W32)} (hnodup : (ws.map Prod.fst).Nodup) (hal : ∀ x ∈ ws, x.1 % 4 = 0) :
    ((SwOp.program a ws).cells.map Prod.fst).Nodup := by
  rw [SwOp.cells_program, List.map_flatMap]
  refine List.nodup_flatMap.mpr ⟨fun x _ => ?_, ?_⟩
  · have haddrs : ((List.range 4).map (wordCell x)).map Prod.fst = (List.range 4).map (x.1 + ·) := by
      rw [List.map_map]
      rfl
    rw [haddrs]
    exact List.nodup_range.map fun i j h => Nat.add_left_cancel h
  · refine (List.pairwise_map.mp hnodup).imp_of_mem fun {x y} hx hy hne => ?_
    intro b hbx hby
    obtain ⟨c, hc, rfl⟩ := List.mem_map.mp hbx
    obtain ⟨d, hd, heq⟩ := List.mem_map.mp hby
    obtain ⟨i, hi, rfl⟩ := List.mem_map.mp hc
    obtain ⟨j, hj, rfl⟩ := List.mem_map.mp hd
    have hi : i < 4 := List.mem_range.mp hi
    have hj : j < 4 := List.mem_range.mp hj
    change y.1 + j = x.1 + i at heq
    have := hal x hx
    have := hal y hy
    omega

/-- A byte of the store after a range of it is erased. -/
theorem readCell_eraseCells (m : List Host.Cell) (a n b : Nat) :
    readCell 0xFF (eraseCells m a n) b = if a ≤ b ∧ b < a + n then 0xFF else readCell 0xFF m b := by
  unfold readCell KMap.findD eraseCells
  rw [KMap.find_filter m (fun x => decide (x < a) || decide (a + n ≤ x)) b]
  by_cases h : a ≤ b ∧ b < a + n
  · rw [if_neg (by simp; omega), if_pos h]
    rfl
  · rw [if_pos (by simp; omega), if_neg h]

/-! ## The end of an operation (R438) -/

theorem exec_swOpDone_idle {s : State} (h : s.sw.run = none) (p : Nat) (x : Bool) : exec (.swOpDone p x) s = .next s := by
  change execSwOpDone p x s = _
  unfold execSwOpDone
  rw [h]

theorem exec_swOpDone_ok {s : State} {o : SwOp} {f : Bool} (h : s.sw.run = some (o, f)) (p : Nat) :
    exec (.swOpDone p true) s = .next { s with sw := s.sw.opOk o (min 16 p) } := by
  change execSwOpDone p true s = _
  unfold execSwOpDone
  rw [h]
  rfl

theorem exec_swOpDone_failed {s : State} {o : SwOp} {f : Bool} (h : s.sw.run = some (o, f)) (p : Nat) :
    exec (.swOpDone p false) s = .next (s.swFail o) := by
  change execSwOpDone p false s = _
  unfold execSwOpDone
  rw [h]
  rfl

/-- A program that failed (R404, R438): its counter, its bit and its record, and no byte outside its own. -/
theorem State.swFail_program {s : State} (h : s.ntAll = true) (a : Nat) (ws : List (Nat × W32)) :
    (s.swFail (.program a ws)).sw.run = none ∧ (s.swFail (.program a ws)).sw.bits = setEv s.sw.bits 2 ∧
    (s.swFail (.program a ws)).sw.pfailCnt = sat16 (s.sw.pfailCnt + 1) ∧
    RecordWritten s (s.swFail (.program a ws)) srcSW kProgFail 0 (BitVec.ofNat 64 a) 16 0 0 0 ∧
    (∀ b, (∀ x ∈ ws, b < x.1 ∨ x.1 + 4 ≤ b) → readCell 0xFF (s.swFail (.program a ws)).sw.store b = readCell 0xFF s.sw.store b) := by
  unfold State.swFail
  dsimp only
  refine ⟨?run, ?bits, ?count, ?record, fun b hb => ?_⟩
  case run => rw [State.postCorr_sw]
  case bits => rw [State.postCorr_sw]; rfl
  case count => rw [State.postCorr_sw]; rfl
  case record => exact State.post_recordWritten _ _ _ 0 _ _ _ _ _ h
  rw [State.postCorr_sw]
  refine Sw.applyCells_out (fun c hc => ?_) s.sw
  obtain ⟨d, hd, rfl⟩ := List.mem_map.mp hc
  exact SwOp.cells_out hb d hd

/-- Cells written one by one change the bytes alone. -/
theorem Sw.foldl_store (f : Host.Cell → Byte) (cs : List Host.Cell) (w : Sw) :
    cs.foldl (fun (x : Sw) e => { x with store := writeCell 0xFF x.store e.1 (f e) }) w =
      { w with store := cs.foldl (fun m e => writeCell 0xFF m e.1 (f e)) w.store } := by
  induction cs generalizing w with
  | nil => rfl
  | cons c cs ih => exact ih _

/-- An erase that failed (R404, R438): its counter, its bit and its record, and no byte outside its sector. -/
theorem State.swFail_erase {s : State} (h : s.ntAll = true) (a : Nat) :
    (s.swFail (.erase a)).sw.run = none ∧ (s.swFail (.erase a)).sw.bits = setEv s.sw.bits 3 ∧
    (s.swFail (.erase a)).sw.efailCnt = sat16 (s.sw.efailCnt + 1) ∧
    RecordWritten s (s.swFail (.erase a)) srcSW kEraseFail 0 (BitVec.ofNat 64 a) 16 0 0 0 ∧
    (∀ b, b < sectorBase (sectorOf a) ∨ sectorBase (sectorOf a) + sectorSize (sectorOf a) ≤ b →
      readCell 0xFF (s.swFail (.erase a)).sw.store b = readCell 0xFF s.sw.store b) := by
  unfold State.swFail
  dsimp only
  rw [Sw.foldl_store]
  refine ⟨?run, ?bits, ?count, ?record, fun b hb => ?_⟩
  case run => rw [State.postCorr_sw]
  case bits => rw [State.postCorr_sw]; rfl
  case count => rw [State.postCorr_sw]; rfl
  case record => exact State.post_recordWritten _ _ _ 0 _ _ _ _ _ h
  rw [State.postCorr_sw]
  refine readCell_foldl_out Prod.fst _ _ s.sw.store fun c hc heq => ?_
  have hin := (List.mem_filter.mp hc).2
  simp only [decide_eq_true_eq] at hin
  omega

/-! ## An operation that waited (R439) -/

theorem exec_swQueuedStart_starts {s : State} {o : SwOp} (hq : s.sw.queued = some o) (hr : s.sw.run = none)
    (hb : s.sw.busyBoot = false) : exec .swQueuedStart s = .next { s with sw := Sw.start { s.sw with queued := none } o } := by
  change execSwQueuedStart s = _
  unfold execSwQueuedStart
  rw [hq]
  exact congrArg done (if_neg (by simp [hr, hb]))

theorem exec_swQueuedStart_none {s : State} (h : s.sw.queued = none ∨ s.sw.run ≠ none ∨ s.sw.busyBoot = true) :
    exec .swQueuedStart s = .next s := by
  change execSwQueuedStart s = _
  unfold execSwQueuedStart
  split
  · rfl
  · next o hq =>
    refine congrArg done (if_pos ?_)
    rcases h with h | h | h
    · exact absurd (hq.symm.trans h) (Option.some_ne_none o)
    · simp [Option.isSome_iff_ne_none.mpr h]
    · simp [h]

/-! ## Records of a pair and the protect bits (R429, R431) -/

/-- What no write of a record touches: SE, the phase, the protect bits, and whether the internal path is in use. -/
def State.logView (s : State) : Se × Phase × List Nat × Bool := (s.se, s.mc.phase, s.sw.opened, s.sw.internal)

theorem State.swProgramFail_logView (s : State) (a : Nat) (l : List Byte) : (s.swProgramFail a l).logView = s.logView := by
  unfold State.swProgramFail State.logView
  dsimp only
  rw [State.postCorr_se, State.postCorr_sw, State.postCorr_mc]
  rfl

theorem State.clearFor_logView (s : State) (n : Nat × Option Nat) : (s.clearFor n).logView = s.logView := by
  unfold State.clearFor
  split <;> rfl

/-- A record that cannot be written. -/
theorem State.logWrite_failed_logView (s : State) (g : LogId) (p : List Byte) {w : List Bool} (h0 : w.getD 0 true = false)
    (h1 : w.getD 1 true = false) : (s.logWrite g p w).2 = false ∧ (s.logWrite g p w).1.logView = s.logView := by
  have hne0 : ¬ w.getD 0 true = true := by rw [h0]; exact Bool.false_ne_true
  have hne1 : ¬ w.getD 1 true = true := by rw [h1]; exact Bool.false_ne_true
  unfold State.logWrite
  dsimp only
  rw [if_neg hne0, if_neg hne1]
  refine ⟨rfl, ?_⟩
  rw [State.swProgramFail_logView]
  exact (State.clearFor_logView _ _).trans ((State.swProgramFail_logView ..).trans (State.clearFor_logView ..))

theorem mem_openedBy (m : List Byte) (n : Nat) : n ∈ openedBy m ↔ n < sectorCount ∧ mapBit m n = false := by
  simp [openedBy]

theorem setEv_setEv (v : W32) (i : Nat) : setEv (setEv v i) i = setEv v i := by
  unfold setEv
  rw [BitVec.or_assoc, BitVec.or_self]

/-! ## A grant, in the order of its checks (R433) -/

theorem exec_maintenanceGrant_up {s : State} (h : s.linkUp = true) (g : List Byte) (x : Bool) (w : List Bool) :
    exec (.maintenanceGrant g x w) s = .next (s.maintenance g x w) := congrArg done (if_pos h)

theorem State.maintenance_malformed {s : State} {g : List Byte} (h : grantFormatOk g = false) (x : Bool) (w : List Bool) :
    s.maintenance g x w = s.grantEnds 1 := if_pos (by simp [h])

section
variable {s : State} {g : List Byte} (hg : grantFormatOk g = true)
include hg

theorem State.maintenance_noKey (hk : s.sw.ownerKeys.find (u32At g 8) = none) (x : Bool) (w : List Bool) :
    s.maintenance g x w = s.grantEnds 3 := (if_neg (by simp [hg])).trans (if_pos (by simp [hk]))

variable (hk : (s.sw.ownerKeys.find (u32At g 8)).isSome = true)
include hk

theorem State.maintenance_unsigned (w : List Bool) : s.maintenance g false w = s.verifyFailed.grantEnds 2 :=
  (if_neg (by simp [hg])).trans ((if_neg (by simp [Option.isSome_iff_ne_none.mp hk])).trans (if_pos rfl))

theorem State.maintenance_signed (w : List Bool) : s.maintenance g true w =
    if sliceZ g 24 32 ≠ s.se.identity then s.grantEnds 4 else if u64At g 16 ≤ s.sw.grantCounter then s.grantEnds 5
    else s.applyGrant g w :=
  (if_neg (by simp [hg])).trans ((if_neg (by simp [Option.isSome_iff_ne_none.mp hk])).trans (if_neg (by simp)))

theorem State.maintenance_applies (hid : sliceZ g 24 32 = s.se.identity) (hc : s.sw.grantCounter < u64At g 16) (w : List Bool) :
    s.maintenance g true w = s.applyGrant g w := by
  rw [State.maintenance_signed hg hk, if_neg (not_not_intro hid), if_neg (Nat.not_le.mpr hc)]

end

/-- `t` differs from `s` in the boot store and the count of free draws alone. -/
abbrev State.storeOnly (s t : State) : Prop := t = { s with sw := t.sw, tick := t.tick }

theorem State.storeOnly.update {s t : State} (h : s.storeOnly t) (w : Sw) (n : Nat) : s.storeOnly { t with sw := w, tick := n } := by
  unfold State.storeOnly at h
  rw [h]

theorem State.storeOnly.grantEnds {s t : State} (h : s.storeOnly t) (code : Nat) : s.storeOnly (t.grantEnds code) :=
  h.update (t.grantEnds code).sw t.tick

theorem State.storeOnly.swErase {s t : State} (h : s.storeOnly t) (k : Nat) : s.storeOnly (t.swErase k) :=
  h.update (t.swErase k).sw t.tick

theorem State.storeOnly.swProgram {s t : State} (h : s.storeOnly t) (a : Nat) (l : List Byte) : s.storeOnly (t.swProgram a l) :=
  h.update (t.swProgram a l).sw (t.tick + 1)

theorem State.storeOnly.clearFor {s t : State} (h : s.storeOnly t) (n : Nat × Option Nat) : s.storeOnly (t.clearFor n) := by
  unfold State.clearFor
  split
  · exact h
  · exact h.swErase _

/-- A grant whose counter is written opens the sectors its map leaves 0, and with its flag writes the map to sector 0. -/
theorem State.applyGrant_written (s : State) (g : List Byte) {w : List Bool} (h0 : w.getD 0 true = true) (h2 : w.getD 2 true = true) :
    (s.applyGrant g w).sw.grantCode = 0 ∧ (s.applyGrant g w).sw.event = setEv (s.applyGrant g w).sw.event 7 ∧
    (s.applyGrant g w).sw.opened = openedBy (sliceZ g 56 264) ∧
    (bitN (u16At g 6) 0 = true → (s.applyGrant g w).sw.bytes 0 (p0Bytes (sliceZ g 56 264)).length = p0Bytes (sliceZ g 56 264)) ∧
    s.storeOnly (s.applyGrant g w) := by
  obtain ⟨a, l, hlog⟩ := s.logWrite_verified logGrant (sliceZ g 16 8) h0
  obtain ⟨u, hu⟩ : ∃ u, u = (s.clearFor (s.sw.nextSlot logGrant)).swProgram a l := ⟨_, rfl⟩
  have honly : s.storeOnly u := hu ▸ (State.storeOnly.clearFor (s := s) rfl _).swProgram a l
  unfold State.applyGrant
  dsimp only
  rw [hlog, ← hu, if_neg (by simp)]
  generalize openedBy (sliceZ g 56 264) = sectors
  generalize p0Bytes (sliceZ g 56 264) = page
  have hopened : s.storeOnly { u with sw := { u.sw with opened := sectors } } := honly.update _ u.tick
  by_cases hflag : bitN (u16At g 6) 0 = true
  · rw [if_pos hflag, if_pos h2]
    exact ⟨rfl, (setEv_setEv ..).symm, rfl, fun _ => Tests.readCells_in _ _ _ _ _ rfl,
      ((hopened.swErase 0).swProgram 0 page).grantEnds 0⟩
  · rw [if_neg hflag]
    exact ⟨rfl, (setEv_setEv ..).symm, rfl, fun h => absurd h hflag, hopened.grantEnds 0⟩

theorem State.applyGrant_unwritten (s : State) (g : List Byte) {w : List Bool} (h0 : w.getD 0 true = false)
    (h1 : w.getD 1 true = false) : (s.applyGrant g w).sw.grantCode = 6 ∧ (s.applyGrant g w).sw.opened = s.sw.opened := by
  obtain ⟨hfailed, hview⟩ := s.logWrite_failed_logView logGrant (sliceZ g 16 8) h0 h1
  unfold State.applyGrant
  dsimp only
  rw [if_pos (by simp [hfailed])]
  exact ⟨rfl, congrArg (fun v => v.2.2.1) hview⟩

/-! ## Protect bits set (R431) -/

theorem exec_swProtectSet_up {s : State} {k : Nat} (h : s.linkUp = true) (hk : k < 65) (v : W32) :
    exec (.swProtectSet k v) s = .next { s with sw := { s.sw with
      opened := s.sw.opened.filter (fun x => !(x / 32 == k && bitW v (x % 32))) } } :=
  congrArg done (if_pos (by simp [h, hk]))

/-- Settles O25: programs and erases byte by byte, and a grant in the order of its checks. -/
theorem storeOperations : Obligations.StoreOperations := by
  unfold Obligations.StoreOperations
  refine ⟨?program, ?erase, ?programFails, ?starts, ?protect, ?malformed, ?applied, ?signed, ?noKey, ?unsigned, ?eraseFails, ?idle,
    ?startsEnd, ?waits, ?down⟩
  case program =>
    intro a p ws f s hrun hnodup hal
    refine ⟨_, exec_swOpDone_ok hrun p, rfl, rfl, rfl, fun x hx i hi => ?_, fun b hb => ?_, rfl⟩
    · exact Sw.applyCells_in (SwOp.cells_nodup hnodup hal) (SwOp.mem_cells (a := a) hx hi) s.sw
    · exact Sw.applyCells_out (SwOp.cells_out (a := a) hb) s.sw
  case erase =>
    intro a p f s hrun _
    exact ⟨_, exec_swOpDone_ok hrun p, rfl, rfl, fun b => readCell_eraseCells .., rfl⟩
  case programFails => exact fun a p ws f s hrun hready => ⟨_, exec_swOpDone_failed hrun p, State.swFail_program hready a ws⟩
  case starts =>
    intro o s hq hr hb hp he hu
    rw [exec_swQueuedStart_starts hq hr hb, Sw.start_runs (by exact hp) (by exact he) (by exact hu)]
  case protect =>
    intro k v s hlink hk
    refine ⟨_, exec_swProtectSet_up hlink hk v, fun n => ?_, rfl⟩
    refine List.mem_filter.trans (and_congr_right fun _ => ?_)
    by_cases hword : n / 32 = k <;> simp [hword]
  case malformed =>
    intro g x w s hlink hg
    rw [exec_maintenanceGrant_up hlink, State.maintenance_malformed hg]
    rfl
  case applied =>
    intro g w s hlink hg hk hid hc h0 h2
    obtain ⟨hcode, hevent, hopened, hmap, honly⟩ := s.applyGrant_written g h0 h2
    refine ⟨_, (exec_maintenanceGrant_up hlink g true w).trans (by rw [State.maintenance_applies hg hk hid hc]), hcode, hevent,
      fun n => ?_, hmap, honly⟩
    rw [hopened, mem_openedBy]
  case signed =>
    intro g w s hlink hg hk
    rw [exec_maintenanceGrant_up hlink]
    refine ⟨fun hid => ?_, fun hid hc => ?_, fun hid hc h0 h1 => ?_⟩
    · rw [State.maintenance_signed hg hk, if_pos hid]
      rfl
    · rw [State.maintenance_signed hg hk, if_neg (not_not_intro hid), if_pos hc]
      rfl
    · rw [State.maintenance_applies hg hk hid hc]
      exact ⟨_, rfl, s.applyGrant_unwritten g h0 h1⟩
  case noKey =>
    intro g x w s hlink hg hk
    rw [exec_maintenanceGrant_up hlink, State.maintenance_noKey hg hk]
    rfl
  case unsigned =>
    intro g w s hlink hg hk
    rw [exec_maintenanceGrant_up hlink, State.maintenance_unsigned hg hk]
    exact ⟨_, rfl, rfl, rfl, rfl, rfl⟩
  case eraseFails => exact fun a p f s hrun hready _ => ⟨_, exec_swOpDone_failed hrun p, State.swFail_erase hready a⟩
  case idle => exact fun p x s h => exec_swOpDone_idle h p x
  case startsEnd =>
    intro o s hq hr hb
    rw [exec_swQueuedStart_starts hq hr hb]
    refine ⟨fun hp => ?_, fun hp he => ?_, fun hp he hu => ?_⟩
    · rw [Sw.start_protected (by exact hp)]
    · rw [Sw.start_notErased (by exact hp) (by exact he)]
    · rw [Sw.start_unchanged (by exact hp) (by exact he) (by exact hu)]
  case waits => exact fun s h => exec_swQueuedStart_none h
  case down => exact fun k v g x w s h => ⟨congrArg done (if_neg (by simp [h])), congrArg done (if_neg (by simp [h]))⟩

end Sys2Proof.Machine
end

section
/-! Owner keys and attestation (R446 to R448, R450, R452, R454, R455, R464). -/

namespace Sys2Proof.Machine

/-! ## Bytes of a program that cannot be written -/

@[simp] theorem State.swProgramFail_se (s : State) (a : Nat) (l : List Byte) : (s.swProgramFail a l).se = s.se :=
  State.postCorr_se ..

@[simp] theorem State.swProgramFail_hostOut (s : State) (a : Nat) (l : List Byte) :
    (s.swProgramFail a l).hostOut = s.hostOut :=
  State.postCorr_hostOut ..

/-- The first bytes of those written read back. -/
theorem readCells_writeCells_front (d : Byte) (m : List Host.Cell) (a : Nat) (l k : List Byte) :
    readCells d (writeCells d m a (l ++ k)) a l.length = l := by
  unfold readCells
  refine List.ext_getElem (by simp) fun i h₁ h₂ => ?_
  rw [List.getElem_map, List.getElem_range, readCell_writeCells_in d m a (l ++ k) i (by rw [List.length_append]; omega),
    List.getElem_append_left h₂]

@[simp] theorem length_padTo (n : Nat) (l : List Byte) : (padTo n l).length = n := by
  unfold padTo
  rw [List.length_take, List.length_append, List.length_replicate]
  omega

@[simp] theorem length_sliceZ (l : List Byte) (o n : Nat) : (sliceZ l o n).length = n := length_padTo ..

/-! ## A key request, in the order of its checks (R448) -/

theorem exec_keyRequest_live {s : State} (h : s.vendorLive = true) (r : List Byte) (g : Bool) (w : List Bool) :
    exec (.keyRequest r g w) s = .next (s.keyReq r g w) := congrArg done (if_pos h)

theorem State.keyReq_malformed {s : State} {r : List Byte} (h : keyFormatOk r = false) (g : Bool) (w : List Bool) :
    s.keyReq r g w = s.keyEnds 1 := if_pos (by simp [h])

section
variable {s : State} {r : List Byte} (hr : keyFormatOk r = true)
include hr

/-- A first key where a key stands. -/
theorem State.keyReq_notFirst (hsel : u32At r 8 = 0xFFFFFFFF) (hkeys : s.sw.ownerKeys ≠ []) (g : Bool) (w : List Bool) :
    s.keyReq r g w = s.keyEnds 2 :=
  (if_neg (by simp [hr])).trans (if_pos (by simp [hsel, hkeys]))

/-- A request that retires, where no key stands, or that names no key which stands. -/
theorem State.keyReq_noSigner (h : (u32At r 8 = 0xFFFFFFFF ∧ byteAt r 6 = 2 ∧ s.sw.ownerKeys = []) ∨
    (u32At r 8 ≠ 0xFFFFFFFF ∧ s.sw.ownerKeys.find (u32At r 8) = none)) (g : Bool) (w : List Bool) :
    s.keyReq r g w = s.keyEnds 3 := by
  refine (if_neg (by simp [hr])).trans ?_
  rcases h with ⟨hsel, hact, hkeys⟩ | ⟨hsel, hfind⟩
  · exact (if_neg (by simp [hkeys])).trans (if_pos (by simp [hact, hkeys]))
  · exact (if_neg (by simp [hsel])).trans (if_pos (by simp [hsel, hfind]))

theorem State.keyReq_unsigned (hsel : u32At r 8 ≠ 0xFFFFFFFF) (hfind : (s.sw.ownerKeys.find (u32At r 8)).isSome = true) (w : List Bool) :
    s.keyReq r false w = s.verifyFailed.keyEnds 4 :=
  (if_neg (by simp [hr])).trans ((if_neg (by simp [hsel])).trans
    ((if_neg (by simp [Option.isSome_iff_ne_none.mp hfind])).trans (if_pos (by simp [hsel]))))

end

/-- The request is a first key where none stands, or its signature by a key that stands verifies. -/
def State.keySigned (s : State) (r : List Byte) (g : Bool) : Prop :=
  (u32At r 8 = 0xFFFFFFFF ∧ byteAt r 6 = 1 ∧ s.sw.ownerKeys = []) ∨
    (u32At r 8 ≠ 0xFFFFFFFF ∧ (s.sw.ownerKeys.find (u32At r 8)).isSome = true ∧ g = true)

/-- The checks of a request that is signed. -/
theorem State.keyReq_signed {s : State} {r : List Byte} {g : Bool} (hr : keyFormatOk r = true) (hsig : s.keySigned r g) (w : List Bool) :
    s.keyReq r g w =
      if sliceZ r 24 32 ≠ s.se.identity then s.keyEnds 5
      else if u64At r 16 ≤ s.sw.keyCounter then s.keyEnds 6
      else if (byteAt r 6 == 1) == (s.sw.ownerKeys.find (byteAt r 7)).isSome then s.keyEnds 7
      else if byteAt r 6 = 2 ∧ s.sw.ownerKeys.length = 1 then s.keyEnds 8
      else s.writeKey r w := by
  refine (if_neg (by simp [hr])).trans ?_
  rcases hsig with ⟨hsel, hact, hkeys⟩ | ⟨hsel, hfind, hg⟩
  · exact (if_neg (by simp [hkeys])).trans ((if_neg (by simp [hsel, hact])).trans (if_neg (by simp [hsel, hact])))
  · exact (if_neg (by simp [hsel])).trans
      ((if_neg (by simp [Option.isSome_iff_ne_none.mp hfind])).trans (if_neg (by simp [hg])))

/-- The request adds a key that does not stand, or retires one that stands and is not the last. -/
def State.keyChanges (s : State) (r : List Byte) : Prop :=
  (byteAt r 6 = 1 ∧ s.sw.ownerKeys.find (byteAt r 7) = none) ∨
    (byteAt r 6 = 2 ∧ (s.sw.ownerKeys.find (byteAt r 7)).isSome = true ∧ s.sw.ownerKeys.length ≠ 1)

theorem State.keyReq_writes {s : State} {r : List Byte} {g : Bool} (hr : keyFormatOk r = true) (hsig : s.keySigned r g)
    (hid : sliceZ r 24 32 = s.se.identity) (hc : s.sw.keyCounter < u64At r 16) (hchange : s.keyChanges r) (w : List Bool) :
    s.keyReq r g w = s.writeKey r w := by
  rw [State.keyReq_signed hr hsig, if_neg (not_not_intro hid), if_neg (Nat.not_le.mpr hc)]
  rcases hchange with ⟨hact, hfind⟩ | ⟨hact, hfind, hlen⟩
  · rw [if_neg (by simp [hact, hfind]), if_neg (by simp [hact])]
  · rw [if_neg (by simp [hact, hfind]), if_neg (by simp [hlen])]

/-! ## The record of a key (R446) -/

theorem length_keyRecord (r : List Byte) : (keyRecord r).length = 124 := by
  have hkey : (if byteAt r 6 = 1 then sliceZ r 56 60 else List.replicate 60 0xFF).length = 60 := by
    split <;> simp
  unfold keyRecord
  simp only [List.length_append, length_leBytes, length_sliceZ, List.length_replicate, hkey]

theorem State.writeKey_full {s : State} (h : s.sw.freeKeySlot 0 = none) (r : List Byte) (w : List Bool) :
    s.writeKey r w = s.keyEnds 9 := by
  unfold State.writeKey
  dsimp only
  rw [h]

/-- The record of a key with its crc. -/
def keyRecord128 (r : List Byte) : List Byte := keyRecord r ++ leBytes (crc32c (keyRecord r)).toNat 4

theorem State.writeKey_written {s : State} {i : Nat} (h : s.sw.freeKeySlot 0 = some i) (r : List Byte) {w : List Bool}
    (h0 : w.getD 0 true = true) : s.writeKey r w = (s.swProgram (0x1000 + 128 * i) (keyRecord128 r)).keyEnds 0 := by
  unfold State.writeKey
  dsimp only
  rw [h]
  exact if_pos h0

/-- A key of which two writes fail ends with code 10, and changes SE no further. -/
theorem State.writeKey_failed {s : State} (h : (s.sw.freeKeySlot 0).isSome = true) (r : List Byte) {w : List Bool}
    (h0 : w.getD 0 true = false) (h1 : w.getD 1 true = false) :
    (s.writeKey r w).se = { s.se with keyCode := 10, event := setEv s.se.event 1 } := by
  have hne0 : ¬ w.getD 0 true = true := by rw [h0]; exact Bool.false_ne_true
  have hne1 : ¬ w.getD 1 true = true := by rw [h1]; exact Bool.false_ne_true
  obtain ⟨i, hi⟩ := Option.isSome_iff_exists.mp h
  unfold State.writeKey
  dsimp only
  rw [hi]
  dsimp only
  rw [if_neg hne0]
  split
  · unfold State.keyEnds
    rw [State.swProgramFail_se]
  · rw [if_neg hne1]
    unfold State.keyEnds
    rw [State.swProgramFail_se, State.swProgramFail_se]

/-! ## Attestation (R450, R452, R454, R455) -/

theorem exec_attestation_noted {s : State} (h : s.vendorLive = true) :
    exec .attestation s = .next { s with se := { s.se with attesting := true } } := by
  by_cases ha : s.se.attesting = true
  · refine (congrArg done (if_neg (by simp [ha]))).trans ?_
    rw [← ha]
  · exact congrArg done (if_pos (by simp [h, ha]))

/-- A new block is needed: none is held, or the one held is used up. -/
def State.needsBlock (s : State) : Bool :=
  match s.se.block with
  | none => true
  | some b => 1024 ≤ b.2

/-- What an attestation does once its top tree is built. -/
def State.attest (s : State) (w : List Bool) (x : Bool) : State :=
  let r := if s.needsBlock then s.reserve w else (s, 0)
  if r.2 ≠ 0 then r.1.attestEnds r.2
  else match r.1.se.block with
    | none => r.1.attestEnds 2
    | some b => r.1.signEvidence b.1 b.2 x

theorem exec_attestDone_attests {s : State} (h : s.vendorLive = true) (ha : s.se.attesting = true) (ht : s.se.topReady = true)
    (w : List Bool) (x : Bool) : exec (.attestDone w x) s = .next (s.attest w x) :=
  congrArg done (if_pos (by simp [h, ha, ht]))

theorem exec_attestDone_ignored {s : State} (h : s.vendorLive = false ∨ s.se.attesting = false ∨ s.se.topReady = false)
    (w : List Bool) (x : Bool) : exec (.attestDone w x) s = .next s :=
  congrArg done (if_neg (by rcases h with h | h | h <;> simp [h]))

theorem State.needsBlock_held {s : State} {r n : Nat} (h : s.se.block = some (r, n)) (hn : n < 1024) : s.needsBlock = false := by
  unfold State.needsBlock
  rw [h]
  exact decide_eq_false (Nat.not_le.mpr hn)

theorem State.needsBlock_used {s : State} (h : s.se.block = none ∨ 1024 ≤ (s.se.block.getD (0, 0)).2) : s.needsBlock = true := by
  unfold State.needsBlock
  split
  · rfl
  · next b hb =>
    rcases h with h | h
    · exact absurd (hb.symm.trans h) (Option.some_ne_none b)
    · rw [hb] at h
      exact decide_eq_true h

/-- With a block in hand the evidence is signed by its next leaf. -/
theorem State.attest_signs {s u : State} {w : List Bool} {b : Nat × Nat}
    (hres : (if s.needsBlock then s.reserve w else (s, 0)) = (u, 0)) (hb : u.se.block = some b) (x : Bool) :
    s.attest w x = u.signEvidence b.1 b.2 x := by
  unfold State.attest
  dsimp only
  rw [hres]
  dsimp only
  rw [if_neg (by simp), hb]

theorem State.attest_fails {s u : State} {w : List Bool} {code : Nat}
    (hres : (if s.needsBlock then s.reserve w else (s, 0)) = (u, code)) (hcode : code ≠ 0) (x : Bool) :
    s.attest w x = u.attestEnds code := by
  unfold State.attest
  dsimp only
  rw [hres]
  exact if_pos hcode

/-- The evidence signed: the leaf is used and the attestation ends, whatever becomes of the write. -/
theorem State.signEvidence_spec (s : State) (r n : Nat) (x : Bool) :
    (s.signEvidence r n x).se = { s.se with
      attesting := false, attCode := if x then 0 else 3, event := setEv s.se.event 0
      block := some (r, n + 1), evidence := some (s.evidence (1024 * r + n)) } ∧
    (x = false → (s.signEvidence r n x).hostOut = s.hostOut) ∧
    s.signEvidence r n x = { s with se := (s.signEvidence r n x).se, hostOut := (s.signEvidence r n x).hostOut, tick := s.tick + 1 } := by
  unfold State.signEvidence
  cases x
  · exact ⟨rfl, fun _ => rfl, rfl⟩
  · exact ⟨rfl, fun h => absurd h (by decide), rfl⟩

/-! ## A block reserved (R430, R454) -/

theorem State.noteLeaves_eq (s : State) : s.noteLeaves = { s with se := s.noteLeaves.se } ∧
    s.noteLeaves.se.block = s.se.block ∧ s.noteLeaves.se.attesting = s.se.attesting := by
  unfold State.noteLeaves
  split <;> exact ⟨rfl, rfl, rfl⟩

theorem State.reserve_exhausted {s : State} (h : 1024 ≤ s.sw.nextBlock) (w : List Bool) : s.reserve w = (s, 1) := if_pos h

/-- The state whose next block is reserved and held, none of its leaves used. -/
def State.blockHeld (s : State) : State :=
  let u := s.swProgram (resSlotAddr s.sw.nextBlock) (resBytes s.sw.nextBlock)
  { u with se := { u.se with block := some (s.sw.nextBlock, 0) } }

theorem State.reserve_written {s : State} (h : s.sw.nextBlock < 1024) {w : List Bool} (h0 : w.getD 0 true = true) :
    s.reserve w = (s.blockHeld.noteLeaves, 0) :=
  (if_neg (Nat.not_le.mpr h)).trans (if_pos h0)

theorem State.reserve_failed {s : State} (h : s.sw.nextBlock < 1023) {w : List Bool} (h0 : w.getD 0 true = false)
    (h1 : w.getD 1 true = false) : ∃ u, s.reserve w = (u, 2) ∧ u.hostOut = s.hostOut := by
  have hne0 : ¬ w.getD 0 true = true := by rw [h0]; exact Bool.false_ne_true
  have hne1 : ¬ w.getD 1 true = true := by rw [h1]; exact Bool.false_ne_true
  refine ⟨_, (if_neg (by omega)).trans ((if_neg hne0).trans ((if_neg (by omega)).trans (if_neg hne1))), ?_⟩
  rw [(State.noteLeaves_eq _).1]
  dsimp only
  rw [State.swProgramFail_hostOut, State.swProgramFail_hostOut]

theorem length_resBytes (r : Nat) : (resBytes r).length = 16 := by
  unfold resBytes
  simp only [List.length_append, length_leBytes, List.length_replicate]

/-- An attestation that reserves its block. -/
theorem State.attest_reserves {s : State} (hneed : s.needsBlock = true) (h : s.sw.nextBlock < 1024) {w : List Bool}
    (h0 : w.getD 0 true = true) (x : Bool) :
    (s.attest w x).se.block = some (s.sw.nextBlock, 1) ∧ (s.attest w x).se.attesting = false ∧
    (s.attest w x).se.attCode = (if x then 0 else 3) ∧
    (s.attest w x).sw.bytes (0xC000 + 16 * s.sw.nextBlock) 16 = resBytes s.sw.nextBlock ∧
    s.attest w x = { s with se := (s.attest w x).se, sw := (s.attest w x).sw, hostOut := (s.attest w x).hostOut
                            tick := (s.attest w x).tick } := by
  obtain ⟨hleaves, hblock, -⟩ := s.blockHeld.noteLeaves_eq
  obtain ⟨u, hu⟩ : ∃ u, u = s.blockHeld.noteLeaves := ⟨_, rfl⟩
  rw [← hu] at hleaves hblock
  have hsigns : s.attest w x = u.signEvidence s.sw.nextBlock 0 x :=
    State.attest_signs (by rw [if_pos hneed, State.reserve_written h h0, hu]) hblock x
  obtain ⟨hse, -, heq⟩ := u.signEvidence_spec s.sw.nextBlock 0 x
  have hheld : u.sw = s.blockHeld.sw := by rw [hleaves]
  have hsw : (u.signEvidence s.sw.nextBlock 0 x).sw = s.blockHeld.sw := (congrArg State.sw heq).trans hheld
  rw [hsigns]
  refine ⟨by rw [hse], by rw [hse], by rw [hse], ?bytes, ?rest⟩
  case bytes =>
    rw [hsw]
    exact Tests.readCells_in _ _ _ _ _ (length_resBytes _)
  case rest =>
    rw [heq, hleaves]
    rfl

/-- Settles O23: a request in the order of its checks, and an attestation by the block it signs with. -/
theorem keysAndAttestation : Obligations.KeysAndAttestation := by
  unfold Obligations.KeysAndAttestation
  refine ⟨?malformed, ?firstOther, ?firstCounter, ?written, ?unwritten, ?ends, ?noted, ?held, ?reserves, ?ignored, ?down⟩
  case malformed =>
    intro r g w s hlive hr
    rw [exec_keyRequest_live hlive, State.keyReq_malformed hr]
    rfl
  case firstOther =>
    intro r g w s hlive hr hsel hact hkeys hid
    rw [exec_keyRequest_live hlive, State.keyReq_signed hr (.inl ⟨hsel, hact, hkeys⟩), if_pos hid]
    rfl
  case firstCounter =>
    intro r g w s hlive hr hsel hact hkeys hid hc
    rw [exec_keyRequest_live hlive, State.keyReq_signed hr (.inl ⟨hsel, hact, hkeys⟩), if_neg (not_not_intro hid), if_pos hc]
    rfl
  case written =>
    intro r g w i s hlive hr hsig hid hc hchange hi h0
    refine ⟨_, exec_keyRequest_live hlive r g w, ?_⟩
    rw [State.keyReq_writes hr hsig hid hc hchange, State.writeKey_written hi r h0]
    refine ⟨rfl, ?_, fun a ha => readCell_writeCells_out _ _ _ _ _ ?_, rfl⟩
    · have hfront := readCells_writeCells_front 0xFF s.sw.store (0x1000 + 128 * i) (keyRecord r) (leBytes (crc32c (keyRecord r)).toNat 4)
      rw [length_keyRecord] at hfront
      exact hfront
    · rw [keyRecord128, List.length_append, length_keyRecord, length_leBytes]
      omega
  case unwritten =>
    intro r g w s hlive hr hsig hid hc hchange
    rw [exec_keyRequest_live hlive, State.keyReq_writes hr hsig hid hc hchange]
    refine ⟨fun hfull => ?_, fun h0 h1 hfree => ⟨_, rfl, State.writeKey_failed hfree r h0 h1⟩⟩
    rw [State.writeKey_full hfull]
    rfl
  case ends =>
    intro r g w s hlive hr
    rw [exec_keyRequest_live hlive]
    refine ⟨fun hsel hkeys => ?_, fun hsel hact hkeys => ?_, fun hsel hfind => ?_, fun hsel hfind hg => ?_, fun hsel hfind hg => ?_⟩
    · rw [State.keyReq_notFirst hr hsel hkeys]
      rfl
    · rw [State.keyReq_noSigner hr (.inl ⟨hsel, hact, hkeys⟩)]
      rfl
    · rw [State.keyReq_noSigner hr (.inr ⟨hsel, hfind⟩)]
      rfl
    · rw [hg, State.keyReq_unsigned hr hsel hfind]
      exact ⟨_, rfl, rfl, rfl, rfl⟩
    · rw [State.keyReq_signed hr (.inr ⟨hsel, hfind, hg⟩)]
      refine ⟨fun hid => ?_, fun hid hc => ?_, fun hid hc hsame => ?_, fun hid hc hact hstands hlen => ?_⟩
      · rw [if_pos hid]
        rfl
      · rw [if_neg (not_not_intro hid), if_pos hc]
        rfl
      · have hsame' : ((byteAt r 6 == 1) == (s.sw.ownerKeys.find (byteAt r 7)).isSome) = true :=
          beq_iff_eq.mpr (Bool.eq_iff_iff.mpr (beq_iff_eq.trans hsame))
        rw [if_neg (not_not_intro hid), if_neg (Nat.not_le.mpr hc), if_pos hsame']
        rfl
      · rw [if_neg (not_not_intro hid), if_neg (Nat.not_le.mpr hc), if_neg (by simp [hact, hstands]), if_pos ⟨hact, hlen⟩]
        rfl
  case noted => exact fun s hlive => ⟨exec_attestation_noted hlive, congrArg done (if_pos hlive)⟩
  case held =>
    intro w x r n s hlive ha ht hb hn
    have hres : (if s.needsBlock then s.reserve w else (s, 0)) = (s, 0) := if_neg (by simp [State.needsBlock_held hb hn])
    exact ⟨_, (exec_attestDone_attests hlive ha ht w x).trans (by rw [State.attest_signs hres hb]), s.signEvidence_spec r n x⟩
  case reserves =>
    intro w x s hlive ha ht hb
    have hneed := State.needsBlock_used hb
    rw [exec_attestDone_attests hlive ha ht]
    refine ⟨fun hnext h0 => ⟨_, rfl, State.attest_reserves hneed hnext h0 x⟩, fun hfull => ?_, fun hnext h0 h1 => ?_⟩
    · rw [State.attest_fails (u := s) (code := 1) (by rw [if_pos hneed, State.reserve_exhausted hfull]) (by decide)]
      rfl
    · obtain ⟨u, hres, hout⟩ := State.reserve_failed hnext h0 h1
      refine ⟨_, rfl, ?_⟩
      rw [State.attest_fails (u := u) (code := 2) (by rw [if_pos hneed, hres]) (by decide)]
      exact ⟨rfl, rfl, hout⟩
  case ignored => exact fun w x s h => exec_attestDone_ignored h w x
  case down => exact fun r g w s h =>
    ⟨congrArg done (if_neg (by simp [h])), congrArg done (if_neg (by simp [h])), congrArg done (if_neg (by simp [h]))⟩

end Sys2Proof.Machine
end

section
/-! Firmware download and commit (R388, R392, R456 to R460): where the record of the boot log goes, and the commands by their
branches. -/

namespace Sys2Proof.Machine

/-! ## Where a record of a pair goes (R429) -/

theorem Sw.governs_lt {w : Sw} {g : LogId} {i : Nat} (h : w.governs g = some i) : i < 64 := by
  refine List.foldlRecOn (motive := fun b => ∀ i, b = some i → i < 64) (List.range 64) _ (by simp) (fun b hb a ha j hj => ?_) i h
  have ha : a < 64 := List.mem_range.mp ha
  dsimp only at hj
  split at hj
  · split at hj
    · exact Option.some.inj hj ▸ ha
    · next k =>
      split at hj
      · exact Option.some.inj hj ▸ ha
      · exact hb j hj
  · exact hb j hj

theorem Sw.freeSlot_lt {w : Sw} {g : LogId} {h lo j : Nat} (hj : w.freeSlot g h lo = some j) : j < 32 * h + 32 := by
  obtain ⟨i, hi, rfl⟩ := List.mem_map.mp (List.mem_of_find?_eq_some hj)
  have := List.mem_range.mp hi
  omega

/-- The next record of a pair goes into one of its 64 slots; a sector that is erased for it is one of the pair. -/
theorem Sw.nextSlot_lt (w : Sw) (g : LogId) : (w.nextSlot g).1 < 64 ∧ ∀ x, (w.nextSlot g).2 = some x → x ≤ g.sector + 1 := by
  have hhalf : (w.governs g).getD 0 / 32 ≤ 1 := by
    cases hg : w.governs g with
    | none => exact Nat.zero_le _
    | some i =>
      have := Sw.governs_lt hg
      rw [Option.getD_some]
      omega
  unfold Sw.nextSlot Sw.slotFrom
  split
  · next j hj =>
    have := Sw.freeSlot_lt hj
    exact ⟨by dsimp only; omega, fun x hx => absurd hx (by simp)⟩
  · refine ⟨by dsimp only; omega, fun x hx => ?_⟩
    have := Option.some.inj hx
    omega

theorem length_mkRecord128 (tag seq : Nat) {p : List Byte} (h : p.length ≤ 104) : (mkRecord128 tag seq p).length = 128 := by
  unfold mkRecord128
  simp only [List.length_append, length_leBytes, List.length_replicate]
  omega

theorem length_bootLogPayload (b : BootLog) : b.payload.length = 16 := by
  unfold BootLog.payload
  simp only [List.length_append, length_leBytes, List.length_cons, List.length_nil]

/-- A record of the boot log is written within its two sectors. -/
theorem State.logWrite_boot_above (s : State) (b : BootLog) {w : List Bool} (h : w.getD 0 true = true) {a : Nat} (ha : 0x4000 ≤ a) :
    readCell 0xFF (s.logWrite logBoot b.payload w).1.sw.store a = readCell 0xFF s.sw.store a := by
  obtain ⟨hslot, hsector⟩ := s.sw.nextSlot_lt logBoot
  have hlog : ∃ q, s.logWrite logBoot b.payload w =
      ((s.clearFor (s.sw.nextSlot logBoot)).swProgram (slotAddr logBoot (s.sw.nextSlot logBoot).1) (mkRecord128 logBoot.tag q b.payload), true) :=
    ⟨_, if_pos h⟩
  obtain ⟨q, hlog⟩ := hlog
  have haddr : slotAddr logBoot (s.sw.nextSlot logBoot).1 = 0x2000 + 128 * (s.sw.nextSlot logBoot).1 := rfl
  rw [hlog]
  refine (readCell_writeCells_out _ _ _ _ _ (.inr ?_)).trans ?_
  · rw [length_mkRecord128 _ _ (by rw [length_bootLogPayload]; decide), haddr]
    omega
  · unfold State.clearFor
    split
    · rfl
    · next x hx =>
      have hx : x ≤ 3 := hsector x hx
      have hbase : sectorBase x = 0x1000 * x := if_pos (by omega)
      have hsize : sectorSize x = 0x1000 := if_pos (by omega)
      refine (readCell_eraseCells ..).trans (if_neg ?_)
      rw [hbase, hsize]
      omega

/-! ## Download (R457, R459) -/

section
variable {s : State} {c : CmdId} (h : s.serves c .image)
include h

theorem exec_firmwareImageDownload_taken {o : Nat} {d : List Byte} (hc : s.se.commit = none) (ho : o + d.length ≤ 33554432) :
    exec (.firmwareImageDownload c o d) s = .next (State.complete { s.fetch c with se := { s.se with
      fwBuf := writeCells 0 s.se.fwBuf o d, fwLen := max s.se.fwLen (o + d.length) } } c stOk) :=
  congrArg done ((State.command_served _ h.1 h.2).trans ((if_neg (by simp [hc])).trans (if_neg (by omega))))

theorem exec_firmwareImageDownload_refused {o : Nat} {d : List Byte} (hbad : s.se.commit ≠ none ∨ 33554432 < o + d.length) :
    exec (.firmwareImageDownload c o d) s =
      .next (s.answered c (if s.se.commit ≠ none then stSequence else stInvalidField) 0 0 []) := by
  refine congrArg done ((State.command_served _ h.1 h.2).trans ?_)
  by_cases hc : s.se.commit = none
  · have ho := hbad.resolve_left (not_not_intro hc)
    rw [if_neg (not_not_intro hc)]
    exact (if_neg (by simp [hc])).trans (if_pos ho)
  · rw [if_pos hc]
    exact if_pos (Option.isSome_iff_ne_none.mpr hc)

end

/-! ## Commit, in the order of its checks (R458 to R460) -/

/-- What a commit does once the phase serves it. -/
def State.commitFw (s : State) (c : CmdId) (slot action : Nat) (sigOk : Bool) (writes : List Bool) : State :=
  if s.se.commit.isSome then s.complete c stSequence
  else if s.mc.phase = .recovery ∧ s.mc.cause = 5 then s.complete c stInternal
  else if 1 < slot then s.complete c stFwSlot
  else if 1 < action then s.complete c stInvalidField
  else if !fwHeaderOk (readCells 0 s.se.fwBuf 0 64) s.se.fwLen then s.verifyFailed.complete c stFwImage
  else if !sigOk then (s.verifyFailed.postCorr srcSE kSigVerify 0 0 0 0 0).complete c stFwImage
  else s.startCommit c action writes

theorem exec_firmwareCommit_served {s : State} {c : CmdId} (h : s.serves c .fwCommit) (p a : Nat) (g : Bool) (w : List Bool) :
    exec (.firmwareCommit c p a g w) s = .next ((s.fetch c).commitFw c p a g w) :=
  congrArg done (State.command_served _ h.1 h.2)

/-- No commit runs, and no failed fuse read keeps the firmware as it is (R392). -/
structure State.FwFree (s : State) : Prop where
  commit : s.se.commit = none
  fuses : ¬ (s.mc.phase = .recovery ∧ s.mc.cause = 5)

theorem State.fwFree_of {s : State} (hc : s.se.commit = none) (hp : s.mc.phase = .go ∨ s.mc.cause ≠ 5) : s.FwFree :=
  ⟨hc, fun ⟨hr, h5⟩ => hp.elim (fun hgo => by rw [hgo] at hr; cases hr) fun hne => hne h5⟩

theorem State.commitFw_busy {s : State} (h : s.se.commit ≠ none) (c : CmdId) (p a : Nat) (g : Bool) (w : List Bool) :
    s.commitFw c p a g w = s.complete c stSequence := if_pos (Option.isSome_iff_ne_none.mpr h)

theorem State.commitFw_fuses {s : State} (h : s.se.commit = none) (hr : s.mc.phase = .recovery) (h5 : s.mc.cause = 5) (c : CmdId)
    (p a : Nat) (g : Bool) (w : List Bool) : s.commitFw c p a g w = s.complete c stInternal :=
  (if_neg (by simp [h])).trans (if_pos ⟨hr, h5⟩)

section
variable {s : State} (h : s.FwFree) {p a : Nat} (c : CmdId) (g : Bool) (w : List Bool)
include h

theorem State.commitFw_slot (hp : 1 < p) : s.commitFw c p a g w = s.complete c stFwSlot :=
  (if_neg (by simp [h.commit])).trans ((if_neg h.fuses).trans (if_pos hp))

theorem State.commitFw_action (hp : p ≤ 1) (ha : 1 < a) : s.commitFw c p a g w = s.complete c stInvalidField :=
  (if_neg (by simp [h.commit])).trans ((if_neg h.fuses).trans ((if_neg (by omega)).trans (if_pos ha)))

variable (hp : p ≤ 1) (ha : a ≤ 1)
include hp ha

theorem State.commitFw_header (himg : fwHeaderOk (readCells 0 s.se.fwBuf 0 64) s.se.fwLen = false) :
    s.commitFw c p a g w = s.verifyFailed.complete c stFwImage :=
  (if_neg (by simp [h.commit])).trans ((if_neg h.fuses).trans ((if_neg (by omega)).trans ((if_neg (by omega)).trans
    (if_pos (by rw [himg]; rfl)))))

variable (himg : fwHeaderOk (readCells 0 s.se.fwBuf 0 64) s.se.fwLen = true)
include himg

theorem State.commitFw_unsigned :
    s.commitFw c p a false w = (s.verifyFailed.postCorr srcSE kSigVerify 0 0 0 0 0).complete c stFwImage :=
  (if_neg (by simp [h.commit])).trans ((if_neg h.fuses).trans ((if_neg (by omega)).trans ((if_neg (by omega)).trans
    ((if_neg (by rw [himg]; decide)).trans (if_pos rfl)))))

theorem State.commitFw_starts : s.commitFw c p a true w = s.startCommit c a w :=
  (if_neg (by simp [h.commit])).trans ((if_neg h.fuses).trans ((if_neg (by omega)).trans ((if_neg (by omega)).trans
    ((if_neg (by rw [himg]; decide)).trans (if_neg (by simp))))))

end

/-- A commit whose marker is written keeps the image aside and takes the store for itself. -/
theorem State.startCommit_written (s : State) (c : CmdId) (a : Nat) {w : List Bool} (h0 : w.getD 0 true = true) :
    (s.startCommit c a w).se = { s.se with commit := some { c := c, action := a, image := s.se.fwImage } } ∧
    (s.startCommit c a w).sw.internal = true ∧ (s.startCommit c a w).qe = s.qe ∧
    s.startCommit c a w = { s with se := (s.startCommit c a w).se, sw := (s.startCommit c a w).sw, tick := (s.startCommit c a w).tick } := by
  obtain ⟨b, l, hlog⟩ := s.logWrite_verified logBoot { s.sw.bootLog with updating := 1 }.payload h0
  obtain ⟨u, hu⟩ : ∃ u, u = (s.clearFor (s.sw.nextSlot logBoot)).swProgram b l := ⟨_, rfl⟩
  have honly : s.storeOnly u := hu ▸ (State.storeOnly.clearFor (s := s) rfl _).swProgram b l
  have hstart : s.startCommit c a w = { u with
      se := { u.se with commit := some { c := c, action := a, image := u.se.fwImage } }, sw := { u.sw with internal := true } } := by
    unfold State.startCommit
    dsimp only
    rw [hlog, ← hu]
    exact if_pos rfl
  unfold State.storeOnly at honly
  rw [hstart]
  refine ⟨?se, rfl, ?qe, ?rest⟩
  case se => rw [honly]
  case qe => rw [honly]
  case rest => rw [honly]

theorem State.startCommit_unwritten {s : State} {c : CmdId} (hc : c ∈ s.qe.fetched) (a : Nat) {w : List Bool}
    (h0 : w.getD 0 true = false) (h1 : w.getD 1 true = false) :
    Completed (s.startCommit c a w) c stInternal 0 0 [] ∧ (s.startCommit c a w).se = s.se ∧
    (s.startCommit c a w).sw.internal = s.sw.internal := by
  obtain ⟨t, hlog, hqe⟩ := s.logWrite_failed logBoot { s.sw.bootLog with updating := 1 }.payload h0 h1
  obtain ⟨-, hview⟩ := s.logWrite_failed_logView logBoot { s.sw.bootLog with updating := 1 }.payload h0 h1
  rw [hlog] at hview
  have hstart : s.startCommit c a w = t.complete c stInternal := by
    unfold State.startCommit
    dsimp only
    rw [hlog]
    exact if_neg Bool.false_ne_true
  rw [hstart]
  exact ⟨State.complete_completed _ _ _ _ _ _ (by rwa [hqe]), congrArg (fun v => v.1) hview, congrArg (fun v => v.2.2.2) hview⟩

/-! ## The end of a commit (R458 to R460) -/

/-- The image programmed, and the boot log's record of it. -/
def State.logFw (s : State) (img : List Byte) (writes : List Bool) : State × Bool :=
  (s.programFw img).logWrite logBoot { (s.programFw img).sw.bootLog with updating := 0, fwBytes := img.length }.payload writes

/-- What the end of a commit that programmed leaves, by the phase. -/
def State.commitEnds (s : State) (k : FwCommit) (p : Phase) : State :=
  let t := s.commitOver k.c (if k.action = 0 then stOk else stFwNeedsReset)
  if p = .recovery then t.enterMarks 3
  else if p = .off then { t with mc := { t.mc with deferred := some (t.mc.deferred.getD 3) } } else t

theorem exec_firmwareCommitDone_none {s : State} (h : s.se.commit = none) (x : Bool) (w : List Bool) :
    exec (.firmwareCommitDone x w) s = .next s := by
  change execFirmwareCommitDone x w s = _
  unfold execFirmwareCommitDone
  rw [h]

section
variable {s : State} {k : FwCommit} (h : s.se.commit = some k)
include h

theorem exec_firmwareCommitDone_failed (w : List Bool) :
    exec (.firmwareCommitDone false w) s = .next ((s.programFwFail k.image).commitOver k.c stInternal) := by
  change execFirmwareCommitDone false w s = _
  unfold execFirmwareCommitDone
  rw [h]
  rfl

theorem exec_firmwareCommitDone_unlogged {u : State} {w : List Bool} (hlog : s.logFw k.image w = (u, false)) :
    exec (.firmwareCommitDone true w) s = .next (u.commitOver k.c stInternal) := by
  have hlog' : (s.programFw k.image).logWrite logBoot
      { (s.programFw k.image).sw.bootLog with updating := 0, fwBytes := k.image.length }.payload w = (u, false) := hlog
  change execFirmwareCommitDone true w s = _
  unfold execFirmwareCommitDone
  rw [h]
  dsimp only
  rw [hlog']
  rfl

theorem exec_firmwareCommitDone_logged {u : State} {w : List Bool} (hlog : s.logFw k.image w = (u, true)) :
    exec (.firmwareCommitDone true w) s = .next (u.commitEnds k s.mc.phase) := by
  have hlog' : (s.programFw k.image).logWrite logBoot
      { (s.programFw k.image).sw.bootLog with updating := 0, fwBytes := k.image.length }.payload w = (u, true) := hlog
  change execFirmwareCommitDone true w s = _
  unfold execFirmwareCommitDone
  rw [h]
  dsimp only
  rw [hlog']
  rfl

end

theorem State.storeOnly.programFw {s t : State} (h : s.storeOnly t) (img : List Byte) : s.storeOnly (t.programFw img) :=
  h.update (t.programFw img).sw (t.tick + 1)

/-- The image stands in the firmware region once its record is written, and nothing but the store changes. -/
theorem State.logFw_written (s : State) (img : List Byte) {w : List Bool} (h0 : w.getD 0 true = true) :
    ∃ u, s.logFw img w = (u, true) ∧ s.storeOnly u ∧
      ∀ i, (h : i < img.length) → readCell 0xFF u.sw.store (0x20000 + i) = img[i] := by
  obtain ⟨b, l, hlog⟩ := (s.programFw img).logWrite_verified logBoot
    { (s.programFw img).sw.bootLog with updating := 0, fwBytes := img.length }.payload h0
  refine ⟨_, hlog, ((State.storeOnly.programFw (s := s) rfl img).clearFor _).swProgram b l, fun i hi => ?_⟩
  have habove := (s.programFw img).logWrite_boot_above
    { (s.programFw img).sw.bootLog with updating := 0, fwBytes := img.length } h0 (a := 0x20000 + i) (by omega)
  rw [hlog] at habove
  exact habove.trans (readCell_writeCells_in 0xFF _ 0x20000 img i hi)

theorem State.logFw_unwritten (s : State) (img : List Byte) {w : List Bool} (h0 : w.getD 0 true = false) (h1 : w.getD 1 true = false) :
    ∃ u, s.logFw img w = (u, false) ∧ u.qe = s.qe ∧ u.mc.phase = s.mc.phase := by
  obtain ⟨u, hlog, hqe⟩ := (s.programFw img).logWrite_failed logBoot
    { (s.programFw img).sw.bootLog with updating := 0, fwBytes := img.length }.payload h0 h1
  obtain ⟨-, hview⟩ := (s.programFw img).logWrite_failed_logView logBoot
    { (s.programFw img).sw.bootLog with updating := 0, fwBytes := img.length }.payload h0 h1
  rw [hlog] at hview
  exact ⟨u, hlog, hqe, congrArg (fun v => v.2.1) hview⟩

theorem State.commitOver_completed {s : State} {c : CmdId} (h : c ∈ s.qe.fetched) (st : Nat) :
    Completed (s.commitOver c st) c st 0 0 [] :=
  State.complete_completed { s with
    se := { s.se with commit := none, event := setEv s.se.event 2 }
    sw := { s.sw with internal := s.sl.persist.isSome } } c st 0 0 [] h

/-- Settles O22: a download and a commit in the order of their checks, and the end of a commit by what was written. -/
theorem firmwareUpdate : Obligations.FirmwareUpdate := by
  unfold Obligations.FirmwareUpdate
  refine ⟨?download, ?downloadRefused, ?commit, ?unsigned, ?ends, ?fails, ?refused, ?unmarked, ?recovery, ?unlogged, ?idle⟩
  case download =>
    intro c o d s h hc ho
    refine ⟨_, exec_firmwareImageDownload_taken h hc ho, State.complete_completed _ _ _ _ _ _ (s.mem_fetch c),
      fun i hi => readCell_writeCells_in _ _ _ _ _ hi, fun a ha => readCell_writeCells_out _ _ _ _ _ ha, rfl, rfl⟩
  case downloadRefused => exact fun c o d s h hbad => exec_firmwareImageDownload_refused h hbad
  case commit =>
    intro c p a w s h hc hphase hp ha himg h0
    obtain ⟨hse, hinternal, hqe, heq⟩ := (s.fetch c).startCommit_written c a h0
    refine ⟨_, (exec_firmwareCommit_served h p a true w).trans
      (congrArg Host.Outcome.next (State.commitFw_starts (State.fwFree_of (s := s.fetch c) hc hphase) c w hp ha himg)), ?_⟩
    refine ⟨by rw [hse]; rfl, hinternal, by rw [hqe]; exact s.mem_fetch c, by rw [hqe]; rfl, ?_⟩
    rw [heq]
    rfl
  case unsigned =>
    intro c p a w s h hc hphase hp ha himg hready
    obtain ⟨u, hu⟩ : ∃ u, u = (s.fetch c).verifyFailed.postCorr srcSE kSigVerify 0 0 0 0 0 := ⟨_, rfl⟩
    have heq : u = { (s.fetch c).verifyFailed with fl := u.fl } := hu ▸ State.postCorr_eq _ _ _ _ _ _ _ _ hready
    have hwritten : RecordWritten s u srcSE kSigVerify 0 0 0 0 0 0 :=
      hu ▸ (s.fetch c).verifyFailed.post_recordWritten srcSE kSigVerify 0 0 0 0 0 0 hready
    refine ⟨u.complete c stFwImage, (exec_firmwareCommit_served h p a false w).trans
      (congrArg Host.Outcome.next ((State.commitFw_unsigned (State.fwFree_of (s := s.fetch c) hc hphase) c w hp ha himg).trans
        (by rw [← hu]))), State.complete_completed _ _ _ _ _ _ ?mem, hwritten, ?commit, ?sw, ?buf, ?rest⟩
    case mem =>
      rw [heq]
      exact s.mem_fetch c
    case commit =>
      change u.se.commit = none
      rw [heq]
      exact hc
    case sw =>
      change u.sw = s.sw
      rw [heq]
      rfl
    case buf =>
      change u.se.fwBuf = s.se.fwBuf
      rw [heq]
      rfl
    case rest =>
      rw [heq]
      rfl
  case ends =>
    intro k w s hk hphase hmem h0
    obtain ⟨u, hlog, honly, hbytes⟩ := s.logFw_written k.image h0
    have hends : exec (.firmwareCommitDone true w) s = .next (u.commitOver k.c (if k.action = 0 then stOk else stFwNeedsReset)) := by
      rw [exec_firmwareCommitDone_logged hk hlog, hphase]
      rfl
    unfold State.storeOnly at honly
    refine ⟨_, hends, State.commitOver_completed (by rw [honly]; exact hmem) _, ?se, ?internal, hbytes, ?rest⟩
    case se =>
      rw [honly]
      rfl
    case internal =>
      rw [honly]
      rfl
    case rest =>
      rw [honly]
      rfl
  case fails =>
    intro k w s hk hmem
    exact ⟨_, exec_firmwareCommitDone_failed hk w, State.commitOver_completed (by exact hmem) _, rfl, rfl, rfl⟩
  case refused =>
    intro c p a g w s h
    rw [exec_firmwareCommit_served h]
    refine ⟨fun hc => ?_, fun hc hr h5 => ?_, fun hc hphase => ?_⟩
    · rw [State.commitFw_busy (by exact hc)]
      rfl
    · rw [State.commitFw_fuses (by exact hc) (by exact hr) (by exact h5)]
      rfl
    · have hfree : (s.fetch c).FwFree := State.fwFree_of (s := s.fetch c) hc hphase
      refine ⟨fun hp => ?_, fun hp ha => ?_, fun hp ha himg => ?_⟩
      · rw [State.commitFw_slot hfree c g w hp]
        rfl
      · rw [State.commitFw_action hfree c g w hp ha]
        rfl
      · rw [State.commitFw_header hfree c g w hp ha himg]
        rfl
  case unmarked =>
    intro c p a w s h hc hphase hp ha himg h0 h1
    exact ⟨_, (exec_firmwareCommit_served h p a true w).trans
      (congrArg Host.Outcome.next (State.commitFw_starts (State.fwFree_of (s := s.fetch c) hc hphase) c w hp ha himg)),
      State.startCommit_unwritten (s.mem_fetch c) a h0 h1⟩
  case recovery =>
    intro k w s hk hphase h0
    obtain ⟨u, hlog, honly, hbytes⟩ := s.logFw_written k.image h0
    obtain ⟨v, hv⟩ : ∃ v, v = u.commitOver k.c (if k.action = 0 then stOk else stFwNeedsReset) := ⟨_, rfl⟩
    have hends : exec (.firmwareCommitDone true w) s = .next (v.enterMarks 3) := by
      rw [exec_firmwareCommitDone_logged hk hlog, hphase, hv]
      rfl
    obtain ⟨-, -, -, htiles, -, -, -, hsw, -, -, -⟩ := v.enterMarks_spec 3
    obtain ⟨hmarks, hentry, hentries, -⟩ := v.enterMarks_mc 3
    unfold State.storeOnly at honly
    refine ⟨_, hends, hmarks, hentry, ?entries, htiles, fun i hi => ?store⟩
    case entries =>
      rw [hentries, hv, honly]
      rfl
    case store =>
      rw [hsw, hv]
      exact hbytes i hi
  case unlogged =>
    intro k w s hk hmem h0 h1
    obtain ⟨u, hlog, hqe, hphase⟩ := s.logFw_unwritten k.image h0 h1
    exact ⟨_, exec_firmwareCommitDone_unlogged hk hlog, State.commitOver_completed (by rwa [hqe]) _, rfl, hphase⟩
  case idle => exact fun x w s h => exec_firmwareCommitDone_none h x w

end Sys2Proof.Machine
end

section
/-! Frames, ring indices, the volume map and the transfer timeout of function 1 (R346, R349, R352 to R356, R428). -/

namespace Sys2Proof.Machine

/-! ## The reply ring (R346) -/

/-- What sending on the reply ring leaves as it is: the request ring's indices, the violations counted, and the commands. -/
def Lp.reqView (l : Lp) : Nat × Nat × Nat × KMap LpCmd := (l.reqProd, l.reqCons, l.protoCnt, l.cmds)

theorem Lp.tryPut_reqView {l k : Lp} {f : List Byte} (h : l.tryPut f = some k) : k.reqView = l.reqView := by
  unfold Lp.tryPut at h
  dsimp only at h
  split at h <;> split at h
  · rw [← Option.some.inj h]
    rfl
  · cases h
  · rw [← Option.some.inj h]
    rfl
  · cases h

theorem Lp.sendAll_reqView (fs : List (List Byte)) (l : Lp) : (l.sendAll fs).reqView = l.reqView := by
  induction fs generalizing l with
  | nil => rfl
  | cons f fs ih =>
    unfold Lp.sendAll
    split
    · rfl
    · next k hk => exact (ih k).trans (Lp.tryPut_reqView hk)

theorem State.lpSend_reqView (s : State) (fs : List (List Byte)) : (s.lpSend fs).lp.reqView = s.lp.reqView :=
  Lp.sendAll_reqView ..

/-- A frame of one cell, with no other in front of it and a cell free, goes out at once. -/
theorem Lp.send_one {l : Lp} {f : List Byte} (hq : l.outq = []) (hf : f.length = 64) (hp : l.rplProd < rplCells) (hfree : 1 ≤ l.free) :
    l.send [f] = { l.putAt l.rplProd f with outq := [] } := by
  have hput : l.tryPut f = some (l.putAt l.rplProd f) := by
    unfold Lp.tryPut
    dsimp only
    rw [hf]
    exact (if_pos hp).trans (if_pos hfree)
  unfold Lp.send Lp.sendAll
  rw [hq, List.nil_append]
  dsimp only
  rw [hput]
  rfl

theorem Lp.send_none {l : Lp} (hq : l.outq = []) : l.send [] = l := by
  unfold Lp.send
  rw [hq]
  change { l with outq := [] } = l
  rw [← hq]

theorem length_lpFrame_one (type flags tag arg : Nat) (body : List Byte) : (lpFrame type flags 1 tag arg body).length = 64 :=
  length_padTo ..

/-- The frame stands where the producer was, and nothing but LP changes. -/
theorem State.lpSend_one {s : State} {f : List Byte} (hq : s.lp.outq = []) (hf : f.length = 64) (hp : s.lp.rplProd < rplCells)
    (hfree : 1 ≤ s.lp.free) : LpReplied s (s.lpSend [f]) 0 f ∧ (s.lpSend [f]).lp = { s.lp.putAt s.lp.rplProd f with outq := [] } := by
  have hsend : (s.lpSend [f]).lp = { s.lp.putAt s.lp.rplProd f with outq := [] } := Lp.send_one hq hf hp hfree
  refine ⟨?_, hsend⟩
  unfold LpReplied
  rw [hsend]
  exact Tests.readCells_in _ _ _ _ _ rfl

/-! ## The request ring (R346, R347) -/

theorem State.lpSkipAll_stops {s : State} (h : s.lpReads = false ∨ s.lp.avail = 0) : s.lpSkipAll = s := by
  change s.lpSkip (8127 + 1) = s
  exact if_pos (by rcases h with h | h <;> simp [h])

/-- A frame that fits and that a command handles is left for it. -/
theorem State.lpSkipAll_handled {s : State} (hfit : s.lp.badExtent s.lp.head = false) (htype : s.lp.head.type = 1) :
    s.lpSkipAll = s := by
  change s.lpSkip (8127 + 1) = s
  unfold State.lpSkip
  dsimp only
  split
  · rfl
  · rw [if_neg (by simp [hfit]), if_neg (by omega), if_neg (by omega)]

/-- Past the only frame that waits, none is left. -/
theorem State.lpAdvance_avail {s : State} (hall : s.lp.avail = s.lp.head.extent) (hfit : s.lp.badExtent s.lp.head = false) :
    (s.lpAdvance s.lp.head).lp.avail = 0 := by
  have hcell : s.lp.head.cell = s.lp.reqCons := rfl
  unfold Lp.badExtent at hfit
  simp only [Bool.or_eq_false_iff, decide_eq_false_iff_not, beq_eq_false_iff_ne, hcell] at hfit
  unfold Lp.avail at hall
  change (s.lp.reqProd + reqCells - (s.lp.head.cell + s.lp.head.extent) % reqCells) % reqCells = 0
  unfold reqCells at *
  rw [hcell, ← hall]
  omega

/-- The one frame that waits is taken by its command. -/
theorem State.lpTake_waits {s : State} (h : s.lpFrameWaits) {mine : LpFrame → Bool} (hmine : mine s.lp.head = true)
    (act : LpFrame → State → State) : s.lpTake mine act = (act s.lp.head (s.lpAdvance s.lp.head)).lpSkipAll := by
  obtain ⟨hlive, hq, havail, -, hfit, hreserved⟩ := h
  refine (if_neg (by simp [hlive, hq, havail, hfit, hmine])).trans ?_
  rw [hreserved]
  rfl

/-- The same, where the command sends and ends what it does with no change to the request ring. -/
theorem State.lpTake_alone {s : State} (h : s.lpFrameWaits) {mine : LpFrame → Bool} (hmine : mine s.lp.head = true)
    {act : LpFrame → State → State} {t : State} (ht : act s.lp.head (s.lpAdvance s.lp.head) = t)
    (hprod : t.lp.reqProd = s.lp.reqProd) (hcons : t.lp.reqCons = (s.lpAdvance s.lp.head).lp.reqCons) :
    s.lpTake mine act = t ∧ t.lp.avail = 0 := by
  have hnone : t.lp.avail = 0 := by
    obtain ⟨-, -, -, hall, hfit, -⟩ := h
    unfold Lp.avail
    rw [hprod, hcons]
    exact State.lpAdvance_avail hall hfit
  rw [State.lpTake_waits h hmine, ht]
  exact ⟨State.lpSkipAll_stops (.inr hnone), hnone⟩

theorem State.lpTake_other {s : State} {mine : LpFrame → Bool} (h : s.vendorLive = false ∨ s.lp.avail = 0 ∨ mine s.lp.head = false)
    (act : LpFrame → State → State) : s.lpTake mine act = s :=
  if_pos (by rcases h with h | h | h <;> simp [h])

/-! ## Violations (R354) -/

/-- LP once a violation that is no false start is counted. -/
def Lp.violated (l : Lp) : Lp := { l with protoCnt := sat32 (l.protoCnt + 1), event := setEv l.event 0, irqs := 1 :: l.irqs }

section
variable (s : State) {code : Nat} (h5 : code ≠ 5) (cell type tag hdr : Nat)
include h5

theorem State.lpViolation_eq : s.lpViolation code cell type tag hdr =
    State.postOnce { s with lp := s.lp.violated } srcLP kProtocol code (BitVec.ofNat 64 (cell + 2 ^ 16 * type + 2 ^ 24 * tag))
      (BitVec.ofNat 32 code) (BitVec.ofNat 32 hdr) 0 0 := by
  have hfalse : (code == 5) = false := beq_eq_false_iff_ne.mpr h5
  unfold State.lpViolation
  rw [hfalse]
  rfl

theorem State.lpViolation_lp : (s.lpViolation code cell type tag hdr).lp = s.lp.violated := by
  rw [State.lpViolation_eq s h5, State.postOnce_lp]

/-- The first violation of its code in a beat is recorded, and nothing but LP and FL changes. -/
theorem State.lpViolation_recorded (hready : s.ntAll = true) (hfirst : (srcLP, kProtocol, code) ∉ s.fl.beatPosts) :
    RecordWritten s (s.lpViolation code cell type tag hdr) srcLP kProtocol 0
      (BitVec.ofNat 64 (cell + 2 ^ 16 * type + 2 ^ 24 * tag)) (BitVec.ofNat 32 code) (BitVec.ofNat 32 hdr) 0 0 ∧
    s.lpViolation code cell type tag hdr =
      { s with lp := s.lp.violated, fl := (s.lpViolation code cell type tag hdr).fl } := by
  rw [State.lpViolation_eq s h5]
  exact ⟨State.postOnce_recordWritten { s with lp := s.lp.violated } _ _ _ _ _ _ _ _ hready hfirst,
    State.postOnce_eq { s with lp := s.lp.violated } _ _ _ _ _ _ _ _ hready⟩

end

/-- A producer or a consumer that is refused: the violation alone (R354 code 0x08). -/
theorem State.lpViolation_index {s : State} (hready : s.ntAll = true) (hfirst : (srcLP, kProtocol, 8) ∉ s.fl.beatPosts) (n : Nat) :
    (s.lpViolation 8 n 0 0 0).lp = s.lp.violated ∧
    RecordWritten s (s.lpViolation 8 n 0 0 0) srcLP kProtocol 0 (BitVec.ofNat 64 n) 8 0 0 0 ∧
    s.lpViolation 8 n 0 0 0 = { s with lp := (s.lpViolation 8 n 0 0 0).lp, fl := (s.lpViolation 8 n 0 0 0).fl } := by
  obtain ⟨hwritten, heq⟩ := s.lpViolation_recorded (code := 8) (by decide) n 0 0 0 hready hfirst
  have hlp := s.lpViolation_lp (code := 8) (by decide) n 0 0 0
  exact ⟨hlp, hwritten, by rw [hlp]; exact heq⟩

/-! ## The end of a command (R352, R353) -/

/-- In `t` the command of `tag` is gone, and the request ring and the violations counted are as in `s`. -/
structure State.LpGone (s t : State) (tag : Nat) : Prop where
  prod : t.lp.reqProd = s.lp.reqProd
  cons : t.lp.reqCons = s.lp.reqCons
  count : t.lp.protoCnt = s.lp.protoCnt
  cmd : t.lp.cmds.find tag = none
  fetched : { sq := lpQueue, cid := tag } ∉ t.qe.fetched

theorem State.lpEnd_reqView (s : State) (tag code n : Nat) :
    (s.lpEnd tag code n).lp.reqView = (s.lp.reqProd, s.lp.reqCons, s.lp.protoCnt, s.lp.cmds.del tag) :=
  State.lpSend_reqView ..

theorem Qe.release_fetched (q : Qe) (c : CmdId) : (q.release c).fetched = q.fetched.filter (fun d => !(d == c)) := rfl

theorem State.lpEnd_gone {s t : State} (h : t.lp.reqProd = s.lp.reqProd ∧ t.lp.reqCons = s.lp.reqCons ∧ t.lp.protoCnt = s.lp.protoCnt)
    (tag code n : Nat) : s.LpGone (t.lpEnd tag code n) tag := by
  obtain ⟨hprod, hcons, hcount⟩ := h
  have hview := t.lpEnd_reqView tag code n
  simp only [Lp.reqView, Prod.mk.injEq] at hview
  obtain ⟨hprod', hcons', hcount', hcmds⟩ := hview
  refine ⟨hprod'.trans hprod, hcons'.trans hcons, hcount'.trans hcount, ?_, ?_⟩
  · rw [hcmds, KMap.find_del_self]
  · change _ ∉ (t.qe.release { sq := lpQueue, cid := tag }).fetched
    rw [Qe.release_fetched]
    simp

section
variable {s t : State} {tag : Nat} (h : s.LpGone t tag)
include h

theorem State.LpGone.lpEnd (n code k : Nat) : s.LpGone (t.lpEnd n code k) tag := by
  have hview := t.lpEnd_reqView n code k
  simp only [Lp.reqView, Prod.mk.injEq] at hview
  obtain ⟨hprod, hcons, hcount, hcmds⟩ := hview
  refine ⟨hprod.trans h.prod, hcons.trans h.cons, hcount.trans h.count, ?_, fun hmem => h.fetched (List.mem_filter.mp hmem).1⟩
  rw [hcmds]
  by_cases htag : tag = n
  · rw [htag, KMap.find_del_self]
  · rw [KMap.find_del_ne _ htag, h.cmd]

theorem State.LpGone.complete (c : CmdId) (st d0 d1 : Nat) (x : List (List Byte)) : s.LpGone (t.complete c st d0 d1 x) tag := by
  refine ⟨h.prod, h.cons, h.count, h.cmd, fun hmem => ?_⟩
  change _ ∈ (t.qe.complete c st d0 d1 x).fetched at hmem
  unfold Qe.complete at hmem
  split at hmem
  · rw [Qe.post_fetched] at hmem
    exact h.fetched (List.mem_filter.mp hmem).1
  · exact h.fetched hmem

theorem State.LpGone.dropStore (k : StoreCmd) : s.LpGone { t with qe := t.qe.dropStore k } tag :=
  ⟨h.prod, h.cons, h.count, h.cmd, h.fetched⟩

theorem State.LpGone.settleFlushes : s.LpGone t.settleFlushes tag := by
  refine kept_foldl (P := fun u => s.LpGone u tag) (fun u k hu => ?_) h
  split
  · dsimp only
    split
    · exact (hu.dropStore k).lpEnd ..
    · exact (hu.dropStore k).complete ..
  · exact hu

end

theorem State.applyPieces_lp (s : State) (n : Nat) (ps : List Piece) : (s.applyPieces n ps).lp = s.lp := by
  unfold State.applyPieces
  split <;> rfl

/-- A command that is stopped is gone, whatever of it is on the medium. -/
theorem State.lpStop_gone (s : State) (tag code : Nat) : s.LpGone (s.lpStop tag code) tag := by
  unfold State.lpStop
  split
  · exact State.lpEnd_gone ⟨rfl, rfl, rfl⟩ ..
  · next k _ =>
    dsimp only
    refine (State.lpEnd_gone ?_ ..).settleFlushes
    have hlp := s.applyPieces_lp k.nsid (k.pieces.filter Piece.onMedium)
    split <;> exact ⟨congrArg Lp.reqProd hlp, congrArg Lp.reqCons hlp, congrArg Lp.protoCnt hlp⟩

/-- A command with no storage command ends with its STATUS alone. -/
theorem State.lpStop_bare {s : State} {tag : Nat} (h : ∀ k ∈ s.qe.store, k.c ≠ { sq := lpQueue, cid := tag }) (code : Nat) :
    s.lpStop tag code = s.lpEnd tag code 0 := by
  have hnone : s.qe.store.find? (fun k => k.c == { sq := lpQueue, cid := tag } && !k.silent) = none :=
    List.find?_eq_none.mpr fun k hk => by simp [h k hk]
  unfold State.lpStop
  rw [hnone]

/-- Its STATUS, where the reply ring has a cell for it. -/
theorem State.lpEnd_replied {s : State} (hq : s.lp.outq = []) (hp : s.lp.rplProd < rplCells) (hfree : 1 ≤ s.lp.free) (tag code : Nat) :
    LpReplied s (s.lpEnd tag code 0) 0 (lpStatus tag code 0) :=
  (State.lpSend_one (s := { s with
      qe := s.qe.release { sq := lpQueue, cid := tag }, lp := { s.lp with cmds := s.lp.cmds.del tag } })
    hq (length_lpFrame_one ..) hp hfree).1

/-! ## DATA, ABORT and PAD (R349, R353, R354) -/

theorem exec_lpData_eq (s : State) : exec .lpData s = .next (s.lpTake (fun f => f.type == 3) (fun f s => s.lpDataFrame f)) := rfl

/-- What an ABORT does past its frame. -/
def State.lpAbortFrame (s : State) (f : LpFrame) : State :=
  if (s.lp.cmds.find f.tag).isSome then s.lpStop f.tag lpAborted
  else if s.lp.tagUsed f.tag then State.lpSend { s with lp := s.lp.unsend f.tag } [lpStatus f.tag lpAborted 0]
  else s.lpSend [lpNak f.tag 0x0B f.cell f.type]

theorem exec_lpAbort_eq (s : State) : exec .lpAbort s = .next (s.lpTake (fun f => f.type == 5) (fun f s => s.lpAbortFrame f)) := rfl

theorem exec_lpPad_eq (s : State) : exec .lpPad s = .next (s.lpTake (fun f => f.type == 0) (fun _ s => s)) := rfl

/-- A DATA frame of a granted WRITE, of the length and place its window takes. -/
theorem State.lpDataFrame_taken {s : State} {f : LpFrame} {c : LpCmd} (hc : s.lp.cmds.find f.tag = some c) (hop : c.opcode = 2)
    (hgranted : c.granted = true) (hlen : 1 ≤ bitsN f.arg 63 40 ∧ bitsN f.arg 63 40 ≤ 16384)
    (hlow : 262144 * c.window ≤ f.arg % 2 ^ 40)
    (hhigh : f.arg % 2 ^ 40 + bitsN f.arg 63 40 ≤ 262144 * c.window + c.windowLen)
    (hcells : f.cells = (16 + bitsN f.arg 63 40 + 63) / 64)
    (hlast : f.last = true →
      (c.add (f.arg % 2 ^ 40 - 262144 * c.window) (sliceZ f.bytes 16 (bitsN f.arg 63 40))).got.length = c.windowLen) :
    s.lpDataFrame f = { s with lp := { s.lp with
      cmds := s.lp.cmds.put f.tag { c.add (f.arg % 2 ^ 40 - 262144 * c.window) (sliceZ f.bytes 16 (bitsN f.arg 63 40)) with
        granted := !f.last } } } := by
  have hceil : ceilDiv (16 + bitsN f.arg 63 40) 64 = f.cells := by
    rw [hcells]
    rfl
  unfold State.lpDataFrame
  rw [hc]
  dsimp only
  rw [if_neg (by simp [hop]), if_pos hgranted]
  unfold State.lpWindowData
  dsimp only
  rw [hceil, if_neg]
  generalize f.arg % 2 ^ 40 = off at hlow hhigh hlast ⊢
  cases hl : f.last
  · simp [hlen.1, hlen.2, hlow, hhigh]
  · simp [hlen.1, hlen.2, hlow, hhigh, hlast hl]

theorem State.lpDataFrame_unknown {s : State} {f : LpFrame} (hc : s.lp.cmds.find f.tag = none) :
    s.lpDataFrame f = s.lpBad f 0x0A true := by
  unfold State.lpDataFrame
  rw [hc]

theorem State.lpAbortFrame_stops {s : State} {f : LpFrame} (h : (s.lp.cmds.find f.tag).isSome = true) :
    s.lpAbortFrame f = s.lpStop f.tag lpAborted := if_pos h

theorem State.lpAbortFrame_unknown {s : State} {f : LpFrame} (h : s.lp.tagUsed f.tag = false) :
    s.lpAbortFrame f = s.lpSend [lpNak f.tag 0x0B f.cell f.type] := by
  have hcmd : (s.lp.cmds.find f.tag).isSome = false := (Bool.or_eq_false_iff.mp h).1
  exact (if_neg (by simp [hcmd])).trans (if_neg (by simp [h]))

/-! ## The volume map (R356, R428) -/

/-- `t` differs from `s` where the write of a record of a pair does: the store, the free draws, FL, and the records MC drops. -/
abbrev State.recordOnly (s t : State) : Prop := t = { s with sw := t.sw, tick := t.tick, fl := t.fl, mc := t.mc }

theorem State.writeRecord_eq (s : State) (r : Record) : ∃ f m, s.writeRecord r = { s with fl := f, mc := m } := by
  unfold State.writeRecord
  dsimp only
  split
  · exact ⟨_, s.mc, rfl⟩
  · split
    · exact ⟨_, s.mc, rfl⟩
    · exact ⟨_, _, rfl⟩

section
variable {s t : State} (h : s.recordOnly t)
include h

theorem State.recordOnly.update (w : Sw) (n : Nat) (f : Fl) (m : Mc) : s.recordOnly { t with sw := w, tick := n, fl := f, mc := m } := by
  unfold State.recordOnly at h
  rw [h]

theorem State.recordOnly.swErase (k : Nat) : s.recordOnly (t.swErase k) := h.update (t.swErase k).sw t.tick t.fl t.mc

theorem State.recordOnly.swProgram (a : Nat) (l : List Byte) : s.recordOnly (t.swProgram a l) :=
  h.update (t.swProgram a l).sw (t.tick + 1) t.fl t.mc

theorem State.recordOnly.clearFor (n : Nat × Option Nat) : s.recordOnly (t.clearFor n) := by
  unfold State.clearFor
  split
  · exact h
  · exact h.swErase _

theorem State.recordOnly.postCorr (a b : Nat) (x : W64) (p q r w : W32) : s.recordOnly (t.postCorr a b x p q r w) := by
  obtain ⟨f, m, hpost⟩ : ∃ f m, t.postCorr a b x p q r w = { t with fl := f, mc := m } := t.writeRecord_eq _
  rw [hpost]
  exact h.update t.sw t.tick f m

theorem State.recordOnly.swProgramFail (a : Nat) (l : List Byte) : s.recordOnly (t.swProgramFail a l) :=
  State.recordOnly.postCorr (h.update _ _ t.fl t.mc) ..

end

theorem State.logWrite_recordOnly (s : State) (g : LogId) (p : List Byte) (w : List Bool) : s.recordOnly (s.logWrite g p w).1 := by
  have hclear := State.recordOnly.clearFor (s := s) (t := s) rfl (s.sw.nextSlot g)
  unfold State.logWrite
  dsimp only
  split
  · exact hclear.swProgram ..
  · have hagain : ∀ a l n, s.recordOnly (((s.clearFor (s.sw.nextSlot g)).swProgramFail a l).clearFor n) :=
      fun a l n => (hclear.swProgramFail a l).clearFor n
    split
    · exact (hagain _ _ _).swProgram ..
    · exact (hagain _ _ _).swProgramFail ..

theorem exec_lpVolMapWrite_set {s : State} (h : s.vendorLive = true) {n : Nat} (hn : 1 ≤ n ∧ n ≤ 16) (v : W32) (w : List Bool) :
    ∃ p, exec (.lpVolMapWrite n v w) s =
      .next (State.logWrite { s with lp := { s.lp with volMap := s.lp.volMap.set (n - 1) v } } logVolume p w).1 :=
  ⟨_, congrArg done (if_pos (by simp [h, hn.1, hn.2]))⟩

/-! ## The ring indices (R346, R354) -/

theorem exec_lpReqProdWrite_refused {s : State} (h : s.vendorLive = true) {v : W32}
    (hbad : reqCells ≤ bitsW v 12 0 ∨ (bitsW v 12 0 + reqCells - s.lp.reqCons) % reqCells < s.lp.avail) :
    exec (.lpReqProdWrite v) s = .next (s.lpViolation 8 (bitsW v 12 0) 0 0 0) :=
  congrArg done ((if_neg (by simp [h])).trans (if_pos hbad))

theorem exec_lpReqProdWrite_moves {s : State} (h : s.vendorLive = true) {v : W32} (hin : bitsW v 12 0 < reqCells)
    (hfwd : s.lp.avail ≤ (bitsW v 12 0 + reqCells - s.lp.reqCons) % reqCells) :
    exec (.lpReqProdWrite v) s = .next (State.lpSkipAll { s with lp := { s.lp with reqProd := bitsW v 12 0 } }) :=
  congrArg done ((if_neg (by simp [h])).trans (if_neg (not_or.mpr ⟨Nat.not_le.mpr hin, Nat.not_lt.mpr hfwd⟩)))

theorem exec_lpRplConsWrite_refused {s : State} (h : s.vendorLive = true) {v : W32}
    (hbad : (s.lp.rplProd + rplCells - s.lp.rplCons) % rplCells < (bitsW v 12 0 + rplCells - s.lp.rplCons) % rplCells) :
    exec (.lpRplConsWrite v) s = .next (s.lpViolation 8 (bitsW v 12 0) 0 0 0) :=
  congrArg done ((if_neg (by simp [h])).trans (if_pos hbad))

theorem exec_lpRplConsWrite_moves {s : State} (h : s.vendorLive = true) {v : W32}
    (hin : (bitsW v 12 0 + rplCells - s.lp.rplCons) % rplCells ≤ (s.lp.rplProd + rplCells - s.lp.rplCons) % rplCells) :
    exec (.lpRplConsWrite v) s =
      .next (State.lpSkipAll (State.lpSend { s with lp := { s.lp with rplCons := bitsW v 12 0 } } [])) :=
  congrArg done ((if_neg (by simp [h])).trans (if_neg (Nat.not_lt.mpr hin)))

/-! ## The transfer timeout (R352, R354 code 0x07) -/

theorem exec_lpXferTimeout_ends {s : State} {n : Nat} {c : LpCmd} (h : s.vendorLive = true) (ht : 0 < s.lp.timeout)
    (hc : s.lp.cmds.find n = some c) (hgranted : c.granted = true) :
    exec (.lpXferTimeout n) s = .next ((s.lpViolation 7 0 0 n 0).lpStop n lpTimeout) := by
  refine congrArg done ((if_neg (by simp [h, Nat.pos_iff_ne_zero.mp ht])).trans ?_)
  rw [hc]
  exact if_pos hgranted

theorem exec_lpXferTimeout_none {s : State} {n : Nat}
    (h : s.vendorLive = false ∨ s.lp.timeout = 0 ∨ s.lp.cmds.find n = none ∨ ∃ c, s.lp.cmds.find n = some c ∧ c.granted = false) :
    exec (.lpXferTimeout n) s = .next s := by
  by_cases hoff : (!s.vendorLive || s.lp.timeout = 0) = true
  · exact congrArg done (if_pos hoff)
  · refine congrArg done ((if_neg hoff).trans ?_)
    rcases h with h | h | h | ⟨c, hc, hgranted⟩
    · exact absurd (by simp [h]) hoff
    · exact absurd (by simp [h]) hoff
    · rw [h]
    · rw [hc]
      exact if_neg (by simp [hgranted])

/-! ## The statement -/

/-- A DATA frame that no command holds: NAK, and the violation recorded. -/
theorem exec_lpData_unknown {s : State} (h : s.lpFrameWaits) (htype : s.lp.head.type = 3) (hc : s.lp.cmds.find s.lp.head.tag = none)
    (hready : s.ntAll = true) (hfirst : (srcLP, kProtocol, 0x0A) ∉ s.fl.beatPosts) (hp : s.lp.rplProd < rplCells) (hfree : 1 ≤ s.lp.free) :
    ∃ t, exec .lpData s = .next t ∧ LpReplied s t 0 (lpNak s.lp.head.tag 0x0A s.lp.head.cell 3) ∧
      t.lp.protoCnt = sat32 (s.lp.protoCnt + 1) ∧ t.lp.event = setEv s.lp.event 0 ∧ t.fl.posted = s.fl.posted + 1 ∧
      t.lp.cmds = s.lp.cmds ∧ t = { s with lp := t.lp, fl := t.fl } := by
  obtain ⟨-, hq, -⟩ := id h
  obtain ⟨a, ha⟩ : ∃ a, a = s.lpAdvance s.lp.head := ⟨_, rfl⟩
  obtain ⟨u, hu⟩ : ∃ u, u = a.lpViolation 0x0A s.lp.head.cell s.lp.head.type s.lp.head.tag (a.lp.hdr s.lp.head.cell) := ⟨_, rfl⟩
  obtain ⟨⟨-, hposted⟩, heq⟩ := a.lpViolation_recorded (code := 0x0A) (by decide) s.lp.head.cell s.lp.head.type s.lp.head.tag
    (a.lp.hdr s.lp.head.cell) (by rw [ha]; exact hready) (by rw [ha]; exact hfirst)
  rw [← hu] at hposted heq
  have hlp : u.lp = a.lp.violated := by rw [heq]
  obtain ⟨hreplied, hsent⟩ := State.lpSend_one (s := u) (f := lpNak s.lp.head.tag 0x0A s.lp.head.cell s.lp.head.type)
    (by rw [hlp, ha]; exact hq) (length_lpFrame_one ..) (by rw [hlp, ha]; exact hp) (by rw [hlp, ha]; exact hfree)
  rw [hlp, ha] at hsent
  obtain ⟨t, ht⟩ : ∃ t, t = u.lpSend [lpNak s.lp.head.tag 0x0A s.lp.head.cell s.lp.head.type] := ⟨_, rfl⟩
  have hact : a.lpDataFrame s.lp.head = t := by
    rw [State.lpDataFrame_unknown (by rw [ha]; exact hc), ht, hu]
    rfl
  rw [← ht] at hreplied hsent
  have hrest : t = { u with lp := t.lp } := by rw [ht]; rfl
  obtain ⟨htake, -⟩ := State.lpTake_alone (mine := fun f => f.type == 3) (act := fun f s => s.lpDataFrame f) h
    (by simp [htype]) (ha ▸ hact) (by rw [hsent]; rfl) (by rw [hsent]; rfl)
  refine ⟨t, by rw [exec_lpData_eq, htake], ?replied, by rw [hsent]; rfl, by rw [hsent]; rfl, ?posted, by rw [hsent]; rfl, ?rest⟩
  case replied =>
    rw [htype] at hreplied
    have hprod : u.lp.rplProd = s.lp.rplProd := by rw [hlp, ha]; rfl
    unfold LpReplied at hreplied
    rwa [hprod] at hreplied
  case posted =>
    rw [hrest]
    exact hposted.trans (by rw [ha]; rfl)
  case rest =>
    have hfl : t.fl = u.fl := by rw [hrest]
    rw [hfl]
    rw [hrest, heq, ha]
    rfl

/-- An ABORT of a command with no storage command: STATUS ABORTED, and nothing else of it. -/
theorem exec_lpAbort_bare {s : State} (h : s.lpFrameWaits) (htype : s.lp.head.type = 5)
    (hc : (s.lp.cmds.find s.lp.head.tag).isSome = true) (hbare : ∀ k ∈ s.qe.store, k.c ≠ { sq := lpQueue, cid := s.lp.head.tag })
    (hp : s.lp.rplProd < rplCells) (hfree : 1 ≤ s.lp.free) :
    ∃ t, exec .lpAbort s = .next t ∧ LpReplied s t 0 (lpStatus s.lp.head.tag lpAborted 0) ∧ t.lp.cmds.find s.lp.head.tag = none ∧
      { sq := lpQueue, cid := s.lp.head.tag } ∉ t.qe.fetched ∧ t = { s with lp := t.lp, qe := t.qe } := by
  obtain ⟨-, hq, -⟩ := id h
  have hact : (s.lpAdvance s.lp.head).lpAbortFrame s.lp.head = (s.lpAdvance s.lp.head).lpEnd s.lp.head.tag lpAborted 0 :=
    (State.lpAbortFrame_stops (by exact hc)).trans (State.lpStop_bare (by exact hbare) _)
  have hgone := State.lpEnd_gone (s := s.lpAdvance s.lp.head) (t := s.lpAdvance s.lp.head) ⟨rfl, rfl, rfl⟩ s.lp.head.tag lpAborted 0
  obtain ⟨htake, -⟩ := State.lpTake_alone (mine := fun f => f.type == 5) (act := fun f s => s.lpAbortFrame f) h (by simp [htype]) hact
    hgone.prod hgone.cons
  refine ⟨_, by rw [exec_lpAbort_eq, htake], ?_, hgone.cmd, hgone.fetched, rfl⟩
  exact State.lpEnd_replied (s := s.lpAdvance s.lp.head) hq hp hfree s.lp.head.tag lpAborted

/-- An ABORT of a tag that no command holds: NAK. -/
theorem exec_lpAbort_unknown {s : State} (h : s.lpFrameWaits) (htype : s.lp.head.type = 5) (hfreeTag : s.lp.tagUsed s.lp.head.tag = false)
    (hp : s.lp.rplProd < rplCells) (hfree : 1 ≤ s.lp.free) :
    ∃ t, exec .lpAbort s = .next t ∧ LpReplied s t 0 (lpNak s.lp.head.tag 0x0B s.lp.head.cell 5) ∧ t = { s with lp := t.lp } := by
  obtain ⟨-, hq, -⟩ := id h
  have hact : (s.lpAdvance s.lp.head).lpAbortFrame s.lp.head =
      (s.lpAdvance s.lp.head).lpSend [lpNak s.lp.head.tag 0x0B s.lp.head.cell 5] := by
    rw [State.lpAbortFrame_unknown (by exact hfreeTag), htype]
  obtain ⟨hreplied, hsent⟩ := State.lpSend_one (s := s.lpAdvance s.lp.head) (f := lpNak s.lp.head.tag 0x0B s.lp.head.cell 5) hq
    (length_lpFrame_one ..) hp hfree
  obtain ⟨htake, -⟩ := State.lpTake_alone (mine := fun f => f.type == 5) (act := fun f s => s.lpAbortFrame f) h (by simp [htype]) hact
    (by rw [hsent]; rfl) (by rw [hsent]; rfl)
  exact ⟨_, by rw [exec_lpAbort_eq, htake], hreplied, rfl⟩

/-- A granted window that is not complete in time: STATUS TIMEOUT, and the violation recorded (R352, R354). -/
theorem exec_lpXferTimeout_bare {s : State} {n : Nat} {c : LpCmd} (h : s.vendorLive = true) (ht : 0 < s.lp.timeout)
    (hc : s.lp.cmds.find n = some c) (hgranted : c.granted = true) (hbare : ∀ k ∈ s.qe.store, k.c ≠ { sq := lpQueue, cid := n })
    (hq : s.lp.outq = []) (hready : s.ntAll = true) (hfirst : (srcLP, kProtocol, 7) ∉ s.fl.beatPosts) (hp : s.lp.rplProd < rplCells)
    (hfree : 1 ≤ s.lp.free) :
    ∃ t, exec (.lpXferTimeout n) s = .next t ∧ LpReplied s t 0 (lpStatus n lpTimeout 0) ∧ t.lp.cmds.find n = none ∧
      t.lp.protoCnt = sat32 (s.lp.protoCnt + 1) ∧ t.fl.posted = s.fl.posted + 1 ∧ t = { s with lp := t.lp, fl := t.fl, qe := t.qe } := by
  obtain ⟨⟨-, hposted⟩, heq⟩ := s.lpViolation_recorded (code := 7) (by decide) 0 0 n 0 hready hfirst
  obtain ⟨u, hu⟩ : ∃ u, u = s.lpViolation 7 0 0 n 0 := ⟨_, rfl⟩
  rw [← hu] at hposted heq
  have hlp : u.lp = s.lp.violated := by rw [heq]
  have hends : exec (.lpXferTimeout n) s = .next (u.lpEnd n lpTimeout 0) := by
    rw [exec_lpXferTimeout_ends h ht hc hgranted, ← hu, State.lpStop_bare (by rw [heq]; exact hbare)]
  have hgone := State.lpEnd_gone (s := u) (t := u) ⟨rfl, rfl, rfl⟩ n lpTimeout 0
  have hreplied := State.lpEnd_replied (s := u) (by rw [hlp]; exact hq) (by rw [hlp]; exact hp) (by rw [hlp]; exact hfree) n lpTimeout
  refine ⟨_, hends, ?replied, hgone.cmd, ?count, hposted, ?rest⟩
  case replied =>
    have hprod : u.lp.rplProd = s.lp.rplProd := by rw [hlp]; rfl
    unfold LpReplied at hreplied
    rwa [hprod] at hreplied
  case count =>
    rw [hgone.count, hlp]
    rfl
  case rest =>
    obtain ⟨t, htail⟩ : ∃ t, t = u.lpEnd n lpTimeout 0 := ⟨_, rfl⟩
    have hrest : t = { u with lp := t.lp, qe := t.qe } := by rw [htail]; rfl
    have hfl : t.fl = u.fl := by rw [hrest]
    rw [← htail, hfl, hrest, heq]

/-- Settles O27: a frame alone on the request ring is taken and none is left behind it, each reply goes out at once, and a violation
is one record. -/
theorem ronnelFrames : Obligations.RonnelFrames := by
  unfold Obligations.RonnelFrames
  refine ⟨?data, ?dataUnknown, ?abort, ?abortUnknown, ?pad, ?prodOver, ?prodHeld, ?prodHandled, ?cons, ?consOver, ?volMap, ?timeout,
    ?abortAny, ?prodBack, ?moves, ?noFrame, ?otherFrame, ?noVolume, ?noTimeout, ?timeoutAny⟩
  case data =>
    intro c s h htype hc hop hgranted hlen ⟨hlow, hhigh⟩ hcells hlast
    obtain ⟨htake, havail⟩ := State.lpTake_alone (mine := fun f => f.type == 3) (act := fun f s => s.lpDataFrame f) h (by simp [htype])
      (State.lpDataFrame_taken (s := s.lpAdvance s.lp.head) hc hop hgranted hlen hlow hhigh hcells hlast) rfl rfl
    exact ⟨_, by rw [exec_lpData_eq, htake], KMap.find_put_self .., havail, rfl, rfl⟩
  case dataUnknown => exact fun s h htype hc hready hfirst hp hfree => exec_lpData_unknown h htype hc hready hfirst hp hfree
  case abort => exact fun s h htype hc hbare hp hfree => exec_lpAbort_bare h htype hc hbare hp hfree
  case abortUnknown => exact fun s h htype hfreeTag hp hfree => exec_lpAbort_unknown h htype hfreeTag hp hfree
  case pad =>
    intro s h htype
    obtain ⟨-, -, -, -, hfit, -⟩ := id h
    obtain ⟨htake, -⟩ := State.lpTake_alone (mine := fun f => f.type == 0) (act := fun _ s => s) h (by simp [htype]) rfl rfl rfl
    have hend : (s.lp.head.cell + s.lp.head.extent) % reqCells = 0 := by
      have hextent : s.lp.head.extent = reqCells - s.lp.head.cell := if_pos htype
      have hcell : s.lp.head.cell ≤ reqCells := by
        unfold Lp.badExtent at hfit
        simp only [Bool.or_eq_false_iff, decide_eq_false_iff_not] at hfit
        omega
      rw [hextent, Nat.add_sub_cancel' hcell, Nat.mod_self]
    rw [exec_lpPad_eq, htake]
    unfold State.lpAdvance
    rw [hend]
  case prodOver =>
    intro v s hlive hbad hready hfirst
    exact ⟨_, exec_lpReqProdWrite_refused hlive (.inl hbad), State.lpViolation_index hready hfirst _⟩
  case prodHeld =>
    intro v s hlive hin hfwd hq
    rw [exec_lpReqProdWrite_moves hlive hin hfwd, State.lpSkipAll_stops (.inl (by simp [State.lpReads, hq]))]
  case prodHandled =>
    intro v s hlive hin _ hnone _ hsome htype hcells hring hfits
    have hfit : Lp.badExtent { s.lp with reqProd := bitsW v 12 0 } s.lp.head = false := by
      have hextent : s.lp.head.extent = s.lp.head.cells := if_neg (by omega)
      have havail : Lp.avail { s.lp with reqProd := bitsW v 12 0 } = (bitsW v 12 0 + reqCells - s.lp.reqCons) % reqCells := rfl
      have hcell : s.lp.head.cell = s.lp.reqCons := rfl
      unfold Lp.badExtent
      rw [hextent, havail, hcell]
      simp only [Bool.or_eq_false_iff, decide_eq_false_iff_not, beq_eq_false_iff_ne]
      omega
    exact (exec_lpReqProdWrite_moves hlive hin (by rw [hnone]; exact Nat.zero_le _)).trans
      (congrArg Host.Outcome.next (State.lpSkipAll_handled (s := { s with lp := { s.lp with reqProd := bitsW v 12 0 } }) hfit htype))
  case cons =>
    intro v s hlive hin hq hnone
    have hsend : State.lpSend { s with lp := { s.lp with rplCons := bitsW v 12 0 } } [] =
        { s with lp := { s.lp with rplCons := bitsW v 12 0 } } :=
      congrArg (fun l => { s with lp := l }) (Lp.send_none (l := { s.lp with rplCons := bitsW v 12 0 }) hq)
    rw [exec_lpRplConsWrite_moves hlive hin, hsend]
    exact congrArg Host.Outcome.next (State.lpSkipAll_stops (s := { s with lp := { s.lp with rplCons := bitsW v 12 0 } }) (.inr hnone))
  case consOver =>
    intro v s hlive hbad hready hfirst
    exact ⟨_, exec_lpRplConsWrite_refused hlive hbad, State.lpViolation_index hready hfirst _⟩
  case volMap =>
    intro n v w s hlive hn
    obtain ⟨p, hset⟩ := exec_lpVolMapWrite_set hlive hn v w
    obtain ⟨t, ht⟩ : ∃ t, t = (State.logWrite { s with lp := { s.lp with volMap := s.lp.volMap.set (n - 1) v } } logVolume p w).1 :=
      ⟨_, rfl⟩
    have honly : State.recordOnly { s with lp := { s.lp with volMap := s.lp.volMap.set (n - 1) v } } t := ht ▸ State.logWrite_recordOnly ..
    have hlp : t.lp = { s.lp with volMap := s.lp.volMap.set (n - 1) v } := by rw [honly]
    refine ⟨t, by rw [hset, ht], hlp, ?_⟩
    rw [hlp]
    exact honly
  case timeout => exact fun n c s hlive ht hc hgranted _ hbare hq hready hfirst hp hfree =>
    exec_lpXferTimeout_bare hlive ht hc hgranted hbare hq hready hfirst hp hfree
  case abortAny =>
    intro s h htype hc
    have hgone := (s.lpAdvance s.lp.head).lpStop_gone s.lp.head.tag lpAborted
    obtain ⟨htake, -⟩ := State.lpTake_alone (mine := fun f => f.type == 5) (act := fun f s => s.lpAbortFrame f) h (by simp [htype])
      (State.lpAbortFrame_stops (s := s.lpAdvance s.lp.head) hc) hgone.prod hgone.cons
    exact ⟨_, by rw [exec_lpAbort_eq, htake], hgone.cmd, hgone.fetched⟩
  case prodBack =>
    intro v s hlive _ hbad hready hfirst
    exact ⟨_, exec_lpReqProdWrite_refused hlive (.inr hbad), State.lpViolation_index hready hfirst _⟩
  case moves => exact fun v s hlive =>
    ⟨fun hin hfwd => exec_lpReqProdWrite_moves hlive hin hfwd, fun hin => exec_lpRplConsWrite_moves hlive hin⟩
  case noFrame =>
    intro s h
    have hnone : ∀ mine act, s.lpTake mine act = s := fun mine act => State.lpTake_other (h.imp_right .inl) act
    exact ⟨congrArg Host.Outcome.next (hnone _ _), congrArg Host.Outcome.next (hnone _ _), congrArg Host.Outcome.next (hnone _ _)⟩
  case otherFrame =>
    intro s
    have hother : ∀ (n : Nat) (act : LpFrame → State → State), s.lp.head.type ≠ n → s.lpTake (fun f => f.type == n) act = s :=
      fun n act hne => State.lpTake_other (mine := fun f => f.type == n) (.inr (.inr (beq_eq_false_iff_ne.mpr hne))) act
    exact ⟨fun h => congrArg Host.Outcome.next (hother 3 _ h), fun h => congrArg Host.Outcome.next (hother 5 _ h),
      fun h => congrArg Host.Outcome.next (hother 0 _ h)⟩
  case noVolume =>
    intro n v w s h
    refine congrArg done (if_neg ?_)
    rcases h with h | h | h
    · simp [h]
    · simp [h]
    · simp [Nat.not_le.mpr h]
  case noTimeout => exact fun n s h => exec_lpXferTimeout_none h
  case timeoutAny =>
    intro n c s hlive ht hc hgranted
    have hgone := (s.lpViolation 7 0 0 n 0).lpStop_gone n lpTimeout
    refine ⟨_, exec_lpXferTimeout_ends hlive ht hc hgranted, hgone.cmd, ?_⟩
    rw [hgone.count, State.lpViolation_lp s (code := 7) (by decide)]
    rfl

end Sys2Proof.Machine
end
